-- ==== Sys2Proof/Word.lean ====
section
/-! DEFINITION. The word types of the ZL9 model: what the manual treats as bits. -/

namespace Sys2Proof

/-- One byte, the addressable unit of lofts, LP6 memory, tack stores and host memory. -/
abbrev Byte := BitVec 8

/-- A 12-bit link sequence number (R337). -/
abbrev Seq := BitVec 12

/-- A register-page word (R486) or an instruction word (R98). -/
abbrev W32 := BitVec 32

/-- A scalar or control register of a stall. -/
abbrev W64 := BitVec 64

/-- A frame number: the value of the 48-bit frame counter (R16, R46). -/
abbrev Frame := BitVec 48

/-- A status code (R9). -/
abbrev Code := BitVec 16

/-- A tack address (R98). -/
abbrev Tack := BitVec 16

/-- A stall number (R6). -/
abbrev StallId := Fin 384

/-- A scalar register number s0 to s31. -/
abbrev SReg := Fin 32

/-- A vector register number v0 to v31. -/
abbrev VReg := Fin 32

/-- A mask register number k0 to k7. -/
abbrev KReg := Fin 8

/-- A yard number; it also numbers drovers and Forges (R19). -/
abbrev Yard := Fin 2

/-- A torus port: 0 +X, 1 −X, 2 +Y, 3 −Y, 4 +Z, 5 −Z, 6 +W, 7 −W (R19). -/
abbrev PortId := Fin 8

/-- An LP6 channel (R19). -/
abbrev Chan := Fin 64

/-- A host queue (R483). -/
abbrev QueueId := Fin 16

end Sys2Proof
end

