-- ==== Sys2Proof/Syntax.lean ====
section
/-! DEFINITION. The commands of the block: one constructor of Instr per row of the table of operations
and events, with the operands that the row's rules name, and the operand types. -/

namespace Sys2Proof

/-- A context slot of a stall (R96). -/
inductive Slot where
  | primary
  | paddock
deriving DecidableEq, Repr

/-- Who issues a register access (R50, R502): the host over the register BAR, or gate firmware. -/
inductive Requester where
  | host
  | firmware
deriving DecidableEq, Repr

/-- The immediate of an I-format instruction: imm16, or imm32 in a long form (R100, R101). -/
inductive Imm where
  | short (v : BitVec 16)
  | long (v : BitVec 32)
deriving DecidableEq, Repr

/-- The operand fields of a V-format instruction (R98, R147); t is func8 [7:5]. -/
structure VFormat where
  k : KReg
  t : BitVec 3
  vd : VReg
  va : VReg
  vb : VReg
deriving DecidableEq, Repr

/-- The operand fields of an M-format instruction (R98). -/
structure MFormat where
  sel : BitVec 4
  b : SReg
  a : SReg
  d : SReg
deriving DecidableEq, Repr

/-- The two readings of a low counter register (R50). -/
inductive CounterReg where
  | frameNow
  | uptime
deriving DecidableEq, Repr

/-- The fields of a tick marker (R361), less TX_WAIT, which the arrival time already takes off. -/
structure TickMarker where
  frame : Frame
  hopDepth : BitVec 8
  holdover : Bool
  step : Bool
  /-- ps from the sender's boundary to the departure of the marker's first bit -/
  txWait : W32
deriving DecidableEq, Repr

/-- A storage error that arose in a frame (R539): in the LP6 burst or loft word at an address (ue: more than its code
corrects), in the message at a position of a mailbox, in the tack word at an address, in a quarter of a vector register, or
in a number of gatehouse SRAM words that were read and corrected. -/
inductive Upset where
  | unit (a : Nat) (ue : Bool)
  | message (st : StallId) (mbx : Fin 8) (i : Nat)
  | tack (st : StallId) (a : Tack)
  | register (st : StallId) (v : VReg) (quarter : Fin 4)
  | sram (words : Nat)
deriving DecidableEq, Repr

/-- What the power and thermal controller samples in the frame that ends (R575, R581, R582), and the storage errors that arose
in it. -/
structure BoundaryInput where
  /-- sensors 0 to 33 in units of 0.25 °C, signed -/
  temps : List Int
  /-- W: yard 0, yard 1, gatehouse, and the whole device -/
  power : List Nat
  /-- mV and 0.1 A of each rail in RAIL_SEL order -/
  rails : List (Nat × Nat)
  upsets : List Upset
deriving DecidableEq, Repr

/-- The header fields of a flit that its own row does not fix (R337). -/
structure FlitHeader where
  replay : Bool
  seq : Seq
  ack : Seq
  cvc : BitVec 3
  ccount : BitVec 9
deriving DecidableEq, Repr

/-- TYPE and VC of a flit that arrives (R337), and which of the SEQ values still missing on its link belong to flits of its
own leg (R382): the manual does not say how a device knows the leg of a flit that it has not seen (log 50). -/
structure FlitKind where
  ftype : BitVec 4
  vc : BitVec 3
  gaps : List Seq
deriving DecidableEq, Repr

/-- The bytes that arrive at a port as one flit (R335). -/
structure RawFlit where
  port : PortId
  bytes : List Byte
deriving DecidableEq, Repr

/-- The end of the n-th pass of a slot that is in flight, in the order in which they started; the bits of accErr name mangers
whose accumulate stage met an uncorrectable accumulator-file error (R250, R263). -/
structure PassEnd where
  accErr : BitVec 4
  pass : Nat
deriving DecidableEq, Repr

/-- A port at the frame of a lane swap, and whether its receiver has seen the spare carry the flits of the old lane (R365). -/
structure SwapCheck where
  port : PortId
  checked : Bool
deriving DecidableEq, Repr

/-- A read through the register BAR: its offset and its size in bytes (R486). -/
structure RegRead where
  off : BitVec 26
  size : Nat
deriving DecidableEq, Repr

/-- A flit as bits on a lane, less its CRC (R335, R337): TYPE, VC, header, TAG and 240 bytes. -/
structure Flit where
  ftype : BitVec 4
  vc : BitVec 3
  hdr : FlitHeader
  tag : BitVec 20
  payload : List Byte
deriving DecidableEq, Repr

/-- The fields of a HELLO payload (R353). -/
structure Hello where
  verMax : BitVec 16
  verMin : BitVec 16
  features : W32
  deviceId : W64
  port : BitVec 3
  ident : Bool
  /-- CRED_ADV of VC0 to VC5 -/
  credAdv : List Nat
  lanes : BitVec 5
  slowRate : Bool
deriving DecidableEq, Repr

/-- What lane training reached (R333): the trained lanes in each direction at each rate. -/
structure TrainResult where
  txFast : BitVec 17
  rxFast : BitVec 17
  txSlow : BitVec 17
  rxSlow : BitVec 17
  /-- bit i: the partner reaches configuration i, 0 to 5 in the order of R333 -/
  partner : BitVec 6
deriving DecidableEq, Repr

/-- The contents of a COLLECT flit (R383, R394); send names SENDER and DEST of a SEND. -/
structure CollectFlit where
  send : Option (BitVec 4 × BitVec 4)
  seq : W32
  signature : W64
  matched : Bool
  refused : Bool
  rank : BitVec 4
  aborted : Bool
deriving DecidableEq, Repr

/-- The contents of a COMPLETE flit (R383, R400). -/
structure CompleteFlit where
  allComplete : Bool
  k : Nat
  worst : Code
  rank : BitVec 4
deriving DecidableEq, Repr

/-- An iterate of the Forge's solver (R435 to R438): the point x, and for each row the slacks and the multipliers of its
lower and its upper bound. An equality's multiplier stands as that of its upper bound. -/
structure ForgePoint where
  x : List W64
  tl : List W64
  tu : List W64
  yl : List W64
  yu : List W64
deriving DecidableEq, Repr

/-- A direction that the solver holds for a certificate of infeasibility (R437): multipliers of the lower and the upper
bounds, or a direction of x. -/
inductive ForgeCert where
  | none
  | primal (yl yu : List W64)
  | dual (d : List W64)
deriving DecidableEq, Repr

/-- Where the hearth of a problem stands: the iterations completed, the hearth cycles spent, the direction that the Forge
holds for a certificate in that iteration, and whether a read for the problem met a channel that is offline (R450). The
iterate follows from the solver's steps. -/
structure ForgeResult where
  iters : Nat
  cycles : Nat
  cert : ForgeCert
  offline : Bool
deriving DecidableEq, Repr

/-- Where a problem of a Forge request stands when its deadline or an abort stops it (R442). -/
inductive ForgeStop where
  | betweenIterations (r : ForgeResult)
  | inFactorisation (r : ForgeResult)
deriving DecidableEq, Repr

/-- What verification and fuse blowing met outside the ROM's rules (R522): the fuse bits that still
read 0 after three attempts, and the range of ZHI versions that the bundle's gate firmware reports from the entry into
FW_INIT on (R468). -/
structure VerifyInput where
  stuckBits : List Nat
  fwMin : BitVec 16
  fwMax : BitVec 16
deriving DecidableEq, Repr

/-- What FW_INIT meets outside the device's rules (R465, R467): for each channel the highest rate it trains at (3: it fails
training). -/
structure FwInitInput where
  trained : List (BitVec 2)
deriving DecidableEq, Repr

/-- A rail of R573, numbered in its order, and the voltage at which it stays, in µV. -/
structure RailSample where
  rail : Fin 7
  uv : Nat
deriving DecidableEq, Repr

/-- A faulty word that a self-test run finds (R567); DIE and REPAIR are the controller's own. -/
structure BistFault where
  mem : BitVec 4
  manger : BitVec 2
  inst : BitVec 9
  bg : BitVec 2
  algo : Bool
  element : BitVec 3
  addr : BitVec 35
  bit : BitVec 10
  /-- the fault lies in an unused spare row or an unused physical lane -/
  unusedSpare : Bool
deriving DecidableEq, Repr

/-- A debug token as shifted in (R533), less the fixed parts that the shift checks. -/
structure DebugToken where
  magic : W32
  format : BitVec 16
  keySlot : BitVec 8
  deviceId : W64
  nonce : BitVec 256
  rights : W32
  pubkey : BitVec 256
  signature : List Byte
deriving DecidableEq, Repr

/-- How the sideband's bus works (R585): as SMBus at the static address, or as I3C, with a dynamic address where the controller
has assigned one. -/
inductive SidebandMode where
  | smbus
  | i3c (dynamic : Option (BitVec 7))
deriving DecidableEq, Repr

/-- A write on the sideband (R585, R586): a command code with its data byte, and a PEC where the host supplies it; or the
controller's choice of the bus mode and of a dynamic address, for which the table of commands has no row. -/
inductive MgWrite where
  | command (code data : Byte) (pec : Option Byte)
  | assign (m : SidebandMode)
deriving DecidableEq, Repr

/-- What the test port asks for with DBG_ACCESS (R533): a read or a write of a word; or, in place of DBG_ACCESS, the shift of an
instruction code that R533's table does not list, for which the table of commands has no row. -/
inductive DebugAccess where
  | read
  | write (v : W32)
  | unlisted (code : BitVec 8)
deriving DecidableEq, Repr

/-- A memory-BAR access (R40). -/
inductive BarAccess where
  | read (bytes : Nat)
  | write (data : List Byte)
deriving DecidableEq, Repr

/-- How a UCIe module came up or failed (R454, R455): up at a rate code of HP_STAT, perhaps at x32. -/
structure ModuleState where
  up : Bool
  half : Bool
deriving DecidableEq, Repr

/-- The direction of a context move (R127). -/
inductive ParkDir where
  | park
  | unpark
deriving DecidableEq, Repr

/-- The commands of the block: one constructor per row of the table of operations and events. -/
inductive Instr where
  /- Scalar integer instructions -/
  | add (st : StallId) (d a b : SReg)
  | sub (st : StallId) (d a b : SReg)
  | and (st : StallId) (d a b : SReg)
  | or (st : StallId) (d a b : SReg)
  | xor (st : StallId) (d a b : SReg)
  | sll (st : StallId) (d a b : SReg)
  | srl (st : StallId) (d a b : SReg)
  | sra (st : StallId) (d a b : SReg)
  | slt (st : StallId) (d a b : SReg)
  | sltu (st : StallId) (d a b : SReg)
  | mul (st : StallId) (d a b : SReg)
  | mulh (st : StallId) (d a b : SReg)
  | mulhu (st : StallId) (d a b : SReg)
  | div (st : StallId) (d a b : SReg)
  | divu (st : StallId) (d a b : SReg)
  | rem (st : StallId) (d a b : SReg)
  | remu (st : StallId) (d a b : SReg)
  | min (st : StallId) (d a b : SReg)
  | max (st : StallId) (d a b : SReg)
  | minu (st : StallId) (d a b : SReg)
  | maxu (st : StallId) (d a b : SReg)
  | clz (st : StallId) (d a b : SReg)
  | ctz (st : StallId) (d a b : SReg)
  | popc (st : StallId) (d a b : SReg)
  | addi (st : StallId) (d a : SReg) (imm : Imm)
  | andi (st : StallId) (d a : SReg) (imm : Imm)
  | ori (st : StallId) (d a : SReg) (imm : Imm)
  | xori (st : StallId) (d a : SReg) (imm : Imm)
  | shi (st : StallId) (d a : SReg) (imm : Imm)
  | lih (st : StallId) (d a : SReg) (imm : Imm)
  /- Scalar floating-point instructions -/
  | faddD (st : StallId) (d a b : SReg)
  | fsubD (st : StallId) (d a b : SReg)
  | fmulD (st : StallId) (d a b : SReg)
  | fdivD (st : StallId) (d a b : SReg)
  | fsqrtD (st : StallId) (d a b : SReg)
  | fminD (st : StallId) (d a b : SReg)
  | fmaxD (st : StallId) (d a b : SReg)
  | feqD (st : StallId) (d a b : SReg)
  | fltD (st : StallId) (d a b : SReg)
  | fleD (st : StallId) (d a b : SReg)
  | fclassD (st : StallId) (d a b : SReg)
  | faddS (st : StallId) (d a b : SReg)
  | fsubS (st : StallId) (d a b : SReg)
  | fmulS (st : StallId) (d a b : SReg)
  | fdivS (st : StallId) (d a b : SReg)
  | fsqrtS (st : StallId) (d a b : SReg)
  | fminS (st : StallId) (d a b : SReg)
  | fmaxS (st : StallId) (d a b : SReg)
  | feqS (st : StallId) (d a b : SReg)
  | fltS (st : StallId) (d a b : SReg)
  | fleS (st : StallId) (d a b : SReg)
  | fclassS (st : StallId) (d a b : SReg)
  | fcvtDS (st : StallId) (d a b : SReg)
  | fcvtSD (st : StallId) (d a b : SReg)
  | fcvtDL (st : StallId) (d a b : SReg)
  | fcvtLD (st : StallId) (d a b : SReg)
  | fcvtSL (st : StallId) (d a b : SReg)
  | fcvtLS (st : StallId) (d a b : SReg)
  | fmaddD (st : StallId) (d a b c : SReg)
  | fmsubD (st : StallId) (d a b c : SReg)
  | fnmaddD (st : StallId) (d a b c : SReg)
  | fnmsubD (st : StallId) (d a b c : SReg)
  | fmaddS (st : StallId) (d a b c : SReg)
  | fmsubS (st : StallId) (d a b c : SReg)
  | fnmaddS (st : StallId) (d a b c : SReg)
  | fnmsubS (st : StallId) (d a b c : SReg)
  /- Control flow -/
  | beq (st : StallId) (a b : SReg) (off : BitVec 16)
  | bne (st : StallId) (a b : SReg) (off : BitVec 16)
  | blt (st : StallId) (a b : SReg) (off : BitVec 16)
  | bge (st : StallId) (a b : SReg) (off : BitVec 16)
  | bltu (st : StallId) (a b : SReg) (off : BitVec 16)
  | bgeu (st : StallId) (a b : SReg) (off : BitVec 16)
  | jal (st : StallId) (off : BitVec 26)
  | jalr (st : StallId) (d a : SReg) (imm : Imm)
  | loop (st : StallId) (d a : SReg) (imm : Imm)
  /- Loft loads and stores, control space -/
  | ldD (st : StallId) (d a : SReg) (imm : Imm)
  | ldW (st : StallId) (d a : SReg) (imm : Imm)
  | ldWu (st : StallId) (d a : SReg) (imm : Imm)
  | ldH (st : StallId) (d a : SReg) (imm : Imm)
  | ldHu (st : StallId) (d a : SReg) (imm : Imm)
  | ldB (st : StallId) (d a : SReg) (imm : Imm)
  | ldBu (st : StallId) (d a : SReg) (imm : Imm)
  | stD (st : StallId) (d a : SReg) (imm : Imm)
  | stW (st : StallId) (d a : SReg) (imm : Imm)
  | stH (st : StallId) (d a : SReg) (imm : Imm)
  | stB (st : StallId) (d a : SReg) (imm : Imm)
  | crr (st : StallId) (d a : SReg) (imm : Imm)
  | crw (st : StallId) (d a : SReg) (imm : Imm)
  /- Frame, context and fence instructions -/
  | fwait (st : StallId) (d a b : SReg)
  | fyield (st : StallId) (d a b : SReg)
  | fence (st : StallId) (d a b : SReg)
  | eret (st : StallId) (d a b : SReg)
  | cyield (st : StallId) (d a b : SReg)
  | halt (st : StallId) (d a b : SReg)
  | trap (st : StallId) (d a : SReg) (imm : Imm)
  /- Messages -/
  | send (st : StallId) (d a b : SReg)
  | recv (st : StallId) (d a b : SReg)
  | recva (st : StallId) (d a b : SReg)
  | mgrant (st : StallId) (d a b : SReg)
  | chclose (st : StallId) (d a b : SReg)
  /- Vector integer -/
  | vadd (st : StallId) (v : VFormat)
  | vsub (st : StallId) (v : VFormat)
  | vmul (st : StallId) (v : VFormat)
  | vmulh (st : StallId) (v : VFormat)
  | vmulhu (st : StallId) (v : VFormat)
  | vmin (st : StallId) (v : VFormat)
  | vmax (st : StallId) (v : VFormat)
  | vminu (st : StallId) (v : VFormat)
  | vmaxu (st : StallId) (v : VFormat)
  | vand (st : StallId) (v : VFormat)
  | vor (st : StallId) (v : VFormat)
  | vxor (st : StallId) (v : VFormat)
  | vsll (st : StallId) (v : VFormat)
  | vsrl (st : StallId) (v : VFormat)
  | vsra (st : StallId) (v : VFormat)
  | vcmpeq (st : StallId) (v : VFormat)
  | vcmpne (st : StallId) (v : VFormat)
  | vcmplt (st : StallId) (v : VFormat)
  | vcmpltu (st : StallId) (v : VFormat)
  | vcmple (st : StallId) (v : VFormat)
  | vcmpleu (st : StallId) (v : VFormat)
  /- Vector floating point -/
  | vfadd (st : StallId) (v : VFormat)
  | vfsub (st : StallId) (v : VFormat)
  | vfmul (st : StallId) (v : VFormat)
  | vfma (st : StallId) (v : VFormat)
  | vfnma (st : StallId) (v : VFormat)
  | vfdiv (st : StallId) (v : VFormat)
  | vfsqrt (st : StallId) (v : VFormat)
  | vfmin (st : StallId) (v : VFormat)
  | vfmax (st : StallId) (v : VFormat)
  | vfabs (st : StallId) (v : VFormat)
  | vfneg (st : StallId) (v : VFormat)
  | vfcmpeq (st : StallId) (v : VFormat)
  | vfcmplt (st : StallId) (v : VFormat)
  | vfcmple (st : StallId) (v : VFormat)
  | vfcmpun (st : StallId) (v : VFormat)
  /- Convert and permute, masks, reductions -/
  | vcvt (st : StallId) (src : BitVec 3) (v : VFormat)
  | vcvtFromE4m3 (st : StallId) (v : VFormat)
  | vcvtFromE5m2 (st : StallId) (v : VFormat)
  | vcvtToE4m3 (st : StallId) (v : VFormat)
  | vcvtToE5m2 (st : StallId) (v : VFormat)
  | vid (st : StallId) (v : VFormat)
  | vslidedn (st : StallId) (v : VFormat)
  | vslideup (st : StallId) (v : VFormat)
  | vperm (st : StallId) (v : VFormat)
  | kand (st : StallId) (kd ks1 ks2 : KReg) (vd va vb : VReg)
  | kor (st : StallId) (kd ks1 ks2 : KReg) (vd va vb : VReg)
  | kxor (st : StallId) (kd ks1 ks2 : KReg) (vd va vb : VReg)
  | kandn (st : StallId) (kd ks1 ks2 : KReg) (vd va vb : VReg)
  | vrsum (st : StallId) (v : VFormat)
  | vrmin (st : StallId) (v : VFormat)
  | vrmax (st : StallId) (v : VFormat)
  | vsegsum (st : StallId) (v : VFormat)
  | vsegmin (st : StallId) (v : VFormat)
  | vsegmax (st : StallId) (v : VFormat)
  | vcompress (st : StallId) (v : VFormat)
  | vexpand (st : StallId) (v : VFormat)
  /- Vector memory -/
  | vld (st : StallId) (v : VFormat)
  | vlds (st : StallId) (v : VFormat)
  | vst (st : StallId) (v : VFormat)
  | vsts (st : StallId) (v : VFormat)
  | vldm (st : StallId) (v : VFormat)
  | vldsm (st : StallId) (v : VFormat)
  | vstm (st : StallId) (v : VFormat)
  | vstsm (st : StallId) (v : VFormat)
  | vgatherW (st : StallId) (v : VFormat)
  | vgatherD (st : StallId) (v : VFormat)
  | vscatterW (st : StallId) (v : VFormat)
  | vscatterD (st : StallId) (v : VFormat)
  | vgathermW (st : StallId) (v : VFormat)
  | vgathermD (st : StallId) (v : VFormat)
  | vscattermW (st : StallId) (v : VFormat)
  | vscattermD (st : StallId) (v : VFormat)
  | vldff (st : StallId) (v : VFormat)
  | vgatherffW (st : StallId) (v : VFormat)
  | vgatherffD (st : StallId) (v : VFormat)
  | vldffm (st : StallId) (v : VFormat)
  | vgatherffmW (st : StallId) (v : VFormat)
  | vgatherffmD (st : StallId) (v : VFormat)
  | vhadd (st : StallId) (v : VFormat)
  /- Vector-scalar moves and control -/
  | vmvsx (st : StallId) (v : VFormat)
  | vins (st : StallId) (v : VFormat)
  | vbcast (st : StallId) (v : VFormat)
  | vmpopc (st : StallId) (v : VFormat)
  | vmfirst (st : StallId) (v : VFormat)
  | vwake (st : StallId) (v : VFormat)
  | vsetvl (st : StallId) (v : VFormat)
  /- Mangers -/
  | mload (st : StallId) (m : MFormat)
  | mfeed (st : StallId) (m : MFormat)
  | mdrain (st : StallId) (m : MFormat)
  | mstat (st : StallId) (m : MFormat)
  | fmtsel (st : StallId) (m : MFormat)
  /- Barrow and stash -/
  | bget (st : StallId) (m : MFormat)
  | bput (st : StallId) (m : MFormat)
  | stashOpen (st : StallId) (put : Bool) (m : MFormat)
  | stashPut (st : StallId) (put : Bool) (m : MFormat)
  | stashGet (st : StallId) (put : Bool) (m : MFormat)
  | stashFree (st : StallId) (put : Bool) (m : MFormat)
  | stashClose (st : StallId) (put : Bool) (m : MFormat)
  /- Drover and teams -/
  | shift (st : StallId) (m : MFormat)
  | permute (st : StallId) (m : MFormat)
  | teamSend (st : StallId) (m : MFormat)
  | siding (st : StallId) (m : MFormat)
  | release (st : StallId) (m : MFormat)
  | permset (st : StallId) (m : MFormat)
  /- Forge -/
  | fsubmit (st : StallId) (m : MFormat)
  | backward (st : StallId) (m : MFormat)
  | backwardAndRelease (st : StallId) (m : MFormat)
  | forgeRelease (st : StallId) (m : MFormat)
  /- Frames, ticks and elapsed time -/
  | frameBoundary (env : BoundaryInput)
  | refClockLost
  | tick (p : PortId) (h : FlitHeader) (m : TickMarker) (arrival : Int)
  | upstreamLossHoldover
  | trackingErrorHoldover
  | acquire (who : Requester)
  | tickStep
  | acquireTimeout
  | tickLoad (who : Requester)
  | tickLoadApply
  | frameNowLoRead (who : Requester) (r : CounterReg)
  | fwKick (who : Requester) (v : W32)
  | fwWatchdogExpiry
  | stallWatchdog (st : StallId)
  | contextSwitchStart (st : StallId) (done : Nat)
  | contextSwitchDone (st : StallId)
  /- Frame, context and fence instructions: events -/
  | fwaitRetire (st : StallId)
  /- Messages: events -/
  | heldSendIssue (st : StallId)
  | recvWake (st : StallId)
  | messageArrival (st : StallId) (mbx : Fin 8) (src : StallId)
  | creditReturnArrival (i : Nat)
  | grantArrival (i : Nat)
  /- Vector-scalar moves and control: events -/
  | vectorGate (st : StallId)
  | vectorWakeDone (st : StallId)
  /- Mangers: events -/
  | mloadStart (st : StallId) (sl : Slot)
  | mloadDone (st : StallId) (sl : Slot) (n : Nat)
  | passStart (st : StallId) (sl : Slot)
  | passEnd (st : StallId) (sl : Slot) (e : PassEnd)
  | mfeedImmediateEnd (st : StallId) (sl : Slot)
  | drainStart (st : StallId) (sl : Slot)
  | drainDone (st : StallId) (sl : Slot) (mg : Fin 4)
  | fmtselStart (st : StallId) (sl : Slot)
  | dutyChange (y : Yard)
  /- Barrow and stash: events -/
  | barrowAccept (st : StallId) (n : Nat)
  | barrowComplete (st : StallId) (n : Nat)
  | barrowAbort (who : Requester) (shed : Fin 24) (v : W32) (moved : Nat)
  /- Memory controllers -/
  | mcTempRead (ch : Chan) (code temp : BitVec 8)
  | thermalLevelChange (ch : Chan)
  | refresh (ch : Chan) (bank : BitVec 5)
  | ueWindowEnd (ch : Chan)
  /- Yard bridge and torus ports -/
  | bridgeFail (y : Yard)
  | bringup (who : Requester) (p : PortId)
  | portDown (who : Requester) (p : PortId)
  | trainingDone (p : PortId) (r : TrainResult)
  | phaseTimeout (p : PortId)
  | negotiationDone (p : PortId)
  | identityDone (p : PortId)
  | hello (p : PortId) (h : FlitHeader) (hello : Hello)
  | echoReq (p : PortId) (h : FlitHeader) (id : W32)
  | echoRsp (p : PortId) (h : FlitHeader) (id turn : W32) (roundTrip : Nat)
  | challenge (p : PortId) (h : FlitHeader) (nonce : BitVec 256)
  | signature (p : PortId) (h : FlitHeader) (part : Nat) (data : List Byte)
  | keepalive (p : PortId) (h : FlitHeader)
  | nak (p : PortId) (h : FlitHeader) (lost : List Seq)
  | credit (p : PortId) (h : FlitHeader) (returns : List (BitVec 3 × Nat))
  | swapReq (p : PortId) (h : FlitHeader) (lane : Fin 17) (cancel : Bool)
  | swapAck (p : PortId) (h : FlitHeader) (lane spare : Fin 17) (frame : Frame)
  | laneDown (p : PortId) (h : FlitHeader) (lane : Fin 17)
  | down (p : PortId) (h : FlitHeader) (cause : BitVec 8)
  | dataFlit (p : PortId) (h : FlitHeader) (kind : FlitKind) (tag : BitVec 20) (payload : List Byte)
  | idleFlit (p : PortId) (h : FlitHeader)
  | flitSlot (p : PortId)
  | replayDeadline (p : PortId)
  | replayLimitExceeded (p : PortId)
  | swapThreshold (p : PortId) (lane : Fin 17) (corrected uncorrectable : Nat)
  | swapFrame (c : SwapCheck)
  | lockLoss (p : PortId) (lane : Fin 17)
  | partnerLost (p : PortId) (allLanes : Bool)
  | creditReclaim (p : PortId)
  /- Drover and teams: events -/
  | memberDecide (dr : Yard) (t : Fin 64)
  | collect (dr : Yard) (t : Fin 64) (h : FlitHeader) (c : CollectFlit)
  | verdictSend (dr : Yard) (t : Fin 64)
  | verdict (dr : Yard) (t : Fin 64) (h : FlitHeader) (code : Code) (rank : BitVec 4)
  | metaFlit (dr : Yard) (t : Fin 64) (h : FlitHeader) (src : BitVec 4) (layer : BitVec 12) (shard : BitVec 16) (epoch : W32)
  | chunkLanded (dr : Yard) (t : Fin 64)
  | completeStart (dr : Yard) (t : Fin 64)
  | complete (dr : Yard) (t : Fin 64) (h : FlitHeader) (c : CompleteFlit)
  | commit (dr : Yard) (t : Fin 64) (h : FlitHeader) (code : Code) (k : Nat)
  | fail (dr : Yard) (t : Fin 64) (h : FlitHeader) (code cause : Code) (rank : BitVec 4)
  | sever (dr : Yard) (t : Fin 64) (h : FlitHeader) (rank : BitVec 4)
  | teamAbortFlit (dr : Yard) (t : Fin 64) (h : FlitHeader) (rank : BitVec 4)
  | hsLimitExpiry (dr : Yard) (t : Fin 64)
  | severTimeout (dr : Yard) (t : Fin 64)
  | teamAbort (who : Requester) (dr : Yard) (v : W32)
  | teamCmdCreate (who : Requester) (dr : Yard) (v : W32)
  | teamActivate (dr : Yard) (t : Fin 64)
  | teamCmdDestroy (who : Requester) (dr : Yard) (v : W32)
  | teamFree (dr : Yard) (t : Fin 64)
  /- Forge: events -/
  | problemStart (fo : Yard) (hearth : Fin 4)
  | problemEnd (fo : Yard) (hearth : Fin 4) (r : ForgeResult)
  | forgeDeadlineMiss (fo : Yard) (stops : List ForgeStop)
  | retentionExpiry (fo : Yard) (e : Fin 64)
  | forgeAbort (who : Requester) (fo : Yard) (v : W32) (stops : List ForgeStop)
  | tplCmdLoad (who : Requester) (fo : Yard) (v : W32)
  | tplLoadDone (fo : Yard)
  | tplCmdUnload (who : Requester) (fo : Yard) (v : W32)
  /- Start-up and host link -/
  | powerGood
  | powerRemoval
  | verify (who : Requester)
  | verifyDone (x : VerifyInput)
  | fwInitDone (x : FwInitInput)
  | romTimerExpiry
  | warmReset (who : Requester) (key : Byte)
  | functionLevelReset
  | hotReset
  | d3hotReturn
  | moduleFailure (second : Bool)
  | memoryBarAccess (off : BitVec 38) (a : BarAccess)
  /- Host queues and commands -/
  | queueEnable (who : Requester) (q : QueueId) (v : W32)
  | queueDisable (who : Requester) (q : QueueId)
  | queueDrained (q : QueueId)
  | sqTail (q : QueueId) (tail : BitVec 12) (written : List Host.Cell)
  | cqHead (q : QueueId) (head : BitVec 12)
  | nop (q : QueueId)
  | identify (q : QueueId)
  | logRead (q : QueueId)
  | abort (q : QueueId) (moved : Nat)
  | dmaH2d (q : QueueId)
  | dmaD2h (q : QueueId)
  | dmaComplete (engine : Fin 4)
  | stallLoad (q : QueueId)
  | stallStart (q : QueueId)
  | stallHalt (q : QueueId)
  | teamCreate (q : QueueId)
  | teamDestroy (q : QueueId)
  | tplLoad (q : QueueId)
  | tplUnload (q : QueueId)
  | setFillLimit (q : QueueId)
  | setAllowlist (q : QueueId)
  | attestReport (q : QueueId)
  | attestExtend (q : QueueId)
  /- Registers and transactions -/
  | registerWrite (who : Requester) (off : BitVec 26) (size : Nat) (v : W64)
  | rwtWrite (who : Requester) (off : BitVec 26) (v : W32)
  | rcRead (who : Requester) (r : RegRead)
  | errStatClear (who : Requester) (page : BitVec 26) (v : W32)
  | errInj (who : Requester) (page : BitVec 26) (v : W32)
  | stallMirrorWrite (who : Requester) (st : StallId) (off : BitVec 12) (v : W32)
  | txnOpen (who : Requester)
  | enrol (who : Requester) (page : BitVec 26) (id : BitVec 16)
  | txnCommit (who : Requester) (id : BitVec 16)
  | txnRollback (who : Requester) (id : BitVec 16)
  | txnApply (who : Requester)
  | txnTimeout (who : Requester)
  /- Tallies and injection -/
  | slotReclaim (who : Requester) (v : W32)
  | tallyOvr (who : Requester) (v : W32)
  | tallyAdjust
  | fiArm (who : Requester) (v : W32)
  | fiFire
  /- Built-in self-test -/
  | bistStart (who : Requester)
  | bistRoundStart (faults : List BistFault)
  | bistLp6Phase (faults : List BistFault)
  | bistResult
  | bistAbort (who : Requester)
  /- Power and heat -/
  | voltageReached (y : Yard)
  | avsTimeout (y : Yard)
  | railFault (x : RailSample)
  | thermtripAnalog
  | prochot (low : Bool)
  /- Sideband -/
  | mgId
  | mgState
  | mgFrame
  | mgUptime
  | mgTemp
  | mgTempAll
  | mgLp6Level
  | mgPower
  | mgRails
  | mgSafe (data : MgWrite)
  /- Test port -/
  | extest
  | samplePreload
  | idcode
  | extestPulse
  | extestTrain
  | dbgChallenge (nonce : BitVec 256)
  | dbgToken (t : DebugToken)
  | dbgStatus
  | dbgAccess (off : BitVec 26) (w : DebugAccess)
  | ghHalt
  | scanConnect
  | fuseProg (bits : BitVec 8192)
  | bypass
  | tapReset
  /- Events of several chapters -/
  | damagedFlit (f : RawFlit)
  | bridgeRetry (y : Yard)
  | gatehouseSramUncorrected (a : BitVec 24) (firmware : Bool)
  | vectorLp6Done (st : StallId)
  | signingDone
  | debugTokenVerified
  | hostLinkUp (m0 m1 : ModuleState) (rate : BitVec 4)
  | parkContext (st : StallId) (sl : Slot) (dir : ParkDir) (dpa : BitVec 48)
  | illegalInstruction (st : StallId)
  | illegalRegisterRead (who : Requester) (off : BitVec 26)
deriving DecidableEq, Repr

end Sys2Proof
end

