-- ==== Sys2Proof/Decode.lean ====
section
/-! DEFINITION. The decoder of the table of commands. The table gives its rows no bits (the commands are
events of the block, not words), so no word spells a command; the instruction words of the stalls are decoded
in Machine/Coeri.lean. -/

namespace Sys2Proof

/-- The command that a word of nbits bits spells by the table's bits: none of its rows gives bits. -/
def decodeTableWord (_nbits _w : Nat) : Option Instr := none

end Sys2Proof
end

