-- ==== Sys2Proof/Machine/Bits.lean ====
section
/-! DEFINITION. Bit fields, sign extension, byte order and sorted sparse maps: the small helpers that every
operation shares. -/

namespace Sys2Proof.Machine

/-- Bits [lo + len − 1 : lo] of a word, as a number. -/
def field {w : Nat} (x : BitVec w) (lo len : Nat) : Nat := (x.toNat >>> lo) % 2 ^ len

/-- Bit i of a word. -/
def flag {w : Nat} (x : BitVec w) (i : Nat) : Bool := x.getLsbD i

/-- A one-bit field at place i. -/
def bitAt (b : Bool) (i : Nat) : Nat := if b then 2 ^ i else 0

/-- A number from a Bool. -/
def b2n (b : Bool) : Nat := if b then 1 else 0

/-- x with bit i set. -/
def setBit {w : Nat} (x : BitVec w) (i : Nat) : BitVec w := x ||| BitVec.ofNat w (2 ^ i)

/-- x with bit i clear. -/
def clearBit {w : Nat} (x : BitVec w) (i : Nat) : BitVec w := x &&& ~~~(BitVec.ofNat w (2 ^ i))

/-- Least multiple of m at or above n. -/
def roundUp (n m : Nat) : Nat := (n + m - 1) / m * m

/-- Ceiling of n ÷ d. -/
def ceilDiv (n d : Nat) : Nat := (n + d - 1) / d

/-- Two's complement of w bits, as a number. -/
def natOfInt (w : Nat) (i : Int) : Nat := (i % (2 ^ w : Int)).toNat

/-- The signed value of the low w bits of n. -/
def intOfNat (w n : Nat) : Int :=
  let m := n % 2 ^ w
  if 2 * m < 2 ^ w then (m : Int) else (m : Int) - (2 ^ w : Nat)

/-- The number whose little-endian bytes are bs. -/
def leNat : List Byte → Nat
  | [] => 0
  | b :: bs => b.toNat + 256 * leNat bs

/-- The k little-endian bytes of n. -/
def leBytes : Nat → Nat → List Byte
  | 0, _ => []
  | k + 1, n => BitVec.ofNat 8 n :: leBytes k (n / 256)

/-- The number whose big-endian bytes are bs. -/
def beNat (bs : List Byte) : Nat := bs.foldl (fun n b => n * 256 + b.toNat) 0

/-- The k big-endian bytes of n. -/
def beBytes (k n : Nat) : List Byte := (leBytes k n).reverse

/-- A list cut or zero-padded to length k. -/
def padTo (k : Nat) (bs : List Byte) : List Byte := bs.take k ++ List.replicate (k - bs.length) 0

/-- A list cut into pieces of k elements; fuel bounds the pieces. -/
def chunksOf {α : Type} (k : Nat) : Nat → List α → List (List α)
  | 0, _ => []
  | n + 1, l => if l.isEmpty then [] else l.take k :: chunksOf k n (l.drop k)

/-- Element i of a vector, changed by f. -/
def upd {α : Type} {n : Nat} (v : Vector α n) (i : Fin n) (f : α → α) : Vector α n :=
  v.set i.val (f v[i.val])

/-- Element i of a vector, with a value for an index out of range. -/
def vget {α : Type} {n : Nat} (v : Vector α n) (i : Nat) (z : α) : α := (v[i]?).getD z

/-- Element i of a vector replaced, where i is in range. -/
def vset {α : Type} {n : Nat} (v : Vector α n) (i : Nat) (x : α) : Vector α n := v.setIfInBounds i x

/-- The numbers below n that satisfy p, ascending. -/
def below (n : Nat) (p : Nat → Bool) : List Nat := (List.range n).filter p

/-- All elements of Fin n, ascending. -/
def finList (n : Nat) : List (Fin n) := List.finRange n

/-- The entry of key a in a sparse map. -/
def mapGet {α : Type} : List (Nat × α) → Nat → Option α
  | [], _ => none
  | (k, v) :: t, a => if k = a then some v else mapGet t a

/-- A sparse map without key a. -/
def mapErase {α : Type} (m : List (Nat × α)) (a : Nat) : List (Nat × α) := m.filter fun p => p.1 ≠ a

/-- A sparse map, ascending by key, with the entry (a, x). -/
def mapInsert {α : Type} : List (Nat × α) → Nat → α → List (Nat × α)
  | [], a, x => [(a, x)]
  | (k, v) :: t, a, x =>
    if a < k then (a, x) :: (k, v) :: t
    else if a = k then (a, x) :: t
    else (k, v) :: mapInsert t a x

/-- Write x at a in a map whose unlisted keys read as z: the entry goes where x is z. -/
def mapWrite {α : Type} [DecidableEq α] (z : α) (m : List (Nat × α)) (a : Nat) (x : α) : List (Nat × α) :=
  if x = z then mapErase m a else mapInsert m a x

/-- The keys rise strictly, and no entry holds what an unlisted key reads as. -/
abbrev MapWf {α : Type} (z : Nat → α) (m : List (Nat × α)) : Prop :=
  (m.map Prod.fst).Pairwise (· < ·) ∧ ∀ p ∈ m, p.2 ≠ z p.1

/-- A set of numbers kept as an ascending list, with a added. -/
def setInsert : List Nat → Nat → List Nat
  | [], a => [a]
  | k :: t, a => if a < k then a :: k :: t else if a = k then k :: t else k :: setInsert t a

/-- A set of numbers with a removed. -/
def setErase (l : List Nat) (a : Nat) : List Nat := l.filter (· ≠ a)

/-- The first element of l that satisfies p replaced by f of it. -/
def modifyFirst {α : Type} (p : α → Bool) (f : α → α) : List α → List α
  | [] => []
  | x :: t => if p x then f x :: t else x :: modifyFirst p f t

/-- l without its first element that satisfies p. -/
def eraseFirst {α : Type} (p : α → Bool) : List α → List α
  | [] => []
  | x :: t => if p x then t else x :: eraseFirst p t

end Sys2Proof.Machine
end

