-- ==== Sys2Proof/Machine/Float.lean ====
section
/-! DEFINITION. Floating-point codes and arithmetic: decoding (R176 to R179), IEEE rounding with the subnormal
modes (R92, R152, R153, R190, R191), and the exact operations. A value is ±m × 2^e with natural m; every
operation is computed exactly, or to enough bits with a sticky bit, and rounded once. -/

namespace Sys2Proof.Machine

/-- How a format uses its top exponent. -/
inductive TopCodes where
  /-- all ones: infinity and NaN -/
  | ieee
  /-- all ones with an all-ones mantissa is NaN; no infinity (R178) -/
  | e4m3
  /-- every code is finite -/
  | finite
deriving DecidableEq, Repr

/-- A floating-point format of R176. -/
structure FFmt where
  ebits : Nat
  mbits : Nat
  bias : Nat
  top : TopCodes
  /-- canonical NaN -/
  nan : Nat
deriving DecidableEq, Repr

def FFmt.fp64 : FFmt := ⟨11, 52, 1023, .ieee, 0x7FF8_0000_0000_0000⟩
def FFmt.fp32 : FFmt := ⟨8, 23, 127, .ieee, 0x7FC0_0000⟩
def FFmt.bf16 : FFmt := ⟨8, 7, 127, .ieee, 0x7FC0⟩
def FFmt.fp16 : FFmt := ⟨5, 10, 15, .ieee, 0x7E00⟩
def FFmt.e4m3 : FFmt := ⟨4, 3, 7, .e4m3, 0x7F⟩
def FFmt.e5m2 : FFmt := ⟨5, 2, 15, .ieee, 0x7F⟩
def FFmt.e3m2 : FFmt := ⟨3, 2, 3, .finite, 0⟩
def FFmt.e2m3 : FFmt := ⟨2, 3, 1, .finite, 0⟩
def FFmt.e2m1 : FFmt := ⟨2, 1, 1, .finite, 0⟩

/-- What a code stands for. -/
inductive FVal where
  | nan
  | inf (neg : Bool)
  | num (neg : Bool) (m : Nat) (e : Int)
deriving DecidableEq, Repr

namespace FFmt

def width (f : FFmt) : Nat := 1 + f.ebits + f.mbits

/-- Exponent of the smallest normal. -/
def emin (f : FFmt) : Int := 1 - (f.bias : Int)

/-- Largest finite value as an integer count of quanta, and the exponent of that quantum. -/
def maxFinite (f : FFmt) : Nat × Int :=
  match f.top with
  | .ieee => (2 ^ (f.mbits + 1) - 1, (2 ^ f.ebits : Nat) - 2 - (f.bias : Int) - f.mbits)
  | .e4m3 => (2 ^ (f.mbits + 1) - 2, (2 ^ f.ebits : Nat) - 1 - (f.bias : Int) - f.mbits)
  | .finite => (2 ^ (f.mbits + 1) - 1, (2 ^ f.ebits : Nat) - 1 - (f.bias : Int) - f.mbits)

/-- The value of a code (R176 to R179). -/
def decode (f : FFmt) (c : Nat) : FVal :=
  let neg := (c >>> (f.ebits + f.mbits)) % 2 = 1
  let E := (c >>> f.mbits) % 2 ^ f.ebits
  let M := c % 2 ^ f.mbits
  let ones := E = 2 ^ f.ebits - 1
  if f.top = .ieee ∧ ones then (if M = 0 then .inf neg else .nan)
  else if f.top = .e4m3 ∧ ones ∧ M = 2 ^ f.mbits - 1 then .nan
  else if E = 0 then .num neg M (f.emin - f.mbits)
  else .num neg (M + 2 ^ f.mbits) ((E : Int) - f.bias - f.mbits)

/-- decode, with subnormal inputs read as zero of their sign where flush holds (R92, R190, R191). -/
def decodeF (f : FFmt) (flush : Bool) (c : Nat) : FVal :=
  match f.decode c with
  | .num neg m e => if flush ∧ m < 2 ^ f.mbits then .num neg 0 e else .num neg m e
  | v => v

def signBit (f : FFmt) (neg : Bool) : Nat := bitAt neg (f.ebits + f.mbits)

def zero (f : FFmt) (neg : Bool) : Nat := f.signBit neg

def infinity (f : FFmt) (neg : Bool) : Nat := f.signBit neg + (2 ^ f.ebits - 1) * 2 ^ f.mbits

/-- The code of r quanta of 2^q, for r below 2^(mbits + 1). -/
def pack (f : FFmt) (neg : Bool) (r : Nat) (q : Int) : Nat :=
  if r < 2 ^ f.mbits then f.signBit neg + r
  else f.signBit neg + (q + f.mbits + f.bias).toNat * 2 ^ f.mbits + (r - 2 ^ f.mbits)

/-- The largest finite code of a sign. -/
def largest (f : FFmt) (neg : Bool) : Nat := f.pack neg f.maxFinite.1 f.maxFinite.2

end FFmt

/-- Sticky flags in the order of FP_CTL (R93): invalid, divide by zero, overflow, underflow, inexact. -/
abbrev FFlags := BitVec 5

def FFlags.none : FFlags := 0
def FFlags.invalid : FFlags := 1
def FFlags.divZero : FFlags := 2
def FFlags.overInexact : FFlags := 20
def FFlags.underInexact : FFlags := 24
def FFlags.inexact : FFlags := 16

/-- m ÷ 2^k to the nearest integer, ties to even, and whether that was exact. -/
def rneShift (m : Nat) (k : Int) : Nat × Bool :=
  if k ≤ 0 then (m <<< (-k).toNat, true)
  else
    let h := k.toNat
    let q := m >>> h
    let r := m % 2 ^ h
    let half := 2 ^ (h - 1)
    (if half < r ∨ (r = half ∧ q % 2 = 1) then q + 1 else q, r = 0)

/-- Exponent of the leading bit of m × 2^e. -/
def topExp (m : Nat) (e : Int) : Int := (Nat.log2 m : Int) + e

/-- ±m × 2^e rounded to an IEEE format (R92, R152): overflow gives infinity, and a result that is tiny after
rounding is flushed to zero where flush holds. -/
def FFmt.round (f : FFmt) (flush : Bool) (neg : Bool) (m : Nat) (e : Int) : Nat × FFlags :=
  if m = 0 then (f.zero neg, .none)
  else
    let E := topExp m e
    let q0 := E - f.mbits
    let r0 := (rneShift m (q0 - e)).1
    let tiny := E < f.emin ∧ ¬ (E = f.emin - 1 ∧ r0 = 2 ^ (f.mbits + 1))
    if tiny ∧ flush then (f.zero neg, .underInexact)
    else
      let q := (max E f.emin) - f.mbits
      let (r, exact) := rneShift m (q - e)
      let (r, q) := if r = 2 ^ (f.mbits + 1) then (2 ^ f.mbits, q + 1) else (r, q)
      if f.maxFinite.2 < q ∨ (q = f.maxFinite.2 ∧ f.maxFinite.1 < r) then (f.infinity neg, .overInexact)
      else (f.pack neg r q, if exact then .none else if tiny then .underInexact else .inexact)

/-- Rounding that saturates to the largest finite value (R155). -/
def FFmt.roundSat (f : FFmt) (flush : Bool) : FVal → Nat × FFlags
  | .nan => (f.nan, .none)
  | .inf neg => (f.largest neg, .overInexact)
  | .num neg m e =>
    let r := f.round flush neg m e
    if r.2 = .overInexact then (f.largest neg, .overInexact) else r

/-- The value of a finite operand as a signed integer at exponent e ≤ its own. -/
def scaled (neg : Bool) (m : Nat) (e at_ : Int) : Int :=
  let v : Int := m <<< (e - at_).toNat
  if neg then -v else v

/-- Sum of two finite values, exact; the sign of an exact zero is given. -/
def exactSum (n1 : Bool) (m1 : Nat) (e1 : Int) (n2 : Bool) (m2 : Nat) (e2 : Int) : Bool × Nat × Int :=
  let e := min e1 e2
  let s := scaled n1 m1 e1 e + scaled n2 m2 e2 e
  if s = 0 then (n1 && n2, 0, e) else (decide (s < 0), s.natAbs, e)

/-- Square root of n, rounded down, to k bits. -/
def isqrt (k n : Nat) : Nat :=
  (List.range k).reverse.foldl (fun r i => if (r + 2 ^ i) * (r + 2 ^ i) ≤ n then r + 2 ^ i else r) 0

namespace FFmt

/-- Rounding of any value. -/
def roundVal (f : FFmt) (flush : Bool) : FVal → Nat × FFlags
  | .nan => (f.nan, .none)
  | .inf neg => (f.infinity neg, .none)
  | .num neg m e => f.round flush neg m e

def negate : FVal → FVal
  | .nan => .nan
  | .inf n => .inf !n
  | .num n m e => .num (!n) m e

/-- x + y, as an exact value and the invalid flag. -/
def addVal : FVal → FVal → FVal × FFlags
  | .nan, _ => (.nan, .none)
  | _, .nan => (.nan, .none)
  | .inf a, .inf b => if a = b then (.inf a, .none) else (.nan, .invalid)
  | .inf a, _ => (.inf a, .none)
  | _, .inf b => (.inf b, .none)
  | .num n1 m1 e1, .num n2 m2 e2 =>
    let (n, m, e) := exactSum n1 m1 e1 n2 m2 e2
    (.num n m e, .none)

/-- x × y, exact. -/
def mulVal : FVal → FVal → FVal × FFlags
  | .nan, _ => (.nan, .none)
  | _, .nan => (.nan, .none)
  | .inf a, .inf b => (.inf (a != b), .none)
  | .inf a, .num n m _ => if m = 0 then (.nan, .invalid) else (.inf (a != n), .none)
  | .num n m _, .inf b => if m = 0 then (.nan, .invalid) else (.inf (n != b), .none)
  | .num n1 m1 e1, .num n2 m2 e2 => (.num (n1 != n2) (m1 * m2) (e1 + e2), .none)

/-- x × y + z, exact, to be rounded once. A NaN product of an infinity and a zero is invalid also where z is
NaN. -/
def fmaVal (x y z : FVal) : FVal × FFlags :=
  let (p, fl) := mulVal x y
  let (s, fl') := addVal p z
  (s, fl ||| fl')

/-- x ÷ y to mbits + 3 bits or more, with a sticky bit. -/
def divVal (f : FFmt) : FVal → FVal → FVal × FFlags
  | .nan, _ => (.nan, .none)
  | _, .nan => (.nan, .none)
  | .inf _, .inf _ => (.nan, .invalid)
  | .inf a, .num n _ _ => (.inf (a != n), .none)
  | .num n _ e, .inf b => (.num (n != b) 0 e, .none)
  | .num n1 m1 e1, .num n2 m2 e2 =>
    if m2 = 0 then (if m1 = 0 then (.nan, .invalid) else (.inf (n1 != n2), .divZero))
    else if m1 = 0 then (.num (n1 != n2) 0 0, .none)
    else
      let k := f.mbits + 4 + Nat.log2 m2
      let t := m1 <<< k
      (.num (n1 != n2) (2 * (t / m2) + (if t % m2 = 0 then 0 else 1)) (e1 - e2 - k - 1), .none)

/-- The square root, to mbits + 3 bits or more with a sticky bit; that of −0 is −0. -/
def sqrtVal (f : FFmt) : FVal → FVal × FFlags
  | .nan => (.nan, .none)
  | .inf n => if n then (.nan, .invalid) else (.inf false, .none)
  | .num n m e =>
    if m = 0 then (.num n 0 e, .none)
    else if n then (.nan, .invalid)
    else
      let k0 := 2 * (f.mbits + 4)
      let k := if (e - k0) % 2 = 0 then k0 else k0 + 1
      let t := m <<< k
      let r := isqrt (Nat.log2 t / 2 + 1) t
      (.num false (2 * r + (if r * r = t then 0 else 1)) ((e - k) / 2 - 1), .none)

end FFmt

/-- Order of two values that are not NaN: negative where x < y, 0 where equal; −0 equals +0 (R177). -/
def cmpVal : FVal → FVal → Int
  | .inf a, .inf b => if a = b then 0 else if a then -1 else 1
  | .inf a, _ => if a then -1 else 1
  | _, .inf b => if b then 1 else -1
  | .num n1 m1 e1, .num n2 m2 e2 =>
    let e := min e1 e2
    let x := scaled n1 m1 e1 e
    let y := scaled n2 m2 e2 e
    if x < y then -1 else if x = y then 0 else 1
  | _, _ => 0

def FVal.isNan : FVal → Bool
  | .nan => true
  | _ => false

/-- A finite value to the nearest integer, ties to even, and whether that was exact. -/
def nearestInt (neg : Bool) (m : Nat) (e : Int) : Int × Bool :=
  let (r, exact) := rneShift m (-e)
  (if neg then -(r : Int) else (r : Int), exact)

/-- A value to a signed integer of w bits: saturation raises invalid; a NaN gives nanResult with invalid. -/
def FVal.toInt (w : Nat) (nanResult : Int) : FVal → Int × FFlags
  | .nan => (nanResult, .invalid)
  | .inf neg => (if neg then -(2 ^ (w - 1) : Nat) else (2 ^ (w - 1) - 1 : Nat), .invalid)
  | .num neg m e =>
    let (i, exact) := nearestInt neg m e
    if i < -((2 ^ (w - 1) : Nat) : Int) then (-((2 ^ (w - 1) : Nat) : Int), .invalid)
    else if ((2 ^ (w - 1) - 1 : Nat) : Int) < i then (((2 ^ (w - 1) - 1 : Nat) : Int), .invalid)
    else (i, if exact then .none else .inexact)

/-- An integer as a value. -/
def FVal.ofInt (i : Int) : FVal := .num (decide (i < 0)) i.natAbs 0

end Sys2Proof.Machine
end

