-- ==== Sys2Proof/Machine/Coeri.lean ====
section
/-! DEFINITION. Coeri instruction words: the formats of R98 to R101, the opcode map, the function codes of
R147, R148, R384 and R433, an encoder for the commands that are instructions, and a decoder. -/

namespace Sys2Proof.Machine.Coeri

/-- A word of the A, B, V and M formats: op [5:0], [10:6], [15:11], [20:16], and the top 11 bits. -/
def word (op x6 x11 x16 x21 : Nat) : W32 :=
  BitVec.ofNat 32 (op + x6 * 2 ^ 6 + x11 * 2 ^ 11 + x16 * 2 ^ 16 + x21 * 2 ^ 21)

/-- A and A4 formats: func above b, a and d; A4 holds c in the low five bits of the top field. -/
def aWord (op func : Nat) (b a d : SReg) : List W32 := [word op d a b func]

def a4Word (op func : Nat) (c b a d : SReg) : List W32 := [word op d a b (func * 2 ^ 5 + c)]

/-- I format, or its long form (R101). -/
def iWord (op : Nat) (d a : SReg) : Imm → List W32
  | .short v => [BitVec.ofNat 32 (op + d * 2 ^ 6 + a * 2 ^ 11 + v.toNat * 2 ^ 16)]
  | .long v => [word 0x3F d a op 0, v]

/-- B format. -/
def bWord (op : Nat) (a b : SReg) (off : BitVec 16) : List W32 :=
  [BitVec.ofNat 32 (op + b * 2 ^ 6 + a * 2 ^ 11 + off.toNat * 2 ^ 16)]

/-- J format. -/
def jWord (op : Nat) (off : BitVec 26) : List W32 := [BitVec.ofNat 32 (op + off.toNat * 2 ^ 6)]

/-- V format: k [31:29], func8 [28:21]. -/
def kWord (op func8 : Nat) (k : KReg) (vd va vb : VReg) : List W32 := [word op vd va vb (k * 2 ^ 8 + func8)]

def vWord (op func : Nat) (v : VFormat) : List W32 := kWord op (v.t.toNat * 2 ^ 5 + func) v.k v.vd v.va v.vb

/-- M format: sel [31:28], func7 [27:21]. -/
def mWord (op func : Nat) (m : MFormat) : List W32 := [word op m.d m.a m.b (m.sel.toNat * 2 ^ 7 + func)]

/-- The instruction words of a command that is a Coeri instruction; nothing for any other command. -/
def encode : Instr → List W32
  | .add _ d a b => aWord 0x01 0 b a d
  | .sub _ d a b => aWord 0x01 1 b a d
  | .and _ d a b => aWord 0x01 2 b a d
  | .or _ d a b => aWord 0x01 3 b a d
  | .xor _ d a b => aWord 0x01 4 b a d
  | .sll _ d a b => aWord 0x01 5 b a d
  | .srl _ d a b => aWord 0x01 6 b a d
  | .sra _ d a b => aWord 0x01 7 b a d
  | .slt _ d a b => aWord 0x01 8 b a d
  | .sltu _ d a b => aWord 0x01 9 b a d
  | .mul _ d a b => aWord 0x01 10 b a d
  | .mulh _ d a b => aWord 0x01 11 b a d
  | .mulhu _ d a b => aWord 0x01 12 b a d
  | .div _ d a b => aWord 0x01 13 b a d
  | .divu _ d a b => aWord 0x01 14 b a d
  | .rem _ d a b => aWord 0x01 15 b a d
  | .remu _ d a b => aWord 0x01 16 b a d
  | .min _ d a b => aWord 0x01 17 b a d
  | .max _ d a b => aWord 0x01 18 b a d
  | .minu _ d a b => aWord 0x01 19 b a d
  | .maxu _ d a b => aWord 0x01 20 b a d
  | .clz _ d a b => aWord 0x01 21 b a d
  | .ctz _ d a b => aWord 0x01 22 b a d
  | .popc _ d a b => aWord 0x01 23 b a d
  | .addi _ d a imm => iWord 0x02 d a imm
  | .andi _ d a imm => iWord 0x03 d a imm
  | .ori _ d a imm => iWord 0x04 d a imm
  | .xori _ d a imm => iWord 0x05 d a imm
  | .shi _ d a imm => iWord 0x06 d a imm
  | .lih _ d a imm => iWord 0x07 d a imm
  | .jalr _ d a imm => iWord 0x11 d a imm
  | .loop _ d a imm => iWord 0x12 d a imm
  | .ldD _ d a imm => iWord 0x14 d a imm
  | .ldW _ d a imm => iWord 0x15 d a imm
  | .ldWu _ d a imm => iWord 0x16 d a imm
  | .ldH _ d a imm => iWord 0x17 d a imm
  | .ldHu _ d a imm => iWord 0x18 d a imm
  | .ldB _ d a imm => iWord 0x19 d a imm
  | .ldBu _ d a imm => iWord 0x1A d a imm
  | .stD _ d a imm => iWord 0x1B d a imm
  | .stW _ d a imm => iWord 0x1C d a imm
  | .stH _ d a imm => iWord 0x1D d a imm
  | .stB _ d a imm => iWord 0x1E d a imm
  | .trap _ d a imm => iWord 0x33 d a imm
  | .crr _ d a imm => iWord 0x34 d a imm
  | .crw _ d a imm => iWord 0x35 d a imm
  | .faddD _ d a b => aWord 0x08 0 b a d
  | .fsubD _ d a b => aWord 0x08 1 b a d
  | .fmulD _ d a b => aWord 0x08 2 b a d
  | .fdivD _ d a b => aWord 0x08 3 b a d
  | .fsqrtD _ d a b => aWord 0x08 4 b a d
  | .fminD _ d a b => aWord 0x08 5 b a d
  | .fmaxD _ d a b => aWord 0x08 6 b a d
  | .feqD _ d a b => aWord 0x08 7 b a d
  | .fltD _ d a b => aWord 0x08 8 b a d
  | .fleD _ d a b => aWord 0x08 9 b a d
  | .fclassD _ d a b => aWord 0x08 10 b a d
  | .faddS _ d a b => aWord 0x08 11 b a d
  | .fsubS _ d a b => aWord 0x08 12 b a d
  | .fmulS _ d a b => aWord 0x08 13 b a d
  | .fdivS _ d a b => aWord 0x08 14 b a d
  | .fsqrtS _ d a b => aWord 0x08 15 b a d
  | .fminS _ d a b => aWord 0x08 16 b a d
  | .fmaxS _ d a b => aWord 0x08 17 b a d
  | .feqS _ d a b => aWord 0x08 18 b a d
  | .fltS _ d a b => aWord 0x08 19 b a d
  | .fleS _ d a b => aWord 0x08 20 b a d
  | .fclassS _ d a b => aWord 0x08 21 b a d
  | .fcvtDS _ d a b => aWord 0x08 22 b a d
  | .fcvtSD _ d a b => aWord 0x08 23 b a d
  | .fcvtDL _ d a b => aWord 0x08 24 b a d
  | .fcvtLD _ d a b => aWord 0x08 25 b a d
  | .fcvtSL _ d a b => aWord 0x08 26 b a d
  | .fcvtLS _ d a b => aWord 0x08 27 b a d
  | .fmaddD _ d a b c => a4Word 0x09 0 c b a d
  | .fmsubD _ d a b c => a4Word 0x09 1 c b a d
  | .fnmaddD _ d a b c => a4Word 0x09 2 c b a d
  | .fnmsubD _ d a b c => a4Word 0x09 3 c b a d
  | .fmaddS _ d a b c => a4Word 0x09 4 c b a d
  | .fmsubS _ d a b c => a4Word 0x09 5 c b a d
  | .fnmaddS _ d a b c => a4Word 0x09 6 c b a d
  | .fnmsubS _ d a b c => a4Word 0x09 7 c b a d
  | .beq _ a b off => bWord 0x0A a b off
  | .bne _ a b off => bWord 0x0B a b off
  | .blt _ a b off => bWord 0x0C a b off
  | .bge _ a b off => bWord 0x0D a b off
  | .bltu _ a b off => bWord 0x0E a b off
  | .bgeu _ a b off => bWord 0x0F a b off
  | .jal _ off => jWord 0x10 off
  | .vadd _ v => vWord 0x20 0 v
  | .vsub _ v => vWord 0x20 1 v
  | .vmul _ v => vWord 0x20 2 v
  | .vmulh _ v => vWord 0x20 3 v
  | .vmulhu _ v => vWord 0x20 4 v
  | .vmin _ v => vWord 0x20 5 v
  | .vmax _ v => vWord 0x20 6 v
  | .vminu _ v => vWord 0x20 7 v
  | .vmaxu _ v => vWord 0x20 8 v
  | .vand _ v => vWord 0x20 9 v
  | .vor _ v => vWord 0x20 10 v
  | .vxor _ v => vWord 0x20 11 v
  | .vsll _ v => vWord 0x20 12 v
  | .vsrl _ v => vWord 0x20 13 v
  | .vsra _ v => vWord 0x20 14 v
  | .vcmpeq _ v => vWord 0x20 15 v
  | .vcmpne _ v => vWord 0x20 16 v
  | .vcmplt _ v => vWord 0x20 17 v
  | .vcmpltu _ v => vWord 0x20 18 v
  | .vcmple _ v => vWord 0x20 19 v
  | .vcmpleu _ v => vWord 0x20 20 v
  | .vfadd _ v => vWord 0x21 0 v
  | .vfsub _ v => vWord 0x21 1 v
  | .vfmul _ v => vWord 0x21 2 v
  | .vfma _ v => vWord 0x21 3 v
  | .vfnma _ v => vWord 0x21 4 v
  | .vfdiv _ v => vWord 0x21 5 v
  | .vfsqrt _ v => vWord 0x21 6 v
  | .vfmin _ v => vWord 0x21 7 v
  | .vfmax _ v => vWord 0x21 8 v
  | .vfabs _ v => vWord 0x21 9 v
  | .vfneg _ v => vWord 0x21 10 v
  | .vfcmpeq _ v => vWord 0x21 11 v
  | .vfcmplt _ v => vWord 0x21 12 v
  | .vfcmple _ v => vWord 0x21 13 v
  | .vfcmpun _ v => vWord 0x21 14 v
  | .vcvtFromE4m3 _ v => vWord 0x22 8 v
  | .vcvtFromE5m2 _ v => vWord 0x22 9 v
  | .vcvtToE4m3 _ v => vWord 0x22 10 v
  | .vcvtToE5m2 _ v => vWord 0x22 11 v
  | .vid _ v => vWord 0x22 12 v
  | .vslidedn _ v => vWord 0x22 13 v
  | .vslideup _ v => vWord 0x22 14 v
  | .vperm _ v => vWord 0x22 15 v
  | .vrsum _ v => vWord 0x24 0 v
  | .vrmin _ v => vWord 0x24 1 v
  | .vrmax _ v => vWord 0x24 2 v
  | .vsegsum _ v => vWord 0x24 3 v
  | .vsegmin _ v => vWord 0x24 4 v
  | .vsegmax _ v => vWord 0x24 5 v
  | .vcompress _ v => vWord 0x25 0 v
  | .vexpand _ v => vWord 0x25 1 v
  | .vld _ v => vWord 0x26 0 v
  | .vlds _ v => vWord 0x26 1 v
  | .vst _ v => vWord 0x26 2 v
  | .vsts _ v => vWord 0x26 3 v
  | .vldm _ v => vWord 0x26 16 v
  | .vldsm _ v => vWord 0x26 17 v
  | .vstm _ v => vWord 0x26 18 v
  | .vstsm _ v => vWord 0x26 19 v
  | .vgatherW _ v => vWord 0x27 0 v
  | .vgatherD _ v => vWord 0x27 1 v
  | .vscatterW _ v => vWord 0x27 2 v
  | .vscatterD _ v => vWord 0x27 3 v
  | .vgathermW _ v => vWord 0x27 16 v
  | .vgathermD _ v => vWord 0x27 17 v
  | .vscattermW _ v => vWord 0x27 18 v
  | .vscattermD _ v => vWord 0x27 19 v
  | .vldff _ v => vWord 0x28 0 v
  | .vgatherffW _ v => vWord 0x28 1 v
  | .vgatherffD _ v => vWord 0x28 2 v
  | .vldffm _ v => vWord 0x28 16 v
  | .vgatherffmW _ v => vWord 0x28 17 v
  | .vgatherffmD _ v => vWord 0x28 18 v
  | .vhadd _ v => vWord 0x29 0 v
  | .vmvsx _ v => vWord 0x2A 0 v
  | .vins _ v => vWord 0x2A 1 v
  | .vbcast _ v => vWord 0x2A 2 v
  | .vmpopc _ v => vWord 0x2A 3 v
  | .vmfirst _ v => vWord 0x2A 4 v
  | .vwake _ v => vWord 0x2B 0 v
  | .vsetvl _ v => vWord 0x2B 1 v
  | .vcvt _ src v => vWord 0x22 src.toNat v
  | .kand _ kd ks1 ks2 vd va vb => kWord 0x23 (0 * 2 ^ 6 + ks1 * 2 ^ 3 + ks2) kd vd va vb
  | .kor _ kd ks1 ks2 vd va vb => kWord 0x23 (1 * 2 ^ 6 + ks1 * 2 ^ 3 + ks2) kd vd va vb
  | .kxor _ kd ks1 ks2 vd va vb => kWord 0x23 (2 * 2 ^ 6 + ks1 * 2 ^ 3 + ks2) kd vd va vb
  | .kandn _ kd ks1 ks2 vd va vb => kWord 0x23 (3 * 2 ^ 6 + ks1 * 2 ^ 3 + ks2) kd vd va vb
  | .mload _ m => mWord 0x2C 0 m
  | .mfeed _ m => mWord 0x2C 1 m
  | .mdrain _ m => mWord 0x2C 2 m
  | .mstat _ m => mWord 0x2C 3 m
  | .fmtsel _ m => mWord 0x2C 4 m
  | .bget _ m => mWord 0x2D 0 m
  | .bput _ m => mWord 0x2D 1 m
  | .stashOpen _ put m => mWord 0x2D (b2n put) m
  | .stashPut _ put m => mWord 0x2D (b2n put) m
  | .stashGet _ put m => mWord 0x2D (b2n put) m
  | .stashFree _ put m => mWord 0x2D (b2n put) m
  | .stashClose _ put m => mWord 0x2D (b2n put) m
  | .send _ d a b => aWord 0x2E 0 b a d
  | .recv _ d a b => aWord 0x2E 1 b a d
  | .recva _ d a b => aWord 0x2E 2 b a d
  | .mgrant _ d a b => aWord 0x2E 3 b a d
  | .chclose _ d a b => aWord 0x2E 4 b a d
  | .shift _ m => mWord 0x2F 0 m
  | .permute _ m => mWord 0x2F 0 m
  | .teamSend _ m => mWord 0x2F 0 m
  | .siding _ m => mWord 0x2F 1 m
  | .release _ m => mWord 0x2F 2 m
  | .permset _ m => mWord 0x2F 3 m
  | .fsubmit _ m => mWord 0x30 0 m
  | .backward _ m => mWord 0x30 1 m
  | .backwardAndRelease _ m => mWord 0x30 1 m
  | .forgeRelease _ m => mWord 0x30 1 m
  | .fwait _ d a b => aWord 0x31 0 b a d
  | .fyield _ d a b => aWord 0x31 1 b a d
  | .fence _ d a b => aWord 0x32 0 b a d
  | .eret _ d a b => aWord 0x32 1 b a d
  | .cyield _ d a b => aWord 0x32 2 b a d
  | .halt _ d a b => aWord 0x32 3 b a d
  | _ => []

/-- What the descriptor that an engine instruction names says of its kind: the stash operation of KIND 0x8,
the OP of DROVE SUBMIT, or the OP of FBACK; 0 where the word alone names the command. -/
def descKind : Instr → Nat
  | .stashOpen _ _ _ => 1
  | .stashPut _ _ _ => 2
  | .stashGet _ _ _ => 3
  | .stashFree _ _ _ => 4
  | .stashClose _ _ _ => 5
  | .permute _ _ => 1
  | .teamSend _ _ => 2
  | .backwardAndRelease _ _ => 1
  | .forgeRelease _ _ => 2
  | _ => 0

def reg (w : W32) (lo : Nat) : Fin 32 := Fin.ofNat 32 (field w lo 5)

def vFormat (w : W32) : VFormat :=
  { k := Fin.ofNat 8 (field w 29 3), t := BitVec.ofNat 3 (field w 26 3), vd := reg w 6, va := reg w 11, vb := reg w 16 }

def mFormat (w : W32) : MFormat :=
  { sel := BitVec.ofNat 4 (field w 28 4), b := reg w 16, a := reg w 11, d := reg w 6 }

/-- Scalar integer functions (R101). -/
def intOp (st : StallId) (d a b : SReg) : Nat → Option Instr
  | 0 => some (.add st d a b)
  | 1 => some (.sub st d a b)
  | 2 => some (.and st d a b)
  | 3 => some (.or st d a b)
  | 4 => some (.xor st d a b)
  | 5 => some (.sll st d a b)
  | 6 => some (.srl st d a b)
  | 7 => some (.sra st d a b)
  | 8 => some (.slt st d a b)
  | 9 => some (.sltu st d a b)
  | 10 => some (.mul st d a b)
  | 11 => some (.mulh st d a b)
  | 12 => some (.mulhu st d a b)
  | 13 => some (.div st d a b)
  | 14 => some (.divu st d a b)
  | 15 => some (.rem st d a b)
  | 16 => some (.remu st d a b)
  | 17 => some (.min st d a b)
  | 18 => some (.max st d a b)
  | 19 => some (.minu st d a b)
  | 20 => some (.maxu st d a b)
  | 21 => some (.clz st d a b)
  | 22 => some (.ctz st d a b)
  | 23 => some (.popc st d a b)
  | _ => none

/-- Scalar floating-point functions. -/
def fpOp (st : StallId) (d a b : SReg) : Nat → Option Instr
  | 0 => some (.faddD st d a b)
  | 1 => some (.fsubD st d a b)
  | 2 => some (.fmulD st d a b)
  | 3 => some (.fdivD st d a b)
  | 4 => some (.fsqrtD st d a b)
  | 5 => some (.fminD st d a b)
  | 6 => some (.fmaxD st d a b)
  | 7 => some (.feqD st d a b)
  | 8 => some (.fltD st d a b)
  | 9 => some (.fleD st d a b)
  | 10 => some (.fclassD st d a b)
  | 11 => some (.faddS st d a b)
  | 12 => some (.fsubS st d a b)
  | 13 => some (.fmulS st d a b)
  | 14 => some (.fdivS st d a b)
  | 15 => some (.fsqrtS st d a b)
  | 16 => some (.fminS st d a b)
  | 17 => some (.fmaxS st d a b)
  | 18 => some (.feqS st d a b)
  | 19 => some (.fltS st d a b)
  | 20 => some (.fleS st d a b)
  | 21 => some (.fclassS st d a b)
  | 22 => some (.fcvtDS st d a b)
  | 23 => some (.fcvtSD st d a b)
  | 24 => some (.fcvtDL st d a b)
  | 25 => some (.fcvtLD st d a b)
  | 26 => some (.fcvtSL st d a b)
  | 27 => some (.fcvtLS st d a b)
  | _ => none

/-- Fused functions. -/
def fmaOp (st : StallId) (d a b c : SReg) : Nat → Option Instr
  | 0 => some (.fmaddD st d a b c)
  | 1 => some (.fmsubD st d a b c)
  | 2 => some (.fnmaddD st d a b c)
  | 3 => some (.fnmsubD st d a b c)
  | 4 => some (.fmaddS st d a b c)
  | 5 => some (.fmsubS st d a b c)
  | 6 => some (.fnmaddS st d a b c)
  | 7 => some (.fnmsubS st d a b c)
  | _ => none

/-- Messaging functions. -/
def msgOp (st : StallId) (d a b : SReg) : Nat → Option Instr
  | 0 => some (.send st d a b)
  | 1 => some (.recv st d a b)
  | 2 => some (.recva st d a b)
  | 3 => some (.mgrant st d a b)
  | 4 => some (.chclose st d a b)
  | _ => none

/-- Context and fence functions. -/
def ctxOp (st : StallId) (d a b : SReg) : Nat → Option Instr
  | 0 => some (.fence st d a b)
  | 1 => some (.eret st d a b)
  | 2 => some (.cyield st d a b)
  | 3 => some (.halt st d a b)
  | _ => none

/-- Frame functions. -/
def frameOp (st : StallId) (d a b : SReg) : Nat → Option Instr
  | 0 => some (.fwait st d a b)
  | 1 => some (.fyield st d a b)
  | _ => none

/-- I-format opcodes, for a short or a long immediate. -/
def immOp (st : StallId) (d a : SReg) (imm : Imm) : Nat → Option Instr
  | 0x02 => some (.addi st d a imm)
  | 0x03 => some (.andi st d a imm)
  | 0x04 => some (.ori st d a imm)
  | 0x05 => some (.xori st d a imm)
  | 0x06 => some (.shi st d a imm)
  | 0x07 => some (.lih st d a imm)
  | 0x11 => some (.jalr st d a imm)
  | 0x12 => some (.loop st d a imm)
  | 0x14 => some (.ldD st d a imm)
  | 0x15 => some (.ldW st d a imm)
  | 0x16 => some (.ldWu st d a imm)
  | 0x17 => some (.ldH st d a imm)
  | 0x18 => some (.ldHu st d a imm)
  | 0x19 => some (.ldB st d a imm)
  | 0x1A => some (.ldBu st d a imm)
  | 0x1B => some (.stD st d a imm)
  | 0x1C => some (.stW st d a imm)
  | 0x1D => some (.stH st d a imm)
  | 0x1E => some (.stB st d a imm)
  | 0x33 => some (.trap st d a imm)
  | 0x34 => some (.crr st d a imm)
  | 0x35 => some (.crw st d a imm)
  | _ => none

/-- B-format opcodes. -/
def branchOp (st : StallId) (a b : SReg) (off : BitVec 16) : Nat → Option Instr
  | 0x0A => some (.beq st a b off)
  | 0x0B => some (.bne st a b off)
  | 0x0C => some (.blt st a b off)
  | 0x0D => some (.bge st a b off)
  | 0x0E => some (.bltu st a b off)
  | 0x0F => some (.bgeu st a b off)
  | _ => none

/-- Vector operations by opcode and func8 [4:0] (R148). -/
def vecOp (st : StallId) (v : VFormat) : Nat → Nat → Option Instr
  | 0x20, 0 => some (.vadd st v)
  | 0x20, 1 => some (.vsub st v)
  | 0x20, 2 => some (.vmul st v)
  | 0x20, 3 => some (.vmulh st v)
  | 0x20, 4 => some (.vmulhu st v)
  | 0x20, 5 => some (.vmin st v)
  | 0x20, 6 => some (.vmax st v)
  | 0x20, 7 => some (.vminu st v)
  | 0x20, 8 => some (.vmaxu st v)
  | 0x20, 9 => some (.vand st v)
  | 0x20, 10 => some (.vor st v)
  | 0x20, 11 => some (.vxor st v)
  | 0x20, 12 => some (.vsll st v)
  | 0x20, 13 => some (.vsrl st v)
  | 0x20, 14 => some (.vsra st v)
  | 0x20, 15 => some (.vcmpeq st v)
  | 0x20, 16 => some (.vcmpne st v)
  | 0x20, 17 => some (.vcmplt st v)
  | 0x20, 18 => some (.vcmpltu st v)
  | 0x20, 19 => some (.vcmple st v)
  | 0x20, 20 => some (.vcmpleu st v)
  | 0x21, 0 => some (.vfadd st v)
  | 0x21, 1 => some (.vfsub st v)
  | 0x21, 2 => some (.vfmul st v)
  | 0x21, 3 => some (.vfma st v)
  | 0x21, 4 => some (.vfnma st v)
  | 0x21, 5 => some (.vfdiv st v)
  | 0x21, 6 => some (.vfsqrt st v)
  | 0x21, 7 => some (.vfmin st v)
  | 0x21, 8 => some (.vfmax st v)
  | 0x21, 9 => some (.vfabs st v)
  | 0x21, 10 => some (.vfneg st v)
  | 0x21, 11 => some (.vfcmpeq st v)
  | 0x21, 12 => some (.vfcmplt st v)
  | 0x21, 13 => some (.vfcmple st v)
  | 0x21, 14 => some (.vfcmpun st v)
  | 0x22, 8 => some (.vcvtFromE4m3 st v)
  | 0x22, 9 => some (.vcvtFromE5m2 st v)
  | 0x22, 10 => some (.vcvtToE4m3 st v)
  | 0x22, 11 => some (.vcvtToE5m2 st v)
  | 0x22, 12 => some (.vid st v)
  | 0x22, 13 => some (.vslidedn st v)
  | 0x22, 14 => some (.vslideup st v)
  | 0x22, 15 => some (.vperm st v)
  | 0x24, 0 => some (.vrsum st v)
  | 0x24, 1 => some (.vrmin st v)
  | 0x24, 2 => some (.vrmax st v)
  | 0x24, 3 => some (.vsegsum st v)
  | 0x24, 4 => some (.vsegmin st v)
  | 0x24, 5 => some (.vsegmax st v)
  | 0x25, 0 => some (.vcompress st v)
  | 0x25, 1 => some (.vexpand st v)
  | 0x26, 0 => some (.vld st v)
  | 0x26, 1 => some (.vlds st v)
  | 0x26, 2 => some (.vst st v)
  | 0x26, 3 => some (.vsts st v)
  | 0x26, 16 => some (.vldm st v)
  | 0x26, 17 => some (.vldsm st v)
  | 0x26, 18 => some (.vstm st v)
  | 0x26, 19 => some (.vstsm st v)
  | 0x27, 0 => some (.vgatherW st v)
  | 0x27, 1 => some (.vgatherD st v)
  | 0x27, 2 => some (.vscatterW st v)
  | 0x27, 3 => some (.vscatterD st v)
  | 0x27, 16 => some (.vgathermW st v)
  | 0x27, 17 => some (.vgathermD st v)
  | 0x27, 18 => some (.vscattermW st v)
  | 0x27, 19 => some (.vscattermD st v)
  | 0x28, 0 => some (.vldff st v)
  | 0x28, 1 => some (.vgatherffW st v)
  | 0x28, 2 => some (.vgatherffD st v)
  | 0x28, 16 => some (.vldffm st v)
  | 0x28, 17 => some (.vgatherffmW st v)
  | 0x28, 18 => some (.vgatherffmD st v)
  | 0x29, 0 => some (.vhadd st v)
  | 0x2A, 0 => some (.vmvsx st v)
  | 0x2A, 1 => some (.vins st v)
  | 0x2A, 2 => some (.vbcast st v)
  | 0x2A, 3 => some (.vmpopc st v)
  | 0x2A, 4 => some (.vmfirst st v)
  | 0x2B, 0 => some (.vwake st v)
  | 0x2B, 1 => some (.vsetvl st v)
  | 0x22, n => if n < 8 then some (.vcvt st (BitVec.ofNat 3 n) v) else none
  | _, _ => none

/-- Mask operations (R147). -/
def maskOp (st : StallId) (kd ks1 ks2 : KReg) (vd va vb : VReg) : Nat → Option Instr
  | 0 => some (.kand st kd ks1 ks2 vd va vb)
  | 1 => some (.kor st kd ks1 ks2 vd va vb)
  | 2 => some (.kxor st kd ks1 ks2 vd va vb)
  | 3 => some (.kandn st kd ks1 ks2 vd va vb)
  | _ => none

/-- Unit instructions by opcode, func7 and the kind that the descriptor names. -/
def unitOp (st : StallId) (m : MFormat) : Nat → Nat → Nat → Option Instr
  | 0x2C, 0, _ => some (.mload st m)
  | 0x2C, 1, _ => some (.mfeed st m)
  | 0x2C, 2, _ => some (.mdrain st m)
  | 0x2C, 3, _ => some (.mstat st m)
  | 0x2C, 4, _ => some (.fmtsel st m)
  | 0x2D, 0, 0 => some (.bget st m)
  | 0x2D, 1, 0 => some (.bput st m)
  | 0x2D, 0, 1 => some (.stashOpen st false m)
  | 0x2D, 1, 1 => some (.stashOpen st true m)
  | 0x2D, 0, 2 => some (.stashPut st false m)
  | 0x2D, 1, 2 => some (.stashPut st true m)
  | 0x2D, 0, 3 => some (.stashGet st false m)
  | 0x2D, 1, 3 => some (.stashGet st true m)
  | 0x2D, 0, 4 => some (.stashFree st false m)
  | 0x2D, 1, 4 => some (.stashFree st true m)
  | 0x2D, 0, 5 => some (.stashClose st false m)
  | 0x2D, 1, 5 => some (.stashClose st true m)
  | 0x2F, 0, 0 => some (.shift st m)
  | 0x2F, 0, 1 => some (.permute st m)
  | 0x2F, 0, 2 => some (.teamSend st m)
  | 0x2F, 1, _ => some (.siding st m)
  | 0x2F, 2, _ => some (.release st m)
  | 0x2F, 3, _ => some (.permset st m)
  | 0x30, 0, _ => some (.fsubmit st m)
  | 0x30, 1, 0 => some (.backward st m)
  | 0x30, 1, 1 => some (.backwardAndRelease st m)
  | 0x30, 1, 2 => some (.forgeRelease st m)
  | _, _, _ => none

/-- The command of an instruction word, with the second word of a long form and the kind that a descriptor
names; none where the word is illegal (R98, R101, R102). -/
def decode (st : StallId) (kind : Nat) (w second : W32) : Option Instr :=
  let op := field w 0 6
  let d := reg w 6
  let a := reg w 11
  let b := reg w 16
  let top := field w 21 11
  if op = 0x01 then intOp st d a b top
  else if op = 0x08 then fpOp st d a b top
  else if op = 0x09 then fmaOp st d a b (Fin.ofNat 32 (top % 32)) (top / 32)
  else if 0x0A ≤ op ∧ op ≤ 0x0F then branchOp st a d (BitVec.ofNat 16 (field w 16 16)) op
  else if op = 0x10 then some (.jal st (BitVec.ofNat 26 (field w 6 26)))
  else if op = 0x23 then
    maskOp st (Fin.ofNat 8 (field w 29 3)) (Fin.ofNat 8 (field w 24 3)) (Fin.ofNat 8 (field w 21 3)) d a b (field w 27 2)
  else if 0x20 ≤ op ∧ op ≤ 0x2B then vecOp st (vFormat w) op (field w 21 5)
  else if op = 0x2E then msgOp st d a b top
  else if op = 0x31 then frameOp st d a b top
  else if op = 0x32 then ctxOp st d a b top
  else if op = 0x2C ∨ op = 0x2D ∨ op = 0x2F ∨ op = 0x30 then unitOp st (mFormat w) op (field w 21 7) kind
  else if op = 0x3F then
    (if field w 22 10 = 0 then immOp st d a (.long second) (field w 16 6) else none)
  else immOp st d a (.short (BitVec.ofNat 16 (field w 16 16))) op

/-- Instruction words that the command takes: two for a long form. -/
def words (i : Instr) : Nat := (encode i).length

/-- The first instruction word, which ILLEGAL_INSTRUCTION puts into EXC_INFO (R130). -/
def firstWord (i : Instr) : W32 := ((encode i)[0]?).getD 0

end Sys2Proof.Machine.Coeri
end

