-- ==== Sys2Proof/Machine/Status.lean ====
section
/-! DEFINITION. The status codes of R10. -/

namespace Sys2Proof.Machine.Status

def done : Code := 0x0000
def aborted : Code := 0x0001
def abortTooLate : Code := 0x0002
def late : Code := 0x0003
def unbookedDone : Code := 0x0004
def scaleOverflow : Code := 0x0101
def scaleUnderflow : Code := 0x0102
def calibMisfit : Code := 0x0103
def escapeListOverrun : Code := 0x0104
def fpInvalid : Code := 0x0105
def tilePoisoned : Code := 0x0106
def gateConfigInvalid : Code := 0x0107
def mangerFormatInvalid : Code := 0x0108
def memEccUncorrected : Code := 0x0201
def memThermalLate : Code := 0x0202
def memChannelOffline : Code := 0x0203
def barrowFault : Code := 0x0204
def stashFull : Code := 0x0205
def addressUnmapped : Code := 0x0206
def loftAddressFault : Code := 0x0207
def loftMisaligned : Code := 0x0208
def tackParity : Code := 0x0209
def vregParity : Code := 0x020A
def stashRecompute : Code := 0x020B
def stashTagMismatch : Code := 0x020C
def portAbsent : Code := 0x0301
def portFenced : Code := 0x0302
def portIdentityFail : Code := 0x0303
def portNoCommonVersion : Code := 0x0304
def portHostile : Code := 0x0305
def teamSignatureMismatch : Code := 0x0401
def teamSevered : Code := 0x0402
def memberFault : Code := 0x0403
def admissionRefused : Code := 0x0404
def shardStale : Code := 0x0405
def teamConfigInvalid : Code := 0x0406
def forgeDeadlineMissed : Code := 0x0501
def forgeInfeasible : Code := 0x0502
def forgeWarmRejected : Code := 0x0503
def forgeTemplateInvalid : Code := 0x0504
def forgeNumeric : Code := 0x0505
def forgeInputInvalid : Code := 0x0506
def forgeRetentionExpired : Code := 0x0507
def forgeIterLimit : Code := 0x0508
def txnBusy : Code := 0x0601
def txnInvalid : Code := 0x0602
def txnTimeout : Code := 0x0603
def zhiVersion : Code := 0x0604
def stateInvalid : Code := 0x0605
def hostqFault : Code := 0x0606
def initBlockInvalid : Code := 0x0607
def bootTimeout : Code := 0x0608
def thermalTrip : Code := 0x0609
def sidebandSafe : Code := 0x060A
def railFault : Code := 0x060B
def bridgeFail : Code := 0x060C
def imageSignatureBad : Code := 0x0701
def imageRollback : Code := 0x0702
def debugLocked : Code := 0x0703
def imageFormatBad : Code := 0x0704
def fuseWriteFail : Code := 0x0705
def imageWrongDevice : Code := 0x0706
def identityUnavailable : Code := 0x0707
def frameOverrun : Code := 0x0801
def frameHoldover : Code := 0x0802
def tickLost : Code := 0x0803
def frameWatchdog : Code := 0x0804
def tickAcquireBusy : Code := 0x0805
def tallyViolation : Code := 0x0901
def creditReclaimed : Code := 0x0902
def vecElementFault : Code := 0x0A01
def vecFfTrimmed : Code := 0x0A02
def bistFail : Code := 0x0B01
def bistConditions : Code := 0x0B02

/-- The class of a code: its high byte (R9). -/
def cls (c : Code) : Nat := c.toNat / 256

/-- Codes that report a completion (R11). -/
def completes (c : Code) : Bool := c = done || c = unbookedDone || c = late

end Sys2Proof.Machine.Status
end

