-- ==== Sys2Proof/Machine/Regs.lean ====
section
/-! DEFINITION. The register pages: where each page and each register lies, its access code, the bits that
software may write, and its reset value (R486 to R493 and the register tables of the chapters). -/

namespace Sys2Proof.Machine

/-- The page types of R491. -/
inductive PageKind where
  | device
  | gatehouse
  | txc
  | frame
  | fuseView
  | bist
  | power
  | tally
  | yard
  | drover
  | forge
  | port
  | hostq
  | shed
  | memctl
  | stall
deriving DecidableEq, Repr

/-- Access codes of R15. -/
inductive Access where
  | ro
  | rw
  | rwt
  | w1c
  | wo
  | rc
deriving DecidableEq, Repr

/-- A register, or a row of equal registers stride bytes apart. -/
structure RegRow where
  off : Nat
  acc : Access
  /-- bits that a write may change -/
  mask : Nat := 0xFFFF_FFFF
  reset : Nat := 0
  count : Nat := 1
  stride : Nat := 4
deriving DecidableEq, Repr

namespace PageKind

/-- Page type code, pages of the type, base offset and first directory index (R491). -/
def place : PageKind → Nat × Nat × Nat × Nat
  | device => (0x0001, 1, 0x4000, 0)
  | gatehouse => (0x0002, 1, 0x5000, 1)
  | txc => (0x0003, 1, 0x6000, 2)
  | frame => (0x0004, 1, 0x7000, 3)
  | fuseView => (0x0005, 1, 0x8000, 4)
  | bist => (0x0006, 1, 0x9000, 5)
  | power => (0x0007, 1, 0xA000, 6)
  | tally => (0x0060, 1, 0xB000, 7)
  | yard => (0x0010, 2, 0x1_0000, 8)
  | drover => (0x0020, 2, 0x2_0000, 10)
  | forge => (0x0040, 2, 0x3_0000, 12)
  | port => (0x0021, 8, 0x4_0000, 14)
  | hostq => (0x0050, 16, 0x5_0000, 22)
  | shed => (0x0011, 24, 0x8_0000, 38)
  | memctl => (0x0030, 64, 0x10_0000, 62)
  | stall => (0x0012, 384, 0x20_0000, 126)

def code (p : PageKind) : Nat := p.place.1
def count (p : PageKind) : Nat := p.place.2.1
def base (p : PageKind) : Nat := p.place.2.2.1
def dirIndex (p : PageKind) : Nat := p.place.2.2.2

/-- Every page type, in directory order. -/
def all : List PageKind :=
  [device, gatehouse, txc, frame, fuseView, bist, power, tally, yard, drover, forge, port, hostq, shed,
   memctl, stall]

/-- Tallies that TALLY_SEL of the page selects among (R548). -/
def tallies : PageKind → Nat
  | stall => 30
  | port => 12
  | drover => 64
  | forge => 1
  | _ => 0

/-- The registers from offset 0x100 on. The mirrors of R97 and the banks of R513 have rules of their own
beside these rows. -/
def rows : PageKind → List RegRow
  | device =>
    [{ off := 0x100, acc := .ro, count := 3 }, { off := 0x110, acc := .ro, count := 4 },
     { off := 0x120, acc := .rwt }, { off := 0x124, acc := .rwt, mask := 0xFFFF },
     { off := 0x128, acc := .ro, count := 4 }, { off := 0x140, acc := .ro, count := 16 }]
  | gatehouse =>
    [{ off := 0x100, acc := .ro }, { off := 0x104, acc := .wo }, { off := 0x108, acc := .ro },
     { off := 0x10C, acc := .rw }, { off := 0x110, acc := .ro, count := 6 },
     { off := 0x140, acc := .ro, count := 5 }, { off := 0x154, acc := .rc, count := 3 },
     { off := 0x160, acc := .rw, count := 4 }]
  | txc =>
    [{ off := 0x100, acc := .wo, count := 2, stride := 0x40 }, { off := 0x104, acc := .ro, count := 2, stride := 0x40 },
     { off := 0x108, acc := .rw, count := 2, stride := 0x40 },
     { off := 0x10C, acc := .rw, mask := 0xFFFF, count := 2, stride := 0x40 },
     { off := 0x110, acc := .wo, count := 2, stride := 0x40 }, { off := 0x114, acc := .wo, count := 2, stride := 0x40 },
     { off := 0x118, acc := .ro, count := 2, stride := 0x40 }, { off := 0x11C, acc := .ro, count := 2, stride := 0x40 },
     { off := 0x120, acc := .ro, count := 2, stride := 0x40 },
     { off := 0x124, acc := .rw, mask := 0xFFFF, reset := 0x1000, count := 2, stride := 0x40 },
     { off := 0x128, acc := .ro, count := 2, stride := 0x40 }, { off := 0x12C, acc := .ro, count := 2, stride := 0x40 },
     { off := 0x130, acc := .ro, count := 2, stride := 0x40 }, { off := 0x134, acc := .ro, count := 2, stride := 0x40 },
     { off := 0x180, acc := .rc, count := 2 }]
  | frame =>
    [{ off := 0x100, acc := .rwt, mask := 0xFF73 }, { off := 0x104, acc := .ro, count := 5 },
     { off := 0x118, acc := .rw }, { off := 0x11C, acc := .rw, mask := 0xFFFF }, { off := 0x120, acc := .wo },
     { off := 0x124, acc := .ro, count := 4 }, { off := 0x134, acc := .rw, mask := 0xFFFF_00FF, reset := 0x1000_0040 },
     { off := 0x138, acc := .wo }, { off := 0x13C, acc := .rc }]
  | fuseView =>
    [{ off := 0x100, acc := .ro, count := 2 }, { off := 0x108, acc := .rc, count := 2 },
     { off := 0x110, acc := .ro, count := 8 }, { off := 0x130, acc := .rw, mask := 7 },
     { off := 0x134, acc := .rw, mask := 3 }, { off := 0x140, acc := .ro, count := 8 },
     { off := 0x160, acc := .ro, count := 8 }]
  | bist =>
    [{ off := 0x100, acc := .rw, mask := 0x7F, reset := 0x46 }, { off := 0x104, acc := .rw, mask := 0x0FFF_FFFF },
     { off := 0x108, acc := .rw, count := 2 }, { off := 0x110, acc := .rw, mask := 0xFFFF, reset := 0x64 },
     { off := 0x114, acc := .wo }, { off := 0x118, acc := .ro, count := 4 },
     { off := 0x128, acc := .rw, mask := 0xFF }, { off := 0x12C, acc := .ro, count := 5 }]
  | power =>
    [{ off := 0x100, acc := .rwt, reset := 0x0352_0352 }, { off := 0x104, acc := .rwt, mask := 0x33 },
     { off := 0x108, acc := .ro, count := 3 }, { off := 0x114, acc := .rw, mask := 7 },
     { off := 0x118, acc := .ro, count := 2 }, { off := 0x120, acc := .rw, mask := 0x3F },
     { off := 0x124, acc := .ro }, { off := 0x128, acc := .rc, count := 2 }]
  | tally =>
    [{ off := 0x100, acc := .ro, count := 8 }, { off := 0x120, acc := .rw, mask := 0xF },
     { off := 0x124, acc := .rc }, { off := 0x128, acc := .wo }, { off := 0x12C, acc := .ro },
     { off := 0x130, acc := .rw, mask := 7 }, { off := 0x134, acc := .rw },
     { off := 0x138, acc := .rw, mask := 0x3_FFFF }, { off := 0x13C, acc := .rw, mask := 0x8000_001F },
     { off := 0x140, acc := .rw, count := 2 }, { off := 0x148, acc := .ro, count := 2 }]
  | yard =>
    [{ off := 0x100, acc := .ro, count := 3 }, { off := 0x10C, acc := .rc, count := 6 }]
  | drover =>
    [{ off := 0x100, acc := .ro }, { off := 0x104, acc := .wo }, { off := 0x108, acc := .ro },
     { off := 0x10C, acc := .rw }, { off := 0x110, acc := .rw, mask := 0xFFFF }, { off := 0x114, acc := .rw },
     { off := 0x118, acc := .rw, mask := 0xFFFF }, { off := 0x11C, acc := .rw, mask := 0x3F },
     { off := 0x120, acc := .ro }, { off := 0x124, acc := .wo }, { off := 0x128, acc := .ro, count := 4 },
     { off := 0x138, acc := .rc, count := 4 }]
  | forge =>
    [{ off := 0x100, acc := .rwt, mask := 0xFFFF }, { off := 0x104, acc := .rwt, mask := 0xFF_FFFF },
     { off := 0x108, acc := .ro, count := 2 }, { off := 0x110, acc := .wo }, { off := 0x114, acc := .ro },
     { off := 0x118, acc := .rw }, { off := 0x11C, acc := .rw, mask := 0xFFFF },
     { off := 0x120, acc := .rw, mask := 0xF }, { off := 0x124, acc := .ro, count := 10 },
     { off := 0x14C, acc := .wo }, { off := 0x150, acc := .ro }, { off := 0x154, acc := .rc, count := 5 }]
  | port =>
    [{ off := 0x100, acc := .rwt, mask := 0xF01, reset := 1 }, { off := 0x104, acc := .ro }, { off := 0x108, acc := .wo },
     { off := 0x10C, acc := .ro }, { off := 0x110, acc := .rwt, reset := 0x1040_4040 },
     { off := 0x114, acc := .rwt, mask := 0xFF, reset := 32 },
     { off := 0x118, acc := .rwt, reset := 0x0320_0320, count := 2 },
     { off := 0x120, acc := .rwt, mask := 0xFFFF, reset := 0x340 },
     { off := 0x124, acc := .rwt, reset := 0x0001_0000 }, { off := 0x128, acc := .rwt, reset := 0x100 },
     { off := 0x12C, acc := .ro, count := 5 }, { off := 0x140, acc := .rwt, mask := 0xFFFF, count := 5 },
     { off := 0x154, acc := .ro, count := 3 }, { off := 0x160, acc := .rc, count := 4 },
     { off := 0x180, acc := .rc, count := 17 }]
  | hostq =>
    [{ off := 0x100, acc := .rw, mask := 0x803F_FF00, reset := 0x4400 }, { off := 0x104, acc := .ro },
     { off := 0x108, acc := .rw, mask := 0xFFFF_F000, count := 2, stride := 8 },
     { off := 0x10C, acc := .rw, count := 2, stride := 8 }, { off := 0x118, acc := .wo }, { off := 0x11C, acc := .ro },
     { off := 0x120, acc := .wo }, { off := 0x124, acc := .ro }, { off := 0x128, acc := .rc, count := 2 }]
  | shed =>
    [{ off := 0x100, acc := .rwt, count := 16, stride := 16 }, { off := 0x104, acc := .ro, count := 16, stride := 16 },
     { off := 0x108, acc := .rc, count := 16, stride := 16 }, { off := 0x10C, acc := .rc, count := 16, stride := 16 },
     { off := 0x200, acc := .wo }, { off := 0x204, acc := .ro }]
  | memctl =>
    [{ off := 0x100, acc := .rwt, mask := 0xFFFF_0001, reset := 0x0008_0000 }, { off := 0x104, acc := .ro, count := 2 },
     { off := 0x10C, acc := .rwt, reset := 0x0010_0000 }, { off := 0x110, acc := .rc, count := 2 },
     { off := 0x118, acc := .ro, count := 2 }, { off := 0x120, acc := .rc, count := 5 }, { off := 0x134, acc := .ro }]
  | stall =>
    [{ off := 0x400, acc := .ro, count := 4, stride := 0x200 }, { off := 0x404, acc := .rc, count := 4, stride := 0x200 },
     { off := 0x408, acc := .rc, count := 4, stride := 0x200 }, { off := 0x40C, acc := .rc, count := 4, stride := 0x200 },
     { off := 0x410, acc := .rc, count := 4, stride := 0x200 }, { off := 0xF00, acc := .rwt, mask := 0x8000_FF3F },
     { off := 0xF04, acc := .w1c, mask := 0x8000_0000, count := 2 }]

/-- The common registers of R493; CTL and STAT are reserved. -/
def common : List RegRow :=
  [{ off := 0x000, acc := .ro, count := 3 }, { off := 0x00C, acc := .rw, mask := 0 },
   { off := 0x018, acc := .w1c, mask := 0xC000_FFFE }, { off := 0x01C, acc := .rw, mask := 0xC000_FFFE },
   { off := 0x020, acc := .ro }, { off := 0x024, acc := .wo }, { off := 0x028, acc := .w1c, mask := 0xFFFF },
   { off := 0x02C, acc := .rw, mask := 0xFFFF }, { off := 0x030, acc := .rw, mask := 0x3F },
   { off := 0x034, acc := .ro, count := 3 }, { off := 0x040, acc := .ro, count := 2 }]

/-- The row of the register at offset o of a page. -/
def row? (p : PageKind) (o : Nat) : Option RegRow :=
  (if o < 0x100 then common else p.rows).find? fun r =>
    decide (r.off ≤ o) && (o - r.off) % r.stride = 0 && decide ((o - r.off) / r.stride < r.count)

/-- PAGE_CAPS.TXN: the page holds an RWT register (R493). -/
def hasTxn (p : PageKind) : Bool := p.rows.any fun r => r.acc = .rwt

end PageKind

/-- A page: its type and its number among the pages of the type. -/
structure Page where
  kind : PageKind
  num : Nat
deriving DecidableEq, Repr

namespace Page

/-- Register-BAR offset of the page. -/
def base (p : Page) : Nat := p.kind.base + p.num * 0x1000

/-- Register-BAR offset of a register of the page. -/
def reg (p : Page) (o : Nat) : Nat := p.base + o

/-- PAGE_ID of R493. -/
def id (p : Page) : Nat := p.kind.code * 0x1_0000 + p.num

/-- Directory index (R491). -/
def index (p : Page) : Nat := p.kind.dirIndex + p.num

/-- The domain of the page's die (R541): 0 yard 0, 1 yard 1, 2 gatehouse. -/
def domain (p : Page) : Nat :=
  match p.kind with
  | .yard | .drover | .forge => p.num
  | .port => p.num / 4
  | .shed => p.num / 12
  | .memctl => p.num / 32
  | .stall => p.num / 192
  | _ => 2

end Page

/-- The page that a register-BAR offset lies in, among the 510 pages of R491. -/
def pageAt (off : Nat) : Option Page :=
  (PageKind.all.find? fun k => decide (k.base ≤ off) && decide (off < k.base + k.count * 0x1000)).map
    fun k => ⟨k, (off - k.base) / 0x1000⟩

/-- The reset value of the register at a register-BAR offset. -/
def regReset (off : Nat) : W32 :=
  match pageAt off with
  | some p => BitVec.ofNat 32 (((p.kind.row? (off % 0x1000)).map RegRow.reset).getD 0)
  | none => 0

def Page.device : Page := ⟨.device, 0⟩
def Page.gatehouse : Page := ⟨.gatehouse, 0⟩
def Page.txc : Page := ⟨.txc, 0⟩
def Page.frame : Page := ⟨.frame, 0⟩
def Page.fuseView : Page := ⟨.fuseView, 0⟩
def Page.bist : Page := ⟨.bist, 0⟩
def Page.power : Page := ⟨.power, 0⟩
def Page.tally : Page := ⟨.tally, 0⟩
def Page.yard (y : Yard) : Page := ⟨.yard, y⟩
def Page.drover (y : Yard) : Page := ⟨.drover, y⟩
def Page.forge (y : Yard) : Page := ⟨.forge, y⟩
def Page.port (p : PortId) : Page := ⟨.port, p⟩
def Page.hostq (q : QueueId) : Page := ⟨.hostq, q⟩
def Page.memctl (c : Chan) : Page := ⟨.memctl, c⟩
def Page.stall (st : StallId) : Page := ⟨.stall, st⟩
/-- The SHED page of a stall (R4 to R7): sheds hold 16 stalls. -/
def Page.shedOf (st : StallId) : Page := ⟨.shed, st.val / 16⟩

end Sys2Proof.Machine
end

