-- ==== Sys2Proof/Config.lean ====
section
/-! DEFINITION. What one implementation fixes and what the manual leaves open: constants without a body. -/

namespace Sys2Proof

/-- The byte that an address reads as before anything is written there since the memory last lost its
contents; epoch counts those losses. -/
opaque Config.unwritten (epoch : Nat) (addr : Nat) : Byte

/-- SHA-256 of the boot ROM, which MEAS[0] holds (R530). -/
opaque Config.romDigest : BitVec 256

/-- The PCI-SIG vendor identifier of Tabeuri (R456). -/
opaque Config.vendorId : BitVec 16

/-- What a 32-bit RC counter reads once its count t has passed its width, where the manual does not say that
it saturates. -/
opaque Config.counterOverflow (t : Nat) : W32

/-- Whether the k-th served burst comes after a turn-round, and whether it opens its row: the order in which a
controller serves its queues is its own. -/
opaque Config.turnRound (k : Nat) : Bool
opaque Config.activation (k : Nat) : Bool

/-- The pin and the beat of the bit that the k-th injected correctable error of a burst inverts (R305, R555). -/
opaque Config.injectedBit (k : Nat) : Fin 24 × Fin 24

/-- The result of a scalar shift (op 0 SLL, 1 SRL, 2 SRA) of x by a register n of 64 or above. -/
opaque Config.wideShift (op : Nat) (x n : W64) : W64

/-- What the manual does not state of the scalar floating-point group: whether FMIN (op 0) and FMAX (op 1) of a NaN
and a number give the number, and otherwise the canonical NaN; whether of two zeros of different signs they give the
first; the code that FCLASS writes; and whether a comparison (op 0 equal, 1 less, 2 less or equal) of a NaN raises
invalid; double names the FP64 form. -/
opaque Config.scalarMinMax (op : Nat) (double : Bool) (x y : W64) : Bool
opaque Config.fclass (double : Bool) (x : W64) : W64
opaque Config.nanCompareInvalid (op : Nat) (width : Nat) (x y : Nat) : Bool

/-- The 32-bit remaining count of a LOOP whose count n does not fit it. -/
opaque Config.longLoop (n : W64) : W32

/-- What VID writes as i under a floating-point type t, and which element an index code of VPERM names under
one: the manual does not say whether the element is read as a number of the type or as an integer. -/
opaque Config.vectorId (t i : Nat) : Nat
opaque Config.floatIndex (t code : Nat) : Nat

/-- Whether element i, above the faulting one of an LP6 store or scatter, had reached memory (R169). -/
opaque Config.storeAhead (k i : Nat) : Bool

/-- The value of the destination of a vector instruction that was discarded (R174). -/
opaque Config.lostVector (k : Nat) : BitVec 4096
opaque Config.lostMask (k : Nat) : BitVec 512
opaque Config.lostStored (k addr : Nat) : Byte
opaque Config.lostScalar (k : Nat) : W64
opaque Config.lostLength (k : Nat) : Fin 513

/-- What the manual leaves open in a manger: an entry of a wide entry that a short clearing pass leaves unwritten
(R228), the cycle of its yard's counter modulo 8 in which a pass starts, the groups of 8 cycles that it has seen begin
at a change of duty (R252), and a record count beyond its 14 bits (R243). -/
opaque Config.lostEntry (k lane e : Nat) : W32
opaque Config.passPhase (k : Nat) : Fin 8
opaque Config.groupsPassed (k stall slot run : Nat) : Nat
opaque Config.recordCount (n : Nat) : BitVec 14

/-- What the block draws or measures for itself on its links: a fresh nonce of the root of trust (R359, R530),
and the turnaround that an ECHO_RSP reports (R352). -/
opaque Config.freshNonce (k : Nat) : BitVec 256
opaque Config.turnaround (k : Nat) : W32

/-- The k-th marker's departure after its boundary, in ps, before the next flit slot begins (R361), and the constant of a
sending and receiving port pair that R57 names. -/
opaque Config.txWait (k : Nat) : Nat
opaque Config.markerLatency (port : Nat) : Nat

/-- Bytes that the manual leaves open on a link: byte i of an IDLE flit's payload (R338), the codes that SWAP_REQ carries for
its direction (field 0) and its reason (field 1: 0 corrected symbols, 1 codewords, 2 CANCEL; R352, R365), and the bits that an
injected error inverts in a CRC beside bit 0 (R555). -/
opaque Config.idleByte (i : Nat) : Byte
opaque Config.swapCode (field kind : Nat) : Byte
opaque Config.crcDamage (k : Nat) : W64

/-- The choice that fixes the SEC-DED code of a fuse unit: the manual gives its strength and not its matrix (R515). -/
opaque Config.fuseColumn (i : Nat) : Nat

/-- The 16 random bytes of a signature of FIPS 205: the manual does not say which they are (R527). -/
opaque Config.signRandom (context message : List Byte) : BitVec 128

/-- What the accumulator entries of a manger, its weight halves, a vector register and a scalar, mask or control
register hold once their contents are unknown (R265, R471, R474). -/
opaque Config.lostAcc (k stall manger group lane : Nat) : BitVec 128
opaque Config.lostTurn (k i : Nat) : Nat
opaque Config.lostHalf (k stall manger half lane : Nat) : BitVec 512

/-- What a message's bytes, a word of a team's record and the payload bytes of a port's buffers hold after a self-test run that
was stopped (R569). -/
opaque Config.lostMessage (k stall mbx message i : Nat) : Byte
opaque Config.lostRecord (k yard team i : Nat) : W64
opaque Config.lostFlit (k port i : Nat) : Byte

/-- What the receipts of a stall, byte i of a ledger, and an entry, the next sequence number and the two counts of an open
stash hold once the device has entered SAFE (R297). -/
opaque Config.lostReceipt (k stall i : Nat) : W64
opaque Config.lostLedger (k addr i : Nat) : Byte
opaque Config.lostStashEntry (k stall i : Nat) : W64 × W64
opaque Config.lostStashCount (k stall i : Nat) : W32

/-- The supernodal symbolic factor of a pattern, by row and column of each nonzero, and the cycles of its panel steps: the
manual names the method and not its ordering (R431). -/
opaque Config.factorPattern (n : Nat) (pCol pRow aCol aRow : List Nat) : List (Nat × Nat)
opaque Config.panelCycles (n : Nat) (pCol pRow aCol aRow : List Nat) : Nat

/-- Orders that the manual leaves to the Forge: of the steps of a sum of some terms, of the variables in a
factorisation, and of the elements of a factor that a retention keeps (R436, R447). -/
opaque Config.sumRank (terms i : Nat) : Nat
opaque Config.pivotRank (dense : Bool) (n : Nat) (pCol pRow aCol aRow : List Nat) (i : Nat) : Nat
opaque Config.cellRank (cells i : Nat) : Nat

/-- Where TPL_LP6 takes the retention, the output and the sources of a problem to lie, in 64 B units, and whether it takes a
source to be of kind DPA: a template names none of these (R431). -/
opaque Config.chargeUnit (dpa i : Nat) : Nat
opaque Config.chargeDpa (dpa i : Nat) : Bool

/-- Hearth cycles that the k-th started problem gets in the frame in which it starts, and how many of the frame under way
a hearth has spent where they are asked for: the manual gives a frame 14,336. -/
opaque Config.firstCycles (k : Nat) : Fin 14337
opaque Config.partCycles (k hearth : Nat) : Fin 14337

/-- The cold point of a problem, by the template's n and m and the assembled values: x, the slacks of the lower and the upper
bounds, their multipliers, and the multipliers of the equalities, by part and index. The manual names none (R436). -/
opaque Config.coldStart (n m : Nat) (vals : List W64) (part i : Nat) : W64

/-- PRES, DRES, GAP and OBJ in the header of a problem that has no iterate (R437, R442). -/
opaque Config.unsolved (k word : Nat) : W64

/-- PERCENT of a self-test phase, from 0 to 100 (R572). -/
opaque Config.bistPercent (phase round : Nat) (frame : Frame) : Fin 101

/-- The level of the lands TZ_MGMT_ADDR[1:0], which the board fixes (R585). -/
opaque Config.mgmtAddr : BitVec 2

/-- Tabeuri's 11-bit JEP106 identity code, which the manual does not state. -/
opaque Config.jep106 : BitVec 11

end Sys2Proof
end

