-- ==== Sys2Proof/Machine/State.lean ====
section
/-! DEFINITION. The state of the block as plain data: every register group, queue, buffer, counter, mode
and pin that the manual gives the ZL9, and the queue of waiting commands. The words of the register pages
that are not shown from a field here stand in Device.regs, with the reset values of Machine/Regs.lean. -/

namespace Sys2Proof.Machine

/-- Why the machine could stop with a fault. Every command of the manual has an effect in every state, so
no meaning raises one; the type is kept for the interface. -/
inductive Fault where
  /-- raised by nothing: safe -/
  | unreachable
deriving DecidableEq, Repr

/-- Why a command could be refused. -/
inductive Refusal where
  /-- a command without a meaning yet, by its mnemonic: only the dispatch raises it; safe -/
  | notModelled (mnemonic : String)
deriving DecidableEq, Repr

/-- The tick unit's states (R87, TICK_STAT). -/
inductive TickState where
  | free
  | acquiring
  | aligned
  | holdover
deriving DecidableEq, Repr

/-- The tick unit (R46 to R71, R87): what the FRAME page shows beside TICK_CTL, WDOG_CTL and the
FRAME_LOAD registers, which the register file holds. -/
structure TickUnit where
  state : TickState
  /-- the state held before ACQUIRE (R62) -/
  origin : TickState
  /-- FRAME_HOLDOVER is set (R69) -/
  flag : Bool
  hopDepth : BitVec 8
  refLost : Bool
  /-- TICK_RESULT -/
  result : Code
  /-- PHASE_ERR in ps; held in HOLDOVER entered under R59 -/
  phaseErr : Int
  /-- the correction in units of 0.4 ns taken by the next boundary (R57) -/
  correction : Int
  /-- HOLDOVER_FRAMES -/
  holdoverFrames : Nat
  /-- the last valid marker from UPSTREAM, with target − next_local_boundary in ps at its arrival -/
  last : Option (TickMarker × Int)
  /-- boundaries passed since that marker arrived (R67) -/
  lastAge : Nat
  /-- consecutive markers whose tracking error was beyond ±40 ns (R59) -/
  errRun : Nat
  /-- consecutive valid markers received since ACQUIRE (R61), and frames since ACQUIRE (R62) -/
  validRun : Nat
  acquireAge : Nat
  /-- a step begins at the next boundary; that boundary has come (R61, R64) -/
  stepReq : Bool
  stepDue : Bool
  /-- the frame in progress is a step frame, and how long it lasts in ps (R61); how long the frame before lasted -/
  inStep : Bool
  stepLen : Nat
  lastLen : Nat
  /-- a LOAD was accepted; the boundary at which it writes the frame counter has come (R65) -/
  loadReq : Bool
  loadDue : Bool
  /-- markers of the last boundary carried the STEP flag (R61) -/
  stepSent : Bool
  /-- the markers of the last boundary wait for what that boundary brings to the tick unit -/
  markersHeld : Bool
  /-- markers counted and discarded (R70, R362) -/
  ignored : Nat
deriving DecidableEq, Repr

/-- The 48-bit and 64-bit counters and the high halves latched per requester (R46, R49, R50). -/
structure Counters where
  frame : Frame
  uptime : W64
  /-- ps from the last counted reference cycle to the last boundary: less than one cycle, 6,400 ps (R43, R49, R57) -/
  phase : Nat
  frameLatch : Vector (BitVec 16) 2
  uptimeLatch : Vector W32 2
  /-- frames since the last FW_KICK (R84) -/
  kickAge : Nat
deriving DecidableEq, Repr

/-- What a groom's W slot or a frame instruction holds on (R82, R90, R107, R111, R112, R167, R284). -/
inductive Hold where
  | fwait (f : Frame)
  | send (a b : SReg)
  | recv (d a : SReg) (mask : BitVec 8)
  | fmtsel (d : SReg)
  | vector
deriving DecidableEq, Repr

/-- The vector operations (R148), less the operand fields. -/
inductive VecKind where
  | int (op : Nat)
  | fp (op : Nat)
  | cvt (op : Nat)
  | red (op : Nat)
  | pack (op : Nat)
  | mem (op : Nat)
  | gather (op : Nat)
  | first (op : Nat)
  | hist
  | move (op : Nat)
  | mask (op : Nat) (ks1 ks2 : KReg)
  | setvl
deriving DecidableEq, Repr

/-- An entry of a vector queue with the values captured at its placement (R138, R193). -/
structure VecEntry where
  kind : VecKind
  v : VFormat
  len : Nat
  base : W64
  stride : W32
  scalar : W64
  modeF : Bool
  start : Nat
  pc : Tack
deriving DecidableEq, Repr

/-- Whether a weight half holds a completed MLOAD of the slot, and with what (R246). -/
structure HalfMeta where
  loaded : Bool
  poisoned : Bool
  fmt : BitVec 4
deriving DecidableEq, Repr

/-- A manger command with the descriptor copied at acceptance (R240) and the mode captured (R193). -/
structure MCmd where
  op : Nat
  sel : BitVec 4
  desc : Vector W64 8
  modeF : Bool
  /-- FMTSEL: destination and ledger address -/
  d : SReg
  ledger : Nat
deriving DecidableEq, Repr

/-- What one manger of a running command has produced. -/
structure MgrRun where
  busy : Bool
  ovf : Nat
  unf : Nat
  escOver : Bool
  poisoned : Bool
  /-- drain: rows read, saturations, escapes, histogram, largest exponent, invalid condition -/
  sat : Nat
  esc : Nat
  hist : List Nat
  emax : Int
  invalid : Bool
  /-- drain: the ranges its rows write, by partition-relative address -/
  out : List (Nat × List Byte)
  code : Code
deriving DecidableEq, Repr

/-- A manger command that has started and not ended. -/
structure MRun where
  cmd : MCmd
  /-- passes of the series that have ended; a pass is in flight -/
  passes : Nat
  inPass : Bool
  /-- the pass in flight: the beat slots it takes, those its feeder still has to issue, the yard cycle modulo 8 in
  which the first of these falls, and the invalid beats so far (R251, R252) -/
  slots : Nat
  left : Nat
  phase : Nat
  bubbles : Nat
  mgr : Vector MgrRun 4
deriving DecidableEq, Repr

/-- A directory entry of a stash as the barrow holds it (R288). -/
structure StashEntry where
  state : BitVec 2
  elig : Bool
  tag : W32
  seq : W32
  bytes : Nat
  slot : Nat
deriving DecidableEq, Repr

/-- An open stash of a slot (R287, R288). -/
structure Stash where
  dirBase : Nat
  slotBytes : Nat
  loftSlots : Nat
  loftBase : Nat
  lp6Base : Nat
  lp6Slots : Nat
  seq : W32
  spills : W32
  drops : W32
  entries : List StashEntry
deriving DecidableEq, Repr

/-- A copy that a stash operation makes when it completes, between DPAs. -/
structure Move where
  src : Nat
  dst : Nat
  bytes : Nat
deriving DecidableEq, Repr

/-- A barrow descriptor of a stall, from issue to its notice (R316 to R325). -/
structure BarrowJob where
  slot : Slot
  put : Bool
  desc : Vector W64 8
  stash : Bool
  /-- stash operations: the moves, and the status when none failed -/
  moves : List Move
  stashCode : Code
  /-- what CLOSE writes back: SEQ, SPILLS, DROPS -/
  close : Option (W32 × W32 × W32)
  accepted : Bool
  booked : Bool
  accept : Frame
  promise : Frame
  yard : Yard
  /-- charge not yet served per channel of the target yard, in units of 1/(2n) B with n channels in service
  (R318, R320) -/
  rem : List (Chan × Nat)
  /-- the descriptor has posted LATE, with the last frame in which it ends (R322) -/
  late : Option Frame
  /-- a park or unpark move of gate firmware posts no notice -/
  firmware : Bool
deriving DecidableEq, Repr

/-- The program-visible registers and the queues of one context slot (R94 to R96, R141, R242, R288). -/
structure SlotCtx where
  running : Bool
  pc : Tack
  s : Vector W64 32
  k : Vector (BitVec 512) 8
  /-- the control registers that hold a value of their own, by number -/
  cr : Vector W64 96
  hold : Option Hold
  /-- ERET found RESUME set: the instruction at EXC_PC continues from this element (R170) -/
  resumeAt : Option Nat
  /-- an FYIELD retired in this frame, and the slot was switched in at some time of it (R80, R119) -/
  yielded : Bool
  ran : Bool
  vq : List VecEntry
  mq : List MCmd
  mrun : List MRun
  rings : Vector (List W64) 4
  lost : BitVec 4
  half : Vector (Vector HalfMeta 2) 4
  stash : Option Stash
deriving DecidableEq, Repr

/-- A message in a mailbox slot (R112 to R114). -/
structure Message where
  data : List Byte
  notice : Bool
  frame : W32
  src : BitVec 9
  /-- the sender's slot and channel, to which the credit returns -/
  slot : Slot
  chan : BitVec 4
  /-- the stored words hold an uncorrectable error -/
  bad : Bool
deriving DecidableEq, Repr

/-- An inbound mailbox of 64 slots (R108). -/
structure Mailbox where
  notice : Bool
  free : Nat
  granted : Nat
  inflight : Nat
  msgs : List Message
deriving DecidableEq, Repr

/-- One manger (R209, R228, R264): accumulator words, view and poison bits, weight halves. -/
structure Manger where
  /-- wide group w, lane j: entries 4w to 4w + 3 in ascending 32-bit fields, or wide entry w -/
  acc : Vector (Vector (BitVec 128) 66) 32
  view : BitVec 32
  poison : BitVec 128
  /-- half h, lane j: 64 B of elements, scales and side lists -/
  half : Vector (Vector (BitVec 512) 66) 2
  /-- scale counts since the manger's previous drain (R279) -/
  ovf : Nat
  unf : Nat
  /-- entries of the accumulator file that hold an uncorrectable or a correctable error (R263, R555) -/
  accBad : List Nat
  accCe : List Nat
deriving DecidableEq, Repr

/-- The state of the vector datapath's power gate (R144, R145). -/
inductive GateState where
  | awake
  | gated
  | waking
deriving DecidableEq, Repr

/-- One stall (R88 to R132). -/
structure Stall where
  slot : Slot
  primary : SlotCtx
  paddock : SlotCtx
  mbx : Vector Mailbox 8
  v : Vector (BitVec 4096) 32
  /-- vector registers whose stored parity is wrong, with the quarter (R174) -/
  vBad : List (VReg × Fin 4)
  mgr : Vector Manger 4
  gate : GateState
  haltReason : W64
  /-- both slots' barrow descriptors, oldest first -/
  barrow : List BarrowJob
  receipts : Vector W64 64
  /-- the slot to which a scheduled switch goes, and the frame at whose boundary it begins (R86) -/
  switchTo : Option (Slot × Frame)
  switching : Option Slot
  /-- frames run in the paddock slot since the switch (R418) -/
  fillAge : Nat
  /-- CYIELD's switch request (R126) -/
  switchReq : Bool
  /-- while the paddock slot ran, it halted or a notice reached a NOTICE mailbox of the primary slot (R418) -/
  recalled : Bool
  /-- consecutive frames overrun (R83) -/
  overruns : Nat
  /-- STALL_LIMIT consecutive overruns have been reached (R83) -/
  watchdogDue : Bool
deriving DecidableEq, Repr

/-- A mailbox message between SEND and its arrival (R21, R111). -/
structure Transit where
  dst : StallId
  mbx : Fin 8
  msg : Message
deriving DecidableEq, Repr

/-- Why credits travel (R110, R113, R116, R118). -/
inductive CreditKind where
  | grant
  | ret
  | close
deriving DecidableEq, Repr

/-- Credits in transit: they count in GRANTED of the mailbox until they arrive. -/
structure CreditTransit where
  kind : CreditKind
  owner : StallId
  mbx : Fin 8
  stall : StallId
  slot : Slot
  chan : BitVec 4
  count : Nat
  /-- SLOT_RECLAIM disabled the channel while they travelled (R552) -/
  reclaimed : Bool
deriving DecidableEq, Repr

/-- The state of an LP6 channel (R329, MC_STAT). -/
inductive ChanState where
  | absent
  | training
  | inService
  | offline
  | mappedOut
deriving DecidableEq, Repr

/-- One memory controller (R313 to R315, R326, R329). -/
structure MemCtl where
  state : ChanState
  level : Nat
  /-- the level that takes effect at the next boundary, and whether that boundary has come (R314) -/
  next : Option Nat
  due : Bool
  rate : BitVec 2
  serviceIdx : BitVec 8
  mapoutPend : Bool
  code : BitVec 8
  temp : BitVec 8
  /-- frames since the reading -/
  age : Nat
  ueW : Nat
  /-- frames of the current UE_WINDOW -/
  winAge : Nat
  /-- bank refreshes since the last reset: the rotation of R311 -/
  refreshes : Nat
deriving DecidableEq, Repr

/-- The order of service of a memory controller (R310): the direction of its batch, writes or reads, none before its first
burst; the bursts that the batch has served; and those of the other direction that wait. -/
structure Batch where
  write : Option Bool
  run : Nat
  waits : Nat
deriving DecidableEq, Repr

/-- The states of a torus port (R368, PORT_STAT). -/
inductive PortState where
  | down
  | training
  | negotiating
  | identifying
  | up
  | slow
  | absent
  | faulty
  | hostile
deriving DecidableEq, Repr

/-- The lanes of one direction of a port (R333, LANE_MAP). -/
structure LaneMap where
  active : BitVec 17
  spare : Option (Fin 17)
  degraded : Bool
deriving DecidableEq, Repr

/-- A lane swap in progress in one direction (R365). -/
structure Swap where
  lane : Fin 17
  spare : Fin 17
  /-- 0 until the transmitter has named it -/
  frame : Frame
  /-- LANE_DOWN started it (R366): the lane is out of the round-robin already -/
  lost : Bool
deriving DecidableEq, Repr

/-- A sequenced flit kept until it is acknowledged (R348, R350). -/
structure Unacked where
  flit : Flit
  first : Frame
  naked : Bool
  /-- the NAK came before the current replay slot began -/
  due : Bool
  replayed : Bool
deriving DecidableEq, Repr

/-- A flit waiting to be sent; a control flit of a team may be booked from frame p on (R399). -/
structure Waiting where
  ftype : BitVec 4
  tag : BitVec 20
  payload : List Byte
  booked : Bool
deriving DecidableEq, Repr

/-- A DATA flit in its receive buffer: it waits there for the replays of earlier flits of its leg, whose SEQ values gaps
names (R382). -/
structure HeldFlit where
  seq : Seq
  gaps : List Seq
  vc : BitVec 3
  tag : BitVec 20
  payload : List Byte
deriving DecidableEq, Repr

/-- Phase 3 of a bring-up (R359, R360). -/
structure Identity where
  required : Bool
  nonce : BitVec 256
  /-- parts 0 to 71 of the partner's answer received so far -/
  parts : List (Nat × List Byte)
  /-- the allow-list in force when the last part arrived names the partner's key (R532) -/
  listed : Bool
deriving DecidableEq, Repr

/-- One torus port (R330 to R374): what the PORT page shows beside its settings. -/
structure Port where
  state : PortState
  result : Code
  fenceCode : Code
  fenceDetail : BitVec 8
  rateFb : Bool
  width : BitVec 5
  retrained : Bool
  version : BitVec 16
  features : W32
  partner : Option Hello
  helloSent : Bool
  /-- round trips less turnaround of the echo exchanges, in ps (R358) -/
  echoes : List Nat
  echoId : W32
  rtt : Nat
  identity : Option Identity
  /-- PORT_CTL as the last BRINGUP took it (R374) -/
  ctl : W32
  tx : LaneMap
  rx : LaneMap
  swapTx : Option Swap
  swapRx : Option Swap
  /-- where the round-robin over the active lanes goes on (R334) -/
  lane : Nat
  /-- corrected symbols and uncorrectable codewords of receive lanes by frame, over the last 1,024 frames (R364) -/
  fec : List (Frame × Fin 17 × Nat × Nat)
  /-- credits the transmitter holds, and what the partner advertised, per VC (R345) -/
  held : Vector Nat 6
  adv : Vector Nat 6
  /-- buffers advertised to the partner, and those freed whose returns are not yet sent, per VC: the drover and
  the link controller take a flit out of its buffer as soon as it is accepted -/
  own : Vector Nat 6
  owed : Vector Nat 6
  /-- what the bring-up under way will advertise (R344, R374) -/
  nextOwn : Vector Nat 6
  /-- buffers granted to the partner and free (R345, R548) -/
  granted : Vector Nat 6
  nextSeq : Seq
  expect : Seq
  /-- SEQ values reported lost and still missing (R349) -/
  missing : List Seq
  /-- the last SEQ accepted or reported lost, sent as ACK, and the last ACK received -/
  ack : Seq
  acked : Seq
  /-- DATA flits that arrived behind a gap (R382) -/
  rxHeld : List HeldFlit
  unacked : List Unacked
  /-- flits waiting per VC, oldest first -/
  queue : Vector (List Waiting) 6
  /-- flits sent per VC and booked flits sent per VC in this frame, and the round's counts (R341) -/
  sent0 : Nat
  bookedSent : Vector Nat 6
  round : Vector Nat 6
  replaysSent : Nat
  /-- flit slots left in this frame: what its active lanes have not yet carried (R332, R334) -/
  room : Nat
  /-- booked payload flits sent in this frame, by team slot (R399) -/
  teamSent : List (Nat × Nat)
  /-- the replay slot of this frame has begun (R350) -/
  replayOpen : Bool
  /-- a valid VC0 flit arrived in this frame (R371) -/
  heard : Bool
  /-- no valid VC0 flit arrived in the frame that ended last (R371) -/
  quiet : Bool
  /-- a flit of VC0 went out in this frame (R352) -/
  spoke : Bool
  /-- replays per frame of the last 1,024 frames (R368) -/
  replayLog : List (Frame × Nat)
  /-- boundaries since the port left UP or SLOW, until the reclaim of R372 -/
  left : Option Nat
  /-- a FAULTY condition met, entered at the next boundary (R368) -/
  faultDue : Option (BitVec 8)
deriving DecidableEq, Repr

/-- The states of a team slot (R412, TEAM_INFO). -/
inductive TeamState where
  | free
  | pending
  | active
  | severed
  | broken
deriving DecidableEq, Repr

/-- The phases of a team (R412, TEAM_INFO). -/
inductive TeamPhase where
  | idle
  | collect
  | handshake
  | payload
  | completing
deriving DecidableEq, Repr

/-- A SUBMIT in a drover queue (R388), with the sequence number of R391 and the reserved notices. -/
structure DroveJob where
  stall : StallId
  slot : Slot
  desc : Vector W64 8
  seq : W32
  reserved : Nat
deriving DecidableEq, Repr

/-- Bytes of a source as a drover has read them: the ranges of them that hold no data, as offset and length, and whether a
word failed or a channel was offline (R403, R405). -/
structure SourceRead where
  bytes : List Byte
  bad : List (Nat × Nat)
  ecc : Bool
  offline : Bool
deriving DecidableEq, Repr

/-- The operation that a team runs on this device (R393 to R401). -/
structure TeamOp where
  job : DroveJob
  /-- copies at local acceptance (R388) -/
  counts : List Nat
  perm : List Nat
  signature : W64
  /-- none: joined; otherwise the member's refusal -/
  refused : Option Code
  decided : Frame
  aborted : Bool
  /-- the COLLECT flit waits for this member's decision, or has been forwarded -/
  started : Bool
  accept : Option Frame
  promise : Frame
  go : Bool
  /-- bytes of the own source sent, and of the own destination landed -/
  sentBytes : Nat
  gotBytes : Nat
  poisoned : Bool
  /-- chunk slots of the siding reserved for this operation -/
  chunks : Nat
  posted : Nat
  /-- the first bytes of the own source, read with the shard's EPOCH (R295, R399) -/
  first : Option SourceRead
  /-- META received or read: layer, shard, epoch (R399) -/
  metaIn : Option (BitVec 12 × BitVec 16 × W32)
  receiptDone : Bool
  k : Nat
  worst : Code
  /-- at the starter: the COLLECT flit of the operation as it came back (R394) -/
  returned : Option CollectFlit
  /-- a COMPLETE flit waits here for this member -/
  held : Option CompleteFlit
  completeSent : Bool
  committed : Bool
  /-- at the starter: its VERDICT has come back around the ring -/
  verdictBack : Bool
  /-- at the starter: its VERDICT of failure or its COMMIT has come back around the ring -/
  back : Bool
  /-- LP6 charge left per channel in units of 1/n B, for source and destination ranges (R397, R402) -/
  rem : List (Chan × Nat)
deriving DecidableEq, Repr

/-- The host command that waits for an engine's result: its queue and CID. -/
abbrev Asker := QueueId × BitVec 16

/-- A CREATE that waits for frame ACT: the record's DPA, the host command that asked, and whether this CREATE has made
the slot PENDING (R377). -/
structure TeamCreate where
  dpa : Nat
  act : Frame
  who : Option Asker
  holds : Bool
deriving DecidableEq, Repr

/-- One team slot of a drover (R375 to R379, R391). -/
structure Team where
  state : TeamState
  record : Vector W64 8
  act : Frame
  /-- DESTROYs not yet applied: the frame, and the host command that asked (R379) -/
  destroys : List (Frame × Option Asker)
  /-- the frame in which the last operation ended, or ACT (R379, R393) -/
  since : Frame
  turn : List Nat
  nextSeq : W32
  sendSeq : List (Nat × W32)
  phase : TeamPhase
  op : Option TeamOp
  /-- COLLECT flits that wait for this member to decide on their operation, the oldest first -/
  collect : List CollectFlit
  /-- operations that this device passes on without taking part: their COLLECT has gone by, and not yet the flit that ends
  them (R381, R394) -/
  through : Nat
  /-- CREATEs not yet applied, in the order of TEAM_CMD (R377) -/
  creates : List TeamCreate
  /-- a TEAM_ABORT of the team has no answer yet (R407) -/
  abortPending : Bool
deriving DecidableEq, Repr

/-- A siding of a context slot (R389, R390). -/
structure Siding where
  base : Nat
  depth : Nat
  chunk : Nat
  /-- occupied and reserved slots; next slot to land and next to release -/
  occupied : Nat
  reserved : Nat
  landNext : Nat
  freeNext : Nat
  /-- reserved notice slots for coming chunks, and their mailbox -/
  notices : Nat
  mbx : Fin 8
deriving DecidableEq, Repr

/-- One drover (R375 to R412). -/
structure Drover where
  teams : Vector Team 64
  jobs : List DroveJob
  result : Code
  abortRes : Code
  /-- what the free flit buffers and the free receive buffers of its ports hold: zeros, or what is there since an epoch (R558) -/
  buffers : Option Nat
deriving DecidableEq, Repr

/-- A template slot of a Forge (R430 to R432): what the load keeps. -/
structure Template where
  dpa : Nat
  version : W32
  n : Nat
  m : Nat
  nnzP : Nat
  nnzA : Nat
  delta : W64
  nsrc : Nat
  nterms : Nat
  dense : Bool
  /-- DPAs of the target table and the term table -/
  tgt : Nat
  term : Nat
  /-- one above the largest ELEM that the terms read, per source -/
  elems : List Nat
  /-- column pointers and row indices of the upper triangle of P, and of A -/
  pCol : List Nat
  pRow : List Nat
  aCol : List Nat
  aRow : List Nat
  iter : Nat
  setup : Nat
  back : Nat
  work : Nat
  ret : Nat
  lp6 : Nat
  fprint : W64
deriving DecidableEq, Repr

/-- Where a problem of a request stands. -/
inductive ProblemPhase where
  | ready
  | running (hearth : Fin 4)
  | ended
deriving DecidableEq, Repr

/-- One problem of a Forge request. -/
structure Problem where
  phase : ProblemPhase
  /-- assembled values in target-table order (R429), nothing before assembly; of a backward request g (R444) -/
  vals : List W64
  /-- the starting point of a warm start (R443) -/
  warm : Option ForgePoint
  warmRej : Bool
  code : Code
  /-- hearth cycles spent up to the last boundary, or in all; and what the frame under way adds while it runs -/
  cycles : Nat
  perFrame : Nat
  /-- the last iterate, kept for the commit point when the request retains it (R447) -/
  result : Option ForgePoint
  /-- FBACK: the handle does not retain the problem -/
  skipped : Bool
deriving DecidableEq, Repr

/-- An accepted Forge request (R433 to R449). -/
structure ForgeReq where
  stall : StallId
  slot : Slot
  back : Bool
  desc : Vector W64 8
  /-- the source table, or the gradient table, copied at acceptance -/
  table : List (Vector W64 4)
  accept : Frame
  deadline : Frame
  booked : Bool
  /-- the template slot and the retention entry used -/
  tslot : Fin 16
  entry : Option (Fin 64)
  problems : List Problem
deriving DecidableEq, Repr

/-- A retention entry of a Forge (R447). -/
structure Retention where
  used : Bool
  gen : Nat
  committed : Bool
  tslot : Fin 16
  retDpa : Nat
  /-- the frame whose ending boundary frees the entry -/
  lastFrame : Frame
  nprob : Nat
  /-- per problem, the final iterate, which gives the factor, x*, y* and D, and the assembled values (R444, R447) -/
  data : List (Option (ForgePoint × List W64))
  /-- RELEASE, or expiry, waits for the FBACKs outstanding on the entry (R447, R450) -/
  releaseDue : Bool
  expired : Bool
deriving DecidableEq, Repr

/-- A template load in progress (R430): slot, DPA, the host command that asked for it, and the frame in which it began. -/
structure TplLoad where
  slot : Fin 16
  dpa : Nat
  who : Option Asker
  start : Frame
deriving DecidableEq, Repr

/-- One Forge (R424 to R451). -/
structure Forge where
  tpl : Vector (Option Template) 16
  /-- template loads in progress, oldest first -/
  loading : List TplLoad
  reqs : List ForgeReq
  ret : Vector Retention 64
  tplResult : Code
  abortRes : Code
  /-- what the 8 MiB of work memory hold where no problem runs: zeros, or what is there since an epoch (R558) -/
  work : Option Nat
deriving DecidableEq, Repr

/-- What an outstanding host command waits for (R479 to R482). -/
inductive HostWait where
  /-- TEAM_CREATE waits for gate firmware's earlier transaction to end (R512), in order of waiting -/
  | fwTxn (order : Nat)
  | dma (engine : Fin 4)
  | loadDma (engine : Fin 4)
  | teamAt (dr : Yard) (slot : Fin 64)
  | template (forge : Yard) (slot : Fin 16)
  | signing
  /-- an ABORT whose queue was disabled before it acted (R485) -/
  | abort
deriving DecidableEq, Repr

/-- A started host command whose completion is not yet decided (R477). -/
structure HostCmd where
  cid : BitVec 16
  op : BitVec 8
  words : List W64
  wait : HostWait
deriving DecidableEq, Repr

/-- A completion not yet written, for want of a free entry (R478). -/
structure Completion where
  cid : BitVec 16
  code : Code
  result : W64
deriving DecidableEq, Repr

/-- One host queue (R475 to R483); HQ_CTL and the ring bases stand in the register file. -/
structure HostQueue where
  en : Bool
  err : Bool
  code : Code
  draining : Bool
  sqTail : Nat
  sqHead : Nat
  cqHead : Nat
  cqTail : Nat
  phase : Bool
  /-- entries written and not consumed -/
  full : Nat
  /-- commands submitted and not taken, from SQ_HEAD on, and the ring positions of those that an ABORT has ended (R475,
  R481) -/
  sqCount : Nat
  skipped : List Nat
  started : List HostCmd
  held : List Completion
deriving DecidableEq, Repr

/-- The PCIe configuration space of the host function (R456, R457): what its fixed fields leave open. No command of the
table writes it (log 100). -/
structure PcieConfig where
  /-- command register: memory space [1], bus master [2] -/
  command : BitVec 16
  /-- base addresses of BAR0-BAR1 and BAR2-BAR3 -/
  bar0 : BitVec 64
  bar2 : BitVec 64
  /-- D3hot, or D0 -/
  d3hot : Bool
  /-- MSI-X message control: enable [15], function mask [14] -/
  msixCtl : BitVec 16
  /-- device control: payload size [7:5], read request size [14:12] -/
  devCtl : BitVec 16
  /-- the Advanced Error Reporting register of uncorrectable errors -/
  uncorrected : W32
deriving DecidableEq, Repr

/-- The states of the device (R459). -/
inductive DevState where
  | off
  | romWait
  | verify
  | fwInit
  | ready
  | safe
  | bist
deriving DecidableEq, Repr

/-- The gatehouse's start-up state (R459 to R474, R501). -/
structure Boot where
  state : DevState
  window : Bool
  warmResets : Nat
  result : Code
  safeCause : Code
  /-- time left of the ROM_WAIT timer in units of 0.1 ns (R466) -/
  timer : Nat
  zhiVer : BitVec 16
  fwMin : BitVec 16
  fwMax : BitVec 16
  trained : Nat
  /-- host link: the two modules and the rate code (R454, HP_STAT) -/
  m0 : ModuleState
  m1 : ModuleState
  rate : BitVec 4
  fwVersion : W32
  svn : BitVec 8
  keySlot : BitVec 2
  fwRunning : Bool
  diag : Bool
  halted : Bool
  readyFrame : Frame
  allow : List (BitVec 256)
  fillLimit : BitVec 8
  memSplit : Nat
  memCapacity : Nat
  /-- FV_LAST [31:16]: status of the last fuse update -/
  fuseResult : Code
  /-- host DMA bytes moved beyond the whole units of DMA_UNITS (R501) -/
  dmaRem : Nat
deriving DecidableEq, Repr

/-- A message queued for signing by the root of trust (R527). -/
inductive SignJob where
  | link (p : PortId) (nonce : BitVec 256)
  | report (q : QueueId) (cid : BitVec 16)
deriving DecidableEq, Repr

/-- The root of trust (R526 to R535). -/
structure Trust where
  /-- the latches read from the array (R517) -/
  latch : BitVec 8192
  /-- units found uncorrectable at the last read -/
  badUnits : List Nat
  /-- the repair entries MGR_REP and LOFT_REP as read at power-good (R471, R519) -/
  repair : List W32
  idkValid : Bool
  idkPub : BitVec 256
  mr : Vector (BitVec 256) 8
  nonce : Option (BitVec 256)
  rights : BitVec 3
  tokenActive : Bool
  scanCleared : Bool
  verifying : Option DebugToken
  jobs : List SignJob
  /-- the report bytes captured when its signing began (R531) -/
  capture : Option (List Byte)
deriving DecidableEq, Repr

/-- The states of a transaction bank (R513). -/
inductive TxnState where
  | idle
  | opened
  | pending
  | applied
  | failed
  | rolledBack
  | timedOut
deriving DecidableEq, Repr

/-- A requester's transaction bank (R502 to R513). -/
structure TxnBank where
  state : TxnState
  id : BitVec 16
  count : Nat
  code : Code
  cmdRes : Code
  target : Frame
  opened : Frame
  timeout : Nat
  /-- the order of the COMMIT write (R507) -/
  order : Nat
  failPage : W32
  failOff : W32
  endFrame : Frame
  /-- register-BAR offsets of the enrolled pages -/
  pages : List Nat
  /-- written shadows by register-BAR offset -/
  shadow : List (Nat × W32)
deriving DecidableEq, Repr

/-- A tally's counts (R547): C, A, U, F. -/
structure Counts where
  c : Int
  a : Int
  u : Int
  f : Int
deriving DecidableEq, Repr

/-- The TALLY page, the fault log and data injection (R544 to R557). -/
structure TallyUnit where
  audits : Nat
  auditFrame : Frame
  viol : Option (W32 × Counts)
  ovrUsed : Bool
  skip0 : Bool
  skip1 : Bool
  adjust : Bool
  /-- the boundary at which ADJUST applies has come -/
  adjDue : Bool
  /-- adjustments applied by TALLY_ADJ, per tally -/
  adj : List (W32 × Counts)
  /-- counts as of step 1 of the boundary in progress, by kind and index (R549) -/
  counted : List ((Nat × Nat) × Counts)
  /-- tallies whose sticky bit is set: a count left the range 0 to C since the last audit (R549) -/
  sticky : List W32
  /-- the tallies of the work that SAFE has stopped, as they stood then (R547, R557) -/
  stopped : List ((Nat × Nat) × Counts)
  /-- counts as of the last audit (R498) -/
  snap : List (W32 × Counts)
  reclaimed : Vector Nat 5
  slotRes : Code
  /-- records: slot 0 and the ring, as 64 B values -/
  firstSafe : Option (BitVec 512)
  ring : List (BitVec 512)
  logCount : Nat
  armed : Bool
  /-- the write to the armed target has been made and carries the error (R555) -/
  hit : Bool
  fired : Bool
deriving DecidableEq, Repr

/-- A self-test run (R558 to R571). -/
structure BistRun where
  origin : DevState
  algo : BitVec 2
  sram : Bool
  lp6 : Bool
  maxUnits : Nat
  units : W32
  chans : W64
  pause : Nat
  /-- units still to be tested, in ascending bit order -/
  todo : List Nat
  round : Nat
  /-- the frame before which the next round may not begin -/
  ready : Frame
  /-- 1 until the LP6 phase begins, 3 in it -/
  phase : Nat
  failed : Bool
  /-- faulty words found so far: memory, manger, instance and word (R567) -/
  seen : List (Nat × Nat × Nat × Nat)
deriving DecidableEq, Repr

/-- The BIST page (R572). -/
structure BistUnit where
  run : Option BistRun
  result : Code
  abortRes : Code
  found : Nat
  log : List (Vector W32 4)
  phase : Nat
  origin : BitVec 3
  startFrame : W32
deriving DecidableEq, Repr

/-- The power and thermal controller's state of one yard (R575 to R580, R595). -/
structure YardPower where
  level : Nat
  /-- feed duty in force, and the one that takes effect at the next group of 8 cycles (R252) -/
  duty : Nat
  dutyNext : Nat
  mhz : Nat
  vset : Nat
  /-- the setpoint from which the rail comes while its window of limits is open, else VSET (R575) -/
  vold : Nat
  /-- a raise of the voltage waits for the regulator, with the clock it allows (R577) -/
  raise : Option (Nat × Nat)
  /-- AVS_TIMEOUT: retry at the next boundary -/
  retry : Bool
  /-- the regulator has reported, so the clock has risen and a fall may take effect -/
  raised : Bool
  /-- a setpoint change is in progress (R595) -/
  busy : Bool
  therm : Nat
  power : Nat
  cause : BitVec 2
  /-- power of the last 16 frames, newest first -/
  hist : List Nat
  sinceRise : Nat
  below : Nat
  sinceChange : Nat
  hot : Int
  hotIdx : Nat
deriving DecidableEq, Repr

/-- The device side of the power and thermal controller (R579 to R585, R594). -/
structure PowerUnit where
  prochot : Bool
  thermtrip : Bool
  temps : List Int
  sample : List Nat
  rails : List (Nat × Nat)
  /-- an alert of the sideband is raised, and the bus that it goes out on (R585) -/
  alert : Bool
  bus : SidebandMode
deriving DecidableEq, Repr

/-- The test port (R533 to R535, R588). -/
structure TestPort where
  ir : BitVec 8
  code : Code
  driving : Bool
  scan : Bool
  /-- TZ_TRST_N is low and holds the TAP in Test-Logic-Reset (R588) -/
  trst : Bool
deriving DecidableEq, Repr

/-- What the block last answered to a reader outside it, and what left it last. -/
structure Outputs where
  /-- register read, and the second word of one of 8 bytes -/
  read : W32
  readHigh : W32
  /-- memory-BAR read; empty with Unsupported Request -/
  data : List Byte
  unsupported : Bool
  /-- the code with which the access failed, 0 where it did not: MEM_CHANNEL_OFFLINE, or MEM_ECC_UNCORRECTED with
  poisoned data (R36, R540) -/
  failed : Code
  /-- the last flit that each port sent, its 256 bytes (R335), and the lanes that carried it (R334) -/
  wire : Vector (Option Flit) 8
  wireBytes : Vector (List Byte) 8
  wireLanes : Vector (BitVec 17) 8
  /-- markers sent at the last boundary -/
  markers : List (PortId × TickMarker)
  /-- sideband block read; the last write was not acknowledged -/
  block : List Byte
  nack : Bool
  /-- MSI-X messages sent per vector -/
  msix : Vector Nat 64
  /-- the test port's data register -/
  tdo : List Byte
deriving DecidableEq, Repr

/-- Everything of the block but the waiting commands and the fuse array. -/
structure Device where
  ctr : Counters
  tick : TickUnit
  /-- step 3 of a boundary waits for the Forge requests whose deadline has passed and the retention entries that end, and
  step 6 for the transactions of the frame (R85, R447, R510) -/
  atStep3 : Bool
  atStep6 : Bool
  env : BoundaryInput
  boot : Boot
  trust : Trust
  banks : Vector TxnBank 2
  commits : Nat
  /-- register words that differ from their reset values, by register-BAR offset, ascending -/
  regs : List (Nat × W32)
  tally : TallyUnit
  bist : BistUnit
  yards : Vector YardPower 2
  pwr : PowerUnit
  tap : TestPort
  stalls : Vector Stall 384
  msgs : List Transit
  credits : List CreditTransit
  mc : Vector MemCtl 64
  batches : Vector Batch 64
  ports : Vector Port 8
  drovers : Vector Drover 2
  /-- sidings by stall, slot and index: those opened -/
  sidings : List ((StallId × Slot × Fin 8) × Siding)
  forges : Vector Forge 2
  queues : Vector HostQueue 16
  pcie : PcieConfig
  msixTable : Vector (BitVec 128) 64
  pba : W64
  /-- LP6 memory and lofts by DPA, what an unlisted byte reads as, and its faulty words and bursts -/
  mem : List Host.Cell
  epoch : Nat
  /-- what the untouched memories of a shed, and of a channel, hold: zeros after a self-test (R566), or what was there
  since the given epoch -/
  shedFill : Vector (Option Nat) 24
  chanFill : Vector (Option Nat) 64
  bad : List Nat
  ce : List Nat
  /-- format ledgers that drains, FMTSELs and gathers have used, by DPA (R277, R297) -/
  ledgers : List Nat
  /-- tack stores by stall × 65,536 + address, and words whose parity is wrong -/
  tack : List Host.Cell
  tackBad : List Nat
  sram : List Host.Cell
  host : List Host.Cell
  hostBad : List Nat
  /-- fresh free values drawn so far -/
  free : Nat
  out : Outputs
deriving DecidableEq, Repr

/-- The one-time-programmable fuse array (R515). -/
abbrev FuseArray := BitVec 8192

/-- The state of the block. -/
structure State where
  pending : List Instr
  array : FuseArray
  dev : Device
deriving DecidableEq, Repr

namespace Reset

/-- Control registers at reset (R95, R137, R284): VL 64, VIDLE 0x0800, FMTSEL_THR. -/
def control : Vector W64 96 :=
  (((Vector.replicate 96 (0 : W64)).set 0x0E 0x2143A4).set 0x0F 3 |>.set 0x10 64).set 0x17 0x0800

def halfMeta : HalfMeta := { loaded := false, poisoned := false, fmt := 0 }

def slotCtx : SlotCtx :=
  { running := false, pc := 0, s := Vector.replicate 32 0, k := Vector.replicate 8 0, cr := control
    hold := none, resumeAt := none, yielded := false, ran := false, vq := [], mq := [], mrun := []
    rings := Vector.replicate 4 [], lost := 0
    half := Vector.replicate 4 (Vector.replicate 2 halfMeta), stash := none }

/-- MSG mode with 64 free slots (R108). -/
def mailbox : Mailbox := { notice := false, free := 64, granted := 0, inflight := 0, msgs := [] }

def manger : Manger :=
  { acc := Vector.replicate 32 (Vector.replicate 66 0), view := 0, poison := 0
    half := Vector.replicate 2 (Vector.replicate 66 0), ovf := 0, unf := 0, accBad := [], accCe := [] }

def stall : Stall :=
  { slot := .primary, primary := slotCtx, paddock := slotCtx, mbx := Vector.replicate 8 mailbox
    v := Vector.replicate 32 0, vBad := [], mgr := Vector.replicate 4 manger, gate := .awake
    haltReason := 0, barrow := [], receipts := Vector.replicate 64 0, switchTo := none
    switching := none, fillAge := 0, switchReq := false, recalled := false, overruns := 0, watchdogDue := false }

/-- MC_STAT and MC_TEMP at reset (R329): ABSENT, not trained, no reading. -/
def memCtl : MemCtl :=
  { state := .absent, level := 0, next := none, due := false, rate := 3, serviceIdx := 0xFF, mapoutPend := false
    code := 0, temp := 0, age := 16320, ueW := 0, winAge := 0, refreshes := 0 }

def laneMap : LaneMap := { active := 0, spare := none, degraded := false }

/-- Receive buffers at the reset values of CRED_ADV (R344, R374). -/
def buffers : Vector Nat 6 := #v[64, 800, 800, 800, 800, 832]

/-- DOWN, with no link (R353, R374). -/
def port : Port :=
  { state := .down, result := 0, fenceCode := 0, fenceDetail := 0, rateFb := false, width := 0
    retrained := false, version := 0, features := 0, partner := none, helloSent := false, echoes := []
    echoId := 0, rtt := 0, identity := none, ctl := 0, tx := laneMap, rx := laneMap, swapTx := none, swapRx := none
    lane := 0, fec := []
    held := Vector.replicate 6 0, adv := Vector.replicate 6 0, own := buffers, nextOwn := buffers
    owed := Vector.replicate 6 0, granted := Vector.replicate 6 0
    nextSeq := 0, expect := 0, missing := []
    ack := 0xFFF, acked := 0xFFF, rxHeld := [], unacked := [], queue := Vector.replicate 6 [], sent0 := 0, room := 0, teamSent := []
    bookedSent := Vector.replicate 6 0, round := Vector.replicate 6 0, replaysSent := 0, replayOpen := false, heard := false, quiet := false
    spoke := false, replayLog := [], left := none, faultDue := none }

/-- A FREE team slot (R377). -/
def team : Team :=
  { state := .free, record := Vector.replicate 8 0, act := 0, destroys := [], since := 0
    turn := List.replicate 16 0, nextSeq := 0, sendSeq := [], phase := .idle, op := none, collect := [], through := 0
    creates := [], abortPending := false }

def drover : Drover :=
  { teams := Vector.replicate 64 team, jobs := [], result := 0, abortRes := 0, buffers := some 0 }

def retention : Retention :=
  { used := false, gen := 0, committed := false, tslot := 0, retDpa := 0, lastFrame := 0, nprob := 0
    data := [], releaseDue := false, expired := false }

def forge : Forge :=
  { tpl := Vector.replicate 16 none, loading := [], reqs := [], ret := Vector.replicate 64 retention
    tplResult := 0, abortRes := 0, work := some 0 }

def queue : HostQueue :=
  { en := false, err := false, code := 0, draining := false, sqTail := 0, sqHead := 0, cqHead := 0
    cqTail := 0, phase := true, full := 0, sqCount := 0, skipped := [], started := [], held := [] }

/-- As PCI Express resets it: nothing enabled, 128 B payloads, 512 B reads (log 100). -/
def pcie : PcieConfig :=
  { command := 0, bar0 := 0, bar2 := 0, d3hot := false, msixCtl := 0x003F, devCtl := 0x2010, uncorrected := 0 }

def tick : TickUnit :=
  { state := .free, origin := .free, flag := false, hopDepth := 0, refLost := false, result := 0
    phaseErr := 0, correction := 0, holdoverFrames := 0, last := none, lastAge := 0
    errRun := 0, validRun := 0, acquireAge := 0, stepReq := false, stepDue := false, inStep := false, stepLen := 0, lastLen := 0
    loadReq := false, loadDue := false, stepSent := false, markersHeld := false, ignored := 0 }

/-- All counters run from 0 at power-good (R46, R49). -/
def counters : Counters :=
  { frame := 0, uptime := 0, phase := 0, frameLatch := Vector.replicate 2 0, uptimeLatch := Vector.replicate 2 0
    kickAge := 0 }

def moduleDown : ModuleState := { up := false, half := false }

/-- ROM_WAIT with the boot window open and the timer at 60 s (R460, R466). -/
def boot : Boot :=
  { state := .romWait, window := true, warmResets := 0, result := 0, safeCause := 0
    timer := 600000000000, zhiVer := 0, fwMin := 0, fwMax := 0, trained := 0
    m0 := moduleDown, m1 := moduleDown, rate := 0, fwVersion := 0, svn := 0, keySlot := 0
    fwRunning := false, diag := false, halted := false, readyFrame := 0
    allow := [], fillLimit := 32, memSplit := 0, memCapacity := 0, fuseResult := 0, dmaRem := 0 }

/-- The latches of an unblown array: no key slot, no identity key (R517, R529, R530). -/
def trust : Trust :=
  { latch := 0, badUnits := [], repair := [], idkValid := false, idkPub := 0
    mr := (Vector.replicate 8 0).set 0 Config.romDigest, nonce := none, rights := 0
    tokenActive := false, scanCleared := false, verifying := none, jobs := [], capture := none }

def bank : TxnBank :=
  { state := .idle, id := 0, count := 0, code := 0, cmdRes := 0, target := 0, opened := 0, timeout := 0
    order := 0, failPage := 0, failOff := 0, endFrame := 0, pages := [], shadow := [] }

def tally : TallyUnit :=
  { audits := 0, auditFrame := 0, viol := none, ovrUsed := false, skip0 := false, skip1 := false
    adjust := false, adjDue := false, adj := [], counted := [], sticky := [], stopped := [], snap := [], reclaimed := Vector.replicate 5 0, slotRes := 0
    firstSafe := none, ring := [], logCount := 0, armed := false, hit := false, fired := false }

def bist : BistUnit :=
  { run := none, result := 0, abortRes := 0, found := 0, log := [], phase := 0, origin := 0
    startFrame := 0 }

/-- Level 0, duty 8, 1,400 MHz, 720 mV (R594, R595). -/
def yard : YardPower :=
  { level := 0, duty := 8, dutyNext := 8, mhz := 1400, vset := 720, vold := 720, raise := none, retry := false
    raised := false, busy := false, therm := 0, power := 0, cause := 0, hist := [], sinceRise := 16
    below := 0, sinceChange := 16, hot := 0, hotIdx := 0 }

def power : PowerUnit :=
  { prochot := false, thermtrip := false, temps := List.replicate 34 0, sample := List.replicate 4 0
    rails := List.replicate 7 (0, 0), alert := false, bus := .smbus }

def tap : TestPort := { ir := 0x02, code := 0, driving := false, scan := false, trst := false }

def outputs : Outputs :=
  { read := 0, readHigh := 0, data := [], unsupported := false, failed := 0, wire := Vector.replicate 8 none
    wireBytes := Vector.replicate 8 [], wireLanes := Vector.replicate 8 0, markers := []
    block := [], nack := false, msix := Vector.replicate 64 0, tdo := [] }

def env : BoundaryInput :=
  { temps := List.replicate 34 0, power := List.replicate 4 0
    rails := List.replicate 7 (0, 0), upsets := [] }

def device : Device :=
  { ctr := counters, tick := tick, atStep3 := false, atStep6 := false, env := env, boot := boot, trust := trust
    banks := Vector.replicate 2 bank, commits := 0, regs := [], tally := tally, bist := bist
    yards := Vector.replicate 2 yard, pwr := power, tap := tap, stalls := Vector.replicate 384 stall
    msgs := [], credits := [], mc := Vector.replicate 64 memCtl
    batches := Vector.replicate 64 { write := none, run := 0, waits := 0 }, ports := Vector.replicate 8 port
    drovers := Vector.replicate 2 drover, sidings := [], forges := Vector.replicate 2 forge
    queues := Vector.replicate 16 queue, pcie := pcie
    msixTable := Vector.replicate 64 (1 <<< 96), pba := 0, mem := [], epoch := 0
    shedFill := Vector.replicate 24 (some 0), chanFill := Vector.replicate 64 (some 0), bad := [], ce := [], ledgers := []
    tack := [], tackBad := [], sram := [], host := [], hostBad := [], free := 0
    out := outputs }

end Reset

/-- The block right after power-good: ROM_WAIT on an unblown fuse array, frame 0, nothing in memory and no
command waiting. -/
def State.reset : State := { pending := [], array := 0, dev := Reset.device }

end Sys2Proof.Machine
end

