-- ==== Sys2Proof/Machine/Ops.lean ====
section
/-! DEFINITION. The named operations over the device: the register file, status recording, events and MSI-X
messages, the fault log, and access to stalls, slots and the other numbered units. -/

namespace Sys2Proof.Machine

/-- A state whose device is changed by f; the queue and the fuse array stay. -/
def State.onDev (s : State) (f : Device → Device) : State := { s with dev := f s.dev }

namespace Device

/-- FRAME_NOW. -/
def now (d : Device) : Frame := d.ctr.frame

/-- b − a as R48 counts frames. -/
def since (b a : Frame) : Nat := (b - a).toNat

/-! ### The register file -/

/-- The register word at a register-BAR offset, as the register file holds it. -/
def reg (d : Device) (off : Nat) : W32 := (mapGet d.regs off).getD (regReset off)

def setReg (d : Device) (off : Nat) (v : W32) : Device :=
  { d with regs := mapWrite (regReset off) d.regs off v }

/-- The word of register o of page p. -/
def preg (d : Device) (p : Page) (o : Nat) : W32 := d.reg (p.reg o)

def setPreg (d : Device) (p : Page) (o : Nat) (v : W32) : Device := d.setReg (p.reg o) v

/-- A field of a register. -/
def pfield (d : Device) (p : Page) (o lo len : Nat) : Nat := field (d.preg p o) lo len

/-- An RC counter counts n; the manual does not say what it reads past its width. -/
def bump (d : Device) (p : Page) (o n : Nat) : Device :=
  let t := (d.preg p o).toNat + n
  d.setPreg p o (if t < 2 ^ 32 then BitVec.ofNat 32 t else Config.counterOverflow t)

/-- A counter that the manual saturates counts n. -/
def bumpSat (d : Device) (p : Page) (o n : Nat) : Device :=
  d.setPreg p o (BitVec.ofNat 32 (min ((d.preg p o).toNat + n) 0xFFFF_FFFF))

/-! ### Messages, events and status codes -/

/-- MSI-X message of vector v: sent, or pending while the vector is masked (R458). -/
def msix (d : Device) (v : Fin 64) : Device :=
  if flag d.msixTable[v] 96 then { d with pba := setBit d.pba v }
  else { d with out := { d.out with msix := upd d.out.msix v (· + 1) } }

/-- Event bit i of page p (R497): the host is signalled when the bit becomes set while enabled. -/
def event (d : Device) (p : Page) (i : Nat) : Device :=
  if flag (d.preg p 0x028) i then d
  else
    let d := d.setPreg p 0x028 (setBit (d.preg p 0x028) i)
    if flag (d.preg p 0x02C) i then d.msix 0 else d

/-- ERR_STAT bits are recorded (R494 to R497); bit names the bit that ERR_FIRST shows. -/
def recordBits (d : Device) (p : Page) (bits : W32) (bit : Nat) (code : Code) (injected : Bool) : Device :=
  let old := d.preg p 0x018
  let fresh := bits &&& ~~~old &&& ~~~(d.preg p 0x01C)
  let d := d.setPreg p 0x018 (old ||| bits)
  let d :=
    if old = 0 then
      let first := 2 ^ 31 + bitAt injected 30 + bit * 2 ^ 16 + code.toNat
      ((d.setPreg p 0x020 (BitVec.ofNat 32 first)).setPreg p 0x040 (BitVec.ofNat 32 d.now.toNat)).setPreg p 0x044
        (BitVec.ofNat 32 (d.now.toNat / 2 ^ 32))
    else d
  if fresh = 0 then d else d.event p 0

/-- A page records a status code (R494): class 0 is never recorded. -/
def record (d : Device) (p : Page) (c : Code) : Device :=
  let n := Status.cls c
  if n = 0 || decide (15 < n) then d else d.recordBits p (BitVec.ofNat 32 (2 ^ n)) n c false

/-- ACCESS of ERR_STAT (R486, R487). -/
def access (d : Device) (p : Page) : Device := d.recordBits p 0x8000_0000 31 0 false

/-- TXN of ERR_STAT (R504). -/
def txnIgnored (d : Device) (p : Page) : Device := d.recordBits p 0x4000_0000 30 0 false

/-- The code is the cause of event i of the page. -/
def eventCode (d : Device) (p : Page) (i : Nat) (c : Code) : Device := (d.record p c).event p i

/-- A command has used the 64 B at a DPA as a format ledger (R277). -/
def useLedger (d : Device) (a : Nat) : Device := { d with ledgers := setInsert d.ledgers a }

/-! ### The fault log (R544) -/

/-- A fault-log record of 64 B, as words 0 to 5. -/
def logWord (d : Device) (kind domain : Nat) (c : Code) (p : Page) (tally : Nat) (count : Nat) (cnt : Counts)
    (addr : Nat) : BitVec 512 :=
  let w0 := kind * 2 ^ 56 + domain * 2 ^ 48 + d.now.toNat
  let w1 := d.ctr.uptime.toNat
  let w2 := c.toNat * 2 ^ 48 + p.kind.code * 2 ^ 32 + p.num * 2 ^ 16
    + (if kind = 2 ∨ kind = 3 then tally % 2 ^ 16 else 0)
  let w3 := (count % 2 ^ 32) * 2 ^ 32 + (if kind = 2 ∨ kind = 3 then tally else 0)
  let w4 := natOfInt 16 cnt.c * 2 ^ 48 + natOfInt 16 cnt.a * 2 ^ 32 + natOfInt 16 cnt.u * 2 ^ 16 + natOfInt 16 cnt.f
  BitVec.ofNat 512 (w0 + w1 * 2 ^ 64 + w2 * 2 ^ 128 + w3 * 2 ^ 192 + w4 * 2 ^ 256 + addr * 2 ^ 320)

def noCounts : Counts := { c := 0, a := 0, u := 0, f := 0 }

/-- A record goes to the ring of slots 1 to 1,022, in order of writing. -/
def logRing (d : Device) (r : BitVec 512) : Device :=
  let n := d.tally.logCount - b2n d.tally.firstSafe.isSome
  let ring := if d.tally.ring.length < 1022 then d.tally.ring ++ [r] else d.tally.ring.set (n % 1022) r
  { d with tally := { d.tally with ring := ring, logCount := d.tally.logCount + 1 } }

/-- A SAFE cause is logged: the first in slot 0, which is never overwritten, and later ones in the ring. -/
def logSafe (d : Device) (domain : Nat) (c : Code) (p : Page) : Device :=
  let r := d.logWord 1 domain c p 0 0 noCounts 0
  if d.tally.firstSafe.isSome then d.logRing r
  else { d with tally := { d.tally with firstSafe := some r, logCount := d.tally.logCount + 1 } }

/-- Tokens are reclaimed (R551): counted under the cause, one log record, the TALLY page's event. -/
def reclaim (d : Device) (cause : Fin 5) (c : Code) (p : Page) (tally n : Nat) : Device :=
  if n = 0 then d
  else
    let d := { d with tally := { d.tally with reclaimed := upd d.tally.reclaimed cause (· + n) } }
    (d.logRing (d.logWord 3 p.domain c p tally n noCounts 0)).eventCode Page.tally 2 c

/-! ### Stalls and their slots -/

def stall (d : Device) (st : StallId) : Stall := d.stalls[st]

def modStall (d : Device) (st : StallId) (f : Stall → Stall) : Device := { d with stalls := upd d.stalls st f }

end Device

def otherSlot : Slot → Slot
  | .primary => .paddock
  | .paddock => .primary

namespace Stall

/-- The registers of a slot. -/
def ctx (s : Stall) : Slot → SlotCtx
  | .primary => s.primary
  | .paddock => s.paddock

def setCtx (s : Stall) (sl : Slot) (c : SlotCtx) : Stall :=
  match sl with
  | .primary => { s with primary := c }
  | .paddock => { s with paddock := c }

def modCtx (s : Stall) (sl : Slot) (f : SlotCtx → SlotCtx) : Stall := s.setCtx sl (f (s.ctx sl))

/-- The context of the slot that the groom runs. -/
def cur (s : Stall) : SlotCtx := s.ctx s.slot

/-- The groom runs a program: its slot is not halted and no switch is under way. -/
def active (s : Stall) : Bool := s.cur.running && s.switching.isNone

end Stall

namespace Device

def ctx (d : Device) (st : StallId) (sl : Slot) : SlotCtx := (d.stall st).ctx sl

def modCtx (d : Device) (st : StallId) (sl : Slot) (f : SlotCtx → SlotCtx) : Device :=
  d.modStall st fun s => s.modCtx sl f

/-- CTX_CTL of a stall (R121). -/
def ctxCtl (d : Device) (st : StallId) : W32 := d.preg (Page.stall st) 0xF00

def paddockEn (d : Device) (st : StallId) : Bool := flag (d.ctxCtl st) 31

/-- The slot that a mailbox belongs to (R121). -/
def mbxOwner (d : Device) (st : StallId) (m : Fin 8) : Slot :=
  if d.paddockEn st && flag (d.ctxCtl st) (8 + m) then .paddock else .primary

/-- First absolute loft byte and length of a slot's addressable partition (R122). -/
def partBase (d : Device) (st : StallId) : Slot → Nat
  | .primary => 0
  | .paddock => if d.paddockEn st then field (d.ctxCtl st) 0 6 * 65536 else 0

def loftLimit (d : Device) (st : StallId) (sl : Slot) : Nat :=
  if d.paddockEn st then
    match sl with
    | .primary => field (d.ctxCtl st) 0 6 * 65536 - 49152
    | .paddock => (48 - field (d.ctxCtl st) 0 6) * 65536 - 49152
  else
    match sl with
    | .primary => 3145728
    | .paddock => 0

def modMbx (d : Device) (st : StallId) (m : Fin 8) (f : Mailbox → Mailbox) : Device :=
  d.modStall st fun s => { s with mbx := upd s.mbx m f }

def modMgr (d : Device) (st : StallId) (m : Fin 4) (f : Manger → Manger) : Device :=
  d.modStall st fun s => { s with mgr := upd s.mgr m f }

def modMc (d : Device) (c : Chan) (f : MemCtl → MemCtl) : Device := { d with mc := upd d.mc c f }

def modPort (d : Device) (p : PortId) (f : Port → Port) : Device := { d with ports := upd d.ports p f }

def modDrover (d : Device) (y : Yard) (f : Drover → Drover) : Device := { d with drovers := upd d.drovers y f }

def modTeam (d : Device) (y : Yard) (t : Fin 64) (f : Team → Team) : Device :=
  d.modDrover y fun v => { v with teams := upd v.teams t f }

def modForge (d : Device) (y : Yard) (f : Forge → Forge) : Device := { d with forges := upd d.forges y f }

def modQueue (d : Device) (q : QueueId) (f : HostQueue → HostQueue) : Device :=
  { d with queues := upd d.queues q f }

def modYard (d : Device) (y : Yard) (f : YardPower → YardPower) : Device := { d with yards := upd d.yards y f }

def modBank (d : Device) (w : Fin 2) (f : TxnBank → TxnBank) : Device := { d with banks := upd d.banks w f }

/-- The yard of a stall (R6). -/
def yardOf (st : StallId) : Yard := if st.val < 192 then 0 else 1

/-- The stall-in-shed of a stall (R5). -/
def inShed (st : StallId) : Nat := st.val % 16

/-- READY or BIST: gate firmware serves the device (R474). -/
def serving (d : Device) : Bool := d.boot.state = .ready || d.boot.state = .bist

/-- Any state but OFF. -/
def powered (d : Device) : Bool := d.boot.state ≠ .off

/-- The pages of TXC, and those with RWT registers, are served outside OFF, ROM_WAIT and VERIFY (R460). -/
def served (d : Device) : Bool := d.powered && d.boot.state ≠ .romWait && d.boot.state ≠ .verify

/-- A boundary is between its steps: it waits at step 3 or step 6 (R85). -/
def inBoundary (d : Device) : Bool := d.atStep3 || d.atStep6

/-- The next fresh free value index. -/
def drawFree (d : Device) : Nat × Device := (d.free, { d with free := d.free + 1 })

/-- Control register n of a slot, as stored. -/
def cr (d : Device) (st : StallId) (sl : Slot) (n : Nat) : W64 := vget (d.ctx st sl).cr n 0

end Device

namespace SlotCtx

/-- A scalar register: s0 reads 0 (R94). -/
def getS (c : SlotCtx) (r : SReg) : W64 := if r = 0 then 0 else c.s[r]

/-- Writing s0 has no effect (R94). -/
def setS (c : SlotCtx) (r : SReg) (v : W64) : SlotCtx := if r = 0 then c else { c with s := c.s.set r v }

def getCr (c : SlotCtx) (n : Nat) : W64 := vget c.cr n 0

def setCr (c : SlotCtx) (n : Nat) (v : W64) : SlotCtx := { c with cr := vset c.cr n v }

/-- The pc moves past n words (R98: modulo 64 KiB). -/
def skip (c : SlotCtx) (n : Nat) : SlotCtx := { c with pc := c.pc + BitVec.ofNat 16 (4 * n) }

end SlotCtx

end Sys2Proof.Machine

namespace Sys2Proof

/-- The number of a requester's bank and latch. -/
def Requester.idx : Requester → Fin 2
  | .host => 0
  | .firmware => 1

end Sys2Proof
end

