-- ==== Sys2Proof/Machine/Operands.lean ====
section
/-! DEFINITION. Operand forms of the Coeri instructions: immediates of both widths (R100, R101), branch
targets, and the registers of the running slot. -/

namespace Sys2Proof

/-- The immediate, sign-extended to 64 bits (R100). -/
def Imm.sext : Imm → W64
  | .short v => v.signExtend 64
  | .long v => v.signExtend 64

/-- The immediate, zero-extended, as ANDI, ORI, XORI and LIH take it (R100). -/
def Imm.zext : Imm → W64
  | .short v => v.setWidth 64
  | .long v => v.setWidth 64

/-- Instruction words of an I-format instruction. -/
def Imm.words : Imm → Nat
  | .short _ => 1
  | .long _ => 2

end Sys2Proof

namespace Sys2Proof.Machine

/-- A tack address plus an offset counted in instructions (R98, R100). -/
def targetOf {w : Nat} (pc : Tack) (off : BitVec w) : Tack := pc + 4 * off.signExtend 16

namespace Device

/-- The running slot of a stall. -/
def slotOf (d : Device) (st : StallId) : Slot := (d.stall st).slot

/-- The registers of the running slot. -/
def cur (d : Device) (st : StallId) : SlotCtx := (d.stall st).cur

def modCur (d : Device) (st : StallId) (f : SlotCtx → SlotCtx) : Device :=
  d.modStall st fun s => s.modCtx s.slot f

/-- A scalar register of the running slot. -/
def sreg (d : Device) (st : StallId) (r : SReg) : W64 := (d.cur st).getS r

def setSreg (d : Device) (st : StallId) (r : SReg) (v : W64) : Device := d.modCur st fun c => c.setS r v

end Device

end Sys2Proof.Machine
end

