-- ==== Sys2Proof/Machine/Flags.lean ====
section
/-! DEFINITION. Flag computations: the sticky floating-point flags of FP_CTL (R93) and of VFLAGS (R153), and
the results that compares write. -/

namespace Sys2Proof.Machine

/-- FP_CTL with flags added; they are never cleared by an operation (R93). -/
def SlotCtx.addFlags (c : SlotCtx) (fl : FFlags) : SlotCtx := c.setCr 0x0C (c.getCr 0x0C ||| fl.setWidth 64)

/-- INV_TRAP (R93). -/
def SlotCtx.invTrap (c : SlotCtx) : Bool := flag (c.getCr 0x0C) 8

/-- VFLAGS.FPF with flags added (R153). -/
def SlotCtx.addVectorFlags (c : SlotCtx) (fl : FFlags) : SlotCtx :=
  c.setCr 0x16 (c.getCr 0x16 ||| (fl.setWidth 64 <<< 8))

/-- What a compare writes to a scalar register. -/
def truth (b : Bool) : W64 := if b then 1 else 0

/-- Mode F of ARITH_CTL (R189). -/
def SlotCtx.modeF (c : SlotCtx) : Bool := flag (c.getCr 0x0D) 0

end Sys2Proof.Machine
end

