-- ==== Sys2Proof/Machine/Mem.lean ====
section
/-! DEFINITION. The device address map (R32 to R37), the interleave (R309), and reads and writes of lofts and
LP6 memory with their error correction, poison, error counters and data injection (R299 to R301, R305, R307,
R326, R555); tack stores, gatehouse SRAM and host memory. -/

namespace Sys2Proof.Machine

/-- What one protected unit, a loft word of 8 B or an LP6 burst of 64 B, answers to an access. -/
inductive MemRes where
  | ok
  | ecc
  | offline
deriving DecidableEq, Repr

/-- First DPA of the loft apertures, and their end (R32). -/
def loftBase : Nat := 0x8000_0000_0000

/-- The DPA of a byte of a stall's loft, by absolute loft offset (R33). -/
def loftDpa (st : StallId) (off : Nat) : Nat := loftBase + st.val * 0x40_0000 + off

/-- The stall whose aperture holds a DPA at or above the apertures. -/
def loftStall (a : Nat) : StallId := Fin.ofNat 384 ((a - loftBase) / 0x40_0000)

/-- Bytes of the protected unit at a DPA. -/
def unitSize (a : Nat) : Nat := if a < loftBase then 64 else 8

/-- First byte of the protected unit that holds a. -/
def unitOf (a : Nat) : Nat := a / unitSize a * unitSize a

/-- First bytes of the units that n bytes from a touch, ascending. -/
def unitsOf (a n : Nat) : List Nat :=
  if n = 0 then []
  else (List.range ((a + n - 1) / unitSize a - a / unitSize a + 1)).map fun i => unitOf a + i * unitSize a

/-- A burst comes to a controller, which may turn round before it serves it (R310): a batch ends when bursts of the other
direction wait and its own queue is empty, at the latest after 160 bursts, and with a burst of its own to serve not before 16.
Whether its queue has run empty follows the controller's own times, which the manual does not fix. The answer tells whether
it has turned round. -/
def Batch.take (b : Batch) (write turn : Bool) : Batch × Bool :=
  match b.write with
  | none => ({ write := some write, run := 1, waits := 0 }, false)
  | some w =>
    let own := write = w
    let waits := if own then b.waits else b.waits + 1
    let ends := if own then decide (160 ≤ b.run) || turn && decide (16 ≤ b.run) else decide (160 ≤ b.run) || turn
    if waits ≠ 0 && ends then ({ write := some !w, run := waits, waits := b2n own }, true)
    else ({ write := some w, run := b.run + b2n own, waits := waits }, false)

namespace Device

/-- n bytes from a lie in LP6 memory (R32). -/
def inLp6 (d : Device) (a n : Nat) : Bool := decide (a + n ≤ d.boot.memCapacity)

/-- n bytes from a lie in one loft (R33). -/
def inLoft (a n : Nat) : Bool :=
  decide (loftBase ≤ a) && decide (a < loftBase + 0x6000_0000) && decide ((a - loftBase) % 0x40_0000 + n ≤ 0x30_0000)

/-- No byte of the range is unmapped for a device-side requester (R32, R35). -/
def mapped (d : Device) (a n : Nat) : Bool := d.inLp6 a n || inLoft a n

/-- The yard whose LP6 memory holds a DPA below MEM_CAPACITY. -/
def yardAt (d : Device) (a : Nat) : Yard := if a < d.boot.memSplit then 0 else 1

/-- Channels of a yard in service, ascending; one offline for heat alone stays in service (R309, R315). -/
def channels (d : Device) (y : Yard) : List Chan :=
  (finList 64).filter fun c => c.val / 32 = y.val && d.mc[c].serviceIdx != 0xFF

/-- The channel and the byte within it at LP6 address a (R309). -/
def place (d : Device) (a : Nat) : Chan × Nat :=
  let y := d.yardAt a
  let list := d.channels y
  let o := if y = 0 then a else a - d.boot.memSplit
  let n := max 1 list.length
  let blk := o / 2048
  let row := blk / n
  ((list[(blk + row) % n]?).getD 0, row * 2048 + o % 2048)

def chanOf (d : Device) (a : Nat) : Chan := (d.place a).1

/-! ### Bytes -/

/-- What a byte of a fill reads as: 0, or what stands there since an epoch. -/
def fillByte (f : Option Nat) (a : Nat) : Byte :=
  match f with
  | none => 0
  | some e => Config.unwritten e a

/-- The fill that a DPA lies in. -/
def fillAt (d : Device) (a : Nat) : Option Nat :=
  if a < loftBase then (if a < d.boot.memCapacity then d.chanFill[d.chanOf a] else some d.epoch)
  else vget d.shedFill ((loftStall a).val / 16) (some d.epoch)

/-- What an unlisted byte of memory reads as. -/
def blank (d : Device) (a : Nat) : Byte := fillByte (d.fillAt a) a

/-- The stored byte at a DPA. -/
def rdByte (d : Device) (a : Nat) : Byte := (mapGet d.mem a).getD (d.blank a)

def wrByte (d : Device) (a : Nat) (b : Byte) : Device :=
  { d with mem := mapWrite (d.blank a) d.mem a b }

def rdBytes (d : Device) (a n : Nat) : List Byte := (List.range n).map fun i => d.rdByte (a + i)

def wrBytes (d : Device) (a : Nat) : List Byte → Device
  | [] => d
  | b :: bs => (d.wrByte a b).wrBytes (a + 1) bs

/-! ### Error counters -/

def shedOff (st : StallId) (o : Nat) : Nat := o + 16 * inShed st

/-- MAPOUT_PEND becomes set (R326). -/
def setMapout (d : Device) (c : Chan) : Device :=
  if d.mc[c].mapoutPend then d
  else (d.modMc c fun m => { m with mapoutPend := true }).event (Page.memctl c) 3

/-- An uncorrectable burst is met (R307, R326, R329). A commit that lowers UE_LIMIT to UE_COUNT_W or below sets nothing by
itself: R326 does not say when the two are compared, and it is here, at the next failed burst (DEDUCED, log 103). -/
def burstFailed (d : Device) (a : Nat) : Device :=
  let c := d.chanOf a
  let p := Page.memctl c
  let d := d.bump p 0x114 1
  let d := d.setPreg p 0x118 (BitVec.ofNat 32 (unitOf a))
  let d := d.setPreg p 0x11C (BitVec.ofNat 32 (unitOf a / 2 ^ 32))
  let d := d.modMc c fun m => { m with ueW := m.ueW + 1 }
  let d := d.eventCode p 2 Status.memEccUncorrected
  let lim := d.pfield p 0x100 16 16
  if lim ≠ 0 ∧ lim ≤ d.mc[c].ueW then d.setMapout c else d

/-- An uncorrectable loft word is met (R299, R300). -/
def wordFailed (d : Device) (a : Nat) : Device :=
  let st := loftStall a
  (d.bump (Page.shedOf st) (shedOff st 0x10C) 1).record (Page.shedOf st) Status.memEccUncorrected

/-- A burst is served: the counters of R329. A controller opens at most the burst's own row before it (R310); whether it does
follows its own order of service, which the manual does not fix. -/
def burstServed (d : Device) (c : Chan) (write booked : Bool) : Device :=
  let (k, d) := d.drawFree
  let r := d.batches[c].take write (Config.turnRound k)
  let d := { d with batches := d.batches.set c r.1 }
  let p := Page.memctl c
  let d := d.bump p (if write then 0x124 else 0x120) 1
  let d := if booked then d.bump p 0x130 1 else d
  (d.bump p 0x128 (b2n r.2)).bump p 0x12C (b2n (Config.activation k))

/-! ### Units -/

/-- The symbol of a burst's Reed–Solomon code that holds a beat of a pin (R305). -/
def symbolOf (pin beat : Fin 24) : Fin 72 := Fin.ofNat 72 (24 * (beat.val / 8) + pin.val)

/-- A controller corrects a burst whose errors lie in some symbols: in at most 3 of them (R305). -/
def correctable (errs : List (Fin 72)) : Bool := decide (errs.eraseDups.length ≤ 3)

/-- The symbols in which an injected error of a burst lies: one bit, or a fourth symbol beyond what the code corrects
(R305, R555). -/
def injectedErrors (k : Nat) (ue : Bool) : List (Fin 72) :=
  let s := symbolOf (Config.injectedBit k).1 (Config.injectedBit k).2
  if ue then [s, s + 1, s + 2, s + 3] else [s]

/-- A read of one unit: its errors are corrected, counted and reported (R299, R305). -/
def readUnit (d : Device) (u : Nat) (booked : Bool) : Device × MemRes :=
  if u < loftBase then
    let c := d.chanOf u
    if d.mc[c].state = .offline then (d, .offline)
    else
      let d := d.burstServed c false booked
      if u ∈ d.bad then (d.burstFailed u, .ecc)
      else if u ∈ d.ce then (d.bump (Page.memctl c) 0x110 1, .ok)
      else (d, .ok)
  else if u ∈ d.bad then (d.wordFailed u, .ecc)
  else if u ∈ d.ce then
    let st := loftStall u
    ({ d with ce := setErase d.ce u }.bump (Page.shedOf st) (shedOff st 0x108) 1, .ok)
  else (d, .ok)

/-- An armed injection meets the write of its target (R555): the unit carries the error. -/
def inject (d : Device) (u : Nat) : Device :=
  let ctl := d.preg Page.tally 0x13C
  let target := field ctl 0 4
  let addr := (d.preg Page.tally 0x140).toNat + (d.preg Page.tally 0x144).toNat * 2 ^ 32
  if d.tally.armed && !d.tally.hit && target = (if u < loftBase then 1 else 0) && unitOf addr = u then
    let (k, d) := ({ d with tally := { d.tally with hit := true } } : Device).drawFree
    let ce := if u < loftBase then correctable (injectedErrors k (flag ctl 4)) else !flag ctl 4
    if ce then { d with ce := setInsert d.ce u } else { d with bad := setInsert d.bad u }
  else d

/-- A write of bytes at a within one unit: a whole unit clears its errors; a part is merged by an
indivisible read-modify-write, which writes nothing where the unit does not read (R300, R307). R329 does not say whether the
controller's own read of a partial write counts in RD_BURSTS, nor a partial write that is refused in WR_BURSTS: the write
alone counts, refused or not (DEDUCED, log 103). -/
def writeUnit (d : Device) (a : Nat) (bs : List Byte) (booked : Bool) : Device × MemRes :=
  let u := unitOf a
  let whole := bs.length = unitSize a
  let lp6 := decide (u < loftBase)
  let c := d.chanOf u
  if lp6 && d.mc[c].state = .offline then (d, .offline)
  else
    let d := if lp6 then d.burstServed c true booked else d
    if whole then
      let d := { d with bad := setErase d.bad u, ce := setErase d.ce u }
      ((d.wrBytes a bs).inject u, .ok)
    else if u ∈ d.bad then (if lp6 then d.burstFailed u else d.wordFailed u, .ecc)
    else
      let d :=
        if u ∈ d.ce then
          let d := { d with ce := setErase d.ce u }
          if lp6 then d.bump (Page.memctl c) 0x110 1
          else d.bump (Page.shedOf (loftStall u)) (shedOff (loftStall u) 0x108) 1
        else d
      ((d.wrBytes a bs).inject u, .ok)

/-- A unit is stored with a check pattern that every later read reports (R301, R323). -/
def poisonUnit (d : Device) (u : Nat) : Device :=
  { d with bad := setInsert (setErase d.bad u) u, ce := setErase d.ce u }

/-- The level that a channel has from this boundary on. -/
def levelNow (d : Device) (c : Chan) : Nat := if d.mc[c].due then (d.mc[c].next).getD d.mc[c].level else d.mc[c].level

/-! ### Ranges -/

/-- A read of n bytes from a: the bytes, and the units that failed, ascending. -/
def readRange (d : Device) (a n : Nat) (booked : Bool) : Device × List Byte × List (Nat × MemRes) :=
  let r := (unitsOf a n).foldl (fun (x : Device × List (Nat × MemRes)) u =>
    let (d, res) := x.1.readUnit u booked
    (d, if res = .ok then x.2 else x.2 ++ [(u, res)])) (d, [])
  (r.1, d.rdBytes a n, r.2)

/-- The piece of a byte list written at a that falls into unit u. -/
def pieceOf (a : Nat) (bs : List Byte) (u : Nat) : Nat × List Byte :=
  let lo := max a u
  (lo, (bs.drop (lo - a)).take (u + unitSize u - lo))

/-- A write of bs at a: the units that were not written, ascending. -/
def writeRange (d : Device) (a : Nat) (bs : List Byte) (booked : Bool) : Device × List (Nat × MemRes) :=
  (unitsOf a bs.length).foldl (fun (x : Device × List (Nat × MemRes)) u =>
    let (lo, piece) := pieceOf a bs u
    let (d, res) := x.1.writeUnit lo piece booked
    (d, if res = .ok then x.2 else x.2 ++ [(u, res)])) (d, [])

/-- Loft data of a stall by absolute offset. -/
def readLoft (d : Device) (st : StallId) (off n : Nat) : Device × List Byte × List (Nat × MemRes) :=
  d.readRange (loftDpa st off) n false

def writeLoft (d : Device) (st : StallId) (off : Nat) (bs : List Byte) : Device × List (Nat × MemRes) :=
  d.writeRange (loftDpa st off) bs false

/-- A channel of the map is offline at level 3 (R36). -/
def anyOffline (d : Device) : Bool := (finList 64).any fun (c : Chan) => d.mc[c].state = .offline

/-- The code that failed units report: an offline channel before an uncorrectable unit (R323). -/
def failCode (l : List (Nat × MemRes)) : Option Code :=
  if l.any fun p => p.2 = .offline then some Status.memChannelOffline
  else if l.any fun p => p.2 = .ecc then some Status.memEccUncorrected
  else none

/-- Every byte of LP6 memory, lofts and accumulators takes an unknown value. -/
def forgetMemory (d : Device) : Device :=
  let e := some (d.epoch + 1)
  { d with
    mem := []
    epoch := d.epoch + 1
    shedFill := Vector.replicate 24 e
    chanFill := Vector.replicate 64 e
    bad := []
    ce := [] }

/-! ### Tack stores, gatehouse SRAM, host memory -/

/-- Tack bytes are kept by stall × 65,536 + address; what one reads as before it is written. -/
def tackKey (st : StallId) (a : Nat) : Nat := st.val * 65536 + a % 65536
def tackBlank (d : Device) (st : StallId) (a : Nat) : Byte :=
  fillByte (vget d.shedFill (st.val / 16) (some d.epoch)) (2 ^ 48 + tackKey st a)

def rdTackByte (d : Device) (st : StallId) (a : Nat) : Byte := (mapGet d.tack (tackKey st a)).getD (d.tackBlank st a)

def wrTackByte (d : Device) (st : StallId) (a : Nat) (b : Byte) : Device :=
  { d with tack := mapWrite (d.tackBlank st a) d.tack (tackKey st a) b }

/-- The instruction word at a tack address. -/
def tackWord (d : Device) (st : StallId) (a : Tack) : W32 :=
  BitVec.ofNat 32 (leNat ((List.range 4).map fun i => d.rdTackByte st (a.toNat / 4 * 4 + i)))

def rdSram (d : Device) (a n : Nat) : List Byte := (List.range n).map fun i => (mapGet d.sram (a + i)).getD 0

def wrSram (d : Device) (a : Nat) : List Byte → Device
  | [] => d
  | b :: bs => { d with sram := mapWrite 0 d.sram a b }.wrSram (a + 1) bs

def rdHost (d : Device) (a n : Nat) : List Byte := (List.range n).map fun i => (mapGet d.host (a + i)).getD 0

def wrHost (d : Device) (a : Nat) : List Byte → Device
  | [] => d
  | b :: bs => { d with host := mapWrite 0 d.host a b, hostBad := setErase d.hostBad (a / 4 * 4) }.wrHost (a + 1) bs

end Device

end Sys2Proof.Machine
end

