-- ==== Sys2Proof/Machine/Except.lean ====
section
/-! DEFINITION. The issue of an instruction on the running slot of a stall: retirement with the loops of R103,
exception entry (R128), the double exception and the other halts (R130). -/

namespace Sys2Proof.Machine

/-- A LOOP register: remaining count, first and last address of the body (R95, R103). -/
def loopCount (r : W64) : Nat := field r 32 32
def loopFirst (r : W64) : Tack := BitVec.ofNat 16 (field r 16 16)
def loopLast (r : W64) : Tack := BitVec.ofNat 16 (field r 0 16)

/-- pc lies in the body of an active loop. -/
def inBody (r : W64) (pc : Tack) : Bool :=
  loopCount r ≠ 0 && decide ((pc - loopFirst r).toNat ≤ (loopLast r - loopFirst r).toNat)

/-- A LOOP register with another count. -/
def withCount (r : W64) (n : Nat) : W64 := BitVec.ofNat 64 (n * 2 ^ 32 + field r 0 32)

namespace SlotCtx

/-- After the last instruction of a body, at the address at_: the loop of register n runs again, or ends. -/
def loopBack (c : SlotCtx) (n : Nat) (at_ : Tack) : SlotCtx × Bool :=
  let r := c.getCr n
  if loopCount r ≠ 0 ∧ loopLast r = at_ then
    let c := c.setCr n (withCount r (loopCount r - 1))
    if 1 < loopCount r then ({ c with pc := loopFirst r }, true) else (c, false)
  else (c, false)

/-- The next instruction in program order, after one of the given words: the inner loop, then the outer one,
takes its next turn (R103). -/
def advance (c : SlotCtx) (words : Nat) : SlotCtx :=
  let at_ := c.pc
  let c := { c.skip words with resumeAt := none }
  let (c, again) := c.loopBack 0x3D at_
  if again then c else (c.loopBack 0x3C at_).1

/-- A taken branch or jump: it ends each loop whose body it leaves, and every loop inside it (R103). -/
def jump (c : SlotCtx) (target : Tack) : SlotCtx :=
  let outer := inBody (c.getCr 0x3C) c.pc && !inBody (c.getCr 0x3C) target
  let inner := inBody (c.getCr 0x3D) c.pc && !inBody (c.getCr 0x3D) target
  let c := if outer then c.setCr 0x3C (withCount (c.getCr 0x3C) 0) else c
  let c := if outer || inner then c.setCr 0x3D (withCount (c.getCr 0x3D) 0) else c
  { c with pc := target, resumeAt := none }

/-- Exception entry (R128). -/
def enter (c : SlotCtx) (cause : Nat) (code : Code) (info : W64) : SlotCtx :=
  let c := c.setCr 0x06 (c.pc.setWidth 64)
  let c := c.setCr 0x07 (BitVec.ofNat 64 (code.toNat * 2 ^ 16 + cause))
  let c := c.setCr 0x08 info
  let c := c.setCr 0x01 (setBit (c.getCr 0x01) 0)
  { c with pc := BitVec.ofNat 16 (field (c.getCr 0x09) 0 16 + 32 * cause), resumeAt := none, hold := none }

end SlotCtx

namespace Device

/-- A slot halts: HALT_REASON and the HALT event record it (R95, R597), and a paddock slot that halts is left at the next
boundary (R418). The unit executes the instructions of the running slot (R141); the manual does not say what becomes of
those that still wait when the slot halts: they are discarded (DEDUCED, log 24). -/
def haltSlot (d : Device) (st : StallId) (sl : Slot) (kind cause : Nat) : Device :=
  let d := d.modStall st fun s =>
    { (s.modCtx sl fun c => { c with running := false, hold := none, vq := [] }) with
      recalled := s.recalled || (sl = .paddock && s.slot = .paddock)
      haltReason := BitVec.ofNat 64 (d.now.toNat * 2 ^ 16 + kind * 2 ^ 8 + cause) }
  d.event (Page.stall st) 1

/-- A scalar exception of the running slot: the handler is entered, or the slot halts where one is already
active (R128, R130). The code shows in EXC_CAUSE, which the STALL page mirrors, and is recorded there. -/
def raise (d : Device) (st : StallId) (cause : Nat) (code : Code) (info : W64) : Device :=
  if flag ((d.cur st).getCr 0x01) 0 then d.haltSlot st (d.slotOf st) 2 cause
  else (d.modCur st fun c => c.enter cause code info).record (Page.stall st) code

/-- ILLEGAL_INSTRUCTION with the first instruction word. -/
def illegal (d : Device) (st : StallId) (w : W32) : Device := d.raise st 1 0 (w.setWidth 64)

/-- LOFT_ADDRESS and LOFT_MISALIGNED with the effective address, LOFT_ECC with the word's address. -/
def loftAddress (d : Device) (st : StallId) (a : W64) : Device := d.raise st 3 Status.loftAddressFault a
def loftMisaligned (d : Device) (st : StallId) (a : W64) : Device := d.raise st 4 Status.loftMisaligned a
def loftEcc (d : Device) (st : StallId) (a : Nat) : Device :=
  d.raise st 5 Status.memEccUncorrected (BitVec.ofNat 64 (a % 2 ^ 22))

/-- MSG_FAULT with the channel or mailbox named. -/
def msgFault (d : Device) (st : StallId) (n : Nat) : Device := d.raise st 10 0 (BitVec.ofNat 64 n)

/-- An instruction of the running slot retires. -/
def retire (d : Device) (st : StallId) (words : Nat) : Device := d.modCur st fun c => c.advance words

/-- The groom of the stall issues instructions: its slot runs and holds none. -/
def ready (d : Device) (st : StallId) : Bool := (d.stall st).active && (d.cur st).hold.isNone

/-- The instruction words at the pc whose parity fails. -/
def tackFault (d : Device) (st : StallId) (words : Nat) : Option Tack :=
  ((List.range words).map fun i => (d.cur st).pc + BitVec.ofNat 16 (4 * i)).find? fun a =>
    d.tackBad.contains (st.val * 65536 + a.toNat / 4 * 4)

/-- The groom fetches and issues the instruction at its pc: nothing happens where it cannot issue, and a tack
parity error takes its exception (R130). -/
def issue (d : Device) (st : StallId) (words : Nat) (f : Device → Device) : Device :=
  if d.ready st then
    match d.tackFault st words with
    | some a => d.raise st 2 Status.tackParity (a.setWidth 64)
    | none => f d
  else d

end Device

end Sys2Proof.Machine
end

