-- ==== Sys2Proof/Machine/Control.lean ====
section
/-! DEFINITION. The control space of a stall: what each control register reads, which are writable, and what a
write does (R95, R96, R109, R117, R137 to R139). -/

namespace Sys2Proof.Machine

/-- A mailbox's counts as MBX_STAT shows them (R108). -/
def Mailbox.stat (m : Mailbox) : Nat :=
  m.inflight * 2 ^ 24 + (if m.notice then 0 else m.granted) * 2 ^ 16 + m.free * 2 ^ 8 + m.msgs.length

/-- The entries of an accumulator file that a slot owns, as first entry and count (R123). -/
def accShare (paddockEn : Bool) : Slot → Nat × Nat
  | .primary => if paddockEn then (0, 64) else (0, 128)
  | .paddock => if paddockEn then (64, 64) else (0, 0)

namespace Device

/-- MQ_STAT of a slot: LOST, POISON, QCOUNT, BUSY (R266 and the table of MQ_STAT). -/
def mqStat (d : Device) (st : StallId) (sl : Slot) : Nat :=
  let c := d.ctx st sl
  let (lo, n) := accShare (d.paddockEn st) sl
  let poison := (finList 4).map fun (m : Fin 4) =>
    bitAt (decide (((d.stall st).mgr[m].poison.toNat >>> lo) % 2 ^ n ≠ 0)) (16 + m)
  let busy := (finList 4).map fun (m : Fin 4) => bitAt (c.mrun.any fun r => r.mgr[m].busy) m
  c.lost.toNat * 2 ^ 24 + poison.sum + c.mq.length * 2 ^ 8 + busy.sum

/-- What control register n of a slot reads (R95, R96); reserved numbers read 0. -/
def crRead (d : Device) (st : StallId) (sl : Slot) (n : Nat) : W64 :=
  let c := d.ctx st sl
  let own (f : Fin 8 → Nat) : Nat := ((finList 8).map fun m => if d.mbxOwner st m = sl then f m else 0).sum
  if n = 0x00 then BitVec.ofNat 64 st
  else if n = 0x01 then BitVec.ofNat 64 (bitAt ((d.stall st).slot = .paddock) 1 + b2n (flag (c.getCr 0x01) 0))
  else if n = 0x02 then d.now.setWidth 64
  else if n = 0x03 then d.ctr.uptime
  else if n = 0x17 then
    BitVec.ofNat 64 (bitAt ((d.stall st).gate != .awake) 16 + field (c.getCr 0x17) 0 16)
  else if n = 0x18 then BitVec.ofNat 64 (d.mqStat st sl)
  else if n = 0x19 then
    let y := d.yards[yardOf st]
    BitVec.ofNat 64 (y.level * 2 ^ 4 + y.duty)
  else if 0x1A ≤ n ∧ n ≤ 0x1F then 0
  else if 0x30 ≤ n ∧ n ≤ 0x37 then
    let m : Fin 8 := Fin.ofNat 8 (n - 0x30)
    if d.mbxOwner st m = sl then BitVec.ofNat 64 ((d.stall st).mbx[m].stat) else 0
  else if n = 0x38 then BitVec.ofNat 64 (own fun m => bitAt (!(d.stall st).mbx[m].msgs.isEmpty) m)
  else if n = 0x39 then BitVec.ofNat 64 (own fun m => bitAt (d.stall st).mbx[m].notice m)
  else if n = 0x3A then BitVec.ofNat 64 (d.loftLimit st sl)
  else if n = 0x3B then (d.ctxCtl st).setWidth 64
  else if n = 0x3E then (d.stall st).haltReason
  else if 0x3F ≤ n then 0
  else c.getCr n

end Device

/-- The control registers that are reserved (R95). -/
def crReserved (n : Nat) : Bool := (decide (0x1A ≤ n) && decide (n ≤ 0x1F)) || decide (0x3F ≤ n)

/-- The control registers that CRW cannot name (R95). -/
def crReadOnly (n : Nat) : Bool :=
  n = 0x00 || n = 0x02 || n = 0x03 || n = 0x05 || n = 0x18 || n = 0x19 || (decide (0x30 ≤ n) && decide (n ≤ 0x38))
    || n = 0x3A || n = 0x3B || n = 0x3E

/-- Bits of a writable control register that are not reserved. -/
def crMask (n : Nat) : Nat :=
  if n = 0x01 then 1
  else if n = 0x04 then 1
  else if n = 0x06 then 0xFFFF
  else if n = 0x07 then 0xFFFF_00FF
  else if n = 0x09 then 0xFE00
  else if n = 0x0C then 0x11F
  else if n = 0x0D then 1
  else if n = 0x0E then 0xFF_FFFF
  else if n = 0x0F then 3
  else if n = 0x10 then 0x3FF
  else if n = 0x11 then 0xFFFF_FFFF_FFFF
  else if n = 0x12 then 0xFFFF_FFFF
  else if n = 0x14 then 0x1FF
  else if n = 0x15 then 0xFFFF_0301
  else if n = 0x16 then 0x1F07
  else if n = 0x17 then 0xFFFF
  else if 0x20 ≤ n ∧ n ≤ 0x2F then 0x8000_0FFF
  else if n = 0x39 then 0xFF
  else 0xFFFF_FFFF_FFFF_FFFF

/-- What a write stores in a control register that holds a value of its own; VL stores at most 512 (R137). -/
def crValue (n : Nat) (v : W64) : W64 :=
  let x := v &&& BitVec.ofNat 64 (crMask n)
  if n = 0x10 ∧ 512 < x.toNat then 512 else x

/-- The mailboxes of a slot whose mode a write of MBX_MODE would change. -/
def Device.modeChanges (d : Device) (st : StallId) (sl : Slot) (v : W64) : List (Fin 8) :=
  (finList 8).filter fun m => d.mbxOwner st m = sl && (d.stall st).mbx[m].notice != flag v m

/-- A write of control register n of a slot, once it may be written: the channel or mailbox that a message
fault names, or the new state (R96, R109, R117). -/
def Device.crWrite (d : Device) (st : StallId) (sl : Slot) (n : Nat) (v : W64) : Nat ⊕ Device :=
  if 0x20 ≤ n ∧ n ≤ 0x2F then
    if field ((d.ctx st sl).getCr n) 16 7 ≠ 0 ∨ 383 < field v 0 9 then .inl (n - 0x20)
    else .inr (d.modCtx st sl fun c => c.setCr n (crValue n v))
  else if n = 0x39 then
    match (d.modeChanges st sl v).find? fun m => (d.stall st).mbx[m].free ≠ 64 with
    | some m => .inl m
    | none =>
      .inr (d.modStall st fun s =>
        { s with mbx := Vector.ofFn fun m =>
            if d.mbxOwner st m = sl then { s.mbx[m] with notice := flag v m } else s.mbx[m] })
  else .inr (d.modCtx st sl fun c => c.setCr n (crValue n v))

/-- The registers that vector instructions write: a read waits for the slot's earlier vector instructions (R139), and so
does a write, as R91 interlocks on every register dependency. -/
def crWaits (n : Nat) : Bool := n = 0x10 || n = 0x13 || n = 0x14 || n = 0x15 || n = 0x16

/-- The bits of a CRR or CRW immediate above the register number are 0 (R95). -/
def crNumber : Imm → Option Nat
  | .short v => if v.toNat < 128 then some v.toNat else none
  | .long v => if v.toNat < 128 then some v.toNat else none

/-- CRR d, c: control register c to sd. -/
def execCrr (st : StallId) (d a : SReg) (imm : Imm) (s : State) : Host.Outcome State Fault Refusal :=
  .next (s.onDev fun dev => dev.issue st imm.words fun dev =>
    match crNumber imm with
    | none => dev.illegal st (Coeri.firstWord (.crr st d a imm))
    | some n =>
      if crReserved n then dev.illegal st (Coeri.firstWord (.crr st d a imm))
      else if crWaits n && !(dev.cur st).vq.isEmpty then dev
      else (dev.setSreg st d (dev.crRead st (dev.slotOf st) n)).retire st imm.words)

/-- CRW c, a: sa to control register c. -/
def execCrw (st : StallId) (d a : SReg) (imm : Imm) (s : State) : Host.Outcome State Fault Refusal :=
  .next (s.onDev fun dev => dev.issue st imm.words fun dev =>
    match crNumber imm with
    | none => dev.illegal st (Coeri.firstWord (.crw st d a imm))
    | some n =>
      if crReserved n || crReadOnly n then dev.illegal st (Coeri.firstWord (.crw st d a imm))
      else if crWaits n && !(dev.cur st).vq.isEmpty then dev
      else
        match dev.crWrite st (dev.slotOf st) n (dev.sreg st a) with
        | .inl m => dev.msgFault st m
        | .inr dev => dev.retire st imm.words)

end Sys2Proof.Machine
end

