-- ==== Sys2Proof/Machine/ScalarInt.lean ====
section
/-! DEFINITION. Scalar integer instructions (R91, R92, R94, R100, R101). Each computes one value from sa and
sb or an immediate and writes sd. -/

namespace Sys2Proof.Machine

/-- d := f a b, for a one-word instruction on the running slot. -/
def intBinary (st : StallId) (d a b : SReg) (f : W64 → W64 → W64) (s : State) : State :=
  s.onDev fun dev => dev.issue st 1 fun dev =>
    (dev.setSreg st d (f (dev.sreg st a) (dev.sreg st b))).retire st 1

/-- d := f a imm, for an I-format instruction of either length. -/
def intImm (st : StallId) (d a : SReg) (imm : Imm) (f : W64 → W64) (s : State) : State :=
  s.onDev fun dev => dev.issue st imm.words fun dev =>
    (dev.setSreg st d (f (dev.sreg st a))).retire st imm.words

/-- A shift by a register: counts of 64 and above have a result that the manual does not state. -/
def shiftBy (op : Nat) (f : W64 → Nat → W64) (x n : W64) : W64 :=
  if n.toNat < 64 then f x n.toNat else Config.wideShift op x n

/-- Signed quotient, rounded toward zero; by zero all ones, and −2⁶³ by −1 gives −2⁶³ (R92). -/
def divSigned (x y : W64) : W64 :=
  if y = 0 then BitVec.allOnes 64 else BitVec.ofInt 64 (Int.tdiv x.toInt y.toInt)

/-- Signed remainder: by zero the dividend, and that of −2⁶³ by −1 is 0 (R92). -/
def remSigned (x y : W64) : W64 := if y = 0 then x else BitVec.ofInt 64 (Int.tmod x.toInt y.toInt)

def divUnsigned (x y : W64) : W64 := if y = 0 then BitVec.allOnes 64 else BitVec.ofNat 64 (x.toNat / y.toNat)

def remUnsigned (x y : W64) : W64 := if y = 0 then x else BitVec.ofNat 64 (x.toNat % y.toNat)

/-- High 64 bits of the signed and of the unsigned 128-bit product. -/
def mulHigh (x y : W64) : W64 := BitVec.ofInt 64 (x.toInt * y.toInt / 2 ^ 64)
def mulHighUnsigned (x y : W64) : W64 := BitVec.ofNat 64 (x.toNat * y.toNat / 2 ^ 64)

/-- Zeros above the highest set bit, and below the lowest; 64 for zero. -/
def leadingZeros (x : W64) : Nat := if x = 0 then 64 else 63 - Nat.log2 x.toNat
def trailingZeros (x : W64) : Nat := ((List.range 64).find? fun i => flag x i).getD 64

/-- Set bits of a word. -/
def bitCount {w : Nat} (x : BitVec w) : Nat := ((List.range w).filter fun i => flag x i).length

def execAdd (st : StallId) (d a b : SReg) (s : State) : Host.Outcome State Fault Refusal :=
  .next (intBinary st d a b (· + ·) s)

def execSub (st : StallId) (d a b : SReg) (s : State) : Host.Outcome State Fault Refusal :=
  .next (intBinary st d a b (· - ·) s)

def execAnd (st : StallId) (d a b : SReg) (s : State) : Host.Outcome State Fault Refusal :=
  .next (intBinary st d a b (· &&& ·) s)

def execOr (st : StallId) (d a b : SReg) (s : State) : Host.Outcome State Fault Refusal :=
  .next (intBinary st d a b (· ||| ·) s)

def execXor (st : StallId) (d a b : SReg) (s : State) : Host.Outcome State Fault Refusal :=
  .next (intBinary st d a b (· ^^^ ·) s)

def execSll (st : StallId) (d a b : SReg) (s : State) : Host.Outcome State Fault Refusal :=
  .next (intBinary st d a b (shiftBy 0 fun x n => x <<< n) s)

def execSrl (st : StallId) (d a b : SReg) (s : State) : Host.Outcome State Fault Refusal :=
  .next (intBinary st d a b (shiftBy 1 fun x n => x >>> n) s)

def execSra (st : StallId) (d a b : SReg) (s : State) : Host.Outcome State Fault Refusal :=
  .next (intBinary st d a b (shiftBy 2 fun x n => x.sshiftRight n) s)

def execSlt (st : StallId) (d a b : SReg) (s : State) : Host.Outcome State Fault Refusal :=
  .next (intBinary st d a b (fun x y => truth (x.slt y)) s)

def execSltu (st : StallId) (d a b : SReg) (s : State) : Host.Outcome State Fault Refusal :=
  .next (intBinary st d a b (fun x y => truth (x.ult y)) s)

def execMul (st : StallId) (d a b : SReg) (s : State) : Host.Outcome State Fault Refusal :=
  .next (intBinary st d a b (· * ·) s)

def execMulh (st : StallId) (d a b : SReg) (s : State) : Host.Outcome State Fault Refusal :=
  .next (intBinary st d a b mulHigh s)

def execMulhu (st : StallId) (d a b : SReg) (s : State) : Host.Outcome State Fault Refusal :=
  .next (intBinary st d a b mulHighUnsigned s)

def execDiv (st : StallId) (d a b : SReg) (s : State) : Host.Outcome State Fault Refusal :=
  .next (intBinary st d a b divSigned s)

def execDivu (st : StallId) (d a b : SReg) (s : State) : Host.Outcome State Fault Refusal :=
  .next (intBinary st d a b divUnsigned s)

def execRem (st : StallId) (d a b : SReg) (s : State) : Host.Outcome State Fault Refusal :=
  .next (intBinary st d a b remSigned s)

def execRemu (st : StallId) (d a b : SReg) (s : State) : Host.Outcome State Fault Refusal :=
  .next (intBinary st d a b remUnsigned s)

def execMin (st : StallId) (d a b : SReg) (s : State) : Host.Outcome State Fault Refusal :=
  .next (intBinary st d a b (fun x y => if x.slt y then x else y) s)

def execMax (st : StallId) (d a b : SReg) (s : State) : Host.Outcome State Fault Refusal :=
  .next (intBinary st d a b (fun x y => if x.slt y then y else x) s)

def execMinu (st : StallId) (d a b : SReg) (s : State) : Host.Outcome State Fault Refusal :=
  .next (intBinary st d a b (fun x y => if x.ult y then x else y) s)

def execMaxu (st : StallId) (d a b : SReg) (s : State) : Host.Outcome State Fault Refusal :=
  .next (intBinary st d a b (fun x y => if x.ult y then y else x) s)

def execClz (st : StallId) (d a b : SReg) (s : State) : Host.Outcome State Fault Refusal :=
  .next (intBinary st d a b (fun x _ => BitVec.ofNat 64 (leadingZeros x)) s)

def execCtz (st : StallId) (d a b : SReg) (s : State) : Host.Outcome State Fault Refusal :=
  .next (intBinary st d a b (fun x _ => BitVec.ofNat 64 (trailingZeros x)) s)

def execPopc (st : StallId) (d a b : SReg) (s : State) : Host.Outcome State Fault Refusal :=
  .next (intBinary st d a b (fun x _ => BitVec.ofNat 64 (bitCount x)) s)

def execAddi (st : StallId) (d a : SReg) (imm : Imm) (s : State) : Host.Outcome State Fault Refusal :=
  .next (intImm st d a imm (fun x => x + imm.sext) s)

def execAndi (st : StallId) (d a : SReg) (imm : Imm) (s : State) : Host.Outcome State Fault Refusal :=
  .next (intImm st d a imm (fun x => x &&& imm.zext) s)

def execOri (st : StallId) (d a : SReg) (imm : Imm) (s : State) : Host.Outcome State Fault Refusal :=
  .next (intImm st d a imm (fun x => x ||| imm.zext) s)

def execXori (st : StallId) (d a : SReg) (imm : Imm) (s : State) : Host.Outcome State Fault Refusal :=
  .next (intImm st d a imm (fun x => x ^^^ imm.zext) s)

/-- SHI: [15:14] 0 SLL, 1 SRL, 2 SRA; [5:0] the count; other bits 0, else the instruction is illegal. -/
def shiftImm (imm : Imm) : Option (W64 → W64) :=
  let v := imm.zext.toNat
  let n := v % 64
  if v ≠ v / 0x4000 * 0x4000 + n then none
  else
    match v / 0x4000 with
    | 0 => some fun x => x <<< n
    | 1 => some fun x => x >>> n
    | 2 => some fun x => x.sshiftRight n
    | _ => none

def execShi (st : StallId) (d a : SReg) (imm : Imm) (s : State) : Host.Outcome State Fault Refusal :=
  .next (match shiftImm imm with
    | some f => intImm st d a imm f s
    | none => s.onDev fun dev => dev.issue st imm.words fun dev =>
        dev.illegal st (Coeri.firstWord (.shi st d a imm)))

/-- LIH: d := (a & 0xFFFF_FFFF) | (imm << 32). -/
def execLih (st : StallId) (d a : SReg) (imm : Imm) (s : State) : Host.Outcome State Fault Refusal :=
  .next (intImm st d a imm (fun x => (x &&& 0xFFFF_FFFF) ||| (imm.zext <<< 32)) s)

end Sys2Proof.Machine
end

