-- ==== Sys2Proof/Machine/LoftAccess.lean ====
section
/-! DEFINITION. Scalar loads and stores of the loft (R104, R105, R299, R300). -/

namespace Sys2Proof.Machine

namespace Device

/-- The DPA of a partition-relative loft address of the running slot (R105). -/
def loftAt (d : Device) (st : StallId) (ea : Nat) : Nat := loftDpa st (d.partBase st (d.slotOf st) + ea)

/-- The effective address of a scalar access (R104). -/
def effective (d : Device) (st : StallId) (a : SReg) (imm : Imm) : W64 := d.sreg st a + imm.sext

/-- The checks of R104 on a scalar access of k bytes, then the access. -/
def scalarAccess (d : Device) (st : StallId) (ea : W64) (k : Nat) (f : Device → Device) : Device :=
  if d.loftLimit st (d.slotOf st) ≤ ea.toNat then d.loftAddress st ea
  else if ea.toNat % k ≠ 0 then d.loftMisaligned st ea
  else f d

end Device

/-- A scalar load of k bytes; ext widens them to a register. -/
def scalarLoad (st : StallId) (d a : SReg) (imm : Imm) (k : Nat) (ext : Nat → W64) (s : State) : State :=
  s.onDev fun dev => dev.issue st imm.words fun dev =>
    let ea := dev.effective st a imm
    dev.scalarAccess st ea k fun dev =>
      let at_ := dev.loftAt st ea.toNat
      let (dev, r) := dev.readUnit (unitOf at_) false
      if r = .ok then (dev.setSreg st d (ext (leNat (dev.rdBytes at_ k)))).retire st imm.words
      else dev.loftEcc st (ea.toNat / 8 * 8)

/-- A scalar store of the low k bytes of sd. -/
def scalarStore (st : StallId) (d a : SReg) (imm : Imm) (k : Nat) (s : State) : State :=
  s.onDev fun dev => dev.issue st imm.words fun dev =>
    let ea := dev.effective st a imm
    dev.scalarAccess st ea k fun dev =>
      let (dev, r) := dev.writeUnit (dev.loftAt st ea.toNat) (leBytes k (dev.sreg st d).toNat) false
      if r = .ok then dev.retire st imm.words else dev.loftEcc st (ea.toNat / 8 * 8)

/-- Sign extension and zero extension of k bytes. -/
def signBytes (k n : Nat) : W64 := BitVec.ofInt 64 (intOfNat (8 * k) n)
def zeroBytes (n : Nat) : W64 := BitVec.ofNat 64 n

def execLdD (st : StallId) (d a : SReg) (imm : Imm) (s : State) : Host.Outcome State Fault Refusal :=
  .next (scalarLoad st d a imm 8 zeroBytes s)

def execLdW (st : StallId) (d a : SReg) (imm : Imm) (s : State) : Host.Outcome State Fault Refusal :=
  .next (scalarLoad st d a imm 4 (signBytes 4) s)

def execLdWu (st : StallId) (d a : SReg) (imm : Imm) (s : State) : Host.Outcome State Fault Refusal :=
  .next (scalarLoad st d a imm 4 zeroBytes s)

def execLdH (st : StallId) (d a : SReg) (imm : Imm) (s : State) : Host.Outcome State Fault Refusal :=
  .next (scalarLoad st d a imm 2 (signBytes 2) s)

def execLdHu (st : StallId) (d a : SReg) (imm : Imm) (s : State) : Host.Outcome State Fault Refusal :=
  .next (scalarLoad st d a imm 2 zeroBytes s)

def execLdB (st : StallId) (d a : SReg) (imm : Imm) (s : State) : Host.Outcome State Fault Refusal :=
  .next (scalarLoad st d a imm 1 (signBytes 1) s)

def execLdBu (st : StallId) (d a : SReg) (imm : Imm) (s : State) : Host.Outcome State Fault Refusal :=
  .next (scalarLoad st d a imm 1 zeroBytes s)

def execStD (st : StallId) (d a : SReg) (imm : Imm) (s : State) : Host.Outcome State Fault Refusal :=
  .next (scalarStore st d a imm 8 s)

def execStW (st : StallId) (d a : SReg) (imm : Imm) (s : State) : Host.Outcome State Fault Refusal :=
  .next (scalarStore st d a imm 4 s)

def execStH (st : StallId) (d a : SReg) (imm : Imm) (s : State) : Host.Outcome State Fault Refusal :=
  .next (scalarStore st d a imm 2 s)

def execStB (st : StallId) (d a : SReg) (imm : Imm) (s : State) : Host.Outcome State Fault Refusal :=
  .next (scalarStore st d a imm 1 s)

end Sys2Proof.Machine
end

