-- ==== Sys2Proof/Machine/Message.lean ====
section
/-! DEFINITION. Mailboxes: messages, send channels, credits in transit, and the notices of engines (R108 to
R118). -/

namespace Sys2Proof.Machine

/-- A send channel of R109. -/
def chanCred (r : W64) : Nat := field r 16 7
def chanEn (r : W64) : Bool := flag r 31
def chanDest (r : W64) : StallId := Fin.ofNat 384 (field r 0 9)
def chanMbx (r : W64) : Fin 8 := Fin.ofNat 8 (field r 9 3)

/-- SCH_CFG with other credits. -/
def withCred (r : W64) (n : Nat) : W64 := (r &&& ~~~(0x7F_0000 : W64)) ||| BitVec.ofNat 64 (n % 128 * 2 ^ 16)

/-- The tally of a mailbox (R548). -/
def mbxTally (st : StallId) (m : Fin 8) : Nat := 0x0100_0000 + st.val * 8 + m.val

namespace Device

def mbx (d : Device) (st : StallId) (m : Fin 8) : Mailbox := (d.stall st).mbx[m]

/-- Send channel n of a slot. -/
def chan (d : Device) (st : StallId) (sl : Slot) (n : BitVec 4) : W64 := (d.ctx st sl).getCr (0x20 + n.toNat)

def setChan (d : Device) (st : StallId) (sl : Slot) (n : BitVec 4) (r : W64) : Device :=
  d.modCtx st sl fun c => c.setCr (0x20 + n.toNat) r

/-- The loft checks of an operand address of k bytes at issue (R131): outside the partition, then misaligned. -/
def operandCheck (d : Device) (st : StallId) (ea : W64) (k : Nat) (f : Device → Device) : Device :=
  if d.loftLimit st (d.slotOf st) < ea.toNat + k then d.loftAddress st ea
  else if ea.toNat % k ≠ 0 then d.loftMisaligned st ea
  else f d

/-- SEND on a channel whose credit and address are good: the 64 B are read whole, then one credit moves from
GRANTED to INFLIGHT (R111). -/
def sendNow (d : Device) (st : StallId) (ea : W64) (n : BitVec 4) : Device :=
  let (d, bytes, bad) := d.readRange (d.loftAt st ea.toNat) 64 false
  match bad with
  | (u, _) :: _ => d.loftEcc st (ea.toNat + (u - d.loftAt st ea.toNat))
  | [] =>
    let sl := d.slotOf st
    let r := d.chan st sl n
    let d := d.setChan st sl n (withCred r (chanCred r - 1))
    let d := d.modMbx (chanDest r) (chanMbx r) fun m => { m with granted := m.granted - 1, inflight := m.inflight + 1 }
    let msg : Message := { data := bytes, notice := false, frame := 0, src := BitVec.ofNat 9 st, slot := sl, chan := n, bad := false }
    let d : Device := { d with msgs := d.msgs ++ [({ dst := chanDest r, mbx := chanMbx r, msg := msg } : Transit)] }
    (d.modCur st fun c => { c with hold := none }).retire st 1

/-- SEND a, b, from issue: its checks, then the credit; without one it holds (R111). -/
def send (d : Device) (st : StallId) (a b : SReg) : Device :=
  let ea := d.sreg st a
  let n : BitVec 4 := (d.sreg st b).setWidth 4
  d.operandCheck st ea 64 fun d =>
    let r := d.chan st (d.slotOf st) n
    if !chanEn r then d.msgFault st n.toNat
    else if chanCred r = 0 then d.modCur st fun c => { c with hold := some (.send a b) }
    else d.sendNow st ea n

/-- The source word of R114. -/
def sourceWord (m : Message) (mb : Fin 8) : W64 :=
  BitVec.ofNat 64 (m.frame.toNat * 2 ^ 32 + bitAt m.notice 16 + mb.val * 2 ^ 13 +
    (if m.notice then 0 else m.chan.toNat) * 2 ^ 9 + m.src.toNat)

/-- The oldest message of a mailbox leaves its slot: the credit starts back, or a notice slot is free
(R113). -/
def freeSlot (d : Device) (st : StallId) (mb : Fin 8) (m : Message) : Device :=
  let d := d.modMbx st mb fun x => { x with msgs := x.msgs.drop 1 }
  if m.notice then d.modMbx st mb fun x => { x with free := x.free + 1 }
  else
    let d := d.modMbx st mb fun x => { x with granted := x.granted + 1 }
    { d with credits := d.credits ++ [{ kind := .ret, owner := st, mbx := mb, stall := Fin.ofNat 384 m.src.toNat
                                        slot := m.slot, chan := m.chan, count := 1, reclaimed := false }] }

/-- RECV and RECVA from issue, with the mailboxes that they name as a mask: the checks, the wait, the copy
(R112 to R114). -/
def receive (d : Device) (st : StallId) (dst a : SReg) (mask : BitVec 8) : Device :=
  let ea := d.sreg st a
  d.operandCheck st ea 64 fun d =>
    match (finList 8).find? fun (m : Fin 8) => flag mask m && d.mbxOwner st m != d.slotOf st with
    | some m => d.msgFault st m
    | none =>
      match (finList 8).find? fun (m : Fin 8) => flag mask m && !(d.mbx st m).msgs.isEmpty with
      | none => d.modCur st fun c => { c with hold := some (.recv dst a mask) }
      | some mb =>
        match (d.mbx st mb).msgs with
        | [] => d
        | m :: _ =>
          let d := (d.freeSlot st mb m).modCur st fun c => { c with hold := none }
          if m.bad then d.raise st 5 Status.memEccUncorrected (BitVec.ofNat 64 (2 ^ 63 + mb.val))
          else
            let d := (d.writeRange (d.loftAt st ea.toNat) m.data false).1
            (d.setSreg st dst (sourceWord m mb)).retire st 1

/-- Credits that travel arrive (R110, R113, R116): a channel that is enabled and bound to their mailbox takes
them; otherwise they return to FREE. -/
def creditArrives (d : Device) (i : Nat) (c : CreditTransit) : Device :=
  let d := { d with credits := d.credits.eraseIdx i }
  let r := d.chan c.stall c.slot c.chan
  if c.kind != .close && chanEn r && chanDest r = c.owner && chanMbx r = c.mbx then
    d.setChan c.stall c.slot c.chan (withCred r (chanCred r + c.count))
  else
    let d := d.modMbx c.owner c.mbx fun m => { m with granted := m.granted - c.count, free := m.free + c.count }
    if c.reclaimed then d.reclaim 1 Status.creditReclaimed (Page.stall c.owner) (mbxTally c.owner c.mbx) c.count else d

/-- Every credit of a channel starts back to its mailbox and the channel is disabled (R116, R552). Where it is reclaimed,
returns and grants that travel to it are so too: they will find it disabled. -/
def closeChannel (d : Device) (st : StallId) (sl : Slot) (n : BitVec 4) (reclaimed : Bool) : Device :=
  let r := d.chan st sl n
  let d := d.setChan st sl n (clearBit (withCred r 0) 31)
  let inbound (c : CreditTransit) : Bool := c.kind != .close && c.stall = st && c.slot = sl && c.chan = n
  let d := { d with credits := d.credits.map fun c => if reclaimed && inbound c then { c with reclaimed := true } else c }
  if chanCred r = 0 then d
  else
    { d with credits := d.credits ++ [{ kind := .close, owner := chanDest r, mbx := chanMbx r, stall := st
                                        slot := sl, chan := n, count := chanCred r, reclaimed := reclaimed }] }

/-! ### Notices (R115) -/

/-- The notice slots of a descriptor: reserved where the NOTICE mailbox has them free. -/
def reserve (d : Device) (st : StallId) (m : Fin 8) (n : Nat) : Option Device :=
  if (d.mbx st m).free < n then none
  else some (d.modMbx st m fun x => { x with free := x.free - n, inflight := x.inflight + n })

/-- The mailbox that a descriptor of the running slot names breaks R115. -/
def badNoticeMbx (d : Device) (st : StallId) (m : Fin 8) : Bool :=
  !(d.mbx st m).notice || d.mbxOwner st m != d.slotOf st

/-- An engine writes a notice of 64 B, given as eight words, into a slot it has reserved. A notice of the primary slot
calls it back when the paddock slot runs or a switch to it is due or under way (R418). -/
def post (d : Device) (st : StallId) (m : Fin 8) (src : BitVec 9) (words : List Nat) : Device :=
  let data := (words.flatMap fun w => leBytes 8 w) ++ List.replicate (64 - 8 * words.length) 0
  let msg : Message := { data := data, notice := true, frame := d.now.setWidth 32, src := src, slot := .primary, chan := 0, bad := false }
  let d := d.modMbx st m fun x => { x with inflight := x.inflight - 1, msgs := x.msgs ++ [msg] }
  let s := d.stall st
  let away := s.slot = .paddock || s.switching = some .paddock || s.switchTo.any fun p => p.1 = .paddock
  if d.mbxOwner st m = .primary && away then d.modStall st fun s => { s with recalled := true } else d

/-- Reserved notice slots that stay unused go back to FREE, and are counted as reclaimed (R115, R551). -/
def releaseNotices (d : Device) (st : StallId) (m : Fin 8) (n : Nat) (cause : Fin 5) (c : Code) : Device :=
  let d := d.modMbx st m fun x => { x with inflight := x.inflight - n, free := x.free + n }
  d.reclaim cause c (Page.stall st) (mbxTally st m) n

end Device

def execSend (st : StallId) (_d a b : SReg) (s : State) : Host.Outcome State Fault Refusal :=
  .next (s.onDev fun dev => dev.issue st 1 fun dev => dev.send st a b)

/-- A credit has arrived for the held SEND, which issues (R111). -/
def execHeldSendIssue (st : StallId) (s : State) : Host.Outcome State Fault Refusal :=
  .next (s.onDev fun dev =>
    match (dev.cur st).hold with
    | some (.send a b) => if (dev.stall st).active then dev.send st a b else dev
    | _ => dev)

def execRecv (st : StallId) (d a b : SReg) (s : State) : Host.Outcome State Fault Refusal :=
  .next (s.onDev fun dev => dev.issue st 1 fun dev =>
    dev.receive st d a (BitVec.ofNat 8 (2 ^ field (dev.sreg st b) 0 3)))

def execRecva (st : StallId) (d a b : SReg) (s : State) : Host.Outcome State Fault Refusal :=
  .next (s.onDev fun dev => dev.issue st 1 fun dev => dev.receive st d a ((dev.sreg st b).setWidth 8))

/-- A message lies in a mailbox that the held RECV or RECVA waits on (R112). -/
def execRecvWake (st : StallId) (s : State) : Host.Outcome State Fault Refusal :=
  .next (s.onDev fun dev =>
    match (dev.cur st).hold with
    | some (.recv d a mask) => if (dev.stall st).active then dev.receive st d a mask else dev
    | _ => dev)

/-- MGRANT d, a, b (R110). -/
def execMgrant (st : StallId) (d a b : SReg) (s : State) : Host.Outcome State Fault Refusal :=
  .next (s.onDev fun dev => dev.issue st 1 fun dev =>
    let x := dev.sreg st a
    let y := dev.sreg st b
    let m : Fin 8 := Fin.ofNat 8 (field x 0 3)
    let n := field x 8 7
    if n = 0 ∨ 64 < n ∨ 383 < field y 0 9 ∨ (dev.mbx st m).notice ∨ dev.mbxOwner st m ≠ dev.slotOf st then
      dev.msgFault st m
    else if (dev.mbx st m).free < n then (dev.setSreg st d 1).retire st 1
    else
      let dev := dev.modMbx st m fun q => { q with free := q.free - n, granted := q.granted + n }
      let t : CreditTransit := { kind := .grant, owner := st, mbx := m, stall := Fin.ofNat 384 (field y 0 9)
                                 slot := if flag y 13 then .paddock else .primary, chan := BitVec.ofNat 4 (field y 9 4)
                                 count := n, reclaimed := false }
      ({ dev with credits := dev.credits ++ [t] }.setSreg st d 0).retire st 1)

/-- CHCLOSE a (R116). -/
def execChclose (st : StallId) (_d a _b : SReg) (s : State) : Host.Outcome State Fault Refusal :=
  .next (s.onDev fun dev => dev.issue st 1 fun dev =>
    (dev.closeChannel st (dev.slotOf st) ((dev.sreg st a).setWidth 4) false).retire st 1)

/-- The oldest message on its way from a stall to a mailbox is written into its slot (R21, R111, R114). -/
def execMessageArrival (st : StallId) (mbx : Fin 8) (src : StallId) (s : State) : Host.Outcome State Fault Refusal :=
  .next (s.onDev fun dev =>
    let mine (t : Transit) : Bool := t.dst = st && t.mbx = mbx && t.msg.src = BitVec.ofNat 9 src
    match dev.msgs.find? mine with
    | none => dev
    | some t =>
      { dev with msgs := eraseFirst mine dev.msgs }.modMbx st mbx fun m =>
        { m with inflight := m.inflight - 1, msgs := m.msgs ++ [{ t.msg with frame := dev.now.setWidth 32 }] })

/-- A credit return, or the credits of a closed channel, arrive (R113, R116). -/
def execCreditReturnArrival (i : Nat) (s : State) : Host.Outcome State Fault Refusal :=
  .next (s.onDev fun dev =>
    match dev.credits[i]? with
    | some c => if c.kind = .grant then dev else dev.creditArrives i c
    | none => dev)

/-- A grant arrives at its channel (R110). -/
def execGrantArrival (i : Nat) (s : State) : Host.Outcome State Fault Refusal :=
  .next (s.onDev fun dev =>
    match dev.credits[i]? with
    | some c => if c.kind = .grant then dev.creditArrives i c else dev
    | none => dev)

end Sys2Proof.Machine
end

