-- ==== Sys2Proof/Machine/Descr.lean ====
section
/-! DEFINITION. What the engine instructions share: the checks of R131 on a descriptor and its loft regions, and
loft access by engines at partition-relative addresses. -/

namespace Sys2Proof.Machine

/-- A loft region that a descriptor names: base, bytes and the alignment of its base. -/
structure Region where
  base : Nat
  bytes : Nat
  align : Nat
deriving DecidableEq, Repr

namespace Device

/-- The DPA of a partition-relative loft address of a slot. -/
def slotAt (d : Device) (st : StallId) (sl : Slot) (a : Nat) : Nat := loftDpa st (d.partBase st sl + a)

/-- A loft read by an engine: the bytes, and whether every word read well. -/
def engRead (d : Device) (st : StallId) (sl : Slot) (a n : Nat) : Device × List Byte × Bool :=
  let (d, bs, bad) := d.readRange (d.slotAt st sl a) n false
  (d, bs, bad.isEmpty)

/-- A loft write by an engine. -/
def engWrite (d : Device) (st : StallId) (sl : Slot) (a : Nat) (bs : List Byte) : Device :=
  (d.writeRange (d.slotAt st sl a) bs false).1

/-- The words of 8 B of a range changed by f in one indivisible step each; a word that does not read stays. -/
def engModify (d : Device) (st : StallId) (sl : Slot) (a n : Nat) (f : List Byte → List Byte) : Device :=
  let (d, bs, bad) := d.readRange (d.slotAt st sl a) n false
  let new := f bs
  (List.range (n / 8)).foldl (fun d i =>
    let w := (new.drop (8 * i)).take 8
    if w = (bs.drop (8 * i)).take 8 ∨ bad.any (fun p => p.1 = d.slotAt st sl (a + 8 * i)) then d
    else d.engWrite st sl (a + 8 * i) w) d

/-- The first of some regions that leaves the running slot's partition, or is misaligned, takes its exception
(steps 4 and 5 of R131); otherwise f. -/
def checkRegions (d : Device) (st : StallId) (regs : List Region) (f : Device → Device) : Device :=
  let lim := d.loftLimit st (d.slotOf st)
  match regs.find? fun r => decide (lim < r.base + r.bytes) with
  | some r => d.loftAddress st (BitVec.ofNat 64 r.base)
  | none =>
    match regs.find? fun r => r.base % r.align ≠ 0 with
    | some r => d.loftMisaligned st (BitVec.ofNat 64 r.base)
    | none => f d

/-- The descriptor of 64 B at a loft address, read at issue after its checks (steps 1 and 2 of R131). -/
def withDescr (d : Device) (st : StallId) (ea : W64) (f : Device → Vector W64 8 → Device) : Device :=
  d.operandCheck st ea 64 fun d =>
    let (d, bytes, bad) := d.readRange (d.loftAt st ea.toNat) 64 false
    match bad with
    | (u, _) :: _ => d.loftEcc st (ea.toNat + (u - d.loftAt st ea.toNat))
    | [] => f d (Vector.ofFn fun i => BitVec.ofNat 64 (leNat ((bytes.drop (8 * i)).take 8)))

end Device

/-- A field of word w of a descriptor. -/
def dfield (x : Vector W64 8) (w lo len : Nat) : Nat := field (vget x w 0) lo len

/-- Every bit of a descriptor outside the given fields (word, low bit, length) is 0. -/
def reservedClear (x : Vector W64 8) (used : List (Nat × Nat × Nat)) : Bool :=
  (List.range 8).all fun w =>
    let m := (used.filter fun u => u.1 = w).foldl (fun (m : Nat) u => m ||| ((2 ^ u.2.2 - 1) <<< u.2.1)) 0
    (vget x w 0).toNat &&& (0xFFFF_FFFF_FFFF_FFFF - m) = 0

end Sys2Proof.Machine
end

