-- ==== Sys2Proof/Machine/Barrow.lean ====
section
/-! DEFINITION. The barrow of a stall: descriptors, acceptance, charge and booked service, LATE, data movement
with poison, notices and aborts (R316 to R325), and the activation stash (R287 to R292). -/

namespace Sys2Proof.Machine

/-! ### Moving data -/

namespace Device

/-- Overlap in bytes of a failed unit with n bytes at a. -/
def overlapBytes (a n u : Nat) : Nat := min (a + n) (u + unitSize u) - max a u

/-- Poisons the loft words that bytes a to a + n − 1 of a loft touch (R301). -/
def poisonWords (d : Device) (a n : Nat) : Device := (unitsOf a n).foldl poisonUnit d

/-- n bytes moved from src to dst, each range in one unit kind: the units of either range that failed, by the
address at which the given side, mapped, names them, ascending (R322, R323). A word of a loft destination whose source failed is
poisoned; so is a burst of LP6 memory whose source word failed. -/
def moveRow (d : Device) (src dst n : Nat) (booked dstNamed : Bool) : Device × List (Nat × MemRes) :=
  let (d, bs, bad) := d.readRange src n booked
  let (d, fails) := d.writeRange dst bs booked
  let d := bad.foldl (fun d p =>
    let lo := max src p.1
    d.poisonWords (dst + (lo - src)) (overlapBytes src n p.1)) d
  let shift (u : Nat) : Nat := if dstNamed then unitOf (dst + (max src u - src)) else u
  let back (u : Nat) : Nat := if dstNamed then u else unitOf (src + (max dst u - dst))
  let all := (fails.map fun p => (back p.1, p.2)) ++ (bad.map fun p => (shift p.1, p.2))
  (d, all.foldl (fun l p => if (mapGet l p.1).isSome then l else mapInsert l p.1 p.2) [])

/-! ### Charge and shares -/

/-- The 64 B chunks touched in each 2 KiB block, as a mask per block, ascending. -/
def blockMasks (ranges : List (Nat × Nat)) : List (Nat × Nat) :=
  ranges.foldl (fun m r =>
    if r.2 = 0 then m
    else
      (List.range ((r.1 + r.2 - 1) / 2048 - r.1 / 2048 + 1)).foldl (fun m i =>
        let b := r.1 / 2048 + i
        let lo := (max r.1 (b * 2048) - b * 2048) / 64
        let hi := (min (r.1 + r.2) ((b + 1) * 2048) - 1 - b * 2048) / 64
        mapInsert m b ((mapGet m b).getD 0 ||| ((2 ^ (hi - lo + 1) - 1) <<< lo))) m) []

/-- Channels of a yard in service, at least 1. -/
def inService (d : Device) (y : Yard) : Nat := max 1 (d.channels y).length

/-- charge(c) of R318 for some DPA ranges, per channel. -/
def charges (d : Device) (ranges : List (Nat × Nat)) : List (Chan × Nat) :=
  let per := (blockMasks ranges).map fun p =>
    (d.chanOf (p.1 * 2048), ((List.range 32).filter fun i => p.2.testBit i).length * 64 + 64)
  (finList 64).filterMap fun c =>
    let s := ((per.filter fun p => p.1 = c).map Prod.snd).sum
    if s = 0 then none else some (c, s)

/-- The largest of some per-channel amounts. -/
def maxOf (l : List (Chan × Nat)) : Nat := l.foldl (fun a p => max a p.2) 0

/-- S_y of R319: a stall's share of a yard's memory in bytes per frame. -/
def share (d : Device) (st : StallId) (y : Yard) : Nat :=
  64 * field (d.preg (Page.shedOf st) (shedOff st 0x100)) (16 * y) 16

/-- The charge of a booked descriptor that is left, in bytes. -/
def jobLeft (j : BarrowJob) : Nat := ceilDiv (maxOf j.rem) 2

/-- q of R319. -/
def backlog (d : Device) (st : StallId) (y : Yard) : Nat :=
  (((d.stall st).barrow.filter fun j => j.accepted && j.booked && j.yard = y).map jobLeft).sum

end Device

/-! ### Descriptors -/

/-- Rows of a LINEAR or STRIDED descriptor as loft address, DPA and bytes (R316). -/
def barrowRows (x : Vector W64 8) : List (Nat × Nat × Nat) :=
  let n := if dfield x 0 0 4 = 1 then dfield x 3 0 32 else 1
  (List.range n).map fun r =>
    (dfield x 1 0 32 + r * dfield x 3 32 32, dfield x 2 0 48 + r * dfield x 4 0 48, dfield x 1 32 32)

def barrowTotal (x : Vector W64 8) : Nat := (if dfield x 0 0 4 = 1 then dfield x 3 0 32 else 1) * dfield x 1 32 32

/-- Step 3 of R131 for KIND 0x0 and 0x1 (R316). -/
def barrowLegal (x : Vector W64 8) : Bool :=
  let kind := dfield x 0 0 4
  let n := dfield x 1 32 32
  let rows := dfield x 3 0 32
  reservedClear x [(0, 56, 8), (0, 15, 1), (0, 8, 3), (0, 0, 4), (1, 0, 64), (2, 0, 48), (3, 0, 64), (4, 0, 48)]
    && decide (kind ≤ 1) && n ≠ 0 && n % 64 = 0 && dfield x 2 0 48 % 64 = 0
    && (if kind = 0 then vget x 3 0 = 0 && vget x 4 0 = 0
        else decide (1 ≤ rows) && decide (rows ≤ 2 ^ 20) && dfield x 3 32 32 % 64 = 0 && dfield x 4 0 48 % 64 = 0)

/-! ### The stash -/

namespace Stash

/-- Entry i, FREE where there is none. -/
def entry (s : Stash) (i : Nat) : StashEntry :=
  (s.entries[i]?).getD { state := 0, elig := false, tag := 0, seq := 0, bytes := 0, slot := 0 }

/-- Partition-relative loft address of a loft slot, and DPA of an LP6 slot. -/
def loftSlot (s : Stash) (i : Nat) : Nat := s.loftBase + i * s.slotBytes
def lp6Slot (s : Stash) (i : Nat) : Nat := s.lp6Base + i * s.slotBytes

/-- The lowest slot of a region of n that no entry in the given state holds. -/
def freeSlot (s : Stash) (state : BitVec 2) (n : Nat) : Option Nat :=
  (List.range n).find? fun i => !s.entries.any fun e => e.state = state && e.slot = i

/-- The entry with the lowest SEQ among those that satisfy p: the oldest (R289). -/
def oldest (s : Stash) (p : StashEntry → Bool) : Option (Nat × StashEntry) :=
  ((s.entries.zipIdx).filter fun q => p q.1).foldl (fun a q =>
    match a with
    | none => some (q.2, q.1)
    | some b => if q.1.seq < b.2.seq then some (q.2, q.1) else some b) none

def setEntry (s : Stash) (i : Nat) (e : StashEntry) : Stash := { s with entries := s.entries.set i e }

/-- An entry dropped for recomputation. -/
def drop (s : Stash) (i : Nat) : Stash :=
  { s.setEntry i { s.entry i with state := 3, slot := 0 } with drops := s.drops + 1 }

/-- The oldest LOFT entry spilled into LP6 slot k: the stash, the freed loft slot, the bytes moved. -/
def spill (s : Stash) (k : Nat) : Option (Stash × Nat × Nat) :=
  (s.oldest fun e => e.state = 1).map fun p =>
    ({ s.setEntry p.1 { p.2 with state := 2, slot := k } with spills := s.spills + 1 }, p.2.slot, p.2.bytes)

/-- A place for a PUT (R289): the stash, the state of the new entry and its slot, and the spill made, as loft
slot, LP6 slot and bytes. -/
def takePlace (s : Stash) : Option (Stash × BitVec 2 × Nat × Option (Nat × Nat × Nat)) :=
  let viaSpill (s : Stash) (k : Nat) : Option (Stash × BitVec 2 × Nat × Option (Nat × Nat × Nat)) :=
    (s.spill k).map fun r => (r.1, 1, r.2.1, some (r.2.1, k, r.2.2))
  if s.loftSlots = 0 then
    match s.freeSlot 2 s.lp6Slots with
    | some k => some (s, 2, k, none)
    | none => (s.oldest fun e => e.state = 2 && e.elig).map fun p => (s.drop p.1, 2, p.2.slot, none)
  else
    match s.freeSlot 1 s.loftSlots with
    | some k => some (s, 1, k, none)
    | none =>
      match s.freeSlot 2 s.lp6Slots with
      | some k => viaSpill s k
      | none =>
        match s.oldest fun e => e.state = 2 && e.elig with
        | some p => viaSpill (s.drop p.1) p.2.slot
        | none => (s.oldest fun e => e.state = 1 && e.elig).map fun p => (s.drop p.1, 1, p.2.slot, none)

/-- A directory entry as stored. -/
def image (e : StashEntry) : List Byte :=
  leBytes 8 (e.slot * 2 ^ 48 + e.state.toNat * 2 ^ 33 + bitAt e.elig 32 + e.tag.toNat) ++
    leBytes 8 (e.seq.toNat * 2 ^ 32 + e.bytes)

/-- A stash from its control block (R287, R288): every entry FREE. -/
def ofBlock (b : List Byte) : Stash :=
  let g (off n : Nat) : Nat := leNat ((b.drop off).take n)
  { dirBase := g 0 4, slotBytes := g 8 4, loftSlots := g 0xC 2, loftBase := g 0x10 4
    lp6Base := g 0x18 8, lp6Slots := g 0x20 2, seq := BitVec.ofNat 32 (g 0x24 4)
    spills := BitVec.ofNat 32 (g 0x28 4), drops := BitVec.ofNat 32 (g 0x2C 4)
    entries := List.replicate (g 4 2) { state := 0, elig := false, tag := 0, seq := 0, bytes := 0, slot := 0 } }

end Stash

/-- Step 3 of R131 for a stash descriptor (R287, R288), against the slot's open stash. -/
def stashLegal (x : Vector W64 8) (s : Option Stash) : Bool :=
  let op := dfield x 0 52 4
  let e := dfield x 2 32 16
  reservedClear x [(0, 56, 8), (0, 52, 4), (0, 48, 1), (0, 8, 3), (0, 0, 4), (1, 0, 64), (2, 0, 48)]
    && decide (op ≤ 4)
    && match s with
       | none => op = 0
       | some s =>
         op ≠ 0 &&
           (op = 4 ||
             (decide (e < s.entries.length) &&
               if op = 1 then
                 (s.entry e).state = 0 && decide (1 ≤ dfield x 1 32 32) && decide (dfield x 1 32 32 ≤ s.slotBytes)
               else (s.entry e).state ≠ 0))

namespace Device

/-- A job of the barrow, not yet accepted. -/
def newJob (d : Device) (st : StallId) (put : Bool) (x : Vector W64 8) : BarrowJob :=
  { slot := d.slotOf st, put := put, desc := x, stash := dfield x 0 0 4 = 8, moves := [], stashCode := Status.done
    close := none, accepted := false, booked := false, accept := 0, promise := 0, yard := 0, rem := []
    late := none, firmware := false }

/-- A job enters the queue and its instruction retires. -/
def enqueueBarrow (d : Device) (st : StallId) (j : BarrowJob) : Device :=
  (d.modStall st fun s => { s with barrow := s.barrow ++ [j] }).retire st 1

/-- The notice mailbox of a descriptor at word 0 [10:8]. -/
def noticeMbx (x : Vector W64 8) : Fin 8 := Fin.ofNat 8 (dfield x 0 8 3)

/-- Step 6 of R131 and the reservation of n notice slots: f goes on where they are free, and the instruction
holds, without effect, where they are not (R115). -/
def withNotices (d : Device) (st : StallId) (m : Fin 8) (n : Nat) (f : Device → Device) : Device :=
  if d.badNoticeMbx st m then d.msgFault st m
  else
    match d.reserve st m n with
    | none => d
    | some d' => f d'

/-- Directory entry i is written back to the loft. -/
def storeEntry (d : Device) (st : StallId) (s : Stash) (i : Nat) : Device :=
  d.engWrite st (d.slotOf st) (s.dirBase + 16 * i) (Stash.image (s.entry i))

def setStash (d : Device) (st : StallId) (s : Option Stash) : Device := d.modCur st fun c => { c with stash := s }

/-- OPEN: the stash state from the control block (R288). -/
def stashOpen (d : Device) (st : StallId) (j : BarrowJob) (w : W32) : Device :=
  let (d, b, ok) := d.engRead st j.slot (dfield j.desc 1 0 32) 64
  let s := Stash.ofBlock b
  if s.entries.length = 0 ∨ 4096 < s.entries.length ∨ s.slotBytes = 0 ∨ s.slotBytes % 4096 ≠ 0 ∨ 1048576 < s.slotBytes
      ∨ 4095 < s.loftSlots ∨ s.lp6Base % 4096 ≠ 0 then d.illegal st w
  else
    d.checkRegions st [⟨s.dirBase, 16 * s.entries.length, 16⟩, ⟨s.loftBase, s.loftSlots * s.slotBytes, 4096⟩] fun d =>
      d.withNotices st (noticeMbx j.desc) 1 fun d =>
        let d := d.engWrite st j.slot s.dirBase (List.replicate (16 * s.entries.length) 0)
        (d.setStash st (some s)).enqueueBarrow st { j with stashCode := if ok then Status.done else Status.memEccUncorrected }

/-- PUT (R289, R290): without a place it raises STASH_FULL and changes nothing. -/
def stashPut (d : Device) (st : StallId) (j : BarrowJob) (s : Stash) : Device :=
  let x := j.desc
  let i := dfield x 2 32 16
  let tag : W32 := BitVec.ofNat 32 (dfield x 2 0 32)
  match s.takePlace with
  | none =>
    if d.badNoticeMbx st (noticeMbx x) then d.msgFault st (noticeMbx x) else d.raise st 9 Status.stashFull (tag.setWidth 64)
  | some (s', state, k, sp) =>
    d.withNotices st (noticeMbx x) 1 fun d =>
      let n := dfield x 1 32 32
      let e : StashEntry := { state := state, elig := dfield x 0 48 1 = 1, tag := tag, seq := s.seq, bytes := n, slot := k }
      let s' := { s'.setEntry i e with seq := s.seq + 1 }
      let at_ (a : Nat) : Nat := d.slotAt st j.slot a
      let spill : List Move := match sp with
        | some (a, b, m) => [⟨at_ (s.loftSlot a), s.lp6Slot b, m⟩]
        | none => []
      let dst := if state = 1 then at_ (s.loftSlot k) else s.lp6Slot k
      let d := (List.range s.entries.length).foldl (fun d i =>
        if s'.entry i = s.entry i then d else d.storeEntry st s' i) d
      (d.setStash st (some s')).enqueueBarrow st { j with moves := spill ++ [⟨at_ (dfield x 1 0 32), dst, n⟩] }

/-- GET and FREE (R291). -/
def stashGetFree (d : Device) (st : StallId) (j : BarrowJob) (s : Stash) (get : Bool) : Device :=
  let x := j.desc
  let i := dfield x 2 32 16
  let e := s.entry i
  let miss := get && e.tag ≠ BitVec.ofNat 32 (dfield x 2 0 32)
  let gone := e.state = 3
  let src := if e.state = 1 then d.slotAt st j.slot (s.loftSlot e.slot) else s.lp6Slot e.slot
  let moves : List Move := if get && !gone && !miss then [⟨src, d.slotAt st j.slot (dfield x 1 0 32), e.bytes⟩] else []
  let code := if get && gone then Status.stashRecompute else if miss then Status.stashTagMismatch else Status.done
  let s' := if miss && !gone then s else s.setEntry i { e with state := 0 }
  ((d.storeEntry st s' i).setStash st (some s')).enqueueBarrow st { j with moves := moves, stashCode := code }

/-- A stash descriptor at issue, after the checks of its fields. -/
def stashIssue (d : Device) (st : StallId) (j : BarrowJob) (w : W32) : Device :=
  let x := j.desc
  let op := dfield x 0 52 4
  let e := match (d.cur st).stash with
    | some s => s.entry (dfield x 2 32 16)
    | none => { state := 0, elig := false, tag := 0, seq := 0, bytes := 0, slot := 0 }
  let n := if op = 0 ∨ op = 4 then 64 else if op = 1 then dfield x 1 32 32 else if op = 2 then e.bytes else 0
  d.checkRegions st (if n = 0 then [] else [⟨dfield x 1 0 32, n, 1⟩]) fun d =>
    match (d.cur st).stash with
    | none => d.stashOpen st j w
    | some s =>
      if op = 1 then d.stashPut st j s
      else
        d.withNotices st (noticeMbx x) 1 fun d =>
          if op = 4 then (d.setStash st none).enqueueBarrow st { j with close := some (s.seq, s.spills, s.drops) }
          else d.stashGetFree st j s (op = 2)

/-- BGET and BPUT at issue, whatever the KIND of their descriptor (R287, R316). -/
def barrowIssue (d : Device) (st : StallId) (put : Bool) (m : MFormat) (w : W32) : Device :=
  let sl := d.slotOf st
  if m.sel ≠ 0 ∨ m.b ≠ 0 ∨ m.d ≠ 0 then d.illegal st w
  else if 16 ≤ ((d.stall st).barrow.filter fun j => j.slot = sl).length then d
  else
    d.withDescr st (d.sreg st m.a) fun d x =>
      if dfield x 0 0 4 = 8 then
        if stashLegal x (d.cur st).stash then d.stashIssue st (d.newJob st put x) w else d.illegal st w
      else if !barrowLegal x then d.illegal st w
      else
        let rows := if dfield x 0 0 4 = 1 then dfield x 3 0 32 else 1
        d.checkRegions st [⟨dfield x 1 0 32, (rows - 1) * dfield x 3 32 32 + dfield x 1 32 32, 64⟩] fun d =>
          d.withNotices st (noticeMbx x) 1 fun d => d.enqueueBarrow st (d.newJob st put x)

/-! ### Acceptance (R317 to R319) -/

/-- The moves of a descriptor, in ascending row order, as source and destination DPAs. -/
def movesOf (d : Device) (st : StallId) (j : BarrowJob) : List Move :=
  if j.stash then j.moves
  else
    (barrowRows j.desc).map fun r =>
      let l := d.slotAt st j.slot r.1
      if j.put then ⟨l, r.2.1, r.2.2⟩ else ⟨r.2.1, l, r.2.2⟩

/-- A DPA in the stall's own loft. -/
def ownLoft (st : StallId) (a : Nat) : Bool := inLoft a 1 && loftStall a = st

/-- The DPA ranges of a descriptor outside the stall's own loft: the ranges that R317 checks. -/
def rangesOf (d : Device) (st : StallId) (j : BarrowJob) : List (Nat × Nat) :=
  if j.stash then
    (d.movesOf st j).flatMap fun m =>
      (if ownLoft st m.src then [] else [(m.src, m.bytes)]) ++ (if ownLoft st m.dst then [] else [(m.dst, m.bytes)])
  else (barrowRows j.desc).map fun r => (r.2.1, r.2.2)

/-- The first unmapped byte of a range. -/
def firstUnmapped (d : Device) (a : Nat) : Nat :=
  if a < d.boot.memCapacity then d.boot.memCapacity
  else if inLoft a 1 then loftBase + (a - loftBase) / 0x40_0000 * 0x40_0000 + 0x30_0000
  else a

/-- The barrow's notice (R322). -/
def barrowNotice (d : Device) (st : StallId) (j : BarrowJob) (code cause : Code) (k bytes fail : Nat) : Device :=
  if j.firmware then d
  else
    d.post st (noticeMbx j.desc) 0x1F8
      [dfield j.desc 0 56 8 * 2 ^ 56 + k % 2 ^ 16 * 2 ^ 32 + cause.toNat * 2 ^ 16 + code.toNat, j.accept.toNat,
       if j.booked then j.promise.toNat else 0, bytes, fail]

/-- Tally of a slot's barrow queue (R548). -/
def barrowTally (st : StallId) (sl : Slot) : Nat :=
  0x0300_0000 + 2 * st.val + (match sl with
    | .primary => 0
    | .paddock => 1)

def setJob (d : Device) (st : StallId) (i : Nat) (j : BarrowJob) : Device :=
  d.modStall st fun s => { s with barrow := s.barrow.set i j }

def dropJob (d : Device) (st : StallId) (i : Nat) : Device :=
  d.modStall st fun s => { s with barrow := s.barrow.eraseIdx i }

/-- Job i, accepted as j, takes its place behind those accepted before it: the barrow serves in order of acceptance
(R320). -/
def placeJob (d : Device) (st : StallId) (i : Nat) (j : BarrowJob) : Device :=
  d.modStall st fun s =>
    { s with barrow := s.barrow.filter (·.accepted) ++ j :: (s.barrow.eraseIdx i).filter (!·.accepted) }

/-- A descriptor refused at acceptance: its notice within frame a, and its queue entry reclaimed (R35, R74). -/
def refuseJob (d : Device) (st : StallId) (i : Nat) (j : BarrowJob) (code : Code) (fail : Nat) : Device :=
  let d := (d.dropJob st i).barrowNotice st j code 0 0 0 fail
  if code = Status.barrowFault then d else d.reclaim 3 code (Page.stall st) (barrowTally st j.slot) 1

/-- Acceptance of job i. -/
def acceptJob (d : Device) (st : StallId) (i : Nat) (j : BarrowJob) : Device :=
  let j := { j with accept := d.now, accepted := true }
  let rs := d.rangesOf st j
  let lp6 := rs.filter fun r => d.inLp6 r.1 r.2
  match rs.find? fun r => !d.mapped r.1 r.2 with
  | some r => d.refuseJob st i j Status.addressUnmapped (d.firstUnmapped r.1)
  | none =>
    match lp6 with
    | [] => d.placeJob st i j
    | r :: _ =>
      let y := d.yardAt r.1
      if lp6.length < rs.length ∨ lp6.any fun q => d.yardAt q.1 ≠ y ∨ d.yardAt (q.1 + q.2 - 1) ≠ y then
        d.refuseJob st i j Status.barrowFault 0
      else
        let n := d.inService y
        let per := d.charges lp6
        let x := n * maxOf per
        let s := d.share st y
        let q := d.backlog st y
        let j := { j with yard := y, rem := per.map fun p => (p.1, 2 * n * p.2) }
        let fits := decide (0 < s) && decide (q + x ≤ 64 * s)
        if !j.stash && dfield j.desc 0 15 1 = 1 then d.placeJob st i j
        else if fits then
          d.placeJob st i { j with booked := true, promise := d.now + BitVec.ofNat 48 (2 + ceilDiv (q + x) s) }
        else if j.stash then d.placeJob st i j
        else d.refuseJob st i j Status.admissionRefused 0

/-! ### Service and completion -/

/-- Place of job i among the accepted ones that satisfy p. -/
def rankAmong (l : List BarrowJob) (i : Nat) (p : BarrowJob → Bool) : Nat :=
  ((l.take i).filter fun j => j.accepted && p j).length

/-- Job i is in progress (R320): among the first four booked ones from frame a + 2 on, or among the first two
unbooked ones. -/
def inProgress (d : Device) (st : StallId) (i : Nat) : Bool :=
  let l := (d.stall st).barrow
  match l[i]? with
  | none => false
  | some j =>
    j.accepted &&
      if j.booked then decide (2 ≤ since d.now j.accept) && decide (rankAmong l i (·.booked) < 4)
      else decide (rankAmong l i (fun k => !k.booked) < 2)

/-- Job i may write its last byte: it is in progress, no earlier booked job of its yard is left before a booked
one, and stash operations of a slot end in order. -/
def mayComplete (d : Device) (st : StallId) (i : Nat) : Bool :=
  let l := (d.stall st).barrow
  match l[i]? with
  | none => false
  | some j =>
    d.inProgress st i &&
      !(l.take i).any fun k =>
        (k.accepted && j.booked && k.booked && k.yard = j.yard) || (j.stash && k.stash && k.slot = j.slot)

/-- The booked service of a stall in the frame that ends, at the least rate of R320 and at the share that holds in that
frame: S_y per channel in units of 1/n B, and half of it on a channel at level 2 (R313, R322). Service starts in frame
a + 2. -/
def serveBarrow (d : Device) (st : StallId) : Device :=
  if !(d.stall st).barrow.any (·.booked) then d
  else
    let l := (d.stall st).barrow
    let r := (List.range l.length).foldl (fun (a : List BarrowJob × List (Nat × Nat)) i =>
      match l[i]? with
      | none => a
      | some j =>
        if j.booked && d.inProgress st i then
          let t := j.rem.foldl (fun (b : List (Chan × Nat) × List (Nat × Nat)) p =>
            let m := d.mc[p.1]
            let key := p.1.val
            let cap := if m.state = .offline then p.2 else (if m.level = 2 then 1 else 2) * d.share st j.yard
            let used := (mapGet b.2 key).getD 0
            let take := min p.2 (cap - used)
            (b.1 ++ [(p.1, p.2 - take)], mapInsert b.2 key (used + take))) ([], a.2)
          (a.1 ++ [{ j with rem := t.1 }], t.2)
        else (a.1 ++ [j], a.2)) ([], [])
    d.modStall st fun s => { s with barrow := r.1 }

/-- LATE and its frames for the booked jobs of a stall with charge left on channel c (R322); lvl is the level
that each channel has from this frame on. -/
def reassessBarrow (d : Device) (st : StallId) (c : Chan) (lvl : Chan → Nat) : Device :=
  (List.range (d.stall st).barrow.length).foldl (fun d i =>
    let l := (d.stall st).barrow
    match l[i]? with
    | none => d
    | some j =>
      if j.booked && j.late.isNone && j.rem.any fun p => p.1 = c && p.2 ≠ 0 then
        let s := d.share st j.yard
        let q := (((l.take i).filter fun k => k.booked && k.yard = j.yard).map fun k => maxOf k.rem).sum
        let top := j.rem.foldl (fun a p => max a ((if lvl p.1 = 2 then 2 else 1) * p.2)) 0
        let k := ceilDiv (q + top) (2 * s) - since j.promise d.now
        if k = 0 then d
        else
          let d := d.setJob st i { j with late := some (j.promise + BitVec.ofNat 48 k) }
          d.barrowNotice st j Status.late Status.memThermalLate k
            (if j.stash then (j.moves.map Move.bytes).sum else barrowTotal j.desc) 0
      else d) d

/-- The moves of a job, in order, up to a number of bytes: the failed units and the bytes that failed. -/
def runMoves (d : Device) (st : StallId) (j : BarrowJob) (bytes : Nat) : Device × List (Nat × MemRes) × Nat :=
  let r := (d.movesOf st j).foldl (fun (a : Device × List (Nat × MemRes) × Nat × Nat) m =>
    let n := min m.bytes a.2.2.2
    let named := if j.stash then !ownLoft st m.dst else j.put
    let (d, bad) := a.1.moveRow m.src m.dst n j.booked named
    let base := if named then m.dst else m.src
    let lost := (bad.map fun p => overlapBytes base n p.1).sum
    (d, a.2.1 ++ bad, a.2.2.1 + lost, a.2.2.2 - n)) (d, [], 0, bytes)
  (r.1, r.2.1, r.2.2.1)

/-- Job i writes its last byte and posts its notice (R323, R325). -/
def completeJob (d : Device) (st : StallId) (i : Nat) (j : BarrowJob) : Device :=
  let total := ((d.movesOf st j).map Move.bytes).sum
  let (d, bad, lost) := d.runMoves st j total
  let d := match j.close with
    | some (q, sp, dr) => d.engModify st j.slot (dfield j.desc 1 0 32) 64 fun b =>
        b.take 0x24 ++ leBytes 4 q.toNat ++ leBytes 4 sp.toNat ++ leBytes 4 dr.toNat ++ b.drop 0x30
    | none => d
  let lp6 := !(d.rangesOf st j).isEmpty
  let code :=
    (failCode bad).getD
      (if j.stash && j.stashCode ≠ Status.done then j.stashCode
       else if j.stash && !lp6 then Status.done
       else if j.booked then Status.done else Status.unbookedDone)
  let d := d.dropJob st i
  if j.late.isSome then d else d.barrowNotice st j code 0 0 (total - lost) ((bad.head?.map Prod.fst).getD 0)

/-- Step 1 of R85: what the barrow of a stall has promised by the end of the frame that ends is delivered in it, a LATE
descriptor by the end of frame p + k (R75, R76). -/
def keepPromises (d : Device) (st : StallId) : Device :=
  let due (d : Device) (j : BarrowJob) : Bool := j.booked && (j.late.getD j.promise) = d.now
  ((d.stall st).barrow.filter (due d)).foldl (fun d _ =>
    let l := (d.stall st).barrow
    match l.findIdx? (due d) with
    | some i =>
      match l[i]? with
      | some j => d.completeJob st i j
      | none => d
    | none => d) d

/-- The stall that a stall-in-shed of a shed names. -/
def stallOf (shed : Fin 24) (s : Nat) : StallId := Fin.ofNat 384 (16 * shed.val + s % 16)

/-- A write of BARROW_ABORT (R324): moved bytes of the descriptor had been written when it came. Once its last byte is
written the descriptor is committed, and it ends as it would have. -/
def barrowAbort (d : Device) (shed : Fin 24) (v : W32) (moved : Nat) : Device :=
  let st := stallOf shed (field v 0 4)
  let sl : Slot := if flag v 4 then .paddock else .primary
  let p : Page := ⟨.shed, shed⟩
  let l := (d.stall st).barrow
  let answer (d : Device) (c : Code) : Device := (d.setPreg p 0x204 (c.setWidth 32)).record p c
  match l.findIdx? fun j => j.slot = sl && dfield j.desc 0 56 8 = field v 8 8 && j.late.isNone && !j.firmware with
  | none => answer d Status.abortTooLate
  | some i =>
    match l[i]? with
    | none => d
    | some j =>
      let total := ((d.movesOf st j).map Move.bytes).sum
      let committed := decide (total ≤ moved) && total ≠ 0 && d.mayComplete st i
      let n := if d.inProgress st i then min moved (total - 1) else 0
      if committed then answer (d.completeJob st i j) Status.abortTooLate
      else
        let (d, bad, lost) := d.runMoves st j n
        let d := (d.dropJob st i).barrowNotice st j Status.aborted 0 0 (n - lost) ((bad.head?.map Prod.fst).getD 0)
        answer d Status.aborted

end Device

/-! ### The commands -/

def execBget (st : StallId) (m : MFormat) (s : State) : Host.Outcome State Fault Refusal :=
  .next (s.onDev fun d => d.issue st 1 fun d => d.barrowIssue st false m (Coeri.firstWord (.bget st m)))

def execBput (st : StallId) (m : MFormat) (s : State) : Host.Outcome State Fault Refusal :=
  .next (s.onDev fun d => d.issue st 1 fun d => d.barrowIssue st true m (Coeri.firstWord (.bput st m)))

/-- A BGET or BPUT whose descriptor is a stash OPEN (R288). -/
def execStashOpen (st : StallId) (put : Bool) (m : MFormat) (s : State) : Host.Outcome State Fault Refusal :=
  .next (s.onDev fun d => d.issue st 1 fun d => d.barrowIssue st put m (Coeri.firstWord (.stashOpen st put m)))

def execStashPut (st : StallId) (put : Bool) (m : MFormat) (s : State) : Host.Outcome State Fault Refusal :=
  .next (s.onDev fun d => d.issue st 1 fun d => d.barrowIssue st put m (Coeri.firstWord (.stashPut st put m)))

def execStashGet (st : StallId) (put : Bool) (m : MFormat) (s : State) : Host.Outcome State Fault Refusal :=
  .next (s.onDev fun d => d.issue st 1 fun d => d.barrowIssue st put m (Coeri.firstWord (.stashGet st put m)))

def execStashFree (st : StallId) (put : Bool) (m : MFormat) (s : State) : Host.Outcome State Fault Refusal :=
  .next (s.onDev fun d => d.issue st 1 fun d => d.barrowIssue st put m (Coeri.firstWord (.stashFree st put m)))

def execStashClose (st : StallId) (put : Bool) (m : MFormat) (s : State) : Host.Outcome State Fault Refusal :=
  .next (s.onDev fun d => d.issue st 1 fun d => d.barrowIssue st put m (Coeri.firstWord (.stashClose st put m)))

/-- The barrow takes its n-th outstanding descriptor up, once the earlier ones of its slot are accepted
(R317). -/
def execBarrowAccept (st : StallId) (n : Nat) (s : State) : Host.Outcome State Fault Refusal :=
  .next (s.onDev fun d =>
    let l := (d.stall st).barrow
    match l[n]? with
    | some j =>
      if j.accepted || (l.take n).any fun k => !k.accepted && k.slot = j.slot then d else d.acceptJob st n j
    | none => d)

/-- The n-th outstanding descriptor writes its last byte (R320, R323). -/
def execBarrowComplete (st : StallId) (n : Nat) (s : State) : Host.Outcome State Fault Refusal :=
  .next (s.onDev fun d =>
    match ((d.stall st).barrow)[n]? with
    | some j => if d.mayComplete st n then d.completeJob st n j else d
    | none => d)

/-- BARROW_ABORT is a command register that gate firmware and the host may write. -/
def execBarrowAbort (_who : Requester) (shed : Fin 24) (v : W32) (moved : Nat) (s : State) :
    Host.Outcome State Fault Refusal :=
  .next (s.onDev fun d => if d.serving then d.barrowAbort shed v moved else d)

end Sys2Proof.Machine
end

