-- ==== Sys2Proof/Machine/Wire.lean ====
section
/-! DEFINITION. A flit as its 256 bytes: the header word, the payload and the CRC-64 (R335 to R337), and the lanes that carry
it (R334, R365). -/

namespace Sys2Proof.Machine

/-- Header word of a flit (R337). -/
def Flit.headWord (f : Flit) : Nat :=
  f.ftype.toNat * 2 ^ 60 + f.vc.toNat * 2 ^ 57 + bitAt f.hdr.replay 56 + f.hdr.seq.toNat * 2 ^ 44 + f.hdr.ack.toNat * 2 ^ 32
    + f.hdr.cvc.toNat * 2 ^ 29 + f.hdr.ccount.toNat * 2 ^ 20 + f.tag.toNat

/-- One byte of the CRC-64 of R336, most significant bit first. -/
def crcByte (c : W64) (b : Byte) : W64 :=
  (List.range 8).foldl (fun c _ => if c.msb then (c <<< 1) ^^^ 0x42F0_E1EB_A9EA_3693 else c <<< 1) (c ^^^ (b.setWidth 64 <<< 56))

/-- The CRC-64 of some bytes: from all ones, inverted at the end. -/
def crc64 (bs : List Byte) : W64 := ~~~(bs.foldl crcByte (BitVec.allOnes 64))

/-- Bytes 0 to 247 of a flit. -/
def Flit.body (f : Flit) : List Byte := leBytes 8 (Flit.headWord f) ++ padTo 240 f.payload

/-- The 256 bytes of a flit, with some bits of its CRC inverted. -/
def Flit.image (f : Flit) (damage : W64) : List Byte := Flit.body f ++ leBytes 8 (crc64 (Flit.body f) ^^^ damage).toNat

/-- The CRC of 256 received bytes holds. -/
def crcHolds (bs : List Byte) : Bool := leNat ((bs.drop 248).take 8) = (crc64 (bs.take 248)).toNat

/-- The control types of R352. -/
def controlTypes : List Nat := [0x01, 0x02, 0x03, 0x04, 0x05, 0x10, 0x11, 0x20, 0x21, 0x30, 0x31, 0x32, 0x3F]

namespace Port

/-- The active lane that the next flit takes, round-robin (R334). -/
def nextLane (q : Port) : Option (Fin 17) :=
  let l := (finList 17).filter fun (i : Fin 17) => flag q.tx.active i
  (l.find? fun i => decide (q.lane ≤ i.val)) <|> l.head?

/-- The lanes that carry the flit of a lane in a frame: the spare too while a planned swap mirrors it (R365). -/
def carriers (q : Port) (i : Fin 17) (now : Frame) : BitVec 17 :=
  let own := setBit (0 : BitVec 17) i
  match q.swapTx with
  | some w => if w.lane = i && !w.lost && w.frame ≠ 0 && decide (w.frame - 1 ≤ now) then setBit own w.spare else own
  | none => own

end Port

end Sys2Proof.Machine
end

