-- ==== Sys2Proof/Machine/PortOps.lean ====
section
/-! DEFINITION. What a torus port sends: capacity, credits, the payloads of link control, replays and idle flits (R339 to
R350, R352). -/

namespace Sys2Proof.Machine

/-- Set bits of a lane map. -/
def lanes (m : BitVec 17) : Nat := ((List.range 17).filter fun i => flag m i).length

/-- SEQ a lies n places behind b, modulo 4,096. -/
def behind (a b : Seq) : Nat := (b - a).toNat

/-- SEQ b comes after a. -/
def ahead (a b : Seq) : Bool := decide (0 < behind a b) && decide (behind a b < 2048)

namespace Port

/-- UP or SLOW. -/
def linked (q : Port) : Bool := q.state = .up || q.state = .slow

/-- The port runs a bring-up phase. -/
def rising (q : Port) : Bool := q.state = .training || q.state = .negotiating || q.state = .identifying

/-- The port exchanges flits with its partner: it is past lane training and not fenced. -/
def talking (q : Port) : Bool := q.linked || q.state = .negotiating || q.state = .identifying

/-- Flit slots of a lane per frame (R332). -/
def laneSlots (q : Port) : Nat := if q.rateFb then 500 else 1000

/-- Flit slots per frame on the active lanes, and bookable slots, which are computed on L − 1 lanes (R339). -/
def slotsPerFrame (q : Port) : Nat := q.laneSlots * lanes q.tx.active
def bookable (q : Port) : Nat := q.laneSlots * (q.width.toNat - 1) - 512

/-- CREDIT_LOOP in ps, and the credit limit of a VC (R346). -/
def creditLoop (q : Port) : Nat := q.rtt + 400000
def creditLimit (q : Port) (v : Nat) : Nat := vget q.adv v 0 * 10240000 / q.creditLoop

/-- Flits of a VC sent and not acknowledged, or reported lost and not yet replayed. -/
def outstanding (q : Port) (v : Nat) : Nat :=
  (q.unacked.filter fun u =>
    decide (u.flit.vc.toNat = v) && (!u.replayed || ahead q.acked u.flit.hdr.seq)).length

/-- Feature bit i is in the common set. -/
def has (q : Port) (i : Nat) : Bool := flag q.features i

/-- A flit waits on a VC. -/
def push (q : Port) (v : Nat) (w : Waiting) : Port := { q with queue := vset q.queue v (vget q.queue v [] ++ [w]) }

/-- A CONTROL flit waits on VC0. -/
def control (q : Port) (ctl : Nat) (payload : List Byte) : Port :=
  q.push 0 { ftype := 2, tag := BitVec.ofNat 20 (ctl * 4096), payload := padTo 240 payload, booked := false }

/-- A NAK for each SEQ reported lost, 16 at most per flit: the values, then their count at byte 32. -/
def nakFlits (q : Port) (lost : List Seq) : Port :=
  (chunksOf 16 lost.length lost).foldl (fun q l =>
    q.control 0x20 (padTo 32 (l.flatMap fun s => leBytes 2 s.toNat) ++ [BitVec.ofNat 8 l.length])) q

/-- The credits that the next header returns: those of the lowest VC with any to return. -/
def returns (q : Port) : Port × Nat × Nat :=
  match (List.range 6).find? fun v => vget q.owed v 0 ≠ 0 with
  | none => (q, 0, 0)
  | some v =>
    let n := min 511 (vget q.owed v 0)
    ({ q with owed := vset q.owed v (vget q.owed v 0 - n), granted := vset q.granted v (vget q.granted v 0 + n) }, v, n)

/-- The header of a flit sent now, with the credits that it returns. -/
def header (q : Port) (seq : Seq) (replay : Bool) : Port × FlitHeader :=
  let (q, v, n) := q.returns
  (q, { replay := replay, seq := seq, ack := q.ack, cvc := BitVec.ofNat 3 v, ccount := BitVec.ofNat 9 n })

/-- A credit and a place among the unacknowledged flits let VC v send. -/
def maySend (q : Port) (v : Nat) : Bool := vget q.held v 0 ≠ 0 && decide (q.unacked.length < 2048)

/-- Waiting flit i of VC v is sent for the first time in frame f (R345, R348). -/
def sendFirst (q : Port) (v i : Nat) (w : Waiting) (f : Frame) : Port × Flit :=
  let (q, h) := q.header q.nextSeq false
  let fl : Flit := { ftype := w.ftype, vc := BitVec.ofNat 3 v, hdr := h, tag := w.tag, payload := w.payload }
  ({ q with
      nextSeq := q.nextSeq + 1
      held := vset q.held v (vget q.held v 0 - 1)
      unacked := q.unacked ++ [{ flit := fl, first := f, naked := false, due := false, replayed := false }]
      queue := vset q.queue v ((vget q.queue v []).eraseIdx i)
      sent0 := q.sent0 + b2n (v = 0)
      spoke := q.spoke || v = 0
      bookedSent := if w.booked then vset q.bookedSent v (vget q.bookedSent v 0 + 1) else q.bookedSent
      round := vset q.round v (vget q.round v 0 + 1) }, fl)

/-- A flit is sent again (R350). -/
def sendReplay (q : Port) (u : Unacked) : Port × Flit :=
  let (q, h) := q.header u.flit.hdr.seq true
  let fl : Flit := { u.flit with hdr := h }
  ({ q with
      unacked := modifyFirst (fun x => x.flit.hdr.seq = u.flit.hdr.seq) (fun x => { x with replayed := true }) q.unacked
      replaysSent := q.replaysSent + 1
      spoke := q.spoke || u.flit.vc = 0 }, fl)

/-- The 240 bytes of an IDLE flit (R335): the manual leaves them open. -/
def idlePayload : List Byte := (List.range 240).map Config.idleByte

/-- An IDLE flit (R338, R348). -/
def idle (q : Port) : Port × Flit :=
  let (q, h) := q.header q.nextSeq false
  (q, { ftype := 0, vc := 0, hdr := h, tag := 0, payload := idlePayload })

/-- The IDLE flit of a fenced port: no ACK and no credit (R369). -/
def bareIdle (q : Port) : Flit :=
  { ftype := 0, vc := 0, hdr := { replay := false, seq := q.nextSeq, ack := 0, cvc := 0, ccount := 0 }, tag := 0
    payload := idlePayload }

/-- The VC that weighted round-robin takes next among some candidates in ascending order, and the port with
its round counts: VC v sends at most weight v flits in a round (R341). -/
def roundRobin (q : Port) (weight : Nat → Nat) (cand : List Nat) : Option (Port × Nat) :=
  match cand.find? fun v => decide (vget q.round v 0 < weight v) with
  | some v => some (q, v)
  | none => cand.head?.map fun v => ({ q with round := Vector.replicate 6 0 }, v)

end Port

/-- The payload of HELLO (R353). -/
def helloBytes (h : Hello) : List Byte :=
  leBytes 2 h.verMax.toNat ++ leBytes 2 h.verMin.toNat ++ leBytes 4 h.features.toNat ++ leBytes 8 h.deviceId.toNat
    ++ leBytes 1 h.port.toNat ++ leBytes 1 (b2n h.ident) ++ h.credAdv.flatMap (leBytes 2)
    ++ leBytes 1 (h.lanes.toNat + bitAt h.slowRate 5)

namespace Device

/-- VC_WEIGHT and VC_BOOK of a port, and its advertised receive buffers. -/
def weight (d : Device) (p : PortId) (v : Nat) : Nat :=
  if v = 5 then d.pfield (Page.port p) 0x114 0 8 else d.pfield (Page.port p) 0x110 (8 * (v - 1)) 8

def book (d : Device) (p : PortId) (v : Nat) : Nat := d.pfield (Page.port p) (0x140 + 4 * (v - 1)) 0 16

def credAdv (d : Device) (p : PortId) (v : Nat) : Nat :=
  if v = 0 then 64 else d.pfield (Page.port p) (0x118 + (v - 1) / 2 * 4) ((v - 1) % 2 * 16) 16

/-- A flit leaves a port on its next lane (R334); an armed injection breaks the CRC of the next DATA flit of its port
(R555). -/
def emit (d : Device) (p : PortId) (f : Flit) : Device :=
  let ctl := d.preg Page.tally 0x13C
  let hit := d.tally.armed && !d.tally.hit && f.ftype = 1 && field ctl 0 4 = 3 && field (d.preg Page.tally 0x140) 0 3 = p.val
  let q := d.ports[p]
  let carried : BitVec 17 := (q.nextLane.map fun i => q.carriers i d.now).getD 0
  let d := d.modPort p fun q => { q with lane := (q.nextLane.map fun i => i.val + 1).getD q.lane }
  { d with
    out := { d.out with
      wire := d.out.wire.set p (some f)
      wireBytes := d.out.wireBytes.set p (Flit.image f (if hit then Config.crcDamage d.free ||| 1 else 0))
      wireLanes := d.out.wireLanes.set p carried }
    tally := if hit then { d.tally with hit := true } else d.tally }

/-- A CONTROL flit waits at a port. -/
def controlFlit (d : Device) (p : PortId) (ctl : Nat) (payload : List Byte) : Device :=
  d.modPort p fun q => q.control ctl payload

end Device

end Sys2Proof.Machine
end

