-- ==== Sys2Proof/Machine/Sha.lean ====
section
/-! DEFINITION. SHA-256, which the manual names for signatures of team operations, key hashes and measurements
(R360, R392, R530). -/

namespace Sys2Proof.Machine

namespace Sha

/-- The first 64 primes, from which FIPS 180-4 takes SHA-256's constants. -/
def primes : List Nat :=
  [2, 3, 5, 7, 11, 13, 17, 19, 23, 29, 31, 37, 41, 43, 47, 53, 59, 61, 67, 71, 73, 79, 83, 89, 97, 101, 103, 107, 109,
   113, 127, 131, 137, 139, 149, 151, 157, 163, 167, 173, 179, 181, 191, 193, 197, 199, 211, 223, 227, 229, 233, 239,
   241, 251, 257, 263, 269, 271, 277, 281, 283, 293, 307, 311]

/-- The largest r′ ≥ r with r′ ^ k ≤ n, among those that differ from r in the low bits only: one bit at a time. -/
def rootFrom (k n : Nat) : Nat → Nat → Nat
  | 0, r => r
  | b + 1, r => rootFrom k n b (if (r + 2 ^ b) ^ k ≤ n then r + 2 ^ b else r)

/-- The first 32 bits of the fractional part of the k-th root of p; its whole part is below 16. -/
def rootFraction (k p : Nat) : Nat := rootFrom k (p * 2 ^ (32 * k)) 36 0 % 2 ^ 32

/-- The constants of the 64 rounds: cube roots. -/
def roundConstants : List Nat := primes.map (rootFraction 3)

/-- The initial hash value: square roots of the first eight primes. -/
def start : Vector W32 8 := Vector.ofFn fun i : Fin 8 => BitVec.ofNat 32 (rootFraction 2 ((primes[i.val]?).getD 0))

/-- The message schedule, newest word first, grown by n words from the 16 of a block. -/
def grow : Nat → List W32 → List W32
  | 0, w => w
  | n + 1, w =>
    let g (i : Nat) : W32 := (w[i]?).getD 0
    let s0 := (g 14).rotateRight 7 ^^^ (g 14).rotateRight 18 ^^^ (g 14) >>> 3
    let s1 := (g 1).rotateRight 17 ^^^ (g 1).rotateRight 19 ^^^ (g 1) >>> 10
    grow n ((g 15 + s0 + g 6 + s1) :: w)

/-- One round with schedule word and constant kw added. -/
def round (v : Vector W32 8) (kw : W32) : Vector W32 8 :=
  let s1 := v[4].rotateRight 6 ^^^ v[4].rotateRight 11 ^^^ v[4].rotateRight 25
  let ch := (v[4] &&& v[5]) ^^^ (~~~v[4] &&& v[6])
  let t1 := v[7] + s1 + ch + kw
  let s0 := v[0].rotateRight 2 ^^^ v[0].rotateRight 13 ^^^ v[0].rotateRight 22
  let maj := (v[0] &&& v[1]) ^^^ (v[0] &&& v[2]) ^^^ (v[1] &&& v[2])
  #v[t1 + s0 + maj, v[0], v[1], v[2], v[3] + t1, v[4], v[5], v[6]]

/-- One block of 64 B. -/
def block (h : Vector W32 8) (b : List Byte) : Vector W32 8 :=
  let w := (List.range 16).map fun i => BitVec.ofNat 32 (beNat ((b.drop (4 * i)).take 4))
  let ws := (grow 48 w.reverse).reverse
  let v := (ws.zip roundConstants).foldl (fun v p => round v (p.1 + BitVec.ofNat 32 p.2)) h
  Vector.ofFn fun i : Fin 8 => h[i] + v[i]

/-- The padded message: a set bit, zeros, and the length in bits. -/
def padded (m : List Byte) : List Byte :=
  m ++ 0x80 :: List.replicate ((119 - m.length % 64) % 64) 0 ++ beBytes 8 (8 * m.length)

/-- The digest of 32 B. -/
def sha256 (m : List Byte) : List Byte :=
  let p := padded m
  ((chunksOf 64 p.length p).foldl block start).toList.flatMap fun w => beBytes 4 w.toNat

/-- HMAC-SHA-256 with a key of at most 64 B. -/
def hmac (key m : List Byte) : List Byte :=
  let k := padTo 64 key
  sha256 ((k.map (· ^^^ 0x5c)) ++ sha256 ((k.map (· ^^^ 0x36)) ++ m))

end Sha

end Sys2Proof.Machine
end

