-- ==== Sys2Proof/Machine/TeamOps.lean ====
section
/-! DEFINITION. Teams: the record, ranks and routes, the legs of an operation and its bound, team control flits,
what an operation does to sidings and notices when it ends, and the loss of a team (R375 to R382, R385, R386,
R390 to R392, R397, R399, R403, R408, R410). -/

namespace Sys2Proof.Machine

/-- A leg: ranks of source and destination, whether it runs in the − direction, its bytes and the links that it
crosses. -/
structure Leg where
  src : Nat
  dst : Nat
  neg : Bool
  bytes : Nat
  links : Nat
deriving DecidableEq, Repr

namespace Team

/-! ### The record (R375, R376) -/

def members (t : Team) : List Nat := below 16 fun k => dfield t.record 0 (16 + k) 1 = 1
def pos (t : Team) : Nat := dfield t.record 0 12 4
def ring (t : Team) : Nat := dfield t.record 0 8 4 + 1
def axis (t : Team) : Nat := dfield t.record 0 6 2
def vc (t : Team) : Nat := dfield t.record 0 3 3
def size (t : Team) : Nat := t.members.length
def lp6Res (t : Team) (y : Nat) : Nat := dfield t.record 2 (32 * y) 32
def bridgeRes (t : Team) : Nat := dfield t.record 3 0 32
def hsLimit (t : Team) : Nat := dfield t.record 3 32 16

/-- Booked payload bytes per frame, and flits per frame, in a direction (R378). -/
def booking (t : Team) (neg : Bool) : Nat := dfield t.record 1 (if neg then 32 else 0) 32
def flits (t : Team) (neg : Bool) : Nat := ceilDiv (t.booking neg) 240

/-- This device's rank; a forwarder has none. -/
def rank? (t : Team) : Option Nat := t.members.findIdx? (· = t.pos)
def rank (t : Team) : Nat := t.rank?.getD 0

/-- Axis position of a rank. -/
def posOf (t : Team) (r : Nat) : Nat := (t.members[r]?).getD 0

/-- The team stands in its table slot: only a FREE or PENDING slot is not set up (R370, R381). -/
def setUp (t : Team) : Bool := t.state = .active || t.state = .severed || t.state = .broken

/-! ### Routes and legs (R385, R386, R399, R415) -/

/-- Links from position a to b in a direction. -/
def dist (t : Team) (neg : Bool) (a b : Nat) : Nat := if neg then (a + t.ring - b) % t.ring else (b + t.ring - a) % t.ring

/-- The shorter way between two positions; a tie goes in the + direction. -/
def shorter (t : Team) (a b : Nat) : Bool := decide (t.ring < 2 * t.dist false a b)

/-- The legs of an operation descriptor with its counts and permutation. -/
def legs (t : Team) (x : Vector W64 8) (counts perm : List Nat) : List Leg :=
  let op := dfield x 0 52 4
  let leg (r dst : Nat) (neg : Bool) : Leg :=
    let b := (counts[r]?).getD 0
    ⟨r, dst, neg, b, if b = 0 then 0 else t.dist neg (t.posOf r) (t.posOf dst)⟩
  let way (r dst : Nat) : Bool := t.shorter (t.posOf r) (t.posOf dst)
  if op = 0 then
    let neg := dfield x 0 41 1 = 1
    (List.range t.size).map fun r => leg r (if neg then (r + t.size - 1) % t.size else (r + 1) % t.size) neg
  else if op = 1 then
    (List.range t.size).map fun r => let dst := (perm[r]?).getD 0; leg r dst (way r dst)
  else let a := dfield x 0 12 4; let b := dfield x 0 16 4; [leg a b (way a b)]

/-- Most payload bytes that the legs place on one link in a direction. -/
def load (t : Team) (l : List Leg) (neg : Bool) : Nat :=
  ((List.range t.ring).map fun k =>
    ((l.filter fun g => g.neg = neg && decide (t.dist neg (t.posOf g.src) k < g.links)).map Leg.bytes).sum).foldl max 0

/-- hops and bound of R399. -/
def hops (l : List Leg) : Nat := (l.map Leg.links).foldl max 0
def bound (t : Team) (l : List Leg) : Nat :=
  2 + max (ceilDiv (t.load l false) (t.booking false)) (ceilDiv (t.load l true) (t.booking true)) + hops l

/-- The ordered pair of a SEND (R391, R394). -/
def sendPair (x : Vector W64 8) : Option (BitVec 4 × BitVec 4) :=
  if dfield x 0 52 4 = 2 then some (BitVec.ofNat 4 (dfield x 0 12 4), BitVec.ofNat 4 (dfield x 0 16 4)) else none

/-- The rank that starts COLLECT, VERDICT and COMPLETE: the leader, or the sender of a SEND (R394). -/
def starterOf (x : Vector W64 8) : Nat := if dfield x 0 52 4 = 2 then dfield x 0 12 4 else 0

/-- The turntable entry and signature input of R392. -/
def signature (t : Team) (x : Vector W64 8) (seq : W32) (counts perm : List Nat) : W64 :=
  let op := dfield x 0 52 4
  let m := leBytes 4 (dfield t.record 0 32 32) ++ leBytes 4 seq.toNat
    ++ [BitVec.ofNat 8 op, BitVec.ofNat 8 (dfield x 0 48 4), BitVec.ofNat 8 (dfield x 0 41 1),
        BitVec.ofNat 8 (if op = 2 then dfield x 0 12 4 + 16 * dfield x 0 16 4 else 0)]
    ++ (if op = 1 then (padTo 16 (perm.map (BitVec.ofNat 8))) else List.replicate 16 0)
    ++ counts.flatMap (leBytes 4)
  BitVec.ofNat 64 (leNat ((Sha.sha256 m).take 8))

end Team

namespace TeamOp

def desc (o : TeamOp) : Vector W64 8 := o.job.desc
def nobook (o : TeamOp) : Bool := dfield o.desc 0 40 1 = 1
def land (o : TeamOp) : Bool := dfield o.desc 0 39 1 = 1
def sidingIdx (o : TeamOp) : Fin 8 := Fin.ofNat 8 (dfield o.desc 0 36 3)
def mbx (o : TeamOp) : Fin 8 := Device.noticeMbx o.desc

def legs (o : TeamOp) (t : Team) : List Leg := t.legs o.desc o.counts o.perm

/-- The leg that starts here, and the one that ends here. -/
def outLeg (o : TeamOp) (t : Team) : Option Leg := (o.legs t).find? fun g => g.src = t.rank && g.bytes ≠ 0
def inLeg (o : TeamOp) (t : Team) : Option Leg := (o.legs t).find? fun g => g.dst = t.rank && g.bytes ≠ 0

/-- The legs that start and end here, one of no bytes among them: META and the receipt step know them too (R385, R399). -/
def sends (o : TeamOp) (t : Team) : Option Leg := (o.legs t).find? (·.src = t.rank)
def receives (o : TeamOp) (t : Team) : Option Leg := (o.legs t).find? (·.dst = t.rank)

/-- Bytes that this member sends, and receives. -/
def outBytes (o : TeamOp) (t : Team) : Nat := ((o.outLeg t).map Leg.bytes).getD 0
def inBytes (o : TeamOp) (t : Team) : Nat := ((o.inLeg t).map Leg.bytes).getD 0

/-- Frame p has begun (R399); an unbooked operation has none. -/
def due (o : TeamOp) (now : Frame) : Bool :=
  !o.nobook && o.accept.any fun a => Device.since o.promise a ≤ Device.since now a

/-- Frame a + n has begun. -/
def reached (o : TeamOp) (now : Frame) (n : Nat) : Bool := o.accept.any fun a => n ≤ Device.since now a

/-- The member's own data is sent, landed and through its receipt step (R400). -/
def complete (o : TeamOp) (t : Team) : Bool :=
  o.sentBytes = o.outBytes t && o.posted = o.chunks && o.receiptDone

/-- A COLLECT flit is this operation's own, as its starter sent it out (R394). -/
def owns (o : TeamOp) (c : CollectFlit) : Bool :=
  c.send = Team.sendPair o.desc && c.seq = o.job.seq && c.signature = o.signature

/-- A COLLECT flit asks for the operation that this member has decided: not one of another SEND, which waits for a later
decision (R391, R394; DEDUCED, log 51). -/
def asks (o : TeamOp) (c : CollectFlit) : Bool :=
  c.send = Team.sendPair o.desc || c.send.isNone || (Team.sendPair o.desc).isNone

/-- The member is still bound to an operation whose single status it has not reached. -/
def live (o : TeamOp) : Bool := o.refused.isNone && !o.committed

/-- No byte of the operation moves any more: it never ran, was aborted or failed (R396, R403, R407). Under every other
status its legs go on to their end (R401, R411). -/
def stopped (o : TeamOp) : Bool := !o.go || (!o.live && (o.worst = Status.aborted || o.worst = Status.memberFault))

end TeamOp

/-- The operation that the VERDICT, META, COMPLETE and COMMIT flits of a team are of. While this device passes a SEND of other
members on, they are that SEND's: an operation of all members waits until it has ended (R393; DEDUCED, log 51). -/
def Team.taking (m : Team) : Option TeamOp := m.op.filter fun o => m.through = 0 || (Team.sendPair o.desc).isSome

namespace Device

def team (d : Device) (y : Yard) (t : Fin 64) : Team := d.drovers[y].teams[t]

/-- The operation of a team changes. -/
def modOp (d : Device) (y : Yard) (t : Fin 64) (f : TeamOp → TeamOp) : Device :=
  d.modTeam y t fun m => { m with op := m.op.map f }

/-- The ports of a team in the + and the − direction: those of its axis on the drover's yard. -/
def teamPort (d : Device) (y : Yard) (t : Fin 64) (neg : Bool) : PortId :=
  Fin.ofNat 8 (4 * y.val + 2 * ((d.team y t).axis % 2) + b2n neg)

/-! ### Sidings (R389, R390) -/

def siding (d : Device) (st : StallId) (sl : Slot) (i : Fin 8) : Option Siding :=
  ((d.sidings.find? fun p => p.1 = (st, sl, i)).map Prod.snd)

def setSiding (d : Device) (st : StallId) (sl : Slot) (i : Fin 8) (s : Siding) : Device :=
  { d with sidings := (d.sidings.filter fun p => p.1 ≠ (st, sl, i)) ++ [((st, sl, i), s)] }

def dropSiding (d : Device) (st : StallId) (sl : Slot) (i : Fin 8) : Device :=
  { d with sidings := d.sidings.filter fun p => p.1 ≠ (st, sl, i) }

def sidingTally (st : StallId) (sl : Slot) (i : Fin 8) : Nat := 0x0200_0000 + st.val * 16 + (match sl with
  | .primary => 0
  | .paddock => 8) + i.val

def chunkTally (y : Yard) (t : Fin 64) : Nat := 0x0800_0000 + y.val * 64 + t.val

/-- The siding that an operation lands in. -/
def opSiding (d : Device) (o : TeamOp) : Option Siding :=
  if o.land then d.siding o.job.stall o.job.slot o.sidingIdx else none

/-- Chunk size of an operation: the siding's, or 64 KiB where it lands DIRECT (R548). -/
def chunkSize (d : Device) (o : TeamOp) : Nat := max 1 (((d.opSiding o).map Siding.chunk).getD 65536)

/-- Bytes of chunk i of an incoming leg, and the siding slot that it takes. -/
def chunkBytes (d : Device) (y : Yard) (t : Fin 64) (o : TeamOp) (i : Nat) : Nat :=
  min (d.chunkSize o) (o.inBytes (d.team y t) - i * d.chunkSize o)

def chunkSlot (s : Siding) (o : TeamOp) (i : Nat) : Nat := (s.landNext + i - o.posted) % max 1 s.depth

/-- The DPA at which byte n of the incoming leg lands. -/
def landAt (d : Device) (o : TeamOp) (n : Nat) : Nat :=
  match d.opSiding o with
  | none => dfield o.desc 2 0 48
  | some s => d.slotAt o.job.stall o.job.slot (s.base + chunkSlot s o (n / s.chunk) * s.chunk)

/-- Pieces of n bytes of a leg from its byte off, as DPA, first byte and length: a siding's chunks lie apart. -/
def landPieces (d : Device) (o : TeamOp) (off n : Nat) : List (Nat × Nat × Nat) :=
  let c := d.chunkSize o
  if !o.land then [(dfield o.desc 2 0 48 + off, 0, n)]
  else if n = 0 then []
  else
    (List.range ((off + n - 1) / c - off / c + 1)).map fun k =>
      let i := off / c + k
      let lo := max off (i * c)
      (d.landAt o lo + (lo - i * c), lo - off, min (off + n) ((i + 1) * c) - lo)

/-- The source of an operation's own leg: SRC, or the DATA field of the shard descriptor that it names
(R384). -/
def sourceBase (d : Device) (o : TeamOp) : Nat :=
  if dfield o.desc 0 26 2 = 1 then leNat (d.rdBytes (dfield o.desc 1 0 48 + 8) 8) % 2 ^ 48 else dfield o.desc 1 0 48

/-! ### Team control flits (R380, R383) -/

/-- A team may use a link: it is up, and VC5 is in the common feature set (R356). -/
def teamLink (d : Device) (y : Yard) (t : Fin 64) (neg : Bool) : Bool :=
  let q : Port := d.ports[d.teamPort y t neg]
  q.linked && ((d.team y t).vc ≠ 5 || q.has 0)

/-- A waiting flit of a team, of payload (kind 0) or control (kind 1). -/
def isTeamFlit (t : Fin 64) (kind : Nat) (w : Waiting) : Bool := field w.tag 14 6 = t.val && field w.tag 8 2 = kind

/-- A team's flit waits at a port; ahead says that it goes before the team's payload. -/
def teamFlit (d : Device) (y : Yard) (t : Fin 64) (neg : Bool) (src kind : Nat) (poison booked ahead : Bool)
    (payload : List Byte) : Device :=
  let p := d.teamPort y t neg
  if d.teamLink y t neg then
    let tag := t.val * 2 ^ 14 + src * 2 ^ 10 + kind * 2 ^ 8 + bitAt poison 7
    let w : Waiting := { ftype := 1, tag := BitVec.ofNat 20 tag, payload := padTo 240 payload, booked := booked }
    let vc := (d.team y t).vc
    if ahead then
      d.modPort p fun q =>
        let l := vget q.queue vc []
        { q with queue := vset q.queue vc (l.takeWhile (!isTeamFlit t 0 ·) ++ w :: l.dropWhile (!isTeamFlit t 0 ·)) }
    else d.modPort p fun q => q.push vc w
  else d

/-- Frame p of the team's operation has begun: its control flits go ahead of its payload (R399). -/
def inFrameP (d : Device) (y : Yard) (t : Fin 64) : Bool := (d.team y t).op.any (·.due d.now)

/-- A control flit of a team, in the + direction. -/
def teamControl (d : Device) (y : Yard) (t : Fin 64) (booked : Bool) (payload : List Byte) : Device :=
  d.teamFlit y t false 0 1 false booked (d.inFrameP y t) payload

/-- A control flit of an operation is booked but for COMPLETE and COMMIT before frame p; a device that only passes them on
knows no p, and books neither (R399; DEDUCED, log 51). -/
def lateBooked (d : Device) (y : Yard) (t : Fin 64) : Bool := d.inFrameP y t

def sendCollect (d : Device) (y : Yard) (t : Fin 64) (c : CollectFlit) : Device :=
  let pair := match c.send with
    | some p => p.1.toNat + 16 * p.2.toNat
    | none => 0
  d.teamControl y t true ([1, BitVec.ofNat 8 (b2n c.matched + bitAt c.refused 1 + bitAt c.aborted 2 + bitAt c.send.isSome 3),
    c.rank.setWidth 8, BitVec.ofNat 8 pair] ++ leBytes 4 c.seq.toNat ++ leBytes 8 c.signature.toNat)

def sendVerdict (d : Device) (y : Yard) (t : Fin 64) (code : Code) (rank : BitVec 4) : Device :=
  d.teamControl y t true ([2, rank.setWidth 8] ++ leBytes 2 code.toNat)

def sendMeta (d : Device) (y : Yard) (t : Fin 64) (src : BitVec 4) (layer : BitVec 12) (shard : BitVec 16) (epoch : W32) :
    Device :=
  d.teamControl y t true ([3, src.setWidth 8] ++ leBytes 2 layer.toNat ++ leBytes 2 shard.toNat ++ leBytes 4 epoch.toNat)

def sendComplete (d : Device) (y : Yard) (t : Fin 64) (c : CompleteFlit) : Device :=
  d.teamControl y t (d.lateBooked y t) ([4, BitVec.ofNat 8 (b2n c.allComplete), c.rank.setWidth 8, 0]
    ++ leBytes 2 c.worst.toNat ++ leBytes 4 c.k)

def sendCommit (d : Device) (y : Yard) (t : Fin 64) (code : Code) (k : Nat) : Device :=
  d.teamControl y t (d.lateBooked y t) ([5, 0] ++ leBytes 2 code.toNat ++ leBytes 4 k)

def sendFail (d : Device) (y : Yard) (t : Fin 64) (code cause : Code) (rank : BitVec 4) : Device :=
  d.teamControl y t true ([6, rank.setWidth 8] ++ leBytes 2 code.toNat ++ leBytes 2 cause.toNat)

def sendSever (d : Device) (y : Yard) (t : Fin 64) (rank : BitVec 4) : Device :=
  d.teamControl y t true [7, rank.setWidth 8]

def sendAbort (d : Device) (y : Yard) (t : Fin 64) (rank : BitVec 4) : Device :=
  d.teamControl y t true [8, rank.setWidth 8]

/-- The DPA of the ledger that a CHECK gather names (R294, R295). -/
def checkLedger (d : Device) (j : DroveJob) : List Nat :=
  if dfield j.desc 0 34 2 = 2 then [d.slotAt j.stall j.slot (dfield j.desc 3 32 32)] else []

/-! ### The drover's queue entries -/

/-- Descriptors of a slot in the drover's queue: waiting, and on a team without a single status. -/
def droveQueued (d : Device) (st : StallId) (sl : Slot) : Nat :=
  (d.drovers[yardOf st].jobs.filter fun j => j.stall = st && j.slot = sl).length

def droveAccepted (d : Device) (st : StallId) (sl : Slot) : Nat :=
  (d.drovers[yardOf st].teams.toList.filter fun m => m.op.any fun o => o.live && o.job.stall = st && o.job.slot = sl).length

/-! ### Notices and the end of an operation -/

/-- The source code of a drover's notices (R114). -/
def droverSrc (y : Yard) : BitVec 9 := if y = 0 then 0x1FC else 0x1FD

/-- The completion notice of a job; K is 0 unless the status is LATE (R390). -/
def droveNotice (d : Device) (y : Yard) (j : DroveJob) (status cause : Code) (rank : BitVec 4) (k : Nat)
    (accept promise : Option Frame) (bytes : Nat) : Device :=
  d.post j.stall (noticeMbx j.desc) (droverSrc y)
    [dfield j.desc 0 56 8 * 2 ^ 56 + rank.toNat * 2 ^ 48
       + (if status = Status.late then k % 2 ^ 16 else 0) * 2 ^ 32 + cause.toNat * 2 ^ 16 + status.toNat,
     (accept.map BitVec.toNat).getD 0, (promise.map BitVec.toNat).getD 0, bytes, 0, j.seq.toNat]

/-- TEAM_ABORT_RES after an abort (R407). -/
def abortAnswer (d : Device) (y : Yard) (t : Fin 64) (c : Code) : Device :=
  ((d.modDrover y fun v => { v with abortRes := c }).modTeam y t fun m => { m with abortPending := false }).eventCode
    (Page.drover y) 3 c

/-- What an operation still holds of sidings, chunks and notice slots goes back (R396, R410, R551), counted as reclaimed
under its single status. -/
def reclaimOp (d : Device) (y : Yard) (t : Fin 64) (status : Code) : Device :=
  match (d.team y t).op with
  | none => d
  | some o =>
    let st := o.job.stall
    let left := o.chunks - o.posted
    let d := match d.opSiding o with
      | some s =>
        (d.setSiding st o.job.slot o.sidingIdx { s with reserved := s.reserved - left }).reclaim 2 status (Page.stall st)
          (sidingTally st o.job.slot o.sidingIdx) left
      | none => d
    let d := if o.go then d.reclaim 2 status (Page.drover y) (chunkTally y t) left else d
    let d := if o.job.reserved = 0 then d else d.releaseNotices st o.mbx o.job.reserved 2 status
    d.modOp y t fun o => { o with chunks := o.posted, job := { o.job with reserved := 0 } }

/-- The operation of a team leaves its team slot. -/
def closeOp (d : Device) (y : Yard) (t : Fin 64) (status : Code) : Device :=
  if (d.team y t).op.isNone then d
  else
    let d := d.reclaimOp y t status
    d.modTeam y t fun m => { m with op := none, phase := .idle, since := d.now }

/-- This member reaches the single status of its operation: the notice is written, OPS_DONE or OPS_FAILED
counts, and an abort that waits for it is answered (R400, R407). Where the status stops the legs, what the operation holds is
reclaimed with it (R551). The operation stays on its team while close is false. -/
def endOp (d : Device) (y : Yard) (t : Fin 64) (status cause : Code) (rank : BitVec 4) (k : Nat) (close : Bool) : Device :=
  match (d.team y t).op with
  | none => d
  | some o =>
    let d :=
      if o.live then
        let accept := if o.go then o.accept else none
        let d := d.droveNotice y o.job status cause rank k accept (if o.nobook || accept.isNone then none else some o.promise)
          o.gotBytes
        let d := d.modOp y t fun o => { o with committed := true, job := { o.job with reserved := o.job.reserved - 1 } }
        d.bump (Page.drover y) (if Status.completes status then 0x138 else 0x13C) 1
      else d
    let d :=
      if (d.team y t).abortPending then
        d.abortAnswer y t (if status = Status.aborted then Status.aborted else Status.abortTooLate)
      else d
    if close then d.closeOp y t status
    else if !o.go || status = Status.aborted || status = Status.memberFault then d.reclaimOp y t status
    else d

/-! ### Loss of a team (R403, R404, R408) -/

/-- A team changes to SEVERED or BROKEN, with the DROVER page's event: a BROKEN team is severed too, and a SEVERED one
stays so. No operation goes on. -/
def breakTeam (d : Device) (y : Yard) (t : Fin 64) (s : TeamState) : Device :=
  if (d.team y t).state = .active ∨ ((d.team y t).state = .broken ∧ s = .severed) then
    (d.modTeam y t fun m => { m with state := s, through := 0 }).eventCode (Page.drover y) 2
      (if s = .severed then Status.teamSevered else Status.memberFault)
  else d

/-- Every team whose ring uses a port is severed when the port leaves UP or SLOW: SEVER goes out on the team's
remaining link, and its pending operation reports TEAM_SEVERED. -/
def severPort (d : Device) (p : PortId) : Device :=
  let y : Yard := Fin.ofNat 2 (p.val / 4)
  (finList 64).foldl (fun d (t : Fin 64) =>
    let m := d.team y t
    if (m.state = .active || m.state = .broken) && m.axis = p.val / 2 then
      let d := d.breakTeam y t .severed
      let d := d.sendSever y t (BitVec.ofNat 4 (m.rank?.getD m.pos))
      d.endOp y t Status.teamSevered 0 0 0 true
    else d) d

/-- A member of a running operation finds a channel offline: FAIL with MEMBER_FAULT, its legs stop, and it
reports (R403). -/
def memberOffline (d : Device) (y : Yard) (t : Fin 64) : Device :=
  match (d.team y t).op with
  | some o =>
    if o.live then
      let r : BitVec 4 := BitVec.ofNat 4 (d.team y t).rank
      let d := (d.sendFail y t Status.memberFault Status.memChannelOffline r).modTeam y t fun m => { m with through := 0 }
      d.endOp y t Status.memberFault Status.memChannelOffline r 0 true
    else d
  | none => d

end Device

end Sys2Proof.Machine
end

