-- ==== Sys2Proof/Machine/Booking.lean ====
section
/-! DEFINITION. What bookings may not exceed: the bookable capacity of LP6 memory, of ports and of the yard
bridge (R25, R312, R321, R378, R441). -/

namespace Sys2Proof.Machine.Device

/-- Bookable bytes of a channel per frame at its data rate (R312). -/
def chanCapacity (d : Device) (c : Chan) : Nat :=
  match d.mc[c].rate.toNat with
  | 0 => 208896
  | 1 => 274432
  | 2 => 303104
  | _ => 0

def yardCapacity (d : Device) (y : Yard) : Nat := ((d.channels y).map d.chanCapacity).sum

/-- ACTIVE teams of both drovers. -/
def activeTeams (d : Device) : List (Yard × Team) :=
  (finList 2).flatMap fun (v : Yard) => (d.drovers[v].teams.toList.filter fun m => m.state = .active).map fun m => (v, m)

/-- Bytes per frame that teams and the yard's Forge reserve on a yard's LP6 memory. -/
def reservations (d : Device) (y : Yard) : Nat :=
  64 * ((d.activeTeams.map fun p => p.2.lp6Res y).sum + d.pfield (Page.forge y) 0x104 0 24)

/-- The shares of all stalls in a yard's memory, in bytes per frame. -/
def allShares (d : Device) (y : Yard) : Nat := ((finList 384).map fun (st : StallId) => d.share st y).sum

/-- The check of R321 on a yard. -/
def lp6Fits (d : Device) (y : Yard) : Bool := decide (d.allShares y + d.reservations y ≤ d.yardCapacity y)

/-- The shares of the stalls of each yard in the other yard's memory, whose traffic crosses the bridge (R321). -/
def crossShares (d : Device) : Nat :=
  ((finList 384).map fun (st : StallId) => d.share st (if yardOf st = 0 then 1 else 0)).sum

/-- Bytes per frame booked on the bridge in each direction (R25): what ACTIVE teams reserve, and the crossing shares,
which serve either direction. -/
def bridgeBooked (d : Device) : Nat := (d.activeTeams.map fun p => p.2.bridgeRes).sum + d.crossShares

/-- The reserve of R24. -/
def bridgeFits (d : Device) : Bool := decide (d.bridgeBooked ≤ 16384000)

/-- Flits per frame that the ACTIVE teams of a drover book on a VC of a port (R378). -/
def teamFlits (d : Device) (y : Yard) (p : PortId) (v : Nat) : Nat :=
  ((d.drovers[y].teams.toList.filter fun m => m.state = .active && m.axis = p.val / 2 && m.vc = v).map fun m =>
    m.flits (decide (p.val % 2 = 1))).sum

end Sys2Proof.Machine.Device
end

