-- ==== Sys2Proof/Machine/BlockCounts.lean ====
section
/-! DEFINITION. The counts of the conservation tallies as their blocks keep them, and what SAFE leaves of them (R547, R548,
R557). -/

namespace Sys2Proof.Machine

/-- Tallies of a kind (R548). -/
def tallyCount (kind : Nat) : Nat :=
  match kind with
  | 1 => 3072
  | 2 => 6144
  | 3 => 768
  | 4 => 768
  | 5 => 768
  | 6 => 48
  | 7 => 48
  | 8 => 128
  | 9 => 2
  | _ => 0

/-- The counts of a tally whose C tokens are all available but for u in use and f in flight. -/
def countsOf (c u f : Nat) : Counts := { c := c, a := (c : Int) - u - f, u := u, f := f }

/-- The slot of an index that counts two slots a stall. -/
def slotOfIndex (i : Nat) : Slot := if i % 2 = 0 then .primary else .paddock

namespace Device

/-- Requests of a slot outstanding at its Forge. -/
def forgeOutstanding (d : Device) (st : StallId) (sl : Slot) : Nat :=
  (d.forges[yardOf st].reqs.filter fun q => q.stall = st && q.slot = sl).length

/-- The counts of a tally as its block keeps them; none where it is not open (R548). -/
def blockCounts (d : Device) (kind idx : Nat) : Option Counts :=
  match kind with
  | 1 =>
    let m := (d.stall (Fin.ofNat 384 (idx / 8))).mbx[Fin.ofNat 8 idx]
    some { c := 64, a := m.free, u := m.granted + m.msgs.length, f := m.inflight }
  | 2 =>
    let sl : Slot := if idx % 16 < 8 then .primary else .paddock
    (d.siding (Fin.ofNat 384 (idx / 16)) sl (Fin.ofNat 8 idx)).map fun s => countsOf s.depth s.occupied s.reserved
  | 3 =>
    let st : StallId := Fin.ofNat 384 (idx / 2)
    let mine (i : Nat) : Bool := (((d.stall st).barrow)[i]?).any fun j => j.slot = slotOfIndex idx
    let all := below (d.stall st).barrow.length mine
    let f := (all.filter fun i => d.inProgress st i).length
    some (countsOf 16 (all.length - f) f)
  | 4 =>
    let st : StallId := Fin.ofNat 384 (idx / 2)
    some (countsOf 16 (d.droveQueued st (slotOfIndex idx)) (d.droveAccepted st (slotOfIndex idx)))
  | 5 => some (countsOf 4 0 (d.forgeOutstanding (Fin.ofNat 384 (idx / 2)) (slotOfIndex idx)))
  | 6 =>
    let q := d.ports[Fin.ofNat 8 (idx / 6)]
    if q.linked || q.left.isSome then
      let c := vget q.adv (idx % 6) 0
      let a := vget q.held (idx % 6) 0
      some { c := c, a := a, u := 0, f := (c : Int) - a }
    else none
  | 7 =>
    let q := d.ports[Fin.ofNat 8 (idx / 6)]
    some (countsOf (vget q.own (idx % 6) 0) ((q.rxHeld.filter fun h => h.vc.toNat = idx % 6).length) (vget q.granted (idx % 6) 0))
  | 8 =>
    match (d.team (Fin.ofNat 2 (idx / 64)) (Fin.ofNat 64 idx)).op with
    | some o =>
      if o.go && (o.live || decide (o.posted < o.chunks)) then some { c := o.chunks, a := 0, u := o.posted, f := (o.chunks : Int) - o.posted }
      else none
    | none => none
  | 9 => some (countsOf 64 ((d.forges[Fin.ofNat 2 idx].ret.toList.filter (·.used)).length) 0)
  | _ => none

/-- The tallies of the queues, operations and retention entries that SAFE stops, where they hold tokens in use or in flight: those
stay as they are until the warm reset (R547, R557). -/
def stoppedWork (d : Device) : List ((Nat × Nat) × Counts) :=
  ([3, 4, 5, 8, 9] : List Nat).flatMap fun kind =>
    (List.range (tallyCount kind)).filterMap fun idx =>
      match d.blockCounts kind idx with
      | some c => if c.u = 0 ∧ c.f = 0 then none else some ((kind, idx), c)
      | none => none

end Device

end Sys2Proof.Machine
end

