-- ==== Sys2Proof/Machine/HostOps.lean ====
section
/-! DEFINITION. Completions of host commands: the entry in the completion ring, its counters and its MSI-X
message, and completions held while the ring is full (R475 to R478). -/

namespace Sys2Proof.Machine

namespace Device

/-- Entries of a queue's rings, and a ring's host address. -/
def sqSize (d : Device) (q : QueueId) : Nat := 2 ^ d.pfield (Page.hostq q) 0x100 12 4
def cqSize (d : Device) (q : QueueId) : Nat := 2 ^ d.pfield (Page.hostq q) 0x100 8 4
def sqBase (d : Device) (q : QueueId) : Nat := (d.preg (Page.hostq q) 0x108).toNat + (d.preg (Page.hostq q) 0x10C).toNat * 2 ^ 32
def cqBase (d : Device) (q : QueueId) : Nat := (d.preg (Page.hostq q) 0x110).toNat + (d.preg (Page.hostq q) 0x114).toNat * 2 ^ 32

/-- A completion is written into the free entry at CQ_TAIL; then its MSI-X message goes out. -/
def writeCompletion (d : Device) (q : QueueId) (c : Completion) : Device :=
  let h := d.queues[q]
  let w0 := h.sqHead * 2 ^ 48 + c.cid.toNat * 2 ^ 32 + bitAt h.phase 16 + c.code.toNat
  let d := d.wrHost (d.cqBase q + 16 * h.cqTail) (leBytes 8 w0 ++ leBytes 8 c.result.toNat)
  let next := (h.cqTail + 1) % d.cqSize q
  let d := d.modQueue q fun h =>
    { h with cqTail := next, phase := if next = 0 then !h.phase else h.phase, full := h.full + 1 }
  let d := d.bump (Page.hostq q) (if c.code = Status.done ∨ c.code = Status.unbookedDone then 0x128 else 0x12C) 1
  let v : Fin 64 := Fin.ofNat 64 (d.pfield (Page.hostq q) 0x100 16 6)
  if v = 0 then d else d.msix v

/-- A command reaches its single status: its completion is written where an entry is free, and held in order
where none is. -/
def completeCmd (d : Device) (q : QueueId) (cid : BitVec 16) (code : Code) (result : W64) : Device :=
  let c : Completion := { cid := cid, code := code, result := result }
  let h := d.queues[q]
  if h.full < d.cqSize q ∧ h.held = [] then d.writeCompletion q c
  else d.modQueue q fun h => { h with held := h.held ++ [c] }

/-- Held completions go out while entries are free; fuel bounds their number. -/
def flushHeld (d : Device) (q : QueueId) : Nat → Device
  | 0 => d
  | n + 1 =>
    match d.queues[q].held with
    | [] => d
    | c :: t =>
      if d.queues[q].full < d.cqSize q then ((d.modQueue q fun h => { h with held := t }).writeCompletion q c).flushHeld q n
      else d

/-- A started command of a queue that satisfies p completes. -/
def finishCmd (d : Device) (q : QueueId) (p : HostCmd → Bool) (code : Code) (result : W64) : Device :=
  match d.queues[q].started.find? p with
  | none => d
  | some c => (d.modQueue q fun h => { h with started := eraseFirst p h.started }).completeCmd q c.cid code result

/-! ### Commands that are submitted and not taken (R475, R481, R482) -/

/-- Words of a command: word i, 0 where there is none. -/
def cmdWord (w : List W64) (i : Nat) : W64 := (w[i]?).getD 0

def opcode (w : List W64) : Nat := field (cmdWord w 0) 0 8

/-- The CID of a command. -/
def cidOf (w : List W64) : BitVec 16 := BitVec.ofNat 16 (field (cmdWord w 0) 16 16)

/-- Word i of the command at a position of the submission ring. -/
def ringWord (d : Device) (q : QueueId) (pos i : Nat) : W64 :=
  BitVec.ofNat 64 (leNat (d.rdHost (d.sqBase q + 64 * pos + 8 * i) 8))

/-- SQ_HEAD passes a command. -/
def passHead (d : Device) (q : QueueId) : Device :=
  d.modQueue q fun h =>
    { h with
      sqHead := (h.sqHead + 1) % d.sqSize q, sqCount := h.sqCount - 1, skipped := h.skipped.filter fun p => p ≠ h.sqHead }

/-- SQ_HEAD passes the commands that an ABORT has ended (R481); fuel bounds their number. -/
def passSkipped (d : Device) (q : QueueId) : Nat → Device
  | 0 => d
  | n + 1 =>
    let h := d.queues[q]
    if h.sqCount ≠ 0 ∧ h.skipped.contains h.sqHead then (d.passHead q).passSkipped q n else d

/-- The ring positions of the commands that are submitted and not taken, in order. -/
def waitingAt (d : Device) (q : QueueId) : List Nat :=
  let h := d.queues[q]
  ((List.range h.sqCount).map fun i => (h.sqHead + i) % d.sqSize q).filter fun p => !h.skipped.contains p

/-- The ring position of a command that is submitted and not taken. -/
def submitted (d : Device) (q : QueueId) (cid : Nat) : Option Nat :=
  (d.waitingAt q).find? fun p => (cidOf [d.ringWord q p 0]).toNat = cid

/-- A submitted command ends before it is taken, with ABORTED and a result; SQ_HEAD passes it when it reaches it. -/
def abortSubmitted (d : Device) (q : QueueId) (pos : Nat) (r : W64) : Device :=
  ((d.modQueue q fun h => { h with skipped := h.skipped ++ [pos] }).passSkipped q (d.queues[q].skipped.length + 1)).completeCmd q
    (cidOf [d.ringWord q pos 0]) Status.aborted r

/-- The commands of a queue that SAFE does not let run end with ABORTED and the cause, started or not (R479, R482). -/
def abortQueue (d : Device) (q : QueueId) (cause : Code) : Device :=
  let d := (d.queues[q].started.filter fun c => decide (3 < c.op.toNat)).foldl (fun d (c : HostCmd) =>
    d.finishCmd q (fun x => x == c) Status.aborted (cause.setWidth 64)) d
  ((d.waitingAt q).filter fun p => decide (3 < opcode [d.ringWord q p 0])).foldl (fun d p =>
    d.abortSubmitted q p (cause.setWidth 64)) d

end Device

end Sys2Proof.Machine
end

