-- ==== Sys2Proof/Machine/PortState.lean ====
section
/-! DEFINITION. The states of a torus port: leaving UP, SLOW or a bring-up phase, fencing, HOSTILE partners,
link-up, the reclaim of a lost link's credits, and the receipt of a flit: acknowledgement, credits, sequence
and buffers (R345 to R350, R353, R368 to R372). -/

namespace Sys2Proof.Machine

namespace Device

/-! ### Changes of state (R368, R369) -/

/-- DOWN goes out ahead of every other flit, with the cause as its payload (R369). As every CONTROL flit it takes a credit of
VC0 (R338, R345); where none is held it cannot go. -/
def sendDown (d : Device) (p : PortId) (cause : Nat) : Device :=
  let q := d.ports[p]
  let w : Waiting := { ftype := 2, tag := 0x3F000, payload := padTo 240 [BitVec.ofNat 8 cause], booked := false }
  if q.maySend 0 then
    let r := { q with queue := vset q.queue 0 (w :: vget q.queue 0 []) }.sendFirst 0 0 w d.now
    (d.modPort p fun _ => r.1).emit p r.2
  else d

/-- A fault log record of a port that enters FAULTY or HOSTILE (R544). -/
def logFence (d : Device) (p : PortId) (c : Code) : Device :=
  d.logRing (d.logWord 4 (Page.port p).domain c (Page.port p) 0 0 noCounts 0)

/-- The port enters state new from UP, SLOW or a bring-up phase, for a reason that FENCE_CAUSE shows. A bring-up
that fails reports in PORT_RESULT; a port that leaves UP or SLOW starts the two boundaries of R372. The drover takes what
still waits in the receive buffers, and no replay will complete it. A FAULTY condition that the port met in the frame in
which it becomes HOSTILE counts in the fault log (R373; DEDUCED, log 47). Its teams are severed by leave, and not here: in SAFE
the drovers have stopped. -/
def leavePort (d : Device) (p : PortId) (new : PortState) (detail : Nat) (code : Code) : Device :=
  let q := d.ports[p]
  let page := Page.port p
  let d := if q.linked && new ≠ .absent then d.sendDown p detail else d
  let d := d.modPort p fun q =>
    let shown := q.linked || q.rising || new ≠ .down
    { q with state := new
             fenceCode := if !shown then q.fenceCode else if Status.cls code = 0 then 0 else code
             fenceDetail := if shown then BitVec.ofNat 8 detail else q.fenceDetail
             result := if q.rising then code else q.result
             left := if q.linked then some 0 else q.left
             rxHeld := []
             identity := none, swapTx := none, swapRx := none, faultDue := none, quiet := false }
  let d := (d.record page code).event page 1
  let d := if new = .hostile && q.faultDue.isSome then d.logFence p Status.portFenced else d
  let d := if new = .hostile then (d.bump page 0x16C 1).event page 3 else d
  let d := if new = .hostile || new = .faulty then d.logFence p code else d
  if q.rising then d.event page 4 else d

/-- The same with the loss of the port's teams (R408). -/
def leave (d : Device) (p : PortId) (new : PortState) (detail : Nat) (code : Code) : Device :=
  let was := d.ports[p].linked
  let d := d.leavePort p new detail code
  if was then d.severPort p else d

/-- A behaviour of R370. -/
def hostile (d : Device) (p : PortId) (detail : Nat) : Device :=
  d.leave p .hostile detail (if detail = 1 then Status.portIdentityFail else Status.portHostile)

/-- The port fails its bring-up because of the versions: it sends DOWN and returns to DOWN (R355). -/
def failVersion (d : Device) (p : PortId) : Device :=
  (d.sendDown p 0).leavePort p .down 0 Status.portNoCommonVersion

/-- Phases complete: UP, or SLOW in any configuration but the first (R333, R345, R368). -/
def linkUp (d : Device) (p : PortId) : Device :=
  let page := Page.port p
  let d := d.modPort p fun q =>
    { q with state := if q.width = 16 && !q.rateFb then .up else .slow, result := Status.done, identity := none
             held := Vector.ofFn fun i : Fin 6 => if i = 0 then q.held[i] else q.adv[i]
             granted := Vector.ofFn fun i : Fin 6 => if i = 0 then q.granted[i] else q.own[i] }
  (d.event page 1).event page 4

/-- The credits of a lost link return (R372, R551): what the transmitter held or had sent, and the free buffers
that were granted. -/
def reclaimPort (d : Device) (p : PortId) : Device :=
  let q := d.ports[p]
  let d := (List.range 6).foldl (fun d v =>
    let d := d.reclaim 0 Status.creditReclaimed (Page.port p) (0x0600_0000 + p.val * 6 + v) (vget q.adv v 0)
    d.reclaim 0 Status.creditReclaimed (Page.port p) (0x0700_0000 + p.val * 6 + v) (vget q.granted v 0)) d
  d.modPort p fun q =>
    { q with left := none, held := Vector.replicate 6 0, adv := Vector.replicate 6 0, granted := Vector.replicate 6 0
             owed := Vector.replicate 6 0, unacked := [], queue := Vector.replicate 6 [], missing := [] }

/-- Phase 1 starts on a port without a link, with some PORT_CTL and CRED_ADV; a link whose credits are still to be
reclaimed keeps them until its second boundary (R372, R551). -/
def startPhase1 (d : Device) (p : PortId) (ctl : W32) (own : Vector Nat 6) : Device :=
  let d := d.modPort p fun q =>
    { (if q.left.isSome then { Reset.port with
          left := q.left, adv := q.adv, held := q.held, granted := q.granted, owed := q.owed, unacked := q.unacked }
        else Reset.port) with
      state := .training, result := q.result, fenceCode := q.fenceCode, fenceDetail := q.fenceDetail, echoId := q.echoId
      own := q.own, nextOwn := own, ctl := ctl }
  d.event (Page.port p) 1

/-- BRINGUP takes PORT_CTL and CRED_ADV as they are committed (R344, R374). -/
def startBringup (d : Device) (p : PortId) : Device :=
  d.startPhase1 p (d.preg (Page.port p) 0x100) (Vector.ofFn fun i : Fin 6 => d.credAdv p i)

/-- A FAULTY condition of a linked port is entered at the next boundary; on a port that became HOSTILE in the same frame it is
counted in the fault log (R368, R373; DEDUCED, log 47). -/
def faultCondition (d : Device) (p : PortId) (detail : BitVec 8) : Device :=
  let q := d.ports[p]
  if q.linked then d.modPort p fun q => { q with faultDue := some detail }
  else if q.state = .hostile && q.left = some 0 then d.logFence p Status.portFenced
  else d

/-! ### Receipt (R345 to R350) -/

/-- An ACK: it must name a flit that was sent and not yet covered; flits that it covers are dropped, but for
those that wait for a replay. -/
def takeAck (q : Port) (ack : Seq) : Option Port :=
  let n := behind q.acked ack
  if behind q.acked (q.nextSeq - 1) < n then none
  else
    some { q with
      acked := ack
      unacked := q.unacked.filter fun u => u.naked || decide (n < behind q.acked u.flit.hdr.seq) }

/-- Credits returned: refused in full beyond what the partner advertised (R347). -/
def takeCredit (q : Port) (v n : Nat) : Option Port :=
  if n = 0 then some q
  else if vget q.adv v 0 < vget q.held v 0 + n + q.outstanding v then none
  else some { q with held := vset q.held v (vget q.held v 0 + n) }

/-- The flits of a gap from a up to but not including b. -/
def gap (a b : Seq) : List Seq := (List.range (behind a b)).map fun i => a + BitVec.ofNat 12 i

/-- A SEQ ahead of the expected one reveals that those between were lost (R349); next is the SEQ expected after
this flit. -/
def advance (q : Port) (seq next : Seq) : Port :=
  let lost := gap q.expect seq
  { q.nakFlits lost with missing := q.missing ++ lost, expect := next, ack := next - 1 }

/-- The header of a flit takes effect on a talking port: ACK, credits, and for an IDLE flit its SEQ. -/
def receiveHeader (d : Device) (p : PortId) (h : FlitHeader) (f : Device → Device) : Device :=
  match takeAck d.ports[p] h.ack with
  | none => d.hostile p 7
  | some q =>
    match takeCredit q h.cvc.toNat h.ccount.toNat with
    | none => (d.modPort p fun _ => q).hostile p 2
    | some q => f (d.modPort p fun _ => q)

/-- A sequenced flit of VC v takes a buffer, and f goes on with it, unless its contents break a rule of R370 or its buffer
share is full. -/
def enterBuffer (d : Device) (p : PortId) (v : Nat) (bad : Option Nat) (f : Device → Device) : Device :=
  let q := d.ports[p]
  match bad with
  | some x => d.hostile p x
  | none =>
    if vget q.granted v 0 = 0 then d.hostile p 3
    else f (d.modPort p fun q => { q with granted := vset q.granted v (vget q.granted v 0 - 1) })

/-- A flit of VC v leaves its buffer, whose credit is then owed to the partner (R345). -/
def leaveBuffer (d : Device) (p : PortId) (v : Nat) : Device :=
  d.modPort p fun q => { q with owed := vset q.owed v (vget q.owed v 0 + 1) }

/-- A sequenced flit arrives with a good CRC: a flit of VC0 counts as heard; a duplicate is discarded and counted
(R349). pre runs before the ACK of the flit's own header, for a NAK names flits that the ACK covers; f goes on with the flit
in its buffer. -/
def receiveData (d : Device) (p : PortId) (h : FlitHeader) (v : Nat) (bad : Option Nat) (pre f : Device → Device) : Device :=
  if !d.ports[p].talking then d
  else
    let d := pre (if v = 0 then d.modPort p (fun q => { q with heard := true }) else d)
    if !d.ports[p].talking then d
    else
      d.receiveHeader p h fun d =>
        let q := d.ports[p]
        let n := behind q.expect h.seq
        if n < 2048 then (d.modPort p fun q => advance q h.seq (h.seq + 1)).enterBuffer p v bad f
        else if q.missing.contains h.seq then
          (d.modPort p fun q => { q with missing := q.missing.erase h.seq }).enterBuffer p v bad f
        else d.bump (Page.port p) 0x164 1

/-- A sequenced flit that is taken out of its buffer as it arrives. -/
def receiveFlit (d : Device) (p : PortId) (h : FlitHeader) (v : Nat) (bad : Option Nat) (pre f : Device → Device) : Device :=
  d.receiveData p h v bad pre fun d => f (d.leaveBuffer p v)

/-- A CONTROL flit. -/
def receiveControl (d : Device) (p : PortId) (h : FlitHeader) (bad : Device → Option Nat) (f : Device → Device) : Device :=
  d.receiveFlit p h 0 (bad d) id f

/-- An IDLE flit arrives (R338, R348). -/
def receiveIdle (d : Device) (p : PortId) (h : FlitHeader) : Device :=
  if !d.ports[p].talking then d
  else
    d.receiveHeader p h fun d =>
      if behind d.ports[p].expect h.seq < 2048 then d.modPort p fun q => advance q h.seq h.seq else d

/-- Rule of R370 for a flit of a DATA VC. -/
def dataRule (q : Port) (v : Nat) : Option Nat :=
  if v = 0 ∨ 5 < v then some 4 else if !q.linked then some 8 else if v = 5 && !q.has 0 then some 4 else none

end Device

end Sys2Proof.Machine
end

