-- ==== Sys2Proof/Machine/Txn.lean ====
section
/-! DEFINITION. The transaction banks of the TXC page: opening, enrolment, shadows, commit, rollback and ending
(R502 to R511). -/

namespace Sys2Proof.Machine

namespace Device

/-- Offset on the TXC page of a register of bank w (R513). -/
def bankReg (w : Fin 2) (o : Nat) : Nat := 0x100 + 0x40 * w.val + o

/-- Bank w holds a transaction that is OPEN or PENDING. -/
def txnHeld (d : Device) (w : Fin 2) : Bool := d.banks[w].state = .opened || d.banks[w].state = .pending

/-- An identifier names the OPEN transaction of bank w. -/
def txnOpenId (d : Device) (w : Fin 2) (id : BitVec 16) : Bool := d.banks[w].state = .opened && d.banks[w].id = id

/-- CMD_RES of bank w reports a code. -/
def cmdRes (d : Device) (w : Fin 2) (c : Code) : Device := (d.modBank w fun b => { b with cmdRes := c }).record Page.txc c

/-- TXN_OPEN (R502, R510). -/
def openTxn (d : Device) (w : Fin 2) : Device :=
  if d.txnHeld w then d.cmdRes w Status.txnBusy
  else
    let n := d.banks[w].count % 32767 + 1
    (d.modBank w fun b =>
      { b with
        state := .opened
        id := BitVec.ofNat 16 (32768 * w.val + n)
        count := n
        code := 0
        failPage := 0
        failOff := 0
        opened := d.now
        timeout := max 16 (d.pfield Page.txc (bankReg w 0x24) 0 16)
        pages := []
        shadow := [] }).cmdRes w Status.done

/-- Enrolment of a page in transaction id of bank w: the code of CMD_RES (R503). -/
def enrolCode (d : Device) (w : Fin 2) (p : Page) (id : BitVec 16) : Code :=
  if !d.txnOpenId w id then Status.stateInvalid
  else if !p.kind.hasTxn then Status.txnInvalid
  else if d.banks[1 - w].pages.contains p.base then Status.txnBusy
  else Status.done

/-- ENROL in PAGE_TXN. The shadows that are not written show the values in force. -/
def enrol (d : Device) (w : Fin 2) (p : Page) (id : BitVec 16) : Device :=
  let c := d.enrolCode w p id
  let d := if c = Status.done then d.modBank w fun b => { b with pages := setInsert b.pages p.base } else d
  d.cmdRes w c

/-- An RWT write of bank w's requester to page p: it goes to the shadow of an enrolled page of an OPEN transaction
and is ignored otherwise (R504, R543). -/
def shadowWrite (d : Device) (w : Fin 2) (p : Page) (o : Nat) (v : W32) : Device :=
  if d.boot.state ≠ .safe ∧ d.banks[w].state = .opened ∧ d.banks[w].pages.contains p.base then
    d.modBank w fun b => { b with shadow := mapInsert b.shadow (p.reg o) v }
  else d.txnIgnored p

/-- The value of an RWT register as bank w's requester reads it. -/
def rwtValue (d : Device) (w : Fin 2) (off : Nat) : W32 := (mapGet d.banks[w].shadow off).getD (d.reg off)

/-- T of bank w. -/
def txnTarget (d : Device) (w : Fin 2) : Frame :=
  BitVec.ofNat 48 ((d.preg Page.txc (bankReg w 0x08)).toNat + d.pfield Page.txc (bankReg w 0x0C) 0 16 * 2 ^ 32)

/-- A commit of transaction id to frame f: the code of CMD_RES (R505). -/
def commitCode (d : Device) (w : Fin 2) (id : BitVec 16) (f : Frame) : Code :=
  if !d.txnOpenId w id then Status.stateInvalid
  else if 2 ≤ since f d.now ∧ since f d.now ≤ 65536 then Status.done
  else Status.txnInvalid

def commitTxn (d : Device) (w : Fin 2) (id : BitVec 16) (f : Frame) : Device :=
  let c := d.commitCode w id f
  if c = Status.done then
    ({ d with commits := d.commits + 1 }.modBank w fun b =>
      { b with state := .pending, target := f, order := d.commits }).cmdRes w c
  else d.cmdRes w c

/-- A transaction ends (R508, R509): its pages are free, it is counted, and its requester's event is raised. -/
def endTxn (d : Device) (w : Fin 2) (s : TxnState) (c : Code) (failPage failOff : W32) : Device :=
  let d := d.modBank w fun b =>
    { b with
      state := s
      code := c
      failPage := failPage
      failOff := failOff
      endFrame := d.now
      pages := []
      shadow := [] }
  (d.bump Page.txc (if s = .applied then 0x180 else 0x184) 1).eventCode Page.txc (1 + w.val) c

/-- TXN_ROLLBACK (R509). The boundary instant of T comes before the commit point, so from then on a rollback is too
late. -/
def rollbackTxn (d : Device) (w : Fin 2) (id : BitVec 16) : Device :=
  let b := d.banks[w]
  if b.id ≠ id ∨ b.state = .idle then d.cmdRes w Status.stateInvalid
  else if b.state = .opened || (b.state = .pending && b.target ≠ d.now) then
    (d.endTxn w .rolledBack Status.aborted 0 0).cmdRes w Status.aborted
  else d.cmdRes w Status.abortTooLate

/-- The OPEN transaction of bank w has passed TXN_TIMEOUT (R510). -/
def timedOut (d : Device) (w : Fin 2) : Bool :=
  d.banks[w].state = .opened && decide (d.banks[w].timeout ≤ since d.now d.banks[w].opened)

/-- A transaction that has passed TXN_TIMEOUT ends TIMED_OUT. -/
def lapse (d : Device) (w : Fin 2) : Device :=
  if d.timedOut w then d.endTxn w .timedOut Status.txnTimeout 0 0 else d

/-- The page and offset that TXN_FAIL_PAGE and TXN_FAIL_OFF name for a register at a BAR offset. -/
def failWords (off detail : Nat) : W32 × W32 :=
  (match pageAt off with
    | some p => BitVec.ofNat 32 p.id
    | none => 0, BitVec.ofNat 32 (detail * 2 ^ 24 + off % 4096))

/-- The first register of a transaction whose page lies in a domain sent to SAFE: the first marked one of its first
page in directory order. -/
def safeFail (b : TxnBank) : Option Nat :=
  b.pages.head?.map fun p => p + (((b.shadow.find? fun x => decide (p ≤ x.1) && decide (x.1 < p + 4096)).map (·.1 % 4096)).getD 0)

/-- A PENDING transaction with an enrolled page fails because the device is in SAFE (R541). -/
def failSafe (d : Device) (w : Fin 2) : Device :=
  match safeFail d.banks[w] with
  | some off => d.endTxn w .failed Status.txnInvalid (failWords off 4).1 (failWords off 4).2
  | none => d

/-- Gate firmware stops in SAFE: PENDING transactions fail at once (R514). -/
def failPending (d : Device) : Device :=
  (finList 2).foldl (fun d (w : Fin 2) => if d.banks[w].state = .pending then d.failSafe w else d) d

end Device

end Sys2Proof.Machine
end

