-- ==== Sys2Proof/Machine/Safe.lean ====
section
/-! DEFINITION. Changes of the device's state, and entry into SAFE in the order of R542 (R459, R469, R541 to
R543). -/

namespace Sys2Proof.Machine

namespace Device

/-- The device changes state: BOOT_STAT reports it and the DEVICE page raises its event, which signals vector 0
whatever EVT_EN holds (R458, R459). An armed injection is disarmed outside READY (R555), and a selected
EXTEST drives its lands in ROM_WAIT and SAFE alone (R533). -/
def setState (d : Device) (s : DevState) : Device :=
  let changed := d.boot.state ≠ s
  let extest := d.tap.ir = 0x00 || d.tap.ir = 0x03 || d.tap.ir = 0x04
  let d := { d with
    boot := { d.boot with state := s, window := s = .romWait }
    tap := { d.tap with driving := extest && (s = .romWait || s = .safe) } }
  let d := if s = .ready then d else { d with tally := { d.tally with armed := false, hit := false } }
  if changed then
    let seen := flag (d.preg Page.device 0x028) 1
    let d := d.event Page.device 1
    if flag (d.preg Page.device 0x02C) 1 && !seen then d else d.msix 0
  else d

/-- The format ledgers, by DPA (R277): those that drains, FMTSELs and gathers have used, and those that waiting ones name. -/
def allLedgers (d : Device) : List Nat :=
  let named (st : StallId) (sl : Slot) : List Nat := (d.ctx st sl).mq.filterMap fun m =>
    if m.op = 2 ∧ flag m.desc[0] 7 then some (d.slotAt st sl (field m.desc[7] 32 32))
    else if m.op = 4 then some (d.slotAt st sl m.ledger) else none
  d.ledgers ++ ((finList 384).flatMap fun st => named st .primary ++ named st .paddock)
    ++ (finList 2).flatMap fun (y : Yard) => d.drovers[y].jobs.flatMap d.checkLedger

/-- The stash state that a barrow holds, unknown after SAFE (R297). -/
def lostStash (k : Nat) (st : StallId) (s : Stash) : Stash :=
  { s with
    seq := Config.lostStashCount k st 0, spills := Config.lostStashCount k st 1, drops := Config.lostStashCount k st 2
    entries := (List.range s.entries.length).map fun i =>
      let w := Config.lostStashEntry k st i
      { state := BitVec.ofNat 2 (field w.1 33 2), elig := flag w.1 32, tag := BitVec.ofNat 32 (field w.1 0 32)
        seq := BitVec.ofNat 32 (field w.2 32 32), bytes := field w.2 0 32, slot := field w.1 48 16 } }

/-- Every ledger holds unknown values (R297). -/
def loseLedgers (k : Nat) (d : Device) : Device :=
  d.allLedgers.foldl (fun d a => d.wrBytes a ((List.range 64).map (Config.lostLedger k a))) d

/-- Mangers, grooms and barrow of a stall stop: no record, no notice (orders 1 to 3). Its receipts and its stash state hold
unknown values (R297). -/
def stopStall (k : Nat) (d : Device) (st : StallId) : Device :=
  let halt (d : Device) (sl : Slot) : Device := if (d.ctx st sl).running then d.haltSlot st sl 5 0 else d
  let d := halt (halt d .primary) .paddock
  d.modStall st fun s =>
    let clear (c : SlotCtx) : SlotCtx := { c with vq := [], mq := [], mrun := [], stash := c.stash.map (lostStash k st) }
    { s with
      primary := clear s.primary, paddock := clear s.paddock, barrow := [], switchTo := none, switching := none
      receipts := Vector.ofFn fun (i : Fin 64) => Config.lostReceipt k st i }

/-- Every manger has halted at once: its entries and weight halves hold unknown values (R265). -/
def haltMangers (d : Device) : Device :=
  let (k, d) := d.drawFree
  let acc (st : StallId) (m : Fin 4) : Vector (Vector (BitVec 128) 66) 32 :=
    Vector.ofFn fun (g : Fin 32) => Vector.ofFn fun (l : Fin 66) => Config.lostAcc k st m g l
  let half (st : StallId) (m : Fin 4) : Vector (Vector (BitVec 512) 66) 2 :=
    Vector.ofFn fun (h : Fin 2) => Vector.ofFn fun (l : Fin 66) => Config.lostHalf k st m h l
  let mgr (st : StallId) : Vector Manger 4 := Vector.ofFn fun (m : Fin 4) =>
    { d.stalls[st].mgr[m] with acc := acc st m, half := half st m, accBad := [], accCe := [] }
  { d with stalls := Vector.ofFn fun (st : Fin 384) => { d.stalls[st] with mgr := mgr st } }

/-- Drovers and Forges stop without notice, header or status; retention entries are lost (order 3). -/
def stopYard (d : Device) (y : Yard) : Device :=
  let d := d.modDrover y fun v =>
    { v with
      jobs := []
      teams := v.teams.map fun m =>
        { m with op := none, collect := [], through := 0, creates := [], destroys := [], abortPending := false, phase := .idle } }
  d.modForge y fun f => { f with reqs := [], loading := [], ret := Vector.replicate 64 Reset.retention }

/-- Entry into SAFE, for a cause that a page of the affected domain reports; the sideband raises its alert (R585).
The tallies keep the tokens of the work that stops, and nothing is reclaimed (R557). SAFE_CAUSE of the
GATEHOUSE page reports the code, which that page records (R494), and training channels stop (R485). The first cause stands; a later one is only logged, and in OFF nothing happens (R469, R557). -/
def enterSafe (d : Device) (domain : Nat) (code : Code) (page : Page) : Device :=
  if d.boot.state = .off then d
  else
    let d := d.logSafe domain code page
    if d.boot.state = .safe then d
    else
      let d := d.record Page.gatehouse code
      let stop (m : MemCtl) : MemCtl := { m with state := if m.state = .training then .absent else m.state }
      let alive := d.boot.fwRunning && (d.serving || d.boot.state = .fwInit)
      let d := { d with tally := { d.tally with stopped := d.stoppedWork } }
      let (k, d) := d.drawFree
      let d := ((finList 384).foldl (stopStall k) (loseLedgers k d)).haltMangers
      let d := (finList 2).foldl (fun d (y : Yard) => d.stopYard y) d
      let d := (finList 8).foldl (fun d (p : PortId) =>
        if d.ports[p].state = .down then d else d.leavePort p .faulty 5 Status.portFenced) d
      let d := (finList 16).foldl (fun d (q : QueueId) => d.abortQueue q code) d
      let d := { d with
        mc := d.mc.map stop
        boot := { d.boot with safeCause := code, diag := alive }
        pwr := { d.pwr with alert := true }
        bist := { d.bist with run := none, phase := if d.bist.run.isSome then 0 else d.bist.phase }
        trust := { d.trust with
          capture := none
          jobs := d.trust.jobs.filter fun j => match j with
            | .report _ _ => false
            | .link _ _ => true } }
      let d := d.setState .safe
      if alive && !d.boot.halted then d else d.failPending

end Device

end Sys2Proof.Machine
end

