-- ==== Sys2Proof/Machine/Payload.lean ====
section
/-! DEFINITION. What a drover does with payload: landing and forwarding flits of legs, sending its own source,
chunks, receipts, and its work at a frame boundary (R351, R381, R382, R390, R399, R402, R403, R405, R295). -/

namespace Sys2Proof.Machine

namespace Device

/-! ### Landing -/

/-- n bytes of a leg land from its byte off: the words that some ranges of them touch, which hold no data, are written as
poisoned words (R405). The answer tells whether a channel was offline; a partial write of an uncorrectable burst writes
nothing there, and the operation ends MEM_ECC_UNCORRECTED (R307). The manual does not say whether a drover joins the bytes of
consecutive flits into whole bursts: each flit is written as it comes (DEDUCED, log 52). -/
def landBytes (d : Device) (y : Yard) (t : Fin 64) (o : TeamOp) (off : Nat) (bs : List Byte) (poison : List (Nat × Nat)) :
    Device × Bool :=
  let r := (d.landPieces o off bs.length).foldl (fun (a : Device × Bool × Bool) p =>
    let part := (bs.drop p.2.1).take p.2.2
    let (d, bad) := a.1.writeRange p.1 part (!o.nobook)
    let d := poison.foldl (fun d (x : Nat × Nat) =>
      let lo := max x.1 p.2.1
      d.poisonWords (p.1 + (lo - p.2.1)) (min (x.1 + x.2) (p.2.1 + part.length) - lo)) d
    (d, a.2.1 || bad.any (fun x => x.2 = .offline), a.2.2 || bad.any fun x => x.2 = .ecc)) (d, false, false)
  (r.1.modOp y t fun o =>
    { o with gotBytes := off + bs.length, poisoned := o.poisoned || !poison.isEmpty || r.2.2 }, r.2.1)

/-- A payload flit of the leg that ends here. -/
def landFlit (d : Device) (y : Yard) (t : Fin 64) (o : TeamOp) (payload : List Byte) (poison : Bool) : Device :=
  let n := min 240 (o.inBytes (d.team y t) - o.gotBytes)
  let (d, offline) := d.landBytes y t o o.gotBytes ((padTo 240 payload).take n) (if poison then [(0, n)] else [])
  if offline then d.memberOffline y t else d

/-- A CHECK gather's receipt differs from the META of its leg, or the leg carries none (R295, R399). -/
def mismatch (d : Device) (o : TeamOp) : Bool :=
  let e := vget (d.stall o.job.stall).receipts (dfield o.desc 0 28 6) 0
  match o.metaIn with
  | some (layer, shard, epoch) =>
    !(field e 2 1 = 1 && field e 20 12 = layer.toNat && field e 4 16 = shard.toNat && field e 32 32 = epoch.toNat)
  | none => true

/-- The member's CHECK finds, or will find as its leg lands, a stale shard. -/
def stale (d : Device) (o : TeamOp) (m : Team) : Bool :=
  dfield o.desc 0 34 2 = 2 && (o.receives m).isSome && !o.receiptDone && d.mismatch o

/-- The receipt step of a gather, once its leg has landed (R295, R399); a member to which no rank sends has none. -/
def receiptStep (d : Device) (y : Yard) (t : Fin 64) : Device :=
  match (d.team y t).op with
  | none => d
  | some o =>
    let st := o.job.stall
    let x := o.desc
    let i := dfield x 0 28 6
    let e := vget (d.stall st).receipts i 0
    let put (d : Device) (v : Nat) : Device :=
      d.modStall st fun s => { s with receipts := vset s.receipts i (BitVec.ofNat 64 v) }
    let d := d.modOp y t fun o => { o with receiptDone := true }
    let rcpt := dfield x 0 34 2
    if rcpt = 0 ∨ (o.receives (d.team y t)).isNone then d
    else if rcpt = 1 then
      match o.metaIn with
      | some (layer, shard, epoch) => put d (epoch.toNat * 2 ^ 32 + layer.toNat * 2 ^ 20 + shard.toNat * 16 + 4)
      | none => put d (e.toNat - e.toNat / 4 % 2 * 4)
    else
      if !d.mismatch o then put d (e.toNat - e.toNat / 8 % 2 * 8)
      else
        let epoch := match o.metaIn with
          | some m => m.2.2.toNat
          | none => field e 32 32
        let d := put d (epoch * 2 ^ 32 + field (setBit e 3) 0 32)
        let d := d.engModify st o.job.slot (dfield x 3 32 32) 64 fun b =>
          b.take 0x3C ++ ((b.drop 0x3C).take 1).map (· ||| 0x80) ++ b.drop 0x3D
        let off := match o.job.slot with
          | .primary => 0xF04
          | .paddock => 0xF08
        let layer := match o.metaIn with
          | some m => m.1.toNat
          | none => field e 20 12
        let d :=
          if flag (d.preg (Page.stall st) off) 31 then d
          else
            (d.setPreg (Page.stall st) off
              (BitVec.ofNat 32 (2 ^ 31 + layer * 2 ^ 16 + Status.shardStale.toNat))).eventCode (Page.stall st) 3 Status.shardStale
        d.modOp y t fun o =>
          { o with worst := if o.worst = Status.memberFault then o.worst else Status.shardStale }

/-- A leg of no bytes has landed as soon as the operation runs. -/
def settle (d : Device) (y : Yard) (t : Fin 64) : Device :=
  match (d.team y t).op with
  | some o => if o.go && !o.receiptDone && o.posted = o.chunks then d.receiptStep y t else d
  | none => d

/-- The next chunk of the landing leg is complete: its notice is posted, or for a DIRECT leg it only counts
(R390). After the last one the receipt step follows. -/
def chunkStep (d : Device) (y : Yard) (t : Fin 64) (o : TeamOp) : Device :=
  let st := o.job.stall
  let i := o.posted
  let n := d.chunkBytes y t o i
  let d :=
    match d.opSiding o with
    | none => d
    | some s =>
      let src := ((o.inLeg (d.team y t)).map Leg.src).getD 0
      let spare := s.notices ≠ 0 && s.mbx = o.mbx
      let d := d.setSiding st o.job.slot o.sidingIdx
        { s with occupied := s.occupied + 1, reserved := s.reserved - 1, landNext := (s.landNext + 1) % max 1 s.depth
                 notices := if spare then s.notices - 1 else s.notices }
      let d := if spare then d else d.modOp y t fun o => { o with job := { o.job with reserved := o.job.reserved - 1 } }
      d.post st o.mbx (droverSrc y)
        [dfield o.desc 0 56 8 * 2 ^ 56 + 2 ^ 52 + src * 2 ^ 48, (o.accept.map BitVec.toNat).getD 0,
         if o.nobook then 0 else o.promise.toNat, n,
         s.landNext * 2 ^ 36 + o.sidingIdx.val * 2 ^ 32 + i * s.chunk, o.job.seq.toNat]
  let d := d.modOp y t fun o => { o with posted := i + 1 }
  d.settle y t

/-! ### Passing flits (R381, R382) -/

/-- A payload flit of rank src came in through a port: the direction in which it travels, and whether a leg of a
running operation may bring it. Where none runs here, any leg of the team may pass. -/
def legCrosses (d : Device) (y : Yard) (t : Fin 64) (src : Nat) (neg : Bool) : Bool :=
  let m := d.team y t
  match m.op.filter (·.go) with
  | none => decide (src < m.size)
  | some o => (o.legs m).any fun g =>
      g.src = src && g.neg = neg && decide (1 ≤ m.dist neg (m.posOf src) m.pos) && decide (m.dist neg (m.posOf src) m.pos ≤ g.links)

/-- A valid DATA flit of a drover's port is handed over (R351): HOSTILE where its tag names a slot that is not ACTIVE, or a
route that is not set up (R381); otherwise it lands, or goes to the next link. A flit that an ended operation has left on the ring stops at
the rank that sent it. -/
def handOver (d : Device) (p : PortId) (tag : BitVec 20) (payload : List Byte) : Device :=
  let y : Yard := Fin.ofNat 2 (p.val / 4)
  let t : Fin 64 := Fin.ofNat 64 (field tag 14 6)
  let src := field tag 10 4
  let kind := field tag 8 2
  let poison := flag tag 7
  let m := d.team y t
  let neg := decide (p.val % 2 = 0)
  if m.state ≠ .active || 1 < kind || field tag 0 7 ≠ 0 || p ≠ d.teamPort y t (!neg) then d.hostile p 5
  else if kind = 1 then d.bump (Page.drover y) 0x144 1
  else if !d.legCrosses y t src neg then d.hostile p 5
  else
    match m.op.filter (·.go) with
    | none =>
      if m.rank? = some src then d
      else (d.teamFlit y t neg src 0 poison true false payload).bump (Page.drover y) 0x140 1
    | some o =>
      if (o.inLeg m).any fun g => g.src = src then
        if o.gotBytes < o.inBytes m && !o.stopped then d.landFlit y t o payload poison else d
      else (d.teamFlit y t neg src 0 poison (!o.nobook) false payload).bump (Page.drover y) 0x140 1

/-- Flit h waits in its buffer: an earlier flit of its leg, the same team and source, is missing, or waits itself (R382). -/
def waitsForGap (q : Port) (h : HeldFlit) : Bool :=
  let dist (s : Seq) : Nat := behind s q.expect
  (q.missing.any fun s => h.gaps.contains s && decide (dist h.seq < dist s))
    || q.rxHeld.any fun b => field b.tag 8 12 = field h.tag 8 12 && decide (dist h.seq < dist b.seq)

/-- DATA flits that wait for no earlier flit of their leg are handed over, and leave their buffers free to be granted again
(R345, R351, R382); fuel bounds them. -/
def drainHeld (d : Device) (p : PortId) : Nat → Device
  | 0 => d
  | n + 1 =>
    match d.ports[p].rxHeld.find? (!waitsForGap d.ports[p] ·) with
    | none => d
    | some h =>
      let d := d.modPort p fun q => { q with rxHeld := eraseFirst (fun x => x.seq = h.seq) q.rxHeld }
      ((d.leaveBuffer p h.vc.toNat).handOver p h.tag h.payload).drainHeld p n

/-! ### Sending the own leg (R399, R403, R405) -/

/-- n bytes of the own source from byte off, read now. -/
def fetchSource (d : Device) (o : TeamOp) (off n : Nat) : Device × SourceRead :=
  let a := d.sourceBase o + off
  let (d, bs, bad) := d.readRange a n (!o.nobook)
  (d, { bytes := bs, bad := bad.map fun p => (max a p.1 - a, overlapBytes a n p.1)
        ecc := bad.any (fun x => x.2 = .ecc), offline := bad.any fun x => x.2 = .offline })

/-- n bytes of the own source from byte off; its first bytes may have been read with the shard's EPOCH (R295). -/
def readSource (d : Device) (o : TeamOp) (off n : Nat) : Device × SourceRead :=
  match if off = 0 then o.first else none with
  | none => d.fetchSource o off n
  | some f =>
    let k := f.bytes.length
    let (d, r) := d.fetchSource o k (n - k)
    (d, { bytes := f.bytes ++ r.bytes, bad := f.bad ++ r.bad.map fun p => (k + p.1, p.2)
          ecc := f.ecc || r.ecc, offline := f.offline || r.offline })

/-- The flits of a frame of a leg: fuel flits at most. Words that an offline channel would have supplied go poisoned
(R403, R405). -/
def sendLeg (d : Device) (y : Yard) (t : Fin 64) (g : Leg) : Nat → Device
  | 0 => d
  | k + 1 =>
    match (d.team y t).op with
    | none => d
    | some o =>
      let n := min 240 (g.bytes - o.sentBytes)
      if n = 0 then d
      else
        let (d, r) := d.readSource o o.sentBytes n
        let d := d.teamFlit y t g.neg g.src 0 (r.ecc || r.offline) (!o.nobook) false r.bytes
        let d := d.modOp y t fun o => { o with sentBytes := o.sentBytes + n, poisoned := o.poisoned || r.ecc }
        if r.offline && o.live then d.memberOffline y t else d.sendLeg y t g k

/-- A leg from a rank to itself crosses no link: its bytes are copied at once, and only the words whose source failed are
poisoned (R386, R405). -/
def copyLocal (d : Device) (y : Yard) (t : Fin 64) (o : TeamOp) (n : Nat) : Device :=
  let (d, r) := d.readSource o 0 n
  let (d, offline) := d.landBytes y t o 0 r.bytes r.bad
  let d := d.modOp y t fun o => { o with sentBytes := n }
  if r.offline || offline then d.memberOffline y t else d

/-- Flits of a booked leg that may have left by the end of the frame that begins: those whose bytes the booking of the frames
from a + 2 on covers (R378, R399). -/
def flitsDue (m : Team) (o : TeamOp) (g : Leg) (now : Frame) : Nat :=
  let due := (o.accept.map fun a => (since now a - 1) * m.booking g.neg).getD 0
  if g.bytes ≤ due then ceilDiv g.bytes 240 else due / 240

/-- Payload of a running operation for the frame that begins: from frame a + 2 on, up to the booking (R399). -/
def sendPayload (d : Device) (y : Yard) (t : Fin 64) : Device :=
  let m := d.team y t
  match m.op with
  | none => d
  | some o =>
    if o.stopped || !o.reached d.now 2 then d
    else
      match o.outLeg m with
      | none => d
      | some g =>
        if g.links = 0 then (if o.sentBytes = 0 then d.copyLocal y t o g.bytes else d)
        else
          let p := d.teamPort y t g.neg
          d.sendLeg y t g
            (if o.nobook then vget d.ports[p].adv m.vc 0 else flitsDue m o g d.now - ceilDiv o.sentBytes 240)

/-! ### LP6 charge (R397, R402) -/

/-- One frame of service of an operation's LP6 charge at the reserved rate, half of it on a channel at level 2. -/
def serveTeam (d : Device) (y : Yard) (t : Fin 64) : Device :=
  let m := d.team y t
  match m.op with
  | some o =>
    if o.go && !o.nobook && o.reached d.now 2 then
      d.modOp y t fun o => { o with rem := o.rem.map fun r =>
        let rate := 64 * m.lp6Res (r.1.val / 32)
        (r.1, r.2 - (if d.mc[r.1].state = .offline then 0 else if d.mc[r.1].level = 2 then rate / 2 else rate)) }
    else d
  | none => d

/-- The new k of a leg with charge left on a channel that rises to level 2 (R402). -/
def reassessTeam (d : Device) (y : Yard) (t : Fin 64) (c : Chan) : Device :=
  let m := d.team y t
  match m.op with
  | some o =>
    let yard := c.val / 32
    let left := o.rem.filter fun r => r.1.val / 32 = yard
    let rl := 64 * m.lp6Res yard
    if o.go && !o.nobook && o.live && left.any (fun r => r.2 ≠ 0) && rl ≠ 0 then
      let late : Int := (d.now - o.promise).toInt
      let k := (late + (ceilDiv (2 * maxOf left) rl + Team.hops (o.legs m) + 1 : Nat)).toNat
      d.modOp y t fun o => { o with k := max o.k k }
    else d
  | none => d

/-- A channel that a running leg reads or writes goes offline (R403). -/
def offlineTeam (d : Device) (y : Yard) (t : Fin 64) (c : Chan) : Device :=
  match (d.team y t).op with
  | some o => if o.go && o.live && o.rem.any (fun r => r.1 = c) then d.memberOffline y t else d
  | none => d

/-! ### A frame boundary -/

/-- From the boundary that begins frame p, the control flits of the operation that still wait go as booked, ahead
of the team's payload (R399). -/
def promoteControl (d : Device) (y : Yard) (t : Fin 64) : Device :=
  let m := d.team y t
  match m.op with
  | some o =>
    if o.nobook || o.accept.isNone || o.promise ≠ d.now then d
    else
      d.modPort (d.teamPort y t false) fun q =>
        let l := vget q.queue m.vc []
        let control := (l.filter (isTeamFlit t 1)).map fun w => { w with booked := true }
        { q with queue := vset q.queue m.vc (control ++ l.filter (!isTeamFlit t 1 ·)) }
  | none => d

/-- What a drover does for a team at the boundary that begins a frame: an operation that has lasted through its
handshake frame is in its payload phase; one that committed late and has all its bytes closes. -/
def teamFrame (d : Device) (y : Yard) (t : Fin 64) : Device :=
  if (d.team y t).op.isNone then d
  else
    let d := d.serveTeam y t
    let d := d.modTeam y t fun m =>
      if m.phase = .handshake && m.op.any (·.reached d.now 2) then { m with phase := .payload }
      else m
    (d.promoteControl y t).sendPayload y t

end Device

end Sys2Proof.Machine
end

