-- ==== Sys2Proof/Machine/Drover.lean ====
section
/-! DEFINITION. The drover: the DROVE instructions, the decision of a member, the control flits of the handshake
and of completion, aborts, and the creation and end of teams (R375 to R412). -/

namespace Sys2Proof.Machine

namespace Device

/-! ### DROVE (R384 to R391) -/

/-- Step 3 of R131 for an operation descriptor (R384, R387, R294). -/
def droveLegal (d : Device) (st : StallId) (x : Vector W64 8) : Bool :=
  let op := dfield x 0 52 4
  let sl := d.slotOf st
  let m := d.team (yardOf st) (Fin.ofNat 64 (dfield x 0 42 6))
  let mine (i : Nat) : Bool := !d.paddockEn st || (if sl = .primary then decide (i < 32) else decide (32 ≤ i))
  reservedClear x [(0, 12, 52), (0, 8, 3), (1, 0, 48), (2, 0, 48), (3, 0, 64)]
    && decide (op ≤ 2) && dfield x 0 48 4 ≠ 14 && (op = 0 || dfield x 0 41 1 = 0)
    && dfield x 0 34 2 ≠ 3 && dfield x 0 26 2 ≠ 3
    && (dfield x 0 34 2 = 0 || mine (dfield x 0 28 6)) && (dfield x 0 26 2 ≠ 2 || mine (dfield x 0 20 6))
    && (if sl = .primary then m.vc ≠ 5 else m.vc = 5)

/-- The next sequence number of a descriptor on its team (R391), and the team that has assigned it. -/
def takeSeq (m : Team) (x : Vector W64 8) : W32 × Team :=
  if dfield x 0 52 4 = 2 then
    let pair := dfield x 0 12 4 + 16 * dfield x 0 16 4
    let n := (mapGet m.sendSeq pair).getD 0
    (n, { m with sendSeq := mapInsert m.sendSeq pair (n + 1) })
  else (m.nextSeq, { m with nextSeq := m.nextSeq + 1 })

/-- SUBMIT at issue, whatever the OP of its descriptor. R131 does not place an unused sel, b or d field that is not zero
in its order: such a word takes cause 1 before step 1 (DEDUCED, log 59). -/
def droveSubmit (d : Device) (st : StallId) (mf : MFormat) (w : W32) : Device :=
  let sl := d.slotOf st
  let y := yardOf st
  if mf.sel ≠ 0 ∨ mf.b ≠ 0 ∨ mf.d ≠ 0 then d.illegal st w
  else if 16 ≤ d.droveQueued st sl + d.droveAccepted st sl then d
  else
    d.withDescr st (d.sreg st mf.a) fun d x =>
      if !d.droveLegal st x then d.illegal st w
      else
        let ledger : List Region := if dfield x 0 34 2 = 2 then [⟨dfield x 3 32 32, 64, 64⟩] else []
        d.checkRegions st (⟨dfield x 3 0 32, 64, 64⟩ :: ledger) fun d =>
          let i : Fin 8 := Fin.ofNat 8 (dfield x 0 36 3)
          let land := dfield x 0 39 1 = 1
          let depth := if land then ((d.siding st sl i).map Siding.depth).getD 0 else 0
          d.withNotices st (noticeMbx x) (1 + depth) fun d =>
            let t : Fin 64 := Fin.ofNat 64 (dfield x 0 42 6)
            let (seq, m) := takeSeq (d.team y t) x
            let d := d.modTeam y t fun _ => m
            let d := match (if land then d.siding st sl i else none) with
              | some s => d.setSiding st sl i { s with mbx := noticeMbx x }
              | none => d
            (d.modDrover y fun v => { v with jobs := v.jobs ++ [⟨st, sl, x, seq, 1 + depth⟩] }).retire st 1

/-- SIDING (R389): the result, 1 where a slot of the siding is in use; its base is an operand address of R131. -/
def droveSiding (d : Device) (st : StallId) (mf : MFormat) (w : W32) : Device :=
  let sl := d.slotOf st
  let a := d.sreg st mf.a
  let b := d.sreg st mf.b
  let i : Fin 8 := Fin.ofNat 8 (field b 0 3)
  let depth := field b 3 3 + 1
  let chunk := field b 8 8 * 4096
  let done (d : Device) (r : W64) : Device := (d.setSreg st mf.d r).retire st 1
  let busy := (d.siding st sl i).any fun s => s.occupied ≠ 0 || s.reserved ≠ 0
  let release (d : Device) : Device := match d.siding st sl i with
    | some s => d.modMbx st s.mbx fun x => { x with inflight := x.inflight - s.notices, free := x.free + s.notices }
    | none => d
  if mf.sel ≠ 0 then d.illegal st w
  else if flag b 16 then
    if busy then done d 1 else done ((release d).dropSiding st sl i) 0
  else if d.loftLimit st sl ≤ a.toNat then d.loftAddress st a
  else if a.toNat % 4096 ≠ 0 then d.loftMisaligned st a
  else if depth < 2 ∨ chunk = 0 ∨ 128 * 4096 < chunk ∨ d.loftLimit st sl < a.toNat + depth * chunk then d.illegal st w
  else if busy then done d 1
  else
    done ((release d).setSiding st sl i
      { base := a.toNat, depth := depth, chunk := chunk, occupied := 0, reserved := 0, landNext := 0
        freeNext := 0, notices := 0, mbx := 0 }) 0

/-- RELEASE (R390): the oldest occupied slots become free, and a notice slot is reserved for each. -/
def droveRelease (d : Device) (st : StallId) (mf : MFormat) (w : W32) : Device :=
  let sl := d.slotOf st
  let b := d.sreg st mf.b
  let i : Fin 8 := Fin.ofNat 8 (field b 0 3)
  let n := field b 8 4
  if mf.sel ≠ 0 ∨ mf.a ≠ 0 ∨ mf.d ≠ 0 ∨ n = 0 ∨ 8 < n then d.illegal st w
  else
    match d.siding st sl i with
    | none => d.retire st 1
    | some s =>
      let k := min n s.occupied
      if k = 0 then d.retire st 1
      else
        match d.reserve st s.mbx k with
        | none => d
        | some d =>
          (d.setSiding st sl i { s with occupied := s.occupied - k, freeNext := (s.freeNext + k) % s.depth
                                        notices := s.notices + k }).retire st 1

/-- PERMSET (R386). -/
def drovePermset (d : Device) (st : StallId) (mf : MFormat) (w : W32) : Device :=
  let y := yardOf st
  let ea := d.sreg st mf.a
  let t : Fin 64 := Fin.ofNat 64 (field (d.sreg st mf.b) 0 6)
  if mf.sel ≠ 0 then d.illegal st w
  else
    d.operandCheck st ea 16 fun d =>
      let (d, bs, bad) := d.readRange (d.loftAt st ea.toNat) 16 false
      match bad with
      | (u, _) :: _ => d.loftEcc st (ea.toNat + (u - d.loftAt st ea.toNat))
      | [] =>
        let busy := (d.team y t).op.isSome || d.drovers[y].jobs.any fun j => dfield j.desc 0 42 6 = t.val
        if busy then (d.setSreg st mf.d 1).retire st 1
        else ((d.modTeam y t fun m => { m with turn := bs.map (·.toNat) }).setSreg st mf.d 0).retire st 1

/-! ### The decision (R393 to R398) -/

/-- A descriptor ends at its decision without joining (R395, R404, R408): its status, its notice slots back. -/
def refuseDrove (d : Device) (y : Yard) (j : DroveJob) (code : Code) : Device :=
  let d := d.droveNotice y j code 0 0 0 none none 0
  let d := d.bump (Page.drover y) 0x13C 1
  let t : Fin 64 := Fin.ofNat 64 (dfield j.desc 0 42 6)
  let d := if (d.team y t).abortPending then d.abortAnswer y t Status.abortTooLate else d
  let cause : Fin 5 := if code = Status.admissionRefused ∨ code = Status.addressUnmapped then 3 else 2
  let tally := 0x0400_0000 + 2 * j.stall.val + (if j.slot = .paddock then 1 else 0)
  let d := if cause = 3 then d.reclaim 3 code (Page.stall j.stall) tally 1 else d
  if j.reserved ≤ 1 then d else d.releaseNotices j.stall (noticeMbx j.desc) (j.reserved - 1) cause code

/-- The count block and the turntable entry keep R385 and R386. -/
def tablesLegal (m : Team) (x : Vector W64 8) (counts perm : List Nat) : Bool :=
  let op := dfield x 0 52 4
  let n := m.size
  let high := (counts.drop n).all (· = 0)
  if op = 1 then
    high && (perm.take n).all (· < n) && (perm.drop n).all (· = 0) && decide ((perm.take n).Nodup)
  else if op = 2 then
    high && decide (dfield x 0 12 4 < n) && decide (dfield x 0 16 4 < n)
      && (List.range 16).all fun r => r = dfield x 0 12 4 || (counts[r]?).getD 0 = 0
  else high

/-- The ranges of the member's own source and DIRECT destination, with the direction of their legs. -/
def legRanges (d : Device) (m : Team) (o : TeamOp) : List (Nat × Leg) :=
  ((o.outLeg m).map fun g => (d.sourceBase o, g)).toList
    ++ (if o.land then [] else ((o.inLeg m).map fun g => (dfield o.desc 2 0 48, g)).toList)

/-- The DPAs of the loft ends of the member's legs, its siding's included (R398). -/
def loftEnds (d : Device) (m : Team) (o : TeamOp) : List (Nat × Leg) :=
  ((d.legRanges m o).filter fun r => inLoft r.1 r.2.bytes)
    ++ (if o.land then ((o.inLeg m).map fun g => (loftDpa o.job.stall 0, g)).toList else [])

/-- Why a member refuses, the checks of R395. A range that R35 refuses comes before what the memory and the bookings lack,
since it moves no data whatever they are; every operation uses both ports of its team, its control flits in the + direction
(R356, R381). -/
def droveRefusal (d : Device) (y : Yard) (m : Team) (o : TeamOp) (chunks : Nat) : Option Code :=
  let rs := d.legRanges m o
  let needed (neg : Bool) : Bool := (o.legs m).any fun g => g.links ≠ 0 && g.neg = neg
  let lp6Short := rs.any fun r =>
    d.inLp6 r.1 r.2.bytes &&
      let yd := d.yardAt r.1
      let x := d.inService yd * maxOf (d.charges [(r.1, r.2.bytes)])
      let res := m.lp6Res yd
      res = 0 || decide (ceilDiv r.2.bytes (m.booking r.2.neg) < ceilDiv x (64 * res))
  let bridgeShort := (d.loftEnds m o).any fun r => yardOf (loftStall r.1) ≠ y && decide (m.bridgeRes < m.booking r.2.neg)
  let shard := dfield o.desc 0 26 2 = 1 && (o.outLeg m).isSome && !d.mapped (dfield o.desc 1 0 48) 64
  if !tablesLegal m o.desc o.counts o.perm then some Status.admissionRefused
  else if shard || rs.any (fun r => !d.mapped r.1 r.2.bytes) then some Status.addressUnmapped
  else if o.land && !(d.opSiding o).any (fun s => decide (chunks ≤ s.depth)) then some Status.admissionRefused
  else if !o.nobook && ((needed false && m.booking false = 0) || (needed true && m.booking true = 0)) then
    some Status.admissionRefused
  else if !o.nobook && (lp6Short || bridgeShort) then some Status.admissionRefused
  else if m.vc = 5 && ([false, true].any fun neg => !(d.ports[d.teamPort y (Fin.ofNat 64 (dfield o.desc 0 42 6)) neg]).has 0) then
    some Status.admissionRefused
  else none

/-- The operation that a descriptor starts on its team. -/
def newOp (d : Device) (m : Team) (j : DroveJob) (counts : List Nat) (aborted : Bool) : TeamOp :=
  { job := j, counts := counts, perm := m.turn, signature := m.signature j.desc j.seq counts m.turn, refused := none
    decided := d.now, aborted := aborted, started := false, accept := none, promise := 0, go := false, sentBytes := 0
    gotBytes := 0, poisoned := false, chunks := 0, posted := 0, first := none, metaIn := none
    receiptDone := false, k := 0, worst := Status.done, held := none, completeSent := false, returned := none
    committed := false, verdictBack := false, back := false, rem := [] }

/-- The member's contribution to a COLLECT flit (R394). -/
def joinCollect (m : Team) (o : TeamOp) (c : CollectFlit) : CollectFlit :=
  { c with matched := c.matched && c.signature = o.signature
           refused := c.refused || o.refused.isSome
           rank := if !c.refused && o.refused.isSome then BitVec.ofNat 4 m.rank else c.rank
           aborted := c.aborted || o.aborted }

/-- A decided member passes the COLLECT flit on. -/
def passCollect (d : Device) (y : Yard) (t : Fin 64) (c : CollectFlit) : Device :=
  match (d.team y t).op with
  | some o =>
    let d := d.sendCollect y t (joinCollect (d.team y t) o c)
    (d.modOp y t fun o => { o with started := true }).modTeam y t fun m => { m with collect := m.collect.erase c }
  | none => d

/-- The starter's own COLLECT flit. -/
def startCollect (d : Device) (y : Yard) (t : Fin 64) (o : TeamOp) : Device :=
  let c : CollectFlit :=
    { send := Team.sendPair o.desc
      seq := o.job.seq, signature := o.signature, matched := true, refused := o.refused.isSome
      rank := if o.refused.isSome then BitVec.ofNat 4 (d.team y t).rank else 0, aborted := o.aborted }
  (d.sendCollect y t c).modOp y t fun o => { o with started := true }

/-- The member has decided on a descriptor that has left the queue: a refusal writes its status at once; then the
operation waits for, or starts, the COLLECT flit. -/
def decideOp (d : Device) (y : Yard) (t : Fin 64) (o : TeamOp) (refusal : Option Code) (chunks : Nat) : Device :=
  let m := d.team y t
  let st := o.job.stall
  let (d, o) : Device × TeamOp :=
    match refusal with
    | some code => (d.refuseDrove y o.job code, { o with refused := some code, job := { o.job with reserved := 0 } })
    | none =>
      let d := (d.checkLedger o.job).foldl useLedger d
      let d := match d.opSiding o with
        | some s => d.setSiding st o.job.slot o.sidingIdx { s with reserved := s.reserved + chunks }
        | none => d
      let ranges := (d.legRanges m o).filter fun r => d.inLp6 r.1 r.2.bytes
      let left := ranges.flatMap fun r =>
        (d.charges [(r.1, r.2.bytes)]).map fun c => (c.1, d.inService (d.yardAt r.1) * c.2)
      (d, { o with chunks := chunks, rem := left })
  let d := d.modTeam y t fun m => { m with op := some o, phase := .collect }
  if m.rank = Team.starterOf o.desc then d.startCollect y t o
  else
    match m.collect.find? o.asks with
    | some c => d.passCollect y t c
    | none => d

/-- The oldest descriptor of a team is decided, where nothing delays it (R393, R395). -/
def memberDecide (d : Device) (y : Yard) (t : Fin 64) : Device :=
  let m := d.team y t
  let jobs := d.drovers[y].jobs
  match jobs.findIdx? fun j => dfield j.desc 0 42 6 = t.val with
  | none => d
  | some i =>
    match jobs[i]? with
    | none => d
    | some j =>
      let older := (jobs.take i).any fun k => k.stall = j.stall && k.slot = j.slot
      let dropped := d.modDrover y fun v => { v with jobs := v.jobs.eraseIdx i }
      if older || m.op.isSome then d
      else if m.state = .broken then dropped.refuseDrove y j Status.memberFault
      else if m.state = .severed then dropped.refuseDrove y j Status.teamSevered
      else if m.state ≠ .active || d.now = m.since then d
      else if m.rank?.isNone then dropped.refuseDrove y j Status.admissionRefused
      else
        let (d', bs, ok) := d.engRead j.stall j.slot (dfield j.desc 3 0 32) 64
        let counts := (List.range 16).map fun r => leNat ((bs.drop (4 * r)).take 4)
        let o := d.newOp m j counts m.abortPending
        let chunks := ceilDiv (o.inBytes m) (d.chunkSize o)
        let refusal := if ok then d.droveRefusal y m o chunks else some Status.admissionRefused
        let short := refusal.isNone && (d.opSiding o).any fun s => decide (s.depth < s.occupied + s.reserved + chunks)
        if short then d
        else (d'.modDrover y fun v => { v with jobs := v.jobs.eraseIdx i }).decideOp y t o refusal chunks

/-! ### Control flits (R381, R394 to R404, R407, R408) -/

/-- A flit that the team does not expect is dropped and counted. -/
def dropControl (d : Device) (y : Yard) : Device := d.bump (Page.drover y) 0x144 1

/-- A flit of an operation in which this device takes no part goes on, the last one of it where ends is true; with none under
way it is not expected (R381, R394). -/
def passBy (d : Device) (y : Yard) (t : Fin 64) (ends : Bool) (f : Device → Device) : Device :=
  if (d.team y t).through = 0 then d.dropControl y
  else f (if ends then d.modTeam y t fun m => { m with through := m.through - 1 } else d)

/-- A team control flit arrives on the team's − port. It takes effect where its team is ACTIVE; where its slot is not, or VC5
is not common, the partner is HOSTILE (R381). SEVER and FAIL alone go round to every device of the ring, and reach it after
the team has left ACTIVE (R404, R408): they are no offence there, and a SEVERED team drops them (DEDUCED, log 51). -/
def receiveTeam (d : Device) (y : Yard) (t : Fin 64) (h : FlitHeader) (ending : Bool) (f : Device → Device) : Device :=
  let m := d.team y t
  let p := d.teamPort y t true
  let rule : Option Nat :=
    if !d.ports[p].linked then some 8
    else if m.setUp && m.vc = 5 && !(d.ports[p]).has 0 then some 4
    else if m.state ≠ .active && !(ending && m.setUp) then some 5
    else none
  d.receiveFlit p h (if m.setUp then m.vc else 1) rule id fun d =>
    if m.state = .active || m.state = .broken then f d else d.dropControl y

/-- This member takes part in the operation that a COLLECT flit names: every member but the bystanders of a
SEND. -/
def takesPart (m : Team) (c : CollectFlit) : Bool :=
  m.rank?.any fun r => match c.send with
    | some p => r = p.1.toNat || r = p.2.toNat
    | none => true

/-- COLLECT (R394): back at its starter, it fixes frame a; a decided member joins it, a member that has not decided on its
operation holds it. -/
def takeCollect (d : Device) (y : Yard) (t : Fin 64) (c : CollectFlit) : Device :=
  let m := d.team y t
  let hold : Device := d.modTeam y t fun m => { m with collect := m.collect ++ [c] }
  if !takesPart m c then (d.modTeam y t fun m => { m with through := m.through + 1 }).sendCollect y t c
  else
    match m.op with
    | some o =>
      if m.rank = Team.starterOf o.desc then
        if !o.owns c then hold
        else if o.accept.isSome then d.dropControl y
        else d.modOp y t fun o =>
          { o with accept := some d.now, promise := d.now + BitVec.ofNat 48 (m.bound (o.legs m)), returned := some c }
      else if !o.started && o.asks c then d.passCollect y t c
      else hold
    | none => hold

/-- A starter whose final flit has come back, or any other member, closes an operation that has its status, once its
legs have ended (R401, R403, R411). -/
def tryClose (d : Device) (y : Yard) (t : Fin 64) : Device :=
  let m := d.team y t
  match m.op with
  | some o =>
    if !o.live && (o.back || m.rank ≠ Team.starterOf o.desc) && (o.stopped || o.complete m) && (o.refused.isNone || o.back) then
      d.closeOp y t o.worst
    else d
  | none => d

/-- META of the member's own source goes out in frame a + 1, in which LP6 reads begin: the EPOCH of a shard descriptor is
read together with the first bytes of its data (R295, R399). -/
def sendOwnMeta (d : Device) (y : Yard) (t : Fin 64) (o : TeamOp) : Device :=
  let m := d.team y t
  let kind := dfield o.desc 0 26 2
  if kind = 0 ∨ (o.sends m).isNone then d
  else
    let (d, w) : Device × W64 :=
      if kind = 1 then
        let (d, bs, _) := d.readRange (dfield o.desc 1 0 48) 8 (!o.nobook)
        let (d, r) := d.fetchSource o 0 (min 240 (o.outBytes m))
        (d.modOp y t fun o => { o with first := some r }, BitVec.ofNat 64 (leNat bs))
      else (d, 0)
    let e := vget (d.stall o.job.stall).receipts (dfield o.desc 0 20 6) 0
    let (layer, shard, epoch) : BitVec 12 × BitVec 16 × W32 :=
      if kind = 1 then (BitVec.ofNat 12 (field w 32 12), BitVec.ofNat 16 (field w 44 16), BitVec.ofNat 32 (field w 0 32))
      else (BitVec.ofNat 12 (field e 20 12), BitVec.ofNat 16 (field e 4 16), BitVec.ofNat 32 (field e 32 32))
    if (o.sends m).any fun g => g.dst = m.rank then d.modOp y t fun o => { o with metaIn := some (layer, shard, epoch) }
    else d.sendMeta y t (BitVec.ofNat 4 m.rank) layer shard epoch

/-- A VERDICT takes effect at a participant (R396). -/
def applyVerdict (d : Device) (y : Yard) (t : Fin 64) (code : Code) (rank : BitVec 4) : Device :=
  let m := d.team y t
  match m.op with
  | none => d
  | some o =>
    if code = Status.done then
      let a := o.accept.getD (d.now - 1)
      let d := d.modOp y t fun o => { o with accept := some a, promise := a + BitVec.ofNat 48 (m.bound (o.legs m)), go := true }
      let d := d.modTeam y t fun m => { m with phase := .handshake }
      (d.sendOwnMeta y t o).settle y t
    else
      let d := d.endOp y t code 0 rank 0 false
      d.modOp y t fun o => { o with worst := o.refused.getD code, back := m.rank ≠ Team.starterOf o.desc }

/-- What the starter sends at the boundary that begins frame a + 1. -/
def verdictOf (c : CollectFlit) : Code × BitVec 4 :=
  if c.aborted then (Status.aborted, 0)
  else if c.refused then (Status.admissionRefused, c.rank)
  else if !c.matched then (Status.teamSignatureMismatch, 0)
  else (Status.done, 0)

def verdictStep (d : Device) (y : Yard) (t : Fin 64) : Device :=
  let m := d.team y t
  match m.op with
  | some o =>
    match o.returned with
    | some c =>
      if m.rank = Team.starterOf o.desc && !o.go && o.started && o.accept.any (fun a => a ≠ d.now) then
        let v := verdictOf { c with aborted := c.aborted || o.aborted }
        let d := d.sendVerdict y t v.1 v.2
        (d.applyVerdict y t v.1 v.2).modOp y t fun o => { o with returned := none }
      else d
    | none => d
  | none => d

/-- VERDICT (R396): a participant that has passed COLLECT on takes it once; it ends its way at its starter. A device that
takes no part in the operation passes it on. -/
def takeVerdict (d : Device) (y : Yard) (t : Fin 64) (code : Code) (rank : BitVec 4) : Device :=
  let m := d.team y t
  let pass : Device := d.passBy y t (decide (code ≠ Status.done)) (·.sendVerdict y t code rank)
  match m.taking with
  | none => pass
  | some o =>
    if m.rank = Team.starterOf o.desc then
      if o.accept.isNone || o.verdictBack || o.returned.isSome then pass
      else (d.modOp y t fun o => { o with verdictBack := true, back := o.back || !o.go }).tryClose y t
    else if o.started && !o.go && !o.back then
      ((d.sendVerdict y t code rank).applyVerdict y t code rank).tryClose y t
    else pass

/-- META (R399) of a leg of the running operation: kept by the member that the leg's source sends to, and passed on by the
others until it is back at its source. -/
def takeMeta (d : Device) (y : Yard) (t : Fin 64) (src : BitVec 4) (layer : BitVec 12) (shard : BitVec 16) (epoch : W32) :
    Device :=
  let m := d.team y t
  let pass : Device := d.passBy y t false (·.sendMeta y t src layer shard epoch)
  match m.taking with
  | none => pass
  | some o =>
    if !o.go then pass
    else if m.rank? = some src.toNat then d
    else if (o.receives m).any fun g => g.src = src.toNat then
      if o.metaIn.isSome then d.dropControl y
      else d.modOp y t fun o => { o with metaIn := some (layer, shard, epoch) }
    else d.sendMeta y t src layer shard epoch

/-- How early a status stands in the order of R401. -/
def severity (c : Code) : Nat :=
  if c = Status.aborted then 0 else if c = Status.memberFault then 1 else if c = Status.shardStale then 2
  else if c = Status.memEccUncorrected then 3 else 9

/-- The member's own status for a COMPLETE flit (R400, R401): a mismatch that its META already shows counts before the
leg has landed (R411). -/
def ownWorst (d : Device) (o : TeamOp) (m : Team) : Code :=
  let own := if d.stale o m then Status.shardStale else if o.poisoned then Status.memEccUncorrected else Status.done
  if severity o.worst ≤ severity own then o.worst else own

/-- The member's status and k go into a COMPLETE flit (R400 to R402). -/
def joinComplete (d : Device) (m : Team) (o : TeamOp) (c : CompleteFlit) : CompleteFlit :=
  let ready := o.complete m
  let own := d.ownWorst o m
  { allComplete := c.allComplete && ready
    k := max c.k (if ready then o.k else max o.k 1)
    worst := if severity own < severity c.worst then own else c.worst
    rank := if severity own < severity c.worst then BitVec.ofNat 4 m.rank else c.rank }

/-- A held COMPLETE flit goes on once the member is complete or frame p has begun. -/
def releaseComplete (d : Device) (y : Yard) (t : Fin 64) : Device :=
  let m := d.team y t
  match m.op with
  | some o =>
    match o.held with
    | some c =>
      if o.complete m || o.due d.now then
        let d := d.sendComplete y t (d.joinComplete m o c)
        (d.modOp y t fun o => { o with held := none, completeSent := true }).modTeam y t fun m => { m with phase := .completing }
      else d
    | none => d
  | none => d

/-- The final status of an operation from the COMPLETE flit that came back (R401). -/
def finalStatus (o : TeamOp) (c : CompleteFlit) : Code × Code :=
  if severity c.worst < 9 then (c.worst, 0)
  else if c.k ≠ 0 && !o.nobook then (Status.late, Status.memThermalLate)
  else if o.nobook then (Status.unbookedDone, 0)
  else (Status.done, 0)

/-- A COMMIT takes effect: the completion notice (R400, R401). -/
def applyCommit (d : Device) (y : Yard) (t : Fin 64) (code cause : Code) (k : Nat) : Device :=
  let d := d.endOp y t code cause 0 k false
  d.modOp y t fun o => { o with worst := code, k := k }

/-- The leader's own COMPLETE flit starts: it is complete, or frame p begins (R400). -/
def completeStep (d : Device) (y : Yard) (t : Fin 64) : Device :=
  let d := d.settle y t
  let m := d.team y t
  match m.op with
  | some o =>
    if o.go && o.live && !o.completeSent && m.rank = Team.starterOf o.desc && (o.complete m || o.due d.now) then
      let d := d.sendComplete y t (d.joinComplete m o { allComplete := true, k := 0, worst := Status.done, rank := 0 })
      (d.modOp y t fun o => { o with completeSent := true }).modTeam y t fun m => { m with phase := .completing }
    else d
  | none => d

/-- COMPLETE (R400): a member of a running operation holds it until it is complete or frame p has begun, once; back at
the starter it decides the final status. -/
def takeComplete (d : Device) (y : Yard) (t : Fin 64) (c : CompleteFlit) : Device :=
  let d := d.settle y t
  let m := d.team y t
  let pass : Device := d.passBy y t false (·.sendComplete y t c)
  match m.taking with
  | none => pass
  | some o =>
    if !o.go || !o.live then pass
    else if m.rank = Team.starterOf o.desc then
      if o.completeSent then
        let s := finalStatus o c
        (d.sendCommit y t s.1 c.k).applyCommit y t s.1 s.2 c.k
      else pass
    else if o.completeSent || o.held.isSome then pass
    else (d.modOp y t fun o => { o with held := some c }).releaseComplete y t

/-- COMMIT (R400): a member takes it once, after its COMPLETE or as an abort (R407); it ends its way at the starter that
sent it. -/
def takeCommit (d : Device) (y : Yard) (t : Fin 64) (code : Code) (k : Nat) : Device :=
  let m := d.team y t
  let pass : Device := d.passBy y t true (·.sendCommit y t code k)
  match m.taking with
  | none => pass
  | some o =>
    if m.rank = Team.starterOf o.desc then
      if o.go && !o.live && !o.back then (d.modOp y t fun o => { o with back := true }).tryClose y t else pass
    else if o.go && o.live && (o.completeSent || code = Status.aborted) then
      let cause := if code = Status.late then Status.memThermalLate else 0
      ((d.sendCommit y t code k).applyCommit y t code cause k).tryClose y t
    else pass

/-- FAIL (R403, R404): every member reports MEMBER_FAULT; the team is BROKEN unless a channel went offline. It
ends its way where it began. -/
def takeFail (d : Device) (y : Yard) (t : Fin 64) (code cause : Code) (rank : BitVec 4) : Device :=
  if (d.team y t).rank? = some rank.toNat then d
  else
    let d := (d.sendFail y t code cause rank).modTeam y t fun m => { m with through := 0 }
    let d := d.endOp y t code cause rank 0 true
    if cause = Status.memChannelOffline then d else d.breakTeam y t .broken

/-- SEVER (R408): it goes on from every device that it newly severs. -/
def takeSever (d : Device) (y : Yard) (t : Fin 64) (rank : BitVec 4) : Device :=
  if (d.team y t).state = .severed then d
  else ((d.sendSever y t rank).breakTeam y t .severed).endOp y t Status.teamSevered 0 0 0 true

/-- An abort reaches the leader: before its commit point the operation ends ABORTED (R407). -/
def leaderAbort (d : Device) (y : Yard) (t : Fin 64) (o : TeamOp) : Device :=
  if !o.live then (if (d.team y t).abortPending then d.abortAnswer y t Status.abortTooLate else d)
  else if o.go then (d.sendCommit y t Status.aborted 0).applyCommit y t Status.aborted 0 0
  else d.modOp y t fun o => { o with aborted := true }

def takeAbort (d : Device) (y : Yard) (t : Fin 64) (rank : BitVec 4) : Device :=
  let m := d.team y t
  match m.op with
  | some o => if m.rank = Team.starterOf o.desc then d.leaderAbort y t o
              else if m.rank = rank.toNat then d else d.sendAbort y t rank
  | none => if m.rank? = some rank.toNat then d else d.sendAbort y t rank

/-! ### Commands of the DROVER page (R377, R379, R407) -/

/-- TEAM_ABORT. -/
def teamAbortCmd (d : Device) (y : Yard) (v : W32) : Device :=
  if !d.serving then d
  else
    let t : Fin 64 := Fin.ofNat 64 (field v 0 6)
    let m := d.team y t
    let pend (d : Device) : Device := d.modTeam y t fun m => { m with abortPending := true }
    match m.op with
    | some o =>
      if !o.live then d.abortAnswer y t Status.abortTooLate
      else if m.rank = Team.starterOf o.desc then (pend d).leaderAbort y t o
      else if !o.started then (pend d).modOp y t fun o => { o with aborted := true }
      else (pend d).sendAbort y t (BitVec.ofNat 4 m.rank)
    | none =>
      if d.drovers[y].jobs.any fun j => dfield j.desc 0 42 6 = t.val then pend d
      else d.abortAnswer y t Status.abortTooLate

/-- TEAM_RESULT is updated: the page's event, and the answer to the host command that asked. -/
def teamResult (d : Device) (y : Yard) (t : Fin 64) (who : Option Asker) (c : Code) : Device :=
  let d := (d.modDrover y fun v => { v with result := c }).eventCode (Page.drover y) 1 c
  match who with
  | some (q, cid) => d.finishCmd q (fun h => h.cid = cid && h.wait = .teamAt y t) c (c.setWidth 64)
  | none => d

/-- CREATE of a team slot with a record and a frame (R377): a frame that has begun is refused at once. -/
def createTeam (d : Device) (y : Yard) (t : Fin 64) (dpa : Nat) (act : Frame) (who : Option Asker) : Device :=
  if act ≤ d.now then d.teamResult y t who Status.teamConfigInvalid
  else d.modTeam y t fun m =>
    { m with
      creates := m.creates ++ [{ dpa := dpa, act := act, who := who, holds := m.state = .free }]
      state := if m.state = .free then .pending else m.state }

/-- DESTROY of a team slot at a frame (R379). -/
def destroyTeam (d : Device) (y : Yard) (t : Fin 64) (f : Frame) (who : Option Asker) : Device :=
  if f ≤ d.now then d.teamResult y t who Status.teamConfigInvalid
  else d.modTeam y t fun m => { m with destroys := m.destroys ++ [(f, who)] }

/-- A CREATE leaves its slot's list; a slot that it made PENDING is FREE again. -/
def dropCreate (d : Device) (y : Yard) (t : Fin 64) (c : TeamCreate) : Device :=
  d.modTeam y t fun m => { m with creates := m.creates.erase c, state := if c.holds then .free else m.state }

def teamFrameReg (d : Device) (y : Yard) : Frame :=
  BitVec.ofNat 48 ((d.preg (Page.drover y) 0x114).toNat + d.pfield (Page.drover y) 0x118 0 16 * 2 ^ 32)

/-- TEAM_CMD. -/
def teamCmd (d : Device) (y : Yard) (v : W32) : Device :=
  let t : Fin 64 := Fin.ofNat 64 (field v 0 6)
  if !d.serving then d
  else if field v 16 2 = 1 then
    d.createTeam y t ((d.preg (Page.drover y) 0x10C).toNat + d.pfield (Page.drover y) 0x110 0 16 * 2 ^ 32) (d.teamFrameReg y)
      none
  else if field v 16 2 = 2 then d.destroyTeam y t (d.teamFrameReg y) none
  else d

/-- The record of a team fits its drover, the ports and the memory (R377, R378). -/
def teamFits (d : Device) (y : Yard) (t : Fin 64) (m : Team) : Bool :=
  let bits := m.members
  let d' := d.modTeam y t fun _ => { m with state := .active }
  let plus := d'.teamPort y t false
  let minus := d'.teamPort y t true
  m.axis / 2 = y.val && decide (2 ≤ bits.length) && bits.all (· < m.ring) && decide (1 ≤ m.vc) && decide (m.vc ≤ 5)
    && decide (240 ≤ m.booking false)
    && (m.rank?.isSome || (m.lp6Res 0 = 0 && m.lp6Res 1 = 0 && m.bridgeRes = 0))
    && decide (d'.teamFlits y plus m.vc ≤ d.book plus m.vc) && decide (d'.teamFlits y minus m.vc ≤ d.book minus m.vc)
    && d'.lp6Fits 0 && d'.lp6Fits 1

/-- Why the record of a team is refused at activation: R377's cases, and the bridge reserve with the code that R25 gives
(DEDUCED, log 55). -/
def teamRefusal (d : Device) (y : Yard) (t : Fin 64) (m : Team) : Option Code :=
  if !d.teamFits y t m then some Status.teamConfigInvalid
  else if !(d.modTeam y t fun _ => { m with state := .active }).bridgeFits then some Status.admissionRefused
  else none

/-- A CREATE whose frame ACT has come (R377): it needs a slot that is FREE but for the CREATE itself. A record that R35 or
R36 keeps from being read answers with their codes. -/
def activateOne (d : Device) (y : Yard) (t : Fin 64) (c : TeamCreate) : Device :=
  let d := d.dropCreate y t c
  let m := d.team y t
  if m.state ≠ .free || c.dpa % 8 ≠ 0 then d.teamResult y t c.who Status.teamConfigInvalid
  else if !d.mapped c.dpa 64 then d.teamResult y t c.who Status.addressUnmapped
  else if !d.inLp6 c.dpa 64 then d.teamResult y t c.who Status.teamConfigInvalid
  else
    let (d, bs, bad) := d.readRange c.dpa 64 false
    let new : Team := { Reset.team with
      state := .active, record := Vector.ofFn fun i : Fin 8 => BitVec.ofNat 64 (leNat ((bs.drop (8 * i)).take 8))
      act := c.act, since := c.act, turn := m.turn, nextSeq := m.nextSeq, sendSeq := m.sendSeq, creates := m.creates
      destroys := m.destroys, abortPending := m.abortPending }
    match (failCode bad).or (d.teamRefusal y t new) with
    | some code => d.teamResult y t c.who code
    | none => (d.modTeam y t fun _ => new).teamResult y t c.who Status.done

/-- The boundary that begins frame ACT. -/
def activateTeam (d : Device) (y : Yard) (t : Fin 64) : Device :=
  ((d.team y t).creates.filter fun c => decide (c.act ≤ d.now)).foldl (fun d c => d.activateOne y t c) d

/-- A DESTROY whose frame has come (R379): an operation that has its status and is not closed returns what it holds. -/
def freeOne (d : Device) (y : Yard) (t : Fin 64) (f : Frame × Option Asker) : Device :=
  let d := d.modTeam y t fun m => { m with destroys := m.destroys.erase f }
  let m := d.team y t
  if !m.setUp || m.op.any (·.live) || d.drovers[y].jobs.any fun j => dfield j.desc 0 42 6 = t.val then
    d.teamResult y t f.2 Status.teamConfigInvalid
  else
    let d := match m.op with
      | some o => d.closeOp y t o.worst
      | none => d
    (d.modTeam y t fun m =>
      { Reset.team with turn := m.turn, creates := m.creates, destroys := m.destroys }).teamResult y t f.2 Status.done

/-- The boundary of a DESTROY. -/
def freeTeam (d : Device) (y : Yard) (t : Fin 64) : Device :=
  ((d.team y t).destroys.filter fun f => decide (f.1 ≤ d.now)).foldl (fun d f => d.freeOne y t f) d

end Device

/-! ### The commands -/

def execShift (st : StallId) (m : MFormat) (s : State) : Host.Outcome State Fault Refusal :=
  .next (s.onDev fun d => d.issue st 1 fun d => d.droveSubmit st m (Coeri.firstWord (.shift st m)))

def execPermute (st : StallId) (m : MFormat) (s : State) : Host.Outcome State Fault Refusal :=
  .next (s.onDev fun d => d.issue st 1 fun d => d.droveSubmit st m (Coeri.firstWord (.permute st m)))

/-- SUBMIT of a SEND operation. -/
def execTeamSend (st : StallId) (m : MFormat) (s : State) : Host.Outcome State Fault Refusal :=
  .next (s.onDev fun d => d.issue st 1 fun d => d.droveSubmit st m (Coeri.firstWord (.teamSend st m)))

def execSiding (st : StallId) (m : MFormat) (s : State) : Host.Outcome State Fault Refusal :=
  .next (s.onDev fun d => d.issue st 1 fun d => d.droveSiding st m (Coeri.firstWord (.siding st m)))

def execRelease (st : StallId) (m : MFormat) (s : State) : Host.Outcome State Fault Refusal :=
  .next (s.onDev fun d => d.issue st 1 fun d => d.droveRelease st m (Coeri.firstWord (.release st m)))

def execPermset (st : StallId) (m : MFormat) (s : State) : Host.Outcome State Fault Refusal :=
  .next (s.onDev fun d => d.issue st 1 fun d => d.drovePermset st m (Coeri.firstWord (.permset st m)))

def execMemberDecide (dr : Yard) (t : Fin 64) (s : State) : Host.Outcome State Fault Refusal :=
  .next (s.onDev fun d => d.memberDecide dr t)

def execCollect (dr : Yard) (t : Fin 64) (h : FlitHeader) (c : CollectFlit) (s : State) : Host.Outcome State Fault Refusal :=
  .next (s.onDev fun d => d.receiveTeam dr t h false fun d => d.takeCollect dr t c)

def execVerdictSend (dr : Yard) (t : Fin 64) (s : State) : Host.Outcome State Fault Refusal :=
  .next (s.onDev fun d => d.verdictStep dr t)

def execVerdict (dr : Yard) (t : Fin 64) (h : FlitHeader) (code : Code) (rank : BitVec 4) (s : State) :
    Host.Outcome State Fault Refusal :=
  .next (s.onDev fun d => d.receiveTeam dr t h false fun d => d.takeVerdict dr t code rank)

def execMetaFlit (dr : Yard) (t : Fin 64) (h : FlitHeader) (src : BitVec 4) (layer : BitVec 12) (shard : BitVec 16)
    (epoch : W32) (s : State) : Host.Outcome State Fault Refusal :=
  .next (s.onDev fun d => d.receiveTeam dr t h false fun d => d.takeMeta dr t src layer shard epoch)

/-- A chunk has fully landed (R390, R295). -/
def execChunkLanded (dr : Yard) (t : Fin 64) (s : State) : Host.Outcome State Fault Refusal :=
  .next (s.onDev fun d =>
    match (d.team dr t).op with
    | some o =>
      if o.go && decide (o.posted < o.chunks) &&
          decide (o.posted * d.chunkSize o + d.chunkBytes dr t o o.posted ≤ o.gotBytes) then
        ((d.chunkStep dr t o).releaseComplete dr t).tryClose dr t
      else d
    | none => d)

/-- The boundary that begins frame p, or the leader's own completion (R400). -/
def execCompleteStart (dr : Yard) (t : Fin 64) (s : State) : Host.Outcome State Fault Refusal :=
  .next (s.onDev fun d => d.completeStep dr t)

def execComplete (dr : Yard) (t : Fin 64) (h : FlitHeader) (c : CompleteFlit) (s : State) :
    Host.Outcome State Fault Refusal :=
  .next (s.onDev fun d => d.receiveTeam dr t h false fun d => d.takeComplete dr t c)

def execCommit (dr : Yard) (t : Fin 64) (h : FlitHeader) (code : Code) (k : Nat) (s : State) :
    Host.Outcome State Fault Refusal :=
  .next (s.onDev fun d => d.receiveTeam dr t h false fun d => d.takeCommit dr t code k)

def execFail (dr : Yard) (t : Fin 64) (h : FlitHeader) (code cause : Code) (rank : BitVec 4) (s : State) :
    Host.Outcome State Fault Refusal :=
  .next (s.onDev fun d => d.receiveTeam dr t h true fun d => d.takeFail dr t code cause rank)

def execSever (dr : Yard) (t : Fin 64) (h : FlitHeader) (rank : BitVec 4) (s : State) : Host.Outcome State Fault Refusal :=
  .next (s.onDev fun d => d.receiveTeam dr t h true fun d => d.takeSever dr t rank)

def execTeamAbortFlit (dr : Yard) (t : Fin 64) (h : FlitHeader) (rank : BitVec 4) (s : State) :
    Host.Outcome State Fault Refusal :=
  .next (s.onDev fun d => d.receiveTeam dr t h false fun d => d.takeAbort dr t rank)

/-- HS_LIMIT frames have passed since the decision and COLLECT has not returned (R404). -/
def execHsLimitExpiry (dr : Yard) (t : Fin 64) (s : State) : Host.Outcome State Fault Refusal :=
  .next (s.onDev fun d =>
    let m := d.team dr t
    match m.op with
    | some o =>
      if o.accept.isNone && m.hsLimit ≠ 0 && decide (m.hsLimit ≤ Device.since d.now o.decided) then
        let r : BitVec 4 := BitVec.ofNat 4 m.rank
        ((d.sendFail dr t Status.memberFault 0 r).endOp dr t Status.memberFault 0 r 0 true).breakTeam dr t .broken
      else d
    | none => d)

/-- No COMMIT by the end of frame p + 2, or p + k + 2 (R408). -/
def execSeverTimeout (dr : Yard) (t : Fin 64) (s : State) : Host.Outcome State Fault Refusal :=
  .next (s.onDev fun d =>
    let m := d.team dr t
    match m.op with
    | some o =>
      if o.go && o.live && !o.nobook && o.reached d.now (m.bound (o.legs m) + o.k + 3) then
        d.endOp dr t Status.teamSevered 0 0 0 true
      else d
    | none => d)

def execTeamAbort (_who : Requester) (dr : Yard) (v : W32) (s : State) : Host.Outcome State Fault Refusal :=
  .next (s.onDev fun d => d.teamAbortCmd dr v)

/-- TEAM_CMD with CREATE. -/
def execTeamCmdCreate (_who : Requester) (dr : Yard) (v : W32) (s : State) : Host.Outcome State Fault Refusal :=
  .next (s.onDev fun d => d.teamCmd dr v)

/-- The boundary that begins frame ACT activates the team, at step 9 (R85, R377). -/
def execTeamActivate (dr : Yard) (t : Fin 64) (s : State) : Host.Outcome State Fault Refusal :=
  .next (s.onDev fun d => if d.inBoundary then d else d.activateTeam dr t)

/-- TEAM_CMD with DESTROY. -/
def execTeamCmdDestroy (_who : Requester) (dr : Yard) (v : W32) (s : State) : Host.Outcome State Fault Refusal :=
  .next (s.onDev fun d => d.teamCmd dr v)

def execTeamFree (dr : Yard) (t : Fin 64) (s : State) : Host.Outcome State Fault Refusal :=
  .next (s.onDev fun d => d.freeTeam dr t)

end Sys2Proof.Machine
end

