-- ==== Sys2Proof/Machine/Formats.lean ====
section
/-! DEFINITION. The tensor formats (R175 to R188): element codes and values, MX blocks, Z4E blocks, and
rounding into a format in the gate (R194 to R197). -/

namespace Sys2Proof.Machine.Tile

/-- Formats 0 to 13 exist; 14 and 15 are reserved (R175). -/
def ok (f : Nat) : Bool := decide (f < 14)

/-- Element bits of R175. -/
def bits (f : Nat) : Nat :=
  if f = 0 then 32
  else if f = 1 then 64
  else if f = 2 ∨ f = 3 then 16
  else if f = 6 ∨ f = 11 ∨ f = 13 then 4
  else if f = 9 ∨ f = 10 then 6
  else 8

/-- MX formats and Z4E store blocks of 32 elements with a scale. -/
def block (f : Nat) : Bool := decide (7 ≤ f) && decide (f < 14)

/-- The format classes of R209; the 6-bit formats lie in the 8-bit class. -/
def cls (f : Nat) : Nat := if bits f = 6 then 8 else bits f

/-- Transposed loads and feeds accept formats 2 to 5 (R245). -/
def transOk (f : Nat) : Bool := decide (2 ≤ f) && decide (f ≤ 5)

/-- The floating-point encoding of an element. -/
def elem (f : Nat) : FFmt :=
  if f = 0 then .fp32
  else if f = 1 then .fp64
  else if f = 2 then .bf16
  else if f = 3 then .fp16
  else if f = 4 ∨ f = 7 then .e4m3
  else if f = 5 ∨ f = 8 then .e5m2
  else if f = 9 then .e3m2
  else if f = 10 then .e2m3
  else .e2m1

/-- Subnormals of the format read and write as zero: FP32 and FP64 always, every format in mode F
(R190, R191). -/
def flushes (f : Nat) (modeF : Bool) : Bool := modeF || f = 0 || f = 1

/-- The value of an element code, less its block scale (R176, R182). -/
def value (f : Nat) (modeF : Bool) (code : Nat) : FVal :=
  if f = 12 then
    let k := intOfNat 8 code
    .num (decide (k < 0)) k.natAbs (-6)
  else (elem f).decodeF (flushes f modeF) code

/-- The n element codes of width w in little-endian bytes (R183). -/
def codesOf (w n : Nat) (bs : List Byte) : List Nat :=
  let x := leNat bs
  (List.range n).map fun i => (x >>> (w * i)) % 2 ^ w

/-- Element codes of width w as little-endian bytes. -/
def bytesOf (w : Nat) (codes : List Nat) : List Byte :=
  leBytes (codes.length * w / 8) (codes.foldr (fun c n => c % 2 ^ w + n * 2 ^ w) 0)

/-- A stored block: 32 element codes, its scale code and, for Z4E, the four slots of its side list. -/
structure Block where
  codes : List Nat
  scale : Nat
  side : List Nat
deriving DecidableEq, Repr

/-- A block from its stored bytes. -/
def blockOf (f : Nat) (elems : List Byte) (scale : Byte) (side : List Byte) : Block :=
  { codes := codesOf (bits f) 32 elems, scale := scale.toNat, side := codesOf 16 4 side }

/-- A value times the scale of code c (R180, R181). -/
def scaleBy (c : Nat) : FVal → FVal
  | .num n m e => .num n m (e + c - 127)
  | v => v

/-- The values of a block's elements, and whether it has a fifth escape (R181, R184 to R187). -/
def blockValues (f : Nat) (modeF : Bool) (b : Block) : List FVal × Bool :=
  if b.scale = 0xFF then (b.codes.map fun _ => .nan, false)
  else
    let r := b.codes.foldl (fun (x : List FVal × Nat) c =>
      if f = 13 ∧ c = 8 then
        let v := if x.2 < 4 then FFmt.bf16.decodeF modeF ((b.side[x.2]?).getD 0) else .num false 0 0
        (v :: x.1, x.2 + 1)
      else (scaleBy b.scale (value f modeF c) :: x.1, x.2)) ([], 0)
    (r.1.reverse, decide (4 < r.2))

/-- round_fp of R194, R197: the code, and whether it saturated. -/
def roundFp (f : FFmt) (flush : Bool) : FVal → Nat × Bool
  | .nan => (f.nan, false)
  | .inf n => (f.largest n, true)
  | .num n m e =>
    if m = 0 then (f.zero n, false)
    else
      let q := max (topExp m e) f.emin - f.mbits
      let r := (rneShift m (q - e)).1
      let (r, q) := if r = 2 ^ (f.mbits + 1) then (2 ^ f.mbits, q + 1) else (r, q)
      if f.maxFinite.2 < q ∨ (q = f.maxFinite.2 ∧ f.maxFinite.1 < r) then (f.largest n, true)
      else if flush ∧ r < 2 ^ f.mbits then (f.zero n, false)
      else (f.pack n r q, false)

/-- Narrowing of a finite value to an element code, with saturation (R194 to R197). -/
def narrow (f : Nat) (modeF : Bool) (v : FVal) : Nat × Bool :=
  if f = 12 then
    match v with
    | .nan => (0, false)
    | .inf n => (if n then 0x81 else 0x7F, true)
    | .num n m e =>
      let k := (nearestInt n m (e + 6)).1
      if k < -127 then (0x81, true) else if 127 < k then (0x7F, true) else (natOfInt 8 k, false)
  else
    let r := roundFp (elem f) (flushes f modeF) v
    if f = 13 ∧ r.1 = 8 then (0, r.2) else r

end Sys2Proof.Machine.Tile
end

