-- ==== Sys2Proof/Machine/ForgeData.lean ====
section
/-! DEFINITION. The data of a Forge: FP64 arithmetic, templates and their load, the elements of sources, assembly,
and the gradients of the backward request (R424 to R432, R434, R444, R445). -/

namespace Sys2Proof.Machine

/-! ### FP64 arithmetic (R426) -/

def val64 (x : W64) : FVal := FFmt.fp64.decode x.toNat
def round64 (v : FVal) : W64 := BitVec.ofNat 64 (FFmt.fp64.roundVal false v).1
def add64 (x y : W64) : W64 := round64 (FFmt.addVal (val64 x) (val64 y)).1
def mul64 (x y : W64) : W64 := round64 (FFmt.mulVal (val64 x) (val64 y)).1
def div64 (x y : W64) : W64 := round64 (FFmt.divVal .fp64 (val64 x) (val64 y)).1
def fma64 (x y z : W64) : W64 := round64 (FFmt.fmaVal (val64 x) (val64 y) (val64 z)).1
def neg64 (x : W64) : W64 := round64 (FFmt.negate (val64 x))
def one64 : W64 := 0x3FF0_0000_0000_0000
def half64 : W64 := 0x3FE0_0000_0000_0000
def nan64 : W64 := 0x7FF8_0000_0000_0000

/-- A value that the Forge writes: every NaN is the canonical one. -/
def canon64 (x : W64) : W64 := if (val64 x).isNan then nan64 else x

def finite64 (x : W64) : Bool :=
  match val64 x with
  | .num _ _ _ => true
  | _ => false

def isInf (neg : Bool) (x : W64) : Bool := val64 x = .inf neg

/-- x > y. -/
def above64 (x y : W64) : Bool := decide (0 < cmpVal (val64 x) (val64 y))

def doubles (l : List W64) : List Byte := l.flatMap fun x => leBytes 8 x.toNat

/-- The n doubles of some bytes. -/
def ofBytes (bs : List Byte) (n : Nat) : List W64 :=
  (List.range n).map fun i => BitVec.ofNat 64 (leNat ((bs.drop (8 * i)).take 8))

/-- A list cut or filled with NaN to length n. -/
def fit64 (n : Nat) (l : List W64) : List W64 := (l.take n).map canon64 ++ List.replicate (n - l.length) nan64

def nth (l : List W64) (i : Nat) : W64 := (l[i]?).getD 0

/-! ### Templates -/

namespace Template

/-- Values that assembly produces, in target-table order: P, q, A, l, u (R428). -/
def targets (t : Template) : Nat := t.nnzP + t.n + t.nnzA + 2 * t.m
def qAt (t : Template) : Nat := t.nnzP
def aAt (t : Template) : Nat := t.nnzP + t.n
def lAt (t : Template) : Nat := t.nnzP + t.n + t.nnzA
def uAt (t : Template) : Nat := t.nnzP + t.n + t.nnzA + t.m

/-- c of R431. -/
def held (t : Template) : Nat := min 4 (8388608 / max 1 t.work)

/-- Bytes of a solution record, and the stride of records. -/
def stride (t : Template) : Nat := roundUp (64 + 8 * t.n + 8 * t.m) 64
def rawStride (t : Template) : Nat := roundUp (8 * (t.nnzP + t.n + t.nnzA + 2 * t.m)) 64

/-- The column of each nonzero of a pattern. -/
def columns (col : List Nat) : List Nat :=
  (List.range (col.length - 1)).flatMap fun j =>
    List.replicate ((col[j + 1]?).getD 0 - (col[j]?).getD 0) j

/-- Row and column of each nonzero. -/
def entries (col row : List Nat) : List (Nat × Nat) := row.zip (columns col)

end Template

/-- The numbers of width k bytes that a byte list holds. -/
def numbers (k : Nat) (bs : List Byte) : List Nat :=
  (List.range (bs.length / k)).map fun i => leNat ((bs.drop (k * i)).take k)

/-- A pattern keeps R427: its pointers rise from 0 to the number of nonzeros, and rows ascend in each column within
the bound given for the column. -/
def patternLegal (n nnz : Nat) (col row : List Nat) (bound : Nat → Nat) (diagonal : Bool) : Bool :=
  col.length = n + 1 && row.length = nnz && (col[0]?).getD 1 = 0 && (col[n]?).getD (nnz + 1) = nnz
    && (List.range n).all fun j =>
      let lo := (col[j]?).getD 0
      let hi := (col[j + 1]?).getD 0
      let rows := (row.drop lo).take (hi - lo)
      decide (lo ≤ hi) && decide (hi ≤ nnz) && decide (rows.Pairwise (· < ·)) && rows.all (fun r => decide (r < bound j))
        && (!diagonal || rows.contains j)

/-- The figures of R431 for a template whose header, patterns and tables are read. -/
def Template.figures (t : Template) (fact : Nat) : Template :=
  let full := t.n * (t.n + 1) / 2
  let fill := (Config.factorPattern t.n t.pCol t.pRow t.aCol t.aRow).length
  let dense := fact = 1 || (fact = 0 && (decide (t.n ≤ 256) || decide (t.n * (t.n + 1) / 4 < fill)))
  let nnz := if dense then full else fill
  let f := if dense then ceilDiv (t.n * t.n * t.n) 384 else Config.panelCycles t.n t.pCol t.pRow t.aCol t.aRow
  let s := ceilDiv nnz 16
  let k := ceilDiv ((below t.m fun _ => true).map fun i => (t.aRow.filter (· = i)).length ^ 2).sum 64
  let ret := 8 * (nnz + 2 * t.n + 2 * t.m)
  let sha := Sha.sha256 (leBytes 4 t.version.toNat ++ leBytes 2 t.n ++ leBytes 2 t.m ++ leBytes 4 t.nnzP ++ leBytes 4 t.nnzA
    ++ t.pCol.flatMap (leBytes 4) ++ t.pRow.flatMap (leBytes 2) ++ t.aCol.flatMap (leBytes 4) ++ t.aRow.flatMap (leBytes 2))
  { t with
    dense := dense
    iter := f + s + k + ceilDiv (t.nnzP + 2 * t.nnzA) 16 + ceilDiv (t.n + t.m) 2 + 512
    setup := ceilDiv t.nterms 4 + ceilDiv ret 64 + 1024
    back := 2 * s + ceilDiv (t.nnzP + 2 * t.nnzA) 8 + ceilDiv t.nterms 4 + ceilDiv ret 64 + 512
    work := 8 * (nnz + t.nnzP + t.nnzA + 12 * t.n + 10 * t.m) + 65536
    ret := ret
    fprint := BitVec.ofNat 64 (leNat (sha.take 8)) }

namespace Device

/-- TPL_LP6 of a template (R431): the charge of R318, in 64 B units, for the reads of the two tables, the writes of the
retention and of the solution record, and the sources of kind DPA read in full. -/
def templateCharge (d : Device) (t : Template) : Nat :=
  let place (i bytes : Nat) : Nat × Nat := (64 * Config.chargeUnit t.dpa i, bytes)
  let sources := ((List.range t.nsrc).filter (Config.chargeDpa t.dpa)).map fun i => place (2 + i) (8 * (t.elems[i]?).getD 0)
  let all := [(t.tgt, 16 * t.targets), (t.term, 16 * t.nterms), place 0 t.ret, place 1 t.stride] ++ sources
  ceilDiv (maxOf ((d.charges all).map fun c => (c.1, d.inService (Fin.ofNat 2 (c.1.val / 32)) * c.2))) 64

/-- A read of LP6 memory by a load, or the code with which it fails (R35, R36): a part of a template in a loft breaks
R424. -/
def lp6Read (d : Device) (a n : Nat) : Device × (Code ⊕ List Byte) :=
  if !d.mapped a n then (d, .inl Status.addressUnmapped)
  else if !d.inLp6 a n then (d, .inl Status.forgeTemplateInvalid)
  else
    let (d, bs, bad) := d.readRange a n false
    (d, match failCode bad with
      | some c => .inl c
      | none => .inr bs)

/-- The header of a template (R424, R427), with the offsets of its parts. -/
def readHeader (d : Device) (dpa : Nat) : Device × (Code ⊕ (Template × Nat × List Nat)) :=
  if dpa % 64 ≠ 0 then (d, .inl Status.forgeTemplateInvalid)
  else
    let (d, h) := d.lp6Read dpa 64
    match h with
    | .inl c => (d, .inl c)
    | .inr b =>
      let get (o k : Nat) : Nat := leNat ((b.drop o).take k)
      let t : Template :=
        { dpa := dpa, version := BitVec.ofNat 32 (get 0 4), n := get 4 2, m := get 6 2, nnzP := get 8 4, nnzA := get 12 4
          delta := BitVec.ofNat 64 (get 0x10 8), nsrc := get 0x19 1, nterms := get 0x1C 4, dense := false
          tgt := dpa + get 0x30 8, term := dpa + get 0x38 8, elems := [], pCol := [], pRow := [], aCol := [], aRow := []
          iter := 0, setup := 0, back := 0, work := 0, ret := 0, lp6 := 0, fprint := 0 }
      let offs := [get 0x20 8, get 0x28 8, get 0x30 8, get 0x38 8]
      let ok := decide (1 ≤ t.n) && decide (t.n ≤ 1024) && decide (t.m ≤ 2048) && decide (t.nnzP + t.nnzA ≤ 65536)
        && finite64 t.delta && above64 t.delta 0 && decide (get 0x18 1 ≤ 2) && decide (1 ≤ t.nsrc) && decide (t.nsrc ≤ 8)
        && get 0x1A 2 = 0 && decide (t.nterms ≤ 1048576) && offs.all (· % 64 = 0)
      (d, if ok then .inr (t, get 0x18 1, offs) else .inl Status.forgeTemplateInvalid)

/-- A pattern at a DPA: its column pointers and row indices. -/
def readPattern (d : Device) (a n nnz : Nat) : Device × (Code ⊕ (List Nat × List Nat)) :=
  let (d, x) := d.lp6Read a (4 * (n + 1))
  let (d, y) := d.lp6Read (a + 4 * (n + 1)) (2 * nnz)
  match x, y with
  | .inr x, .inr y => (d, .inr (numbers 4 x, numbers 2 y))
  | .inl c, _ => (d, .inl c)
  | .inr _, .inl c => (d, .inl c)

/-- The template at a DPA as the load reads and checks it, or the code with which the load fails (R35, R36, R430). -/
def readTemplate (d : Device) (dpa : Nat) : Device × (Code ⊕ Template) :=
  let (d, h) := d.readHeader dpa
  match h with
  | .inl c => (d, .inl c)
  | .inr (t, fact, offs) =>
    let (d, p) := d.readPattern (dpa + (offs[0]?).getD 0) t.n t.nnzP
    let (d, a) := d.readPattern (dpa + (offs[1]?).getD 0) t.n t.nnzA
    let (d, g) := d.lp6Read t.tgt (16 * t.targets)
    let (d, e) := d.lp6Read t.term (16 * t.nterms)
    match p, a, g, e with
    | .inr p, .inr a, .inr g, .inr e =>
      let gs := numbers 8 g
      let es := numbers 8 e
      let pair (l : List Nat) (i : Nat) : Nat × Nat := ((l[2 * i]?).getD 0, (l[2 * i + 1]?).getD 0)
      let targetOk := (List.range t.targets).all fun i =>
        let w := (pair gs i).2
        decide (w % 2 ^ 32 + w / 2 ^ 32 ≤ t.nterms)
      let termOk := (List.range t.nterms).all fun i =>
        let (c, w) := pair es i
        finite64 (BitVec.ofNat 64 c) && decide (w < 2 ^ 27) && decide (w / 2 ^ 24 < t.nsrc)
      let elems := (List.range 8).map fun s =>
        ((List.range t.nterms).map fun i =>
          let w := (pair es i).2
          if w / 2 ^ 24 = s then w % 2 ^ 24 + 1 else 0).foldl max 0
      let t : Template := { t with pCol := p.1, pRow := p.2, aCol := a.1, aRow := a.2, elems := elems }
      let t := t.figures fact
      let t := { t with lp6 := d.templateCharge t }
      let ok := patternLegal t.n t.nnzP t.pCol t.pRow (· + 1) true && patternLegal t.n t.nnzA t.aCol t.aRow (fun _ => t.m) false
        && targetOk && termOk && decide (t.work ≤ 8388608)
      (d, if ok then .inr t else .inl Status.forgeTemplateInvalid)
    | .inl c, _, _, _ => (d, .inl c)
    | _, .inl c, _, _ => (d, .inl c)
    | _, _, .inl c, _ => (d, .inl c)
    | _, _, _, .inl c => (d, .inl c)

end Device

/-! ### Sources (R434) -/

/-- A 32 B entry of a source or gradient table. -/
abbrev Source := Vector W64 4

namespace Source

def base (x : Source) : Nat := field x[0] 0 48
def fmt (x : Source) : Nat := field x[0] 48 4
def isDpa (x : Source) : Bool := flag x[0] 52
def enabled (x : Source) : Bool := flag x[0] 53
def scaleBase (x : Source) : Nat := field x[1] 0 32
def sideBase (x : Source) : Nat := field x[1] 32 32
def pstride (x : Source) : Nat := field x[2] 0 32
def len (x : Source) : Nat := field x[2] 32 32

/-- The formats of R435: codes 0 to 13, and FP64 for a source of kind DPA. -/
def formatOk (x : Source) : Bool := Tile.ok x.fmt && (!x.isDpa || x.fmt = 1)

/-- Base and length of each region that elements below count occupy (R183). -/
def regions (x : Source) (count : Nat) : List (Nat × Nat) :=
  if Tile.block x.fmt then
    let blocks := ceilDiv count 32
    [(x.base, blocks * (4 * Tile.bits x.fmt)), (x.scaleBase, blocks)] ++ (if x.fmt = 13 then [(x.sideBase, 8 * blocks)] else [])
  else [(x.base, ceilDiv (count * Tile.bits x.fmt) 8)]

end Source

namespace Device

/-- Elements below count of a source lie in the slot's partition, or are mapped. -/
def sourceMapped (d : Device) (st : StallId) (sl : Slot) (x : Source) (count : Nat) : Bool :=
  (x.regions count).all fun r =>
    if x.isDpa then d.mapped r.1 r.2 else decide (r.1 % 2 ^ 32 + r.2 ≤ d.loftLimit st sl)

/-- Where a byte address of a source lies. -/
def sourceAt (d : Device) (st : StallId) (sl : Slot) (x : Source) (a : Nat) : Nat :=
  if x.isDpa then a else d.slotAt st sl (a % 2 ^ 32)

/-- Global element g of a source as an exact value, or the code with which its problem ends. R183 asks that a region in the
loft be aligned and no rule refuses one that is not: it is read as it stands (DEDUCED, log 63). -/
def sourceElem (d : Device) (st : StallId) (sl : Slot) (x : Source) (booked : Bool) (g : Nat) : Device × (Code ⊕ FVal) :=
  let at_ (a : Nat) : Nat := d.sourceAt st sl x a
  let w := Tile.bits x.fmt
  let check (bad : List (Nat × MemRes)) (bad' : List (Nat × MemRes)) (v : FVal) (nanBlock : Bool) : Code ⊕ FVal :=
    match failCode (bad ++ bad') with
    | some c => .inl c
    | none =>
      match v with
      | .num n m e => if nanBlock then .inl Status.forgeInputInvalid else .inr (.num n m e)
      | _ => .inl Status.forgeInputInvalid
  if Tile.block x.fmt then
    let b := g / 32
    let (d, es, bad) := d.readRange (at_ (x.base + b * (4 * w))) (4 * w) booked
    let (d, sc, bad1) := d.readRange (at_ (x.scaleBase + b)) 1 booked
    let (d, side, bad2) : Device × List Byte × List (Nat × MemRes) :=
      if x.fmt = 13 then d.readRange (at_ (x.sideBase + 8 * b)) 8 booked else (d, [], [])
    let blk := Tile.blockOf x.fmt es ((sc[0]?).getD 0) side
    let v := ((Tile.blockValues x.fmt false blk).1[g % 32]?).getD .nan
    (d, check bad (bad1 ++ bad2) v (blk.scale = 0xFF))
  else
    let lo := g * w / 8
    let n := ceilDiv (g * w + w) 8 - lo
    let (d, bs, bad) := d.readRange (at_ (x.base + lo)) n booked
    let code := (leNat bs >>> (g * w % 8)) % 2 ^ w
    let v := if x.fmt = 12 then Tile.value 12 false code else (Tile.elem x.fmt).decode code
    (d, check bad [] v false)

/-! ### Assembly (R429) -/

/-- One target: its constant, then one fused step per term. -/
def assembleTarget (d : Device) (st : StallId) (sl : Slot) (t : Template) (table : List Source) (booked : Bool)
    (p i : Nat) : Device × (Code ⊕ W64) :=
  let (d, bs, bad) := d.readRange (t.tgt + 16 * i) 16 booked
  let c := BitVec.ofNat 64 (leNat (bs.take 8))
  let first := leNat ((bs.drop 8).take 4)
  let count := leNat ((bs.drop 12).take 4)
  match failCode bad with
  | some code => (d, .inl code)
  | none =>
    let bound := (decide (t.lAt ≤ i) && decide (i < t.uAt) && isInf true c) || (decide (t.uAt ≤ i) && isInf false c)
    if bound && count = 0 then (d, .inr c)
    else
      let r := (List.range count).foldl (fun (r : Device × (Code ⊕ W64)) j =>
        match r.2 with
        | .inl _ => r
        | .inr v =>
          let (d, bs, bad) := r.1.readRange (t.term + 16 * (first + j)) 16 booked
          match failCode bad with
          | some code => (d, .inl code)
          | none =>
            let coef := BitVec.ofNat 64 (leNat (bs.take 8))
            let elem := leNat ((bs.drop 8).take 3)
            let x : Source := (table[leNat ((bs.drop 11).take 1) % 8]?).getD (Vector.replicate 4 0)
            let (d, e) := d.sourceElem st sl x booked (p * x.pstride + elem)
            match e with
            | .inl code => (d, .inl code)
            | .inr s => (d, .inr (round64 (FFmt.fmaVal (val64 coef) s (val64 v)).1))) (d, .inr c)
      match r.2 with
      | .inr v => (r.1, if finite64 v then .inr v else .inl Status.forgeInputInvalid)
      | .inl code => (r.1, .inl code)

/-- The values of problem p in target-table order, or the code with which it ends. -/
def assemble (d : Device) (st : StallId) (sl : Slot) (t : Template) (table : List Source) (booked : Bool) (p : Nat) :
    Device × (Code ⊕ List W64) :=
  (List.range t.targets).foldl (fun (r : Device × (Code ⊕ List W64)) i =>
    match r.2 with
    | .inl _ => r
    | .inr vs =>
      match r.1.assembleTarget st sl t table booked p i with
      | (d, .inl code) => (d, .inl code)
      | (d, .inr v) => (d, .inr (vs ++ [v]))) (d, .inr [])

end Device

/-! ### Gradients (R445) -/

namespace Device

/-- The gradients of the sources of a template by source and element, from those of its targets, or the code of a read that
failed (R36). -/
def transposed (d : Device) (t : Template) (g : List W64) (booked : Bool) : Device × (Code ⊕ List (Nat × W64)) :=
  (List.range t.targets).foldl (fun (r : Device × (Code ⊕ List (Nat × W64))) i =>
    match r.2 with
    | .inl _ => r
    | .inr src =>
      let (d, bs, bad) := r.1.readRange (t.tgt + 16 * i) 16 booked
      match failCode bad with
      | some c => (d, .inl c)
      | none =>
        let first := leNat ((bs.drop 8).take 4)
        (List.range (leNat ((bs.drop 12).take 4))).foldl (fun (r : Device × (Code ⊕ List (Nat × W64))) j =>
          match r.2 with
          | .inl _ => r
          | .inr src =>
            let (d, bs, bad) := r.1.readRange (t.term + 16 * (first + j)) 16 booked
            match failCode bad with
            | some c => (d, .inl c)
            | none =>
              let key := leNat ((bs.drop 8).take 4) % 2 ^ 27
              let old := (mapGet src key).getD 0
              (d, .inr (mapInsert src key (fma64 (BitVec.ofNat 64 (leNat (bs.take 8))) (nth g i) old)))) (d, .inr src))
    (d, .inr [])

/-- The code of element v of an enabled output, narrowed once: an infinity becomes the largest finite value (R194, R197). -/
def narrowed (fmt : Nat) (v : W64) : Nat :=
  if fmt = 1 then
    match val64 v with
    | .inf neg => FFmt.fp64.largest neg
    | _ => v.toNat
  else (Tile.roundFp (Tile.elem fmt) false (val64 v)).1

/-- Global element g of an enabled output, and the units that were not written. -/
def gradientElem (d : Device) (st : StallId) (sl : Slot) (x : Source) (booked : Bool) (g : Nat) (v : W64) :
    Device × List (Nat × MemRes) :=
  let w := Tile.bits x.fmt / 8
  d.writeRange (d.sourceAt st sl x (x.base + g * w)) (leBytes w (narrowed x.fmt v)) booked

end Device

end Sys2Proof.Machine
end

