-- ==== Sys2Proof/Machine/ForgeSolve.lean ====
section
/-! DEFINITION. The solver of a Forge: residuals, convergence, certificates, the reduced KKT matrix and its Cholesky factor,
the warm and the cold point, the iterations and the outcome of a problem, and the gradients (R425, R436 to R438, R443,
R444). -/

namespace Sys2Proof.Machine

/-! ### Sums and norms -/

/-- The elements of a list in the order of their ranks. -/
def byRank {α : Type} (rank : Nat → Nat) (l : List α) : List α :=
  let put (x : Nat × α) (r : List (Nat × α)) : List (Nat × α) :=
    (r.takeWhile fun y => decide (y.1 ≤ x.1)) ++ x :: r.dropWhile fun y => decide (y.1 ≤ x.1)
  ((l.zipIdx.foldl (fun r x => put (rank x.2, x.1) r) []).map Prod.snd)

/-- z and some products, one fused step each: the order of the steps is the Forge's (log 96). -/
def fmaSum (ts : List (W64 × W64)) (z : W64) : W64 :=
  (byRank (Config.sumRank ts.length) ts).foldl (fun v t => fma64 t.1 t.2 v) z

def sub64 (x y : W64) : W64 := add64 x (neg64 y)
def sqrt64 (x : W64) : W64 := round64 (FFmt.sqrtVal .fp64 (val64 x)).1
def abs64 (x : W64) : W64 := if above64 0 x then neg64 x else x
/-- 2^k for −1022 ≤ k ≤ 1023. -/
def pow64 (k : Int) : W64 := BitVec.ofNat 64 ((1023 + k).toNat * 2 ^ 52)
/-- x ≤ y; false of a NaN. -/
def le64 (x y : W64) : Bool := !(val64 x).isNan && !(val64 y).isNan && !above64 x y
def max64 (x y : W64) : W64 := if (val64 x).isNan || above64 x y then x else y
/-- ‖v‖∞; NaN where an element is NaN. -/
def norm64 (l : List W64) : W64 := l.foldl (fun a x => if (val64 a).isNan then a else max64 (canon64 (abs64 x)) a) 0

namespace Template

/-! ### The problem -/

def lower (t : Template) (vals : List W64) (i : Nat) : W64 := nth vals (t.lAt + i)
def upper (t : Template) (vals : List W64) (i : Nat) : W64 := nth vals (t.uAt + i)

/-- Some l_i lies above its u_i. -/
def crossed (t : Template) (vals : List W64) : Bool := (List.range t.m).any fun i => above64 (t.lower vals i) (t.upper vals i)

/-- Row i is an equality; free, with both bounds infinite (R425). -/
def equality (t : Template) (vals : List W64) (i : Nat) : Bool :=
  finite64 (t.lower vals i) && finite64 (t.upper vals i) && cmpVal (val64 (t.lower vals i)) (val64 (t.upper vals i)) = 0
def freeRow (t : Template) (vals : List W64) (i : Nat) : Bool := isInf true (t.lower vals i) && isInf false (t.upper vals i)

/-- The rows that take part in the solve (R425). -/
def rows (t : Template) (vals : List W64) : List Nat := (List.range t.m).filter fun i => !t.freeRow vals i

/-- Row, column and value of each nonzero of A and of P's upper triangle. -/
def aEntries (t : Template) (vals : List W64) : List ((Nat × Nat) × W64) :=
  (entries t.aCol t.aRow).zip ((vals.drop t.aAt).take t.nnzA)
def pEntries (t : Template) (vals : List W64) : List ((Nat × Nat) × W64) := (entries t.pCol t.pRow).zip (vals.take t.nnzP)
def q (t : Template) (vals : List W64) (j : Nat) : W64 := nth vals (t.qAt + j)

/-- Element j of P x, element j of Aᵀ y, and element i of A x. -/
def pTimes (t : Template) (vals x : List W64) (j : Nat) : W64 :=
  fmaSum ((t.pEntries vals).flatMap fun e =>
    (if e.1.1 = j then [(e.2, nth x e.1.2)] else []) ++ if e.1.2 = j && e.1.1 ≠ j then [(e.2, nth x e.1.1)] else []) 0
def atTimes (t : Template) (vals y : List W64) (j : Nat) : W64 :=
  fmaSum ((t.aEntries vals).filterMap fun e => if e.1.2 = j then some (e.2, nth y e.1.1) else none) 0
def aTimes (t : Template) (vals x : List W64) (i : Nat) : W64 :=
  fmaSum ((t.aEntries vals).filterMap fun e => if e.1.1 = i then some (e.2, nth x e.1.2) else none) 0

/-! ### Iterates -/

/-- The multiplier y_u − y_l of row i (R435): an infinite bound has none. -/
def multiplier (t : Template) (vals : List W64) (p : ForgePoint) (i : Nat) : W64 :=
  sub64 (if isInf false (t.upper vals i) then 0 else nth p.yu i) (if isInf true (t.lower vals i) then 0 else nth p.yl i)

/-- y of an iterate. -/
def ys (t : Template) (vals : List W64) (p : ForgePoint) : List W64 := (List.range t.m).map (t.multiplier vals p)

/-- Slack and multiplier of each finite bound of a row that is no equality. -/
def pairs (t : Template) (vals : List W64) (p : ForgePoint) : List (W64 × W64) :=
  (List.range t.m).flatMap fun i =>
    if t.equality vals i then []
    else (if isInf true (t.lower vals i) then [] else [(nth p.tl i, nth p.yl i)])
      ++ if isInf false (t.upper vals i) then [] else [(nth p.tu i, nth p.yu i)]

/-- Mean complementarity: 0 where no bound has a slack (log 96). -/
def gap (t : Template) (vals : List W64) (p : ForgePoint) : W64 :=
  let l := t.pairs vals p
  if l.isEmpty then 0 else div64 (fmaSum l 0) (round64 (FVal.ofInt l.length))

/-- ½xᵀPx + qᵀx. -/
def objective (t : Template) (vals : List W64) (p : ForgePoint) : W64 :=
  let js := List.range t.n
  fma64 half64 (fmaSum (js.map fun j => (nth p.x j, t.pTimes vals p.x j)) 0) (fmaSum (js.map fun j => (t.q vals j, nth p.x j)) 0)

/-- The slack values s that a row gives: what its lower bound with its slack and its upper bound less its slack come to, and
of an equality its bound (log 96). -/
def slackValues (t : Template) (vals : List W64) (p : ForgePoint) (i : Nat) : List W64 :=
  if t.equality vals i then [t.lower vals i]
  else (if isInf true (t.lower vals i) then [] else [add64 (t.lower vals i) (nth p.tl i)])
    ++ if isInf false (t.upper vals i) then [] else [sub64 (t.upper vals i) (nth p.tu i)]

/-- ‖Ax − s‖∞ over the rows that take part, and ‖Px + q + Aᵀy‖∞. -/
def primalRes (t : Template) (vals : List W64) (p : ForgePoint) : W64 :=
  norm64 ((t.rows vals).flatMap fun i => (t.slackValues vals p i).map (sub64 (t.aTimes vals p.x i)))
def dualRes (t : Template) (vals : List W64) (p : ForgePoint) : W64 :=
  norm64 ((List.range t.n).map fun j => add64 (add64 (t.pTimes vals p.x j) (t.q vals j)) (t.atTimes vals (t.ys vals p) j))

/-- PRES, DRES, GAP and OBJ of an iterate (R437, the table after R435). -/
def residuals (t : Template) (vals : List W64) (p : ForgePoint) : W64 × W64 × W64 × W64 :=
  (t.primalRes vals p, t.dualRes vals p, t.gap vals p, t.objective vals p)

/-- The three tests of R437 with ε = 2^−tol. -/
def converged (t : Template) (vals : List W64) (tol : Nat) (p : ForgePoint) : Bool :=
  let eps := pow64 (-tol)
  let within (r : W64) (scale : W64) : Bool := le64 r (mul64 eps (add64 one64 scale))
  let js := List.range t.n
  let (pres, dres, gap, obj) := t.residuals vals p
  within pres (max64 (norm64 ((t.rows vals).map (t.aTimes vals p.x))) (norm64 ((t.rows vals).flatMap (t.slackValues vals p))))
    && within dres (max64 (norm64 (js.map (t.pTimes vals p.x))) (max64 (norm64 (js.map (t.q vals)))
        (norm64 (js.map (t.atTimes vals (t.ys vals p))))))
    && within gap (abs64 obj)

/-- A direction of norm 1 proves the problem infeasible (R437), and the DUAL_INF flag that it brings. -/
def certified (t : Template) (vals : List W64) (tol : Nat) : ForgeCert → Option Bool
  | .none => none
  | .primal yl yu =>
    let eps := pow64 (-tol)
    let ms := List.range t.m
    let fl := ms.filter fun i => finite64 (t.lower vals i)
    let fu := ms.filter fun i => finite64 (t.upper vals i)
    let y := ms.map fun i => sub64 (if fu.contains i then nth yu i else 0) (if fl.contains i then nth yl i else 0)
    let signs := (fl.all fun i => le64 0 (nth yl i)) && fu.all fun i => le64 0 (nth yu i)
    let gain := fmaSum ((fu.map fun i => (t.upper vals i, nth yu i)) ++ fl.map fun i => (neg64 (t.lower vals i), nth yl i)) 0
    if signs && norm64 y = one64 && le64 (norm64 ((List.range t.n).map (t.atTimes vals y))) eps && above64 (neg64 eps) gain then
      some false
    else none
  | .dual dir =>
    let eps := pow64 (-tol)
    let js := List.range t.n
    let cone := (List.range t.m).all fun i =>
      let a := t.aTimes vals dir i
      (isInf false (t.upper vals i) || le64 a eps) && (isInf true (t.lower vals i) || le64 (neg64 eps) a)
    if norm64 (js.map (nth dir)) = one64 && le64 (norm64 (js.map (t.pTimes vals dir))) eps
        && above64 (neg64 eps) (fmaSum (js.map fun j => (t.q vals j, nth dir j)) 0) && cone then some true
    else none

/-! ### The reduced KKT matrix (R436) -/

/-- D_l and D_u of row i at an iterate (R436, R444): a bound's multiplier by its slack, 0 for an infinite bound, and half of
1/δ each for an equality. -/
def weights (t : Template) (r : ForgePoint) (vals : List W64) (i : Nat) : W64 × W64 :=
  let l := t.lower vals i
  let u := t.upper vals i
  if finite64 l && cmpVal (val64 l) (val64 u) = 0 then
    let h := mul64 half64 (div64 one64 t.delta)
    (h, h)
  else (if isInf true l then 0 else div64 (nth r.yl i) (nth r.tl i), if isInf false u then 0 else div64 (nth r.yu i) (nth r.tu i))

/-- D_i: of a free row 0, of an equality 1 ÷ δ. -/
def diagonal (t : Template) (vals : List W64) (p : ForgePoint) (i : Nat) : W64 :=
  if t.equality vals i then div64 one64 t.delta
  else
    let w := t.weights p vals i
    add64 w.1 w.2

/-- Element (i, j) of H = P + δI + AᵀDA. -/
def kkt (t : Template) (vals : List W64) (p : ForgePoint) (i j : Nat) : W64 :=
  let base := (((t.pEntries vals).find? fun e => e.1 = (min i j, max i j)).map Prod.snd).getD 0
  let a (r c : Nat) : W64 := (((t.aEntries vals).find? fun e => e.1 = (r, c)).map Prod.snd).getD 0
  let shared := (List.range t.m).filter fun r => (entries t.aCol t.aRow).contains (r, i) && (entries t.aCol t.aRow).contains (r, j)
  fmaSum (shared.map fun r => (mul64 (t.diagonal vals p r) (a r i), a r j)) (if i = j then add64 base t.delta else base)

/-- The order in which the variables are eliminated: the Forge's own. -/
def order (t : Template) : List Nat := byRank (Config.pivotRank t.dense t.n t.pCol t.pRow t.aCol t.aRow) (List.range t.n)

/-- The columns of the Cholesky factor of some matrix of order n, with the pivots before their square roots: element i of
column j is 0 above the diagonal. -/
def cholesky (n : Nat) (h : Nat → Nat → W64) : List (List W64) × List W64 :=
  (List.range n).foldl (fun (r : List (List W64) × List W64) j =>
    let l (i k : Nat) : W64 := nth ((r.1[k]?).getD []) i
    let rest (i : Nat) : W64 := fmaSum ((List.range j).map fun k => (neg64 (l i k), l j k)) (h i j)
    let root := sqrt64 (rest j)
    (r.1 ++ [(List.range n).map fun i => if i < j then 0 else if i = j then root else div64 (rest i) root], r.2 ++ [rest j]))
    ([], [])

/-- The factor of an iterate's H, and its pivots. -/
def factor (t : Template) (vals : List W64) (p : ForgePoint) : List (List W64) × List W64 :=
  let o := t.order
  cholesky t.n fun i j => t.kkt vals p ((o[i]?).getD 0) ((o[j]?).getD 0)

/-- Some pivot lies at or below δ × 2⁻²⁶ (R438). -/
def breaksDown (t : Template) (vals : List W64) (p : ForgePoint) : Bool :=
  (t.factor vals p).2.any fun x => le64 x (mul64 t.delta (pow64 (-26)))

/-- w = H⁻¹ g by the columns of a factor of H (R436, R444): a forward and a backward substitution. -/
def solveWith (t : Template) (cols : List (List W64)) (g : List W64) : List W64 :=
  let o := t.order
  let l (i k : Nat) : W64 := nth ((cols[k]?).getD []) i
  let z := (List.range t.n).foldl (fun (z : List W64) j =>
    z ++ [div64 (fmaSum ((List.range j).map fun k => (neg64 (l j k), nth z k)) (nth g ((o[j]?).getD 0))) (l j j)]) []
  let v := (List.range t.n).reverse.foldl (fun (v : List W64) j =>
    v.set j (div64 (fmaSum (((List.range t.n).drop (j + 1)).map fun i => (neg64 (l i j), nth v i)) (nth z j)) (l j j)))
    (List.replicate t.n 0)
  (List.range t.n).map fun j => nth v (o.idxOf j)

/-- w = H⁻¹ g by the factor of an iterate's H. -/
def solve (t : Template) (vals : List W64) (p : ForgePoint) (g : List W64) : List W64 :=
  t.solveWith (t.factor vals p).1 g

/-- The nonzeros of the factor that a retention keeps, in an order that is the Forge's own (R447). -/
def factorImage (t : Template) (vals : List W64) (p : ForgePoint) : List W64 :=
  let cols := (t.factor vals p).1
  let cells :=
    if t.dense then (List.range t.n).flatMap fun j => ((List.range t.n).drop j).map fun i => (i, j)
    else Config.factorPattern t.n t.pCol t.pRow t.aCol t.aRow
  (byRank (Config.cellRank cells.length) cells).map fun c => canon64 (nth ((cols[c.2]?).getD []) c.1)

/-! ### Gradients (R444) -/

/-- The gradients of the targets, in target-table order, from w = H⁻¹ g and the final iterate. -/
def gradients (t : Template) (p : ForgePoint) (vals w : List W64) : List W64 :=
  let y := t.ys vals p
  let aw := (List.range t.m).map (t.aTimes vals w)
  let daw := (List.range t.m).map fun i => mul64 (t.diagonal vals p i) (nth aw i)
  let dp := (entries t.pCol t.pRow).map fun e =>
    neg64 (mul64 half64 (fma64 (nth w e.1) (nth p.x e.2) (mul64 (nth p.x e.1) (nth w e.2))))
  let da := (entries t.aCol t.aRow).map fun e =>
    neg64 (fma64 (nth y e.1) (nth w e.2) (mul64 (nth daw e.1) (nth p.x e.2)))
  let side (up : Bool) := (List.range t.m).map fun i =>
    let ws := t.weights p vals i
    if (if up then isInf false (t.upper vals i) else isInf true (t.lower vals i)) then 0
    else mul64 (if up then ws.2 else ws.1) (nth aw i)
  dp ++ (fit64 t.n w).map neg64 ++ da ++ side false ++ side true

/-! ### Where a problem starts (R443) -/

/-- A point that begins with x and takes the slacks and multipliers of each row's bounds from two functions, of true for the
upper bound; an equality has its multiplier alone. -/
def pointOf (t : Template) (vals x : List W64) (slack mult : Bool → Nat → W64) (eqMult : Nat → W64) : ForgePoint :=
  let per (f : Nat → W64) : List W64 := (List.range t.m).map f
  { x := x, tl := per (slack false), tu := per (slack true)
    yl := per fun i => if t.equality vals i then 0 else mult false i
    yu := per fun i => if t.equality vals i then eqMult i else mult true i }

/-- x and y of an earlier record are kept, and every slack of A x and every bound multiplier is raised to at least
2⁻¹⁰ × (1 + |bound|). The starting barrier parameter is this point's complementarity. -/
def warmStart (t : Template) (vals x y : List W64) : ForgePoint :=
  let raise (b v : W64) : W64 := max64 (mul64 (pow64 (-10)) (add64 one64 (abs64 b))) v
  let bound (up : Bool) (i : Nat) : W64 := if up then t.upper vals i else t.lower vals i
  t.pointOf vals x
    (fun up i => let ax := t.aTimes vals x i
      raise (bound up i) (if up then sub64 (t.upper vals i) ax else sub64 ax (t.lower vals i)))
    (fun up i => raise (bound up i) (if up then nth y i else neg64 (nth y i))) (nth y)

/-- The cold point: R436 gives none, so its numbers are free, with slacks and bound multipliers above 0. -/
def coldStart (t : Template) (vals : List W64) : ForgePoint :=
  let free (part i : Nat) : W64 :=
    let v := Config.coldStart t.n t.m vals part i
    if finite64 v then v else 0
  let above (part i : Nat) : W64 := if above64 (free part i) 0 then free part i else one64
  t.pointOf vals ((List.range t.n).map (free 0)) (fun up => above (if up then 2 else 1)) (fun up => above (if up then 4 else 3))
    (free 5)

/-! ### The iterations (R436) -/

/-- What one solve of an iteration gives: from the factor's columns, and for each bound (true: upper) the right side that its
slack times its multiplier is to fall short by. The names of the fields say what each is the step of. -/
def direction (t : Template) (vals : List W64) (cols : List (List W64)) (p : ForgePoint) (right : Bool → Nat → W64) :
    ForgePoint :=
  let ax (x : List W64) : List W64 := (List.range t.m).map (t.aTimes vals x)
  let ap := ax p.x
  let pl (i : Nat) : W64 := sub64 (sub64 (nth ap i) (t.lower vals i)) (nth p.tl i)
  let pu (i : Nat) : W64 := sub64 (sub64 (t.upper vals i) (nth ap i)) (nth p.tu i)
  let dtl (dax : W64) (i : Nat) : W64 := add64 dax (pl i)
  let dtu (dax : W64) (i : Nat) : W64 := add64 (neg64 dax) (pu i)
  let dyl (dax : W64) (i : Nat) : W64 := div64 (fma64 (neg64 (nth p.yl i)) (dtl dax i) (right false i)) (nth p.tl i)
  let dyu (dax : W64) (i : Nat) : W64 := div64 (fma64 (neg64 (nth p.yu i)) (dtu dax i) (right true i)) (nth p.tu i)
  let dy (dax : W64) (i : Nat) : W64 :=
    if t.freeRow vals i then 0
    else if t.equality vals i then mul64 (t.diagonal vals p i) (add64 dax (sub64 (nth ap i) (t.lower vals i)))
    else sub64 (if isInf false (t.upper vals i) then 0 else dyu dax i) (if isInf true (t.lower vals i) then 0 else dyl dax i)
  let still := (List.range t.m).map (dy 0)
  let g := (List.range t.n).map fun j =>
    neg64 (add64 (add64 (add64 (t.pTimes vals p.x j) (t.q vals j)) (t.atTimes vals (t.ys vals p) j)) (t.atTimes vals still j))
  let dx := t.solveWith cols g
  let da := ax dx
  let per (f : W64 → Nat → W64) : List W64 := (List.range t.m).map fun i => f (nth da i) i
  { x := dx, tl := per dtl, tu := per dtu, yl := per fun v i => if t.equality vals i then 0 else dyl v i
    yu := per fun v i => if t.equality vals i then dy v i else dyu v i }

/-- The largest step, up to some limit, that takes no slack and no bound multiplier below 0. -/
def toBoundary (t : Template) (vals : List W64) (limit : W64) (p d : ForgePoint) : W64 :=
  let least (a : W64) (x : W64 × W64) : W64 :=
    if above64 0 x.2 then
      let r := div64 x.1 (neg64 x.2)
      if above64 a r then r else a
    else a
  ((t.pairs vals p).zip (t.pairs vals d)).foldl (fun a s => least (least a (s.1.1, s.2.1)) (s.1.2, s.2.2)) limit

/-- An iterate after a step along a direction. -/
def advance (a : W64) (p d : ForgePoint) : ForgePoint :=
  let go (v dv : List W64) : List W64 := (v.zip dv).map fun x => fma64 a x.2 x.1
  ⟨go p.x d.x, go p.tl d.tl, go p.tu d.tu, go p.yl d.yl, go p.yu d.yu⟩

/-- One iteration of Mehrotra's predictor and corrector from an iterate with the columns of its factor (R436): a predictor
that aims at complementarity 0, σ := (μ_aff ÷ μ)³, a corrector with the same factor, and a step of 0.99 of the distance to
the boundary, a full step at most. -/
def iteration (t : Template) (vals : List W64) (cols : List (List W64)) (p : ForgePoint) : ForgePoint :=
  let short (up : Bool) (i : Nat) : W64 :=
    if up then neg64 (mul64 (nth p.yu i) (nth p.tu i)) else neg64 (mul64 (nth p.yl i) (nth p.tl i))
  let aff := t.direction vals cols p short
  let mu := t.gap vals p
  let ratio := div64 (t.gap vals (advance (t.toBoundary vals one64 p aff) p aff)) mu
  let target := mul64 (mul64 (mul64 ratio ratio) ratio) mu
  let cross (up : Bool) (i : Nat) : W64 :=
    if up then mul64 (nth aff.tu i) (nth aff.yu i) else mul64 (nth aff.tl i) (nth aff.yl i)
  let d := t.direction vals cols p fun up i => add64 target (sub64 (short up i) (cross up i))
  let part := div64 (round64 (FVal.ofInt 99)) (round64 (FVal.ofInt 100))
  let a := mul64 part (t.toBoundary vals (div64 one64 part) p d)
  advance (if above64 a one64 then one64 else a) p d

/-! ### How a problem ends (R437, R438) -/

/-- How a problem stands where the solver has stopped: its status, DUAL_INF, the iterations completed and the iterate. -/
structure Outcome where
  code : Code
  dual : Bool
  iters : Nat
  point : ForgePoint

/-- The loop of the solver from an iterate after k iterations with some number left: the tests of each iteration in the order
that the program before R436 gives. The certificate is the one that the Forge holds in iteration at_. -/
def run (t : Template) (vals : List W64) (tol at_ : Nat) (cert : ForgeCert) : Nat → Nat → ForgePoint → Outcome
  | left, k, p =>
    if t.converged vals tol p then ⟨Status.done, false, k, p⟩
    else
      match left with
      | 0 => ⟨Status.forgeIterLimit, false, k, p⟩
      | left + 1 =>
        match if k = at_ then t.certified vals tol cert else none with
        | some dual => ⟨Status.forgeInfeasible, dual, k, p⟩
        | none =>
          if t.breaksDown vals p then ⟨Status.forgeNumeric, false, k, p⟩
          else t.run vals tol at_ cert left (k + 1) (t.iteration vals (t.factor vals p).1 p)

/-- How a problem ends that starts at some point. -/
def outcome (t : Template) (vals : List W64) (tol iterMax : Nat) (start : ForgePoint) (r : ForgeResult) : Outcome :=
  t.run vals tol r.iters r.cert iterMax 0 start

/-- Where a problem stands once it has completed some iterations: no more than the solver makes. -/
def after (t : Template) (vals : List W64) (tol iterMax : Nat) (start : ForgePoint) (iters : Nat) : Outcome :=
  t.run vals tol 0 .none (min iters iterMax) 0 start

end Template

end Sys2Proof.Machine
end

