-- ==== Sys2Proof/Machine/Forge.lean ====
section
/-! DEFINITION. The Forge: submission, admission, hearths, the end of problems and requests, deadlines, aborts,
retention and template slots (R430, R433 to R450). -/

namespace Sys2Proof.Machine

/-! ### Requests -/

namespace ForgeReq

/-- Fields of the two descriptors of R433 and of "The backward request". -/
def ntag (q : ForgeReq) : Nat := dfield q.desc 0 56 8
def nproblems (q : ForgeReq) : Nat := q.problems.length
def tol (q : ForgeReq) : Nat := dfield q.desc 0 32 8
def iterMax (q : ForgeReq) : Nat := dfield q.desc 0 16 16
def mbx (q : ForgeReq) : Fin 8 := Device.noticeMbx q.desc
def outDpa (q : ForgeReq) : Nat := dfield q.desc 4 0 48
def diagDpa (q : ForgeReq) : Nat := dfield q.desc 5 0 48
def rawDpa (q : ForgeReq) : Nat := dfield q.desc 3 0 48

/-- Cost e of R439. -/
def cost (q : ForgeReq) (t : Template) : Nat :=
  ceilDiv q.nproblems (max 1 t.held) * (if q.back then t.back else t.setup + q.iterMax * t.iter)

/-- What one problem costs at most (R431, R439). -/
def bound (q : ForgeReq) (t : Template) : Nat := if q.back then t.back else t.setup + q.iterMax * t.iter

/-- Hearth cycles spent, where part gives what each hearth has spent of the frame under way; the remaining cost; and the
remaining LP6 charge in 64 B units. -/
def spent (q : ForgeReq) (part : Fin 4 → Nat) : Nat :=
  (q.problems.map fun p => match p.phase with
    | .running h => p.cycles + min p.perFrame (part h)
    | _ => p.cycles).sum
def left (q : ForgeReq) (t : Template) (part : Fin 4 → Nat) : Nat := q.cost t - q.spent part
def lp6Left (q : ForgeReq) (t : Template) : Nat := (q.problems.filter fun p => p.phase ≠ .ended).length * t.lp6

/-- A problem of a request that has not started. -/
def freshProblem : Problem :=
  { phase := .ready, vals := [], warm := none, warmRej := false, code := 0, cycles := 0, perFrame := 0, result := none
    skipped := false }

end ForgeReq

namespace Device

def forge (d : Device) (y : Yard) : Forge := d.forges[y]

def forgeTpl (d : Device) (y : Yard) (i : Fin 16) : Option Template := (d.forge y).tpl[i]

/-- One test of R439: booked requests, each with its deadline, its acceptance and an amount that is left, fit a rate per frame
counted from frame a + 1. -/
def ratesFit (a : Frame) (rate : Nat) (set : List (Frame × Frame × Nat)) : Bool :=
  set.all fun j =>
    let before := set.filter fun i => decide (i.1.toNat < j.1.toNat) || (i.1 = j.1 && decide (i.2.1.toNat ≤ j.2.1.toNat))
    decide ((before.map fun i => i.2.2).sum ≤ rate * (j.1.toNat - a.toNat))

/-- The two tests of R439 on hearth cycles and LP6 charge. -/
def forgeFits (a : Frame) (book lp6 : Nat) (set : List (Frame × Frame × Nat × Nat)) : Bool :=
  ratesFit a book (set.map fun j => (j.1, j.2.1, j.2.2.1)) && ratesFit a lp6 (set.map fun j => (j.1, j.2.1, j.2.2.2))

/-- Deadline, acceptance and what is left of each admitted booked request. -/
def forgeSet (d : Device) (y : Yard) (part : Fin 4 → Nat) : List (Frame × Frame × Nat × Nat) :=
  ((d.forge y).reqs.filter fun q => q.booked).filterMap fun q =>
    (d.forgeTpl y q.tslot).map fun t => (q.deadline, q.accept, q.left t part, q.lp6Left t)

/-- What the hearths have spent of the frame under way: within a frame the manual leaves it open. -/
def spentNow (d : Device) (h : Fin 4) : Nat := (Config.partCycles d.free h.val).val

def forgeBook (d : Device) (y : Yard) : Nat := d.pfield (Page.forge y) 0x100 0 16
def forgeLp6 (d : Device) (y : Yard) : Nat := d.pfield (Page.forge y) 0x104 0 24

/-- Source number of the Forge's notices. -/
def forgeSrc (y : Yard) : BitVec 9 := if y = 0 then 0x1FE else 0x1FF

/-- Tallies of R548. -/
def forgeTally (st : StallId) (sl : Slot) : Nat := 0x0500_0000 + 2 * st.val + (match sl with
  | .primary => 0
  | .paddock => 1)
def retentionTally (y : Yard) : Nat := 0x0900_0000 + y.val

/-- A Forge notice (the table after R447). -/
def forgeNotice (d : Device) (y : Yard) (q : ForgeReq) (status cause : Code) (handle done rej third : Nat) (commit : Frame) :
    Device :=
  d.post q.stall q.mbx (forgeSrc y)
    [q.ntag * 2 ^ 56 + bitAt q.back 52 + handle * 2 ^ 32 + cause.toNat * 2 ^ 16 + status.toNat, q.accept.toNat,
     q.deadline.toNat, third * 2 ^ 32 + rej * 2 ^ 16 + done, q.spent fun _ => 0, commit.toNat]

/-- A request refused at acceptance: its notice, and one queue entry reclaimed where R551 says so. -/
def forgeRefuse (d : Device) (y : Yard) (q : ForgeReq) (code : Code) : Device :=
  let d := (d.forgeNotice y q code 0 0xFFFF 0 0 0 0).bump (Page.forge y) 0x160 1
  if code = Status.addressUnmapped ∨ code = Status.admissionRefused then
    d.reclaim 3 code (Page.stall q.stall) (forgeTally q.stall q.slot) 1
  else d

/-! ### Retention (R447) -/

def modRet (d : Device) (y : Yard) (e : Fin 64) (f : Retention → Retention) : Device :=
  d.modForge y fun g => { g with ret := upd g.ret e f }

/-- A retention handle. -/
def handleOf (e : Fin 64) (r : Retention) : Nat := r.gen * 64 + e.val

/-- The entry that a handle names, where it is still retained: until the boundary that ends its last frame (R447). -/
def retained (d : Device) (y : Yard) (handle : Nat) : Option (Fin 64 × Retention) :=
  let e : Fin 64 := Fin.ofNat 64 handle
  let r := (d.forge y).ret[e]
  if r.used && r.committed && !r.releaseDue && !r.expired && decide (d.now ≤ r.lastFrame) && r.gen = handle / 64 then some (e, r)
  else none

/-- The entry is freed and its generation advances. -/
def freeRetention (d : Device) (y : Yard) (e : Fin 64) : Device :=
  d.modRet y e fun r => { Reset.retention with gen := (r.gen + 1) % 1023 }

/-- Expiry frees the entry: counted, reclaimed and signalled (R447, R551). -/
def expireRetention (d : Device) (y : Yard) (e : Fin 64) : Device :=
  let d := ((d.freeRetention y e).bump (Page.forge y) 0x164 1).eventCode (Page.forge y) 4 Status.forgeRetentionExpired
  d.reclaim 4 Status.forgeRetentionExpired (Page.forge y) (retentionTally y) 1

/-- The boundary that ends the last frame of an entry has come, and has not marked it (R447). -/
def entryEnds (d : Device) (y : Yard) (e : Fin 64) : Bool :=
  let r := (d.forge y).ret[e]
  r.used && r.committed && !r.expired && decide (r.lastFrame.toNat < d.now.toNat)

/-- An FBACK on the entry is outstanding. -/
def retentionHeld (d : Device) (y : Yard) (e : Fin 64) : Bool :=
  (d.forge y).reqs.any fun q => q.back && q.entry = some e

/-- An FBACK on the entry has ended: a release or an expiry that waited for it takes effect. -/
def settleRetention (d : Device) (y : Yard) (e : Fin 64) : Device :=
  let r := (d.forge y).ret[e]
  if d.retentionHeld y e then d
  else if r.releaseDue then d.freeRetention y e
  else if r.expired then d.expireRetention y e
  else d

/-! ### The end of a request (R442, R447 to R449) -/

/-- The single status of a request whose problems have ended (R448). -/
def forgeStatus (q : ForgeReq) : Code :=
  let has (c : Code) : Bool := q.problems.any fun p => p.code = c
  ([Status.aborted, Status.forgeDeadlineMissed, Status.memChannelOffline, Status.memEccUncorrected,
    Status.forgeInputInvalid, Status.forgeNumeric, Status.forgeInfeasible, Status.forgeIterLimit].find? has).getD
      (if q.booked then Status.done else Status.unbookedDone)

/-- The retention bytes of a problem: the factor of the final iterate's H, x*, y* and D (R447). -/
def retentionImage (t : Template) (vals : List W64) (p : ForgePoint) : List Byte :=
  padTo t.ret (doubles (t.factorImage vals p ++ fit64 t.n p.x ++ (t.ys vals p).map canon64
    ++ (List.range t.m).map fun i => canon64 (t.diagonal vals p i)))

/-- A problem that reports DONE is stored; where its area's channel is offline that is its status instead (R36). -/
def retainProblem (d : Device) (t : Template) (q : ForgeReq) (k : Nat) (p : Problem) :
    Device × Problem × Option (ForgePoint × List W64) :=
  match p.result with
  | some r =>
    if p.code = Status.done then
      let (d, bad) := d.writeRange (dfield q.desc 7 0 48 + k * t.ret) (retentionImage t p.vals r) q.booked
      match failCode bad with
      | some c => (d, { p with code := c }, none)
      | none => (d, p, some (r, p.vals))
    else (d, p, none)
  | none => (d, p, none)

/-- What a request retains of each problem, with the stores, and the problems after them. -/
def retainProblems (d : Device) (y : Yard) (q : ForgeReq) :
    Device × List Problem × List (Option (ForgePoint × List W64)) :=
  match d.forgeTpl y q.tslot with
  | none => (d, q.problems, [])
  | some t =>
    (q.problems.zipIdx).foldl (fun (x : Device × List Problem × List (Option (ForgePoint × List W64))) p =>
      let (d, p, r) := x.1.retainProblem t q p.2 p.1
      (d, x.2.1 ++ [p], x.2.2 ++ [r])) (d, [], [])

/-- The commit point of request i: retention, counters, the notice. The request leaves the Forge. -/
def commitRequest (d : Device) (y : Yard) (i : Nat) (q : ForgeReq) (cause : Code) : Device :=
  let d := d.modForge y fun f => { f with reqs := f.reqs.eraseIdx i }
  let (d, problems, data) := if q.entry.isSome && !q.back then d.retainProblems y q else (d, q.problems, [])
  let q := { q with problems := problems }
  let status := forgeStatus q
  let count (p : Problem → Bool) : Nat := (q.problems.filter p).length
  let p := Page.forge y
  let d := d.bump p (if Status.completes status then 0x154 else 0x158) 1
  let d := if status = Status.forgeDeadlineMissed then d.bump p 0x15C 1 else d
  let done := count fun x => decide (x.code = Status.done) && !x.skipped
  let rej := count fun x => x.warmRej
  match q.entry with
  | none => d.forgeNotice y q status cause 0xFFFF done rej 0 d.now
  | some e =>
    if q.back then
      let d := if dfield q.desc 0 54 2 = 1 then d.modRet y e fun r => { r with releaseDue := true } else d
      let handle := handleOf e (d.forge y).ret[e]
      (d.forgeNotice y q status cause handle done rej (count fun x => x.skipped) d.now).settleRetention y e
    else
      if done = 0 then (d.freeRetention y e).forgeNotice y q status cause 0xFFFF done rej 0 d.now
      else
        let d := d.modRet y e fun r => { r with committed := true, data := data }
        d.forgeNotice y q status cause (handleOf e (d.forge y).ret[e]) done rej done d.now

def setReq (d : Device) (y : Yard) (i : Nat) (q : ForgeReq) : Device :=
  d.modForge y fun f => { f with reqs := f.reqs.set i q }

/-! ### Records -/

/-- A solution header (the table after R435). -/
def headerBytes (t : Template) (p : Problem) (stop : Nat) (dual : Bool) (iters : Nat) (figs : W64 × W64 × W64 × W64)
    (now : Frame) : List Byte :=
  let flags := bitAt p.warm.isSome 0 + bitAt p.warmRej 1 + stop * 4 + bitAt dual 4
  [flags * 2 ^ 40 + iters % 2 ^ 16 * 2 ^ 16 + p.code.toNat, t.fprint.toNat, (canon64 figs.1).toNat, (canon64 figs.2.1).toNat,
   (canon64 figs.2.2.1).toNat, (canon64 figs.2.2.2).toNat, now.toNat, 0].flatMap fun w => leBytes 8 w

/-- Bytes go to a record; an offline channel is the problem's status (R36, R448). -/
def writeRecord (d : Device) (q : ForgeReq) (a : Nat) (bs : List Byte) : Device × Option Code :=
  let (d, bad) := d.writeRange a bs q.booked
  (d, failCode bad)

/-- The header of problem k, with its figures. -/
def writeHeader (d : Device) (t : Template) (q : ForgeReq) (base k : Nat) (p : Problem) (stop : Nat) (dual : Bool)
    (iters : Nat) (figs : W64 × W64 × W64 × W64) : Device × Option Code :=
  d.writeRecord q (base + k * t.stride) (headerBytes t p stop dual iters figs d.now)

/-- The figures of a header where there is no iterate: left open. -/
def noFigures (n : Nat) : W64 × W64 × W64 × W64 :=
  (Config.unsolved n 0, Config.unsolved n 1, Config.unsolved n 2, Config.unsolved n 3)

/-! ### Hearths (R440) -/

/-- Problems of a template that run. -/
def runningOf (d : Device) (y : Yard) (t : Fin 16) : Nat :=
  (((d.forge y).reqs.filter fun q => q.tslot = t).flatMap fun q => q.problems.filter fun p => match p.phase with
    | .running _ => true
    | _ => false).length

/-- A hearth runs a problem: request and problem number. -/
def onHearth (d : Device) (y : Yard) (h : Fin 4) : Option (Nat × Nat) :=
  ((d.forge y).reqs.zipIdx.filterMap fun q =>
    (q.1.problems.findIdx? fun p => p.phase = .running h).map fun k => (q.2, k)).head?

/-- The request whose problem a free hearth takes next: booked before unbooked, then the earliest deadline, then
the earlier acceptance. -/
def nextRequest (d : Device) (y : Yard) : Option (Nat × ForgeReq) :=
  let ready := ((d.forge y).reqs.zipIdx.filter fun q =>
    (q.1.problems.any fun p => p.phase = .ready) && decide (d.now.toNat ≤ q.1.deadline.toNat)
      && (d.forgeTpl y q.1.tslot).any fun t => decide (d.runningOf y q.1.tslot < t.held))
  let pick (l : List (ForgeReq × Nat)) : Option (ForgeReq × Nat) :=
    l.foldl (fun (b : Option (ForgeReq × Nat)) q => match b with
      | some c => if q.1.deadline.toNat < c.1.deadline.toNat then some q else some c
      | none => some q) none
  let booked := ready.filter fun q => q.1.booked
  (pick (if booked.isEmpty then ready else booked)).map fun q => (q.2, q.1)

/-- The warm point of problem k (R443): the record must carry the template's fingerprint and a fit status. -/
def warmPoint (d : Device) (t : Template) (q : ForgeReq) (k : Nat) (vals : List W64) : Device × Option ForgePoint :=
  let a := dfield q.desc 6 0 48 + k * t.stride
  let (d, bs, bad) := d.readRange a (64 + 8 * t.n + 8 * t.m) q.booked
  let code := leNat (bs.take 2)
  if bad.isEmpty && leNat ((bs.drop 8).take 8) = t.fprint.toNat
      && (code = Status.done.toNat || code = Status.forgeIterLimit.toNat) then
    (d, some (t.warmStart vals (ofBytes (bs.drop 64) t.n) (ofBytes (bs.drop (64 + 8 * t.n)) t.m)))
  else (d, none)

/-- Problem k begins: assembly and the starting point, or the gradient g of a backward request. -/
def startProblem (d : Device) (y : Yard) (t : Template) (q : ForgeReq) (k : Nat) (p : Problem) : Device × Problem :=
  if q.back then
    let kept := (q.entry.bind fun e => (((d.forge y).ret[e].data)[k]?).getD none)
    if kept.isNone then (d, { p with skipped := true, code := Status.done })
    else
      let x : Source := (q.table[0]?).getD (Vector.replicate 4 0)
      let e := q.entry.getD 0
      let (d, _, bad) := d.readRange ((d.forge y).ret[e].retDpa + k * t.ret) t.ret q.booked
      let start : Code ⊕ List W64 := match failCode bad with
        | some c => .inl c
        | none => .inr []
      let r := (List.range t.n).foldl (fun (r : Device × (Code ⊕ List W64)) i =>
        match r.2 with
        | .inl _ => r
        | .inr g =>
          match r.1.sourceElem q.stall q.slot x q.booked (k * x.pstride + i) with
          | (d, .inl c) => (d, .inl c)
          | (d, .inr v) => (d, .inr (g ++ [round64 v]))) (d, start)
      match r with
      | (d, .inl c) => (d, { p with code := c })
      | (d, .inr g) => (d, { p with vals := g })
  else
    match d.assemble q.stall q.slot t q.table q.booked k with
    | (d, .inl c) => (d, { p with code := c })
    | (d, .inr vs) =>
      let asks := dfield q.desc 0 49 1 = 1 && !t.crossed vs
      let (d, w) := if asks then d.warmPoint t q k vs else (d, none)
      (d, { p with vals := vs, warm := w, warmRej := asks && w.isNone })

/-- A free hearth takes its next problem. -/
def problemStart (d : Device) (y : Yard) (h : Fin 4) : Device :=
  if (d.onHearth y h).isSome then d
  else
    match d.nextRequest y with
    | none => d
    | some (i, q) =>
      match d.forgeTpl y q.tslot, q.problems.findIdx? fun p => p.phase = .ready with
      | some t, some k =>
        let (n, d) := d.drawFree
        let d := d.modForge y fun f => { f with work := some d.epoch }
        let (d, p) := d.startProblem y t q k ((q.problems[k]?).getD ForgeReq.freshProblem)
        d.setReq y i { q with
          problems := q.problems.set k { p with phase := .running h, perFrame := (Config.firstCycles n).val } }
      | _, _ => d

/-- The gradients of problem k of a backward request go out: +0 where the handle does not retain it. The units that were not
written, or the code of a table read that failed (R36). -/
def writeGradients (d : Device) (y : Yard) (t : Template) (q : ForgeReq) (k : Nat) (g : List W64) : Device × Option Code :=
  let e := q.entry.getD 0
  let grads : List W64 :=
    match (((d.forge y).ret[e].data)[k]?).getD none with
    | some (p, vals) => (t.gradients p vals (t.solve vals p g)).map canon64
    | none => List.replicate t.targets 0
  let (d, bad) : Device × List (Nat × MemRes) :=
    if q.rawDpa = 0 then (d, []) else d.writeRange (q.rawDpa + k * t.rawStride) (doubles grads) q.booked
  match d.transposed t grads q.booked with
  | (d, .inl c) => (d, some ((failCode bad).getD c))
  | (d, .inr src) =>
    let r := (List.range t.nsrc).foldl (fun (r : Device × List (Nat × MemRes)) s =>
      let x : Source := (q.table[s + 1]?).getD (Vector.replicate 4 0)
      if !x.enabled then r
      else
        (List.range ((t.elems[s]?).getD 0)).foldl (fun r n =>
          let (d, bad) := r.1.gradientElem q.stall q.slot x q.booked (k * x.pstride + n)
            (canon64 ((mapGet src (s * 2 ^ 24 + n)).getD 0))
          (d, r.2 ++ bad)) r) (d, bad)
    (r.1, failCode r.2)

/-- The cycles that a problem has spent where its hearth names them: what earlier frames gave it, and no more than this frame
can add or its bound allows. -/
def spentBy (t : Template) (q : ForgeReq) (p : Problem) (cycles : Nat) : Nat :=
  max p.cycles (min cycles (min (p.cycles + p.perFrame) (q.bound t)))

/-- The point at which the solver starts a problem: its warm point or the cold one. -/
def startPoint (t : Template) (p : Problem) : ForgePoint := p.warm.getD (t.coldStart p.vals)

/-- How the solver ends a problem (R437, R438). -/
def solved (t : Template) (q : ForgeReq) (p : Problem) (r : ForgeResult) : Template.Outcome :=
  t.outcome p.vals q.tol q.iterMax (startPoint t p) r

/-- Where the solver of a problem stands after some iterations (R442): it makes none where some l lies above its u. -/
def reached (t : Template) (q : ForgeReq) (p : Problem) (iters : Nat) : Template.Outcome :=
  t.after p.vals q.tol q.iterMax (startPoint t p) (if t.crossed p.vals then 0 else iters)

/-- A problem of FSUBMIT ends as the solver leaves it: its output, as NaN after a breakdown (R438), and its header. A failed
write is the problem's status instead. -/
def putSolution (d : Device) (t : Template) (q : ForgeReq) (k : Nat) (p : Problem) (o : Template.Outcome) : Device × Problem :=
  let x := o.point
  let xy := if o.code = Status.forgeNumeric then List.replicate (t.n + t.m) nan64
    else fit64 t.n x.x ++ (t.ys p.vals x).map canon64
  let (d, fail) := d.writeRecord q (q.outDpa + k * t.stride + 64) (doubles xy)
  let p := { p with code := fail.getD o.code, result := some x }
  let (d, fail) := d.writeHeader t q q.outDpa k p 0 o.dual o.iters (t.residuals p.vals x)
  (d, { p with code := fail.getD p.code })

/-- A problem of FSUBMIT that has no iterate ends with a code: only its header is written. -/
def putFailure (d : Device) (t : Template) (q : ForgeReq) (k : Nat) (p : Problem) (code : Code) : Device × Problem :=
  let (n, d) := d.drawFree
  let p := { p with code := code }
  let (d, fail) := d.writeHeader t q q.outDpa k p 0 false 0 (noFigures n)
  (d, { p with code := fail.getD code })

/-- A problem of FSUBMIT ends (R437, R438). -/
def endForward (d : Device) (t : Template) (q : ForgeReq) (k : Nat) (p : Problem) (r : ForgeResult) : Device × Problem :=
  let p := { p with cycles := spentBy t q p r.cycles }
  if p.code ≠ 0 then d.putFailure t q k p p.code
  else if r.offline && d.anyOffline then d.putFailure t q k p Status.memChannelOffline
  else if t.crossed p.vals then d.putFailure t q k p Status.forgeInfeasible
  else d.putSolution t q k p (solved t q p r)

/-- A problem of FBACK ends: its gradients, from w := H⁻¹ g (R444). -/
def endBackward (d : Device) (y : Yard) (t : Template) (q : ForgeReq) (k : Nat) (p : Problem) (r : ForgeResult) :
    Device × Problem :=
  let p := { p with cycles := spentBy t q p r.cycles }
  if p.code ≠ 0 && !p.skipped then (d, p)
  else if r.offline && d.anyOffline then (d, { p with code := Status.memChannelOffline })
  else
    let (d, fail) := d.writeGradients y t q k p.vals
    (d, { p with code := fail.getD Status.done })

/-- The problem on a hearth ends; with its request's last one, the request commits. After its deadline it is for
the miss to stop it. -/
def problemEnd (d : Device) (y : Yard) (h : Fin 4) (r : ForgeResult) : Device :=
  match d.onHearth y h with
  | none => d
  | some (i, k) =>
    match (d.forge y).reqs[i]? with
    | none => d
    | some q =>
      match d.forgeTpl y q.tslot with
      | none => d
      | some t =>
        if q.deadline.toNat < d.now.toNat then d
        else
          let p := (q.problems[k]?).getD ForgeReq.freshProblem
          let (d, p) := if q.back then d.endBackward y t q k p r else d.endForward t q k p r
          let q := { q with problems := q.problems.set k { p with phase := .ended } }
          if q.problems.all fun p => p.phase = .ended then d.commitRequest y i q 0 else d.setReq y i q

/-! ### Deadline and abort (R442, R449) -/

/-- One unfinished problem stops with a code; s gives what its hearth was doing (R442). A problem that has failed already
has no iterate. -/
def stopProblem (d : Device) (t : Template) (q : ForgeReq) (k : Nat) (p : Problem) (code : Code) (s : Option ForgeStop) :
    Device × Problem :=
  let failed := p.code ≠ 0
  let p := { p with code := code, phase := .ended }
  let spend (r : ForgeResult) : Problem := { p with cycles := spentBy t q p r.cycles }
  if q.back then
    (d, match s with
      | some (.betweenIterations r) | some (.inFactorisation r) => spend r
      | none => p)
  else
    let diag (d : Device) (stop : Nat) (o : Template.Outcome) (xy : List W64) : Device :=
      let figs := t.residuals p.vals o.point
      let d := (d.writeHeader t q q.diagDpa k p stop false o.iters figs).1
      let d := (d.writeRange (q.diagDpa + k * t.stride + 64) (doubles xy) q.booked).1
      (d.writeHeader t q q.outDpa k p stop false o.iters figs).1
    let idle (d : Device) : Device :=
      let (n, d) := d.drawFree
      (d.writeHeader t q q.outDpa k p 3 false 0 (noFigures n)).1
    match s with
    | some (.betweenIterations r) =>
      let o := reached t q p r.iters
      (if failed || o.iters = 0 then idle d else diag d 1 o (fit64 t.n o.point.x ++ (t.ys p.vals o.point).map canon64), spend r)
    | some (.inFactorisation r) =>
      (if failed then idle d else diag d 2 (reached t q p r.iters) (List.replicate (t.n + t.m) nan64), spend r)
    | none => (idle d, p)

/-- The unfinished problems of request i stop with a code, and the request ends. -/
def stopRequest (d : Device) (y : Yard) (i : Nat) (q : ForgeReq) (code cause : Code) (stops : List ForgeStop) : Device :=
  match d.forgeTpl y q.tslot with
  | none => d
  | some t =>
    let r := q.problems.zipIdx.foldl (fun (x : Device × List Problem × List ForgeStop) p =>
      match p.1.phase with
      | .ended => (x.1, x.2.1 ++ [p.1], x.2.2)
      | .ready =>
        let (d, p) := x.1.stopProblem t q p.2 p.1 code none
        (d, x.2.1 ++ [p], x.2.2)
      | .running _ =>
        let (d, p) := x.1.stopProblem t q p.2 p.1 code x.2.2.head?
        (d, x.2.1 ++ [p], x.2.2.drop 1)) (d, [], stops)
    r.1.commitRequest y i { q with problems := r.2.1 } cause

/-- A frame ends for the hearths: each problem that runs has had what the frame gave it (R439). -/
def forgeFrame (d : Device) (y : Yard) : Device :=
  d.modForge y fun f => { f with
    reqs := f.reqs.map fun q =>
      match f.tpl[q.tslot] with
      | some t => { q with problems := q.problems.map fun p => match p.phase with
          | .running _ => { p with cycles := max p.cycles (min (p.cycles + p.perFrame) (q.bound t)), perFrame := 14336 }
          | _ => p }
      | none => q }

/-- The deadline frame of a request has ended. -/
def overdue (d : Device) (q : ForgeReq) : Bool := decide (q.deadline < d.now)

/-- The oldest request whose deadline frame has ended misses. -/
def deadlineMiss (d : Device) (y : Yard) (stops : List ForgeStop) : Device :=
  match (d.forge y).reqs.findIdx? d.overdue with
  | none => d
  | some i =>
    match (d.forge y).reqs[i]? with
    | none => d
    | some q =>
      let hot := (finList 64).any fun (c : Chan) => d.mc[c].state ≠ .absent && decide (2 ≤ d.mc[c].level)
      let cause : Code := if q.booked && hot then Status.memThermalLate else 0
      (d.stopRequest y i q Status.forgeDeadlineMissed cause stops).eventCode (Page.forge y) 2 Status.forgeDeadlineMissed

/-- FORGE_ABORT_RES is written, with its event. -/
def forgeAbortAnswer (d : Device) (y : Yard) (c : Code) : Device :=
  (d.modForge y fun f => { f with abortRes := c }).eventCode (Page.forge y) 3 c

/-- FORGE_ABORT. -/
def forgeAbort (d : Device) (y : Yard) (v : W32) (stops : List ForgeStop) : Device :=
  if !d.serving then d
  else
    let sl : Slot := if flag v 8 then .paddock else .primary
    let at_ := (d.forge y).reqs.findIdx? fun q => q.stall.val = field v 16 9 && q.slot = sl && q.ntag = field v 0 8
    match at_ with
    | none => d.forgeAbortAnswer y Status.abortTooLate
    | some i =>
      match (d.forge y).reqs[i]? with
      | none => d
      | some q => (d.stopRequest y i q Status.aborted 0 stops).forgeAbortAnswer y Status.aborted

/-! ### Submission (R433, R435, R439) -/

/-- The figures that every new request starts from. -/
def newReq (d : Device) (st : StallId) (back : Bool) (x : Vector W64 8) : ForgeReq :=
  { stall := st, slot := d.slotOf st, back := back, desc := x, table := [], accept := d.now
    deadline := BitVec.ofNat 48 (dfield x 1 0 48), booked := !(dfield x 0 (if back then 53 else 51) 1 = 1), tslot := 0
    entry := none, problems := [] }

/-- Step 3 of R131 for FSUBMIT and FBACK. -/
def forgeLegal (back : Bool) (x : Vector W64 8) : Bool :=
  if back then
    reservedClear x [(0, 53, 11), (0, 8, 3), (1, 0, 48), (2, 0, 16), (2, 32, 32), (3, 0, 48)] && dfield x 0 54 2 ≠ 3
  else
    reservedClear x [(0, 49, 15), (0, 16, 24), (0, 8, 3), (1, 0, 48), (2, 0, 64), (3, 0, 32), (4, 0, 48), (5, 0, 48), (6, 0, 48),
      (7, 0, 64)]
    && decide (10 ≤ dfield x 0 32 8) && decide (dfield x 0 32 8 ≤ 50) && decide (1 ≤ dfield x 0 16 16)
    && decide (dfield x 0 16 16 ≤ 1000) && decide (1 ≤ dfield x 2 32 32) && decide (dfield x 2 32 32 ≤ 4096)
    && (dfield x 0 50 1 = 0 || dfield x 7 48 16 ≠ 0)

/-- A source or gradient table of n entries. -/
def readTable (d : Device) (st : StallId) (sl : Slot) (a n : Nat) : Device × List Source :=
  let (d, bs, _) := d.engRead st sl a (32 * n)
  (d, (List.range n).map fun i => Vector.ofFn fun (j : Fin 4) => BitVec.ofNat 64 (leNat ((bs.drop (32 * i + 8 * j.val)).take 8)))

/-- The request joins the Forge where it is admitted (R435, R439). -/
def forgeAdmit (d : Device) (y : Yard) (q : ForgeReq) (t : Template) (hold : Option Nat) : Device :=
  let part := d.spentNow
  let set := d.forgeSet y part ++ (if q.booked then [(q.deadline, q.accept, q.left t part, q.lp6Left t)] else [])
  let slot := (finList 64).find? fun (e : Fin 64) => !(d.forge y).ret[e].used
  if decide (q.deadline.toNat ≤ q.accept.toNat) || (hold.isSome && slot.isNone) then d.forgeRefuse y q Status.admissionRefused
  else if q.booked && !forgeFits d.now (d.forgeBook y) (d.forgeLp6 y) set then d.forgeRefuse y q Status.admissionRefused
  else
    match hold, slot with
    | some n, some e =>
      let d := d.modRet y e fun r =>
        { r with used := true, committed := false, tslot := q.tslot, retDpa := dfield q.desc 7 0 48
                 lastFrame := q.deadline + BitVec.ofNat 48 n, nprob := q.nproblems, data := [], releaseDue := false
                 expired := false }
      d.modForge y fun f => { f with reqs := f.reqs ++ [{ q with entry := some e }] }
    | _, _ => d.modForge y fun f => { f with reqs := f.reqs ++ [q] }

/-- Acceptance of FSUBMIT. -/
def acceptForward (d : Device) (y : Yard) (q : ForgeReq) : Device :=
  let x := q.desc
  let ts : Fin 16 := Fin.ofNat 16 (dfield x 0 52 4)
  let n := dfield x 2 32 32
  let q := { q with tslot := ts, problems := List.replicate n ForgeReq.freshProblem }
  match d.forgeTpl y ts with
  | none => d.forgeRefuse y q Status.forgeTemplateInvalid
  | some t =>
    let (d, table) := d.readTable q.stall q.slot (dfield x 3 0 32) t.nsrc
    let q := { q with table := table }
    let short := (List.range t.nsrc).any fun s =>
      decide ((((table[s]?).map Source.len).getD 0) < ((t.elems[s]?).getD 0))
    let retain := dfield x 0 50 1 = 1
    let ok (a k : Nat) : Bool := d.mapped a k
    let sources := table.all fun s => d.sourceMapped q.stall q.slot s (if s.len = 0 then 0 else (n - 1) * s.pstride + s.len)
    if t.version.toNat ≠ dfield x 2 0 32 || short then d.forgeRefuse y q Status.forgeTemplateInvalid
    else if !(table.all Source.formatOk) then d.forgeRefuse y q Status.gateConfigInvalid
    else if !(ok q.outDpa (n * t.stride) && ok q.diagDpa (n * t.stride) && sources
        && (dfield x 0 49 1 = 0 || ok (dfield x 6 0 48) (n * t.stride)) && (!retain || ok (dfield x 7 0 48) (n * t.ret))) then
      d.forgeRefuse y q Status.addressUnmapped
    else d.forgeAdmit y q t (if retain then some (dfield x 7 48 16) else none)

/-- Acceptance of FBACK (R435, R446, R447). -/
def acceptBackward (d : Device) (y : Yard) (q : ForgeReq) : Device :=
  let x := q.desc
  match d.retained y (dfield x 2 0 16) with
  | none => d.forgeRefuse y q Status.forgeRetentionExpired
  | some (e, r) =>
    if dfield x 0 54 2 = 2 then
      let d := d.modRet y e fun r => { r with releaseDue := true }
      ((d.forgeNotice y q Status.done 0 (handleOf e r) 0 0 0 d.now).bump (Page.forge y) 0x154 1).settleRetention y e
    else
      match d.forgeTpl y r.tslot with
      | none => d.forgeRefuse y q Status.forgeTemplateInvalid
      | some t =>
        let n := r.nprob
        let (d, table) := d.readTable q.stall q.slot (dfield x 2 32 32) 9
        let q := { q with table := table, tslot := r.tslot, entry := some e, problems := List.replicate n ForgeReq.freshProblem }
        let g : Source := (table[0]?).getD (Vector.replicate 4 0)
        let outs := ((table.drop 1).take t.nsrc).zipIdx.filter fun s => s.1.enabled
        let fmtOk (s : Source) : Bool := if s.isDpa then s.fmt = 1 else decide (s.fmt ≤ 2)
        let outOk (s : Source × Nat) : Bool :=
          let m := (t.elems[s.2]?).getD 0
          m = 0 || d.sourceMapped q.stall q.slot s.1 ((n - 1) * s.1.pstride + m)
        if g.len < t.n then d.forgeRefuse y q Status.forgeTemplateInvalid
        else if !g.formatOk || !(outs.all fun s => fmtOk s.1) then d.forgeRefuse y q Status.gateConfigInvalid
        else if !(d.sourceMapped q.stall q.slot g ((n - 1) * g.pstride + g.len) && outs.all outOk
            && (q.rawDpa = 0 || d.mapped q.rawDpa (n * t.rawStride))) then d.forgeRefuse y q Status.addressUnmapped
        else d.forgeAdmit y q t none

/-- FSUBMIT and FBACK at issue. -/
def forgeIssue (d : Device) (st : StallId) (back : Bool) (m : MFormat) (w : W32) : Device :=
  let sl := d.slotOf st
  let y := yardOf st
  if m.sel ≠ 0 ∨ m.b ≠ 0 ∨ m.d ≠ 0 then d.illegal st w
  else if 4 ≤ d.forgeOutstanding st sl then d
  else
    d.withDescr st (d.sreg st m.a) fun d x =>
      if !forgeLegal back x then d.illegal st w
      else
        let entries := if back then 9 else ((d.forgeTpl y (Fin.ofNat 16 (dfield x 0 52 4))).map Template.nsrc).getD 1
        let table : List Region :=
          if back && dfield x 0 54 2 = 2 then [] else [⟨dfield x (if back then 2 else 3) (if back then 32 else 0) 32, 32 * entries, 64⟩]
        d.checkRegions st table fun d =>
          d.withNotices st (noticeMbx x) 1 fun d =>
            let q := d.newReq st back x
            (if back then d.acceptBackward y q else d.acceptForward y q).retire st 1

/-! ### Template slots (R430) -/

/-- A request or a retention entry names the slot. -/
def templateUsed (d : Device) (y : Yard) (t : Fin 16) : Bool :=
  ((d.forge y).reqs.any fun q => q.tslot = t) || (finList 64).any fun (e : Fin 64) => (d.forge y).ret[e].used && (d.forge y).ret[e].tslot = t

/-- TPL_RESULT is written: the event, and the answer to the host command that asked. -/
def templateResult (d : Device) (y : Yard) (t : Fin 16) (who : Option Asker) (c : Code) : Device :=
  let d := (d.modForge y fun f => { f with tplResult := c }).eventCode (Page.forge y) 1 c
  match who with
  | some (q, cid) => d.finishCmd q (fun h => h.cid = cid && h.wait = .template y t) c (c.setWidth 64)
  | none => d

/-- LOAD of a slot from a DPA. -/
def loadTemplate (d : Device) (y : Yard) (t : Fin 16) (dpa : Nat) (who : Option Asker) : Device :=
  if d.templateUsed y t then d.templateResult y t who Status.forgeTemplateInvalid
  else d.modForge y fun f => { f with loading := f.loading ++ [{ slot := t, dpa := dpa, who := who, start := d.now }] }

/-- UNLOAD of a slot. -/
def unloadTemplate (d : Device) (y : Yard) (t : Fin 16) (who : Option Asker) : Device :=
  if d.templateUsed y t then d.templateResult y t who Status.forgeTemplateInvalid
  else (d.modForge y fun f => { f with tpl := f.tpl.set t none }).templateResult y t who Status.done

/-- The oldest load finishes. -/
def templateLoaded (d : Device) (y : Yard) : Device :=
  match (d.forge y).loading with
  | [] => d
  | l :: rest =>
    let d := d.modForge y fun f => { f with loading := rest }
    if d.templateUsed y l.slot then d.templateResult y l.slot l.who Status.forgeTemplateInvalid
    else
      match d.readTemplate l.dpa with
      | (d, .inr x) => (d.modForge y fun f => { f with tpl := f.tpl.set l.slot (some x) }).templateResult y l.slot l.who Status.done
      | (d, .inl c) => d.templateResult y l.slot l.who c

/-- The loads that have had 64 frames at the end of the frame that ends complete in it (R430); fuel bounds their number. -/
def finishLoads (d : Device) (y : Yard) : Nat → Device
  | 0 => d
  | n + 1 =>
    if (d.forge y).loading.head?.any fun l => decide (64 ≤ since d.now l.start) then (d.templateLoaded y).finishLoads y n else d

/-- TPL_CMD. -/
def templateCmd (d : Device) (y : Yard) (v : W32) : Device :=
  let t : Fin 16 := Fin.ofNat 16 (field v 0 4)
  let dpa := (d.preg (Page.forge y) 0x118).toNat + d.pfield (Page.forge y) 0x11C 0 16 * 2 ^ 32
  if !d.serving then d
  else if field v 16 2 = 1 then d.loadTemplate y t dpa none
  else if field v 16 2 = 2 then d.unloadTemplate y t none
  else d

/-- The boundary that ends frame DEADLINE + RET_HOLD frees an entry, or leaves that to the FBACKs on it. -/
def retentionExpiry (d : Device) (y : Yard) (e : Fin 64) : Device :=
  if d.entryEnds y e then
    let r := (d.forge y).ret[e]
    if d.retentionHeld y e then d.modRet y e fun r => { r with expired := true }
    else if r.releaseDue then d.freeRetention y e
    else d.expireRetention y e
  else d

end Device

/-! ### The commands -/

def execFsubmit (st : StallId) (m : MFormat) (s : State) : Host.Outcome State Fault Refusal :=
  .next (s.onDev fun d => d.issue st 1 fun d => d.forgeIssue st false m (Coeri.firstWord (.fsubmit st m)))

/-- BACKWARD: the descriptor's OP says which of the three it is (R446). -/
def execBackward (st : StallId) (m : MFormat) (s : State) : Host.Outcome State Fault Refusal :=
  .next (s.onDev fun d => d.issue st 1 fun d => d.forgeIssue st true m (Coeri.firstWord (.backward st m)))

def execBackwardAndRelease (st : StallId) (m : MFormat) (s : State) : Host.Outcome State Fault Refusal :=
  .next (s.onDev fun d => d.issue st 1 fun d => d.forgeIssue st true m (Coeri.firstWord (.backward st m)))

def execForgeRelease (st : StallId) (m : MFormat) (s : State) : Host.Outcome State Fault Refusal :=
  .next (s.onDev fun d => d.issue st 1 fun d => d.forgeIssue st true m (Coeri.firstWord (.backward st m)))

def execProblemStart (fo : Yard) (hearth : Fin 4) (s : State) : Host.Outcome State Fault Refusal :=
  .next (s.onDev fun d => d.problemStart fo hearth)

def execProblemEnd (fo : Yard) (hearth : Fin 4) (r : ForgeResult) (s : State) : Host.Outcome State Fault Refusal :=
  .next (s.onDev fun d => d.problemEnd fo hearth r)

def execForgeAbort (_who : Requester) (fo : Yard) (v : W32) (stops : List ForgeStop) (s : State) :
    Host.Outcome State Fault Refusal :=
  .next (s.onDev fun d => d.forgeAbort fo v stops)

/-- A write of TPL_CMD; the CMD field says which command it is. -/
def execTplCmdLoad (_who : Requester) (fo : Yard) (v : W32) (s : State) : Host.Outcome State Fault Refusal :=
  .next (s.onDev fun d => d.templateCmd fo v)

def execTplLoadDone (fo : Yard) (s : State) : Host.Outcome State Fault Refusal :=
  .next (s.onDev fun d => d.templateLoaded fo)

def execTplCmdUnload (_who : Requester) (fo : Yard) (v : W32) (s : State) : Host.Outcome State Fault Refusal :=
  .next (s.onDev fun d => d.templateCmd fo v)

end Sys2Proof.Machine
end

