-- ==== Sys2Proof/Machine/Slh.lean ====
section
/-! DEFINITION. SLH-DSA of FIPS 205 with SHA-256 at n = 16, which the manual names for the identity key, its signatures and
those of bundles and debug tokens (R359, R524, R526, R527, R533): key generation, pure signing and verification. FIPS 205 is
not part of the manual: PRESUMED from outside it (log 56). -/

namespace Sys2Proof.Machine

namespace Slh

/-- A parameter set with n = 16 and w = 16: total height, layers, height of one tree, height and number of the FORS trees, and
bytes of a message digest. -/
structure Params where
  h : Nat
  d : Nat
  hp : Nat
  a : Nat
  k : Nat
  m : Nat

/-- SLH-DSA-SHA2-128s and SLH-DSA-SHA2-128f. -/
def small : Params := ⟨63, 7, 9, 12, 14, 30⟩
def fast : Params := ⟨66, 22, 3, 6, 33, 34⟩

/-- An address in its compressed form: layer, tree, type, and three words that the type names. -/
structure Adrs where
  layer : Nat
  tree : Nat
  kind : Nat
  word1 : Nat
  word2 : Nat
  word3 : Nat

def Adrs.bytes (a : Adrs) : List Byte :=
  beBytes 1 a.layer ++ beBytes 8 a.tree ++ beBytes 1 a.kind ++ beBytes 4 a.word1 ++ beBytes 4 a.word2 ++ beBytes 4 a.word3

/-- F, H, T_l and PRF: 16 bytes of SHA-256 over PK.seed in a block of its own, an address and a message. -/
def tweak (pk : List Byte) (a : Adrs) (m : List Byte) : List Byte := (Sha.sha256 (padTo 64 pk ++ a.bytes ++ m)).take 16

/-- Element i of bytes taken as elements of 16 B. -/
def elem (bs : List Byte) (i : Nat) : List Byte := (bs.drop (16 * i)).take 16

/-- The first n digits of b bits of a byte string, the most significant first (base_2b). -/
def digits (bs : List Byte) (b n : Nat) : List Nat :=
  let l := (n * b + 7) / 8
  let x := beNat (bs.take l)
  (List.range n).map fun i => x / 2 ^ (8 * l - b * (i + 1)) % 2 ^ b

/-! ### One-time signatures (WOTS+) -/

/-- The 35 digits of a 16 B message and its checksum. -/
def wotsDigits (m : List Byte) : List Nat :=
  let ds := digits m 4 32
  ds ++ digits (beBytes 2 ((ds.map (15 - ·)).sum * 16)) 4 3

/-- n steps of a chain from step i on. -/
def chain (pk : List Byte) (a : Adrs) (i : Nat) : Nat → List Byte → List Byte
  | 0, x => x
  | n + 1, x => chain pk a (i + 1) n (tweak pk { a with word3 := i } x)

/-- The secret start of chain i of a key pair. -/
def wotsSecret (sk pk : List Byte) (a : Adrs) (i : Nat) : List Byte := tweak pk { a with kind := 5, word2 := i, word3 := 0 } sk

/-- The public key that the ends of the chains make. -/
def wotsKey (pk : List Byte) (a : Adrs) (ends : List (List Byte)) : List Byte :=
  tweak pk { a with kind := 1, word2 := 0, word3 := 0 } ends.flatten

def wotsPublic (sk pk : List Byte) (a : Adrs) : List Byte :=
  wotsKey pk a ((List.range 35).map fun i => chain pk { a with word2 := i } 0 15 (wotsSecret sk pk a i))

def wotsSign (sk pk : List Byte) (a : Adrs) (m : List Byte) : List Byte :=
  (wotsDigits m).zipIdx.flatMap fun x => chain pk { a with word2 := x.2 } 0 x.1 (wotsSecret sk pk a x.2)

def wotsFrom (pk : List Byte) (a : Adrs) (m sig : List Byte) : List Byte :=
  wotsKey pk a ((wotsDigits m).zipIdx.map fun x => chain pk { a with word2 := x.2 } x.1 (15 - x.1) (elem sig x.2))

/-! ### Trees -/

/-- Node i at height z of a tree with some leaves and a join of two nodes into node i at a height. -/
def node (leaf : Nat → List Byte) (join : Nat → Nat → List Byte → List Byte) : Nat → Nat → List Byte
  | 0, i => leaf i
  | z + 1, i => join (z + 1) i (node leaf join z (2 * i) ++ node leaf join z (2 * i + 1))

/-- The siblings on the way from leaf i up to a height. -/
def path (leaf : Nat → List Byte) (join : Nat → Nat → List Byte → List Byte) (height i : Nat) : List Byte :=
  (List.range height).flatMap fun j => node leaf join j (if i / 2 ^ j % 2 = 0 then i / 2 ^ j + 1 else i / 2 ^ j - 1)

/-- The node at a height over leaf i with value x and the siblings on its way. -/
def climb (join : Nat → Nat → List Byte → List Byte) (height i : Nat) (auth x : List Byte) : List Byte :=
  (List.range height).foldl (fun x j =>
    let s := elem auth j
    join (j + 1) (i / 2 ^ (j + 1)) (if i / 2 ^ j % 2 = 0 then x ++ s else s ++ x)) x

/-! ### The hypertree of XMSS trees -/

def xmssJoin (pk : List Byte) (a : Adrs) (z i : Nat) (m : List Byte) : List Byte :=
  tweak pk { a with kind := 2, word1 := 0, word2 := z, word3 := i } m

def wotsAt (a : Adrs) (i : Nat) : Adrs := { a with kind := 0, word1 := i, word2 := 0, word3 := 0 }

def xmssLeaf (sk pk : List Byte) (a : Adrs) (i : Nat) : List Byte := wotsPublic sk pk (wotsAt a i)

def xmssSign (p : Params) (sk pk : List Byte) (a : Adrs) (i : Nat) (m : List Byte) : List Byte :=
  wotsSign sk pk (wotsAt a i) m ++ path (xmssLeaf sk pk a) (xmssJoin pk a) p.hp i

def xmssFrom (p : Params) (pk : List Byte) (a : Adrs) (i : Nat) (m sig : List Byte) : List Byte :=
  climb (xmssJoin pk a) p.hp i (sig.drop 560) (wotsFrom pk (wotsAt a i) m sig)

/-- The signatures of some layers from one on: a message at a leaf of a tree, then each root in the tree above. -/
def htSign (p : Params) (sk pk : List Byte) : Nat → Nat → Nat → Nat → List Byte → List Byte
  | 0, _, _, _, _ => []
  | n + 1, layer, tree, leaf, m =>
    let a : Adrs := ⟨layer, tree, 0, 0, 0, 0⟩
    let sig := xmssSign p sk pk a leaf m
    sig ++ htSign p sk pk n (layer + 1) (tree / 2 ^ p.hp) (tree % 2 ^ p.hp) (xmssFrom p pk a leaf m sig)

/-- The root that the signatures of the layers lead to. -/
def htFrom (p : Params) (pk : List Byte) : Nat → Nat → Nat → Nat → List Byte → List Byte → List Byte
  | 0, _, _, _, m, _ => m
  | n + 1, layer, tree, leaf, m, sig =>
    htFrom p pk n (layer + 1) (tree / 2 ^ p.hp) (tree % 2 ^ p.hp) (xmssFrom p pk ⟨layer, tree, 0, 0, 0, 0⟩ leaf m sig)
      (sig.drop (16 * (35 + p.hp)))

/-! ### Few-time signatures (FORS) -/

def forsSecret (sk pk : List Byte) (a : Adrs) (i : Nat) : List Byte := tweak pk { a with kind := 6, word2 := 0, word3 := i } sk

def forsJoin (pk : List Byte) (a : Adrs) (z i : Nat) (m : List Byte) : List Byte :=
  tweak pk { a with kind := 3, word2 := z, word3 := i } m

def forsSign (p : Params) (sk pk : List Byte) (a : Adrs) (md : List Byte) : List Byte :=
  (digits md p.a p.k).zipIdx.flatMap fun x =>
    let i := x.2 * 2 ^ p.a + x.1
    forsSecret sk pk a i ++ path (fun j => forsJoin pk a 0 j (forsSecret sk pk a j)) (forsJoin pk a) p.a i

def forsFrom (p : Params) (pk : List Byte) (a : Adrs) (md sig : List Byte) : List Byte :=
  let roots := (digits md p.a p.k).zipIdx.map fun x =>
    let i := x.2 * 2 ^ p.a + x.1
    let s := sig.drop (16 * x.2 * (p.a + 1))
    climb (forsJoin pk a) p.a i (s.drop 16) (forsJoin pk a 0 i (elem s 0))
  tweak pk { a with kind := 4, word2 := 0, word3 := 0 } roots.flatten

/-! ### Keys, signatures, verification -/

/-- PK.root of SK.seed and PK.seed. -/
def root (p : Params) (sk pk : List Byte) : List Byte :=
  let a : Adrs := ⟨p.d - 1, 0, 0, 0, 0, 0⟩
  node (xmssLeaf sk pk a) (xmssJoin pk a) p.hp 0

/-- The message digest, cut into FORS digits, tree and leaf. -/
def messageAt (p : Params) (r pk root m : List Byte) : List Byte × Nat × Nat :=
  let seed := r ++ pk ++ Sha.sha256 (r ++ pk ++ root ++ m)
  let digest := ((List.range ((p.m + 31) / 32)).flatMap fun c => Sha.sha256 (seed ++ beBytes 4 c)).take p.m
  let md := (p.k * p.a + 7) / 8
  let tree := (p.h - p.hp + 7) / 8
  (digest.take md, beNat ((digest.drop md).take tree) % 2 ^ (p.h - p.hp),
    beNat ((digest.drop (md + tree)).take ((p.hp + 7) / 8)) % 2 ^ p.hp)

/-- The message of the pure interface: a context of at most 255 B and the message. -/
def pureMessage (context message : List Byte) : List Byte := [0, BitVec.ofNat 8 context.length] ++ context ++ message

/-- A signature with the keys' seeds and 16 random bytes. -/
def sign (p : Params) (sk prf pk rand context message : List Byte) : List Byte :=
  let m := pureMessage context message
  let r := (Sha.hmac prf (rand ++ m)).take 16
  let (md, tree, leaf) := messageAt p r pk (root p sk pk) m
  let a : Adrs := ⟨0, tree, 3, leaf, 0, 0⟩
  let fors := forsSign p sk pk a md
  r ++ fors ++ htSign p sk pk p.d 0 tree leaf (forsFrom p pk a md fors)

/-- Bytes of a signature. -/
def size (p : Params) : Nat := 16 * (1 + p.k * (p.a + 1) + p.d * (35 + p.hp))

/-- A signature holds under a public key, PK.seed and PK.root. -/
def verify (p : Params) (pub context message sig : List Byte) : Bool :=
  let pk := pub.take 16
  let m := pureMessage context message
  let (md, tree, leaf) := messageAt p (sig.take 16) pk (pub.drop 16) m
  let fors := forsFrom p pk ⟨0, tree, 3, leaf, 0, 0⟩ md (sig.drop 16)
  sig.length = size p && htFrom p pk p.d 0 tree leaf fors (sig.drop (16 * (1 + p.k * (p.a + 1)))) = pub.drop 16

end Slh

end Sys2Proof.Machine
end

