-- ==== Sys2Proof/Machine/Fuses.lean ====
section
/-! DEFINITION. The fuse array as the latches show it: its fields, the read with SEC-DED, the key slots and the
device identity key (R515 to R519, R526, R529). -/

namespace Sys2Proof.Machine

/-- Data unit u and its check bits. -/
def fuseUnit (a : FuseArray) (u : Nat) : W32 := BitVec.ofNat 32 (field a (32 * u) 32)
def fuseBits (a : FuseArray) (u : Nat) : BitVec 8 := BitVec.ofNat 8 (field a (6400 + 8 * u) 8)

/-- Units 2 to 4 are kept by pairs and thermometers, without check bits. -/
def fusePlain (u : Nat) : Bool := decide (2 ≤ u) && decide (u ≤ 4)

/-- The columns of a code's check matrix: some of the bytes with three or more bits, an odd number, no two alike; those of the
check bits themselves have one bit. Any two wrong bits leave a syndrome of even weight, so one is corrected and two are
found (R515, log 56). -/
def pickColumns : Nat → List Byte → List Byte
  | 0, _ => []
  | n + 1, l =>
    let i := Config.fuseColumn n % l.length
    (l[i]?).getD 0 :: pickColumns n (l.eraseIdx i)

def fuseColumns : List Byte :=
  pickColumns 32 (((List.range 256).map (BitVec.ofNat 8)).filter fun b =>
    let ones := ((List.range 8).filter (flag b)).length
    ones % 2 = 1 && decide (3 ≤ ones))

/-- The check bits of a data unit. -/
def fuseCheck (x : W32) : BitVec 8 :=
  (fuseColumns.zipIdx.filter fun p => flag x p.2).foldl (fun c p => c ^^^ p.1) 0

/-- A unit as read: its value and whether a bit was corrected; none where it is uncorrectable. A unit with no
blown bit is not written. -/
def fuseDecode (a : FuseArray) (u : Nat) : Option (W32 × Bool) :=
  let x := fuseUnit a u
  let c := fuseBits a u
  if fusePlain u || (x = 0 && c = 0) then some (x, false)
  else
    let s := fuseCheck x ^^^ c
    if s = 0 then some (x, false)
    else if (List.range 8).any fun i => s = BitVec.ofNat 8 (2 ^ i) then some (x, true)
    else (fuseColumns.findIdx? (· = s)).map fun i => (x ^^^ BitVec.ofNat 32 (2 ^ i), true)

/-- A thermometer: the index of its highest blown bit plus one (R516). -/
def thermometer {w : Nat} (x : BitVec w) : Nat := (((List.range w).filter fun i => flag x i).getLast?.map (· + 1)).getD 0

namespace Trust

/-- The read of R517: corrected units, uncorrectable units as zeros. -/
def readFuses (t : Trust) (a : FuseArray) : Trust :=
  let units := (List.range 200).map fuseDecode'
  { t with
    latch := BitVec.ofNat 8192 (leNat (units.flatMap fun r => leBytes 4 ((r.map (·.1.toNat)).getD 0)))
    badUnits := below 200 fun u => (fuseDecode' u).isNone }
where fuseDecode' (u : Nat) := fuseDecode a u

def corrected (a : FuseArray) : Nat := (below 200 fun u => (fuseDecode a u).any (·.2)).length

def unit (t : Trust) (u : Nat) : W32 := fuseUnit t.latch u

/-- Bytes of n units from u. -/
def unitBytes (t : Trust) (u n : Nat) : List Byte := leBytes (4 * n) (field t.latch (32 * u) (32 * n))

def deviceId (t : Trust) : W64 := BitVec.ofNat 64 (field t.latch 0 64)
def pair (t : Trust) (i : Nat) : Bool := field (t.unit 2) i 2 ≠ 0
def revoked (t : Trust) (k : Nat) : Bool := t.pair (2 * k)
def debugLevel (t : Trust) : Nat := thermometer (BitVec.ofNat 2 (field (t.unit 2) 8 2))
def scanLock (t : Trust) : Bool := t.pair 12
def identReq (t : Trust) : Bool := t.pair 14
def rollback (t : Trust) : Nat := thermometer (BitVec.ofNat 64 (field t.latch 96 64))
def freqBin (t : Trust) : BitVec 8 := BitVec.ofNat 8 (field (t.unit 5) 0 8)
def keyHash (t : Trust) (k : Nat) : List Byte := t.unitBytes (6 + 8 * k) 8

/-- A unit from u to u + n − 1 is uncorrectable. -/
def anyBad (t : Trust) (u n : Nat) : Bool := t.badUnits.any fun b => decide (u ≤ b) && decide (b < u + n)

/-- A key slot is present (R518), and may verify. While SCAN_CLEARED is set no key slot is read (R535). -/
def present (t : Trust) (k : Nat) : Bool :=
  field t.latch (192 + 256 * k) 256 ≠ 0 && !t.anyBad (6 + 8 * k) 8
def usable (t : Trust) (k : Nat) : Bool := t.present k && !t.revoked k && !t.scanCleared

/-- K1 and K2 of R526. -/
def identityKeys (t : Trust) : List Byte × List Byte :=
  let uds := t.unitBytes 38 8
  let text (n : Nat) : List Byte := [0x5A, 0x4C, 0x39, 0x2D, 0x49, 0x44, 0x4B, 0x2D, BitVec.ofNat 8 (0x30 + n)]
  (Sha.hmac uds (text 1), Sha.hmac uds (text 2))

/-- SK.seed, SK.prf and PK.seed of R526. -/
def skSeed (t : Trust) : List Byte := t.identityKeys.1.take 16
def skPrf (t : Trust) : List Byte := t.identityKeys.1.drop 16
def pkSeed (t : Trust) : List Byte := t.identityKeys.2.take 16

/-- The public key: PK.seed, then PK.root of SLH-DSA-SHA2-128f (R526). -/
def publicKey (t : Trust) : List Byte := t.pkSeed ++ Slh.root Slh.fast t.skSeed t.pkSeed

/-- The identity key is derived from a usable UDS, unless SCAN_CLEARED is set (R526, R529). -/
def deriveIdentity (t : Trust) : Trust :=
  if t.scanCleared || t.anyBad 38 8 || field t.latch 1216 256 = 0 then { t with idkValid := false, idkPub := 0 }
  else { t with idkValid := true, idkPub := BitVec.ofNat 256 (leNat t.publicKey) }

/-- A signature of the identity key over a message, 17,088 B: SLH-DSA-SHA2-128f, with random bytes that R527 leaves open. -/
def sign (t : Trust) (context message : List Byte) : List Byte :=
  Slh.sign Slh.fast t.skSeed t.skPrf t.pkSeed (leBytes 16 (Config.signRandom context message).toNat) context message

/-- The 32 bytes of a digest or a key in a register. -/
def digest (m : List Byte) : BitVec 256 := BitVec.ofNat 256 (leNat (Sha.sha256 m))
def keyBytes (x : BitVec 256) : List Byte := leBytes 32 x.toNat

end Trust

/-- The repair entries of the array: MGR_REP, then LOFT_REP. -/
def Trust.repairEntries (t : Trust) : List W32 := (List.range 138).map fun i => t.unit (62 + i)

/-- The maps built from the array at power-good, which a warm reset keeps (R471, R519). -/
def Trust.mgrRep (t : Trust) : List W32 := t.repair.take 74
def Trust.loftRep (t : Trust) : List W32 := t.repair.drop 74

/-- MGR_REPAIR of a manger (R259, R519): the distinct lanes that valid entries name, ascending. -/
def deadLanes (t : Trust) (st : StallId) (m : Fin 4) : List Nat :=
  below 128 fun l => t.mgrRep.any fun e =>
    flag e 31 && field e 20 11 = st.val * 4 + m.val && field e 0 7 = l

/-- phys(j) of R259: the physical lane that runs logical lane j, past the unused lanes. -/
def physLane (dead : List Nat) (j : Fin 64) : Fin 66 :=
  let past (p : Nat) (dead : Option Nat) : Nat :=
    match dead with
    | some l => if l ≤ p then p + 1 else p
    | none => p
  Fin.ofNat 66 (past (past j dead[0]?) dead[1]?)

end Sys2Proof.Machine
end

