-- ==== Sys2Proof/Machine/Ports.lean ====
section
/-! DEFINITION. The commands of the torus ports: bring-up, negotiation and identity, link control on VC0, lane
sparing, payload, and what ends a link (R330 to R374). -/

namespace Sys2Proof.Machine

namespace Device

/-! ### Bring-up (R333, R353 to R360) -/

/-- The configurations of R333 in order: lanes and the slower rate. -/
def configurations : List (Nat × Bool) := [(16, false), (16, true), (8, false), (8, true), (4, false), (4, true)]

/-- The lowest n lanes of a map, and the lane after them. -/
def lowest (m : BitVec 17) (n : Nat) : LaneMap :=
  let l := (List.range 17).filter fun i => flag m i
  { active := (l.take n).foldl (fun a i => setBit a i) 0, spare := (l[n]?).map (Fin.ofNat 17), degraded := false }

/-- The first configuration that the trained lanes support, PORT_CTL permits and the partner reaches (R333). -/
def configure (ctl : W32) (r : TrainResult) : Option (Nat × Bool × LaneMap × LaneMap) :=
  let most := if field ctl 8 2 = 0 then 16 else if field ctl 8 2 = 1 then 8 else 4
  ((configurations.zipIdx.filter fun c => flag r.partner c.2).map Prod.fst |>.find? fun c =>
    decide (c.1 ≤ most) && (!c.2 || flag ctl 0) && decide (c.1 ≤ lanes (if c.2 then r.txSlow else r.txFast))
      && decide (c.1 ≤ lanes (if c.2 then r.rxSlow else r.rxFast))).map fun c =>
    (c.1, c.2, lowest (if c.2 then r.txSlow else r.txFast) c.1, lowest (if c.2 then r.rxSlow else r.rxFast) c.1)

/-- The HELLO of a port (R353, R532). -/
def ownHello (d : Device) (p : PortId) : Hello :=
  { verMax := 0x0201, verMin := 0x0100, features := 0x1F, deviceId := d.trust.deviceId, port := BitVec.ofNat 3 p
    ident := d.trust.identReq, credAdv := d.ports[p].own.toList, lanes := d.ports[p].width, slowRate := d.ports[p].rateFb }

/-- HELLO waits to be sent. -/
def sendHello (d : Device) (p : PortId) : Device :=
  (d.controlFlit p 0x01 (helloBytes (d.ownHello p))).modPort p fun q => { q with helloSent := true }

/-- The HELLO sent last has been acknowledged. -/
def helloAcked (q : Port) : Bool :=
  q.helloSent && !(q.unacked.any fun u => field u.flit.tag 12 8 = 1 && u.flit.ftype = 2)
    && !((vget q.queue 0 []).any fun w => field w.tag 12 8 = 1)

/-- The features that a version defines (R356). -/
def featureMask (version : BitVec 16) : W32 :=
  (if 0x0101 ≤ version.toNat then 0x03 else 0) ||| (if 0x0200 ≤ version.toNat then 0x0C else 0)
    ||| (if 0x0201 ≤ version.toNat then 0x10 else 0)

/-- An echo exchange starts. -/
def sendEcho (d : Device) (p : PortId) : Device :=
  (d.controlFlit p 0x02 (leBytes 4 (d.ports[p].echoId + 1).toNat)).modPort p fun q => { q with echoId := q.echoId + 1 }

/-- The partner's HELLO in phase 2: the configuration must agree, then the versions, then the cabling (R354 to
R357). A miscabled port is FAULTY from the next boundary on (R368). -/
def takeHello (d : Device) (p : PortId) (h : Hello) : Device :=
  let q := d.ports[p]
  if h.lanes ≠ q.width ∨ h.slowRate ≠ q.rateFb then
    if q.retrained then d.leavePort p .absent 0 Status.portAbsent
    else
      (d.startPhase1 p q.ctl q.nextOwn).modPort p fun q => { q with retrained := true }
  else
    let v := min h.verMax.toNat 0x0201
    if v < max h.verMin.toNat 0x0100 then d.failVersion p
    else if h.port.toNat / 2 ≠ p.val / 2 ∨ h.port.toNat = p.val then
      d.modPort p fun q => { q with faultDue := some 4 }
    else if q.partner.isSome then d
    else
      let version := BitVec.ofNat 16 v
      let d := d.modPort p fun q =>
        { q with partner := some h, version := version, features := h.features &&& 0x1F &&& featureMask version
                 adv := Vector.ofFn fun i : Fin 6 => if i = 0 then 64 else (h.credAdv[i.val]?).getD 0 }
      d.sendEcho p

/-- The median of sixteen round trips: the mean of the two in the middle. -/
def median (l : List Nat) : Nat :=
  let s := l.mergeSort (· ≤ ·)
  ((s[7]?).getD 0 + (s[8]?).getD 0) / 2

/-- Turnaround in ps: without FINE_ECHO it counts flit times of a lane (R352). -/
def turnPs (q : Port) (turn : W32) : Nat := if q.has 4 then turn.toNat else turn.toNat * (10240000 / q.laneSlots)

def takeEcho (d : Device) (p : PortId) (id turn : W32) (roundTrip : Nat) : Device :=
  let q := d.ports[p]
  if id ≠ q.echoId ∨ 16 ≤ q.echoes.length ∨ q.partner.isNone then d
  else
    let l := q.echoes ++ [roundTrip - turnPs q turn]
    let d := d.modPort p fun q => { q with echoes := l, rtt := if l.length = 16 then median l else q.rtt }
    if l.length = 16 then d else d.sendEcho p

/-- Phase 2 is complete: identity where either HELLO sets IDENT, which needs the feature (R353, R356). -/
def negotiated (d : Device) (p : PortId) (h : Hello) : Device :=
  let q := d.ports[p]
  let own := d.trust.identReq
  if !own && !h.ident then d.linkUp p
  else
    let (k, d) := d.drawFree
    let nonce := Config.freshNonce k
    let d := (d.modPort p fun q => { q with state := .identifying, identity := some ⟨own, nonce, [], false⟩ }).event (Page.port p) 1
    if q.has 3 then d.controlFlit p 0x04 (Trust.keyBytes nonce) else d.hostile p 1

/-- The message that a link signature covers: the challenger's nonce, both DEVICE_IDs and PORT indices, the
version and the features (R359); the signer's own come first. -/
def linkMessage (nonce : BitVec 256) (signer other : W64) (sp op : BitVec 3) (q : Port) : List Byte :=
  Trust.keyBytes nonce ++ leBytes 8 signer.toNat ++ leBytes 8 other.toNat ++ [sp.setWidth 8, op.setWidth 8]
    ++ leBytes 2 q.version.toNat ++ leBytes 4 q.features.toNat

/-- The context "ZLPID". -/
def linkContext : List Byte := [0x5A, 0x4C, 0x50, 0x49, 0x44]

/-- The partner's answer: parts 0 to 71 in order. -/
def answer (i : Identity) : List Byte := ((List.range 72).flatMap fun k => (mapGet i.parts k).getD []).take 17120

/-- One part of the partner's answer comes in; the last one meets the allow-list in force (R532, R537). -/
def takePart (d : Device) (i : Identity) (part : Nat) (data : List Byte) : Identity :=
  let j := { i with parts := mapInsert i.parts part data }
  if i.parts.length < 72 && j.parts.length = 72 then
    { j with listed := d.boot.allow.contains (Trust.digest ((answer j).take 32)) }
  else j

/-- The checks of R360. -/
def identityHolds (d : Device) (p : PortId) (i : Identity) (h : Hello) : Bool :=
  let a := answer i
  i.listed
    && Slh.verify Slh.fast (a.take 32) linkContext
        (linkMessage i.nonce h.deviceId d.trust.deviceId h.port (BitVec.ofNat 3 p) d.ports[p]) (a.drop 32)

/-- Phase 3 ends: the side that requires identity judges the complete answer (R359, R360). -/
def identified (d : Device) (p : PortId) (i : Identity) (h : Hello) : Device :=
  if !i.required then d.linkUp p
  else if i.parts.length < 72 then d
  else if d.identityHolds p i h then d.linkUp p
  else d.hostile p 1

/-! ### Lane sparing (R364 to R367) -/

/-- A lane moves out of a map and the spare in. -/
def swapLane (m : LaneMap) (w : Swap) : LaneMap :=
  { active := setBit (clearBit m.active w.lane) w.spare, spare := none, degraded := m.degraded && !w.lost }

/-- A direction stays on L − 1 lanes: it has lost a lane for which no spare comes in (R367). -/
def short (m : LaneMap) (w : Option Swap) : Bool := m.degraded && !(w.any fun w => w.lost)

/-- A lost lane leaves a direction; the port becomes FAULTY where that direction is DEGRADED already, or the other
one with no spare to come (R366, R367). -/
def loseLane (q : Port) (m : LaneMap) (lane : Fin 17) : LaneMap × Option (BitVec 8) :=
  ({ m with active := clearBit m.active lane, degraded := true },
    if m.degraded || short q.tx q.swapTx || short q.rx q.swapRx then some 1 else q.faultDue)

/-- Corrected symbols of a lane in the last 1,024 frames, and the frames of the last 16 in which it gave an uncorrectable
codeword (R364). -/
def corrected (d : Device) (q : Port) (lane : Fin 17) : Nat :=
  ((q.fec.filter fun x => x.2.1 = lane && decide (since d.now x.1 < 1024)).map fun x => x.2.2.1).sum
def codewordFrames (d : Device) (q : Port) (lane : Fin 17) : Nat :=
  ((q.fec.filter fun x => x.2.1 = lane && decide (since d.now x.1 < 16) && x.2.2.2 ≠ 0).map Prod.fst).eraseDups.length

/-- SWAP_REQ for a receive lane, for a reason. -/
def swapReq (d : Device) (p : PortId) (lane : Fin 17) (reason : Nat) : Device :=
  d.controlFlit p 0x30 [Config.swapCode 0 0, BitVec.ofNat 8 lane, Config.swapCode 1 reason]

/-- A receiver's planned swap whose check of the spare did not pass in its frame is cancelled, and the spare is retired (R365).
A swap whose lane has lost lock meanwhile completes (R373). -/
def cancelSwap (d : Device) (p : PortId) (w : Swap) : Device :=
  (d.modPort p fun q => { q with swapRx := none, rx := { q.rx with spare := none } }).swapReq p w.lane 2

/-- Swaps that take effect at the boundary that begins the present frame; checked says whether the receiver has seen the spare
carry the same flits as the old lane (R365). -/
def applySwaps (d : Device) (p : PortId) (checked : Bool) : Device :=
  let due (w : Swap) : Bool := w.frame ≠ 0 && decide (w.frame.toNat ≤ d.now.toNat)
  let d := match d.ports[p].swapRx with
    | some w => if due w && !checked && !w.lost then d.cancelSwap p w else d
    | none => d
  let q := d.ports[p]
  let tx := q.swapTx.filter due
  let rx := q.swapRx.filter due
  let d := d.modPort p fun q =>
    { q with tx := (tx.map (swapLane q.tx)).getD q.tx, swapTx := if tx.isSome then none else q.swapTx
             rx := (rx.map (swapLane q.rx)).getD q.rx, swapRx := if rx.isSome then none else q.swapRx }
  if tx.isSome || rx.isSome then d.event (Page.port p) 2 else d

/-- BRINGUP, which the host alone gives (R353, R368). -/
def bringupCmd (d : Device) (who : Requester) (p : PortId) : Device :=
  if !d.serving || who ≠ .host then d
  else
    let q := d.ports[p]
    if q.state = .down ∨ q.state = .absent ∨ q.state = .faulty then d.startBringup p
    else (d.modPort p fun q => { q with result := Status.stateInvalid }).record (Page.port p) Status.stateInvalid

/-- The DOWN command: a bring-up stops with ABORTED (R368, R373). -/
def downCmd (d : Device) (p : PortId) : Device :=
  if !d.serving || d.ports[p].state = .down then d
  else d.leave p .down 0 (if d.ports[p].rising then Status.aborted else Status.done)

end Device

/-! ### The commands -/

def execBringup (who : Requester) (p : PortId) (s : State) : Host.Outcome State Fault Refusal :=
  .next (s.onDev fun d => d.bringupCmd who p)

def execPortDown (_who : Requester) (p : PortId) (s : State) : Host.Outcome State Fault Refusal :=
  .next (s.onDev fun d => d.downCmd p)

/-- Lane training ends: the configuration is taken, or the port is ABSENT (R333, R353). It does not end before the credits of
the link that the port had are reclaimed, at most two frames after that link was lost (R372; DEDUCED, log 47). -/
def execTrainingDone (p : PortId) (r : TrainResult) (s : State) : Host.Outcome State Fault Refusal :=
  .next (s.onDev fun d =>
    if d.ports[p].state ≠ .training || d.ports[p].left.isSome then d
    else
      match Device.configure d.ports[p].ctl r with
      | none => d.leavePort p .absent 0 Status.portAbsent
      | some (n, slow, tx, rx) =>
        let d := d.modPort p fun q =>
          { q with state := .negotiating, width := BitVec.ofNat 5 n, rateFb := slow, tx := tx, rx := rx, own := q.nextOwn
                   room := (if slow then 500 else 1000) * lanes tx.active
                   held := vset q.held 0 64, adv := vset q.adv 0 64, granted := vset q.granted 0 64 }
        (d.event (Page.port p) 1).sendHello p)

/-- The bound of a bring-up phase passes (R353). -/
def execPhaseTimeout (p : PortId) (s : State) : Host.Outcome State Fault Refusal :=
  .next (s.onDev fun d =>
    match d.ports[p].state with
    | .training | .negotiating => d.leavePort p .absent 0 Status.portAbsent
    | .identifying => d.hostile p 1
    | _ => d)

/-- Phase 2 completes: both HELLOs seen and sixteen echo exchanges done. -/
def execNegotiationDone (p : PortId) (s : State) : Host.Outcome State Fault Refusal :=
  .next (s.onDev fun d =>
    let q := d.ports[p]
    match q.partner with
    | some h => if q.state = .negotiating && q.echoes.length = 16 && Device.helloAcked q then d.negotiated p h else d
    | none => d)

/-- Phase 3 completes. -/
def execIdentityDone (p : PortId) (s : State) : Host.Outcome State Fault Refusal :=
  .next (s.onDev fun d =>
    let q := d.ports[p]
    match q.identity, q.partner with
    | some i, some h => if q.state = .identifying then d.identified p i h else d
    | _, _ => d)

/-- HELLO: after phase 4 has begun it is HOSTILE (R370). -/
def execHello (p : PortId) (h : FlitHeader) (hello : Hello) (s : State) : Host.Outcome State Fault Refusal :=
  .next (s.onDev fun d =>
    d.receiveControl p h (fun d => if d.ports[p].linked then some 8 else none) fun d =>
      if d.ports[p].state = .negotiating then d.takeHello p hello else d)

/-- ECHO_REQ is answered with the time that the answer took (R352, R358). -/
def execEchoReq (p : PortId) (h : FlitHeader) (id : W32) (s : State) : Host.Outcome State Fault Refusal :=
  .next (s.onDev fun d =>
    d.receiveControl p h (fun _ => none) fun d =>
      let (k, d) := d.drawFree
      d.controlFlit p 0x03 (leBytes 4 id.toNat ++ leBytes 4 (Config.turnaround k).toNat))

def execEchoRsp (p : PortId) (h : FlitHeader) (id turn : W32) (roundTrip : Nat) (s : State) :
    Host.Outcome State Fault Refusal :=
  .next (s.onDev fun d => d.receiveControl p h (fun _ => none) fun d => d.takeEcho p id turn roundTrip)

/-- CHALLENGE: the root of trust queues its answer, where it has an identity key (R359, R527, R529). -/
def execChallenge (p : PortId) (h : FlitHeader) (nonce : BitVec 256) (s : State) : Host.Outcome State Fault Refusal :=
  .next (s.onDev fun d =>
    d.receiveControl p h (fun d => if d.ports[p].has 3 then none else some 9) fun d =>
      if d.trust.idkValid then { d with trust := { d.trust with jobs := d.trust.jobs ++ [.link p nonce] } } else d)

/-- One part of the partner's answer (R359). -/
def execSignature (p : PortId) (h : FlitHeader) (part : Nat) (data : List Byte) (s : State) :
    Host.Outcome State Fault Refusal :=
  .next (s.onDev fun d =>
    d.receiveControl p h (fun d => if d.ports[p].has 3 then none else some 9) fun d =>
      if part < 72 then
        d.modPort p fun q => { q with identity := q.identity.map fun i => d.takePart i part data }
      else d)

def execKeepalive (p : PortId) (h : FlitHeader) (s : State) : Host.Outcome State Fault Refusal :=
  .next (s.onDev fun d => d.receiveControl p h (fun _ => none) fun d => d)

/-- NAK: each flit named is replayed, unless it is not outstanding (R370) or was replayed already (R350). Its names
take effect before the ACK of its own header. -/
def execNak (p : PortId) (h : FlitHeader) (lost : List Seq) (s : State) : Host.Outcome State Fault Refusal :=
  .next (s.onDev fun d =>
    let names (d : Device) : Device :=
      let q := d.ports[p]
      if behind q.expect h.seq < 2048 || q.missing.contains h.seq then
        lost.foldl (fun d x =>
          match d.ports[p].unacked.find? fun u => u.flit.hdr.seq = x with
          | none => if d.ports[p].talking then d.hostile p 7 else d
          | some u =>
            if u.replayed then d.modPort p fun q => { q with faultDue := some 3 }
            else d.modPort p fun q => { q with unacked := modifyFirst (fun v => v.flit.hdr.seq = x) (fun v => { v with naked := true }) q.unacked }) d
      else d
    d.receiveFlit p h 0 none names fun d => d)

/-- CREDIT: returns for several VCs (R352). -/
def execCredit (p : PortId) (h : FlitHeader) (returns : List (BitVec 3 × Nat)) (s : State) :
    Host.Outcome State Fault Refusal :=
  .next (s.onDev fun d =>
    d.receiveControl p h (fun _ => none) fun d =>
      returns.foldl (fun d r =>
        if !d.ports[p].talking then d
        else
          match Device.takeCredit d.ports[p] r.1.toNat r.2 with
          | some q => d.modPort p fun _ => q
          | none => d.hostile p 2) d)

/-- SWAP_REQ: a planned swap two frames on, or its cancellation, which retires the spare (R365). -/
def execSwapReq (p : PortId) (h : FlitHeader) (lane : Fin 17) (cancel : Bool) (s : State) :
    Host.Outcome State Fault Refusal :=
  .next (s.onDev fun d =>
    d.receiveControl p h (fun d => if d.ports[p].has 1 then none else some 9) fun d =>
      let q := d.ports[p]
      if cancel then
        if q.swapTx.any fun w => w.lane = lane && !w.lost then
          d.modPort p fun q => { q with swapTx := none, tx := { q.tx with spare := none } }
        else d
      else
        match q.tx.spare with
        | some sp =>
          if q.swapTx.isSome || !flag q.tx.active lane then d
          else
            let f := d.now + 2
            (d.modPort p fun q => { q with swapTx := some ⟨lane, sp, f, false⟩ }).controlFlit p 0x31
              ([BitVec.ofNat 8 lane, BitVec.ofNat 8 sp] ++ leBytes 6 f.toNat)
        | none => d)

/-- SWAP_ACK names the swap frame; after a lost lane the spare's flits are accepted from now on (R365, R366). -/
def execSwapAck (p : PortId) (h : FlitHeader) (lane spare : Fin 17) (frame : Frame) (s : State) :
    Host.Outcome State Fault Refusal :=
  .next (s.onDev fun d =>
    d.receiveControl p h (fun d => if d.ports[p].has 1 then none else some 9) fun d =>
      match d.ports[p].swapRx with
      | some w =>
        if w.lane ≠ lane then d
        else
          let w : Swap := { w with spare := spare, frame := frame }
          if w.lost then (d.modPort p fun q => { q with rx := Device.swapLane q.rx w, swapRx := none }).event (Page.port p) 2
          else d.modPort p fun q => { q with swapRx := some w }
      | none => d)

/-- LANE_DOWN: the transmitter leaves the lane out at once, and offers its spare (R366, R373). What the lane had left of the
frame's slots goes (R332). -/
def execLaneDown (p : PortId) (h : FlitHeader) (lane : Fin 17) (s : State) : Host.Outcome State Fault Refusal :=
  .next (s.onDev fun d =>
    d.receiveControl p h (fun _ => none) fun d =>
      let q := d.ports[p]
      if !flag q.tx.active lane then d
      else
        let (m, fault) := Device.loseLane q q.tx lane
        let d := d.modPort p fun q =>
          { q with tx := m, faultDue := fault, room := q.room * lanes m.active / max 1 (lanes q.tx.active) }
        match q.swapTx, q.tx.spare with
        | some w, _ => if w.lane = lane then d.modPort p fun q => { q with swapTx := some { w with lost := true } } else d
        | none, some sp =>
          if q.has 1 then
            let f := d.now + 1
            (d.modPort p fun q => { q with swapTx := some ⟨lane, sp, f, true⟩ }).controlFlit p 0x31
              ([BitVec.ofNat 8 lane, BitVec.ofNat 8 sp] ++ leBytes 6 f.toNat)
          else d
        | none, none => d)

/-- DOWN: the port enters ABSENT (R369). -/
def execDown (p : PortId) (h : FlitHeader) (_cause : BitVec 8) (s : State) : Host.Outcome State Fault Refusal :=
  .next (s.onDev fun d =>
    d.receiveControl p h (fun _ => none) fun d => d.leave p .absent 0 Status.portAbsent)

/-- A DATA flit of payload, handed to the drover at once but for one that waits for an earlier flit of its leg (R351, R382).
A flit of an illegal TYPE or control type, a CONTROL flit outside VC0, or any flit on VC6, VC7, or VC5 without PADDOCK_VC,
makes the partner HOSTILE (R337, R352, R370). An IDLE flit on another VC is read as one on VC0; IDLE on VC0 and the control
types of R352 have commands of their own. -/
def execDataFlit (p : PortId) (h : FlitHeader) (kind : FlitKind) (tag : BitVec 20) (payload : List Byte) (s : State)
    : Host.Outcome State Fault Refusal :=
  .next (s.onDev fun d =>
    if !d.ports[p].talking then d
    else if kind.ftype = 0 then
      if 5 < kind.vc.toNat || (kind.vc = 5 && !d.ports[p].has 0) then d.hostile p 4 else d.receiveIdle p h
    else if kind.ftype = 1 then
      d.receiveData p h kind.vc.toNat (Device.dataRule d.ports[p] kind.vc.toNat) id fun d =>
        let d := d.modPort p fun q => { q with rxHeld := q.rxHeld ++ [⟨h.seq, kind.gaps, kind.vc, tag, payload⟩] }
        d.drainHeld p d.ports[p].rxHeld.length
    else if kind.ftype = 2 && kind.vc = 0 && controlTypes.contains (field tag 12 8) then d
    else d.hostile p 4)

def execIdleFlit (p : PortId) (h : FlitHeader) (s : State) : Host.Outcome State Fault Refusal :=
  .next (s.onDev fun d => d.receiveIdle p h)

/-- 256 bytes whose CRC fails are discarded whole and counted (R336); bytes whose CRC holds are no damaged flit. -/
def execDamagedFlit (f : RawFlit) (s : State) : Host.Outcome State Fault Refusal :=
  .next (s.onDev fun d => if d.ports[f.port].talking && !crcHolds f.bytes then d.bump (Page.port f.port) 0x160 1 else d)

/-- A flit first sent in frame f has not been replayed in the slot of frame f + 1 (R350). -/
def execReplayDeadline (p : PortId) (s : State) : Host.Outcome State Fault Refusal :=
  .next (s.onDev fun d =>
    let q := d.ports[p]
    let missed (u : Unacked) : Bool := u.naked && !u.replayed &&
      (decide (2 ≤ Device.since d.now u.first) || (Device.since d.now u.first = 1 && decide (q.room = 0)))
    if q.unacked.any missed then d.faultCondition p 3 else d)

/-- The replays of the last 1,024 frames exceed REPLAY_LIMIT (R368). -/
def execReplayLimitExceeded (p : PortId) (s : State) : Host.Outcome State Fault Refusal :=
  .next (s.onDev fun d =>
    let q := d.ports[p]
    let n := ((q.replayLog.filter fun r => decide (Device.since d.now r.1 ≤ 1024)).map Prod.snd).sum + q.replaysSent
    if decide ((d.preg (Page.port p) 0x128).toNat < n) then d.faultCondition p 2 else d)

/-- The receiver counts corrected symbols and uncorrectable codewords of a lane: an active lane's symbols of the last 1,024
frames beyond SWAP_THR, or uncorrectable codewords in 2 of the last 16 frames, ask for a swap (R364). -/
def execSwapThreshold (p : PortId) (lane : Fin 17) (corrected uncorrectable : Nat) (s : State) :
    Host.Outcome State Fault Refusal :=
  .next (s.onDev fun d =>
    let page := Page.port p
    let d := (d.bump page (0x180 + 4 * lane.val) corrected).bump page 0x168 uncorrectable
    let d := d.modPort p fun q => { q with fec := q.fec ++ [(d.now, lane, corrected, uncorrectable)] }
    let q := d.ports[p]
    let twice := decide (2 ≤ d.codewordFrames q lane)
    let asks := decide ((d.preg page 0x124).toNat < d.corrected q lane) || twice
    match q.rx.spare with
    | some sp =>
      if q.talking && asks && flag q.rx.active lane && q.swapRx.isNone && q.has 1 then
        (d.modPort p fun q => { q with swapRx := some ⟨lane, sp, 0, false⟩ }).swapReq p lane (b2n twice)
      else d
    | none => d)

/-- The boundary that begins a swap's frame (R365, R366). -/
def execSwapFrame (c : SwapCheck) (s : State) : Host.Outcome State Fault Refusal :=
  .next (s.onDev fun d => if d.ports[c.port].talking && !d.inBoundary then d.applySwaps c.port c.checked else d)

/-- The receiver loses lock on an active lane (R366, R367, R373). -/
def execLockLoss (p : PortId) (lane : Fin 17) (s : State) : Host.Outcome State Fault Refusal :=
  .next (s.onDev fun d =>
    let q := d.ports[p]
    if !q.talking then
      if flag q.rx.active lane && q.rx.degraded then d.faultCondition p 1 else d
    else if !flag q.rx.active lane then d
    else
      let (m, fault) := Device.loseLane q q.rx lane
      let d := (d.modPort p fun q => { q with rx := m, faultDue := fault }).controlFlit p 0x32 [BitVec.ofNat 8 lane]
      match q.swapRx, q.rx.spare with
      | some w, _ => if w.lane = lane then d.modPort p fun q => { q with swapRx := some { w with lost := true } } else d
      | none, some sp => if q.has 1 then d.modPort p fun q => { q with swapRx := some ⟨lane, sp, 0, true⟩ } else d
      | none, none => d)

/-- The partner is lost: a frame without a valid VC0 flit has ended, or 1 µs has passed with lock gone on every active
lane (R371). -/
def execPartnerLost (p : PortId) (allLanes : Bool) (s : State) : Host.Outcome State Fault Refusal :=
  .next (s.onDev fun d =>
    let q := d.ports[p]
    if q.linked && ((allLanes && lanes q.rx.active = 0) || q.quiet) then d.leave p .absent 0 Status.portAbsent else d)

/-- The second boundary after a port left UP or SLOW (R372). -/
def execCreditReclaim (p : PortId) (s : State) : Host.Outcome State Fault Refusal :=
  .next (s.onDev fun d => if d.ports[p].left.any (2 ≤ ·) then d.reclaimPort p else d)

end Sys2Proof.Machine
end

