-- ==== Sys2Proof/Machine/Tick.lean ====
section
/-! DEFINITION. The tick unit: roles, markers, acquisition, steps, LOAD and HOLDOVER, the counters' reads, and the
watchdogs of frames (R43 to R71, R83, R84, R361 to R363). -/

namespace Sys2Proof.Machine

/-- HOLDOVER_FRAMES counts: in HOLDOVER, and in an acquisition that started from it (R87). -/
def TickUnit.inHoldover (t : TickUnit) : Bool :=
  t.state = .holdover || (t.state = .acquiring && t.origin = .holdover)

namespace Device

/-- Fields of TICK_CTL (R87). -/
def tickRole (d : Device) : Nat := d.pfield Page.frame 0x100 0 2
def upstream (d : Device) : PortId := Fin.ofNat 8 (d.pfield Page.frame 0x100 4 3)
def downstream (d : Device) (p : PortId) : Bool := flag (d.preg Page.frame 0x100) (8 + p.val)

def modTick (d : Device) (f : TickUnit → TickUnit) : Device := { d with tick := f d.tick }

/-- TICK_RESULT reports a code. -/
def tickResult (d : Device) (c : Code) : Device := (d.modTick fun t => { t with result := c }).record Page.frame c

/-- FRAME_HOLDOVER becomes set (R69). -/
def setHoldoverFlag (d : Device) : Device :=
  if d.tick.flag then d else (d.modTick fun t => { t with flag := true }).eventCode Page.frame 2 Status.frameHoldover

/-! ### Markers (R55, R361) -/

/-- The payload of a marker. -/
def markerBytes (m : TickMarker) : List Byte :=
  leBytes 6 m.frame.toNat ++ [m.hopDepth, BitVec.ofNat 8 (b2n m.holdover + bitAt m.step 1)] ++ leBytes 4 m.txWait.toNat

/-- The marker of the frame that begins. -/
def marker (d : Device) : TickMarker :=
  { frame := d.now
    hopDepth := if d.tickRole = 1 then 0 else d.tick.hopDepth
    holdover := d.tick.flag || d.tick.state = .holdover || d.tick.state = .acquiring
    step := d.tick.stepSent
    txWait := 0 }

/-- TX_WAIT of a marker that leaves in the first flit slot at or after the boundary: less than a slot (R332, R361). -/
def waited (q : Port) (k : Nat) : W32 := BitVec.ofNat 32 (Config.txWait k % (10240000 / q.laneSlots))

/-- Markers leave on the DOWNSTREAM ports, ahead of what waits on VC0; a FREE device sends none. A link without TICK_FLAGS
carries a marker without flags (R356). -/
def sendMarkers (d : Device) : Device :=
  let m := d.marker
  let d := d.modTick fun t => { t with markersHeld := false }
  if d.tick.state = .free then { d with out := { d.out with markers := [] } }
  else
    let ps := (finList 8).filter fun (p : PortId) => d.downstream p && d.ports[p].linked
    let d := { d with out := { d.out with markers := [] } }
    ps.foldl (fun d (p : PortId) =>
      let (k, d) := d.drawFree
      let has := d.ports[p].has 2
      let m := { m with txWait := waited d.ports[p] k, holdover := m.holdover && has, step := m.step && has }
      let w : Waiting := { ftype := 2, tag := 0x10000, payload := padTo 240 (markerBytes m), booked := false }
      let d := d.modPort p fun q => { q with queue := vset q.queue 0 (w :: vget q.queue 0 []) }
      { d with out := { d.out with markers := d.out.markers ++ [(p, m)] } }) d

/-- Markers held for what a boundary brings go out. -/
def releaseMarkers (d : Device) : Device := if d.tick.markersHeld then d.sendMarkers else d

/-! ### Idle enough to step (R63) -/

def idleToStep (d : Device) : Bool :=
  ((finList 384).all fun (st : StallId) => !(d.stall st).primary.running && !(d.stall st).paddock.running)
    && ((finList 8).all fun (p : PortId) => ([1, 2, 3, 4, 5] : List Nat).all fun v => d.book p v = 0)
    && ((finList 384).all fun (st : StallId) => d.preg (Page.shedOf st) (shedOff st 0x100) = 0)
    && ((finList 2).all fun (y : Yard) =>
      d.preg (Page.forge y) 0x100 = 0 && d.preg (Page.forge y) 0x104 = 0
        && d.drovers[y].teams.toList.all (fun m => m.state = .free)
        && d.forges[y].reqs.isEmpty && d.forges[y].ret.toList.all fun r => !r.used)
    && ((finList 2).all fun (w : Fin 2) => d.banks[w].state != .pending)

/-! ### HOLDOVER (R59, R64, R67 to R70) -/

def enterHoldover (d : Device) : Device :=
  let d := d.modTick fun t =>
    { t with
      state := .holdover, holdoverFrames := 0, errRun := 0, correction := 0, stepReq := false, stepDue := false
      inStep := false }
  ((d.eventCode Page.frame 1 Status.tickLost).setHoldoverFlag).releaseMarkers

/-! ### Receipt of a marker (R57, R61, R64, R69, R70, R362) -/

/-- A correction within ±2.0 ns, in units of 0.4 ns to the nearest (R57). The rule names no direction for a correction
half-way between two steps; the model takes the upper one (DESIGN CHOICE, log 92). -/
def correctionOf (e : Int) : Int := (2 * max (-2000) (min 2000 e) + 400) / 800

/-- The tracking error of R57 in ps: marker_arrival less the cable delay of R56 and the pair's marker latency, against the
boundary that the marker matches. The arrival counts from that boundary; TX_WAIT comes off it (R361). -/
def trackingError (d : Device) (p : PortId) (m : TickMarker) (arrival : Int) : Int :=
  arrival - m.txWait.toNat - d.ports[p].rtt / 2 - Config.markerLatency p

/-- A valid marker of UPSTREAM with its tracking error in ps. -/
def takeMarker (d : Device) (m : TickMarker) (e : Int) : Device :=
  let t := d.tick
  let seen (t : TickUnit) : TickUnit := { t with last := some (m, e), lastAge := 0, hopDepth := m.hopDepth + 1 }
  match t.state with
  | .free | .holdover => d.modTick fun t => { t with ignored := t.ignored + 1 }
  | .acquiring =>
    let follows := match t.last with
      | some (l, _) => t.validRun ≠ 0 && m.frame = l.frame + 1
      | none => false
    let run := if follows then t.validRun + 1 else 1
    d.modTick fun t => { seen t with validRun := run, stepReq := t.stepReq || (decide (2 ≤ run) && !t.inStep) }
  | .aligned =>
    if m.step then
      let d := d.modTick seen
      if d.idleToStep then (d.modTick fun t => { t with stepReq := true }).releaseMarkers else d.enterHoldover
    else if t.inStep then d.modTick seen
    else
      let far := decide (40000 < e.natAbs)
      (d.modTick fun t =>
        { seen t with phaseErr := e, correction := correctionOf e, errRun := if far then t.errRun + 1 else 0 }).releaseMarkers

/-- What R362 and R370 make of a marker at a port. -/
def markerRule (d : Device) (p : PortId) (m : TickMarker) : Option Nat :=
  if d.tickRole ≠ 0 && !(d.tickRole = 2 && p = d.upstream) then some 6
  else if (m.holdover || m.step) && !d.ports[p].has 2 then some 9
  else none

/-! ### Steps (R61, R64) -/

/-- The whole frames of the upstream from its last marker to the aligned instant, for its boundary x ps after the
step boundary: the first that lies 800 reference cycles or more after it. -/
def stepFrames (x : Int) : Int := -((x - 5120000) / 10240000)

/-- The step boundary: the counter takes F − 1, and the step frame begins; it ends at the aligned instant. The last marker
came in the frame that has just ended, against whose first boundary its error counts. -/
def beginStep (d : Device) : Device :=
  match d.tick.last with
  | none => d.modTick fun t => { t with stepDue := false }
  | some (m, e) =>
    let x := e - d.tick.lastLen
    let k := stepFrames x
    let f : Frame := m.frame + BitVec.ofInt 48 k - 1
    let d := { d with ctr := { d.ctr with frame := f } }
    (d.modTick fun t =>
      { t with stepDue := false, inStep := true, stepLen := (x + 10240000 * k).toNat, correction := 0 }).releaseMarkers

/-- At a boundary of an ALIGNED follower, FRAME_HOLDOVER follows the last valid marker (R69). -/
def followFlag (d : Device) : Device :=
  if d.tick.last.any fun l => l.1.holdover then d.setHoldoverFlag else d.modTick fun t => { t with flag := false }

/-- The boundary that ends a step frame: the device is ALIGNED, and its markers carry the STEP flag. An acquisition
clears FRAME_HOLDOVER (R70); after a step of R64 the flag follows the upstream as at every boundary. -/
def endStep (d : Device) : Device :=
  let was := d.tick.state
  let d := d.modTick fun t =>
    { t with state := .aligned, inStep := false, stepSent := true, lastAge := t.lastAge + 1, errRun := 0 }
  if was = .aligned then d.followFlag else (d.modTick fun t => { t with flag := false }).tickResult Status.done

/-! ### The boundary (step 2 of R85) -/

/-- The tick unit's part of step 2, after the counter has moved on. -/
def tickBoundary (d : Device) : Device :=
  let t := d.tick
  let follower := d.tickRole = 2
  let d :=
    if t.inStep then d.endStep
    else
      let d := d.modTick fun t =>
        { t with stepSent := false, lastAge := t.lastAge + 1
                 acquireAge := if t.state = .acquiring then t.acquireAge + 1 else t.acquireAge
                 holdoverFrames := if t.inHoldover then min (t.holdoverFrames + 1) 0xFFFF_FFFF else t.holdoverFrames }
      if follower && d.tick.state = .aligned then d.followFlag else d
  let d := d.modTick fun t =>
    { t with correction := 0, loadDue := t.loadDue || t.loadReq, loadReq := false, stepDue := t.stepDue || t.stepReq, stepReq := false }
  let t := d.tick
  let wait := t.loadDue || t.stepDue || (follower && t.state = .aligned && decide (2 ≤ t.lastAge))
    || (t.state = .acquiring && !t.inStep && decide (8 ≤ t.acquireAge))
  if wait then d.modTick fun t => { t with markersHeld := true } else d.sendMarkers

/-! ### TICK_CMD (R61, R63, R65) -/

def acquire (d : Device) : Device :=
  if d.tickRole ≠ 2 then d.tickResult Status.stateInvalid
  else if !d.idleToStep then d.tickResult Status.tickAcquireBusy
  else
    d.modTick fun t =>
      { t with origin := if t.state = .acquiring then t.origin else t.state
               state := .acquiring, validRun := 0, acquireAge := 0, stepReq := false, stepDue := false, inStep := false
               correction := 0 }

def load (d : Device) : Device :=
  if d.tickRole = 2 then d.tickResult Status.stateInvalid
  else if !d.idleToStep then d.tickResult Status.tickAcquireBusy
  else (d.modTick fun t => { t with loadReq := true }).tickResult Status.done

/-- A write of TICK_CMD; CMD 0 and 3 change nothing. -/
def tickCmd (d : Device) (v : W32) : Device :=
  match field v 0 2 with
  | 1 => d.acquire
  | 2 => d.load
  | _ => d

/-- The frame counter takes FRAME_LOAD; the step goes down the tree (R64, R65). -/
def applyLoad (d : Device) : Device :=
  let f : Frame := BitVec.ofNat 48 ((d.preg Page.frame 0x118).toNat + d.pfield Page.frame 0x11C 0 16 * 2 ^ 32)
  let d := { d with ctr := { d.ctr with frame := f } }
  (d.modTick fun t => { t with loadDue := false, stepSent := true }).releaseMarkers

/-! ### Commits of TICK_CTL (R60, R66, R363) -/

/-- A commit of v to TICK_CTL breaks R66, R87 or R363. -/
def tickCommitBad (d : Device) (v : W32) : Bool :=
  let role := field v 0 2
  let moves := role ≠ d.tickRole || field v 4 3 ≠ d.upstream.val
  let ready (p : PortId) : Bool := d.ports[p].linked && d.ports[p].has 2 && d.ports[p].has 4
  role = 3 || (moves && d.tick.state ≠ .free && d.tick.state ≠ .holdover)
    || ((finList 8).any fun (p : PortId) =>
      (flag v (8 + p.val) || (role = 2 && field v 4 3 = p.val)) && !ready p)

/-- The state at the commit boundary; v has been committed over TICK_CTL's old value. -/
def tickCommitted (d : Device) (old v : W32) : Device :=
  let role := field v 0 2
  let d := if field old 0 2 = role then d
    else
      d.modTick fun t =>
        match role with
        | 1 => { t with state := .aligned, flag := false, hopDepth := 0, phaseErr := 0 }
        | 0 => { t with state := .free, flag := false, hopDepth := 0, phaseErr := 0 }
        | _ => { t with hopDepth := 0 }
  if field old 0 2 = role ∧ field old 4 3 = field v 4 3 then d
  else d.modTick fun t => { t with last := none, lastAge := 0, errRun := 0, validRun := 0, correction := 0, stepReq := false }

/-! ### Counters and watchdogs -/

/-- A read of a low counter register, which latches the high half for the requester (R50). -/
def readCounter (d : Device) (who : Requester) (r : CounterReg) : Device :=
  let w := who.idx
  match r with
  | .frameNow =>
    { d with
      ctr := { d.ctr with frameLatch := d.ctr.frameLatch.set w (BitVec.ofNat 16 (field d.now 32 16)) }
      out := { d.out with read := d.now.setWidth 32 } }
  | .uptime =>
    { d with
      ctr := { d.ctr with uptimeLatch := d.ctr.uptimeLatch.set w (BitVec.ofNat 32 (field d.ctr.uptime 32 32)) }
      out := { d.out with read := d.ctr.uptime.setWidth 32 } }

/-- FW_LIMIT, at least 16 (R84). -/
def fwLimit (d : Device) : Nat := max 16 (d.pfield Page.frame 0x134 16 16)

def kick (d : Device) : Device := { d with ctr := { d.ctr with kickAge := 0 } }

end Device

/-! ### The commands -/

/-- The reference clock has stopped or left its range (R53). -/
def execRefClockLost (s : State) : Host.Outcome State Fault Refusal :=
  .next (s.onDev fun d =>
    if d.powered then
      ((d.modTick fun t => { t with refLost := true }).eventCode Page.frame 1 Status.tickLost).enterSafe 2 Status.tickLost Page.frame
    else d)

/-- A tick marker arrives: a CONTROL flit, with the deskewed arrival of its first bit in ps after the boundary here (R57,
R361). -/
def execTick (p : PortId) (h : FlitHeader) (m : TickMarker) (arrival : Int) (s : State) : Host.Outcome State Fault Refusal :=
  .next (s.onDev fun d =>
    d.receiveControl p h (fun d => d.markerRule p m) fun d =>
      if d.tickRole = 2 then d.takeMarker m (d.trackingError p m arrival) else d.modTick fun t => { t with ignored := t.ignored + 1 })

/-- No valid marker has come at two consecutive boundaries (R67). -/
def execUpstreamLossHoldover (s : State) : Host.Outcome State Fault Refusal :=
  .next (s.onDev fun d =>
    if d.tickRole = 2 && d.tick.state = .aligned && !d.tick.inStep && decide (2 ≤ d.tick.lastAge) then d.enterHoldover else d)

/-- The tracking error was beyond ±40 ns at four consecutive boundaries (R59). -/
def execTrackingErrorHoldover (s : State) : Host.Outcome State Fault Refusal :=
  .next (s.onDev fun d =>
    if d.tickRole = 2 && d.tick.state = .aligned && decide (4 ≤ d.tick.errRun) then d.enterHoldover else d)

def execAcquire (_who : Requester) (s : State) : Host.Outcome State Fault Refusal :=
  .next (s.onDev fun d => if d.served then d.acquire else d)

/-- The boundary that begins the step frame has come (R61, R64). -/
def execTickStep (s : State) : Host.Outcome State Fault Refusal :=
  .next (s.onDev fun d => if d.tick.stepDue then d.beginStep else d)

/-- Eight frames have passed without two consecutive valid markers (R62). -/
def execAcquireTimeout (s : State) : Host.Outcome State Fault Refusal :=
  .next (s.onDev fun d =>
    if d.tick.state = .acquiring && !d.tick.inStep && !d.tick.stepDue && decide (8 ≤ d.tick.acquireAge) then
      (((d.modTick fun t => { t with state := t.origin, stepReq := false }).tickResult Status.tickLost).event Page.frame 1).releaseMarkers
    else d)

def execTickLoad (_who : Requester) (s : State) : Host.Outcome State Fault Refusal :=
  .next (s.onDev fun d => if d.served then d.load else d)

/-- The boundary after an accepted LOAD has come (R65). -/
def execTickLoadApply (s : State) : Host.Outcome State Fault Refusal :=
  .next (s.onDev fun d => if d.tick.loadDue then d.applyLoad else d)

/-- A read of a low counter register; while the FRAME page does not answer it returns 0 (R50, R460). -/
def execFrameNowLoRead (who : Requester) (r : CounterReg) (s : State) : Host.Outcome State Fault Refusal :=
  .next (s.onDev fun d => if d.served then d.readCounter who r else { d with out := { d.out with read := 0 } })

/-- FW_KICK: any value restarts the firmware watchdog (R84). -/
def execFwKick (_who : Requester) (_v : W32) (s : State) : Host.Outcome State Fault Refusal :=
  .next (s.onDev fun d => if d.served then d.kick else d)

/-- FW_LIMIT whole frames have passed without a write of FW_KICK while gate firmware runs (R84). -/
def execFwWatchdogExpiry (s : State) : Host.Outcome State Fault Refusal :=
  .next (s.onDev fun d =>
    if d.powered && d.boot.fwRunning && decide (d.fwLimit < d.ctr.kickAge) then
      (d.eventCode Page.frame 4 Status.frameWatchdog).enterSafe 2 Status.frameWatchdog Page.frame
    else d)

/-- A slotted stall has overrun in STALL_LIMIT consecutive frames (R83): the slot that ran halts. A watchdog that has come
due stays due over a halt, a STALL_START and a switch until this command, and then halts the slot that is resident: the
manual ends the last overrun's frame and the halt in one step and says nothing of what lies between (DEDUCED, log 72). -/
def execStallWatchdog (st : StallId) (s : State) : Host.Outcome State Fault Refusal :=
  .next (s.onDev fun d =>
    if (d.stall st).watchdogDue then
      let d := d.modStall st fun x => { x with watchdogDue := false }
      (d.haltSlot st (d.slotOf st) 3 0).eventCode Page.frame 4 Status.frameWatchdog
    else d)

end Sys2Proof.Machine
end

