-- ==== Sys2Proof/Machine/Apply.lean ====
section
/-! DEFINITION. Validation and application of a transaction at its target boundary, the transactions of gate firmware
for TEAM_CREATE, and the transaction commands (R39, R66, R121, R321, R326, R342 to R344, R363, R441, R502 to R514,
R581). -/

namespace Sys2Proof.Machine

namespace Device

/-! ### The rules of the chapters

Each answers the DETAIL of TXN_FAIL_OFF for a commit of v over old at a page of the state d, where n is d with
every marked register at its new value; 0 is a pass. -/

/-- The shadow values in force, to validate with. -/
def withShadows (d : Device) (w : Fin 2) : Device := d.banks[w].shadow.foldl (fun d x => d.setReg x.1 x.2) d

/-- BARROW_SHARE of a stall (R321), and the bridge reserve that crossing shares draw on (R25; the DETAIL is the model's,
log 75). -/
def shareRule (d n : Device) (st : StallId) (old v : W32) : Nat :=
  let lowered (y : Yard) : Bool := decide (field v (16 * y.val) 16 < field old (16 * y.val) 16) && d.backlog st y ≠ 0
  if 14336 < field v 0 16 + field v 16 16 then 3
  else if lowered 0 || lowered 1 then 2
  else if n.lp6Fits 0 && n.lp6Fits 1 && n.bridgeFits then 0
  else 3

/-- CTX_CTL (R121). -/
def ctxRule (d : Device) (st : StallId) (old v : W32) : Nat :=
  if old ≠ v ∧ ((d.ctx st .primary).running ∨ (d.ctx st .paddock).running) then 2
  else if flag v 31 && (field v 0 6 = 0 || decide (47 < field v 0 6)) then 1
  else 0

/-- A commit to VC_BOOK of a port (R342): every VC_BOOK of the port is tested, as it will be. -/
def bookRule (n : Device) (p : PortId) : Nat :=
  let q := n.ports[p]
  let vcs : List Nat := [1, 2, 3, 4, 5]
  if (vcs.any fun i => n.book p i ≠ 0) && !q.linked then 2
  else if n.book p 5 ≠ 0 && !q.has 0 then 2
  else if decide (q.bookable < (vcs.map fun i => n.book p i).sum) || vcs.any fun i => decide (q.creditLimit i < n.book p i) then 3
  else 0

/-- The other RWT registers of a port (R343, R344, R374). -/
def portRule (n : Device) (p : PortId) (o : Nat) (v : W32) : Nat :=
  if o = 0x100 then b2n (decide (2 ≤ field v 10 2) || field v 8 2 = 3)
  else if o = 0x110 then b2n (([0, 8, 16, 24] : List Nat).any fun i => field v i 8 = 0)
  else if o = 0x114 then b2n (field v 0 8 = 0)
  else if 0x118 ≤ o ∧ o ≤ 0x120 then b2n (decide (4032 < (([1, 2, 3, 4, 5] : List Nat).map fun i => n.credAdv p i).sum))
  else if 0x140 ≤ o then n.bookRule p
  else 0

/-- FORGE_BOOK and FORGE_LP6 against what the admitted requests need from the frame that begins on (R441). -/
def forgeRule (n : Device) (y : Yard) (o : Nat) : Nat :=
  let set := n.forgeSet y fun _ => 0
  let last := n.now - 1
  if o = 0x100 then
    (if 12288 < n.forgeBook y then 1
     else if ratesFit last (n.forgeBook y) (set.map fun j => (j.1, j.2.1, j.2.2.1)) then 0
     else 2)
  else if !n.lp6Fits y then 3
  else if ratesFit last (n.forgeLp6 y) (set.map fun j => (j.1, j.2.1, j.2.2.2)) then 0
  else 2

/-- The rule of the register at offset o of a page. -/
def commitRule (d n : Device) (p : Page) (o : Nat) (v : W32) : Nat :=
  let old := d.preg p o
  match p.kind with
  | .device => if o = 0x120 ∧ field v 0 30 ≠ 0 then 1 else 0
  | .frame => if field v 0 2 = 3 then 1 else if d.tickCommitBad v then 2 else 0
  | .power =>
    let bad (w : Nat) : Bool := decide (w < 300) || decide (900 < w)
    if o = 0x100 && (bad (field v 0 16) || bad (field v 16 16)) then 1 else 0
  | .forge => n.forgeRule (Fin.ofNat 2 p.num) o
  | .port => n.portRule (Fin.ofNat 8 p.num) o v
  | .shed => d.shareRule n (Fin.ofNat 384 (16 * p.num + (o - 0x100) / 16)) old v
  | .stall => d.ctxRule (Fin.ofNat 384 p.num) old v
  | _ => 0

/-- The first marked register that fails, with its DETAIL (R506). -/
def commitFailure (d : Device) (w : Fin 2) : Option (Nat × Nat) :=
  let n := d.withShadows w
  d.banks[w].shadow.findSome? fun x =>
    match pageAt x.1 with
    | some p =>
      let r := d.commitRule n p (x.1 % 4096) x.2
      if r = 0 then none else some (x.1, r)
    | none => none

/-! ### What an applied register brings with it -/

/-- PADDOCK_EN is clear: no switch takes place and the primary slot is the groom's (R122). -/
def closePaddock (d : Device) (st : StallId) : Device :=
  d.modStall st fun s => { s with slot := .primary, switchTo := none, switching := none, fillAge := 0 }

/-- Consequences of register o of page p going from old to v. -/
def applied (d : Device) (p : Page) (o : Nat) (old v : W32) : Device :=
  match p.kind with
  | .frame => d.tickCommitted old v
  | .memctl => if o = 0x100 && flag v 0 then d.setMapout (Fin.ofNat 64 p.num) else d
  | .stall => if flag v 31 then d else d.closePaddock (Fin.ofNat 384 p.num)
  | _ => d

/-- Every marked register takes its shadow value. -/
def applyShadows (d : Device) (w : Fin 2) : Device :=
  d.banks[w].shadow.foldl (fun n x =>
    match pageAt x.1 with
    | some p => (n.setReg x.1 x.2).applied p (x.1 % 4096) (d.reg x.1) x.2
    | none => n) d

/-- Step 6 for a due transaction. -/
def settleTxn (d : Device) (w : Fin 2) : Device :=
  if d.boot.state = .safe ∧ d.banks[w].pages ≠ [] then d.failSafe w
  else
    match d.commitFailure w with
    | some (off, r) => d.endTxn w .failed Status.txnInvalid (failWords off r).1 (failWords off r).2
    | none => (d.applyShadows w).endTxn w .applied Status.done 0 0

/-- The PENDING transaction of bank w is due, and no other due one was committed before it (R506, R507). -/
def txnDue (d : Device) (w : Fin 2) : Bool :=
  let due (w : Fin 2) : Bool := d.banks[w].state = .pending && d.banks[w].target = d.now
  d.atStep6 && due w && !(due (1 - w) && decide (d.banks[1 - w].order < d.banks[w].order))

/-! ### Gate firmware's transaction for TEAM_CREATE (R378, R512) -/

/-- The team record at a DPA and the pages and registers that its bookings raise on a drover's ports: none where the
record does not read, or names another drover's axis or no VC. -/
def teamBookings (d : Device) (y : Yard) (dpa : Nat) : Device × List (Page × Nat × W32) :=
  if dpa % 8 ≠ 0 ∨ !d.inLp6 dpa 64 then (d, [])
  else
    let (d, bs, bad) := d.readRange dpa 64 false
    let m : Team := { Reset.team with record := Vector.ofFn fun i : Fin 8 => BitVec.ofNat 64 (leNat ((bs.drop (8 * i)).take 8)) }
    if !bad.isEmpty || m.axis / 2 ≠ y.val || m.vc = 0 || decide (5 < m.vc) then (d, [])
    else
      let raise (neg : Bool) : Option (Page × Nat × W32) :=
        let p : PortId := Fin.ofNat 8 (2 * m.axis + b2n neg)
        let n := m.flits neg
        if n = 0 then none
        else some (Page.port p, 0x140 + 4 * (m.vc - 1), BitVec.ofNat 32 (min 0xFFFF (d.book p m.vc + n)))
      (d, [raise false, raise true].filterMap id)

/-- A TEAM_CREATE with its operands: slot, drover, record and ACT. -/
def createArgs (words : List W64) : Fin 64 × Yard × Nat × Frame :=
  let w (i : Nat) : W64 := (words[i]?).getD 0
  (Fin.ofNat 64 (field (w 2) 0 6), Fin.ofNat 2 (field (w 2) 6 2), field (w 1) 0 48, BitVec.ofNat 48 (field (w 3) 0 48))

/-- Gate firmware carries out a TEAM_CREATE while it holds no transaction: it raises VC_BOOK by a transaction targeted
at ACT and then writes TEAM_CMD. -/
def serveCreate (d : Device) (q : QueueId) (c : HostCmd) : Device :=
  let (t, y, dpa, act) := createArgs c.words
  let self (h : HostCmd) : Bool := h == c
  let wait (d : Device) : Device := d.modQueue q fun h =>
    { h with started := modifyFirst self (fun x => { x with wait := .teamAt y t }) h.started }
  let fail (d : Device) (r : Code) : Device := d.finishCmd q self r (r.setWidth 64)
  let (d, sets) := d.teamBookings y dpa
  if act ≤ d.now ∨ sets = [] then (wait d).createTeam y t dpa act (some (q, c.cid))
  else
    let d := (d.lapse 0).openTxn 1
    let id := d.banks[1].id
    let d := sets.foldl (fun d x => d.enrol 1 x.1 id) d
    if sets.any fun x => !d.banks[1].pages.contains x.1.base then fail (d.rollbackTxn 1 id) Status.txnBusy
    else
      let d := sets.foldl (fun d x => d.shadowWrite 1 x.1 x.2.1 x.2.2) d
      if (d.team y t).state ≠ .free then fail (d.rollbackTxn 1 id) Status.teamConfigInvalid
      else
        let d := (d.setPreg Page.txc (bankReg 1 0x08) (act.setWidth 32)).setPreg Page.txc (bankReg 1 0x0C)
          (BitVec.ofNat 32 (act.toNat / 2 ^ 32))
        let d := d.commitTxn 1 id act
        if d.banks[1].cmdRes ≠ Status.done then
          let r := d.banks[1].cmdRes
          fail (d.rollbackTxn 1 id) r
        else (wait d).createTeam y t dpa act (some (q, c.cid))

/-- Order in which a command began to wait for gate firmware's transaction. -/
def waitOrder (c : HostCmd) : Option Nat :=
  match c.wait with
  | .fwTxn n => some n
  | _ => none

/-- The command that has waited longest for gate firmware's transaction. -/
def longestWait (d : Device) : Option (QueueId × HostCmd) :=
  let all := (finList 16).flatMap fun (q : QueueId) => (d.queues[q].started.filterMap fun c => (waitOrder c).map fun n => (n, q, c))
  (all.foldl (fun (best : Option (Nat × QueueId × HostCmd)) x =>
    match best with
    | some b => if x.1 < b.1 then some x else some b
    | none => some x) none).map (·.2)

/-- Commands that wait go on, oldest first, while gate firmware holds no transaction; fuel bounds their number. -/
def serveWaiting : Nat → Device → Device
  | 0, d => d
  | n + 1, d =>
    if d.txnHeld 1 || !d.serving then d
    else
      match d.longestWait with
      | some (q, c) => serveWaiting n (d.serveCreate q c)
      | none => d

/-- Commands that wait for gate firmware's transaction. -/
def waiters (d : Device) : Nat :=
  ((finList 16).map fun (q : QueueId) => (d.queues[q].started.filter fun c => (waitOrder c).isSome).length).sum

/-- After an ending of gate firmware's transaction. -/
def resume (d : Device) : Device := serveWaiting d.waiters d

/-! ### Register writes of the TXC page and PAGE_TXN -/

/-- A rollback, and the commands that waited behind a transaction of gate firmware. -/
def rollbackCmd (d : Device) (w : Fin 2) (id : BitVec 16) : Device :=
  let d := d.rollbackTxn w id
  if w = 1 then d.resume else d

/-- The commands that waited behind the transaction that has timed out go on. -/
def expire (d : Device) (w : Fin 2) : Device :=
  if d.timedOut w then
    if w = 1 then (d.lapse w).resume else d.lapse w
  else d

/-- No transaction command finds a transaction open that has passed TXN_TIMEOUT: it ended at that boundary (R510). -/
def expired (d : Device) : Device := (d.expire 0).expire 1

end Device

/-! ### The commands -/

def execTxnOpen (who : Requester) (s : State) : Host.Outcome State Fault Refusal :=
  .next (s.onDev fun d => if d.served then d.expired.openTxn who.idx else d)

/-- ENROL with TXN_ID in the PAGE_TXN of the page at a register-BAR offset. -/
def execEnrol (who : Requester) (page : BitVec 26) (id : BitVec 16) (s : State) : Host.Outcome State Fault Refusal :=
  .next (s.onDev fun d =>
    match pageAt page.toNat with
    | some p => if d.served then d.expired.enrol who.idx p id else d
    | none => d)

def execTxnCommit (who : Requester) (id : BitVec 16) (s : State) : Host.Outcome State Fault Refusal :=
  .next (s.onDev fun d => if d.served then d.expired.commitTxn who.idx id (d.txnTarget who.idx) else d)

def execTxnRollback (who : Requester) (id : BitVec 16) (s : State) : Host.Outcome State Fault Refusal :=
  .next (s.onDev fun d => if d.served then d.expired.rollbackCmd who.idx id else d)

end Sys2Proof.Machine
end

