-- ==== Sys2Proof/Machine/MemCtl.lean ====
section
/-! DEFINITION. The memory controllers' own events: temperature readings, thermal levels and what they do to booked
work, refresh, the error window (R311 to R315, R322, R326, R402, R403), and the yard bridge (R27). -/

namespace Sys2Proof.Machine

namespace Device

/-- Entry threshold of a thermal level in °C (R313). -/
def heatLimit (l : Nat) : Int := 75 + 10 * l

/-- The level after a reading of TEMP: entered above its threshold, left at least 5 °C below it. -/
def heatLevel (cur : Nat) (temp : Int) : Nat :=
  let up := ((List.range 4).filter fun l => l ≠ 0 && decide (heatLimit l < temp)).foldl max 0
  let keep := ((List.range 4).filter fun l => l ≠ 0 && decide (l ≤ cur) && decide (heatLimit l - 5 < temp)).foldl max 0
  max up keep

/-- What a new level of a channel in service does to booked work with charge on it (R322, R402, R403); level 3 is a fault of
the channel. -/
def levelEffects (d : Device) (c : Chan) (l : Nat) : Device :=
  let page := Page.memctl c
  let lvl (k : Chan) : Nat := if k = c then l else d.levelNow k
  let d := if l = 3 then
      (d.record page Status.memChannelOffline).logRing
        (d.logWord 5 page.domain Status.memChannelOffline page 0 0 noCounts 0)
    else d
  let d := (finList 384).foldl (fun d (st : StallId) => if (d.stall st).barrow = [] then d else d.reassessBarrow st c lvl) d
  (finList 2).foldl (fun d (y : Yard) => (finList 64).foldl (fun d (t : Fin 64) =>
    if (d.team y t).op.isNone then d
    else if l = 2 then d.reassessTeam y t c
    else if l = 3 then d.offlineTeam y t c
    else d) d) d

/-- A thermal level takes effect at the boundary after its reading (R314): level 3 takes the channel offline, and
booked work with charge on the channel is reassessed. A channel that is offline already stays so, and its level changes
alone (R315). -/
def changeLevel (d : Device) (c : Chan) (l : Nat) : Device :=
  let was := d.mc[c].state
  let d := d.modMc c fun m => { m with level := l, next := none, due := false, state := if l = 3 then .offline else m.state }
  let d := d.event (Page.memctl c) 1
  if was = .inService then d.levelEffects c l else d

end Device

/-- A channel is in self-refresh: in SAFE, and while it is offline (R304, R325). -/
def Device.selfRefresh (d : Device) (c : Chan) : Bool := d.boot.state = .safe || d.mc[c].state = .offline

/-- A reading of mode register 4 of a channel that gate firmware has trained, offline or not, one in 64 frames (R313, R315). -/
def execMcTempRead (ch : Chan) (code temp : BitVec 8) (s : State) : Host.Outcome State Fault Refusal :=
  .next (s.onDev fun d =>
    let m := d.mc[ch]
    if (m.state ≠ .inService && m.state ≠ .offline) || !d.serving || decide (m.age < 64) then d
    else
      let l := Device.heatLevel m.level temp.toInt
      d.modMc ch fun m =>
        { m with code := code, temp := temp, age := 0, next := if l = m.level then none else some l
                 due := m.due && l ≠ m.level })

/-- The boundary after a reading has come, at step 9 (R314). -/
def execThermalLevelChange (ch : Chan) (s : State) : Host.Outcome State Fault Refusal :=
  .next (s.onDev fun d =>
    match d.mc[ch].next with
    | some l => if d.mc[ch].due then d.changeLevel ch l else d
    | none => d)

/-- A bank of a channel in service is refreshed (R311); a channel in self-refresh takes no refresh from its controller
(R304). -/
def execRefresh (ch : Chan) (_bank : BitVec 5) (s : State) : Host.Outcome State Fault Refusal :=
  .next (s.onDev fun d =>
    if d.mc[ch].state = .inService && !d.selfRefresh ch then d.modMc ch fun m => { m with refreshes := m.refreshes + 1 } else d)

/-- UE_WINDOW frames have passed: UE_COUNT_W counts anew (R329). -/
def execUeWindowEnd (ch : Chan) (s : State) : Host.Outcome State Fault Refusal :=
  .next (s.onDev fun d =>
    if (d.preg (Page.memctl ch) 0x10C).toNat ≤ d.mc[ch].winAge then d.modMc ch fun m => { m with ueW := 0, winAge := 0 } else d)

/-- A bridge transfer fails 64 attempts in a row (R27). -/
def execBridgeFail (y : Yard) (s : State) : Host.Outcome State Fault Refusal :=
  .next (s.onDev fun d =>
    (d.record (Page.yard y) Status.bridgeFail).enterSafe y Status.bridgeFail (Page.yard y))

/-- A bridge transfer is retried (R27). -/
def execBridgeRetry (y : Yard) (s : State) : Host.Outcome State Fault Refusal :=
  .next (s.onDev fun d => if d.boot.state = .off then d else d.bump (Page.yard y) 0x120 1)

end Sys2Proof.Machine
end

