-- ==== Sys2Proof/Machine/Power.lean ====
section
/-! DEFINITION. The power and thermal controller: throttle levels, clock and voltage, trips, rail faults, and the
management sideband (R575 to R586, R594, R595). -/

namespace Sys2Proof.Machine

namespace Device

/-! ### Levels (R576 to R580) -/

/-- Feed duty and yard clock of a throttle level (R578). -/
def levelDuty (l : Nat) : Nat := 8 - 2 * l
def levelMhz (l : Nat) : Nat := if l ≤ 1 then 1400 else if l = 2 then 1050 else 700

/-- VDD_CORE setpoint in mV for a frequency bin and a clock (R576). -/
def setpoint (bin mhz : Nat) : Nat :=
  match min bin 3 with
  | 0 => if mhz = 1400 then 780 else if mhz = 1050 then 730 else 670
  | 1 => if mhz = 1400 then 750 else if mhz = 1050 then 710 else 660
  | 2 => if mhz = 1400 then 720 else if mhz = 1050 then 690 else 650
  | _ => if mhz = 1400 then 700 else if mhz = 1050 then 670 else 650

def setpointOf (d : Device) (mhz : Nat) : Nat := setpoint d.trust.freqBin.toNat mhz

/-- The controller writes setpoint v: the window of limits opens, from the setpoint before (R575). -/
def writeVolt (p : YardPower) (v : Nat) : YardPower :=
  if v = p.vset then p else { p with vold := p.vset, vset := v, busy := true }

/-- The sensors of a yard, and its hottest one with its number: the lowest where several read the same. -/
def hottest (temps : List Int) (first n : Nat) : Int × Nat :=
  (List.range n).foldl (fun (a : Int × Nat) i =>
    let t := (temps[first + i]?).getD 0
    if i = 0 ∨ a.1 < t then (t, first + i) else a) (0, first)

/-- Thermal level for a temperature in 0.25 °C: 1, 2, 3 above 95, 100, 105 °C, left below a temperature 3 °C lower
(R579; chapter 19 leaves level 2 "below 97 °C"). -/
def thermLevel (cur : Nat) (t : Int) : Nat :=
  let lim (l : Nat) : Int := 4 * (90 + 5 * l)
  let up := ((List.range 4).filter fun l => l ≠ 0 && decide (lim l < t)).foldl max 0
  let keep := ((List.range 4).filter fun l => l ≠ 0 && decide (l ≤ cur) && decide (lim l - 12 ≤ t)).foldl max 0
  max up keep

/-- Average of a yard's power over its samples. -/
def average (l : List Nat) : Nat := if l.isEmpty then 0 else l.sum / l.length

/-- The power level (R579): one step up at most once in 16 frames, one step down after 64 frames below 90% of the
limit. -/
def powerLevel (p : YardPower) (limit : Nat) : YardPower :=
  let overran := decide (p.hist.length * limit < p.hist.sum)
  let under := decide (10 * p.hist.sum < 9 * limit * max 1 p.hist.length)
  let below := if under then p.below + 1 else 0
  if overran && decide (16 ≤ p.sinceRise + 1) then { p with power := min 3 (p.power + 1), sinceRise := 0, below := 0 }
  else if decide (64 ≤ below) then { p with power := p.power - 1, below := 0, sinceRise := p.sinceRise + 1 }
  else { p with below := below, sinceRise := p.sinceRise + 1 }

/-- The inputs of R579 for the frame that ended, and the wanted level. -/
def sampleYard (d : Device) (y : Yard) : YardPower × Nat :=
  let (t, i) := hottest d.pwr.temps (16 * y.val) 16
  let p := d.yards[y]
  let p := powerLevel { p with hist := (((d.pwr.sample[y.val]?).getD 0) :: p.hist).take 16 } (d.pfield Page.power 0x100 (16 * y.val) 16)
  let p := { p with hot := t, hotIdx := i, therm := thermLevel p.therm t, sinceChange := p.sinceChange + 1 }
  let forced := max (if d.pwr.prochot then 3 else 0) (d.pfield Page.power 0x104 (4 * y.val) 2)
  (p, max (max p.therm p.power) forced)

/-- YARD_STAT.CAUSE (R595). -/
def causeOf (d : Device) (y : Yard) (p : YardPower) : BitVec 2 :=
  let forced := max (if d.pwr.prochot then 3 else 0) (d.pfield Page.power 0x104 (4 * y.val) 2)
  if p.level = 0 then 0
  else if p.therm = p.level then 1
  else if p.power = p.level then 2
  else if forced = p.level then 3
  else p.cause

/-- A level comes into force: its events, counters and the sideband's alert (R580, R585). -/
def levelEvents (d : Device) (y : Yard) (l : Nat) : Device :=
  let d := ((d.event (Page.yard y) 1).event Page.power 1).bump Page.power 0x12C 1
  if 2 ≤ l then { d with pwr := { d.pwr with alert := true } } else d

/-- A yard takes level l: duty at the next group of 8 cycles, clock and voltage under R577. -/
def takeLevel (d : Device) (y : Yard) (l : Nat) : Device :=
  let mhz := levelMhz l
  let v := d.setpointOf mhz
  (d.modYard y fun p =>
    { writeVolt p v with
             level := l, dutyNext := levelDuty l, mhz := mhz, raise := none, retry := false, raised := false, busy := decide (v ≠ p.vset) || (p.busy && p.raise.isNone), sinceChange := 0 }).levelEvents y l

/-- The level in force is wanted again while a raise waits for its step (R596): the clock stays low, and the voltage goes
back to its setpoint. -/
def cancelRaise (d : Device) (y : Yard) : Device :=
  let mhz := levelMhz d.yards[y].level
  let v := d.setpointOf mhz
  d.modYard y fun p => { writeVolt p v with raise := none, raised := false, retry := false, mhz := mhz, busy := true }

/-- Step 9 of a boundary for one yard (R579, R580): a rise at once, cancelling a raise in progress; a fall by one
step, 16 frames after the last change, through a raise of the voltage where the clock rises. A rail that is not at the
setpoint of its clock is set to it (R576). -/
def yardFrame (d : Device) (y : Yard) : Device :=
  let (p, want) := d.sampleYard y
  let d := (d.modYard y fun _ => p).bump (Page.yard y) (0x10C + 4 * p.level) 1
  let d :=
    if p.level < want then d.takeLevel y want
    else if want < p.level then
      let l := p.level - 1
      if p.raised then d.takeLevel y l
      else if p.raise.isSome then
        if p.retry then d.modYard y fun p => { p with retry := false, busy := true } else d
      else if 16 ≤ p.sinceChange then
        if levelMhz l = levelMhz p.level then d.takeLevel y l
        else
          let v := d.setpointOf (levelMhz l)
          d.modYard y fun p => { writeVolt p v with raise := some (v, levelMhz l), busy := true }
      else d
    else if p.raise.isSome || p.raised then d.cancelRaise y
    else d
  let d := d.modYard y fun p => if p.raise.isNone && !p.raised then writeVolt p (d.setpointOf p.mhz) else p
  d.modYard y fun p => { p with cause := d.causeOf y p }

/-- The sensors and rails sampled in the frame that ended; a sensor above 110 °C trips the device (R583). -/
def powerFrame (d : Device) (e : BoundaryInput) : Device :=
  let d := { d with pwr := { d.pwr with temps := e.temps, sample := e.power, rails := e.rails } }
  let d := d.yardFrame 0 |>.yardFrame 1
  if e.temps.any fun t => decide (440 < t) then
    let d := { d with pwr := { d.pwr with thermtrip := true } }
    let i := (e.temps.findIdx fun t => decide (440 < t))
    (d.eventCode Page.power 3 Status.thermalTrip).enterSafe (if i < 32 then i / 16 else 2) Status.thermalTrip Page.power
  else d

/-- A block read of the sideband, which answers in every state but OFF. -/
def sideband (d : Device) (data : Device → List Byte) : Device :=
  if d.boot.state = .off then d else { d with out := { d.out with block := data d, nack := false } }

/-- The address that the sideband answers to: 0x58 + TZ_MGMT_ADDR, or a dynamic one (R585). -/
def busAddress (d : Device) : BitVec 7 :=
  match d.pwr.bus with
  | .i3c (some a) => a
  | _ => 0x58 + Config.mgmtAddr.setWidth 7

/-- An alert goes out as an in-band interrupt in I3C mode, and by TZ_MGMT_ALERT_N low in SMBus mode (R585). -/
def inBandInterrupt (d : Device) : Bool := d.pwr.alert && d.pwr.bus ≠ .smbus
def alertPin (d : Device) : Bool := d.pwr.alert && d.pwr.bus = .smbus

/-- The PEC of a message: CRC-8 of SMBus, with x⁸ + x² + x + 1 (PRESUMED, log 104). -/
def pec (bs : List Byte) : Byte :=
  bs.foldl (fun c b => (List.range 8).foldl (fun c _ => if flag c 7 then (c <<< 1) ^^^ 0x07 else c <<< 1) (c ^^^ b)) 0

/-- The one write that the sideband accepts, with a right PEC where there is one (R585, R586). -/
def mgAccepts (d : Device) (code data : Byte) (p : Option Byte) : Bool :=
  code = 0x40 && data = 0xC3 && p.all fun x => x = pec [d.busAddress ++ (0 : BitVec 1), code, data]

/-- TZ_SAFE_N is low (R584). -/
def safePin (d : Device) : Bool := d.boot.state = .safe

def stateCode (s : DevState) : Nat :=
  match s with
  | .off => 0
  | .romWait => 1
  | .verify => 2
  | .fwInit => 3
  | .ready => 4
  | .safe => 5
  | .bist => 6

end Device

/-- The regulator reports the voltage reached (R575, R577): after a raise, the clock rises. -/
def execVoltageReached (y : Yard) (s : State) : Host.Outcome State Fault Refusal :=
  .next (s.onDev fun d =>
    d.modYard y fun p =>
      if !p.busy then p
      else
        match p.raise with
        | some (_, mhz) => { p with busy := false, vold := p.vset, raise := none, raised := true, mhz := mhz }
        | none => { p with busy := false, vold := p.vset })

/-- The regulator has not reported a raise within 20 µs (R577). -/
def execAvsTimeout (y : Yard) (s : State) : Host.Outcome State Fault Refusal :=
  .next (s.onDev fun d =>
    if d.yards[y].raise.isSome && d.yards[y].busy && !d.yards[y].retry then
      ((d.modYard y fun p => { p with retry := true, busy := false }).bump (Page.yard y) 0x11C 1).event (Page.yard y) 2
    else d)

/-- The limits in force of a rail in µV (R573, R575): a VDD_CORE rail within 2% of its setpoint, and while a window is
open from 2% below the lower to 2% above the higher of its two setpoints. -/
def Device.railLimits (d : Device) (rail : Fin 7) : Nat × Nat :=
  let around (low high pct : Nat) : Nat × Nat := (10 * low * (100 - pct), 10 * high * (100 + pct))
  match rail.val with
  | 0 => around (min d.yards[0].vold d.yards[0].vset) (max d.yards[0].vold d.yards[0].vset) 2
  | 1 => around (min d.yards[1].vold d.yards[1].vset) (max d.yards[1].vold d.yards[1].vset) 2
  | 2 => around 750 750 3
  | 3 => around 750 750 3
  | 4 => around 900 900 3
  | 5 => around 500 500 3
  | _ => around 1800 1800 5

/-- A rail's voltage lies outside its limits. -/
def Device.outsideLimits (d : Device) (x : RailSample) : Bool :=
  decide (x.uv < (d.railLimits x.rail).1) || decide ((d.railLimits x.rail).2 < x.uv)

/-- A rail has stayed outside its limits at some voltage for more than 10 µs (R575). -/
def execRailFault (x : RailSample) (s : State) : Host.Outcome State Fault Refusal :=
  .next (s.onDev fun d =>
    if d.boot.state = .off || !d.outsideLimits x then d
    else
      let d := { d with pwr := { d.pwr with alert := true } }
      ((d.bump Page.power 0x128 1).eventCode Page.power 2 Status.railFault).enterSafe (if x.rail.val < 2 then x.rail.val else 2)
        Status.railFault Page.power)

/-- The analogue comparator drives TZ_THERMTRIP_N low at 125 °C (R583). It is a pin, and no cause of SAFE. -/
def execThermtripAnalog (s : State) : Host.Outcome State Fault Refusal :=
  .next (s.onDev fun d => if d.boot.state = .off then d else { d with pwr := { d.pwr with thermtrip := true } })

/-- TZ_PROCHOT_N changes (R579). -/
def execProchot (low : Bool) (s : State) : Host.Outcome State Fault Refusal :=
  .next (s.onDev fun d => { d with pwr := { d.pwr with prochot := low } })

/-! ### The management sideband (R586) -/

def execMgId (s : State) : Host.Outcome State Fault Refusal :=
  .next (s.onDev fun d => d.sideband fun d => leBytes 8 d.trust.deviceId.toNat ++ [0xA1, d.trust.freqBin])

def execMgState (s : State) : Host.Outcome State Fault Refusal :=
  .next (s.onDev fun d => d.sideband fun d =>
    leBytes 4 (Device.stateCode d.boot.state + d.yards[0].level * 16 + d.yards[1].level * 64 + d.boot.safeCause.toNat * 2 ^ 16))

def execMgFrame (s : State) : Host.Outcome State Fault Refusal :=
  .next (s.onDev fun d => d.sideband fun d => leBytes 6 d.now.toNat)

def execMgUptime (s : State) : Host.Outcome State Fault Refusal :=
  .next (s.onDev fun d => d.sideband fun d => leBytes 8 d.ctr.uptime.toNat)

def execMgTemp (s : State) : Host.Outcome State Fault Refusal :=
  .next (s.onDev fun d => d.sideband fun d =>
    [(0, 16), (16, 16), (32, 2)].flatMap fun r => leBytes 2 (natOfInt 16 (Device.hottest d.pwr.temps r.1 r.2).1))

def execMgTempAll (s : State) : Host.Outcome State Fault Refusal :=
  .next (s.onDev fun d => d.sideband fun d =>
    (List.range 34).flatMap fun i => leBytes 2 (natOfInt 16 ((d.pwr.temps[i]?).getD 0)))

def execMgLp6Level (s : State) : Host.Outcome State Fault Refusal :=
  .next (s.onDev fun d => d.sideband fun d =>
    leBytes 16 ((finList 64).foldl (fun n (c : Chan) => n + d.mc[c].level * 4 ^ c.val) 0))

def execMgPower (s : State) : Host.Outcome State Fault Refusal :=
  .next (s.onDev fun d => d.sideband fun d => (List.range 4).flatMap fun i => leBytes 2 ((d.pwr.sample[i]?).getD 0))

def execMgRails (s : State) : Host.Outcome State Fault Refusal :=
  .next (s.onDev fun d => d.sideband fun d =>
    (List.range 7).flatMap fun i => let r := (d.pwr.rails[i]?).getD (0, 0); leBytes 2 r.1 ++ leBytes 2 r.2)

/-- Command 0x40 with the byte 0xC3 sends the device to SAFE; the data of any other write is not acknowledged. -/
def execMgSafe (data : MgWrite) (s : State) : Host.Outcome State Fault Refusal :=
  .next (s.onDev fun d =>
    if d.boot.state = .off then d
    else
      match data with
      | .command code x p =>
        if d.mgAccepts code x p then
          ({ d with out := { d.out with nack := false } }).enterSafe 2 Status.sidebandSafe Page.gatehouse
        else { d with out := { d.out with nack := true } }
      | .assign m => { d with pwr := { d.pwr with bus := m } })

end Sys2Proof.Machine
end

