-- ==== Sys2Proof/WellFormed.lean ====
section
/-! DEFINITION. Well-formed commands: the operand values that the sender of a command can form. Registers, stalls,
ports and the other numbered units are bounded by their types; what remains are lengths and ranges. The meanings take
every command; a command that is not well formed stands for nothing outside the block. -/

namespace Sys2Proof

/-- What a boundary samples: 34 sensors, four powers and seven rails (R575, R581, R582). -/
def BoundaryInput.ok (e : BoundaryInput) : Bool :=
  e.temps.length = 34 && e.power.length = 4 && e.rails.length = 7

/-- The instruction codes of the test port (R533). -/
def tapCodes : List (BitVec 8) := [0x00, 0x01, 0x02, 0x03, 0x04, 0x10, 0x11, 0x12, 0x20, 0x21, 0x30, 0x40, 0xFF]

/-- HELLO names one CRED_ADV value per VC (R344). -/
def Hello.ok (h : Hello) : Bool := h.credAdv.length = 6 && h.credAdv.all fun n => decide (n < 2 ^ 16)

/-- A payload is 240 B (R335). -/
def payloadOk (p : List Byte) : Bool := p.length = 240

/-- A NAK names 1 to 16 lost values (R352). -/
def nakOk (l : List Seq) : Bool := decide (0 < l.length) && decide (l.length ≤ 16)

/-- A CREDIT flit returns credits of VC0 to VC5, each below 512 (R337). -/
def creditOk (l : List (BitVec 3 × Nat)) : Bool := l.all fun r => decide (r.1.toNat < 6) && decide (r.2 < 512)

/-- A part of a SIGNATURE is one of 72, of at most 240 B (R359). -/
def partOk (part : Nat) (data : List Byte) : Bool := decide (part < 72) && decide (data.length ≤ 240)

/-- FW_INIT learns of the 64 channels (R467). -/
def FwInitInput.ok (x : FwInitInput) : Bool := x.trained.length = 64

/-- Bits that stay unblown lie in the array (R522). -/
def VerifyInput.ok (x : VerifyInput) : Bool := x.stuckBits.all fun i => decide (i < 8192)

/-- The signature of a debug token is 7,856 B (R533). -/
def DebugToken.ok (t : DebugToken) : Bool := t.signature.length = 7856

/-- A host link that trains has a module up and one of the six rates of R454 (HP_STAT). -/
def linkOk (m0 m1 : ModuleState) (rate : BitVec 4) : Bool := (m0.up || m1.up) && decide (1 ≤ rate.toNat) && decide (rate.toNat ≤ 6)

/-- A memory-BAR request reads 1 to 4,096 bytes or writes 1 to 512, the most that one PCIe request carries (R457). -/
def BarAccess.ok : BarAccess → Bool
  | .read n => decide (0 < n) && decide (n ≤ 4096)
  | .write l => decide (0 < l.length) && decide (l.length ≤ 512)

/-- The addresses that the host writes before a doorbell are 64-bit addresses of its memory. -/
def hostCellsOk (l : List Host.Cell) : Bool := l.all fun c => decide (c.1 < 2 ^ 64)

/-- A register write has one of the sizes that a bus can form. -/
def sizeOk (n : Nat) : Bool := n = 1 || n = 2 || n = 4 || n = 8

/-- Every operand is one that the sender of the command can form. -/
def Instr.ok : Instr → Bool
  | .frameBoundary e => e.ok
  | .hello _ _ h => h.ok
  | .dataFlit _ _ k _ p => payloadOk p && (k.ftype ≠ 0 || k.vc ≠ 0)
  | .damagedFlit f => f.bytes.length = 256
  | .nak _ _ l => nakOk l
  | .credit _ _ l => creditOk l
  | .signature _ _ part data => partOk part data
  | .fwInitDone x => x.ok
  | .verifyDone x => x.ok
  | .dbgToken t => t.ok
  | .dbgAccess _ (.unlisted c) => !tapCodes.contains c
  | .memoryBarAccess _ a => a.ok
  | .hostLinkUp m0 m1 r => linkOk m0 m1 r
  | .sqTail _ _ l => hostCellsOk l
  | .registerWrite _ _ n _ => sizeOk n
  | _ => true

end Sys2Proof
end

