-- ==== Sys2Proof/Machine/Boot.lean ====
section
/-! DEFINITION. Start-up: power, ROM_WAIT, verification of a bundle with the fuse updates it asks for, firmware
initialisation, warm resets, the host link and the memory BAR (R34, R39 to R41, R306, R326, R327, R455 to R473,
R515 to R530). -/

namespace Sys2Proof.Machine

namespace Device

/-! ### ROM_WAIT (R460, R466, R526, R530) -/

/-- 60 s in units of 0.1 ns. -/
def romTime : Nat := 600000000000

/-- BOOT_RESULT is written (R463, R501). -/
def bootResult (d : Device) (c : Code) : Device :=
  ({ d with boot := { d.boot with result := c } }).eventCode Page.gatehouse 1 c

/-- Entry into ROM_WAIT; the timer is set where a time is given. -/
def enterRomWait (d : Device) (time : Option Nat) : Device :=
  let t := d.trust.deriveIdentity
  let d := { d with
    sram := []
    trust := { t with mr := t.mr.set 0 Config.romDigest }
    boot := { d.boot with timer := time.getD d.boot.timer, fwRunning := false } }
  d.setState .romWait

/-- The latches after the read of the array, with the counts and the record of R517 and R537. -/
def readArray (d : Device) (a : FuseArray) : Device :=
  let d := { d with trust := d.trust.readFuses a }
  let d := d.setPreg Page.fuseView 0x108 (BitVec.ofNat 32 (Trust.corrected a))
  let d := d.setPreg Page.fuseView 0x10C (BitVec.ofNat 32 d.trust.badUnits.length)
  if d.trust.badUnits.isEmpty then d else d.record Page.fuseView Status.memEccUncorrected

/-- Accumulator entries take unknown values (R471). -/
def forgetAcc (d : Device) : Device :=
  let (k, d) := d.drawFree
  let acc (st : StallId) (m : Fin 4) : Vector (Vector (BitVec 128) 66) 32 :=
    Vector.ofFn fun (g : Fin 32) => Vector.ofFn fun (l : Fin 66) => Config.lostAcc k st m g l
  let mgr (st : StallId) : Vector Manger 4 := Vector.ofFn fun (m : Fin 4) => { d.stalls[st].mgr[m] with acc := acc st m }
  { d with stalls := Vector.ofFn fun (st : Fin 384) => { d.stalls[st] with mgr := mgr st } }

/-- What outlives the loss of every other state: free values drawn, host memory, what went out, pins. -/
def fresh (d : Device) : Device :=
  { Reset.device with
    epoch := d.epoch + 1
    shedFill := Vector.replicate 24 (some (d.epoch + 1))
    chanFill := Vector.replicate 64 (some (d.epoch + 1))
    free := d.free
    host := d.host
    hostBad := d.hostBad
    out := d.out
    env := d.env
    tap := d.tap
    pwr := { Reset.device.pwr with prochot := d.pwr.prochot } }

/-- Bytes 0x00 to 0x33 of the Type 0 header of the host function (R456): up to the Expansion ROM BAR. -/
def pcieHeader (d : Device) : List Byte :=
  let c := d.pcie
  leBytes 2 Config.vendorId.toNat ++ leBytes 2 0x0900 ++ leBytes 2 c.command.toNat ++ leBytes 2 0x0010 ++ [0xA1, 0x00, 0x00, 0x12]
    ++ leBytes 4 0 ++ leBytes 8 (c.bar0.toNat / 2 ^ 26 * 2 ^ 26 + 4) ++ leBytes 8 (c.bar2.toNat / 2 ^ 38 * 2 ^ 38 + 12)
    ++ List.replicate 20 0

/-- A request of the host that the function does not support: Advanced Error Reporting holds it (R457, log 100). -/
def unsupported (d : Device) : Device :=
  { d with
    out := { d.out with data := [], unsupported := true, failed := 0 }
    pcie := { d.pcie with uncorrected := setBit d.pcie.uncorrected 20 } }

/-- A warm reset (R471): DOWN goes out and every engine stops; what the table does not keep is lost. -/
def warmReset (d : Device) (a : FuseArray) (keepConfig keepLink : Bool) : Device :=
  if d.boot.state = .off then d
  else
    let d := (finList 8).foldl (fun d (p : PortId) => if d.ports[p].linked then d.sendDown p 0 else d) d
    let new := d.fresh
    let new := { new with
      ctr := { new.ctr with frame := d.ctr.frame, uptime := d.ctr.uptime, phase := d.ctr.phase }
      tick := { new.tick with refLost := d.tick.refLost }
      mc := Vector.ofFn fun (c : Fin 64) => { Reset.memCtl with mapoutPend := d.mc[c].mapoutPend }
      pcie := if keepConfig then { d.pcie with d3hot := false } else new.pcie
      msixTable := if keepConfig then d.msixTable else new.msixTable
      pba := if keepConfig then d.pba else new.pba
      pwr := { new.pwr with thermtrip := d.pwr.thermtrip }
      trust := { new.trust with repair := d.trust.repair, scanCleared := d.trust.scanCleared }
      boot := { new.boot with
        state := d.boot.state
        warmResets := min (d.boot.warmResets + 1) 0xFFFF
        m0 := if keepLink then d.boot.m0 else new.boot.m0
        m1 := if keepLink then d.boot.m1 else new.boot.m1
        rate := if keepLink then d.boot.rate else new.boot.rate } }
    ((new.readArray a).forgetAcc).enterRomWait (some romTime)

/-! ### The bundle (R462, R463, R523 to R525) -/

/-- VERIFY of BOOT_CMD. -/
def startVerify (d : Device) : Device :=
  if d.boot.state = .off then d
  else if d.boot.state = .romWait then d.setState .verify
  else d.bootResult Status.stateInvalid

/-- n bytes of the bundle from offset o as a number. -/
def bundle (d : Device) (o n : Nat) : Nat := leNat (d.rdSram o n)

def bundleFlags (d : Device) : Nat := d.bundle 0x010 4
def keySlot (d : Device) : Nat := d.bundle 0x006 1
def svn (d : Device) : Nat := d.bundle 0x007 1
def debugRaise (d : Device) : Nat := d.bundleFlags / 32 % 4
def revokes (d : Device) (k : Nat) : Bool := d.bundleFlags.testBit (1 + k)

/-- Sections of the bundle: type, offset and length. -/
def sections (d : Device) : List (Nat × Nat × Nat) :=
  ((List.range 8).map fun i => (d.bundle (0x40 + 32 * i) 4, d.bundle (0x44 + 32 * i) 4, d.bundle (0x48 + 32 * i) 4)).filter
    fun s => s.1 ≠ 0

/-- A bundle of len bytes keeps its format (R463, R523). -/
def bundleFormed (d : Device) (len : Nat) : Bool :=
  let s := d.sections
  let apart (a b : Nat × Nat × Nat) : Bool := decide (a.2.1 + a.2.2 ≤ b.2.1) || decide (b.2.1 + b.2.2 ≤ a.2.1)
  decide (1 ≤ len) && decide (len ≤ 12582912) && d.bundle 0 4 = 0x444E_425A && d.bundle 0x005 1 = 1 && d.bundle 0x008 4 = len
    && decide (d.keySlot ≤ 3) && decide (d.svn ≤ 64) && d.debugRaise ≠ 3 && decide (d.bundleFlags < 512)
    && !d.revokes d.keySlot
    && ([1, 2, 3].all fun t => (s.filter fun x => x.1 = t).length = 1)
    && (s.all fun x => x.2.1 % 64 = 0 && decide (0x140 ≤ x.2.1) && decide (x.2.1 + x.2.2 + 7856 ≤ len))
    && ((List.range s.length).all fun i => (s.drop (i + 1)).all fun b => apart ((s[i]?).getD (0, 0, 0)) b)

/-- The signed message of R524. -/
def bundleDigest (d : Device) (len : Nat) : List Byte := Sha.sha256 (d.rdSram 0 (len - 7856))

/-- The contexts "ZIMG", "ZATT" and "ZDBG". -/
def imageContext : List Byte := [0x5A, 0x49, 0x4D, 0x47]
def reportContext : List Byte := [0x5A, 0x41, 0x54, 0x54]
def debugContext : List Byte := [0x5A, 0x44, 0x42, 0x47]

/-- The checks of R525, in order. -/
def bundleCheck (d : Device) (len : Nat) : Code :=
  let t := d.trust
  let pub := d.rdSram 0x020 32
  let bind := d.bundle 0x018 8
  let tightens := decide (t.debugLevel < d.debugRaise) || d.bundleFlags.testBit 7 || d.bundleFlags.testBit 8
  if !d.bundleFormed len then Status.imageFormatBad
  else if !(t.usable d.keySlot && t.keyHash d.keySlot = Sha.sha256 pub) then Status.imageSignatureBad
  else if !Slh.verify Slh.small pub imageContext (d.bundleDigest len) (d.rdSram (len - 7856) 7856) then
    Status.imageSignatureBad
  else if !((bind = 0 || bind = t.deviceId.toNat) && (!tightens || bind ≠ 0)) then Status.imageWrongDevice
  else if d.svn < t.rollback then Status.imageRollback
  else Status.done

/-- The fuse bits that the bundle asks for and that are not yet blown, in the order of R521. -/
def fuseRequests (d : Device) (a : FuseArray) : List Nat :=
  let t := d.trust
  let pairs := (List.range 4).flatMap fun k => if d.revokes k then [64 + 2 * k, 65 + 2 * k] else []
  let debug := (List.range 2).filterMap fun i => if t.debugLevel ≤ i ∧ i < d.debugRaise then some (72 + i) else none
  let scan := if d.bundleFlags.testBit 7 then [76, 77] else []
  let ident := if d.bundleFlags.testBit 8 then [78, 79] else []
  let arb := if d.bundleFlags.testBit 0 then
      (List.range 64).filterMap fun i => if t.rollback ≤ i ∧ i < d.svn then some (96 + i) else none
    else []
  (pairs ++ debug ++ scan ++ ident ++ arb).filter fun b => !flag a b

/-- The bits blown before the first that stays 0 after three attempts (R522). -/
def blow (bits stuck : List Nat) : List Nat := bits.takeWhile fun b => !stuck.contains b

/-- The array with bits blown; a blown bit stays blown. -/
def blown (a : FuseArray) (bits : List Nat) : FuseArray := bits.foldl (fun a b => setBit a b) a

/-! ### Firmware initialisation (R467, R468) -/

/-- n bytes of the initialisation block from offset o as a number; the block stands at 0xC0_0000 of the SRAM. -/
def initField (d : Device) (o n : Nat) : Nat := leNat (d.rdSram (0xC0_0000 + o) n)

/-- The initialisation block keeps R467. -/
def initLegal (d : Device) : Bool :=
  let keys := d.initField 0x12 2
  d.initField 0 4 == 64 + 32 * keys && decide (keys ≤ 1024) && d.initField 0x10 1 != 3 && d.initField 0x11 1 == 0
    && d.initField 0x14 44 == 0

/-- The version in use (R468). -/
def zhiVersion (drvMin drvMax fwMin fwMax : BitVec 16) : Option (BitVec 16) :=
  let v := if drvMax.toNat ≤ fwMax.toNat then drvMax else fwMax
  let one (x : BitVec 16) : Bool := field x 8 8 = 1
  if one drvMin && one drvMax && one fwMin && one fwMax && decide (max drvMin.toNat fwMin.toNat ≤ v.toNat) then some v else none

/-- Channels that R326 does not exclude before training. -/
def mayTrain (d : Device) (excl : W64) (c : Chan) : Bool := !d.mc[c].mapoutPend && !flag excl c

/-- The version in use of the block's range and gate firmware's. -/
def initVersion (d : Device) : Option (BitVec 16) :=
  zhiVersion (BitVec.ofNat 16 (d.initField 4 2)) (BitVec.ofNat 16 (d.initField 6 2)) d.boot.fwMin d.boot.fwMax

/-- Entry into FW_INIT: gate firmware runs, reports its range and measures the block at step 1 of R467 (R530); where steps 1 and 2 of R467 pass, the channels that
R326 does not exclude train. -/
def enterFwInit (d : Device) (fwMin fwMax : BitVec 16) : Device :=
  let excl : W64 := BitVec.ofNat 64 (d.initField 8 8)
  let d := { d with boot := { d.boot with
    fwRunning := true, fwVersion := BitVec.ofNat 32 (d.bundle 0x00C 4), fwMin := fwMin, fwMax := fwMax } }
  let m := Trust.digest (d.rdSram 0xC0_0000 (d.initField 0 4))
  let d := { d with trust := { d.trust with mr := d.trust.mr.set 3 m } }
  let go := d.initLegal && d.initVersion.isSome
  let d := { d with mc := Vector.ofFn fun (c : Fin 64) =>
    { d.mc[c] with state := if go && d.mayTrain excl c then .training else d.mc[c].state } }
  d.setState .fwInit

/-- The rate of a channel's package: the highest at which its trained channels pass, within the cap (R306). -/
def packageRate (trains : Chan → Bool) (rates : List (BitVec 2)) (cap : Nat) (c : Chan) : Nat :=
  ((finList 64).filter fun k => k.val / 4 = c.val / 4 && trains k).foldl
    (fun r k => min r ((rates[k.val]?).getD 3).toNat) (min cap 2)

/-- Channels, MEM_SPLIT and MEM_CAPACITY after training (R34, R306, R309, R326). -/
def placeMemory (d : Device) (excl : W64) (cap : Nat) (rates : List (BitVec 2)) : Device :=
  let trains (c : Chan) : Bool := d.mayTrain excl c && ((rates[c.val]?).getD 3) ≠ 3
  let before (c : Chan) : Nat := ((finList 64).filter fun k => k.val / 32 = c.val / 32 && decide (k.val < c.val) && trains k).length
  let inYard (y : Nat) : Nat := ((finList 64).filter fun k => k.val / 32 = y && trains k).length
  { d with
    mc := Vector.ofFn fun (c : Fin 64) =>
      if trains c then
        { Reset.memCtl with
          state := .inService
          rate := BitVec.ofNat 2 (packageRate trains rates cap c)
          serviceIdx := BitVec.ofNat 8 (before c)
          mapoutPend := d.mc[c].mapoutPend }
      else { Reset.memCtl with state := .mappedOut }
    boot := { d.boot with
      trained := inYard 0 + inYard 1
      memSplit := inYard 0 * (20 * 2 ^ 30)
      memCapacity := (inYard 0 + inYard 1) * (20 * 2 ^ 30) } }

/-- FW_INIT fails in step 1 or 2. -/
def initFailed (d : Device) (c : Code) : Device := (d.bootResult c).enterRomWait (some romTime)

/-- Steps 4 to 7 of R467: the channels are placed, and READY follows with 16 a yard. Otherwise FW_INIT does not complete,
and MEM_SPLIT and MEM_CAPACITY stay 0 (R327, R499). -/
def initTake (d : Device) (x : FwInitInput) (v : BitVec 16) (cap : Nat) (excl : W64) (allow : List (BitVec 256)) : Device :=
  let d := { d with boot := { d.boot with
    zhiVer := v
    allow := allow } }
  let d := d.placeMemory excl cap x.trained
  if (d.channels 0).length < 16 ∨ (d.channels 1).length < 16 then
    ({ d with boot := { d.boot with memSplit := 0, memCapacity := 0 } }).enterSafe 2 Status.memChannelOffline Page.gatehouse
  else
    let d := { d with boot := { d.boot with readyFrame := d.now } }
    (d.setState .ready).bootResult Status.done

/-- The public keys of the allow list. -/
def initAllow (d : Device) : List (BitVec 256) :=
  (List.range (d.initField 0x12 2)).map fun k => BitVec.ofNat 256 (d.initField (0x40 + 32 * k) 32)

/-- The steps of R467 after the block is measured. -/
def fwInit (d : Device) (x : FwInitInput) : Device :=
  if d.initLegal then
    match d.initVersion with
    | none => d.initFailed Status.zhiVersion
    | some v => d.initTake x v (d.initField 0x10 1) (BitVec.ofNat 64 (d.initField 8 8)) d.initAllow
  else d.initFailed Status.initBlockInvalid

/-- A memory-BAR access (R40, R41, R460, R543): unmapped bytes and the states without LP6 memory give Unsupported
Request. One that meets an offline channel fails with MEM_CHANNEL_OFFLINE and carries no data (R36). -/
def barAccess (d : Device) (off : Nat) (a : BarAccess) : Device :=
  let addr := (d.preg Page.device 0x120).toNat + d.pfield Page.device 0x124 0 16 * 2 ^ 32 + off
  let n := match a with
    | .read k => k
    | .write bs => bs.length
  if !d.serving || !d.mapped addr n then d.unsupported
  else
    match a with
    | .read k =>
      let (d, bs, bad) := d.readRange addr k false
      let code := (failCode bad).getD 0
      { d with out := { d.out with
          data := if code = Status.memChannelOffline then [] else bs, unsupported := false, failed := code } }
    | .write bs =>
      let (d, bad) := d.writeRange addr bs false
      { d with out := { d.out with data := [], unsupported := false, failed := (failCode bad).getD 0 } }

/-- BOOT_CMD (R472, R473); the fuse array is read again by a warm reset. -/
def bootCmd (d : Device) (a : FuseArray) (v : W32) : Device :=
  if field v 0 2 = 1 then d.startVerify
  else if field v 0 2 = 2 ∧ field v 8 8 = 0xA5 then d.warmReset a true true
  else d

end Device

/-! ### The commands -/

/-- TZ_PWRGOOD rises: the fuses are read, the counters start, and the device enters ROM_WAIT (R459, R517). -/
def execPowerGood (s : State) : Host.Outcome State Fault Refusal :=
  .next (s.onDev fun d =>
    if d.boot.state ≠ .off then d
    else
      let new := d.fresh.readArray s.array
      let trust := { new.trust with repair := new.trust.repairEntries }
      ({ new with trust := trust, boot := { new.boot with state := .off } }).enterRomWait (some Device.romTime))

/-- Power goes: everything but the fuses is lost, and scan chains part (R535). -/
def execPowerRemoval (s : State) : Host.Outcome State Fault Refusal :=
  .next (s.onDev fun d =>
    let new := d.fresh
    { new with tap := Reset.device.tap, boot := { new.boot with state := .off, window := false, timer := 0 } })

/-- VERIFY in BOOT_CMD. -/
def execVerify (_who : Requester) (s : State) : Host.Outcome State Fault Refusal :=
  .next (s.onDev fun d => d.startVerify)

/-- Verification ends: the checks of R525, the fuse updates of R521, then FW_INIT, or ROM_WAIT again. -/
def execVerifyDone (x : VerifyInput) (s : State) : Host.Outcome State Fault Refusal :=
  let d := s.dev
  if d.boot.state ≠ .verify then .next s
  else
    let len := (d.preg Page.gatehouse 0x10C).toNat
    let c := d.bundleCheck len
    if c ≠ Status.done then .next { s with dev := (d.bootResult c).enterRomWait none }
    else
      let bits := d.fuseRequests s.array
      let good := Device.blow bits x.stuckBits
      let array := Device.blown s.array good
      let d := { d with trust := { d.trust with latch := Device.blown d.trust.latch good } }
      let result : Code := if good.length = bits.length then Status.done else Status.fuseWriteFail
      let d := if bits.isEmpty then d
        else ({ d with boot := { d.boot with fuseResult := result } }).eventCode Page.fuseView 1 result
      if result ≠ Status.done then .next { s with array := array, dev := (d.bootResult result).enterRomWait none }
      else
        let m2 := Trust.digest (leBytes 144 (field array 64 1152))
        let d := { d with
          trust := { d.trust with mr := (d.trust.mr.set 1 (BitVec.ofNat 256 (leNat (d.bundleDigest len)))).set 2 m2 }
          boot := { d.boot with svn := BitVec.ofNat 8 d.svn, keySlot := BitVec.ofNat 2 d.keySlot } }
        .next { s with array := array, dev := (d.bootResult Status.done).enterFwInit x.fwMin x.fwMax }

def execFwInitDone (x : FwInitInput) (s : State) : Host.Outcome State Fault Refusal :=
  .next (s.onDev fun d => if d.boot.state = .fwInit then d.fwInit x else d)

/-- The ROM_WAIT timer reaches 0 (R466). -/
def execRomTimerExpiry (s : State) : Host.Outcome State Fault Refusal :=
  .next (s.onDev fun d =>
    if d.boot.state = .romWait && d.boot.timer = 0 then d.enterSafe 2 Status.bootTimeout Page.gatehouse else d)

/-- WARM_RESET in BOOT_CMD, with its key. -/
def execWarmReset (_who : Requester) (key : Byte) (s : State) : Host.Outcome State Fault Refusal :=
  .next (s.onDev fun d => if key = 0xA5 then d.warmReset s.array true true else d)

def execFunctionLevelReset (s : State) : Host.Outcome State Fault Refusal :=
  .next (s.onDev fun d => d.warmReset s.array false false)

def execHotReset (s : State) : Host.Outcome State Fault Refusal :=
  .next (s.onDev fun d => d.warmReset s.array false false)

def execD3hotReturn (s : State) : Host.Outcome State Fault Refusal :=
  .next (s.onDev fun d => d.warmReset s.array true false)

/-- The host link trains, at one of the six rates (R454, R455, R460); the port has no other. -/
def execHostLinkUp (m0 m1 : ModuleState) (rate : BitVec 4) (s : State) : Host.Outcome State Fault Refusal :=
  .next (s.onDev fun d =>
    if d.boot.state = .off ∨ !linkOk m0 m1 rate then d else { d with boot := { d.boot with m0 := m0, m1 := m1, rate := rate } })

/-- A module is lost: the link runs on the other (R455). -/
def execModuleFailure (second : Bool) (s : State) : Host.Outcome State Fault Refusal :=
  .next (s.onDev fun d =>
    let m0 := if second then d.boot.m0 else Reset.moduleDown
    let m1 := if second then Reset.moduleDown else d.boot.m1
    { d with boot := { d.boot with m0 := m0, m1 := m1, rate := if m0.up || m1.up then d.boot.rate else 0 } })

def execMemoryBarAccess (off : BitVec 38) (a : BarAccess) (s : State) : Host.Outcome State Fault Refusal :=
  .next (s.onDev fun d => d.barAccess off.toNat a)

/-- An uncorrectable gatehouse SRAM word is read; gate firmware cannot go on (R469, R501, R539). -/
def execGatehouseSramUncorrected (_a : BitVec 24) (firmware : Bool) (s : State) : Host.Outcome State Fault Refusal :=
  .next (s.onDev fun d =>
    if d.boot.state = .off then d
    else
      let d := (d.bump Page.gatehouse 0x15C 1).eventCode Page.gatehouse 2 Status.memEccUncorrected
      if firmware && d.boot.fwRunning then d.enterSafe 2 Status.memEccUncorrected Page.gatehouse else d)

end Sys2Proof.Machine
end

