-- ==== Sys2Proof/Machine/Bist.lean ====
section
/-! DEFINITION. Built-in self-test: the checks at START, rounds, the LP6 phase, the fail log and the outcome of a run
(R558 to R572). -/

namespace Sys2Proof.Machine

namespace Device

/-! ### What a test leaves in the memories (R566, R569) -/

/-- A list of cells or addresses without those in a range. -/
def outside (lo n : Nat) (a : Nat) : Bool := !(decide (lo ≤ a) && decide (a < lo + n))

/-- What the tested memories hold: zeros, or unknown values drawn as the k-th. -/
inductive TestFill where
  | zeros
  | lost (k : Nat)
deriving DecidableEq, Repr

/-- A stall's tested memories. -/
def fillStall (f : TestFill) (st : StallId) (s : Stall) : Stall :=
  let acc (m : Fin 4) : Vector (Vector (BitVec 128) 66) 32 := Vector.ofFn fun (g : Fin 32) => Vector.ofFn fun (l : Fin 66) =>
    match f with
    | .zeros => 0
    | .lost k => Config.lostAcc k st m g l
  let half (m : Fin 4) : Vector (Vector (BitVec 512) 66) 2 := Vector.ofFn fun (h : Fin 2) => Vector.ofFn fun (l : Fin 66) =>
    match f with
    | .zeros => 0
    | .lost k => Config.lostHalf k st m h l
  let clean (j : Fin 8) : Mailbox := { s.mbx[j] with
    msgs := s.mbx[j].msgs.zipIdx.map fun x => { x.1 with
      bad := false
      data := (List.range 64).map fun i => match f with
        | .zeros => 0
        | .lost k => Config.lostMessage k st j x.2 i } }
  { s with
    v := Vector.ofFn fun (r : Fin 32) => match f with
      | .zeros => 0
      | .lost k => Config.lostVector (k + 1 + st.val * 32 + r.val)
    vBad := []
    mbx := Vector.ofFn clean
    mgr := Vector.ofFn fun (m : Fin 4) => { s.mgr[m] with acc := acc m, half := half m, accBad := [], accCe := [] } }

/-- What free storage of a unit holds after a fill. -/
def freeFill (d : Device) (f : TestFill) : Option Nat :=
  match f with
  | .zeros => none
  | .lost _ => some d.epoch

/-- The memories of shed u take a fill. -/
def fillShed (d : Device) (f : TestFill) (u : Fin 24) : Device :=
  let lo := loftBase + u.val * 0x400_0000
  let out := outside lo 0x400_0000
  let tackOut := outside (u.val * 1048576) 1048576
  let d := { d with
    mem := d.mem.filter fun c => out c.1
    bad := d.bad.filter out
    ce := d.ce.filter out
    tack := d.tack.filter fun c => tackOut c.1
    tackBad := d.tackBad.filter tackOut
    shedFill := d.shedFill.set u (d.freeFill f) }
  { d with stalls := Vector.ofFn fun (st : Fin 384) =>
      if st.val / 16 = u.val then fillStall f st d.stalls[st] else d.stalls[st] }

/-- The payloads in a port's buffers take a fill. -/
def fillPort (f : TestFill) (p : PortId) (q : Port) : Port :=
  let payload : List Byte := (List.range 240).map fun i => match f with
    | .zeros => 0
    | .lost k => Config.lostFlit k p i
  { q with
    rxHeld := q.rxHeld.map fun h => { h with payload := payload }
    unacked := q.unacked.map fun u => { u with flit := { u.flit with payload := payload } }
    queue := q.queue.map fun l => l.map fun w => { w with payload := payload } }

/-- The memories of a drover take a fill: team table, turntable, flit buffers and the receive buffers of its four ports. -/
def fillDrover (d : Device) (f : TestFill) (y : Yard) : Device :=
  let d := (finList 64).foldl (fun d (t : Fin 64) => d.modTeam y t fun m =>
    { m with
      record := Vector.ofFn fun (i : Fin 8) => match f with
        | .zeros => 0
        | .lost k => Config.lostRecord k y t i
      turn := (List.range 16).map fun i => match f with
        | .zeros => 0
        | .lost k => Config.lostTurn (k + t.val) i }) d
  let d := (finList 8).foldl (fun d (p : PortId) => if p.val / 4 = y.val then d.modPort p (fillPort f p) else d) d
  { d with drovers := upd d.drovers y fun r => { r with buffers := d.freeFill f } }

/-- A channel takes a fill. -/
def fillChan (d : Device) (f : TestFill) (c : Chan) : Device :=
  let out (a : Nat) : Bool := !(decide (a < d.boot.memCapacity) && d.chanOf a = c)
  { d with
    mem := d.mem.filter fun x => out x.1
    bad := d.bad.filter out
    ce := d.ce.filter out
    chanFill := d.chanFill.set c (d.freeFill f) }

/-- An on-die unit of BIST_UNITS: 0 to 23 sheds, 24 and 25 Forges, 26 and 27 drovers. -/
def fillUnit (d : Device) (f : TestFill) (u : Nat) : Device :=
  if u < 24 then d.fillShed f (Fin.ofNat 24 u) else if u < 26 then d.modForge (Fin.ofNat 2 (u - 24)) fun g => { g with work := d.freeFill f }
  else d.fillDrover f (Fin.ofNat 2 (u - 26))

/-! ### Conditions (R561, R562) -/

def bistChans (d : Device) : W64 :=
  BitVec.ofNat 64 ((d.preg Page.bist 0x108).toNat + (d.preg Page.bist 0x10C).toNat * 2 ^ 32)

/-- R562 for some channels. -/
def lp6Conditions (d : Device) (chans : W64) : Bool :=
  let v (i : Nat) : Nat := ((d.pwr.rails[i]?).getD (0, 0)).1
  let within (i lo hi : Nat) : Bool := decide (lo ≤ v i) && decide (v i ≤ hi)
  within 0 700 800 && within 1 700 800 && within 5 485 515 && within 6 1710 1890
    && ((finList 2).all fun (y : Yard) => decide (1000 ≤ d.yards[y].mhz) && decide (d.yards[y].mhz ≤ 1400))
    && ((finList 64).all fun (c : Chan) => !flag chans c || decide (d.levelNow c < 3))

/-- READY is idle enough for a run (check 2 of R561). -/
def idleForTest (d : Device) (chans : W64) : Bool :=
  d.idleToStep
    && ((finList 8).all fun (p : PortId) => d.ports[p].state = .down || d.ports[p].state = .absent || d.ports[p].state = .faulty)
    && ((finList 64).all fun (c : Chan) => !flag chans c || d.mc[c].state = .inService)

/-- The checks of START, in order. -/
def bistCheck (d : Device) : Option Code :=
  let ctl := d.preg Page.bist 0x100
  let lp6 := flag ctl 3
  if field ctl 0 2 = 3 then some Status.stateInvalid
  else if !((d.boot.state = .romWait && !lp6) || d.boot.state = .ready) then some Status.stateInvalid
  else if d.boot.state = .ready && !d.idleForTest d.bistChans then some Status.stateInvalid
  else if d.preg Page.bist 0x104 = 0 ∧ d.bistChans = 0 then some Status.stateInvalid
  else if lp6 && !d.lp6Conditions d.bistChans then some Status.bistConditions
  else none

def bistResult (d : Device) (c : Code) : Device := { d with bist := { d.bist with result := c } }.record Page.bist c

/-- START (R561). -/
def startBist (d : Device) : Device :=
  match d.bistCheck with
  | some c => d.bistResult c
  | none =>
    let ctl := d.preg Page.bist 0x100
    let n := field ctl 4 3
    let units := d.preg Page.bist 0x104
    let run : BistRun :=
      { origin := d.boot.state
        algo := BitVec.ofNat 2 (field ctl 0 2)
        sram := flag ctl 2
        lp6 := flag ctl 3
        maxUnits := if n = 0 ∨ 4 < n then 4 else n
        units := units
        chans := d.bistChans
        pause := d.pfield Page.bist 0x110 0 16
        todo := if flag ctl 2 then below 28 (flag units) else []
        round := 0
        ready := d.now + 1
        phase := 1
        failed := false
        seen := [] }
    ({ d with bist := { d.bist with
        run := some run
        found := 0
        log := []
        phase := if run.sram then 1 else 2
        origin := BitVec.ofNat 3 (stateCode d.boot.state)
        startFrame := d.now.setWidth 32 } }).setState .bist

/-! ### The fail log (R567, R568) -/

def logMem (w : Vector W32 4) : Nat := field w[0] 26 4
def logInst (w : Vector W32 4) : Nat := field w[0] 15 9
def logRepair (w : Vector W32 4) : Nat := field w[0] 12 3

/-- A loft fault's stall, bank and row. -/
def loftRow (inst addr : Nat) : Nat × Nat × Nat := (inst, addr / 16 % 16, addr / 256)

/-- Rows that LOFT_REP names: an entry that names the spare of an earlier one is ignored (R519). -/
def repairRows (d : Device) : List (Nat × Nat × Nat) :=
  let es := d.trust.loftRep.filter fun e => flag e 31
  let spare (e : W32) : Nat := field e 16 15
  ((es.zipIdx.filter fun p => !((es.take p.2).any fun q => spare q = spare p.1)).map fun p =>
    (field p.1 22 9, field p.1 18 4, field p.1 0 14)).eraseDups

/-- Rows counted so far, of LOFT_REP and of earlier entries that a spare could cover. -/
def rowsSoFar (d : Device) : List (Nat × Nat × Nat) :=
  (d.repairRows ++ (d.bist.log.filter fun w => logMem w = 0 && logRepair w = 1).map fun w =>
    loftRow (logInst w) w[1].toNat).eraseDups

/-- Lanes counted so far, as stall, manger and lane. -/
def lanesSoFar (d : Device) : List (Nat × Nat × Nat) :=
  let named := d.trust.mgrRep.filter fun e => flag e 31
  ((named.map fun e => (field e 20 11 / 4, field e 20 11 % 4, field e 0 7))
    ++ (d.bist.log.filter fun w => (logMem w = 1 || logMem w = 2) && logRepair w = 1).map fun w =>
      (logInst w, field w[0] 24 2, field w[1] 16 7)).eraseDups

/-- REPAIR of a fault. -/
def repairOf (d : Device) (f : BistFault) : Nat :=
  if f.unusedSpare then 3
  else if f.mem = 0 then
    let r := loftRow f.inst.toNat f.addr.toNat
    let rows := d.rowsSoFar
    if (rows.filter fun x => x.1 = r.1 && x.2.1 = r.2.1).length < 4 ∧ rows.length < 64 then 1 else 2
  else if f.mem = 1 ∨ f.mem = 2 then
    let me := (f.inst.toNat, f.manger.toNat, field f.addr 16 7)
    let lanes := (me :: d.lanesSoFar).eraseDups
    if (lanes.filter fun x => x.1 = me.1 && x.2.1 = me.2.1).length ≤ 2 ∧ lanes.length ≤ 74 then 1 else 2
  else 0

/-- DIE of a fault: the yard of its stall, Forge, drover, port or channel (R11, R19). -/
def faultDie (f : BistFault) : Nat :=
  let i := f.inst.toNat
  if f.mem.toNat ≤ 5 then i / 192 else if f.mem.toNat ≤ 7 then i % 2 else if f.mem = 8 then i / 4 % 2 else i / 32 % 2

/-- The word that a fault lies in: 64 bits, or a burst of LP6 memory. -/
def faultWord (f : BistFault) : Nat × Nat × Nat × Nat :=
  (f.mem.toNat, f.manger.toNat, f.inst.toNat, f.addr.toNat / if f.mem = 9 then 64 else 8)

/-- A faulty word is logged once, or only counted beyond 256 entries. -/
def logFault (d : Device) (f : BistFault) : Device :=
  if d.bist.run.any fun r => r.seen.contains (faultWord f) then d else
  let first := d.bist.found = 0
  let w0 := faultDie f * 2 ^ 30 + f.mem.toNat * 2 ^ 26 + f.manger.toNat * 2 ^ 24 + f.inst.toNat * 2 ^ 15
    + d.repairOf f * 2 ^ 12 + f.bg.toNat * 2 ^ 10 + bitAt f.algo 8 + f.element.toNat * 2 ^ 5
  let w : Vector W32 4 :=
    #v[BitVec.ofNat 32 w0, BitVec.ofNat 32 f.addr.toNat, BitVec.ofNat 32 (f.addr.toNat / 2 ^ 32), f.bit.setWidth 32]
  let log := if d.bist.log.length < 256 then d.bist.log ++ [w] else d.bist.log
  let run := d.bist.run.map fun r => { r with failed := r.failed || !f.unusedSpare, seen := r.seen ++ [faultWord f] }
  let d := { d with bist := { d.bist with found := min (d.bist.found + 1) 0xFFFF_FFFF, log := log, run := run } }
  if first then d.event Page.bist 2 else d

/-- The on-die unit that a fault lies in. -/
def faultUnit (f : BistFault) : Nat :=
  let i := f.inst.toNat
  if f.mem.toNat ≤ 5 then i / 16 else if f.mem = 6 then 24 + i % 2 else if f.mem = 7 then 26 + i % 2 else 26 + i / 4 % 2

/-- A run's algorithms find a fault so (R560): of March C− under any background, or of March SS-R under solid, in an element
that reads; LP6 memory is tested under solid alone. -/
def marched (r : BistRun) (f : BistFault) : Bool :=
  (r.algo = 2 || f.algo = (r.algo = 1 : Bool)) && (f.bg = 0 || (!f.algo && f.mem ≠ 9)) && decide (1 ≤ f.element.toNat)
    && decide (f.element.toNat ≤ 5)

/-- Faults in the order in which a run finds them: March C− first, by background, then March SS-R, element by element. -/
def inOrder (fs : List BistFault) : List BistFault :=
  [false, true].flatMap fun a => (List.range 4).flatMap fun b => (List.range 8).flatMap fun e =>
    fs.filter fun f => f.algo = a && f.bg.toNat = b && f.element.toNat = e

/-- A fault that a run over some units reports: lanes that MGR_REPAIR names are not tested (R559). -/
def reported (d : Device) (r : BistRun) (units : List Nat) (f : BistFault) : Bool :=
  decide (f.mem.toNat < 9) && marched r f && units.contains (faultUnit f)
    && !((f.mem = 1 || f.mem = 2) && (deadLanes d.trust (Fin.ofNat 384 f.inst.toNat) (Fin.ofNat 4 f.manger.toNat)).contains (field f.addr 16 7))

/-! ### The run -/

/-- Frames of a round at 1.4 GHz: the least that one lasts (R564). -/
def roundFrames (r : BistRun) : Nat :=
  let ops := if r.algo = 0 then 40 else if r.algo = 1 then 22 else 62
  ceilDiv (12288 * ops) 14336 + (if r.algo = 0 then 0 else 2 * r.pause)

/-- A round of the on-die phase over the next units (R563). -/
def startRound (d : Device) (r : BistRun) (faults : List BistFault) : Device :=
  let now := r.todo.take r.maxUnits
  let d := now.foldl (fun d u => d.fillUnit .zeros u) d
  let left := r.todo.drop r.maxUnits
  let n := if r.todo.length = (below 28 (flag r.units)).length then 0 else r.round + 1
  let d := { d with bist := { d.bist with
    run := some { r with todo := left, round := n, ready := d.now + BitVec.ofNat 48 (roundFrames r) } } }
  (inOrder (faults.filter (d.reported r now))).foldl logFault d

/-- The run ends in the state it came from. -/
def leaveTest (d : Device) (origin : DevState) : Device :=
  let d := { d with bist := { d.bist with run := none } }
  if origin = .romWait then d.enterRomWait none else d.setState .ready

/-- The memories that a run has tested take a fill: on-die units, and channels from the LP6 phase on. -/
def fillTested (d : Device) (r : BistRun) (f : TestFill) : Device :=
  let units := (below 28 (flag r.units)).filter fun u => r.sram && !r.todo.contains u
  let d := units.foldl (fun d u => d.fillUnit f u) d
  let chans := if r.phase = 3 then (finList 64).filter fun (c : Chan) => flag r.chans c else []
  chans.foldl (fun d (c : Chan) => d.fillChan f c) d

/-- A run is stopped: what it touched holds unknown values (R569). -/
def stopRun (d : Device) (r : BistRun) (c : Code) : Device :=
  let k := d.free
  let d := { d with free := d.free + 12289, epoch := d.epoch + 1 }.fillTested r (.lost k)
  let d := { d with bist := { d.bist with phase := 3 } }
  ((d.bistResult c).event Page.bist 1).leaveTest r.origin

/-- The LP6 phase, which lasts the pauses of March SS-R at least (R560, R562, R565). -/
def startLp6 (d : Device) (r : BistRun) (faults : List BistFault) : Device :=
  if !d.lp6Conditions r.chans then d.stopRun r Status.bistConditions
  else
    let chans := (finList 64).filter fun (c : Chan) => flag r.chans c
    let d := chans.foldl (fun d (c : Chan) => d.fillChan .zeros c) d
    let d := { d with bist := { d.bist with run := some { r with
      phase := 3, ready := d.now + BitVec.ofNat 48 (if r.algo = 0 then 0 else 2 * r.pause) }, phase := 2 } }
    (inOrder (faults.filter fun f => f.mem = 9 && marched r f && f.inst.toNat < 64 && flag r.chans f.inst.toNat)).foldl logFault d

/-- The commit point of a run: after a pass every tested memory holds zeros (R566). -/
def endRun (d : Device) (r : BistRun) : Device :=
  let d := { d with bist := { d.bist with phase := 3 } }
  if r.failed then
    (({ d with bist := { d.bist with run := none } }.bistResult Status.bistFail).event Page.bist 1).enterSafe 2 Status.bistFail Page.bist
  else (((d.fillTested r .zeros).bistResult Status.done).event Page.bist 1).leaveTest r.origin

/-- ABORT (R569). -/
def abortBist (d : Device) : Device :=
  match d.bist.run with
  | none => { d with bist := { d.bist with abortRes := Status.abortTooLate } }
  | some r => { d with bist := { d.bist with abortRes := Status.aborted } }.stopRun r Status.aborted

/-- The check of each boundary of the LP6 phase (R562). -/
def bistFrame (d : Device) : Device :=
  match d.bist.run with
  | some r => if r.phase = 3 && !d.lp6Conditions r.chans then d.stopRun r Status.bistConditions else d
  | none => d

/-- A write of BIST_CMD. -/
def bistCmd (d : Device) (v : W32) : Device :=
  match field v 0 2 with
  | 1 => d.startBist
  | 2 => d.abortBist
  | _ => d

end Device

/-! ### The commands -/

def execBistStart (_who : Requester) (s : State) : Host.Outcome State Fault Refusal :=
  .next (s.onDev fun d => if d.served then d.startBist else d)

/-- A round begins at a boundary; it waits while either yard is at throttle level 2 or above (R563). -/
def execBistRoundStart (faults : List BistFault) (s : State) : Host.Outcome State Fault Refusal :=
  .next (s.onDev fun d =>
    match d.bist.run with
    | some r =>
      if r.todo ≠ [] ∧ r.ready ≤ d.now ∧ d.yards[0].level < 2 ∧ d.yards[1].level < 2 then d.startRound r faults else d
    | none => d)

/-- The LP6 phase begins after the on-die phase (R563, R565). -/
def execBistLp6Phase (faults : List BistFault) (s : State) : Host.Outcome State Fault Refusal :=
  .next (s.onDev fun d =>
    match d.bist.run with
    | some r => if r.lp6 ∧ r.todo = [] ∧ r.ready ≤ d.now ∧ r.phase ≠ 3 then d.startLp6 r faults else d
    | none => d)

/-- Every named unit and channel is tested: the result is written (R566). -/
def execBistResult (s : State) : Host.Outcome State Fault Refusal :=
  .next (s.onDev fun d =>
    match d.bist.run with
    | some r => if r.todo = [] ∧ r.ready ≤ d.now ∧ (!r.lp6 ∨ r.phase = 3) then d.endRun r else d
    | none => d)

def execBistAbort (_who : Requester) (s : State) : Host.Outcome State Fault Refusal :=
  .next (s.onDev fun d => if d.served then d.abortBist else d)

end Sys2Proof.Machine
end

