-- ==== Sys2Proof/Machine/HostCmds.lean ====
section
/-! DEFINITION. The host queues and the ZHI commands: rings and doorbells, the start of a command, host DMA, stall, team
and template commands, identification, log, abort and attestation (R475 to R485, R512, R527 to R531, R544, R570). -/

namespace Sys2Proof.Machine

namespace Device

/-! ### Well-formed commands (R479) -/

/-- Operand bits of words 1 to 7 that a command uses, by opcode; none for an opcode that ZHI 1.0 does not define. -/
def operandBits (op : Nat) : Option (List Nat) :=
  let all := 2 ^ 64 - 1
  let dpa := 2 ^ 48 - 1
  match op with
  | 0x00 => some []
  | 0x01 => some [all]
  | 0x02 => some [all, all, all]
  | 0x03 => some [0xFFFF_000F]
  | 0x10 | 0x11 => some [all, dpa, all]
  | 0x20 => some [dpa, 0xFFFF_01FF, all]
  | 0x21 => some [0xFFFF_03FF]
  | 0x22 => some [0x3FF]
  | 0x30 => some [dpa, 0xFF, dpa]
  | 0x31 => some [0, 0xFF, dpa]
  | 0x38 => some [dpa, 0x1F]
  | 0x39 => some [0, 0x1F]
  | 0x40 => some [0xFF]
  | 0x41 => some [all, 0x7FF]
  | 0x48 => some [0x7FF, all, all, all, all, all]
  | _ => none

/-- The operation of an ATTEST keeps R531. -/
def attestLegal (w : List W64) : Bool :=
  let w1 := cmdWord w 1
  (field w1 0 8 = 0 && field w1 8 3 = 0) || (field w1 0 8 = 1 && decide (4 ≤ field w1 8 3) && cmdWord w 2 = 0)

/-- A defined opcode with every reserved field and unused word 0. -/
def cmdLegal (w : List W64) : Bool :=
  match operandBits (opcode w) with
  | none => false
  | some m =>
    (cmdWord w 0).toNat &&& (2 ^ 64 - 1 - 0xFFFF_01FF) = 0
      && ((List.range 7).all fun i => (cmdWord w (i + 1)).toNat &&& (2 ^ 64 - 1 - (m[i]?).getD 0) = 0)
      && (opcode w ≠ 0x48 || attestLegal w)

/-! ### Rings and doorbells (R475 to R478) -/

/-- A queue error is reported (R478, R483). -/
def queueError (d : Device) (q : QueueId) (c : Code) : Device :=
  (d.modQueue q fun h => { h with err := true, code := c }).eventCode (Page.hostq q) 1 c

/-- The ABORT commands of a queue that are submitted and not taken, as started commands (R485). -/
def outstandingAborts (d : Device) (q : QueueId) : List HostCmd :=
  ((d.waitingAt q).map fun p => (List.range 8).map (d.ringWord q p)).filterMap fun w =>
    if opcode w = 3 && cmdLegal w then some { cid := cidOf w, op := 3, words := w, wait := .abort } else none

/-- A write of HQ_CTL. While EN is 1 only a write of EN := 0 acts; it discards the commands that are not taken, but for the
ABORTs (R485). A queue that is enabled again writes the completions that it held into its new ring (R478). -/
def hqCtl (d : Device) (q : QueueId) (v : W32) : Device :=
  if d.queues[q].en then
    if flag v 31 then d
    else d.modQueue q fun h =>
      { h with
        en := false, draining := true, sqHead := h.sqTail, sqCount := 0, skipped := [], started := h.started ++ d.outstandingAborts q }
  else
    let d := d.setPreg (Page.hostq q) 0x100 (v &&& 0x003F_FF00)
    let ok (n : Nat) : Bool := decide (4 ≤ n) && decide (n ≤ 12)
    if !flag v 31 then d
    else if ok (field v 12 4) && ok (field v 8 4) then
      (d.modQueue q fun h =>
        { h with
          en := true, err := false, code := 0, sqTail := 0, sqHead := 0, cqHead := 0, cqTail := 0, phase := true, full := 0
          sqCount := 0, skipped := [] }).flushHeld q d.queues[q].held.length
    else d.queueError q Status.txnInvalid

/-- SQ_TAIL: the commands up to the new tail are submitted, 2^SQ_SIZE at most. On an empty ring the old tail names a
full one (DESIGN CHOICE, log 78). -/
def sqDoorbell (d : Device) (q : QueueId) (tail : Nat) : Device :=
  let h := d.queues[q]
  if !h.en || h.err then d
  else if d.sqSize q ≤ tail then d.queueError q Status.hostqFault
  else
    let n := (tail + d.sqSize q - h.sqTail) % d.sqSize q
    let n := if n = 0 ∧ h.sqCount = 0 then d.sqSize q else n
    d.modQueue q fun h => { h with sqTail := tail, sqCount := min (d.sqSize q) (h.sqCount + n) }

/-- CQ_HEAD: entries are consumed, and held completions go out. On a full ring the old head says that all of it is
consumed (DESIGN CHOICE, log 78). -/
def cqDoorbell (d : Device) (q : QueueId) (head : Nat) : Device :=
  let h := d.queues[q]
  let n := (head + d.cqSize q - h.cqHead) % d.cqSize q
  let n := if n = 0 ∧ h.full = d.cqSize q then d.cqSize q else n
  if !(h.en || h.draining) || h.err then d
  else if d.cqSize q ≤ head ∨ h.full < n then d.queueError q Status.hostqFault
  else (d.modQueue q fun h => { h with cqHead := head, full := h.full - n }).flushHeld q h.held.length

/-- Every started command of a disabled queue has written its completion. -/
def drained (d : Device) (q : QueueId) : Device :=
  let h := d.queues[q]
  if h.draining && h.started.isEmpty && h.held.isEmpty then
    (d.modQueue q fun h => { h with draining := false }).event (Page.hostq q) 2
  else d

/-! ### The command at SQ_HEAD (R477, R479, R570) -/

/-- Gate firmware serves the host queues (R469, R475). -/
def fwServes (d : Device) : Bool :=
  d.boot.fwRunning && !d.boot.halted && (d.serving || (d.boot.state = .safe && d.boot.diag))

/-- The device state lets the command run (R479, R570). -/
def cmdAllowed (d : Device) (op : Nat) : Bool :=
  match d.boot.state with
  | .ready => true
  | .bist => decide (op ≤ 3) || op = 0x48
  | _ => decide (op ≤ 3)

/-- The words of the command that the queue may start now. -/
def nextCommand (d : Device) (q : QueueId) : Option (List W64) :=
  let h := d.queues[q]
  if !d.fwServes || !h.en || h.err || !h.held.isEmpty || h.sqCount = 0 then none
  else
    let w := (List.range 8).map (d.ringWord q h.sqHead)
    if flag (cmdWord w 0) 8 && !h.started.isEmpty then none else some w

/-- A command that completes at once with a status and a result. -/
def endNow (d : Device) (q : QueueId) (w : List W64) (c : Code) (r : W64) : Device :=
  d.completeCmd q (BitVec.ofNat 16 (field (cmdWord w 0) 16 16)) c r

/-- A command that has started and waits. -/
def startWait (d : Device) (q : QueueId) (w : List W64) (x : HostWait) : Device :=
  let c : HostCmd :=
    { cid := cidOf w, op := BitVec.ofNat 8 (opcode w), words := w, wait := x }
  d.modQueue q fun h => { h with started := h.started ++ [c] }

/-- The command at SQ_HEAD is taken. -/
def takeCmd (d : Device) (q : QueueId) : Device := (d.passHead q).passSkipped q d.queues[q].skipped.length

/-- The queue starts its next command where that is one that p selects; f is its effect. A malformed command is
refused whichever command it was meant to be. -/
def startCmd (d : Device) (q : QueueId) (p : List W64 → Bool) (f : Device → List W64 → Device) : Device :=
  match d.nextCommand q with
  | none => d
  | some w =>
    let d' := d.takeCmd q
    if !cmdLegal w then d'.endNow q w Status.txnInvalid 0
    else if !p w then d
    else if !d.cmdAllowed (opcode w) then d'.endNow q w Status.stateInvalid 0
    else f d' w

/-- The selection of an opcode. -/
def isOp (n : Nat) (w : List W64) : Bool := opcode w = n

/-! ### NOP, IDENTIFY, LOG_READ (R484, R544) -/

def mask64 (p : Chan → Bool) : Nat := (finList 64).foldl (fun n (c : Chan) => n + bitAt (p c) c.val) 0

/-- Channels in service, and channels with MAPOUT_PEND. -/
def serviceMask (d : Device) : Nat := mask64 fun c => d.mc[c].serviceIdx != 0xFF
def mapoutMask (d : Device) : Nat := mask64 fun c => d.mc[c].mapoutPend

/-- HP_STAT (R472). -/
def hpStat (d : Device) : Nat :=
  let b := d.boot
  b.rate.toNat * 256 + bitAt b.m1.half 5 + bitAt b.m0.half 4 + bitAt b.m1.up 1 + b2n b.m0.up

/-- PAGE_CAPS of a page (R493): RTC of the DEVICE page reads 0. -/
def pageCaps (p : PageKind) : Nat := bitAt p.hasTxn 31 + bitAt (decide (p.tallies ≠ 0)) 30 + 2 ^ 29

/-- The device-information page. -/
def identifyPage (d : Device) : List Byte :=
  padTo 4096 (leBytes 8 d.trust.deviceId.toNat ++ [0xA1, 0x00, d.trust.freqBin, d.boot.zhiVer.setWidth 8]
    ++ leBytes 4 (pageCaps .device) ++ leBytes 8 d.boot.memCapacity ++ leBytes 8 d.boot.memSplit ++ leBytes 8 d.serviceMask
    ++ leBytes 8 d.mapoutMask ++ leBytes 4 d.boot.fwVersion.toNat ++ leBytes 4 0x0201_0100 ++ leBytes 2 d.hpStat
    ++ List.replicate 6 0 ++ leBytes 8 d.now.toNat)

/-- n bytes of the fault log from offset o. -/
def logBytes (d : Device) (o n : Nat) : List Byte :=
  let slot (k : Nat) : BitVec 512 :=
    if k = 0 then d.tally.firstSafe.getD 0 else (d.tally.ring[k - 1]?).getD 0
  let header : BitVec 512 := BitVec.ofNat 512 (0x474F_4C5A + d.tally.logCount % 2 ^ 32 * 2 ^ 32)
  (List.range n).map fun i =>
    let a := o + i
    let rec' := if a < 64 then header else slot (a / 64 - 1)
    BitVec.ofNat 8 (field rec' (8 * (a % 64)) 8)

/-- LOG_READ: the bytes of the 64 KiB log from an offset. -/
def logRead (d : Device) (q : QueueId) (w : List W64) : Device :=
  let n := min (cmdWord w 2).toNat (65536 - (cmdWord w 3).toNat)
  (d.wrHost (cmdWord w 1).toNat (d.logBytes (cmdWord w 3).toNat n)).endNow q w Status.done (BitVec.ofNat 64 n)

/-! ### Host DMA (R480, R481) -/

/-- The engine that a new command takes. -/
def freeEngine (d : Device) : Option (Fin 4) :=
  (finList 4).find? fun (e : Fin 4) => !((finList 16).any fun (q : QueueId) =>
    d.queues[q].started.any fun c => c.wait = .dma e || c.wait = .loadDma e)

/-- DMA_UNITS counts bytes moved. -/
def dmaMoved (d : Device) (n : Nat) : Device :=
  let t := d.boot.dmaRem + n
  { d with boot := { d.boot with dmaRem := t % 4096 } }.bumpSat Page.gatehouse 0x154 (t / 4096)

/-- Bytes of n from DPA a that failed units hold. -/
def lostBytes (a n : Nat) (bad : List (Nat × MemRes)) : Nat :=
  (bad.map fun u => min (a + n) (u.1 + unitSize u.1) - max a u.1).sum

/-- Host words that hold a byte of a failed unit carry PCIe poisoning. -/
def poisonHost (d : Device) (host a n : Nat) (bad : List (Nat × MemRes)) : Device :=
  bad.foldl (fun d u =>
    let lo := max a u.1
    let k := min (a + n) (u.1 + unitSize u.1) - lo
    (List.range k).foldl (fun (d : Device) i => { d with hostBad := setInsert d.hostBad ((host + (lo - a) + i) / 4 * 4) }) d) d

/-- n bytes move from host memory to a DPA. -/
def moveIn (d : Device) (host a n : Nat) : Device × List (Nat × MemRes) := d.writeRange a (d.rdHost host n) false

/-- n bytes move from a DPA to host memory. -/
def moveOut (d : Device) (host a n : Nat) : Device × List (Nat × MemRes) :=
  let (d, bs, bad) := d.readRange a n false
  ((d.wrHost host bs).poisonHost host a n bad, bad)

/-- n bytes move from a DPA into a tack store, except the words of failed units; each gets its parity. -/
def moveTack (d : Device) (a : Nat) (st : StallId) (off n : Nat) : Device × List (Nat × MemRes) :=
  let (d, bs, bad) := d.readRange a n false
  let keep (i : Nat) : Bool := !(bad.any fun u => u.1 == unitOf (a + i))
  let d := (bs.zipIdx.filter fun x => keep x.2).foldl (fun d x =>
    let d := d.wrTackByte st (off + x.2) x.1
    { d with tackBad := setErase d.tackBad (tackKey st (off + x.2) / 4 * 4) }) d
  (d, bad)

/-- The first n bytes of a data command move. -/
def dmaMove (d : Device) (c : HostCmd) (n : Nat) : Device × List (Nat × MemRes) :=
  let w := cmdWord c.words
  let (d, bad) :=
    match c.op.toNat with
    | 0x10 => d.moveIn (w 1).toNat (field (w 2) 0 48) n
    | 0x11 => d.moveOut (w 1).toNat (field (w 2) 0 48) n
    | _ => d.moveTack (field (w 1) 0 48) (Fin.ofNat 384 (field (w 2) 0 9)) (field (w 2) 16 16) n
  (d.dmaMoved n, bad)

/-- DPA of the device side of a data command. -/
def dmaDpa (c : HostCmd) : Nat := field (cmdWord c.words (if c.op = 0x20 then 1 else 2)) 0 48

/-- Acceptance of a data command: the checks, then a free engine. A command that names an unmapped byte counts once as
reclaimed (R35); R548 names no tally of host commands, so that the record shows tally 0 (DEDUCED, log 95). -/
def startDma (d : Device) (q : QueueId) (w : List W64) (dpa : Nat) (load : Bool) : Device :=
  let n := (cmdWord w 3).toNat
  if n % 4 ≠ 0 ∨ n = 0 ∨ 2 ^ 32 < n then d.endNow q w Status.txnInvalid 0
  else if !d.mapped dpa n then
    (d.reclaim 3 Status.addressUnmapped (Page.hostq q) 0 1).endNow q w Status.addressUnmapped 0
  else
    match d.freeEngine with
    | some e => d.startWait q w (if load then .loadDma e else .dma e)
    | none => d

/-- A stall with either slot running. -/
def stallRuns (d : Device) (st : StallId) : Bool := (d.ctx st .primary).running || (d.ctx st .paddock).running

/-- STALL_LOAD. -/
def stallLoad (d : Device) (q : QueueId) (w : List W64) : Device :=
  let st := field (cmdWord w 2) 0 9
  let off := field (cmdWord w 2) 16 16
  if 384 ≤ st ∨ off % 4 ≠ 0 ∨ 65536 < off + (cmdWord w 3).toNat then d.endNow q w Status.txnInvalid 0
  else if d.stallRuns (Fin.ofNat 384 st) then d.endNow q w Status.stateInvalid 0
  else d.startDma q w (field (cmdWord w 1) 0 48) true

/-- The commit point of a data command. Host DMA has no booking, and STALL_LOAD runs on it (R77, R480). -/
def finishDma (d : Device) (q : QueueId) (c : HostCmd) : Device :=
  let self (h : HostCmd) : Bool := h == c
  let n := (cmdWord c.words 3).toNat
  if c.op = 0x20 ∧ d.stallRuns (Fin.ofNat 384 (field (cmdWord c.words 2) 0 9)) then d.finishCmd q self Status.stateInvalid 0
  else
    let (d, bad) := d.dmaMove c n
    d.finishCmd q self ((failCode bad).getD Status.unbookedDone) (BitVec.ofNat 64 (n - lostBytes (dmaDpa c) n bad))

/-- The started command that runs on an engine. -/
def onEngine (d : Device) (e : Fin 4) : Option (QueueId × HostCmd) :=
  (finList 16).findSome? fun (q : QueueId) =>
    (d.queues[q].started.find? fun c => c.wait = .dma e || c.wait = .loadDma e).map fun c => (q, c)

/-! ### Stalls -/

/-- STALL_START. -/
def stallStart (d : Device) (q : QueueId) (w : List W64) : Device :=
  let x := cmdWord w 1
  let st : StallId := Fin.ofNat 384 (field x 0 9)
  let sl : Slot := if flag x 9 then .paddock else .primary
  if 384 ≤ field x 0 9 ∨ field x 16 2 ≠ 0 then d.endNow q w Status.txnInvalid 0
  else if (d.ctx st sl).running ∨ (sl = .paddock ∧ !d.paddockEn st) then d.endNow q w Status.stateInvalid 0
  else
    let here := decide ((d.stall st).slot = sl)
    (d.modCtx st sl fun c =>
      { c with
        running := true
        pc := BitVec.ofNat 16 (field x 16 16)
        hold := none
        resumeAt := none
        yielded := false
        ran := here }).endNow q w Status.done (d.now.setWidth 64)

/-- STALL_HALT. -/
def stallHalt (d : Device) (q : QueueId) (w : List W64) : Device :=
  let x := cmdWord w 1
  let st : StallId := Fin.ofNat 384 (field x 0 9)
  let sl : Slot := if flag x 9 then .paddock else .primary
  if 384 ≤ field x 0 9 then d.endNow q w Status.txnInvalid 0
  else if !(d.ctx st sl).running then d.endNow q w Status.stateInvalid 0
  else (d.haltSlot st sl 4 0).endNow q w Status.done (d.now.setWidth 64)

/-! ### Teams and templates -/

/-- TEAM_CREATE: it waits while gate firmware's earlier transaction is OPEN or PENDING, or others wait for it. -/
def teamCreate (d : Device) (q : QueueId) (w : List W64) : Device :=
  if 2 ≤ field (cmdWord w 2) 6 2 then d.endNow q w Status.txnInvalid 0
  else
    let n := d.commits
    let (t, y, dpa, act) := createArgs w
    let now (d : Device) : Device := (d.startWait q w (.teamAt y t)).createTeam y t dpa act (some (q, cidOf w))
    if act ≤ d.now then now d
    else if (d.teamBookings y dpa).2 = [] then now (d.teamBookings y dpa).1
    else (({ d with commits := n + 1 }).startWait q w (.fwTxn n)).resume

/-- TEAM_DESTROY. -/
def teamDestroy (d : Device) (q : QueueId) (w : List W64) : Device :=
  let x := cmdWord w 2
  if 2 ≤ field x 6 2 then d.endNow q w Status.txnInvalid 0
  else
    let t : Fin 64 := Fin.ofNat 64 (field x 0 6)
    let y : Yard := Fin.ofNat 2 (field x 6 2)
    (d.startWait q w (.teamAt y t)).destroyTeam y t (BitVec.ofNat 48 (field (cmdWord w 3) 0 48)) (some (q, cidOf w))

def tplLoad (d : Device) (q : QueueId) (w : List W64) : Device :=
  let x := cmdWord w 2
  let t : Fin 16 := Fin.ofNat 16 (field x 0 4)
  let y : Yard := Fin.ofNat 2 (field x 4 1)
  (d.startWait q w (.template y t)).loadTemplate y t (field (cmdWord w 1) 0 48) (some (q, cidOf w))

def tplUnload (d : Device) (q : QueueId) (w : List W64) : Device :=
  let x := cmdWord w 2
  let t : Fin 16 := Fin.ofNat 16 (field x 0 4)
  let y : Yard := Fin.ofNat 2 (field x 4 1)
  (d.startWait q w (.template y t)).unloadTemplate y t (some (q, cidOf w))

/-! ### Settings -/

/-- SET_FILL_LIMIT (R419). -/
def setFillLimit (d : Device) (q : QueueId) (w : List W64) : Device :=
  let n : BitVec 8 := BitVec.ofNat 8 (field (cmdWord w 1) 0 8)
  if n = 0 then d.endNow q w Status.txnInvalid 0
  else ({ d with boot := { d.boot with fillLimit := n } }).endNow q w Status.done 0

/-- A measurement register is extended by a digest (R530). -/
def extend (d : Device) (i : Nat) (digest : List Byte) : Device :=
  let old := vget d.trust.mr i 0
  { d with trust := { d.trust with mr := vset d.trust.mr i (Trust.digest (Trust.keyBytes old ++ digest)) } }

/-- SET_ALLOWLIST: the list of R467 is replaced and measured. -/
def setAllowlist (d : Device) (q : QueueId) (w : List W64) : Device :=
  let n := field (cmdWord w 2) 0 11
  if 1024 < n then d.endNow q w Status.txnInvalid 0
  else
    let bs := d.rdHost (cmdWord w 1).toNat (32 * n)
    let keys := (List.range n).map fun k => (BitVec.ofNat 256 (leNat ((bs.drop (32 * k)).take 32)) : BitVec 256)
    (({ d with boot := { d.boot with allow := keys } }).extend 3 (Sha.sha256 bs)).endNow q w Status.done 0

/-! ### Attestation (R527, R531) -/

/-- Bytes 0x000 to 0x1FF of a report with a nonce. -/
def reportBytes (d : Device) (nonce : List Byte) : List Byte :=
  let t := d.trust
  let revoked := (List.range 4).foldl (fun n k => n + bitAt (t.revoked k) (2 + k)) 0
  let policy := b2n t.scanLock + bitAt t.identReq 1 + revoked + d.boot.keySlot.toNat * 64
  leBytes 4 0x5454_415A ++ leBytes 2 0x0100 ++ leBytes 2 17600 ++ leBytes 8 t.deviceId.toNat ++ padTo 32 nonce
    ++ Trust.keyBytes t.idkPub ++ leBytes 8 d.now.toNat ++ leBytes 8 d.ctr.uptime.toNat ++ leBytes 4 d.boot.fwVersion.toNat
    ++ [d.boot.svn, BitVec.ofNat 8 t.rollback, BitVec.ofNat 8 t.debugLevel, BitVec.ofNat 8 policy]
    ++ leBytes 2 d.boot.zhiVer.toNat ++ leBytes 2 (b2n t.tokenActive) ++ leBytes 4 0 ++ leBytes 8 d.serviceMask ++ leBytes 8 0
    ++ (t.mr.toList.flatMap Trust.keyBytes) ++ List.replicate 128 0

/-- The words of a queued report, by its queue and CID. -/
def reportWords (d : Device) (q : QueueId) (cid : BitVec 16) : Option (List W64) :=
  (d.queues[q].started.find? fun c => c.cid = cid && c.wait = .signing).map HostCmd.words

def isLink : SignJob → Bool
  | .link _ _ => true
  | .report _ _ => false

/-- Signing of the first report begins when nothing else is signed and no link challenge waits: the registers are
captured. -/
def beginSigning (d : Device) : Device :=
  if d.trust.capture.isSome || d.trust.jobs.any isLink then d
  else
    match d.trust.jobs with
    | .report q cid :: _ =>
      let nonce := ((d.reportWords q cid).getD []).drop 3 |>.take 4 |>.flatMap fun x => leBytes 8 x.toNat
      { d with trust := { d.trust with capture := some (d.reportBytes nonce) } }
    | _ => d

/-- ATTEST REPORT. -/
def attestReport (d : Device) (q : QueueId) (w : List W64) : Device :=
  if !d.trust.idkValid then d.endNow q w Status.identityUnavailable 0
  else
    let d := d.startWait q w .signing
    ({ d with trust := { d.trust with
        jobs := d.trust.jobs ++ [SignJob.report q (BitVec.ofNat 16 (field (cmdWord w 0) 16 16))] } }).beginSigning

/-- ATTEST EXTEND. -/
def attestExtend (d : Device) (q : QueueId) (w : List W64) : Device :=
  let digest := ((w.drop 3).take 4).flatMap fun x => leBytes 8 x.toNat
  (d.extend (field (cmdWord w 1) 8 3) digest).endNow q w Status.done 0

/-- A signed report is written and its command completes. -/
def writeReport (d : Device) (q : QueueId) (cid : BitVec 16) (body : List Byte) : Device :=
  let a := ((d.reportWords q cid).map fun w => (cmdWord w 2).toNat).getD 0
  (d.wrHost a (body ++ d.trust.sign reportContext body)).finishCmd q (fun c => c.cid = cid && c.wait = .signing) Status.done 17600

/-- The answer to a challenge goes out in 72 parts of 240 B: the public key, then the signature (R359). -/
def sendSignature (d : Device) (p : PortId) (nonce : BitVec 256) : Device :=
  match d.ports[p].partner with
  | none => d
  | some h =>
    let message := linkMessage nonce d.trust.deviceId h.deviceId (BitVec.ofNat 3 p) h.port d.ports[p]
    let bytes := Trust.keyBytes d.trust.idkPub ++ d.trust.sign linkContext message
    if d.ports[p].talking then
      ((List.range 72).zip (chunksOf 240 72 bytes)).foldl (fun d x => d.controlFlit p 0x05 (padTo 240 x.2)) d
    else d

/-- The root of trust finishes the message that it signs. -/
def signed (d : Device) : Device :=
  let isReport (j : SignJob) : Bool := !isLink j
  let d :=
    match d.trust.capture with
    | some body =>
      match (d.trust.jobs.find? isReport : Option SignJob) with
      | some (.report q cid) =>
        ({ d with trust := { d.trust with capture := none, jobs := eraseFirst isReport d.trust.jobs } }).writeReport q cid body
      | _ => { d with trust := { d.trust with capture := none } }
    | none =>
      match d.trust.jobs.find? isLink with
      | some (.link p nonce) =>
        ({ d with trust := { d.trust with jobs := eraseFirst isLink d.trust.jobs } }).sendSignature p nonce
      | _ => d
  d.beginSigning

/-! ### ABORT (R481) -/

/-- The command that an ABORT stops is undone as far as it has not gone. -/
def stopCmd (d : Device) (q : QueueId) (c : HostCmd) (moved : Nat) : Device :=
  match c.wait with
  | .fwTxn _ | .abort => d
  | .dma _ | .loadDma _ => (d.dmaMove c (min moved (cmdWord c.words 3).toNat)).1
  | .teamAt y t =>
    if c.op = 0x30 then
      let act := (createArgs c.words).2.2.2
      let d := ((d.team y t).creates.filter fun x => x.who = some (q, c.cid)).foldl (fun d x => d.dropCreate y t x) d
      if d.banks[1].state = .pending && d.banks[1].target = act then (d.rollbackTxn 1 d.banks[1].id).resume else d
    else d.modTeam y t fun m => { m with destroys := m.destroys.filter fun f => f.2 ≠ some (q, c.cid) }
  | .template y t => d.modForge y fun f => { f with loading := f.loading.filter fun x => x.who ≠ some (q, c.cid) }
  | .signing =>
    let mine (j : SignJob) : Bool := match j with
      | .report a b => a = q && b = c.cid
      | .link _ _ => false
    let head := match d.trust.jobs.find? (fun j => !isLink j) with
      | some j => mine j
      | none => false
    { d with trust := { d.trust with
        jobs := eraseFirst mine d.trust.jobs
        capture := if head then none else d.trust.capture } }.beginSigning

/-- A data command of which moved bytes have gone has reached its commit point. -/
def committed (c : HostCmd) (moved : Nat) : Bool :=
  match c.wait with
  | .dma _ | .loadDma _ => decide ((cmdWord c.words 3).toNat ≤ moved)
  | _ => false

/-- ABORT of a CID in a queue; moved is how far a data command has gone. The commit point wins (R485). -/
def abortCmd (d : Device) (q : QueueId) (w : List W64) (moved : Nat) : Device :=
  let x := cmdWord w 1
  let t : QueueId := Fin.ofNat 16 (field x 0 4)
  let late (d : Device) : Device := d.endNow q w Status.done (Status.abortTooLate.setWidth 64)
  match d.queues[t].started.find? fun c => c.cid.toNat = field x 16 16 with
  | none =>
    match d.submitted t (field x 16 16) with
    | none => late d
    | some pos => (d.abortSubmitted t pos 0).endNow q w Status.done (Status.aborted.setWidth 64)
  | some c =>
    if committed c moved then late (d.finishDma t c) else
    let n := match c.wait with
      | .dma _ | .loadDma _ => min moved (cmdWord c.words 3).toNat
      | _ => 0
    ((d.finishCmd t (fun h => h == c) Status.aborted (BitVec.ofNat 64 n)).stopCmd t c moved).endNow q w Status.done
      (Status.aborted.setWidth 64)

/-- The next ABORT of a queue acts: the one that the queue may start, or else one that its disabling found outstanding
(R485). -/
def nextAbort (d : Device) (q : QueueId) (moved : Nat) : Device :=
  if (d.nextCommand q).any fun w => isOp 0x03 w || !cmdLegal w then
    d.startCmd q (isOp 0x03) fun d w => d.abortCmd q w moved
  else
    match d.queues[q].started.find? fun c => c.wait = .abort with
    | some c =>
      if d.fwServes then (d.modQueue q fun h => { h with started := eraseFirst (fun x => x == c) h.started }).abortCmd q c.words moved
      else d
    | none => d

end Device

/-! ### The commands -/

/-- A write of HQ_CTL with EN := 1. -/
def execQueueEnable (_who : Requester) (q : QueueId) (v : W32) (s : State) : Host.Outcome State Fault Refusal :=
  .next (s.onDev fun d => if d.served then d.hqCtl q (setBit v 31) else d)

/-- A write of HQ_CTL with EN := 0 to an enabled queue. -/
def execQueueDisable (_who : Requester) (q : QueueId) (s : State) : Host.Outcome State Fault Refusal :=
  .next (s.onDev fun d => if d.served && d.queues[q].en then d.hqCtl q 0 else d)

def execQueueDrained (q : QueueId) (s : State) : Host.Outcome State Fault Refusal :=
  .next (s.onDev fun d => d.drained q)

/-- The host writes commands to its memory and then the SQ_TAIL doorbell (R475, R477). -/
def execSqTail (q : QueueId) (tail : BitVec 12) (written : List Host.Cell) (s : State) : Host.Outcome State Fault Refusal :=
  .next (s.onDev fun d =>
    let d := written.foldl (fun (d : Device) c => d.wrHost c.1 [c.2]) d
    if d.served then d.sqDoorbell q tail.toNat else d)

def execCqHead (q : QueueId) (head : BitVec 12) (s : State) : Host.Outcome State Fault Refusal :=
  .next (s.onDev fun d => if d.served then d.cqDoorbell q head.toNat else d)

def execNop (q : QueueId) (s : State) : Host.Outcome State Fault Refusal :=
  .next (s.onDev fun d => d.startCmd q (Device.isOp 0x00) fun d w => d.endNow q w Status.done 0)

def execIdentify (q : QueueId) (s : State) : Host.Outcome State Fault Refusal :=
  .next (s.onDev fun d => d.startCmd q (Device.isOp 0x01) fun d w =>
    (d.wrHost (Device.cmdWord w 1).toNat d.identifyPage).endNow q w Status.done 0)

def execLogRead (q : QueueId) (s : State) : Host.Outcome State Fault Refusal :=
  .next (s.onDev fun d => d.startCmd q (Device.isOp 0x02) fun d w => d.logRead q w)

def execAbort (q : QueueId) (moved : Nat) (s : State) : Host.Outcome State Fault Refusal :=
  .next (s.onDev fun d => d.nextAbort q moved)

def execDmaH2d (q : QueueId) (s : State) : Host.Outcome State Fault Refusal :=
  .next (s.onDev fun d => if d.freeEngine.isNone then d else
    d.startCmd q (Device.isOp 0x10) fun d w => d.startDma q w (field (Device.cmdWord w 2) 0 48) false)

def execDmaD2h (q : QueueId) (s : State) : Host.Outcome State Fault Refusal :=
  .next (s.onDev fun d => if d.freeEngine.isNone then d else
    d.startCmd q (Device.isOp 0x11) fun d w => d.startDma q w (field (Device.cmdWord w 2) 0 48) false)

/-- A DMA engine has written the last byte of its command. -/
def execDmaComplete (engine : Fin 4) (s : State) : Host.Outcome State Fault Refusal :=
  .next (s.onDev fun d =>
    match d.onEngine engine with
    | some (q, c) => d.finishDma q c
    | none => d)

def execStallLoad (q : QueueId) (s : State) : Host.Outcome State Fault Refusal :=
  .next (s.onDev fun d => if d.freeEngine.isNone then d else
    d.startCmd q (Device.isOp 0x20) fun d w => d.stallLoad q w)

def execStallStart (q : QueueId) (s : State) : Host.Outcome State Fault Refusal :=
  .next (s.onDev fun d => d.startCmd q (Device.isOp 0x21) fun d w => d.stallStart q w)

def execStallHalt (q : QueueId) (s : State) : Host.Outcome State Fault Refusal :=
  .next (s.onDev fun d => d.startCmd q (Device.isOp 0x22) fun d w => d.stallHalt q w)

def execTeamCreate (q : QueueId) (s : State) : Host.Outcome State Fault Refusal :=
  .next (s.onDev fun d => d.startCmd q (Device.isOp 0x30) fun d w => d.teamCreate q w)

def execTeamDestroy (q : QueueId) (s : State) : Host.Outcome State Fault Refusal :=
  .next (s.onDev fun d => d.startCmd q (Device.isOp 0x31) fun d w => d.teamDestroy q w)

def execTplLoad (q : QueueId) (s : State) : Host.Outcome State Fault Refusal :=
  .next (s.onDev fun d => d.startCmd q (Device.isOp 0x38) fun d w => d.tplLoad q w)

def execTplUnload (q : QueueId) (s : State) : Host.Outcome State Fault Refusal :=
  .next (s.onDev fun d => d.startCmd q (Device.isOp 0x39) fun d w => d.tplUnload q w)

def execSetFillLimit (q : QueueId) (s : State) : Host.Outcome State Fault Refusal :=
  .next (s.onDev fun d => d.startCmd q (Device.isOp 0x40) fun d w => d.setFillLimit q w)

def execSetAllowlist (q : QueueId) (s : State) : Host.Outcome State Fault Refusal :=
  .next (s.onDev fun d => d.startCmd q (Device.isOp 0x41) fun d w => d.setAllowlist q w)

def execAttestReport (q : QueueId) (s : State) : Host.Outcome State Fault Refusal :=
  .next (s.onDev fun d =>
    d.startCmd q (fun w => Device.isOp 0x48 w && field (Device.cmdWord w 1) 0 8 = 0) fun d w => d.attestReport q w)

def execAttestExtend (q : QueueId) (s : State) : Host.Outcome State Fault Refusal :=
  .next (s.onDev fun d =>
    d.startCmd q (fun w => Device.isOp 0x48 w && field (Device.cmdWord w 1) 0 8 = 1) fun d w => d.attestExtend q w)

def execSigningDone (s : State) : Host.Outcome State Fault Refusal :=
  .next (s.onDev fun d => d.signed)

end Sys2Proof.Machine
end

