-- ==== Sys2Proof/Machine/Gate.lean ====
section
/-! DEFINITION. The gate of a manger: its refusals (R198), one drained or widened row (R199 to R207), and the
format ledger and FMTSEL (R277 to R285). -/

namespace Sys2Proof.Machine.Gate

/-- What a drain descriptor says to the gate, with the columns' scales and biases. -/
structure Cfg where
  widen : Bool
  inFmt : Nat
  outFmt : Nat
  noclip : Bool
  lo : FVal
  hi : FVal
  esc : FVal
  modeF : Bool
deriving DecidableEq, Repr

/-- A row as the gate writes it. -/
structure Row where
  elems : List Byte
  scales : List Byte
  side : List Byte
  mask : Nat
  sat : Nat
  esc : Nat
  overrun : Bool
  invalid : Bool
  /-- the values after the clip -/
  ys : List FVal
deriving DecidableEq, Repr

def isZero : FVal → Bool
  | .num _ m _ => m = 0
  | _ => false

/-- An ESC_THR below 0. A zero of either sign, a subnormal read as one among them, is none: the manual refuses a
"negative" threshold and does not say that −0 is one (DEDUCED, log 37). -/
def negative : FVal → Bool
  | .num n m _ => n && m ≠ 0
  | .inf n => n
  | .nan => false

/-- The pairs of the table of R198. -/
def pairOk (c : Cfg) : Bool :=
  if c.widen then decide (2 ≤ c.inFmt) && decide (c.inFmt ≤ 13) && (c.outFmt = 0 || c.outFmt = 2)
  else if c.inFmt = 1 then decide (c.outFmt ≤ 1)
  else c.inFmt = 0 && c.outFmt ≠ 1 && decide (c.outFmt ≤ 13)

/-- R198: the gate refuses the drain. -/
def refused (c : Cfg) : Bool :=
  !pairOk c || c.esc.isNan || negative c.esc
    || (!c.noclip && (c.lo.isNan || c.hi.isNan || decide (0 < cmpVal c.lo c.hi)))

/-- Steps 1 to 3 of R199 and R206 on one element: the clipped value and its mask bit. With NOCLIP no value is clipped, and
the mask word that a drain may still write is 0: the manual does not say what m is then (DESIGN CHOICE, log 37). -/
def front (c : Cfg) (v scale bias : FVal) : FVal × Bool :=
  let f := if !c.widen ∧ c.outFmt = 1 then FFmt.fp64 else FFmt.fp32
  let y := f.decode (f.roundVal true (FFmt.fmaVal v scale bias).1).1
  if c.noclip || y.isNan then (y, false)
  else if cmpVal y c.lo < 0 then (c.lo, true)
  else if 0 < cmpVal y c.hi then (c.hi, true)
  else (y, false)

/-- The magnitude of a finite value. -/
def mag : FVal → FVal
  | .num _ m e => .num false m e
  | .inf _ => .inf false
  | .nan => .nan

/-- Infinities as the largest finite FP32 value of their sign, with what was replaced (R202). -/
def finite : FVal → FVal × Bool
  | .inf n => (.num n (2 ^ 24 - 1) 104, true)
  | v => (v, false)

/-- The constants emax(f) of R202. -/
def emax (f : Nat) : Int :=
  if f = 9 then 4 else if f = 7 then 8 else if f = 8 then 15 else if f = 12 then 0 else 2

/-- The exponent of the scale over finite values (R202). -/
def scaleExp (f : Nat) (ys : List FVal) : Int :=
  let tops := ys.filterMap fun v => match v with
    | .num _ m e => if m = 0 then none else some (topExp m e)
    | _ => none
  match tops with
  | [] => 0
  | t :: ts => max (ts.foldl max t - emax f) (-127)

/-- A value divided by 2^x. -/
def down (x : Int) : FVal → FVal
  | .num n m e => .num n m (e - x)
  | v => v

/-- A written block: codes, scale code, side list, saturations, escapes, overrun, invalid. -/
structure Out where
  codes : List Nat
  scale : Nat
  side : List Nat
  sat : Nat
  esc : Nat
  overrun : Bool
  invalid : Bool
deriving DecidableEq, Repr

/-- The 32 values of one block to a block format (R202 to R205). -/
def blockOut (c : Cfg) (ys : List FVal) : Out :=
  let f := c.outFmt
  if ys.any FVal.isNan then
    { codes := List.replicate 32 0, scale := 0xFF, side := List.replicate 4 0, sat := 0, esc := 0
      overrun := false, invalid := true }
  else
    let noEsc := f ≠ 13 ∨ decide (0 ≤ cmpVal c.esc (.num false (2 ^ 24 - 1) 104))
    let cand := fun v => decide ¬ noEsc && decide (0 < cmpVal (mag v) c.esc)
    let x := scaleExp f ((ys.filter fun v => !cand v).map fun v => (finite v).1)
    let r := ys.foldl (fun (a : Out) v =>
      if cand v ∧ a.side.length < 4 then
        let w := Tile.roundFp FFmt.bf16 c.modeF v
        { a with codes := 8 :: a.codes, side := a.side ++ [w.1], sat := a.sat + b2n w.2, esc := a.esc + 1 }
      else
        let (v', rep) := finite v
        let w := Tile.narrow f c.modeF (down x v')
        { a with codes := w.1 :: a.codes, sat := a.sat + b2n (rep || w.2), overrun := a.overrun || cand v })
      { codes := [], scale := (x + 127).toNat, side := [], sat := 0, esc := 0, overrun := false, invalid := false }
    { r with codes := r.codes.reverse, side := r.side ++ List.replicate (4 - r.side.length) 0 }

/-- The 64 clipped values of a row in the output format. -/
def rowOut (c : Cfg) (ys : List FVal) (mask : Nat) : Row :=
  let f := c.outFmt
  if Tile.block f then
    let bs := (chunksOf 32 2 ys).map (blockOut c)
    { elems := bs.flatMap fun b => Tile.bytesOf (Tile.bits f) b.codes
      scales := bs.map fun b => BitVec.ofNat 8 b.scale
      side := if f = 13 then bs.flatMap fun b => Tile.bytesOf 16 b.side else []
      mask := mask, sat := (bs.map Out.sat).sum, esc := (bs.map Out.esc).sum
      overrun := bs.any Out.overrun, invalid := bs.any Out.invalid, ys := ys }
  else
    let ws := ys.map fun v => if v.isNan then ((Tile.elem f).nan, false) else Tile.narrow f c.modeF v
    { elems := Tile.bytesOf (Tile.bits f) (ws.map Prod.fst), scales := [], side := [], mask := mask
      sat := (ws.map fun w => b2n w.2).sum, esc := 0, overrun := false, invalid := ys.any FVal.isNan, ys := ys }

/-- A row of 64 values through the gate. -/
def row (c : Cfg) (vals scale bias : List FVal) : Row :=
  let rs := (List.zip vals (List.zip scale bias)).map fun p => front c p.1 p.2.1 p.2.2
  rowOut c (rs.map Prod.fst) (rs.foldr (fun r n => b2n r.2 + 2 * n) 0)

/-! ### The format ledger -/

/-- floor(log2 |y|) clamped as R278 counts it; nothing for a NaN, and none inside for a zero. -/
def expOf : FVal → Option (Option Int)
  | .nan => none
  | .inf _ => some (some 127)
  | .num _ m e => if m = 0 then some none else some (some (max (-127) (min 127 (topExp m e))))

/-- The bin of a value (R278). -/
def bin (ebase : Int) : Option Int → Nat
  | none => 0
  | some e => if e < ebase + 4 then 1 else if ebase + 56 ≤ e then 15 else ((e - ebase) / 4).toNat + 1

/-- Counts of the clipped values per bin, added to counts. -/
def histOf (ebase : Int) (hist : List Nat) (ys : List FVal) : List Nat :=
  ys.foldl (fun h y => match expOf y with
    | none => h
    | some e => let k := bin ebase e; h.set k ((h[k]?).getD 0 + 1)) hist

/-- The largest exponent of the nonzero finite values, −128 for none. -/
def emaxOf (m : Int) (ys : List FVal) : Int :=
  ys.foldl (fun a y => match y with
    | .num _ _ _ => match expOf y with
      | some (some e) => max a e
      | _ => a
    | _ => a) m

/-- Little-endian fields of a ledger of 64 bytes. -/
def get (l : List Byte) (off n : Nat) : Nat := leNat ((l.drop off).take n)
def put (l : List Byte) (off n v : Nat) : List Byte := l.take off ++ leBytes n v ++ l.drop (off + n)
def getS (l : List Byte) (off : Nat) : Int := intOfNat 8 (get l off 1)
def putS (l : List Byte) (off : Nat) (v : Int) : List Byte := put l off 1 (natOfInt 8 v)

/-- A count added to a field that saturates. -/
def addSat (l : List Byte) (off n v : Nat) : List Byte := put l off n (min (get l off n + v) (2 ^ (8 * n) - 1))

/-- A drain's statistics go into the ledger (R279, R281). -/
def update (l : List Byte) (hist : List Nat) (emax : Int) (sat esc ovf unf : Nat) (misfit : Bool) : List Byte :=
  let l := (List.range 16).foldl (fun l k => addSat l (2 * k) 2 ((hist[k]?).getD 0)) l
  let l := addSat (addSat (addSat (addSat l 0x20 4 sat) 0x24 4 esc) 0x28 2 ovf) 0x2A 2 unf
  let l := putS l 0x2C (max (getS l 0x2C) emax)
  if misfit then put l 0x3C 1 (get l 0x3C 1 ||| 0x40) else l

/-- clear_step of R285. -/
def clearStep (l : List Byte) : List Byte :=
  let l := List.replicate 0x2C 0 ++ l.drop 0x2C
  let l := putS l 0x2C (-128)
  put l 0x3C 1 (get l 0x3C 1 % 64)

/-- The result word of FMTSEL. -/
def result (emin emax : Int) (span : Nat) (shift : Int) (reason code : Nat) : W64 :=
  BitVec.ofNat 64 (natOfInt 8 emin * 2 ^ 32 + natOfInt 8 emax * 2 ^ 24 + min span 255 * 2 ^ 16
    + natOfInt 8 shift * 2 ^ 8 + reason * 2 ^ 4 + code)

/-- Least bin k ≥ 1 whose cumulative count from bin 1 exceeds c, at most 15. -/
def tailBin (hist : List Nat) (c : Nat) : Nat :=
  ((List.range 15).find? fun i => decide (c < ((hist.drop 1).take (i + 1)).sum)).getD 14 + 1

/-- FMTSEL on a ledger, with FMTSEL_THR[0] and [1]: the ledger and the result (R285). -/
def fmtsel (l : List Byte) (t0 t1 : W64) : List Byte × W64 :=
  let flags := get l 0x3C 1
  let pos := flags % 8 % 6
  let fill := min (flags / 8 % 8) 6
  let withPos (l : List Byte) (fill pos : Nat) : List Byte := put l 0x3C 1 (get l 0x3C 1 / 64 * 64 + fill * 8 + pos)
  if 128 ≤ flags then
    (withPos (clearStep l) fill pos, result (-128) (-128) 0 0 4 (get l 0x3D 1 % 16))
  else
    let hist := (List.range 16).map fun k => get l (2 * k) 2
    let t := (hist.drop 1).sum
    let ebase := getS l 0x2D
    let tail := max 1 (field t0 4 4)
    let (emax, emin, ebase') : Int × Int × Int :=
      if t = 0 then (-128, -128, ebase)
      else
        let emax := getS l 0x2C
        let k := tailBin hist (t / 2 ^ tail)
        (emax, min (ebase + 4 * (k - 1 : Nat)) emax, max (emax - 55) (-128))
    let l := putS (putS (putS l 0x2D ebase') (0x30 + 2 * pos) emax) (0x31 + 2 * pos) emin
    let pos := (pos + 1) % 6
    let fill := min (fill + 1) 6
    let l := put l 0x3E 2 (get l 0x3E 2 + 1)
    let l := withPos (clearStep l) fill pos
    let n := max 1 (min 6 (field t0 0 4))
    let pairs := (List.range (min n fill)).map fun i =>
      let p := (pos + 5 - i) % 6
      (getS l (0x30 + 2 * p), getS l (0x31 + 2 * p))
    match pairs.filter fun p => p.1 ≠ -128 with
    | [] => (put l 0x3D 1 2, result (-128) (-128) 0 0 3 2)
    | p :: ps =>
      let hi := ps.foldl (fun a q => max a q.1) p.1
      let lo := ps.foldl (fun a q => min a q.2) p.2
      let span := (hi - lo + 1).toNat
      let m4 := field t0 8 4
      let m5 := field t0 12 4
      let h4 := min (field t0 16 4) m4
      let h5 := min (field t0 20 4) m5
      let (code, s, reason) : Nat × Int × Nat :=
        if flag t1 0 ∧ span + m4 ≤ 15 then (4, 8 - h4 - hi, 0)
        else if flag t1 1 ∧ span + m5 ≤ 30 then (5, 15 - h5 - hi, 1)
        else (2, 0, 2)
      (put l 0x3D 1 code, result lo hi span (max (-126) (min 127 s)) reason code)

end Sys2Proof.Machine.Gate
end

