-- ==== Sys2Proof/Machine/Lane.lean ====
section
/-! DEFINITION. One lane in one cycle (R209 to R232): exact products, the range check of blocks, the alignment
window, the FP32 accumulation, and the piece products of FP32 and FP64. -/

namespace Sys2Proof.Machine.Lane

/-- A nonzero term: sign, magnitude and exponent. -/
abbrev Term := Bool × Nat × Int

def Term.top (t : Term) : Int := topExp t.2.1 t.2.2

/-- A term truncated toward zero to a multiple of 2^at, as a signed count of them. -/
def Term.trunc (at_ : Int) (t : Term) : Int :=
  let v : Nat := if at_ ≤ t.2.2 then t.2.1 <<< (t.2.2 - at_).toNat else t.2.1 >>> (at_ - t.2.2).toNat
  if t.1 then -(v : Int) else v

/-- The nonzero finite values of a list. -/
def termsOf (l : List FVal) : List Term :=
  l.filterMap fun v =>
    match v with
    | .num n m e => if m = 0 then none else some (n, m, e)
    | _ => none

/-- Leading position of the largest of some terms. -/
def topOf : List Term → Int
  | [] => 0
  | t :: ts => ts.foldl (fun l u => max l (Term.top u)) (Term.top t)

/-- The exact sum of the terms truncated to the window of win + 1 positions below and with the largest, with
its quantum (R217, R229). -/
def windowSum (win : Int) (ts : List Term) : Int × Int :=
  let at_ := topOf ts - win
  ((ts.map (Term.trunc at_)).sum, at_)

/-- R216: what an entry becomes where the products hold special values. -/
def special (entry : FVal) (prods : List FVal) : Option FVal :=
  let infs := prods.filterMap fun p => match p with
    | .inf n => some n
    | _ => none
  if entry.isNan || prods.any FVal.isNan then some .nan
  else
    match infs, entry with
    | [], .inf n => some (.inf n)
    | [], _ => none
    | n :: t, .inf m => if t.any (· != n) || m != n then some .nan else some (.inf n)
    | n :: t, _ => if t.any (· != n) then some .nan else some (.inf n)

/-- The terms of one block and its counts of SCALE_OVERFLOW and SCALE_UNDERFLOW (R215). -/
def rangeCheck (prods : List FVal) : List Term × Nat × Nat :=
  let ts := termsOf prods
  if ts.isEmpty then ([], 0, 0)
  else
    let m := topOf ts
    if 127 < m then
      let lo := ts.foldl (fun a t => min a t.2.2) m
      let s := (ts.map (Term.trunc lo)).sum
      (if s = 0 then [] else [(decide (s < 0), 2 ^ 24 - 1, 104)], 1, 0)
    else if m < -126 then ([], 0, 1)
    else (ts, 0, 0)

/-- The sum of R218: rounded once to FP32, with results below the normal range written as zero. -/
def accumulate (entry : FVal) (s at_ : Int) : Nat :=
  match FFmt.addVal entry (.num (decide (s < 0)) s.natAbs at_) with
  | (.num n m e, _) =>
    if m = 0 then 0
    else
      let c := (FFmt.fp32.round false n m e).1
      if (c >>> 23) % 256 = 0 then FFmt.fp32.zero n else c
  | (v, _) => (FFmt.fp32.roundVal false v).1

/-- A lane-cycle of a short format on an FP32 entry, with the blocks of 32 elements that the range check sees
(none: plain formats on both sides): the entry and the two scale counts. -/
def shortCycle (blocks : Nat) (feed weight : List FVal) (entry : Nat) : Nat × Nat × Nat :=
  let prods := List.zipWith (fun a b => (FFmt.mulVal a b).1) feed weight
  let v := FFmt.fp32.decodeF true entry
  match special v prods with
  | some .nan => (if v.isNan then entry else FFmt.fp32.nan, 0, 0)
  | some (.inf n) => (FFmt.fp32.infinity n, 0, 0)
  | some _ => (entry, 0, 0)
  | none =>
    let (ts, ovf, unf) :=
      if blocks = 0 then (termsOf prods, 0, 0)
      else
        (chunksOf 32 blocks prods).foldl (fun (x : List Term × Nat × Nat) c =>
          let r := rangeCheck c
          (x.1 ++ r.1, x.2.1 + r.2.1, x.2.2 + r.2.2)) ([], 0, 0)
    let (s, at_) := if ts.isEmpty then (0, 0) else windowSum 26 ts
    (accumulate v s at_, ovf, unf)

/-! ### Piece mode -/

/-- The pieces of R223 and R224. -/
inductive Piece where
  | hi
  | mid
  | lo
deriving DecidableEq, Repr

/-- A piece of a finite element with its weight, as an exact value. -/
def piece (fp64 : Bool) (p : Piece) : FVal → FVal
  | .num n m e =>
    if m = 0 then .num n 0 0
    else if fp64 then
      match p with
      | .hi => .num n (m >>> 35) (e + 35)
      | .mid => .num n ((m >>> 17) % 2 ^ 18) (e + 17)
      | .lo => .num n (m % 2 ^ 17) e
    else
      let hi := (m + 2 ^ 11) >>> 12
      match p with
      | .lo =>
        let lo : Int := (m : Int) - (hi * 2 ^ 12 : Nat)
        .num (n != decide (lo < 0)) lo.natAbs e
      | _ => .num n hi (e + 12)
  | v => v

/-- Passes of a series in run order, each as its cycles: feed piece, weight piece, element on cell 0 (R226). -/
def series (fp64 full : Bool) : List (List (Piece × Piece × Nat)) :=
  if fp64 then
    (if full then [[(.mid, .lo, 0), (.lo, .mid, 0)]] else []) ++
      [[(.hi, .lo, 0), (.lo, .hi, 0), (.mid, .mid, 0)], [(.hi, .mid, 0), (.mid, .hi, 0)], [(.hi, .hi, 0)]]
  else [[(.hi, .lo, 0), (.hi, .lo, 4), (.lo, .hi, 0), (.lo, .hi, 4)], [(.hi, .hi, 0), (.hi, .hi, 4)]]

/-- A lane-cycle on a wide entry (R229, R230). -/
def wideCycle (fp64 : Bool) (feed weight : List FVal) (entry : FVal) (c : Piece × Piece × Nat) : FVal :=
  let pairs := (List.zip feed weight).drop c.2.2 |>.take 4
  let fin (v : FVal) : Bool := match v with
    | .num _ _ _ => true
    | _ => false
  let specials := (pairs.filter fun p => !(fin p.1 && fin p.2)).map fun p => (FFmt.mulVal p.1 p.2).1
  match special entry specials with
  | some v => v
  | none =>
    let prods := (pairs.filter fun p => fin p.1 && fin p.2).map fun p =>
      (FFmt.mulVal (piece fp64 c.1 p.1) (piece fp64 c.2.1 p.2)).1
    let ts := termsOf (entry :: prods)
    if ts.isEmpty then entry
    else
      let (s, at_) := windowSum 79 ts
      if s = 0 then .num false 0 0
      else
        let m := s.natAbs
        let k := Nat.log2 m - 79
        .num (decide (s < 0)) (m >>> k) (at_ + k)

/-- A wide entry as four entries' bits (R228): significand [79:0] with its leading bit at 79, leading bit
position [92:80], sign [93], infinity [94], NaN [95]. -/
def packWide : FVal → BitVec 128
  | .nan => BitVec.ofNat 128 (2 ^ 95)
  | .inf n => BitVec.ofNat 128 (2 ^ 94 + bitAt n 93)
  | .num n m e =>
    if m = 0 then BitVec.ofNat 128 (bitAt n 93)
    else
      let k := 79 - Nat.log2 m
      BitVec.ofNat 128 (m <<< k % 2 ^ 80 + natOfInt 13 (topExp m e) * 2 ^ 80 + bitAt n 93)

def unpackWide (x : BitVec 128) : FVal :=
  if flag x 95 then .nan
  else if flag x 94 then .inf (flag x 93)
  else .num (flag x 93) (field x 0 80) (intOfNat 13 (field x 80 13) - 79)

end Sys2Proof.Machine.Lane
end

