-- ==== Sys2Proof/Machine/Manger.lean ====
section
/-! DEFINITION. The mangers of a stall: the manger queue and its commands, weight loads, passes, drains, FMTSEL
and the status records (R209 to R266, R284). -/

namespace Sys2Proof.Machine

/-! ### Descriptors -/

/-- The mangers that a sel field names, ascending: rank q is place q of the list (R241). -/
def selected (sel : BitVec 4) : List (Fin 4) := (finList 4).filter fun m => flag sel m

/-- The rank of a manger among those selected. -/
def rankOf (sel : BitVec 4) (m : Fin 4) : Nat := ((finList 4).filter fun k => k < m && flag sel k).length

def mloadFields : List (Nat × Nat × Nat) :=
  [(0, 56, 8), (0, 4, 4), (0, 3, 1), (0, 2, 1), (1, 0, 64), (2, 0, 64), (3, 0, 32), (4, 0, 64)]

def mfeedFields : List (Nat × Nat × Nat) :=
  [(0, 56, 8), (0, 48, 8), (0, 41, 7), (0, 39, 1), (0, 38, 1), (0, 37, 1), (0, 36, 1), (0, 35, 1), (0, 4, 4),
   (1, 0, 64), (2, 0, 64), (3, 0, 64)]

def mdrainFields : List (Nat × Nat × Nat) :=
  [(0, 56, 8), (0, 48, 8), (0, 41, 7), (0, 28, 8), (0, 3, 5), (0, 0, 1), (1, 0, 64), (2, 32, 32), (3, 0, 64),
   (4, 0, 64), (5, 0, 64), (6, 0, 64), (7, 0, 64)]

/-- Format and fields that the three descriptors share. -/
def tagOf (x : Vector W64 8) : Nat := dfield x 0 56 8
def fmtOf (x : Vector W64 8) : Nat := dfield x 0 4 4

/-- Blocks of a 32 B chunk or beat in a block format (R244, R247). -/
def blocksPer (f : Nat) : Nat := if Tile.bits f = 4 then 2 else 1

/-- Bytes of a stored block's elements. -/
def blockBytes (f : Nat) : Nat := 4 * Tile.bits f

/-- The regions of n blocks of a block format (R183). -/
def blockRegions (f elem scale side n : Nat) : List Region :=
  [⟨elem, n * blockBytes f, blockBytes f⟩, ⟨scale, n, 1⟩] ++ (if f = 13 then [⟨side, 8 * n, 8⟩] else [])

/-- The regions of rows of 64 elements. -/
def rowRegions (f elem scale side rows : Nat) : List Region :=
  if Tile.block f then blockRegions f elem scale side (2 * rows)
  else [⟨elem, rows * 8 * Tile.bits f, max 1 (Tile.bits f / 8)⟩]

/-- The regions that an MLOAD of n mangers reads (R244). -/
def mloadRegions (x : Vector W64 8) (n : Nat) : List Region :=
  let f := fmtOf x
  let trans := dfield x 0 3 1 = 1
  let elem := dfield x 1 0 32
  let stride := dfield x 1 32 32
  if !Tile.ok f || (trans && !Tile.transOk f) then []
  else if Tile.block f then
    blockRegions f elem (dfield x 2 0 32) (dfield x 2 32 32)
      ((n - 1) * dfield x 4 32 32 + 63 * dfield x 4 0 32 + blocksPer f)
  else
    let w := Tile.bits f / 8
    let q := (n - 1) * dfield x 3 0 32
    if trans then [⟨elem, q + (32 / w - 1) * stride + 64 * w, w⟩]
    else [⟨elem, q + 63 * stride + 32, max 1 w⟩]

/-- The regions that an MFEED reads (R247, R248). -/
def mfeedRegions (x : Vector W64 8) : List Region :=
  let f := fmtOf x
  let trans := dfield x 0 37 1 = 1
  let n := dfield x 0 48 8
  let elem := dfield x 1 0 32
  let stride := dfield x 1 32 32
  let map := if dfield x 0 35 1 = 1 then [⟨dfield x 3 32 32, 8 * ceilDiv n 64, 8⟩] else []
  map ++
    if !Tile.ok f || (trans && !Tile.transOk f) then []
    else if Tile.block f then
      blockRegions f elem (dfield x 2 0 32) (dfield x 2 32 32) ((n - 1) * dfield x 3 0 32 + blocksPer f)
    else
      let w := Tile.bits f / 8
      if trans then [⟨elem, (32 / w - 1) * stride + n * w, w⟩] else [⟨elem, (n - 1) * stride + 32, max 1 w⟩]

/-- The regions that a drain of n mangers reads, and those that it writes (R254, R255). -/
def drainReads (x : Vector W64 8) (n : Nat) : List Region :=
  (if dfield x 0 3 1 = 0 then [⟨dfield x 3 0 32, 256 * n, 4⟩] else []) ++
    (if dfield x 0 4 1 = 0 then [⟨dfield x 3 32 32, 256 * n, 4⟩] else []) ++
    (if dfield x 0 0 1 = 1 ∧ Tile.ok (dfield x 0 32 4) then
      rowRegions (dfield x 0 32 4) (dfield x 6 0 32) (dfield x 6 32 32) (dfield x 7 0 32) (n * dfield x 0 48 8)
     else [])

def drainWrites (x : Vector W64 8) (n : Nat) : List Region :=
  let g := n * dfield x 0 48 8
  (if Tile.ok (dfield x 0 28 4) then
    rowRegions (dfield x 0 28 4) (dfield x 4 0 32) (dfield x 4 32 32) (dfield x 5 0 32) g
   else []) ++
    (if dfield x 0 6 1 = 1 then [⟨dfield x 5 32 32, 8 * g, 8⟩] else []) ++
    (if dfield x 0 7 1 = 1 then [⟨dfield x 7 32 32, 64, 64⟩] else [])

def overlaps (a b : Region) : Bool := decide (a.base < b.base + b.bytes) && decide (b.base < a.base + a.bytes)

/-- Two of the regions overlap. -/
def anyOverlap : List Region → Bool
  | [] => false
  | r :: rs => rs.any (overlaps r) || anyOverlap rs

/-- An MFEED in piece mode (R226). -/
def pieceFeed (x : Vector W64 8) : Bool := decide (fmtOf x ≤ 1)

/-- A drain of wide entries, and a widening drain. -/
def wideDrain (x : Vector W64 8) : Bool := dfield x 0 0 1 = 0 && dfield x 0 32 4 = 1
def widening (x : Vector W64 8) : Bool := dfield x 0 0 1 = 1

/-- The entries 0 to 127 that ENTRY0 and a count name, in either view (R228, R248). -/
def entriesOf (wide : Bool) (e0 n : Nat) : List Nat :=
  if wide then (List.range (4 * n)).map (4 * e0 + ·) else (List.range n).map (e0 + ·)

/-- Entries that a queued or running command reads or writes. -/
def MCmd.entries (c : MCmd) : List Nat :=
  if c.op = 1 then entriesOf (pieceFeed c.desc) (dfield c.desc 0 41 7) (dfield c.desc 0 48 8)
  else if c.op = 2 ∧ ¬ widening c.desc then entriesOf (wideDrain c.desc) (dfield c.desc 0 41 7) (dfield c.desc 0 48 8)
  else []

/-- The wide entries that hold some entries. -/
def groupsOf (es : List Nat) : List Nat := (List.range 32).filter fun w => es.any fun e => e / 4 = w

namespace Device

/-- The physical lane of a manger that runs logical lane j (R259). -/
def lane (d : Device) (st : StallId) (m : Fin 4) (j : Fin 64) : Fin 66 := physLane (deadLanes d.trust st m) j

/-- The issue of MLOAD, MFEED and MDRAIN (R90, R131, R239, R240). -/
def mangerIssue (d : Device) (st : StallId) (op : Nat) (m : MFormat) (w : W32) : Device :=
  let sl := d.slotOf st
  let n := (selected m.sel).length
  if m.sel = 0 ∨ m.b ≠ 0 ∨ m.d ≠ 0 then d.illegal st w
  else if 8 ≤ (d.cur st).mq.length then d
  else
    d.withDescr st (d.sreg st m.a) fun d x =>
      let used := if op = 0 then mloadFields else if op = 1 then mfeedFields else mdrainFields
      let wide := if op = 1 then pieceFeed x else wideDrain x
      let (lo, cnt) := accShare (d.paddockEn st) sl
      let (lo, cnt) := if wide then (lo / 4, cnt / 4) else (lo, cnt)
      let rows := dfield x 0 48 8
      let e0 := dfield x 0 41 7
      let badCount :=
        if op = 0 then false
        else if op = 2 && widening x then rows = 0 || decide (128 < rows)
        else rows = 0 || decide (e0 < lo) || decide (lo + cnt < e0 + rows)
      if !reservedClear x used || badCount then d.illegal st w
      else
        let regs := if op = 0 then mloadRegions x n else if op = 1 then mfeedRegions x
          else drainReads x n ++ drainWrites x n
        d.checkRegions st regs fun d =>
          let c : MCmd := { op := op, sel := m.sel, desc := x, modeF := flag ((d.cur st).getCr 0x0D) 0, d := 0, ledger := 0 }
          (d.modCur st fun k => { k with mq := k.mq ++ [c] }).retire st 1

/-- Writes a status record to the ring of a slot and manger (R243). -/
def record16 (d : Device) (st : StallId) (sl : Slot) (m : Fin 4) (kind tag a b : Nat) (c : Code) : Device :=
  let cnt (n : Nat) : Nat := if n < 2 ^ 14 then n else (Config.recordCount n).toNat
  let r : W64 := BitVec.ofNat 64 (2 ^ 63 + kind * 2 ^ 61 + tag * 2 ^ 48 + cnt a * 2 ^ 34 + cnt b * 2 ^ 20 + c.toNat)
  d.modCtx st sl fun k =>
    let ring := vget k.rings m []
    if ring.length < 16 then { k with rings := upd k.rings m (· ++ [r]) }
    else { k with rings := upd k.rings m fun l => l.drop 1 ++ [r], lost := setBit k.lost m }

/-- The slot's manger queue may start a command: the slot runs in the stall, and no switch of it is due
(R242). -/
def mayStart (d : Device) (st : StallId) (sl : Slot) : Bool :=
  let s := d.stall st
  s.slot = sl && s.switching.isNone &&
    (match s.switchTo with
     | some (_, f) => decide (d.now < f)
     | none => true)

/-- The head of a slot's manger queue. -/
def mqHead (d : Device) (st : StallId) (sl : Slot) : Option MCmd := (d.ctx st sl).mq.head?

/-- The commands that the stall runs as slot sl sees them: its own, and of the other slot its drains and a pass in
flight; a series that was switched out between two passes runs nothing (R125, R242, R262). -/
def running (d : Device) (st : StallId) (sl : Slot) : List MRun :=
  (d.ctx st sl).mrun ++ (d.ctx st (otherSlot sl)).mrun.filter fun r => r.cmd.op = 2 || r.inPass

/-- The head of the queue starts. -/
def startHead (d : Device) (st : StallId) (sl : Slot) (r : MRun) : Device :=
  d.modCtx st sl fun k => { k with mq := k.mq.drop 1, mrun := k.mrun ++ [r] }

end Device

/-- Two commands name a manger in common. -/
def sharesManger (a b : MCmd) : Bool := a.sel &&& b.sel ≠ 0

/-- The weight half that an MLOAD or MFEED names. -/
def MCmd.halfOf (c : MCmd) : Fin 2 := Fin.ofNat 2 (if c.op = 0 then dfield c.desc 0 2 1 else dfield c.desc 0 36 1)

def freshMgr (on : Bool) : MgrRun :=
  { busy := on, ovf := 0, unf := 0, escOver := false, poisoned := false, sat := 0, esc := 0
    hist := List.replicate 16 0, emax := -128, invalid := false, out := [], code := 0 }

/-- A command as it starts: its mangers are busy. -/
def freshRun (c : MCmd) : MRun :=
  { cmd := c, passes := 0, inPass := false, slots := 0, left := 0, phase := 0, bubbles := 0, mgr := Vector.ofFn fun m => freshMgr (flag c.sel m) }

/-- The passes of an MFEED (R226). -/
def MCmd.series (c : MCmd) : List (List (Lane.Piece × Lane.Piece × Nat)) :=
  if pieceFeed c.desc then Lane.series (fmtOf c.desc = 1) (dfield c.desc 0 38 1 = 1) else [[]]

/-- A pass is refused before it changes anything (R210, R221, R245). -/
def refusedCode (c : Code) : Bool := c = Status.gateConfigInvalid || c = Status.mangerFormatInvalid

/-- Passes that the MFEED runs: one where every manger refuses it. -/
def MRun.total (r : MRun) : Nat :=
  if (selected r.cmd.sel).all fun (m : Fin 4) => refusedCode r.mgr[m].code then 1 else r.cmd.series.length

/-- The pass has issued its last beat slot, as far as the model tells: the last pass of its series runs. -/
def MRun.lastPass (r : MRun) : Bool := r.inPass && decide (r.total ≤ r.passes + 1)

namespace Device

/-! ### MLOAD (R244 to R246) -/

/-- A lane's 64 B: elements at 0, the scales at 32 and 33, the side lists at 40 and 48. -/
def laneRecord (elems scales side : List Byte) : BitVec 512 :=
  BitVec.ofNat 512 (leNat (padTo 32 elems) + leNat (padTo 8 scales) * 2 ^ 256 + leNat (padTo 16 side) * 2 ^ 320)

/-- Block k of a block format, read from its regions: elements, scale and side list, and whether all read well. -/
def readBlock (d : Device) (st : StallId) (sl : Slot) (f elem scale side k : Nat) :
    Device × List Byte × List Byte × List Byte × Bool :=
  let (d, e, ok1) := d.engRead st sl (elem + k * blockBytes f) (blockBytes f)
  let (d, s, ok2) := d.engRead st sl (scale + k) 1
  if f = 13 then
    let (d, l, ok3) := d.engRead st sl (side + 8 * k) 8
    (d, e, s, l, ok1 && ok2 && ok3)
  else (d, e, s, [], ok1 && ok2)

/-- Blocks k, k + 1, … read one after another: the concatenated parts. -/
def readBlocks (d : Device) (st : StallId) (sl : Slot) (f elem scale side : Nat) (ks : List Nat) :
    Device × List Byte × List Byte × List Byte × Bool :=
  ks.foldl (fun (x : Device × List Byte × List Byte × List Byte × Bool) k =>
    let (d, e, s, l, ok) := x.1.readBlock st sl f elem scale side k
    (d, x.2.1 ++ e, x.2.2.1 ++ s, x.2.2.2.1 ++ l, x.2.2.2.2 && ok)) (d, [], [], [], true)

/-- 32 B of a transposed plain format: element i at a + i × stride. -/
def readTrans (d : Device) (st : StallId) (sl : Slot) (f a stride : Nat) : Device × List Byte × Bool :=
  let w := Tile.bits f / 8
  (List.range (32 / w)).foldl (fun (x : Device × List Byte × Bool) i =>
    let (d, b, ok) := x.1.engRead st sl (a + i * stride) w
    (d, x.2.1 ++ b, x.2.2 && ok)) (d, [], true)

/-- The chunk of logical lane j for rank q (R244). -/
def readChunk (d : Device) (st : StallId) (sl : Slot) (x : Vector W64 8) (q j : Nat) : Device × BitVec 512 × Bool :=
  let f := fmtOf x
  let elem := dfield x 1 0 32
  let stride := dfield x 1 32 32
  if Tile.block f then
    let k := q * dfield x 4 32 32 + j * dfield x 4 0 32
    let (d, e, s, l, ok) := d.readBlocks st sl f elem (dfield x 2 0 32) (dfield x 2 32 32)
      ((List.range (blocksPer f)).map (k + ·))
    (d, laneRecord e s l, ok)
  else
    let a := elem + q * dfield x 3 0 32
    let (d, e, ok) :=
      if dfield x 0 3 1 = 1 then d.readTrans st sl f (a + j * (Tile.bits f / 8)) stride
      else d.engRead st sl (a + j * stride) 32
    (d, laneRecord e [] [], ok)

/-- An MLOAD into one manger: the half takes the chunks and its record (R246). R246 does not say whether a loft error in the
chunks of one rank poisons the halves of the others and shows in their records too: each manger has its own (DEDUCED, log 37). -/
def loadHalf (d : Device) (st : StallId) (sl : Slot) (c : MCmd) (m : Fin 4) : Device × Code :=
  let x := c.desc
  let f := fmtOf x
  if !Tile.ok f then (d, Status.gateConfigInvalid)
  else if dfield x 0 3 1 = 1 && !Tile.transOk f then (d, Status.mangerFormatInvalid)
  else
    let q := rankOf c.sel m
    let (d, ok) := (finList 64).foldl (fun (y : Device × Bool) (j : Fin 64) =>
      let (d, r, ok) := y.1.readChunk st sl x q j
      (d.modMgr st m fun g => { g with half := upd g.half c.halfOf fun h => h.set (d.lane st m j) r }, y.2 && ok)) (d, true)
    let rec_ : HalfMeta := { loaded := true, poisoned := !ok, fmt := BitVec.ofNat 4 f }
    (d.modCtx st sl fun k => { k with half := upd k.half m fun h => h.set c.halfOf rec_ },
     if ok then Status.done else Status.memEccUncorrected)

/-- MLOAD starts once every earlier pass that uses the half has ended (R242). -/
def mloadMayStart (d : Device) (st : StallId) (sl : Slot) (c : MCmd) : Bool :=
  !(d.running st sl).any fun r => r.cmd.op = 1 && sharesManger r.cmd c && r.cmd.halfOf = c.halfOf

/-! ### Passes -/

/-- An MLOAD of the slot into the half that an MFEED names is in flight on one of its mangers. -/
def loadInFlight (d : Device) (st : StallId) (sl : Slot) (c : MCmd) : Bool :=
  (d.ctx st sl).mrun.any fun r => r.cmd.op = 0 && sharesManger r.cmd c && r.cmd.halfOf = c.halfOf

/-- The half of a manger holds a completed MLOAD of the slot. -/
def halfMeta (d : Device) (st : StallId) (sl : Slot) (c : MCmd) (m : Fin 4) : HalfMeta :=
  (d.ctx st sl).half[m][c.halfOf]

/-- What ends an MFEED at once (R246). -/
def feedEndsAtOnce (d : Device) (st : StallId) (sl : Slot) (c : MCmd) : Option Code :=
  if !Tile.ok (fmtOf c.desc) then some Status.gateConfigInvalid
  else if (selected c.sel).any fun (m : Fin 4) =>
      !(d.halfMeta st sl c m).loaded &&
        !((d.ctx st sl).mrun.any fun r => r.cmd.op = 0 && flag r.cmd.sel m && r.cmd.halfOf = c.halfOf) then
    some Status.mangerFormatInvalid
  else none

/-- The start conditions of an MFEED (R242): drains have read their entries once they have started. -/
def feedMayStart (d : Device) (st : StallId) (sl : Slot) (c : MCmd) : Bool :=
  ((d.running st sl).all fun r => r.cmd.op ≠ 1 || !sharesManger r.cmd c || r.lastPass) && !d.loadInFlight st sl c

/-- The codes of a beat or chunk: a plain one of 32 B, or blocks with scales and side lists. -/
def valuesOf (f : Nat) (modeF : Bool) (elems scales side : List Byte) : List FVal × Bool :=
  if Tile.block f then
    (List.range (blocksPer f)).foldl (fun (x : List FVal × Bool) b =>
      let blk := Tile.blockOf f ((elems.drop (b * blockBytes f)).take (blockBytes f)) ((scales[b]?).getD 0)
        ((side.drop (8 * b)).take 8)
      let r := Tile.blockValues f modeF blk
      (x.1 ++ r.1, x.2 || r.2)) ([], false)
  else ((Tile.codesOf (Tile.bits f) (256 / Tile.bits f) elems).map (Tile.value f modeF), false)

/-- The weights of a lane from its record. -/
def weightsOf (f : Nat) (modeF : Bool) (r : BitVec 512) : List FVal × Bool :=
  let bs := leBytes 64 r.toNat
  valuesOf f modeF (bs.take 32) ((bs.drop 32).take 2) ((bs.drop 40).take 16)

/-- Beat b of a feed (R247): its values, whether it read well, and whether it overran a side list. -/
def readBeat (d : Device) (st : StallId) (sl : Slot) (c : MCmd) (b : Nat) : Device × List FVal × Bool × Bool :=
  let x := c.desc
  let f := fmtOf x
  let elem := dfield x 1 0 32
  let stride := dfield x 1 32 32
  if Tile.block f then
    let (d, e, s, l, ok) := d.readBlocks st sl f elem (dfield x 2 0 32) (dfield x 2 32 32)
      ((List.range (blocksPer f)).map (b * dfield x 3 0 32 + ·))
    let r := valuesOf f c.modeF e s l
    (d, r.1, ok, r.2)
  else
    let (d, e, ok) :=
      if dfield x 0 37 1 = 1 then d.readTrans st sl f (elem + b * (Tile.bits f / 8)) stride
      else d.engRead st sl (elem + b * stride) 32
    (d, (valuesOf f c.modeF e [] []).1, ok, false)

/-- The beats of a pass that take a slot, and which of them a bad row-map word makes invalid (R248). -/
def beatsOf (d : Device) (st : StallId) (sl : Slot) (c : MCmd) : Device × List (Nat × Bool) :=
  let n := dfield c.desc 0 48 8
  if dfield c.desc 0 35 1 = 0 then (d, (List.range n).map fun b => (b, true))
  else
    (List.range (ceilDiv n 64)).foldl (fun (x : Device × List (Nat × Bool)) i =>
      let (d, bs, ok) := x.1.engRead st sl (dfield c.desc 3 32 32 + 8 * i) 8
      let map := leNat bs
      (d, x.2 ++ ((List.range (min 64 (n - 64 * i))).filter fun b => !ok || map.testBit b).map fun b =>
        (64 * i + b, ok))) (d, [])

/-- The valid beats with their values, and the number of invalid ones and an overrun. -/
def feedOf (d : Device) (st : StallId) (sl : Slot) (c : MCmd) :
    Device × List (Nat × List FVal) × Nat × Nat × Bool :=
  let (d, beats) := d.beatsOf st sl c
  let r := beats.foldl (fun (x : Device × List (Nat × List FVal) × Nat × Bool) b =>
    if b.2 then
      let (d, v, ok, overran) := x.1.readBeat st sl c b.1
      if ok then (d, x.2.1 ++ [(b.1, v)], x.2.2.1, x.2.2.2 || overran) else (d, x.2.1, x.2.2.1 + 1, x.2.2.2)
    else (x.1, x.2.1, x.2.2.1 + 1, x.2.2.2)) (d, [], 0, false)
  (r.1, r.2.1, beats.length, r.2.2.1, r.2.2.2)

end Device

/-- An FP32 entry of a physical lane, and the entry replaced. -/
def entryAt (a : Vector (Vector (BitVec 128) 66) 32) (e : Nat) (j : Fin 66) : Nat :=
  field (vget (vget a (e / 4) (Vector.replicate 66 0)) j 0) (32 * (e % 4)) 32

def setEntry (a : Vector (Vector (BitVec 128) 66) 32) (e : Nat) (j : Fin 66) (v : Nat) :
    Vector (Vector (BitVec 128) 66) 32 :=
  upd a (Fin.ofNat 32 (e / 4)) fun g => upd g j fun x =>
    let lo := 32 * (e % 4)
    (x &&& ~~~(BitVec.ofNat 128 (0xFFFF_FFFF * 2 ^ lo))) ||| BitVec.ofNat 128 (v % 2 ^ 32 * 2 ^ lo)

/-- A wide entry of a physical lane, and the entry replaced. -/
def wideAt (a : Vector (Vector (BitVec 128) 66) 32) (w : Nat) (j : Fin 66) : FVal :=
  Lane.unpackWide (vget (vget a w (Vector.replicate 66 0)) j 0)

def setWide (a : Vector (Vector (BitVec 128) 66) 32) (w : Nat) (j : Fin 66) (v : FVal) :
    Vector (Vector (BitVec 128) 66) 32 :=
  upd a (Fin.ofNat 32 w) fun g => g.set j (Lane.packWide v)

/-- The clearing mark on the addressed entries (R219); a short-format pass leaves the other entries of their wide
entries unspecified (R228). -/
def clearEntries (k : Nat) (lane : Fin 64 → Fin 66) (piece : Bool) (es : List Nat) (g : Manger) : Manger :=
  let others := (groupsOf es).flatMap fun w =>
    if !piece then ((List.range 4).map (4 * w + ·)).filter fun e => !es.contains e else []
  let acc := ((finList 64).map lane).foldl (fun a j =>
    let a := es.foldl (fun a e => setEntry a e j 0) a
    others.foldl (fun a e => setEntry a e j (Config.lostEntry k j e).toNat) a) g.acc
  { g with acc := acc }

/-- One pass over the valid beats in one manger: the accumulators and the scale counts. -/
def accumulatePass (lane : Fin 64 → Fin 66) (c : MCmd) (cycles : List (Lane.Piece × Lane.Piece × Nat)) (wfmt : Nat) (half : Fin 2)
    (feed : List (Nat × List FVal)) (g : Manger) : Manger × Nat × Nat × Bool :=
  let f := fmtOf c.desc
  let e0 := dfield c.desc 0 41 7
  let blocks := if Tile.block f || Tile.block wfmt then 256 / Tile.cls f / 32 else 0
  let r := ((finList 64).map lane).foldl (fun (x : Vector (Vector (BitVec 128) 66) 32 × Nat × Nat × Bool) (j : Fin 66) =>
    let (ws, overran) := Device.weightsOf wfmt c.modeF g.half[half][j]
    let y := feed.foldl (fun (x : Vector (Vector (BitVec 128) 66) 32 × Nat × Nat) b =>
      if pieceFeed c.desc then
        let v := cycles.foldl (fun v cy => Lane.wideCycle (decide (f = 1)) b.2 ws v cy) (wideAt x.1 (e0 + b.1) j)
        (setWide x.1 (e0 + b.1) j v, x.2)
      else
        let (v, o, u) := Lane.shortCycle blocks b.2 ws (entryAt x.1 (e0 + b.1) j)
        (setEntry x.1 (e0 + b.1) j v, x.2.1 + o, x.2.2 + u)) (x.1, x.2.1, x.2.2.1)
    (y.1, y.2.1, y.2.2, x.2.2.2 || overran)) (g.acc, 0, 0, false)
  ({ g with acc := r.1 }, r.2)

namespace Device

/-- Errors of the accumulator file as a pass reads and writes entries (R263): it reads the entries it
accumulates onto, and what it writes holds no error but an injected one (R555). -/
def accErrors (d : Device) (st : StallId) (m : Fin 4) (reads writes : List Nat) : Device × Bool :=
  let g := (d.stall st).mgr[m]
  let ue := reads.any fun e => g.accBad.contains e
  let ce := (reads.filter fun e => g.accCe.contains e).length
  let d := if ce = 0 then d else d.bump (Page.stall st) (0x40C + 0x200 * m) ce
  let d := d.modMgr st m fun g =>
    { g with accBad := g.accBad.filter fun e => !(reads.contains e || writes.contains e)
             accCe := g.accCe.filter fun e => !(reads.contains e || writes.contains e) }
  let ctl := d.preg Page.tally 0x13C
  let addr := (d.preg Page.tally 0x140).toNat
  let e := addr / 2 ^ 11 % 128
  let d :=
    if d.tally.armed && !d.tally.hit && field ctl 0 4 = 2 && addr % 512 = st.val && addr / 512 % 4 = m.val && writes.contains e then
      { d with tally := { d.tally with hit := true } }.modMgr st m fun g =>
        if flag ctl 4 then { g with accBad := setInsert g.accBad e } else { g with accCe := setInsert g.accCe e }
    else d
  (d, ue)

/-- Why a manger refuses a pass (R210, R228, R245). -/
def passRefused (d : Device) (st : StallId) (sl : Slot) (c : MCmd) (m : Fin 4) : Option Code :=
  let f := fmtOf c.desc
  let h := d.halfMeta st sl c m
  let g := (d.stall st).mgr[m]
  if !Tile.ok f then some Status.gateConfigInvalid
  else if (dfield c.desc 0 37 1 = 1 && !Tile.transOk f) || Tile.cls f ≠ Tile.cls h.fmt.toNat
      || (dfield c.desc 0 39 1 = 0 && (groupsOf c.entries).any fun w => flag g.view w != pieceFeed c.desc) then
    some Status.mangerFormatInvalid
  else none

/-- A pass runs in one manger, from its feed. A pass that takes no beat slot reads no weight and no entry, so that
nothing poisons it (R251, R275). -/
def passIn (d : Device) (st : StallId) (sl : Slot) (r : MRun) (feed : List (Nat × List FVal)) (bad overran : Bool)
    (m : Fin 4) : Device × MgrRun :=
  let c := r.cmd
  let run := r.mgr[m]
  match if r.passes = 0 then d.passRefused st sl c m else if refusedCode run.code then some run.code else none with
  | some code => (d, { run with code := code })
  | none =>
    let h := d.halfMeta st sl c m
    let first := r.passes = 0
    let clear := dfield c.desc 0 39 1 = 1 && first
    let es := c.entries
    let piece := pieceFeed c.desc
    let e0 := dfield c.desc 0 41 7
    let touched := feed.flatMap fun b => entriesOf piece (e0 + b.1) 1
    let (k, d) := d.drawFree
    let lane := d.lane st m
    let g := (d.stall st).mgr[m]
    let g := if clear then clearEntries k lane piece es g else g
    let (g, o, u, wover) := accumulatePass lane c ((c.series[r.passes]?).getD []) h.fmt.toNat c.halfOf feed g
    let g := { g with view := (groupsOf es).foldl (fun v w => if piece then setBit v w else clearBit v w) g.view }
    let d := d.modMgr st m fun _ => g
    let (d, ue) := d.accErrors st m (if clear then [] else touched) (if clear then es else touched)
    (d, { run with
      ovf := run.ovf + o, unf := run.unf + u, escOver := run.escOver || overran || (wover && !feed.isEmpty)
      poisoned := bad || (h.poisoned && decide (0 < r.slots)) || ue
      code := if run.code = Status.tilePoisoned then Status.tilePoisoned else 0 })

/-- The invalid beats that a feeder issues at duty D among n beat slots, the first of which falls in cycle φ modulo
8 of its yard's counter: every cycle c with c mod 8 ≥ D up to the last of them (R252). -/
def bubblesOf (φ D n : Nat) : Nat :=
  if n ≤ D - φ then 0 else (8 - max φ D) + (ceilDiv (n - (D - φ)) D - 1) * (8 - D)

/-- The next pass of running command i begins: all of its arithmetic. -/
def runPass (d : Device) (st : StallId) (sl : Slot) (i : Nat) : Device :=
  match ((d.ctx st sl).mrun)[i]? with
  | none => d
  | some r =>
    let (d, feed, slots, invalid, overran) :=
      if !Tile.ok (fmtOf r.cmd.desc) || (dfield r.cmd.desc 0 37 1 = 1 && !Tile.transOk (fmtOf r.cmd.desc)) then
        (d, [], 0, 0, false)
      else d.feedOf st sl r.cmd
    let (k, d) := d.drawFree
    let cycles := max 1 ((r.cmd.series[r.passes]?).getD []).length
    let r := { r with
      inPass := true, slots := slots * cycles, left := slots * cycles
      phase := (Config.passPhase k).val, bubbles := invalid * cycles }
    let (d, r') := (selected r.cmd.sel).foldl (fun (x : Device × MRun) (m : Fin 4) =>
      let (d, g) := x.1.passIn st sl r feed (decide (0 < invalid)) overran m
      (d, { x.2 with mgr := x.2.mgr.set m g })) (d, r)
    d.modCtx st sl fun k => { k with mrun := k.mrun.set i r' }

/-- The code of a pass or series (R221). -/
def passCode (g : MgrRun) : Code :=
  if refusedCode g.code || g.code = Status.tilePoisoned then g.code
  else if g.escOver then Status.escapeListOverrun
  else if 0 < g.ovf then Status.scaleOverflow
  else if 0 < g.unf then Status.scaleUnderflow
  else Status.done

/-- A pass ends in one manger: the counters and the poison bits (R263, R264, R266). An entry is poisoned for it as the passes
before it have left it. -/
def passEndIn (d : Device) (st : StallId) (r : MRun) (m : Fin 4) (accErr : Bool) : Device × MgrRun :=
  let g := r.mgr[m]
  let p := Page.stall st
  let d := d.bump p (0x404 + 0x200 * m) 1
  if refusedCode g.code then (d, g)
  else
    let n := r.bubbles + bubblesOf r.phase d.yards[yardOf st].duty r.left
    let d := if n = 0 then d else d.bump p (0x408 + 0x200 * m) n
    let poisoned := g.poisoned || (accErr && decide (0 < r.slots))
    let d := if poisoned then d.bump p (0x410 + 0x200 * m) 1 else d
    let clear := dfield r.cmd.desc 0 39 1 = 1 && r.passes = 0
    let es := r.cmd.entries
    let old := !clear && decide (0 < r.slots) && es.any fun e => flag (d.stall st).mgr[m].poison e
    let d := d.modMgr st m fun a =>
      { a with poison := if poisoned then es.foldl (fun v e => setBit v e) a.poison
                         else if clear then es.foldl (fun v e => clearBit v e) a.poison else a.poison }
    (d, if poisoned || old then { g with code := Status.tilePoisoned, poisoned := false } else g)

/-- Replaces running command i, or takes it out where its last manger has ended. -/
def setRun (d : Device) (st : StallId) (sl : Slot) (i : Nat) (r : MRun) : Device :=
  d.modCtx st sl fun k =>
    { k with mrun := if (finList 4).any fun (m : Fin 4) => r.mgr[m].busy then k.mrun.set i r else k.mrun.eraseIdx i }

/-! ### Drains -/

/-- MDRAIN starts (R242): every drain of its slot has finished reading once it has started, and one that the other
slot left behind on a gate of it has ended (R262). -/
def drainMayStart (d : Device) (st : StallId) (sl : Slot) (c : MCmd) : Bool :=
  ((d.running st sl).all fun r =>
      r.cmd.op ≠ 1 || !sharesManger r.cmd c || !r.cmd.entries.any fun e => c.entries.contains e) &&
    (d.ctx st (otherSlot sl)).mrun.all fun r =>
      r.cmd.op ≠ 2 || (selected c.sel).all fun (m : Fin 4) => !r.mgr[m].busy

/-- The gate's configuration from the descriptor. -/
def gateCfg (c : MCmd) : Gate.Cfg :=
  let x := c.desc
  let f32 (n : Nat) : FVal := FFmt.fp32.decodeF true n
  { widen := widening x, inFmt := dfield x 0 32 4, outFmt := dfield x 0 28 4, noclip := dfield x 0 5 1 = 1
    lo := f32 (dfield x 1 32 32), hi := f32 (dfield x 1 0 32), esc := f32 (dfield x 2 32 32), modeF := c.modeF }

/-- The gate refuses the drain on every manger (R198, R255). R255 does not say whether a view bit of one manger refuses the
drain in the others too: it is one drain, and refused in all (DEDUCED, log 37). -/
def drainRefused (d : Device) (st : StallId) (c : MCmd) : Bool :=
  let x := c.desc
  let n := (selected c.sel).length
  let rd := drainReads x n
  let wr := drainWrites x n
  Gate.refused (gateCfg c)
    || (!widening x && (selected c.sel).any fun (m : Fin 4) =>
          (groupsOf c.entries).any fun w => flag (d.stall st).mgr[m].view w != wideDrain x)
    || rd.any (fun a => wr.any (overlaps a)) || anyOverlap wr

/-- 64 FP32 column values of a rank, from an array of the loft or all equal to one. A subnormal is flushed as it is
read, as R190 says of FP32 inputs; R199 names the flush of a and of two results only (DEDUCED, log 37). -/
def column (d : Device) (st : StallId) (sl : Slot) (use : Bool) (base q : Nat) (unit : FVal) :
    Device × List FVal × Bool :=
  if use then
    let (d, bs, ok) := d.engRead st sl (base + 256 * q) 256
    (d, (Tile.codesOf 32 64 bs).map (FFmt.fp32.decodeF true), ok)
  else (d, List.replicate 64 unit, true)

/-- Row r of rank q as the gate reads it: its values, whether it read well, and an overrun. -/
def drainRow (d : Device) (st : StallId) (sl : Slot) (c : MCmd) (m : Fin 4) (g r : Nat) :
    Device × List FVal × Bool × Bool :=
  let x := c.desc
  let e := dfield x 0 41 7 + r
  if widening x then
    let f := dfield x 0 32 4
    if Tile.block f then
      let (d, a, ok1, o1) := one d f (2 * g)
      let (d, b, ok2, o2) := one d f (2 * g + 1)
      (d, a ++ b, ok1 && ok2, o1 || o2)
    else
      let n := 8 * Tile.bits f
      let (d, bs, ok) := d.engRead st sl (dfield x 6 0 32 + g * n) n
      (d, (Tile.codesOf (Tile.bits f) 64 bs).map (Tile.value f c.modeF), ok, false)
  else
    let (d, ue) := d.accErrors st m (entriesOf (wideDrain x) e 1) []
    let a := (d.stall st).mgr[m].acc
    if ue then
      (d.modMgr st m fun q => { q with poison := (entriesOf (wideDrain x) e 1).foldl (fun v i => setBit v i) q.poison },
       [], false, false)
    else if wideDrain x then (d, (finList 64).map fun j => wideAt a e (d.lane st m j), true, false)
    else (d, (finList 64).map fun j => FFmt.fp32.decodeF true (entryAt a e (d.lane st m j)), true, false)
where
  one (d : Device) (f k : Nat) : Device × List FVal × Bool × Bool :=
    let (d, e, s, l, ok) := d.readBlock st sl f (dfield c.desc 6 0 32) (dfield c.desc 6 32 32) (dfield c.desc 7 0 32) k
    let v := Tile.blockValues f c.modeF (Tile.blockOf f e ((s[0]?).getD 0) l)
    (d, v.1, ok, v.2)

/-- What a drain has gathered row by row. -/
structure DrainAcc where
  dev : Device
  stopped : Bool
  elems : List Byte
  scales : List Byte
  side : List Byte
  masks : List Byte
  run : MgrRun

/-- A drain in one manger: it reads all of its rows and forms what it will write (R199 to R208, R254, R264). R279 does not say
when a drain takes the counts of scale overflow and underflow: here, at its start, so that a pass which ends later counts for
the next drain (DESIGN CHOICE, log 35). -/
def drainIn (d : Device) (st : StallId) (sl : Slot) (c : MCmd) (m : Fin 4) : Device × MgrRun :=
  let x := c.desc
  let q := rankOf c.sel m
  let rows := dfield x 0 48 8
  let (d, led, _) := if dfield x 0 7 1 = 1 then d.engRead st sl (dfield x 7 32 32) 64 else (d, [], true)
  let ebase := Gate.getS led 0x2D
  let poisoned := !widening x && c.entries.any fun e => flag (d.stall st).mgr[m].poison e
  let g := (d.stall st).mgr[m]
  let run := { freshMgr true with ovf := g.ovf, unf := g.unf }
  let d := d.modMgr st m fun g => { g with ovf := 0, unf := 0 }
  if poisoned then (d, { run with code := Status.tilePoisoned })
  else
    let (d, sc, ok1) := d.column st sl (dfield x 0 3 1 = 0) (dfield x 3 0 32) q (.num false 1 0)
    let (d, bi, ok2) := d.column st sl (dfield x 0 4 1 = 0) (dfield x 3 32 32) q (.num false 0 0)
    if !ok1 || !ok2 then (d, { run with code := Status.tilePoisoned })
    else
      let a := (List.range rows).foldl (fun (a : DrainAcc) r =>
        if a.stopped then a
        else
          let (d, vals, ok, overran) := a.dev.drainRow st sl c m (q * rows + r) r
          if !ok then { a with dev := d, stopped := true }
          else
            let w := Gate.row (gateCfg c) vals sc bi
            { dev := d, stopped := false, elems := a.elems ++ w.elems, scales := a.scales ++ w.scales
              side := a.side ++ w.side, masks := a.masks ++ leBytes 8 w.mask
              run := { a.run with sat := a.run.sat + w.sat, esc := a.run.esc + w.esc
                                  hist := Gate.histOf ebase a.run.hist w.ys, emax := Gate.emaxOf a.run.emax w.ys
                                  escOver := a.run.escOver || overran || w.overrun, invalid := a.run.invalid || w.invalid } })
        { dev := d, stopped := false, elems := [], scales := [], side := [], masks := [], run := run }
      let f := dfield x 0 28 4
      let g0 := q * rows
      let out :=
        [(dfield x 4 0 32 + g0 * 8 * Tile.bits f, a.elems), (dfield x 4 32 32 + 2 * g0, a.scales),
         (dfield x 5 0 32 + 16 * g0, a.side)] ++
          (if dfield x 0 6 1 = 1 then [(dfield x 5 32 32 + 8 * g0, a.masks)] else [])
      (a.dev, { a.run with out := out, code := if a.stopped then Status.tilePoisoned else 0 })

/-- A drain in one manger has written its last byte: its rows, its ledger update and its record (R208, R243,
R279, R281). -/
def drainEnd (d : Device) (st : StallId) (sl : Slot) (c : MCmd) (m : Fin 4) (g : MgrRun) : Device :=
  let d := g.out.foldl (fun d p => d.engWrite st sl p.1 p.2) d
  let led := dfield c.desc 7 32 32
  let useLed := dfield c.desc 0 7 1 = 1 && g.code ≠ Status.gateConfigInvalid
  let (d, l, _) := if useLed then d.engRead st sl led 64 else (d, [], true)
  let thr := Gate.get l 0x2E 2
  let misfit := useLed && thr ≠ 0xFFFF && decide (thr < g.sat)
  let d := if useLed then d.engModify st sl led 64 fun l => Gate.update l g.hist g.emax g.sat g.esc g.ovf g.unf misfit else d
  let code :=
    if g.code ≠ 0 then g.code
    else if misfit then Status.calibMisfit
    else if g.escOver then Status.escapeListOverrun
    else if g.invalid then Status.fpInvalid
    else Status.done
  d.record16 st sl m 3 (tagOf c.desc) g.sat g.esc code

/-- The first running command of a slot that satisfies p, with its place. -/
def findRun (d : Device) (st : StallId) (sl : Slot) (p : MRun → Bool) : Option (Nat × MRun) :=
  let l := (d.ctx st sl).mrun
  match l.findIdx? p with
  | some i => (l[i]?).map fun r => (i, r)
  | none => none

/-- The n-th pass in flight of a slot, with its place: passes through one manger end in the order in which they started (R250). -/
def passEnding (d : Device) (st : StallId) (sl : Slot) (n : Nat) : Option (Nat × MRun) :=
  let l := ((d.ctx st sl).mrun.zipIdx).filter fun p => p.1.cmd.op = 1 && p.1.inPass
  (l[n]?).bind fun p => if (l.take n).any fun q => sharesManger q.1.cmd p.1.cmd then none else some (p.2, p.1)

end Device

/-! ### The commands -/

def execMload (st : StallId) (m : MFormat) (s : State) : Host.Outcome State Fault Refusal :=
  .next (s.onDev fun d => d.issue st 1 fun d => d.mangerIssue st 0 m (Coeri.firstWord (.mload st m)))

def execMfeed (st : StallId) (m : MFormat) (s : State) : Host.Outcome State Fault Refusal :=
  .next (s.onDev fun d => d.issue st 1 fun d => d.mangerIssue st 1 m (Coeri.firstWord (.mfeed st m)))

def execMdrain (st : StallId) (m : MFormat) (s : State) : Host.Outcome State Fault Refusal :=
  .next (s.onDev fun d => d.issue st 1 fun d => d.mangerIssue st 2 m (Coeri.firstWord (.mdrain st m)))

/-- MSTAT d: the oldest record of one manger, or the count of its commands (R239, R243). -/
def execMstat (st : StallId) (m : MFormat) (s : State) : Host.Outcome State Fault Refusal :=
  .next (s.onDev fun d => d.issue st 1 fun d =>
    match selected m.sel with
    | [g] =>
      if m.a ≠ 0 ∨ m.b ≠ 0 then d.illegal st (Coeri.firstWord (.mstat st m))
      else
        let k := d.cur st
        let ring := k.rings[g]
        let n := (k.mq.filter fun c => flag c.sel g).length + (k.mrun.filter fun r => r.mgr[g].busy).length
        let v : W64 := (ring.head?).getD (BitVec.ofNat 64 (n % 256))
        ((d.modCur st fun k => { k with rings := upd k.rings g (·.drop 1), lost := clearBit k.lost g }).setSreg st m.d
          v).retire st 1
    | _ => d.illegal st (Coeri.firstWord (.mstat st m)))

/-- FMTSEL d, a: queued, and the groom holds until it completes (R284). -/
def execFmtsel (st : StallId) (m : MFormat) (s : State) : Host.Outcome State Fault Refusal :=
  .next (s.onDev fun d => d.issue st 1 fun d =>
    if m.sel ≠ 0 ∨ m.b ≠ 0 then d.illegal st (Coeri.firstWord (.fmtsel st m))
    else if 8 ≤ (d.cur st).mq.length then d
    else
      let ea := d.sreg st m.a
      d.operandCheck st ea 64 fun d =>
        let c : MCmd := { op := 4, sel := 0, desc := Vector.replicate 8 0, modeF := false, d := m.d, ledger := ea.toNat }
        d.modCur st fun k => { k with mq := k.mq ++ [c], hold := some (.fmtsel m.d) })

/-- The MLOAD at the head of a slot's queue starts (R242). -/
def execMloadStart (st : StallId) (sl : Slot) (s : State) : Host.Outcome State Fault Refusal :=
  .next (s.onDev fun d =>
    match d.mqHead st sl with
    | some c =>
      if c.op = 0 && d.mayStart st sl && d.mloadMayStart st sl c then d.startHead st sl (freshRun c) else d
    | none => d)

/-- The n-th MLOAD in flight of a resident slot completes (R243, R246). -/
def execMloadDone (st : StallId) (sl : Slot) (n : Nat) (s : State) : Host.Outcome State Fault Refusal :=
  .next (s.onDev fun d =>
    let loads := ((d.ctx st sl).mrun.zipIdx).filter fun p => p.1.cmd.op = 0
    match loads[n]? with
    | some (r, i) =>
      if (d.stall st).slot = sl ∧ (d.stall st).switching = none then
        let d := d.modCtx st sl fun k => { k with mrun := k.mrun.eraseIdx i }
        (selected r.cmd.sel).foldl (fun d m =>
          let (d, code) := d.loadHalf st sl r.cmd m
          d.record16 st sl m 1 (tagOf r.cmd.desc) 0 0 code) d
      else d
    | none => d)

/-- A pass begins: the next one of a series, or that of the MFEED at the head of the queue (R226, R242). -/
def execPassStart (st : StallId) (sl : Slot) (s : State) : Host.Outcome State Fault Refusal :=
  .next (s.onDev fun d =>
    if !d.mayStart st sl then d
    else
      match d.findRun st sl fun r => r.cmd.op = 1 && !r.inPass with
      | some (i, _) => d.runPass st sl i
      | none =>
        match d.mqHead st sl with
        | some c =>
          if c.op = 1 && (d.feedEndsAtOnce st sl c).isNone && d.feedMayStart st sl c then
            let d := d.startHead st sl (freshRun c)
            d.runPass st sl ((d.ctx st sl).mrun.length - 1)
          else d
        | none => d)

/-- The last beat slot of a pass has passed the accumulate stage (R243, R250, R263). -/
def execPassEnd (st : StallId) (sl : Slot) (e : PassEnd) (s : State) : Host.Outcome State Fault Refusal :=
  .next (s.onDev fun d =>
    match d.passEnding st sl e.pass with
    | none => d
    | some (i, r) =>
      let last := decide (r.total ≤ r.passes + 1)
      let (d, r') := (selected r.cmd.sel).foldl (fun (x : Device × MRun) (m : Fin 4) =>
        let (d, g) := x.1.passEndIn st r m (flag e.accErr m)
        let d :=
          if last then
            let d := if refusedCode g.code then d else d.modMgr st m fun a => { a with ovf := a.ovf + g.ovf, unf := a.unf + g.unf }
            d.record16 st sl m 2 (tagOf r.cmd.desc) g.ovf g.unf (Device.passCode g)
          else d
        (d, { x.2 with mgr := x.2.mgr.set m { g with busy := !last } })) (d, r)
      d.setRun st sl i { r' with passes := r.passes + 1, inPass := false })

/-- The MFEED at the head of the queue ends without waiting (R246). -/
def execMfeedImmediateEnd (st : StallId) (sl : Slot) (s : State) : Host.Outcome State Fault Refusal :=
  .next (s.onDev fun d =>
    match d.mqHead st sl with
    | none => d
    | some c =>
      match if c.op = 1 && d.mayStart st sl then d.feedEndsAtOnce st sl c else none with
      | none => d
      | some code =>
        let d := d.modCtx st sl fun k => { k with mq := k.mq.drop 1 }
        (selected c.sel).foldl (fun d m => d.record16 st sl m 2 (tagOf c.desc) 0 0 code) d)

/-- The MDRAIN at the head of the queue starts, and its gates read its rows (R242, R254 to R256). -/
def execDrainStart (st : StallId) (sl : Slot) (s : State) : Host.Outcome State Fault Refusal :=
  .next (s.onDev fun d =>
    match d.mqHead st sl with
    | none => d
    | some c =>
      if c.op = 2 && d.mayStart st sl && d.drainMayStart st sl c then
        let refused := d.drainRefused st c
        let (d, r) := (selected c.sel).foldl (fun (x : Device × MRun) (m : Fin 4) =>
          if refused then
            (x.1, { x.2 with mgr := x.2.mgr.set m { freshMgr true with code := Status.gateConfigInvalid } })
          else
            let (d, g) := x.1.drainIn st sl c m
            (d, { x.2 with mgr := x.2.mgr.set m g })) (d, freshRun c)
        let d := d.startHead st sl r
        if dfield c.desc 0 7 1 = 1 then d.useLedger (d.slotAt st sl (dfield c.desc 7 32 32)) else d
      else d)

/-- The oldest drain that manger mg runs for the slot has written its last byte; while the swap engine holds the
loft port no drain writes (R262). -/
def execDrainDone (st : StallId) (sl : Slot) (mg : Fin 4) (s : State) : Host.Outcome State Fault Refusal :=
  .next (s.onDev fun d =>
    match d.findRun st sl fun r => r.cmd.op = 2 && r.mgr[mg].busy with
    | none => d
    | some (i, r) =>
      if (d.stall st).switching.isSome then d
      else
        let d := d.drainEnd st sl r.cmd mg r.mgr[mg]
        d.setRun st sl i { r with mgr := r.mgr.set mg { r.mgr[mg] with busy := false } })

/-- The FMTSEL at the head of the queue runs: the ledger, sd, and the retirement of the instruction that holds
the groom (R284, R285); a VREG_PARITY has let the groom go on without it (R174). -/
def execFmtselStart (st : StallId) (sl : Slot) (s : State) : Host.Outcome State Fault Refusal :=
  .next (s.onDev fun d =>
    match d.mqHead st sl with
    | none => d
    | some c =>
      if c.op = 4 && d.mayStart st sl && (d.ctx st sl).mrun.all fun r => r.cmd.op ≠ 2 || dfield r.cmd.desc 0 7 1 = 0 then
        let d := (d.modCtx st sl fun k => { k with mq := k.mq.drop 1 }).useLedger (d.slotAt st sl c.ledger)
        let t0 := (d.ctx st sl).getCr 0x0E
        let t1 := (d.ctx st sl).getCr 0x0F
        let (d, l, _) := d.engRead st sl c.ledger 64
        let r := Gate.fmtsel l t0 t1
        let d := d.engModify st sl c.ledger 64 fun _ => r.1
        match (d.ctx st sl).hold with
        | some (.fmtsel x) => d.modCtx st sl fun k => { k.setS x r.2 with hold := none }.advance 1
        | _ => d.modCtx st sl fun k => k.setS c.d r.2
      else d)

/-- A pass in flight at the first cycle of a group of 8, of which it has seen g begin, this one among them: the beat
slots issued so far and their invalid beats at the duty until now, and the rest from this cycle on (R252, R265). -/
def MRun.newGroup (r : MRun) (D g : Nat) : MRun :=
  if r.inPass = false ∨ r.left = 0 then r
  else
    let done := (D - r.phase) + (g - 1) * D
    if g = 0 then r
    else if r.left ≤ done then { r with left := 0, bubbles := r.bubbles + Device.bubblesOf r.phase D r.left }
    else { r with
      left := r.left - done, phase := 0, bubbles := r.bubbles + (8 - max r.phase D) + (g - 1) * (8 - D) }

/-- A change of feed duty takes effect at the next group of 8 cycles, in the passes of the yard too, each with the groups that it
has seen begin (R252, R265). -/
def execDutyChange (y : Yard) (s : State) : Host.Outcome State Fault Refusal :=
  .next (s.onDev fun d =>
    let D := d.yards[y].duty
    let d :=
      if d.yards[y].dutyNext = D then d
      else
        let (k, d) := d.drawFree
        let regroup (st : StallId) (n : Nat) (c : SlotCtx) : SlotCtx :=
          { c with mrun := c.mrun.mapIdx fun i r => r.newGroup D (Config.groupsPassed k st n i) }
        { d with stalls := Vector.ofFn fun (st : Fin 384) =>
            let s := d.stalls[st]
            if Device.yardOf st = y then { s with primary := regroup st 0 s.primary, paddock := regroup st 1 s.paddock } else s }
    d.modYard y fun v => { v with duty := v.dutyNext })

end Sys2Proof.Machine
end

