-- ==== Sys2Proof/Machine/VecArith.lean ====
section
/-! DEFINITION. The arithmetic of the vector unit as functions of register values: element types, integer and
floating-point operations, conversions, permutes, reductions, compress and expand (R133 to R136, R148 to
R159). -/

namespace Sys2Proof.Machine

/-- A vector register, and a mask register with k0 read as all ones (R135). -/
abbrev VReg4096 := BitVec 4096
abbrev Mask := BitVec 512

namespace Vec

/-- Element width in bits of a type code (R134). -/
def width (t : Nat) : Nat :=
  match t with
  | 0 => 8
  | 1 => 16
  | 2 => 32
  | 3 => 64
  | 4 => 16
  | 5 => 16
  | 6 => 32
  | _ => 64

def isFloat (t : Nat) : Bool := decide (4 ≤ t)

def fmt (t : Nat) : FFmt :=
  match t with
  | 4 => .fp16
  | 5 => .bf16
  | 6 => .fp32
  | _ => .fp64

/-- Elements of the type in one register. -/
def count (t : Nat) : Nat := 4096 / width t

/-- Subnormals of the type are flushed (R190, R191). -/
def flushes (t : Nat) (modeF : Bool) : Bool := modeF || t = 6 || t = 7

/-- Element i of width w. -/
def elem (v : VReg4096) (w i : Nat) : Nat := field v (w * i) w

/-- The register whose elements of width w are f 0, f 1, … -/
def ofElems (w : Nat) (f : Nat → Nat) : VReg4096 :=
  BitVec.ofNat 4096 ((List.range (4096 / w)).foldr (fun i n => n * 2 ^ w + f i % 2 ^ w) 0)

/-- v with element i of width w replaced. -/
def setElem (v : VReg4096) (w i x : Nat) : VReg4096 := ofElems w fun j => if j = i then x else elem v w j

/-- The mask of an instruction: k0 is all ones. -/
def maskBit (m : Mask) (k : KReg) (i : Nat) : Bool := k = 0 || flag m i

/-- ORs of the flags of a list of results. -/
def allFlags (l : List FFlags) : FFlags := l.foldl (· ||| ·) .none

/-- New elements where active, old ones elsewhere, and the flags of the active ones. -/
def apply (w n : Nat) (active : Nat → Bool) (old : VReg4096) (f : Nat → Nat × FFlags) : VReg4096 × FFlags :=
  (ofElems w fun i => if decide (i < n) && active i then (f i).1 else elem old w i,
    allFlags ((below n active).map fun i => (f i).2))

/-! ### Integer operations (R151) -/

def sgn (w x : Nat) : Int := intOfNat w x

def intOp (op w x y : Nat) : Nat :=
  match op with
  | 0 => x + y
  | 1 => x + (2 ^ w - y)
  | 2 => x * y
  | 3 => natOfInt w (sgn w x * sgn w y / 2 ^ w)
  | 4 => x * y / 2 ^ w
  | 5 => if sgn w x < sgn w y then x else y
  | 6 => if sgn w x < sgn w y then y else x
  | 7 => min x y
  | 8 => max x y
  | 9 => x &&& y
  | 10 => x ||| y
  | 11 => x ^^^ y
  | 12 => x <<< (y % w)
  | 13 => x >>> (y % w)
  | _ => natOfInt w (sgn w x / 2 ^ (y % w))

/-- The integer compares, from VCMPEQ. -/
def intCmp (op w x y : Nat) : Bool :=
  match op with
  | 15 => x = y
  | 16 => x ≠ y
  | 17 => sgn w x < sgn w y
  | 18 => x < y
  | 19 => sgn w x ≤ sgn w y
  | _ => x ≤ y

/-! ### Floating-point operations (R152 to R154) -/

/-- The operand value of an element code. -/
def value (t : Nat) (modeF : Bool) (c : Nat) : FVal := (fmt t).decodeF (flushes t modeF) c

/-- An element as a reduction reads it and, where it is the only one, writes it: a flushed subnormal is a zero, and a NaN
the canonical one (R152, R179, R190, R191). -/
def leaf (t : Nat) (modeF : Bool) (c : Nat) : Nat :=
  if isFloat t then ((fmt t).roundVal (flushes t modeF) (value t modeF c)).1 else c

def result (t : Nat) (modeF : Bool) (r : FVal × FFlags) : Nat × FFlags :=
  let (c, fl) := (fmt t).roundVal (flushes t modeF) r.1
  (c, r.2 ||| fl)

/-- VFMIN and VFMAX: the non-NaN operand of two, −0 below +0. -/
def floatMinMax (t : Nat) (modeF wantMin : Bool) (x y : Nat) : Nat :=
  let u := value t modeF x
  let v := value t modeF y
  let code (w : FVal) : Nat := ((fmt t).roundVal (flushes t modeF) w).1
  if u.isNan then code v
  else if v.isNan then code u
  else
    let c := cmpVal u v
    let less := if c = 0 then decide (code v < code u) else decide (c < 0)
    if less == wantMin then code u else code v

/-- The operations of group 0x21 below the compares; z is the old destination. -/
def floatOp (op t : Nat) (modeF : Bool) (x y z : Nat) : Nat × FFlags :=
  let f := fmt t
  let u := value t modeF x
  let v := value t modeF y
  match op with
  | 0 => result t modeF (FFmt.addVal u v)
  | 1 => result t modeF (FFmt.addVal u (FFmt.negate v))
  | 2 => result t modeF (FFmt.mulVal u v)
  | 3 => result t modeF (FFmt.fmaVal u v (value t modeF z))
  | 4 => result t modeF (FFmt.fmaVal (FFmt.negate u) v (value t modeF z))
  | 5 => result t modeF (f.divVal u v)
  | 6 => result t modeF (f.sqrtVal u)
  | 7 => (floatMinMax t modeF true x y, .none)
  | 8 => (floatMinMax t modeF false x y, .none)
  | 9 =>
    (match u with
      | .num _ m e => (f.roundVal (flushes t modeF) (.num false m e)).1
      | .inf _ => f.infinity false
      | .nan => f.nan, .none)
  | _ => ((f.roundVal (flushes t modeF) (FFmt.negate u)).1, .none)

/-- The compares VFCMPEQ, LT, LE and UN. -/
def floatCmp (op t : Nat) (modeF : Bool) (x y : Nat) : Bool × FFlags :=
  let u := value t modeF x
  let v := value t modeF y
  let un := u.isNan || v.isNan
  if op = 14 then (un, .none)
  else if un then
    (false, if Config.nanCompareInvalid (op - 11) (width t) x y then .invalid else .none)
  else
    let c := cmpVal u v
    (if op = 11 then decide (c = 0) else if op = 12 then decide (c < 0) else decide (c ≤ 0), .none)

/-! ### Conversions (R155) -/

/-- An integer saturated to the w-bit signed type. -/
def saturate (w : Nat) (i : Int) : Nat × FFlags :=
  let hi : Int := ((2 ^ (w - 1) - 1 : Nat) : Int)
  let lo : Int := -((2 ^ (w - 1) : Nat) : Int)
  if hi < i then (natOfInt w hi, .invalid) else if i < lo then (natOfInt w lo, .invalid) else (natOfInt w i, .none)

/-- The value of an element of any type; an I element is a signed integer. -/
def anyValue (t : Nat) (modeF : Bool) (c : Nat) : FVal :=
  if isFloat t then value t modeF c else FVal.ofInt (sgn (width t) c)

/-- A value to an element of type t. -/
def toType (t : Nat) (modeF : Bool) (v : FVal) : Nat × FFlags :=
  if isFloat t then (fmt t).roundVal (flushes t modeF) v
  else
    let (i, fl) := v.toInt (width t) 0
    (natOfInt (width t) i, fl)

/-- VCVT from type s to type t. -/
def convert (s t : Nat) (modeF : Bool) (c : Nat) : Nat × FFlags :=
  if isFloat s || isFloat t then toType t modeF (anyValue s modeF c) else saturate (width t) (sgn (width s) c)

/-! ### Reductions (R156, R157) -/

/-- The combining operation of a reduction: 0 sum, 1 min, 2 max. -/
def combine (op t : Nat) (modeF : Bool) (x y : Nat) : Nat × FFlags :=
  if isFloat t then
    match op with
    | 0 => floatOp 0 t modeF x y 0
    | 1 => (floatMinMax t modeF true x y, .none)
    | _ => (floatMinMax t modeF false x y, .none)
  else (intOp (match op with | 0 => 0 | 1 => 5 | _ => 6) (width t) x y % 2 ^ width t, .none)

/-- What a reduction of no active element gives. -/
def emptyResult (op t : Nat) : Nat :=
  if op = 0 then 0
  else if isFloat t then (fmt t).nan
  else if op = 1 then 2 ^ (width t - 1) - 1
  else 2 ^ (width t - 1)

/-- One level of the tree: adjacent pairs, an inactive side passing the other unchanged. -/
def level (f : Nat → Nat → Nat × FFlags) : List (Option Nat) → List (Option Nat) × FFlags
  | some x :: some y :: t =>
    let (l, fl) := level f t
    let (z, g) := f x y
    (some z :: l, g ||| fl)
  | some x :: none :: t =>
    let (l, fl) := level f t
    (some x :: l, fl)
  | none :: y :: t =>
    let (l, fl) := level f t
    (y :: l, fl)
  | l => (l, .none)

/-- Levels of the tree until one value is left. -/
def tree (f : Nat → Nat → Nat × FFlags) : Nat → List (Option Nat) → Option Nat × FFlags
  | 0, l => ((l[0]?).getD none, .none)
  | k + 1, l =>
    let (l', fl) := level f l
    let (x, g) := tree f k l'
    (x, fl ||| g)

/-- A run of a segmented reduction in progress: its ID, value and last element. -/
structure Run where
  id : Nat
  val : Nat
  last : Nat
deriving DecidableEq, Repr

/-- Segmented reduction in ascending element order: the results, by the last element of each run. A run is of
neighbouring active elements with equal IDs. -/
def segments (f : Nat → Nat → Nat × FFlags) (ids vals : Nat → Nat) (active : Nat → Bool) (n : Nat) :
    List (Nat × Nat) × FFlags :=
  let step (x : Option Run × List (Nat × Nat) × FFlags) (i : Nat) :=
    let (cur, out, fl) := x
    let close := match cur with | some r => out ++ [(r.last, r.val)] | none => out
    if !active i then (none, close, fl)
    else
      match cur with
      | some r =>
        if r.id = ids i then
          let (v, g) := f r.val (vals i)
          (some { r with val := v, last := i }, out, fl ||| g)
        else (some ⟨ids i, vals i, i⟩, close, fl)
      | none => (some ⟨ids i, vals i, i⟩, out, fl)
  let (cur, out, fl) := (List.range n).foldl step (none, [], .none)
  (match cur with | some r => out ++ [(r.last, r.val)] | none => out, fl)

end Vec

end Sys2Proof.Machine
end

