-- ==== Sys2Proof/Machine/VecUnit.lean ====
section
/-! DEFINITION. The vector unit of a stall: which forms are legal, what an entry of a vector queue does, its
element faults and first-fault trims, register parity, the queues, the power gate, and stops at a context
switch (R135 to R147, R160 to R174). -/

namespace Sys2Proof.Machine

namespace VecEntry

def t (e : VecEntry) : Nat := e.v.t.toNat

/-- Bits of an element. -/
def w (e : VecEntry) : Nat := Vec.width e.t

/-- The conversion an entry makes: source and destination types as codes, 8 for E4M3 and 9 for E5M2. -/
def cvtTypes (op t : Nat) : Nat × Nat :=
  if op < 8 then (op, t) else if op < 10 then (op, t) else (t, op - 2)

def cvtCount (c : Nat) : Nat := if c < 8 then Vec.count c else 512

/-- The element count n (R136). -/
def n (e : VecEntry) : Nat :=
  let base := min e.len (Vec.count e.t)
  match e.kind with
  | .cvt op =>
    if op < 12 then min e.len (min (cvtCount (cvtTypes op e.t).1) (cvtCount (cvtTypes op e.t).2)) else base
  | .gather op => min base (if op % 2 = 0 then 128 else 64)
  | .first op => if op % 16 = 1 then min base 128 else if op % 16 = 2 then min base 64 else base
  | .hist => min base 128
  | _ => base

/-- The entry addresses LP6 memory. -/
def lp6 (e : VecEntry) : Bool :=
  match e.kind with
  | .mem op | .gather op | .first op => decide (16 ≤ op)
  | _ => false

/-- The entry belongs to opcodes 0x26 to 0x29, which hold younger instructions (R167). -/
def memory (e : VecEntry) : Bool :=
  match e.kind with
  | .mem _ | .gather _ | .first _ | .hist => true
  | _ => false

/-- The entry stores to memory. -/
def stores (e : VecEntry) : Bool :=
  match e.kind with
  | .mem op | .gather op => decide (2 ≤ op % 16)
  | .hist => true
  | _ => false

/-- An indexed form, with 32-bit or 64-bit indices in vb. -/
def indexWidth (e : VecEntry) : Option Nat :=
  match e.kind with
  | .gather op => some (if op % 2 = 0 then 32 else 64)
  | .first op => if op % 16 = 1 then some 32 else if op % 16 = 2 then some 64 else none
  | .hist => some 32
  | _ => none

def strided (e : VecEntry) : Bool :=
  match e.kind with
  | .mem op => op % 2 = 1
  | _ => false

/-- Vector registers that the entry reads, with the low bits of each that it reads and the width it reads them in: the
elements below n, and of the source of a slide or VPERM the whole register. -/
def reads (e : VecEntry) : List (VReg × Nat × Nat) :=
  let data (r : VReg) : VReg × Nat × Nat := (r, e.n * e.w, e.w)
  let index : VReg × Nat × Nat := (e.v.vb, e.n * e.indexWidth.getD 0, e.indexWidth.getD 8)
  match e.kind with
  | .int _ => [data e.v.va, data e.v.vb]
  | .fp op =>
    if op = 3 ∨ op = 4 then [data e.v.vd, data e.v.va, data e.v.vb]
    else if op = 6 ∨ op = 9 ∨ op = 10 then [data e.v.va] else [data e.v.va, data e.v.vb]
  | .cvt op =>
    if op < 8 then [(e.v.va, e.n * Vec.width op, Vec.width op)]
    else if op < 10 then [(e.v.va, e.n * 8, 8)]
    else if op < 12 then [data e.v.va]
    else if op = 12 then []
    else if op = 15 then [(e.v.va, 4096, e.w), data e.v.vb] else [(e.v.va, 4096, e.w)]
  | .red op => if op < 3 then [data e.v.va] else [data e.v.va, data e.v.vb]
  | .pack _ => [data e.v.va]
  | .mem op => if 2 ≤ op % 16 then [data e.v.vd] else []
  | .gather op => if 2 ≤ op % 16 then [data e.v.vd, index] else [index]
  | .first op => if op % 16 = 0 then [] else [index]
  | .hist => [data e.v.va, index]
  | .move op => if op = 0 then [(e.v.va, e.w, e.w)] else []
  | _ => []

/-- The entry takes VSCALAR as an operand, or writes it (R150, R158, R159). -/
def usesScalar (e : VecEntry) : Bool :=
  match e.kind with
  | .cvt op => op = 13 || op = 14
  | .move op => op = 1 || op = 2
  | .setvl => true
  | _ => false

def writesScalar (e : VecEntry) : Bool :=
  match e.kind with
  | .move op => op = 0 || op = 3 || op = 4
  | .pack op => op = 0
  | .setvl => true
  | _ => false

/-- Width of the elements that the entry writes to vd. -/
def destWidth (e : VecEntry) : Nat :=
  match e.kind with
  | .cvt op => if op = 10 ∨ op = 11 then 8 else e.w
  | _ => e.w

/-- The entry writes the mask that its k field names. -/
def writesMask (e : VecEntry) : Bool :=
  match e.kind with
  | .int op => decide (15 ≤ op)
  | .fp op => decide (11 ≤ op)
  | .mask _ _ _ => true
  | _ => false

/-- The entry writes vd. -/
def writesVd (e : VecEntry) : Bool :=
  !e.writesMask && !e.stores &&
    match e.kind with
    | .move op => op = 1 || op = 2
    | .setvl => false
    | _ => true

/-- The entry writes one element of vd after the other, and reads none that it has written; the others write their result
in one piece at their end. -/
def byElement (e : VecEntry) : Bool :=
  match e.kind with
  | .int op => decide (op < 15)
  | .fp op => decide (op < 11)
  | .cvt op => op = 12 || e.v.vd ≠ e.v.va
  | .move op => op = 2
  | _ => false

/-- The form raises ILLEGAL_INSTRUCTION (R147, R149): a type outside the group's set, a field that the
operation does not use and that is not 0, or a compare into k0. -/
def illegal (e : VecEntry) : Bool :=
  let tset : Bool :=
    match e.kind with
    | .int _ => !Vec.isFloat e.t
    | .fp _ => Vec.isFloat e.t
    | .hist => e.t = 2 || e.t = 3 || e.t = 6 || e.t = 7
    | _ => true
  let d := e.v.vd = 0
  let a := e.v.va = 0
  let b := e.v.vb = 0
  let unused : Bool :=
    match e.kind with
    | .int op => decide (op < 15) || d
    | .fp op => if op = 6 ∨ op = 9 ∨ op = 10 then b else decide (op < 11) || d
    | .cvt op => if op = 12 then a && b else op = 15 || b
    | .red op => decide (3 ≤ op) || b
    | .pack _ => b
    | .mem _ => a && b
    | .gather _ => a
    | .first op => if op % 16 = 0 then a && b else a
    | .hist => d
    | .move op => if op = 0 then d && b else if op ≤ 2 then a && b else d && a && b
    | .mask _ _ _ => d && a && b
    | .setvl => d && a && b && e.v.k = 0
  !tset || !unused || (e.writesMask && e.v.k = 0 && match e.kind with | .mask _ _ _ => false | _ => true)

end VecEntry

/-- What an entry came to. -/
inductive VecEnd where
  | done
  /-- element, code, and the address that EXC_INFO shows -/
  | fault (f : Nat) (code : Code) (addr : Nat)

/-- The walk over the elements of a memory entry. -/
structure VecWalk where
  dev : Device
  reg : VReg4096
  /-- protected units already read -/
  seen : List Nat
  flags : FFlags
  stop : Option (Nat × Code × Nat)

namespace Device

/-- A vector register of a stall. -/
def vreg (d : Device) (st : StallId) (r : VReg) : VReg4096 := (d.stall st).v[r]

def setVreg (d : Device) (st : StallId) (r : VReg) (x : VReg4096) : Device :=
  d.modStall st fun s => { s with v := s.v.set r x }

/-- A mask register; writing k0 has no effect (R135). -/
def setMask (d : Device) (st : StallId) (k : KReg) (m : Mask) : Device :=
  if k = 0 then d else d.modCur st fun c => { c with k := c.k.set k m }

def setVectorCr (d : Device) (st : StallId) (n : Nat) (v : W64) : Device := d.modCur st fun c => c.setCr n v

def kreg (d : Device) (st : StallId) (k : KReg) : Mask := if k = 0 then BitVec.allOnes 512 else (d.cur st).k[k]

/-- Element i of the entry is active (R135). -/
def activeAt (d : Device) (st : StallId) (e : VecEntry) (i : Nat) : Bool :=
  decide (e.start ≤ i) && decide (i < e.n) && flag (d.kreg st e.v.k) i

/-- The address of element i as an integer (R160, R161). -/
def elemAddr (d : Device) (st : StallId) (e : VecEntry) (i : Nat) : Nat :=
  let base := e.base.toNat
  match e.indexWidth with
  | some iw => base + Vec.elem (d.vreg st e.v.vb) iw i * (e.w / 8)
  | none => if e.strided then natOfInt 64 ((base : Int) + i * e.stride.toInt) else base + i * (e.w / 8)

/-- The faults of R168 that need no access. -/
def staticFault (d : Device) (st : StallId) (e : VecEntry) (a : Nat) : Option Code :=
  if e.lp6 then
    if a % (e.w / 8) ≠ 0 then some Status.loftMisaligned
    else if d.boot.memCapacity ≤ a then some Status.addressUnmapped
    else none
  else if d.loftLimit st (d.slotOf st) ≤ a then some Status.loftAddressFault
  else if a % (e.w / 8) ≠ 0 then some Status.loftMisaligned
  else none

/-- The DPA of an element address. -/
def elemDpa (d : Device) (st : StallId) (e : VecEntry) (a : Nat) : Nat := if e.lp6 then a else d.loftAt st a

/-- The fault code of a unit that was not accessed. -/
def unitCode : MemRes → Code
  | .offline => Status.memChannelOffline
  | _ => Status.memEccUncorrected

/-- One element of a memory entry: its faults, then its access. -/
def elemStep (st : StallId) (e : VecEntry) (x : VecWalk) (i : Nat) : VecWalk :=
  let d := x.dev
  if x.stop.isSome || !d.activeAt st e i then x
  else
    let a := d.elemAddr st e i
    match d.staticFault st e a with
    | some c => { x with stop := some (i, c, a) }
    | none =>
      let p := d.elemDpa st e a
      let bytes := e.w / 8
      if e.kind = .hist then
        let (d, r) := d.readUnit (unitOf p) false
        if r != .ok then { x with dev := d, stop := some (i, unitCode r, a) }
        else
          let y := Vec.elem (d.vreg st e.v.va) e.w i
          let (z, fl) := Vec.combine 0 e.t e.modeF (leNat (d.rdBytes p bytes)) y
          { x with dev := (d.writeUnit p (leBytes bytes z) false).1, flags := x.flags ||| fl }
      else if e.stores then
        let (d, r) := d.writeUnit p (leBytes bytes (Vec.elem x.reg e.w i)) false
        if r = .ok then { x with dev := d } else { x with dev := d, stop := some (i, unitCode r, a) }
      else
        let u := unitOf p
        let (d, r) := if u ∈ x.seen then (d, .ok) else d.readUnit u false
        if r = .ok then
          { x with dev := d, seen := u :: x.seen, reg := Vec.setElem x.reg e.w i (leNat (d.rdBytes p bytes)) }
        else { x with dev := d, stop := some (i, unitCode r, a) }

/-- The elements of an LP6 store above the faulting one that had reached memory (R169). -/
def storesAhead (d : Device) (st : StallId) (e : VecEntry) (f : Nat) : Device :=
  let (k, d) := d.drawFree
  (below e.n fun i => decide (f < i) && d.activeAt st e i && Config.storeAhead k i).foldl
    (fun d i =>
      let a := d.elemAddr st e i
      if (d.staticFault st e a).isSome then d
      else (d.writeUnit a (leBytes (e.w / 8) (Vec.elem (d.vreg st e.v.vd) e.w i)) false).1) d

/-- Elements start to hi − 1 of a memory entry: the device, and the first fault. -/
def memElems (d : Device) (st : StallId) (e : VecEntry) (hi : Nat) : Device × Option (Nat × Code × Nat) :=
  let x := (List.range hi).foldl (elemStep st e)
    { dev := d, reg := d.vreg st e.v.vd, seen := [], flags := .none, stop := none }
  let d := if e.stores then x.dev else x.dev.setVreg st e.v.vd x.reg
  (d.modCur st fun c => c.addVectorFlags x.flags, x.stop)

/-- The arithmetic of the elements below n of an entry that accesses no memory. An index element of VPERM is unsigned under
an I type (the manual does not say; DEDUCED, log 22). -/
def arithTo (d : Device) (st : StallId) (e : VecEntry) (n : Nat) : Device :=
  let w := e.w
  let t := e.t
  let va := d.vreg st e.v.va
  let vb := d.vreg st e.v.vb
  let vd := d.vreg st e.v.vd
  let m := d.kreg st e.v.k
  let act (i : Nat) : Bool := decide (e.start ≤ i) && flag m i
  let masked (wd : Nat) (f : Nat → Nat × FFlags) : Device :=
    let (r, fl) := Vec.apply wd n act vd f
    (d.setVreg st e.v.vd r).modCur st fun c => c.addVectorFlags fl
  let compare (f : Nat → Bool × FFlags) : Device :=
    let r := BitVec.ofNat 512 ((below 512 fun i => if i < n then (f i).1 else flag m i).map (2 ^ ·)).sum
    (d.setMask st e.v.k r).modCur st fun c => c.addVectorFlags (Vec.allFlags ((List.range n).map fun i => (f i).2))
  let scalar (x : W64) : Device := d.setVectorCr st 0x13 x
  let plain (x : Nat) : Nat × FFlags := (x, .none)
  match e.kind with
  | .int op =>
    if op < 15 then masked w fun i => plain (Vec.intOp op w (Vec.elem va w i) (Vec.elem vb w i))
    else compare fun i => (Vec.intCmp op w (Vec.elem va w i) (Vec.elem vb w i), .none)
  | .fp op =>
    if op < 11 then
      masked w fun i => Vec.floatOp op t e.modeF (Vec.elem va w i) (Vec.elem vb w i) (Vec.elem vd w i)
    else compare fun i => Vec.floatCmp op t e.modeF (Vec.elem va w i) (Vec.elem vb w i)
  | .cvt op =>
    if op < 8 then masked w fun i => Vec.convert op t e.modeF (Vec.elem va (Vec.width op) i)
    else if op < 10 then
      let f : FFmt := if op = 8 then .e4m3 else .e5m2
      masked w fun i => Vec.toType t e.modeF (f.decodeF e.modeF (Vec.elem va 8 i))
    else if op < 12 then
      let f : FFmt := if op = 10 then .e4m3 else .e5m2
      masked 8 fun i => f.roundSat e.modeF (Vec.anyValue t e.modeF (Vec.elem va w i))
    else if op = 12 then masked w fun i => plain (if Vec.isFloat t then Config.vectorId t i else i)
    else
      let src (i : Nat) : Option Nat :=
        if op = 13 then some (i + e.scalar.toNat)
        else if op = 14 then (if e.scalar.toNat ≤ i then some (i - e.scalar.toNat) else none)
        else
          let x := Vec.elem vb w i
          some (if Vec.isFloat t then Config.floatIndex t x else x)
      masked w fun i =>
        match src i with
        | some j => plain (if j < Vec.count t then Vec.elem va w j else 0)
        | none => plain 0
  | .red op =>
    if op < 3 then
      let leaves := (List.range (Vec.count t)).map fun i =>
        if decide (i < n) && act i then some (Vec.leaf t e.modeF (Vec.elem va w i)) else none
      let (r, fl) := Vec.tree (Vec.combine op t e.modeF) 9 leaves
      (d.setVreg st e.v.vd (Vec.setElem vd w 0 (r.getD (Vec.emptyResult op t)))).modCur st fun c =>
        c.addVectorFlags fl
    else
      let (l, fl) := Vec.segments (Vec.combine (op - 3) t e.modeF) (Vec.elem vb w) (fun i => Vec.leaf t e.modeF (Vec.elem va w i)) act n
      (d.setVreg st e.v.vd (Vec.ofElems w fun i =>
        ((l.find? fun p => p.1 = i).map Prod.snd).getD (Vec.elem vd w i))).modCur st fun c => c.addVectorFlags fl
  | .pack op =>
    let idx := below n act
    if op = 0 then
      (d.setVreg st e.v.vd (Vec.ofElems w fun i =>
        match idx[i]? with
        | some j => Vec.elem va w j
        | none => Vec.elem vd w i)).setVectorCr st 0x13 (BitVec.ofNat 64 idx.length)
    else
      d.setVreg st e.v.vd (Vec.ofElems w fun i =>
        match idx.findIdx? (· = i) with
        | some j => Vec.elem va w j
        | none => Vec.elem vd w i)
  | .move op =>
    match op with
    | 0 =>
      if act 0 then
        let x := Vec.elem va w 0
        scalar (if Vec.isFloat t then BitVec.ofNat 64 x else BitVec.ofInt 64 (Vec.sgn w x))
      else d
    | 1 => if act 0 then d.setVreg st e.v.vd (Vec.setElem vd w 0 (e.scalar.toNat % 2 ^ w)) else d
    | 2 => masked w fun _ => plain (e.scalar.toNat % 2 ^ w)
    | 3 => scalar (BitVec.ofNat 64 (below n (flag m)).length)
    | _ => scalar (match (below n (flag m))[0]? with | some i => BitVec.ofNat 64 i | none => BitVec.allOnes 64)
  | .mask op a b =>
    let x := d.kreg st a
    let y := d.kreg st b
    let z := match op with | 0 => x &&& y | 1 => x ||| y | 2 => x ^^^ y | _ => x &&& ~~~y
    let low := BitVec.ofNat 512 (2 ^ n - 1)
    d.setMask st e.v.k ((z &&& low) ||| (m &&& ~~~low))
  | _ => d

def arith (d : Device) (st : StallId) (e : VecEntry) : Device := d.arithTo st e e.n

/-- VSETVL (R150). -/
def setvl (d : Device) (st : StallId) (e : VecEntry) : Device :=
  let len := BitVec.ofNat 64 (min e.scalar.toNat (Vec.count e.t))
  (d.setVectorCr st 0x10 len).setVectorCr st 0x13 len

/-- The register of the entry whose parity fails, with the quarter and the width it is read in (R174). Where several fail, the
rule does not say which EXC_INFO and VFAULT_IDX show: the first in the order of the operands, and of its quarters the one whose
error came first (DEDUCED, log 93). -/
def parityFault (d : Device) (st : StallId) (e : VecEntry) : Option (VReg × Fin 4 × Nat) :=
  if e.n = 0 then none
  else
    e.reads.findSome? fun r =>
      ((d.stall st).vBad.find? fun p => p.1 = r.1 && decide (p.2.val * 1024 < r.2.1)).map fun p => (p.1, p.2, r.2.2)

/-- The entry writes element i of vd, of its elements below hi. -/
def written (d : Device) (st : StallId) (e : VecEntry) (hi i : Nat) : Bool :=
  let m (j : Nat) : Bool := decide (j < hi) && d.activeAt st e j
  match e.kind with
  | .red op =>
    if op < 3 then i = 0
    else
      let id (j : Nat) : Nat := Vec.elem (d.vreg st e.v.vb) e.w j
      m i && !(m (i + 1) && id (i + 1) = id i)
  | .pack op => if op = 0 then decide (i < (below hi m).length) else m i
  | .move op => if op = 1 then i = 0 && m 0 else m i
  | _ => m i

/-- The quarters of vd whose every element is written hold good parity again. -/
def renew (d : Device) (st : StallId) (e : VecEntry) (wr : Nat → Bool) : Device :=
  let per := 1024 / e.destWidth
  d.modStall st fun s => { s with vBad := s.vBad.filter fun p =>
    !(e.writesVd && p.1 = e.v.vd && (List.range per).all fun i => wr (p.2.val * per + i)) }

/-- A stop in the middle of a vector instruction is recorded (R169, R172, R174), and the STALL page, which shows VFAULT_CAUSE,
records its CODE (R494). -/
def recordStop (d : Device) (st : StallId) (f : Nat) (code : Code) (source : Nat) (switch : Bool) : Device :=
  ((d.setVectorCr st 0x14 (BitVec.ofNat 64 (f % 512))).setVectorCr st 0x15
    (BitVec.ofNat 64 (code.toNat * 2 ^ 16 + source * 2 ^ 8 + b2n switch))).record (Page.stall st) code

/-- The elements in memory that a discarded store, scatter or VHADD would have written hold unknown values. -/
def loseStored (k : Nat) (st : StallId) (e : VecEntry) (d : Device) : Device :=
  (below e.n (d.activeAt st e)).foldl (fun d i =>
    let a := d.elemAddr st e i
    if (d.staticFault st e a).isSome then d
    else
      let p := d.elemDpa st e a
      d.wrBytes p ((List.range (e.w / 8)).map fun j => Config.lostStored k (p + j))) d

/-- Destinations of discarded entries hold unknown values: vd, the mask, VSCALAR, LEN and memory, whichever the entry
writes. -/
def loseDest (st : StallId) (d : Device) (e : VecEntry) : Device :=
  let (k, d) := d.drawFree
  let d := if e.writesScalar then d.setVectorCr st 0x13 (Config.lostScalar k) else d
  if e.kind = .setvl then d.setVectorCr st 0x10 (BitVec.ofNat 64 (Config.lostLength k).val)
  else if e.writesVd then d.setVreg st e.v.vd (Config.lostVector k)
  else if e.writesMask then d.setMask st e.v.k (Config.lostMask k)
  else if e.stores then d.loseStored k st e
  else d

/-- VREG_PARITY (R174): the entry and everything behind it are discarded, and the groom enters the handler at
the oldest instruction not yet issued: one that waits for its queue entry to complete is issued (R90). The rule gives VFAULT_IDX and SOURCE 0; that CODE and SWITCH of VFAULT_CAUSE
become 0 is the model's choice (DEDUCED, log 93). -/
def vregParity (d : Device) (st : StallId) (e : VecEntry) (behind : List VecEntry)
    (r : VReg × Fin 4 × Nat) : Device :=
  let d := (e :: behind).foldl (loseDest st) d
  let held := match (d.cur st).hold with
    | some .vector | some (.fmtsel _) => true
    | _ => false
  let d := d.modCur st fun c => { c with vq := [], hold := none }
  let d := if held then d.retire st 1 else d
  let d := d.modCur st fun c => c.setCr 0x16 (setBit (c.getCr 0x16) 2)
  let d := d.recordStop st (r.2.1.val * 1024 / r.2.2) 0 0 false
  d.raise st 6 Status.vregParity (BitVec.ofNat 64 r.1)

/-- The entry at the head of the queue is executed; rest is what stays behind it. The second component says
that the queue goes on. VEC_FF_TRIMMED is the flag FF_TRIMMED alone: the model records it in no ERR_STAT (DEDUCED,
log 94). R136 lets an instruction with n = 0 do nothing and R150 lets VSETVL write LEN: VSETVL acts at every LEN, and VMPOPC
and VMFIRST do nothing at n = 0 (DEDUCED, log 19). -/
def execEntry (d : Device) (st : StallId) (e : VecEntry) (rest : List VecEntry) : Device × Bool :=
  match d.parityFault st e with
  | some r => (d.vregParity st e rest r, false)
  | none =>
    if e.kind = .setvl then (d.setvl st e, true)
    else if e.n = 0 then (if e.memory then (d.modCur st fun c => { c with hold := none }).retire st 1 else d, true)
    else if !e.memory then
      ((d.arith st e).renew st e (d.written st e e.n), true)
    else
      let wr := d.written st e
      let (d, stop) := d.memElems st e e.n
      let d := d.modCur st fun c => { c with hold := none }
      match stop with
      | none =>
        let d := match e.kind with
          | .first _ => d.modCur st fun c => c.setCr 0x16 (clearBit (c.getCr 0x16) 0)
          | _ => d
        ((d.renew st e (wr e.n)).retire st 1, true)
      | some (f, code, addr) =>
        let d := d.renew st e (wr f)
        let trims := match e.kind with | .first _ => decide (0 < f) | _ => false
        if trims then
          let d := d.modCur st fun c => c.setCr 0x16 (setBit (c.getCr 0x16) 0)
          ((d.setVectorCr st 0x10 (BitVec.ofNat 64 f)).retire st 1, true)
        else
          let d := if e.lp6 && e.stores then d.storesAhead st e f else d
          let d := d.recordStop st f code (if e.lp6 then 2 else 1) false
          let d := d.modCur st fun c => c.setCr 0x16 (setBit (c.getCr 0x16) 1)
          (d.raise st 8 Status.vecElementFault (BitVec.ofNat 64 addr), false)

/-- An awake unit executes the running slot's queue in order; an LP6 entry waits at its head for its
elements. -/
def drainQueue (st : StallId) : Nat → Device → Device
  | 0, d => d
  | k + 1, d =>
    if (d.stall st).gate ≠ .awake then d
    else
      match (d.cur st).vq with
      | [] => d
      | e :: rest =>
        if e.lp6 then d
        else
          let (d, on) := (d.modCur st fun c => { c with vq := rest }).execEntry st e rest
          if on then drainQueue st k d else d

/-- The values that an entry captures at its placement (R138, R193), and where it starts (R170). -/
def capture (d : Device) (st : StallId) (kind : VecKind) (v : VFormat) : VecEntry :=
  let c := d.cur st
  { kind := kind, v := v, len := field (c.getCr 0x10) 0 10, base := c.getCr 0x11, stride := (c.getCr 0x12).setWidth 32
    scalar := c.getCr 0x13, modeF := c.modeF, start := c.resumeAt.getD 0, pc := c.pc }

/-- A vector instruction: illegal forms; then it is placed in the queue (R90, R141), wakes a gated unit (R145),
and an awake unit executes what it can; what issues between the boundary of a scheduled switch and its start is still
executing when the switch begins (log 24). A full queue holds the W slot, and so does an older instruction in the queue that
is yet to write LEN, or VSCALAR where it is an operand (R91): no effect. -/
def vectorIssue (d : Device) (st : StallId) (kind : VecKind) (v : VFormat) (w : W32) : Device :=
  d.issue st 1 fun d =>
    let e := d.capture st kind v
    if e.illegal then d.illegal st w
    else if decide (4 ≤ (d.cur st).vq.length) ||
        (d.cur st).vq.any fun q => q.kind = .setvl || e.usesScalar && q.writesScalar then d
    else
      let d := d.modCur st fun c => { c with vq := c.vq ++ [e] }
      let d := if e.memory then d.modCur st fun c => { c with hold := some .vector } else d.retire st 1
      let d := if (d.stall st).gate = .gated then d.modStall st fun s => { s with gate := .waking } else d
      if (d.stall st).switchTo.isSome then d else drainQueue st 4 d

/-- A context switch stops the entry that the outgoing slot executes after its element done − 1, or before its first
fault: it continues from there with its captured operands (R125, R172). An entry that has then completed leaves the
queue. R172 names VFAULT_IDX, SWITCH and CODE; that SOURCE becomes 0 is the model's choice, and so is that an error of parity in
any quarter which the entry reads is raised here, whichever element the stop names (DEDUCED, log 93). -/
def stopVector (d : Device) (st : StallId) (done : Nat) : Device :=
  match (d.cur st).vq with
  | [] => d
  | e :: rest =>
    if (d.stall st).gate ≠ .awake then d
    else if (d.parityFault st e).isSome || (!e.lp6 && decide (e.n ≤ done)) then
      ((d.modCur st fun c => { c with vq := rest }).execEntry st e rest).1
    else
      let hi := min done e.n
      let (d, stop) :=
        if e.memory then d.memElems st e hi
        else if e.byElement then ((d.arithTo st e hi).renew st e (d.written st e hi), none)
        else (d, none)
      let f := match stop with
        | some (i, _) => i
        | none => if e.memory || e.byElement then max e.start hi else e.start
      (d.recordStop st f 0 0 true).modCur st fun c => { c with vq := { e with start := f } :: rest }

end Device

end Sys2Proof.Machine
end

