-- ==== Sys2Proof/Machine/Switch.lean ====
section
/-! DEFINITION. Context switches and the parking of contexts (R86, R121 to R127, R172, R418). -/

namespace Sys2Proof.Machine

namespace Device

/-- A slot's partition in bytes, with its image (R122). -/
def partBytes (d : Device) (st : StallId) (sl : Slot) : Nat := d.loftLimit st sl + 49152

/-- DPA of a slot's context image: the top 48 KiB of its partition. -/
def imageAt (d : Device) (st : StallId) (sl : Slot) : Nat := loftDpa st (d.partBase st sl + d.loftLimit st sl)

/-! ### Scheduling (R126, R418) -/

/-- Gate firmware schedules no switch into a slot while a move into it is outstanding (R127). The rule bars the switch
until the move has reported its single status; after a LATE status the model goes on barring it until the last byte
(DEDUCED, log 73). -/
def moveInto (d : Device) (st : StallId) (sl : Slot) : Bool :=
  (d.stall st).barrow.any fun j => j.firmware && j.slot = sl && !j.put

/-- Gate firmware's decision at a boundary: the slot to switch to. -/
def wantSwitch (d : Device) (st : StallId) : Option Slot :=
  let s := d.stall st
  let target := otherSlot s.slot
  let asked := match s.slot with
    | .primary => s.switchReq
    | .paddock => s.recalled || s.switchReq || !s.paddock.running || decide (d.boot.fillLimit.toNat ≤ s.fillAge + 1)
  if d.paddockEn st && asked && (s.ctx target).running && !d.moveInto st target then some target else none

/-- Step 8 of a boundary for one stall: a switch is scheduled, and the request is cleared, unless a move into the
other slot, which runs a program, holds it up (R127). A switch that no pass holds up begins at the boundary, so that its
outgoing slot is switched out for the whole frame (R86, R119). -/
def scheduleSwitch (d : Device) (st : StallId) : Device :=
  let s := d.stall st
  if s.switching.isSome || s.switchTo.isSome then d
  else
    let want := if d.serving then d.wantSwitch st else none
    let other := otherSlot s.slot
    let later := d.serving && d.paddockEn st && (s.ctx other).running && d.moveInto st other
    let d := if want.isSome && !s.cur.mrun.any (·.inPass) then d.modCur st fun c => { c with ran := false } else d
    d.modStall st fun s =>
      { s with
        switchTo := want.map fun t => (t, d.now)
        switchReq := s.switchReq && later
        recalled := s.recalled && later
        fillAge := if s.slot = .paddock then s.fillAge + 1 else 0 }

/-! ### The switch (R86, R124, R125) -/

/-- The vector registers and weight halves of a stall as the bytes of an image, the halves by logical lane. -/
def imageBytes (d : Device) (st : StallId) : List Byte :=
  let s := d.stall st
  (s.v.toList.flatMap fun v => leBytes 512 v.toNat)
    ++ (finList 4).flatMap fun (m : Fin 4) => (finList 2).flatMap fun (h : Fin 2) =>
      (finList 64).flatMap fun j => leBytes 64 (s.mgr[m].half[h][d.lane st m j]).toNat

/-- A stall with the registers and halves that an image's bytes give. -/
def withImage (d : Device) (st : StallId) (bs : List Byte) : Device :=
  let num (o n : Nat) : Nat := leNat ((bs.drop o).take n)
  let filled (m : Fin 4) (h : Fin 2) (old : Vector (BitVec 512) 66) : Vector (BitVec 512) 66 :=
    (finList 64).foldl (fun (v : Vector (BitVec 512) 66) (j : Fin 64) =>
      v.set (d.lane st m j) (BitVec.ofNat 512 (num (16384 + (m.val * 2 + h.val) * 4096 + j.val * 64) 64))) old
  d.modStall st fun s =>
    { s with
      v := Vector.ofFn fun (r : Fin 32) => BitVec.ofNat 4096 (num (r.val * 512) 512)
      mgr := Vector.ofFn fun (m : Fin 4) =>
        { s.mgr[m] with half := Vector.ofFn fun (h : Fin 2) => filled m h s.mgr[m].half[h] } }

/-- What an instruction held at a switch leaves behind: it issues again on resume (R125). -/
def releaseHold (c : SlotCtx) : SlotCtx :=
  match c.hold with
  | some (.fwait _) | some (.send _ _) | some (.recv _ _ _) => { c with hold := none }
  | _ => c

/-- The outgoing image is written, with the words of a register of wrong parity poisoned. -/
def saveImage (d : Device) (st : StallId) (sl : Slot) : Device :=
  let a := d.imageAt st sl
  let d := (d.writeRange a (d.imageBytes st) false).1
  (d.stall st).vBad.foldl (fun d p => d.poisonWords (a + p.1.val * 512 + p.2.val * 128) 128) d

/-- The incoming image is read; a register with a word that does not read has wrong parity, and such a half is
poisoned. -/
def loadImage (d : Device) (st : StallId) (sl : Slot) : Device :=
  let a := d.imageAt st sl
  let (d, bs, bad) := d.readRange a 49152 false
  let offs := bad.map fun p => p.1 - a
  let quarter (r : VReg) (q : Fin 4) : Bool := offs.any fun o => o / 512 = r.val && o % 512 / 128 = q.val
  let lost := (finList 32).flatMap fun (r : VReg) => ((finList 4).filter fun (q : Fin 4) => quarter r q).map fun q => (r, q)
  let poisoned (m : Fin 4) (h : Fin 2) : Bool := offs.any fun o => decide (16384 ≤ o) && (o - 16384) / 4096 = m.val * 2 + h.val
  let d := (d.withImage st bs).modStall st fun s => { s with vBad := lost }
  d.modCtx st sl fun c =>
    { c with half := Vector.ofFn fun (m : Fin 4) => Vector.ofFn fun (h : Fin 2) =>
        if poisoned m h then { c.half[m][h] with poisoned := true } else c.half[m][h] }

/-- The outgoing slot stops; done is the element before which its vector instruction stops. Its request has its switch.
The swap engine holds the loft's network port from here to the end of the switch, and what other engines send to the
loft waits (R124): the images move here, so that every later access comes after them. -/
def startSwitch (d : Device) (st : StallId) (target : Slot) (done : Nat) : Device :=
  let d := (d.stopVector st done).modCur st releaseHold
  let d := (d.saveImage st (d.slotOf st)).loadImage st target
  d.modStall st fun s => { s with switchTo := none, switching := some target, switchReq := false }

/-- 192 cycles later the incoming slot runs, and an awake unit goes on with its queue (R141). -/
def endSwitch (d : Device) (st : StallId) (target : Slot) : Device :=
  let d := d.modStall st fun s =>
    { s with slot := target, switching := none, fillAge := 0, recalled := s.recalled && target = .paddock }
  let d := d.modCtx st target fun c => { c with ran := true }
  if (d.stall st).active then drainQueue st 4 d else d

/-! ### Parking (R127) -/

/-- A LINEAR descriptor over the whole partition of a slot. -/
def parkDesc (d : Device) (st : StallId) (sl : Slot) (dpa : Nat) : Vector W64 8 :=
  ((Vector.replicate 8 (0 : W64)).set 1 (BitVec.ofNat 64 (d.partBytes st sl * 2 ^ 32))).set 2 (BitVec.ofNat 64 dpa)

/-- Gate firmware may move the context of a slot to or from a DPA: the range lies in one yard's LP6 memory, the stall's
booked backlog for it is empty and its share above 0, and nothing that the slot has issued is still to be accepted. The
rule does not say what becomes of a move that is asked for while the slot is resident, its switch is due or under way, or
a move into it is outstanding: gate firmware makes none then (DEDUCED, log 73). -/
def mayPark (d : Device) (st : StallId) (sl : Slot) (dpa : Nat) : Bool :=
  let s := d.stall st
  let y := d.yardAt dpa
  let n := d.partBytes st sl
  d.serving && d.paddockEn st && d.slotOf st ≠ sl && s.switching.isNone && s.switchTo.isNone && !d.moveInto st sl
    && dpa % 64 = 0 && d.inLp6 dpa n && d.yardAt (dpa + n - 1) = y && d.backlog st y = 0 && d.share st y ≠ 0
    && decide ((s.barrow.filter fun j => j.slot = sl).length < 16) && s.barrow.all fun j => j.accepted || j.slot ≠ sl

/-- A context move: a booked descriptor of the stall, which the barrow accepts at once. -/
def parkContext (d : Device) (st : StallId) (sl : Slot) (dir : ParkDir) (dpa : Nat) : Device :=
  if d.mayPark st sl dpa then
    let j := { d.newJob st (dir = .park) (d.parkDesc st sl dpa) with slot := sl, firmware := true }
    (d.modStall st fun s => { s with barrow := s.barrow ++ [j] }).acceptJob st (d.stall st).barrow.length j
  else d

end Device

/-! ### The commands -/

/-- A scheduled switch begins once no pass of the outgoing slot is in flight (R86, R261). -/
def execContextSwitchStart (st : StallId) (done : Nat) (s : State) : Host.Outcome State Fault Refusal :=
  .next (s.onDev fun d =>
    match (d.stall st).switchTo with
    | some (target, _) => if d.inBoundary || (d.cur st).mrun.any (·.inPass) then d else d.startSwitch st target done
    | none => d)

/-- The swap engine has moved both images (R124). -/
def execContextSwitchDone (st : StallId) (s : State) : Host.Outcome State Fault Refusal :=
  .next (s.onDev fun d =>
    match (d.stall st).switching with
    | some target => d.endSwitch st target
    | none => d)

def execParkContext (st : StallId) (sl : Slot) (dir : ParkDir) (dpa : BitVec 48) (s : State) :
    Host.Outcome State Fault Refusal :=
  .next (s.onDev fun d => d.parkContext st sl dir dpa.toNat)

end Sys2Proof.Machine
end

