-- ==== Sys2Proof/Machine/Tally.lean ====
section
/-! DEFINITION. The conservation tallies: their counts, the audit of a boundary, reclamation by SLOT_RECLAIM, the
overrides, and data injection (R547 to R557). -/

namespace Sys2Proof.Machine

/-- Where the tally of a kind and index shows: its page and its TALLY_SEL value there (R548). -/
def tallyPlace (kind idx : Nat) : Page × Nat :=
  match kind with
  | 1 => (⟨.stall, idx / 8⟩, idx % 8)
  | 2 => (⟨.stall, idx / 16⟩, 8 + idx % 16)
  | 3 => (⟨.stall, idx / 2⟩, 24 + idx % 2)
  | 4 => (⟨.stall, idx / 2⟩, 26 + idx % 2)
  | 5 => (⟨.stall, idx / 2⟩, 28 + idx % 2)
  | 6 => (⟨.port, idx / 6⟩, idx % 6)
  | 7 => (⟨.port, idx / 6⟩, 6 + idx % 6)
  | 8 => (⟨.drover, idx / 64⟩, idx % 64)
  | _ => (⟨.forge, idx⟩, 0)

/-- KIND and INDEX of the tally that a page shows under a TALLY_SEL value (R548). -/
def tallyAt (p : Page) (sel : Nat) : Option (Nat × Nat) :=
  match p.kind with
  | .stall =>
    if sel < 8 then some (1, p.num * 8 + sel)
    else if sel < 24 then some (2, p.num * 16 + (sel - 8))
    else if sel < 26 then some (3, p.num * 2 + (sel - 24))
    else if sel < 28 then some (4, p.num * 2 + (sel - 26))
    else if sel < 30 then some (5, p.num * 2 + (sel - 28))
    else none
  | .port => if sel < 6 then some (6, p.num * 6 + sel) else if sel < 12 then some (7, p.num * 6 + (sel - 6)) else none
  | .drover => if sel < 64 then some (8, p.num * 64 + sel) else none
  | .forge => if sel < 1 then some (9, p.num) else none
  | _ => none

def tallyId (kind idx : Nat) : W32 := BitVec.ofNat 32 (kind * 2 ^ 24 + idx)

/-- Every count lies from 0 to C. -/
def Counts.inRange (c : Counts) : Bool :=
  let ok (n : Int) : Bool := decide (0 ≤ n) && decide (n ≤ c.c)
  ok c.a && ok c.u && ok c.f

/-- Counts pass an audit: the tokens are all there, and every count lies from 0 to C (R549). -/
def Counts.balanced (c : Counts) : Bool := decide (c.a + c.u + c.f = c.c) && c.inRange

def Counts.plus (a b : Counts) : Counts := { c := a.c + b.c, a := a.a + b.a, u := a.u + b.u, f := a.f + b.f }

namespace Device

/-- The counts of a tally before TALLY_ADJ: those of its block, or those that SAFE has stopped (R547, R557). -/
def rawCounts (d : Device) (kind idx : Nat) : Option Counts :=
  ((d.tally.stopped.find? fun p => p.1 = (kind, idx)).map Prod.snd).or (d.blockCounts kind idx)

/-- The counts of a tally with what TALLY_ADJ has added. -/
def tallyCounts (d : Device) (kind idx : Nat) : Option Counts :=
  (d.rawCounts kind idx).map fun c =>
    match d.tally.adj.find? fun p => p.1 = tallyId kind idx with
    | some p => c.plus p.2
    | none => c

/-- Every open tally in the order of the IDs, with its counts. -/
def openTallies (d : Device) : List ((Nat × Nat) × Counts) :=
  ([1, 2, 3, 4, 5, 6, 7, 8, 9] : List Nat).flatMap fun kind =>
    (List.range (tallyCount kind)).filterMap fun idx => (d.tallyCounts kind idx).map fun c => ((kind, idx), c)

/-- Step 1 of a boundary: the counts that its audit uses. -/
def countTallies (d : Device) : Device := { d with tally := { d.tally with counted := d.openTallies } }

/-- A tally fails the audit by its counts of step 1 or by its sticky bit (R549). -/
def failsAudit (d : Device) (t : (Nat × Nat) × Counts) : Bool :=
  !t.2.balanced || d.tally.sticky.contains (tallyId t.1.1 t.1.2)

/-- Step 4 of a boundary (R549, R550): the audit of the counts of step 1. A violation is captured, logged per
tally, and sends the device to SAFE unless its yard is skipped. -/
def audit (d : Device) : Device :=
  let all := d.tally.counted
  let bad := all.filter d.failsAudit
  let d := { d with tally := { d.tally with
    counted := []
    sticky := []
    audits := (d.tally.audits + 1) % 2 ^ 30
    auditFrame := d.now
    snap := all.map fun t => (tallyId t.1.1 t.1.2, t.2)
    adj := d.tally.adj.filter fun p => all.any fun t => tallyId t.1.1 t.1.2 = p.1
    adjDue := d.tally.adjust } }
  match bad with
  | [] => d
  | first :: _ =>
    let shown := d.tally.viol.getD (tallyId first.1.1 first.1.2, first.2)
    let d := { d with tally := { d.tally with viol := some shown } }
    let d := bad.foldl (fun d t =>
      let p := (tallyPlace t.1.1 t.1.2).1
      d.logRing (d.logWord 2 p.domain Status.tallyViolation p (tallyId t.1.1 t.1.2).toNat 0 t.2 0)) d
    let d := d.eventCode Page.tally 1 Status.tallyViolation
    let skipped (t : (Nat × Nat) × Counts) : Bool :=
      if (tallyPlace t.1.1 t.1.2).1.domain = 0 then d.tally.skip0 else d.tally.skip1
    match bad.find? fun t => !skipped t with
    | some t => d.enterSafe (tallyPlace t.1.1 t.1.2).1.domain Status.tallyViolation Page.tally
    | none => d

/-- TALLY_ADJ moves a tally's count by its signed delta, once (R556). -/
def applyAdjust (d : Device) : Device :=
  let id := d.preg Page.tally 0x134
  let v := d.preg Page.tally 0x138
  let delta := intOfNat 16 (field v 0 16)
  let one : Counts :=
    match field v 16 2 with
    | 0 => { noCounts with a := delta }
    | 1 => { noCounts with u := delta }
    | 2 => { noCounts with f := delta }
    | _ => noCounts
  let old := ((d.tally.adj.find? fun p => p.1 = id).map Prod.snd).getD noCounts
  let d := { d with tally := { d.tally with adjust := false, adjDue := false } }
  match d.tallyCounts (id.toNat / 2 ^ 24) (id.toNat % 2 ^ 24) with
  | some c =>
    if id.toNat % 2 ^ 24 < tallyCount (id.toNat / 2 ^ 24) then
      { d with tally := { d.tally with
        adj := (d.tally.adj.filter fun p => p.1 ≠ id) ++ [(id, old.plus one)]
        sticky := if (c.plus one).inRange then d.tally.sticky else (d.tally.sticky.filter (· ≠ id)) ++ [id] } }
    else d
  | none => d

/-- A write of SLOT_RECLAIM (R552). -/
def slotReclaim (d : Device) (v : W32) : Device :=
  let answer (d : Device) (c : Code) : Device :=
    { d with tally := { d.tally with slotRes := c } }.record Page.tally c
  let st : StallId := Fin.ofNat 384 (field v 0 9)
  let sl : Slot := if flag v 9 then .paddock else .primary
  if 383 < field v 0 9 ∨ (d.ctx st sl).running then answer d Status.stateInvalid
  else
    answer ((List.range 16).foldl (fun d n => d.closeChannel st sl (BitVec.ofNat 4 n) true) d) Status.done

/-- A write of TALLY_OVR (R554, R556). -/
def writeOvr (d : Device) (v : W32) : Device :=
  if d.trust.debugLevel ≠ 0 then d.record Page.tally Status.debugLocked
  else
    { d with tally := { d.tally with ovrUsed := true, skip0 := flag v 0, skip1 := flag v 1, adjust := flag v 2, adjDue := false } }

/-- The target that FI_CTL names exists (R555). -/
def injectable (d : Device) (v : W32) : Bool :=
  let addr := (d.preg Page.tally 0x140).toNat + (d.preg Page.tally 0x144).toNat * 2 ^ 32
  match field v 0 4 with
  | 0 => inLoft addr 1
  | 1 => decide (addr < d.boot.memCapacity) && d.mc[d.chanOf addr].state != .offline
  | 2 => decide (addr % 512 ≤ 383) && decide (addr < 2 ^ 18)
  | 3 => true
  | _ => false

/-- A write of FI_CTL: one that sets ARM arms in READY where the target exists; any other leaves ARMED at 0. -/
def writeFi (d : Device) (v : W32) : Device :=
  let d := d.setPreg Page.tally 0x13C (v &&& 0x1F)
  let arms := flag v 31 && d.boot.state = .ready && d.injectable v
  { d with tally := { d.tally with armed := arms, hit := false, fired := if arms then false else d.tally.fired } }

end Device

/-! ### The commands -/

def execSlotReclaim (_who : Requester) (v : W32) (s : State) : Host.Outcome State Fault Refusal :=
  .next (s.onDev fun d => if d.serving then d.slotReclaim v else d)

def execTallyOvr (_who : Requester) (v : W32) (s : State) : Host.Outcome State Fault Refusal :=
  .next (s.onDev fun d => if d.served then d.writeOvr v else d)

/-- The boundary after a write of ADJUST has come (R554, R556). -/
def execTallyAdjust (s : State) : Host.Outcome State Fault Refusal :=
  .next (s.onDev fun d => if d.tally.adjDue then d.applyAdjust else d)

def execFiArm (_who : Requester) (v : W32) (s : State) : Host.Outcome State Fault Refusal :=
  .next (s.onDev fun d => if d.served then d.writeFi v else d)

/-- The write to the armed target has been made (R555): ARM clears, FIRED is set, the TALLY page reports it. -/
def execFiFire (s : State) : Host.Outcome State Fault Refusal :=
  .next (s.onDev fun d =>
    if d.tally.armed && d.tally.hit then
      { d with tally := { d.tally with armed := false, hit := false, fired := true } }.event Page.tally 3
    else d)

end Sys2Proof.Machine
end

