-- ==== Sys2Proof/Machine/Pages.lean ====
section
/-! DEFINITION. What a register-BAR read returns: the page directory, the registers of every page, the MSI-X structures
and the boot window (R458, R461, R490 to R501, R513, and the register tables of the chapters). -/

namespace Sys2Proof.Machine

/-- Low and high words of a number. -/
def lo32 (n : Nat) : W32 := BitVec.ofNat 32 n
def hi32 (n : Nat) : W32 := BitVec.ofNat 32 (n / 2 ^ 32)

/-- The page at a directory index (R491). -/
def pageOfIndex (i : Nat) : Option Page :=
  (PageKind.all.find? fun k => decide (k.dirIndex ≤ i) && decide (i < k.dirIndex + k.count)).map fun k => ⟨k, i - k.dirIndex⟩

/-- A directory entry as its two 64-bit words (R490); indices 510 to 512 are the three regions. -/
def dirEntry (i : Nat) : Nat × Nat :=
  match pageOfIndex i with
  | some p => (p.base * 2 ^ 32 + p.kind.code * 2 ^ 16 + p.num, 0x1000 * 2 ^ 32 + 0x0001_0000)
  | none =>
    if i = 510 then (0xFE_0000 * 2 ^ 32 + 0xFF00 * 2 ^ 16, 0x400 * 2 ^ 32)
    else if i = 511 then (0xFE_1000 * 2 ^ 32 + 0xFF01 * 2 ^ 16, 8 * 2 ^ 32)
    else if i = 512 then (0x100_0000 * 2 ^ 32 + 0xFF02 * 2 ^ 16, 0x100_0000 * 2 ^ 32)
    else (0, 0)

/-- The directory word at offset o below 0x4000. -/
def dirWord (o : Nat) : W32 :=
  if o = 0x00 then 0x5249_445A
  else if o = 0x04 then 0x0201_0100
  else if o = 0x08 then 16
  else if o = 0x0C then 0x0400_0000
  else if o < 0x40 then 0
  else
    let e := dirEntry ((o - 0x40) / 16)
    let w := if o % 16 < 8 then e.1 else e.2
    if o % 8 = 0 then lo32 w else hi32 w

namespace Device

/-! ### The common block (R493 to R500) -/

/-- PAGE_TXN of a page. -/
def pageTxn (d : Device) (p : Page) : W32 :=
  match (finList 2).find? fun (w : Fin 2) => d.banks[w].pages.contains p.base with
  | some w =>
    let b := d.banks[w]
    let dirty := b.shadow.any fun x => decide (p.base ≤ x.1) && decide (x.1 < p.base + 4096)
    lo32 (2 ^ 30 + (w.val + 1) * 2 ^ 28 + bitAt dirty 27 + b.id.toNat)
  | none => 0

/-- The selected tally as of the last audit, and before the first audit as it stands. -/
def tallyShown (d : Device) (p : Page) : Counts :=
  match tallyAt p (d.pfield p 0x030 0 6) with
  | none => noCounts
  | some (k, i) =>
    if d.tally.audits = 0 then (d.tallyCounts k i).getD noCounts
    else ((d.tally.snap.find? fun x => x.1 = tallyId k i).map Prod.snd).getD noCounts

def commonValue (d : Device) (p : Page) (o : Nat) : W32 :=
  if o = 0x000 then lo32 p.id
  else if o = 0x004 then 0x0001_0000
  else if o = 0x008 then lo32 (pageCaps p.kind)
  else if o = 0x00C then d.pageTxn p
  else if o = 0x030 then lo32 (p.kind.tallies * 256 + d.pfield p 0x030 0 6)
  else if o = 0x034 then lo32 (natOfInt 32 (d.tallyShown p).a)
  else if o = 0x038 then lo32 (natOfInt 32 (d.tallyShown p).u)
  else if o = 0x03C then lo32 (natOfInt 32 (d.tallyShown p).f)
  else d.preg p o

/-- EVT_SUM[i] (R500). -/
def eventSummary (d : Device) (i : Nat) : W32 :=
  (List.range 32).foldl (fun (n : W32) j =>
    match pageOfIndex (32 * i + j) with
    | some p => if d.preg p 0x028 &&& d.preg p 0x02C = 0 then n else setBit n j
    | none => n) 0

/-! ### The pages of the gatehouse -/

/-- Channel masks read 0 before FW_INIT completes (R499). -/
def devicePage (d : Device) (o : Nat) : W32 :=
  let mask (n : Nat) : Nat := if d.boot.memCapacity = 0 then 0 else n
  if o = 0x100 then lo32 d.trust.deviceId.toNat
  else if o = 0x104 then hi32 d.trust.deviceId.toNat
  else if o = 0x108 then lo32 (d.trust.freqBin.toNat * 256 + 0xA1)
  else if o = 0x110 then lo32 d.boot.memSplit
  else if o = 0x114 then hi32 d.boot.memSplit
  else if o = 0x118 then lo32 d.boot.memCapacity
  else if o = 0x11C then hi32 d.boot.memCapacity
  else if o = 0x128 then lo32 (mask d.serviceMask)
  else if o = 0x12C then hi32 (mask d.serviceMask)
  else if o = 0x130 then lo32 (mask d.mapoutMask)
  else if o = 0x134 then hi32 (mask d.mapoutMask)
  else if 0x140 ≤ o ∧ o < 0x180 then d.eventSummary ((o - 0x140) / 4)
  else d.preg Page.device o

/-- R472, R501. -/
def gatehousePage (d : Device) (o : Nat) : W32 :=
  let b := d.boot
  let waiting := b.state = .romWait || b.state = .verify
  let busy (e : Fin 4) : Bool := (d.onEngine e).isSome
  if o = 0x100 then lo32 (b.warmResets * 2 ^ 16 + bitAt b.window 4 + stateCode b.state)
  else if o = 0x108 then b.result.setWidth 32
  else if o = 0x110 then lo32 (b.zhiVer.toNat * 2 ^ 16)
  else if o = 0x114 then lo32 (b.fwMax.toNat * 2 ^ 16 + b.fwMin.toNat)
  else if o = 0x118 then (if waiting then lo32 (b.timer / 10000000) else 0)
  else if o = 0x11C then b.safeCause.setWidth 32
  else if o = 0x120 then lo32 d.hpStat
  else if o = 0x124 then lo32 b.trained
  else if o = 0x140 then b.fwVersion
  else if o = 0x144 then lo32 (bitAt (b.fwRunning && !b.halted) 31 + bitAt (b.state = .safe && b.diag && !b.halted) 30)
  else if o = 0x148 then lo32 b.readyFrame.toNat
  else if o = 0x14C then hi32 b.readyFrame.toNat
  else if o = 0x150 then lo32 ((finList 4).foldl (fun n (e : Fin 4) => n + bitAt (busy e) e.val) 0)
  else d.preg Page.gatehouse o

def txnStateCode (s : TxnState) : Nat :=
  match s with
  | .idle => 0
  | .opened => 1
  | .pending => 2
  | .applied => 3
  | .failed => 4
  | .rolledBack => 5
  | .timedOut => 6

/-- R513. -/
def txcPage (d : Device) (o : Nat) : W32 :=
  let b := d.banks[(Fin.ofNat 2 ((o - 0x100) / 0x40))]
  let k := o % 0x40
  if 0x180 ≤ o then d.preg Page.txc o
  else if k = 0x04 then b.cmdRes.setWidth 32
  else if k = 0x18 then lo32 (txnStateCode b.state * 2 ^ 28 + b.code.toNat)
  else if k = 0x1C then b.failPage
  else if k = 0x20 then b.failOff
  else if k = 0x28 then lo32 b.pages.length
  else if k = 0x2C then lo32 b.endFrame.toNat
  else if k = 0x30 then hi32 b.endFrame.toNat
  else if k = 0x34 then b.id.setWidth 32
  else d.preg Page.txc o

def tickCode (s : TickState) : Nat :=
  match s with
  | .free => 0
  | .acquiring => 1
  | .aligned => 2
  | .holdover => 3

/-- R56, R87. -/
def framePage (d : Device) (who : Requester) (o : Nat) : W32 :=
  let t := d.tick
  if o = 0x104 then lo32 (bitAt t.refLost 31 + t.hopDepth.toNat * 2 ^ 16 + bitAt t.flag 3 + tickCode t.state)
  else if o = 0x108 then lo32 d.now.toNat
  else if o = 0x10C then d.ctr.frameLatch[who.idx].setWidth 32
  else if o = 0x110 then lo32 d.ctr.uptime.toNat
  else if o = 0x114 then d.ctr.uptimeLatch[who.idx]
  else if o = 0x124 then t.result.setWidth 32
  else if o = 0x128 then lo32 (natOfInt 32 t.phaseErr)
  else if o = 0x12C then lo32 (d.ports[d.upstream].rtt / 2)
  else if o = 0x130 then lo32 t.holdoverFrames
  else d.preg Page.frame o

/-- R538. -/
def fusePage (d : Device) (o : Nat) : W32 :=
  let t := d.trust
  let bits (f : Nat → Bool) : Nat := (List.range 4).foldl (fun n k => n + bitAt (f k) k) 0
  if o = 0x100 then
    lo32 (bitAt t.scanCleared 31 + bitAt t.idkValid 30 + bitAt t.tokenActive 29 + t.rights.toNat * 2 ^ 26
      + bits t.present * 2 ^ 20 + bits t.revoked * 2 ^ 16 + bitAt t.identReq 15 + bitAt t.scanLock 14 + t.debugLevel * 2 ^ 10
      + t.rollback)
  else if o = 0x104 then lo32 (d.boot.fuseResult.toNat * 2 ^ 16 + d.boot.keySlot.toNat * 256 + d.boot.svn.toNat)
  else if 0x110 ≤ o ∧ o < 0x130 then lo32 (field t.idkPub (8 * (o - 0x110)) 32)
  else if 0x140 ≤ o ∧ o < 0x160 then lo32 (field (vget t.mr (d.pfield Page.fuseView 0x130 0 3) 0) (8 * (o - 0x140)) 32)
  else if 0x160 ≤ o ∧ o < 0x180 then t.unit (6 + 8 * d.pfield Page.fuseView 0x134 0 2 + (o - 0x160) / 4)
  else d.preg Page.fuseView o

/-- R572. -/
def bistPage (d : Device) (o : Nat) : W32 :=
  let b := d.bist
  let round := (b.run.map BistRun.round).getD 0
  let percent := if b.phase = 0 then 0 else (Config.bistPercent b.phase round d.now).val
  if o = 0x118 then b.result.setWidth 32
  else if o = 0x11C then b.abortRes.setWidth 32
  else if o = 0x120 then lo32 (b.origin.toNat * 2 ^ 29 + b.phase * 2 ^ 24 + round * 256 + percent)
  else if o = 0x124 then lo32 b.found
  else if 0x12C ≤ o ∧ o ≤ 0x138 then
    ((b.log[d.pfield Page.bist 0x128 0 8]?).map fun w => vget w ((o - 0x12C) / 4) 0).getD 0
  else if o = 0x13C then b.startFrame
  else d.preg Page.bist o

/-- R594. -/
def powerPage (d : Device) (o : Nat) : W32 :=
  let p := d.pwr
  let rail := (p.rails[d.pfield Page.power 0x114 0 3]?).getD (0, 0)
  if o = 0x108 then
    lo32 (bitAt p.thermtrip 31 + bitAt p.prochot 30 + d.yards[1].level * 16 + d.yards[0].level)
  else if o = 0x10C then lo32 ((p.sample[3]?).getD 0 % 2 ^ 16)
  else if o = 0x110 then lo32 ((p.sample[2]?).getD 0 % 2 ^ 16)
  else if o = 0x118 then lo32 (rail.1 % 2 ^ 16)
  else if o = 0x11C then lo32 (rail.2 % 2 ^ 16)
  else if o = 0x124 then lo32 (natOfInt 16 ((p.temps[d.pfield Page.power 0x120 0 6]?).getD 0))
  else d.preg Page.power o

/-- R551, R556. -/
def tallyPage (d : Device) (o : Nat) : W32 :=
  let t := d.tally
  let v := (t.viol.map Prod.snd).getD noCounts
  if o = 0x100 then lo32 (bitAt t.ovrUsed 31 + bitAt t.viol.isSome 30 + t.audits % 2 ^ 30)
  else if o = 0x104 then lo32 t.auditFrame.toNat
  else if o = 0x108 then hi32 t.auditFrame.toNat
  else if o = 0x10C then (t.viol.map Prod.fst).getD 0
  else if o = 0x110 then lo32 (natOfInt 32 v.c)
  else if o = 0x114 then lo32 (natOfInt 32 v.a)
  else if o = 0x118 then lo32 (natOfInt 32 v.u)
  else if o = 0x11C then lo32 (natOfInt 32 v.f)
  else if o = 0x124 then lo32 (vget t.reclaimed (d.pfield Page.tally 0x120 0 4) 0)
  else if o = 0x12C then t.slotRes.setWidth 32
  else if o = 0x130 then lo32 (bitAt t.adjust 2 + bitAt t.skip1 1 + b2n t.skip0)
  else if o = 0x13C then d.preg Page.tally o ||| lo32 (bitAt t.armed 31)
  else if o = 0x148 then lo32 (bitAt t.fired 1 + b2n t.armed)
  else if o = 0x14C then lo32 t.logCount
  else d.preg Page.tally o

/-! ### The pages of the yards -/

/-- R595. -/
def yardPage (d : Device) (y : Yard) (o : Nat) : W32 :=
  let p := d.yards[y]
  if o = 0x100 then
    lo32 (p.mhz * 2 ^ 20 + p.vset * 2 ^ 10 + bitAt p.busy 9 + p.duty * 16 + p.cause.toNat * 4 + p.level)
  else if o = 0x104 then lo32 (natOfInt 16 p.hot * 2 ^ 16 + p.hotIdx)
  else if o = 0x108 then lo32 (average p.hist % 2 ^ 16)
  else d.preg (Page.yard y) o

def teamStateCode (s : TeamState) : Nat :=
  match s with
  | .free => 0
  | .pending => 1
  | .active => 2
  | .severed => 3
  | .broken => 4

def teamPhaseCode (p : TeamPhase) : Nat :=
  match p with
  | .idle => 0
  | .collect => 1
  | .handshake => 2
  | .payload => 3
  | .completing => 4

/-- Descriptors in the queues of a drover for a slot. -/
def queuedFor (d : Device) (y : Yard) (sl : Slot) : Nat := (d.drovers[y].jobs.filter fun j => j.slot = sl).length

/-- R412. -/
def droverPage (d : Device) (y : Yard) (o : Nat) : W32 :=
  let v := d.drovers[y]
  let active := v.teams.toList.filter fun t => t.state = .active
  let sel := d.team y (Fin.ofNat 64 (d.pfield (Page.drover y) 0x11C 0 6))
  if o = 0x100 then
    lo32 ((v.teams.toList.filter Team.setUp).length * 2 ^ 24 + min 16 (d.queuedFor y .paddock) * 256 + min 16 (d.queuedFor y .primary))
  else if o = 0x108 then v.result.setWidth 32
  else if o = 0x120 then
    lo32 (teamStateCode sel.state * 2 ^ 29 + teamPhaseCode sel.phase * 2 ^ 24 + sel.rank % 16 * 2 ^ 20
      + (sel.size - 1) % 16 * 2 ^ 16 + field sel.nextSeq 0 16)
  else if o = 0x128 then lo32 (bitAt (v.teams.toList.any (·.abortPending)) 31 + v.abortRes.toNat)
  else if o = 0x12C then lo32 ((active.map fun t => t.lp6Res 0).sum)
  else if o = 0x130 then lo32 ((active.map fun t => t.lp6Res 1).sum)
  else if o = 0x134 then lo32 ((active.map Team.bridgeRes).sum)
  else d.preg (Page.drover y) o

/-- R451. -/
def forgePage (d : Device) (y : Yard) (o : Nat) : W32 :=
  let f := d.forges[y]
  let used := (f.ret.toList.filter Retention.used).length
  let runs (h : Fin 4) : Bool := f.reqs.any fun q => q.problems.any fun p => p.phase = .running h
  let busy := (finList 4).foldl (fun n (h : Fin 4) => n + bitAt (runs h) h.val) 0
  let tpl := vget f.tpl (d.pfield (Page.forge y) 0x120 0 4) none
  let num (g : Template → Nat) : W32 := lo32 ((tpl.map g).getD 0)
  if o = 0x108 then lo32 (used * 2 ^ 25 + busy * 2 ^ 21 + f.reqs.length % 2 ^ 11)
  else if o = 0x10C then lo32 (((d.forgeSet y d.spentNow).map fun q => q.2.2.1).sum)
  else if o = 0x114 then f.tplResult.setWidth 32
  else if o = 0x124 then num fun t => 2 ^ 31 + t.held * 2 ^ 24 + (if t.dense then 1 else 2)
  else if o = 0x128 then (tpl.map Template.version).getD 0
  else if o = 0x12C then num Template.iter
  else if o = 0x130 then num Template.setup
  else if o = 0x134 then num Template.back
  else if o = 0x138 then num Template.work
  else if o = 0x13C then num Template.ret
  else if o = 0x140 then num fun t => t.fprint.toNat
  else if o = 0x144 then num fun t => t.fprint.toNat / 2 ^ 32
  else if o = 0x148 then num Template.lp6
  else if o = 0x150 then f.abortRes.setWidth 32
  else d.preg (Page.forge y) o

def portCode (s : PortState) : Nat :=
  match s with
  | .down => 0
  | .training => 1
  | .negotiating => 2
  | .identifying => 3
  | .up => 4
  | .slow => 5
  | .absent => 6
  | .faulty => 7
  | .hostile => 8

def laneWord (m : LaneMap) : W32 :=
  lo32 ((match m.spare with
    | some l => l.val
    | none => 0x1F) * 2 ^ 27 + m.active.toNat)

/-- R374. -/
def portPage (d : Device) (p : PortId) (o : Nat) : W32 :=
  let q := d.ports[p]
  let id := (q.partner.map fun h => h.deviceId.toNat).getD 0
  if o = 0x104 then
    lo32 (portCode q.state * 2 ^ 28 + q.width.toNat * 2 ^ 19 + bitAt q.rateFb 18
      + bitAt (q.tx.spare.isSome && q.rx.spare.isSome) 17 + bitAt (q.tx.degraded || q.rx.degraded) 16
      + q.version.toNat % 2 ^ 16 / 256 % 16 * 2 ^ 12 + q.version.toNat % 16 * 2 ^ 8 + field q.features 0 8)
  else if o = 0x10C then q.result.setWidth 32
  else if o = 0x12C then lo32 id
  else if o = 0x130 then hi32 id
  else if o = 0x134 then lo32 ((q.partner.map fun h => h.port.toNat).getD 0)
  else if o = 0x138 then lo32 q.rtt
  else if o = 0x13C then lo32 (q.creditLoop / 1000)
  else if o = 0x154 then laneWord q.tx
  else if o = 0x158 then laneWord q.rx
  else if o = 0x15C then lo32 (q.fenceDetail.toNat * 2 ^ 24 + q.fenceCode.toNat)
  else d.preg (Page.port p) o

/-- R483. -/
def hostqPage (d : Device) (q : QueueId) (o : Nat) : W32 :=
  let h := d.queues[q]
  if o = 0x100 then d.preg (Page.hostq q) o ||| lo32 (bitAt h.en 31)
  else if o = 0x104 then lo32 (bitAt h.err 31 + bitAt h.draining 30 + h.code.toNat)
  else if o = 0x11C then lo32 h.sqHead
  else if o = 0x124 then lo32 h.cqTail
  else d.preg (Page.hostq q) o

/-- R328: BARROW_STAT of each stall. -/
def shedPage (d : Device) (u o : Nat) : W32 :=
  if 0x100 ≤ o ∧ o < 0x200 ∧ o % 16 = 4 then
    let st : StallId := Fin.ofNat 384 (16 * u + (o - 0x100) / 16)
    -- BACKLOG rounds a charge up to whole units of 64 B: R328 does not say how (DEDUCED, log 103)
    lo32 ((d.stall st).barrow.length % 64 * 2 ^ 26 + ceilDiv (d.backlog st 0 + d.backlog st 1) 64 % 2 ^ 24)
  else d.preg ⟨.shed, u⟩ o

def chanCode (s : ChanState) : Nat :=
  match s with
  | .absent => 0
  | .training => 1
  | .inService => 2
  | .offline => 3
  | .mappedOut => 4

/-- R329. -/
def memctlPage (d : Device) (c : Chan) (o : Nat) : W32 :=
  let m := d.mc[c]
  if o = 0x104 then
    lo32 (bitAt m.mapoutPend 31 + m.serviceIdx.toNat * 2 ^ 16 + chanCode m.state * 256 + m.level * 16 + m.rate.toNat)
  else if o = 0x108 then lo32 (min 0xFF (m.age / 64) * 2 ^ 16 + m.code.toNat * 256 + m.temp.toNat)
  else if o = 0x134 then lo32 m.ueW
  else d.preg (Page.memctl c) o

/-- The mirror at offset o of a STALL page: slot, control register, and whether it is the high word (R97). -/
def mirrorAt (o : Nat) : Option (Slot × Nat × Bool) :=
  if 0x100 ≤ o ∧ o < 0x400 then some (.primary, (o - 0x100) / 8, decide (o % 8 = 4))
  else if 0xC00 ≤ o ∧ o < 0xF00 then some (.paddock, (o - 0xC00) / 8, decide (o % 8 = 4))
  else none

/-- MGR_REPAIR (R266). -/
def mgrRepair (d : Device) (st : StallId) (m : Fin 4) : W32 :=
  let l := deadLanes d.trust st m
  lo32 ((l[1]?).getD 0x7F * 2 ^ 16 + (l[0]?).getD 0x7F * 256 + min 2 l.length)

/-- R97, R121, R266, R297. -/
def stallPage (d : Device) (st : StallId) (o : Nat) : W32 :=
  match mirrorAt o with
  | some (sl, n, high) => if high then hi32 (d.crRead st sl n).toNat else lo32 (d.crRead st sl n).toNat
  | none =>
    if 0x400 ≤ o ∧ o < 0xC00 ∧ o % 0x200 = 0 then d.mgrRepair st (Fin.ofNat 4 ((o - 0x400) / 0x200))
    else d.preg (Page.stall st) o

/-! ### Any register -/

/-- The row of a register of a page, with a mirror of R97 counted as no row. -/
def rowOf (p : Page) (o : Nat) : Option RegRow := p.kind.row? o

/-- What a register of a page reads: a WO or reserved one reads 0, and an RWT one shows its owner the shadow
(R487, R504). -/
def pageValue (d : Device) (who : Requester) (p : Page) (o : Nat) : W32 :=
  let mirror := p.kind = .stall && (mirrorAt o).isSome
  match rowOf p o with
  | none => if mirror then d.stallPage (Fin.ofNat 384 p.num) o else 0
  | some r =>
    if r.acc = .wo then 0
    else if r.acc = .rwt then d.rwtValue who.idx (p.reg o)
    else if o < 0x100 then d.commonValue p o
    else
      match p.kind with
      | .device => d.devicePage o
      | .gatehouse => d.gatehousePage o
      | .txc => d.txcPage o
      | .frame => d.framePage who o
      | .fuseView => d.fusePage o
      | .bist => d.bistPage o
      | .power => d.powerPage o
      | .tally => d.tallyPage o
      | .yard => d.yardPage (Fin.ofNat 2 p.num) o
      | .drover => d.droverPage (Fin.ofNat 2 p.num) o
      | .forge => d.forgePage (Fin.ofNat 2 p.num) o
      | .port => d.portPage (Fin.ofNat 8 p.num) o
      | .hostq => d.hostqPage (Fin.ofNat 16 p.num) o
      | .shed => d.shedPage p.num o
      | .memctl => d.memctlPage (Fin.ofNat 64 p.num) o
      | .stall => d.stallPage (Fin.ofNat 384 p.num) o

/-- A page answers in the present state (R460). -/
def pageServed (d : Device) (p : Page) : Bool :=
  d.served || (d.powered && (p.kind = .device || p.kind = .gatehouse || p.kind = .fuseView))

/-- The page at a register-BAR offset, where it answers. -/
def livePage (d : Device) (off : Nat) : Option Page := (pageAt off).bind fun p => if d.pageServed p then some p else none

/-- What the register-BAR word at an offset reads. -/
def regValue (d : Device) (who : Requester) (off : Nat) : W32 :=
  if !d.powered then 0
  else if off < 0x4000 then dirWord off
  else if 0xFE_0000 ≤ off ∧ off < 0xFE_0400 then
    lo32 (field d.msixTable[(Fin.ofNat 64 ((off - 0xFE_0000) / 16))] (8 * (off % 16)) 32)
  else if off = 0xFE_1000 then lo32 d.pba.toNat
  else if off = 0xFE_1004 then hi32 d.pba.toNat
  else if 0x100_0000 ≤ off ∧ off < 0x200_0000 then
    (if d.boot.window then lo32 (leNat (d.rdSram (off - 0x100_0000) 4)) else 0)
  else
    match d.livePage off with
    | some p => d.pageValue who p (off % 4096)
    | none => 0

end Device

end Sys2Proof.Machine
end

