-- ==== Sys2Proof/Machine/Registers.lean ====
section
/-! DEFINITION. Register-BAR writes, reads with their side effects, and the register commands (R97, R486 to R489, R493 to
R497, R502 to R504, R513). -/

namespace Sys2Proof.Machine

namespace Device

/-! ### The common block -/

/-- A write of ERR_STAT (R495): one that leaves it at 0 clears ERR_FIRST.VALID. -/
def clearErrors (d : Device) (p : Page) (v : W32) : Device :=
  let x := d.preg p 0x018 &&& ~~~v
  let d := d.setPreg p 0x018 x
  if x = 0 then d.setPreg p 0x020 (clearBit (d.preg p 0x020) 31) else d

/-- A write of ERR_INJ (R496). -/
def injectErrors (d : Device) (p : Page) (v : W32) : Device :=
  let bits := v &&& 0xC000_FFFE
  match (List.range 32).find? fun i => flag bits i with
  | none => d
  | some i =>
    let d := d.recordBits p bits i 0 true
    if bits &&& ~~~(d.preg p 0x01C) = 0 then d else d.event p 0

/-- A write of EVT_STAT. -/
def clearEvents (d : Device) (p : Page) (v : W32) : Device := d.setPreg p 0x028 (d.preg p 0x028 &&& ~~~v)

/-- A write of PAGE_TXN. -/
def pageTxnWrite (d : Device) (who : Requester) (p : Page) (v : W32) : Device :=
  if flag v 31 then d.expired.enrol who.idx p (v.setWidth 16) else d

/-! ### STALL pages -/

/-- A write of a STEP_STAT (R296): clearing POISONED clears the layer and the code that it holds. -/
def clearStep (d : Device) (p : Page) (o : Nat) (v : W32) : Device := if flag v 31 then d.setPreg p o 0 else d

/-- A write of a mirror at offset o of a STALL page (R97): it takes effect only while that slot is halted. -/
def mirrorWrite (d : Device) (st : StallId) (o : Nat) (v : W32) : Device :=
  match mirrorAt o with
  | none => d
  | some (sl, n, high) =>
    if crReserved n then d
    else if crReadOnly n then d.access (Page.stall st)
    else if (d.ctx st sl).running then d
    else
      let old := d.crRead st sl n
      let x : W64 := if high then v ++ old.setWidth 32 else (BitVec.ofNat 32 (field old 32 32)) ++ v
      match d.crWrite st sl n x with
      | .inl _ => d
      | .inr d => d

/-! ### Command registers -/

/-- Bank w of the TXC page that a register belongs to. -/
def bankOf (o : Nat) : Option (Fin 2) := if o < 0x140 then some 0 else if o < 0x180 then some 1 else none

/-- A write of a WO register of the TXC page (R502, R505, R509, R513). -/
def txcCommand (d : Device) (who : Requester) (o : Nat) (v : W32) : Device :=
  let w := who.idx
  let d := d.expired
  if o % 0x40 = 0x00 then d.openTxn w
  else if o % 0x40 = 0x10 then d.commitTxn w (v.setWidth 16) (d.txnTarget w)
  else if o % 0x40 = 0x14 then d.rollbackCmd w (v.setWidth 16)
  else d

/-- A write of PORT_CMD. -/
def portCmd (d : Device) (who : Requester) (p : PortId) (v : W32) : Device :=
  match field v 0 2 with
  | 1 => d.bringupCmd who p
  | 2 => d.downCmd p
  | _ => d

/-- A write of a WO register of a page; a command that reports how far its work had gone finds it at its start. -/
def command (d : Device) (a : FuseArray) (who : Requester) (p : Page) (o : Nat) (v : W32) : Device :=
  if o = 0x024 then d.injectErrors p v
  else
    match p.kind with
    | .gatehouse => d.bootCmd a v
    | .txc => d.txcCommand who o v
    | .frame => if o = 0x120 then d.tickCmd v else d.kick
    | .bist => d.bistCmd v
    | .tally => if d.serving then d.slotReclaim v else d
    | .drover =>
      let y : Yard := Fin.ofNat 2 p.num
      if o = 0x104 then d.teamCmd y v else d.teamAbortCmd y v
    | .forge =>
      let y : Yard := Fin.ofNat 2 p.num
      if o = 0x110 then d.templateCmd y v else d.forgeAbort y v []
    | .port => d.portCmd who (Fin.ofNat 8 p.num) v
    | .hostq =>
      let q : QueueId := Fin.ofNat 16 p.num
      if o = 0x118 then d.sqDoorbell q (field v 0 12) else d.cqDoorbell q (field v 0 12)
    | .shed => if d.serving then d.barrowAbort (Fin.ofNat 24 p.num) v 0 else d
    | _ => d

/-! ### Plain registers -/

/-- A write of an RW register; some have a rule of their own. -/
def plainWrite (d : Device) (who : Requester) (p : Page) (o : Nat) (r : RegRow) (v : W32) : Device :=
  let store (d : Device) : Device := d.setPreg p o (v &&& BitVec.ofNat 32 r.mask)
  if o = 0x00C then d.pageTxnWrite who p v
  else if o < 0x100 then store d
  else
    match p.kind with
    | .gatehouse => if o = 0x10C ∧ d.boot.state ≠ .romWait then d else store d
    | .hostq => if o = 0x100 then d.hqCtl (Fin.ofNat 16 p.num) v else store d
    | .tally => if o = 0x130 then d.writeOvr v else if o = 0x13C then d.writeFi v else store d
    | _ => store d

def w1cWrite (d : Device) (p : Page) (o : Nat) (v : W32) : Device :=
  if o = 0x018 then d.clearErrors p v
  else if o = 0x028 then d.clearEvents p v
  else d.clearStep p o v

/-- A write of a register of a page that answers, by its access code (R487, R513). -/
def pageWrite (d : Device) (a : FuseArray) (who : Requester) (p : Page) (o : Nat) (v : W32) : Device :=
  match rowOf p o with
  | none => if p.kind = .stall then d.mirrorWrite (Fin.ofNat 384 p.num) o v else d
  | some r =>
    let foreign := p.kind = .txc && decide (0x100 ≤ o) && (bankOf o).any fun w => w ≠ who.idx
    match r.acc with
    | .ro | .rc => d.access p
    | .rw => if foreign then d.access p else d.plainWrite who p o r v
    | .rwt => d.expired.shadowWrite who.idx p o (v &&& BitVec.ofNat 32 r.mask)
    | .w1c => d.w1cWrite p o v
    | .wo => if foreign then d.access p else d.command a who p o v

/-- A word of the MSI-X table (R458): a message that waited goes out when its vector is unmasked. -/
def msixWrite (d : Device) (o : Nat) (v : W32) : Device :=
  let k : Fin 64 := Fin.ofNat 64 (o / 16)
  let sh := 8 * (o % 16)
  let value : W32 := if sh = 96 then v &&& 1 else if sh = 0 then v &&& ~~~3 else v
  let old := d.msixTable[k]
  let new : BitVec 128 := (old &&& ~~~((0xFFFF_FFFF : BitVec 128) <<< sh)) ||| (value.setWidth 128 <<< sh)
  let d := { d with msixTable := upd d.msixTable k fun _ => new }
  if !flag new 96 && flag d.pba k then ({ d with pba := clearBit d.pba k }).msix k else d

/-- A 4-byte write at an aligned register-BAR offset. -/
def wordWrite (d : Device) (a : FuseArray) (who : Requester) (off : Nat) (v : W32) : Device :=
  if !d.powered then d
  else if 0xFE_0000 ≤ off ∧ off < 0xFE_0400 then d.msixWrite (off - 0xFE_0000) v
  else if 0x100_0000 ≤ off ∧ off < 0x200_0000 then
    (if d.boot.window then d.wrSram (off - 0x100_0000) (leBytes 4 v.toNat) else d)
  else
    match d.livePage off with
    | some p => d.pageWrite a who p (off % 4096) v
    | none => d

/-- The access sizes that the register BAR accepts (R486). -/
def legalAccess (off size : Nat) : Bool := (size = 4 && off % 4 = 0) || (size = 8 && off % 8 = 0)

/-- An access of another size or alignment. -/
def badAccess (d : Device) (off : Nat) : Device :=
  match d.livePage off with
  | some p => d.access p
  | none => d

/-- A read of another size or alignment returns 0 (R486). -/
def badRead (d : Device) (off : Nat) : Device :=
  let d := d.badAccess off
  { d with out := { d.out with read := 0, readHigh := 0 } }

/-- A register-BAR write. -/
def regWrite (d : Device) (a : FuseArray) (who : Requester) (off size : Nat) (v : W64) : Device :=
  if !legalAccess off size then d.badAccess off
  else
    let d := d.wordWrite a who off (v.setWidth 32)
    if size = 8 then d.wordWrite a who (off + 4) (BitVec.ofNat 32 (field v 32 32)) else d

/-! ### Reads -/

/-- What a read of a page's register leaves behind: an RC register is cleared, and a low counter register latches its
high half (R50, R488). -/
def pageEffect (d : Device) (who : Requester) (p : Page) (o : Nat) : Device :=
  if p = Page.frame ∧ o = 0x108 then d.readCounter who .frameNow
  else if p = Page.frame ∧ o = 0x110 then d.readCounter who .uptime
  else if p = Page.tally ∧ o = 0x124 then
    { d with tally := { d.tally with reclaimed := vset d.tally.reclaimed (d.pfield Page.tally 0x120 0 4) 0 } }
  else
    match rowOf p o with
    | some r => if r.acc = .rc then d.setPreg p o 0 else d
    | none => d

/-- What a register-BAR read leaves behind. -/
def readEffect (d : Device) (who : Requester) (off : Nat) : Device :=
  match d.livePage off with
  | none => d
  | some p => d.pageEffect who p (off % 4096)

/-- A 4-byte read at an aligned register-BAR offset. -/
def wordRead (d : Device) (who : Requester) (off : Nat) : Device :=
  let v := d.regValue who off
  let d := if d.powered then d.readEffect who off else d
  { d with out := { d.out with read := v } }

/-- A register-BAR read; one of 8 bytes is two of 4 bytes, the lower offset first. -/
def regRead (d : Device) (who : Requester) (off size : Nat) : Device :=
  if !legalAccess off size then d.badRead off
  else if size = 8 then
    let low := d.regValue who off
    let d := (d.wordRead who off).wordRead who (off + 4)
    { d with out := { d.out with read := low, readHigh := d.out.read } }
  else d.wordRead who off

end Device

/-! ### The commands -/

/-- A register write with no row of its own. -/
def execRegisterWrite (who : Requester) (off : BitVec 26) (size : Nat) (v : W64) (s : State) :
    Host.Outcome State Fault Refusal :=
  .next (s.onDev fun d => d.regWrite s.array who off.toNat size v)

def execRwtWrite (who : Requester) (off : BitVec 26) (v : W32) (s : State) : Host.Outcome State Fault Refusal :=
  .next (s.onDev fun d => d.regWrite s.array who off.toNat 4 (v.setWidth 64))

/-- A read of 4 or 8 bytes; of an RC register it clears it. -/
def execRcRead (who : Requester) (r : RegRead) (s : State) : Host.Outcome State Fault Refusal :=
  .next (s.onDev fun d => d.regRead who r.off.toNat r.size)

/-- A write of ERR_STAT of the page at a register-BAR offset. -/
def execErrStatClear (_who : Requester) (page : BitVec 26) (v : W32) (s : State) : Host.Outcome State Fault Refusal :=
  .next (s.onDev fun d =>
    match d.livePage page.toNat with
    | some p => d.clearErrors p v
    | none => d)

def execErrInj (_who : Requester) (page : BitVec 26) (v : W32) (s : State) : Host.Outcome State Fault Refusal :=
  .next (s.onDev fun d =>
    match d.livePage page.toNat with
    | some p => d.injectErrors p v
    | none => d)

/-- A write of a STALL page's mirrors; one at an offset of another alignment sets the page's ACCESS (R486). -/
def execStallMirrorWrite (_who : Requester) (st : StallId) (off : BitVec 12) (v : W32) (s : State) :
    Host.Outcome State Fault Refusal :=
  .next (s.onDev fun d =>
    if !d.served then d
    else if off.toNat % 4 = 0 then d.mirrorWrite st off.toNat v
    else d.access (Page.stall st))

/-- A read of another size or alignment returns 0 and sets ACCESS. -/
def execIllegalRegisterRead (_who : Requester) (off : BitVec 26) (s : State) : Host.Outcome State Fault Refusal :=
  .next (s.onDev fun d => d.badRead off.toNat)

end Sys2Proof.Machine
end

