-- ==== Sys2Proof/Machine/Boundary.lean ====
section
/-! DEFINITION. The frame boundary: the ordered actions of R85, with the transactions of step 6 as commands of their own
between its two halves (R46, R49, R53, R57, R79 to R86, R466, R506, R510). -/

namespace Sys2Proof.Machine

namespace Device

/-! ### Steps 2 to 5 -/

/-- How long the frame that ends lasted, in ps: 10.24 µs, but for a step frame, which ends at the aligned instant (R61), and
a frame of an ALIGNED follower, which its correction moves by at most 2.0 ns (R43, R57). -/
def frameLen (d : Device) : Nat :=
  if d.tick.inStep then d.tick.stepLen
  else if d.tickRole = 2 && d.tick.state = .aligned then (10240000 + 400 * d.tick.correction).toNat
  else 10240000

/-- The counters at step 2, after a frame of len ps: the frame counter, UPTIME by the whole reference cycles that have
passed, the frames since FW_KICK, and the ROM_WAIT timer in units of 0.1 ns. -/
def countFrame (d : Device) (len : Nat) : Device :=
  { d with
    ctr := { d.ctr with
      frame := d.ctr.frame + 1
      uptime := d.ctr.uptime + BitVec.ofNat 64 ((d.ctr.phase + len) / 6400)
      phase := (d.ctr.phase + len) % 6400
      kickAge := if d.boot.fwRunning then d.ctr.kickAge + 1 else 0 }
    tick := { d.tick with lastLen := len }
    boot := { d.boot with timer := if d.boot.state = .romWait then d.boot.timer - len / 100 else d.boot.timer } }

/-- STALL_LIMIT (R83). -/
def stallLimit (d : Device) : Nat := d.pfield Page.frame 0x134 0 8

/-- A slot overran the frame that ends: slotted, running in it, and without an FYIELD (R79 to R81). -/
def overran (c : SlotCtx) : Bool := c.ran && c.running && flag (c.getCr 0x04) 0 && !c.yielded

/-- The frame's marks of a slot at the boundary: FYIELD, and whether the groom runs it now. -/
def slotFrame (c : SlotCtx) (here : Bool) : SlotCtx := { c with yielded := false, ran := here }

/-- Step 5 for one stall: one record for the stall, whichever of its slots ran in the frame without an FYIELD (R81); the
consecutive overruns of the stall count towards STALL_LIMIT, in whichever slot each was (R83). -/
def checkOverrun (d : Device) (st : StallId) : Device :=
  let s := d.stall st
  let late := overran s.primary || overran s.paddock
  let n := if late then s.overruns + 1 else 0
  let lim := d.stallLimit
  let d := d.modStall st fun s =>
    { s with
      primary := slotFrame s.primary (s.slot = .primary)
      paddock := slotFrame s.paddock (s.slot = .paddock)
      overruns := n
      watchdogDue := s.watchdogDue || (lim != 0 && decide (lim ≤ n)) }
  if late then (d.bump Page.frame 0x13C 1).eventCode Page.frame 3 Status.frameOverrun else d

/-- Step 5. -/
def checkOverruns (d : Device) : Device := (finList 384).foldl (fun d (st : StallId) => d.checkOverrun st) d

/-! ### Steps 7 to 9 -/

/-- A port at the boundary (R341, R350, R352, R354, R368, R371, R372): a FAULTY condition met is entered, the frame's
counts start anew, and VC0 has a flit to send. -/
def portFrame (d : Device) (p : PortId) : Device :=
  let d : Device := match d.ports[p].faultDue with
    | some x =>
      if d.ports[p].linked then d.leave p .faulty x.toNat Status.portFenced
      else if d.ports[p].rising && x = 4 then (d.sendDown p 4).leavePort p .faulty 4 Status.portFenced
      else d
    | none => d
  let d := d.modPort p fun q =>
    { q with
      quiet := q.linked && !q.heard
      heard := false
      replayLog := (q.replayLog.filter fun r => decide (since d.now r.1 < 1024)) ++ (if q.replaysSent = 0 then [] else [(d.now - 1, q.replaysSent)])
      fec := q.fec.filter fun x => decide (since d.now x.1 < 1024)
      sent0 := 0
      room := q.slotsPerFrame
      teamSent := []
      replayOpen := false
      bookedSent := Vector.replicate 6 0
      round := Vector.replicate 6 0
      replaysSent := 0
      spoke := false
      unacked := q.unacked.filter fun u => !(u.replayed && decide (3 ≤ since d.now u.first)) }
  let q : Port := d.ports[p]
  if !q.talking || !(vget q.queue 0 []).isEmpty then d
  else if q.state = .negotiating && (q.partner.isNone || !helloAcked q) then d.sendHello p
  else d.controlFlit p 0x11 []

/-- A team at the boundary. -/
def teamStep (d : Device) (y : Yard) (t : Fin 64) : Device :=
  if (d.team y t).op.isNone then d
  else (((d.teamFrame y t).settle y t).releaseComplete y t).tryClose y t

def teamSteps (d : Device) : Device :=
  (finList 2).foldl (fun d (y : Yard) => (finList 64).foldl (fun d (t : Fin 64) => d.teamStep y t) d) d

/-- The ages of a memory controller's reading and error window, and the boundary that its next level waits for. -/
def chanFrame (m : MemCtl) : MemCtl :=
  { m with due := m.next.isSome, age := min (m.age + 1) 16320, winAge := m.winAge + 1 }

/-- Steps 7 to 9. -/
def boundaryTail (d : Device) (env : BoundaryInput) : Device :=
  let d := (finList 8).foldl (fun d (p : PortId) => d.portFrame p) d
  let d := { d with mc := d.mc.map chanFrame }
  let d := (finList 384).foldl (fun d (st : StallId) => d.scheduleSwitch st) d
  let d := d.teamSteps
  (d.powerFrame env).bistFrame

/-! ### The boundary -/

/-- A PENDING transaction has the frame that begins as its target, or an OPEN one times out (R506, R510). -/
def anyDue (d : Device) : Bool :=
  (finList 2).any fun (w : Fin 2) => (d.banks[w].state = .pending && d.banks[w].target = d.now) || d.timedOut w

/-- A Forge request with its deadline in the frame that ended has reached no commit point, or a retention entry has had its
last frame (R447). -/
def anyMiss (d : Device) : Bool :=
  (finList 2).any fun (y : Yard) => d.forges[y].reqs.any d.overdue || (finList 64).any fun (e : Fin 64) => d.entryEnds y e

/-- Steps 1 and 2: what is promised by the end of the frame is delivered, the frame counter goes on, and what counts
boundaries does. -/
def boundaryHead (d : Device) (env : BoundaryInput) : Device :=
  let d := (finList 384).foldl (fun d (st : StallId) => if (d.stall st).barrow = [] then d else (d.serveBarrow st).keepPromises st) d
  let d := (finList 2).foldl (fun d (y : Yard) => d.finishLoads y (d.forge y).loading.length) d
  let d := d.countTallies
  let d := (d.countFrame d.frameLen).tickBoundary
  let d := (finList 8).foldl (fun d (p : PortId) => if d.ports[p].left.any (2 ≤ ·) then d.reclaimPort p else d) d
  let d := { d with ports := d.ports.map fun q => { q with left := q.left.map (· + 1) } }
  (finList 2).foldl (fun d (y : Yard) => d.forgeFrame y) d

/-- Steps 4 and 5, and the rest at once unless transactions are due at step 6. -/
def boundaryMid (d : Device) (env : BoundaryInput) : Device :=
  let d := d.audit.checkOverruns
  if d.anyDue then { d with atStep6 := true, env := env } else d.boundaryTail env

/-- A storage error stands in its store until a write or a correction (R539); corrected gatehouse words are counted
(R501). -/
def strike (d : Device) : Upset → Device
  | .unit a ue =>
    if unitOf a ≠ a then d
    else if ue then d.poisonUnit a
    else if a ∈ d.bad then d
    else { d with ce := setInsert d.ce a }
  | .message st m i => d.modMbx st m fun b => { b with msgs := b.msgs.modify i fun x => { x with bad := true } }
  | .tack st a => { d with tackBad := setInsert d.tackBad (tackKey st a.toNat / 4 * 4) }
  | .register st v k => d.modStall st fun s => { s with vBad := if (v, k) ∈ s.vBad then s.vBad else s.vBad ++ [(v, k)] }
  | .sram n => d.bump Page.gatehouse 0x158 n

/-- The tick: step 2, and the rest at once unless Forge requests miss, or retention entries end, at step 3. -/
def boundary (d : Device) (env : BoundaryInput) : Device :=
  let d := d.boundaryHead env
  if d.anyMiss then { d with atStep3 := true, env := env } else d.boundaryMid env

/-- A boundary that waits at step 3 goes on after the last miss and the last entry that ends. -/
def afterMiss (d : Device) : Device :=
  if d.atStep3 && !d.anyMiss then ({ d with atStep3 := false }).boundaryMid d.env else d

/-- A boundary at a step that has nothing left to wait for (SAFE has emptied the Forges, or ended the transactions)
goes on. -/
def catchUp (d : Device) : Device :=
  let d := d.afterMiss
  if d.atStep6 && !d.anyDue then ({ d with atStep6 := false }).boundaryTail d.env else d

/-- A transaction of bank w has ended: after the last one of step 6 the boundary goes on, and so do the commands that
waited behind gate firmware's. -/
def afterTxn (d : Device) (w : Fin 2) : Device :=
  let d := if d.atStep6 && !d.anyDue then ({ d with atStep6 := false }).boundaryTail d.env else d
  if w = 1 then d.resume else d

/-- A due transaction validates and applies or fails. -/
def applyTxn (d : Device) (w : Fin 2) : Device := (d.settleTxn w).afterTxn w

end Device

/-! ### The commands -/

/-- The boundary from frame f to f + 1, with the storage errors of frame f. It does not come while the clock is lost, or before
the steps of the last one are over. -/
def execFrameBoundary (env : BoundaryInput) (s : State) : Host.Outcome State Fault Refusal :=
  .next (s.onDev fun d =>
    let d := d.catchUp
    if !d.powered || d.tick.refLost || d.inBoundary then d else (env.upsets.foldl Device.strike d).boundary env)

/-- Step 3: the oldest request whose deadline frame has ended misses; after the last one the boundary goes on. -/
def execForgeDeadlineMiss (fo : Yard) (stops : List ForgeStop) (s : State) : Host.Outcome State Fault Refusal :=
  .next (s.onDev fun d => (d.deadlineMiss fo stops).afterMiss)

/-- Step 3: a retention entry whose last frame has ended is freed, or waits for the FBACKs on it (R447). -/
def execRetentionExpiry (fo : Yard) (e : Fin 64) (s : State) : Host.Outcome State Fault Refusal :=
  .next (s.onDev fun d => (d.retentionExpiry fo e).afterMiss)

def execTxnApply (who : Requester) (s : State) : Host.Outcome State Fault Refusal :=
  .next (s.onDev fun d => if d.txnDue who.idx then d.applyTxn who.idx else d)

/-- TXN_TIMEOUT frames have passed since an OPEN transaction was opened (R510): the boundary at which they have waits for
this command at step 6. -/
def execTxnTimeout (who : Requester) (s : State) : Host.Outcome State Fault Refusal :=
  .next (s.onDev fun d => if d.timedOut who.idx then (d.lapse who.idx).afterTxn who.idx else d)

end Sys2Proof.Machine
end

