-- ==== Sys2Proof/Machine/FlitSlot.lean ====
section
/-! DEFINITION. The choice of the flit of one slot of a torus port (R334, R341, R350, R399). -/

namespace Sys2Proof.Machine

/-- The team slot whose booking a waiting flit draws on: a booked payload flit of that team (R378, R399). -/
def Waiting.payer (w : Waiting) : Option Nat :=
  if w.ftype = 1 && w.booked && field w.tag 8 2 = 0 then some (field w.tag 14 6) else none

namespace Device

/-- The booking of its team lets a waiting flit leave through a port in this frame: payload moves up to the booking per frame
on each link, whichever leg it belongs to (R399). -/
def underBooking (d : Device) (p : PortId) (w : Waiting) : Bool :=
  match w.payer with
  | none => true
  | some t =>
    let m := d.team (Fin.ofNat 2 (p.val / 4)) (Fin.ofNat 64 t)
    decide ((mapGet d.ports[p].teamSent t).getD 0 < m.flits (decide (p.val % 2 = 1)))

/-- The flit is counted against its team's booking of the frame. -/
def chargeTeam (q : Port) (w : Waiting) : Port :=
  match w.payer with
  | none => q
  | some t => { q with teamSent := mapInsert q.teamSent t ((mapGet q.teamSent t).getD 0 + 1) }

/-- One flit slot of a talking port: the first source of R341 that has a flit ready. The replay slot is the last 256 slots of
the frame; a flit is due in it that was NAKed before it began (R350). No VC5 flit goes out without PADDOCK_VC (R356). -/
def slotFlit (d : Device) (p : PortId) : Device :=
  let q := d.ports[p]
  let opens := !q.replayOpen && decide (q.room ≤ 256)
  let marked := if opens then q.unacked.map (fun u => { u with due := u.naked }) else q.unacked
  let q : Port := { q with room := q.room - 1, unacked := marked, replayOpen := q.replayOpen || opens }
  let inReplay := q.replayOpen && decide (q.replaysSent < 256)
  let ready (v : Nat) (booked : Bool) : Option (Nat × Waiting) :=
    if q.maySend v then
      ((vget q.queue v []).zipIdx.find? fun x => x.1.booked = booked && d.underBooking p x.1).map fun x => (x.2, x.1)
    else none
  let first0 : Option Waiting := if q.maySend 0 then (vget q.queue 0 []).head? else none
  let data (booked : Bool) : List Nat := [1, 2, 3, 4, 5].filter fun v =>
    (ready v booked).isSome && (v != 5 || q.has 0) && (!booked || decide (vget q.bookedSent v 0 < d.book p v))
  let done (r : Port × Flit) : Device := (d.modPort p fun _ => r.1).emit p r.2
  let dataFlit (booked : Bool) : Option Device := do
    let (q, v) ← q.roundRobin (d.weight p) (data booked)
    let (i, w) ← ready v booked
    let r := q.sendFirst v i w d.now
    pure (done (chargeTeam r.1 w, r.2))
  let send0 : Option Device := first0.map fun w => done (q.sendFirst 0 0 w d.now)
  let replay : Option Device := (q.unacked.find? fun u => u.due && !u.replayed).map fun u =>
    let r := q.sendReplay u
    (done r).bump (Page.port p) 0x164 1
  ((if q.sent0 < 256 then send0 else none) <|> (if inReplay then replay else none) <|> dataFlit true <|> dataFlit false
    <|> send0).getD (done q.idle)

end Device

/-- A flit slot of a port that drives a signal; a frame holds no more slots than its lanes give (R332). -/
def execFlitSlot (p : PortId) (s : State) : Host.Outcome State Fault Refusal :=
  .next (s.onDev fun d =>
    let q := d.ports[p]
    if lanes q.tx.active = 0 || q.state = .training then d
    else if q.talking then (if 0 < q.room then d.slotFlit p else d)
    else d.emit p q.bareIdle)

end Sys2Proof.Machine
end

