-- ==== Sys2Proof/Machine/Flow.lean ====
section
/-! DEFINITION. Control flow: branches, jumps and LOOP (R98, R100, R101, R103). -/

namespace Sys2Proof.Machine

/-- A branch: taken to the instruction's address plus 4 × offset where the relation holds. -/
def branch (st : StallId) (a b : SReg) (off : BitVec 16) (rel : W64 → W64 → Bool) (s : State) : State :=
  s.onDev fun dev => dev.issue st 1 fun dev =>
    if rel (dev.sreg st a) (dev.sreg st b) then dev.modCur st fun c => c.jump (targetOf c.pc off)
    else dev.retire st 1

def execBeq (st : StallId) (a b : SReg) (off : BitVec 16) (s : State) : Host.Outcome State Fault Refusal :=
  .next (branch st a b off (fun x y => x == y) s)

def execBne (st : StallId) (a b : SReg) (off : BitVec 16) (s : State) : Host.Outcome State Fault Refusal :=
  .next (branch st a b off (fun x y => x != y) s)

def execBlt (st : StallId) (a b : SReg) (off : BitVec 16) (s : State) : Host.Outcome State Fault Refusal :=
  .next (branch st a b off (fun x y => x.slt y) s)

def execBge (st : StallId) (a b : SReg) (off : BitVec 16) (s : State) : Host.Outcome State Fault Refusal :=
  .next (branch st a b off (fun x y => !x.slt y) s)

def execBltu (st : StallId) (a b : SReg) (off : BitVec 16) (s : State) : Host.Outcome State Fault Refusal :=
  .next (branch st a b off (fun x y => x.ult y) s)

def execBgeu (st : StallId) (a b : SReg) (off : BitVec 16) (s : State) : Host.Outcome State Fault Refusal :=
  .next (branch st a b off (fun x y => !x.ult y) s)

/-- The return address of an instruction of the given words. -/
def returnAddress (c : SlotCtx) (words : Nat) : W64 := (c.pc + BitVec.ofNat 16 (4 * words)).setWidth 64

/-- JAL: the return address to s31, then the jump (R94). -/
def execJal (st : StallId) (off : BitVec 26) (s : State) : Host.Outcome State Fault Refusal :=
  .next (s.onDev fun dev => dev.issue st 1 fun dev =>
    dev.modCur st fun c => (c.setS 31 (returnAddress c 1)).jump (targetOf c.pc off))

/-- JALR: d := the return address; the target is (sa + imm) with [1:0] cleared. -/
def execJalr (st : StallId) (d a : SReg) (imm : Imm) (s : State) : Host.Outcome State Fault Refusal :=
  .next (s.onDev fun dev => dev.issue st imm.words fun dev =>
    let target : Tack := ((dev.sreg st a + imm.sext).setWidth 16) &&& 0xFFFC
    dev.modCur st fun c => (c.setS d (returnAddress c imm.words)).jump target)

/-- Words of the instruction at a tack address, as its major opcode says (R101). -/
def Device.wordsAt (dev : Device) (st : StallId) (a : Tack) : Nat := if field (dev.tackWord st a) 0 6 = 0x3F then 2 else 1

/-- The count that a LOOP register shows for a body run n times; the register holds 32 bits, and the manual
does not say what it holds of a longer count. -/
def loopTurns (n : W64) : Nat := if n.toNat < 2 ^ 32 then n.toNat else (Config.longLoop n).toNat

/-- LOOP: the body from the next instruction to the one at the LOOP's own address plus 4 × imm runs sa times
(R103). -/
def execLoop (st : StallId) (d a : SReg) (imm : Imm) (s : State) : Host.Outcome State Fault Refusal :=
  .next (s.onDev fun dev => dev.issue st imm.words fun dev =>
    let c := dev.cur st
    let outer := loopCount (c.getCr 0x3C) ≠ 0
    let inner := loopCount (c.getCr 0x3D) ≠ 0
    if imm.sext.toInt < imm.words ∨ (outer ∧ inner) then dev.illegal st (Coeri.firstWord (.loop st d a imm))
    else
      let last := targetOf c.pc imm.sext
      let n := dev.sreg st a
      if n = 0 then
        let after := last + BitVec.ofNat 16 (4 * dev.wordsAt st last)
        dev.modCur st fun c => (SlotCtx.loopBack { c with pc := after, resumeAt := none } 0x3C last).1
      else
        let first := c.pc + BitVec.ofNat 16 (4 * imm.words)
        let reg := BitVec.ofNat 64 (loopTurns n * 2 ^ 32 + first.toNat * 2 ^ 16 + last.toNat)
        dev.modCur st fun c =>
          { (c.setCr (if outer then 0x3D else 0x3C) reg) with pc := first, resumeAt := none })

end Sys2Proof.Machine
end

