-- ==== Sys2Proof/Machine/FrameInstr.lean ====
section
/-! DEFINITION. Frame, context and fence instructions, TRAP, and the illegal instruction (R82, R107, R119,
R126 to R130, R170). -/

namespace Sys2Proof.Machine

/-- FWAIT a: retires once frame sa[47:0] has begun; until then the groom holds (R82). -/
def execFwait (st : StallId) (_d a _b : SReg) (s : State) : Host.Outcome State Fault Refusal :=
  .next (s.onDev fun dev => dev.issue st 1 fun dev =>
    let f : Frame := (dev.sreg st a).setWidth 48
    if f ≤ dev.now then dev.retire st 1 else dev.modCur st fun c => { c with hold := some (.fwait f) })

/-- The held FWAIT retires at the boundary that begins its frame (R82, step 9 of R85). -/
def execFwaitRetire (st : StallId) (s : State) : Host.Outcome State Fault Refusal :=
  .next (s.onDev fun dev =>
    match (dev.cur st).hold with
    | some (.fwait f) =>
      if (dev.stall st).active && decide (f ≤ dev.now) && !dev.inBoundary then
        (dev.modCur st fun c => { c with hold := none }).retire st 1
      else dev
    | _ => dev)

/-- FYIELD: writes the frame number to YIELD_FRAME (R119). -/
def execFyield (st : StallId) (_d _a _b : SReg) (s : State) : Host.Outcome State Fault Refusal :=
  .next (s.onDev fun dev => dev.issue st 1 fun dev =>
    (dev.modCur st fun c => { c.setCr 0x05 (dev.now.setWidth 64) with yielded := true }).retire st 1)

/-- Every MDRAIN before a FENCE has written and every MLOAD and MFEED has finished reading: the slot's manger
commands are FMTSELs only (R107). -/
def fenceOpen (c : SlotCtx) : Bool := c.mq.all (fun m => m.op = 4) && c.mrun.all fun r => r.cmd.op = 4

/-- FENCE (R107): no effect while it holds the groom. -/
def execFence (st : StallId) (_d _a _b : SReg) (s : State) : Host.Outcome State Fault Refusal :=
  .next (s.onDev fun dev => dev.issue st 1 fun dev =>
    if fenceOpen (dev.cur st) then dev.retire st 1 else dev)

/-- ERET (R129, R170): clears EXC_ACTIVE and resumes at EXC_PC; with RESUME set it clears RESUME, and the
instruction there continues from VFAULT_IDX. -/
def execEret (st : StallId) (_d _a _b : SReg) (s : State) : Host.Outcome State Fault Refusal :=
  .next (s.onDev fun dev => dev.issue st 1 fun dev =>
    dev.modCur st fun c =>
      let resume := flag (c.getCr 0x16) 1
      let start := field (c.getCr 0x14) 0 9
      let c := c.setCr 0x01 (clearBit (c.getCr 0x01) 0)
      let c := c.setCr 0x16 (clearBit (c.getCr 0x16) 1)
      { c with pc := BitVec.ofNat 16 (field (c.getCr 0x06) 0 16), resumeAt := if resume then some start else none })

/-- CYIELD: a switch request and the SWITCH_REQ event (R126). -/
def execCyield (st : StallId) (_d _a _b : SReg) (s : State) : Host.Outcome State Fault Refusal :=
  .next (s.onDev fun dev => dev.issue st 1 fun dev =>
    ((dev.modStall st fun s => { s with switchReq := true }).event (Page.stall st) 2).retire st 1)

/-- HALT: the running slot halts with KIND 1 (R126). -/
def execHalt (st : StallId) (_d _a _b : SReg) (s : State) : Host.Outcome State Fault Refusal :=
  .next (s.onDev fun dev => dev.issue st 1 fun dev => dev.haltSlot st (dev.slotOf st) 1 0)

/-- TRAP: the TRAP exception with the sign-extended immediate (R130). -/
def execTrap (st : StallId) (_d _a : SReg) (imm : Imm) (s : State) : Host.Outcome State Fault Refusal :=
  .next (s.onDev fun dev => dev.issue st imm.words fun dev => dev.raise st 11 0 imm.sext)

/-- The groom fetches a word that no format gives a meaning, and takes ILLEGAL_INSTRUCTION (R98, R101, R102,
R130); nothing happens where the word at the pc is legal. -/
def execIllegalInstruction (st : StallId) (s : State) : Host.Outcome State Fault Refusal :=
  .next (s.onDev fun dev => dev.issue st 1 fun dev =>
    let c := dev.cur st
    let w := dev.tackWord st c.pc
    let second := dev.tackWord st (c.pc + 4)
    if (Coeri.decode st 0 w second).isNone then dev.illegal st w else dev)

end Sys2Proof.Machine
end

