-- ==== Sys2Proof/Machine/ScalarFp.lean ====
section
/-! DEFINITION. Scalar floating-point instructions (R92, R93, R102, R179). FP64 fills an s register, FP32 its
low half; subnormals are flushed in both modes; flags are sticky, and invalid traps under INV_TRAP. -/

namespace Sys2Proof.Machine

/-- The operand value in a register for a format, subnormals flushed (R92). -/
def fpOperand (f : FFmt) (x : W64) : FVal := f.decodeF true (x.toNat % 2 ^ f.width)

/-- A rounded result as a register value; an FP32 result clears [63:32] (R102). -/
def fpResult (f : FFmt) (r : FVal × FFlags) : W64 × FFlags :=
  let (c, fl) := f.roundVal true r.1
  (BitVec.ofNat 64 c, r.2 ||| fl)

/-- A scalar FP operation writes sd and the sticky flags, or takes FP_INVALID under INV_TRAP instead of
writing its result (R93). -/
def fpWrite (dev : Device) (st : StallId) (d : SReg) (r : W64 × FFlags) : Device :=
  let dev := dev.modCur st fun c => c.addFlags r.2
  if flag r.2 0 && (dev.cur st).invTrap then dev.raise st 7 Status.fpInvalid 0
  else (dev.setSreg st d r.1).retire st 1

def fpBinary (st : StallId) (d a b : SReg) (g : W64 → W64 → W64 × FFlags) (s : State) : State :=
  s.onDev fun dev => dev.issue st 1 fun dev => fpWrite dev st d (g (dev.sreg st a) (dev.sreg st b))

def fpAdd (f : FFmt) (x y : W64) : W64 × FFlags := fpResult f (FFmt.addVal (fpOperand f x) (fpOperand f y))

def fpSub (f : FFmt) (x y : W64) : W64 × FFlags :=
  fpResult f (FFmt.addVal (fpOperand f x) (FFmt.negate (fpOperand f y)))

def fpMul (f : FFmt) (x y : W64) : W64 × FFlags := fpResult f (FFmt.mulVal (fpOperand f x) (fpOperand f y))

def fpDiv (f : FFmt) (x y : W64) : W64 × FFlags := fpResult f (f.divVal (fpOperand f x) (fpOperand f y))

def fpSqrt (f : FFmt) (x : W64) : W64 × FFlags := fpResult f (f.sqrtVal (fpOperand f x))

/-- ±(x × y) ± z, rounded once. -/
def fpFma (f : FFmt) (negProduct negAddend : Bool) (x y z : W64) : W64 × FFlags :=
  let p := fpOperand f x
  let p := if negProduct then FFmt.negate p else p
  let z := fpOperand f z
  fpResult f (FFmt.fmaVal p (fpOperand f y) (if negAddend then FFmt.negate z else z))

/-- FMIN (op 0) and FMAX (op 1). Of a NaN and a number the result is the number or the canonical NaN, and of zeros of
different signs one of the two: the manual does not state which for the scalar forms. -/
def fpMinMax (f : FFmt) (op : Nat) (x y : W64) : W64 × FFlags :=
  let u := fpOperand f x
  let v := fpOperand f y
  let pick (w : FVal) : W64 := BitVec.ofNat 64 (f.roundVal true w).1
  let first := Config.scalarMinMax op (f.width = 64) x y
  if u.isNan && v.isNan then (pick .nan, .none)
  else if u.isNan || v.isNan then (if first then pick (if u.isNan then v else u) else pick .nan, .none)
  else if cmpVal u v = 0 then (if first then pick u else pick v, .none)
  else (if decide (cmpVal u v < 0) == decide (op = 0) then pick u else pick v, .none)

/-- FEQ (op 0), FLT (1), FLE (2): 1 where the relation holds, 0 otherwise and where an operand is a NaN. -/
def fpCompare (f : FFmt) (op : Nat) (x y : W64) : W64 × FFlags :=
  let u := fpOperand f x
  let v := fpOperand f y
  if u.isNan || v.isNan then
    (0, if Config.nanCompareInvalid op f.width (x.toNat % 2 ^ f.width) (y.toNat % 2 ^ f.width) then .invalid else .none)
  else
    let c := cmpVal u v
    (truth (if op = 0 then decide (c = 0) else if op = 1 then decide (c < 0) else decide (c ≤ 0)), .none)

/-- FP to FP. -/
def fpConvert (from_ target : FFmt) (x : W64) : W64 × FFlags := fpResult target (fpOperand from_ x, .none)

/-- A signed 64-bit integer to FP. -/
def fpFromInt (f : FFmt) (x : W64) : W64 × FFlags := fpResult f (FVal.ofInt x.toInt, .none)

/-- FP to a signed 64-bit integer: saturated, a NaN the largest positive integer, both invalid (R92). -/
def fpToInt (f : FFmt) (x : W64) : W64 × FFlags :=
  let (i, fl) := (fpOperand f x).toInt 64 (2 ^ 63 - 1)
  (BitVec.ofInt 64 i, fl)

def execFaddD (st : StallId) (d a b : SReg) (s : State) : Host.Outcome State Fault Refusal :=
  .next (fpBinary st d a b (fpAdd .fp64) s)

def execFsubD (st : StallId) (d a b : SReg) (s : State) : Host.Outcome State Fault Refusal :=
  .next (fpBinary st d a b (fpSub .fp64) s)

def execFmulD (st : StallId) (d a b : SReg) (s : State) : Host.Outcome State Fault Refusal :=
  .next (fpBinary st d a b (fpMul .fp64) s)

def execFdivD (st : StallId) (d a b : SReg) (s : State) : Host.Outcome State Fault Refusal :=
  .next (fpBinary st d a b (fpDiv .fp64) s)

def execFsqrtD (st : StallId) (d a b : SReg) (s : State) : Host.Outcome State Fault Refusal :=
  .next (fpBinary st d a b (fun x _ => fpSqrt .fp64 x) s)

def execFminD (st : StallId) (d a b : SReg) (s : State) : Host.Outcome State Fault Refusal :=
  .next (fpBinary st d a b (fpMinMax .fp64 0) s)

def execFmaxD (st : StallId) (d a b : SReg) (s : State) : Host.Outcome State Fault Refusal :=
  .next (fpBinary st d a b (fpMinMax .fp64 1) s)

def execFeqD (st : StallId) (d a b : SReg) (s : State) : Host.Outcome State Fault Refusal :=
  .next (fpBinary st d a b (fpCompare .fp64 0) s)

def execFltD (st : StallId) (d a b : SReg) (s : State) : Host.Outcome State Fault Refusal :=
  .next (fpBinary st d a b (fpCompare .fp64 1) s)

def execFleD (st : StallId) (d a b : SReg) (s : State) : Host.Outcome State Fault Refusal :=
  .next (fpBinary st d a b (fpCompare .fp64 2) s)

def execFclassD (st : StallId) (d a b : SReg) (s : State) : Host.Outcome State Fault Refusal :=
  .next (fpBinary st d a b (fun x _ => (Config.fclass true x, .none)) s)

def execFaddS (st : StallId) (d a b : SReg) (s : State) : Host.Outcome State Fault Refusal :=
  .next (fpBinary st d a b (fpAdd .fp32) s)

def execFsubS (st : StallId) (d a b : SReg) (s : State) : Host.Outcome State Fault Refusal :=
  .next (fpBinary st d a b (fpSub .fp32) s)

def execFmulS (st : StallId) (d a b : SReg) (s : State) : Host.Outcome State Fault Refusal :=
  .next (fpBinary st d a b (fpMul .fp32) s)

def execFdivS (st : StallId) (d a b : SReg) (s : State) : Host.Outcome State Fault Refusal :=
  .next (fpBinary st d a b (fpDiv .fp32) s)

def execFsqrtS (st : StallId) (d a b : SReg) (s : State) : Host.Outcome State Fault Refusal :=
  .next (fpBinary st d a b (fun x _ => fpSqrt .fp32 x) s)

def execFminS (st : StallId) (d a b : SReg) (s : State) : Host.Outcome State Fault Refusal :=
  .next (fpBinary st d a b (fpMinMax .fp32 0) s)

def execFmaxS (st : StallId) (d a b : SReg) (s : State) : Host.Outcome State Fault Refusal :=
  .next (fpBinary st d a b (fpMinMax .fp32 1) s)

def execFeqS (st : StallId) (d a b : SReg) (s : State) : Host.Outcome State Fault Refusal :=
  .next (fpBinary st d a b (fpCompare .fp32 0) s)

def execFltS (st : StallId) (d a b : SReg) (s : State) : Host.Outcome State Fault Refusal :=
  .next (fpBinary st d a b (fpCompare .fp32 1) s)

def execFleS (st : StallId) (d a b : SReg) (s : State) : Host.Outcome State Fault Refusal :=
  .next (fpBinary st d a b (fpCompare .fp32 2) s)

def execFclassS (st : StallId) (d a b : SReg) (s : State) : Host.Outcome State Fault Refusal :=
  .next (fpBinary st d a b (fun x _ => (Config.fclass false x, .none)) s)

def execFcvtDS (st : StallId) (d a b : SReg) (s : State) : Host.Outcome State Fault Refusal :=
  .next (fpBinary st d a b (fun x _ => fpConvert .fp32 .fp64 x) s)

def execFcvtSD (st : StallId) (d a b : SReg) (s : State) : Host.Outcome State Fault Refusal :=
  .next (fpBinary st d a b (fun x _ => fpConvert .fp64 .fp32 x) s)

def execFcvtDL (st : StallId) (d a b : SReg) (s : State) : Host.Outcome State Fault Refusal :=
  .next (fpBinary st d a b (fun x _ => fpFromInt .fp64 x) s)

def execFcvtLD (st : StallId) (d a b : SReg) (s : State) : Host.Outcome State Fault Refusal :=
  .next (fpBinary st d a b (fun x _ => fpToInt .fp64 x) s)

def execFcvtSL (st : StallId) (d a b : SReg) (s : State) : Host.Outcome State Fault Refusal :=
  .next (fpBinary st d a b (fun x _ => fpFromInt .fp32 x) s)

def execFcvtLS (st : StallId) (d a b : SReg) (s : State) : Host.Outcome State Fault Refusal :=
  .next (fpBinary st d a b (fun x _ => fpToInt .fp32 x) s)

/-- A fused instruction: sd := ±(sa × sb) ± sc. -/
def fpFused (st : StallId) (d a b c : SReg) (f : FFmt) (negProduct negAddend : Bool) (s : State) : State :=
  s.onDev fun dev => dev.issue st 1 fun dev =>
    fpWrite dev st d (fpFma f negProduct negAddend (dev.sreg st a) (dev.sreg st b) (dev.sreg st c))

def execFmaddD (st : StallId) (d a b c : SReg) (s : State) : Host.Outcome State Fault Refusal :=
  .next (fpFused st d a b c .fp64 false false s)

def execFmsubD (st : StallId) (d a b c : SReg) (s : State) : Host.Outcome State Fault Refusal :=
  .next (fpFused st d a b c .fp64 false true s)

def execFnmaddD (st : StallId) (d a b c : SReg) (s : State) : Host.Outcome State Fault Refusal :=
  .next (fpFused st d a b c .fp64 true true s)

def execFnmsubD (st : StallId) (d a b c : SReg) (s : State) : Host.Outcome State Fault Refusal :=
  .next (fpFused st d a b c .fp64 true false s)

def execFmaddS (st : StallId) (d a b c : SReg) (s : State) : Host.Outcome State Fault Refusal :=
  .next (fpFused st d a b c .fp32 false false s)

def execFmsubS (st : StallId) (d a b c : SReg) (s : State) : Host.Outcome State Fault Refusal :=
  .next (fpFused st d a b c .fp32 false true s)

def execFnmaddS (st : StallId) (d a b c : SReg) (s : State) : Host.Outcome State Fault Refusal :=
  .next (fpFused st d a b c .fp32 true true s)

def execFnmsubS (st : StallId) (d a b c : SReg) (s : State) : Host.Outcome State Fault Refusal :=
  .next (fpFused st d a b c .fp32 true false s)

end Sys2Proof.Machine
end

