-- ==== Sys2Proof/Machine/TestPort.lean ====
section
/-! DEFINITION. The test port: boundary scan, identification, debug challenge and token, debug access, scan and fuse
programming (R520, R533 to R537, R588). -/

namespace Sys2Proof.Machine

namespace Device

/-- The TAP takes instruction ir; code stands in DBG_STATUS from a refusal on. -/
def select (d : Device) (ir : BitVec 8) : Device := { d with tap := { d.tap with ir := ir, driving := false } }

/-- An instruction that is not allowed, or that the state forbids, selects BYPASS (R533). -/
def tapRefuse (d : Device) (c : Code) : Device :=
  { d with tap := { d.tap with ir := 0xFF, driving := false, code := c } }

/-- The TAP takes instructions: the device is powered and TZ_TRST_N is high (R588). -/
def tapLive (d : Device) : Bool := d.powered && !d.tap.trst

/-- An instruction open at some level: the level and the rights come first, then the device state. -/
def tapRun (d : Device) (ir : BitVec 8) (allowed inState : Bool) (f : Device → Device) : Device :=
  if !d.tapLive then d
  else if !allowed then d.tapRefuse Status.debugLocked
  else if !inState then d.tapRefuse Status.stateInvalid
  else f (d.select ir)

def level (d : Device) : Nat := d.trust.debugLevel

/-- Level 0, or level 1 with a right: 0 ACCESS, 1 HALT, 2 SCAN. -/
def hasRight (d : Device) (i : Nat) : Bool := d.level = 0 || (d.level = 1 && flag d.trust.rights i)

/-- Lands are driven only in ROM_WAIT and SAFE. -/
def landsFree (d : Device) : Bool := d.boot.state = .romWait || d.boot.state = .safe

/-- A boundary-scan instruction that drives lands where the state lets it. -/
def extest (d : Device) (ir : BitVec 8) : Device :=
  d.tapRun ir true true fun d => { d with tap := { d.tap with driving := d.landsFree } }

/-- Data shifted out. -/
def shiftOut (d : Device) (bs : List Byte) : Device := { d with out := { d.out with tdo := bs } }

/-- DBG_STATUS (R534). -/
def debugStatus (d : Device) : W32 :=
  let t := d.trust
  lo32 (d.tap.code.toNat * 2 ^ 16 + bitAt t.scanCleared 6 + bitAt t.tokenActive 5 + t.rights.toNat * 4 + t.debugLevel)

/-- DBG_CHALLENGE: a fresh nonce voids the one before. -/
def challenge (d : Device) (nonce : BitVec 256) : Device :=
  ({ d with trust := { d.trust with nonce := some nonce } }).shiftOut (Trust.keyBytes nonce)

/-- The signed bytes 0x00 to 0x5F of a token. -/
def tokenBytes (t : DebugToken) : List Byte :=
  leBytes 4 t.magic.toNat ++ leBytes 2 t.format.toNat ++ [t.keySlot, 0] ++ leBytes 8 t.deviceId.toNat ++ Trust.keyBytes t.nonce
    ++ leBytes 4 t.rights.toNat ++ Trust.keyBytes t.pubkey ++ List.replicate 12 0

/-- The conditions of R534 at level 1, and the token's own format. -/
def tokenHolds (d : Device) (t : DebugToken) : Bool :=
  let k := t.keySlot.toNat
  d.level = 1 && t.magic = 0x4742_445A && t.format = 0x0100 && t.rights.toNat < 8 && decide (k ≤ 3) && d.trust.usable k
    && d.trust.keyHash k = Sha.sha256 (Trust.keyBytes t.pubkey) && t.deviceId = d.trust.deviceId && d.trust.nonce = some t.nonce
    && Slh.verify Slh.small (Trust.keyBytes t.pubkey) debugContext (tokenBytes t) t.signature

/-- Verification of a token ends: it grants its rights and consumes the nonce, or is refused. -/
def tokenVerified (d : Device) : Device :=
  match d.trust.verifying with
  | none => d
  | some t =>
    let ok := d.tokenHolds t
    let d := { d with trust := { d.trust with verifying := none } }
    if ok then
      let trust := { d.trust with nonce := none, rights := BitVec.ofNat 3 t.rights.toNat, tokenActive := true }
      ({ d with trust := trust, tap := { d.tap with code := Status.done } }).event Page.fuseView 2
    else { d with tap := { d.tap with code := Status.debugLocked } }

/-- DBG_ACCESS: a word of the gatehouse SRAM, whether or not the boot window is open, or of a register page, which the
test port reaches also in the states in which the register BAR does not serve it (R561); elsewhere it is the host's. -/
def debugAccess (d : Device) (a : FuseArray) (off : Nat) (w : DebugAccess) : Device :=
  let o := off / 4 * 4
  let sram := decide (0x100_0000 ≤ o) && decide (o < 0x200_0000)
  match w, pageAt o with
  | .write v, some p => d.pageWrite a .host p (o % 4096) v
  | .write v, none => if sram then d.wrSram (o - 0x100_0000) (leBytes 4 v.toNat) else d.wordWrite a .host o v
  | .read, some p => (d.pageEffect .host p (o % 4096)).shiftOut (leBytes 4 (d.pageValue .host p (o % 4096)).toNat)
  | .read, none => d.shiftOut (if sram then d.rdSram (o - 0x100_0000) 4 else leBytes 4 (d.regValue .host o).toNat)
  | .unlisted _, _ => d.tapRefuse Status.debugLocked

/-- SCAN_CONNECT (R535): every secret, the gatehouse SRAM and every loft are cleared, then the chains connect. -/
def scanConnect (d : Device) : Device :=
  let loft (a : Nat) : Bool := decide (loftBase ≤ a) && decide (a < loftBase + 0x6000_0000)
  { d with
    trust := { d.trust with
      idkValid := false
      idkPub := 0
      nonce := none
      verifying := none
      capture := none
      jobs := []
      scanCleared := true }
    sram := []
    mem := d.mem.filter fun c => !loft c.1
    shedFill := Vector.replicate 24 none
    bad := d.bad.filter fun a => !loft a
    ce := d.ce.filter fun a => !loft a
    tap := { d.tap with scan := true } }

/-- Unit u may take bits in a pass of FUSE_PROG (R520): POLICY and ROLLBACK always, any other while neither it nor its
check bits hold a blown bit. -/
def mayProgram (a : FuseArray) (u : Nat) : Bool := fusePlain u || (fuseUnit a u = 0 && fuseBits a u = 0)

/-- The bits that a pass blows among those shifted in: the reserved ones, and the check bits of POLICY and ROLLBACK,
never. -/
def programmed (a bits : FuseArray) : List Nat :=
  let ok (b : Nat) : Bool :=
    if b < 6400 then mayProgram a (b / 32)
    else if b < 8000 then !fusePlain ((b - 6400) / 8) && mayProgram a ((b - 6400) / 8)
    else false
  (List.range 8192).filter fun b => flag bits b && ok b

end Device

/-! ### The commands -/

def execExtest (s : State) : Host.Outcome State Fault Refusal := .next (s.onDev fun d => d.extest 0x00)

/-- The scan chain samples; nothing of the device changes. -/
def execSamplePreload (s : State) : Host.Outcome State Fault Refusal :=
  .next (s.onDev fun d => d.tapRun 0x01 true true id)

/-- IDCODE: stepping 1, part 0x0900, Tabeuri's JEP106 code, 1. -/
def execIdcode (s : State) : Host.Outcome State Fault Refusal :=
  .next (s.onDev fun d => d.tapRun 0x02 true true fun d =>
    d.shiftOut (leBytes 4 (0x1 * 2 ^ 28 + 0x0900 * 2 ^ 12 + Config.jep106.toNat * 2 + 1)))

def execExtestPulse (s : State) : Host.Outcome State Fault Refusal := .next (s.onDev fun d => d.extest 0x03)

def execExtestTrain (s : State) : Host.Outcome State Fault Refusal := .next (s.onDev fun d => d.extest 0x04)

def execDbgChallenge (nonce : BitVec 256) (s : State) : Host.Outcome State Fault Refusal :=
  .next (s.onDev fun d => d.tapRun 0x10 (d.level = 1) true fun d => d.challenge nonce)

/-- A token is shifted in: the root of trust verifies it. -/
def execDbgToken (t : DebugToken) (s : State) : Host.Outcome State Fault Refusal :=
  .next (s.onDev fun d => d.tapRun 0x11 (d.level = 1) true fun d =>
    { d with trust := { d.trust with verifying := some t } })

def execDbgStatus (s : State) : Host.Outcome State Fault Refusal :=
  .next (s.onDev fun d => d.tapRun 0x12 true true fun d => d.shiftOut (leBytes 4 d.debugStatus.toNat))

/-- DBG_ACCESS; a code that R533's table does not list selects BYPASS at every level. -/
def execDbgAccess (off : BitVec 26) (w : DebugAccess) (s : State) : Host.Outcome State Fault Refusal :=
  .next (s.onDev fun d => d.tapRun 0x20 (d.hasRight 0) true fun d => d.debugAccess s.array off.toNat w)

/-- Gate firmware stops; in SAFE its stop ends PENDING transactions (R514). -/
def execGhHalt (s : State) : Host.Outcome State Fault Refusal :=
  .next (s.onDev fun d => d.tapRun 0x21 (d.hasRight 1) true fun d =>
    let d := { d with boot := { d.boot with halted := true } }
    if d.boot.state = .safe then d.failPending else d)

def execScanConnect (s : State) : Host.Outcome State Fault Refusal :=
  .next (s.onDev fun d => d.tapRun 0x30 (d.hasRight 2 && !d.trust.scanLock) d.landsFree fun d => d.scanConnect)

/-- FUSE_PROG blows the bits shifted in, at level 0; a blown bit stays blown. -/
def execFuseProg (bits : BitVec 8192) (s : State) : Host.Outcome State Fault Refusal :=
  let d := s.dev.tapRun 0x40 (s.dev.level = 0) true id
  if s.dev.tapLive && s.dev.level = 0 then .next { s with array := Device.blown s.array (Device.programmed s.array bits), dev := d }
  else .next { s with dev := d }

def execBypass (s : State) : Host.Outcome State Fault Refusal :=
  .next (s.onDev fun d => d.tapRun 0xFF true true id)

/-- TZ_TRST_N falls, and holds the TAP in Test-Logic-Reset, which selects IDCODE; given again it rises (DESIGN CHOICE,
log 104). -/
def execTapReset (s : State) : Host.Outcome State Fault Refusal :=
  .next (s.onDev fun d =>
    let d := d.select 0x02
    { d with tap := { d.tap with trst := !d.tap.trst } })

def execDebugTokenVerified (s : State) : Host.Outcome State Fault Refusal :=
  .next (s.onDev fun d => d.tokenVerified)

end Sys2Proof.Machine
end

