-- ==== Sys2Proof/Machine/Vector.lean ====
section
/-! DEFINITION. The vector instructions and the events of the vector unit (R144 to R174). Each instruction names
its group and operation; VecUnit says what an entry of the queue does. -/

namespace Sys2Proof.Machine

/-! ### Integer -/

def execVadd (st : StallId) (v : VFormat) (s : State) : Host.Outcome State Fault Refusal :=
  .next (s.onDev fun d => d.vectorIssue st (.int 0) v (Coeri.firstWord (.vadd st v)))

def execVsub (st : StallId) (v : VFormat) (s : State) : Host.Outcome State Fault Refusal :=
  .next (s.onDev fun d => d.vectorIssue st (.int 1) v (Coeri.firstWord (.vsub st v)))

def execVmul (st : StallId) (v : VFormat) (s : State) : Host.Outcome State Fault Refusal :=
  .next (s.onDev fun d => d.vectorIssue st (.int 2) v (Coeri.firstWord (.vmul st v)))

def execVmulh (st : StallId) (v : VFormat) (s : State) : Host.Outcome State Fault Refusal :=
  .next (s.onDev fun d => d.vectorIssue st (.int 3) v (Coeri.firstWord (.vmulh st v)))

def execVmulhu (st : StallId) (v : VFormat) (s : State) : Host.Outcome State Fault Refusal :=
  .next (s.onDev fun d => d.vectorIssue st (.int 4) v (Coeri.firstWord (.vmulhu st v)))

def execVmin (st : StallId) (v : VFormat) (s : State) : Host.Outcome State Fault Refusal :=
  .next (s.onDev fun d => d.vectorIssue st (.int 5) v (Coeri.firstWord (.vmin st v)))

def execVmax (st : StallId) (v : VFormat) (s : State) : Host.Outcome State Fault Refusal :=
  .next (s.onDev fun d => d.vectorIssue st (.int 6) v (Coeri.firstWord (.vmax st v)))

def execVminu (st : StallId) (v : VFormat) (s : State) : Host.Outcome State Fault Refusal :=
  .next (s.onDev fun d => d.vectorIssue st (.int 7) v (Coeri.firstWord (.vminu st v)))

def execVmaxu (st : StallId) (v : VFormat) (s : State) : Host.Outcome State Fault Refusal :=
  .next (s.onDev fun d => d.vectorIssue st (.int 8) v (Coeri.firstWord (.vmaxu st v)))

def execVand (st : StallId) (v : VFormat) (s : State) : Host.Outcome State Fault Refusal :=
  .next (s.onDev fun d => d.vectorIssue st (.int 9) v (Coeri.firstWord (.vand st v)))

def execVor (st : StallId) (v : VFormat) (s : State) : Host.Outcome State Fault Refusal :=
  .next (s.onDev fun d => d.vectorIssue st (.int 10) v (Coeri.firstWord (.vor st v)))

def execVxor (st : StallId) (v : VFormat) (s : State) : Host.Outcome State Fault Refusal :=
  .next (s.onDev fun d => d.vectorIssue st (.int 11) v (Coeri.firstWord (.vxor st v)))

def execVsll (st : StallId) (v : VFormat) (s : State) : Host.Outcome State Fault Refusal :=
  .next (s.onDev fun d => d.vectorIssue st (.int 12) v (Coeri.firstWord (.vsll st v)))

def execVsrl (st : StallId) (v : VFormat) (s : State) : Host.Outcome State Fault Refusal :=
  .next (s.onDev fun d => d.vectorIssue st (.int 13) v (Coeri.firstWord (.vsrl st v)))

def execVsra (st : StallId) (v : VFormat) (s : State) : Host.Outcome State Fault Refusal :=
  .next (s.onDev fun d => d.vectorIssue st (.int 14) v (Coeri.firstWord (.vsra st v)))

def execVcmpeq (st : StallId) (v : VFormat) (s : State) : Host.Outcome State Fault Refusal :=
  .next (s.onDev fun d => d.vectorIssue st (.int 15) v (Coeri.firstWord (.vcmpeq st v)))

def execVcmpne (st : StallId) (v : VFormat) (s : State) : Host.Outcome State Fault Refusal :=
  .next (s.onDev fun d => d.vectorIssue st (.int 16) v (Coeri.firstWord (.vcmpne st v)))

def execVcmplt (st : StallId) (v : VFormat) (s : State) : Host.Outcome State Fault Refusal :=
  .next (s.onDev fun d => d.vectorIssue st (.int 17) v (Coeri.firstWord (.vcmplt st v)))

def execVcmpltu (st : StallId) (v : VFormat) (s : State) : Host.Outcome State Fault Refusal :=
  .next (s.onDev fun d => d.vectorIssue st (.int 18) v (Coeri.firstWord (.vcmpltu st v)))

def execVcmple (st : StallId) (v : VFormat) (s : State) : Host.Outcome State Fault Refusal :=
  .next (s.onDev fun d => d.vectorIssue st (.int 19) v (Coeri.firstWord (.vcmple st v)))

def execVcmpleu (st : StallId) (v : VFormat) (s : State) : Host.Outcome State Fault Refusal :=
  .next (s.onDev fun d => d.vectorIssue st (.int 20) v (Coeri.firstWord (.vcmpleu st v)))

/-! ### Floating point -/

def execVfadd (st : StallId) (v : VFormat) (s : State) : Host.Outcome State Fault Refusal :=
  .next (s.onDev fun d => d.vectorIssue st (.fp 0) v (Coeri.firstWord (.vfadd st v)))

def execVfsub (st : StallId) (v : VFormat) (s : State) : Host.Outcome State Fault Refusal :=
  .next (s.onDev fun d => d.vectorIssue st (.fp 1) v (Coeri.firstWord (.vfsub st v)))

def execVfmul (st : StallId) (v : VFormat) (s : State) : Host.Outcome State Fault Refusal :=
  .next (s.onDev fun d => d.vectorIssue st (.fp 2) v (Coeri.firstWord (.vfmul st v)))

def execVfma (st : StallId) (v : VFormat) (s : State) : Host.Outcome State Fault Refusal :=
  .next (s.onDev fun d => d.vectorIssue st (.fp 3) v (Coeri.firstWord (.vfma st v)))

def execVfnma (st : StallId) (v : VFormat) (s : State) : Host.Outcome State Fault Refusal :=
  .next (s.onDev fun d => d.vectorIssue st (.fp 4) v (Coeri.firstWord (.vfnma st v)))

def execVfdiv (st : StallId) (v : VFormat) (s : State) : Host.Outcome State Fault Refusal :=
  .next (s.onDev fun d => d.vectorIssue st (.fp 5) v (Coeri.firstWord (.vfdiv st v)))

def execVfsqrt (st : StallId) (v : VFormat) (s : State) : Host.Outcome State Fault Refusal :=
  .next (s.onDev fun d => d.vectorIssue st (.fp 6) v (Coeri.firstWord (.vfsqrt st v)))

def execVfmin (st : StallId) (v : VFormat) (s : State) : Host.Outcome State Fault Refusal :=
  .next (s.onDev fun d => d.vectorIssue st (.fp 7) v (Coeri.firstWord (.vfmin st v)))

def execVfmax (st : StallId) (v : VFormat) (s : State) : Host.Outcome State Fault Refusal :=
  .next (s.onDev fun d => d.vectorIssue st (.fp 8) v (Coeri.firstWord (.vfmax st v)))

def execVfabs (st : StallId) (v : VFormat) (s : State) : Host.Outcome State Fault Refusal :=
  .next (s.onDev fun d => d.vectorIssue st (.fp 9) v (Coeri.firstWord (.vfabs st v)))

def execVfneg (st : StallId) (v : VFormat) (s : State) : Host.Outcome State Fault Refusal :=
  .next (s.onDev fun d => d.vectorIssue st (.fp 10) v (Coeri.firstWord (.vfneg st v)))

def execVfcmpeq (st : StallId) (v : VFormat) (s : State) : Host.Outcome State Fault Refusal :=
  .next (s.onDev fun d => d.vectorIssue st (.fp 11) v (Coeri.firstWord (.vfcmpeq st v)))

def execVfcmplt (st : StallId) (v : VFormat) (s : State) : Host.Outcome State Fault Refusal :=
  .next (s.onDev fun d => d.vectorIssue st (.fp 12) v (Coeri.firstWord (.vfcmplt st v)))

def execVfcmple (st : StallId) (v : VFormat) (s : State) : Host.Outcome State Fault Refusal :=
  .next (s.onDev fun d => d.vectorIssue st (.fp 13) v (Coeri.firstWord (.vfcmple st v)))

def execVfcmpun (st : StallId) (v : VFormat) (s : State) : Host.Outcome State Fault Refusal :=
  .next (s.onDev fun d => d.vectorIssue st (.fp 14) v (Coeri.firstWord (.vfcmpun st v)))

/-! ### Convert and permute -/

def execVcvtFromE4m3 (st : StallId) (v : VFormat) (s : State) : Host.Outcome State Fault Refusal :=
  .next (s.onDev fun d => d.vectorIssue st (.cvt 8) v (Coeri.firstWord (.vcvtFromE4m3 st v)))

def execVcvtFromE5m2 (st : StallId) (v : VFormat) (s : State) : Host.Outcome State Fault Refusal :=
  .next (s.onDev fun d => d.vectorIssue st (.cvt 9) v (Coeri.firstWord (.vcvtFromE5m2 st v)))

def execVcvtToE4m3 (st : StallId) (v : VFormat) (s : State) : Host.Outcome State Fault Refusal :=
  .next (s.onDev fun d => d.vectorIssue st (.cvt 10) v (Coeri.firstWord (.vcvtToE4m3 st v)))

def execVcvtToE5m2 (st : StallId) (v : VFormat) (s : State) : Host.Outcome State Fault Refusal :=
  .next (s.onDev fun d => d.vectorIssue st (.cvt 11) v (Coeri.firstWord (.vcvtToE5m2 st v)))

def execVid (st : StallId) (v : VFormat) (s : State) : Host.Outcome State Fault Refusal :=
  .next (s.onDev fun d => d.vectorIssue st (.cvt 12) v (Coeri.firstWord (.vid st v)))

def execVslidedn (st : StallId) (v : VFormat) (s : State) : Host.Outcome State Fault Refusal :=
  .next (s.onDev fun d => d.vectorIssue st (.cvt 13) v (Coeri.firstWord (.vslidedn st v)))

def execVslideup (st : StallId) (v : VFormat) (s : State) : Host.Outcome State Fault Refusal :=
  .next (s.onDev fun d => d.vectorIssue st (.cvt 14) v (Coeri.firstWord (.vslideup st v)))

def execVperm (st : StallId) (v : VFormat) (s : State) : Host.Outcome State Fault Refusal :=
  .next (s.onDev fun d => d.vectorIssue st (.cvt 15) v (Coeri.firstWord (.vperm st v)))

def execVcvt (st : StallId) (src : BitVec 3) (v : VFormat) (s : State) : Host.Outcome State Fault Refusal :=
  .next (s.onDev fun d => d.vectorIssue st (.cvt src.toNat) v (Coeri.firstWord (.vcvt st src v)))

/-! ### Masks -/

def execKand (st : StallId) (kd ks1 ks2 : KReg) (vd va vb : VReg) (s : State) :
    Host.Outcome State Fault Refusal :=
  .next (s.onDev fun d => d.vectorIssue st (.mask 0 ks1 ks2) { k := kd, t := 0, vd := vd, va := va, vb := vb }
    (Coeri.firstWord (.kand st kd ks1 ks2 vd va vb)))

def execKor (st : StallId) (kd ks1 ks2 : KReg) (vd va vb : VReg) (s : State) :
    Host.Outcome State Fault Refusal :=
  .next (s.onDev fun d => d.vectorIssue st (.mask 1 ks1 ks2) { k := kd, t := 0, vd := vd, va := va, vb := vb }
    (Coeri.firstWord (.kor st kd ks1 ks2 vd va vb)))

def execKxor (st : StallId) (kd ks1 ks2 : KReg) (vd va vb : VReg) (s : State) :
    Host.Outcome State Fault Refusal :=
  .next (s.onDev fun d => d.vectorIssue st (.mask 2 ks1 ks2) { k := kd, t := 0, vd := vd, va := va, vb := vb }
    (Coeri.firstWord (.kxor st kd ks1 ks2 vd va vb)))

def execKandn (st : StallId) (kd ks1 ks2 : KReg) (vd va vb : VReg) (s : State) :
    Host.Outcome State Fault Refusal :=
  .next (s.onDev fun d => d.vectorIssue st (.mask 3 ks1 ks2) { k := kd, t := 0, vd := vd, va := va, vb := vb }
    (Coeri.firstWord (.kandn st kd ks1 ks2 vd va vb)))

/-! ### Reductions -/

def execVrsum (st : StallId) (v : VFormat) (s : State) : Host.Outcome State Fault Refusal :=
  .next (s.onDev fun d => d.vectorIssue st (.red 0) v (Coeri.firstWord (.vrsum st v)))

def execVrmin (st : StallId) (v : VFormat) (s : State) : Host.Outcome State Fault Refusal :=
  .next (s.onDev fun d => d.vectorIssue st (.red 1) v (Coeri.firstWord (.vrmin st v)))

def execVrmax (st : StallId) (v : VFormat) (s : State) : Host.Outcome State Fault Refusal :=
  .next (s.onDev fun d => d.vectorIssue st (.red 2) v (Coeri.firstWord (.vrmax st v)))

def execVsegsum (st : StallId) (v : VFormat) (s : State) : Host.Outcome State Fault Refusal :=
  .next (s.onDev fun d => d.vectorIssue st (.red 3) v (Coeri.firstWord (.vsegsum st v)))

def execVsegmin (st : StallId) (v : VFormat) (s : State) : Host.Outcome State Fault Refusal :=
  .next (s.onDev fun d => d.vectorIssue st (.red 4) v (Coeri.firstWord (.vsegmin st v)))

def execVsegmax (st : StallId) (v : VFormat) (s : State) : Host.Outcome State Fault Refusal :=
  .next (s.onDev fun d => d.vectorIssue st (.red 5) v (Coeri.firstWord (.vsegmax st v)))

/-! ### Compress and expand -/

def execVcompress (st : StallId) (v : VFormat) (s : State) : Host.Outcome State Fault Refusal :=
  .next (s.onDev fun d => d.vectorIssue st (.pack 0) v (Coeri.firstWord (.vcompress st v)))

def execVexpand (st : StallId) (v : VFormat) (s : State) : Host.Outcome State Fault Refusal :=
  .next (s.onDev fun d => d.vectorIssue st (.pack 1) v (Coeri.firstWord (.vexpand st v)))

/-! ### Loads and stores -/

def execVld (st : StallId) (v : VFormat) (s : State) : Host.Outcome State Fault Refusal :=
  .next (s.onDev fun d => d.vectorIssue st (.mem 0) v (Coeri.firstWord (.vld st v)))

def execVlds (st : StallId) (v : VFormat) (s : State) : Host.Outcome State Fault Refusal :=
  .next (s.onDev fun d => d.vectorIssue st (.mem 1) v (Coeri.firstWord (.vlds st v)))

def execVst (st : StallId) (v : VFormat) (s : State) : Host.Outcome State Fault Refusal :=
  .next (s.onDev fun d => d.vectorIssue st (.mem 2) v (Coeri.firstWord (.vst st v)))

def execVsts (st : StallId) (v : VFormat) (s : State) : Host.Outcome State Fault Refusal :=
  .next (s.onDev fun d => d.vectorIssue st (.mem 3) v (Coeri.firstWord (.vsts st v)))

def execVldm (st : StallId) (v : VFormat) (s : State) : Host.Outcome State Fault Refusal :=
  .next (s.onDev fun d => d.vectorIssue st (.mem 16) v (Coeri.firstWord (.vldm st v)))

def execVldsm (st : StallId) (v : VFormat) (s : State) : Host.Outcome State Fault Refusal :=
  .next (s.onDev fun d => d.vectorIssue st (.mem 17) v (Coeri.firstWord (.vldsm st v)))

def execVstm (st : StallId) (v : VFormat) (s : State) : Host.Outcome State Fault Refusal :=
  .next (s.onDev fun d => d.vectorIssue st (.mem 18) v (Coeri.firstWord (.vstm st v)))

def execVstsm (st : StallId) (v : VFormat) (s : State) : Host.Outcome State Fault Refusal :=
  .next (s.onDev fun d => d.vectorIssue st (.mem 19) v (Coeri.firstWord (.vstsm st v)))

/-! ### Gathers and scatters -/

def execVgatherW (st : StallId) (v : VFormat) (s : State) : Host.Outcome State Fault Refusal :=
  .next (s.onDev fun d => d.vectorIssue st (.gather 0) v (Coeri.firstWord (.vgatherW st v)))

def execVgatherD (st : StallId) (v : VFormat) (s : State) : Host.Outcome State Fault Refusal :=
  .next (s.onDev fun d => d.vectorIssue st (.gather 1) v (Coeri.firstWord (.vgatherD st v)))

def execVscatterW (st : StallId) (v : VFormat) (s : State) : Host.Outcome State Fault Refusal :=
  .next (s.onDev fun d => d.vectorIssue st (.gather 2) v (Coeri.firstWord (.vscatterW st v)))

def execVscatterD (st : StallId) (v : VFormat) (s : State) : Host.Outcome State Fault Refusal :=
  .next (s.onDev fun d => d.vectorIssue st (.gather 3) v (Coeri.firstWord (.vscatterD st v)))

def execVgathermW (st : StallId) (v : VFormat) (s : State) : Host.Outcome State Fault Refusal :=
  .next (s.onDev fun d => d.vectorIssue st (.gather 16) v (Coeri.firstWord (.vgathermW st v)))

def execVgathermD (st : StallId) (v : VFormat) (s : State) : Host.Outcome State Fault Refusal :=
  .next (s.onDev fun d => d.vectorIssue st (.gather 17) v (Coeri.firstWord (.vgathermD st v)))

def execVscattermW (st : StallId) (v : VFormat) (s : State) : Host.Outcome State Fault Refusal :=
  .next (s.onDev fun d => d.vectorIssue st (.gather 18) v (Coeri.firstWord (.vscattermW st v)))

def execVscattermD (st : StallId) (v : VFormat) (s : State) : Host.Outcome State Fault Refusal :=
  .next (s.onDev fun d => d.vectorIssue st (.gather 19) v (Coeri.firstWord (.vscattermD st v)))

/-! ### First-fault loads -/

def execVldff (st : StallId) (v : VFormat) (s : State) : Host.Outcome State Fault Refusal :=
  .next (s.onDev fun d => d.vectorIssue st (.first 0) v (Coeri.firstWord (.vldff st v)))

def execVgatherffW (st : StallId) (v : VFormat) (s : State) : Host.Outcome State Fault Refusal :=
  .next (s.onDev fun d => d.vectorIssue st (.first 1) v (Coeri.firstWord (.vgatherffW st v)))

def execVgatherffD (st : StallId) (v : VFormat) (s : State) : Host.Outcome State Fault Refusal :=
  .next (s.onDev fun d => d.vectorIssue st (.first 2) v (Coeri.firstWord (.vgatherffD st v)))

def execVldffm (st : StallId) (v : VFormat) (s : State) : Host.Outcome State Fault Refusal :=
  .next (s.onDev fun d => d.vectorIssue st (.first 16) v (Coeri.firstWord (.vldffm st v)))

def execVgatherffmW (st : StallId) (v : VFormat) (s : State) : Host.Outcome State Fault Refusal :=
  .next (s.onDev fun d => d.vectorIssue st (.first 17) v (Coeri.firstWord (.vgatherffmW st v)))

def execVgatherffmD (st : StallId) (v : VFormat) (s : State) : Host.Outcome State Fault Refusal :=
  .next (s.onDev fun d => d.vectorIssue st (.first 18) v (Coeri.firstWord (.vgatherffmD st v)))

/-! ### Histogram add -/

def execVhadd (st : StallId) (v : VFormat) (s : State) : Host.Outcome State Fault Refusal :=
  .next (s.onDev fun d => d.vectorIssue st .hist v (Coeri.firstWord (.vhadd st v)))

/-! ### Vector–scalar moves -/

def execVmvsx (st : StallId) (v : VFormat) (s : State) : Host.Outcome State Fault Refusal :=
  .next (s.onDev fun d => d.vectorIssue st (.move 0) v (Coeri.firstWord (.vmvsx st v)))

def execVins (st : StallId) (v : VFormat) (s : State) : Host.Outcome State Fault Refusal :=
  .next (s.onDev fun d => d.vectorIssue st (.move 1) v (Coeri.firstWord (.vins st v)))

def execVbcast (st : StallId) (v : VFormat) (s : State) : Host.Outcome State Fault Refusal :=
  .next (s.onDev fun d => d.vectorIssue st (.move 2) v (Coeri.firstWord (.vbcast st v)))

def execVmpopc (st : StallId) (v : VFormat) (s : State) : Host.Outcome State Fault Refusal :=
  .next (s.onDev fun d => d.vectorIssue st (.move 3) v (Coeri.firstWord (.vmpopc st v)))

def execVmfirst (st : StallId) (v : VFormat) (s : State) : Host.Outcome State Fault Refusal :=
  .next (s.onDev fun d => d.vectorIssue st (.move 4) v (Coeri.firstWord (.vmfirst st v)))

/-! ### Vector control -/

def execVsetvl (st : StallId) (v : VFormat) (s : State) : Host.Outcome State Fault Refusal :=
  .next (s.onDev fun d => d.vectorIssue st .setvl v (Coeri.firstWord (.vsetvl st v)))

/-- VWAKE: starts a wake of a gated unit and retires at once (R145). -/
def execVwake (st : StallId) (v : VFormat) (s : State) : Host.Outcome State Fault Refusal :=
  .next (s.onDev fun d => d.issue st 1 fun d =>
    if v.vd ≠ 0 ∨ v.va ≠ 0 ∨ v.vb ≠ 0 ∨ v.k ≠ 0 then d.illegal st (Coeri.firstWord (.vwake st v))
    else
      (d.modStall st fun s => { s with gate := if s.gate = .gated then .waking else s.gate }).retire st 1)

/-- IDLE idle cycles have passed: the datapath gates off (R144). It cannot while a queue of either slot holds
an instruction, or where IDLE of the running slot is 0. -/
def execVectorGate (st : StallId) (s : State) : Host.Outcome State Fault Refusal :=
  .next (s.onDev fun d =>
    let x := d.stall st
    if x.gate = .awake && x.primary.vq.isEmpty && x.paddock.vq.isEmpty && field ((d.cur st).getCr 0x17) 0 16 ≠ 0 then
      d.modStall st fun s => { s with gate := .gated }
    else d)

/-- The wake completes (R145): the running slot's queue goes on. -/
def execVectorWakeDone (st : StallId) (s : State) : Host.Outcome State Fault Refusal :=
  .next (s.onDev fun d =>
    if (d.stall st).gate = .waking then
      let d := d.modStall st fun s => { s with gate := .awake }
      if (d.stall st).active then Device.drainQueue st 4 d else d
    else d)

/-- Every element of the LP6 entry at the head has returned or been accepted, or its lowest fault is found
(R167). -/
def execVectorLp6Done (st : StallId) (s : State) : Host.Outcome State Fault Refusal :=
  .next (s.onDev fun d =>
    if (d.stall st).active && (d.stall st).gate = .awake then
      match (d.cur st).vq with
      | e :: rest =>
        if e.lp6 then
          let (d, on) := (d.modCur st fun c => { c with vq := rest }).execEntry st e rest
          if on then Device.drainQueue st 4 d else d
        else d
      | [] => d
    else d)

end Sys2Proof.Machine
end

