-- ==== Sys2Proof/Machine/Dispatch.lean ====
section
/-! DEFINITION. The meaning of every command: one direct call per constructor. -/

namespace Sys2Proof.Machine

def exec (i : Instr) (s : State) : Host.Outcome State Fault Refusal :=
  match i with
  -- Scalar integer instructions
  | .add st d a b => Sys2Proof.Machine.execAdd st d a b s
  | .sub st d a b => Sys2Proof.Machine.execSub st d a b s
  | .and st d a b => Sys2Proof.Machine.execAnd st d a b s
  | .or st d a b => Sys2Proof.Machine.execOr st d a b s
  | .xor st d a b => Sys2Proof.Machine.execXor st d a b s
  | .sll st d a b => Sys2Proof.Machine.execSll st d a b s
  | .srl st d a b => Sys2Proof.Machine.execSrl st d a b s
  | .sra st d a b => Sys2Proof.Machine.execSra st d a b s
  | .slt st d a b => Sys2Proof.Machine.execSlt st d a b s
  | .sltu st d a b => Sys2Proof.Machine.execSltu st d a b s
  | .mul st d a b => Sys2Proof.Machine.execMul st d a b s
  | .mulh st d a b => Sys2Proof.Machine.execMulh st d a b s
  | .mulhu st d a b => Sys2Proof.Machine.execMulhu st d a b s
  | .div st d a b => Sys2Proof.Machine.execDiv st d a b s
  | .divu st d a b => Sys2Proof.Machine.execDivu st d a b s
  | .rem st d a b => Sys2Proof.Machine.execRem st d a b s
  | .remu st d a b => Sys2Proof.Machine.execRemu st d a b s
  | .min st d a b => Sys2Proof.Machine.execMin st d a b s
  | .max st d a b => Sys2Proof.Machine.execMax st d a b s
  | .minu st d a b => Sys2Proof.Machine.execMinu st d a b s
  | .maxu st d a b => Sys2Proof.Machine.execMaxu st d a b s
  | .clz st d a b => Sys2Proof.Machine.execClz st d a b s
  | .ctz st d a b => Sys2Proof.Machine.execCtz st d a b s
  | .popc st d a b => Sys2Proof.Machine.execPopc st d a b s
  | .addi st d a imm => Sys2Proof.Machine.execAddi st d a imm s
  | .andi st d a imm => Sys2Proof.Machine.execAndi st d a imm s
  | .ori st d a imm => Sys2Proof.Machine.execOri st d a imm s
  | .xori st d a imm => Sys2Proof.Machine.execXori st d a imm s
  | .shi st d a imm => Sys2Proof.Machine.execShi st d a imm s
  | .lih st d a imm => Sys2Proof.Machine.execLih st d a imm s
  -- Scalar floating-point instructions
  | .faddD st d a b => Sys2Proof.Machine.execFaddD st d a b s
  | .fsubD st d a b => Sys2Proof.Machine.execFsubD st d a b s
  | .fmulD st d a b => Sys2Proof.Machine.execFmulD st d a b s
  | .fdivD st d a b => Sys2Proof.Machine.execFdivD st d a b s
  | .fsqrtD st d a b => Sys2Proof.Machine.execFsqrtD st d a b s
  | .fminD st d a b => Sys2Proof.Machine.execFminD st d a b s
  | .fmaxD st d a b => Sys2Proof.Machine.execFmaxD st d a b s
  | .feqD st d a b => Sys2Proof.Machine.execFeqD st d a b s
  | .fltD st d a b => Sys2Proof.Machine.execFltD st d a b s
  | .fleD st d a b => Sys2Proof.Machine.execFleD st d a b s
  | .fclassD st d a b => Sys2Proof.Machine.execFclassD st d a b s
  | .faddS st d a b => Sys2Proof.Machine.execFaddS st d a b s
  | .fsubS st d a b => Sys2Proof.Machine.execFsubS st d a b s
  | .fmulS st d a b => Sys2Proof.Machine.execFmulS st d a b s
  | .fdivS st d a b => Sys2Proof.Machine.execFdivS st d a b s
  | .fsqrtS st d a b => Sys2Proof.Machine.execFsqrtS st d a b s
  | .fminS st d a b => Sys2Proof.Machine.execFminS st d a b s
  | .fmaxS st d a b => Sys2Proof.Machine.execFmaxS st d a b s
  | .feqS st d a b => Sys2Proof.Machine.execFeqS st d a b s
  | .fltS st d a b => Sys2Proof.Machine.execFltS st d a b s
  | .fleS st d a b => Sys2Proof.Machine.execFleS st d a b s
  | .fclassS st d a b => Sys2Proof.Machine.execFclassS st d a b s
  | .fcvtDS st d a b => Sys2Proof.Machine.execFcvtDS st d a b s
  | .fcvtSD st d a b => Sys2Proof.Machine.execFcvtSD st d a b s
  | .fcvtDL st d a b => Sys2Proof.Machine.execFcvtDL st d a b s
  | .fcvtLD st d a b => Sys2Proof.Machine.execFcvtLD st d a b s
  | .fcvtSL st d a b => Sys2Proof.Machine.execFcvtSL st d a b s
  | .fcvtLS st d a b => Sys2Proof.Machine.execFcvtLS st d a b s
  | .fmaddD st d a b c => Sys2Proof.Machine.execFmaddD st d a b c s
  | .fmsubD st d a b c => Sys2Proof.Machine.execFmsubD st d a b c s
  | .fnmaddD st d a b c => Sys2Proof.Machine.execFnmaddD st d a b c s
  | .fnmsubD st d a b c => Sys2Proof.Machine.execFnmsubD st d a b c s
  | .fmaddS st d a b c => Sys2Proof.Machine.execFmaddS st d a b c s
  | .fmsubS st d a b c => Sys2Proof.Machine.execFmsubS st d a b c s
  | .fnmaddS st d a b c => Sys2Proof.Machine.execFnmaddS st d a b c s
  | .fnmsubS st d a b c => Sys2Proof.Machine.execFnmsubS st d a b c s
  -- Control flow
  | .beq st a b off => Sys2Proof.Machine.execBeq st a b off s
  | .bne st a b off => Sys2Proof.Machine.execBne st a b off s
  | .blt st a b off => Sys2Proof.Machine.execBlt st a b off s
  | .bge st a b off => Sys2Proof.Machine.execBge st a b off s
  | .bltu st a b off => Sys2Proof.Machine.execBltu st a b off s
  | .bgeu st a b off => Sys2Proof.Machine.execBgeu st a b off s
  | .jal st off => Sys2Proof.Machine.execJal st off s
  | .jalr st d a imm => Sys2Proof.Machine.execJalr st d a imm s
  | .loop st d a imm => Sys2Proof.Machine.execLoop st d a imm s
  -- Loft loads and stores, control space
  | .ldD st d a imm => Sys2Proof.Machine.execLdD st d a imm s
  | .ldW st d a imm => Sys2Proof.Machine.execLdW st d a imm s
  | .ldWu st d a imm => Sys2Proof.Machine.execLdWu st d a imm s
  | .ldH st d a imm => Sys2Proof.Machine.execLdH st d a imm s
  | .ldHu st d a imm => Sys2Proof.Machine.execLdHu st d a imm s
  | .ldB st d a imm => Sys2Proof.Machine.execLdB st d a imm s
  | .ldBu st d a imm => Sys2Proof.Machine.execLdBu st d a imm s
  | .stD st d a imm => Sys2Proof.Machine.execStD st d a imm s
  | .stW st d a imm => Sys2Proof.Machine.execStW st d a imm s
  | .stH st d a imm => Sys2Proof.Machine.execStH st d a imm s
  | .stB st d a imm => Sys2Proof.Machine.execStB st d a imm s
  | .crr st d a imm => Sys2Proof.Machine.execCrr st d a imm s
  | .crw st d a imm => Sys2Proof.Machine.execCrw st d a imm s
  -- Frame, context and fence instructions
  | .fwait st d a b => Sys2Proof.Machine.execFwait st d a b s
  | .fyield st d a b => Sys2Proof.Machine.execFyield st d a b s
  | .fence st d a b => Sys2Proof.Machine.execFence st d a b s
  | .eret st d a b => Sys2Proof.Machine.execEret st d a b s
  | .cyield st d a b => Sys2Proof.Machine.execCyield st d a b s
  | .halt st d a b => Sys2Proof.Machine.execHalt st d a b s
  | .trap st d a imm => Sys2Proof.Machine.execTrap st d a imm s
  -- Messages
  | .send st d a b => Sys2Proof.Machine.execSend st d a b s
  | .recv st d a b => Sys2Proof.Machine.execRecv st d a b s
  | .recva st d a b => Sys2Proof.Machine.execRecva st d a b s
  | .mgrant st d a b => Sys2Proof.Machine.execMgrant st d a b s
  | .chclose st d a b => Sys2Proof.Machine.execChclose st d a b s
  -- Vector integer
  | .vadd st v => Sys2Proof.Machine.execVadd st v s
  | .vsub st v => Sys2Proof.Machine.execVsub st v s
  | .vmul st v => Sys2Proof.Machine.execVmul st v s
  | .vmulh st v => Sys2Proof.Machine.execVmulh st v s
  | .vmulhu st v => Sys2Proof.Machine.execVmulhu st v s
  | .vmin st v => Sys2Proof.Machine.execVmin st v s
  | .vmax st v => Sys2Proof.Machine.execVmax st v s
  | .vminu st v => Sys2Proof.Machine.execVminu st v s
  | .vmaxu st v => Sys2Proof.Machine.execVmaxu st v s
  | .vand st v => Sys2Proof.Machine.execVand st v s
  | .vor st v => Sys2Proof.Machine.execVor st v s
  | .vxor st v => Sys2Proof.Machine.execVxor st v s
  | .vsll st v => Sys2Proof.Machine.execVsll st v s
  | .vsrl st v => Sys2Proof.Machine.execVsrl st v s
  | .vsra st v => Sys2Proof.Machine.execVsra st v s
  | .vcmpeq st v => Sys2Proof.Machine.execVcmpeq st v s
  | .vcmpne st v => Sys2Proof.Machine.execVcmpne st v s
  | .vcmplt st v => Sys2Proof.Machine.execVcmplt st v s
  | .vcmpltu st v => Sys2Proof.Machine.execVcmpltu st v s
  | .vcmple st v => Sys2Proof.Machine.execVcmple st v s
  | .vcmpleu st v => Sys2Proof.Machine.execVcmpleu st v s
  -- Vector floating point
  | .vfadd st v => Sys2Proof.Machine.execVfadd st v s
  | .vfsub st v => Sys2Proof.Machine.execVfsub st v s
  | .vfmul st v => Sys2Proof.Machine.execVfmul st v s
  | .vfma st v => Sys2Proof.Machine.execVfma st v s
  | .vfnma st v => Sys2Proof.Machine.execVfnma st v s
  | .vfdiv st v => Sys2Proof.Machine.execVfdiv st v s
  | .vfsqrt st v => Sys2Proof.Machine.execVfsqrt st v s
  | .vfmin st v => Sys2Proof.Machine.execVfmin st v s
  | .vfmax st v => Sys2Proof.Machine.execVfmax st v s
  | .vfabs st v => Sys2Proof.Machine.execVfabs st v s
  | .vfneg st v => Sys2Proof.Machine.execVfneg st v s
  | .vfcmpeq st v => Sys2Proof.Machine.execVfcmpeq st v s
  | .vfcmplt st v => Sys2Proof.Machine.execVfcmplt st v s
  | .vfcmple st v => Sys2Proof.Machine.execVfcmple st v s
  | .vfcmpun st v => Sys2Proof.Machine.execVfcmpun st v s
  -- Convert and permute, masks, reductions
  | .vcvt st src v => Sys2Proof.Machine.execVcvt st src v s
  | .vcvtFromE4m3 st v => Sys2Proof.Machine.execVcvtFromE4m3 st v s
  | .vcvtFromE5m2 st v => Sys2Proof.Machine.execVcvtFromE5m2 st v s
  | .vcvtToE4m3 st v => Sys2Proof.Machine.execVcvtToE4m3 st v s
  | .vcvtToE5m2 st v => Sys2Proof.Machine.execVcvtToE5m2 st v s
  | .vid st v => Sys2Proof.Machine.execVid st v s
  | .vslidedn st v => Sys2Proof.Machine.execVslidedn st v s
  | .vslideup st v => Sys2Proof.Machine.execVslideup st v s
  | .vperm st v => Sys2Proof.Machine.execVperm st v s
  | .kand st kd ks1 ks2 vd va vb => Sys2Proof.Machine.execKand st kd ks1 ks2 vd va vb s
  | .kor st kd ks1 ks2 vd va vb => Sys2Proof.Machine.execKor st kd ks1 ks2 vd va vb s
  | .kxor st kd ks1 ks2 vd va vb => Sys2Proof.Machine.execKxor st kd ks1 ks2 vd va vb s
  | .kandn st kd ks1 ks2 vd va vb => Sys2Proof.Machine.execKandn st kd ks1 ks2 vd va vb s
  | .vrsum st v => Sys2Proof.Machine.execVrsum st v s
  | .vrmin st v => Sys2Proof.Machine.execVrmin st v s
  | .vrmax st v => Sys2Proof.Machine.execVrmax st v s
  | .vsegsum st v => Sys2Proof.Machine.execVsegsum st v s
  | .vsegmin st v => Sys2Proof.Machine.execVsegmin st v s
  | .vsegmax st v => Sys2Proof.Machine.execVsegmax st v s
  | .vcompress st v => Sys2Proof.Machine.execVcompress st v s
  | .vexpand st v => Sys2Proof.Machine.execVexpand st v s
  -- Vector memory
  | .vld st v => Sys2Proof.Machine.execVld st v s
  | .vlds st v => Sys2Proof.Machine.execVlds st v s
  | .vst st v => Sys2Proof.Machine.execVst st v s
  | .vsts st v => Sys2Proof.Machine.execVsts st v s
  | .vldm st v => Sys2Proof.Machine.execVldm st v s
  | .vldsm st v => Sys2Proof.Machine.execVldsm st v s
  | .vstm st v => Sys2Proof.Machine.execVstm st v s
  | .vstsm st v => Sys2Proof.Machine.execVstsm st v s
  | .vgatherW st v => Sys2Proof.Machine.execVgatherW st v s
  | .vgatherD st v => Sys2Proof.Machine.execVgatherD st v s
  | .vscatterW st v => Sys2Proof.Machine.execVscatterW st v s
  | .vscatterD st v => Sys2Proof.Machine.execVscatterD st v s
  | .vgathermW st v => Sys2Proof.Machine.execVgathermW st v s
  | .vgathermD st v => Sys2Proof.Machine.execVgathermD st v s
  | .vscattermW st v => Sys2Proof.Machine.execVscattermW st v s
  | .vscattermD st v => Sys2Proof.Machine.execVscattermD st v s
  | .vldff st v => Sys2Proof.Machine.execVldff st v s
  | .vgatherffW st v => Sys2Proof.Machine.execVgatherffW st v s
  | .vgatherffD st v => Sys2Proof.Machine.execVgatherffD st v s
  | .vldffm st v => Sys2Proof.Machine.execVldffm st v s
  | .vgatherffmW st v => Sys2Proof.Machine.execVgatherffmW st v s
  | .vgatherffmD st v => Sys2Proof.Machine.execVgatherffmD st v s
  | .vhadd st v => Sys2Proof.Machine.execVhadd st v s
  -- Vector-scalar moves and control
  | .vmvsx st v => Sys2Proof.Machine.execVmvsx st v s
  | .vins st v => Sys2Proof.Machine.execVins st v s
  | .vbcast st v => Sys2Proof.Machine.execVbcast st v s
  | .vmpopc st v => Sys2Proof.Machine.execVmpopc st v s
  | .vmfirst st v => Sys2Proof.Machine.execVmfirst st v s
  | .vwake st v => Sys2Proof.Machine.execVwake st v s
  | .vsetvl st v => Sys2Proof.Machine.execVsetvl st v s
  -- Mangers
  | .mload st m => Sys2Proof.Machine.execMload st m s
  | .mfeed st m => Sys2Proof.Machine.execMfeed st m s
  | .mdrain st m => Sys2Proof.Machine.execMdrain st m s
  | .mstat st m => Sys2Proof.Machine.execMstat st m s
  | .fmtsel st m => Sys2Proof.Machine.execFmtsel st m s
  -- Barrow and stash
  | .bget st m => Sys2Proof.Machine.execBget st m s
  | .bput st m => Sys2Proof.Machine.execBput st m s
  | .stashOpen st put m => Sys2Proof.Machine.execStashOpen st put m s
  | .stashPut st put m => Sys2Proof.Machine.execStashPut st put m s
  | .stashGet st put m => Sys2Proof.Machine.execStashGet st put m s
  | .stashFree st put m => Sys2Proof.Machine.execStashFree st put m s
  | .stashClose st put m => Sys2Proof.Machine.execStashClose st put m s
  -- Drover and teams
  | .shift st m => Sys2Proof.Machine.execShift st m s
  | .permute st m => Sys2Proof.Machine.execPermute st m s
  | .teamSend st m => Sys2Proof.Machine.execTeamSend st m s
  | .siding st m => Sys2Proof.Machine.execSiding st m s
  | .release st m => Sys2Proof.Machine.execRelease st m s
  | .permset st m => Sys2Proof.Machine.execPermset st m s
  -- Forge
  | .fsubmit st m => Sys2Proof.Machine.execFsubmit st m s
  | .backward st m => Sys2Proof.Machine.execBackward st m s
  | .backwardAndRelease st m => Sys2Proof.Machine.execBackwardAndRelease st m s
  | .forgeRelease st m => Sys2Proof.Machine.execForgeRelease st m s
  -- Frames, ticks and elapsed time
  | .frameBoundary env => Sys2Proof.Machine.execFrameBoundary env s
  | .refClockLost => Sys2Proof.Machine.execRefClockLost s
  | .tick p h m arrival => Sys2Proof.Machine.execTick p h m arrival s
  | .upstreamLossHoldover => Sys2Proof.Machine.execUpstreamLossHoldover s
  | .trackingErrorHoldover => Sys2Proof.Machine.execTrackingErrorHoldover s
  | .acquire who => Sys2Proof.Machine.execAcquire who s
  | .tickStep => Sys2Proof.Machine.execTickStep s
  | .acquireTimeout => Sys2Proof.Machine.execAcquireTimeout s
  | .tickLoad who => Sys2Proof.Machine.execTickLoad who s
  | .tickLoadApply => Sys2Proof.Machine.execTickLoadApply s
  | .frameNowLoRead who r => Sys2Proof.Machine.execFrameNowLoRead who r s
  | .fwKick who v => Sys2Proof.Machine.execFwKick who v s
  | .fwWatchdogExpiry => Sys2Proof.Machine.execFwWatchdogExpiry s
  | .stallWatchdog st => Sys2Proof.Machine.execStallWatchdog st s
  | .contextSwitchStart st done => Sys2Proof.Machine.execContextSwitchStart st done s
  | .contextSwitchDone st => Sys2Proof.Machine.execContextSwitchDone st s
  -- Frame, context and fence instructions: events
  | .fwaitRetire st => Sys2Proof.Machine.execFwaitRetire st s
  -- Messages: events
  | .heldSendIssue st => Sys2Proof.Machine.execHeldSendIssue st s
  | .recvWake st => Sys2Proof.Machine.execRecvWake st s
  | .messageArrival st mbx src => Sys2Proof.Machine.execMessageArrival st mbx src s
  | .creditReturnArrival n => Sys2Proof.Machine.execCreditReturnArrival n s
  | .grantArrival n => Sys2Proof.Machine.execGrantArrival n s
  -- Vector-scalar moves and control: events
  | .vectorGate st => Sys2Proof.Machine.execVectorGate st s
  | .vectorWakeDone st => Sys2Proof.Machine.execVectorWakeDone st s
  -- Mangers: events
  | .mloadStart st sl => Sys2Proof.Machine.execMloadStart st sl s
  | .mloadDone st sl n => Sys2Proof.Machine.execMloadDone st sl n s
  | .passStart st sl => Sys2Proof.Machine.execPassStart st sl s
  | .passEnd st sl e => Sys2Proof.Machine.execPassEnd st sl e s
  | .mfeedImmediateEnd st sl => Sys2Proof.Machine.execMfeedImmediateEnd st sl s
  | .drainStart st sl => Sys2Proof.Machine.execDrainStart st sl s
  | .drainDone st sl mg => Sys2Proof.Machine.execDrainDone st sl mg s
  | .fmtselStart st sl => Sys2Proof.Machine.execFmtselStart st sl s
  | .dutyChange y => Sys2Proof.Machine.execDutyChange y s
  -- Barrow and stash: events
  | .barrowAccept st n => Sys2Proof.Machine.execBarrowAccept st n s
  | .barrowComplete st n => Sys2Proof.Machine.execBarrowComplete st n s
  | .barrowAbort who shed v moved => Sys2Proof.Machine.execBarrowAbort who shed v moved s
  -- Memory controllers
  | .mcTempRead ch code temp => Sys2Proof.Machine.execMcTempRead ch code temp s
  | .thermalLevelChange ch => Sys2Proof.Machine.execThermalLevelChange ch s
  | .refresh ch bank => Sys2Proof.Machine.execRefresh ch bank s
  | .ueWindowEnd ch => Sys2Proof.Machine.execUeWindowEnd ch s
  -- Yard bridge and torus ports
  | .bridgeFail y => Sys2Proof.Machine.execBridgeFail y s
  | .bringup who p => Sys2Proof.Machine.execBringup who p s
  | .portDown who p => Sys2Proof.Machine.execPortDown who p s
  | .trainingDone p r => Sys2Proof.Machine.execTrainingDone p r s
  | .phaseTimeout p => Sys2Proof.Machine.execPhaseTimeout p s
  | .negotiationDone p => Sys2Proof.Machine.execNegotiationDone p s
  | .identityDone p => Sys2Proof.Machine.execIdentityDone p s
  | .hello p h hello => Sys2Proof.Machine.execHello p h hello s
  | .echoReq p h id => Sys2Proof.Machine.execEchoReq p h id s
  | .echoRsp p h id turn roundTrip => Sys2Proof.Machine.execEchoRsp p h id turn roundTrip s
  | .challenge p h nonce => Sys2Proof.Machine.execChallenge p h nonce s
  | .signature p h part data => Sys2Proof.Machine.execSignature p h part data s
  | .keepalive p h => Sys2Proof.Machine.execKeepalive p h s
  | .nak p h lost => Sys2Proof.Machine.execNak p h lost s
  | .credit p h returns => Sys2Proof.Machine.execCredit p h returns s
  | .swapReq p h lane cancel => Sys2Proof.Machine.execSwapReq p h lane cancel s
  | .swapAck p h lane spare frame => Sys2Proof.Machine.execSwapAck p h lane spare frame s
  | .laneDown p h lane => Sys2Proof.Machine.execLaneDown p h lane s
  | .down p h cause => Sys2Proof.Machine.execDown p h cause s
  | .dataFlit p h kind tag payload => Sys2Proof.Machine.execDataFlit p h kind tag payload s
  | .idleFlit p h => Sys2Proof.Machine.execIdleFlit p h s
  | .flitSlot p => Sys2Proof.Machine.execFlitSlot p s
  | .replayDeadline p => Sys2Proof.Machine.execReplayDeadline p s
  | .replayLimitExceeded p => Sys2Proof.Machine.execReplayLimitExceeded p s
  | .swapThreshold p lane corrected uncorrectable => Sys2Proof.Machine.execSwapThreshold p lane corrected uncorrectable s
  | .swapFrame c => Sys2Proof.Machine.execSwapFrame c s
  | .lockLoss p lane => Sys2Proof.Machine.execLockLoss p lane s
  | .partnerLost p allLanes => Sys2Proof.Machine.execPartnerLost p allLanes s
  | .creditReclaim p => Sys2Proof.Machine.execCreditReclaim p s
  -- Drover and teams: events
  | .memberDecide dr t => Sys2Proof.Machine.execMemberDecide dr t s
  | .collect dr t h c => Sys2Proof.Machine.execCollect dr t h c s
  | .verdictSend dr t => Sys2Proof.Machine.execVerdictSend dr t s
  | .verdict dr t h code rank => Sys2Proof.Machine.execVerdict dr t h code rank s
  | .metaFlit dr t h src layer shard epoch => Sys2Proof.Machine.execMetaFlit dr t h src layer shard epoch s
  | .chunkLanded dr t => Sys2Proof.Machine.execChunkLanded dr t s
  | .completeStart dr t => Sys2Proof.Machine.execCompleteStart dr t s
  | .complete dr t h c => Sys2Proof.Machine.execComplete dr t h c s
  | .commit dr t h code k => Sys2Proof.Machine.execCommit dr t h code k s
  | .fail dr t h code cause rank => Sys2Proof.Machine.execFail dr t h code cause rank s
  | .sever dr t h rank => Sys2Proof.Machine.execSever dr t h rank s
  | .teamAbortFlit dr t h rank => Sys2Proof.Machine.execTeamAbortFlit dr t h rank s
  | .hsLimitExpiry dr t => Sys2Proof.Machine.execHsLimitExpiry dr t s
  | .severTimeout dr t => Sys2Proof.Machine.execSeverTimeout dr t s
  | .teamAbort who dr v => Sys2Proof.Machine.execTeamAbort who dr v s
  | .teamCmdCreate who dr v => Sys2Proof.Machine.execTeamCmdCreate who dr v s
  | .teamActivate dr t => Sys2Proof.Machine.execTeamActivate dr t s
  | .teamCmdDestroy who dr v => Sys2Proof.Machine.execTeamCmdDestroy who dr v s
  | .teamFree dr t => Sys2Proof.Machine.execTeamFree dr t s
  -- Forge: events
  | .problemStart fo hearth => Sys2Proof.Machine.execProblemStart fo hearth s
  | .problemEnd fo hearth r => Sys2Proof.Machine.execProblemEnd fo hearth r s
  | .forgeDeadlineMiss fo stops => Sys2Proof.Machine.execForgeDeadlineMiss fo stops s
  | .retentionExpiry fo e => Sys2Proof.Machine.execRetentionExpiry fo e s
  | .forgeAbort who fo v stops => Sys2Proof.Machine.execForgeAbort who fo v stops s
  | .tplCmdLoad who fo v => Sys2Proof.Machine.execTplCmdLoad who fo v s
  | .tplLoadDone fo => Sys2Proof.Machine.execTplLoadDone fo s
  | .tplCmdUnload who fo v => Sys2Proof.Machine.execTplCmdUnload who fo v s
  -- Start-up and host link
  | .powerGood => Sys2Proof.Machine.execPowerGood s
  | .powerRemoval => Sys2Proof.Machine.execPowerRemoval s
  | .verify who => Sys2Proof.Machine.execVerify who s
  | .verifyDone x => Sys2Proof.Machine.execVerifyDone x s
  | .fwInitDone x => Sys2Proof.Machine.execFwInitDone x s
  | .romTimerExpiry => Sys2Proof.Machine.execRomTimerExpiry s
  | .warmReset who key => Sys2Proof.Machine.execWarmReset who key s
  | .functionLevelReset => Sys2Proof.Machine.execFunctionLevelReset s
  | .hotReset => Sys2Proof.Machine.execHotReset s
  | .d3hotReturn => Sys2Proof.Machine.execD3hotReturn s
  | .moduleFailure second => Sys2Proof.Machine.execModuleFailure second s
  | .memoryBarAccess off a => Sys2Proof.Machine.execMemoryBarAccess off a s
  -- Host queues and commands
  | .queueEnable who q v => Sys2Proof.Machine.execQueueEnable who q v s
  | .queueDisable who q => Sys2Proof.Machine.execQueueDisable who q s
  | .queueDrained q => Sys2Proof.Machine.execQueueDrained q s
  | .sqTail q tail written => Sys2Proof.Machine.execSqTail q tail written s
  | .cqHead q head => Sys2Proof.Machine.execCqHead q head s
  | .nop q => Sys2Proof.Machine.execNop q s
  | .identify q => Sys2Proof.Machine.execIdentify q s
  | .logRead q => Sys2Proof.Machine.execLogRead q s
  | .abort q moved => Sys2Proof.Machine.execAbort q moved s
  | .dmaH2d q => Sys2Proof.Machine.execDmaH2d q s
  | .dmaD2h q => Sys2Proof.Machine.execDmaD2h q s
  | .dmaComplete engine => Sys2Proof.Machine.execDmaComplete engine s
  | .stallLoad q => Sys2Proof.Machine.execStallLoad q s
  | .stallStart q => Sys2Proof.Machine.execStallStart q s
  | .stallHalt q => Sys2Proof.Machine.execStallHalt q s
  | .teamCreate q => Sys2Proof.Machine.execTeamCreate q s
  | .teamDestroy q => Sys2Proof.Machine.execTeamDestroy q s
  | .tplLoad q => Sys2Proof.Machine.execTplLoad q s
  | .tplUnload q => Sys2Proof.Machine.execTplUnload q s
  | .setFillLimit q => Sys2Proof.Machine.execSetFillLimit q s
  | .setAllowlist q => Sys2Proof.Machine.execSetAllowlist q s
  | .attestReport q => Sys2Proof.Machine.execAttestReport q s
  | .attestExtend q => Sys2Proof.Machine.execAttestExtend q s
  -- Registers and transactions
  | .registerWrite who off size v => Sys2Proof.Machine.execRegisterWrite who off size v s
  | .rwtWrite who off v => Sys2Proof.Machine.execRwtWrite who off v s
  | .rcRead who r => Sys2Proof.Machine.execRcRead who r s
  | .errStatClear who page v => Sys2Proof.Machine.execErrStatClear who page v s
  | .errInj who page v => Sys2Proof.Machine.execErrInj who page v s
  | .stallMirrorWrite who st off v => Sys2Proof.Machine.execStallMirrorWrite who st off v s
  | .txnOpen who => Sys2Proof.Machine.execTxnOpen who s
  | .enrol who page id => Sys2Proof.Machine.execEnrol who page id s
  | .txnCommit who id => Sys2Proof.Machine.execTxnCommit who id s
  | .txnRollback who id => Sys2Proof.Machine.execTxnRollback who id s
  | .txnApply who => Sys2Proof.Machine.execTxnApply who s
  | .txnTimeout who => Sys2Proof.Machine.execTxnTimeout who s
  -- Tallies and injection
  | .slotReclaim who v => Sys2Proof.Machine.execSlotReclaim who v s
  | .tallyOvr who v => Sys2Proof.Machine.execTallyOvr who v s
  | .tallyAdjust => Sys2Proof.Machine.execTallyAdjust s
  | .fiArm who v => Sys2Proof.Machine.execFiArm who v s
  | .fiFire => Sys2Proof.Machine.execFiFire s
  -- Built-in self-test
  | .bistStart who => Sys2Proof.Machine.execBistStart who s
  | .bistRoundStart faults => Sys2Proof.Machine.execBistRoundStart faults s
  | .bistLp6Phase faults => Sys2Proof.Machine.execBistLp6Phase faults s
  | .bistResult => Sys2Proof.Machine.execBistResult s
  | .bistAbort who => Sys2Proof.Machine.execBistAbort who s
  -- Power and heat
  | .voltageReached y => Sys2Proof.Machine.execVoltageReached y s
  | .avsTimeout y => Sys2Proof.Machine.execAvsTimeout y s
  | .railFault x => Sys2Proof.Machine.execRailFault x s
  | .thermtripAnalog => Sys2Proof.Machine.execThermtripAnalog s
  | .prochot low => Sys2Proof.Machine.execProchot low s
  -- Sideband
  | .mgId => Sys2Proof.Machine.execMgId s
  | .mgState => Sys2Proof.Machine.execMgState s
  | .mgFrame => Sys2Proof.Machine.execMgFrame s
  | .mgUptime => Sys2Proof.Machine.execMgUptime s
  | .mgTemp => Sys2Proof.Machine.execMgTemp s
  | .mgTempAll => Sys2Proof.Machine.execMgTempAll s
  | .mgLp6Level => Sys2Proof.Machine.execMgLp6Level s
  | .mgPower => Sys2Proof.Machine.execMgPower s
  | .mgRails => Sys2Proof.Machine.execMgRails s
  | .mgSafe data => Sys2Proof.Machine.execMgSafe data s
  -- Test port
  | .extest => Sys2Proof.Machine.execExtest s
  | .samplePreload => Sys2Proof.Machine.execSamplePreload s
  | .idcode => Sys2Proof.Machine.execIdcode s
  | .extestPulse => Sys2Proof.Machine.execExtestPulse s
  | .extestTrain => Sys2Proof.Machine.execExtestTrain s
  | .dbgChallenge nonce => Sys2Proof.Machine.execDbgChallenge nonce s
  | .dbgToken t => Sys2Proof.Machine.execDbgToken t s
  | .dbgStatus => Sys2Proof.Machine.execDbgStatus s
  | .dbgAccess off w => Sys2Proof.Machine.execDbgAccess off w s
  | .ghHalt => Sys2Proof.Machine.execGhHalt s
  | .scanConnect => Sys2Proof.Machine.execScanConnect s
  | .fuseProg bits => Sys2Proof.Machine.execFuseProg bits s
  | .bypass => Sys2Proof.Machine.execBypass s
  | .tapReset => Sys2Proof.Machine.execTapReset s
  -- Events of several chapters
  | .damagedFlit f => Sys2Proof.Machine.execDamagedFlit f s
  | .bridgeRetry y => Sys2Proof.Machine.execBridgeRetry y s
  | .gatehouseSramUncorrected a firmware => Sys2Proof.Machine.execGatehouseSramUncorrected a firmware s
  | .vectorLp6Done st => Sys2Proof.Machine.execVectorLp6Done st s
  | .signingDone => Sys2Proof.Machine.execSigningDone s
  | .debugTokenVerified => Sys2Proof.Machine.execDebugTokenVerified s
  | .hostLinkUp m0 m1 rate => Sys2Proof.Machine.execHostLinkUp m0 m1 rate s
  | .parkContext st sl dir dpa => Sys2Proof.Machine.execParkContext st sl dir dpa s
  | .illegalInstruction st => Sys2Proof.Machine.execIllegalInstruction st s
  | .illegalRegisterRead who off => Sys2Proof.Machine.execIllegalRegisterRead who off s

end Sys2Proof.Machine
end

