-- ==== Sys2Proof/Safety.lean ====
section
/-! DEFINITION. The terms in which claims speak of the machine: when an instruction issues without a fault, what a
command leaves unchanged, how an instruction retires, and the invariants of the block. -/

namespace Sys2Proof.Machine

/-- The command answers a next state, and P holds of it. -/
abbrev Completes (i : Instr) (s : State) (P : State → Prop) : Prop := ∃ t, exec i s = .next t ∧ P t

/-! ### Frames -/

/-- t is s but for the device: no command waits that did not wait before, and no fuse has changed. -/
def State.sameOutside (s t : State) : Prop := t.pending = s.pending ∧ t.array = s.array

/-- t is s but for the stalls, and of those for st alone. -/
def State.sameButStall (st : StallId) (s t : State) : Prop :=
  s.sameOutside t ∧ t.dev = { s.dev with stalls := t.dev.stalls } ∧ ∀ u, u ≠ st → t.dev.stall u = s.dev.stall u

/-- t is s but for the running slot of stall st: its mailboxes, vector registers, mangers and its other slot stay. -/
def State.sameButSlot (st : StallId) (s t : State) : Prop :=
  s.sameButStall st t ∧ t.dev.stall st = (s.dev.stall st).setCtx (s.dev.slotOf st) (t.dev.cur st)

/-- t is s but for slot sl of stall st. -/
def State.sameButCtx (st : StallId) (sl : Slot) (s t : State) : Prop :=
  s.sameButStall st t ∧ t.dev.stall st = (s.dev.stall st).setCtx sl (t.dev.ctx st sl)

/-- Of the device, the commands that wait and the fuses, t differs from s at most in what d, made from s and t, takes
from t. -/
def State.onlyTo (s t : State) (d : Device) : Prop := s.sameOutside t ∧ t.dev = d

/-- Every byte of LP6 memory and of the lofts reads as before. -/
def State.sameMemory (s t : State) : Prop := ∀ a, t.dev.rdByte a = s.dev.rdByte a

/-! ### Issue and retirement of an instruction -/

/-- The running slot of the stall issues an instruction of n words: it runs, holds none, no switch is under way, and the
words read with good parity. -/
def State.issues (s : State) (st : StallId) (n : Nat) : Prop := s.dev.ready st = true ∧ s.dev.tackFault st n = none

/-- The instruction at c's pc, of n words, is the last of no active loop body. -/
def SlotCtx.endsNoLoop (c : SlotCtx) : Prop :=
  (loopCount (c.getCr 0x3C) = 0 ∨ loopLast (c.getCr 0x3C) ≠ c.pc) ∧
    (loopCount (c.getCr 0x3D) = 0 ∨ loopLast (c.getCr 0x3D) ≠ c.pc)

/-- An instruction of n words retired from c to e: the slot goes on running and holds nothing new; of the control
registers only the two LOOP registers may count down; outside an active loop's last instruction the pc moves by 4n and
those registers stay. Scalar registers are not spoken of here. -/
def SlotCtx.retired (n : Nat) (c e : SlotCtx) : Prop :=
  e = { c with s := e.s, pc := e.pc, cr := e.cr, resumeAt := none } ∧
    (∀ m, m ≠ 0x3C → m ≠ 0x3D → e.getCr m = c.getCr m) ∧
    (c.endsNoLoop → e.pc = c.pc + BitVec.ofNat 16 (4 * n) ∧ e.cr = c.cr)

/-- The instruction of n words at st made the running slot c, then wrote v to scalar register d and retired; s0
discards the write (R94), and every other scalar register keeps its value. -/
def State.wrote (st : StallId) (n : Nat) (c : SlotCtx) (d : SReg) (v : W64) (s t : State) : Prop :=
  s.sameButSlot st t ∧ c.retired n (t.dev.cur st) ∧
    ∀ r, t.dev.sreg st r = if r = d ∧ r ≠ 0 then v else s.dev.sreg st r

/-- The instruction of n words at st wrote v to scalar register d and nothing else. -/
def State.wroteScalar (st : StallId) (n : Nat) (d : SReg) (v : W64) (s t : State) : Prop :=
  s.wrote st n (s.dev.cur st) d v t

/-- The instruction of n words at st retired and wrote no register. -/
def State.onlyRetired (st : StallId) (n : Nat) (s t : State) : Prop := s.wroteScalar st n 0 0 t

/-- A jump to a target: the pc moves there, and of the control registers only the LOOP registers may end. -/
def SlotCtx.jumped (target : Tack) (c e : SlotCtx) : Prop :=
  e = { c with pc := target, cr := e.cr, resumeAt := none } ∧ ∀ m, m ≠ 0x3C → m ≠ 0x3D → e.getCr m = c.getCr m

/-- The groom of st enters its handler (R128): EXC_PC, EXC_CAUSE and EXC_INFO are written, EXC_ACTIVE is set, the pc is
EXC_BASE + 32 × CAUSE, and no other register of the slot changes. -/
def SlotCtx.entered (cause : Nat) (code : Code) (info : W64) (c e : SlotCtx) : Prop :=
  e = { c with pc := e.pc, cr := e.cr, resumeAt := none, hold := none } ∧
    e.pc = BitVec.ofNat 16 (field (c.getCr 0x09) 0 16) + BitVec.ofNat 16 (32 * cause) ∧
    e.getCr 0x06 = c.pc.setWidth 64 ∧ e.getCr 0x07 = BitVec.ofNat 64 (code.toNat * 2 ^ 16 + cause) ∧ e.getCr 0x08 = info ∧
    e.getCr 0x01 = c.getCr 0x01 ||| 1 ∧ ∀ m, m ≠ 0x01 → m ≠ 0x06 → m ≠ 0x07 → m ≠ 0x08 → e.getCr m = c.getCr m

/-- The instruction of st took a scalar exception: the running slot entered its handler. A code that is not 0x0000 is also
recorded on the STALL page, which writes its registers and may signal the host; all else stays. -/
def State.took (st : StallId) (cause : Nat) (code : Code) (info : W64) (s t : State) : Prop :=
  s.sameOutside t ∧
    t.dev = { s.dev with stalls := t.dev.stalls, regs := t.dev.regs, pba := t.dev.pba, out := t.dev.out } ∧
    (code = 0 → t.dev = { s.dev with stalls := t.dev.stalls }) ∧
    (∀ u, u ≠ st → t.dev.stall u = s.dev.stall u) ∧
    t.dev.stall st = (s.dev.stall st).setCtx (s.dev.slotOf st) (t.dev.cur st) ∧
    (s.dev.cur st).entered cause code info (t.dev.cur st)

/-- t is s but for stall st and the bytes of memory. -/
def State.sameButStallMem (st : StallId) (s t : State) : Prop :=
  s.sameOutside t ∧ t.dev = { s.dev with stalls := t.dev.stalls, mem := t.dev.mem } ∧
    (∀ u, u ≠ st → t.dev.stall u = s.dev.stall u) ∧
    t.dev.stall st = (s.dev.stall st).setCtx (s.dev.slotOf st) (t.dev.cur st)

/-- The descriptor of eight words that stands at a DPA, each word little-endian. -/
def Device.descrAt (d : Device) (a : Nat) : Vector W64 8 :=
  Vector.ofFn fun (i : Fin 8) => BitVec.ofNat 64 (leNat (d.rdBytes (a + 8 * i.val) 8))

/-- The operand a of the instruction names a descriptor that st may read: inside the partition, aligned, free of errors. -/
def State.namesDescr (s : State) (st : StallId) (a : SReg) : Prop :=
  (s.dev.sreg st a).toNat % 64 = 0 ∧ (s.dev.sreg st a).toNat + 64 ≤ s.dev.loftLimit st (s.dev.slotOf st) ∧
    (∀ u ∈ unitsOf (s.dev.loftAt st (s.dev.sreg st a).toNat) 64, u ∉ s.dev.bad ∧ u ∉ s.dev.ce)

/-- The descriptor that the operand a names. -/
def State.descr (s : State) (st : StallId) (a : SReg) : Vector W64 8 :=
  s.dev.descrAt (s.dev.loftAt st (s.dev.sreg st a).toNat)

/-- Every region lies in the running slot's partition and is aligned. -/
def State.regionsFit (s : State) (st : StallId) (rs : List Region) : Prop :=
  ∀ r ∈ rs, r.base + r.bytes ≤ s.dev.loftLimit st (s.dev.slotOf st) ∧ r.base % r.align = 0

/-- The unit at u, of LP6 memory or a loft, reads and writes without an error. -/
def Device.sound (d : Device) (u : Nat) : Prop :=
  u ∉ d.bad ∧ u ∉ d.ce ∧ (u < loftBase → d.mc[d.chanOf u].state ≠ .offline)

/-- The n bytes from a lie on one side of the loft apertures and in sound units. -/
def Device.soundRange (d : Device) (a n : Nat) : Prop :=
  (a + n ≤ loftBase ∨ loftBase ≤ a) ∧ ∀ u ∈ unitsOf a n, d.sound u

/-- Mailbox k of st is a NOTICE mailbox of the running slot with n free slots (R115). -/
def State.takesNotices (s : State) (st : StallId) (k : Fin 8) (n : Nat) : Prop :=
  (s.dev.mbx st k).notice = true ∧ s.dev.mbxOwner st k = s.dev.slotOf st ∧ n ≤ (s.dev.mbx st k).free

/-- n notice slots of mailbox k of st have been reserved. -/
def State.reserved (st : StallId) (k : Fin 8) (n : Nat) (s t : State) : Prop :=
  t.dev.mbx st k =
    { s.dev.mbx st k with free := (s.dev.mbx st k).free - n, inflight := (s.dev.mbx st k).inflight + n }

/-- A notice whose first word is w was written to mailbox k of st, into a slot reserved for it. -/
def State.noticed (st : StallId) (k : Fin 8) (w : Nat) (s t : State) : Prop :=
  ∃ m : Message, (t.dev.mbx st k).msgs = (s.dev.mbx st k).msgs ++ [m] ∧ m.notice = true ∧ leNat (m.data.take 8) = w ∧
    (t.dev.mbx st k).inflight = (s.dev.mbx st k).inflight - 1

/-- A flit with header h and of VC v comes in at port p as the one expected, with no news of its own in the header, and
finds a buffer. -/
def State.hears (s : State) (p : PortId) (h : FlitHeader) (v : Nat) : Prop :=
  s.dev.ports[p].talking = true ∧ h.seq = s.dev.ports[p].expect ∧ h.ack = s.dev.ports[p].acked ∧ h.ccount = 0 ∧
    vget s.dev.ports[p].granted v 0 ≠ 0

/-- A flit for team t of drover y comes in so on the team's − port, whose link is up and carries the team's VC, one of VC1
to VC5; the team is set up. -/
def State.hearsTeam (s : State) (y : Yard) (t : Fin 64) (h : FlitHeader) : Prop :=
  s.hears (s.dev.teamPort y t true) h (s.dev.team y t).vc ∧ s.dev.teamLink y t true = true ∧
    (s.dev.team y t).setUp = true ∧ 1 ≤ (s.dev.team y t).vc ∧ (s.dev.team y t).vc ≤ 5

/-- The device entered SAFE with its cause (R469, R541, R542): every slot is halted, no engine holds work, and no byte of
memory has changed but of the format ledgers, which hold unknown values (R297); a move that SAFE ends has moved none
of its bytes (log 91). -/
def State.wentSafe (code : Code) (s t : State) : Prop :=
  t.dev.boot.state = .safe ∧ t.dev.boot.safeCause = code ∧ (∀ st sl, (t.dev.ctx st sl).running = false) ∧
    (∀ st, (t.dev.stall st).barrow = []) ∧ (∀ y : Yard, t.dev.drovers[y].jobs = [] ∧ t.dev.forges[y].reqs = []) ∧
    (∀ a, (∀ p ∈ s.dev.allLedgers, a < p ∨ p + 64 ≤ a) → t.dev.rdByte a = s.dev.rdByte a) ∧ s.sameOutside t

/-- The device is neither in OFF nor in SAFE. -/
def State.alive (s : State) : Prop := s.dev.boot.state ≠ .off ∧ s.dev.boot.state ≠ .safe

/-- The completion of a command stands in the host's memory, in the entry at CQ_TAIL of queue q (R477). -/
def State.completed (q : QueueId) (cid : BitVec 16) (code : Code) (r : W64) (s t : State) : Prop :=
  let h := s.dev.queues[q]
  let k := t.dev.queues[q]
  t.dev.rdHost (s.dev.cqBase q + 16 * h.cqTail) 16 =
      leBytes 8 (k.sqHead * 2 ^ 48 + cid.toNat * 2 ^ 32 + bitAt h.phase 16 + code.toNat) ++ leBytes 8 r.toNat ∧
    k.cqTail = (h.cqTail + 1) % s.dev.cqSize q ∧ k.phase = if k.cqTail = 0 then !h.phase else h.phase

/-- The n bytes of host memory from a lie apart from the free completion entry of queue q. -/
def State.apart (s : State) (q : QueueId) (a n : Nat) : Prop :=
  let e := s.dev.cqBase q + 16 * s.dev.queues[q].cqTail
  a + n ≤ e ∨ e + 16 ≤ a

/-- Queue q may start its next command, whose words are w: they are legal and of opcode op, the device's state lets the
command run, and a completion entry is free. -/
def State.commandNext (s : State) (q : QueueId) (op : Nat) (w : List W64) : Prop :=
  s.dev.nextCommand q = some w ∧ Device.cmdLegal w = true ∧ Device.opcode w = op ∧ s.dev.cmdAllowed op = true ∧
    s.dev.queues[q].full < s.dev.cqSize q

/-- CID of a command. -/
def cidOf (w : List W64) : BitVec 16 := BitVec.ofNat 16 (field (Device.cmdWord w 0) 16 16)

/-- The command of words w at the head of queue q was taken and completed at once with a code and a result. -/
def State.answered (q : QueueId) (w : List W64) (code : Code) (r : W64) (s t : State) : Prop :=
  s.completed q (cidOf w) code r t ∧ t.dev.queues[q].sqHead = (s.dev.takeCmd q).queues[q].sqHead ∧
    t.dev.queues[q].full = s.dev.queues[q].full + 1 ∧ t.dev.queues[q].started = s.dev.queues[q].started ∧
    ∀ p, p ≠ q → t.dev.queues[p] = s.dev.queues[p]

/-- The command of words w at the head of queue q was taken and waits for x. -/
def State.waits (q : QueueId) (w : List W64) (x : HostWait) (s t : State) : Prop :=
  let c : HostCmd := { cid := cidOf w, op := BitVec.ofNat 8 (Device.opcode w), words := w, wait := x }
  t.dev.queues[q] = { (s.dev.takeCmd q).queues[q] with started := s.dev.queues[q].started ++ [c] } ∧
    ∀ p, p ≠ q → t.dev.queues[p] = s.dev.queues[p]

/-- A status record (R243): kind, tag, two counts of 14 bits, code. -/
def statusRecord (kind tag a b : Nat) (c : Code) : W64 :=
  BitVec.ofNat 64 (2 ^ 63 + kind * 2 ^ 61 + tag * 2 ^ 48 + a * 2 ^ 34 + b * 2 ^ 20 + c.toNat)

/-! ### Vector instructions -/

/-- The unit of st is awake, its queue is empty, its registers hold good parity and no switch has been scheduled; the
entry's form is legal. -/
def State.vectorReady (s : State) (st : StallId) (e : VecEntry) : Prop :=
  s.issues st 1 ∧ (s.dev.stall st).gate = .awake ∧ (s.dev.cur st).vq = [] ∧ (s.dev.stall st).vBad = [] ∧
    (s.dev.stall st).switchTo = none ∧ e.illegal = false

/-- The vector instruction changed of the device only the running slot of st and its vector registers, of those only vd; the
slot was c, and retired. Scalar registers keep their values. -/
def State.vectorFrame (st : StallId) (vd : VReg) (c : SlotCtx) (s t : State) : Prop :=
  s.sameButStall st t ∧
    t.dev.stall st = { (s.dev.stall st).setCtx (s.dev.slotOf st) (t.dev.cur st) with v := (t.dev.stall st).v } ∧
    c.retired 1 (t.dev.cur st) ∧ (∀ r, t.dev.sreg st r = s.dev.sreg st r) ∧ ∀ q, q ≠ vd → t.dev.vreg st q = s.dev.vreg st q

/-- The flags of the active elements of an entry. -/
def Device.elementFlags (d : Device) (st : StallId) (e : VecEntry) (f : Nat → Nat × FFlags) : FFlags :=
  Vec.allFlags ((below e.n (d.activeAt st e)).map fun i => (f i).2)

/-- The instruction of entry e wrote (f i).1 to each active element i of vd, of w bits, and gathered the flags of those
elements in VFLAGS.FPF; inactive elements and those from n on keep their values (R135, R136). -/
def State.wroteElements (st : StallId) (e : VecEntry) (w : Nat) (f : Nat → Nat × FFlags) (s t : State) : Prop :=
  s.vectorFrame st e.v.vd ((s.dev.cur st).addVectorFlags (s.dev.elementFlags st e f)) t ∧
    ∀ i, i < 4096 / w → Vec.elem (t.dev.vreg st e.v.vd) w i =
      if s.dev.activeAt st e i then (f i).1 % 2 ^ w else Vec.elem (s.dev.vreg st e.v.vd) w i

/-- The instruction of entry e wrote the mask that its k field names: bit i below n is (f i).1, the others keep their
values (R135); the flags of those elements are gathered, the instruction retires, and nothing else changes. -/
def State.wroteMask (st : StallId) (e : VecEntry) (f : Nat → Bool × FFlags) (s t : State) : Prop :=
  let c := (s.dev.cur st).addVectorFlags (Vec.allFlags ((List.range e.n).map fun i => (f i).2))
  s.sameButSlot st t ∧ (∀ r, t.dev.sreg st r = s.dev.sreg st r) ∧
    (∀ i, i < 512 → flag (t.dev.kreg st e.v.k) i = if i < e.n then (f i).1 else flag (s.dev.kreg st e.v.k) i) ∧
    (∀ q, q ≠ e.v.k → t.dev.kreg st q = s.dev.kreg st q) ∧
    ({ c with k := (t.dev.cur st).k } : SlotCtx).retired 1 (t.dev.cur st)

/-! ### Invariants -/

/-- No protected unit that the n bytes from a touch holds an error. -/
def Device.clean (d : Device) (a n : Nat) : Prop := ∀ u ∈ unitsOf a n, u ∉ d.bad ∧ u ∉ d.ce

/-- The counts of a mailbox whose sum is 64 at every cycle (R108). -/
def Mailbox.counts (m : Mailbox) : Nat := m.free + m.granted + m.inflight + m.msgs.length

end Sys2Proof.Machine
end

