-- ==== Sys2Proof/Certificates/Slice0/Obligations.lean ====
section
/-! DEFINITION. What is claimed of the block, rule by rule. A command completes where its hypotheses, which speak of the
state and the operands alone, hold; the frame says what it leaves unchanged. -/

open Sys2Proof Sys2Proof.Machine

/-! ### Scalar instructions -/

/-- The scalar integer instructions of one word write sd as R92 and the opcode table give and retire; division by zero
and −2⁶³ ÷ −1 follow R92. Shifts by a register are stated for counts below 64 (log 6 for the others). Model
choices: a signed quotient truncates and its remainder has the dividend's sign, and CLZ and CTZ of 0 are 64 (log 16). -/
def Obligations.ScalarIntRegister : Prop :=
  ∀ (st : StallId) (d a b : SReg) (s : State), s.issues st 1 →
    let x := s.dev.sreg st a
    let y := s.dev.sreg st b
    let writes := fun (i : Instr) (v : W64) => Completes i s (s.wroteScalar st 1 d v)
    writes (.add st d a b) (x + y) ∧ writes (.sub st d a b) (x - y) ∧ writes (.and st d a b) (x &&& y) ∧
    writes (.or st d a b) (x ||| y) ∧ writes (.xor st d a b) (x ^^^ y) ∧
    (y.toNat < 64 → writes (.sll st d a b) (x <<< y.toNat) ∧ writes (.srl st d a b) (x >>> y.toNat) ∧
      writes (.sra st d a b) (x.sshiftRight y.toNat)) ∧
    writes (.slt st d a b) (if x.toInt < y.toInt then 1 else 0) ∧
    writes (.sltu st d a b) (if x.toNat < y.toNat then 1 else 0) ∧
    writes (.mul st d a b) (x * y) ∧
    writes (.mulh st d a b) (BitVec.ofInt 64 (x.toInt * y.toInt / 2 ^ 64)) ∧
    writes (.mulhu st d a b) (BitVec.ofNat 64 (x.toNat * y.toNat / 2 ^ 64)) ∧
    writes (.div st d a b) (if y = 0 then BitVec.allOnes 64 else x.sdiv y) ∧
    writes (.divu st d a b) (if y = 0 then BitVec.allOnes 64 else x.udiv y) ∧
    writes (.rem st d a b) (if y = 0 then x else x.srem y) ∧
    writes (.remu st d a b) (if y = 0 then x else x.umod y) ∧
    writes (.min st d a b) (if x.toInt < y.toInt then x else y) ∧
    writes (.max st d a b) (if x.toInt < y.toInt then y else x) ∧
    writes (.minu st d a b) (if x.toNat < y.toNat then x else y) ∧
    writes (.maxu st d a b) (if x.toNat < y.toNat then y else x) ∧
    (∃ n : Nat, writes (.clz st d a b) (BitVec.ofNat 64 n) ∧
      if x = 0 then n = 64 else n < 64 ∧ 2 ^ (63 - n) ≤ x.toNat ∧ x.toNat < 2 ^ (64 - n)) ∧
    (∃ n : Nat, writes (.ctz st d a b) (BitVec.ofNat 64 n) ∧
      if x = 0 then n = 64 else x.getLsbD n = true ∧ ∀ i, i < n → x.getLsbD i = false) ∧
    writes (.popc st d a b) (BitVec.ofNat 64 ((List.range 64).countP fun i => x.getLsbD i))

/-- The scalar instructions with an immediate, in both lengths: ADDI and the address forms sign-extend it, ANDI, ORI, XORI
and LIH zero-extend it (R100, R101); SHI takes its kind from [15:14] and its count from [5:0]. -/
def Obligations.ScalarIntImmediate : Prop :=
  (∀ v : BitVec 16, (Imm.short v).sext = v.signExtend 64 ∧ (Imm.short v).zext = v.setWidth 64) ∧
  (∀ v : BitVec 32, (Imm.long v).sext = v.signExtend 64 ∧ (Imm.long v).zext = v.setWidth 64) ∧
  ∀ (st : StallId) (d a : SReg) (imm : Imm) (s : State), s.issues st imm.words →
    let x := s.dev.sreg st a
    let writes := fun (i : Instr) (v : W64) => Completes i s (s.wroteScalar st imm.words d v)
    writes (.addi st d a imm) (x + imm.sext) ∧ writes (.andi st d a imm) (x &&& imm.zext) ∧
    writes (.ori st d a imm) (x ||| imm.zext) ∧ writes (.xori st d a imm) (x ^^^ imm.zext) ∧
    writes (.lih st d a imm) ((x &&& 0xFFFF_FFFF) ||| (imm.zext <<< 32)) ∧
    ∀ n : Nat, n < 64 →
      (imm.zext.toNat = n → writes (.shi st d a imm) (x <<< n)) ∧
      (imm.zext.toNat = 0x4000 + n → writes (.shi st d a imm) (x >>> n)) ∧
      (imm.zext.toNat = 0x8000 + n → writes (.shi st d a imm) (x.sshiftRight n))

/-- R94 whole: s0 reads 0 and a write to it has no effect; JAL writes its return address to s31; every other register
reads what was last written to it. -/
def Obligations.ScalarRegisterFile : Prop :=
  (∀ (s : State) (st : StallId), s.dev.sreg st 0 = 0) ∧
  (∀ (c : SlotCtx) (v : W64), c.setS 0 v = c) ∧
  (∀ (c : SlotCtx) (r q : SReg) (v : W64), r ≠ 0 → (c.setS r v).getS q = if q = r then v else c.getS q) ∧
  ∀ (st : StallId) (off : BitVec 26) (s : State), s.issues st 1 →
    Completes (.jal st off) s fun t =>
      s.sameButSlot st t ∧ ∀ r, t.dev.sreg st r = if r = 31 then ((s.dev.cur st).pc + 4).setWidth 64 else s.dev.sreg st r

/-- A scalar floating-point result: sd takes it, FP_CTL gathers its flags, which are never cleared, and nothing else of
the slot changes. Model choice: the signs of the product and the addend in FMSUB, FNMADD and FNMSUB (log 15). -/
def Obligations.ScalarFloat : Prop :=
  ∀ (st : StallId) (d a b c : SReg) (s : State), s.issues st 1 →
    let x := s.dev.sreg st a
    let y := s.dev.sreg st b
    let z := s.dev.sreg st c
    let slot := s.dev.cur st
    let result := fun (i : Instr) (r : W64 × FFlags) =>
      (flag r.2 0 && slot.invTrap) = false →
        Completes i s (s.wrote st 1 (slot.setCr 0x0C (slot.getCr 0x0C ||| r.2.setWidth 64)) d r.1)
    result (.faddD st d a b) (fpAdd .fp64 x y) ∧ result (.fsubD st d a b) (fpSub .fp64 x y) ∧
    result (.fmulD st d a b) (fpMul .fp64 x y) ∧ result (.fdivD st d a b) (fpDiv .fp64 x y) ∧
    result (.fsqrtD st d a b) (fpSqrt .fp64 x) ∧ result (.fminD st d a b) (fpMinMax .fp64 0 x y) ∧
    result (.fmaxD st d a b) (fpMinMax .fp64 1 x y) ∧ result (.feqD st d a b) (fpCompare .fp64 0 x y) ∧
    result (.fltD st d a b) (fpCompare .fp64 1 x y) ∧ result (.fleD st d a b) (fpCompare .fp64 2 x y) ∧
    result (.fclassD st d a b) (Config.fclass true x, .none) ∧
    result (.faddS st d a b) (fpAdd .fp32 x y) ∧ result (.fsubS st d a b) (fpSub .fp32 x y) ∧
    result (.fmulS st d a b) (fpMul .fp32 x y) ∧ result (.fdivS st d a b) (fpDiv .fp32 x y) ∧
    result (.fsqrtS st d a b) (fpSqrt .fp32 x) ∧ result (.fminS st d a b) (fpMinMax .fp32 0 x y) ∧
    result (.fmaxS st d a b) (fpMinMax .fp32 1 x y) ∧ result (.feqS st d a b) (fpCompare .fp32 0 x y) ∧
    result (.fltS st d a b) (fpCompare .fp32 1 x y) ∧ result (.fleS st d a b) (fpCompare .fp32 2 x y) ∧
    result (.fclassS st d a b) (Config.fclass false x, .none) ∧
    result (.fcvtDS st d a b) (fpConvert .fp32 .fp64 x) ∧ result (.fcvtSD st d a b) (fpConvert .fp64 .fp32 x) ∧
    result (.fcvtDL st d a b) (fpFromInt .fp64 x) ∧ result (.fcvtLD st d a b) (fpToInt .fp64 x) ∧
    result (.fcvtSL st d a b) (fpFromInt .fp32 x) ∧ result (.fcvtLS st d a b) (fpToInt .fp32 x) ∧
    result (.fmaddD st d a b c) (fpFma .fp64 false false x y z) ∧
    result (.fmsubD st d a b c) (fpFma .fp64 false true x y z) ∧
    result (.fnmaddD st d a b c) (fpFma .fp64 true true x y z) ∧
    result (.fnmsubD st d a b c) (fpFma .fp64 true false x y z) ∧
    result (.fmaddS st d a b c) (fpFma .fp32 false false x y z) ∧
    result (.fmsubS st d a b c) (fpFma .fp32 false true x y z) ∧
    result (.fnmaddS st d a b c) (fpFma .fp32 true true x y z) ∧
    result (.fnmsubS st d a b c) (fpFma .fp32 true false x y z)

/-- Values of the scalar floating-point group that R92 and R102 fix: the result of a NaN operand in an addition or a
multiplication, and of two in FMIN and FMAX, is the canonical quiet NaN; every FP32 result clears [63:32]; a NaN and an
infinity converted to an integer saturate and raise invalid. Under INV_TRAP an operation that raises
the invalid flag takes FP_INVALID, does not write its result (R93; of FSQRT.D, FDIV.S and FCVT.L.D). Model choice: FP_CTL keeps the
flag of the operation that traps (log 13). -/
def Obligations.ScalarFloatValues : Prop :=
  ((∀ x y : W64, (fpOperand .fp64 x).isNan = true →
    (fpAdd .fp64 x y).1 = 0x7FF8_0000_0000_0000 ∧ (fpAdd .fp64 y x).1 = 0x7FF8_0000_0000_0000 ∧
    (fpMul .fp64 x y).1 = 0x7FF8_0000_0000_0000 ∧ (fpMul .fp64 y x).1 = 0x7FF8_0000_0000_0000) ∧
  (∀ x y : W64, (fpOperand .fp32 x).isNan = true →
    (fpAdd .fp32 x y).1 = 0x7FC0_0000 ∧ (fpAdd .fp32 y x).1 = 0x7FC0_0000 ∧
    (fpMul .fp32 x y).1 = 0x7FC0_0000 ∧ (fpMul .fp32 y x).1 = 0x7FC0_0000) ∧
  (∀ (op : Nat) (x y : W64),
    ((fpOperand .fp64 x).isNan = true → (fpOperand .fp64 y).isNan = true →
      (fpMinMax .fp64 op x y).1 = 0x7FF8_0000_0000_0000) ∧
    ((fpOperand .fp32 x).isNan = true → (fpOperand .fp32 y).isNan = true → (fpMinMax .fp32 op x y).1 = 0x7FC0_0000)) ∧
  (∀ (op : Nat) (p q : Bool) (x y z : W64), (fpAdd .fp32 x y).1.toNat < 2 ^ 32 ∧ (fpSub .fp32 x y).1.toNat < 2 ^ 32 ∧
    (fpMul .fp32 x y).1.toNat < 2 ^ 32 ∧ (fpDiv .fp32 x y).1.toNat < 2 ^ 32 ∧ (fpSqrt .fp32 x).1.toNat < 2 ^ 32 ∧
    (fpMinMax .fp32 op x y).1.toNat < 2 ^ 32 ∧ (fpFma .fp32 p q x y z).1.toNat < 2 ^ 32 ∧
    (fpConvert .fp64 .fp32 x).1.toNat < 2 ^ 32 ∧ (fpFromInt .fp32 x).1.toNat < 2 ^ 32) ∧
  (∀ x : W64, (fpOperand .fp64 x).isNan = true → fpToInt .fp64 x = (0x7FFF_FFFF_FFFF_FFFF, .invalid)) ∧
  (∀ x : W64, (fpOperand .fp32 x).isNan = true → fpToInt .fp32 x = (0x7FFF_FFFF_FFFF_FFFF, .invalid)) ∧
  fpToInt .fp64 0x7FF0_0000_0000_0000 = (0x7FFF_FFFF_FFFF_FFFF, .invalid) ∧
  fpToInt .fp64 0xFFF0_0000_0000_0000 = (0x8000_0000_0000_0000, .invalid)) ∧
  ∀ (st : StallId) (d a b : SReg) (s : State), s.issues st 1 →
    let slot := s.dev.cur st
    let x := s.dev.sreg st a
    let y := s.dev.sreg st b
    let traps := fun (i : Instr) (r : W64 × FFlags) =>
      slot.invTrap = true → flag r.2 0 = true → flag (slot.getCr 0x01) 0 = false →
        Completes i s fun t =>
          (slot.setCr 0x0C (slot.getCr 0x0C ||| r.2.setWidth 64)).entered 7 Status.fpInvalid 0 (t.dev.cur st) ∧
            (∀ q, t.dev.sreg st q = s.dev.sreg st q) ∧ s.sameMemory t
    traps (.fsqrtD st d a b) (fpSqrt .fp64 x) ∧ traps (.fdivS st d a b) (fpDiv .fp32 x y) ∧
    traps (.fcvtLD st d a b) (fpToInt .fp64 x)

/-! ### Control flow -/

/-- The six branches: taken, the pc moves to the instruction's address plus 4 × offset; else the instruction retires. JAL and
JALR: the return address goes to s31 or sd, the pc to the target, whose bits [1:0] JALR clears (R92, R94, R99, R101). -/
def Obligations.BranchesAndJumps : Prop :=
  (∀ (st : StallId) (a b : SReg) (off : BitVec 16) (s : State), s.issues st 1 →
    let x := s.dev.sreg st a
    let y := s.dev.sreg st b
    let slot := s.dev.cur st
    let takes := fun (i : Instr) (p : Prop) =>
      (p → Completes i s fun t => s.sameButSlot st t ∧ slot.jumped (slot.pc + 4 * off) (t.dev.cur st)) ∧
      (¬ p → Completes i s (s.onlyRetired st 1))
    takes (.beq st a b off) (x = y) ∧ takes (.bne st a b off) (x ≠ y) ∧
    takes (.blt st a b off) (x.toInt < y.toInt) ∧ takes (.bge st a b off) (y.toInt ≤ x.toInt) ∧
    takes (.bltu st a b off) (x.toNat < y.toNat) ∧ takes (.bgeu st a b off) (y.toNat ≤ x.toNat)) ∧
  (∀ (st : StallId) (off : BitVec 26) (s : State), s.issues st 1 →
    let slot := s.dev.cur st
    Completes (.jal st off) s fun t =>
      s.sameButSlot st t ∧
        (slot.setS 31 ((slot.pc + 4).setWidth 64)).jumped (slot.pc + 4 * off.setWidth 16) (t.dev.cur st)) ∧
  ∀ (st : StallId) (d a : SReg) (imm : Imm) (s : State), s.issues st imm.words →
    let slot := s.dev.cur st
    Completes (.jalr st d a imm) s fun t =>
      s.sameButSlot st t ∧
        (slot.setS d ((slot.pc + BitVec.ofNat 16 (4 * imm.words)).setWidth 64)).jumped
          ((s.dev.sreg st a + imm.sext).setWidth 16 &&& 0xFFFC) (t.dev.cur st)

/-- LOOP (R103): with a free LOOP register and a count from 1 to 2³² − 1 it holds the count and the body's first and last
address, and the body begins; a count of 0 goes on behind the body; a third loop, or a body that would hold no
instruction, is illegal. At the last instruction of a body, with the inner loop inactive, the outer count falls by one, and
the body begins again while turns are left. -/
def Obligations.HardwareLoops : Prop :=
  (∀ (st : StallId) (d a : SReg) (imm : Imm) (s : State), s.issues st imm.words →
    let slot := s.dev.cur st
    let n := (s.dev.sreg st a).toNat
    let outer := loopCount (slot.getCr 0x3C) ≠ 0
    let inner := loopCount (slot.getCr 0x3D) ≠ 0
    let first := slot.pc + BitVec.ofNat 16 (4 * imm.words)
    let last := slot.pc + 4 * imm.sext.setWidth 16
    ((imm.words : Int) ≤ imm.sext.toInt → ¬ (outer ∧ inner) → n ≠ 0 → n < 2 ^ 32 →
      Completes (.loop st d a imm) s fun t =>
        s.sameButSlot st t ∧ (t.dev.cur st).pc = first ∧ (∀ r, t.dev.sreg st r = s.dev.sreg st r) ∧
          (∀ m, m ≠ 0x3C → m ≠ 0x3D → (t.dev.cur st).getCr m = slot.getCr m) ∧
          (¬ outer → loopCount ((t.dev.cur st).getCr 0x3C) = n ∧ loopFirst ((t.dev.cur st).getCr 0x3C) = first ∧
            loopLast ((t.dev.cur st).getCr 0x3C) = last ∧ (t.dev.cur st).getCr 0x3D = slot.getCr 0x3D) ∧
          (outer → loopCount ((t.dev.cur st).getCr 0x3D) = n ∧ loopFirst ((t.dev.cur st).getCr 0x3D) = first ∧
            loopLast ((t.dev.cur st).getCr 0x3D) = last ∧ (t.dev.cur st).getCr 0x3C = slot.getCr 0x3C)) ∧
    ((imm.words : Int) ≤ imm.sext.toInt → n = 0 → ¬ (outer ∧ inner) → (outer → loopLast (slot.getCr 0x3C) ≠ last) →
      Completes (.loop st d a imm) s fun t =>
        s.sameButSlot st t ∧ (t.dev.cur st).pc = last + BitVec.ofNat 16 (4 * s.dev.wordsAt st last) ∧
          (t.dev.cur st).cr = slot.cr ∧ (t.dev.cur st).s = slot.s) ∧
    (imm.sext.toInt < imm.words ∨ (outer ∧ inner) → flag (slot.getCr 0x01) 0 = false →
      Completes (.loop st d a imm) s (s.took st 1 0 ((Coeri.firstWord (.loop st d a imm)).setWidth 64)))) ∧
  ∀ (c : SlotCtx) (n : Nat), loopCount (c.getCr 0x3D) = 0 → loopCount (c.getCr 0x3C) ≠ 0 →
    loopLast (c.getCr 0x3C) = c.pc →
    let e := c.advance n
    loopCount (e.getCr 0x3C) + 1 = loopCount (c.getCr 0x3C) ∧ loopFirst (e.getCr 0x3C) = loopFirst (c.getCr 0x3C) ∧
    loopLast (e.getCr 0x3C) = loopLast (c.getCr 0x3C) ∧
    e.pc = (if loopCount (c.getCr 0x3C) = 1 then c.pc + BitVec.ofNat 16 (4 * n) else loopFirst (c.getCr 0x3C))

/-! ### The loft -/

/-- The seven scalar loads read k bytes, little-endian, at the partition's base plus the effective address, and widen them
(R104, R105); the unit read is free of errors. -/
def Obligations.ScalarLoads : Prop :=
  ∀ (st : StallId) (d a : SReg) (imm : Imm) (s : State), s.issues st imm.words →
    let ea := s.dev.sreg st a + imm.sext
    let p := loftDpa st (s.dev.partBase st (s.dev.slotOf st) + ea.toNat)
    let b := fun i => (s.dev.rdByte (p + i)).toNat
    let n1 := b 0
    let n2 := b 0 + b 1 * 2 ^ 8
    let n4 := n2 + b 2 * 2 ^ 16 + b 3 * 2 ^ 24
    let n8 := n4 + b 4 * 2 ^ 32 + b 5 * 2 ^ 40 + b 6 * 2 ^ 48 + b 7 * 2 ^ 56
    let loads := fun (i : Instr) (k : Nat) (v : W64) => ea.toNat % k = 0 → Completes i s (s.wroteScalar st imm.words d v)
    ea.toNat < s.dev.loftLimit st (s.dev.slotOf st) → unitOf p ∉ s.dev.bad → unitOf p ∉ s.dev.ce →
    loads (.ldD st d a imm) 8 (BitVec.ofNat 64 n8) ∧ loads (.ldW st d a imm) 4 ((BitVec.ofNat 32 n4).signExtend 64) ∧
    loads (.ldWu st d a imm) 4 ((BitVec.ofNat 32 n4).setWidth 64) ∧
    loads (.ldH st d a imm) 2 ((BitVec.ofNat 16 n2).signExtend 64) ∧
    loads (.ldHu st d a imm) 2 ((BitVec.ofNat 16 n2).setWidth 64) ∧
    loads (.ldB st d a imm) 1 ((BitVec.ofNat 8 n1).signExtend 64) ∧
    loads (.ldBu st d a imm) 1 ((BitVec.ofNat 8 n1).setWidth 64)

/-- The four scalar stores write the low k bytes of sd there and no other byte of memory; no register changes. -/
def Obligations.ScalarStores : Prop :=
  ∀ (st : StallId) (d a : SReg) (imm : Imm) (s : State), s.issues st imm.words →
    let ea := s.dev.sreg st a + imm.sext
    let p := loftDpa st (s.dev.partBase st (s.dev.slotOf st) + ea.toNat)
    let stores := fun (i : Instr) (k : Nat) => ea.toNat % k = 0 →
      Completes i s fun t =>
        s.sameButStallMem st t ∧ (s.dev.cur st).retired imm.words (t.dev.cur st) ∧
          (∀ r, t.dev.sreg st r = s.dev.sreg st r) ∧
          (∀ j, j < k → t.dev.rdByte (p + j) = ((s.dev.sreg st d) >>> (8 * j)).setWidth 8) ∧
          ∀ q, q < p ∨ p + k ≤ q → t.dev.rdByte q = s.dev.rdByte q
    ea.toNat < s.dev.loftLimit st (s.dev.slotOf st) → unitOf p ∉ s.dev.bad → unitOf p ∉ s.dev.ce →
    s.dev.tally.armed = false →
    stores (.stD st d a imm) 8 ∧ stores (.stW st d a imm) 4 ∧ stores (.stH st d a imm) 2 ∧ stores (.stB st d a imm) 1

/-- The loft faults of a scalar access (R104): at or above LOFT_LIMIT it takes LOFT_ADDRESS, aligned or not; below it, not
aligned to its size, LOFT_MISALIGNED; in both, EXC_INFO is the effective address and nothing is read or written. -/
def Obligations.LoftFaults : Prop :=
  ∀ (st : StallId) (d a : SReg) (imm : Imm) (s : State), s.issues st imm.words →
    flag ((s.dev.cur st).getCr 0x01) 0 = false →
    let ea := s.dev.sreg st a + imm.sext
    let limit := s.dev.loftLimit st (s.dev.slotOf st)
    let faults := fun (i : Instr) (k : Nat) =>
      (limit ≤ ea.toNat → Completes i s (s.took st 3 Status.loftAddressFault ea)) ∧
      (ea.toNat < limit → ea.toNat % k ≠ 0 → Completes i s (s.took st 4 Status.loftMisaligned ea))
    faults (.ldD st d a imm) 8 ∧ faults (.ldW st d a imm) 4 ∧ faults (.ldWu st d a imm) 4 ∧ faults (.ldH st d a imm) 2 ∧
    faults (.ldHu st d a imm) 2 ∧ faults (.ldB st d a imm) 1 ∧ faults (.ldBu st d a imm) 1 ∧
    faults (.stD st d a imm) 8 ∧ faults (.stW st d a imm) 4 ∧ faults (.stH st d a imm) 2 ∧ faults (.stB st d a imm) 1

/-! ### The control space, frames and exceptions -/

/-- CRR and CRW (R95): a number that is reserved, or immediate bits above it, are illegal, as is CRW of a read-only
register; otherwise CRR writes the register's value to sd, and CRW writes the bits that are not reserved, to VL at most
512 (R137). SCH_CFG[n] keeps its value, and CRW raises MSG_FAULT, while the channel holds credits or where the written DEST is
above 383 (R109). MBX_MODE sets the modes of the writing slot's own mailboxes and no other's (R96), unless one whose mode
it changes has slots that are not FREE: then MSG_FAULT names one such mailbox and nothing changes (R117). -/
def Obligations.ControlSpace : Prop :=
  ∀ (st : StallId) (d a : SReg) (imm : Imm) (s : State), s.issues st imm.words →
    let slot := s.dev.cur st
    let n := imm.zext.toNat
    (n < 96 → crReserved n = false → (slot.vq = [] ∨ crWaits n = false) →
      Completes (.crr st d a imm) s (s.wroteScalar st imm.words d (s.dev.crRead st (s.dev.slotOf st) n))) ∧
    (n < 96 → crReserved n = false → crReadOnly n = false → n ≠ 0x39 → ¬ (0x20 ≤ n ∧ n ≤ 0x2F) → n ≠ 0x10 →
      (slot.vq = [] ∨ crWaits n = false) → Completes (.crw st d a imm) s
        (s.wrote st imm.words (slot.setCr n (s.dev.sreg st a &&& BitVec.ofNat 64 (crMask n))) 0 0)) ∧
    (0x20 ≤ n → n ≤ 0x2F →
      let v := s.dev.sreg st a
      (field (slot.getCr n) 16 7 = 0 → field v 0 9 ≤ 383 →
        Completes (.crw st d a imm) s (s.wrote st imm.words (slot.setCr n (v &&& 0x8000_0FFF)) 0 0)) ∧
      (field (slot.getCr n) 16 7 ≠ 0 ∨ 383 < field v 0 9 → flag (slot.getCr 0x01) 0 = false →
        Completes (.crw st d a imm) s (s.took st 10 0 (BitVec.ofNat 64 (n - 0x20))))) ∧
    (n = 0x39 →
      let v := s.dev.sreg st a
      let mine := fun m : Fin 8 => s.dev.mbxOwner st m = s.dev.slotOf st
      let stuck := fun m : Fin 8 => mine m ∧ (s.dev.mbx st m).notice ≠ flag v m ∧ (s.dev.mbx st m).free ≠ 64
      ((∀ m, ¬ stuck m) → Completes (.crw st d a imm) s fun t =>
        s.sameButStall st t ∧ slot.retired imm.words (t.dev.cur st) ∧ (∀ r, t.dev.sreg st r = s.dev.sreg st r) ∧
          t.dev.stall st =
            { (s.dev.stall st).setCtx (s.dev.slotOf st) (t.dev.cur st) with mbx := (t.dev.stall st).mbx } ∧
          ∀ m, (mine m → t.dev.mbx st m = { s.dev.mbx st m with notice := flag v m }) ∧
            (¬ mine m → t.dev.mbx st m = s.dev.mbx st m)) ∧
      ((∃ m, stuck m) → flag (slot.getCr 0x01) 0 = false →
        ∃ m, stuck m ∧ Completes (.crw st d a imm) s (s.took st 10 0 (BitVec.ofNat 64 m.val)))) ∧
    (n = 0x10 → slot.vq = [] → Completes (.crw st d a imm) s
      (s.wrote st imm.words (slot.setCr 0x10 (BitVec.ofNat 64 (min 512 ((s.dev.sreg st a).toNat % 2 ^ 10)))) 0 0)) ∧
    (flag (slot.getCr 0x01) 0 = false → (128 ≤ n ∨ crReserved n = true) →
      Completes (.crr st d a imm) s (s.took st 1 0 ((Coeri.firstWord (.crr st d a imm)).setWidth 64))) ∧
    (flag (slot.getCr 0x01) 0 = false → (128 ≤ n ∨ crReserved n = true ∨ crReadOnly n = true) →
      Completes (.crw st d a imm) s (s.took st 1 0 ((Coeri.firstWord (.crw st d a imm)).setWidth 64)))

/-- R82 whole: FWAIT of a frame that has begun retires at once; otherwise it holds the groom, and the retirement at the
boundary that begins its frame, once the boundary's earlier steps are over (R85), lets the slot go on. -/
def Obligations.FrameWait : Prop :=
  ∀ (st : StallId) (d a b : SReg) (s : State),
    (s.issues st 1 → (s.dev.sreg st a).toNat % 2 ^ 48 ≤ s.dev.now.toNat → Completes (.fwait st d a b) s (s.onlyRetired st 1)) ∧
    (s.issues st 1 → s.dev.now.toNat < (s.dev.sreg st a).toNat % 2 ^ 48 →
      Completes (.fwait st d a b) s fun t =>
        s.sameButSlot st t ∧ t.dev.ready st = false ∧
          t.dev.cur st = { s.dev.cur st with hold := some (.fwait ((s.dev.sreg st a).setWidth 48)) }) ∧
    ∀ f : Frame, (s.dev.stall st).active = true → (s.dev.cur st).hold = some (.fwait f) →
      (f.toNat ≤ s.dev.now.toNat → s.dev.inBoundary = false →
        Completes (.fwaitRetire st) s (s.wrote st 1 { s.dev.cur st with hold := none } 0 0)) ∧
      (s.dev.now.toNat < f.toNat → exec (.fwaitRetire st) s = .next s)

/-- FYIELD writes the frame number to YIELD_FRAME and marks the frame; FENCE retires once no MLOAD, MFEED or MDRAIN of the
slot is queued or running, and holds the groom before; ERET clears EXC_ACTIVE and VFLAGS.RESUME and goes on at EXC_PC; HALT
halts the slot with KIND 1; CYIELD makes a switch request and retires (R107, R119, R126, R129). -/
def Obligations.FrameAndContext : Prop :=
  ∀ (st : StallId) (d a b : SReg) (s : State), s.issues st 1 →
    let slot := s.dev.cur st
    Completes (.fyield st d a b) s
      (s.wrote st 1 { slot.setCr 0x05 (s.dev.now.setWidth 64) with yielded := true } 0 0) ∧
    (fenceOpen slot = true → Completes (.fence st d a b) s (s.onlyRetired st 1)) ∧
    (fenceOpen slot = false → exec (.fence st d a b) s = .next s) ∧
    (Completes (.eret st d a b) s fun t =>
      s.sameButSlot st t ∧ (t.dev.cur st).pc = (slot.getCr 0x06).setWidth 16 ∧
        (t.dev.cur st).getCr 0x01 = slot.getCr 0x01 &&& ~~~1 ∧ (t.dev.cur st).getCr 0x16 = slot.getCr 0x16 &&& ~~~2 ∧
        (t.dev.cur st).s = slot.s ∧ (t.dev.cur st).k = slot.k ∧
        ((t.dev.cur st).resumeAt = if flag (slot.getCr 0x16) 1 then some (field (slot.getCr 0x14) 0 9) else none) ∧
        ∀ m, m ≠ 0x01 → m ≠ 0x16 → (t.dev.cur st).getCr m = slot.getCr m) ∧
    (Completes (.halt st d a b) s fun t =>
      t.dev.cur st = { slot with running := false, hold := none, vq := [] } ∧
        (t.dev.stall st).haltReason = BitVec.ofNat 64 (s.dev.now.toNat * 2 ^ 16 + 0x100) ∧
        flag (t.dev.preg (Page.stall st) 0x028) 1 = true ∧ s.sameMemory t ∧
        ∀ u, u ≠ st → t.dev.stall u = s.dev.stall u) ∧
    (Completes (.cyield st d a b) s fun t =>
      (t.dev.stall st).switchReq = true ∧ flag (t.dev.preg (Page.stall st) 0x028) 2 = true ∧
        slot.retired 1 (t.dev.cur st) ∧ (∀ r, t.dev.sreg st r = s.dev.sreg st r) ∧ s.sameMemory t ∧
        ∀ u, u ≠ st → t.dev.stall u = s.dev.stall u)

/-- TRAP and an illegal instruction take their exceptions with their cause and EXC_INFO (R128 to R130); an instruction whose
words fail their parity has no effect but TACK_PARITY, with the failing word's address. Stated of ADD, LD.D and VADD. -/
def Obligations.Exceptions : Prop :=
  ((∀ (st : StallId) (d a : SReg) (imm : Imm) (s : State), s.issues st imm.words → flag ((s.dev.cur st).getCr 0x01) 0 = false →
    Completes (.trap st d a imm) s (s.took st 11 0 imm.sext)) ∧
  ∀ (st : StallId) (s : State), s.issues st 1 → flag ((s.dev.cur st).getCr 0x01) 0 = false →
    let w := s.dev.tackWord st (s.dev.cur st).pc
    (Coeri.decode st 0 w (s.dev.tackWord st ((s.dev.cur st).pc + 4))).isNone = true →
    Completes (.illegalInstruction st) s (s.took st 1 0 (w.setWidth 64))) ∧
  ∀ (st : StallId) (s : State) (w : Tack), s.dev.ready st = true → s.dev.tackFault st 1 = some w →
    flag ((s.dev.cur st).getCr 0x01) 0 = false →
    let parity := s.took st 2 Status.tackParity (w.setWidth 64)
    (∀ d a b, Completes (.add st d a b) s parity) ∧ (∀ d a i, Completes (.ldD st d a (.short i)) s parity) ∧
      ∀ v, Completes (.vadd st v) s parity

/-- R130: an exception that arises while EXC_ACTIVE is set halts the slot; HALT_REASON records KIND 2 and the second cause,
the STALL page raises HALT, and the first exception's EXC_PC, EXC_CAUSE and EXC_INFO stay. Stated of every cause, through
the operation that every instruction raises it by, and of TRAP. -/
def Obligations.DoubleException : Prop :=
  ∀ (st : StallId) (s : State), flag ((s.dev.cur st).getCr 0x01) 0 = true →
    let halted := fun (cause : Nat) (t : State) =>
      t.dev.cur st = { s.dev.cur st with running := false, hold := none, vq := [] } ∧
        (t.dev.stall st).haltReason = BitVec.ofNat 64 (s.dev.now.toNat * 2 ^ 16 + 0x200 + cause) ∧
        flag (t.dev.preg (Page.stall st) 0x028) 1 = true ∧
        (∀ n, (t.dev.cur st).getCr n = (s.dev.cur st).getCr n) ∧ s.sameMemory t
    (∀ (cause : Nat) (code : Code) (info : W64), halted cause (s.onDev fun d => d.raise st cause code info)) ∧
    ∀ (d a : SReg) (imm : Imm), s.issues st imm.words → Completes (.trap st d a imm) s (halted 11)

/-! ### Messages -/

/-- SEND with a credit reads 64 B, moves one credit from GRANTED to INFLIGHT, puts the message on its way and retires; without
one it holds, and issues when one has come; on a disabled channel it takes MSG_FAULT (R111). -/
def Obligations.SendMessage : Prop :=
  ∀ (st : StallId) (d a b : SReg) (s : State),
    let ea := (s.dev.sreg st a).toNat
    let n : BitVec 4 := (s.dev.sreg st b).setWidth 4
    let sl := s.dev.slotOf st
    let r := s.dev.chan st sl n
    let p := s.dev.loftAt st ea
    let msg : Message := ⟨s.dev.rdBytes p 64, false, 0, BitVec.ofNat 9 st, sl, n, false⟩
    let sent := fun t : State =>
      t.dev.msgs = s.dev.msgs ++ [⟨chanDest r, chanMbx r, msg⟩] ∧
      chanCred (t.dev.chan st sl n) + 1 = chanCred r ∧ chanEn (t.dev.chan st sl n) = true ∧
      (t.dev.mbx (chanDest r) (chanMbx r)).inflight = (s.dev.mbx (chanDest r) (chanMbx r)).inflight + 1 ∧
      (t.dev.mbx (chanDest r) (chanMbx r)).granted = (s.dev.mbx (chanDest r) (chanMbx r)).granted - 1 ∧
      (t.dev.mbx (chanDest r) (chanMbx r)).free = (s.dev.mbx (chanDest r) (chanMbx r)).free ∧
      (t.dev.mbx (chanDest r) (chanMbx r)).msgs = (s.dev.mbx (chanDest r) (chanMbx r)).msgs ∧
      (t.dev.cur st).hold = none ∧ (∀ q, t.dev.sreg st q = s.dev.sreg st q) ∧ s.sameMemory t
    (s.issues st 1 → ea % 64 = 0 → ea + 64 ≤ s.dev.loftLimit st sl → chanEn r = true →
      (chanCred r ≠ 0 → s.dev.clean p 64 → Completes (.send st d a b) s sent) ∧
      (chanCred r = 0 → Completes (.send st d a b) s fun t =>
        s.sameButSlot st t ∧ t.dev.cur st = { s.dev.cur st with hold := some (.send a b) })) ∧
    (s.issues st 1 → ea % 64 = 0 → ea + 64 ≤ s.dev.loftLimit st sl → chanEn r = false →
      flag ((s.dev.cur st).getCr 0x01) 0 = false → Completes (.send st d a b) s (s.took st 10 0 (n.setWidth 64))) ∧
    ((s.dev.stall st).active = true → (s.dev.cur st).hold = some (.send a b) → ea % 64 = 0 →
      ea + 64 ≤ s.dev.loftLimit st sl → chanEn r = true → chanCred r ≠ 0 → s.dev.clean p 64 →
      Completes (.heldSendIssue st) s sent)

/-- RECV and RECVA with an undamaged message waiting copy the oldest one to the loft, write its source word to sd and free its
slot: a message's credit starts back to the sender's channel, a notice's slot returns to FREE. With none waiting they hold,
and a held one takes the message once it has come (R112 to R114). -/
def Obligations.ReceiveMessage : Prop :=
  ∀ (st : StallId) (d a b : SReg) (s : State) (mb : Fin 8) (m : Message) (rest : List Message),
    let ea := (s.dev.sreg st a).toNat
    let sl := s.dev.slotOf st
    let p := s.dev.loftAt st ea
    let mask := (s.dev.sreg st b).setWidth 8
    let took := fun t : State =>
      (∀ j, j < 64 → t.dev.rdByte (p + j) = m.data.getD j 0) ∧ (∀ q, q < p ∨ p + 64 ≤ q → t.dev.rdByte q = s.dev.rdByte q) ∧
      (∀ q, t.dev.sreg st q = if q = d ∧ q ≠ 0 then
        BitVec.ofNat 64 (m.frame.toNat * 2 ^ 32 + (if m.notice then 2 ^ 16 else 0) + mb.val * 2 ^ 13 +
          (if m.notice then 0 else m.chan.toNat) * 2 ^ 9 + m.src.toNat) else s.dev.sreg st q) ∧
      (t.dev.mbx st mb).msgs = rest ∧ (t.dev.mbx st mb).inflight = (s.dev.mbx st mb).inflight ∧
      (m.notice = false → (t.dev.mbx st mb).granted = (s.dev.mbx st mb).granted + 1 ∧
        (t.dev.mbx st mb).free = (s.dev.mbx st mb).free ∧
        t.dev.credits = s.dev.credits ++ [⟨.ret, st, mb, Fin.ofNat 384 m.src.toNat, m.slot, m.chan, 1, false⟩]) ∧
      (m.notice = true → (t.dev.mbx st mb).free = (s.dev.mbx st mb).free + 1 ∧
        (t.dev.mbx st mb).granted = (s.dev.mbx st mb).granted ∧ t.dev.credits = s.dev.credits) ∧
      (t.dev.cur st).hold = none
    let holds := fun (k : BitVec 8) (t : State) =>
      s.sameButSlot st t ∧ t.dev.cur st = { s.dev.cur st with hold := some (.recv d a k) }
    let ok := ea % 64 = 0 ∧ ea + 64 ≤ s.dev.loftLimit st sl ∧ s.dev.clean p 64 ∧ s.dev.tally.armed = false ∧
      (s.dev.mbx st mb).msgs = m :: rest ∧ m.bad = false ∧ m.data.length = 64
    (s.issues st 1 → ok → field (s.dev.sreg st b) 0 3 = mb.val → s.dev.mbxOwner st mb = sl →
      Completes (.recv st d a b) s took) ∧
    (s.issues st 1 → ok → (∀ k : Fin 8, flag mask k = true → s.dev.mbxOwner st k = sl) → flag mask mb = true →
      (∀ k : Fin 8, k < mb → flag mask k = true → (s.dev.mbx st k).msgs = []) → Completes (.recva st d a b) s took) ∧
    ((s.dev.stall st).active = true → (s.dev.cur st).hold = some (.recv d a mask) → ok →
      (∀ k : Fin 8, flag mask k = true → s.dev.mbxOwner st k = sl) → flag mask mb = true →
      (∀ k : Fin 8, k < mb → flag mask k = true → (s.dev.mbx st k).msgs = []) → Completes (.recvWake st) s took) ∧
    (s.issues st 1 → ea % 64 = 0 → ea + 64 ≤ s.dev.loftLimit st sl →
      (∀ k : Fin 8, flag mask k = true → s.dev.mbxOwner st k = sl ∧ (s.dev.mbx st k).msgs = []) →
      Completes (.recva st d a b) s (holds mask)) ∧
    (s.issues st 1 → ea % 64 = 0 → ea + 64 ≤ s.dev.loftLimit st sl → field (s.dev.sreg st b) 0 3 = mb.val →
      s.dev.mbxOwner st mb = sl → (s.dev.mbx st mb).msgs = [] →
      Completes (.recv st d a b) s (holds (BitVec.ofNat 8 (2 ^ mb.val)))) ∧
    ((s.dev.stall st).active = true → (s.dev.cur st).hold = some (.recv d a mask) → ea % 64 = 0 →
      ea + 64 ≤ s.dev.loftLimit st sl →
      (∀ k : Fin 8, flag mask k = true → s.dev.mbxOwner st k = sl ∧ (s.dev.mbx st k).msgs = []) →
      Completes (.recvWake st) s (holds mask))

/-- MGRANT and CHCLOSE move credits between a mailbox and its senders' channels (R110, R116). A message arrives in its mailbox
with the frame of its arrival, and credits arrive at the channel that is enabled and bound to their mailbox; credits that no
channel takes return to FREE (R111, R113). -/
def Obligations.CreditsAndArrivals : Prop :=
  (∀ (st : StallId) (d a b : SReg) (s : State), s.issues st 1 →
    let x := s.dev.sreg st a
    let y := s.dev.sreg st b
    let m : Fin 8 := Fin.ofNat 8 (field x 0 3)
    let n := field x 8 7
    let sl := s.dev.slotOf st
    (0 < n → n ≤ 64 → field y 0 9 ≤ 383 → (s.dev.mbx st m).notice = false → s.dev.mbxOwner st m = sl →
      (n ≤ (s.dev.mbx st m).free → Completes (.mgrant st d a b) s fun t =>
        t.dev.mbx st m = { s.dev.mbx st m with free := (s.dev.mbx st m).free - n, granted := (s.dev.mbx st m).granted + n } ∧
        (∀ q, t.dev.sreg st q = if q = d ∧ q ≠ 0 then 0 else s.dev.sreg st q) ∧
        t.dev.credits = s.dev.credits ++ [⟨.grant, st, m, Fin.ofNat 384 (field y 0 9),
          if flag y 13 then .paddock else .primary, BitVec.ofNat 4 (field y 9 4), n, false⟩]) ∧
      ((s.dev.mbx st m).free < n → Completes (.mgrant st d a b) s (s.wroteScalar st 1 d 1))) ∧
    (n = 0 ∨ 64 < n ∨ 383 < field y 0 9 ∨ (s.dev.mbx st m).notice = true ∨ s.dev.mbxOwner st m ≠ sl →
      flag ((s.dev.cur st).getCr 0x01) 0 = false → Completes (.mgrant st d a b) s (s.took st 10 0 (BitVec.ofNat 64 m))) ∧
    (let c : BitVec 4 := x.setWidth 4
     let r := s.dev.chan st sl c
     Completes (.chclose st d a b) s fun t =>
      chanEn (t.dev.chan st sl c) = false ∧ chanCred (t.dev.chan st sl c) = 0 ∧
      (chanCred r ≠ 0 →
        t.dev.credits = s.dev.credits ++ [⟨.close, chanDest r, chanMbx r, st, sl, c, chanCred r, false⟩]) ∧
      (chanCred r = 0 → t.dev.credits = s.dev.credits) ∧ ∀ q, t.dev.sreg st q = s.dev.sreg st q)) ∧
  (∀ (st : StallId) (mb : Fin 8) (src : StallId) (s : State) (t0 : Transit),
    s.dev.msgs.find? (fun t => t.dst = st && t.mbx = mb && t.msg.src = BitVec.ofNat 9 src) = some t0 →
    Completes (.messageArrival st mb src) s fun t =>
      (t.dev.mbx st mb).msgs = (s.dev.mbx st mb).msgs ++ [{ t0.msg with frame := s.dev.now.setWidth 32 }] ∧
      (t.dev.mbx st mb).inflight = (s.dev.mbx st mb).inflight - 1 ∧ t.dev.msgs.length + 1 = s.dev.msgs.length ∧ s.sameMemory t) ∧
  ∀ (i : Nat) (c : CreditTransit) (s : State), s.dev.credits[i]? = some c →
    let r := s.dev.chan c.stall c.slot c.chan
    let taken := chanEn r = true ∧ chanDest r = c.owner ∧ chanMbx r = c.mbx
    let joins := fun t : State => t.dev.credits = s.dev.credits.eraseIdx i ∧
      chanCred (t.dev.chan c.stall c.slot c.chan) = (chanCred r + c.count) % 128 ∧
      t.dev.mbx c.owner c.mbx = s.dev.mbx c.owner c.mbx
    let returns := fun t : State => t.dev.credits = s.dev.credits.eraseIdx i ∧
      t.dev.mbx c.owner c.mbx = { s.dev.mbx c.owner c.mbx with
        granted := (s.dev.mbx c.owner c.mbx).granted - c.count, free := (s.dev.mbx c.owner c.mbx).free + c.count }
    (c.kind = .grant → taken → Completes (.grantArrival i) s joins) ∧
    (c.kind = .ret → taken → Completes (.creditReturnArrival i) s joins) ∧
    (c.kind = .grant → ¬ taken → c.reclaimed = false → Completes (.grantArrival i) s returns) ∧
    (c.kind = .ret → ¬ taken → c.reclaimed = false → Completes (.creditReturnArrival i) s returns) ∧
    (c.kind = .close → c.reclaimed = false → Completes (.creditReturnArrival i) s returns)

/-- The four counts of every mailbox keep their sum (R108) under MGRANT, RECV and RECVA, at issue and when a held one wakes,
CHCLOSE, SLOT_RECLAIM, and the arrival of messages and credits, and under SEND, at issue and when a held one issues, where its
mailbox counts at least the credit spent. -/
def Obligations.MailboxCountsKept : Prop :=
  ∀ (s t : State) (u : StallId) (k : Fin 8),
    let keeps := (t.dev.mbx u k).counts = (s.dev.mbx u k).counts
    let covered := fun (st : StallId) (b : SReg) =>
      let r := s.dev.chan st (s.dev.slotOf st) ((s.dev.sreg st b).setWidth 4)
      1 ≤ (s.dev.mbx (chanDest r) (chanMbx r)).granted
    (∀ st d a b, covered st b → exec (.send st d a b) s = .next t → keeps) ∧
    (∀ st, (∀ a b, (s.dev.cur st).hold = some (.send a b) → covered st b) →
      exec (.heldSendIssue st) s = .next t → keeps) ∧
    (∀ st, exec (.recvWake st) s = .next t → keeps) ∧ (∀ who v, exec (.slotReclaim who v) s = .next t → keeps) ∧
    (∀ st d a b, exec (.mgrant st d a b) s = .next t → keeps) ∧ (∀ st d a b, exec (.recv st d a b) s = .next t → keeps) ∧
    (∀ st d a b, exec (.recva st d a b) s = .next t → keeps) ∧ (∀ st d a b, exec (.chclose st d a b) s = .next t → keeps) ∧
    (∀ st mb src, 1 ≤ (s.dev.mbx st mb).inflight → exec (.messageArrival st mb src) s = .next t → keeps) ∧
    ∀ i, (∀ c, s.dev.credits[i]? = some c → c.count ≤ (s.dev.mbx c.owner c.mbx).granted) →
      (exec (.grantArrival i) s = .next t → keeps) ∧ (exec (.creditReturnArrival i) s = .next t → keeps)

/-! ### Vector instructions -/

/-- The fifteen integer operations of group 0x20 below the compares (R149, R151), as arithmetic on w-bit words: results
wrap, shifts count modulo w, VMULH and VMULHU give the high half. -/
def Obligations.VectorInteger : Prop :=
  ∀ (st : StallId) (v : VFormat) (s : State),
    let e := fun op : Nat => s.dev.capture st (.int op) v
    let w := Vec.width v.t.toNat
    let a := fun i : Nat => BitVec.ofNat w (Vec.elem (s.dev.vreg st v.va) w i)
    let b := fun i : Nat => BitVec.ofNat w (Vec.elem (s.dev.vreg st v.vb) w i)
    let writes := fun (c : Instr) (op : Nat) (f : BitVec w → BitVec w → BitVec w) =>
      s.vectorReady st (e op) → Completes c s (s.wroteElements st (e op) w fun i => ((f (a i) (b i)).toNat, .none))
    writes (.vadd st v) 0 (· + ·) ∧ writes (.vsub st v) 1 (· - ·) ∧ writes (.vmul st v) 2 (· * ·) ∧
    writes (.vmulh st v) 3 (fun x y => BitVec.ofInt w (x.toInt * y.toInt / 2 ^ w)) ∧
    writes (.vmulhu st v) 4 (fun x y => BitVec.ofNat w (x.toNat * y.toNat / 2 ^ w)) ∧
    writes (.vmin st v) 5 (fun x y => if x.toInt < y.toInt then x else y) ∧
    writes (.vmax st v) 6 (fun x y => if x.toInt < y.toInt then y else x) ∧
    writes (.vminu st v) 7 (fun x y => if x.toNat ≤ y.toNat then x else y) ∧
    writes (.vmaxu st v) 8 (fun x y => if x.toNat ≤ y.toNat then y else x) ∧
    writes (.vand st v) 9 (· &&& ·) ∧ writes (.vor st v) 10 (· ||| ·) ∧ writes (.vxor st v) 11 (· ^^^ ·) ∧
    writes (.vsll st v) 12 (fun x y => x <<< (y.toNat % w)) ∧ writes (.vsrl st v) 13 (fun x y => x >>> (y.toNat % w)) ∧
    writes (.vsra st v) 14 (fun x y => x.sshiftRight (y.toNat % w))

/-- The eleven floating-point operations of group 0x21 below the compares: each active element is the rounded result of its
operands' values under the subnormal mode, and VFLAGS.FPF gathers the flags (R152 to R154). -/
def Obligations.VectorFloat : Prop :=
  ∀ (st : StallId) (v : VFormat) (s : State),
    let e := fun op : Nat => s.dev.capture st (.fp op) v
    let t := v.t.toNat
    let w := Vec.width t
    let m := (s.dev.cur st).modeF
    let x := fun i : Nat => Vec.elem (s.dev.vreg st v.va) w i
    let y := fun i : Nat => Vec.elem (s.dev.vreg st v.vb) w i
    let z := fun i : Nat => Vec.elem (s.dev.vreg st v.vd) w i
    let val := Vec.value t m
    let writes := fun (c : Instr) (op : Nat) (f : Nat → Nat × FFlags) =>
      s.vectorReady st (e op) → Completes c s (s.wroteElements st (e op) w f)
    let rounds := fun (c : Instr) (op : Nat) (f : Nat → FVal × FFlags) => writes c op fun i => Vec.result t m (f i)
    rounds (.vfadd st v) 0 (fun i => FFmt.addVal (val (x i)) (val (y i))) ∧
    rounds (.vfsub st v) 1 (fun i => FFmt.addVal (val (x i)) (FFmt.negate (val (y i)))) ∧
    rounds (.vfmul st v) 2 (fun i => FFmt.mulVal (val (x i)) (val (y i))) ∧
    rounds (.vfma st v) 3 (fun i => FFmt.fmaVal (val (x i)) (val (y i)) (val (z i))) ∧
    rounds (.vfnma st v) 4 (fun i => FFmt.fmaVal (FFmt.negate (val (x i))) (val (y i)) (val (z i))) ∧
    rounds (.vfdiv st v) 5 (fun i => (Vec.fmt t).divVal (val (x i)) (val (y i))) ∧
    rounds (.vfsqrt st v) 6 (fun i => (Vec.fmt t).sqrtVal (val (x i))) ∧
    writes (.vfmin st v) 7 (fun i => (Vec.floatMinMax t m true (x i) (y i), .none)) ∧
    writes (.vfmax st v) 8 (fun i => (Vec.floatMinMax t m false (x i) (y i), .none)) ∧
    writes (.vfabs st v) 9 (fun i => Vec.floatOp 9 t m (x i) (y i) (z i)) ∧
    writes (.vfneg st v) 10 (fun i => Vec.floatOp 10 t m (x i) (y i) (z i))

/-- The compares of both groups write bit i of the mask that k names for i below n, and one into k0 is illegal (R147, R149);
the mask operations combine two masks there, and k0 discards their result (R135, R148). Model choices: KANDN complements its second source, and a
mask's bits at and above n stay (log 19). -/
def Obligations.VectorMasks : Prop :=
  ∀ (st : StallId) (v : VFormat) (s : State),
    let t := v.t.toNat
    let w := Vec.width t
    let m := (s.dev.cur st).modeF
    let x := fun i : Nat => Vec.elem (s.dev.vreg st v.va) w i
    let y := fun i : Nat => Vec.elem (s.dev.vreg st v.vb) w i
    let a := fun i : Nat => BitVec.ofNat w (x i)
    let b := fun i : Nat => BitVec.ofNat w (y i)
    let sets := fun (c : Instr) (e : VecEntry) (f : Nat → Bool × FFlags) =>
      s.vectorReady st e → Completes c s (s.wroteMask st e f)
    let compares := fun (c : Instr) (e : VecEntry) (f : Nat → Bool × FFlags) =>
      (v.k ≠ 0 → sets c e f) ∧ (v.k = 0 → s.issues st 1 → flag ((s.dev.cur st).getCr 0x01) 0 = false →
        Completes c s (s.took st 1 0 ((Coeri.firstWord c).setWidth 64)))
    let int := fun op : Nat => s.dev.capture st (.int op) v
    let fp := fun op : Nat => s.dev.capture st (.fp op) v
    compares (.vcmpeq st v) (int 15) (fun i => (decide (a i = b i), .none)) ∧
    compares (.vcmpne st v) (int 16) (fun i => (decide (a i ≠ b i), .none)) ∧
    compares (.vcmplt st v) (int 17) (fun i => (decide ((a i).toInt < (b i).toInt), .none)) ∧
    compares (.vcmpltu st v) (int 18) (fun i => (decide ((a i).toNat < (b i).toNat), .none)) ∧
    compares (.vcmple st v) (int 19) (fun i => (decide ((a i).toInt ≤ (b i).toInt), .none)) ∧
    compares (.vcmpleu st v) (int 20) (fun i => (decide ((a i).toNat ≤ (b i).toNat), .none)) ∧
    compares (.vfcmpeq st v) (fp 11) (fun i => Vec.floatCmp 11 t m (x i) (y i)) ∧
    compares (.vfcmplt st v) (fp 12) (fun i => Vec.floatCmp 12 t m (x i) (y i)) ∧
    compares (.vfcmple st v) (fp 13) (fun i => Vec.floatCmp 13 t m (x i) (y i)) ∧
    compares (.vfcmpun st v) (fp 14) (fun i => ((Vec.value t m (x i)).isNan || (Vec.value t m (y i)).isNan, .none)) ∧
    ∀ (kd p q : KReg),
      let e := fun op : Nat => s.dev.capture st (.mask op p q) { k := kd, t := 0, vd := 0, va := 0, vb := 0 }
      let bp := fun i : Nat => flag (s.dev.kreg st p) i
      let bq := fun i : Nat => flag (s.dev.kreg st q) i
      let combines := fun (c : Instr) (op : Nat) (f : Nat → Bool) =>
        (kd ≠ 0 → sets c (e op) fun i => (f i, .none)) ∧
          (kd = 0 → s.vectorReady st (e op) → Completes c s (s.onlyRetired st 1))
      combines (.kand st kd p q 0 0 0) 0 (fun i => bp i && bq i) ∧
      combines (.kor st kd p q 0 0 0) 1 (fun i => bp i || bq i) ∧
      combines (.kxor st kd p q 0 0 0) 2 (fun i => bp i != bq i) ∧
      combines (.kandn st kd p q 0 0 0) 3 (fun i => bp i && !bq i)

/-- The conversions and permutes of group 0x22 and VBCAST (R150, R155, R159): VCVT between any two types, from and to E4M3 and
E5M2, the element number, slides by VSCALAR with zeros coming in, and VPERM, whose index out of range reads 0. The element
number of VID and the index of VPERM under a floating type are free (log 22). Model choices: a slide's amount and VPERM's
integer index are unsigned (log 22), a conversion's integers signed (log 21). -/
def Obligations.VectorConvertPermute : Prop :=
  ∀ (st : StallId) (src : BitVec 3) (v : VFormat) (s : State),
    let e := fun op : Nat => s.dev.capture st (.cvt op) v
    let t := v.t.toNat
    let w := Vec.width t
    let m := (s.dev.cur st).modeF
    let n := Vec.count t
    let a := fun u i : Nat => Vec.elem (s.dev.vreg st v.va) u i
    let scalar := ((s.dev.cur st).getCr 0x13).toNat
    let writes := fun (c : Instr) (x : VecEntry) (u : Nat) (f : Nat → Nat × FFlags) =>
      s.vectorReady st x → Completes c s (s.wroteElements st x u f)
    writes (.vcvt st src v) (e src.toNat) w (fun i => Vec.convert src.toNat t m (a (Vec.width src.toNat) i)) ∧
    writes (.vcvtFromE4m3 st v) (e 8) w (fun i => Vec.toType t m (FFmt.e4m3.decodeF m (a 8 i))) ∧
    writes (.vcvtFromE5m2 st v) (e 9) w (fun i => Vec.toType t m (FFmt.e5m2.decodeF m (a 8 i))) ∧
    writes (.vcvtToE4m3 st v) (e 10) 8 (fun i => FFmt.e4m3.roundSat m (Vec.anyValue t m (a w i))) ∧
    writes (.vcvtToE5m2 st v) (e 11) 8 (fun i => FFmt.e5m2.roundSat m (Vec.anyValue t m (a w i))) ∧
    writes (.vid st v) (e 12) w (fun i => (if Vec.isFloat t then Config.vectorId t i else i, .none)) ∧
    writes (.vslidedn st v) (e 13) w (fun i => (if i + scalar < n then a w (i + scalar) else 0, .none)) ∧
    writes (.vslideup st v) (e 14) w (fun i => (if scalar ≤ i ∧ i - scalar < n then a w (i - scalar) else 0, .none)) ∧
    writes (.vperm st v) (e 15) w (fun i =>
      let x := Vec.elem (s.dev.vreg st v.vb) w i
      let j := if Vec.isFloat t then Config.floatIndex t x else x
      (if j < n then a w j else 0, .none)) ∧
    writes (.vbcast st v) (s.dev.capture st (.move 2) v) w (fun _ => (scalar % 2 ^ w, .none))

/-- Reductions, compress, expand and the moves between vectors and VSCALAR: what vd or VSCALAR takes (R150, R156 to R158), an
element read and rounded as R190 and R191 say; with n = 0 nothing changes (R136). Model choices: VMVSX and VINS do nothing
where element 0 is inactive (log 20), minima and maxima are signed (log 21), and a run ends at an inactive element (log 22). -/
def Obligations.VectorReduce : Prop :=
  ∀ (st : StallId) (v : VFormat) (s : State),
    let t := v.t.toNat
    let w := Vec.width t
    let m := (s.dev.cur st).modeF
    let a := fun i : Nat => Vec.elem (s.dev.vreg st v.va) w i
    let b := fun i : Nat => Vec.elem (s.dev.vreg st v.vb) w i
    let old := fun i : Nat => Vec.elem (s.dev.vreg st v.vd) w i
    let leaf := fun i : Nat => Vec.leaf t m (a i)
    let leaves := fun x : VecEntry => (List.range (Vec.count t)).map fun i =>
      if s.dev.activeAt st x i then some (leaf i) else none
    let idx := fun x : VecEntry => below x.n (s.dev.activeAt st x)
    let same := (s.dev.cur st).getCr 0x13
    let writes := fun (c : Instr) (kind : VecKind) (f : VecEntry → Nat → Nat) (g : VecEntry → W64) =>
      let x := s.dev.capture st kind v
      s.vectorReady st x → (x.n = 0 → Completes c s (s.onlyRetired st 1)) ∧
        (x.n ≠ 0 → Completes c s fun t' => s.sameButStall st t' ∧ (t'.dev.cur st).getCr 0x13 = g x ∧
        (∀ i, i < 4096 / w → Vec.elem (t'.dev.vreg st v.vd) w i = f x i % 2 ^ w) ∧
        (∀ q, q ≠ v.vd → t'.dev.vreg st q = s.dev.vreg st q) ∧ ∀ r, t'.dev.sreg st r = s.dev.sreg st r)
    let reduces := fun (c : Instr) (op : Nat) => writes c (.red op) (fun x i =>
      if i = 0 then (Vec.tree (Vec.combine op t m) 9 (leaves x)).1.getD (Vec.emptyResult op t) else old i) fun _ => same
    let segments := fun (c : Instr) (op : Nat) => writes c (.red (op + 3)) (fun x i =>
      (((Vec.segments (Vec.combine op t m) b leaf (s.dev.activeAt st x) x.n).1.find? fun p => p.1 = i).map Prod.snd).getD
        (old i)) fun _ => same
    let scalar := fun (c : Instr) (kind : VecKind) (f : VecEntry → W64) =>
      let x := s.dev.capture st kind v
      s.vectorReady st x → (x.n = 0 → Completes c s (s.onlyRetired st 1)) ∧
        (x.n ≠ 0 → Completes c s fun t' => s.sameButSlot st t' ∧ (t'.dev.cur st).getCr 0x13 = f x ∧
          ∀ r, t'.dev.sreg st r = s.dev.sreg st r)
    reduces (.vrsum st v) 0 ∧ reduces (.vrmin st v) 1 ∧ reduces (.vrmax st v) 2 ∧
    segments (.vsegsum st v) 0 ∧ segments (.vsegmin st v) 1 ∧ segments (.vsegmax st v) 2 ∧
    writes (.vcompress st v) (.pack 0) (fun x i => match (idx x)[i]? with | some j => a j | none => old i)
      (fun x => BitVec.ofNat 64 (idx x).length) ∧
    writes (.vexpand st v) (.pack 1) (fun x i => match (idx x).findIdx? (· = i) with | some j => a j | none => old i)
      (fun _ => same) ∧
    writes (.vins st v) (.move 1) (fun x i =>
      if i = 0 ∧ s.dev.activeAt st x 0 = true then ((s.dev.cur st).getCr 0x13).toNat % 2 ^ w else old i) (fun _ => same) ∧
    scalar (.vmvsx st v) (.move 0) (fun x =>
      if s.dev.activeAt st x 0 then
        (if Vec.isFloat t then BitVec.ofNat 64 (a 0) else (BitVec.ofNat w (a 0)).signExtend 64)
      else (s.dev.cur st).getCr 0x13) ∧
    scalar (.vmpopc st v) (.move 3) (fun x => BitVec.ofNat 64 ((List.range x.n).countP fun i => flag (s.dev.kreg st v.k) i)) ∧
    scalar (.vmfirst st v) (.move 4) (fun x =>
      match (List.range x.n).find? fun i => flag (s.dev.kreg st v.k) i with
      | some i => BitVec.ofNat 64 i
      | none => BitVec.allOnes 64)

/-- The loft loads, gathers and first-fault loads (R160, R168): where no active element faults, each takes the w bits at its
address and the others keep theirs; memory, scalar registers and other vector registers stay; with n = 0 nothing changes (R136). -/
def Obligations.VectorLoftLoads : Prop :=
  ∀ (st : StallId) (v : VFormat) (s : State),
    let w := Vec.width v.t.toNat
    let loads := fun (c : Instr) (kind : VecKind) =>
      let e := s.dev.capture st kind v
      s.vectorReady st e → (e.n = 0 → Completes c s (s.onlyRetired st 1)) ∧ (e.n ≠ 0 →
      (∀ i, s.dev.activeAt st e i = true → s.dev.staticFault st e (s.dev.elemAddr st e i) = none ∧
        unitOf (s.dev.loftAt st (s.dev.elemAddr st e i)) ∉ s.dev.bad) →
      Completes c s fun t =>
        (∀ i, i < 4096 / w → Vec.elem (t.dev.vreg st v.vd) w i =
          if s.dev.activeAt st e i then leNat (s.dev.rdBytes (s.dev.loftAt st (s.dev.elemAddr st e i)) (w / 8))
          else Vec.elem (s.dev.vreg st v.vd) w i) ∧
        (∀ q, q ≠ v.vd → t.dev.vreg st q = s.dev.vreg st q) ∧ (∀ r, t.dev.sreg st r = s.dev.sreg st r) ∧
        s.sameMemory t ∧ (t.dev.cur st).hold = none ∧ (t.dev.cur st).vq = [] ∧
        ((s.dev.cur st).endsNoLoop → (t.dev.cur st).pc = (s.dev.cur st).pc + 4))
    loads (.vld st v) (.mem 0) ∧ loads (.vlds st v) (.mem 1) ∧ loads (.vgatherW st v) (.gather 0) ∧
    loads (.vgatherD st v) (.gather 1) ∧ loads (.vldff st v) (.first 0) ∧ loads (.vgatherffW st v) (.first 1) ∧
    loads (.vgatherffD st v) (.first 2)

/-- The loft stores, scatters and VHADD (R160, R163, R164): where no active element faults, the last active element at an
address leaves its w bits there, and every other byte keeps its value; with n = 0 nothing changes (R136). VHADD leaves at
each address what was there with every active element that names it added, one at a time in ascending order, each addition
rounded or wrapped to w bits. -/
def Obligations.VectorLoftStores : Prop :=
  ∀ (st : StallId) (v : VFormat) (s : State),
    let w := Vec.width v.t.toNat
    let clear := fun (e : VecEntry) => s.vectorReady st e ∧ e.n ≠ 0 ∧ s.dev.tally.armed = false ∧
      ∀ i, s.dev.activeAt st e i = true → s.dev.staticFault st e (s.dev.elemAddr st e i) = none ∧
        unitOf (s.dev.loftAt st (s.dev.elemAddr st e i)) ∉ s.dev.bad
    let stays := fun (e : VecEntry) (t : State) =>
      (∀ q, (∀ i, s.dev.activeAt st e i = true →
          let p := s.dev.loftAt st (s.dev.elemAddr st e i)
          q < p ∨ p + w / 8 ≤ q) → t.dev.rdByte q = s.dev.rdByte q) ∧
        (∀ r, t.dev.vreg st r = s.dev.vreg st r) ∧ (∀ r, t.dev.sreg st r = s.dev.sreg st r) ∧ (t.dev.cur st).hold = none
    let stores := fun (c : Instr) (kind : VecKind) =>
      let e := s.dev.capture st kind v
      (s.vectorReady st e → e.n = 0 → Completes c s (s.onlyRetired st 1)) ∧ (clear e → Completes c s fun t => stays e t ∧
        ∀ i, s.dev.activeAt st e i = true →
          (∀ j, i < j → s.dev.activeAt st e j = true → s.dev.elemAddr st e j ≠ s.dev.elemAddr st e i) →
          leNat (t.dev.rdBytes (s.dev.loftAt st (s.dev.elemAddr st e i)) (w / 8)) = Vec.elem (s.dev.vreg st v.vd) w i)
    stores (.vst st v) (.mem 2) ∧ stores (.vsts st v) (.mem 3) ∧ stores (.vscatterW st v) (.gather 2) ∧
    stores (.vscatterD st v) (.gather 3) ∧
    (let e := s.dev.capture st .hist v
     s.vectorReady st e → e.n = 0 → Completes (.vhadd st v) s (s.onlyRetired st 1)) ∧
    (let e := s.dev.capture st .hist v
     clear e → Completes (.vhadd st v) s fun t => stays e t ∧
       ∀ i, s.dev.activeAt st e i = true →
         let p := s.dev.loftAt st (s.dev.elemAddr st e i)
         let adds := (List.range e.n).filter fun j =>
           s.dev.activeAt st e j && decide (s.dev.elemAddr st e j = s.dev.elemAddr st e i)
         leNat (t.dev.rdBytes p (w / 8)) = adds.foldl (init := leNat (s.dev.rdBytes p (w / 8))) fun sum j =>
           (Vec.combine 0 v.t.toNat (s.dev.cur st).modeF sum (Vec.elem (s.dev.vreg st v.va) w j)).1 % 2 ^ w)

/-- The LP6 forms wait in the queue and hold the groom (R141, R167); VECTOR_LP6_DONE brings their elements: a load takes
the w bits at each active address, a store leaves them there, and the instruction retires. -/
def Obligations.VectorLp6 : Prop :=
  (∀ (st : StallId) (v : VFormat) (s : State),
    let waits := fun (c : Instr) (kind : VecKind) =>
      let e := s.dev.capture st kind v
      s.vectorReady st e → Completes c s fun t =>
        s.sameButSlot st t ∧ t.dev.cur st = { s.dev.cur st with vq := [e], hold := some .vector }
    waits (.vldm st v) (.mem 16) ∧ waits (.vldsm st v) (.mem 17) ∧ waits (.vstm st v) (.mem 18) ∧
    waits (.vstsm st v) (.mem 19) ∧ waits (.vgathermW st v) (.gather 16) ∧ waits (.vgathermD st v) (.gather 17) ∧
    waits (.vscattermW st v) (.gather 18) ∧ waits (.vscattermD st v) (.gather 19) ∧ waits (.vldffm st v) (.first 16) ∧
    waits (.vgatherffmW st v) (.first 17) ∧ waits (.vgatherffmD st v) (.first 18)) ∧
  ∀ (st : StallId) (s : State) (e : VecEntry),
    (s.dev.stall st).active = true → (s.dev.stall st).gate = .awake → (s.dev.stall st).vBad = [] → (s.dev.cur st).vq = [e] →
    e.lp6 = true → s.dev.boot.memCapacity ≤ loftBase →
    (∀ i, s.dev.activeAt st e i = true → s.dev.staticFault st e (s.dev.elemAddr st e i) = none ∧
      unitOf (s.dev.elemAddr st e i) ∉ s.dev.bad ∧ s.dev.mc[s.dev.chanOf (unitOf (s.dev.elemAddr st e i))].state ≠ .offline) →
    let done := fun t : State => (∀ r, t.dev.sreg st r = s.dev.sreg st r) ∧ (t.dev.cur st).hold = none ∧ (t.dev.cur st).vq = [] ∧
      (∀ q, q ≠ e.v.vd → t.dev.vreg st q = s.dev.vreg st q) ∧
      ((s.dev.cur st).endsNoLoop → (t.dev.cur st).pc = (s.dev.cur st).pc + 4)
    (e.n = 0 → Completes (.vectorLp6Done st) s fun t => done t ∧ s.sameButSlot st t) ∧
    (e.stores = false → e.n ≠ 0 → Completes (.vectorLp6Done st) s fun t => done t ∧ s.sameMemory t ∧
      ∀ i, i < 4096 / e.w → Vec.elem (t.dev.vreg st e.v.vd) e.w i =
        if s.dev.activeAt st e i then leNat (s.dev.rdBytes (s.dev.elemAddr st e i) (e.w / 8))
        else Vec.elem (s.dev.vreg st e.v.vd) e.w i) ∧
    (e.stores = true → e.n ≠ 0 → s.dev.tally.armed = false → Completes (.vectorLp6Done st) s fun t => done t ∧
      (∀ q, (∀ i, s.dev.activeAt st e i = true → q < s.dev.elemAddr st e i ∨ s.dev.elemAddr st e i + e.w / 8 ≤ q) →
        t.dev.rdByte q = s.dev.rdByte q) ∧
      ∀ i, s.dev.activeAt st e i = true →
        (∀ j, i < j → s.dev.activeAt st e j = true → s.dev.elemAddr st e j ≠ s.dev.elemAddr st e i) →
        leNat (t.dev.rdBytes (s.dev.elemAddr st e i) (e.w / 8)) = Vec.elem (s.dev.vreg st e.v.vd) e.w i)

/-- VSETVL, VWAKE and the power gate (R144, R145, R150): VSETVL writes LEN and VSCALAR; VWAKE starts a wake of a gated unit
and retires; an idle unit with empty queues gates off; a wake ends awake. -/
def Obligations.VectorControl : Prop :=
  ∀ (st : StallId) (v : VFormat) (s : State),
    (let e := s.dev.capture st .setvl v
     let len := BitVec.ofNat 64 (min ((s.dev.cur st).getCr 0x13).toNat (Vec.count v.t.toNat))
     s.vectorReady st e → Completes (.vsetvl st v) s (s.wrote st 1 (((s.dev.cur st).setCr 0x10 len).setCr 0x13 len) 0 0)) ∧
    (s.issues st 1 → v.vd = 0 → v.va = 0 → v.vb = 0 → v.k = 0 → Completes (.vwake st v) s fun t =>
      s.sameButStall st t ∧ (s.dev.cur st).retired 1 (t.dev.cur st) ∧ (∀ r, t.dev.sreg st r = s.dev.sreg st r) ∧
        (t.dev.stall st).gate = (if (s.dev.stall st).gate = .gated then .waking else (s.dev.stall st).gate)) ∧
    ((s.dev.stall st).gate = .awake → (s.dev.stall st).primary.vq = [] → (s.dev.stall st).paddock.vq = [] →
      field ((s.dev.cur st).getCr 0x17) 0 16 ≠ 0 → Completes (.vectorGate st) s fun t =>
        s.sameButStall st t ∧ t.dev.stall st = { s.dev.stall st with gate := .gated }) ∧
    ((s.dev.stall st).gate = .waking → (s.dev.cur st).vq = [] → Completes (.vectorWakeDone st) s fun t =>
      s.sameButStall st t ∧ t.dev.stall st = { s.dev.stall st with gate := .awake })

/-- An instruction whose first active element faults stops there (R168, R169): VFAULT_IDX, VFAULT_CAUSE and RESUME are set and
VEC_ELEMENT is taken with the address; a first-fault load whose element 0 is good trims LEN instead (R173). Stated of VLD
and VLDFF with an element at or above LOFT_LIMIT. -/
def Obligations.VectorElementFault : Prop :=
  ∀ (st : StallId) (v : VFormat) (s : State) (f : Nat),
    let at_ := fun (e : VecEntry) => s.vectorReady st e ∧ s.dev.activeAt st e f = true ∧
      s.dev.loftLimit st (s.dev.slotOf st) ≤ s.dev.elemAddr st e f ∧
      ∀ i, i < f → s.dev.activeAt st e i = true → s.dev.staticFault st e (s.dev.elemAddr st e i) = none ∧
        unitOf (s.dev.loftAt st (s.dev.elemAddr st e i)) ∉ s.dev.bad
    (let e := s.dev.capture st (.mem 0) v
     at_ e → flag ((s.dev.cur st).getCr 0x01) 0 = false → Completes (.vld st v) s fun t =>
       (t.dev.cur st).getCr 0x14 = BitVec.ofNat 64 f ∧
       (t.dev.cur st).getCr 0x15 = BitVec.ofNat 64 (Status.loftAddressFault.toNat * 2 ^ 16 + 0x100) ∧
       flag ((t.dev.cur st).getCr 0x16) 1 = true ∧ flag ((t.dev.cur st).getCr 0x01) 0 = true ∧
       (t.dev.cur st).getCr 0x06 = ((s.dev.cur st).pc).setWidth 64 ∧
       (t.dev.cur st).getCr 0x07 = BitVec.ofNat 64 (Status.vecElementFault.toNat * 2 ^ 16 + 8) ∧
       (t.dev.cur st).getCr 0x08 = BitVec.ofNat 64 (s.dev.elemAddr st e f)) ∧
    (let e := s.dev.capture st (.first 0) v
     at_ e → f ≠ 0 → Completes (.vldff st v) s fun t =>
       (t.dev.cur st).getCr 0x10 = BitVec.ofNat 64 f ∧ flag ((t.dev.cur st).getCr 0x16) 0 = true ∧
       (t.dev.cur st).getCr 0x01 = (s.dev.cur st).getCr 0x01 ∧
       ∀ i, f ≤ i → i < 4096 / e.w → Vec.elem (t.dev.vreg st v.vd) e.w i = Vec.elem (s.dev.vreg st v.vd) e.w i)

/-! ### Mangers -/

/-- MLOAD, MFEED and MDRAIN, with a legal form and descriptor and regions inside the partition, copy the descriptor into
the manger queue and retire; a form that selects no manger is illegal, and a full queue holds the instruction (R131, R239,
R240). MSTAT takes the oldest record of its manger, or the count of its commands (R243); FMTSEL queues and holds (R284). The wait
for a place in the queue is R90's; that it comes before the descriptor is read is the model's choice (log 38). -/
def Obligations.MangerInstructions : Prop :=
  ∀ (st : StallId) (m : MFormat) (s : State), s.issues st 1 →
    let slot := s.dev.cur st
    let x := s.descr st m.a
    let n := (selected m.sel).length
    let rows := dfield x 0 48 8
    let e0 := dfield x 0 41 7
    let inShare := fun wide : Bool =>
      let k := if wide then 4 else 1
      let p := accShare (s.dev.paddockEn st) (s.dev.slotOf st)
      0 < rows ∧ p.1 / k ≤ e0 ∧ e0 + rows ≤ p.1 / k + p.2 / k
    let queues := fun (i : Instr) (op : Nat) (used : List (Nat × Nat × Nat)) (counts : Prop) (regs : List Region) =>
      (m.sel ≠ 0 → m.b = 0 → m.d = 0 → slot.mq.length < 8 → s.namesDescr st m.a → reservedClear x used = true → counts →
        s.regionsFit st regs →
        Completes i s (s.wrote st 1 { slot with mq := slot.mq ++ [⟨op, m.sel, x, flag (slot.getCr 0x0D) 0, 0, 0⟩] } 0 0)) ∧
      (m.sel ≠ 0 → m.b = 0 → m.d = 0 → 8 ≤ slot.mq.length → exec i s = .next s) ∧
      (m.sel = 0 ∨ m.b ≠ 0 ∨ m.d ≠ 0 → flag (slot.getCr 0x01) 0 = false →
        Completes i s (s.took st 1 0 ((Coeri.firstWord i).setWidth 64)))
    queues (.mload st m) 0 mloadFields True (mloadRegions x n) ∧
    queues (.mfeed st m) 1 mfeedFields (inShare (pieceFeed x)) (mfeedRegions x) ∧
    queues (.mdrain st m) 2 mdrainFields (if widening x then 1 ≤ rows ∧ rows ≤ 128 else inShare (wideDrain x))
      (drainReads x n ++ drainWrites x n) ∧
    (∀ g : Fin 4, selected m.sel = [g] → m.a = 0 → m.b = 0 →
      let c := { slot with rings := upd slot.rings g (·.drop 1), lost := clearBit slot.lost g.val }
      (∀ r rest, slot.rings[g] = r :: rest → Completes (.mstat st m) s (s.wrote st 1 c m.d r)) ∧
      (slot.rings[g] = [] → Completes (.mstat st m) s (s.wrote st 1 c m.d (BitVec.ofNat 64
        (((slot.mq.countP fun c => flag c.sel g.val) + (slot.mrun.countP fun r => r.mgr[g].busy)) % 256))))) ∧
    (let ea := (s.dev.sreg st m.a).toNat
     m.sel = 0 → m.b = 0 → slot.mq.length < 8 → ea % 64 = 0 → ea + 64 ≤ s.dev.loftLimit st (s.dev.slotOf st) →
      Completes (.fmtsel st m) s fun t => s.sameButSlot st t ∧
        t.dev.cur st = { slot with mq := slot.mq ++ [⟨4, 0, Vector.replicate 8 0, false, m.d, ea⟩], hold := some (.fmtsel m.d) })

/-- The commands of the manger queue that start and end in one manger (R242 to R250, R284): a start takes the head of the
queue into the running commands; a load of a plain format by rows fills the half's 64 lanes, a pass changes no entry but those
it addresses and no byte of memory, and each end leaves its status record, with the poison bits and counts that it says. A
change of duty begins a new group of beat slots in the passes that the yard runs (R252). Model choices: MLOAD reads at
MLOAD_DONE, a drain reads at its start and writes at DRAIN_DONE (log 35), and how many groups a pass has begun when the duty
changes is free (log 99). -/
def Obligations.MangerEvents : Prop :=
  ∀ (st : StallId) (sl : Slot) (g : Fin 4) (c : MCmd) (s : State),
    let slot := s.dev.ctx st sl
    let rest := slot.mq.drop 1
    let records := fun (t : State) (kind a b : Nat) (code : Code) =>
      slot.rings[g].length < 16 → (t.dev.ctx st sl).rings[g] = slot.rings[g] ++ [statusRecord kind (tagOf c.desc) a b code] ∧
        ∀ h, h ≠ g → (t.dev.ctx st sl).rings[h] = slot.rings[h]
    let one := slot.mq.head? = some c ∧ selected c.sel = [g] ∧ s.dev.mayStart st sl = true
    let run := fun (r : MRun) => r.cmd = c ∧ slot.mrun = [r] ∧ selected c.sel = [g] ∧ ∀ h, h ≠ g → r.mgr[h].busy = false
    (slot.mq.head? = some c → c.op = 0 → s.dev.mayStart st sl = true → s.dev.mloadMayStart st sl c = true →
      Completes (.mloadStart st sl) s fun t => s.sameButCtx st sl t ∧
        t.dev.ctx st sl = { slot with mq := rest, mrun := slot.mrun ++ [freshRun c] }) ∧
    (∀ r, run r → c.op = 0 → (s.dev.stall st).slot = sl → (s.dev.stall st).switching = none →
      Tile.ok (fmtOf c.desc) = true → Tile.block (fmtOf c.desc) = false → dfield c.desc 0 3 1 = 0 →
      let at_ := fun j : Nat => s.dev.slotAt st sl (dfield c.desc 1 0 32 + j * dfield c.desc 1 32 32)
      (∀ j, j < 64 → s.dev.clean (at_ j) 32) → Completes (.mloadDone st sl 0) s fun t =>
        (∀ j : Fin 64, ((t.dev.stall st).mgr[g]).half[c.halfOf][s.dev.lane st g j] =
          BitVec.ofNat 512 (leNat (s.dev.rdBytes (at_ j) 32))) ∧
        (t.dev.ctx st sl).half[g][c.halfOf] = ⟨true, false, BitVec.ofNat 4 (fmtOf c.desc)⟩ ∧ (t.dev.ctx st sl).mrun = [] ∧
        records t 1 0 0 Status.done ∧ s.sameMemory t ∧ ∀ h, h ≠ g → (t.dev.stall st).mgr[h] = (s.dev.stall st).mgr[h]) ∧
    (one → c.op = 1 → slot.mrun = [] → (∀ e ∈ c.entries, e < 128) → s.dev.feedEndsAtOnce st sl c = none → s.dev.feedMayStart st sl c = true →
      Completes (.passStart st sl) s fun t =>
        (t.dev.ctx st sl).mq = rest ∧
        (∃ r, (t.dev.ctx st sl).mrun = [r] ∧ r.cmd = c ∧ r.inPass = true ∧ r.passes = 0) ∧ s.sameMemory t ∧
        (∀ h, h ≠ g → (t.dev.stall st).mgr[h].acc = (s.dev.stall st).mgr[h].acc) ∧
        ∀ w : Fin 32, w.val ∉ groupsOf c.entries → ((t.dev.stall st).mgr[g]).acc[w] = ((s.dev.stall st).mgr[g]).acc[w]) ∧
    (∀ r, run r → c.op = 1 → r.inPass = true → r.mgr[g].code = 0 → r.mgr[g].poisoned = false →
      r.mgr[g].ovf < 2 ^ 14 → r.mgr[g].unf < 2 ^ 14 →
      ((dfield c.desc 0 39 1 = 1 ∧ r.passes = 0) ∨ ∀ e ∈ c.entries, flag ((s.dev.stall st).mgr[g]).poison e = false) →
      (r.total ≤ r.passes + 1 → Completes (.passEnd st sl ⟨0, 0⟩) s fun t =>
        (t.dev.ctx st sl).mrun = [] ∧ s.sameMemory t ∧
        ((t.dev.stall st).mgr[g]).ovf = ((s.dev.stall st).mgr[g]).ovf + r.mgr[g].ovf ∧
        ((t.dev.stall st).mgr[g]).unf = ((s.dev.stall st).mgr[g]).unf + r.mgr[g].unf ∧
        ((t.dev.stall st).mgr[g]).acc = ((s.dev.stall st).mgr[g]).acc ∧
        (dfield c.desc 0 39 1 = 0 → ((t.dev.stall st).mgr[g]).poison = ((s.dev.stall st).mgr[g]).poison) ∧
        records t 2 r.mgr[g].ovf r.mgr[g].unf
          (if r.mgr[g].escOver then Status.escapeListOverrun else if 0 < r.mgr[g].ovf then Status.scaleOverflow
           else if 0 < r.mgr[g].unf then Status.scaleUnderflow else Status.done)) ∧
      (r.passes + 1 < r.total → Completes (.passEnd st sl ⟨0, 0⟩) s fun t =>
        (∃ q, (t.dev.ctx st sl).mrun = [q] ∧ q.cmd = c ∧ q.inPass = false ∧ q.passes = r.passes + 1) ∧
        (t.dev.ctx st sl).rings = slot.rings ∧ s.sameMemory t)) ∧
    (one → c.op = 1 → (Tile.ok (fmtOf c.desc) = false ∨ ((s.dev.halfMeta st sl c g).loaded = false ∧ slot.mrun = [])) →
      Completes (.mfeedImmediateEnd st sl) s fun t => s.sameButCtx st sl t ∧ (t.dev.ctx st sl).mq = rest ∧
        records t 2 0 0 (if Tile.ok (fmtOf c.desc) then Status.mangerFormatInvalid else Status.gateConfigInvalid)) ∧
    (one → c.op = 2 → s.dev.drainMayStart st sl c = true → Completes (.drainStart st sl) s fun t =>
      (t.dev.ctx st sl).mq = rest ∧ s.sameMemory t ∧ (∀ h, h ≠ g → (t.dev.stall st).mgr[h] = (s.dev.stall st).mgr[h]) ∧
      ∃ r, (t.dev.ctx st sl).mrun = slot.mrun ++ [r] ∧ r.cmd = c ∧ r.mgr[g].busy = true ∧
        (s.dev.drainRefused st c = true → r.mgr[g].code = Status.gateConfigInvalid ∧ r.mgr[g].out = [] ∧
          (t.dev.stall st).mgr[g] = (s.dev.stall st).mgr[g]) ∧
        (s.dev.drainRefused st c = false → ((t.dev.stall st).mgr[g]).ovf = 0 ∧ ((t.dev.stall st).mgr[g]).unf = 0 ∧
          r.mgr[g].ovf = ((s.dev.stall st).mgr[g]).ovf ∧ r.mgr[g].unf = ((s.dev.stall st).mgr[g]).unf)) ∧
    (∀ r, run r → c.op = 2 → r.mgr[g].busy = true → dfield c.desc 0 7 1 = 0 → r.mgr[g].sat < 2 ^ 14 → r.mgr[g].esc < 2 ^ 14 →
      ((s.dev.stall st).switching ≠ none → exec (.drainDone st sl g) s = .next s) ∧
      ((s.dev.stall st).switching = none → Completes (.drainDone st sl g) s fun t =>
        (t.dev.ctx st sl).mrun = [] ∧ (t.dev.stall st).mgr = (s.dev.stall st).mgr ∧
        (∀ q, (∀ o ∈ r.mgr[g].out, q < s.dev.slotAt st sl o.1 ∨ s.dev.slotAt st sl o.1 + o.2.length ≤ q) →
          t.dev.rdByte q = s.dev.rdByte q) ∧
        records t 3 r.mgr[g].sat r.mgr[g].esc
          (if r.mgr[g].code ≠ 0 then r.mgr[g].code else if r.mgr[g].escOver then Status.escapeListOverrun
           else if r.mgr[g].invalid then Status.fpInvalid else Status.done))) ∧
    (let p := s.dev.slotAt st sl c.ledger
     let r := Gate.fmtsel (s.dev.rdBytes p 64) (slot.getCr 0x0E) (slot.getCr 0x0F)
     ∀ d, slot.mq.head? = some c → c.op = 4 → s.dev.mayStart st sl = true → slot.mrun = [] → c.ledger % 64 = 0 →
      s.dev.clean p 64 → s.dev.tally.armed = false → slot.hold = some (.fmtsel d) → Completes (.fmtselStart st sl) s fun t =>
        t.dev.rdBytes p 64 = r.1 ∧ (∀ q, q < p ∨ p + 64 ≤ q → t.dev.rdByte q = s.dev.rdByte q) ∧
        { slot with mq := rest, hold := none }.retired 1 (t.dev.ctx st sl) ∧
        ∀ q, (t.dev.ctx st sl).getS q = if q = d ∧ q ≠ 0 then r.2 else slot.getS q) ∧
    ∀ y : Yard, Completes (.dutyChange y) s fun t =>
      t.dev.yards[y] = { s.dev.yards[y] with duty := s.dev.yards[y].dutyNext } ∧
      (∀ z, z ≠ y → t.dev.yards[z] = s.dev.yards[z]) ∧
      (s.dev.yards[y].dutyNext = s.dev.yards[y].duty → s.onlyTo t { s.dev with yards := t.dev.yards }) ∧
      s.onlyTo t { s.dev with yards := t.dev.yards, stalls := t.dev.stalls, free := t.dev.free } ∧
      (∀ u, Device.yardOf u ≠ y → t.dev.stall u = s.dev.stall u) ∧
      (s.dev.yards[y].dutyNext ≠ s.dev.yards[y].duty → ∃ k : Nat → Nat → Nat → Nat, ∀ u, Device.yardOf u = y →
        let regroup := fun (c : SlotCtx) (n : Nat) =>
          { c with mrun := c.mrun.mapIdx fun i r => r.newGroup s.dev.yards[y].duty (k u.val n i) }
        t.dev.stall u =
          { s.dev.stall u with primary := regroup (s.dev.stall u).primary 0, paddock := regroup (s.dev.stall u).paddock 1 })

/-! ### The barrow and the stash -/

/-- BGET and BPUT with a legal descriptor put it into the barrow's queue, reserve its notice slot and retire (R131, R316). The
stash operations do what R287 to R291 say of the directory at issue: OPEN takes the control block and clears the directory,
PUT fills the entry and its place, GET and FREE free it, CLOSE gives the stash up; the copies wait in the queue. Model choices: the directory is settled at issue
and copied later, and GET of a RECOMPUTE entry frees it whatever its TAG (log 39). -/
def Obligations.BarrowInstructions : Prop :=
  ∀ (st : StallId) (put : Bool) (m : MFormat) (s : State), s.issues st 1 → m.sel = 0 → m.b = 0 → m.d = 0 →
    s.namesDescr st m.a →
    let slot := s.dev.cur st
    let sl := s.dev.slotOf st
    let x := s.descr st m.a
    let k := Device.noticeMbx x
    let op := dfield x 0 52 4
    let at_ := fun a : Nat => s.dev.slotAt st sl a
    let queues := fun (i : Instr) (p : Bool) (stash : Option Stash) (f : BarrowJob → Prop) => Completes i s fun t =>
      (∃ j, (t.dev.stall st).barrow = (s.dev.stall st).barrow ++ [j] ∧ j.slot = sl ∧ j.put = p ∧ j.desc = x ∧
        j.accepted = false ∧ f j) ∧ s.reserved st k 1 t ∧ (t.dev.cur st).stash = stash ∧
      { slot with stash := stash }.retired 1 (t.dev.cur st) ∧ (∀ r, t.dev.sreg st r = s.dev.sreg st r) ∧
      ∀ u, u ≠ st → t.dev.stall u = s.dev.stall u
    ((s.dev.stall st).barrow.countP fun j => j.slot = sl) < 16 → s.takesNotices st k 1 →
    (dfield x 0 0 4 ≠ 8 → barrowLegal x = true →
      s.regionsFit st [⟨dfield x 1 0 32, ((if dfield x 0 0 4 = 1 then dfield x 3 0 32 else 1) - 1) * dfield x 3 32 32 +
        dfield x 1 32 32, 64⟩] →
      queues (.bget st m) false slot.stash (fun j => j.stash = false) ∧
      queues (.bput st m) true slot.stash (fun j => j.stash = false)) ∧
    (dfield x 0 0 4 = 8 → stashLegal x slot.stash = true →
      (slot.stash = none →
        let b := Stash.ofBlock (s.dev.rdBytes (at_ (dfield x 1 0 32)) 64)
        s.regionsFit st [⟨dfield x 1 0 32, 64, 1⟩] → s.dev.clean (at_ (dfield x 1 0 32)) 64 →
        s.regionsFit st [⟨b.dirBase, 16 * b.entries.length, 16⟩, ⟨b.loftBase, b.loftSlots * b.slotBytes, 4096⟩] →
        0 < b.entries.length → b.entries.length ≤ 4096 → 0 < b.slotBytes → b.slotBytes % 4096 = 0 → b.slotBytes ≤ 1048576 →
        b.loftSlots ≤ 4095 → b.lp6Base % 4096 = 0 →
        queues (.stashOpen st put m) put (some b) (fun j => j.moves = [] ∧ j.stashCode = Status.done) ∧
        ∃ t, exec (.stashOpen st put m) s = .next t ∧
          ∀ i, i < 16 * b.entries.length → t.dev.rdByte (at_ b.dirBase + i) = 0) ∧
      ∀ c : Stash, slot.stash = some c →
        let i := dfield x 2 32 16
        let e := c.entry i
        let tag : W32 := BitVec.ofNat 32 (dfield x 2 0 32)
        let n := dfield x 1 32 32
        (op = 1 → s.regionsFit st [⟨dfield x 1 0 32, n, 1⟩] →
          (∀ c' state k sp, c.takePlace = some (c', state, k, sp) →
            let e' : StashEntry := ⟨state, decide (dfield x 0 48 1 = 1), tag, c.seq, n, k⟩
            queues (.stashPut st put m) put (some { c'.setEntry i e' with seq := c.seq + 1 }) fun j =>
              j.stashCode = Status.done ∧ ∃ sp, j.moves = sp ++ [⟨at_ (dfield x 1 0 32),
                if state = 1 then at_ (c.loftSlot k) else c.lp6Slot k, n⟩]) ∧
          (c.takePlace = none → flag (slot.getCr 0x01) 0 = false → Completes (.stashPut st put m) s fun t =>
            slot.entered 9 Status.stashFull (tag.setWidth 64) (t.dev.cur st) ∧ s.sameMemory t)) ∧
        (op = 2 → (e.bytes = 0 ∨ s.regionsFit st [⟨dfield x 1 0 32, e.bytes, 1⟩]) →
          (e.state ≠ 3 → e.tag = tag → queues (.stashGet st put m) put (some (c.setEntry i { e with state := 0 })) fun j =>
            j.stashCode = Status.done ∧ j.moves = [⟨if e.state = 1 then at_ (c.loftSlot e.slot) else c.lp6Slot e.slot,
              at_ (dfield x 1 0 32), e.bytes⟩]) ∧
          (e.state ≠ 3 → e.tag ≠ tag → queues (.stashGet st put m) put (some c) fun j =>
            j.moves = [] ∧ j.stashCode = Status.stashTagMismatch) ∧
          (e.state = 3 → queues (.stashGet st put m) put (some (c.setEntry i { e with state := 0 })) fun j =>
            j.moves = [] ∧ j.stashCode = Status.stashRecompute)) ∧
        (op = 3 → queues (.stashFree st put m) put (some (c.setEntry i { e with state := 0 })) fun j =>
          j.moves = [] ∧ j.stashCode = Status.done) ∧
        (op = 4 → s.regionsFit st [⟨dfield x 1 0 32, 64, 1⟩] →
          queues (.stashClose st put m) put none fun j => j.close = some (c.seq, c.spills, c.drops)))

/-- Acceptance, completion and abort of a barrow descriptor (R317 to R325): a booked one promises frame a + 2 + ⌈(q + x)/S⌉ where
the yard admits it, takes its place behind those accepted before it, and is refused with a notice where not; the last byte
leaves the destination equal to what the source held and posts the notice; BARROW_ABORT takes a descriptor out with the
bytes it had moved, or reports ABORT_TOO_LATE where none answers to it or its last byte is written. Model choices: an aborted
descriptor has moved its first bytes (log 40), and bytes move at a completion or an abort (logs 41 and 91). -/
def Obligations.BarrowEvents : Prop :=
  (∀ (st : StallId) (n : Nat) (j : BarrowJob) (s : State), (s.dev.stall st).barrow[n]? = some j → j.accepted = false →
    j.booked = false → j.stash = false → j.firmware = false → ((s.dev.stall st).barrow.take n).all (fun k => k.accepted || k.slot != j.slot) = true →
    let rs := s.dev.rangesOf st j
    let k := Device.noticeMbx j.desc
    let tag := dfield j.desc 0 56 8 * 2 ^ 56
    let dropped := fun (c : Code) (t : State) => (t.dev.stall st).barrow = (s.dev.stall st).barrow.eraseIdx n ∧
      s.noticed st k (tag + c.toNat) t ∧ s.sameMemory t
    let kept := fun (b : Bool) (p : Frame) (t : State) => s.sameButStall st t ∧ s.sameMemory t ∧
      ∃ j', (t.dev.stall st).barrow = (s.dev.stall st).barrow.filter (·.accepted) ++
          j' :: ((s.dev.stall st).barrow.eraseIdx n).filter (fun k => !k.accepted) ∧ j'.desc = j.desc ∧ j'.accepted = true ∧
        j'.booked = b ∧ j'.accept = s.dev.now ∧ (b = true → j'.promise = p)
    ((∃ r ∈ rs, s.dev.mapped r.1 r.2 = false) → Completes (.barrowAccept st n) s (dropped Status.addressUnmapped)) ∧
    (∀ y : Yard, rs ≠ [] →
      (∀ r ∈ rs, s.dev.inLp6 r.1 r.2 = true ∧ s.dev.yardAt r.1 = y ∧ s.dev.yardAt (r.1 + r.2 - 1) = y) →
      let x := s.dev.inService y * Device.maxOf (s.dev.charges rs)
      let share := s.dev.share st y
      let q := s.dev.backlog st y
      (dfield j.desc 0 15 1 = 1 → Completes (.barrowAccept st n) s (kept false 0)) ∧
      (dfield j.desc 0 15 1 = 0 → 0 < share → q + x ≤ 64 * share →
        Completes (.barrowAccept st n) s (kept true (s.dev.now + BitVec.ofNat 48 (2 + ceilDiv (q + x) share)))) ∧
      (dfield j.desc 0 15 1 = 0 → (share = 0 ∨ 64 * share < q + x) →
        Completes (.barrowAccept st n) s (dropped Status.admissionRefused)))) ∧
  (∀ (st : StallId) (n : Nat) (j : BarrowJob) (v : Move) (s : State), (s.dev.stall st).barrow[n]? = some j →
    j.stash = false → j.firmware = false → j.late = none → j.close = none → s.dev.mayComplete st n = true →
    s.dev.movesOf st j = [v] → s.dev.soundRange v.src v.bytes → s.dev.soundRange v.dst v.bytes → s.dev.tally.armed = false →
    Completes (.barrowComplete st n) s fun t =>
      (∀ i, i < v.bytes → t.dev.rdByte (v.dst + i) = s.dev.rdByte (v.src + i)) ∧
      (∀ a, a < v.dst ∨ v.dst + v.bytes ≤ a → t.dev.rdByte a = s.dev.rdByte a) ∧
      (t.dev.stall st).barrow = (s.dev.stall st).barrow.eraseIdx n ∧
      s.noticed st (Device.noticeMbx j.desc) (dfield j.desc 0 56 8 * 2 ^ 56 +
        (if j.booked then Status.done else Status.unbookedDone).toNat) t) ∧
  ∀ (who : Requester) (shed : Fin 24) (v : W32) (moved : Nat) (s : State), s.dev.serving = true →
    let st := Device.stallOf shed (field v 0 4)
    let sl : Slot := if flag v 4 then .paddock else .primary
    let mine := fun j : BarrowJob => j.slot = sl ∧ dfield j.desc 0 56 8 = field v 8 8 ∧ j.late = none ∧ j.firmware = false
    let ends := fun (c : Code) (i : Nat) (j : BarrowJob) (d : Code) (t : State) =>
      t.dev.preg ⟨.shed, shed⟩ 0x204 = c.setWidth 32 ∧ (t.dev.stall st).barrow = (s.dev.stall st).barrow.eraseIdx i ∧
        s.noticed st (Device.noticeMbx j.desc) (dfield j.desc 0 56 8 * 2 ^ 56 + d.toNat) t
    let lands := fun (v : Move) (n : Nat) (t : State) =>
      (∀ q, q < n → t.dev.rdByte (v.dst + q) = s.dev.rdByte (v.src + q)) ∧
        ∀ a, a < v.dst ∨ v.dst + n ≤ a → t.dev.rdByte a = s.dev.rdByte a
    ((∀ j ∈ (s.dev.stall st).barrow, ¬ mine j) → Completes (.barrowAbort who shed v moved) s fun t =>
      t.dev.preg ⟨.shed, shed⟩ 0x204 = 0x0002 ∧ t.dev.stalls = s.dev.stalls ∧ s.sameMemory t) ∧
    ∀ (i : Nat) (j : BarrowJob), (s.dev.stall st).barrow[i]? = some j → mine j →
      (∀ k ∈ (s.dev.stall st).barrow.take i, ¬ mine k) →
      (s.dev.inProgress st i = false ∨ moved = 0 → Completes (.barrowAbort who shed v moved) s fun t =>
        ends Status.aborted i j Status.aborted t ∧ s.sameMemory t) ∧
      ∀ m : Move, s.dev.movesOf st j = [m] → j.stash = false → j.close = none → 0 < m.bytes → s.dev.soundRange m.src m.bytes →
        s.dev.soundRange m.dst m.bytes → s.dev.tally.armed = false →
        (s.dev.inProgress st i = true → moved < m.bytes → Completes (.barrowAbort who shed v moved) s fun t =>
          ends Status.aborted i j Status.aborted t ∧ lands m moved t) ∧
        (s.dev.mayComplete st i = true → m.bytes ≤ moved → Completes (.barrowAbort who shed v moved) s fun t =>
          ends Status.abortTooLate i j (if j.booked then Status.done else Status.unbookedDone) t ∧ lands m m.bytes t)

/-! ### Drovers, sidings and teams -/

/-- SUBMIT of a SHIFT, PERMUTE or SEND queues its descriptor with the next sequence number of its team and reserves its
notice slots (R384, R391); SIDING opens or closes a siding and answers 1 where it is in use (R389); RELEASE frees the
oldest occupied slots, each with a notice slot (R390); PERMSET writes a turntable entry of a team without work (R386). Model
choices: RELEASE reserves in the siding's last mailbox, and a slot not yet set up gives sequence numbers too (log 54). -/
def Obligations.DroverInstructions : Prop :=
  ∀ (st : StallId) (m : MFormat) (s : State), s.issues st 1 → m.sel = 0 →
    let slot := s.dev.cur st
    let sl := s.dev.slotOf st
    let y := Device.yardOf st
    let a := (s.dev.sreg st m.a).toNat
    let b := s.dev.sreg st m.b
    let i : Fin 8 := Fin.ofNat 8 (field b 0 3)
    let same := fun (t : State) => (∀ u, u ≠ st → t.dev.stall u = s.dev.stall u) ∧ s.sameMemory t
    let wrote := fun (d : SReg) (v : W64) (t : State) => slot.retired 1 (t.dev.cur st) ∧
      (∀ r, t.dev.sreg st r = if r = d ∧ r ≠ 0 then v else s.dev.sreg st r) ∧ same t
    (let x := s.descr st m.a
     let t : Fin 64 := Fin.ofNat 64 (dfield x 0 42 6)
     let n := 1 + (if dfield x 0 39 1 = 1 then
       ((s.dev.siding st sl (Fin.ofNat 8 (dfield x 0 36 3))).map Siding.depth).getD 0 else 0)
     let queues := fun (c : Instr) => Completes c s fun u =>
       u.dev.drovers[y].jobs = s.dev.drovers[y].jobs ++ [⟨st, sl, x, (Device.takeSeq (s.dev.team y t) x).1, n⟩] ∧
       s.reserved st (Device.noticeMbx x) n u ∧
       u.dev.team y t = (Device.takeSeq (s.dev.team y t) x).2 ∧
       (dfield x 0 52 4 ≠ 2 → u.dev.team y t = { s.dev.team y t with nextSeq := (s.dev.team y t).nextSeq + 1 }) ∧
       (∀ v, v ≠ t → u.dev.team y v = s.dev.team y v) ∧ wrote 0 0 u
     m.b = 0 → m.d = 0 → s.namesDescr st m.a → s.dev.droveQueued st sl + s.dev.droveAccepted st sl < 16 →
     s.dev.droveLegal st x = true →
     s.regionsFit st (⟨dfield x 3 0 32, 64, 64⟩ :: if dfield x 0 34 2 = 2 then [⟨dfield x 3 32 32, 64, 64⟩] else []) →
     s.takesNotices st (Device.noticeMbx x) n → queues (.shift st m) ∧ queues (.permute st m) ∧ queues (.teamSend st m)) ∧
    (flag b 16 = false →
      let depth := field b 3 3 + 1
      let chunk := field b 8 8 * 4096
      2 ≤ depth → 0 < chunk → chunk ≤ 128 * 4096 → a + depth * chunk ≤ s.dev.loftLimit st sl → a % 4096 = 0 →
      (s.dev.siding st sl i = none → Completes (.siding st m) s fun u => wrote m.d 0 u ∧
        (∃ q, u.dev.siding st sl i = some q ∧ q.base = a ∧ q.depth = depth ∧ q.chunk = chunk ∧ q.occupied = 0 ∧
          q.reserved = 0) ∧ ∀ k, k ≠ i → u.dev.siding st sl k = s.dev.siding st sl k) ∧
      ∀ q, s.dev.siding st sl i = some q → q.occupied ≠ 0 ∨ q.reserved ≠ 0 → Completes (.siding st m) s (s.wroteScalar st 1 m.d 1)) ∧
    (∀ q, flag b 16 = true → s.dev.siding st sl i = some q → q.occupied = 0 → q.reserved = 0 →
      Completes (.siding st m) s fun u => wrote m.d 0 u ∧ u.dev.siding st sl i = none ∧
        (u.dev.mbx st q.mbx).free = (s.dev.mbx st q.mbx).free + q.notices ∧
        ∀ k, k ≠ i → u.dev.siding st sl k = s.dev.siding st sl k) ∧
    (∀ q, m.a = 0 → m.d = 0 → s.dev.siding st sl i = some q → 1 ≤ field b 8 4 → field b 8 4 ≤ 8 →
      let k := min (field b 8 4) q.occupied
      (0 < k → k ≤ (s.dev.mbx st q.mbx).free → Completes (.release st m) s fun u => wrote 0 0 u ∧ s.reserved st q.mbx k u ∧
        u.dev.siding st sl i = some { q with
          occupied := q.occupied - k, freeNext := (q.freeNext + k) % q.depth, notices := q.notices + k }) ∧
      (0 < k → (s.dev.mbx st q.mbx).free < k → exec (.release st m) s = .next s) ∧
      (k = 0 → Completes (.release st m) s (s.onlyRetired st 1))) ∧
    (let t : Fin 64 := Fin.ofNat 64 (field b 0 6)
     a % 16 = 0 → a + 16 ≤ s.dev.loftLimit st sl → s.dev.clean (s.dev.loftAt st a) 16 →
     ((s.dev.team y t).op = none → (∀ j ∈ s.dev.drovers[y].jobs, dfield j.desc 0 42 6 ≠ t.val) →
       Completes (.permset st m) s fun u => wrote m.d 0 u ∧
         u.dev.team y t = { s.dev.team y t with turn := (s.dev.rdBytes (s.dev.loftAt st a) 16).map (·.toNat) }) ∧
     ((s.dev.team y t).op.isSome = true ∨ (∃ j ∈ s.dev.drovers[y].jobs, dfield j.desc 0 42 6 = t.val) →
       Completes (.permset st m) s (s.wroteScalar st 1 m.d 1)))

/-- The steps of a team's operation on one member (R393 to R408): the decision and its refusals, the COLLECT and VERDICT
flits that fix frame a and the promise, META, chunks, COMPLETE and COMMIT, and what ends it early. Each step changes this
team alone, and hands its control flit on through the port of the + direction; a control flit that the operation does not
expect leaves the team as it is, and one for a team that is not ACTIVE makes the partner HOSTILE (R381). -/
def Obligations.TeamOperation : Prop :=
  ∀ (y : Yard) (t : Fin 64) (h : FlitHeader) (s : State),
    let m := s.dev.team y t
    let now := s.dev.now
    let plus := s.dev.teamPort y t false
    1 ≤ m.vc → m.vc ≤ 5 → s.dev.teamLink y t false = true →
    let passes := fun (kind : Byte) (u : State) => ∃ w ∈ vget u.dev.ports[plus].queue m.vc [],
      w.tag = BitVec.ofNat 20 (t.val * 2 ^ 14 + 2 ^ 8) ∧ w.payload.head? = some kind
    let others := fun (u : State) => ∀ z v, (z, v) ≠ (y, t) → u.dev.team z v = s.dev.team z v
    let becomes := fun (c : Instr) (f : TeamOp → State → Prop) => Completes c s fun u =>
      others u ∧ ∃ o, (u.dev.team y t).op = some o ∧ f o u
    let ends := fun (c : Instr) (f : State → Prop) => Completes c s fun u => others u ∧ (u.dev.team y t).op = none ∧ f u
    let drops := fun (c : Instr) => Completes c s fun u => others u ∧ u.dev.team y t = m
    (∀ (i : Nat) (j : DroveJob), (s.dev.drovers[y].jobs.findIdx? fun j => dfield j.desc 0 42 6 = t.val) = some i →
      s.dev.drovers[y].jobs[i]? = some j → (∀ k ∈ s.dev.drovers[y].jobs.take i, k.stall ≠ j.stall ∨ k.slot ≠ j.slot) →
      m.op = none →
      let p := s.dev.slotAt j.stall j.slot (dfield j.desc 3 0 32)
      let counts := (List.range 16).map fun r => leNat (s.dev.rdBytes (p + 4 * r) 4)
      let o := s.dev.newOp m j counts m.abortPending
      let box := fun u : State => u.dev.mbx j.stall (Device.noticeMbx j.desc)
      let chunks := ceilDiv (o.inBytes m) (s.dev.chunkSize o)
      let refuses := fun (code : Code) => Completes (.memberDecide y t) s fun u =>
        (∃ n : Message, (box u).msgs = (box s).msgs ++ [n] ∧ n.notice = true ∧
          leNat (n.data.take 8) = dfield j.desc 0 56 8 * 2 ^ 56 + code.toNat) ∧
        (box u).inflight = (box s).inflight - 1 - (j.reserved - 1) ∧ (box u).free = (box s).free + (j.reserved - 1) ∧
        u.dev.drovers[y].jobs = s.dev.drovers[y].jobs.eraseIdx i ∧ others u ∧ s.sameMemory u
      (m.state = .broken → refuses Status.memberFault) ∧ (m.state = .severed → refuses Status.teamSevered) ∧
      (m.state = .active → m.since ≠ now → m.rank? ≠ none → s.dev.clean p 64 →
        (∀ q, s.dev.opSiding o = some q → q.occupied + q.reserved + chunks ≤ q.depth) → s.dev.droveRefusal y m o chunks = none →
        becomes (.memberDecide y t) fun o' u => o'.job = j ∧ o'.counts = counts ∧ o'.refused = none ∧
          u.dev.drovers[y].jobs = s.dev.drovers[y].jobs.eraseIdx i ∧ s.sameMemory u ∧
          (m.rank = Team.starterOf j.desc → o'.started = true ∧ passes 1 u) ∧
          (m.rank ≠ Team.starterOf j.desc →
            (m.collect.find? o.asks = none → o'.started = false ∧ (u.dev.team y t).collect = m.collect) ∧
            ∀ c, m.collect.find? o.asks = some c →
              o'.started = true ∧ (u.dev.team y t).collect = m.collect.erase c ∧ passes 1 u))) ∧
    (s.hearsTeam y t h → m.state = .active →
      (∀ c : CollectFlit,
        let holds := Completes (.collect y t h c) s fun u =>
          others u ∧ u.dev.team y t = { m with collect := m.collect ++ [c] }
        (Device.takesPart m c = false → Completes (.collect y t h c) s fun u =>
          others u ∧ u.dev.team y t = { m with through := m.through + 1 } ∧ passes 1 u) ∧
        (Device.takesPart m c = true → (m.op = none → holds) ∧ ∀ o : TeamOp, m.op = some o →
          let starter := m.rank = Team.starterOf o.desc
          (starter → o.owns c = true → o.accept = none → becomes (.collect y t h c) fun o' _ =>
            o' = { o with
              accept := some now, promise := now + BitVec.ofNat 48 (m.bound (o.legs m)), returned := some c }) ∧
          (starter → o.owns c = false → holds) ∧
          (¬ starter → o.started = false → o.asks c = true → becomes (.collect y t h c) fun o' u =>
            o'.started = true ∧ passes 1 u) ∧
          (¬ starter → o.started = true ∨ o.asks c = false → holds))) ∧
      ((m.op.any (·.go)) = false → m.taking = none → ∀ code k r src l sh e (c : CompleteFlit),
        let goesOn := fun (i : Instr) (kind : Byte) (n : Nat) => Completes i s fun u =>
          others u ∧ u.dev.team y t = { m with through := n } ∧ passes kind u
        (0 < m.through → goesOn (.verdict y t h code r) 2 (if code = Status.done then m.through else m.through - 1) ∧
          goesOn (.metaFlit y t h src l sh e) 3 m.through ∧ goesOn (.complete y t h c) 4 m.through ∧
          goesOn (.commit y t h code k) 5 (m.through - 1)) ∧
        (m.through = 0 → drops (.verdict y t h code r) ∧ drops (.metaFlit y t h src l sh e) ∧ drops (.complete y t h c) ∧
          drops (.commit y t h code k))) ∧
      ∀ o : TeamOp, m.taking = some o → o.live = true → m.rank? ≠ none →
        let starter := m.rank = Team.starterOf o.desc
        (∀ r, ¬ starter → o.started = true → o.go = false → o.back = false →
          (o.accept = none → becomes (.verdict y t h Status.done r) fun o' u =>
            o'.go = true ∧ o'.accept = some (now - 1) ∧ o'.promise = now - 1 + BitVec.ofNat 48 (m.bound (o.legs m)) ∧
            passes 2 u) ∧
          ∀ code, code ≠ Status.done → ends (.verdict y t h code r) fun u => passes 2 u) ∧
        (∀ code r, m.through = 0 → ¬ starter → o.started = false ∨ o.go = true ∨ o.back = true → drops (.verdict y t h code r)) ∧
        (m.through = 0 → o.go = false → (∀ src l sh e, drops (.metaFlit y t h src l sh e)) ∧ (∀ c, drops (.complete y t h c)) ∧
          ∀ code k, drops (.commit y t h code k)) ∧
        (∀ (src : BitVec 4) l sh e, m.rank? ≠ some src.toNat → o.go = true → o.metaIn = none →
          (∃ g, o.receives m = some g ∧ g.src = src.toNat) →
          becomes (.metaFlit y t h src l sh e) fun o' _ => o' = { o with metaIn := some (l, sh, e) }) ∧
        (∀ c : CompleteFlit, o.go = true → starter → o.completeSent = true → becomes (.complete y t h c) fun o' u =>
          o'.committed = true ∧ o'.k = c.k ∧ o'.worst = (Device.finalStatus o c).1 ∧ passes 5 u) ∧
        (∀ c : CompleteFlit, o.go = true → ¬ starter → o.completeSent = false → o.held = none → o.due now = true →
          becomes (.complete y t h c) fun o' u => o'.completeSent = true ∧ o'.held = none ∧ passes 4 u) ∧
        (∀ k, o.go = true → ¬ starter →
          (o.completeSent = true → o.complete m = true → ends (.commit y t h Status.done k) fun u => passes 5 u) ∧
          (o.completeSent = true → o.complete m = false → becomes (.commit y t h Status.done k) fun o' u =>
            o'.committed = true ∧ o'.worst = Status.done ∧ passes 5 u) ∧
          (m.through = 0 → o.completeSent = false → drops (.commit y t h Status.done k)) ∧
          ends (.commit y t h Status.aborted k) fun u => passes 5 u) ∧
        (∀ r : BitVec 4, starter → o.go = false → becomes (.teamAbortFlit y t h r) fun o' _ => o' = { o with aborted := true })) ∧
    (∀ (c : CollectFlit) (o : TeamOp) (a : Frame), m.op = some o → o.returned = some c → o.live = true →
      m.rank = Team.starterOf o.desc → o.go = false → o.started = true → o.aborted = false → o.accept = some a → a ≠ now →
      c.aborted = false → c.refused = false → c.matched = true → becomes (.verdictSend y t) fun o' u =>
        o'.go = true ∧ o'.accept = some a ∧ o'.returned = none ∧ (u.dev.team y t).phase = .handshake ∧ passes 2 u) ∧
    (∀ o : TeamOp, m.op = some o → o.live = true → o.go = true →
      (o.posted < o.chunks → o.posted * s.dev.chunkSize o + s.dev.chunkBytes y t o o.posted ≤ o.gotBytes →
        becomes (.chunkLanded y t) fun o' _ => o'.posted = o.posted + 1) ∧
      (m.rank = Team.starterOf o.desc → o.completeSent = false → o.due now = true → becomes (.completeStart y t) fun o' u =>
        o'.completeSent = true ∧ (u.dev.team y t).phase = .completing ∧ passes 4 u) ∧
      (o.nobook = false → o.reached now (m.bound (o.legs m) + o.k + 3) = true → ends (.severTimeout y t) fun _ => True)) ∧
    (s.hearsTeam y t h → m.state = .active ∨ m.state = .broken → ∀ r : BitVec 4,
      (m.state = .active → m.rank? ≠ some r.toNat → ∀ code, ends (.fail y t h code 0 r) fun u => (u.dev.team y t).state = .broken ∧ passes 6 u) ∧
      ends (.sever y t h r) fun u => (u.dev.team y t).state = .severed ∧ passes 7 u) ∧
    (s.hearsTeam y t h → m.state ≠ .active → ∀ code k r src l sh e (c : CollectFlit) (f : CompleteFlit),
      let fences := fun (i : Instr) => Completes i s fun u =>
        u.dev.ports[s.dev.teamPort y t true].state = .hostile ∧ u.dev.ports[s.dev.teamPort y t true].fenceDetail = 5
      fences (.collect y t h c) ∧ fences (.verdict y t h code r) ∧ fences (.metaFlit y t h src l sh e) ∧
      fences (.complete y t h f) ∧ fences (.commit y t h code k) ∧ fences (.teamAbortFlit y t h r)) ∧
    ∀ o : TeamOp, m.op = some o → m.state = .active → o.accept = none → m.hsLimit ≠ 0 →
      m.hsLimit ≤ Device.since now o.decided → ends (.hsLimitExpiry y t) fun u => (u.dev.team y t).state = .broken ∧ passes 6 u

/-- The commands of the DROVER page and the life of a team slot (R377, R379, R407): CREATE and DESTROY wait for their frame,
ACTIVATE takes the record from memory where it fits, a slot without work is freed; each reports in TEAM_RESULT. Model choices:
the codes of a DESTROY of a FREE slot or a begun frame and of a record at a bad DPA (log 55), and the sequence number that a
slot keeps until it is set up (log 54). -/
def Obligations.TeamLife : Prop :=
  ∀ (who : Requester) (y : Yard) (v : W32) (s : State),
    let frame := s.dev.teamFrameReg y
    let answers := fun (c : Code) (u : State) => u.dev.drovers[y].result = c
    (let t : Fin 64 := Fin.ofNat 64 (field v 0 6)
     let m := s.dev.team y t
     let dpa := (s.dev.preg (Page.drover y) 0x10C).toNat + s.dev.pfield (Page.drover y) 0x110 0 16 * 2 ^ 32
     s.dev.serving = true →
     (field v 16 2 = 1 → s.dev.now.toNat < frame.toNat → Completes (.teamCmdCreate who y v) s fun u =>
       s.onlyTo u { s.dev with drovers := u.dev.drovers } ∧ u.dev.team y t = { m with
         creates := m.creates ++ [⟨dpa, frame, none, decide (m.state = .free)⟩]
         state := if m.state = .free then .pending else m.state } ∧ ∀ w, w ≠ t → u.dev.team y w = s.dev.team y w) ∧
     (field v 16 2 = 2 → s.dev.now.toNat < frame.toNat → Completes (.teamCmdDestroy who y v) s fun u =>
       s.onlyTo u { s.dev with drovers := u.dev.drovers } ∧ u.dev.team y t = { m with destroys := m.destroys ++ [(frame, none)] } ∧
         ∀ w, w ≠ t → u.dev.team y w = s.dev.team y w) ∧
     (field v 16 2 = 1 → frame.toNat ≤ s.dev.now.toNat → Completes (.teamCmdCreate who y v) s fun u =>
       answers Status.teamConfigInvalid u ∧ u.dev.team y t = m) ∧
     (field v 16 2 = 2 → frame.toNat ≤ s.dev.now.toNat → Completes (.teamCmdDestroy who y v) s fun u =>
       answers Status.teamConfigInvalid u ∧ u.dev.team y t = m) ∧
     (m.op = none → (∀ j ∈ s.dev.drovers[y].jobs, dfield j.desc 0 42 6 ≠ t.val) → Completes (.teamAbort who y v) s fun u =>
       u.dev.drovers[y].abortRes = Status.abortTooLate ∧ u.dev.team y t = { m with abortPending := false }) ∧
     (∀ o, m.op = some o → o.live = false → Completes (.teamAbort who y v) s fun u =>
       u.dev.drovers[y].abortRes = Status.abortTooLate ∧ u.dev.team y t = { m with abortPending := false }) ∧
     (m.op = none → (∃ j ∈ s.dev.drovers[y].jobs, dfield j.desc 0 42 6 = t.val) → Completes (.teamAbort who y v) s fun u =>
       s.onlyTo u { s.dev with drovers := u.dev.drovers } ∧ u.dev.team y t = { m with abortPending := true })) ∧
    ∀ t : Fin 64,
      let m := s.dev.team y t
      (s.dev.inBoundary = false → ∀ c : TeamCreate, (m.creates.filter fun c => decide (c.act ≤ s.dev.now)) = [c] →
        let rest := m.creates.erase c
        let empty := c.holds = true ∨ m.state = .free
        let new : Team := { Reset.team with
          state := .active, record := s.dev.descrAt c.dpa, act := c.act, since := c.act, turn := m.turn, nextSeq := m.nextSeq
          sendSeq := m.sendSeq, creates := rest, destroys := m.destroys, abortPending := m.abortPending }
        let refuses := fun (code : Code) => Completes (.teamActivate y t) s fun u => answers code u ∧
          u.dev.team y t = { m with creates := rest, state := if c.holds then .free else m.state }
        (empty → c.dpa % 8 = 0 → s.dev.inLp6 c.dpa 64 = true → s.dev.soundRange c.dpa 64 →
          ((s.dev.dropCreate y t c).teamRefusal y t new = none →
            Completes (.teamActivate y t) s fun u => u.dev.team y t = new ∧ answers Status.done u) ∧
          ∀ code, (s.dev.dropCreate y t c).teamRefusal y t new = some code → refuses code) ∧
        (empty → c.dpa % 8 = 0 → s.dev.mapped c.dpa 64 = false → refuses Status.addressUnmapped) ∧
        (¬ empty ∨ c.dpa % 8 ≠ 0 ∨ (s.dev.mapped c.dpa 64 = true ∧ s.dev.inLp6 c.dpa 64 = false) →
          refuses Status.teamConfigInvalid)) ∧
      ∀ f, (m.destroys.filter fun f => decide (f.1 ≤ s.dev.now)) = [f] →
        let works := m.op.any (·.live) = true ∨ ∃ j ∈ s.dev.drovers[y].jobs, dfield j.desc 0 42 6 = t.val
        (m.setUp = true → ¬ works → Completes (.teamFree y t) s fun u => answers Status.done u ∧
          u.dev.team y t = { Reset.team with turn := m.turn, creates := m.creates, destroys := m.destroys.erase f }) ∧
        (m.setUp = false ∨ works → Completes (.teamFree y t) s fun u =>
          answers Status.teamConfigInvalid u ∧ u.dev.team y t = { m with destroys := m.destroys.erase f })

/-! ### The Forge -/

/-- FSUBMIT and the three forms of FBACK at issue (R433, R435, R439, R446, R447): a request that the tests admit joins the
Forge, one that they refuse has its notice at once, and RELEASE frees its retention entry; each retires. -/
def Obligations.ForgeInstructions : Prop :=
  ∀ (st : StallId) (m : MFormat) (s : State), s.issues st 1 → m.sel = 0 → m.b = 0 → m.d = 0 → s.namesDescr st m.a →
    s.dev.forgeOutstanding st (s.dev.slotOf st) < 4 →
    let sl := s.dev.slotOf st
    let y := Device.yardOf st
    let x := s.descr st m.a
    let k := Device.noticeMbx x
    let reqs := (s.dev.forge y).reqs
    let retires := fun (u : State) => (s.dev.cur st).retired 1 (u.dev.cur st) ∧ (∀ r, u.dev.sreg st r = s.dev.sreg st r) ∧
      (∀ v, v ≠ st → u.dev.stall v = s.dev.stall v) ∧ s.sameMemory u ∧ ∀ z, z ≠ y → u.dev.forges[z] = s.dev.forges[z]
    let admits := fun (c : Instr) (back booked : Bool) (ts : Fin 16) (e : Option (Fin 64)) (n : Nat) =>
      Completes c s fun u => retires u ∧ s.reserved st k 1 u ∧ ∃ q : ForgeReq, (u.dev.forge y).reqs = reqs ++ [q] ∧
        q.stall = st ∧ q.slot = sl ∧ q.back = back ∧ q.desc = x ∧ q.accept = s.dev.now ∧ q.booked = booked ∧
        q.deadline = BitVec.ofNat 48 (dfield x 1 0 48) ∧ q.tslot = ts ∧ q.entry = e ∧
        q.problems = List.replicate n ForgeReq.freshProblem
    let answers := fun (c : Instr) (back : Bool) (handle : Nat) (code : Code) (f : State → Prop) => Completes c s fun u =>
      retires u ∧ (u.dev.forge y).reqs = reqs ∧ f u ∧ (u.dev.mbx st k).free = (s.dev.mbx st k).free - 1 ∧
      ∃ n : Message, (u.dev.mbx st k).msgs = (s.dev.mbx st k).msgs ++ [n] ∧ n.notice = true ∧
        leNat (n.data.take 8) = dfield x 0 56 8 * 2 ^ 56 + bitAt back 52 + handle * 2 ^ 32 + code.toNat
    let same := fun (u : State) => u.dev.forges = s.dev.forges
    let fits := fun (t : Template) (q : ForgeReq) =>
      let part := s.dev.spentNow
      Device.forgeFits s.dev.now (s.dev.forgeBook y) (s.dev.forgeLp6 y)
        (s.dev.forgeSet y part ++ [(q.deadline, q.accept, q.left t part, q.lp6Left t)]) = true
    s.takesNotices st k 1 →
    (Device.forgeLegal false x = true → ∀ t : Template,
      let ts : Fin 16 := Fin.ofNat 16 (dfield x 0 52 4)
      let n := dfield x 2 32 32
      let tbl := (s.dev.readTable st sl (dfield x 3 0 32) t.nsrc).2
      let q := { s.dev.newReq st false x with tslot := ts, table := tbl, problems := List.replicate n ForgeReq.freshProblem }
      (s.dev.forge y).tpl[ts] = some t → s.regionsFit st [⟨dfield x 3 0 32, 32 * t.nsrc, 64⟩] →
      s.dev.clean (s.dev.slotAt st sl (dfield x 3 0 32)) (32 * t.nsrc) →
      (t.version.toNat ≠ dfield x 2 0 32 → answers (.fsubmit st m) false 0xFFFF Status.forgeTemplateInvalid same) ∧
      (t.version.toNat = dfield x 2 0 32 → (∀ i, i < t.nsrc → (t.elems[i]?).getD 0 ≤ ((tbl[i]?).map Source.len).getD 0) →
        tbl.all Source.formatOk = true → s.dev.mapped q.outDpa (n * t.stride) = true →
        s.dev.mapped q.diagDpa (n * t.stride) = true →
        (∀ i ∈ tbl, s.dev.sourceMapped st sl i (if i.len = 0 then 0 else (n - 1) * i.pstride + i.len) = true) →
        dfield x 0 49 1 = 0 → dfield x 0 50 1 = 0 → s.dev.now.toNat < dfield x 1 0 48 →
        (dfield x 0 51 1 = 1 → admits (.fsubmit st m) false false ts none n) ∧
        (dfield x 0 51 1 = 0 → fits t q → admits (.fsubmit st m) false true ts none n) ∧
        (dfield x 0 51 1 = 0 → ¬ fits t q → answers (.fsubmit st m) false 0xFFFF Status.admissionRefused same))) ∧
    (Device.forgeLegal true x = true →
      let op := dfield x 0 54 2
      let handle := dfield x 2 0 16
      (op = 2 ∨ s.regionsFit st [⟨dfield x 2 32 32, 288, 64⟩]) →
      (s.dev.retained y handle = none →
        answers (.backward st m) true 0xFFFF Status.forgeRetentionExpired same ∧
        answers (.backwardAndRelease st m) true 0xFFFF Status.forgeRetentionExpired same ∧
        answers (.forgeRelease st m) true 0xFFFF Status.forgeRetentionExpired same) ∧
      ∀ (e : Fin 64) (r : Retention), s.dev.retained y handle = some (e, r) →
        (op = 2 → s.dev.retentionHeld y e = false → answers (.forgeRelease st m) true (Device.handleOf e r) Status.done fun u =>
          (u.dev.forge y).ret[e] = { Reset.retention with gen := (r.gen + 1) % 1023 } ∧
            ∀ v, v ≠ e → (u.dev.forge y).ret[v] = (s.dev.forge y).ret[v]) ∧
        ∀ t : Template, (s.dev.forge y).tpl[r.tslot] = some t →
          let tbl := (s.dev.readTable st sl (dfield x 2 32 32) 9).2
          let g : Source := (tbl[0]?).getD (Vector.replicate 4 0)
          let q := { s.dev.newReq st true x with
            tslot := r.tslot, table := tbl, entry := some e, problems := List.replicate r.nprob ForgeReq.freshProblem }
          let booked := decide (dfield x 0 53 1 = 0)
          op ≠ 2 → s.dev.clean (s.dev.slotAt st sl (dfield x 2 32 32)) 288 → t.n ≤ g.len → g.formatOk = true →
          (∀ i ∈ (tbl.drop 1).take t.nsrc, i.enabled = false) → dfield x 3 0 48 = 0 → (booked = true → fits t q) →
          s.dev.sourceMapped st sl g ((r.nprob - 1) * g.pstride + g.len) = true → s.dev.now.toNat < dfield x 1 0 48 →
          (op = 0 → admits (.backward st m) true booked r.tslot (some e) r.nprob) ∧
          (op = 1 → admits (.backwardAndRelease st m) true booked r.tslot (some e) r.nprob))

/-- What happens in a Forge between submission and commit (R430, R437, R440, R442, R447 to R450): a hearth takes problems, and
ends one as the solver leaves it, or where some l lies above its u; the last one, a missed deadline or an abort commits the
request with its notice; retention expires; template slots load and unload. Model choices: the formulas, the cold point and
the certificate's direction of log 62; a failed assembly's header and the oldest overdue request of log 64; one code for every
failed check of a template, log 60. -/
def Obligations.ForgeEvents : Prop :=
  ∀ (y : Yard) (s : State),
    let f := s.dev.forge y
    let page := Page.forge y
    let others := fun (u : State) => ∀ z, z ≠ y → u.dev.forges[z] = s.dev.forges[z]
    let commits := fun (i : Nat) (q : ForgeReq) (u : State) => others u ∧ (u.dev.forge y).reqs = f.reqs.eraseIdx i ∧
      (u.dev.mbx q.stall q.mbx).msgs.length = (s.dev.mbx q.stall q.mbx).msgs.length + 1
    (∀ (h : Fin 4) (i k : Nat) (q : ForgeReq), s.dev.onHearth y h = none → s.dev.nextRequest y = some (i, q) →
      f.tpl[q.tslot] ≠ none → (q.problems.findIdx? fun p => p.phase = .ready) = some k → Completes (.problemStart y h) s fun u =>
        others u ∧ s.sameMemory u ∧
        ∃ p : Problem, (u.dev.forge y).reqs = f.reqs.set i { q with problems := q.problems.set k p } ∧ p.phase = .running h) ∧
    (∀ (h : Fin 4) (i k : Nat) (q : ForgeReq) (t : Template) (p : Problem) (r : ForgeResult),
      s.dev.onHearth y h = some (i, k) → f.reqs[i]? = some q → q.problems[k]? = some p → f.tpl[q.tslot] = some t →
      s.dev.now.toNat ≤ q.deadline.toNat → q.back = false → q.entry = none → p.code = 0 → r.offline = false →
      let a := q.outDpa + k * t.stride + 64
      let o := Device.solved t q p r
      let ended := fun (code : Code) (u : State) =>
        ((∃ j, j ≠ k ∧ ∃ o : Problem, q.problems[j]? = some o ∧ o.phase ≠ .ended) → others u ∧ ∃ p' : Problem,
          (u.dev.forge y).reqs = f.reqs.set i { q with problems := q.problems.set k p' } ∧ p'.phase = .ended ∧
          p'.code = code) ∧
        ((∀ j, j ≠ k → ∀ o : Problem, q.problems[j]? = some o → o.phase = .ended ∧ o.code = Status.done) → commits i q u ∧
          s.noticed q.stall q.mbx (q.ntag * 2 ^ 56 + 0xFFFF * 2 ^ 32 +
            (if code ≠ Status.done then code else if q.booked then Status.done else Status.unbookedDone).toNat) u)
      s.dev.soundRange (a - 64) 64 → s.dev.soundRange a (8 * (t.n + t.m)) → a + 8 * (t.n + t.m) ≤ loftBase →
      s.dev.tally.armed = false →
      (t.crossed p.vals = true → Completes (.problemEnd y h r) s fun u => ended Status.forgeInfeasible u ∧
        ∀ b, b < a - 64 ∨ a ≤ b → u.dev.rdByte b = s.dev.rdByte b) ∧
      (t.crossed p.vals = false → Completes (.problemEnd y h r) s fun u => ended o.code u ∧
        u.dev.rdBytes a (8 * (t.n + t.m)) = doubles (if o.code = Status.forgeNumeric then List.replicate (t.n + t.m) nan64
          else fit64 t.n o.point.x ++ (t.ys p.vals o.point).map canon64) ∧
        ∀ b, b < a - 64 ∨ a + 8 * (t.n + t.m) ≤ b → u.dev.rdByte b = s.dev.rdByte b)) ∧
    (∀ (i : Nat) (q : ForgeReq) (stops : List ForgeStop), (f.reqs.findIdx? fun q => decide (q.deadline.toNat < s.dev.now.toNat)) = some i →
      f.reqs[i]? = some q → f.tpl[q.tslot] ≠ none →
      (s.dev.atStep3 = true → ∃ (z : Yard) (o : ForgeReq), o ∈ (if z = y then f.reqs.eraseIdx i else (s.dev.forge z).reqs) ∧
        o.deadline.toNat < s.dev.now.toNat) → Completes (.forgeDeadlineMiss y stops) s fun u =>
        commits i q u ∧ flag (u.dev.preg page 0x028) 2 = true) ∧
    (∀ e : Fin 64, f.ret[e].used = true → f.ret[e].committed = true → f.ret[e].lastFrame.toNat < s.dev.now.toNat →
      s.dev.retentionHeld y e = false → f.ret[e].releaseDue = false → f.ret[e].expired = false →
      (s.dev.atStep3 = true → ∃ (z : Yard) (o : ForgeReq), o ∈ (s.dev.forge z).reqs ∧ o.deadline.toNat < s.dev.now.toNat) →
      Completes (.retentionExpiry y e) s fun u =>
        others u ∧ (u.dev.forge y).ret[e] = { Reset.retention with gen := (f.ret[e].gen + 1) % 1023 } ∧
        (∀ v, v ≠ e → (u.dev.forge y).ret[v] = f.ret[v]) ∧ flag (u.dev.preg page 0x028) 4 = true ∧ s.sameMemory u) ∧
    (∀ (who : Requester) (v : W32), s.dev.serving = true →
      let sl : Slot := if flag v 8 then .paddock else .primary
      let mine := fun q : ForgeReq => q.stall.val = field v 16 9 ∧ q.slot = sl ∧ q.ntag = field v 0 8
      (∀ stops, (∀ q ∈ f.reqs, ¬ mine q) → Completes (.forgeAbort who y v stops) s fun u =>
        others u ∧ (u.dev.forge y).abortRes = Status.abortTooLate ∧ (u.dev.forge y).reqs = f.reqs ∧ s.sameMemory u) ∧
      (∀ (i : Nat) (q : ForgeReq) (stops : List ForgeStop), f.reqs[i]? = some q → mine q → (∀ o ∈ f.reqs.take i, ¬ mine o) →
        f.tpl[q.tslot] ≠ none → Completes (.forgeAbort who y v stops) s fun u =>
          commits i q u ∧ (u.dev.forge y).abortRes = Status.aborted) ∧
      let t : Fin 16 := Fin.ofNat 16 (field v 0 4)
      let p := (s.dev.preg page 0x118).toNat + s.dev.pfield page 0x11C 0 16 * 2 ^ 32
      (field v 16 2 = 1 → s.dev.templateUsed y t = false → Completes (.tplCmdLoad who y v) s fun u =>
        s.onlyTo u { s.dev with forges := u.dev.forges } ∧ others u ∧ u.dev.forge y = { f with loading := f.loading ++ [⟨t, p, none, s.dev.now⟩] }) ∧
      (field v 16 2 = 1 → s.dev.templateUsed y t = true → Completes (.tplCmdLoad who y v) s fun u =>
        others u ∧ u.dev.forge y = { f with tplResult := Status.forgeTemplateInvalid }) ∧
      (field v 16 2 = 2 → s.dev.templateUsed y t = false → Completes (.tplCmdUnload who y v) s fun u =>
        others u ∧ u.dev.forge y = { f with tpl := f.tpl.set t none, tplResult := Status.done }) ∧
      (field v 16 2 = 2 → s.dev.templateUsed y t = true → Completes (.tplCmdUnload who y v) s fun u =>
        others u ∧ u.dev.forge y = { f with tplResult := Status.forgeTemplateInvalid })) ∧
    ∀ (l : TplLoad) (rest : List TplLoad), f.loading = l :: rest →
      let got := ((s.dev.modForge y fun f => { f with loading := rest }).readTemplate l.dpa).2
      Completes (.tplLoadDone y) s fun u => others u ∧ (u.dev.forge y).loading = rest ∧ (u.dev.forge y).reqs = f.reqs ∧
        (∀ x, got = .inr x → s.dev.templateUsed y l.slot = false →
          (u.dev.forge y).tpl = f.tpl.set l.slot (some x) ∧ (u.dev.forge y).tplResult = Status.done) ∧
        (∀ c, s.dev.templateUsed y l.slot = false → got = .inl c →
          (u.dev.forge y).tpl = f.tpl ∧ (u.dev.forge y).tplResult = c) ∧
        (s.dev.templateUsed y l.slot = true →
          (u.dev.forge y).tpl = f.tpl ∧ (u.dev.forge y).tplResult = Status.forgeTemplateInvalid)

/-! ### Frames, the tick unit and context switches -/

/-- A frame boundary counts the frame, and UPTIME the reference cycles of 6.4 ns that have passed in the frame that ends, which
lasts 10.24 µs, but for an ALIGNED follower's correction and a step frame (R43, R46, R49, R57, R61, R85); where it waits at
step 3 a Forge request has missed its deadline or a retention entry has had its last frame, and where it waits at step 6 a
transaction is due or times out. In OFF and without a reference
clock it has no effect. Model choices: the stops at steps 3 and 6, and no effect while the last boundary waits (log 7). -/
def Obligations.FrameBoundary : Prop :=
  ∀ (env : BoundaryInput) (s : State),
    (s.dev.boot.state ≠ .off → s.dev.tick.refLost = false → s.dev.inBoundary = false → Completes (.frameBoundary env) s fun t =>
      t.dev.ctr.frame = s.dev.ctr.frame + 1 ∧
      let k := s.dev.tick
      let len := if k.inStep = true then k.stepLen
        else if s.dev.tickRole = 2 ∧ k.state = .aligned then (10240000 + 400 * k.correction).toNat else 10240000
      t.dev.ctr.uptime.toNat = (s.dev.ctr.uptime.toNat + (s.dev.ctr.phase + len) / 6400) % 2 ^ 64 ∧
      t.dev.ctr.phase = (s.dev.ctr.phase + len) % 6400 ∧ t.dev.tick.lastLen = len ∧ t.dev.tick.correction = 0 ∧
      s.sameOutside t ∧ (t.dev.atStep3 = true → t.dev.anyMiss = true ∧ t.dev.env = env) ∧
      (t.dev.atStep6 = true → t.dev.anyDue = true ∧ t.dev.env = env)) ∧
    ((s.dev.atStep3 = true → s.dev.anyMiss = true) → (s.dev.atStep6 = true → s.dev.anyDue = true) →
      s.dev.boot.state = .off ∨ s.dev.tick.refLost = true ∨ s.dev.inBoundary = true → exec (.frameBoundary env) s = .next s)

/-- The tick unit (R53, R57 to R70, R87): what a marker from UPSTREAM does in each state, HOLDOVER, ACQUIRE and its end, the
step, LOAD, and the counters' reads, while the FRAME page is served. Model choices: the upper step for a correction half-way
between two (log 92); UPSTREAM is lost after two boundaries, error runs count at markers, and ACQUIRE ends a step frame (log
70). -/
def Obligations.TickRules : Prop :=
  ∀ (s : State),
    let k := s.dev.tick
    let only := fun (t : State) => s.onlyTo t { s.dev with tick := t.dev.tick }
    let holds := fun (t : State) => t.dev.tick.state = .holdover ∧ t.dev.tick.holdoverFrames = 0 ∧ t.dev.tick.flag = true ∧
      t.dev.tick.correction = 0 ∧ flag (t.dev.preg Page.frame 0x028) 1 = true ∧ t.dev.ctr = s.dev.ctr ∧ s.sameMemory t
    (∀ (p : PortId) (h : FlitHeader) (m : TickMarker) (arrival : Int), s.hears p h 0 → s.dev.tickRole = 2 → p = s.dev.upstream →
      let e := s.dev.trackingError p m arrival
      ((m.holdover = false ∧ m.step = false) ∨ s.dev.ports[p].has 2 = true) →
      let tells := fun (f : TickUnit → Prop) => Completes (.tick p h m arrival) s fun t => f t.dev.tick ∧ t.dev.ctr = s.dev.ctr ∧
        t.dev.stalls = s.dev.stalls ∧ s.sameMemory t
      (k.state = .free ∨ k.state = .holdover → tells fun u => u = { k with ignored := k.ignored + 1 }) ∧
      (k.state = .acquiring → k.inStep = false → ∀ l e', k.last = some (l, e') →
        (k.validRun ≠ 0 → m.frame = l.frame + 1 → tells fun u => u.validRun = k.validRun + 1 ∧ u.stepReq = true ∧
          u.last = some (m, e) ∧ u.lastAge = 0) ∧
        (m.frame ≠ l.frame + 1 → tells fun u => u.validRun = 1 ∧ u.stepReq = k.stepReq ∧ u.last = some (m, e))) ∧
      (k.state = .aligned → m.step = true → s.dev.idleToStep = true → tells fun u => u.state = .aligned ∧ u.stepReq = true ∧
        u.last = some (m, e) ∧ u.lastAge = 0) ∧
      (k.state = .aligned → m.step = true → s.dev.idleToStep = false → tells fun u => u.state = .holdover ∧
        u.holdoverFrames = 0 ∧ u.flag = true ∧ u.correction = 0 ∧ u.inStep = false) ∧
      (k.state = .aligned → k.inStep = false → m.step = false → tells fun u => u.state = .aligned ∧ u.phaseErr = e ∧
        u.correction = Device.correctionOf e ∧ u.lastAge = 0 ∧ u.hopDepth = m.hopDepth + 1 ∧
        u.errRun = if 40000 < e.natAbs then k.errRun + 1 else 0)) ∧
    (s.dev.tickRole = 2 → k.state = .aligned → k.inStep = false → 2 ≤ k.lastAge → Completes .upstreamLossHoldover s holds) ∧
    (s.dev.tickRole = 2 → k.state = .aligned → 4 ≤ k.errRun → Completes .trackingErrorHoldover s holds) ∧
    (∀ who, s.dev.served = true →
      (s.dev.tickRole = 2 → s.dev.idleToStep = true → Completes (.acquire who) s fun t => only t ∧
        t.dev.tick.state = .acquiring ∧ t.dev.tick.validRun = 0 ∧ t.dev.tick.acquireAge = 0 ∧ t.dev.tick.correction = 0 ∧
        t.dev.tick.inStep = false ∧ t.dev.tick.stepReq = false ∧ t.dev.tick.stepDue = false ∧
        (k.state ≠ .acquiring → t.dev.tick.origin = k.state)) ∧
      (s.dev.tickRole ≠ 2 → Completes (.acquire who) s fun t => t.dev.tick = { k with result := Status.stateInvalid }) ∧
      (s.dev.tickRole = 2 → s.dev.idleToStep = false → Completes (.acquire who) s fun t =>
        t.dev.tick = { k with result := Status.tickAcquireBusy }) ∧
      (s.dev.tickRole ≠ 2 → s.dev.idleToStep = true → Completes (.tickLoad who) s fun t =>
        t.dev.tick = { k with loadReq := true, result := Status.done } ∧ t.dev.ctr = s.dev.ctr) ∧
      (s.dev.tickRole ≠ 2 → s.dev.idleToStep = false → Completes (.tickLoad who) s fun t =>
        t.dev.tick = { k with result := Status.tickAcquireBusy }) ∧
      (s.dev.tickRole = 2 → Completes (.tickLoad who) s fun t => t.dev.tick = { k with result := Status.stateInvalid })) ∧
    (∀ m e, k.stepDue = true → k.last = some (m, e) → Completes .tickStep s fun t =>
      t.dev.now = m.frame + BitVec.ofInt 48 (Device.stepFrames (e - k.lastLen)) - 1 ∧ t.dev.tick.inStep = true ∧
      (t.dev.tick.stepLen : Int) = e - k.lastLen + 10240000 * Device.stepFrames (e - k.lastLen) ∧
      t.dev.tick.stepDue = false ∧ t.dev.ctr.uptime = s.dev.ctr.uptime) ∧
    (k.state = .acquiring → k.inStep = false → k.stepDue = false → 8 ≤ k.acquireAge → Completes .acquireTimeout s fun t =>
      t.dev.tick.state = k.origin ∧ t.dev.tick.result = Status.tickLost ∧ t.dev.ctr = s.dev.ctr) ∧
    (k.loadDue = true → Completes .tickLoadApply s fun t =>
      t.dev.now = BitVec.ofNat 48 ((s.dev.preg Page.frame 0x118).toNat + s.dev.pfield Page.frame 0x11C 0 16 * 2 ^ 32) ∧
      t.dev.tick.loadDue = false ∧ t.dev.tick.stepSent = true ∧ t.dev.ctr.uptime = s.dev.ctr.uptime) ∧
    (∀ (who : Requester) (r : CounterReg), s.dev.served = false → Completes (.frameNowLoRead who r) s fun t =>
      s.onlyTo t { s.dev with out := t.dev.out } ∧ t.dev.out = { s.dev.out with read := 0 }) ∧
    (∀ who : Requester, s.dev.served = true →
      (Completes (.frameNowLoRead who .frameNow) s fun t => s.onlyTo t { s.dev with ctr := t.dev.ctr, out := t.dev.out } ∧
        t.dev.out.read = s.dev.now.setWidth 32 ∧ t.dev.ctr.frame = s.dev.now ∧
        t.dev.ctr.frameLatch[who.idx] = BitVec.ofNat 16 (field s.dev.now 32 16)) ∧
      (Completes (.frameNowLoRead who .uptime) s fun t => s.onlyTo t { s.dev with ctr := t.dev.ctr, out := t.dev.out } ∧
        t.dev.out.read = s.dev.ctr.uptime.setWidth 32 ∧ t.dev.ctr.frame = s.dev.now ∧
        t.dev.ctr.uptimeLatch[who.idx] = BitVec.ofNat 32 (field s.dev.ctr.uptime 32 32)) ∧
      ∀ v, Completes (.fwKick who v) s fun t => s.onlyTo t { s.dev with ctr := t.dev.ctr } ∧
        t.dev.ctr = { s.dev.ctr with kickAge := 0 })

/-- The causes of SAFE that a clock, a watchdog and the bridge give (R27, R53, R84, R541): the device goes to SAFE with its
cause; a cause that comes later changes neither state nor cause (R469). STALL_WATCHDOG halts one slot instead (R83), and a
bridge transfer that is only retried counts (R27). Model choice: a STALL_WATCHDOG that has come due halts the slot that is
resident when it is sent (log 72). -/
def Obligations.SafeEntry : Prop :=
  ∀ (s : State),
    let stays := fun (c : Instr) => s.dev.boot.state = .safe → Completes c s fun t =>
      t.dev.boot.state = .safe ∧ t.dev.boot.safeCause = s.dev.boot.safeCause
    (s.alive → Completes .refClockLost s fun t => t.dev.tick.refLost = true ∧ s.wentSafe Status.tickLost t) ∧
    stays .refClockLost ∧
    (s.alive → s.dev.boot.fwRunning = true → s.dev.fwLimit < s.dev.ctr.kickAge →
      Completes .fwWatchdogExpiry s fun t => flag (t.dev.preg Page.frame 0x028) 4 = true ∧ s.wentSafe Status.frameWatchdog t) ∧
    (∀ y : Yard, (s.alive → Completes (.bridgeFail y) s (s.wentSafe Status.bridgeFail)) ∧ stays (.bridgeFail y) ∧
      (s.dev.boot.state ≠ .off → (s.dev.preg (Page.yard y) 0x120).toNat + 1 < 2 ^ 32 → Completes (.bridgeRetry y) s fun t =>
        s.onlyTo t { s.dev with regs := t.dev.regs } ∧
        (t.dev.preg (Page.yard y) 0x120).toNat = (s.dev.preg (Page.yard y) 0x120).toNat + 1)) ∧
    ∀ st : StallId, (s.dev.stall st).watchdogDue = true → Completes (.stallWatchdog st) s fun t =>
      t.dev.cur st = { s.dev.cur st with running := false, hold := none, vq := [] } ∧ (t.dev.stall st).watchdogDue = false ∧
      (t.dev.stall st).haltReason = BitVec.ofNat 64 (s.dev.now.toNat * 2 ^ 16 + 0x300) ∧
      flag (t.dev.preg (Page.stall st) 0x028) 1 = true ∧ flag (t.dev.preg Page.frame 0x028) 4 = true ∧
      t.dev.boot = s.dev.boot ∧ s.sameMemory t ∧ ∀ u, u ≠ st → t.dev.stall u = s.dev.stall u

/-- A scheduled switch stops the outgoing slot, whose waiting FWAIT, SEND or RECV will issue again (R125), and moves the images:
the outgoing one to the loft, the incoming one into the vector registers and the weight halves; when the swap engine is done
the incoming slot runs (R124, and log 73 for when in the switch the bytes move). Parking moves the slot's whole partition by
a booked barrow descriptor of gate firmware, where it fits (R127, log 73). -/
def Obligations.ContextSwitch : Prop :=
  ∀ (st : StallId) (s : State),
    (∀ (target : Slot) (f : Frame) (n : Nat), (s.dev.stall st).switchTo = some (target, f) → s.dev.inBoundary = false →
      (∀ r ∈ (s.dev.cur st).mrun, r.inPass = false) → (s.dev.cur st).vq = [] → (s.dev.stall st).vBad = [] →
      target ≠ s.dev.slotOf st →
      let a := s.dev.imageAt st (s.dev.slotOf st)
      let b := s.dev.imageAt st target
      a + 49152 ≤ b ∨ b + 49152 ≤ a → s.dev.clean a 49152 → s.dev.clean b 49152 → s.dev.tally.armed = false →
      Completes (.contextSwitchStart st n) s fun t => s.sameOutside t ∧ (∀ u, u ≠ st → t.dev.stall u = s.dev.stall u) ∧
        (t.dev.stall st).switching = some target ∧ (t.dev.stall st).switchTo = none ∧ (t.dev.stall st).switchReq = false ∧
        (t.dev.stall st).slot = (s.dev.stall st).slot ∧ t.dev.ctx st target = s.dev.ctx st target ∧
        t.dev.cur st = { s.dev.cur st with
          hold := match (s.dev.cur st).hold with
            | some (.fwait _) | some (.send _ _) | some (.recv _ _ _) => none
            | h => h } ∧
        (∀ r : VReg, t.dev.vreg st r = BitVec.ofNat 4096 (leNat (s.dev.rdBytes (b + r.val * 512) 512))) ∧
        (∀ (m : Fin 4) (h : Fin 2) (j : Fin 64), ((t.dev.stall st).mgr[m]).half[h][s.dev.lane st m j] =
          BitVec.ofNat 512 (leNat (s.dev.rdBytes (b + 16384 + (m.val * 2 + h.val) * 4096 + j.val * 64) 64))) ∧
        (∀ i, i < 49152 → t.dev.rdByte (a + i) = ((s.dev.imageBytes st)[i]?).getD 0) ∧
        ∀ p, p < a ∨ a + 49152 ≤ p → t.dev.rdByte p = s.dev.rdByte p) ∧
    (∀ target : Slot, (s.dev.stall st).switching = some target → (s.dev.ctx st target).vq = [] →
      Completes (.contextSwitchDone st) s fun t => s.sameButStall st t ∧
        t.dev.stall st = { (s.dev.stall st).setCtx target { s.dev.ctx st target with ran := true } with
          slot := target, switching := none, fillAge := 0
          recalled := (s.dev.stall st).recalled && decide (target = .paddock) }) ∧
    ∀ (sl : Slot) (dir : ParkDir) (dpa : BitVec 48),
      let l := (s.dev.stall st).barrow
      let y := s.dev.yardAt dpa.toNat
      let n := s.dev.partBytes st sl
      let x := s.dev.inService y * Device.maxOf (s.dev.charges [(dpa.toNat, n)])
      let share := s.dev.share st y
      (s.dev.mayPark st sl dpa.toNat = true → x ≤ 64 * share → Completes (.parkContext st sl dir dpa) s fun t =>
        s.sameButStall st t ∧ ∃ j : BarrowJob,
          t.dev.stall st = { s.dev.stall st with
            barrow := l.filter (·.accepted) ++ j :: l.filter (fun k => !k.accepted) } ∧
          j.slot = sl ∧ j.firmware = true ∧ j.accepted = true ∧ j.booked = true ∧ j.put = decide (dir = .park) ∧
          dfield j.desc 1 32 32 = n % 2 ^ 32 ∧ dfield j.desc 2 0 48 = dpa.toNat ∧ j.accept = s.dev.now ∧
          j.promise = s.dev.now + BitVec.ofNat 48 (2 + ceilDiv x share)) ∧
      (s.dev.mayPark st sl dpa.toNat = true → 64 * share < x → Completes (.parkContext st sl dir dpa) s fun t =>
        t.dev.stalls = s.dev.stalls ∧ s.sameMemory t) ∧
      (s.dev.mayPark st sl dpa.toNat = false → exec (.parkContext st sl dir dpa) s = .next s)

/-- The memory controllers' own events (R304, R311, R313, R314, R329): a reading, one in 64 frames, gives the level of the next
boundary by the entry thresholds with 5 °C of hysteresis; the boundary applies it, level 3 takes the channel offline; a refresh
and the end of UE_WINDOW count; a channel in self-refresh takes no refresh. -/
def Obligations.MemoryController : Prop :=
  ∀ (c : Chan) (s : State),
    let m := s.dev.mc[c]
    let becomes := fun (i : Instr) (m' : MemCtl) => Completes i s fun t => s.onlyTo t { s.dev with mc := s.dev.mc.set c m' }
    (∀ code temp : BitVec 8, m.age < 64 → exec (.mcTempRead c code temp) s = .next s) ∧
    (∀ code temp : BitVec 8, m.state = .inService ∨ m.state = .offline → s.dev.serving = true → 64 ≤ m.age →
      let l := Device.heatLevel m.level temp.toInt
      becomes (.mcTempRead c code temp) { m with
        code := code, temp := temp, age := 0, next := if l = m.level then none else some l, due := m.due && decide (l ≠ m.level) }) ∧
    (∀ t : Int, Device.heatLevel 0 t = (if 105 < t then 3 else if 95 < t then 2 else if 85 < t then 1 else 0) ∧
      (80 < t → t ≤ 85 → Device.heatLevel 1 t = 1) ∧ (t ≤ 80 → Device.heatLevel 1 t = 0)) ∧
    (∀ l, m.next = some l → m.due = true → Completes (.thermalLevelChange c) s fun t =>
      t.dev.mc = s.dev.mc.set c
        { m with level := l, next := none, due := false, state := if l = 3 then .offline else m.state } ∧
      flag (t.dev.preg (Page.memctl c) 0x028) 1 = true ∧ s.sameMemory t) ∧
    (∀ bank, m.state = .inService → s.dev.boot.state ≠ .safe →
      becomes (.refresh c bank) { m with refreshes := m.refreshes + 1 }) ∧
    (∀ bank, s.dev.boot.state = .safe ∨ m.state = .offline → exec (.refresh c bank) s = .next s) ∧
    ((s.dev.preg (Page.memctl c) 0x10C).toNat ≤ m.winAge → becomes (.ueWindowEnd c) { m with ueW := 0, winAge := 0 })

/-! ### Torus ports -/

/-- Bring-up (R333, R353 to R360, R368): the host's BRINGUP starts lane training, training takes the first configuration that
both sides reach and sends HELLO, the HELLOs fix version, features and credits, sixteen echoes the round trip; without
identity the link comes up, with it the answer to the challenge decides; a phase that runs out ends ABSENT or HOSTILE. Model choices: BRINGUP in any
other state is STATE_INVALID (log 47); PORT_ABSENT for a phase that runs out, and the order of a HELLO's checks (log 48). -/
def Obligations.PortBringup : Prop :=
  ∀ (p : PortId) (s : State),
    let q := s.dev.ports[p]
    let page := Page.port p
    let others := fun (t : State) => s.sameMemory t ∧ t.dev.stalls = s.dev.stalls ∧ ∀ r, r ≠ p → t.dev.ports[r] = s.dev.ports[r]
    let changes := fun (c : Instr) (f : Port → Prop) => Completes c s fun t => others t ∧ f t.dev.ports[p]
    let queues := fun (u : Port) (ctl : Nat) => ∃ w ∈ vget u.queue 0 [], w.ftype = 2 ∧ w.tag = BitVec.ofNat 20 (ctl * 4096)
    let comesUp := fun (u : Port) => u.state = (if q.width = 16 ∧ q.rateFb = false then PortState.up else PortState.slow) ∧
      u.result = Status.done ∧ ∀ v, 0 < v → v < 6 → vget u.held v 0 = vget q.adv v 0
    (s.dev.serving = true →
      (q.state = .down ∨ q.state = .absent ∨ q.state = .faulty → Completes (.bringup .host p) s fun t =>
        others t ∧ t.dev.ports[p].state = .training ∧ t.dev.ports[p].result = q.result ∧
        t.dev.ports[p].ctl = s.dev.preg page 0x100 ∧ flag (t.dev.preg page 0x028) 1 = true) ∧
      (q.linked = true ∨ q.rising = true ∨ q.state = .hostile →
        changes (.bringup .host p) fun u => u = { q with result := Status.stateInvalid }) ∧
      (∀ who, q.rising = true → changes (.portDown who p) fun u => u.state = .down ∧ u.result = Status.aborted) ∧
      (∀ who, q.linked = true → Completes (.portDown who p) s fun t =>
        t.dev.ports[p].state = .down ∧ t.dev.ports[p].left = some 0)) ∧
    (∀ r : TrainResult, q.state = .training → q.left = none →
      let fits := Device.configure q.ctl r
      (fits = none → changes (.trainingDone p r) fun u => u.state = .absent ∧ u.result = Status.portAbsent) ∧
      (∀ n slow tx rx, fits = some (n, slow, tx, rx) → changes (.trainingDone p r) fun u => u.state = .negotiating ∧
        u.width = BitVec.ofNat 5 n ∧ u.rateFb = slow ∧ u.tx = tx ∧ u.rx = rx ∧ queues u 1) ∧
      (field q.ctl 8 2 = 0 → flag r.partner 0 = true → 16 ≤ lanes r.txFast → 16 ≤ lanes r.rxFast →
        changes (.trainingDone p r) fun u => u.width = 16 ∧ u.rateFb = false)) ∧
    (q.state = .training ∨ q.state = .negotiating → changes (.phaseTimeout p) fun u =>
      u.state = .absent ∧ u.result = Status.portAbsent) ∧
    (q.state = .identifying → changes (.phaseTimeout p) fun u => u.state = .hostile ∧ u.fenceDetail = 1) ∧
    (∀ h : FlitHeader, s.hears p h 0 →
      (∀ e : Hello, q.state = .negotiating → e.lanes = q.width → e.slowRate = q.rateFb →
        (e.verMin.toNat ≤ 0x0201 → 0x0100 ≤ e.verMax.toNat → e.verMin.toNat ≤ e.verMax.toNat → e.port.toNat / 2 = p.val / 2 →
          e.port.toNat ≠ p.val → q.partner = none → changes (.hello p h e) fun u =>
            u.partner = some e ∧ u.version = BitVec.ofNat 16 (min e.verMax.toNat 0x0201) ∧ u.state = .negotiating ∧
            u.features = e.features &&& 0x1F &&& Device.featureMask u.version ∧ queues u 2 ∧
            ∀ v, 0 < v → v < 6 → vget u.adv v 0 = (e.credAdv[v]?).getD 0) ∧
        (e.verMin.toNat ≤ 0x0201 → 0x0100 ≤ e.verMax.toNat → e.verMin.toNat ≤ e.verMax.toNat →
          e.port.toNat / 2 ≠ p.val / 2 ∨ e.port.toNat = p.val → changes (.hello p h e) fun u =>
            u.faultDue = some 4 ∧ u.state = q.state) ∧
        (0x0201 < e.verMin.toNat ∨ e.verMax.toNat < 0x0100 → changes (.hello p h e) fun u =>
          u.state = .down ∧ u.result = Status.portNoCommonVersion)) ∧
      (∀ e : Hello, q.state = .negotiating → e.lanes ≠ q.width ∨ e.slowRate ≠ q.rateFb → changes (.hello p h e) fun u =>
        if q.retrained then u.state = .absent ∧ u.result = Status.portAbsent
        else u.state = .training ∧ u.retrained = true ∧ u.ctl = q.ctl) ∧
      (∀ id : W32, changes (.echoReq p h id) fun u => ∃ w ∈ vget u.queue 0 [], w.tag = 0x03000 ∧ w.payload.take 4 = leBytes 4 id.toNat) ∧
      (∀ (turn : W32) (ps : Nat), q.echoes.length < 16 → q.partner ≠ none → changes (.echoRsp p h q.echoId turn ps) fun u =>
        u.echoes = q.echoes ++ [ps - Device.turnPs q turn] ∧
        (q.echoes.length = 15 → u.rtt = Device.median u.echoes) ∧ (q.echoes.length < 15 → queues u 2)) ∧
      (q.has 3 = true →
        (∀ n, s.dev.trust.idkValid = true → Completes (.challenge p h n) s fun t =>
          others t ∧ t.dev.trust.jobs = s.dev.trust.jobs ++ [.link p n]) ∧
        (∀ part data i, part < 72 → q.identity = some i → changes (.signature p h part data) fun u =>
          u.identity = some { i with
            parts := mapInsert i.parts part data
            listed := if i.parts.length = 71 ∧ (mapInsert i.parts part data).length = 72 then
                s.dev.boot.allow.contains (Trust.digest ((Device.answer { i with parts := mapInsert i.parts part data }).take 32))
              else i.listed }))) ∧
    (∀ e : Hello, q.state = .negotiating → q.partner = some e → q.echoes.length = 16 → Device.helloAcked q = true →
      (s.dev.trust.identReq = false → e.ident = false → changes (.negotiationDone p) comesUp) ∧
      (s.dev.trust.identReq = true ∨ e.ident = true → q.has 3 = true → changes (.negotiationDone p) fun u =>
        u.state = .identifying ∧ queues u 4 ∧ ∃ i, u.identity = some i ∧ i.required = s.dev.trust.identReq) ∧
      (s.dev.trust.identReq = true ∨ e.ident = true → q.has 3 = false → changes (.negotiationDone p) fun u =>
        u.state = .hostile ∧ u.fenceDetail = 1)) ∧
    ∀ (e : Hello) (i : Identity), q.state = .identifying → q.partner = some e → q.identity = some i →
      (i.required = false → changes (.identityDone p) comesUp) ∧
      (i.required = true → i.parts.length = 72 → s.dev.identityHolds p i e = true → changes (.identityDone p) comesUp) ∧
      (i.required = true → i.parts.length = 72 → s.dev.identityHolds p i e = false → changes (.identityDone p) fun u =>
        u.state = .hostile ∧ u.fenceDetail = 1)

/-- Flits (R334 to R337, R341, R345 to R352, R368 to R372, R381): an accepted flit moves EXPECT, ACK and its buffer; a gap asks
for replays; a NAK marks its flit, CREDIT adds credits up to what was advertised; payload lands in memory; an illegal TYPE or
control type makes the port HOSTILE; a slot sends the oldest VC0 flit first and IDLE where nothing waits, on the next active
lane; a lost link gives its credits back. Model choices: a buffer's credit is owed at once (log 45), and a port with lanes
that does not talk sends bare IDLE (log 47). -/
def Obligations.PortFlits : Prop :=
  ∀ (p : PortId) (h : FlitHeader) (s : State),
    let q := s.dev.ports[p]
    let page := Page.port p
    let only := fun (t : State) => s.onlyTo t { s.dev with ports := t.dev.ports } ∧ ∀ r, r ≠ p → t.dev.ports[r] = s.dev.ports[r]
    let took := fun (v : Nat) (u : Port) => u.expect = q.expect + 1 ∧ u.ack = h.seq ∧ vget u.owed v 0 = vget q.owed v 0 + 1 ∧
      vget u.granted v 0 + 1 = vget q.granted v 0
    (s.hears p h 0 →
      (Completes (.keepalive p h) s fun t => only t ∧ took 0 t.dev.ports[p] ∧ t.dev.ports[p].heard = true) ∧
      (∀ (v : BitVec 3) (n : Nat), v.toNat < 6 → 0 < n →
        (vget q.held v.toNat 0 + n + q.outstanding v.toNat ≤ vget q.adv v.toNat 0 → Completes (.credit p h [(v, n)]) s fun t =>
          only t ∧ took 0 t.dev.ports[p] ∧ vget t.dev.ports[p].held v.toNat 0 = vget q.held v.toNat 0 + n) ∧
        (vget q.adv v.toNat 0 < vget q.held v.toNat 0 + n → Completes (.credit p h [(v, n)]) s fun t =>
          t.dev.ports[p].state = .hostile ∧ t.dev.ports[p].fenceDetail = 2)) ∧
      (∀ x u, (q.unacked.find? fun u => u.flit.hdr.seq = x) = some u → u.replayed = false → Completes (.nak p h [x]) s fun t =>
        only t ∧ took 0 t.dev.ports[p] ∧ ∃ w ∈ t.dev.ports[p].unacked, w.flit = u.flit ∧ w.naked = true) ∧
      (∀ c, Completes (.down p h c) s fun t => t.dev.ports[p].state = .absent ∧
        (q.linked = true → t.dev.ports[p].left = some 0))) ∧
    (q.talking = true → h.ack = q.acked → h.ccount = 0 →
      (h.seq = q.expect → Completes (.idleFlit p h) s fun t => only t ∧ t.dev.ports[p].expect = q.expect ∧
        t.dev.ports[p].missing = q.missing ∧ t.dev.ports[p].granted = q.granted ∧ t.dev.ports[p].owed = q.owed) ∧
      (h.seq ≠ q.expect → behind q.expect h.seq < 2048 → Completes (.idleFlit p h) s fun t => only t ∧
        t.dev.ports[p].expect = h.seq ∧ t.dev.ports[p].missing = q.missing ++ Device.gap q.expect h.seq ∧
        ∃ w ∈ vget t.dev.ports[p].queue 0 [], w.tag = 0x20000)) ∧
    (∀ (vc : BitVec 3) (tag : BitVec 20) (bs : List Byte) (o : TeamOp), s.hears p h vc.toNat → q.linked = true → 1 ≤ vc.toNat →
      vc.toNat ≤ 4 → q.missing = [] → q.rxHeld = [] → bs.length = 240 →
      let y : Yard := Fin.ofNat 2 (p.val / 4)
      let t : Fin 64 := Fin.ofNat 64 (field tag 14 6)
      let m := s.dev.team y t
      let neg := decide (p.val % 2 = 0)
      field tag 0 10 = 0 → m.state = .active → p = s.dev.teamPort y t (!neg) → s.dev.legCrosses y t (field tag 10 4) neg = true →
      m.op = some o → o.go = true → o.stopped = false → o.land = false → (∃ g, o.inLeg m = some g ∧ g.src = field tag 10 4) → o.gotBytes < o.inBytes m →
      let n := min 240 (o.inBytes m - o.gotBytes)
      let a := dfield o.desc 2 0 48 + o.gotBytes
      s.dev.soundRange a n → s.dev.tally.armed = false → ∀ gaps, Completes (.dataFlit p h ⟨1, vc, gaps⟩ tag bs) s fun u =>
        u.dev.rdBytes a n = bs.take n ∧ (∀ b, b < a ∨ a + n ≤ b → u.dev.rdByte b = s.dev.rdByte b) ∧ took vc.toNat u.dev.ports[p] ∧
        ∃ o', (u.dev.team y t).op = some o' ∧ o'.gotBytes = o.gotBytes + n) ∧
    (∀ (k : BitVec 4) (vc : BitVec 3) (tag : BitVec 20) (bs : List Byte), q.talking = true → (k = 0 → 5 < vc.toNat) → k ≠ 1 →
      (k = 2 → vc = 0 → field tag 12 8 ∉ controlTypes) → ∀ gaps, Completes (.dataFlit p h ⟨k, vc, gaps⟩ tag bs) s fun t =>
        t.dev.ports[p].state = .hostile ∧ t.dev.ports[p].fenceDetail = 4) ∧
    (lanes q.tx.active ≠ 0 → q.state ≠ .training →
      (∀ w rest, q.talking = true → 0 < q.room → vget q.queue 0 [] = w :: rest → vget q.held 0 0 ≠ 0 →
        q.unacked.length < 2048 → q.sent0 < 256 → Completes (.flitSlot p) s fun t => ∃ f : Flit,
          t.dev.out.wire[p] = some f ∧ f.vc = 0 ∧ f.tag = w.tag ∧ f.payload = w.payload ∧ f.hdr.seq = q.nextSeq ∧
          (s.dev.tally.armed = false → t.dev.out.wireBytes[p] = Flit.image f 0) ∧
          vget t.dev.ports[p].queue 0 [] = rest ∧ t.dev.ports[p].nextSeq = q.nextSeq + 1 ∧
          vget t.dev.ports[p].held 0 0 + 1 = vget q.held 0 0) ∧
      (q.talking = true → 0 < q.room → q.unacked = [] → (∀ v, v < 6 → vget q.queue v [] = []) →
        Completes (.flitSlot p) s fun t => ∃ f : Flit, t.dev.out.wire[p] = some f ∧ f.ftype = 0 ∧
          f.payload.length = 240 ∧ t.dev.ports[p].nextSeq = q.nextSeq) ∧
      (q.talking = false → Completes (.flitSlot p) s fun t => t.dev.out.wire[p] = some q.bareIdle ∧ only { t with
        dev := { t.dev with out := s.dev.out } } ∧ t.dev.ports[p] = { q with lane := t.dev.ports[p].lane }) ∧
      (q.talking = true → 0 < q.room ∨ q.talking = false → ∃ i : Fin 17, q.nextLane = some i ∧
        flag q.tx.active i = true ∧ Completes (.flitSlot p) s fun t =>
          t.dev.out.wireLanes[p] = q.carriers i s.dev.now ∧ t.dev.ports[p].lane = i.val + 1)) ∧
    (∀ bs, crcHolds bs = true → exec (.damagedFlit ⟨p, bs⟩) s = .next s) ∧
    (∀ bs, q.talking = true → crcHolds bs = false → (s.dev.preg page 0x160).toNat + 1 < 2 ^ 32 →
      Completes (.damagedFlit ⟨p, bs⟩) s fun t => s.onlyTo t { s.dev with regs := t.dev.regs } ∧
        (t.dev.preg page 0x160).toNat = (s.dev.preg page 0x160).toNat + 1) ∧
    (q.linked = true →
      (∀ u ∈ q.unacked, u.naked = true → u.replayed = false → 2 ≤ Device.since s.dev.now u.first →
        Completes (.replayDeadline p) s fun t => only t ∧ t.dev.ports[p] = { q with faultDue := some 3 }) ∧
      (q.replayLog = [] → (s.dev.preg page 0x128).toNat < q.replaysSent → Completes (.replayLimitExceeded p) s fun t =>
        only t ∧ t.dev.ports[p] = { q with faultDue := some 2 }) ∧
      (∀ all, (all = true ∧ lanes q.rx.active = 0) ∨ q.quiet = true → Completes (.partnerLost p all) s fun t =>
        t.dev.ports[p].state = .absent ∧ t.dev.ports[p].left = some 0 ∧ t.dev.ports[p].fenceCode = Status.portAbsent)) ∧
    ∀ n, q.left = some n → 2 ≤ n → Completes (.creditReclaim p) s fun t =>
      t.dev.ports[p].left = none ∧ t.dev.ports[p].held = Vector.replicate 6 0 ∧ t.dev.ports[p].granted = Vector.replicate 6 0 ∧
      t.dev.ports[p].unacked = [] ∧ (∀ r, r ≠ p → t.dev.ports[r] = s.dev.ports[r]) ∧
      t.dev.tally.reclaimed[0] = s.dev.tally.reclaimed[0] +
        ((List.range 6).map fun v => vget q.adv v 0 + vget q.granted v 0).sum

/-- Lane sparing (R364 to R367): a receiver whose lane passes its threshold asks for a swap, the transmitter answers with the
frame two on, the maps change at that frame's boundary, unless the receiver's check of the spare fails there; a lane that loses
lock leaves its map at once, and one more with no spare to come makes the port FAULTY. Model choices: the counts of the FEC and
the check of the spare are operands, and the port is FAULTY also where the other direction is DEGRADED with no spare to come
(log 49). -/
def Obligations.LaneSparing : Prop :=
  ∀ (p : PortId) (h : FlitHeader) (lane : Fin 17) (s : State),
    let q := s.dev.ports[p]
    let changes := fun (c : Instr) (f : Port → Prop) => Completes c s fun t => s.sameMemory t ∧ t.dev.stalls = s.dev.stalls ∧
      (∀ r, r ≠ p → t.dev.ports[r] = s.dev.ports[r]) ∧ f t.dev.ports[p]
    let queues := fun (u : Port) (tag : BitVec 20) => ∃ w ∈ vget u.queue 0 [], w.tag = tag
    (s.hears p h 0 → q.has 1 = true →
      (∀ sp, q.tx.spare = some sp → q.swapTx = none → flag q.tx.active lane = true → changes (.swapReq p h lane false) fun u =>
        u.swapTx = some ⟨lane, sp, s.dev.now + 2, false⟩ ∧ u.tx = q.tx ∧ queues u 0x31000) ∧
      (∀ w, q.swapTx = some w → w.lane = lane → w.lost = false → changes (.swapReq p h lane true) fun u =>
        u.swapTx = none ∧ u.tx = { q.tx with spare := none }) ∧
      (∀ w sp f, q.swapRx = some w → w.lane = lane →
        (w.lost = false → changes (.swapAck p h lane sp f) fun u => u.swapRx = some { w with spare := sp, frame := f } ∧ u.rx = q.rx) ∧
        (w.lost = true → changes (.swapAck p h lane sp f) fun u => u.swapRx = none ∧
          u.rx = Device.swapLane q.rx { w with spare := sp, frame := f })) ∧
      (flag q.tx.active lane = true → q.swapTx = none →
        (q.tx.spare = none → changes (.laneDown p h lane) fun u =>
          u.tx = { q.tx with active := clearBit q.tx.active lane, degraded := true } ∧
          u.faultDue = if q.tx.degraded || Device.short q.rx q.swapRx then some 1 else q.faultDue) ∧
        (∀ sp, q.tx.spare = some sp → changes (.laneDown p h lane) fun u =>
          u.swapTx = some ⟨lane, sp, s.dev.now + 1, true⟩ ∧ flag u.tx.active lane = false ∧ queues u 0x31000))) ∧
    (∀ (n k : Nat) sp, q.talking = true → flag q.rx.active lane = true → q.swapRx = none → q.has 1 = true →
      q.rx.spare = some sp →
      let r : Port := { q with fec := q.fec ++ [(s.dev.now, lane, n, k)] }
      let asks := (s.dev.preg (Page.port p) 0x124).toNat < s.dev.corrected r lane ∨ 2 ≤ s.dev.codewordFrames r lane
      (asks → changes (.swapThreshold p lane n k) fun u => u.swapRx = some ⟨lane, sp, 0, false⟩ ∧ queues u 0x30000) ∧
      (¬ asks → changes (.swapThreshold p lane n k) fun u => u = r)) ∧
    (q.talking = true → s.dev.inBoundary = false →
      (∀ w c, q.swapTx = some w → w.frame ≠ 0 → w.frame.toNat ≤ s.dev.now.toNat → q.swapRx = none →
        changes (.swapFrame ⟨p, c⟩) fun u => u.tx = Device.swapLane q.tx w ∧ u.swapTx = none ∧ u.rx = q.rx) ∧
      (∀ w, q.swapRx = some w → w.lost = false → w.frame ≠ 0 → w.frame.toNat ≤ s.dev.now.toNat → q.swapTx = none →
        (changes (.swapFrame ⟨p, true⟩) fun u => u.rx = Device.swapLane q.rx w ∧ u.swapRx = none ∧ u.tx = q.tx) ∧
        (changes (.swapFrame ⟨p, false⟩) fun u => u.rx = { q.rx with spare := none } ∧ u.swapRx = none ∧ queues u 0x30000))) ∧
    (q.talking = true → flag q.rx.active lane = true →
      changes (.lockLoss p lane) fun u => u.rx = { q.rx with active := clearBit q.rx.active lane, degraded := true } ∧
        u.faultDue = (if q.rx.degraded || Device.short q.tx q.swapTx then some 1 else q.faultDue) ∧ queues u 0x32000)

/-! ### Start-up, resets and the host's memory window -/

/-- Power, the root of trust and firmware initialisation (R34, R459 to R469, R515, R517, R521 to R525): what each
command does in the state that it belongs to. -/
def Obligations.StartUp : Prop :=
  ∀ (s : State),
    let b := s.dev.boot
    let at_ := fun (x : DevState) (c : Code) (t : State) => t.dev.boot.state = x ∧ t.dev.boot.result = c
    (b.state = .off → Completes .powerGood s fun t =>
      t.dev.boot.state = .romWait ∧ t.dev.boot.window = true ∧ t.dev.boot.timer = 600000000000 ∧ t.dev.ctr.frame = 0 ∧
      t.dev.ctr.uptime = 0 ∧ t.dev.stalls = State.reset.dev.stalls ∧ t.dev.host = s.dev.host ∧ s.sameOutside t ∧
      ∀ u, u < 200 → t.dev.trust.unit u = ((fuseDecode s.array u).map (·.1)).getD 0) ∧
    (b.state ≠ .off → exec .powerGood s = .next s) ∧
    (Completes .powerRemoval s fun t => t.dev.boot.state = .off ∧ t.dev.boot.window = false ∧ t.dev.ctr.frame = 0 ∧
      t.dev.ctr.uptime = 0 ∧ t.dev.stalls = State.reset.dev.stalls ∧ t.dev.host = s.dev.host ∧ s.sameOutside t) ∧
    (∀ who, (b.state = .romWait → Completes (.verify who) s fun t =>
        t.dev.boot = { b with state := .verify, window := false } ∧ t.dev.stalls = s.dev.stalls ∧ s.sameOutside t) ∧
      (b.state ≠ .romWait → b.state ≠ .off → Completes (.verify who) s fun t =>
        t.dev.boot = { b with result := Status.stateInvalid } ∧ t.dev.stalls = s.dev.stalls ∧ s.sameOutside t)) ∧
    (∀ x : VerifyInput, b.state = .verify →
      let len := (s.dev.preg Page.gatehouse 0x10C).toNat
      let asked := s.dev.fuseRequests s.array
      let excl : W64 := BitVec.ofNat 64 (s.dev.initField 8 8)
      let go := s.dev.initLegal &&
        (Device.zhiVersion (BitVec.ofNat 16 (s.dev.initField 4 2)) (BitVec.ofNat 16 (s.dev.initField 6 2)) x.fwMin x.fwMax).isSome
      let passed := fun (t : State) => at_ .fwInit Status.done t ∧ t.dev.boot.fwRunning = true ∧
        t.dev.boot.fwMin = x.fwMin ∧ t.dev.boot.fwMax = x.fwMax ∧
        (∀ k : Chan, t.dev.mc[k].state = if go && s.dev.mayTrain excl k then .training else s.dev.mc[k].state) ∧
        t.dev.boot.svn = BitVec.ofNat 8 s.dev.svn ∧ t.dev.boot.keySlot = BitVec.ofNat 2 s.dev.keySlot ∧
        vget t.dev.trust.mr 1 0 = Trust.digest (s.dev.rdSram 0 (len - 7856))
      (∀ c, s.dev.bundleCheck len = c → c ≠ Status.done → Completes (.verifyDone x) s fun t =>
        at_ .romWait c t ∧ t.dev.boot.timer = b.timer ∧ t.array = s.array ∧ t.pending = s.pending) ∧
      (s.dev.bundleCheck len = Status.done →
        (asked = [] → Completes (.verifyDone x) s fun t => passed t ∧ t.array = s.array) ∧
        (asked ≠ [] → (∀ i ∈ asked, i ∉ x.stuckBits) → Completes (.verifyDone x) s fun t => passed t ∧
          t.dev.boot.fuseResult = Status.done ∧ ∀ i, i < 8192 → flag t.array i = (flag s.array i || decide (i ∈ asked))) ∧
        ((∃ i ∈ asked, i ∈ x.stuckBits) → Completes (.verifyDone x) s fun t =>
          at_ .romWait Status.fuseWriteFail t ∧ t.dev.boot.fuseResult = Status.fuseWriteFail ∧
          ∀ i, flag s.array i = true → flag t.array i = true))) ∧
    (∀ x : FwInitInput, b.state = .fwInit →
      let excl : W64 := BitVec.ofNat 64 (s.dev.initField 8 8)
      let trains := fun (y : Nat) => (finList 64).countP fun k : Chan =>
        k.val / 32 = y && s.dev.mayTrain excl k && ((x.trained[k.val]?).getD 3) ≠ 3
      let version := Device.zhiVersion (BitVec.ofNat 16 (s.dev.initField 4 2)) (BitVec.ofNat 16 (s.dev.initField 6 2)) b.fwMin b.fwMax
      (s.dev.initLegal = false → Completes (.fwInitDone x) s fun t => at_ .romWait Status.initBlockInvalid t ∧ s.sameOutside t) ∧
      (s.dev.initLegal = true → version = none → Completes (.fwInitDone x) s fun t =>
        at_ .romWait Status.zhiVersion t ∧ s.sameOutside t) ∧
      ∀ v, s.dev.initLegal = true → version = some v →
        (16 ≤ trains 0 → 16 ≤ trains 1 → Completes (.fwInitDone x) s fun t => at_ .ready Status.done t ∧
          t.dev.boot.zhiVer = v ∧ t.dev.boot.memSplit = trains 0 * (20 * 2 ^ 30) ∧
          t.dev.boot.memCapacity = (trains 0 + trains 1) * (20 * 2 ^ 30) ∧ s.sameOutside t) ∧
        (trains 0 < 16 ∨ trains 1 < 16 → Completes (.fwInitDone x) s fun t =>
          t.dev.boot.state = .safe ∧ t.dev.boot.safeCause = Status.memChannelOffline ∧ t.dev.boot.memSplit = 0 ∧
          t.dev.boot.memCapacity = 0 ∧ s.sameOutside t)) ∧
    (b.state = .romWait → b.timer = 0 → Completes .romTimerExpiry s (s.wentSafe Status.bootTimeout)) ∧
    (∀ m0 m1 rate, b.state = .off ∨ linkOk m0 m1 rate = false → exec (.hostLinkUp m0 m1 rate) s = .next s) ∧
    (∀ m0 m1 rate, b.state ≠ .off → linkOk m0 m1 rate = true → Completes (.hostLinkUp m0 m1 rate) s fun t =>
      s.onlyTo t { s.dev with boot := { b with m0 := m0, m1 := m1, rate := rate } }) ∧
    (Completes (.moduleFailure false) s fun t => s.onlyTo t { s.dev with
      boot := { b with m0 := Reset.moduleDown, rate := if b.m1.up = true then b.rate else 0 } }) ∧
    (Completes (.moduleFailure true) s fun t => s.onlyTo t { s.dev with
      boot := { b with m1 := Reset.moduleDown, rate := if b.m0.up = true then b.rate else 0 } }) ∧
    ∀ a fw, s.alive →
      ((fw && b.fwRunning) = false → (s.dev.preg Page.gatehouse 0x15C).toNat + 1 < 2 ^ 32 →
        Completes (.gatehouseSramUncorrected a fw) s fun t =>
          (t.dev.preg Page.gatehouse 0x15C).toNat = (s.dev.preg Page.gatehouse 0x15C).toNat + 1 ∧
          flag (t.dev.preg Page.gatehouse 0x028) 2 = true ∧ t.dev.boot = b ∧ s.sameMemory t) ∧
      ((fw && b.fwRunning) = true → Completes (.gatehouseSramUncorrected a fw) s (s.wentSafe Status.memEccUncorrected))

/-- What reset leaves (R46, R49, R108, R460, R466; the unblown array and the reset point are the model's choice, log 1, and so
are the zeros of registers without a reset value, log 2, the PCIe values, log 100, and what R471 leaves unnamed, log 30),
with the counts of every mailbox and memory in its canonical form; and the four resets (R471): the device returns to
ROM_WAIT with its engines stopped, the clocks go on, the fuses and the host's memory stay, and each keeps of the host's
configuration and link what its kind keeps. A WARM_RESET without its key and any reset in OFF have no effect (R473). -/
def Obligations.Resets : Prop :=
  (let d := State.reset.dev
   d.boot.state = .romWait ∧ d.boot.window = true ∧ d.boot.timer = 600000000000 ∧ d.ctr.frame = 0 ∧ d.ctr.uptime = 0 ∧
   State.reset.pending = [] ∧ State.reset.array = 0 ∧
   (∀ st m, (d.mbx st m).counts = 64 ∧ (d.mbx st m).free = 64) ∧ (∀ st sl, (d.ctx st sl).running = false) ∧
   (∀ p : PortId, d.ports[p].state = .down) ∧ (∀ q : QueueId, d.queues[q].en = false) ∧
   (∀ (y : Yard) (t : Fin 64), (d.team y t).state = .free) ∧ (∀ w : Fin 2, d.banks[w].state = .idle) ∧
   MapWf d.blank d.mem ∧ ∀ (p : Page) (o : Nat) (r : RegRow), pageAt (p.reg o) = some p → Device.rowOf p ((p.reg o) % 4096) = some r →
     d.preg p o = BitVec.ofNat 32 r.reset) ∧
  ∀ (s : State) (who : Requester),
    let resets := fun (c : Instr) (config link : Bool) =>
      (s.dev.boot.state ≠ .off → Completes c s fun t =>
        t.dev.boot.state = .romWait ∧ t.dev.boot.window = true ∧ t.dev.boot.timer = 600000000000 ∧
        t.dev.boot.warmResets = min (s.dev.boot.warmResets + 1) 0xFFFF ∧ t.dev.ctr.frame = s.dev.ctr.frame ∧
        t.dev.ctr.uptime = s.dev.ctr.uptime ∧ (∀ st sl, t.dev.ctx st sl = State.reset.dev.ctx st sl) ∧
        t.dev.ports = State.reset.dev.ports ∧ t.dev.queues = State.reset.dev.queues ∧
        t.dev.drovers = State.reset.dev.drovers ∧ t.dev.forges = State.reset.dev.forges ∧
        t.dev.banks = State.reset.dev.banks ∧ (∀ c : Chan, t.dev.mc[c].mapoutPend = s.dev.mc[c].mapoutPend) ∧
        t.dev.host = s.dev.host ∧ s.sameOutside t ∧
        t.dev.msixTable = (if config then s.dev.msixTable else State.reset.dev.msixTable) ∧
        t.dev.pcie = (if config then { s.dev.pcie with d3hot := false } else State.reset.dev.pcie) ∧
        (link = true → t.dev.boot.m0 = s.dev.boot.m0 ∧ t.dev.boot.m1 = s.dev.boot.m1 ∧ t.dev.boot.rate = s.dev.boot.rate) ∧
        (link = false → t.dev.boot.m0 = State.reset.dev.boot.m0 ∧ t.dev.boot.m1 = State.reset.dev.boot.m1 ∧
          t.dev.boot.rate = State.reset.dev.boot.rate)) ∧
      (s.dev.boot.state = .off → exec c s = .next s)
    resets (.warmReset who 0xA5) true true ∧ resets .functionLevelReset false false ∧ resets .hotReset false false ∧
    resets .d3hotReturn true false ∧ ∀ key, key ≠ 0xA5 → exec (.warmReset who key) s = .next s

/-! ### The host queues and their commands -/

/-- Rings and doorbells (R475 to R478, R483): enabling, disabling and draining a queue, its two doorbells, and how SQ_HEAD
passes a command. Model choices (log 78): a doorbell that repeats the old value names a full ring where the ring could
only be meant so; completions held are sent when the queue is enabled again, which it may be while it drains; doorbells of a
disabled or stopped queue are ignored. -/
def Obligations.HostQueues : Prop :=
  ∀ (who : Requester) (q : QueueId) (s : State), s.dev.served = true →
    let h := s.dev.queues[q]
    let page := Page.hostq q
    let queue := fun (i : Instr) (k : HostQueue) => Completes i s fun t =>
      s.onlyTo t { s.dev with queues := t.dev.queues } ∧ t.dev.queues = s.dev.queues.set q k
    let refused := fun (i : Instr) (c : Code) => Completes i s fun t =>
      t.dev.queues = s.dev.queues.set q { h with err := true, code := c } ∧ flag (t.dev.preg page 0x028) 1 = true ∧
        s.sameMemory t ∧ s.sameOutside t
    (∀ v : W32, let ok := fun n : Nat => 4 ≤ n ∧ n ≤ 12
      let fresh : HostQueue := { h with
        en := true, err := false, code := 0, sqTail := 0, sqHead := 0, cqHead := 0, cqTail := 0, phase := true, full := 0
        sqCount := 0, skipped := [] }
      (h.en = false → ok (field v 12 4) → ok (field v 8 4) →
        (h.held = [] → Completes (.queueEnable who q v) s fun t =>
          s.onlyTo t { s.dev with queues := t.dev.queues, regs := t.dev.regs } ∧
          t.dev.preg page 0x100 = v &&& 0x003F_FF00 ∧ t.dev.queues = s.dev.queues.set q fresh) ∧
        (∀ c, h.held = [c] → Completes (.queueEnable who q v) s fun t =>
          t.dev.queues = s.dev.queues.set q { fresh with held := [], cqTail := 1, full := 1 } ∧
          t.dev.rdHost (s.dev.cqBase q) 16 =
            leBytes 8 (c.cid.toNat * 2 ^ 32 + 2 ^ 16 + c.code.toNat) ++ leBytes 8 c.result.toNat)) ∧
      (h.en = false → ¬ (ok (field v 12 4) ∧ ok (field v 8 4)) → refused (.queueEnable who q v) Status.txnInvalid) ∧
      (h.en = true → exec (.queueEnable who q v) s = .next s)) ∧
    (h.en = true → queue (.queueDisable who q)
      { h with
        en := false, draining := true, sqHead := h.sqTail, sqCount := 0, skipped := []
        started := h.started ++ s.dev.outstandingAborts q }) ∧
    (h.skipped = [] → s.dev.takeCmd q = { s.dev with
      queues := s.dev.queues.set q { h with sqHead := (h.sqHead + 1) % s.dev.sqSize q, sqCount := h.sqCount - 1 } }) ∧
    (∀ k, h.skipped = [k] → k = (h.sqHead + 1) % s.dev.sqSize q → 2 ≤ h.sqCount → s.dev.sqSize q ≠ 1 →
      let passed : HostQueue := { h with sqHead := (k + 1) % s.dev.sqSize q, sqCount := h.sqCount - 2, skipped := [] }
      s.dev.takeCmd q = { s.dev with queues := s.dev.queues.set q passed }) ∧
    (h.en = false → exec (.queueDisable who q) s = .next s) ∧
    (h.draining = true → h.started = [] → h.held = [] → Completes (.queueDrained q) s fun t =>
      t.dev.queues = s.dev.queues.set q { h with draining := false } ∧ flag (t.dev.preg page 0x028) 2 = true ∧
        s.sameMemory t ∧ s.sameOutside t) ∧
    (∀ (tail : BitVec 12) (l : List Host.Cell),
      let written := fun (t : State) => ∀ a, t.dev.rdHost a 1 =
        match l.reverse.find? fun c => c.1 = a with
        | some c => [c.2]
        | none => s.dev.rdHost a 1
      (h.en = true → h.err = false → tail.toNat < s.dev.sqSize q →
        let size := s.dev.sqSize q
        let n := (tail.toNat + size - h.sqTail) % size
        Completes (.sqTail q tail l) s fun t => written t ∧ t.dev.queues = s.dev.queues.set q { h with
          sqTail := tail.toNat, sqCount := min size (h.sqCount + if n = 0 ∧ h.sqCount = 0 then size else n) } ∧
          s.sameMemory t ∧ s.sameOutside t) ∧
      (h.en = true → h.err = false → s.dev.sqSize q ≤ tail.toNat → refused (.sqTail q tail []) Status.hostqFault) ∧
      (h.en = false ∨ h.err = true → Completes (.sqTail q tail l) s fun t => written t ∧ t.dev.queues = s.dev.queues)) ∧
    ∀ head : BitVec 12, (h.en = true ∨ h.draining = true) → h.err = false →
      let k := (head.toNat + s.dev.cqSize q - h.cqHead) % s.dev.cqSize q
      let n := if k = 0 ∧ h.full = s.dev.cqSize q then s.dev.cqSize q else k
      (head.toNat < s.dev.cqSize q → n ≤ h.full →
        (h.held = [] → queue (.cqHead q head) { h with cqHead := head.toNat, full := h.full - n }) ∧
        (∀ c, h.held = [c] → 0 < n → h.full ≤ s.dev.cqSize q → Completes (.cqHead q head) s fun t =>
          s.completed q c.cid c.code c.result t ∧ t.dev.queues[q].held = [] ∧ t.dev.queues[q].full = h.full - n + 1)) ∧
      (s.dev.cqSize q ≤ head.toNat ∨ h.full < n → refused (.cqHead q head) Status.hostqFault)

/-- The ZHI commands that complete at once or wait for an engine (R479 to R484, R512, R527, R530, R531, R544, R570),
with their refusals: each is taken when it is the next that its queue may start. Model choices: TXN_INVALID for a count out of
range and RESULT 0 of a failure (log 79); STATE_INVALID for halting a halted slot, TXN_INVALID for a misaligned start or a fill
limit of 0 (log 80). -/
def Obligations.HostCommands : Prop :=
  ∀ (q : QueueId) (w : List W64) (s : State),
    let x := Device.cmdWord w
    let only := fun (t : State) => s.onlyTo t { s.dev with
      queues := t.dev.queues, host := t.dev.host, hostBad := t.dev.hostBad, regs := t.dev.regs, pba := t.dev.pba, out := t.dev.out }
    let is := fun (op : Nat) => s.commandNext q op w
    let ends := fun (i : Instr) (c : Code) (r : W64) => Completes i s fun t => only t ∧ s.answered q w c r t
    let waitsFor := fun (i : Instr) (y : HostWait) => Completes i s fun t =>
      s.onlyTo t { s.dev with queues := t.dev.queues } ∧ s.waits q w y t
    let data := fun (i : Instr) (dpa : Nat) (y : Fin 4 → HostWait) => ∀ e, s.dev.freeEngine = some e →
      ((x 3).toNat % 4 = 0 → 0 < (x 3).toNat → (x 3).toNat ≤ 2 ^ 32 →
        (s.dev.mapped dpa (x 3).toNat = true → waitsFor i (y e)) ∧
        (s.dev.mapped dpa (x 3).toNat = false → Completes i s fun t => s.sameMemory t ∧ t.dev.stalls = s.dev.stalls ∧
          s.answered q w Status.addressUnmapped 0 t ∧ t.dev.tally.reclaimed[3] = s.dev.tally.reclaimed[3] + 1)) ∧
      ((x 3).toNat % 4 ≠ 0 ∨ (x 3).toNat = 0 ∨ 2 ^ 32 < (x 3).toNat → ends i Status.txnInvalid 0)
    (is 0 → ends (.nop q) Status.done 0 ∧ Completes (.nop q) s fun t => ∀ a, s.apart q a 1 → t.dev.rdHost a 1 = s.dev.rdHost a 1) ∧
    (s.dev.nextCommand q = some w → Device.cmdLegal w = false → s.dev.queues[q].full < s.dev.cqSize q →
      ends (.nop q) Status.txnInvalid 0) ∧
    (is 1 → Completes (.identify q) s fun t => only t ∧ s.answered q w Status.done 0 t ∧
      (s.apart q (x 1).toNat 4096 → t.dev.rdHost (x 1).toNat 4096 = s.dev.identifyPage)) ∧
    (is 2 → let n := min (x 2).toNat (65536 - (x 3).toNat)
      Completes (.logRead q) s fun t => only t ∧ s.answered q w Status.done (BitVec.ofNat 64 n) t ∧
        (s.apart q (x 1).toNat n → t.dev.rdHost (x 1).toNat n = s.dev.logBytes (x 3).toNat n)) ∧
    (∀ moved : Nat, is 3 →
      let k : QueueId := Fin.ofNat 16 (field (x 1) 0 4)
      let cid := field (x 1) 16 16
      let named := fun c : HostCmd => c.cid.toNat = cid
      let answers := fun (r : W64) (t : State) =>
        s.answered q w Status.done r { t with dev := { t.dev with queues := t.dev.queues.set k s.dev.queues[k] } }
      ((∀ c ∈ s.dev.queues[k].started, ¬ named c) → (s.dev.takeCmd q).submitted k cid = none →
        ends (.abort q moved) Status.done 0x0002) ∧
      (k ≠ q → s.dev.queues[k].held = [] → s.dev.queues[k].full < s.dev.cqSize k →
        s.apart q (s.dev.cqBase k + 16 * s.dev.queues[k].cqTail) 16 →
        (∀ pos, (∀ c ∈ s.dev.queues[k].started, ¬ named c) → s.dev.submitted k cid = some pos →
          Completes (.abort q moved) s fun t => answers 0x0001 t ∧ t.dev.queues[k].started = s.dev.queues[k].started ∧
            s.completed k (BitVec.ofNat 16 cid) Status.aborted 0 t ∧
            (pos ∈ t.dev.queues[k].skipped ∨ t.dev.queues[k].sqCount < s.dev.queues[k].sqCount)) ∧
        ∀ (c : HostCmd) (e : Fin 4) (rest : List HostCmd), s.dev.queues[k].started = c :: rest → named c → c.wait = .dma e →
          c.op = 0x10 →
          let n := (Device.cmdWord c.words 3).toNat
          (moved < n → Completes (.abort q moved) s fun t => answers 0x0001 t ∧ t.dev.queues[k].started = rest ∧
            s.completed k c.cid Status.aborted (BitVec.ofNat 64 moved) t) ∧
          (n ≤ moved → s.dev.soundRange (field (Device.cmdWord c.words 2) 0 48) n → s.dev.tally.armed = false →
            Completes (.abort q moved) s fun t => answers 0x0002 t ∧ t.dev.queues[k].started = rest ∧
              s.completed k c.cid Status.unbookedDone (BitVec.ofNat 64 n) t))) ∧
    (is 0x10 → data (.dmaH2d q) (field (x 2) 0 48) .dma) ∧
    (is 0x11 → data (.dmaD2h q) (field (x 2) 0 48) .dma) ∧
    (is 0x20 → let st := field (x 2) 0 9
      let off := field (x 2) 16 16
      (st < 384 → off % 4 = 0 → off + (x 3).toNat ≤ 65536 →
        (s.dev.stallRuns (Fin.ofNat 384 st) = false → data (.stallLoad q) (field (x 1) 0 48) .loadDma) ∧
        (s.dev.stallRuns (Fin.ofNat 384 st) = true → s.dev.freeEngine ≠ none → ends (.stallLoad q) Status.stateInvalid 0)) ∧
      (384 ≤ st ∨ off % 4 ≠ 0 ∨ 65536 < off + (x 3).toNat → s.dev.freeEngine ≠ none → ends (.stallLoad q) Status.txnInvalid 0)) ∧
    (∀ sl : Slot, (flag (x 1) 9 = true ↔ sl = .paddock) →
      let n := field (x 1) 0 9
      let st : StallId := Fin.ofNat 384 n
      let c := s.dev.ctx st sl
      let slot := fun (t : State) => (∀ u, u ≠ st → t.dev.stall u = s.dev.stall u) ∧ s.sameMemory t ∧
        s.answered q w Status.done (s.dev.now.setWidth 64) t
      (is 0x21 →
        (n < 384 → field (x 1) 16 2 = 0 → c.running = false → (sl = .paddock → s.dev.paddockEn st = true) →
          Completes (.stallStart q) s fun t => slot t ∧ t.dev.ctx st sl = { c with
            running := true, pc := BitVec.ofNat 16 (field (x 1) 16 16), hold := none, resumeAt := none, yielded := false
            ran := decide ((s.dev.stall st).slot = sl) }) ∧
        (n < 384 → field (x 1) 16 2 = 0 → c.running = true ∨ (sl = .paddock ∧ s.dev.paddockEn st = false) →
          ends (.stallStart q) Status.stateInvalid 0) ∧
        (384 ≤ n ∨ field (x 1) 16 2 ≠ 0 → ends (.stallStart q) Status.txnInvalid 0)) ∧
      (is 0x22 →
        (n < 384 → c.running = true → Completes (.stallHalt q) s fun t => slot t ∧
          t.dev.ctx st sl = { c with running := false, hold := none, vq := [] } ∧
          (t.dev.stall st).haltReason = BitVec.ofNat 64 (s.dev.now.toNat * 2 ^ 16 + 0x400) ∧
          flag (t.dev.preg (Page.stall st) 0x028) 1 = true) ∧
        (n < 384 → c.running = false → ends (.stallHalt q) Status.stateInvalid 0) ∧
        (384 ≤ n → ends (.stallHalt q) Status.txnInvalid 0))) ∧
    (is 0x40 → let n := field (x 1) 0 8
      (n ≠ 0 → Completes (.setFillLimit q) s fun t => t.dev.boot = { s.dev.boot with fillLimit := BitVec.ofNat 8 n } ∧
        s.answered q w Status.done 0 t ∧ s.sameMemory t ∧ t.dev.stalls = s.dev.stalls) ∧
      (n = 0 → ends (.setFillLimit q) Status.txnInvalid 0)) ∧
    (is 0x41 → let n := field (x 2) 0 11
      let bytes := s.dev.rdHost (x 1).toNat (32 * n)
      (n ≤ 1024 → Completes (.setAllowlist q) s fun t => s.answered q w Status.done 0 t ∧
        t.dev.boot = { s.dev.boot with allow := (List.range n).map fun k => BitVec.ofNat 256 (leNat ((bytes.drop (32 * k)).take 32)) } ∧
        vget t.dev.trust.mr 3 0 = Trust.digest (Trust.keyBytes (vget s.dev.trust.mr 3 0) ++ Sha.sha256 bytes) ∧
        s.sameMemory t ∧ t.dev.stalls = s.dev.stalls) ∧
      (1024 < n → ends (.setAllowlist q) Status.txnInvalid 0)) ∧
    (is 0x48 →
      (field (x 1) 0 8 = 0 →
        (s.dev.trust.idkValid = true → Completes (.attestReport q) s fun t => s.waits q w .signing t ∧
          t.dev.trust.jobs = s.dev.trust.jobs ++ [.report q (cidOf w)] ∧
          (s.dev.trust.jobs = [] → s.dev.trust.capture = none → (∀ c ∈ s.dev.queues[q].started, c.wait ≠ .signing) →
            t.dev.trust.capture = some (s.dev.reportBytes (((w.drop 3).take 4).flatMap fun x => leBytes 8 x.toNat)))) ∧
        (s.dev.trust.idkValid = false → ends (.attestReport q) Status.identityUnavailable 0)) ∧
      (field (x 1) 0 8 = 1 → let m := field (x 1) 8 3
        Completes (.attestExtend q) s fun t => s.answered q w Status.done 0 t ∧
          (∀ i, i < 8 → vget t.dev.trust.mr i 0 = if i = m then Trust.digest (Trust.keyBytes (vget s.dev.trust.mr m 0) ++
            ((w.drop 3).take 4).flatMap fun x => leBytes 8 x.toNat) else vget s.dev.trust.mr i 0))) ∧
    ∀ (body : List Byte) (c : HostCmd) (jobs : List SignJob), s.dev.trust.capture = some body →
      s.dev.trust.jobs = .report q c.cid :: jobs → (s.dev.queues[q].started.find? fun h => h.cid = c.cid && h.wait = .signing) = some c →
      s.dev.queues[q].held = [] → s.dev.queues[q].full < s.dev.cqSize q →
      Completes .signingDone s fun t => t.dev.trust.jobs = jobs ∧ s.completed q c.cid Status.done 17600 t ∧
        let a := (Device.cmdWord c.words 2).toNat
        let report := body ++ s.dev.trust.sign Device.reportContext body
        (s.apart q a report.length → t.dev.rdHost a report.length = report)

/-- The memory BAR (R40, R41, R460): an access to mapped bytes of sound units reads or writes them; unmapped bytes, and
a state without LP6 memory, give Unsupported Request. The end of a data command moves its bytes and completes it (R480,
R481); the team and template commands hand their work to a drover or a Forge (R377 to R379, R441, R512). Model choices: Unsupported
Request in FW_INIT and SAFE (log 66), TEAM_CREATE's transaction in one step (log 77), the end of STALL_LOAD (log 80). -/
def Obligations.HostTransfers : Prop :=
  (∀ (off : BitVec 38) (s : State),
    let a := (s.dev.preg Page.device 0x120).toNat + s.dev.pfield Page.device 0x124 0 16 * 2 ^ 32 + off.toNat
    let refused := fun (x : BarAccess) => Completes (.memoryBarAccess off x) s fun t =>
      s.onlyTo t { s.dev with out := t.dev.out, pcie := t.dev.pcie } ∧ t.dev.out.unsupported = true ∧ t.dev.out.data = []
    (∀ n, s.dev.serving = true → 0 < n → s.dev.mapped a n = true → s.dev.soundRange a n →
      Completes (.memoryBarAccess off (.read n)) s fun t => t.dev.out.data = s.dev.rdBytes a n ∧
        t.dev.out.unsupported = false ∧ t.dev.out.failed = 0 ∧ t.dev.stalls = s.dev.stalls ∧ s.sameMemory t ∧
        s.sameOutside t) ∧
    (∀ bs : List Byte, s.dev.serving = true → 0 < bs.length → s.dev.mapped a bs.length = true → s.dev.soundRange a bs.length →
      s.dev.tally.armed = false → Completes (.memoryBarAccess off (.write bs)) s fun t =>
        (∀ i (h : i < bs.length), t.dev.rdByte (a + i) = bs[i]) ∧
        (∀ p, p < a ∨ a + bs.length ≤ p → t.dev.rdByte p = s.dev.rdByte p) ∧ t.dev.out.unsupported = false ∧
        t.dev.out.failed = 0 ∧ t.dev.stalls = s.dev.stalls ∧ s.sameOutside t) ∧
    (∀ n, s.dev.serving = false ∨ s.dev.mapped a n = false → refused (.read n)) ∧
    ∀ bs, s.dev.serving = false ∨ s.dev.mapped a bs.length = false → refused (.write bs)) ∧
  (∀ (e : Fin 4) (q : QueueId) (c : HostCmd) (rest : List HostCmd) (s : State), s.dev.onEngine e = some (q, c) →
    s.dev.queues[q].started = c :: rest → s.dev.queues[q].held = [] → s.dev.queues[q].full < s.dev.cqSize q →
    let x := Device.cmdWord c.words
    let n := (x 3).toNat
    let ends := fun (r : Code) (t : State) => t.dev.queues[q].started = rest ∧ s.completed q c.cid r (BitVec.ofNat 64 n) t ∧
      ∀ p, p ≠ q → t.dev.queues[p] = s.dev.queues[p]
    (c.op = 0x10 → let a := field (x 2) 0 48
      s.dev.soundRange a n → s.dev.tally.armed = false → Completes (.dmaComplete e) s fun t => ends Status.unbookedDone t ∧
        (∀ i, i < n → [t.dev.rdByte (a + i)] = s.dev.rdHost ((x 1).toNat + i) 1) ∧
        ∀ p, p < a ∨ a + n ≤ p → t.dev.rdByte p = s.dev.rdByte p) ∧
    (c.op = 0x11 → let a := field (x 2) 0 48
      s.dev.soundRange a n → s.apart q (x 1).toNat n → Completes (.dmaComplete e) s fun t => ends Status.unbookedDone t ∧
        s.sameMemory t ∧ t.dev.rdHost (x 1).toNat n = s.dev.rdBytes a n) ∧
    (c.op = 0x20 → let a := field (x 1) 0 48
      let st : StallId := Fin.ofNat 384 (field (x 2) 0 9)
      let off := field (x 2) 16 16
      s.dev.soundRange a n → s.dev.stallRuns st = false → off + n ≤ 65536 → Completes (.dmaComplete e) s fun t =>
        ends Status.unbookedDone t ∧ s.sameMemory t ∧ (∀ i, i < n → t.dev.rdTackByte st (off + i) = s.dev.rdByte (a + i)) ∧
        ∀ i, i < off ∨ (off + n ≤ i ∧ i < 65536) → t.dev.rdTackByte st i = s.dev.rdTackByte st i)) ∧
  (∀ (e : Fin 4) (s : State), s.dev.onEngine e = none → exec (.dmaComplete e) s = .next s) ∧
  ∀ (q : QueueId) (w : List W64) (s : State),
    let x := Device.cmdWord w
    let is := fun (op : Nat) => s.commandNext q op w
    (is 0x30 → field (x 2) 6 2 < 2 → let t : Fin 64 := Fin.ofNat 64 (field (x 2) 0 6)
      let y : Yard := Fin.ofNat 2 (field (x 2) 6 2)
      let dpa := field (x 1) 0 48
      let act : Frame := BitVec.ofNat 48 (field (x 3) 0 48)
      let m := s.dev.team y t
      let pending := fun (u : State) => s.waits q w (.teamAt y t) u ∧
        u.dev.team y t = { m with
          creates := m.creates ++ [⟨dpa, act, some (q, cidOf w), decide (m.state = .free)⟩]
          state := if m.state = .free then .pending else m.state }
      (s.dev.now.toNat < act.toNat → ∀ sets, (s.dev.teamBookings y dpa).2 = sets →
        (sets = [] → Completes (.teamCreate q) s fun u => pending u ∧ u.dev.banks = s.dev.banks) ∧
        (sets ≠ [] → s.dev.txnHeld 1 = true → Completes (.teamCreate q) s fun u => s.waits q w (.fwTxn s.dev.commits) u ∧
          u.dev.banks = s.dev.banks ∧ u.dev.drovers = s.dev.drovers) ∧
        (sets ≠ [] → s.dev.txnHeld 1 = false → s.dev.serving = true →
          (∀ p : QueueId, ∀ c ∈ s.dev.queues[p].started, ∀ n, c.wait ≠ .fwTxn n) →
          m.state = .free → 2 ≤ Device.since act s.dev.now → Device.since act s.dev.now ≤ 65536 →
            (∀ b ∈ sets, b.1.base ∉ s.dev.banks[(0 : Fin 2)].pages) → Completes (.teamCreate q) s fun u => pending u ∧
              u.dev.banks[(1 : Fin 2)].state = .pending ∧ u.dev.banks[(1 : Fin 2)].target = act ∧
              ∀ b ∈ sets, mapGet u.dev.banks[(1 : Fin 2)].shadow (b.1.reg b.2.1) = some b.2.2))) ∧
    (is 0x31 → field (x 2) 6 2 < 2 → let t : Fin 64 := Fin.ofNat 64 (field (x 2) 0 6)
      let y : Yard := Fin.ofNat 2 (field (x 2) 6 2)
      let f : Frame := BitVec.ofNat 48 (field (x 3) 0 48)
      s.dev.now.toNat < f.toNat → Completes (.teamDestroy q) s fun u => s.waits q w (.teamAt y t) u ∧
        u.dev.team y t = { s.dev.team y t with destroys := (s.dev.team y t).destroys ++ [(f, some (q, cidOf w))] } ∧ ∀ v, v ≠ t → u.dev.team y v = s.dev.team y v) ∧
    ∀ (t : Fin 16) (y : Yard), t.val = field (x 2) 0 4 → y.val = field (x 2) 4 1 →
      let f := s.dev.forge y
      let others := fun (u : State) => ∀ z, z ≠ y → u.dev.forges[z] = s.dev.forges[z]
      let alone := ∀ p : QueueId, ∀ c ∈ s.dev.queues[p].started, c.wait ≠ .template y t
      let answers := fun (c : Code) (u : State) => s.answered q w c (c.setWidth 64) u ∧ others u
      (is 0x38 → (s.dev.templateUsed y t = false → Completes (.tplLoad q) s fun u => s.waits q w (.template y t) u ∧ others u ∧
          u.dev.forge y = { f with loading := f.loading ++ [⟨t, field (x 1) 0 48, some (q, cidOf w), s.dev.now⟩] }) ∧
        (s.dev.templateUsed y t = true → alone → Completes (.tplLoad q) s (answers Status.forgeTemplateInvalid))) ∧
      (is 0x39 → alone → (s.dev.templateUsed y t = false → Completes (.tplUnload q) s fun u =>
          answers Status.done u ∧ u.dev.forge y = { f with tpl := f.tpl.set t none, tplResult := Status.done }) ∧
        (s.dev.templateUsed y t = true → Completes (.tplUnload q) s fun u =>
          answers Status.forgeTemplateInvalid u ∧ u.dev.forge y = { f with tplResult := Status.forgeTemplateInvalid }))

/-! ### Registers and transactions -/

/-- Register-BAR accesses by the access code of the register (R486 to R488, R494 to R497, R504), the registers of the
common block, and the mirrors of a halted slot (R97). Model choices: a mirror's read-only word sets ACCESS and its writes are
masked (log 18); a write that clears ERR_STAT clears of ERR_FIRST only VALID (log 82). -/
def Obligations.Registers : Prop :=
  ∀ (who : Requester) (off : BitVec 26) (s : State),
    let w := who.idx
    let o := off.toNat % 4096
    let recorded := fun (p : Page) (bit : Nat) (t : State) => flag (t.dev.preg p 0x018) bit = true ∧
      s.onlyTo t { s.dev with regs := t.dev.regs, pba := t.dev.pba, out := t.dev.out } ∧
      ∀ k, 0x100 ≤ k → k < 4096 → t.dev.preg p k = s.dev.preg p k
    (∀ v : W64, off.toNat % 8 = 0 → ∃ t : State, exec (.registerWrite who off 4 ((v.setWidth 32).setWidth 64)) s = .next t ∧
      exec (.registerWrite who off 8 v) s = exec (.registerWrite who (off + 4) 4 (v >>> 32)) t) ∧
    (off.toNat % 8 = 0 → ∃ t u : State, exec (.rcRead who ⟨off, 4⟩) s = .next t ∧ exec (.rcRead who ⟨off + 4, 4⟩) t = .next u ∧
      exec (.rcRead who ⟨off, 8⟩) s = .next { u with dev := { u.dev with
        out := { u.dev.out with read := t.dev.out.read, readHigh := u.dev.out.read } } }) ∧
    (∀ p : Page, s.dev.livePage off.toNat = some p →
      (∀ n, ¬ (n = 4 ∧ off.toNat % 4 = 0) → ¬ (n = 8 ∧ off.toNat % 8 = 0) → Completes (.rcRead who ⟨off, n⟩) s fun t =>
        t.dev.out.read = 0 ∧ t.dev.out.readHigh = 0 ∧ recorded p 31 t) ∧
      (off.toNat % 4 ≠ 0 → ∀ v, Completes (.registerWrite who off 4 v) s (recorded p 31)) ∧
      (∀ v n, n ≠ 4 → n ≠ 8 → Completes (.registerWrite who off n v) s (recorded p 31)) ∧
      (Completes (.illegalRegisterRead who off) s fun t => t.dev.out.read = 0 ∧ recorded p 31 t) ∧
      (off.toNat % 4 = 0 → ∀ r : RegRow, Device.rowOf p o = some r →
        (∀ v : W64, r.acc = .rw → (o < 0x100 ∧ o ≠ 0x00C) ∨ (p.kind = .memctl ∨ p.kind = .port ∨ p.kind = .power ∨ p.kind = .yard) →
          Completes (.registerWrite who off 4 v) s fun t => s.onlyTo t { s.dev with regs := t.dev.regs } ∧
            t.dev.preg p o = v.setWidth 32 &&& BitVec.ofNat 32 r.mask ∧ ∀ k, k ≠ p.reg o → t.dev.reg k = s.dev.reg k) ∧
        (∀ v : W64, r.acc = .ro → Completes (.registerWrite who off 4 v) s (recorded p 31)) ∧
        (∀ v : W32, r.acc = .rwt →
          ((∀ i : Fin 2, s.dev.timedOut i = false) → s.dev.boot.state ≠ .safe → s.dev.banks[w].state = .opened →
            p.base ∈ s.dev.banks[w].pages → Completes (.rwtWrite who off v) s fun t => s.onlyTo t { s.dev with banks := t.dev.banks } ∧
              mapGet t.dev.banks[w].shadow (p.reg o) = some (v &&& BitVec.ofNat 32 r.mask) ∧
              t.dev.banks[w].pages = s.dev.banks[w].pages ∧ t.dev.banks[1 - w] = s.dev.banks[1 - w] ∧
              ∀ k, k ≠ p.reg o → mapGet t.dev.banks[w].shadow k = mapGet s.dev.banks[w].shadow k) ∧
          ((∀ i : Fin 2, s.dev.timedOut i = false) →
            s.dev.boot.state = .safe ∨ s.dev.banks[w].state ≠ .opened ∨ p.base ∉ s.dev.banks[w].pages → Completes (.rwtWrite who off v) s (recorded p 30))) ∧
        (r.acc = .rc → ¬ (p = Page.tally ∧ o = 0x124) → Completes (.rcRead who ⟨off, 4⟩) s fun t =>
          t.dev.out.read = s.dev.pageValue who p o ∧ t.dev.preg p o = 0 ∧ ∀ k, k ≠ p.reg o → t.dev.reg k = s.dev.reg k) ∧
        (r.acc = .rc → p = Page.tally → o = 0x124 → Completes (.rcRead who ⟨off, 4⟩) s fun t =>
          t.dev.out.read = s.dev.pageValue who p o ∧
          vget t.dev.tally.reclaimed (s.dev.pfield Page.tally 0x120 0 4) 0 = 0))) ∧
    (∀ (p : Page) (v : W32), s.dev.livePage off.toNat = some p →
      let old := s.dev.preg p 0x018
      let bits := v &&& 0xC000_FFFE
      (Completes (.errStatClear who off v) s fun t => s.onlyTo t { s.dev with regs := t.dev.regs } ∧
        t.dev.preg p 0x018 = old &&& ~~~v ∧ flag (t.dev.preg p 0x020) 31 = (flag (s.dev.preg p 0x020) 31 && (old &&& ~~~v) != 0)) ∧
      (bits = 0 → exec (.errInj who off v) s = .next s) ∧
      (bits ≠ 0 → Completes (.errInj who off v) s fun t => t.dev.preg p 0x018 = old ||| bits ∧
        (bits &&& ~~~(s.dev.preg p 0x01C) ≠ 0 → flag (t.dev.preg p 0x028) 0 = true) ∧
        (old ≠ 0 → t.dev.preg p 0x020 = s.dev.preg p 0x020) ∧
        (old = 0 → ∀ i, flag bits i = true → (∀ j, j < i → flag bits j = false) →
          t.dev.preg p 0x020 = BitVec.ofNat 32 (2 ^ 31 + 2 ^ 30 + i * 2 ^ 16)))) ∧
    ∀ (st : StallId) (m : BitVec 12) (v : W32) (sl : Slot) (n : Nat) (high : Bool), s.dev.served = true → m.toNat % 4 = 0 →
      Device.mirrorAt m.toNat = some (sl, n, high) → crReserved n = false →
      let c := s.dev.ctx st sl
      let x : W64 := if high = true then v ++ (c.getCr n).setWidth 32 else (BitVec.ofNat 32 (field (c.getCr n) 32 32)) ++ v
      (crReadOnly n = true → Completes (.stallMirrorWrite who st m v) s (recorded (Page.stall st) 31)) ∧
      (crReadOnly n = false → c.running = true → exec (.stallMirrorWrite who st m v) s = .next s) ∧
      (crReadOnly n = false → c.running = false → n ≠ 0x39 → ¬ (0x20 ≤ n ∧ n ≤ 0x2F) → n ≠ 0x10 →
        s.dev.crRead st sl n = c.getCr n → Completes (.stallMirrorWrite who st m v) s fun t =>
          s.sameButCtx st sl t ∧ t.dev.ctx st sl = c.setCr n (x &&& BitVec.ofNat 64 (crMask n)))

/-- Transactions (R502, R503, R505 to R510): opening, enrolment, commit, rollback, settlement at the target's boundary
and the timeout of a bank, with their refusals. -/
def Obligations.Transactions : Prop :=
  ∀ (who : Requester) (s : State),
    let w := who.idx
    let b := s.dev.banks[w]
    let bank := fun (b' : TxnBank) (t : State) => t.dev.banks = s.dev.banks.set w b' ∧ s.onlyTo t { s.dev with
      banks := t.dev.banks, regs := t.dev.regs, pba := t.dev.pba, out := t.dev.out, commits := t.dev.commits }
    let answers := fun (i : Instr) (c : Code) => Completes i s (bank { b with cmdRes := c })
    let open_ := b.state = .opened
    let young := ∀ i : Fin 2, s.dev.timedOut i = false
    let nobody := w = 1 → ∀ p : QueueId, ∀ c ∈ s.dev.queues[p].started, ∀ n, c.wait ≠ .fwTxn n
    let ended := fun (k : TxnState) (c r : Code) => bank { b with
      state := k, code := c, cmdRes := r, failPage := 0, failOff := 0, endFrame := s.dev.now, pages := [], shadow := [] }
    let goesOn := fun (d : Device) (t : State) =>
      let e := if d.atStep6 = true ∧ d.anyDue = false then ({ d with atStep6 := false }).boundaryTail d.env else d
      t.dev = if w = 1 then e.resume else e
    (s.dev.served = true → young →
      (s.dev.txnHeld w = false → let n := b.count % 32767 + 1
        Completes (.txnOpen who) s (bank { b with
          state := .opened, id := BitVec.ofNat 16 (32768 * w.val + n), count := n, code := 0, cmdRes := Status.done, failPage := 0
          failOff := 0, opened := s.dev.now, timeout := max 16 (s.dev.pfield Page.txc (0x100 + 0x40 * w.val + 0x24) 0 16)
          pages := [], shadow := [] })) ∧
      (s.dev.txnHeld w = true → answers (.txnOpen who) Status.txnBusy) ∧
      (∀ (page : BitVec 26) (p : Page), pageAt page.toNat = some p →
        (open_ → p.kind.hasTxn = true → p.base ∉ s.dev.banks[1 - w].pages → Completes (.enrol who page b.id) s
          (bank { b with pages := setInsert b.pages p.base, cmdRes := Status.done })) ∧
        (open_ → p.kind.hasTxn = true → p.base ∈ s.dev.banks[1 - w].pages → answers (.enrol who page b.id) Status.txnBusy) ∧
        (open_ → p.kind.hasTxn = false → answers (.enrol who page b.id) Status.txnInvalid) ∧
        ∀ id, ¬ (open_ ∧ id = b.id) → answers (.enrol who page id) Status.stateInvalid) ∧
      (let f := s.dev.txnTarget w
       let n := Device.since f s.dev.now
       (open_ → 2 ≤ n → n ≤ 65536 → Completes (.txnCommit who b.id) s
         (bank { b with state := .pending, target := f, order := s.dev.commits, cmdRes := Status.done })) ∧
       (open_ → n < 2 ∨ 65536 < n → answers (.txnCommit who b.id) Status.txnInvalid) ∧
       ∀ id, ¬ (open_ ∧ id = b.id) → answers (.txnCommit who id) Status.stateInvalid) ∧
      (let early := b.state = .pending ∧ b.target ≠ s.dev.now
       nobody → (open_ ∨ early → Completes (.txnRollback who b.id) s (ended .rolledBack Status.aborted Status.aborted)) ∧
       (¬ open_ → ¬ early → b.state ≠ .idle → answers (.txnRollback who b.id) Status.abortTooLate) ∧
       ∀ id, id ≠ b.id ∨ b.state = .idle → answers (.txnRollback who id) Status.stateInvalid)) ∧
    (s.dev.txnDue w = true → s.dev.boot.state ≠ .safe → Completes (.txnApply who) s fun t => ∃ d : Device,
      goesOn d t ∧ d.atStep6 = true ∧ d.banks[1 - w] = s.dev.banks[1 - w] ∧ s.sameOutside t ∧
      (s.dev.commitFailure w = none → d.banks[w].state = .applied ∧ d.banks[w].code = Status.done ∧ d.banks[w].pages = [] ∧
        d.banks[w].endFrame = s.dev.now ∧ ((b.shadow.map Prod.fst).Nodup → (∀ x ∈ b.shadow, ∃ p : Page, ∃ r : RegRow,
          pageAt x.1 = some p ∧ Device.rowOf p (x.1 % 4096) = some r ∧ r.acc = .rwt) → ∀ x ∈ b.shadow, d.reg x.1 = x.2)) ∧
      (∀ off r, s.dev.commitFailure w = some (off, r) → d.banks[w] = { b with
        state := .failed, code := Status.txnInvalid, failPage := (Device.failWords off r).1, failOff := (Device.failWords off r).2
        endFrame := s.dev.now, pages := [], shadow := [] } ∧ d.stalls = s.dev.stalls ∧ d.ports = s.dev.ports ∧
        ∀ k, k < Page.txc.base ∨ Page.txc.base + 4096 ≤ k → d.reg k = s.dev.reg k)) ∧
    (open_ → b.timeout ≤ Device.since s.dev.now b.opened →
      (s.dev.atStep6 = false → nobody → Completes (.txnTimeout who) s (ended .timedOut Status.txnTimeout b.cmdRes)) ∧
      Completes (.txnTimeout who) s fun t => ∃ u : State, ended .timedOut Status.txnTimeout b.cmdRes u ∧ goesOn u.dev t ∧
        s.sameOutside t)

/-! ### Tallies and built-in self-test -/

/-- SLOT_RECLAIM, TALLY_OVR with its adjustment, and data injection (R552, R554 to R556). Model choices: a write of FI_CTL that
does not arm disarms, and FI_FIRE reports a hit later (log 32); the moment of an adjustment (log 69). -/
def Obligations.Tallies : Prop :=
  ∀ (who : Requester) (v : W32) (s : State),
    let y := s.dev.tally
    let only := fun (t : State) => s.onlyTo t { s.dev with
      tally := t.dev.tally, regs := t.dev.regs, pba := t.dev.pba, out := t.dev.out }
    let st : StallId := Fin.ofNat 384 (field v 0 9)
    let sl : Slot := if flag v 9 = true then .paddock else .primary
    (s.dev.serving = true →
      (field v 0 9 ≤ 383 → (s.dev.ctx st sl).running = false → Completes (.slotReclaim who v) s fun t =>
        t.dev.tally = { y with slotRes := Status.done } ∧
        (∀ c : BitVec 4, chanEn (t.dev.chan st sl c) = false ∧ chanCred (t.dev.chan st sl c) = 0) ∧
        t.dev.credits = s.dev.credits ++ (List.range 16).filterMap fun n =>
          let r := s.dev.chan st sl (BitVec.ofNat 4 n)
          if chanCred r = 0 then none
          else some ⟨.close, chanDest r, chanMbx r, st, sl, BitVec.ofNat 4 n, chanCred r, true⟩) ∧
      (383 < field v 0 9 ∨ (s.dev.ctx st sl).running = true → Completes (.slotReclaim who v) s fun t =>
        t.dev.tally = { y with slotRes := Status.stateInvalid } ∧ only t)) ∧
    (s.dev.served = false → exec (.tallyOvr who v) s = .next s ∧ exec (.fiArm who v) s = .next s) ∧
    (s.dev.served = true →
      (s.dev.trust.debugLevel = 0 → Completes (.tallyOvr who v) s fun t => s.onlyTo t { s.dev with tally := { y with
        ovrUsed := true, skip0 := flag v 0, skip1 := flag v 1, adjust := flag v 2, adjDue := false } }) ∧
      (s.dev.trust.debugLevel ≠ 0 → Completes (.tallyOvr who v) s fun t =>
        t.dev.tally = y ∧ flag (t.dev.preg Page.tally 0x018) 7 = true ∧ only t) ∧
      Completes (.fiArm who v) s fun t =>
        let arms := flag v 31 = true ∧ s.dev.boot.state = .ready ∧ s.dev.injectable v = true
        s.onlyTo t { s.dev with tally := t.dev.tally, regs := t.dev.regs } ∧ t.dev.preg Page.tally 0x13C = v &&& 0x1F ∧
        (arms → t.dev.tally = { y with armed := true, hit := false, fired := false }) ∧
        (¬ arms → t.dev.tally = { y with armed := false, hit := false })) ∧
    (y.armed = true → y.hit = true → Completes .fiFire s fun t =>
      t.dev.tally = { y with armed := false, hit := false, fired := true } ∧ flag (t.dev.preg Page.tally 0x028) 3 = true ∧ only t) ∧
    (y.armed = false ∨ y.hit = false → exec .fiFire s = .next s) ∧
    (let id := s.dev.preg Page.tally 0x134
     let k := id.toNat / 2 ^ 24
     let i := id.toNat % 2 ^ 24
     let x := s.dev.preg Page.tally 0x138
     let delta := intOfNat 16 (field x 0 16)
     ∀ c, y.adjDue = true → i < tallyCount k → s.dev.tallyCounts k i = some c → Completes .tallyAdjust s fun t =>
      s.onlyTo t { s.dev with tally := t.dev.tally } ∧ t.dev.tally.adjDue = false ∧ t.dev.tally.adjust = false ∧
      (field x 16 2 = 0 → t.dev.tallyCounts k i = some { c with a := c.a + delta }) ∧
      (field x 16 2 = 1 → t.dev.tallyCounts k i = some { c with u := c.u + delta }) ∧
      (field x 16 2 = 2 → t.dev.tallyCounts k i = some { c with f := c.f + delta })) ∧
    (y.adjDue = false → exec .tallyAdjust s = .next s) ∧
    ∀ c : Counts, c.balanced = true ↔
      c.a + c.u + c.f = c.c ∧ 0 ≤ c.a ∧ c.a ≤ c.c ∧ 0 ≤ c.u ∧ c.u ≤ c.c ∧ 0 ≤ c.f ∧ c.f ≤ c.c

/-- A self-test run (R559 to R569): the checks of START, a round, the LP6 phase, the result and ABORT. Model choices: a memory under test reads 0 from the start
of its round, and the least time of a round (log 74). -/
def Obligations.SelfTest : Prop :=
  ∀ (who : Requester) (s : State),
    let ctl := s.dev.preg Page.bist 0x100
    let back := fun (r : BistRun) (c : Code) (t : State) => t.dev.bist.run = none ∧ t.dev.bist.result = c ∧
      flag (t.dev.preg Page.bist 0x028) 1 = true ∧ t.dev.boot.state = if r.origin = .romWait then .romWait else .ready
    (s.dev.served = false → exec (.bistStart who) s = .next s ∧ exec (.bistAbort who) s = .next s) ∧
    (s.dev.served = true →
      (∀ c, s.dev.bistCheck = some c → Completes (.bistStart who) s fun t =>
        t.dev.bist = { s.dev.bist with result := c } ∧ t.dev.boot = s.dev.boot ∧ t.dev.stalls = s.dev.stalls ∧ s.sameMemory t) ∧
      (s.dev.bistCheck = none → Completes (.bistStart who) s fun t =>
        t.dev.boot.state = .bist ∧ s.sameMemory t ∧ ∃ r, t.dev.bist.run = some r ∧ t.dev.bist.found = 0 ∧ t.dev.bist.log = [] ∧
          r.origin = s.dev.boot.state ∧ r.failed = false ∧ r.algo = BitVec.ofNat 2 (field ctl 0 2) ∧ r.lp6 = flag ctl 3 ∧
          r.todo = if flag ctl 2 = true then below 28 (flag (s.dev.preg Page.bist 0x104)) else [])) ∧
    ((field ctl 0 2 = 3 ∨ (s.dev.boot.state ≠ .romWait ∧ s.dev.boot.state ≠ .ready) ∨
      (s.dev.boot.state = .romWait ∧ flag ctl 3 = true) ∨ (s.dev.preg Page.bist 0x104 = 0 ∧ s.dev.bistChans = 0)) →
      s.dev.bistCheck = some Status.stateInvalid) ∧
    (∀ r : BistRun, s.dev.bist.run = some r → r.todo ≠ [] →
      let now := r.todo.take r.maxUnits
      (r.ready ≤ s.dev.now → (∀ y : Yard, s.dev.yards[y].level < 2) →
        (Completes (.bistRoundStart []) s fun t =>
          (∃ n, t.dev.bist.run = some { r with
            todo := r.todo.drop r.maxUnits, round := n, ready := s.dev.now + BitVec.ofNat 48 (Device.roundFrames r) }) ∧
          (∀ u, u < 24 → u ∈ now → ∀ a, u * 0x400_0000 ≤ a → a < (u + 1) * 0x400_0000 → t.dev.rdByte (loftBase + a) = 0) ∧
          ∀ a, a < loftBase → t.dev.rdByte a = s.dev.rdByte a) ∧
        ∀ f : BistFault, s.dev.reported r now f = true → Completes (.bistRoundStart [f]) s fun t =>
          (Device.faultWord f ∈ r.seen → t.dev.bist.found = s.dev.bist.found ∧ t.dev.bist.log = s.dev.bist.log) ∧
          (Device.faultWord f ∉ r.seen → t.dev.bist.found = min (s.dev.bist.found + 1) 0xFFFF_FFFF ∧
          (s.dev.bist.log.length < 256 → t.dev.bist.log.length = s.dev.bist.log.length + 1) ∧
          (256 ≤ s.dev.bist.log.length → t.dev.bist.log = s.dev.bist.log) ∧
          (t.dev.bist.run.map BistRun.failed) = some (r.failed || !f.unusedSpare))) ∧
      (∀ fs, s.dev.now < r.ready ∨ (∃ y : Yard, 2 ≤ s.dev.yards[y].level) → exec (.bistRoundStart fs) s = .next s)) ∧
    (∀ r : BistRun, s.dev.bist.run = some r → r.todo = [] → r.ready ≤ s.dev.now →
      (r.lp6 = true → r.phase ≠ 3 →
        (s.dev.lp6Conditions r.chans = true → s.dev.boot.memCapacity ≤ loftBase → Completes (.bistLp6Phase []) s fun t =>
          t.dev.bist.run = some { r with
            phase := 3, ready := s.dev.now + BitVec.ofNat 48 (if r.algo = 0 then 0 else 2 * r.pause) } ∧
          (∀ a, a < loftBase → a < s.dev.boot.memCapacity → flag r.chans (s.dev.chanOf a) = true → t.dev.rdByte a = 0) ∧
          ∀ a, loftBase ≤ a → t.dev.rdByte a = s.dev.rdByte a) ∧
        (s.dev.lp6Conditions r.chans = false → Completes (.bistLp6Phase []) s (back r Status.bistConditions))) ∧
      (r.lp6 = false ∨ r.phase = 3 →
        (r.failed = false → s.dev.boot.memCapacity ≤ loftBase → Completes .bistResult s fun t => back r Status.done t ∧
          (∀ a, let tested := (loftBase ≤ a ∧ a < loftBase + 0x6000_0000 ∧ r.sram = true ∧
              flag r.units ((a - loftBase) / 0x400_0000) = true) ∨
              (r.phase = 3 ∧ a < s.dev.boot.memCapacity ∧ flag r.chans (s.dev.chanOf a) = true)
            (tested → t.dev.rdByte a = 0) ∧ (¬ tested → t.dev.rdByte a = s.dev.rdByte a))) ∧
        (r.failed = true → s.alive → Completes .bistResult s fun t => s.wentSafe Status.bistFail t ∧
          t.dev.bist.run = none ∧ t.dev.bist.result = Status.bistFail))) ∧
    (s.dev.served = true →
      (s.dev.bist.run = none → Completes (.bistAbort who) s fun t =>
        s.onlyTo t { s.dev with bist := { s.dev.bist with abortRes := Status.abortTooLate } }) ∧
      ∀ r, s.dev.bist.run = some r → Completes (.bistAbort who) s fun t =>
        back r Status.aborted t ∧ t.dev.bist.abortRes = Status.aborted)

/-! ### Power, the sideband and the test port -/

/-- The regulator, the rails and the pins, and the commands of the management sideband (R575, R577, R579, R583, R585,
R586): a sideband read changes nothing but what it puts out, and the device answers in every state but OFF. Model choices: the
analogue trip drives THERMTRIP alone, and PROCHOT acts at the next boundary (log 57). -/
def Obligations.PowerAndSideband : Prop :=
  (∀ (y : Yard) (s : State),
    let p := s.dev.yards[y]
    let yard := fun (i : Instr) (p' : YardPower) => Completes i s fun t => s.onlyTo t { s.dev with yards := s.dev.yards.set y p' }
    (p.busy = true → (∀ v mhz, p.raise = some (v, mhz) →
        yard (.voltageReached y) { p with busy := false, vold := p.vset, raise := none, raised := true, mhz := mhz }) ∧
      (p.raise = none → yard (.voltageReached y) { p with busy := false, vold := p.vset })) ∧
    (p.busy = false → Completes (.voltageReached y) s fun t => s.onlyTo t s.dev) ∧
    (p.raise ≠ none → p.busy = true → p.retry = false → Completes (.avsTimeout y) s fun t =>
      t.dev.yards = s.dev.yards.set y { p with retry := true, busy := false } ∧
      flag (t.dev.preg (Page.yard y) 0x028) 2 = true ∧ t.dev.boot = s.dev.boot ∧ s.sameMemory t) ∧
    (p.raise = none ∨ p.busy = false ∨ p.retry = true → exec (.avsTimeout y) s = .next s)) ∧
  ∀ (s : State),
    (∀ (rail : Fin 7) (uv : Nat),
      let limits := fun (low high pct : Nat) => 100 * uv < 1000 * low * (100 - pct) ∨ 1000 * high * (100 + pct) < 100 * uv
      let core := fun (p : YardPower) => limits (min p.vold p.vset) (max p.vold p.vset) 2
      let outside := match rail.val with
        | 0 => core s.dev.yards[(0 : Yard)]
        | 1 => core s.dev.yards[(1 : Yard)]
        | 2 => limits 750 750 3
        | 3 => limits 750 750 3
        | 4 => limits 900 900 3
        | 5 => limits 500 500 3
        | _ => limits 1800 1800 5
      (s.alive → outside → Completes (.railFault ⟨rail, uv⟩) s fun t => s.wentSafe Status.railFault t ∧ t.dev.pwr.alert = true ∧
        flag (t.dev.preg Page.power 0x028) 2 = true) ∧
      (¬ outside → exec (.railFault ⟨rail, uv⟩) s = .next s)) ∧
    (∀ low, Completes (.prochot low) s fun t => s.onlyTo t { s.dev with pwr := { s.dev.pwr with prochot := low } }) ∧
    (s.dev.boot.state ≠ .off →
      let reads := fun (i : Instr) (p : List Byte → Prop) => Completes i s fun t => p t.dev.out.block ∧ t.dev.out.nack = false ∧
        s.onlyTo t { s.dev with out := { s.dev.out with block := t.dev.out.block, nack := false } }
      let temp := fun (i : Nat) => (s.dev.pwr.temps[i]?).getD 0
      let rail := fun (i : Nat) => (s.dev.pwr.rails[i]?).getD (0, 0)
      let hottest := fun (first n : Nat) (x : Int) => (∃ i, i < n ∧ temp (first + i) = x) ∧ ∀ i, i < n → temp (first + i) ≤ x
      (Completes .thermtripAnalog s fun t => s.onlyTo t { s.dev with pwr := { s.dev.pwr with thermtrip := true } }) ∧
      (reads .mgId fun b => b = leBytes 8 s.dev.trust.deviceId.toNat ++ [0xA1, s.dev.trust.freqBin]) ∧
      (reads .mgState fun b => b = leBytes 4 (Device.stateCode s.dev.boot.state + s.dev.yards[(0 : Yard)].level * 16 +
        s.dev.yards[(1 : Yard)].level * 64 + s.dev.boot.safeCause.toNat * 2 ^ 16)) ∧
      (reads .mgFrame fun b => b = leBytes 6 s.dev.now.toNat) ∧
      (reads .mgUptime fun b => b = leBytes 8 s.dev.ctr.uptime.toNat) ∧
      (reads .mgTemp fun b => ∃ x0 x1 x2, b = leBytes 2 (natOfInt 16 x0) ++ leBytes 2 (natOfInt 16 x1) ++ leBytes 2 (natOfInt 16 x2) ∧
        hottest 0 16 x0 ∧ hottest 16 16 x1 ∧ hottest 32 2 x2) ∧
      (reads .mgTempAll fun b => b.length = 68 ∧ ∀ i, i < 34 → (b.drop (2 * i)).take 2 = leBytes 2 (natOfInt 16 (temp i))) ∧
      (reads .mgLp6Level fun b => b.length = 16 ∧ ((∀ c : Chan, s.dev.mc[c].level < 4) →
        ∀ c : Chan, leNat b / 4 ^ c.val % 4 = s.dev.mc[c].level)) ∧
      (reads .mgPower fun b => b.length = 8 ∧
        ∀ i, i < 4 → (b.drop (2 * i)).take 2 = leBytes 2 ((s.dev.pwr.sample[i]?).getD 0)) ∧
      (reads .mgRails fun b => b.length = 28 ∧
        ∀ i, i < 7 → (b.drop (4 * i)).take 4 = leBytes 2 (rail i).1 ++ leBytes 2 (rail i).2) ∧
      (∀ m, Completes (.mgSafe (.assign m)) s fun t => s.onlyTo t { s.dev with pwr := { s.dev.pwr with bus := m } }) ∧
      (∀ code data p, code ≠ 0x40 ∨ data ≠ 0xC3 ∨ s.dev.mgAccepts code data p = false →
        Completes (.mgSafe (.command code data p)) s fun t => s.onlyTo t { s.dev with out := { s.dev.out with nack := true } })) ∧
    (s.alive → ∀ p, p = none ∨ p = some (Device.pec [s.dev.busAddress ++ (0 : BitVec 1), 0x40, 0xC3]) →
      Completes (.mgSafe (.command 0x40 0xC3 p)) s fun t => s.wentSafe Status.sidebandSafe t ∧ t.dev.out.nack = false) ∧
    (s.dev.boot.state = .off → exec .mgId s = .next s ∧ exec .mgState s = .next s ∧ exec .mgFrame s = .next s ∧
      exec .mgUptime s = .next s ∧ exec .mgTemp s = .next s ∧ exec .mgTempAll s = .next s ∧ exec .mgLp6Level s = .next s ∧
      exec .mgPower s = .next s ∧ exec .mgRails s = .next s ∧ ∀ v, exec (.mgSafe v) s = .next s)

/-- The test port (R520, R533 to R537, R561, R588): which instructions the debug level, the rights of a token and the
device's state allow, and what each does; one that is not allowed selects BYPASS and shows its code. DBG_ACCESS reaches the
self-test's page in ROM_WAIT (R561). Model choices: FUSE_PROG blows its pattern in one pass and leaves the latches as they are, and DBG_ACCESS has the host's view in every powered
state (log 83). -/
def Obligations.TestPort : Prop :=
  ∀ (s : State), s.dev.boot.state ≠ .off →
   (Completes .tapReset s fun t => s.onlyTo t { s.dev with
      tap := { s.dev.tap with ir := 0x02, driving := false, trst := !s.dev.tap.trst } }) ∧
   (s.dev.tap.trst = true → ∀ n k off w bits, ∀ i ∈ [Instr.extest, .extestPulse, .extestTrain, .samplePreload, .bypass, .idcode,
      .dbgChallenge n, .dbgToken k, .dbgStatus, .dbgAccess off w, .ghHalt, .scanConnect, .fuseProg bits], exec i s = .next s) ∧
   (s.dev.tap.trst = false →
    let tap := s.dev.tap
    let level := s.dev.trust.debugLevel
    let right := fun (i : Nat) => level = 0 ∨ (level = 1 ∧ flag s.dev.trust.rights i = true)
    let lands := s.dev.boot.state = .romWait ∨ s.dev.boot.state = .safe
    let only := fun (i : Instr) (d : Device) => Completes i s fun t => s.onlyTo t d
    let chosen := fun (ir : BitVec 8) => { tap with ir := ir, driving := false }
    let out := fun (i : Instr) (ir : BitVec 8) (l : List Byte) =>
      only i { s.dev with tap := chosen ir, out := { s.dev.out with tdo := l } }
    let refused := fun (i : Instr) (c : Code) => only i { s.dev with tap := { tap with ir := 0xFF, driving := false, code := c } }
    (∀ (i : Instr) (ir : BitVec 8), (i, ir) ∈ [(Instr.extest, 0x00), (Instr.extestPulse, 0x03), (Instr.extestTrain, 0x04)] →
      (lands → only i { s.dev with tap := { tap with ir := ir, driving := true } }) ∧
      (¬ lands → only i { s.dev with tap := { tap with ir := ir, driving := false } })) ∧
    only .samplePreload { s.dev with tap := chosen 0x01 } ∧ only .bypass { s.dev with tap := chosen 0xFF } ∧
    out .idcode 0x02 (leBytes 4 (0x1090_0001 + Config.jep106.toNat * 2)) ∧
    (∀ n, (level = 1 → only (.dbgChallenge n) { s.dev with
        tap := chosen 0x10, trust := { s.dev.trust with nonce := some n }, out := { s.dev.out with tdo := Trust.keyBytes n } }) ∧
      (level ≠ 1 → refused (.dbgChallenge n) Status.debugLocked)) ∧
    (∀ k, (level = 1 → only (.dbgToken k) { s.dev with tap := chosen 0x11, trust := { s.dev.trust with verifying := some k } }) ∧
      (level ≠ 1 → refused (.dbgToken k) Status.debugLocked)) ∧
    (∀ k, s.dev.trust.verifying = some k →
      (s.dev.tokenHolds k = true → Completes .debugTokenVerified s fun t => t.dev.tap = { tap with code := Status.done } ∧
        t.dev.trust = { s.dev.trust with
          verifying := none, nonce := none, rights := BitVec.ofNat 3 k.rights.toNat, tokenActive := true } ∧
        flag (t.dev.preg Page.fuseView 0x028) 2 = true) ∧
      ((level ≠ 1 ∨ s.dev.trust.nonce ≠ some k.nonce ∨ k.deviceId ≠ s.dev.trust.deviceId ∨ s.dev.trust.usable k.keySlot.toNat = false ∨
          s.dev.trust.keyHash k.keySlot.toNat ≠ Sha.sha256 (Trust.keyBytes k.pubkey)) →
        only .debugTokenVerified { s.dev with
          tap := { tap with code := Status.debugLocked }, trust := { s.dev.trust with verifying := none } })) ∧
    (s.dev.trust.verifying = none → exec .debugTokenVerified s = .next s) ∧
    out .dbgStatus 0x12 (leBytes 4 (tap.code.toNat * 2 ^ 16 + bitAt s.dev.trust.scanCleared 6 + bitAt s.dev.trust.tokenActive 5 +
      s.dev.trust.rights.toNat * 4 + level)) ∧
    (∀ off : BitVec 26, let o := off.toNat / 4 * 4
      (right 0 → 0x100_0000 ≤ o → o < 0x200_0000 → out (.dbgAccess off .read) 0x20 (s.dev.rdSram (o - 0x100_0000) 4) ∧
        ∀ v, Completes (.dbgAccess off (.write v)) s fun t => t.dev.rdSram (o - 0x100_0000) 4 = leBytes 4 v.toNat ∧
          s.onlyTo t { s.dev with tap := chosen 0x20, sram := t.dev.sram }) ∧
      (right 0 → (∀ p, pageAt o = some p → Completes (.dbgAccess off .read) s fun t =>
        t.dev.out.tdo = leBytes 4 (s.dev.pageValue .host p (o % 4096)).toNat ∧ s.sameMemory t)) ∧
      (right 0 → ¬ (0x100_0000 ≤ o ∧ o < 0x200_0000) → (∀ p, pageAt o = some p → s.dev.pageServed p = true) →
        (Completes (.dbgAccess off .read) s fun t => t.dev.out.tdo = leBytes 4 (s.dev.regValue .host o).toNat ∧ s.sameMemory t) ∧
        ∀ v : W32, ∃ u, exec (.registerWrite .host (BitVec.ofNat 26 o) 4 (v.setWidth 64))
            { s with dev := { s.dev with tap := chosen 0x20 } } = .next u ∧ exec (.dbgAccess off (.write v)) s = .next u) ∧
      (∀ code, refused (.dbgAccess off (.unlisted code)) Status.debugLocked) ∧
      (¬ right 0 → ∀ w, refused (.dbgAccess off w) Status.debugLocked)) ∧
    (right 0 → s.dev.boot.state = .romWait →
      (∀ v, Completes (.dbgAccess 0x9104 (.write v)) s fun t => t.dev.preg Page.bist 0x104 = v &&& 0x0FFF_FFFF ∧
        s.onlyTo t { s.dev with tap := chosen 0x20, regs := t.dev.regs }) ∧
      (s.dev.bistCheck = none → Completes (.dbgAccess 0x9114 (.write 1)) s fun t =>
        t.dev.boot.state = .bist ∧ s.sameMemory t ∧ ∃ r, t.dev.bist.run = some r ∧ r.origin = .romWait ∧
        t.dev.bist.found = 0 ∧ t.dev.bist.log = []) ∧
      ∀ c, s.dev.bistCheck = some c → Completes (.dbgAccess 0x9114 (.write 1)) s fun t =>
        t.dev.bist = { s.dev.bist with result := c } ∧ t.dev.boot = s.dev.boot) ∧
    (right 1 → Completes .ghHalt s fun t => t.dev.boot = { s.dev.boot with halted := true } ∧ t.dev.tap = chosen 0x21 ∧
      t.dev.stalls = s.dev.stalls ∧ s.sameMemory t) ∧
    (¬ right 1 → refused .ghHalt Status.debugLocked) ∧
    (let may := right 2 ∧ s.dev.trust.scanLock = false
     (may → lands → Completes .scanConnect s fun t => t.dev.tap = { chosen 0x30 with scan := true } ∧ t.dev.sram = [] ∧
       t.dev.trust.idkValid = false ∧ t.dev.trust.idkPub = 0 ∧ t.dev.trust.nonce = none ∧ t.dev.trust.scanCleared = true ∧
       (∀ a, a < 0x6000_0000 → t.dev.rdByte (loftBase + a) = 0) ∧ (∀ a, a < loftBase → t.dev.rdByte a = s.dev.rdByte a) ∧
       ∀ k, t.dev.trust.usable k = false) ∧
     (may → ¬ lands → refused .scanConnect Status.stateInvalid) ∧ (¬ may → refused .scanConnect Status.debugLocked)) ∧
    ∀ bits, (level = 0 → Completes (.fuseProg bits) s fun t => t.dev = { s.dev with tap := chosen 0x40 } ∧
        ∀ i, i < 8192 → flag t.array i = (flag s.array i || decide (i ∈ Device.programmed s.array bits))) ∧
      (level ≠ 0 → refused (.fuseProg bits) Status.debugLocked))

/-! ### The whole block -/

/-- A step takes the command at the front of the queue and runs it with the rest waiting; with none waiting it idles
(the model's choice, log 4). -/
def Obligations.StepRunsFront : Prop :=
  (∀ (c : Instr) (rest : List Instr) (s : State), step { s with pending := c :: rest } = exec c { s with pending := rest }) ∧
  ∀ s : State, s.pending = [] → step s = .next s

/-- R515 to R522: whatever the block does, a blown fuse bit stays blown, the reserved bits 8,000 to 8,191 keep their
value, and the array changes only when verification ends and by FUSE_PROG. -/
def Obligations.FuseBitsStay : Prop :=
  ∀ (s t : State), step s = .next t →
    (∀ i, flag s.array i = true → flag t.array i = true) ∧ (∀ i, 8000 ≤ i → flag t.array i = flag s.array i) ∧
    (t.array ≠ s.array → ∃ c rest, s.pending = c :: rest ∧ ((∃ x, c = .verifyDone x) ∨ ∃ b, c = .fuseProg b))

/-- Every command that is a Coeri instruction is read back from its words, with every operand: decode of encode (R98 to
R101, R147, R148, R384, R433). The kind of a descriptor-driven one comes from its descriptor. -/
def Obligations.CoeriRoundTrip : Prop :=
  ∀ i : Instr, Coeri.encode i ≠ [] → ∃ st : StallId,
    Coeri.decode st (Coeri.descKind i) (Coeri.firstWord i) (((Coeri.encode i)[1]?).getD 0) = some i
end

