-- ==== Sys2Proof/Laws/Maps.lean ====
section
/-! SUPPORT. Laws of vectors changed at one place and of sparse maps: read after write, the frame of a write, and the
canonical form that every write keeps. -/

namespace Sys2Proof.Machine

@[simp] theorem upd_same_val {α : Type} {n : Nat} (v : Vector α n) (i : Fin n) (f : α → α) :
    (upd v i f)[i.val] = f v[i.val] := by
  simp [upd]

theorem upd_same {α : Type} {n : Nat} (v : Vector α n) (i : Fin n) (f : α → α) : (upd v i f)[i] = f v[i] := by
  simp [upd]

theorem upd_ne {α : Type} {n : Nat} (v : Vector α n) (i j : Fin n) (f : α → α) (h : j ≠ i) : (upd v i f)[j] = v[j] := by
  have : i.val ≠ j.val := fun e => h (Fin.ext e.symm)
  simp [upd, this]

theorem upd_id {α : Type} {n : Nat} (v : Vector α n) (i : Fin n) (f : α → α) (h : f v[i] = v[i]) : upd v i f = v := by
  have h' : f v[i.val] = v[i.val] := h
  simp [upd, h']

/-- The keys of a map rise strictly. -/
abbrev Sorted {α : Type} (m : List (Nat × α)) : Prop := (m.map Prod.fst).Pairwise (· < ·)

theorem mapErase_sorted {α : Type} (m : List (Nat × α)) (a : Nat) (h : Sorted m) : Sorted (mapErase m a) :=
  List.Pairwise.sublist (List.Sublist.map _ List.filter_sublist) h

theorem mapInsert_keys {α : Type} (m : List (Nat × α)) (a : Nat) (x : α) (k : Nat)
    (h : k ∈ (mapInsert m a x).map Prod.fst) : k = a ∨ k ∈ m.map Prod.fst := by
  induction m with
  | nil => simpa [mapInsert] using h
  | cons p t ih =>
    obtain ⟨b, y⟩ := p
    simp only [mapInsert] at h
    split at h
    · simpa using h
    · split at h
      · rename_i _ e
        rcases List.mem_cons.mp h with h | h
        · exact .inl h
        · exact .inr (List.mem_cons_of_mem _ h)
      · rcases List.mem_cons.mp h with h | h
        · exact .inr (h ▸ List.mem_cons_self ..)
        · exact (ih h).imp id (List.mem_cons_of_mem _)

theorem mapInsert_sorted {α : Type} (m : List (Nat × α)) (a : Nat) (x : α) (h : Sorted m) : Sorted (mapInsert m a x) := by
  induction m with
  | nil => simp [mapInsert, Sorted]
  | cons p t ih =>
    obtain ⟨b, y⟩ := p
    have ht := List.pairwise_cons.mp h
    simp only [mapInsert]
    split
    · rename_i hab
      refine List.pairwise_cons.mpr ⟨fun k hk => ?_, h⟩
      rcases List.mem_cons.mp hk with hk | hk
      · exact hk ▸ hab
      · exact lt_trans hab (ht.1 k hk)
    · split
      · rename_i _ e
        subst e
        exact h
      · rename_i h1 h2
        refine List.pairwise_cons.mpr ⟨fun k hk => ?_, ih ht.2⟩
        have hba : b < a := by omega
        rcases mapInsert_keys t a x k hk with hk | hk
        · exact hk ▸ hba
        · exact ht.1 k hk

theorem mapWrite_sorted {α : Type} [DecidableEq α] (z : α) (m : List (Nat × α)) (a : Nat) (x : α) (h : Sorted m) :
    Sorted (mapWrite z m a x) := by
  unfold mapWrite
  split
  · exact mapErase_sorted m a h
  · exact mapInsert_sorted m a x h

theorem mapGet_mapErase_same {α : Type} (m : List (Nat × α)) (a : Nat) : mapGet (mapErase m a) a = none := by
  induction m with
  | nil => rfl
  | cons p t ih =>
    obtain ⟨b, y⟩ := p
    by_cases h : b = a
    · simpa [mapErase, h] using ih
    · have : mapErase ((b, y) :: t) a = (b, y) :: mapErase t a := by simp [mapErase, h]
      rw [this]
      simpa [mapGet, h] using ih

theorem mapGet_mapErase_ne {α : Type} (m : List (Nat × α)) (a b : Nat) (hb : b ≠ a) :
    mapGet (mapErase m a) b = mapGet m b := by
  induction m with
  | nil => rfl
  | cons p t ih =>
    obtain ⟨c, y⟩ := p
    by_cases h : c = a
    · have : mapErase ((c, y) :: t) a = mapErase t a := by simp [mapErase, h]
      rw [this, ih]
      have : c ≠ b := fun e => hb (e ▸ h)
      simp [mapGet, this]
    · have : mapErase ((c, y) :: t) a = (c, y) :: mapErase t a := by simp [mapErase, h]
      rw [this]
      simp only [mapGet, ih]

@[simp] theorem mapGet_mapInsert_same {α : Type} (m : List (Nat × α)) (a : Nat) (x : α) :
    mapGet (mapInsert m a x) a = some x := by
  induction m with
  | nil => simp [mapInsert, mapGet]
  | cons p t ih =>
    obtain ⟨b, y⟩ := p
    simp only [mapInsert]
    split
    · simp [mapGet]
    · split
      · simp [mapGet]
      · rename_i h1 h2
        have : b ≠ a := fun e => h2 e.symm
        simpa [mapGet, this] using ih

theorem mapGet_mapInsert_ne {α : Type} (m : List (Nat × α)) (a b : Nat) (x : α) (hb : b ≠ a) :
    mapGet (mapInsert m a x) b = mapGet m b := by
  induction m with
  | nil => simp [mapInsert, mapGet, hb.symm]
  | cons p t ih =>
    obtain ⟨c, y⟩ := p
    simp only [mapInsert]
    split
    · simp [mapGet, hb.symm]
    · split
      · rename_i _ e
        subst e
        simp [mapGet, hb.symm]
      · simp only [mapGet, ih]

/-- A write is read back. -/
@[simp] theorem mapGet_mapWrite_same {α : Type} [DecidableEq α] (z : α) (m : List (Nat × α)) (a : Nat) (x : α) :
    (mapGet (mapWrite z m a x) a).getD z = x := by
  unfold mapWrite
  split
  · rename_i h
    simp [mapGet_mapErase_same, h]
  · simp

/-- A write leaves every other key alone. -/
theorem mapGet_mapWrite_ne {α : Type} [DecidableEq α] (z : α) (m : List (Nat × α)) (a b : Nat) (x : α) (hb : b ≠ a) :
    mapGet (mapWrite z m a x) b = mapGet m b := by
  unfold mapWrite
  split
  · exact mapGet_mapErase_ne m a b hb
  · exact mapGet_mapInsert_ne m a b x hb

theorem mem_mapInsert {α : Type} (m : List (Nat × α)) (a : Nat) (x : α) (p : Nat × α) (h : p ∈ mapInsert m a x) :
    p = (a, x) ∨ p ∈ m := by
  induction m with
  | nil => simpa [mapInsert] using h
  | cons q t ih =>
    obtain ⟨b, y⟩ := q
    simp only [mapInsert] at h
    split at h
    · rcases List.mem_cons.mp h with h | h
      · exact .inl h
      · exact .inr h
    · split at h
      · rcases List.mem_cons.mp h with h | h
        · exact .inl h
        · exact .inr (List.mem_cons_of_mem _ h)
      · rcases List.mem_cons.mp h with h | h
        · exact .inr (h ▸ List.mem_cons_self ..)
        · exact (ih h).imp id (List.mem_cons_of_mem _)

/-- Every write keeps the canonical form. -/
theorem mapWrite_wf {α : Type} [DecidableEq α] (z : Nat → α) (m : List (Nat × α)) (a : Nat) (x : α) (h : MapWf z m) :
    MapWf z (mapWrite (z a) m a x) := by
  refine ⟨mapWrite_sorted _ m a x h.1, fun p hp => ?_⟩
  unfold mapWrite at hp
  split at hp
  · exact h.2 p (List.mem_of_mem_filter hp)
  · rcases mem_mapInsert m a x p hp with e | e
    · subst e
      assumption
    · exact h.2 p e

end Sys2Proof.Machine
end

