-- ==== Sys2Proof/Laws/State.lean ====
section
/-! SUPPORT. Laws of the state: one lemma per field per update. Every named update of the device changes one field and
leaves every other one as it was. -/

namespace Sys2Proof.Machine

@[simp] theorem State.onDev_dev (s : State) (f : Device → Device) : (s.onDev f).dev = f s.dev := rfl
@[simp] theorem State.onDev_pending (s : State) (f : Device → Device) : (s.onDev f).pending = s.pending := rfl
@[simp] theorem State.onDev_array (s : State) (f : Device → Device) : (s.onDev f).array = s.array := rfl

namespace Device

variable (d : Device)


@[simp] theorem setReg_ctr (off : Nat) (v : W32) : (d.setReg off v).ctr = d.ctr := rfl
@[simp] theorem setReg_tick (off : Nat) (v : W32) : (d.setReg off v).tick = d.tick := rfl
@[simp] theorem setReg_atStep3 (off : Nat) (v : W32) : (d.setReg off v).atStep3 = d.atStep3 := rfl
@[simp] theorem setReg_atStep6 (off : Nat) (v : W32) : (d.setReg off v).atStep6 = d.atStep6 := rfl
@[simp] theorem setReg_env (off : Nat) (v : W32) : (d.setReg off v).env = d.env := rfl
@[simp] theorem setReg_boot (off : Nat) (v : W32) : (d.setReg off v).boot = d.boot := rfl
@[simp] theorem setReg_trust (off : Nat) (v : W32) : (d.setReg off v).trust = d.trust := rfl
@[simp] theorem setReg_banks (off : Nat) (v : W32) : (d.setReg off v).banks = d.banks := rfl
@[simp] theorem setReg_commits (off : Nat) (v : W32) : (d.setReg off v).commits = d.commits := rfl
@[simp] theorem setReg_tally (off : Nat) (v : W32) : (d.setReg off v).tally = d.tally := rfl
@[simp] theorem setReg_bist (off : Nat) (v : W32) : (d.setReg off v).bist = d.bist := rfl
@[simp] theorem setReg_yards (off : Nat) (v : W32) : (d.setReg off v).yards = d.yards := rfl
@[simp] theorem setReg_pwr (off : Nat) (v : W32) : (d.setReg off v).pwr = d.pwr := rfl
@[simp] theorem setReg_tap (off : Nat) (v : W32) : (d.setReg off v).tap = d.tap := rfl
@[simp] theorem setReg_stalls (off : Nat) (v : W32) : (d.setReg off v).stalls = d.stalls := rfl
@[simp] theorem setReg_msgs (off : Nat) (v : W32) : (d.setReg off v).msgs = d.msgs := rfl
@[simp] theorem setReg_credits (off : Nat) (v : W32) : (d.setReg off v).credits = d.credits := rfl
@[simp] theorem setReg_mc (off : Nat) (v : W32) : (d.setReg off v).mc = d.mc := rfl
@[simp] theorem setReg_batches (off : Nat) (v : W32) : (d.setReg off v).batches = d.batches := rfl
@[simp] theorem setReg_ports (off : Nat) (v : W32) : (d.setReg off v).ports = d.ports := rfl
@[simp] theorem setReg_drovers (off : Nat) (v : W32) : (d.setReg off v).drovers = d.drovers := rfl
@[simp] theorem setReg_sidings (off : Nat) (v : W32) : (d.setReg off v).sidings = d.sidings := rfl
@[simp] theorem setReg_forges (off : Nat) (v : W32) : (d.setReg off v).forges = d.forges := rfl
@[simp] theorem setReg_queues (off : Nat) (v : W32) : (d.setReg off v).queues = d.queues := rfl
@[simp] theorem setReg_pcie (off : Nat) (v : W32) : (d.setReg off v).pcie = d.pcie := rfl
@[simp] theorem setReg_msixTable (off : Nat) (v : W32) : (d.setReg off v).msixTable = d.msixTable := rfl
@[simp] theorem setReg_pba (off : Nat) (v : W32) : (d.setReg off v).pba = d.pba := rfl
@[simp] theorem setReg_mem (off : Nat) (v : W32) : (d.setReg off v).mem = d.mem := rfl
@[simp] theorem setReg_epoch (off : Nat) (v : W32) : (d.setReg off v).epoch = d.epoch := rfl
@[simp] theorem setReg_shedFill (off : Nat) (v : W32) : (d.setReg off v).shedFill = d.shedFill := rfl
@[simp] theorem setReg_chanFill (off : Nat) (v : W32) : (d.setReg off v).chanFill = d.chanFill := rfl
@[simp] theorem setReg_bad (off : Nat) (v : W32) : (d.setReg off v).bad = d.bad := rfl
@[simp] theorem setReg_ce (off : Nat) (v : W32) : (d.setReg off v).ce = d.ce := rfl
@[simp] theorem setReg_ledgers (off : Nat) (v : W32) : (d.setReg off v).ledgers = d.ledgers := rfl
@[simp] theorem setReg_tack (off : Nat) (v : W32) : (d.setReg off v).tack = d.tack := rfl
@[simp] theorem setReg_tackBad (off : Nat) (v : W32) : (d.setReg off v).tackBad = d.tackBad := rfl
@[simp] theorem setReg_sram (off : Nat) (v : W32) : (d.setReg off v).sram = d.sram := rfl
@[simp] theorem setReg_host (off : Nat) (v : W32) : (d.setReg off v).host = d.host := rfl
@[simp] theorem setReg_hostBad (off : Nat) (v : W32) : (d.setReg off v).hostBad = d.hostBad := rfl
@[simp] theorem setReg_free (off : Nat) (v : W32) : (d.setReg off v).free = d.free := rfl
@[simp] theorem setReg_out (off : Nat) (v : W32) : (d.setReg off v).out = d.out := rfl

@[simp] theorem setPreg_ctr (p : Page) (o : Nat) (v : W32) : (d.setPreg p o v).ctr = d.ctr := rfl
@[simp] theorem setPreg_tick (p : Page) (o : Nat) (v : W32) : (d.setPreg p o v).tick = d.tick := rfl
@[simp] theorem setPreg_atStep3 (p : Page) (o : Nat) (v : W32) : (d.setPreg p o v).atStep3 = d.atStep3 := rfl
@[simp] theorem setPreg_atStep6 (p : Page) (o : Nat) (v : W32) : (d.setPreg p o v).atStep6 = d.atStep6 := rfl
@[simp] theorem setPreg_env (p : Page) (o : Nat) (v : W32) : (d.setPreg p o v).env = d.env := rfl
@[simp] theorem setPreg_boot (p : Page) (o : Nat) (v : W32) : (d.setPreg p o v).boot = d.boot := rfl
@[simp] theorem setPreg_trust (p : Page) (o : Nat) (v : W32) : (d.setPreg p o v).trust = d.trust := rfl
@[simp] theorem setPreg_banks (p : Page) (o : Nat) (v : W32) : (d.setPreg p o v).banks = d.banks := rfl
@[simp] theorem setPreg_commits (p : Page) (o : Nat) (v : W32) : (d.setPreg p o v).commits = d.commits := rfl
@[simp] theorem setPreg_tally (p : Page) (o : Nat) (v : W32) : (d.setPreg p o v).tally = d.tally := rfl
@[simp] theorem setPreg_bist (p : Page) (o : Nat) (v : W32) : (d.setPreg p o v).bist = d.bist := rfl
@[simp] theorem setPreg_yards (p : Page) (o : Nat) (v : W32) : (d.setPreg p o v).yards = d.yards := rfl
@[simp] theorem setPreg_pwr (p : Page) (o : Nat) (v : W32) : (d.setPreg p o v).pwr = d.pwr := rfl
@[simp] theorem setPreg_tap (p : Page) (o : Nat) (v : W32) : (d.setPreg p o v).tap = d.tap := rfl
@[simp] theorem setPreg_stalls (p : Page) (o : Nat) (v : W32) : (d.setPreg p o v).stalls = d.stalls := rfl
@[simp] theorem setPreg_msgs (p : Page) (o : Nat) (v : W32) : (d.setPreg p o v).msgs = d.msgs := rfl
@[simp] theorem setPreg_credits (p : Page) (o : Nat) (v : W32) : (d.setPreg p o v).credits = d.credits := rfl
@[simp] theorem setPreg_mc (p : Page) (o : Nat) (v : W32) : (d.setPreg p o v).mc = d.mc := rfl
@[simp] theorem setPreg_batches (p : Page) (o : Nat) (v : W32) : (d.setPreg p o v).batches = d.batches := rfl
@[simp] theorem setPreg_ports (p : Page) (o : Nat) (v : W32) : (d.setPreg p o v).ports = d.ports := rfl
@[simp] theorem setPreg_drovers (p : Page) (o : Nat) (v : W32) : (d.setPreg p o v).drovers = d.drovers := rfl
@[simp] theorem setPreg_sidings (p : Page) (o : Nat) (v : W32) : (d.setPreg p o v).sidings = d.sidings := rfl
@[simp] theorem setPreg_forges (p : Page) (o : Nat) (v : W32) : (d.setPreg p o v).forges = d.forges := rfl
@[simp] theorem setPreg_queues (p : Page) (o : Nat) (v : W32) : (d.setPreg p o v).queues = d.queues := rfl
@[simp] theorem setPreg_pcie (p : Page) (o : Nat) (v : W32) : (d.setPreg p o v).pcie = d.pcie := rfl
@[simp] theorem setPreg_msixTable (p : Page) (o : Nat) (v : W32) : (d.setPreg p o v).msixTable = d.msixTable := rfl
@[simp] theorem setPreg_pba (p : Page) (o : Nat) (v : W32) : (d.setPreg p o v).pba = d.pba := rfl
@[simp] theorem setPreg_mem (p : Page) (o : Nat) (v : W32) : (d.setPreg p o v).mem = d.mem := rfl
@[simp] theorem setPreg_epoch (p : Page) (o : Nat) (v : W32) : (d.setPreg p o v).epoch = d.epoch := rfl
@[simp] theorem setPreg_shedFill (p : Page) (o : Nat) (v : W32) : (d.setPreg p o v).shedFill = d.shedFill := rfl
@[simp] theorem setPreg_chanFill (p : Page) (o : Nat) (v : W32) : (d.setPreg p o v).chanFill = d.chanFill := rfl
@[simp] theorem setPreg_bad (p : Page) (o : Nat) (v : W32) : (d.setPreg p o v).bad = d.bad := rfl
@[simp] theorem setPreg_ce (p : Page) (o : Nat) (v : W32) : (d.setPreg p o v).ce = d.ce := rfl
@[simp] theorem setPreg_ledgers (p : Page) (o : Nat) (v : W32) : (d.setPreg p o v).ledgers = d.ledgers := rfl
@[simp] theorem setPreg_tack (p : Page) (o : Nat) (v : W32) : (d.setPreg p o v).tack = d.tack := rfl
@[simp] theorem setPreg_tackBad (p : Page) (o : Nat) (v : W32) : (d.setPreg p o v).tackBad = d.tackBad := rfl
@[simp] theorem setPreg_sram (p : Page) (o : Nat) (v : W32) : (d.setPreg p o v).sram = d.sram := rfl
@[simp] theorem setPreg_host (p : Page) (o : Nat) (v : W32) : (d.setPreg p o v).host = d.host := rfl
@[simp] theorem setPreg_hostBad (p : Page) (o : Nat) (v : W32) : (d.setPreg p o v).hostBad = d.hostBad := rfl
@[simp] theorem setPreg_free (p : Page) (o : Nat) (v : W32) : (d.setPreg p o v).free = d.free := rfl
@[simp] theorem setPreg_out (p : Page) (o : Nat) (v : W32) : (d.setPreg p o v).out = d.out := rfl

@[simp] theorem modStall_ctr (st : StallId) (f : Stall → Stall) : (d.modStall st f).ctr = d.ctr := rfl
@[simp] theorem modStall_tick (st : StallId) (f : Stall → Stall) : (d.modStall st f).tick = d.tick := rfl
@[simp] theorem modStall_atStep3 (st : StallId) (f : Stall → Stall) : (d.modStall st f).atStep3 = d.atStep3 := rfl
@[simp] theorem modStall_atStep6 (st : StallId) (f : Stall → Stall) : (d.modStall st f).atStep6 = d.atStep6 := rfl
@[simp] theorem modStall_env (st : StallId) (f : Stall → Stall) : (d.modStall st f).env = d.env := rfl
@[simp] theorem modStall_boot (st : StallId) (f : Stall → Stall) : (d.modStall st f).boot = d.boot := rfl
@[simp] theorem modStall_trust (st : StallId) (f : Stall → Stall) : (d.modStall st f).trust = d.trust := rfl
@[simp] theorem modStall_banks (st : StallId) (f : Stall → Stall) : (d.modStall st f).banks = d.banks := rfl
@[simp] theorem modStall_commits (st : StallId) (f : Stall → Stall) : (d.modStall st f).commits = d.commits := rfl
@[simp] theorem modStall_regs (st : StallId) (f : Stall → Stall) : (d.modStall st f).regs = d.regs := rfl
@[simp] theorem modStall_tally (st : StallId) (f : Stall → Stall) : (d.modStall st f).tally = d.tally := rfl
@[simp] theorem modStall_bist (st : StallId) (f : Stall → Stall) : (d.modStall st f).bist = d.bist := rfl
@[simp] theorem modStall_yards (st : StallId) (f : Stall → Stall) : (d.modStall st f).yards = d.yards := rfl
@[simp] theorem modStall_pwr (st : StallId) (f : Stall → Stall) : (d.modStall st f).pwr = d.pwr := rfl
@[simp] theorem modStall_tap (st : StallId) (f : Stall → Stall) : (d.modStall st f).tap = d.tap := rfl
@[simp] theorem modStall_msgs (st : StallId) (f : Stall → Stall) : (d.modStall st f).msgs = d.msgs := rfl
@[simp] theorem modStall_credits (st : StallId) (f : Stall → Stall) : (d.modStall st f).credits = d.credits := rfl
@[simp] theorem modStall_mc (st : StallId) (f : Stall → Stall) : (d.modStall st f).mc = d.mc := rfl
@[simp] theorem modStall_batches (st : StallId) (f : Stall → Stall) : (d.modStall st f).batches = d.batches := rfl
@[simp] theorem modStall_ports (st : StallId) (f : Stall → Stall) : (d.modStall st f).ports = d.ports := rfl
@[simp] theorem modStall_drovers (st : StallId) (f : Stall → Stall) : (d.modStall st f).drovers = d.drovers := rfl
@[simp] theorem modStall_sidings (st : StallId) (f : Stall → Stall) : (d.modStall st f).sidings = d.sidings := rfl
@[simp] theorem modStall_forges (st : StallId) (f : Stall → Stall) : (d.modStall st f).forges = d.forges := rfl
@[simp] theorem modStall_queues (st : StallId) (f : Stall → Stall) : (d.modStall st f).queues = d.queues := rfl
@[simp] theorem modStall_pcie (st : StallId) (f : Stall → Stall) : (d.modStall st f).pcie = d.pcie := rfl
@[simp] theorem modStall_msixTable (st : StallId) (f : Stall → Stall) : (d.modStall st f).msixTable = d.msixTable := rfl
@[simp] theorem modStall_pba (st : StallId) (f : Stall → Stall) : (d.modStall st f).pba = d.pba := rfl
@[simp] theorem modStall_mem (st : StallId) (f : Stall → Stall) : (d.modStall st f).mem = d.mem := rfl
@[simp] theorem modStall_epoch (st : StallId) (f : Stall → Stall) : (d.modStall st f).epoch = d.epoch := rfl
@[simp] theorem modStall_shedFill (st : StallId) (f : Stall → Stall) : (d.modStall st f).shedFill = d.shedFill := rfl
@[simp] theorem modStall_chanFill (st : StallId) (f : Stall → Stall) : (d.modStall st f).chanFill = d.chanFill := rfl
@[simp] theorem modStall_bad (st : StallId) (f : Stall → Stall) : (d.modStall st f).bad = d.bad := rfl
@[simp] theorem modStall_ce (st : StallId) (f : Stall → Stall) : (d.modStall st f).ce = d.ce := rfl
@[simp] theorem modStall_ledgers (st : StallId) (f : Stall → Stall) : (d.modStall st f).ledgers = d.ledgers := rfl
@[simp] theorem modStall_tack (st : StallId) (f : Stall → Stall) : (d.modStall st f).tack = d.tack := rfl
@[simp] theorem modStall_tackBad (st : StallId) (f : Stall → Stall) : (d.modStall st f).tackBad = d.tackBad := rfl
@[simp] theorem modStall_sram (st : StallId) (f : Stall → Stall) : (d.modStall st f).sram = d.sram := rfl
@[simp] theorem modStall_host (st : StallId) (f : Stall → Stall) : (d.modStall st f).host = d.host := rfl
@[simp] theorem modStall_hostBad (st : StallId) (f : Stall → Stall) : (d.modStall st f).hostBad = d.hostBad := rfl
@[simp] theorem modStall_free (st : StallId) (f : Stall → Stall) : (d.modStall st f).free = d.free := rfl
@[simp] theorem modStall_out (st : StallId) (f : Stall → Stall) : (d.modStall st f).out = d.out := rfl

@[simp] theorem modCtx_ctr (st : StallId) (sl : Slot) (f : SlotCtx → SlotCtx) : (d.modCtx st sl f).ctr = d.ctr := rfl
@[simp] theorem modCtx_tick (st : StallId) (sl : Slot) (f : SlotCtx → SlotCtx) : (d.modCtx st sl f).tick = d.tick := rfl
@[simp] theorem modCtx_atStep3 (st : StallId) (sl : Slot) (f : SlotCtx → SlotCtx) : (d.modCtx st sl f).atStep3 = d.atStep3 := rfl
@[simp] theorem modCtx_atStep6 (st : StallId) (sl : Slot) (f : SlotCtx → SlotCtx) : (d.modCtx st sl f).atStep6 = d.atStep6 := rfl
@[simp] theorem modCtx_env (st : StallId) (sl : Slot) (f : SlotCtx → SlotCtx) : (d.modCtx st sl f).env = d.env := rfl
@[simp] theorem modCtx_boot (st : StallId) (sl : Slot) (f : SlotCtx → SlotCtx) : (d.modCtx st sl f).boot = d.boot := rfl
@[simp] theorem modCtx_trust (st : StallId) (sl : Slot) (f : SlotCtx → SlotCtx) : (d.modCtx st sl f).trust = d.trust := rfl
@[simp] theorem modCtx_banks (st : StallId) (sl : Slot) (f : SlotCtx → SlotCtx) : (d.modCtx st sl f).banks = d.banks := rfl
@[simp] theorem modCtx_commits (st : StallId) (sl : Slot) (f : SlotCtx → SlotCtx) : (d.modCtx st sl f).commits = d.commits := rfl
@[simp] theorem modCtx_regs (st : StallId) (sl : Slot) (f : SlotCtx → SlotCtx) : (d.modCtx st sl f).regs = d.regs := rfl
@[simp] theorem modCtx_tally (st : StallId) (sl : Slot) (f : SlotCtx → SlotCtx) : (d.modCtx st sl f).tally = d.tally := rfl
@[simp] theorem modCtx_bist (st : StallId) (sl : Slot) (f : SlotCtx → SlotCtx) : (d.modCtx st sl f).bist = d.bist := rfl
@[simp] theorem modCtx_yards (st : StallId) (sl : Slot) (f : SlotCtx → SlotCtx) : (d.modCtx st sl f).yards = d.yards := rfl
@[simp] theorem modCtx_pwr (st : StallId) (sl : Slot) (f : SlotCtx → SlotCtx) : (d.modCtx st sl f).pwr = d.pwr := rfl
@[simp] theorem modCtx_tap (st : StallId) (sl : Slot) (f : SlotCtx → SlotCtx) : (d.modCtx st sl f).tap = d.tap := rfl
@[simp] theorem modCtx_msgs (st : StallId) (sl : Slot) (f : SlotCtx → SlotCtx) : (d.modCtx st sl f).msgs = d.msgs := rfl
@[simp] theorem modCtx_credits (st : StallId) (sl : Slot) (f : SlotCtx → SlotCtx) : (d.modCtx st sl f).credits = d.credits := rfl
@[simp] theorem modCtx_mc (st : StallId) (sl : Slot) (f : SlotCtx → SlotCtx) : (d.modCtx st sl f).mc = d.mc := rfl
@[simp] theorem modCtx_batches (st : StallId) (sl : Slot) (f : SlotCtx → SlotCtx) : (d.modCtx st sl f).batches = d.batches := rfl
@[simp] theorem modCtx_ports (st : StallId) (sl : Slot) (f : SlotCtx → SlotCtx) : (d.modCtx st sl f).ports = d.ports := rfl
@[simp] theorem modCtx_drovers (st : StallId) (sl : Slot) (f : SlotCtx → SlotCtx) : (d.modCtx st sl f).drovers = d.drovers := rfl
@[simp] theorem modCtx_sidings (st : StallId) (sl : Slot) (f : SlotCtx → SlotCtx) : (d.modCtx st sl f).sidings = d.sidings := rfl
@[simp] theorem modCtx_forges (st : StallId) (sl : Slot) (f : SlotCtx → SlotCtx) : (d.modCtx st sl f).forges = d.forges := rfl
@[simp] theorem modCtx_queues (st : StallId) (sl : Slot) (f : SlotCtx → SlotCtx) : (d.modCtx st sl f).queues = d.queues := rfl
@[simp] theorem modCtx_pcie (st : StallId) (sl : Slot) (f : SlotCtx → SlotCtx) : (d.modCtx st sl f).pcie = d.pcie := rfl
@[simp] theorem modCtx_msixTable (st : StallId) (sl : Slot) (f : SlotCtx → SlotCtx) : (d.modCtx st sl f).msixTable = d.msixTable := rfl
@[simp] theorem modCtx_pba (st : StallId) (sl : Slot) (f : SlotCtx → SlotCtx) : (d.modCtx st sl f).pba = d.pba := rfl
@[simp] theorem modCtx_mem (st : StallId) (sl : Slot) (f : SlotCtx → SlotCtx) : (d.modCtx st sl f).mem = d.mem := rfl
@[simp] theorem modCtx_epoch (st : StallId) (sl : Slot) (f : SlotCtx → SlotCtx) : (d.modCtx st sl f).epoch = d.epoch := rfl
@[simp] theorem modCtx_shedFill (st : StallId) (sl : Slot) (f : SlotCtx → SlotCtx) : (d.modCtx st sl f).shedFill = d.shedFill := rfl
@[simp] theorem modCtx_chanFill (st : StallId) (sl : Slot) (f : SlotCtx → SlotCtx) : (d.modCtx st sl f).chanFill = d.chanFill := rfl
@[simp] theorem modCtx_bad (st : StallId) (sl : Slot) (f : SlotCtx → SlotCtx) : (d.modCtx st sl f).bad = d.bad := rfl
@[simp] theorem modCtx_ce (st : StallId) (sl : Slot) (f : SlotCtx → SlotCtx) : (d.modCtx st sl f).ce = d.ce := rfl
@[simp] theorem modCtx_ledgers (st : StallId) (sl : Slot) (f : SlotCtx → SlotCtx) : (d.modCtx st sl f).ledgers = d.ledgers := rfl
@[simp] theorem modCtx_tack (st : StallId) (sl : Slot) (f : SlotCtx → SlotCtx) : (d.modCtx st sl f).tack = d.tack := rfl
@[simp] theorem modCtx_tackBad (st : StallId) (sl : Slot) (f : SlotCtx → SlotCtx) : (d.modCtx st sl f).tackBad = d.tackBad := rfl
@[simp] theorem modCtx_sram (st : StallId) (sl : Slot) (f : SlotCtx → SlotCtx) : (d.modCtx st sl f).sram = d.sram := rfl
@[simp] theorem modCtx_host (st : StallId) (sl : Slot) (f : SlotCtx → SlotCtx) : (d.modCtx st sl f).host = d.host := rfl
@[simp] theorem modCtx_hostBad (st : StallId) (sl : Slot) (f : SlotCtx → SlotCtx) : (d.modCtx st sl f).hostBad = d.hostBad := rfl
@[simp] theorem modCtx_free (st : StallId) (sl : Slot) (f : SlotCtx → SlotCtx) : (d.modCtx st sl f).free = d.free := rfl
@[simp] theorem modCtx_out (st : StallId) (sl : Slot) (f : SlotCtx → SlotCtx) : (d.modCtx st sl f).out = d.out := rfl

@[simp] theorem modCur_ctr (st : StallId) (f : SlotCtx → SlotCtx) : (d.modCur st f).ctr = d.ctr := rfl
@[simp] theorem modCur_tick (st : StallId) (f : SlotCtx → SlotCtx) : (d.modCur st f).tick = d.tick := rfl
@[simp] theorem modCur_atStep3 (st : StallId) (f : SlotCtx → SlotCtx) : (d.modCur st f).atStep3 = d.atStep3 := rfl
@[simp] theorem modCur_atStep6 (st : StallId) (f : SlotCtx → SlotCtx) : (d.modCur st f).atStep6 = d.atStep6 := rfl
@[simp] theorem modCur_env (st : StallId) (f : SlotCtx → SlotCtx) : (d.modCur st f).env = d.env := rfl
@[simp] theorem modCur_boot (st : StallId) (f : SlotCtx → SlotCtx) : (d.modCur st f).boot = d.boot := rfl
@[simp] theorem modCur_trust (st : StallId) (f : SlotCtx → SlotCtx) : (d.modCur st f).trust = d.trust := rfl
@[simp] theorem modCur_banks (st : StallId) (f : SlotCtx → SlotCtx) : (d.modCur st f).banks = d.banks := rfl
@[simp] theorem modCur_commits (st : StallId) (f : SlotCtx → SlotCtx) : (d.modCur st f).commits = d.commits := rfl
@[simp] theorem modCur_regs (st : StallId) (f : SlotCtx → SlotCtx) : (d.modCur st f).regs = d.regs := rfl
@[simp] theorem modCur_tally (st : StallId) (f : SlotCtx → SlotCtx) : (d.modCur st f).tally = d.tally := rfl
@[simp] theorem modCur_bist (st : StallId) (f : SlotCtx → SlotCtx) : (d.modCur st f).bist = d.bist := rfl
@[simp] theorem modCur_yards (st : StallId) (f : SlotCtx → SlotCtx) : (d.modCur st f).yards = d.yards := rfl
@[simp] theorem modCur_pwr (st : StallId) (f : SlotCtx → SlotCtx) : (d.modCur st f).pwr = d.pwr := rfl
@[simp] theorem modCur_tap (st : StallId) (f : SlotCtx → SlotCtx) : (d.modCur st f).tap = d.tap := rfl
@[simp] theorem modCur_msgs (st : StallId) (f : SlotCtx → SlotCtx) : (d.modCur st f).msgs = d.msgs := rfl
@[simp] theorem modCur_credits (st : StallId) (f : SlotCtx → SlotCtx) : (d.modCur st f).credits = d.credits := rfl
@[simp] theorem modCur_mc (st : StallId) (f : SlotCtx → SlotCtx) : (d.modCur st f).mc = d.mc := rfl
@[simp] theorem modCur_batches (st : StallId) (f : SlotCtx → SlotCtx) : (d.modCur st f).batches = d.batches := rfl
@[simp] theorem modCur_ports (st : StallId) (f : SlotCtx → SlotCtx) : (d.modCur st f).ports = d.ports := rfl
@[simp] theorem modCur_drovers (st : StallId) (f : SlotCtx → SlotCtx) : (d.modCur st f).drovers = d.drovers := rfl
@[simp] theorem modCur_sidings (st : StallId) (f : SlotCtx → SlotCtx) : (d.modCur st f).sidings = d.sidings := rfl
@[simp] theorem modCur_forges (st : StallId) (f : SlotCtx → SlotCtx) : (d.modCur st f).forges = d.forges := rfl
@[simp] theorem modCur_queues (st : StallId) (f : SlotCtx → SlotCtx) : (d.modCur st f).queues = d.queues := rfl
@[simp] theorem modCur_pcie (st : StallId) (f : SlotCtx → SlotCtx) : (d.modCur st f).pcie = d.pcie := rfl
@[simp] theorem modCur_msixTable (st : StallId) (f : SlotCtx → SlotCtx) : (d.modCur st f).msixTable = d.msixTable := rfl
@[simp] theorem modCur_pba (st : StallId) (f : SlotCtx → SlotCtx) : (d.modCur st f).pba = d.pba := rfl
@[simp] theorem modCur_mem (st : StallId) (f : SlotCtx → SlotCtx) : (d.modCur st f).mem = d.mem := rfl
@[simp] theorem modCur_epoch (st : StallId) (f : SlotCtx → SlotCtx) : (d.modCur st f).epoch = d.epoch := rfl
@[simp] theorem modCur_shedFill (st : StallId) (f : SlotCtx → SlotCtx) : (d.modCur st f).shedFill = d.shedFill := rfl
@[simp] theorem modCur_chanFill (st : StallId) (f : SlotCtx → SlotCtx) : (d.modCur st f).chanFill = d.chanFill := rfl
@[simp] theorem modCur_bad (st : StallId) (f : SlotCtx → SlotCtx) : (d.modCur st f).bad = d.bad := rfl
@[simp] theorem modCur_ce (st : StallId) (f : SlotCtx → SlotCtx) : (d.modCur st f).ce = d.ce := rfl
@[simp] theorem modCur_ledgers (st : StallId) (f : SlotCtx → SlotCtx) : (d.modCur st f).ledgers = d.ledgers := rfl
@[simp] theorem modCur_tack (st : StallId) (f : SlotCtx → SlotCtx) : (d.modCur st f).tack = d.tack := rfl
@[simp] theorem modCur_tackBad (st : StallId) (f : SlotCtx → SlotCtx) : (d.modCur st f).tackBad = d.tackBad := rfl
@[simp] theorem modCur_sram (st : StallId) (f : SlotCtx → SlotCtx) : (d.modCur st f).sram = d.sram := rfl
@[simp] theorem modCur_host (st : StallId) (f : SlotCtx → SlotCtx) : (d.modCur st f).host = d.host := rfl
@[simp] theorem modCur_hostBad (st : StallId) (f : SlotCtx → SlotCtx) : (d.modCur st f).hostBad = d.hostBad := rfl
@[simp] theorem modCur_free (st : StallId) (f : SlotCtx → SlotCtx) : (d.modCur st f).free = d.free := rfl
@[simp] theorem modCur_out (st : StallId) (f : SlotCtx → SlotCtx) : (d.modCur st f).out = d.out := rfl

@[simp] theorem setSreg_ctr (st : StallId) (r : SReg) (v : W64) : (d.setSreg st r v).ctr = d.ctr := rfl
@[simp] theorem setSreg_tick (st : StallId) (r : SReg) (v : W64) : (d.setSreg st r v).tick = d.tick := rfl
@[simp] theorem setSreg_atStep3 (st : StallId) (r : SReg) (v : W64) : (d.setSreg st r v).atStep3 = d.atStep3 := rfl
@[simp] theorem setSreg_atStep6 (st : StallId) (r : SReg) (v : W64) : (d.setSreg st r v).atStep6 = d.atStep6 := rfl
@[simp] theorem setSreg_env (st : StallId) (r : SReg) (v : W64) : (d.setSreg st r v).env = d.env := rfl
@[simp] theorem setSreg_boot (st : StallId) (r : SReg) (v : W64) : (d.setSreg st r v).boot = d.boot := rfl
@[simp] theorem setSreg_trust (st : StallId) (r : SReg) (v : W64) : (d.setSreg st r v).trust = d.trust := rfl
@[simp] theorem setSreg_banks (st : StallId) (r : SReg) (v : W64) : (d.setSreg st r v).banks = d.banks := rfl
@[simp] theorem setSreg_commits (st : StallId) (r : SReg) (v : W64) : (d.setSreg st r v).commits = d.commits := rfl
@[simp] theorem setSreg_regs (st : StallId) (r : SReg) (v : W64) : (d.setSreg st r v).regs = d.regs := rfl
@[simp] theorem setSreg_tally (st : StallId) (r : SReg) (v : W64) : (d.setSreg st r v).tally = d.tally := rfl
@[simp] theorem setSreg_bist (st : StallId) (r : SReg) (v : W64) : (d.setSreg st r v).bist = d.bist := rfl
@[simp] theorem setSreg_yards (st : StallId) (r : SReg) (v : W64) : (d.setSreg st r v).yards = d.yards := rfl
@[simp] theorem setSreg_pwr (st : StallId) (r : SReg) (v : W64) : (d.setSreg st r v).pwr = d.pwr := rfl
@[simp] theorem setSreg_tap (st : StallId) (r : SReg) (v : W64) : (d.setSreg st r v).tap = d.tap := rfl
@[simp] theorem setSreg_msgs (st : StallId) (r : SReg) (v : W64) : (d.setSreg st r v).msgs = d.msgs := rfl
@[simp] theorem setSreg_credits (st : StallId) (r : SReg) (v : W64) : (d.setSreg st r v).credits = d.credits := rfl
@[simp] theorem setSreg_mc (st : StallId) (r : SReg) (v : W64) : (d.setSreg st r v).mc = d.mc := rfl
@[simp] theorem setSreg_batches (st : StallId) (r : SReg) (v : W64) : (d.setSreg st r v).batches = d.batches := rfl
@[simp] theorem setSreg_ports (st : StallId) (r : SReg) (v : W64) : (d.setSreg st r v).ports = d.ports := rfl
@[simp] theorem setSreg_drovers (st : StallId) (r : SReg) (v : W64) : (d.setSreg st r v).drovers = d.drovers := rfl
@[simp] theorem setSreg_sidings (st : StallId) (r : SReg) (v : W64) : (d.setSreg st r v).sidings = d.sidings := rfl
@[simp] theorem setSreg_forges (st : StallId) (r : SReg) (v : W64) : (d.setSreg st r v).forges = d.forges := rfl
@[simp] theorem setSreg_queues (st : StallId) (r : SReg) (v : W64) : (d.setSreg st r v).queues = d.queues := rfl
@[simp] theorem setSreg_pcie (st : StallId) (r : SReg) (v : W64) : (d.setSreg st r v).pcie = d.pcie := rfl
@[simp] theorem setSreg_msixTable (st : StallId) (r : SReg) (v : W64) : (d.setSreg st r v).msixTable = d.msixTable := rfl
@[simp] theorem setSreg_pba (st : StallId) (r : SReg) (v : W64) : (d.setSreg st r v).pba = d.pba := rfl
@[simp] theorem setSreg_mem (st : StallId) (r : SReg) (v : W64) : (d.setSreg st r v).mem = d.mem := rfl
@[simp] theorem setSreg_epoch (st : StallId) (r : SReg) (v : W64) : (d.setSreg st r v).epoch = d.epoch := rfl
@[simp] theorem setSreg_shedFill (st : StallId) (r : SReg) (v : W64) : (d.setSreg st r v).shedFill = d.shedFill := rfl
@[simp] theorem setSreg_chanFill (st : StallId) (r : SReg) (v : W64) : (d.setSreg st r v).chanFill = d.chanFill := rfl
@[simp] theorem setSreg_bad (st : StallId) (r : SReg) (v : W64) : (d.setSreg st r v).bad = d.bad := rfl
@[simp] theorem setSreg_ce (st : StallId) (r : SReg) (v : W64) : (d.setSreg st r v).ce = d.ce := rfl
@[simp] theorem setSreg_ledgers (st : StallId) (r : SReg) (v : W64) : (d.setSreg st r v).ledgers = d.ledgers := rfl
@[simp] theorem setSreg_tack (st : StallId) (r : SReg) (v : W64) : (d.setSreg st r v).tack = d.tack := rfl
@[simp] theorem setSreg_tackBad (st : StallId) (r : SReg) (v : W64) : (d.setSreg st r v).tackBad = d.tackBad := rfl
@[simp] theorem setSreg_sram (st : StallId) (r : SReg) (v : W64) : (d.setSreg st r v).sram = d.sram := rfl
@[simp] theorem setSreg_host (st : StallId) (r : SReg) (v : W64) : (d.setSreg st r v).host = d.host := rfl
@[simp] theorem setSreg_hostBad (st : StallId) (r : SReg) (v : W64) : (d.setSreg st r v).hostBad = d.hostBad := rfl
@[simp] theorem setSreg_free (st : StallId) (r : SReg) (v : W64) : (d.setSreg st r v).free = d.free := rfl
@[simp] theorem setSreg_out (st : StallId) (r : SReg) (v : W64) : (d.setSreg st r v).out = d.out := rfl

@[simp] theorem modMbx_ctr (st : StallId) (m : Fin 8) (f : Mailbox → Mailbox) : (d.modMbx st m f).ctr = d.ctr := rfl
@[simp] theorem modMbx_tick (st : StallId) (m : Fin 8) (f : Mailbox → Mailbox) : (d.modMbx st m f).tick = d.tick := rfl
@[simp] theorem modMbx_atStep3 (st : StallId) (m : Fin 8) (f : Mailbox → Mailbox) : (d.modMbx st m f).atStep3 = d.atStep3 := rfl
@[simp] theorem modMbx_atStep6 (st : StallId) (m : Fin 8) (f : Mailbox → Mailbox) : (d.modMbx st m f).atStep6 = d.atStep6 := rfl
@[simp] theorem modMbx_env (st : StallId) (m : Fin 8) (f : Mailbox → Mailbox) : (d.modMbx st m f).env = d.env := rfl
@[simp] theorem modMbx_boot (st : StallId) (m : Fin 8) (f : Mailbox → Mailbox) : (d.modMbx st m f).boot = d.boot := rfl
@[simp] theorem modMbx_trust (st : StallId) (m : Fin 8) (f : Mailbox → Mailbox) : (d.modMbx st m f).trust = d.trust := rfl
@[simp] theorem modMbx_banks (st : StallId) (m : Fin 8) (f : Mailbox → Mailbox) : (d.modMbx st m f).banks = d.banks := rfl
@[simp] theorem modMbx_commits (st : StallId) (m : Fin 8) (f : Mailbox → Mailbox) : (d.modMbx st m f).commits = d.commits := rfl
@[simp] theorem modMbx_regs (st : StallId) (m : Fin 8) (f : Mailbox → Mailbox) : (d.modMbx st m f).regs = d.regs := rfl
@[simp] theorem modMbx_tally (st : StallId) (m : Fin 8) (f : Mailbox → Mailbox) : (d.modMbx st m f).tally = d.tally := rfl
@[simp] theorem modMbx_bist (st : StallId) (m : Fin 8) (f : Mailbox → Mailbox) : (d.modMbx st m f).bist = d.bist := rfl
@[simp] theorem modMbx_yards (st : StallId) (m : Fin 8) (f : Mailbox → Mailbox) : (d.modMbx st m f).yards = d.yards := rfl
@[simp] theorem modMbx_pwr (st : StallId) (m : Fin 8) (f : Mailbox → Mailbox) : (d.modMbx st m f).pwr = d.pwr := rfl
@[simp] theorem modMbx_tap (st : StallId) (m : Fin 8) (f : Mailbox → Mailbox) : (d.modMbx st m f).tap = d.tap := rfl
@[simp] theorem modMbx_msgs (st : StallId) (m : Fin 8) (f : Mailbox → Mailbox) : (d.modMbx st m f).msgs = d.msgs := rfl
@[simp] theorem modMbx_credits (st : StallId) (m : Fin 8) (f : Mailbox → Mailbox) : (d.modMbx st m f).credits = d.credits := rfl
@[simp] theorem modMbx_mc (st : StallId) (m : Fin 8) (f : Mailbox → Mailbox) : (d.modMbx st m f).mc = d.mc := rfl
@[simp] theorem modMbx_batches (st : StallId) (m : Fin 8) (f : Mailbox → Mailbox) : (d.modMbx st m f).batches = d.batches := rfl
@[simp] theorem modMbx_ports (st : StallId) (m : Fin 8) (f : Mailbox → Mailbox) : (d.modMbx st m f).ports = d.ports := rfl
@[simp] theorem modMbx_drovers (st : StallId) (m : Fin 8) (f : Mailbox → Mailbox) : (d.modMbx st m f).drovers = d.drovers := rfl
@[simp] theorem modMbx_sidings (st : StallId) (m : Fin 8) (f : Mailbox → Mailbox) : (d.modMbx st m f).sidings = d.sidings := rfl
@[simp] theorem modMbx_forges (st : StallId) (m : Fin 8) (f : Mailbox → Mailbox) : (d.modMbx st m f).forges = d.forges := rfl
@[simp] theorem modMbx_queues (st : StallId) (m : Fin 8) (f : Mailbox → Mailbox) : (d.modMbx st m f).queues = d.queues := rfl
@[simp] theorem modMbx_pcie (st : StallId) (m : Fin 8) (f : Mailbox → Mailbox) : (d.modMbx st m f).pcie = d.pcie := rfl
@[simp] theorem modMbx_msixTable (st : StallId) (m : Fin 8) (f : Mailbox → Mailbox) : (d.modMbx st m f).msixTable = d.msixTable := rfl
@[simp] theorem modMbx_pba (st : StallId) (m : Fin 8) (f : Mailbox → Mailbox) : (d.modMbx st m f).pba = d.pba := rfl
@[simp] theorem modMbx_mem (st : StallId) (m : Fin 8) (f : Mailbox → Mailbox) : (d.modMbx st m f).mem = d.mem := rfl
@[simp] theorem modMbx_epoch (st : StallId) (m : Fin 8) (f : Mailbox → Mailbox) : (d.modMbx st m f).epoch = d.epoch := rfl
@[simp] theorem modMbx_shedFill (st : StallId) (m : Fin 8) (f : Mailbox → Mailbox) : (d.modMbx st m f).shedFill = d.shedFill := rfl
@[simp] theorem modMbx_chanFill (st : StallId) (m : Fin 8) (f : Mailbox → Mailbox) : (d.modMbx st m f).chanFill = d.chanFill := rfl
@[simp] theorem modMbx_bad (st : StallId) (m : Fin 8) (f : Mailbox → Mailbox) : (d.modMbx st m f).bad = d.bad := rfl
@[simp] theorem modMbx_ce (st : StallId) (m : Fin 8) (f : Mailbox → Mailbox) : (d.modMbx st m f).ce = d.ce := rfl
@[simp] theorem modMbx_ledgers (st : StallId) (m : Fin 8) (f : Mailbox → Mailbox) : (d.modMbx st m f).ledgers = d.ledgers := rfl
@[simp] theorem modMbx_tack (st : StallId) (m : Fin 8) (f : Mailbox → Mailbox) : (d.modMbx st m f).tack = d.tack := rfl
@[simp] theorem modMbx_tackBad (st : StallId) (m : Fin 8) (f : Mailbox → Mailbox) : (d.modMbx st m f).tackBad = d.tackBad := rfl
@[simp] theorem modMbx_sram (st : StallId) (m : Fin 8) (f : Mailbox → Mailbox) : (d.modMbx st m f).sram = d.sram := rfl
@[simp] theorem modMbx_host (st : StallId) (m : Fin 8) (f : Mailbox → Mailbox) : (d.modMbx st m f).host = d.host := rfl
@[simp] theorem modMbx_hostBad (st : StallId) (m : Fin 8) (f : Mailbox → Mailbox) : (d.modMbx st m f).hostBad = d.hostBad := rfl
@[simp] theorem modMbx_free (st : StallId) (m : Fin 8) (f : Mailbox → Mailbox) : (d.modMbx st m f).free = d.free := rfl
@[simp] theorem modMbx_out (st : StallId) (m : Fin 8) (f : Mailbox → Mailbox) : (d.modMbx st m f).out = d.out := rfl

@[simp] theorem retire_ctr (st : StallId) (n : Nat) : (d.retire st n).ctr = d.ctr := rfl
@[simp] theorem retire_tick (st : StallId) (n : Nat) : (d.retire st n).tick = d.tick := rfl
@[simp] theorem retire_atStep3 (st : StallId) (n : Nat) : (d.retire st n).atStep3 = d.atStep3 := rfl
@[simp] theorem retire_atStep6 (st : StallId) (n : Nat) : (d.retire st n).atStep6 = d.atStep6 := rfl
@[simp] theorem retire_env (st : StallId) (n : Nat) : (d.retire st n).env = d.env := rfl
@[simp] theorem retire_boot (st : StallId) (n : Nat) : (d.retire st n).boot = d.boot := rfl
@[simp] theorem retire_trust (st : StallId) (n : Nat) : (d.retire st n).trust = d.trust := rfl
@[simp] theorem retire_banks (st : StallId) (n : Nat) : (d.retire st n).banks = d.banks := rfl
@[simp] theorem retire_commits (st : StallId) (n : Nat) : (d.retire st n).commits = d.commits := rfl
@[simp] theorem retire_regs (st : StallId) (n : Nat) : (d.retire st n).regs = d.regs := rfl
@[simp] theorem retire_tally (st : StallId) (n : Nat) : (d.retire st n).tally = d.tally := rfl
@[simp] theorem retire_bist (st : StallId) (n : Nat) : (d.retire st n).bist = d.bist := rfl
@[simp] theorem retire_yards (st : StallId) (n : Nat) : (d.retire st n).yards = d.yards := rfl
@[simp] theorem retire_pwr (st : StallId) (n : Nat) : (d.retire st n).pwr = d.pwr := rfl
@[simp] theorem retire_tap (st : StallId) (n : Nat) : (d.retire st n).tap = d.tap := rfl
@[simp] theorem retire_msgs (st : StallId) (n : Nat) : (d.retire st n).msgs = d.msgs := rfl
@[simp] theorem retire_credits (st : StallId) (n : Nat) : (d.retire st n).credits = d.credits := rfl
@[simp] theorem retire_mc (st : StallId) (n : Nat) : (d.retire st n).mc = d.mc := rfl
@[simp] theorem retire_batches (st : StallId) (n : Nat) : (d.retire st n).batches = d.batches := rfl
@[simp] theorem retire_ports (st : StallId) (n : Nat) : (d.retire st n).ports = d.ports := rfl
@[simp] theorem retire_drovers (st : StallId) (n : Nat) : (d.retire st n).drovers = d.drovers := rfl
@[simp] theorem retire_sidings (st : StallId) (n : Nat) : (d.retire st n).sidings = d.sidings := rfl
@[simp] theorem retire_forges (st : StallId) (n : Nat) : (d.retire st n).forges = d.forges := rfl
@[simp] theorem retire_queues (st : StallId) (n : Nat) : (d.retire st n).queues = d.queues := rfl
@[simp] theorem retire_pcie (st : StallId) (n : Nat) : (d.retire st n).pcie = d.pcie := rfl
@[simp] theorem retire_msixTable (st : StallId) (n : Nat) : (d.retire st n).msixTable = d.msixTable := rfl
@[simp] theorem retire_pba (st : StallId) (n : Nat) : (d.retire st n).pba = d.pba := rfl
@[simp] theorem retire_mem (st : StallId) (n : Nat) : (d.retire st n).mem = d.mem := rfl
@[simp] theorem retire_epoch (st : StallId) (n : Nat) : (d.retire st n).epoch = d.epoch := rfl
@[simp] theorem retire_shedFill (st : StallId) (n : Nat) : (d.retire st n).shedFill = d.shedFill := rfl
@[simp] theorem retire_chanFill (st : StallId) (n : Nat) : (d.retire st n).chanFill = d.chanFill := rfl
@[simp] theorem retire_bad (st : StallId) (n : Nat) : (d.retire st n).bad = d.bad := rfl
@[simp] theorem retire_ce (st : StallId) (n : Nat) : (d.retire st n).ce = d.ce := rfl
@[simp] theorem retire_ledgers (st : StallId) (n : Nat) : (d.retire st n).ledgers = d.ledgers := rfl
@[simp] theorem retire_tack (st : StallId) (n : Nat) : (d.retire st n).tack = d.tack := rfl
@[simp] theorem retire_tackBad (st : StallId) (n : Nat) : (d.retire st n).tackBad = d.tackBad := rfl
@[simp] theorem retire_sram (st : StallId) (n : Nat) : (d.retire st n).sram = d.sram := rfl
@[simp] theorem retire_host (st : StallId) (n : Nat) : (d.retire st n).host = d.host := rfl
@[simp] theorem retire_hostBad (st : StallId) (n : Nat) : (d.retire st n).hostBad = d.hostBad := rfl
@[simp] theorem retire_free (st : StallId) (n : Nat) : (d.retire st n).free = d.free := rfl
@[simp] theorem retire_out (st : StallId) (n : Nat) : (d.retire st n).out = d.out := rfl

@[simp] theorem modMc_ctr (c : Chan) (f : MemCtl → MemCtl) : (d.modMc c f).ctr = d.ctr := rfl
@[simp] theorem modMc_tick (c : Chan) (f : MemCtl → MemCtl) : (d.modMc c f).tick = d.tick := rfl
@[simp] theorem modMc_atStep3 (c : Chan) (f : MemCtl → MemCtl) : (d.modMc c f).atStep3 = d.atStep3 := rfl
@[simp] theorem modMc_atStep6 (c : Chan) (f : MemCtl → MemCtl) : (d.modMc c f).atStep6 = d.atStep6 := rfl
@[simp] theorem modMc_env (c : Chan) (f : MemCtl → MemCtl) : (d.modMc c f).env = d.env := rfl
@[simp] theorem modMc_boot (c : Chan) (f : MemCtl → MemCtl) : (d.modMc c f).boot = d.boot := rfl
@[simp] theorem modMc_trust (c : Chan) (f : MemCtl → MemCtl) : (d.modMc c f).trust = d.trust := rfl
@[simp] theorem modMc_banks (c : Chan) (f : MemCtl → MemCtl) : (d.modMc c f).banks = d.banks := rfl
@[simp] theorem modMc_commits (c : Chan) (f : MemCtl → MemCtl) : (d.modMc c f).commits = d.commits := rfl
@[simp] theorem modMc_regs (c : Chan) (f : MemCtl → MemCtl) : (d.modMc c f).regs = d.regs := rfl
@[simp] theorem modMc_tally (c : Chan) (f : MemCtl → MemCtl) : (d.modMc c f).tally = d.tally := rfl
@[simp] theorem modMc_bist (c : Chan) (f : MemCtl → MemCtl) : (d.modMc c f).bist = d.bist := rfl
@[simp] theorem modMc_yards (c : Chan) (f : MemCtl → MemCtl) : (d.modMc c f).yards = d.yards := rfl
@[simp] theorem modMc_pwr (c : Chan) (f : MemCtl → MemCtl) : (d.modMc c f).pwr = d.pwr := rfl
@[simp] theorem modMc_tap (c : Chan) (f : MemCtl → MemCtl) : (d.modMc c f).tap = d.tap := rfl
@[simp] theorem modMc_stalls (c : Chan) (f : MemCtl → MemCtl) : (d.modMc c f).stalls = d.stalls := rfl
@[simp] theorem modMc_msgs (c : Chan) (f : MemCtl → MemCtl) : (d.modMc c f).msgs = d.msgs := rfl
@[simp] theorem modMc_credits (c : Chan) (f : MemCtl → MemCtl) : (d.modMc c f).credits = d.credits := rfl
@[simp] theorem modMc_batches (c : Chan) (f : MemCtl → MemCtl) : (d.modMc c f).batches = d.batches := rfl
@[simp] theorem modMc_ports (c : Chan) (f : MemCtl → MemCtl) : (d.modMc c f).ports = d.ports := rfl
@[simp] theorem modMc_drovers (c : Chan) (f : MemCtl → MemCtl) : (d.modMc c f).drovers = d.drovers := rfl
@[simp] theorem modMc_sidings (c : Chan) (f : MemCtl → MemCtl) : (d.modMc c f).sidings = d.sidings := rfl
@[simp] theorem modMc_forges (c : Chan) (f : MemCtl → MemCtl) : (d.modMc c f).forges = d.forges := rfl
@[simp] theorem modMc_queues (c : Chan) (f : MemCtl → MemCtl) : (d.modMc c f).queues = d.queues := rfl
@[simp] theorem modMc_pcie (c : Chan) (f : MemCtl → MemCtl) : (d.modMc c f).pcie = d.pcie := rfl
@[simp] theorem modMc_msixTable (c : Chan) (f : MemCtl → MemCtl) : (d.modMc c f).msixTable = d.msixTable := rfl
@[simp] theorem modMc_pba (c : Chan) (f : MemCtl → MemCtl) : (d.modMc c f).pba = d.pba := rfl
@[simp] theorem modMc_mem (c : Chan) (f : MemCtl → MemCtl) : (d.modMc c f).mem = d.mem := rfl
@[simp] theorem modMc_epoch (c : Chan) (f : MemCtl → MemCtl) : (d.modMc c f).epoch = d.epoch := rfl
@[simp] theorem modMc_shedFill (c : Chan) (f : MemCtl → MemCtl) : (d.modMc c f).shedFill = d.shedFill := rfl
@[simp] theorem modMc_chanFill (c : Chan) (f : MemCtl → MemCtl) : (d.modMc c f).chanFill = d.chanFill := rfl
@[simp] theorem modMc_bad (c : Chan) (f : MemCtl → MemCtl) : (d.modMc c f).bad = d.bad := rfl
@[simp] theorem modMc_ce (c : Chan) (f : MemCtl → MemCtl) : (d.modMc c f).ce = d.ce := rfl
@[simp] theorem modMc_ledgers (c : Chan) (f : MemCtl → MemCtl) : (d.modMc c f).ledgers = d.ledgers := rfl
@[simp] theorem modMc_tack (c : Chan) (f : MemCtl → MemCtl) : (d.modMc c f).tack = d.tack := rfl
@[simp] theorem modMc_tackBad (c : Chan) (f : MemCtl → MemCtl) : (d.modMc c f).tackBad = d.tackBad := rfl
@[simp] theorem modMc_sram (c : Chan) (f : MemCtl → MemCtl) : (d.modMc c f).sram = d.sram := rfl
@[simp] theorem modMc_host (c : Chan) (f : MemCtl → MemCtl) : (d.modMc c f).host = d.host := rfl
@[simp] theorem modMc_hostBad (c : Chan) (f : MemCtl → MemCtl) : (d.modMc c f).hostBad = d.hostBad := rfl
@[simp] theorem modMc_free (c : Chan) (f : MemCtl → MemCtl) : (d.modMc c f).free = d.free := rfl
@[simp] theorem modMc_out (c : Chan) (f : MemCtl → MemCtl) : (d.modMc c f).out = d.out := rfl

@[simp] theorem modPort_ctr (p : PortId) (f : Port → Port) : (d.modPort p f).ctr = d.ctr := rfl
@[simp] theorem modPort_tick (p : PortId) (f : Port → Port) : (d.modPort p f).tick = d.tick := rfl
@[simp] theorem modPort_atStep3 (p : PortId) (f : Port → Port) : (d.modPort p f).atStep3 = d.atStep3 := rfl
@[simp] theorem modPort_atStep6 (p : PortId) (f : Port → Port) : (d.modPort p f).atStep6 = d.atStep6 := rfl
@[simp] theorem modPort_env (p : PortId) (f : Port → Port) : (d.modPort p f).env = d.env := rfl
@[simp] theorem modPort_boot (p : PortId) (f : Port → Port) : (d.modPort p f).boot = d.boot := rfl
@[simp] theorem modPort_trust (p : PortId) (f : Port → Port) : (d.modPort p f).trust = d.trust := rfl
@[simp] theorem modPort_banks (p : PortId) (f : Port → Port) : (d.modPort p f).banks = d.banks := rfl
@[simp] theorem modPort_commits (p : PortId) (f : Port → Port) : (d.modPort p f).commits = d.commits := rfl
@[simp] theorem modPort_regs (p : PortId) (f : Port → Port) : (d.modPort p f).regs = d.regs := rfl
@[simp] theorem modPort_tally (p : PortId) (f : Port → Port) : (d.modPort p f).tally = d.tally := rfl
@[simp] theorem modPort_bist (p : PortId) (f : Port → Port) : (d.modPort p f).bist = d.bist := rfl
@[simp] theorem modPort_yards (p : PortId) (f : Port → Port) : (d.modPort p f).yards = d.yards := rfl
@[simp] theorem modPort_pwr (p : PortId) (f : Port → Port) : (d.modPort p f).pwr = d.pwr := rfl
@[simp] theorem modPort_tap (p : PortId) (f : Port → Port) : (d.modPort p f).tap = d.tap := rfl
@[simp] theorem modPort_stalls (p : PortId) (f : Port → Port) : (d.modPort p f).stalls = d.stalls := rfl
@[simp] theorem modPort_msgs (p : PortId) (f : Port → Port) : (d.modPort p f).msgs = d.msgs := rfl
@[simp] theorem modPort_credits (p : PortId) (f : Port → Port) : (d.modPort p f).credits = d.credits := rfl
@[simp] theorem modPort_mc (p : PortId) (f : Port → Port) : (d.modPort p f).mc = d.mc := rfl
@[simp] theorem modPort_batches (p : PortId) (f : Port → Port) : (d.modPort p f).batches = d.batches := rfl
@[simp] theorem modPort_drovers (p : PortId) (f : Port → Port) : (d.modPort p f).drovers = d.drovers := rfl
@[simp] theorem modPort_sidings (p : PortId) (f : Port → Port) : (d.modPort p f).sidings = d.sidings := rfl
@[simp] theorem modPort_forges (p : PortId) (f : Port → Port) : (d.modPort p f).forges = d.forges := rfl
@[simp] theorem modPort_queues (p : PortId) (f : Port → Port) : (d.modPort p f).queues = d.queues := rfl
@[simp] theorem modPort_pcie (p : PortId) (f : Port → Port) : (d.modPort p f).pcie = d.pcie := rfl
@[simp] theorem modPort_msixTable (p : PortId) (f : Port → Port) : (d.modPort p f).msixTable = d.msixTable := rfl
@[simp] theorem modPort_pba (p : PortId) (f : Port → Port) : (d.modPort p f).pba = d.pba := rfl
@[simp] theorem modPort_mem (p : PortId) (f : Port → Port) : (d.modPort p f).mem = d.mem := rfl
@[simp] theorem modPort_epoch (p : PortId) (f : Port → Port) : (d.modPort p f).epoch = d.epoch := rfl
@[simp] theorem modPort_shedFill (p : PortId) (f : Port → Port) : (d.modPort p f).shedFill = d.shedFill := rfl
@[simp] theorem modPort_chanFill (p : PortId) (f : Port → Port) : (d.modPort p f).chanFill = d.chanFill := rfl
@[simp] theorem modPort_bad (p : PortId) (f : Port → Port) : (d.modPort p f).bad = d.bad := rfl
@[simp] theorem modPort_ce (p : PortId) (f : Port → Port) : (d.modPort p f).ce = d.ce := rfl
@[simp] theorem modPort_ledgers (p : PortId) (f : Port → Port) : (d.modPort p f).ledgers = d.ledgers := rfl
@[simp] theorem modPort_tack (p : PortId) (f : Port → Port) : (d.modPort p f).tack = d.tack := rfl
@[simp] theorem modPort_tackBad (p : PortId) (f : Port → Port) : (d.modPort p f).tackBad = d.tackBad := rfl
@[simp] theorem modPort_sram (p : PortId) (f : Port → Port) : (d.modPort p f).sram = d.sram := rfl
@[simp] theorem modPort_host (p : PortId) (f : Port → Port) : (d.modPort p f).host = d.host := rfl
@[simp] theorem modPort_hostBad (p : PortId) (f : Port → Port) : (d.modPort p f).hostBad = d.hostBad := rfl
@[simp] theorem modPort_free (p : PortId) (f : Port → Port) : (d.modPort p f).free = d.free := rfl
@[simp] theorem modPort_out (p : PortId) (f : Port → Port) : (d.modPort p f).out = d.out := rfl

@[simp] theorem modDrover_ctr (y : Yard) (f : Drover → Drover) : (d.modDrover y f).ctr = d.ctr := rfl
@[simp] theorem modDrover_tick (y : Yard) (f : Drover → Drover) : (d.modDrover y f).tick = d.tick := rfl
@[simp] theorem modDrover_atStep3 (y : Yard) (f : Drover → Drover) : (d.modDrover y f).atStep3 = d.atStep3 := rfl
@[simp] theorem modDrover_atStep6 (y : Yard) (f : Drover → Drover) : (d.modDrover y f).atStep6 = d.atStep6 := rfl
@[simp] theorem modDrover_env (y : Yard) (f : Drover → Drover) : (d.modDrover y f).env = d.env := rfl
@[simp] theorem modDrover_boot (y : Yard) (f : Drover → Drover) : (d.modDrover y f).boot = d.boot := rfl
@[simp] theorem modDrover_trust (y : Yard) (f : Drover → Drover) : (d.modDrover y f).trust = d.trust := rfl
@[simp] theorem modDrover_banks (y : Yard) (f : Drover → Drover) : (d.modDrover y f).banks = d.banks := rfl
@[simp] theorem modDrover_commits (y : Yard) (f : Drover → Drover) : (d.modDrover y f).commits = d.commits := rfl
@[simp] theorem modDrover_regs (y : Yard) (f : Drover → Drover) : (d.modDrover y f).regs = d.regs := rfl
@[simp] theorem modDrover_tally (y : Yard) (f : Drover → Drover) : (d.modDrover y f).tally = d.tally := rfl
@[simp] theorem modDrover_bist (y : Yard) (f : Drover → Drover) : (d.modDrover y f).bist = d.bist := rfl
@[simp] theorem modDrover_yards (y : Yard) (f : Drover → Drover) : (d.modDrover y f).yards = d.yards := rfl
@[simp] theorem modDrover_pwr (y : Yard) (f : Drover → Drover) : (d.modDrover y f).pwr = d.pwr := rfl
@[simp] theorem modDrover_tap (y : Yard) (f : Drover → Drover) : (d.modDrover y f).tap = d.tap := rfl
@[simp] theorem modDrover_stalls (y : Yard) (f : Drover → Drover) : (d.modDrover y f).stalls = d.stalls := rfl
@[simp] theorem modDrover_msgs (y : Yard) (f : Drover → Drover) : (d.modDrover y f).msgs = d.msgs := rfl
@[simp] theorem modDrover_credits (y : Yard) (f : Drover → Drover) : (d.modDrover y f).credits = d.credits := rfl
@[simp] theorem modDrover_mc (y : Yard) (f : Drover → Drover) : (d.modDrover y f).mc = d.mc := rfl
@[simp] theorem modDrover_batches (y : Yard) (f : Drover → Drover) : (d.modDrover y f).batches = d.batches := rfl
@[simp] theorem modDrover_ports (y : Yard) (f : Drover → Drover) : (d.modDrover y f).ports = d.ports := rfl
@[simp] theorem modDrover_sidings (y : Yard) (f : Drover → Drover) : (d.modDrover y f).sidings = d.sidings := rfl
@[simp] theorem modDrover_forges (y : Yard) (f : Drover → Drover) : (d.modDrover y f).forges = d.forges := rfl
@[simp] theorem modDrover_queues (y : Yard) (f : Drover → Drover) : (d.modDrover y f).queues = d.queues := rfl
@[simp] theorem modDrover_pcie (y : Yard) (f : Drover → Drover) : (d.modDrover y f).pcie = d.pcie := rfl
@[simp] theorem modDrover_msixTable (y : Yard) (f : Drover → Drover) : (d.modDrover y f).msixTable = d.msixTable := rfl
@[simp] theorem modDrover_pba (y : Yard) (f : Drover → Drover) : (d.modDrover y f).pba = d.pba := rfl
@[simp] theorem modDrover_mem (y : Yard) (f : Drover → Drover) : (d.modDrover y f).mem = d.mem := rfl
@[simp] theorem modDrover_epoch (y : Yard) (f : Drover → Drover) : (d.modDrover y f).epoch = d.epoch := rfl
@[simp] theorem modDrover_shedFill (y : Yard) (f : Drover → Drover) : (d.modDrover y f).shedFill = d.shedFill := rfl
@[simp] theorem modDrover_chanFill (y : Yard) (f : Drover → Drover) : (d.modDrover y f).chanFill = d.chanFill := rfl
@[simp] theorem modDrover_bad (y : Yard) (f : Drover → Drover) : (d.modDrover y f).bad = d.bad := rfl
@[simp] theorem modDrover_ce (y : Yard) (f : Drover → Drover) : (d.modDrover y f).ce = d.ce := rfl
@[simp] theorem modDrover_ledgers (y : Yard) (f : Drover → Drover) : (d.modDrover y f).ledgers = d.ledgers := rfl
@[simp] theorem modDrover_tack (y : Yard) (f : Drover → Drover) : (d.modDrover y f).tack = d.tack := rfl
@[simp] theorem modDrover_tackBad (y : Yard) (f : Drover → Drover) : (d.modDrover y f).tackBad = d.tackBad := rfl
@[simp] theorem modDrover_sram (y : Yard) (f : Drover → Drover) : (d.modDrover y f).sram = d.sram := rfl
@[simp] theorem modDrover_host (y : Yard) (f : Drover → Drover) : (d.modDrover y f).host = d.host := rfl
@[simp] theorem modDrover_hostBad (y : Yard) (f : Drover → Drover) : (d.modDrover y f).hostBad = d.hostBad := rfl
@[simp] theorem modDrover_free (y : Yard) (f : Drover → Drover) : (d.modDrover y f).free = d.free := rfl
@[simp] theorem modDrover_out (y : Yard) (f : Drover → Drover) : (d.modDrover y f).out = d.out := rfl

@[simp] theorem modTeam_ctr (y : Yard) (t : Fin 64) (f : Team → Team) : (d.modTeam y t f).ctr = d.ctr := rfl
@[simp] theorem modTeam_tick (y : Yard) (t : Fin 64) (f : Team → Team) : (d.modTeam y t f).tick = d.tick := rfl
@[simp] theorem modTeam_atStep3 (y : Yard) (t : Fin 64) (f : Team → Team) : (d.modTeam y t f).atStep3 = d.atStep3 := rfl
@[simp] theorem modTeam_atStep6 (y : Yard) (t : Fin 64) (f : Team → Team) : (d.modTeam y t f).atStep6 = d.atStep6 := rfl
@[simp] theorem modTeam_env (y : Yard) (t : Fin 64) (f : Team → Team) : (d.modTeam y t f).env = d.env := rfl
@[simp] theorem modTeam_boot (y : Yard) (t : Fin 64) (f : Team → Team) : (d.modTeam y t f).boot = d.boot := rfl
@[simp] theorem modTeam_trust (y : Yard) (t : Fin 64) (f : Team → Team) : (d.modTeam y t f).trust = d.trust := rfl
@[simp] theorem modTeam_banks (y : Yard) (t : Fin 64) (f : Team → Team) : (d.modTeam y t f).banks = d.banks := rfl
@[simp] theorem modTeam_commits (y : Yard) (t : Fin 64) (f : Team → Team) : (d.modTeam y t f).commits = d.commits := rfl
@[simp] theorem modTeam_regs (y : Yard) (t : Fin 64) (f : Team → Team) : (d.modTeam y t f).regs = d.regs := rfl
@[simp] theorem modTeam_tally (y : Yard) (t : Fin 64) (f : Team → Team) : (d.modTeam y t f).tally = d.tally := rfl
@[simp] theorem modTeam_bist (y : Yard) (t : Fin 64) (f : Team → Team) : (d.modTeam y t f).bist = d.bist := rfl
@[simp] theorem modTeam_yards (y : Yard) (t : Fin 64) (f : Team → Team) : (d.modTeam y t f).yards = d.yards := rfl
@[simp] theorem modTeam_pwr (y : Yard) (t : Fin 64) (f : Team → Team) : (d.modTeam y t f).pwr = d.pwr := rfl
@[simp] theorem modTeam_tap (y : Yard) (t : Fin 64) (f : Team → Team) : (d.modTeam y t f).tap = d.tap := rfl
@[simp] theorem modTeam_stalls (y : Yard) (t : Fin 64) (f : Team → Team) : (d.modTeam y t f).stalls = d.stalls := rfl
@[simp] theorem modTeam_msgs (y : Yard) (t : Fin 64) (f : Team → Team) : (d.modTeam y t f).msgs = d.msgs := rfl
@[simp] theorem modTeam_credits (y : Yard) (t : Fin 64) (f : Team → Team) : (d.modTeam y t f).credits = d.credits := rfl
@[simp] theorem modTeam_mc (y : Yard) (t : Fin 64) (f : Team → Team) : (d.modTeam y t f).mc = d.mc := rfl
@[simp] theorem modTeam_batches (y : Yard) (t : Fin 64) (f : Team → Team) : (d.modTeam y t f).batches = d.batches := rfl
@[simp] theorem modTeam_ports (y : Yard) (t : Fin 64) (f : Team → Team) : (d.modTeam y t f).ports = d.ports := rfl
@[simp] theorem modTeam_sidings (y : Yard) (t : Fin 64) (f : Team → Team) : (d.modTeam y t f).sidings = d.sidings := rfl
@[simp] theorem modTeam_forges (y : Yard) (t : Fin 64) (f : Team → Team) : (d.modTeam y t f).forges = d.forges := rfl
@[simp] theorem modTeam_queues (y : Yard) (t : Fin 64) (f : Team → Team) : (d.modTeam y t f).queues = d.queues := rfl
@[simp] theorem modTeam_pcie (y : Yard) (t : Fin 64) (f : Team → Team) : (d.modTeam y t f).pcie = d.pcie := rfl
@[simp] theorem modTeam_msixTable (y : Yard) (t : Fin 64) (f : Team → Team) : (d.modTeam y t f).msixTable = d.msixTable := rfl
@[simp] theorem modTeam_pba (y : Yard) (t : Fin 64) (f : Team → Team) : (d.modTeam y t f).pba = d.pba := rfl
@[simp] theorem modTeam_mem (y : Yard) (t : Fin 64) (f : Team → Team) : (d.modTeam y t f).mem = d.mem := rfl
@[simp] theorem modTeam_epoch (y : Yard) (t : Fin 64) (f : Team → Team) : (d.modTeam y t f).epoch = d.epoch := rfl
@[simp] theorem modTeam_shedFill (y : Yard) (t : Fin 64) (f : Team → Team) : (d.modTeam y t f).shedFill = d.shedFill := rfl
@[simp] theorem modTeam_chanFill (y : Yard) (t : Fin 64) (f : Team → Team) : (d.modTeam y t f).chanFill = d.chanFill := rfl
@[simp] theorem modTeam_bad (y : Yard) (t : Fin 64) (f : Team → Team) : (d.modTeam y t f).bad = d.bad := rfl
@[simp] theorem modTeam_ce (y : Yard) (t : Fin 64) (f : Team → Team) : (d.modTeam y t f).ce = d.ce := rfl
@[simp] theorem modTeam_ledgers (y : Yard) (t : Fin 64) (f : Team → Team) : (d.modTeam y t f).ledgers = d.ledgers := rfl
@[simp] theorem modTeam_tack (y : Yard) (t : Fin 64) (f : Team → Team) : (d.modTeam y t f).tack = d.tack := rfl
@[simp] theorem modTeam_tackBad (y : Yard) (t : Fin 64) (f : Team → Team) : (d.modTeam y t f).tackBad = d.tackBad := rfl
@[simp] theorem modTeam_sram (y : Yard) (t : Fin 64) (f : Team → Team) : (d.modTeam y t f).sram = d.sram := rfl
@[simp] theorem modTeam_host (y : Yard) (t : Fin 64) (f : Team → Team) : (d.modTeam y t f).host = d.host := rfl
@[simp] theorem modTeam_hostBad (y : Yard) (t : Fin 64) (f : Team → Team) : (d.modTeam y t f).hostBad = d.hostBad := rfl
@[simp] theorem modTeam_free (y : Yard) (t : Fin 64) (f : Team → Team) : (d.modTeam y t f).free = d.free := rfl
@[simp] theorem modTeam_out (y : Yard) (t : Fin 64) (f : Team → Team) : (d.modTeam y t f).out = d.out := rfl

@[simp] theorem modForge_ctr (y : Yard) (f : Forge → Forge) : (d.modForge y f).ctr = d.ctr := rfl
@[simp] theorem modForge_tick (y : Yard) (f : Forge → Forge) : (d.modForge y f).tick = d.tick := rfl
@[simp] theorem modForge_atStep3 (y : Yard) (f : Forge → Forge) : (d.modForge y f).atStep3 = d.atStep3 := rfl
@[simp] theorem modForge_atStep6 (y : Yard) (f : Forge → Forge) : (d.modForge y f).atStep6 = d.atStep6 := rfl
@[simp] theorem modForge_env (y : Yard) (f : Forge → Forge) : (d.modForge y f).env = d.env := rfl
@[simp] theorem modForge_boot (y : Yard) (f : Forge → Forge) : (d.modForge y f).boot = d.boot := rfl
@[simp] theorem modForge_trust (y : Yard) (f : Forge → Forge) : (d.modForge y f).trust = d.trust := rfl
@[simp] theorem modForge_banks (y : Yard) (f : Forge → Forge) : (d.modForge y f).banks = d.banks := rfl
@[simp] theorem modForge_commits (y : Yard) (f : Forge → Forge) : (d.modForge y f).commits = d.commits := rfl
@[simp] theorem modForge_regs (y : Yard) (f : Forge → Forge) : (d.modForge y f).regs = d.regs := rfl
@[simp] theorem modForge_tally (y : Yard) (f : Forge → Forge) : (d.modForge y f).tally = d.tally := rfl
@[simp] theorem modForge_bist (y : Yard) (f : Forge → Forge) : (d.modForge y f).bist = d.bist := rfl
@[simp] theorem modForge_yards (y : Yard) (f : Forge → Forge) : (d.modForge y f).yards = d.yards := rfl
@[simp] theorem modForge_pwr (y : Yard) (f : Forge → Forge) : (d.modForge y f).pwr = d.pwr := rfl
@[simp] theorem modForge_tap (y : Yard) (f : Forge → Forge) : (d.modForge y f).tap = d.tap := rfl
@[simp] theorem modForge_stalls (y : Yard) (f : Forge → Forge) : (d.modForge y f).stalls = d.stalls := rfl
@[simp] theorem modForge_msgs (y : Yard) (f : Forge → Forge) : (d.modForge y f).msgs = d.msgs := rfl
@[simp] theorem modForge_credits (y : Yard) (f : Forge → Forge) : (d.modForge y f).credits = d.credits := rfl
@[simp] theorem modForge_mc (y : Yard) (f : Forge → Forge) : (d.modForge y f).mc = d.mc := rfl
@[simp] theorem modForge_batches (y : Yard) (f : Forge → Forge) : (d.modForge y f).batches = d.batches := rfl
@[simp] theorem modForge_ports (y : Yard) (f : Forge → Forge) : (d.modForge y f).ports = d.ports := rfl
@[simp] theorem modForge_drovers (y : Yard) (f : Forge → Forge) : (d.modForge y f).drovers = d.drovers := rfl
@[simp] theorem modForge_sidings (y : Yard) (f : Forge → Forge) : (d.modForge y f).sidings = d.sidings := rfl
@[simp] theorem modForge_queues (y : Yard) (f : Forge → Forge) : (d.modForge y f).queues = d.queues := rfl
@[simp] theorem modForge_pcie (y : Yard) (f : Forge → Forge) : (d.modForge y f).pcie = d.pcie := rfl
@[simp] theorem modForge_msixTable (y : Yard) (f : Forge → Forge) : (d.modForge y f).msixTable = d.msixTable := rfl
@[simp] theorem modForge_pba (y : Yard) (f : Forge → Forge) : (d.modForge y f).pba = d.pba := rfl
@[simp] theorem modForge_mem (y : Yard) (f : Forge → Forge) : (d.modForge y f).mem = d.mem := rfl
@[simp] theorem modForge_epoch (y : Yard) (f : Forge → Forge) : (d.modForge y f).epoch = d.epoch := rfl
@[simp] theorem modForge_shedFill (y : Yard) (f : Forge → Forge) : (d.modForge y f).shedFill = d.shedFill := rfl
@[simp] theorem modForge_chanFill (y : Yard) (f : Forge → Forge) : (d.modForge y f).chanFill = d.chanFill := rfl
@[simp] theorem modForge_bad (y : Yard) (f : Forge → Forge) : (d.modForge y f).bad = d.bad := rfl
@[simp] theorem modForge_ce (y : Yard) (f : Forge → Forge) : (d.modForge y f).ce = d.ce := rfl
@[simp] theorem modForge_ledgers (y : Yard) (f : Forge → Forge) : (d.modForge y f).ledgers = d.ledgers := rfl
@[simp] theorem modForge_tack (y : Yard) (f : Forge → Forge) : (d.modForge y f).tack = d.tack := rfl
@[simp] theorem modForge_tackBad (y : Yard) (f : Forge → Forge) : (d.modForge y f).tackBad = d.tackBad := rfl
@[simp] theorem modForge_sram (y : Yard) (f : Forge → Forge) : (d.modForge y f).sram = d.sram := rfl
@[simp] theorem modForge_host (y : Yard) (f : Forge → Forge) : (d.modForge y f).host = d.host := rfl
@[simp] theorem modForge_hostBad (y : Yard) (f : Forge → Forge) : (d.modForge y f).hostBad = d.hostBad := rfl
@[simp] theorem modForge_free (y : Yard) (f : Forge → Forge) : (d.modForge y f).free = d.free := rfl
@[simp] theorem modForge_out (y : Yard) (f : Forge → Forge) : (d.modForge y f).out = d.out := rfl

@[simp] theorem modQueue_ctr (q : QueueId) (f : HostQueue → HostQueue) : (d.modQueue q f).ctr = d.ctr := rfl
@[simp] theorem modQueue_tick (q : QueueId) (f : HostQueue → HostQueue) : (d.modQueue q f).tick = d.tick := rfl
@[simp] theorem modQueue_atStep3 (q : QueueId) (f : HostQueue → HostQueue) : (d.modQueue q f).atStep3 = d.atStep3 := rfl
@[simp] theorem modQueue_atStep6 (q : QueueId) (f : HostQueue → HostQueue) : (d.modQueue q f).atStep6 = d.atStep6 := rfl
@[simp] theorem modQueue_env (q : QueueId) (f : HostQueue → HostQueue) : (d.modQueue q f).env = d.env := rfl
@[simp] theorem modQueue_boot (q : QueueId) (f : HostQueue → HostQueue) : (d.modQueue q f).boot = d.boot := rfl
@[simp] theorem modQueue_trust (q : QueueId) (f : HostQueue → HostQueue) : (d.modQueue q f).trust = d.trust := rfl
@[simp] theorem modQueue_banks (q : QueueId) (f : HostQueue → HostQueue) : (d.modQueue q f).banks = d.banks := rfl
@[simp] theorem modQueue_commits (q : QueueId) (f : HostQueue → HostQueue) : (d.modQueue q f).commits = d.commits := rfl
@[simp] theorem modQueue_regs (q : QueueId) (f : HostQueue → HostQueue) : (d.modQueue q f).regs = d.regs := rfl
@[simp] theorem modQueue_tally (q : QueueId) (f : HostQueue → HostQueue) : (d.modQueue q f).tally = d.tally := rfl
@[simp] theorem modQueue_bist (q : QueueId) (f : HostQueue → HostQueue) : (d.modQueue q f).bist = d.bist := rfl
@[simp] theorem modQueue_yards (q : QueueId) (f : HostQueue → HostQueue) : (d.modQueue q f).yards = d.yards := rfl
@[simp] theorem modQueue_pwr (q : QueueId) (f : HostQueue → HostQueue) : (d.modQueue q f).pwr = d.pwr := rfl
@[simp] theorem modQueue_tap (q : QueueId) (f : HostQueue → HostQueue) : (d.modQueue q f).tap = d.tap := rfl
@[simp] theorem modQueue_stalls (q : QueueId) (f : HostQueue → HostQueue) : (d.modQueue q f).stalls = d.stalls := rfl
@[simp] theorem modQueue_msgs (q : QueueId) (f : HostQueue → HostQueue) : (d.modQueue q f).msgs = d.msgs := rfl
@[simp] theorem modQueue_credits (q : QueueId) (f : HostQueue → HostQueue) : (d.modQueue q f).credits = d.credits := rfl
@[simp] theorem modQueue_mc (q : QueueId) (f : HostQueue → HostQueue) : (d.modQueue q f).mc = d.mc := rfl
@[simp] theorem modQueue_batches (q : QueueId) (f : HostQueue → HostQueue) : (d.modQueue q f).batches = d.batches := rfl
@[simp] theorem modQueue_ports (q : QueueId) (f : HostQueue → HostQueue) : (d.modQueue q f).ports = d.ports := rfl
@[simp] theorem modQueue_drovers (q : QueueId) (f : HostQueue → HostQueue) : (d.modQueue q f).drovers = d.drovers := rfl
@[simp] theorem modQueue_sidings (q : QueueId) (f : HostQueue → HostQueue) : (d.modQueue q f).sidings = d.sidings := rfl
@[simp] theorem modQueue_forges (q : QueueId) (f : HostQueue → HostQueue) : (d.modQueue q f).forges = d.forges := rfl
@[simp] theorem modQueue_pcie (q : QueueId) (f : HostQueue → HostQueue) : (d.modQueue q f).pcie = d.pcie := rfl
@[simp] theorem modQueue_msixTable (q : QueueId) (f : HostQueue → HostQueue) : (d.modQueue q f).msixTable = d.msixTable := rfl
@[simp] theorem modQueue_pba (q : QueueId) (f : HostQueue → HostQueue) : (d.modQueue q f).pba = d.pba := rfl
@[simp] theorem modQueue_mem (q : QueueId) (f : HostQueue → HostQueue) : (d.modQueue q f).mem = d.mem := rfl
@[simp] theorem modQueue_epoch (q : QueueId) (f : HostQueue → HostQueue) : (d.modQueue q f).epoch = d.epoch := rfl
@[simp] theorem modQueue_shedFill (q : QueueId) (f : HostQueue → HostQueue) : (d.modQueue q f).shedFill = d.shedFill := rfl
@[simp] theorem modQueue_chanFill (q : QueueId) (f : HostQueue → HostQueue) : (d.modQueue q f).chanFill = d.chanFill := rfl
@[simp] theorem modQueue_bad (q : QueueId) (f : HostQueue → HostQueue) : (d.modQueue q f).bad = d.bad := rfl
@[simp] theorem modQueue_ce (q : QueueId) (f : HostQueue → HostQueue) : (d.modQueue q f).ce = d.ce := rfl
@[simp] theorem modQueue_ledgers (q : QueueId) (f : HostQueue → HostQueue) : (d.modQueue q f).ledgers = d.ledgers := rfl
@[simp] theorem modQueue_tack (q : QueueId) (f : HostQueue → HostQueue) : (d.modQueue q f).tack = d.tack := rfl
@[simp] theorem modQueue_tackBad (q : QueueId) (f : HostQueue → HostQueue) : (d.modQueue q f).tackBad = d.tackBad := rfl
@[simp] theorem modQueue_sram (q : QueueId) (f : HostQueue → HostQueue) : (d.modQueue q f).sram = d.sram := rfl
@[simp] theorem modQueue_host (q : QueueId) (f : HostQueue → HostQueue) : (d.modQueue q f).host = d.host := rfl
@[simp] theorem modQueue_hostBad (q : QueueId) (f : HostQueue → HostQueue) : (d.modQueue q f).hostBad = d.hostBad := rfl
@[simp] theorem modQueue_free (q : QueueId) (f : HostQueue → HostQueue) : (d.modQueue q f).free = d.free := rfl
@[simp] theorem modQueue_out (q : QueueId) (f : HostQueue → HostQueue) : (d.modQueue q f).out = d.out := rfl

@[simp] theorem modYard_ctr (y : Yard) (f : YardPower → YardPower) : (d.modYard y f).ctr = d.ctr := rfl
@[simp] theorem modYard_tick (y : Yard) (f : YardPower → YardPower) : (d.modYard y f).tick = d.tick := rfl
@[simp] theorem modYard_atStep3 (y : Yard) (f : YardPower → YardPower) : (d.modYard y f).atStep3 = d.atStep3 := rfl
@[simp] theorem modYard_atStep6 (y : Yard) (f : YardPower → YardPower) : (d.modYard y f).atStep6 = d.atStep6 := rfl
@[simp] theorem modYard_env (y : Yard) (f : YardPower → YardPower) : (d.modYard y f).env = d.env := rfl
@[simp] theorem modYard_boot (y : Yard) (f : YardPower → YardPower) : (d.modYard y f).boot = d.boot := rfl
@[simp] theorem modYard_trust (y : Yard) (f : YardPower → YardPower) : (d.modYard y f).trust = d.trust := rfl
@[simp] theorem modYard_banks (y : Yard) (f : YardPower → YardPower) : (d.modYard y f).banks = d.banks := rfl
@[simp] theorem modYard_commits (y : Yard) (f : YardPower → YardPower) : (d.modYard y f).commits = d.commits := rfl
@[simp] theorem modYard_regs (y : Yard) (f : YardPower → YardPower) : (d.modYard y f).regs = d.regs := rfl
@[simp] theorem modYard_tally (y : Yard) (f : YardPower → YardPower) : (d.modYard y f).tally = d.tally := rfl
@[simp] theorem modYard_bist (y : Yard) (f : YardPower → YardPower) : (d.modYard y f).bist = d.bist := rfl
@[simp] theorem modYard_pwr (y : Yard) (f : YardPower → YardPower) : (d.modYard y f).pwr = d.pwr := rfl
@[simp] theorem modYard_tap (y : Yard) (f : YardPower → YardPower) : (d.modYard y f).tap = d.tap := rfl
@[simp] theorem modYard_stalls (y : Yard) (f : YardPower → YardPower) : (d.modYard y f).stalls = d.stalls := rfl
@[simp] theorem modYard_msgs (y : Yard) (f : YardPower → YardPower) : (d.modYard y f).msgs = d.msgs := rfl
@[simp] theorem modYard_credits (y : Yard) (f : YardPower → YardPower) : (d.modYard y f).credits = d.credits := rfl
@[simp] theorem modYard_mc (y : Yard) (f : YardPower → YardPower) : (d.modYard y f).mc = d.mc := rfl
@[simp] theorem modYard_batches (y : Yard) (f : YardPower → YardPower) : (d.modYard y f).batches = d.batches := rfl
@[simp] theorem modYard_ports (y : Yard) (f : YardPower → YardPower) : (d.modYard y f).ports = d.ports := rfl
@[simp] theorem modYard_drovers (y : Yard) (f : YardPower → YardPower) : (d.modYard y f).drovers = d.drovers := rfl
@[simp] theorem modYard_sidings (y : Yard) (f : YardPower → YardPower) : (d.modYard y f).sidings = d.sidings := rfl
@[simp] theorem modYard_forges (y : Yard) (f : YardPower → YardPower) : (d.modYard y f).forges = d.forges := rfl
@[simp] theorem modYard_queues (y : Yard) (f : YardPower → YardPower) : (d.modYard y f).queues = d.queues := rfl
@[simp] theorem modYard_pcie (y : Yard) (f : YardPower → YardPower) : (d.modYard y f).pcie = d.pcie := rfl
@[simp] theorem modYard_msixTable (y : Yard) (f : YardPower → YardPower) : (d.modYard y f).msixTable = d.msixTable := rfl
@[simp] theorem modYard_pba (y : Yard) (f : YardPower → YardPower) : (d.modYard y f).pba = d.pba := rfl
@[simp] theorem modYard_mem (y : Yard) (f : YardPower → YardPower) : (d.modYard y f).mem = d.mem := rfl
@[simp] theorem modYard_epoch (y : Yard) (f : YardPower → YardPower) : (d.modYard y f).epoch = d.epoch := rfl
@[simp] theorem modYard_shedFill (y : Yard) (f : YardPower → YardPower) : (d.modYard y f).shedFill = d.shedFill := rfl
@[simp] theorem modYard_chanFill (y : Yard) (f : YardPower → YardPower) : (d.modYard y f).chanFill = d.chanFill := rfl
@[simp] theorem modYard_bad (y : Yard) (f : YardPower → YardPower) : (d.modYard y f).bad = d.bad := rfl
@[simp] theorem modYard_ce (y : Yard) (f : YardPower → YardPower) : (d.modYard y f).ce = d.ce := rfl
@[simp] theorem modYard_ledgers (y : Yard) (f : YardPower → YardPower) : (d.modYard y f).ledgers = d.ledgers := rfl
@[simp] theorem modYard_tack (y : Yard) (f : YardPower → YardPower) : (d.modYard y f).tack = d.tack := rfl
@[simp] theorem modYard_tackBad (y : Yard) (f : YardPower → YardPower) : (d.modYard y f).tackBad = d.tackBad := rfl
@[simp] theorem modYard_sram (y : Yard) (f : YardPower → YardPower) : (d.modYard y f).sram = d.sram := rfl
@[simp] theorem modYard_host (y : Yard) (f : YardPower → YardPower) : (d.modYard y f).host = d.host := rfl
@[simp] theorem modYard_hostBad (y : Yard) (f : YardPower → YardPower) : (d.modYard y f).hostBad = d.hostBad := rfl
@[simp] theorem modYard_free (y : Yard) (f : YardPower → YardPower) : (d.modYard y f).free = d.free := rfl
@[simp] theorem modYard_out (y : Yard) (f : YardPower → YardPower) : (d.modYard y f).out = d.out := rfl

@[simp] theorem modBank_ctr (w : Fin 2) (f : TxnBank → TxnBank) : (d.modBank w f).ctr = d.ctr := rfl
@[simp] theorem modBank_tick (w : Fin 2) (f : TxnBank → TxnBank) : (d.modBank w f).tick = d.tick := rfl
@[simp] theorem modBank_atStep3 (w : Fin 2) (f : TxnBank → TxnBank) : (d.modBank w f).atStep3 = d.atStep3 := rfl
@[simp] theorem modBank_atStep6 (w : Fin 2) (f : TxnBank → TxnBank) : (d.modBank w f).atStep6 = d.atStep6 := rfl
@[simp] theorem modBank_env (w : Fin 2) (f : TxnBank → TxnBank) : (d.modBank w f).env = d.env := rfl
@[simp] theorem modBank_boot (w : Fin 2) (f : TxnBank → TxnBank) : (d.modBank w f).boot = d.boot := rfl
@[simp] theorem modBank_trust (w : Fin 2) (f : TxnBank → TxnBank) : (d.modBank w f).trust = d.trust := rfl
@[simp] theorem modBank_commits (w : Fin 2) (f : TxnBank → TxnBank) : (d.modBank w f).commits = d.commits := rfl
@[simp] theorem modBank_regs (w : Fin 2) (f : TxnBank → TxnBank) : (d.modBank w f).regs = d.regs := rfl
@[simp] theorem modBank_tally (w : Fin 2) (f : TxnBank → TxnBank) : (d.modBank w f).tally = d.tally := rfl
@[simp] theorem modBank_bist (w : Fin 2) (f : TxnBank → TxnBank) : (d.modBank w f).bist = d.bist := rfl
@[simp] theorem modBank_yards (w : Fin 2) (f : TxnBank → TxnBank) : (d.modBank w f).yards = d.yards := rfl
@[simp] theorem modBank_pwr (w : Fin 2) (f : TxnBank → TxnBank) : (d.modBank w f).pwr = d.pwr := rfl
@[simp] theorem modBank_tap (w : Fin 2) (f : TxnBank → TxnBank) : (d.modBank w f).tap = d.tap := rfl
@[simp] theorem modBank_stalls (w : Fin 2) (f : TxnBank → TxnBank) : (d.modBank w f).stalls = d.stalls := rfl
@[simp] theorem modBank_msgs (w : Fin 2) (f : TxnBank → TxnBank) : (d.modBank w f).msgs = d.msgs := rfl
@[simp] theorem modBank_credits (w : Fin 2) (f : TxnBank → TxnBank) : (d.modBank w f).credits = d.credits := rfl
@[simp] theorem modBank_mc (w : Fin 2) (f : TxnBank → TxnBank) : (d.modBank w f).mc = d.mc := rfl
@[simp] theorem modBank_batches (w : Fin 2) (f : TxnBank → TxnBank) : (d.modBank w f).batches = d.batches := rfl
@[simp] theorem modBank_ports (w : Fin 2) (f : TxnBank → TxnBank) : (d.modBank w f).ports = d.ports := rfl
@[simp] theorem modBank_drovers (w : Fin 2) (f : TxnBank → TxnBank) : (d.modBank w f).drovers = d.drovers := rfl
@[simp] theorem modBank_sidings (w : Fin 2) (f : TxnBank → TxnBank) : (d.modBank w f).sidings = d.sidings := rfl
@[simp] theorem modBank_forges (w : Fin 2) (f : TxnBank → TxnBank) : (d.modBank w f).forges = d.forges := rfl
@[simp] theorem modBank_queues (w : Fin 2) (f : TxnBank → TxnBank) : (d.modBank w f).queues = d.queues := rfl
@[simp] theorem modBank_pcie (w : Fin 2) (f : TxnBank → TxnBank) : (d.modBank w f).pcie = d.pcie := rfl
@[simp] theorem modBank_msixTable (w : Fin 2) (f : TxnBank → TxnBank) : (d.modBank w f).msixTable = d.msixTable := rfl
@[simp] theorem modBank_pba (w : Fin 2) (f : TxnBank → TxnBank) : (d.modBank w f).pba = d.pba := rfl
@[simp] theorem modBank_mem (w : Fin 2) (f : TxnBank → TxnBank) : (d.modBank w f).mem = d.mem := rfl
@[simp] theorem modBank_epoch (w : Fin 2) (f : TxnBank → TxnBank) : (d.modBank w f).epoch = d.epoch := rfl
@[simp] theorem modBank_shedFill (w : Fin 2) (f : TxnBank → TxnBank) : (d.modBank w f).shedFill = d.shedFill := rfl
@[simp] theorem modBank_chanFill (w : Fin 2) (f : TxnBank → TxnBank) : (d.modBank w f).chanFill = d.chanFill := rfl
@[simp] theorem modBank_bad (w : Fin 2) (f : TxnBank → TxnBank) : (d.modBank w f).bad = d.bad := rfl
@[simp] theorem modBank_ce (w : Fin 2) (f : TxnBank → TxnBank) : (d.modBank w f).ce = d.ce := rfl
@[simp] theorem modBank_ledgers (w : Fin 2) (f : TxnBank → TxnBank) : (d.modBank w f).ledgers = d.ledgers := rfl
@[simp] theorem modBank_tack (w : Fin 2) (f : TxnBank → TxnBank) : (d.modBank w f).tack = d.tack := rfl
@[simp] theorem modBank_tackBad (w : Fin 2) (f : TxnBank → TxnBank) : (d.modBank w f).tackBad = d.tackBad := rfl
@[simp] theorem modBank_sram (w : Fin 2) (f : TxnBank → TxnBank) : (d.modBank w f).sram = d.sram := rfl
@[simp] theorem modBank_host (w : Fin 2) (f : TxnBank → TxnBank) : (d.modBank w f).host = d.host := rfl
@[simp] theorem modBank_hostBad (w : Fin 2) (f : TxnBank → TxnBank) : (d.modBank w f).hostBad = d.hostBad := rfl
@[simp] theorem modBank_free (w : Fin 2) (f : TxnBank → TxnBank) : (d.modBank w f).free = d.free := rfl
@[simp] theorem modBank_out (w : Fin 2) (f : TxnBank → TxnBank) : (d.modBank w f).out = d.out := rfl

@[simp] theorem modTick_ctr (f : TickUnit → TickUnit) : (d.modTick f).ctr = d.ctr := rfl
@[simp] theorem modTick_atStep3 (f : TickUnit → TickUnit) : (d.modTick f).atStep3 = d.atStep3 := rfl
@[simp] theorem modTick_atStep6 (f : TickUnit → TickUnit) : (d.modTick f).atStep6 = d.atStep6 := rfl
@[simp] theorem modTick_env (f : TickUnit → TickUnit) : (d.modTick f).env = d.env := rfl
@[simp] theorem modTick_boot (f : TickUnit → TickUnit) : (d.modTick f).boot = d.boot := rfl
@[simp] theorem modTick_trust (f : TickUnit → TickUnit) : (d.modTick f).trust = d.trust := rfl
@[simp] theorem modTick_banks (f : TickUnit → TickUnit) : (d.modTick f).banks = d.banks := rfl
@[simp] theorem modTick_commits (f : TickUnit → TickUnit) : (d.modTick f).commits = d.commits := rfl
@[simp] theorem modTick_regs (f : TickUnit → TickUnit) : (d.modTick f).regs = d.regs := rfl
@[simp] theorem modTick_tally (f : TickUnit → TickUnit) : (d.modTick f).tally = d.tally := rfl
@[simp] theorem modTick_bist (f : TickUnit → TickUnit) : (d.modTick f).bist = d.bist := rfl
@[simp] theorem modTick_yards (f : TickUnit → TickUnit) : (d.modTick f).yards = d.yards := rfl
@[simp] theorem modTick_pwr (f : TickUnit → TickUnit) : (d.modTick f).pwr = d.pwr := rfl
@[simp] theorem modTick_tap (f : TickUnit → TickUnit) : (d.modTick f).tap = d.tap := rfl
@[simp] theorem modTick_stalls (f : TickUnit → TickUnit) : (d.modTick f).stalls = d.stalls := rfl
@[simp] theorem modTick_msgs (f : TickUnit → TickUnit) : (d.modTick f).msgs = d.msgs := rfl
@[simp] theorem modTick_credits (f : TickUnit → TickUnit) : (d.modTick f).credits = d.credits := rfl
@[simp] theorem modTick_mc (f : TickUnit → TickUnit) : (d.modTick f).mc = d.mc := rfl
@[simp] theorem modTick_batches (f : TickUnit → TickUnit) : (d.modTick f).batches = d.batches := rfl
@[simp] theorem modTick_ports (f : TickUnit → TickUnit) : (d.modTick f).ports = d.ports := rfl
@[simp] theorem modTick_drovers (f : TickUnit → TickUnit) : (d.modTick f).drovers = d.drovers := rfl
@[simp] theorem modTick_sidings (f : TickUnit → TickUnit) : (d.modTick f).sidings = d.sidings := rfl
@[simp] theorem modTick_forges (f : TickUnit → TickUnit) : (d.modTick f).forges = d.forges := rfl
@[simp] theorem modTick_queues (f : TickUnit → TickUnit) : (d.modTick f).queues = d.queues := rfl
@[simp] theorem modTick_pcie (f : TickUnit → TickUnit) : (d.modTick f).pcie = d.pcie := rfl
@[simp] theorem modTick_msixTable (f : TickUnit → TickUnit) : (d.modTick f).msixTable = d.msixTable := rfl
@[simp] theorem modTick_pba (f : TickUnit → TickUnit) : (d.modTick f).pba = d.pba := rfl
@[simp] theorem modTick_mem (f : TickUnit → TickUnit) : (d.modTick f).mem = d.mem := rfl
@[simp] theorem modTick_epoch (f : TickUnit → TickUnit) : (d.modTick f).epoch = d.epoch := rfl
@[simp] theorem modTick_shedFill (f : TickUnit → TickUnit) : (d.modTick f).shedFill = d.shedFill := rfl
@[simp] theorem modTick_chanFill (f : TickUnit → TickUnit) : (d.modTick f).chanFill = d.chanFill := rfl
@[simp] theorem modTick_bad (f : TickUnit → TickUnit) : (d.modTick f).bad = d.bad := rfl
@[simp] theorem modTick_ce (f : TickUnit → TickUnit) : (d.modTick f).ce = d.ce := rfl
@[simp] theorem modTick_ledgers (f : TickUnit → TickUnit) : (d.modTick f).ledgers = d.ledgers := rfl
@[simp] theorem modTick_tack (f : TickUnit → TickUnit) : (d.modTick f).tack = d.tack := rfl
@[simp] theorem modTick_tackBad (f : TickUnit → TickUnit) : (d.modTick f).tackBad = d.tackBad := rfl
@[simp] theorem modTick_sram (f : TickUnit → TickUnit) : (d.modTick f).sram = d.sram := rfl
@[simp] theorem modTick_host (f : TickUnit → TickUnit) : (d.modTick f).host = d.host := rfl
@[simp] theorem modTick_hostBad (f : TickUnit → TickUnit) : (d.modTick f).hostBad = d.hostBad := rfl
@[simp] theorem modTick_free (f : TickUnit → TickUnit) : (d.modTick f).free = d.free := rfl
@[simp] theorem modTick_out (f : TickUnit → TickUnit) : (d.modTick f).out = d.out := rfl

@[simp] theorem wrByte_ctr (a : Nat) (b : Byte) : (d.wrByte a b).ctr = d.ctr := rfl
@[simp] theorem wrByte_tick (a : Nat) (b : Byte) : (d.wrByte a b).tick = d.tick := rfl
@[simp] theorem wrByte_atStep3 (a : Nat) (b : Byte) : (d.wrByte a b).atStep3 = d.atStep3 := rfl
@[simp] theorem wrByte_atStep6 (a : Nat) (b : Byte) : (d.wrByte a b).atStep6 = d.atStep6 := rfl
@[simp] theorem wrByte_env (a : Nat) (b : Byte) : (d.wrByte a b).env = d.env := rfl
@[simp] theorem wrByte_boot (a : Nat) (b : Byte) : (d.wrByte a b).boot = d.boot := rfl
@[simp] theorem wrByte_trust (a : Nat) (b : Byte) : (d.wrByte a b).trust = d.trust := rfl
@[simp] theorem wrByte_banks (a : Nat) (b : Byte) : (d.wrByte a b).banks = d.banks := rfl
@[simp] theorem wrByte_commits (a : Nat) (b : Byte) : (d.wrByte a b).commits = d.commits := rfl
@[simp] theorem wrByte_regs (a : Nat) (b : Byte) : (d.wrByte a b).regs = d.regs := rfl
@[simp] theorem wrByte_tally (a : Nat) (b : Byte) : (d.wrByte a b).tally = d.tally := rfl
@[simp] theorem wrByte_bist (a : Nat) (b : Byte) : (d.wrByte a b).bist = d.bist := rfl
@[simp] theorem wrByte_yards (a : Nat) (b : Byte) : (d.wrByte a b).yards = d.yards := rfl
@[simp] theorem wrByte_pwr (a : Nat) (b : Byte) : (d.wrByte a b).pwr = d.pwr := rfl
@[simp] theorem wrByte_tap (a : Nat) (b : Byte) : (d.wrByte a b).tap = d.tap := rfl
@[simp] theorem wrByte_stalls (a : Nat) (b : Byte) : (d.wrByte a b).stalls = d.stalls := rfl
@[simp] theorem wrByte_msgs (a : Nat) (b : Byte) : (d.wrByte a b).msgs = d.msgs := rfl
@[simp] theorem wrByte_credits (a : Nat) (b : Byte) : (d.wrByte a b).credits = d.credits := rfl
@[simp] theorem wrByte_mc (a : Nat) (b : Byte) : (d.wrByte a b).mc = d.mc := rfl
@[simp] theorem wrByte_batches (a : Nat) (b : Byte) : (d.wrByte a b).batches = d.batches := rfl
@[simp] theorem wrByte_ports (a : Nat) (b : Byte) : (d.wrByte a b).ports = d.ports := rfl
@[simp] theorem wrByte_drovers (a : Nat) (b : Byte) : (d.wrByte a b).drovers = d.drovers := rfl
@[simp] theorem wrByte_sidings (a : Nat) (b : Byte) : (d.wrByte a b).sidings = d.sidings := rfl
@[simp] theorem wrByte_forges (a : Nat) (b : Byte) : (d.wrByte a b).forges = d.forges := rfl
@[simp] theorem wrByte_queues (a : Nat) (b : Byte) : (d.wrByte a b).queues = d.queues := rfl
@[simp] theorem wrByte_pcie (a : Nat) (b : Byte) : (d.wrByte a b).pcie = d.pcie := rfl
@[simp] theorem wrByte_msixTable (a : Nat) (b : Byte) : (d.wrByte a b).msixTable = d.msixTable := rfl
@[simp] theorem wrByte_pba (a : Nat) (b : Byte) : (d.wrByte a b).pba = d.pba := rfl
@[simp] theorem wrByte_epoch (a : Nat) (b : Byte) : (d.wrByte a b).epoch = d.epoch := rfl
@[simp] theorem wrByte_shedFill (a : Nat) (b : Byte) : (d.wrByte a b).shedFill = d.shedFill := rfl
@[simp] theorem wrByte_chanFill (a : Nat) (b : Byte) : (d.wrByte a b).chanFill = d.chanFill := rfl
@[simp] theorem wrByte_bad (a : Nat) (b : Byte) : (d.wrByte a b).bad = d.bad := rfl
@[simp] theorem wrByte_ce (a : Nat) (b : Byte) : (d.wrByte a b).ce = d.ce := rfl
@[simp] theorem wrByte_ledgers (a : Nat) (b : Byte) : (d.wrByte a b).ledgers = d.ledgers := rfl
@[simp] theorem wrByte_tack (a : Nat) (b : Byte) : (d.wrByte a b).tack = d.tack := rfl
@[simp] theorem wrByte_tackBad (a : Nat) (b : Byte) : (d.wrByte a b).tackBad = d.tackBad := rfl
@[simp] theorem wrByte_sram (a : Nat) (b : Byte) : (d.wrByte a b).sram = d.sram := rfl
@[simp] theorem wrByte_host (a : Nat) (b : Byte) : (d.wrByte a b).host = d.host := rfl
@[simp] theorem wrByte_hostBad (a : Nat) (b : Byte) : (d.wrByte a b).hostBad = d.hostBad := rfl
@[simp] theorem wrByte_free (a : Nat) (b : Byte) : (d.wrByte a b).free = d.free := rfl
@[simp] theorem wrByte_out (a : Nat) (b : Byte) : (d.wrByte a b).out = d.out := rfl

/-! ### What an update writes -/

@[simp] theorem modStall_same (st : StallId) (f : Stall → Stall) : (d.modStall st f).stalls[st.val] = f d.stalls[st.val] :=
  upd_same_val _ _ _
@[simp] theorem stall_modStall_same (st : StallId) (f : Stall → Stall) : (d.modStall st f).stall st = f (d.stall st) :=
  upd_same _ _ _
theorem stall_modStall_ne (st u : StallId) (f : Stall → Stall) (h : u ≠ st) : (d.modStall st f).stall u = d.stall u := by
  simp only [modStall, stall]
  exact upd_ne _ _ _ _ h
@[simp] theorem modMc_same (c : Chan) (f : MemCtl → MemCtl) : (d.modMc c f).mc[c.val] = f d.mc[c.val] :=
  upd_same_val _ _ _
theorem modMc_ne (c e : Chan) (f : MemCtl → MemCtl) (h : e ≠ c) : (d.modMc c f).mc[e] = d.mc[e] := upd_ne _ _ _ _ h
@[simp] theorem modPort_same (p : PortId) (f : Port → Port) : (d.modPort p f).ports[p.val] = f d.ports[p.val] :=
  upd_same_val _ _ _
theorem modPort_ne (p q : PortId) (f : Port → Port) (h : q ≠ p) : (d.modPort p f).ports[q] = d.ports[q] :=
  upd_ne _ _ _ _ h
@[simp] theorem modDrover_same (y : Yard) (f : Drover → Drover) : (d.modDrover y f).drovers[y.val] = f d.drovers[y.val] :=
  upd_same_val _ _ _
@[simp] theorem modForge_same (y : Yard) (f : Forge → Forge) : (d.modForge y f).forges[y.val] = f d.forges[y.val] :=
  upd_same_val _ _ _
@[simp] theorem modQueue_same (q : QueueId) (f : HostQueue → HostQueue) : (d.modQueue q f).queues[q.val] = f d.queues[q.val] :=
  upd_same_val _ _ _
theorem modQueue_ne (q r : QueueId) (f : HostQueue → HostQueue) (h : r ≠ q) : (d.modQueue q f).queues[r] = d.queues[r] :=
  upd_ne _ _ _ _ h
@[simp] theorem modYard_same (y : Yard) (f : YardPower → YardPower) : (d.modYard y f).yards[y.val] = f d.yards[y.val] :=
  upd_same_val _ _ _
theorem modYard_ne (y z : Yard) (f : YardPower → YardPower) (h : z ≠ y) : (d.modYard y f).yards[z] = d.yards[z] :=
  upd_ne _ _ _ _ h
@[simp] theorem modBank_same (w : Fin 2) (f : TxnBank → TxnBank) : (d.modBank w f).banks[w.val] = f d.banks[w.val] :=
  upd_same_val _ _ _
@[simp] theorem modTick_tick (f : TickUnit → TickUnit) : (d.modTick f).tick = f d.tick := rfl

/-- A register reads what was last written to it. -/
@[simp] theorem reg_setReg_same (o : Nat) (v : W32) : (d.setReg o v).reg o = v := by simp [reg, setReg]

/-- Writing one register leaves the others. -/
theorem reg_setReg_ne (o p : Nat) (v : W32) (h : p ≠ o) : (d.setReg o v).reg p = d.reg p := by
  simp [reg, setReg, mapGet_mapWrite_ne _ _ _ _ _ h]

@[simp] theorem preg_setPreg_same (p : Page) (o : Nat) (v : W32) : (d.setPreg p o v).preg p o = v := by simp [preg, setPreg]

end Device

/-! ### Slots of a stall -/

namespace Stall

@[simp] theorem ctx_setCtx_same (s : Stall) (sl : Slot) (c : SlotCtx) : (s.setCtx sl c).ctx sl = c := by cases sl <;> rfl
@[simp] theorem modCtx_same (s : Stall) (sl : Slot) (f : SlotCtx → SlotCtx) : (s.modCtx sl f).ctx sl = f (s.ctx sl) := by
  simp [modCtx]
theorem ctx_setCtx_ne (s : Stall) (sl sm : Slot) (c : SlotCtx) (h : sm ≠ sl) : (s.setCtx sl c).ctx sm = s.ctx sm := by
  cases sl <;> cases sm <;> first | rfl | exact absurd rfl h
@[simp] theorem setCtx_slot (s : Stall) (sl : Slot) (c : SlotCtx) : (s.setCtx sl c).slot = s.slot := by cases sl <;> rfl
@[simp] theorem setCtx_setCtx (s : Stall) (sl : Slot) (a b : SlotCtx) : (s.setCtx sl a).setCtx sl b = s.setCtx sl b := by
  cases sl <;> rfl
@[simp] theorem setCtx_ctx (s : Stall) (sl : Slot) : s.setCtx sl (s.ctx sl) = s := by cases sl <;> rfl
@[simp] theorem modCtx_slot (s : Stall) (sl : Slot) (f : SlotCtx → SlotCtx) : (s.modCtx sl f).slot = s.slot := by
  simp [modCtx]

@[simp] theorem setCtx_mbx (s : Stall) (sl : Slot) (c : SlotCtx) : (s.setCtx sl c).mbx = s.mbx := by cases sl <;> rfl
@[simp] theorem modCtx_mbx (s : Stall) (sl : Slot) (f : SlotCtx → SlotCtx) : (s.modCtx sl f).mbx = s.mbx := by cases sl <;> rfl
@[simp] theorem setCtx_v (s : Stall) (sl : Slot) (c : SlotCtx) : (s.setCtx sl c).v = s.v := by cases sl <;> rfl
@[simp] theorem modCtx_v (s : Stall) (sl : Slot) (f : SlotCtx → SlotCtx) : (s.modCtx sl f).v = s.v := by cases sl <;> rfl
@[simp] theorem setCtx_vBad (s : Stall) (sl : Slot) (c : SlotCtx) : (s.setCtx sl c).vBad = s.vBad := by cases sl <;> rfl
@[simp] theorem modCtx_vBad (s : Stall) (sl : Slot) (f : SlotCtx → SlotCtx) : (s.modCtx sl f).vBad = s.vBad := by cases sl <;> rfl
@[simp] theorem setCtx_mgr (s : Stall) (sl : Slot) (c : SlotCtx) : (s.setCtx sl c).mgr = s.mgr := by cases sl <;> rfl
@[simp] theorem modCtx_mgr (s : Stall) (sl : Slot) (f : SlotCtx → SlotCtx) : (s.modCtx sl f).mgr = s.mgr := by cases sl <;> rfl
@[simp] theorem setCtx_gate (s : Stall) (sl : Slot) (c : SlotCtx) : (s.setCtx sl c).gate = s.gate := by cases sl <;> rfl
@[simp] theorem modCtx_gate (s : Stall) (sl : Slot) (f : SlotCtx → SlotCtx) : (s.modCtx sl f).gate = s.gate := by cases sl <;> rfl
@[simp] theorem setCtx_haltReason (s : Stall) (sl : Slot) (c : SlotCtx) : (s.setCtx sl c).haltReason = s.haltReason := by cases sl <;> rfl
@[simp] theorem modCtx_haltReason (s : Stall) (sl : Slot) (f : SlotCtx → SlotCtx) : (s.modCtx sl f).haltReason = s.haltReason := by cases sl <;> rfl
@[simp] theorem setCtx_barrow (s : Stall) (sl : Slot) (c : SlotCtx) : (s.setCtx sl c).barrow = s.barrow := by cases sl <;> rfl
@[simp] theorem modCtx_barrow (s : Stall) (sl : Slot) (f : SlotCtx → SlotCtx) : (s.modCtx sl f).barrow = s.barrow := by cases sl <;> rfl
@[simp] theorem setCtx_receipts (s : Stall) (sl : Slot) (c : SlotCtx) : (s.setCtx sl c).receipts = s.receipts := by cases sl <;> rfl
@[simp] theorem modCtx_receipts (s : Stall) (sl : Slot) (f : SlotCtx → SlotCtx) : (s.modCtx sl f).receipts = s.receipts := by cases sl <;> rfl
@[simp] theorem setCtx_switchTo (s : Stall) (sl : Slot) (c : SlotCtx) : (s.setCtx sl c).switchTo = s.switchTo := by cases sl <;> rfl
@[simp] theorem modCtx_switchTo (s : Stall) (sl : Slot) (f : SlotCtx → SlotCtx) : (s.modCtx sl f).switchTo = s.switchTo := by cases sl <;> rfl
@[simp] theorem setCtx_switching (s : Stall) (sl : Slot) (c : SlotCtx) : (s.setCtx sl c).switching = s.switching := by cases sl <;> rfl
@[simp] theorem modCtx_switching (s : Stall) (sl : Slot) (f : SlotCtx → SlotCtx) : (s.modCtx sl f).switching = s.switching := by cases sl <;> rfl
@[simp] theorem setCtx_fillAge (s : Stall) (sl : Slot) (c : SlotCtx) : (s.setCtx sl c).fillAge = s.fillAge := by cases sl <;> rfl
@[simp] theorem modCtx_fillAge (s : Stall) (sl : Slot) (f : SlotCtx → SlotCtx) : (s.modCtx sl f).fillAge = s.fillAge := by cases sl <;> rfl
@[simp] theorem setCtx_switchReq (s : Stall) (sl : Slot) (c : SlotCtx) : (s.setCtx sl c).switchReq = s.switchReq := by cases sl <;> rfl
@[simp] theorem modCtx_switchReq (s : Stall) (sl : Slot) (f : SlotCtx → SlotCtx) : (s.modCtx sl f).switchReq = s.switchReq := by cases sl <;> rfl
@[simp] theorem setCtx_recalled (s : Stall) (sl : Slot) (c : SlotCtx) : (s.setCtx sl c).recalled = s.recalled := by cases sl <;> rfl
@[simp] theorem modCtx_recalled (s : Stall) (sl : Slot) (f : SlotCtx → SlotCtx) : (s.modCtx sl f).recalled = s.recalled := by cases sl <;> rfl
@[simp] theorem setCtx_watchdogDue (s : Stall) (sl : Slot) (c : SlotCtx) : (s.setCtx sl c).watchdogDue = s.watchdogDue := by cases sl <;> rfl
@[simp] theorem modCtx_watchdogDue (s : Stall) (sl : Slot) (f : SlotCtx → SlotCtx) : (s.modCtx sl f).watchdogDue = s.watchdogDue := by cases sl <;> rfl

end Stall

/-! ### Registers of a slot -/

namespace SlotCtx

@[simp] theorem getS_zero (c : SlotCtx) : c.getS 0 = 0 := by simp [getS]
@[simp] theorem setS_zero (c : SlotCtx) (v : W64) : c.setS 0 v = c := by simp [setS]

/-- A scalar register reads what was written to it; s0 stays 0 and the others keep their values (R94). -/
theorem getS_setS (c : SlotCtx) (d r : SReg) (v : W64) :
    (c.setS d v).getS r = if r = d ∧ r ≠ 0 then v else c.getS r := by
  by_cases hd : d = 0
  · subst hd
    by_cases hr : r = 0 <;> simp [hr]
  · by_cases hr : r = d
    · subst hr
      simp [getS, setS, hd]
    · have : d.val ≠ r.val := fun e => hr (Fin.ext e.symm)
      simp [getS, setS, hd, hr, this]

@[simp] theorem setS_running (c : SlotCtx) (r : SReg) (v : W64) : (c.setS r v).running = c.running := by unfold setS; split <;> rfl
@[simp] theorem setS_pc (c : SlotCtx) (r : SReg) (v : W64) : (c.setS r v).pc = c.pc := by unfold setS; split <;> rfl
@[simp] theorem setS_k (c : SlotCtx) (r : SReg) (v : W64) : (c.setS r v).k = c.k := by unfold setS; split <;> rfl
@[simp] theorem setS_cr (c : SlotCtx) (r : SReg) (v : W64) : (c.setS r v).cr = c.cr := by unfold setS; split <;> rfl
@[simp] theorem setS_hold (c : SlotCtx) (r : SReg) (v : W64) : (c.setS r v).hold = c.hold := by unfold setS; split <;> rfl
@[simp] theorem setS_resumeAt (c : SlotCtx) (r : SReg) (v : W64) : (c.setS r v).resumeAt = c.resumeAt := by unfold setS; split <;> rfl
@[simp] theorem setS_yielded (c : SlotCtx) (r : SReg) (v : W64) : (c.setS r v).yielded = c.yielded := by unfold setS; split <;> rfl
@[simp] theorem setS_ran (c : SlotCtx) (r : SReg) (v : W64) : (c.setS r v).ran = c.ran := by unfold setS; split <;> rfl
@[simp] theorem setS_vq (c : SlotCtx) (r : SReg) (v : W64) : (c.setS r v).vq = c.vq := by unfold setS; split <;> rfl
@[simp] theorem setS_mq (c : SlotCtx) (r : SReg) (v : W64) : (c.setS r v).mq = c.mq := by unfold setS; split <;> rfl
@[simp] theorem setS_mrun (c : SlotCtx) (r : SReg) (v : W64) : (c.setS r v).mrun = c.mrun := by unfold setS; split <;> rfl
@[simp] theorem setS_rings (c : SlotCtx) (r : SReg) (v : W64) : (c.setS r v).rings = c.rings := by unfold setS; split <;> rfl
@[simp] theorem setS_lost (c : SlotCtx) (r : SReg) (v : W64) : (c.setS r v).lost = c.lost := by unfold setS; split <;> rfl
@[simp] theorem setS_half (c : SlotCtx) (r : SReg) (v : W64) : (c.setS r v).half = c.half := by unfold setS; split <;> rfl
@[simp] theorem setS_stash (c : SlotCtx) (r : SReg) (v : W64) : (c.setS r v).stash = c.stash := by unfold setS; split <;> rfl
@[simp] theorem setCr_s (c : SlotCtx) (n : Nat) (v : W64) : (c.setCr n v).s = c.s := rfl
@[simp] theorem setCr_running (c : SlotCtx) (n : Nat) (v : W64) : (c.setCr n v).running = c.running := rfl
@[simp] theorem setCr_pc (c : SlotCtx) (n : Nat) (v : W64) : (c.setCr n v).pc = c.pc := rfl
@[simp] theorem setCr_k (c : SlotCtx) (n : Nat) (v : W64) : (c.setCr n v).k = c.k := rfl
@[simp] theorem setCr_hold (c : SlotCtx) (n : Nat) (v : W64) : (c.setCr n v).hold = c.hold := rfl
@[simp] theorem setCr_resumeAt (c : SlotCtx) (n : Nat) (v : W64) : (c.setCr n v).resumeAt = c.resumeAt := rfl
@[simp] theorem setCr_yielded (c : SlotCtx) (n : Nat) (v : W64) : (c.setCr n v).yielded = c.yielded := rfl
@[simp] theorem setCr_ran (c : SlotCtx) (n : Nat) (v : W64) : (c.setCr n v).ran = c.ran := rfl
@[simp] theorem setCr_vq (c : SlotCtx) (n : Nat) (v : W64) : (c.setCr n v).vq = c.vq := rfl
@[simp] theorem setCr_mq (c : SlotCtx) (n : Nat) (v : W64) : (c.setCr n v).mq = c.mq := rfl
@[simp] theorem setCr_mrun (c : SlotCtx) (n : Nat) (v : W64) : (c.setCr n v).mrun = c.mrun := rfl
@[simp] theorem setCr_rings (c : SlotCtx) (n : Nat) (v : W64) : (c.setCr n v).rings = c.rings := rfl
@[simp] theorem setCr_lost (c : SlotCtx) (n : Nat) (v : W64) : (c.setCr n v).lost = c.lost := rfl
@[simp] theorem setCr_half (c : SlotCtx) (n : Nat) (v : W64) : (c.setCr n v).half = c.half := rfl
@[simp] theorem setCr_stash (c : SlotCtx) (n : Nat) (v : W64) : (c.setCr n v).stash = c.stash := rfl

@[simp] theorem getCr_setCr_same (c : SlotCtx) (n : Nat) (v : W64) (h : n < 96) : (c.setCr n v).getCr n = v := by
  simp [getCr, setCr, vget, vset, h]
theorem getCr_setCr_ne (c : SlotCtx) (n m : Nat) (v : W64) (h : m ≠ n) : (c.setCr n v).getCr m = c.getCr m := by
  simp [getCr, setCr, vget, vset, h.symm]
@[simp] theorem getS_setCr (c : SlotCtx) (r : SReg) (n : Nat) (v : W64) : (c.setCr n v).getS r = c.getS r := rfl
@[simp] theorem getCr_setS (c : SlotCtx) (r : SReg) (n : Nat) (v : W64) : (c.setS r v).getCr n = c.getCr n := by
  simp [getCr]

end SlotCtx

namespace Device

variable (d : Device)

@[simp] theorem slotOf_modCur (st : StallId) (f : SlotCtx → SlotCtx) : (d.modCur st f).slotOf st = d.slotOf st := by
  simp [slotOf, modCur]
@[simp] theorem cur_modCur (st : StallId) (f : SlotCtx → SlotCtx) : (d.modCur st f).cur st = f (d.cur st) := by
  simp [cur, modCur, Stall.cur]
@[simp] theorem stall_modCur (st : StallId) (f : SlotCtx → SlotCtx) :
    (d.modCur st f).stall st = (d.stall st).setCtx (d.slotOf st) (f (d.cur st)) := by
  simp [modCur, Stall.modCtx, cur, Stall.cur, slotOf]
theorem stall_modCur_ne (st u : StallId) (f : SlotCtx → SlotCtx) (h : u ≠ st) : (d.modCur st f).stall u = d.stall u :=
  stall_modStall_ne d st u _ h
theorem modCur_modCur (st : StallId) (f g : SlotCtx → SlotCtx) : (d.modCur st f).modCur st g = d.modCur st fun c => g (f c) := by
  simp [modCur, modStall, upd, Stall.modCtx]
@[simp] theorem sreg_modCur (st : StallId) (f : SlotCtx → SlotCtx) (r : SReg) : (d.modCur st f).sreg st r = (f (d.cur st)).getS r := by
  simp [sreg]
@[simp] theorem cur_setSreg (st : StallId) (r : SReg) (v : W64) : (d.setSreg st r v).cur st = (d.cur st).setS r v := by
  simp [setSreg]
@[simp] theorem cur_retire (st : StallId) (n : Nat) : (d.retire st n).cur st = (d.cur st).advance n := by simp [retire]

end Device

end Sys2Proof.Machine
end

