-- ==== Sys2Proof/Laws/Issue.lean ====
section
/-! SUPPORT. What issuing, retiring and raising an exception can do: one lemma each, which later proofs cite. -/

namespace Sys2Proof.Machine

namespace SlotCtx

theorem loopBack_eq (c : SlotCtx) (n : Nat) (a : Tack) (h : loopCount (c.getCr n) = 0 ∨ loopLast (c.getCr n) ≠ a) :
    c.loopBack n a = (c, false) := by
  unfold loopBack
  rw [if_neg]
  rintro ⟨h1, h2⟩
  rcases h with h | h
  · exact h1 h
  · exact h h2

theorem loopBack_cases (c : SlotCtx) (n : Nat) (a : Tack) :
    ∃ cr pc, (c.loopBack n a).1 = { c with cr := cr, pc := pc } ∧ ∀ m, m ≠ n → vget cr m 0 = c.getCr m := by
  simp only [loopBack]
  split
  · split
    · exact ⟨_, _, rfl, fun m hm => getCr_setCr_ne c n m _ hm⟩
    · exact ⟨_, c.pc, rfl, fun m hm => getCr_setCr_ne c n m _ hm⟩
  · exact ⟨c.cr, c.pc, rfl, fun _ _ => rfl⟩

/-- Retirement moves the pc and counts loops; every other part of the slot stays. -/
theorem advance_cases (c : SlotCtx) (n : Nat) :
    ∃ cr pc, c.advance n = { c with cr := cr, pc := pc, resumeAt := none } ∧
      ∀ m, m ≠ 0x3C → m ≠ 0x3D → vget cr m 0 = c.getCr m := by
  obtain ⟨cr, pc, h, hcr⟩ := loopBack_cases { c.skip n with resumeAt := none } 0x3D c.pc
  obtain ⟨cr', pc', h', hcr'⟩ := loopBack_cases ({ c.skip n with resumeAt := none, cr := cr, pc := pc } : SlotCtx) 0x3C c.pc
  simp only [advance, h]
  split
  · exact ⟨cr, pc, rfl, fun m _ h2 => hcr m h2⟩
  · exact ⟨cr', pc', h', fun m h1 h2 => (hcr' m h1).trans (hcr m h2)⟩

/-- Outside the last instruction of an active loop, retirement only moves the pc. -/
theorem advance_plain (c : SlotCtx) (n : Nat) (h : c.endsNoLoop) :
    c.advance n = { c with pc := c.pc + BitVec.ofNat 16 (4 * n), resumeAt := none } := by
  have h1 := loopBack_eq { c.skip n with resumeAt := none } 0x3D c.pc h.2
  have h2 := loopBack_eq { c.skip n with resumeAt := none } 0x3C c.pc h.1
  simp only [skip] at h1 h2
  simp only [advance, skip, h1, h2]
  rfl

theorem retired_advance (c : SlotCtx) (n : Nat) : c.retired n (c.advance n) := by
  obtain ⟨cr, pc, h, hcr⟩ := advance_cases c n
  refine ⟨by rw [h], fun m h1 h2 => by rw [h]; exact hcr m h1 h2, fun hl => ?_⟩
  rw [advance_plain c n hl]
  exact ⟨rfl, rfl⟩

@[simp] theorem getS_advance (c : SlotCtx) (n : Nat) (r : SReg) : (c.advance n).getS r = c.getS r := by
  obtain ⟨cr, pc, h, -⟩ := advance_cases c n
  rw [h]
  rfl

/-- Writing a scalar register first makes no difference to how the instruction retires. -/
theorem retired_setS (c : SlotCtx) (n : Nat) (d : SReg) (v : W64) : c.retired n ((c.setS d v).advance n) := by
  have h := retired_advance (c.setS d v) n
  refine ⟨?_, fun m h1 h2 => by rw [h.2.1 m h1 h2, getCr_setS], fun hl => ?_⟩
  · have e := h.1
    by_cases hd : d = 0
    · simpa [setS, hd] using e
    · rw [e]
      simp [setS, hd]
  · have hl' : (c.setS d v).endsNoLoop := by simpa [endsNoLoop] using hl
    have e := h.2.2 hl'
    simpa using e

end SlotCtx

namespace Device

theorem issue_eq (s : State) (st : StallId) (n : Nat) (f : Device → Device) (h : s.issues st n) :
    s.dev.issue st n f = f s.dev := by
  simp [issue, h.1, h.2]

end Device

/-- A change of the running slot alone is seen nowhere else. -/
theorem sameButSlot_modCur (s : State) (st : StallId) (f : SlotCtx → SlotCtx) :
    s.sameButSlot st (s.onDev fun d => d.modCur st f) :=
  ⟨⟨⟨rfl, rfl⟩, rfl, fun u hu => Device.stall_modCur_ne s.dev st u f hu⟩, by simp⟩

/-- A taken branch or jump moves the pc and may end loops. -/
theorem jump_jumped (c : SlotCtx) (t : Tack) : SlotCtx.jumped t c (c.jump t) := by
  refine ⟨?_, fun m h1 h2 => ?_⟩
  · simp only [SlotCtx.jump]
    split <;> split <;> simp [SlotCtx.setCr]
  · simp only [SlotCtx.jump]
    split <;> split <;> simp [SlotCtx.getCr, SlotCtx.setCr, vget, vset, Ne.symm h1, Ne.symm h2]

@[simp] theorem getS_jump (c : SlotCtx) (t : Tack) (r : SReg) : (c.jump t).getS r = c.getS r := by
  rw [(jump_jumped c t).1]; rfl

/-- A slot changed by f, then a scalar write and retirement, is what State.wrote says of it. -/
theorem wrote_modCur (s : State) (st : StallId) (n : Nat) (d : SReg) (v : W64) (f : SlotCtx → SlotCtx)
    (hs : ∀ r, (f (s.dev.cur st)).getS r = (s.dev.cur st).getS r) :
    s.wrote st n (f (s.dev.cur st)) d v (s.onDev fun dev => dev.modCur st fun c => ((f c).setS d v).advance n) := by
  refine ⟨sameButSlot_modCur s st _, ?_, fun r => ?_⟩
  · simpa using SlotCtx.retired_setS (f (s.dev.cur st)) n d v
  · have h := SlotCtx.getS_setS (f (s.dev.cur st)) d r v
    simpa [Device.sreg, hs] using h

/-- What a one-register instruction does: the value is written and the instruction retires. -/
theorem wroteScalar_retire (s : State) (st : StallId) (n : Nat) (d : SReg) (v : W64) :
    s.wroteScalar st n d v (s.onDev fun dev => (dev.setSreg st d v).retire st n) := by
  have h := wrote_modCur s st n d v id fun _ => rfl
  simpa only [State.wroteScalar, Device.setSreg, Device.retire, Device.modCur_modCur, id] using h

/-- An instruction that writes nothing retires. -/
theorem onlyRetired_retire (s : State) (st : StallId) (n : Nat) : s.onlyRetired st n (s.onDev fun dev => dev.retire st n) := by
  have h := wroteScalar_retire s st n 0 0
  simpa only [State.onlyRetired, Device.setSreg, Device.retire, Device.modCur_modCur, SlotCtx.setS_zero] using h

end Sys2Proof.Machine
end

