-- ==== Sys2Proof/Laws/Except.lean ====
section
/-! SUPPORT. What recording a status code, an event and a scalar exception can change. -/

namespace Sys2Proof.Machine

namespace Device

/-- The device but its register file, its pending messages and its outputs. -/
def Quiet (d e : Device) : Prop := e = { d with regs := e.regs, pba := e.pba, out := e.out }

theorem Quiet.refl (d : Device) : Quiet d d := rfl

theorem Quiet.trans {a b c : Device} (h : Quiet a b) (k : Quiet b c) : Quiet a c := by
  unfold Quiet at *
  rw [k, h]

theorem quiet_setReg (d : Device) (o : Nat) (v : W32) : Quiet d (d.setReg o v) := rfl
theorem quiet_setPreg (d : Device) (p : Page) (o : Nat) (v : W32) : Quiet d (d.setPreg p o v) := rfl
theorem quiet_bump (d : Device) (p : Page) (o n : Nat) : Quiet d (d.bump p o n) := rfl
theorem quiet_bumpSat (d : Device) (p : Page) (o n : Nat) : Quiet d (d.bumpSat p o n) := rfl

/-- An MSI-X message changes PBA or leaves. -/
theorem quiet_msix (d : Device) (v : Fin 64) : Quiet d (d.msix v) := by
  unfold msix
  split <;> rfl

theorem quiet_event (d : Device) (p : Page) (i : Nat) : Quiet d (d.event p i) := by
  simp only [event]
  split
  · exact Quiet.refl d
  · split
    · exact Quiet.trans (quiet_setPreg d _ _ _) (quiet_msix _ _)
    · exact quiet_setPreg d _ _ _

theorem quiet_recordBits (d : Device) (p : Page) (bits : W32) (bit : Nat) (c : Code) (i : Bool) :
    Quiet d (d.recordBits p bits bit c i) := by
  simp only [recordBits]
  have h := quiet_setPreg d p 0x018 (d.preg p 0x018 ||| bits)
  generalize d.setPreg p 0x018 (d.preg p 0x018 ||| bits) = e at h ⊢
  have k : Quiet d (if d.preg p 0x018 = 0 then
      (((e.setPreg p 0x020 (BitVec.ofNat 32 (2 ^ 31 + bitAt i 30 + bit * 2 ^ 16 + c.toNat))).setPreg p 0x040
        (BitVec.ofNat 32 e.now.toNat)).setPreg p 0x044 (BitVec.ofNat 32 (e.now.toNat / 2 ^ 32))) else e) := by
    split
    · exact ((h.trans (quiet_setPreg _ _ _ _)).trans (quiet_setPreg _ _ _ _)).trans (quiet_setPreg _ _ _ _)
    · exact h
  split
  · exact k
  · exact k.trans (quiet_event _ _ _)

theorem quiet_record (d : Device) (p : Page) (c : Code) : Quiet d (d.record p c) := by
  simp only [record]
  split
  · exact Quiet.refl d
  · exact quiet_recordBits d _ _ _ _ _

theorem quiet_eventCode (d : Device) (p : Page) (i : Nat) (c : Code) : Quiet d (d.eventCode p i c) :=
  (quiet_record d p c).trans (quiet_event _ p i)

/-- Class 0 is never recorded (R494). -/
@[simp] theorem record_zero (d : Device) (p : Page) : d.record p 0 = d := by simp [record, Status.cls]

theorem Quiet.stalls {d e : Device} (h : Quiet d e) : e.stalls = d.stalls := by rw [h]
theorem Quiet.stall {d e : Device} (h : Quiet d e) (st : StallId) : e.stall st = d.stall st := by rw [h]; rfl

end Device

/-- An exception outside a handler enters it (R128). -/
theorem entered_enter (c : SlotCtx) (cause : Nat) (code : Code) (info : W64) :
    c.entered cause code info (c.enter cause code info) := by
  refine ⟨by simp [SlotCtx.enter, SlotCtx.setCr], ?_, ?_, ?_, ?_, ?_, fun m h1 h6 h7 h8 => ?_⟩
  · simp [SlotCtx.enter, SlotCtx.getCr_setCr_ne, BitVec.ofNat_add]
  all_goals simp [SlotCtx.enter, SlotCtx.getCr, SlotCtx.setCr, vget, vset, setBit]
  simp [Ne.symm h1, Ne.symm h6, Ne.symm h7, Ne.symm h8]

/-- What raising an exception does where none is active. -/
theorem raise_took (s : State) (st : StallId) (cause : Nat) (code : Code) (info : W64)
    (h : flag ((s.dev.cur st).getCr 0x01) 0 = false) :
    s.took st cause code info (s.onDev fun d => d.raise st cause code info) := by
  have e : s.dev.raise st cause code info = (s.dev.modCur st fun c => c.enter cause code info).record (Page.stall st) code := by
    simp [Device.raise, h]
  have q := Device.quiet_record (s.dev.modCur st fun c => c.enter cause code info) (Page.stall st) code
  have hc : ((s.onDev fun d => d.raise st cause code info).dev.cur st) = (s.dev.cur st).enter cause code info := by
    simp only [State.onDev_dev, e, Device.cur, Device.Quiet.stall q]
    exact Device.cur_modCur _ _ _
  refine ⟨⟨rfl, rfl⟩, ?_, ?_, ?_, ?_, ?_⟩
  · simp only [State.onDev_dev, e]
    rw [q]
    rfl
  · intro hz
    subst hz
    simp only [State.onDev_dev, e, Device.record_zero]
    rfl
  · intro u hu
    simp only [State.onDev_dev, e, Device.Quiet.stall q]
    exact Device.stall_modCur_ne _ _ _ _ hu
  · rw [hc]
    simp only [State.onDev_dev, e, Device.Quiet.stall q, Device.stall_modCur]
  · rw [hc]
    exact entered_enter _ _ _ _

/-- Memory reads the same where only stalls, registers and outputs differ. -/
theorem rdByte_of (d e : Device) (h : e = { d with stalls := e.stalls, regs := e.regs, pba := e.pba, out := e.out }) (a : Nat) : e.rdByte a = d.rdByte a := by
  rw [h]; rfl

/-- An exception raised after the running slot was changed by f. -/
theorem took_after (s : State) (st : StallId) (f : SlotCtx → SlotCtx) (cause : Nat) (code : Code) (info : W64)
    (h : flag ((f (s.dev.cur st)).getCr 0x01) 0 = false) (hs : ∀ r, (f (s.dev.cur st)).getS r = (s.dev.cur st).getS r) :
    let t := s.onDev fun d => (d.modCur st f).raise st cause code info
    (f (s.dev.cur st)).entered cause code info (t.dev.cur st) ∧ (∀ q, t.dev.sreg st q = s.dev.sreg st q) ∧ s.sameMemory t := by
  have k := raise_took (s.onDev fun d => d.modCur st f) st cause code info (by simpa using h)
  obtain ⟨_, k2, _, _, _, k6⟩ := k
  simp only [State.onDev_dev, Device.cur_modCur] at k6
  refine ⟨k6, fun q => ?_, fun a => ?_⟩
  · have : ((s.onDev fun d => (d.modCur st f).raise st cause code info).dev.cur st).getS q = (f (s.dev.cur st)).getS q := by
      have k := k6.1
      exact (congrArg (fun c => SlotCtx.getS c q) k).trans rfl
    exact this.trans (hs q)
  · exact rdByte_of _ _ (by simpa using k2) a

end Sys2Proof.Machine
end

