-- ==== Sys2Proof/Laws/Mem.lean ====
section
/-! SUPPORT. Laws of memory: what is written is read back, every other byte keeps its value, and every write keeps the
canonical form. -/

namespace Sys2Proof.Machine

namespace Device

/-- What an unlisted byte reads as does not depend on the listed ones. -/
@[simp] theorem blank_wrByte (d : Device) (a q : Nat) (b : Byte) : (d.wrByte a b).blank q = d.blank q := rfl

/-- A written byte is read back. -/
@[simp] theorem rdByte_wrByte_same (d : Device) (a : Nat) (b : Byte) : (d.wrByte a b).rdByte a = b := by
  show (mapGet (mapWrite (d.blank a) d.mem a b) a).getD (d.blank a) = b
  simp

/-- A write leaves every other byte alone. -/
theorem rdByte_wrByte_ne (d : Device) (a q : Nat) (b : Byte) (h : q ≠ a) : (d.wrByte a b).rdByte q = d.rdByte q := by
  show (mapGet (mapWrite (d.blank a) d.mem a b) q).getD (d.blank q) = d.rdByte q
  rw [mapGet_mapWrite_ne _ _ _ _ _ h]
  rfl

theorem wrBytes_only (d : Device) (a : Nat) (l : List Byte) : d.wrBytes a l = { d with mem := (d.wrBytes a l).mem } := by
  induction l generalizing d a with
  | nil => rfl
  | cons b t ih =>
    simp only [wrBytes]
    rw [ih]
    rfl

theorem rdByte_wrBytes_out (d : Device) (a q : Nat) (l : List Byte) (h : q < a ∨ a + l.length ≤ q) :
    (d.wrBytes a l).rdByte q = d.rdByte q := by
  induction l generalizing d a with
  | nil => rfl
  | cons b t ih =>
    simp only [wrBytes, List.length_cons] at h ⊢
    rw [ih _ _ (by omega), rdByte_wrByte_ne _ _ _ _ (by omega)]

/-- The bytes of a range read back as they were written. -/
theorem rdByte_wrBytes_in (d : Device) (a j : Nat) (l : List Byte) (h : j < l.length) :
    (d.wrBytes a l).rdByte (a + j) = l[j] := by
  induction l generalizing d a j with
  | nil => exact absurd h (Nat.not_lt_zero _)
  | cons b t ih =>
    simp only [wrBytes]
    cases j with
    | zero =>
      rw [Nat.add_zero, rdByte_wrBytes_out _ _ _ _ (by omega)]
      simp
    | succ j =>
      have := ih (d.wrByte a b) (a + 1) j (by simpa using h)
      rw [show a + (j + 1) = a + 1 + j by omega, this]
      simp

/-- The memory's canonical form: rising addresses, and no entry that an unlisted byte would read as. -/
abbrev MemWf (d : Device) : Prop := MapWf d.blank d.mem

theorem wrByte_wf (d : Device) (a : Nat) (b : Byte) (h : d.MemWf) : (d.wrByte a b).MemWf := by
  show MapWf d.blank (mapWrite (d.blank a) d.mem a b)
  exact mapWrite_wf d.blank d.mem a b h

theorem wrBytes_wf (d : Device) (a : Nat) (l : List Byte) (h : d.MemWf) : (d.wrBytes a l).MemWf := by
  induction l generalizing d a with
  | nil => exact h
  | cons b t ih => exact ih _ _ (wrByte_wf d a b h)

theorem setErase_of_not_mem (l : List Nat) (u : Nat) (h : u ∉ l) : setErase l u = l := by
  unfold setErase
  rw [List.filter_eq_self]
  intro x hx
  have : x ≠ u := fun e => h (e.subst hx)
  simpa using this

theorem inject_unarmed (d : Device) (u : Nat) (h : d.tally.armed = false) : d.inject u = d := by simp [inject, h]

/-- A loft address lies at or above the apertures. -/
theorem loftBase_le (st : StallId) (o : Nat) : loftBase ≤ loftDpa st o := by
  unfold loftDpa
  omega

theorem unitOf_loft (a : Nat) (h : loftBase ≤ a) : unitOf a = a / 8 * 8 := by
  simp [unitOf, unitSize, Nat.not_lt.mpr h]

theorem unitOf_loft_ge (a : Nat) (h : loftBase ≤ a) : loftBase ≤ unitOf a := by
  rw [unitOf_loft a h]
  unfold loftBase at *
  omega

/-- A read of a loft word free of errors changes nothing. -/
theorem readUnit_clean (d : Device) (u : Nat) (k : Bool) (h : loftBase ≤ u) (hb : u ∉ d.bad) (hc : u ∉ d.ce) :
    d.readUnit u k = (d, .ok) := by
  simp [readUnit, Nat.not_lt.mpr h, hb, hc]

/-- A write within a loft word free of errors stores its bytes and does nothing else, while no injection is armed. -/
theorem writeUnit_clean (d : Device) (a : Nat) (l : List Byte) (k : Bool) (h : loftBase ≤ a) (hb : unitOf a ∉ d.bad)
    (hc : unitOf a ∉ d.ce) (hi : d.tally.armed = false) : d.writeUnit a l k = (d.wrBytes a l, .ok) := by
  have h1 : ¬ unitOf a < loftBase := Nat.not_lt.mpr (unitOf_loft_ge a h)
  have h2 : (d.wrBytes a l).tally.armed = false := by rw [wrBytes_only]; exact hi
  simp only [writeUnit, h1, decide_false, Bool.false_and, Bool.false_eq_true, if_false, hb, hc, setErase_of_not_mem _ _ hb,
    setErase_of_not_mem _ _ hc, inject_unarmed _ _ h2, ite_self]

end Device

end Sys2Proof.Machine
end

