-- ==== Sys2Proof/Laws/Fill.lean ====
section
/-! SUPPORT. What reads and writes of memory leave: a read changes no byte, whatever error it meets, and every operation
keeps the canonical form of the memory it works on. -/

namespace Sys2Proof.Machine

namespace Device

/-- e holds the bytes that d holds: the listed ones, and what an unlisted one reads as. -/
def SameFill (d e : Device) : Prop :=
  e.mem = d.mem ∧ e.boot = d.boot ∧ e.chanFill = d.chanFill ∧ e.epoch = d.epoch ∧ e.shedFill = d.shedFill ∧
    ∀ c : Chan, e.mc[c].serviceIdx = d.mc[c].serviceIdx

theorem SameFill.refl (d : Device) : SameFill d d := ⟨rfl, rfl, rfl, rfl, rfl, fun _ => rfl⟩

theorem SameFill.trans {d e f : Device} (h : SameFill d e) (k : SameFill e f) : SameFill d f := by
  obtain ⟨h1, h2, h3, h4, h5, h6⟩ := h
  obtain ⟨k1, k2, k3, k4, k5, k6⟩ := k
  exact ⟨k1.trans h1, k2.trans h2, k3.trans h3, k4.trans h4, k5.trans h5, fun c => (k6 c).trans (h6 c)⟩

theorem Quiet.fill {d e : Device} (h : Quiet d e) : SameFill d e := by
  unfold Quiet at h
  rw [h]
  exact ⟨rfl, rfl, rfl, rfl, rfl, fun _ => rfl⟩

theorem SameFill.channels {d e : Device} (h : SameFill d e) (y : Yard) : e.channels y = d.channels y := by
  unfold Device.channels
  refine List.filter_congr fun c _ => ?_
  rw [h.2.2.2.2.2 c]

theorem SameFill.chanOf {d e : Device} (h : SameFill d e) (a : Nat) : e.chanOf a = d.chanOf a := by
  unfold Device.chanOf place yardAt
  rw [h.2.1]
  dsimp only
  rw [h.channels]

theorem SameFill.blank {d e : Device} (h : SameFill d e) : e.blank = d.blank := by
  funext a
  have k := h.chanOf a
  obtain ⟨-, h2, h3, h4, h5, -⟩ := h
  unfold Device.blank fillAt
  simp only [h2, h3, h4, h5, k]

/-- Such devices read alike. -/
theorem SameFill.rdByte {d e : Device} (h : SameFill d e) (a : Nat) : e.rdByte a = d.rdByte a := by
  unfold Device.rdByte
  rw [h.blank, h.1]

theorem SameFill.wf {d e : Device} (h : SameFill d e) (w : d.MemWf) : e.MemWf := by
  unfold MemWf at *
  rw [h.blank, h.1]
  exact w

theorem modMc_fill (d : Device) (c : Chan) (f : MemCtl → MemCtl) (h : ∀ m, (f m).serviceIdx = m.serviceIdx) :
    SameFill d (d.modMc c f) := by
  refine ⟨rfl, rfl, rfl, rfl, rfl, fun k => ?_⟩
  show (upd d.mc c f)[k].serviceIdx = d.mc[k].serviceIdx
  by_cases e : k = c
  · subst e
    rw [upd_same]
    exact h _
  · rw [upd_ne _ _ _ _ e]

theorem setMapout_fill (d : Device) (c : Chan) : SameFill d (d.setMapout c) := by
  simp only [setMapout]
  split
  · exact SameFill.refl d
  · exact (modMc_fill d c (fun m => { m with mapoutPend := true }) fun _ => rfl).trans (quiet_event _ _ 3).fill

/-- An uncorrectable burst changes no byte. -/
theorem burstFailed_fill (d : Device) (a : Nat) : SameFill d (d.burstFailed a) := by
  simp only [burstFailed]
  generalize hx : ((((d.bump (Page.memctl (d.chanOf a)) 0x114 1).setPreg (Page.memctl (d.chanOf a)) 0x118
    (BitVec.ofNat 32 (unitOf a))).setPreg (Page.memctl (d.chanOf a)) 0x11C (BitVec.ofNat 32 (unitOf a / 2 ^ 32)))) = x
  have h0 : Quiet d x := by
    subst hx
    exact ((quiet_bump _ _ _ _).trans (quiet_setPreg _ _ _ _)).trans (quiet_setPreg _ _ _ _)
  have h2 := h0.fill.trans (modMc_fill x (d.chanOf a) (fun m => { m with ueW := m.ueW + 1 }) fun _ => rfl)
  have h3 := h2.trans (quiet_eventCode _ (Page.memctl (d.chanOf a)) 2 Status.memEccUncorrected).fill
  split
  · exact h3.trans (setMapout_fill _ _)
  · exact h3

theorem wordFailed_fill (d : Device) (a : Nat) : SameFill d (d.wordFailed a) :=
  (((quiet_bump d _ _ _).trans (quiet_record _ _ _)).fill : SameFill d _)

theorem burstServed_fill (d : Device) (c : Chan) (w b : Bool) : SameFill d (d.burstServed c w b) := by
  simp only [burstServed, drawFree]
  generalize d.batches[c].take w (Config.turnRound d.free) = r
  have h0 : SameFill d { d with free := d.free + 1, batches := d.batches.set c r.1 } := ⟨rfl, rfl, rfl, rfl, rfl, fun _ => rfl⟩
  generalize ({ d with free := d.free + 1, batches := d.batches.set c r.1 } : Device) = e at h0 ⊢
  refine h0.trans (Quiet.fill ?_)
  refine Quiet.trans ?_ (quiet_bump _ _ _ _)
  refine Quiet.trans ?_ (quiet_bump _ _ _ _)
  cases b
  · exact quiet_bump _ _ _ _
  · exact (quiet_bump _ _ _ _).trans (quiet_bump _ _ _ _)

/-- A read of a unit changes no byte, whatever error it meets. -/
theorem readUnit_fill (d : Device) (u : Nat) (b : Bool) : SameFill d (d.readUnit u b).1 := by
  have hs := burstServed_fill d (d.chanOf u) false b
  simp only [readUnit]
  generalize d.burstServed (d.chanOf u) false b = e at hs ⊢
  split_ifs
  · exact SameFill.refl d
  · exact hs.trans (burstFailed_fill _ u)
  · exact hs.trans (quiet_bump _ _ _ _).fill
  · exact hs
  · exact wordFailed_fill d u
  · exact SameFill.trans (e := { d with ce := setErase d.ce u }) ⟨rfl, rfl, rfl, rfl, rfl, fun _ => rfl⟩ (quiet_bump _ _ _ _).fill
  · exact SameFill.refl d

/-- A read of a range changes no byte. -/
theorem readRange_fill (d : Device) (a n : Nat) (b : Bool) : SameFill d (d.readRange a n b).1 := by
  have key : ∀ (l : List Nat) (x : Device × List (Nat × MemRes)), SameFill d x.1 →
      SameFill d (l.foldl (fun (x : Device × List (Nat × MemRes)) u =>
        ((x.1.readUnit u b).1, if (x.1.readUnit u b).2 = .ok then x.2 else x.2 ++ [(u, (x.1.readUnit u b).2)])) x).1 := by
    intro l
    induction l with
    | nil => exact fun _ h => h
    | cons u t ih => exact fun x h => ih _ (h.trans (readUnit_fill x.1 u b))
  exact key _ (d, []) (SameFill.refl d)

theorem inject_fill (d : Device) (u : Nat) : SameFill d (d.inject u) := by
  simp only [inject]
  split_ifs <;> exact ⟨rfl, rfl, rfl, rfl, rfl, fun _ => rfl⟩

/-- The bytes that a write within a unit stores keep the canonical form. -/
theorem put_wf {d e : Device} (k : SameFill d e) (a u : Nat) (l : List Byte) (h : d.MemWf) :
    ((e.wrBytes a l).inject u).MemWf :=
  (inject_fill _ u).wf (wrBytes_wf e a l (k.wf h))

/-- A write within a unit keeps the canonical form. -/
theorem writeUnit_wf (d : Device) (a : Nat) (l : List Byte) (b : Bool) (h : d.MemWf) : (d.writeUnit a l b).1.MemWf := by
  have hs := burstServed_fill d (d.chanOf (unitOf a)) true b
  simp only [writeUnit]
  generalize d.burstServed (d.chanOf (unitOf a)) true b = e at hs ⊢
  have h1 : SameFill d (if decide (unitOf a < loftBase) = true then e else d) := by
    split
    · exact hs
    · exact SameFill.refl d
  generalize (if decide (unitOf a < loftBase) = true then e else d) = x at h1 ⊢
  have hb : SameFill x { x with bad := setErase x.bad (unitOf a), ce := setErase x.ce (unitOf a) } :=
    ⟨rfl, rfl, rfl, rfl, rfl, fun _ => rfl⟩
  have hc : SameFill x { x with ce := setErase x.ce (unitOf a) } := ⟨rfl, rfl, rfl, rfl, rfl, fun _ => rfl⟩
  generalize ({ x with bad := setErase x.bad (unitOf a), ce := setErase x.ce (unitOf a) } : Device) = y at hb ⊢
  generalize ({ x with ce := setErase x.ce (unitOf a) } : Device) = z at hc ⊢
  have hz : SameFill d (if unitOf a ∈ x.ce then
      (if decide (unitOf a < loftBase) = true then z.bump (Page.memctl (d.chanOf (unitOf a))) 0x110 1
        else z.bump (Page.shedOf (loftStall (unitOf a))) (shedOff (loftStall (unitOf a)) 0x108) 1) else x) := by
    split
    · split
      · exact (h1.trans hc).trans (quiet_bump _ _ _ _).fill
      · exact (h1.trans hc).trans (quiet_bump _ _ _ _).fill
    · exact h1
  split
  · exact h
  · split
    · exact put_wf (h1.trans hb) _ _ _ h
    · split
      · split
        · exact (h1.trans (burstFailed_fill _ _)).wf h
        · exact (h1.trans (wordFailed_fill _ _)).wf h
      · exact put_wf hz _ _ _ h

/-- A write of a range keeps the canonical form. -/
theorem writeRange_wf (d : Device) (a : Nat) (l : List Byte) (b : Bool) (h : d.MemWf) : (d.writeRange a l b).1.MemWf := by
  have key : ∀ (us : List Nat) (x : Device × List (Nat × MemRes)), x.1.MemWf →
      (us.foldl (fun (x : Device × List (Nat × MemRes)) u =>
        ((x.1.writeUnit (pieceOf a l u).1 (pieceOf a l u).2 b).1,
          if (x.1.writeUnit (pieceOf a l u).1 (pieceOf a l u).2 b).2 = .ok then x.2
          else x.2 ++ [(u, (x.1.writeUnit (pieceOf a l u).1 (pieceOf a l u).2 b).2)])) x).1.MemWf := by
    intro us
    induction us with
    | nil => exact fun _ k => k
    | cons u t ih => exact fun x k => ih _ (writeUnit_wf x.1 _ _ b k)
  exact key _ (d, []) h

theorem poisonUnit_fill (d : Device) (u : Nat) : SameFill d (d.poisonUnit u) := ⟨rfl, rfl, rfl, rfl, rfl, fun _ => rfl⟩

/-- Unknown contents: nothing is listed. -/
theorem forgetMemory_wf (d : Device) : d.forgetMemory.MemWf :=
  ⟨List.Pairwise.nil, fun _ h => absurd h List.not_mem_nil⟩

/-! ### Tack stores, gatehouse SRAM and host memory -/

/-- A tack byte's write keeps the canonical form, for the blanks z of the tack stores. -/
theorem wrTackByte_wf (d : Device) (st : StallId) (a : Nat) (b : Byte) (z : Nat → Byte)
    (hz : z (tackKey st a) = d.tackBlank st a) (h : MapWf z d.tack) : MapWf z (d.wrTackByte st a b).tack := by
  show MapWf z (mapWrite (d.tackBlank st a) d.tack (tackKey st a) b)
  rw [← hz]
  exact mapWrite_wf z d.tack _ b h

theorem wrSram_wf (d : Device) (a : Nat) (l : List Byte) (h : MapWf (fun _ => 0) d.sram) :
    MapWf (fun _ => 0) (d.wrSram a l).sram := by
  induction l generalizing d a with
  | nil => exact h
  | cons b t ih => exact ih _ _ (mapWrite_wf (fun _ => 0) d.sram a b h)

theorem wrHost_wf (d : Device) (a : Nat) (l : List Byte) (h : MapWf (fun _ => 0) d.host) :
    MapWf (fun _ => 0) (d.wrHost a l).host := by
  induction l generalizing d a with
  | nil => exact h
  | cons b t ih => exact ih _ _ (mapWrite_wf (fun _ => 0) d.host a b h)

/-- The memories of the block after reset are in their canonical form. -/
theorem reset_wf : State.reset.dev.MemWf ∧ MapWf (fun _ => 0) State.reset.dev.sram ∧ MapWf (fun _ => 0) State.reset.dev.host :=
  ⟨⟨List.Pairwise.nil, fun _ h => absurd h List.not_mem_nil⟩, ⟨List.Pairwise.nil, fun _ h => absurd h List.not_mem_nil⟩,
    ⟨List.Pairwise.nil, fun _ h => absurd h List.not_mem_nil⟩⟩

end Device

end Sys2Proof.Machine
end

