-- ==== Sys2Proof/Tests/Slice0.lean ====
section
/-! SUPPORT. Tests: ill-formed commands refused, values from the manual's worked examples and tables, and for every
statement with hypotheses states and operands that meet them. -/

set_option maxRecDepth 20000
set_option exponentiation.threshold 10000

namespace Sys2Proof.Tests

open Sys2Proof.Machine

/-! ### States -/

/-- The reset state with memory that reads 0 where nothing was written. -/
def blank : State :=
  State.reset.onDev fun d => { d with shedFill := Vector.replicate 24 none, chanFill := Vector.replicate 64 none }

/-- Stall 0 runs its primary slot, which f changes. -/
def runs (f : SlotCtx → SlotCtx) : State := blank.onDev fun d => d.modCtx 0 .primary fun c => f { c with running := true, pc := 0x100 }

/-- s1 and s2 of that slot. -/
def two (x y : W64) : State := runs fun c => (c.setS 1 x).setS 2 y

/-- Control register n of the primary slot of stall 0. -/
def cr (n : Nat) (v : W64) (s : State) : State := s.onDev fun d => d.modCtx 0 .primary fun c => c.setCr n v

/-- That slot is held. -/
def held (h : Hold) (s : State) : State := s.onDev fun d => d.modCtx 0 .primary fun c => { c with hold := some h }

/-- Words of 8 bytes at an address of its partition. -/
def words (a : Nat) (l : List Nat) (s : State) : State := s.onDev fun d => d.wrBytes (loftDpa 0 a) (l.flatMap (leBytes 8))

/-- A descriptor as a vector of its words. -/
def descr (l : List Nat) : Vector W64 8 := Vector.ofFn fun i => BitVec.ofNat 64 ((l[i.val]?).getD 0)

/-- The frame number. -/
def inFrame (n : Nat) (s : State) : State := s.onDev fun d => { d with ctr := { d.ctr with frame := BitVec.ofNat 48 n } }

/-- The paddock slot runs in the upper half of the loft. -/
def inPaddock (s : State) : State :=
  s.onDev fun d => (d.setPreg (Page.stall 0) 0xF00 0x8000_0F10).modStall 0 fun x =>
    { x with slot := .paddock, primary := { x.primary with running := false }, paddock := x.primary }

/-- 2³⁰ bytes of LP6 memory, all 64 channels in service. -/
def lp6 (s : State) : State := s.onDev fun d => { d with
  boot := { d.boot with memCapacity := 2 ^ 30, memSplit := 2 ^ 29, state := .ready, window := false, fwRunning := true, trained := 64 }
  mc := Vector.ofFn fun i : Fin 64 => { Reset.memCtl with state := .inService, rate := 2, serviceIdx := BitVec.ofNat 8 (i.val % 32) } }

/-- The device's state. -/
def inState (x : DevState) (s : State) : State := s.onDev fun d => { d with boot := { d.boot with state := x } }

/-- The state that a command leaves. -/
def nx (o : Host.Outcome State Fault Refusal) : State := match o with | .next t => t | _ => State.reset

/-- Mailbox 3 of stall 0 takes notices. -/
def noticing (s : State) : State := s.onDev fun d => d.modMbx 0 3 fun m => { m with notice := true }

/-- The manger format that names a descriptor in s1, and the descriptor at 0x400. -/
def mf : MFormat := ⟨0, 0, 1, 0⟩
def withDescr (l : List Nat) (s : State) : State := words 0x400 (l ++ List.replicate (8 - l.length) 0) s

/-- Every port is up and has news and buffers for the next flit. -/
def linkUp (s : State) : State := s.onDev fun d => { d with
  ports := Vector.ofFn fun p => { d.ports[p] with
    state := .up, width := 16, rateFb := true, granted := Vector.replicate 6 20, expect := 7, ack := 6, acked := 9
    nextSeq := 10, own := Vector.replicate 6 64, held := Vector.replicate 6 20, adv := Vector.replicate 6 64 } }

/-- The header of the flit that is expected. -/
def hdr : FlitHeader := ⟨false, 7, 9, 0, 0⟩

/-! ### Scalar instructions -/

theorem witness_ScalarIntRegister : (two 7 63).issues 0 1 ∧ ((two 7 63).dev.sreg 0 2).toNat < 64 := by
  unfold State.issues; decide

theorem witness_ScalarIntImmediate : (two 7 63).issues 0 (Imm.short 0).words ∧ (two 7 63).issues 0 (Imm.long 0).words ∧
    (Imm.short 63).zext.toNat = 63 ∧ (Imm.short 0x403F).zext.toNat = 0x4000 + 63 ∧
    (Imm.long 0x803F).zext.toNat = 0x8000 + 63 ∧ (Imm.long 0x8000).zext.toNat = 0x8000 + 0 := by
  unfold State.issues; decide

theorem witness_ScalarRegisterFile : (two 7 63).issues 0 1 ∧ (31 : SReg) ≠ 0 := by unfold State.issues; decide

theorem witness_ScalarFloat : (two 7 63).issues 0 1 ∧ ∀ f, (f && ((two 7 63).dev.cur 0).invTrap) = false := by
  unfold State.issues; decide

theorem witness_ScalarFloatValues : (fpOperand .fp64 0x7FF8_0000_0000_0001).isNan = true ∧
    (fpOperand .fp32 0x7FC0_0001).isNan = true ∧
    (let s := cr 0x0C 0x100 (two 0xBFF0_0000_0000_0000 0)
     s.issues 0 1 ∧ (s.dev.cur 0).invTrap = true ∧ flag ((s.dev.cur 0).getCr 0x01) 0 = false ∧
     flag (fpSqrt .fp64 (s.dev.sreg 0 1)).2 0 = true ∧ flag (fpDiv .fp32 (s.dev.sreg 0 0) (s.dev.sreg 0 2)).2 0 = true ∧
     flag (fpToInt .fp64 0x7FF8_0000_0000_0001).2 0 = true) := by
  unfold State.issues; decide

theorem witness_BranchesAndJumps :
    (let s := two 0xFFFF_FFFF_FFFF_FFFE 7
     let x := s.dev.sreg 0 1
     let y := s.dev.sreg 0 2
     s.issues 0 1 ∧ s.issues 0 2 ∧ x ≠ y ∧ x.toInt < y.toInt ∧ ¬ y.toInt ≤ x.toInt ∧ ¬ x.toNat < y.toNat ∧
       y.toNat ≤ x.toNat ∧ ¬ x = y ∧ x = x ∧ ¬ x.toInt < x.toInt ∧ y.toNat < x.toNat ∧ ¬ x.toNat ≤ y.toNat) := by
  unfold State.issues; decide

/-- LOOP_0 and LOOP_1 of a slot that stands at 0x100. -/
def loops (a b : W64) : State := cr 0x3C a (cr 0x3D b (two 5 0))

theorem witness_HardwareLoops :
    (let s := loops 0 0
     s.issues 0 1 ∧ ((Imm.short 1).words : Int) ≤ (Imm.short 1).sext.toInt ∧ loopCount ((s.dev.cur 0).getCr 0x3C) = 0 ∧
       (s.dev.sreg 0 1).toNat ≠ 0 ∧ (s.dev.sreg 0 1).toNat < 2 ^ 32 ∧ (s.dev.sreg 0 2).toNat = 0) ∧
    (let s := loops 0x0000_0003_00F0_0120 0
     loopCount ((s.dev.cur 0).getCr 0x3C) ≠ 0 ∧ loopCount ((s.dev.cur 0).getCr 0x3D) = 0 ∧
       loopLast ((s.dev.cur 0).getCr 0x3C) ≠ (s.dev.cur 0).pc + 4) ∧
    (let s := loops 0x0000_0003_00F0_0120 0x0000_0001_0100_0110
     s.issues 0 1 ∧ loopCount ((s.dev.cur 0).getCr 0x3C) ≠ 0 ∧ loopCount ((s.dev.cur 0).getCr 0x3D) ≠ 0 ∧
       flag ((s.dev.cur 0).getCr 0x01) 0 = false) ∧
    (Imm.long 1).sext.toInt < (Imm.long 1).words ∧
    (let c := (loops 0x0000_0001_00F0_0100 0).dev.cur 0
     loopCount (c.getCr 0x3D) = 0 ∧ loopCount (c.getCr 0x3C) = 1 ∧ loopLast (c.getCr 0x3C) = c.pc) ∧
    (let c := (loops 0x0000_0003_00F0_0100 0).dev.cur 0
     loopCount (c.getCr 0x3D) = 0 ∧ loopCount (c.getCr 0x3C) = 3 ∧ loopLast (c.getCr 0x3C) = c.pc) := by
  unfold State.issues; decide

/-! ### The loft, the control space, frames and exceptions -/

theorem witness_ScalarLoads :
    ((two 8 0).issues 0 1 ∧ (two 8 0).issues 0 2 ∧ 8 % 8 = 0 ∧ ((two 8 0).dev.sreg 0 1).toNat < (two 8 0).dev.loftLimit 0 .primary ∧
      (two 8 0).dev.slotOf 0 = .primary ∧ (two 8 0).dev.bad = [] ∧ (two 8 0).dev.ce = []) ∧
    (let s := inPaddock (two 2047992 0)
     s.issues 0 1 ∧ s.dev.slotOf 0 = .paddock ∧ (s.dev.sreg 0 1).toNat + 8 = s.dev.loftLimit 0 .paddock) := by
  unfold State.issues; decide

theorem witness_ScalarStores : (two 3145720 0).issues 0 1 ∧ (two 3145720 0).dev.slotOf 0 = .primary ∧
    3145720 % 8 = 0 ∧ ((two 3145720 0).dev.sreg 0 1).toNat + 8 = (two 3145720 0).dev.loftLimit 0 .primary ∧
    (two 3145720 0).dev.bad = [] ∧ (two 3145720 0).dev.ce = [] ∧ (two 3145720 0).dev.tally.armed = false := by
  unfold State.issues; decide

theorem witness_LoftFaults : (two 3145728 0).issues 0 1 ∧ flag (((two 3145728 0).dev.cur 0).getCr 0x01) 0 = false ∧
    ((two 3145728 0).dev.sreg 0 1).toNat = (two 3145728 0).dev.loftLimit 0 .primary ∧
    ((two 3145727 0).dev.sreg 0 1).toNat < (two 3145727 0).dev.loftLimit 0 .primary ∧ 3145727 % 8 ≠ 0 ∧
    3145727 % 4 ≠ 0 ∧ 3145727 % 2 ≠ 0 := by
  unfold State.issues; decide

theorem witness_ControlSpace : (two 5 0).issues 0 1 ∧ ((two 5 0).dev.cur 0).vq = [] ∧
    crReserved 0 = false ∧ crReserved 0x5F = true ∧ crReserved 0x1F = true ∧ crReserved 0x06 = false ∧ crReadOnly 0x06 = false ∧
    crReadOnly 0 = true ∧ (Imm.short 127).zext.toNat = 127 ∧ crReserved 127 = true ∧ (Imm.long 128).zext.toNat = 128 ∧
    flag (((two 5 0).dev.cur 0).getCr 0x01) 0 = false := by
  unfold State.issues; decide

/-- SCH_CFG 3 without credits and SCH_CFG 2 with three; mailbox 4 of the slot has a slot that is not FREE. -/
theorem witness_ControlSpace_channels :
    (let s := cr 0x23 0x0000_0405 (cr 0x22 0x8003_0405 (two 383 384))
     s.issues 0 1 ∧ field ((s.dev.cur 0).getCr 0x23) 16 7 = 0 ∧ field (s.dev.sreg 0 1) 0 9 = 383 ∧
       field (s.dev.sreg 0 2) 0 9 = 384 ∧ field ((s.dev.cur 0).getCr 0x22) 16 7 ≠ 0 ∧
       flag ((s.dev.cur 0).getCr 0x01) 0 = false) ∧
    (let s := (two 0x10 0x81).onDev fun d => d.modMbx 0 4 fun m => { m with free := 63, granted := 1 }
     s.issues 0 1 ∧ (∀ m : Fin 8, s.dev.mbxOwner 0 m = s.dev.slotOf 0) ∧ (s.dev.mbx 0 4).notice ≠ flag (s.dev.sreg 0 1) 4 ∧
       (s.dev.mbx 0 4).free ≠ 64 ∧
       ∀ m : Fin 8, (s.dev.mbx 0 m).notice ≠ flag (s.dev.sreg 0 2) m → (s.dev.mbx 0 m).free = 64) := by
  unfold State.issues; decide

theorem witness_FrameWait : (two 8 0).issues 0 1 ∧ ((two 8 0).dev.sreg 0 1).toNat % 2 ^ 48 ≤ (inFrame 8 (two 8 0)).dev.now.toNat ∧
    (inFrame 7 (two 8 0)).issues 0 1 ∧ (inFrame 7 (two 8 0)).dev.now.toNat < ((two 8 0).dev.sreg 0 1).toNat % 2 ^ 48 ∧
    (let s := held (.fwait 8) (inFrame 7 (two 8 0))
     (s.dev.stall 0).active = true ∧ (s.dev.cur 0).hold = some (.fwait 8) ∧ s.dev.now.toNat < (8 : Frame).toNat) ∧
    (let s := held (.fwait 8) (inFrame 8 (two 8 0))
     (s.dev.stall 0).active = true ∧ (s.dev.cur 0).hold = some (.fwait 8) ∧ (8 : Frame).toNat ≤ s.dev.now.toNat ∧
       s.dev.inBoundary = false) := by
  unfold State.issues; decide

/-- A command waits in the manger queue of the slot. -/
def mangerBusy (s : State) : State :=
  s.onDev fun d => d.modCtx 0 .primary fun c =>
    { c with mq := [{ op := 0, sel := 0, desc := Vector.replicate 8 0, modeF := false, d := 0, ledger := 0 }] }

theorem witness_FrameAndContext : (two 5 0).issues 0 1 ∧ fenceOpen ((two 5 0).dev.cur 0) = true ∧
    (mangerBusy (two 5 0)).issues 0 1 ∧ fenceOpen ((mangerBusy (two 5 0)).dev.cur 0) = false := by
  unfold State.issues; decide

/-- The word at 0x100 fails its parity. -/
def badWord (s : State) : State := s.onDev fun d => { d with tackBad := [0x100] }

theorem witness_Exceptions : (two 5 0).issues 0 1 ∧ (two 5 0).issues 0 2 ∧ flag (((two 5 0).dev.cur 0).getCr 0x01) 0 = false ∧
    (badWord (two 5 0)).dev.ready 0 = true ∧ (badWord (two 5 0)).dev.tackFault 0 1 = some 0x100 ∧
    flag (((badWord (two 5 0)).dev.cur 0).getCr 0x01) 0 = false := by
  unfold State.issues; decide

/-- The word 0x00000000 stands at 0x100 of stall 0's tack store: not an instruction (R98). -/
theorem witness_Exceptions_illegal :
    let s := (two 5 0).onDev fun d => { d with tack := [(0x100, 0), (0x101, 0), (0x102, 0), (0x103, 0)] }
    s.issues 0 1 ∧ s.dev.tackWord 0 0x100 = 0 ∧ ∀ w, (Coeri.decode 0 0 0 w).isNone = true := by
  unfold State.issues; exact ⟨by decide, by decide, fun w => by rfl⟩

theorem witness_DoubleException : flag (((cr 1 1 (two 5 0)).dev.cur 0).getCr 0x01) 0 = true ∧
    (cr 1 1 (two 5 0)).issues 0 1 ∧ (cr 1 1 (two 5 0)).issues 0 2 := by
  unfold State.issues; decide

/-! ### Messages -/

/-- Channels 0 to 3 of the slot: three credits of mailbox 2 of stall 5; one of the stall's own mailbox 7; no credit;
closed. -/
def chans (s : State) : State :=
  cr 0x20 0x8003_0405 (cr 0x21 0x8001_0E00 (cr 0x22 0x8000_0405 (cr 0x23 0x0003_0405 s)))

/-- The mailboxes that the channels name have granted what those hold. -/
def grants (s : State) : State :=
  (s.onDev fun d => d.modMbx 5 2 fun m => { m with free := 60, granted := 3, inflight := 1 }).onDev fun d =>
    d.modMbx 0 7 fun m => { m with free := 61, granted := 1 }

def letter : Message := ⟨List.replicate 64 7, false, 78, 0, .primary, 1, false⟩

/-- Mailbox k of stall 0 holds two messages. -/
def post (k : Fin 8) (s : State) : State :=
  s.onDev fun d => d.modMbx 0 k fun m => { m with free := 62, granted := 0, msgs := [letter, letter] }

theorem witness_SendMessage :
    (let s := grants (chans (two 3145664 0))
     s.issues 0 1 ∧ (s.dev.sreg 0 1).toNat % 64 = 0 ∧ (s.dev.sreg 0 1).toNat + 64 = s.dev.loftLimit 0 .primary ∧
       chanEn (s.dev.chan 0 .primary 0) = true ∧ chanCred (s.dev.chan 0 .primary 0) = 3 ∧
       chanEn (s.dev.chan 0 .primary 2) = true ∧ chanCred (s.dev.chan 0 .primary 2) = 0 ∧
       chanEn (s.dev.chan 0 .primary 3) = false ∧ flag ((s.dev.cur 0).getCr 0x01) 0 = false ∧
       s.dev.bad = [] ∧ s.dev.ce = []) ∧
    (let s := held (.send 1 2) (grants (chans (two 64 0)))
     (s.dev.stall 0).active = true ∧ (s.dev.cur 0).hold = some (.send 1 2) ∧ chanCred (s.dev.chan 0 .primary 0) ≠ 0) := by
  unfold State.issues; decide

theorem witness_ReceiveMessage :
    (let s := post 2 (two 64 2)
     s.issues 0 1 ∧ 64 % 64 = 0 ∧ 64 + 64 ≤ s.dev.loftLimit 0 .primary ∧ s.dev.bad = [] ∧ s.dev.ce = [] ∧
       s.dev.tally.armed = false ∧ (s.dev.mbx 0 2).msgs = letter :: [letter] ∧ letter.bad = false ∧ letter.notice = false ∧
       letter.data.length = 64 ∧ field (s.dev.sreg 0 2) 0 3 = (2 : Fin 8).val ∧ ∀ k, s.dev.mbxOwner 0 k = .primary) ∧
    (let s := post 7 (two 64 0x84)
     flag ((s.dev.sreg 0 2).setWidth 8) (7 : Fin 8) = true ∧
       ∀ k : Fin 8, k < 7 → flag ((s.dev.sreg 0 2).setWidth 8) k = true → (s.dev.mbx 0 k).msgs = []) ∧
    (let s := held (.recv 2 1 0x84) (post 7 (two 64 0x84))
     (s.dev.stall 0).active = true ∧ (s.dev.cur 0).hold = some (.recv 2 1 ((s.dev.sreg 0 2).setWidth 8))) ∧
    (let s := two 64 0x84
     s.issues 0 1 ∧ ∀ k : Fin 8, s.dev.mbxOwner 0 k = .primary ∧ (s.dev.mbx 0 k).msgs = []) ∧
    (let s := two 64 2
     field (s.dev.sreg 0 2) 0 3 = (2 : Fin 8).val ∧ (s.dev.mbx 0 2).msgs = []) ∧
    (let s := held (.recv 2 1 0x84) (two 64 0x84)
     (s.dev.stall 0).active = true ∧ (s.dev.cur 0).hold = some (.recv 2 1 ((s.dev.sreg 0 2).setWidth 8)) ∧
       ∀ k : Fin 8, (s.dev.mbx 0 k).msgs = []) ∧
    (let s := (post 2 (two 64 2)).onDev fun d => d.modMbx 0 2 fun m => { m with msgs := [{ letter with notice := true }] }
     (s.dev.mbx 0 2).msgs = { letter with notice := true } :: []) := by
  unfold State.issues; decide

/-- A credit of the given kind under way to channel c of the running slot. -/
def credit (k : CreditKind) (c : BitVec 4) : CreditTransit := ⟨k, 5, 2, 0, .primary, c, 2, false⟩

/-- A letter and credits of every kind are under way. -/
def underWay (s : State) : State := s.onDev fun d =>
  { d with msgs := [⟨5, 2, letter⟩], credits := [credit .grant 0, credit .ret 0, credit .grant 3, credit .ret 3, credit .close 0] }

theorem witness_CreditsAndArrivals :
    (let s := grants (two 0x4007 0x017F)
     let m := s.dev.mbx 0 7
     s.issues 0 1 ∧ field (s.dev.sreg 0 1) 8 7 = 64 ∧ field (s.dev.sreg 0 2) 0 9 = 383 ∧ m.notice = false ∧
       s.dev.mbxOwner 0 7 = .primary ∧ m.free < 64 ∧ 64 ≤ (s.dev.mbx 0 0).free ∧ flag ((s.dev.cur 0).getCr 0x01) 0 = false ∧
       field (s.dev.sreg 0 0) 8 7 = 0) ∧
    (let s := underWay (chans (two 0 1))
     chanCred (s.dev.chan 0 .primary 0) ≠ 0 ∧ chanCred (s.dev.chan 0 .primary 2) = 0 ∧
     s.dev.msgs.find? (fun t => t.dst = 5 && t.mbx = 2 && t.msg.src = BitVec.ofNat 9 (0 : StallId)) = some ⟨5, 2, letter⟩ ∧
     (∀ i : Fin 5, (s.dev.credits[i.val]?).isSome = true) ∧
     (let r := s.dev.chan 0 .primary 0
      chanEn r = true ∧ chanDest r = (5 : StallId) ∧ chanMbx r = (2 : Fin 8)) ∧ chanEn (s.dev.chan 0 .primary 3) = false) := by
  unfold State.issues; decide

theorem witness_MailboxCountsKept :
    let s := grants (chans (two 64 0))
    let r := s.dev.chan 0 .primary 0
    1 ≤ (s.dev.mbx (chanDest r) (chanMbx r)).granted ∧ 1 ≤ (s.dev.mbx 5 2).inflight ∧
      (credit .ret 0).count ≤ (s.dev.mbx 5 2).granted ∧ ((held (.send 1 2) s).dev.cur 0).hold = some (.send 1 2) ∧
      ((held (.send 1 2) s).dev.sreg 0 2).setWidth 4 = (0 : BitVec 4) := by
  decide

/-! ### Vector instructions -/

/-- The numbers 0 to 7 as elements of w bits. -/
def ramp (w : Nat) : BitVec 4096 := (List.range 8).foldl (fun x i => x ||| BitVec.ofNat 4096 (i * 2 ^ (w * i))) 0

/-- LEN, BASE, STRIDE and VSCALAR of the slot; k1 selects elements 0, 2 and 3; v5 and v6 hold the indexes 0, 1, 2, … of
32 and of 64 bits. -/
def vec (n base stride scalar : W64) : State :=
  (runs fun c => { ((((c.setCr 0x10 n).setCr 0x11 base).setCr 0x12 stride).setCr 0x13 scalar) with k := c.k.set 1 13 }).onDev
    fun d => d.modStall 0 fun x => { x with v := (x.v.set 5 (ramp 32)).set 6 (ramp 64) }

/-- The vector format. -/
def vf (k : KReg) (t : BitVec 3) (vd va vb : VReg) : VFormat := ⟨k, t, vd, va, vb⟩

/-- An element that is active lies below n. -/
theorem active_lt {d : Device} {st : StallId} {e : VecEntry} {i : Nat} (h : d.activeAt st e i = true) : i < e.n := by
  simp [Device.activeAt] at h; exact h.1.2

/-- What holds of every element below n that is active holds of every active element. -/
theorem all_active {d : Device} {st : StallId} {e : VecEntry} {P : Nat → Prop}
    (h : ∀ i, i < e.n → d.activeAt st e i = true → P i) (i : Nat) (hi : d.activeAt st e i = true) : P i := h i (active_lt hi) hi

theorem witness_VectorInteger : ∀ t : BitVec 3, Vec.isFloat t.toNat = false → ∀ op : Fin 15,
    (vec 7 0 0 2).vectorReady 0 ((vec 7 0 0 2).dev.capture 0 (.int op) (vf 1 t 3 1 2)) := by
  unfold State.vectorReady State.issues; decide

theorem witness_VectorFloat : ∀ t ∈ [4, 5, 6, 7], ∀ op ∈ [0, 1, 2, 3, 4, 5, 7, 8],
    (vec 7 0 0 2).vectorReady 0 ((vec 7 0 0 2).dev.capture 0 (.fp op) (vf 1 t 3 1 2)) := by
  unfold State.vectorReady State.issues; decide

theorem witness_VectorFloat_unary : ∀ t ∈ [4, 5, 6, 7], ∀ op ∈ [6, 9, 10],
    (vec 7 0 0 2).vectorReady 0 ((vec 7 0 0 2).dev.capture 0 (.fp op) (vf 1 t 3 1 0)) := by
  unfold State.vectorReady State.issues; decide

theorem witness_VectorMasks :
    (∀ op : Fin 6, (vec 7 0 0 2).vectorReady 0 ((vec 7 0 0 2).dev.capture 0 (.int (15 + op)) (vf 1 0 0 1 2))) ∧
    (∀ op : Fin 4, (vec 7 0 0 2).vectorReady 0 ((vec 7 0 0 2).dev.capture 0 (.fp (11 + op)) (vf 1 4 0 1 2))) ∧
    (1 : KReg) ≠ 0 := by
  unfold State.vectorReady State.issues; decide

theorem witness_VectorMasks_none : (vf 0 0 0 1 2).k = 0 ∧ (vec 7 0 0 2).issues 0 1 ∧
    flag (((vec 7 0 0 2).dev.cur 0).getCr 0x01) 0 = false := by
  unfold State.issues; decide

theorem witness_VectorMasks_combine : ∀ op : Fin 4,
    (vec 7 0 0 2).vectorReady 0 ((vec 7 0 0 2).dev.capture 0 (.mask op 1 2) (vf 7 0 0 0 0)) := by
  unfold State.vectorReady State.issues; decide

theorem witness_VectorMasks_discard : ∀ op : Fin 4,
    (vec 7 0 0 2).vectorReady 0 ((vec 7 0 0 2).dev.capture 0 (.mask op 1 2) (vf 0 0 0 0 0)) := by
  unfold State.vectorReady State.issues; decide

theorem witness_VectorConvertPermute :
    ∀ p ∈ [(VecKind.cvt 0, vf 1 7 3 1 0), (.cvt 7, vf 1 2 3 1 0), (.cvt 8, vf 1 4 3 1 0), (.cvt 9, vf 1 5 3 1 0), (.cvt 10, vf 1 4 3 1 0),
      (.cvt 11, vf 1 5 3 1 0), (.cvt 12, vf 1 2 3 0 0), (.cvt 13, vf 1 2 3 1 0), (.cvt 14, vf 1 2 3 1 0), (.cvt 15, vf 1 2 3 1 2),
      (.cvt 12, vf 1 4 3 0 0), (.cvt 15, vf 1 7 3 1 2), (.move 2, vf 1 2 3 0 0)], (vec 7 0 0 2).vectorReady 0 ((vec 7 0 0 2).dev.capture 0 p.1 p.2) := by
  unfold State.vectorReady State.issues; decide

theorem witness_VectorReduce :
    ∀ p ∈ [(VecKind.red 0, vf 1 2 3 1 0), (.red 1, vf 1 2 3 1 0), (.red 2, vf 1 2 3 1 0), (.red 3, vf 1 2 3 1 2), (.red 4, vf 1 2 3 1 2),
      (.red 5, vf 1 2 3 1 2), (.pack 0, vf 1 2 3 1 0), (.pack 1, vf 1 2 3 1 0), (.move 1, vf 1 2 3 0 0), (.move 0, vf 1 2 0 1 0),
      (.move 3, vf 1 2 0 0 0), (.move 4, vf 1 2 0 0 0)],
    (vec 1 0 0 2).vectorReady 0 ((vec 1 0 0 2).dev.capture 0 p.1 p.2) ∧ ((vec 1 0 0 2).dev.capture 0 p.1 p.2).n = 1 := by
  unfold State.vectorReady State.issues; decide

theorem witness_VectorReduce_none :
    ∀ p ∈ [(VecKind.red 0, vf 1 2 3 1 0), (.red 3, vf 1 2 3 1 2), (.pack 0, vf 1 2 3 1 0), (.move 0, vf 1 2 0 1 0)],
    (vec 0 0 0 2).vectorReady 0 ((vec 0 0 0 2).dev.capture 0 p.1 p.2) ∧ ((vec 0 0 0 2).dev.capture 0 p.1 p.2).n = 0 := by
  unfold State.vectorReady State.issues; decide

/-- Eight elements of 32 bits from 0x100, and the last eight of the partition. -/
theorem witness_VectorLoftLoads :
    ∀ p ∈ [(VecKind.mem 0, vf 1 2 3 0 0), (.mem 1, vf 1 2 3 0 0), (.gather 0, vf 1 2 3 0 5), (.gather 1, vf 1 3 3 0 6),
      (.first 0, vf 1 2 3 0 0), (.first 1, vf 1 2 3 0 5), (.first 2, vf 1 3 3 0 6)],
    ∀ s ∈ [vec 8 0x100 8 2, vec 4 3145696 8 2],
      let e := s.dev.capture 0 p.1 p.2
      s.vectorReady 0 e ∧ e.n ≠ 0 ∧ s.dev.bad = [] ∧ ∀ i, i < e.n → s.dev.activeAt 0 e i = true →
        s.dev.staticFault 0 e (s.dev.elemAddr 0 e i) = none := by
  unfold State.vectorReady State.issues; decide

theorem witness_VectorLoftStores :
    ∀ p ∈ [(VecKind.mem 2, vf 1 2 3 0 0), (.mem 3, vf 1 2 3 0 0), (.gather 2, vf 1 2 3 0 5), (.gather 3, vf 1 3 3 0 6),
      (.hist, vf 1 2 0 1 5)],
    ∀ s ∈ [vec 8 0x100 8 2, vec 4 3145696 8 2],
      let e := s.dev.capture 0 p.1 p.2
      s.vectorReady 0 e ∧ e.n ≠ 0 ∧ s.dev.bad = [] ∧ s.dev.tally.armed = false ∧
        (∀ i, i < e.n → s.dev.activeAt 0 e i = true → s.dev.staticFault 0 e (s.dev.elemAddr 0 e i) = none) ∧
        ∀ i : Fin 8, ∀ j : Fin 8, i ≠ j → s.dev.elemAddr 0 e j ≠ s.dev.elemAddr 0 e i := by
  unfold State.vectorReady State.issues; decide

/-- VHADD with every index 0: its active elements all name one address. -/
theorem witness_VectorLoftStores_repeated :
    let s := vec 8 0x100 8 2
    let e := s.dev.capture 0 .hist (vf 1 2 0 1 0)
    s.vectorReady 0 e ∧ e.n = 8 ∧ s.dev.activeAt 0 e 0 = true ∧ s.dev.activeAt 0 e 3 = true ∧ s.dev.bad = [] ∧
      s.dev.tally.armed = false ∧
      ∀ i, i < 8 → s.dev.elemAddr 0 e i = 0x100 ∧ s.dev.staticFault 0 e (s.dev.elemAddr 0 e i) = none := by
  unfold State.vectorReady State.issues; decide

/-- With LEN 0 no element takes part. -/
theorem witness_VectorLoftNone :
    ∀ p ∈ [(VecKind.mem 0, vf 1 2 3 0 0), (.gather 1, vf 1 3 3 0 6), (.first 2, vf 1 3 3 0 6), (.mem 3, vf 1 2 3 0 0), (.hist, vf 1 2 0 1 5),
      (.mem 16, vf 1 2 3 0 0)],
      let s := vec 0 0x100 8 2
      let e := s.dev.capture 0 p.1 p.2
      s.vectorReady 0 e ∧ e.n = 0 := by
  unfold State.vectorReady State.issues; decide

/-- The entry of an LP6 form waits and holds the groom. -/
def queued (e : VecEntry) (s : State) : State :=
  s.onDev fun d => d.modCtx 0 .primary fun c => { c with vq := [e], hold := some .vector }

theorem witness_VectorLp6 :
    ∀ p ∈ [(VecKind.mem 16, vf 1 2 3 0 0), (.mem 17, vf 1 2 3 0 0), (.mem 18, vf 1 2 3 0 0), (.mem 19, vf 1 2 3 0 0),
      (.gather 16, vf 1 2 3 0 5), (.gather 17, vf 1 3 3 0 6), (.gather 18, vf 1 2 3 0 5), (.gather 19, vf 1 3 3 0 6),
      (.first 16, vf 1 2 3 0 0), (.first 17, vf 1 2 3 0 5), (.first 18, vf 1 3 3 0 6)],
    let s := lp6 (vec 4 0x3FFF_FFE0 8 2)
    let e := s.dev.capture 0 p.1 p.2
    let t := queued e s
    s.vectorReady 0 e ∧ (t.dev.stall 0).active = true ∧ (t.dev.stall 0).gate = .awake ∧ (t.dev.stall 0).vBad = [] ∧
      (t.dev.cur 0).vq = [e] ∧ e.lp6 = true ∧ e.n ≠ 0 ∧ t.dev.boot.memCapacity ≤ loftBase ∧ t.dev.bad = [] ∧
      (∀ c : Chan, t.dev.mc[c].state = .inService) ∧ t.dev.tally.armed = false ∧
      ∀ i, i < e.n → t.dev.activeAt 0 e i = true → t.dev.staticFault 0 e (t.dev.elemAddr 0 e i) = none := by
  unfold State.vectorReady State.issues; decide

theorem witness_VectorControl :
    let gated := fun (g : GateState) => (vec 4 0 0 2).onDev fun d => d.modStall 0 fun x => { x with gate := g }
    (vec 4 0 0 2).vectorReady 0 ((vec 4 0 0 2).dev.capture 0 .setvl (vf 0 7 0 0 0)) ∧
    (gated .gated).issues 0 1 ∧ (vec 4 0 0 2).issues 0 1 ∧
    (let s := cr 0x17 0x64 (vec 4 0 0 2)
     (s.dev.stall 0).gate = .awake ∧ (s.dev.stall 0).primary.vq = [] ∧ (s.dev.stall 0).paddock.vq = [] ∧
       field ((s.dev.cur 0).getCr 0x17) 0 16 ≠ 0) ∧
    ((gated .waking).dev.stall 0).gate = .waking ∧ ((gated .waking).dev.cur 0).vq = [] := by
  unfold State.vectorReady State.issues; decide

/-- The eighth element of 32 bits lies at LOFT_LIMIT; with all elements active, f = 7. -/
theorem witness_VectorElementFault :
    let s := vec 8 3145700 0 2
    ∀ p ∈ [(VecKind.mem 0, vf 0 2 3 0 0), (.first 0, vf 0 2 3 0 0)],
      let e := s.dev.capture 0 p.1 p.2
      s.vectorReady 0 e ∧ s.dev.activeAt 0 e 7 = true ∧ s.dev.loftLimit 0 .primary = s.dev.elemAddr 0 e 7 ∧ s.dev.bad = [] ∧
        flag ((s.dev.cur 0).getCr 0x01) 0 = false ∧
        ∀ i, i < 7 → s.dev.activeAt 0 e i = true → s.dev.staticFault 0 e (s.dev.elemAddr 0 e i) = none := by
  unfold State.vectorReady State.issues; decide

/-! ### Mangers -/

/-- Descriptors of MLOAD, MFEED and MDRAIN of a format, at regions 0x1000 and 0x2000. -/
def loadWords (f : Nat) : List Nat := [5 * 2 ^ 56 + f * 2 ^ 4, 0x1000 + 32 * 2 ^ 32]
def feedWords (f : Nat) : List Nat := [6 * 2 ^ 56 + 2 * 2 ^ 48 + 1 * 2 ^ 41 + f * 2 ^ 4, 0x1000 + 32 * 2 ^ 32]
def drainWords : List Nat := [7 * 2 ^ 56 + 4 * 2 ^ 48 + 8 * 2 ^ 41 + 4 * 2 ^ 28 + 56, 0, 0, 0, 0x2000]

/-- The slot with a descriptor at 0x400, which s1 names. -/
def named (l : List Nat) : State := words 0x400 (l ++ List.replicate (8 - l.length) 0) (two 0x400 0)

/-- The manger queue of the slot holds l. -/
def mangerQueue (l : List MCmd) (s : State) : State := s.onDev fun d => d.modCtx 0 .primary fun c => { c with mq := l }

/-- A command for manger 1. -/
def mcmd (op : Nat) (l : List Nat) : MCmd := ⟨op, 2, descr l, false, 0, 0⟩

theorem witness_MangerInstructions :
    (let s := named (loadWords 4)
     s.issues 0 1 ∧ ((s.dev.cur 0).mq.length < 8) ∧ s.namesDescr 0 1 ∧ reservedClear (s.descr 0 1) mloadFields = true ∧
       s.regionsFit 0 (mloadRegions (s.descr 0 1) 4) ∧ flag ((s.dev.cur 0).getCr 0x01) 0 = false) ∧
    (let s := named (feedWords 4)
     s.namesDescr 0 1 ∧ reservedClear (s.descr 0 1) mfeedFields = true ∧ s.regionsFit 0 (mfeedRegions (s.descr 0 1)) ∧
       pieceFeed (s.descr 0 1) = false ∧ 0 < dfield (s.descr 0 1) 0 48 8 ∧ dfield (s.descr 0 1) 0 41 7 = 1 ∧
       accShare (s.dev.paddockEn 0) .primary = (0, 128)) ∧
    (let s := named drainWords
     s.namesDescr 0 1 ∧ reservedClear (s.descr 0 1) mdrainFields = true ∧ widening (s.descr 0 1) = false ∧
       s.regionsFit 0 (drainReads (s.descr 0 1) 4 ++ drainWrites (s.descr 0 1) 4)) ∧
    (let s := mangerQueue (List.replicate 8 (mcmd 0 (loadWords 4))) (two 0x400 0)
     s.issues 0 1 ∧ 8 ≤ (s.dev.cur 0).mq.length) ∧
    selected 8 = [(3 : Fin 4)] ∧ ((two 0x400 0).dev.cur 0).rings[(3 : Fin 4)] = [] ∧
    (let s := (two 0x400 0).onDev fun d => d.modCtx 0 .primary fun c => { c with rings := c.rings.set 0 [5, 7] }
     s.issues 0 1 ∧ selected 1 = [(0 : Fin 4)] ∧ (s.dev.cur 0).rings[(0 : Fin 4)] = 5 :: [7]) ∧
    (let s := two 3145664 0
     s.issues 0 1 ∧ (s.dev.sreg 0 1).toNat % 64 = 0 ∧ (s.dev.sreg 0 1).toNat + 64 = s.dev.loftLimit 0 .primary) := by
  unfold State.namesDescr State.regionsFit State.issues State.descr; decide

/-- The half that the commands name is loaded with format f; l waits, r runs. -/
def mangers (f : BitVec 4) (l : List MCmd) (r : List MRun) : State :=
  (two 0 0).onDev fun d => d.modCtx 0 .primary fun c =>
    { c with mq := l, mrun := r, half := Vector.replicate 4 (Vector.replicate 2 ⟨true, false, f⟩) }

theorem witness_MangerEvents :
    (∀ l ∈ [loadWords 4, feedWords 4, drainWords, loadWords 15], selected (mcmd 0 l).sel = [(1 : Fin 4)]) ∧
    (let c := mcmd 0 (loadWords 4)
     let s := mangers 4 [c] []
     (s.dev.ctx 0 .primary).mq.head? = some c ∧ s.dev.mayStart 0 .primary = true ∧ s.dev.mloadMayStart 0 .primary c = true ∧
       (s.dev.stall 0).slot = .primary ∧ (s.dev.stall 0).switching = none ∧ Tile.ok (fmtOf c.desc) = true ∧
       Tile.block (fmtOf c.desc) = false ∧ dfield c.desc 0 3 1 = 0 ∧ s.dev.bad = [] ∧ s.dev.ce = []) ∧
    (let c := mcmd 1 (feedWords 4)
     let s := mangers 4 [c] []
     (s.dev.ctx 0 .primary).mrun = [] ∧ (∀ e ∈ c.entries, e < 128) ∧ s.dev.feedEndsAtOnce 0 .primary c = none ∧
       s.dev.feedMayStart 0 .primary c = true ∧ s.dev.mayStart 0 .primary = true) ∧
    (∀ f ∈ [0, 4], let r := { freshRun (mcmd 1 (feedWords f)) with inPass := true }
     ((mangers 4 [] [r]).dev.ctx 0 .primary).mrun = [r] ∧ r.mgr[(1 : Fin 4)].code = 0 ∧ r.mgr[(1 : Fin 4)].poisoned = false ∧
       r.mgr[(1 : Fin 4)].ovf < 2 ^ 14 ∧ r.mgr[(1 : Fin 4)].unf < 2 ^ 14 ∧ (∀ h : Fin 4, h ≠ 1 → r.mgr[h].busy = false) ∧
       (∀ e ∈ (mcmd 1 (feedWords f)).entries, flag (((mangers 4 [] [r]).dev.stall 0).mgr[(1 : Fin 4)]).poison e = false) ∧
       if f = 4 then r.total ≤ r.passes + 1 else r.passes + 1 < r.total) ∧
    (let c := mcmd 1 (feedWords 15)
     Tile.ok (fmtOf c.desc) = false ∧ (mangers 4 [c] []).dev.mayStart 0 .primary = true) ∧
    (let s := mangerQueue [mcmd 1 (feedWords 4)] (two 0 0)
     (s.dev.halfMeta 0 .primary (mcmd 1 (feedWords 4)) 1).loaded = false ∧ (s.dev.ctx 0 .primary).mrun = []) ∧
    (let c := mcmd 2 drainWords
     let s := mangers 4 [c] []
     s.dev.mayStart 0 .primary = true ∧ s.dev.drainMayStart 0 .primary c = true ∧ s.dev.drainRefused 0 c = false ∧
       s.dev.drainRefused 0 (mcmd 2 [7 * 2 ^ 56 + 15 * 2 ^ 28]) = true ∧
       let r := freshRun c
       r.mgr[(1 : Fin 4)].busy = true ∧ dfield c.desc 0 7 1 = 0 ∧ r.mgr[(1 : Fin 4)].sat < 2 ^ 14 ∧ r.mgr[(1 : Fin 4)].esc < 2 ^ 14 ∧
         (∀ w ∈ [none, some Slot.paddock], let t := (mangers 4 [] [r]).onDev fun d => d.modStall 0 fun x => { x with switching := w }
           (t.dev.ctx 0 .primary).mrun = [r] ∧ (t.dev.stall 0).switching = w)) ∧
    (∀ n ∈ [8, 5], ((mangers 4 [] []).onDev fun d => { d with yards := d.yards.set 0 { d.yards[0] with dutyNext := n } }).dev.yards[(0 : Yard)].dutyNext = n ∧
      (mangers 4 [] []).dev.yards[(0 : Yard)].duty = 8) ∧
    (let c : MCmd := ⟨4, 0, descr [], false, 2, 3145664⟩
     let s := held (.fmtsel 2) (mangerQueue [c] (two 0 0))
     (s.dev.ctx 0 .primary).mq.head? = some c ∧ s.dev.mayStart 0 .primary = true ∧ (s.dev.ctx 0 .primary).mrun = [] ∧
       c.ledger % 64 = 0 ∧ s.dev.bad = [] ∧ s.dev.tally.armed = false ∧ (s.dev.ctx 0 .primary).hold = some (.fmtsel 2)) := by
  decide

/-! ### The barrow and the stash -/

/-- A descriptor of a linear move of n bytes, and of a stash operation. -/
def moveWords (n : Nat) : List Nat := [9 * 2 ^ 56 + 3 * 2 ^ 8, 0x1000 + n * 2 ^ 32, 0x20000]
def stashWords (op e tag n a elig : Nat) : List Nat :=
  [9 * 2 ^ 56 + op * 2 ^ 52 + elig * 2 ^ 48 + 3 * 2 ^ 8 + 8, a + n * 2 ^ 32, tag + e * 2 ^ 32]

/-- A control block of four entries, two loft slots and one LP6 slot at 0x2000; the stash that it opens; and the same with
entries put into it. -/
def closed : State :=
  withDescr (stashWords 0 0 0 0 0x2000 0) (words 0x2000 [0x8000 + 4 * 2 ^ 32, 4096 + 2 * 2 ^ 32, 0x10000, 0x100000, 1 + 7 * 2 ^ 32, 0, 0, 0]
    (noticing (two 0x400 0)))
def opened : State := nx (execStashOpen 0 true mf closed)
def put (i tag n elig : Nat) (s : State) : State := nx (execStashPut 0 true mf (withDescr (stashWords 1 i tag n 0x3000 elig) s))
def three (elig : Nat) : State := put 2 0x13 64 elig (put 1 0x12 4096 elig (put 0 0x11 100 elig opened))

theorem witness_BarrowInstructions_moves :
    let s := withDescr (moveWords 256) (noticing (two 0x400 0))
    let x := s.descr 0 1
    s.issues 0 1 ∧ mf.sel = 0 ∧ mf.b = 0 ∧ mf.d = 0 ∧ s.namesDescr 0 1 ∧
      ((s.dev.stall 0).barrow.countP fun j => j.slot = .primary) < 16 ∧ Device.noticeMbx x = 3 ∧ s.takesNotices 0 3 1 ∧
      dfield x 0 0 4 ≠ 8 ∧ barrowLegal x = true ∧
      s.regionsFit 0 [⟨dfield x 1 0 32, ((if dfield x 0 0 4 = 1 then dfield x 3 0 32 else 1) - 1) * dfield x 3 32 32 +
        dfield x 1 32 32, 64⟩] := by
  unfold State.namesDescr State.regionsFit State.issues State.takesNotices State.descr; decide

theorem witness_BarrowInstructions_open :
    let x := closed.descr 0 1
    let b := Stash.ofBlock (closed.dev.rdBytes (closed.dev.slotAt 0 .primary (dfield x 1 0 32)) 64)
    closed.issues 0 1 ∧ closed.namesDescr 0 1 ∧ closed.takesNotices 0 3 1 ∧ dfield x 0 0 4 = 8 ∧ stashLegal x none = true ∧
      (closed.dev.cur 0).stash = none ∧ closed.dev.bad = [] ∧ closed.dev.ce = [] ∧
      closed.regionsFit 0 [⟨dfield x 1 0 32, 64, 1⟩, ⟨b.dirBase, 16 * b.entries.length, 16⟩, ⟨b.loftBase, b.loftSlots * b.slotBytes, 4096⟩] ∧
      b.entries.length = 4 ∧ 0 < b.slotBytes ∧ b.slotBytes % 4096 = 0 ∧ b.slotBytes ≤ 1048576 ∧ b.loftSlots ≤ 4095 ∧ b.lp6Base % 4096 = 0 := by
  unfold State.namesDescr State.regionsFit State.issues State.takesNotices State.descr; decide

/-- PUT with a place free and with none; GET of an entry, with another tag, and of a dropped one; FREE; CLOSE. -/
theorem witness_BarrowInstructions_stash :
    ∀ p ∈ [(stashWords 1 3 0x14 64 0x3000 0, put 0 0x11 100 0 opened), (stashWords 1 3 0x14 64 0x3000 0, three 0),
        (stashWords 2 1 0x12 100 0x3000 0, three 0), (stashWords 2 1 0x11 100 0x3000 0, three 0),
        (stashWords 2 0 0x11 100 0x3000 0, put 3 0x14 64 1 (three 1)), (stashWords 3 1 0 0 0 0, three 0),
        (stashWords 4 0 0 0 0x2000 0, three 0)],
      let s := withDescr p.1 p.2
      let x := s.descr 0 1
      s.issues 0 1 ∧ s.namesDescr 0 1 ∧ s.takesNotices 0 3 1 ∧ dfield x 0 0 4 = 8 ∧ stashLegal x (s.dev.cur 0).stash = true ∧
        ((s.dev.stall 0).barrow.countP fun j => j.slot = .primary) < 16 ∧ flag ((s.dev.cur 0).getCr 0x01) 0 = false := by
  unfold State.namesDescr State.issues State.takesNotices State.descr; decide

theorem witness_BarrowInstructions_entries :
    (((put 0 0x11 100 0 opened).dev.cur 0).stash.any fun c => c.takePlace.isSome) = true ∧
    (((three 0).dev.cur 0).stash.any fun c => c.takePlace.isNone) = true ∧
    (let e := fun (s : State) (i : Nat) => ((s.dev.cur 0).stash.map fun c => ((c.entry i).state, (c.entry i).tag))
     e (three 0) 1 = some (1, 0x12) ∧ e (put 3 0x14 64 1 (three 1)) 0 = some (3, 0x11)) := by
  decide

/-- A job of the primary slot with descriptor l. -/
def job (l : List Nat) : BarrowJob :=
  { slot := .primary, put := false, desc := descr l, stash := false, moves := [], stashCode := 0, close := none, accepted := false
    booked := false, accept := 0, promise := 0, yard := 0, rem := [], late := none, firmware := false }

/-- It waits in the barrow of stall 0, whose guaranteed service on yard 0 is y0 bursts; LP6 memory is in service. -/
def waiting (j : BarrowJob) (y0 : Nat) : State :=
  lp6 ((noticing (two 0x400 0)).onDev fun d => (d.setPreg (Page.shedOf 0) (Device.shedOff 0 0x100) (BitVec.ofNat 32 y0)).modStall 0
    fun x => { x with barrow := [j] })

theorem witness_BarrowEvents_accept :
    let fits := fun (l : List Nat) (y0 : Nat) =>
      let s := waiting (job l) y0
      let rs := s.dev.rangesOf 0 (job l)
      rs ≠ [] ∧ (∀ r ∈ rs, s.dev.inLp6 r.1 r.2 = true ∧ s.dev.yardAt r.1 = 0 ∧ s.dev.yardAt (r.1 + r.2 - 1) = 0)
    let room := fun (l : List Nat) (y0 : Nat) =>
      let s := waiting (job l) y0
      s.dev.backlog 0 0 + s.dev.inService 0 * Device.maxOf (s.dev.charges (s.dev.rangesOf 0 (job l))) ≤ 64 * s.dev.share 0 0
    (∃ r ∈ (waiting (job [0, 256 * 2 ^ 32, 2 ^ 40]) 16).dev.rangesOf 0 (job [0, 256 * 2 ^ 32, 2 ^ 40]),
      (waiting (job [0, 256 * 2 ^ 32, 2 ^ 40]) 16).dev.mapped r.1 r.2 = false) ∧
    fits [2 ^ 15, 256 * 2 ^ 32, 0] 16 ∧ dfield (descr [2 ^ 15, 256 * 2 ^ 32, 0]) 0 15 1 = 1 ∧
    fits (moveWords 256) 16 ∧ dfield (descr (moveWords 256)) 0 15 1 = 0 ∧ 0 < (waiting (job []) 16).dev.share 0 0 ∧
    room (moveWords 256) 16 ∧ (waiting (job []) 0).dev.share 0 0 = 0 ∧ fits (moveWords 0x80000) 1 ∧ ¬ room (moveWords 0x80000) 1 := by
  decide

theorem witness_BarrowEvents_complete :
    let j := { job (moveWords 256) with accepted := true, booked := true, promise := 1 }
    let s := inFrame 3 (waiting j 16)
    let v : Move := ⟨0x20000, loftDpa 0 0x1000, 256⟩
    (s.dev.stall 0).barrow[0]? = some j ∧ s.dev.mayComplete 0 0 = true ∧ s.dev.movesOf 0 j = [v] ∧
      s.dev.soundRange v.src v.bytes ∧ s.dev.soundRange v.dst v.bytes ∧ s.dev.tally.armed = false := by
  unfold Device.soundRange Device.sound; decide

/-- Such a job may end, with 5 bytes moved or all of them; one that was not accepted is not in progress. -/
theorem witness_BarrowEvents_abort_moved :
    let j := { job (moveWords 256) with accepted := true, booked := true, promise := 1 }
    let s := inFrame 3 (waiting j 16)
    s.dev.inProgress 0 0 = true ∧ s.dev.mayComplete 0 0 = true ∧ (waiting (job (moveWords 256)) 16).dev.inProgress 0 0 = false := by
  decide

/-- BARROW_ABORT of slot 0, tag 9, of stall 0: the job has it, or another tag. -/
theorem witness_BarrowEvents_abort :
    (waiting (job (moveWords 256)) 16).dev.serving = true ∧ Device.stallOf (0 : Fin 24) (field (0x900 : W32) 0 4) = 0 ∧
    flag (0x900 : W32) 4 = false ∧ (job (moveWords 256)).slot = .primary ∧ dfield (job (moveWords 256)).desc 0 56 8 = field (0x900 : W32) 8 8 ∧
    dfield (job (moveWords 256)).desc 0 56 8 ≠ field (0x800 : W32) 8 8 := by
  decide

/-! ### Drovers, sidings and teams -/

/-- The words 0 to 3 of a team record: rank pos of a ring of four, on VC1, with its bookings. -/
def recordWords (pos : Nat) : List Nat :=
  [0x77 * 2 ^ 32 + 3 * 2 ^ 16 + pos * 2 ^ 12 + 1 * 2 ^ 8 + 1 * 2 ^ 3, 2400 + 2400 * 2 ^ 32, 10000 + 10000 * 2 ^ 32, 10 * 2 ^ 32]

/-- Frame 5; stall 0 may submit for team 3 of drover 0, where this device has rank pos and the team is m. -/
def member (pos : Nat) (f : Team → Team) : State :=
  ((linkUp (lp6 (inFrame 5 (noticing (words 0x500 [480 + 720 * 2 ^ 32, 0, 0, 0, 0, 0, 0, 0] (two 0x400 0)))))).onDev fun d =>
    d.modTeam 0 3 fun _ => f { Reset.team with state := .active, record := descr (recordWords pos), since := 1 })

/-- A SHIFT of team 3, with notices in mailbox 3, the count block at 0x500 and landing through siding 2 where land is 1. -/
def shiftWords (land : Nat) : List Nat := [9 * 2 ^ 56 + 3 * 2 ^ 42 + land * 2 ^ 39 + 2 * 2 ^ 36 + 3 * 2 ^ 8, 0x20000, 0x30000, 0x500]

/-- Siding 2 of the slot: four chunk slots of 4 KiB, with notices in mailbox 3. -/
def withSiding (occupied reserved notices : Nat) (s : State) : State :=
  s.onDev fun d => (d.setSiding 0 .primary 2 ⟨0x10000, 4, 4096, occupied, reserved, 1, 2, notices, 3⟩).modMbx 0 3 fun m =>
    { m with inflight := notices, free := 64 - notices }

/-- The operands of SIDING, RELEASE and PERMSET. -/
def operands (a b : W64) (s : State) : State := s.onDev fun d => d.modCtx 0 .primary fun c => (c.setS 4 a).setS 3 b

theorem witness_DroverInstructions_submit :
    ∀ p ∈ [(0, member 0 id), (1, withSiding 0 0 0 (member 0 id))],
      let s := withDescr (shiftWords p.1) p.2
      let x := s.descr 0 1
      s.issues 0 1 ∧ mf.sel = 0 ∧ mf.b = 0 ∧ mf.d = 0 ∧ s.namesDescr 0 1 ∧ s.dev.droveQueued 0 .primary + s.dev.droveAccepted 0 .primary < 16 ∧
        s.dev.droveLegal 0 x = true ∧
        s.regionsFit 0 (⟨dfield x 3 0 32, 64, 64⟩ :: if dfield x 0 34 2 = 2 then [⟨dfield x 3 32 32, 64, 64⟩] else []) ∧
        Device.noticeMbx x = 3 ∧ s.takesNotices 0 3 (if p.1 = 1 then 5 else 1) := by
  unfold State.namesDescr State.regionsFit State.issues State.takesNotices State.descr; decide

theorem witness_DroverInstructions_sidings :
    (let s := operands 0x10000 0x11A (member 0 id)
     let b := s.dev.sreg 0 3
     s.issues 0 1 ∧ flag b 16 = false ∧ field b 3 3 + 1 = 4 ∧ field b 8 8 * 4096 = 4096 ∧
       (s.dev.sreg 0 4).toNat + 4 * 4096 ≤ s.dev.loftLimit 0 .primary ∧ (s.dev.sreg 0 4).toNat % 4096 = 0 ∧
       s.dev.siding 0 .primary 2 = none ∧ ((withSiding 1 0 0 s).dev.siding 0 .primary 2).any (fun q => q.occupied ≠ 0) = true ∧
       ((withSiding 0 1 0 s).dev.siding 0 .primary 2).any (fun q => q.reserved ≠ 0) = true) ∧
    (flag (0x10002 : W64) 16 = true ∧ ((withSiding 0 0 2 (member 0 id)).dev.siding 0 .primary 2).any
      (fun q => q.occupied = 0 && q.reserved = 0) = true) ∧
    (∀ p ∈ [(1, 2), (4, 2), (4, 63), (0, 63)],
      ((withSiding p.1 0 p.2 (operands 0 0x802 (member 0 id))).dev.siding 0 .primary 2).any (fun q => q.mbx = 3 && q.occupied = p.1) = true ∧
      field (0x802 : W64) 8 4 = 8 ∧ ((withSiding p.1 0 p.2 (member 0 id)).dev.mbx 0 3).free = 64 - p.2) := by
  unfold State.issues; decide

/-- The operation of the team's SHIFT as decided, which f changes; the job that brought it. -/
def shiftJob : DroveJob := ⟨0, .primary, descr (shiftWords 0), 0, 1⟩
def op (f : TeamOp → TeamOp) (m : Team) : Team :=
  { m with op := some (f { (member 0 id).dev.newOp m shiftJob ([480, 720] ++ List.replicate 14 0) false with signature := 0 }) }

theorem witness_DroverInstructions_permset :
    (let s := operands 0x500 3 (member 0 id)
     s.issues 0 1 ∧ (s.dev.sreg 0 4).toNat % 16 = 0 ∧ (s.dev.sreg 0 4).toNat + 16 ≤ s.dev.loftLimit 0 .primary ∧ s.dev.bad = [] ∧
       s.dev.ce = [] ∧ (s.dev.team 0 3).op.isNone = true ∧ s.dev.drovers[(0 : Yard)].jobs = []) ∧
    (operands 0x500 3 (member 0 (op id))).issues 0 1 ∧ ((member 0 (op id)).dev.team 0 3).op.isSome = true := by
  unfold State.issues; decide

/-- The descriptor waits in the drover. -/
def submitted (s : State) : State := s.onDev fun d => { d with drovers := d.drovers.set 0 { d.drovers[0] with jobs := [shiftJob] } }

theorem witness_DroverInstructions_permset_busy :
    ((submitted (operands 0x500 3 (member 0 id))).dev.drovers[(0 : Yard)].jobs.any fun j => dfield j.desc 0 42 6 = 3) = true ∧
    (submitted (operands 0x500 3 (member 0 id))).issues 0 1 := by
  unfold State.issues; decide

theorem witness_TeamOperation_decide :
    (∀ p ∈ [(0, TeamState.active), (1, .active), (0, .broken), (0, .severed)],
      let s := submitted (member p.1 fun m => { m with state := p.2 })
      let m := s.dev.team 0 3
      m.vc = 1 ∧ s.dev.teamLink 0 3 false = true ∧ m.abortPending = false ∧ s.dev.drovers[(0 : Yard)].jobs[0]? = some shiftJob ∧
        dfield shiftJob.desc 0 42 6 = 3 ∧ shiftJob.reserved ≤ 1 ∧ m.op.isNone = true ∧ m.state = p.2 ∧ m.since.toNat < s.dev.now.toNat ∧
        m.rank? = some p.1 ∧ Team.starterOf shiftJob.desc = 0 ∧ s.dev.bad = [] ∧ s.dev.ce = []) ∧
    (∀ pos ∈ [0, 1], let s := submitted (member pos (op id))
      ((s.dev.team 0 3).op.any fun o => !o.land && s.dev.droveRefusal 0 { s.dev.team 0 3 with op := none } o
        (ceilDiv (o.inBytes (s.dev.team 0 3)) 65536) == none) = true) := by
  decide

theorem witness_TeamOperation_flits :
    (∀ s ∈ [member 0 id, member 1 id], s.hearsTeam 0 3 hdr ∧ (s.dev.team 0 3).op.isNone = true ∧ (s.dev.team 0 3).collect = [] ∧ (s.dev.team 0 3).through = 0) ∧
    (∀ p ∈ [(0, fun o : TeamOp => { o with started := true }), (0, id), (1, id), (1, fun o => { o with started := true })],
      let s := member p.1 (op p.2)
      s.hearsTeam 0 3 hdr ∧ (s.dev.team 0 3).rank? = some p.1 ∧
        ((s.dev.team 0 3).op.any fun o => o.live && o.held.isNone && !o.go) = true) := by
  unfold State.hearsTeam State.hears; decide

theorem witness_TeamOperation_running :
    (∀ p ∈ [(0, fun o : TeamOp => { o with started := true, go := true, accept := some 5, completeSent := true }),
        (1, fun o => { o with started := true, go := true, accept := some 1, promise := 3 }), (1, fun o => { o with started := true, back := true }),
        (1, fun o => { o with started := true, go := true, accept := some 1, promise := 3, completeSent := true })],
      let s := member p.1 (op p.2)
      s.hearsTeam 0 3 hdr ∧ (s.dev.team 0 3).rank? = some p.1 ∧
        ((s.dev.team 0 3).op.any fun o => o.live && o.held.isNone && (o.back || o.completeSent || o.due s.dev.now)) = true) := by
  unfold State.hearsTeam State.hears; decide

theorem witness_TeamOperation_ends_of_leg :
    ((member 1 (op fun o => { o with go := true })).dev.team 0 3).op.any
      (fun o => o.metaIn.isNone && (o.receives ((member 1 id).dev.team 0 3)).any fun g => g.src = 0) = true ∧
    (let o := ((member 1 (op fun o => { o with go := true, receiptDone := true, sentBytes := o.outBytes (member 1 id |>.dev.team 0 3) })).dev.team 0 3)
     o.op.any (fun q => q.complete o) = true) := by
  decide

/-- A COLLECT flit of a SEND of rank 0 to rank 1, or of a SHIFT with some SEQ. -/
def collect (p : Option (BitVec 4 × BitVec 4)) (n : W32) : CollectFlit := ⟨p, n, 0, true, false, 0, false⟩

/-- Rank 1 hears of a SEND to itself, which is not its SHIFT; a device that passes operations on or none; the starter's own
COLLECT and another. -/
theorem witness_TeamOperation_collect :
    (∀ n ∈ [0, 2], let s := member 1 fun m => { m with through := n }
      s.hearsTeam 0 3 hdr ∧ ((s.dev.team 0 3).op.any (·.go)) = false ∧ (s.dev.team 0 3).taking = none ∧ (s.dev.team 0 3).through = n) ∧
    (let m := (member 1 id).dev.team 0 3
     Device.takesPart m (collect (some (0, 1)) 0) = true ∧ Device.takesPart m (collect (some (0, 2)) 0) = false) ∧
    (let s := member 0 (op fun o => { o with started := true })
     s.hearsTeam 0 3 hdr ∧ ((s.dev.team 0 3).op.any fun o => o.owns (collect none 0) && !o.owns (collect none 1) && o.asks (collect none 1)
       && o.accept.isNone) = true ∧ (s.dev.team 0 3).taking = (s.dev.team 0 3).op) := by
  unfold State.hearsTeam State.hears; decide

/-- A broken team, or a severed one, hears SEVER or another flit. -/
theorem witness_TeamOperation_broken :
    (∀ x ∈ [TeamState.broken, .severed], (member 1 fun m => { m with state := x }).hearsTeam 0 3 hdr) ∧
    (member 1 id).dev.teamLink 0 3 false = true := by
  unfold State.hearsTeam State.hears; decide

theorem witness_TeamOperation_ends :
    (let s := member 0 fun m => op (fun o => { o with started := true, accept := some 4, returned := some ⟨none, 0, 0, true, false, 0, false⟩ }) m
     ((s.dev.team 0 3).op.any fun o => o.live && !o.go && o.started && !o.aborted && o.accept == some 4) = true ∧
       (4 : Frame) ≠ s.dev.now ∧ (s.dev.team 0 3).rank = 0 ∧
       ((s.dev.team 0 3).op.any fun o => o.returned.any fun c => c.matched && !c.aborted && !c.refused) = true) ∧
    (let s := member 0 (op fun o => { o with go := true, accept := some 1, promise := 2, chunks := 1, gotBytes := 720 })
     ((s.dev.team 0 3).op.any fun o => o.live && o.go && !o.land && decide (o.posted < o.chunks) && !o.completeSent && o.due s.dev.now &&
       decide (o.posted * s.dev.chunkSize o + s.dev.chunkBytes 0 3 o o.posted ≤ o.gotBytes)) = true) ∧
    (let s := inFrame 90 (member 0 (op fun o => { o with go := true, accept := some 1, promise := 2 }))
     ((s.dev.team 0 3).op.any fun o => !o.nobook && o.reached s.dev.now ((s.dev.team 0 3).bound (o.legs (s.dev.team 0 3)) + o.k + 3)) = true) ∧
    (let s := inFrame 20 (member 0 (op id))
     ((s.dev.team 0 3).op.any fun o => o.accept.isNone && decide ((s.dev.team 0 3).hsLimit ≤ Device.since s.dev.now o.decided)) = true ∧
       (s.dev.team 0 3).hsLimit ≠ 0) := by
  decide

/-- The page of drover 0 names a record at p and frame 8. -/
def page (p : Nat) (s : State) : State :=
  s.onDev fun d => (d.setPreg (Page.drover 0) 0x10C (BitVec.ofNat 32 p)).setPreg (Page.drover 0) 0x114 8

/-- A CREATE of frame 8 that holds its slot where h is true, with a record at p. -/
def createAt (p : Nat) (h : Bool) : TeamCreate := ⟨p, 8, none, h⟩

/-- It has been commanded, of a team slot in a state; both ports book n. -/
def creating (p : Nat) (x : TeamState) (n : W32) : State :=
  (inFrame 8 (member 0 fun _ => { Reset.team with state := x, creates := [createAt p (x = .pending)] })).onDev fun d =>
    (d.setPreg (Page.port 0) 0x140 n).setPreg (Page.port 1) 0x140 n

theorem witness_TeamLife_commands :
    field (0x10003 : W32) 16 2 = 1 ∧ field (0x20003 : W32) 16 2 = 2 ∧ (page 0x40000 (member 0 id)).dev.serving = true ∧
    (page 0x40000 (member 0 id)).dev.teamFrameReg 0 = 8 ∧ (member 0 id).dev.now = 5 ∧ (inFrame 8 (member 0 id)).dev.now = 8 ∧
    ((member 0 id).dev.team 0 3).op.isNone = true ∧ (member 0 id).dev.drovers[(0 : Yard)].jobs = [] ∧
    (submitted (member 0 id)).dev.drovers[(0 : Yard)].jobs = [shiftJob] ∧ dfield shiftJob.desc 0 42 6 = 3 ∧
    ((member 0 (op fun o => { o with committed := true })).dev.team 0 3).op.any (fun o => !o.live) = true := by
  decide

/-- The record stands at 0x40000. -/
def recorded (b : W32) : State := (creating 0x40000 .pending b).onDev fun d =>
  { d with mem := ((recordWords 1).flatMap (leBytes 8)).zipIdx.map fun x => (0x40000 + x.2, x.1) }

/-- The team that it describes. -/
def described (d : Device) : Team :=
  let m := d.team 0 3
  { Reset.team with
    state := .active, record := d.descrAt 0x40000, act := 8, since := 8, turn := m.turn, nextSeq := m.nextSeq
    sendSeq := m.sendSeq, creates := m.creates.erase (createAt 0x40000 true), destroys := m.destroys, abortPending := m.abortPending }

theorem witness_TeamLife_activate :
    let d := (recorded 1000).dev
    ((d.team 0 3).creates.filter fun c => decide (c.act ≤ d.now)) = [createAt 0x40000 true] ∧ d.inLp6 0x40000 64 = true ∧
      d.soundRange 0x40000 64 ∧ d.inBoundary = false ∧
      (d.dropCreate 0 3 (createAt 0x40000 true)).teamRefusal 0 3 (described d) = none := by
  unfold Device.soundRange Device.sound; decide

/-- It does not fit where the ports book nothing. -/
theorem witness_TeamLife_misfit :
    let d := (recorded 0).dev
    (d.dropCreate 0 3 (createAt 0x40000 true)).teamRefusal 0 3 (described d) = some Status.teamConfigInvalid := by
  decide

theorem witness_TeamLife_unmapped : (creating (2 ^ 46) .pending 1000).dev.mapped (2 ^ 46) 64 = false := by decide

theorem witness_TeamLife_refused :
    ∀ p ∈ [(0x40000, TeamState.active), (0x40001, .pending), (loftDpa 0 0, .pending)],
      let c := createAt p.1 (p.2 = .pending)
      let s := creating p.1 p.2 1000
      ((s.dev.team 0 3).creates.filter fun c => decide (c.act ≤ s.dev.now)) = [c] ∧
        (¬ (c.holds = true ∨ (s.dev.team 0 3).state = .free) ∨ p.1 % 8 ≠ 0 ∨
          (s.dev.mapped p.1 64 = true ∧ s.dev.inLp6 p.1 64 = false)) := by
  decide

theorem witness_TeamLife_free :
    (∀ f ∈ [id, op id], let s := member 0 fun m => f { m with destroys := [(5, none)] }
     (s.dev.team 0 3).setUp = true ∧ ((s.dev.team 0 3).destroys.filter fun f => decide (f.1 ≤ s.dev.now)) = [(5, none)]) ∧
    ((member 0 id).dev.team 0 3).op.any (·.live) = false ∧ ((member 0 (op id)).dev.team 0 3).op.any (·.live) = true ∧
    ((member 0 fun _ => { Reset.team with destroys := [(5, none)] }).dev.team 0 3).setUp = false := by
  decide

/-! ### The Forge -/

/-- A template of one variable, in slot 2 of Forge 0, whose page books 1,000 cycles and bursts. -/
def template : Template :=
  { dpa := 0x60000, version := 5, n := 1, m := 0, nnzP := 1, nnzA := 0, delta := 0x3EB0C6F7A0B5ED8D, nsrc := 1, nterms := 0, dense := true
    tgt := 0x60080, term := 0x600C0, elems := [0], pCol := [0, 1], pRow := [0], aCol := [0, 0], aRow := [], iter := 1, setup := 1
    back := 1, work := 0, ret := 0, lp6 := 0, fprint := 0 }

def forged (f : Forge → Forge) (s : State) : State :=
  s.onDev fun d => ((d.setPreg (Page.forge 0) 0x100 1000).setPreg (Page.forge 0) 0x104 1000).modForge 0 fun x =>
    f { x with tpl := x.tpl.set 2 (some template) }

/-- FSUBMIT of two problems with a deadline and a version, booked where nobook is 0; FBACK of a handle. -/
def submitWords (nobook dl ver : Nat) : List Nat :=
  [5 * 2 ^ 56 + 2 * 2 ^ 52 + nobook * 2 ^ 51 + 20 * 2 ^ 32 + 10 * 2 ^ 16 + 3 * 2 ^ 8, dl, ver + 2 * 2 ^ 32, 0x500, 0x70000, 0x72000]
def backWords (op handle : Nat) : List Nat := [6 * 2 ^ 56 + op * 2 ^ 54 + 2 ^ 53 + 3 * 2 ^ 8, 9000, handle + 0x600 * 2 ^ 32]

/-- Frame 5, with the descriptor l. -/
def forge (l : List Nat) (f : Forge → Forge) : State := withDescr l (forged f (lp6 (inFrame 5 (noticing (two 0x400 0)))))

/-- Entry 0 retains two problems of slot 2. -/
def kept (f : Forge) : Forge :=
  { f with ret := f.ret.set 0 { Reset.retention with used := true, committed := true, tslot := 2, lastFrame := 9, nprob := 2 } }

theorem witness_ForgeInstructions_submit :
    ∀ p ∈ [(0, 5000, 5), (1, 5000, 5), (0, 5000, 6), (0, 6, 5)],
      let s := forge (submitWords p.1 p.2.1 p.2.2) id
      let x := s.descr 0 1
      let tbl := (s.dev.readTable 0 .primary 0x500 1).2
      s.issues 0 1 ∧ s.namesDescr 0 1 ∧ s.dev.forgeOutstanding 0 .primary < 4 ∧ Device.noticeMbx x = 3 ∧ s.takesNotices 0 3 1 ∧
        Device.forgeLegal false x = true ∧ ((s.dev.forge 0).tpl[(2 : Fin 16)]).isSome = true ∧ s.regionsFit 0 [⟨0x500, 32, 64⟩] ∧
        dfield x 2 0 32 = p.2.2 ∧ (template.elems[0]?).getD 0 ≤ ((tbl[0]?).map Source.len).getD 0 ∧ tbl.all Source.formatOk = true ∧
        (dfield x 0 49 1 = 0 ∧ dfield x 0 50 1 = 0 ∧ dfield x 0 51 1 = p.1 ∧ s.dev.now.toNat < dfield x 1 0 48) ∧
        s.dev.mapped 0x70000 (2 * template.stride) = true ∧ s.dev.mapped 0x72000 (2 * template.stride) = true := by
  unfold State.namesDescr State.regionsFit State.issues State.takesNotices State.descr; decide

/-- The first request fits its deadline; where the Forge books nothing it does not. -/
theorem witness_ForgeInstructions_fits :
    let q := { State.reset.dev.newReq 0 false (descr (submitWords 0 5000 5)) with
      accept := 5, problems := List.replicate 2 ForgeReq.freshProblem }
    ∀ part : Fin 4 → Nat, Device.forgeFits 5 1000 1000 [(q.deadline, q.accept, q.left template part, q.lp6Left template)] = true ∧
      Device.forgeFits 5 0 1000 [(q.deadline, q.accept, q.left template part, q.lp6Left template)] = false := by
  intro q part
  have h : q.spent part = 0 := rfl
  have e : q.left template part = q.cost template := by simp [ForgeReq.left, h]
  rw [e]
  decide

theorem witness_ForgeInstructions_back :
    ∀ op ∈ [0, 1, 2],
      let s := forge (backWords op 0) kept
      let x := s.descr 0 1
      s.issues 0 1 ∧ s.namesDescr 0 1 ∧ s.takesNotices 0 3 1 ∧ Device.forgeLegal true x = true ∧ s.regionsFit 0 [⟨0x600, 288, 64⟩] ∧
        ((s.dev.retained 0 0).any fun r => r.1 = 0) = true ∧ (s.dev.retained 0 77).isNone = true ∧ s.dev.retentionHeld 0 0 = false ∧
        dfield x 3 0 48 = 0 ∧ dfield x 0 53 1 = 1 ∧ dfield x 0 54 2 = op ∧ s.dev.now.toNat < dfield x 1 0 48 := by
  unfold State.namesDescr State.regionsFit State.issues State.takesNotices State.descr; decide

/-- The gradient table of such a request: its first entry reads one value per problem, the second is not enabled. -/
theorem witness_ForgeInstructions_gradients :
    let s := (forge (backWords 0 0) kept).onDev fun d =>
      { d with mem := d.mem ++ [(loftDpa 0 0x602, 7), (loftDpa 0 0x606, 1), (loftDpa 0 0x610, 1), (loftDpa 0 0x614, 1)] }
    let g : Source := ((s.dev.readTable 0 .primary 0x600 9).2[0]?).getD (Vector.replicate 4 0)
    template.n ≤ g.len ∧ g.formatOk = true ∧ ((s.dev.readTable 0 .primary 0x600 9).2[1]?.any fun i => !i.enabled) = true ∧
      s.dev.sourceMapped 0 .primary g ((2 - 1) * g.pstride + g.len) = true := by
  decide

/-- A request of stall 0 with the phases of its problems. -/
def request (phases : List ProblemPhase) : ForgeReq :=
  { State.reset.dev.newReq 0 false (descr (submitWords 0 5000 5)) with
    tslot := 2, problems := phases.map fun p => { ForgeReq.freshProblem with phase := p, code := if p = .ended then Status.done else 0 } }

def requested (phases : List ProblemPhase) : State := forge [] fun f => { f with reqs := [request phases] }

theorem witness_ForgeEvents_problems :
    (let s := requested [.ready, .ready]
     s.dev.onHearth 0 0 = none ∧ ((s.dev.nextRequest 0).any fun x => x.1 = 0) = true ∧ ((s.dev.forge 0).tpl[(2 : Fin 16)]).isSome = true ∧
       ((request [.ready, .ready]).problems.findIdx? fun p => p.phase = .ready) = some 0) ∧
    (∀ l ∈ [[ProblemPhase.running 0, .ready], [.running 0, .ended]],
      let s := requested l
      let a := 0x70000 + 64
      s.dev.onHearth 0 0 = some (0, 0) ∧ s.dev.now.toNat ≤ (request l).deadline.toNat ∧ (request l).back = false ∧
        (request l).entry = none ∧ ((request l).problems[0]?.any fun p => p.code = 0 && !template.crossed p.vals) = true ∧
        s.dev.soundRange (a - 64) 64 ∧ s.dev.soundRange a 8 ∧ a + 8 ≤ loftBase ∧ s.dev.tally.armed = false ∧
        ((request l).problems[1]?.any fun p => p.phase = (if l = [.running 0, .ready] then .ready else .ended)) = true) := by
  unfold Device.soundRange Device.sound; decide

/-- A problem of n = 1 with a warm point: x = 0 solves 0; one iteration solves x²/2 − x to 2⁻²⁰; a NaN runs into the limit. -/
theorem witness_ForgeEvents_outcomes :
    let o (limit : Nat) (vals : List W64) (x : W64) :=
      template.outcome vals 20 limit ⟨[x], [], [], [], []⟩ ⟨0, 0, .none, false⟩
    ((o 2 [] 0).code = Status.done ∧ (o 2 [] 0).iters = 0) ∧
      ((o 2 [one64, neg64 one64] 0).code = Status.done ∧ (o 2 [one64, neg64 one64] 0).iters = 1) ∧
      ((o 1 [] nan64).code = Status.forgeIterLimit ∧ (o 1 [] nan64).iters = 1) ∧
      { template with m := 1 }.crossed [0, 0, one64, 0] = true := by
  decide

theorem witness_ForgeEvents_ends :
    (let s := inFrame 6000 (requested [.ready, .ready])
     ((s.dev.forge 0).reqs.findIdx? fun q => decide (q.deadline.toNat < s.dev.now.toNat)) = some 0 ∧ s.dev.atStep3 = false) ∧
    (let s := inFrame 10 (forge [] kept)
     let r := (s.dev.forge 0).ret[(0 : Fin 64)]
     r.used = true ∧ r.committed = true ∧ r.lastFrame.toNat < s.dev.now.toNat ∧ s.dev.retentionHeld 0 0 = false ∧ r.releaseDue = false ∧ r.expired = false ∧
       s.dev.atStep3 = false) ∧
    (let s := requested [.ready, .ready]
     s.dev.serving = true ∧ (request []).stall.val = field (0x5 : W32) 16 9 ∧ flag (0x5 : W32) 8 = false ∧
       (request []).ntag = field (0x5 : W32) 0 8 ∧ (request []).ntag ≠ field (0x7 : W32) 0 8) := by
  decide

theorem witness_ForgeEvents_templates :
    (let s := requested [.ready]
     s.dev.serving = true ∧ field (0x10003 : W32) 16 2 = 1 ∧ field (0x10003 : W32) 0 4 = 3 ∧ field (0x20003 : W32) 16 2 = 2 ∧
       s.dev.templateUsed 0 3 = false ∧ s.dev.templateUsed 0 2 = true) ∧
    (let s := forge [] fun f => { f with loading := [⟨3, 0x50001, none, 5⟩] }
     s.dev.templateUsed 0 3 = false ∧ (s.dev.readTemplate 0x50001).2.getLeft? = some Status.forgeTemplateInvalid) := by
  decide

/-! ### Frames, the tick unit, context switches and memory controllers -/

/-- A follower upstream of port 1 whose tick unit f changes; every port is up. -/
def ticking (f : TickUnit → TickUnit) : State :=
  (linkUp (lp6 blank)).onDev fun d => { (d.setPreg Page.frame 0x100 0x12) with tick := f d.tick }

/-- The marker of a frame. -/
def marker (n : Frame) (ho st : Bool) : TickMarker := ⟨n, 1, ho, st, 0⟩

theorem witness_FrameBoundary :
    (let d := (lp6 blank).dev
     d.boot.state ≠ .off ∧ d.tick.refLost = false ∧ d.inBoundary = false) ∧
    (inState .off (lp6 blank)).dev.boot.state = .off ∧
    (ticking fun t => { t with state := .aligned }).dev.tickRole = 2 ∧ (lp6 blank).dev.tickRole ≠ 2 ∧
    (ticking fun t => { t with refLost := true }).dev.tick.refLost = true := by
  decide

/-- What the tick unit holds does not bear on the port. -/
theorem witness_TickRules_markers :
    (let s := ticking fun t => { t with state := .acquiring, validRun := 1, last := some (marker 9 false false, 5) }
     s.hears 1 hdr 0 ∧ s.dev.tickRole = 2 ∧ 1 = s.dev.upstream ∧ s.dev.tick.state = .acquiring ∧ s.dev.tick.inStep = false ∧
       s.dev.tick.last = some (marker 9 false false, 5) ∧ s.dev.tick.validRun ≠ 0) ∧
    (marker 10 false false).holdover = false ∧ (marker 10 false false).step = false ∧ (10 : Frame) = 9 + 1 ∧ (12 : Frame) ≠ 9 + 1 ∧
    (∀ x ∈ [TickState.free, .holdover, .aligned], (ticking fun t => { t with state := x }).dev.tick.state = x) := by
  unfold State.hears; decide

theorem witness_TickRules_states :
    (let s := ticking fun t => { t with state := .aligned, lastAge := 2, errRun := 4 }
     s.dev.tickRole = 2 ∧ s.dev.tick.state = .aligned ∧ s.dev.tick.inStep = false ∧ 2 ≤ s.dev.tick.lastAge ∧ 4 ≤ s.dev.tick.errRun) ∧
    (ticking id).dev.boot.state ≠ .off ∧ (ticking id).dev.tickRole = 2 ∧ (runs id).dev.boot.state ≠ .off ∧ (runs id).dev.idleToStep = false ∧
    (let s := ticking fun t => { t with state := .acquiring, stepDue := true, last := some (marker 9 false false, 5) }
     s.dev.tick.stepDue = true ∧ s.dev.tick.last = some (marker 9 false false, 5)) ∧
    (let s := ticking fun t => { t with state := .acquiring, acquireAge := 8 }
     s.dev.tick.state = .acquiring ∧ s.dev.tick.inStep = false ∧ s.dev.tick.stepDue = false ∧ 8 ≤ s.dev.tick.acquireAge) ∧
    (ticking fun t => { t with loadDue := true }).dev.tick.loadDue = true := by
  decide

/-- No slot runs at reset. -/
theorem reset_stopped (st : StallId) :
    (State.reset.dev.stall st).primary.running = false ∧ (State.reset.dev.stall st).paddock.running = false := by
  simp [State.reset, Reset.device, Device.stall, Reset.stall]; decide

/-- Nor does anything else keep the block from a step then. -/
theorem reset_idle :
    ((finList 8).all fun (p : PortId) => ([1, 2, 3, 4, 5] : List Nat).all fun v => State.reset.dev.book p v = 0) = true ∧
    ((finList 384).all fun (st : StallId) => State.reset.dev.preg (Page.shedOf st) (Device.shedOff st 0x100) = 0) = true := by
  decide

/-- No register of these lies at FRAME_CFG. -/
theorem frameCfg_apart :
    (∀ st : StallId, (Page.shedOf st).reg (Device.shedOff st 0x100) ≠ Page.frame.reg 0x100) ∧
    (∀ p : PortId, ∀ v : Fin 6, (Page.port p).reg (0x140 + 4 * (v.val - 1)) ≠ Page.frame.reg 0x100) := by
  decide

/-- After reset the block may step, whatever its role. -/
theorem witness_TickRules_idle (v : W32) (h : v = 0 ∨ v = 0x12) :
    let s := State.reset.onDev fun d => d.setPreg Page.frame 0x100 v
    s.dev.idleToStep = true ∧ s.dev.boot.state ≠ .off ∧ (s.dev.tickRole = 2 ↔ v = 0x12) := by
  refine ⟨?_, by obtain rfl | rfl := h <;> decide, by obtain rfl | rfl := h <;> decide⟩
  have e : ∀ o, o ≠ Page.frame.reg 0x100 →
      (State.reset.onDev fun d => d.setPreg Page.frame 0x100 v).dev.reg o = State.reset.dev.reg o :=
    fun o ho => Device.reg_setReg_ne _ _ _ _ ho
  have h0 : ((finList 384).all fun (st : StallId) =>
      !((State.reset.onDev fun d => d.setPreg Page.frame 0x100 v).dev.stall st).primary.running &&
        !((State.reset.onDev fun d => d.setPreg Page.frame 0x100 v).dev.stall st).paddock.running) = true :=
    List.all_eq_true.2 fun st _ => by
      have := reset_stopped st
      show (!(State.reset.dev.stall st).primary.running && !(State.reset.dev.stall st).paddock.running) = true
      rw [this.1, this.2]; rfl
  have h2 : ((finList 384).all fun (st : StallId) =>
      (State.reset.onDev fun d => d.setPreg Page.frame 0x100 v).dev.preg (Page.shedOf st) (Device.shedOff st 0x100) = 0) = true :=
    List.all_eq_true.2 fun st hst => by
      have := List.all_eq_true.1 reset_idle.2 st hst
      exact decide_eq_true (by simpa only [Device.preg, e _ (frameCfg_apart.1 st)] using of_decide_eq_true this)
  have h1 : ((finList 8).all fun (p : PortId) => ([1, 2, 3, 4, 5] : List Nat).all fun w =>
      (State.reset.onDev fun d => d.setPreg Page.frame 0x100 v).dev.book p w = 0) = true :=
    List.all_eq_true.2 fun p hp => List.all_eq_true.2 fun w hw => by
      have := List.all_eq_true.1 (List.all_eq_true.1 reset_idle.1 p hp) w hw
      have hw' : w < 6 := by simp at hw; omega
      exact decide_eq_true (by
        simpa only [Device.book, Device.pfield, Device.preg, e _ (frameCfg_apart.2 p ⟨w, hw'⟩)] using of_decide_eq_true this)
  have h3 : ((finList 2).all fun (y : Yard) =>
      (State.reset.onDev fun d => d.setPreg Page.frame 0x100 v).dev.preg (Page.forge y) 0x100 = 0 &&
        (State.reset.onDev fun d => d.setPreg Page.frame 0x100 v).dev.preg (Page.forge y) 0x104 = 0 &&
        (State.reset.onDev fun d => d.setPreg Page.frame 0x100 v).dev.drovers[y].teams.toList.all (fun m => m.state = .free) &&
        (State.reset.onDev fun d => d.setPreg Page.frame 0x100 v).dev.forges[y].reqs.isEmpty &&
        (State.reset.onDev fun d => d.setPreg Page.frame 0x100 v).dev.forges[y].ret.toList.all fun r => !r.used) = true := by
    obtain rfl | rfl := h <;> decide
  unfold Device.idleToStep
  rw [h0, h1, h2, h3]; rfl

/-- Every port is up with every feature. -/
def featured (d : Device) : Vector Port 8 := Vector.ofFn fun p => { (linkUp State.reset).dev.ports[p] with features := 0x1F, rx := d.ports[p].rx }

/-- Tick unit and ports do not bear on that. -/
theorem idle_ports (s : State) (f : Device → TickUnit) :
    (s.onDev fun d => { d with tick := f d, ports := featured d }).dev.idleToStep = s.dev.idleToStep := rfl

/-- An aligned follower may step, or not while a slot runs. -/
theorem witness_TickRules_step :
    let f := fun d : Device => { d with tick := { d.tick with state := .aligned }, ports := featured d }
    let s := (State.reset.onDev fun d => d.setPreg Page.frame 0x100 0x12).onDev f
    s.hears 1 hdr 0 ∧ s.dev.tickRole = 2 ∧ (1 : PortId) = s.dev.upstream ∧ s.dev.ports[(1 : PortId)].has 2 = true ∧
      s.dev.tick.state = .aligned ∧ s.dev.idleToStep = true ∧ (marker 10 false true).step = true ∧ ((runs id).onDev f).dev.idleToStep = false := by
  refine ⟨?_, ?_, ?_, ?_, ?_, (idle_ports _ _).trans (witness_TickRules_idle 0x12 (Or.inr rfl)).1, rfl, ?_⟩ <;>
    first | decide | (unfold State.hears; decide)

theorem witness_TickRules_served : (lp6 blank).dev.served = true ∧ (inState .off blank).dev.served = false := by decide

theorem witness_SafeEntry :
    (lp6 blank).alive ∧ ((lp6 blank).onDev fun d => { d with boot := { d.boot with state := .safe } }).dev.boot.state = .safe ∧
    (let s := (lp6 blank).onDev fun d => { d with ctr := { d.ctr with kickAge := 2 ^ 40 } }
     s.alive ∧ s.dev.boot.fwRunning = true ∧ s.dev.fwLimit < s.dev.ctr.kickAge) ∧
    (((lp6 blank).dev.preg (Page.yard 1) 0x120).toNat + 1 < 2 ^ 32) ∧
    (((two 0 0).onDev fun d => d.modStall 0 fun x => { x with watchdogDue := true }).dev.stall 0).watchdogDue = true := by
  unfold State.alive; decide

/-- Stall 0 has a paddock slot of half the loft, and f changes the stall. -/
def paddocked (f : Stall → Stall) : State :=
  (lp6 (two 0 0)).onDev fun d => ((d.setPreg (Page.stall 0) 0xF00 0x8800_0010).setPreg (Page.shedOf 0) (Device.shedOff 0 0x100) 0x0001_0001).modStall 0 f

theorem witness_ContextSwitch_start :
    (let s := paddocked fun x => { x with switchTo := some (.paddock, 5) }
     (s.dev.stall 0).switchTo = some (.paddock, 5) ∧ (s.dev.cur 0).mrun = [] ∧ (s.dev.cur 0).vq = [] ∧ (s.dev.cur 0).hold = none ∧
       s.dev.inBoundary = false) ∧
    ((held (.fwait 5) (paddocked fun x => { x with switchTo := some (.paddock, 5) })).dev.cur 0).hold = some (.fwait 5) := by
  decide

theorem witness_ContextSwitch_images :
    let s := paddocked fun x => { x with switchTo := some (.paddock, 5) }
    (s.dev.stall 0).vBad = [] ∧ Slot.paddock ≠ s.dev.slotOf 0 ∧ s.dev.bad = [] ∧ s.dev.ce = [] ∧
      s.dev.imageAt 0 .primary + 49152 ≤ s.dev.imageAt 0 .paddock ∧ s.dev.tally.armed = false := by
  decide

theorem witness_ContextSwitch_done :
    let s := paddocked fun x => { x with switching := some .paddock }
    (s.dev.stall 0).switching = some .paddock ∧ (s.dev.ctx 0 .paddock).vq = [] := by
  decide

/-- The paddock slot has a partition of 64 KiB, and its stall a share of n bursts. -/
def parking (n : W32) : Device := ((paddocked id).onDev fun d =>
  (d.setPreg (Page.stall 0) 0xF00 0x8800_002F).setPreg (Page.shedOf 0) (Device.shedOff 0 0x100) n).dev

/-- That partition fits 64 frames of a share of 1,000 bursts, not of one burst; the resident slot's
never. -/
theorem witness_ContextSwitch_park : (parking 1000).mayPark 0 .paddock 64 = true := by decide

theorem witness_ContextSwitch_park_small : (parking 1).mayPark 0 .paddock 64 = true := by decide

theorem witness_ContextSwitch_park_resident : (parking 1000).mayPark 0 .primary 64 = false := by decide

theorem witness_ContextSwitch_park_fits (n : W32) (h : n = 1 ∨ n = 1000) :
    let d := parking n
    d.inService 0 * Device.maxOf (d.charges [(64, d.partBytes 0 .paddock)]) ≤ 64 * d.share 0 0 ↔ n = 1000 := by
  have hc : ∀ n, (parking n).charges = (parking 1000).charges := fun n => rfl
  have hs : ∀ n, (parking n).inService = (parking 1000).inService := fun n => rfl
  have hx : (parking 1000).inService 0 * Device.maxOf ((parking 1000).charges [(64, 65536)]) = 71680 := by decide
  have hp : (parking n).partBytes 0 .paddock = 65536 := by obtain rfl | rfl := h <;> decide
  have hn : (parking n).share 0 0 = 64 * n.toNat := by obtain rfl | rfl := h <;> decide
  show (parking n).inService 0 * Device.maxOf ((parking n).charges [(64, (parking n).partBytes 0 .paddock)]) ≤ 64 * (parking n).share 0 0 ↔ _
  rw [hc, hs, hp, hx, hn]
  obtain rfl | rfl := h <;> decide

theorem witness_MemoryController :
    (lp6 blank).dev.mc[(3 : Chan)].state = .inService ∧ (lp6 blank).dev.serving = true ∧ (lp6 blank).dev.boot.state ≠ .safe ∧
    (∀ n ∈ [63, 64], let s := (lp6 blank).onDev fun d => d.modMc 3 fun m => { m with age := n }
      s.dev.mc[(3 : Chan)].age = n ∧ s.dev.mc[(3 : Chan)].state = .inService) ∧ (inState .safe (lp6 blank)).dev.boot.state = .safe ∧
    (∀ l ∈ [1, 3], let s := (lp6 blank).onDev fun d => d.modMc 3 fun m => { m with next := some l, due := true }
      s.dev.mc[(3 : Chan)].next = some l ∧ s.dev.mc[(3 : Chan)].due = true) ∧
    (let s := (lp6 blank).onDev fun d => (d.setPreg (Page.memctl 3) 0x10C 7).modMc 3 fun m => { m with winAge := 7 }
     (s.dev.preg (Page.memctl 3) 0x10C).toNat = s.dev.mc[(3 : Chan)].winAge) := by
  decide

/-! ### Torus ports -/

/-- Every port as f makes it from one that is up. -/
def ports (f : Port → Port) : State :=
  (linkUp (lp6 (inFrame 5 blank))).onDev fun d => { d with ports := Vector.ofFn fun p => f d.ports[p] }

/-- Sixteen lanes and a spare; sixteen lanes and none. -/
def spared : LaneMap := ⟨0xFFFF, some 16, false⟩
def spent : LaneMap := ⟨0xFFFF, none, true⟩

/-- The partner's HELLO; a port in NEGOTIATING that has had it and n echoes. -/
def hello : Hello := ⟨0x0201, 0x0100, 0x1F, 77, 1, false, [0, 11, 12, 13, 14, 15], 16, false⟩
def greeted (n : Nat) (q : Port) : Port :=
  { q with state := .negotiating, rateFb := false, tx := spared, rx := spared, features := 0x1F, partner := some hello
           echoes := List.replicate n 5, helloSent := true }

theorem witness_PortBringup_commands :
    (∀ x ∈ [PortState.down, .absent, .faulty], (ports fun q => { q with state := x }).dev.ports[(0 : PortId)].state = x ∧
      (ports fun q => { q with state := x }).dev.ports[(0 : PortId)].left = none) ∧
    (ports id).dev.serving = true ∧ (ports id).dev.ports[(0 : PortId)].linked = true ∧
    (ports (greeted 0)).dev.ports[(0 : PortId)].rising = true ∧
    (ports fun q => { q with state := .hostile }).dev.ports[(0 : PortId)].state = .hostile := by
  decide

theorem witness_PortBringup_training :
    (ports fun q => { q with state := .training, ctl := 1 }).dev.ports[(0 : PortId)].state = .training ∧
    (ports fun q => { q with state := .training, ctl := 1 }).dev.ports[(0 : PortId)].ctl = 1 ∧
    Device.configure 1 ⟨0, 0, 0, 0, 0⟩ = none ∧ Device.configure 1 ⟨0x1FFFF, 0x1FFFF, 0x1FFFF, 0x1FFFF, 0⟩ = none ∧
    (Device.configure 1 ⟨0xFF, 0xFF, 0xFF, 0xFF, 0x3F⟩).isSome = true ∧
    field (1 : W32) 8 2 = 0 ∧ flag (0x3F : BitVec 6) 0 = true ∧ 16 ≤ lanes (0xFFFF : BitVec 17) ∧ 16 ≤ lanes (0x1FFFF : BitVec 17) := by
  decide

theorem witness_PortBringup_hellos :
    let s := ports fun q => { greeted 0 q with partner := none }
    s.hears 0 hdr 0 ∧ s.dev.ports[(0 : PortId)].state = .negotiating ∧ hello.lanes = s.dev.ports[(0 : PortId)].width ∧
      hello.slowRate = s.dev.ports[(0 : PortId)].rateFb ∧ hello.verMin.toNat ≤ 0x0201 ∧ 0x0100 ≤ hello.verMax.toNat ∧
      hello.verMin.toNat ≤ hello.verMax.toNat ∧ hello.port.toNat / 2 = (0 : PortId).val / 2 ∧ hello.port.toNat ≠ (0 : PortId).val ∧
      s.dev.ports[(0 : PortId)].partner = none ∧ 0x0201 < ({ hello with verMin := 0x300 } : Hello).verMin.toNat ∧
      ({ hello with verMax := 0x50 } : Hello).verMax.toNat < 0x0100 := by
  unfold State.hears; decide

/-- A HELLO of a port that the cable may not join, or of other lanes. -/
theorem witness_PortBringup_miscabled :
    let q := (ports fun q => { greeted 0 q with partner := none }).dev.ports[(0 : PortId)]
    ({ hello with port := 2 } : Hello).port.toNat / 2 ≠ (0 : PortId).val / 2 ∧ ({ hello with port := 0 } : Hello).port.toNat = (0 : PortId).val ∧
      ({ hello with lanes := 8 } : Hello).lanes ≠ q.width ∧ q.retrained = false ∧
      (ports fun q => { greeted 0 q with retrained := true }).dev.ports[(0 : PortId)].retrained = true := by
  decide

theorem witness_PortBringup_echoes :
    (∀ n ∈ [0, 15], let s := ports (greeted n)
      s.hears 0 hdr 0 ∧ s.dev.ports[(0 : PortId)].echoes.length = n ∧ s.dev.ports[(0 : PortId)].partner ≠ none ∧
        s.dev.ports[(0 : PortId)].has 3 = true) ∧
    (let s := (ports fun q => { greeted 16 q with state := .identifying, identity := some ⟨true, 5, [], false⟩ }).onDev fun d =>
        { d with trust := { d.trust with idkValid := true } }
     s.hears 0 hdr 0 ∧ s.dev.trust.idkValid = true ∧ s.dev.ports[(0 : PortId)].identity = some ⟨true, 5, [], false⟩ ∧
       s.dev.ports[(0 : PortId)].has 3 = true ∧ (71 : Nat) < 72) := by
  unfold State.hears; decide

theorem witness_PortBringup_ends :
    (let s := ports (greeted 16)
     let q := s.dev.ports[(0 : PortId)]
     q.state = .negotiating ∧ q.partner = some hello ∧ q.echoes.length = 16 ∧ Device.helloAcked q = true ∧
       s.dev.trust.identReq = false ∧ hello.ident = false) ∧
    (let s := (ports fun q => { greeted 16 q with features := 0x17 }).onDev fun d =>
        { d with trust := { d.trust with latch := 3 <<< 78 } }
     s.dev.trust.identReq = true ∧ s.dev.ports[(0 : PortId)].has 3 = false) ∧ (ports (greeted 16)).dev.ports[(0 : PortId)].has 3 = true ∧
    (∀ x ∈ [(⟨true, 5, (List.range 72).map fun i => (i, []), false⟩ : Identity), ⟨false, 5, [], false⟩],
      let q := (ports fun q => { greeted 16 q with state := .identifying, identity := some x }).dev.ports[(0 : PortId)]
      q.state = .identifying ∧ q.partner = some hello ∧ q.identity = some x ∧ (x.required = true → x.parts.length = 72)) := by
  decide

/-- Which way identity goes is for the signature to say: the list of trusted keys is asked first. -/
theorem witness_PortBringup_unknown (p : PortId) (n : BitVec 256) (l : List (Nat × List Byte)) :
    (ports id).dev.identityHolds p ⟨true, n, l, false⟩ hello = false := rfl

/-- A flit kept for replay. -/
def kept_ (n : Seq) (naked : Bool) : Unacked := ⟨⟨2, 0, ⟨false, n, 0, 0, 0⟩, 0x3F000, List.replicate 240 1⟩, 2, naked, false, false⟩

/-- A port with flits to replay and one waiting. -/
def busy (q : Port) : Port :=
  { q with features := 0x1F, rateFb := false, tx := spared, rx := spared, unacked := [kept_ 8 true, kept_ 9 false]
           replaysSent := 1000000, room := 3744, queue := vset q.queue 0 [⟨2, 0x3F000, List.replicate 240 7, false⟩] }

theorem witness_PortFlits_received :
    (let s := ports busy
     let q := s.dev.ports[(0 : PortId)]
     s.hears 0 hdr 0 ∧ vget q.held 5 0 + 4 + q.outstanding 5 ≤ vget q.adv 5 0 ∧ vget q.adv 5 0 < vget q.held 5 0 + 100 ∧
       ((q.unacked.find? fun u => u.flit.hdr.seq = 9).any fun u => !u.replayed) = true ∧ q.talking = true ∧ hdr.ack = q.acked ∧
       hdr.ccount = 0 ∧ hdr.seq = q.expect) ∧
    (let q := (ports busy).dev.ports[(0 : PortId)]
     (⟨false, 9, 9, 0, 0⟩ : FlitHeader).seq ≠ q.expect ∧ behind q.expect 9 < 2048) ∧
    field (0x1A000 : BitVec 20) 12 8 ∉ controlTypes := by
  unfold State.hears; decide

theorem leNat_leBytes : ∀ n x, leNat (leBytes n x) = x % 256 ^ n
  | 0, x => by simp [leBytes, leNat, Nat.mod_one]
  | n + 1, x => by
    simp only [leBytes, leNat, leNat_leBytes n, BitVec.toNat_ofNat]
    have e : 256 ^ (n + 1) = 256 * 256 ^ n := by rw [Nat.pow_succ, Nat.mul_comm]
    rw [e, Nat.mod_mul]

theorem leBytes_length : ∀ n x, (leBytes n x).length = n
  | 0, _ => rfl
  | n + 1, x => by simp [leBytes, leBytes_length n]

/-- A flit that nothing damages holds its CRC; one whose CRC is inverted does not. -/
theorem image_holds (f : Flit) (x : W64) : crcHolds (Flit.image f x) = decide (x = 0) := by
  have hb : (Flit.body f).length = 248 := by simp [Flit.body, leBytes_length, padTo]; omega
  have h1 : (Flit.image f x).take 248 = Flit.body f := by rw [Flit.image, ← hb, List.take_left]
  have h2 : (Flit.image f x).drop 248 = leBytes 8 (crc64 (Flit.body f) ^^^ x).toNat := by rw [Flit.image, ← hb, List.drop_left]
  rw [crcHolds, h1, h2, List.take_of_length_le (by rw [leBytes_length]), leNat_leBytes,
    Nat.mod_eq_of_lt (by have := (crc64 (Flit.body f) ^^^ x).isLt; omega)]
  refine decide_eq_decide.2 ⟨fun h => ?_, fun h => by simp [h]⟩
  have h := BitVec.eq_of_toNat_eq h
  calc x = crc64 (Flit.body f) ^^^ (crc64 (Flit.body f) ^^^ x) := by rw [← BitVec.xor_assoc]; simp
    _ = 0 := by rw [h]; simp

/-- The check value of the CRC's parameters, of the digits 1 to 9. -/
theorem test_crc64 : crc64 [0x31, 0x32, 0x33, 0x34, 0x35, 0x36, 0x37, 0x38, 0x39] = 0x62EC_59E3_F1A4_F00A := by decide

/-- The payload of a SHIFT of team 3 comes in on VC1, of the leg of rank 0 to rank 1. -/
theorem witness_PortFlits_payload :
    let s := (member 1 (op fun o => { o with go := true, started := true, accept := some 4 }))
    let m := s.dev.team 0 3
    let p := s.dev.teamPort 0 3 true
    let tag : BitVec 20 := 3 * 2 ^ 14
    s.hears p hdr 1 ∧ s.dev.ports[p].linked = true ∧ s.dev.ports[p].missing = [] ∧ s.dev.ports[p].rxHeld = [] ∧ p = 1 ∧
      field tag 14 6 = 3 ∧ field tag 0 10 = 0 ∧ m.state = .active ∧ s.dev.legCrosses 0 3 (field tag 10 4) false = true ∧
      ((m.op.any fun o => o.go && !o.stopped && !o.land && ((o.inLeg m).any fun g => g.src = 0) && decide (o.gotBytes < o.inBytes m)) = true) ∧
      s.dev.soundRange 0x30000 240 ∧ s.dev.tally.armed = false := by
  unfold State.hears Device.soundRange Device.sound; decide

theorem witness_PortFlits_sent :
    (let q := (ports busy).dev.ports[(0 : PortId)]
     lanes q.tx.active ≠ 0 ∧ q.state ≠ .training ∧ (ports busy).dev.tally.armed = false ∧ q.talking = true ∧ 0 < q.room ∧ vget q.queue 0 [] ≠ [] ∧
       vget q.held 0 0 ≠ 0 ∧ q.unacked.length < 2048 ∧ q.sent0 < 256) ∧
    (let q := (ports fun q => { busy q with unacked := [], queue := Vector.replicate 6 [] }).dev.ports[(0 : PortId)]
     q.unacked = [] ∧ ∀ v, v < 6 → vget q.queue v [] = []) ∧
    (let q := (ports fun q => { busy q with state := .down }).dev.ports[(0 : PortId)]
     lanes q.tx.active ≠ 0 ∧ q.state ≠ .training ∧ q.talking = false) ∧
    ((ports busy).dev.preg (Page.port 0) 0x160).toNat + 1 < 2 ^ 32 := by
  decide

theorem witness_PortFlits_lost :
    (let s := ports busy
     let q := s.dev.ports[(0 : PortId)]
     q.linked = true ∧ (∃ u ∈ q.unacked, u.naked = true ∧ u.replayed = false ∧ 2 ≤ Device.since s.dev.now u.first) ∧ q.replayLog = [] ∧
       (s.dev.preg (Page.port 0) 0x128).toNat < q.replaysSent) ∧
    (let q := (ports fun q => { busy q with rx := ⟨0, none, true⟩ }).dev.ports[(0 : PortId)]
     q.linked = true ∧ lanes q.rx.active = 0) ∧
    (let q := (ports fun q => { busy q with quiet := true }).dev.ports[(0 : PortId)]
     q.linked = true ∧ q.quiet = true) ∧
    (ports fun q => { q with left := some 2 }).dev.ports[(0 : PortId)].left = some 2 := by
  decide

/-- A swap of lane 3 to the spare. -/
def swap (f : Frame) (lost : Bool) : Swap := ⟨3, 16, f, lost⟩

theorem witness_LaneSparing :
    (let s := ports busy
     let q := s.dev.ports[(0 : PortId)]
     s.hears 0 hdr 0 ∧ q.has 1 = true ∧ q.tx.spare = some 16 ∧ q.swapTx = none ∧ flag q.tx.active (3 : Fin 17) = true ∧
       q.linked = true ∧ flag q.rx.active (3 : Fin 17) = true ∧ q.swapRx = none ∧ q.rx.spare = some 16) ∧
    (let q := (ports fun q => { busy q with tx := spent, rx := spent }).dev.ports[(0 : PortId)]
     q.tx.spare = none ∧ flag q.tx.active (3 : Fin 17) = true) ∧
    (∀ l ∈ [false, true], let q := (ports fun q => { busy q with swapTx := some (swap 4 l), swapRx := some (swap 0 l) }).dev.ports[(0 : PortId)]
      q.swapTx = some (swap 4 l) ∧ q.swapRx = some (swap 0 l) ∧ (swap 4 l).lane = 3 ∧ (swap 4 l).lost = l) ∧
    (let s := ports fun q => { busy q with swapTx := some (swap 4 false) }
     s.dev.ports[(0 : PortId)].swapRx = none ∧ (swap 4 false).frame ≠ 0 ∧ (swap 4 false).frame.toNat ≤ s.dev.now.toNat ∧
       s.dev.inBoundary = false) ∧
    (let q := (ports fun q => { busy q with swapRx := some (swap 4 false) }).dev.ports[(0 : PortId)]
     q.swapRx = some (swap 4 false) ∧ q.swapTx = none) := by
  unfold State.hears; decide

/-- Symbols corrected in one frame that reach the threshold or not, and codewords lost in two frames. -/
theorem witness_LaneSparing_asks :
    let q := (ports busy).dev.ports[(0 : PortId)]
    let d := (ports busy).dev
    let r := fun n k => { q with fec := q.fec ++ [(d.now, 3, n, k)] }
    let n := (d.preg (Page.port 0) 0x124).toNat
    n < d.corrected (r (n + 1) 0) 3 ∧ ¬ (n < d.corrected (r n 1) 3 ∨ 2 ≤ d.codewordFrames (r n 1) 3) ∧
      2 ≤ d.codewordFrames { q with fec := [(4, 3, 0, 1), (d.now, 3, 0, 1)] } 3 := by
  decide

/-! ### Start-up, resets and the host's memory window -/

/-- An initialisation block in the host's SRAM of n lanes that leaves 4 channels out. -/
def initBlock (n : Nat) : State :=
  (inState .fwInit blank).onDev fun d => d.wrSram 0xC00000 (leBytes 4 n ++ leBytes 2 0x0100 ++ leBytes 2 0x0105 ++ leBytes 8 0xF)

theorem witness_StartUp_states :
    (inState .off blank).dev.boot.state = .off ∧ blank.dev.boot.state = .romWait ∧ blank.dev.boot.state ≠ .off ∧
    (inState .verify blank).dev.boot.state ≠ .romWait ∧ (inState .verify blank).dev.boot.state ≠ .off ∧
    (let s := blank.onDev fun d => { d with boot := { d.boot with timer := 0 } }
     s.dev.boot.state = .romWait ∧ s.dev.boot.timer = 0) ∧
    (lp6 blank).alive ∧ (true && (lp6 blank).dev.boot.fwRunning) = true ∧ (false && (lp6 blank).dev.boot.fwRunning) = false ∧
    ((lp6 blank).dev.preg Page.gatehouse 0x15C).toNat + 1 < 2 ^ 32 := by
  unfold State.alive; decide

theorem witness_StartUp_verify :
    let d := (inState .verify blank).dev
    d.boot.state = .verify ∧ ∃ c, d.bundleCheck (d.preg Page.gatehouse 0x10C).toNat = c ∧ c ≠ Status.done :=
  ⟨rfl, _, rfl, by decide⟩

theorem witness_StartUp_link :
    linkOk Reset.moduleDown Reset.moduleDown 1 = false ∧ linkOk { Reset.moduleDown with up := true } Reset.moduleDown 6 = true ∧
    linkOk { Reset.moduleDown with up := true } Reset.moduleDown 7 = false := by
  decide

/-- The firmware's range of ZHI versions is a free field of the state. -/
theorem witness_StartUp_versions (a b : BitVec 16) :
    ((initBlock 64).onDev fun d => { d with boot := { d.boot with fwMin := a, fwMax := b } }).dev.boot.fwMin = a ∧
    ((initBlock 64).onDev fun d => { d with boot := { d.boot with fwMin := a, fwMax := b } }).dev.initField 4 2 = (initBlock 64).dev.initField 4 2 :=
  ⟨rfl, rfl⟩

theorem witness_StartUp_init :
    (let d := (initBlock 63).dev
     d.boot.state = .fwInit ∧ d.initLegal = false) ∧
    (let d := (initBlock 64).dev
     d.boot.state = .fwInit ∧ d.initLegal = true ∧
     Device.zhiVersion (BitVec.ofNat 16 (d.initField 4 2)) (BitVec.ofNat 16 (d.initField 6 2)) 0x0200 0x0203 = none ∧
     Device.zhiVersion (BitVec.ofNat 16 (d.initField 4 2)) (BitVec.ofNat 16 (d.initField 6 2)) 0x0100 0x0103 = some 0x0103 ∧
     (finList 64).countP (fun k : Chan => k.val / 32 = 0 && d.mayTrain 0xF k && (([] : List (BitVec 2))[k.val]?).getD 3 ≠ 3) < 16 ∧
     (∀ y ∈ [0, 1], 16 ≤ (finList 64).countP fun k : Chan =>
        k.val / 32 = y && d.mayTrain 0xF k && (((List.replicate 64 0 : List (BitVec 2)))[k.val]?).getD 3 ≠ 3)) := by
  decide

theorem witness_Resets :
    (lp6 blank).dev.boot.state ≠ .off ∧ (inState .off blank).dev.boot.state = .off ∧ (0xA4 : BitVec 8) ≠ 0xA5 ∧
    pageAt (Page.frame.reg 0x100) = some Page.frame ∧ (Device.rowOf Page.frame ((Page.frame.reg 0x100) % 4096)).isSome = true := by
  decide

/-- The SHA-256 digest of 32 zero bytes. -/
def keyDigest : List Byte := beBytes 32 0x66687aadf862bd776c8fc18b8e9f8e20089714856ee233b3902a591d0d5f2925

theorem test_sha256 : Sha.sha256 [] = beBytes 32 0xe3b0c44298fc1c149afbf4c8996fb92427ae41e4649b934ca495991b7852b855 ∧
    Sha.sha256 (List.replicate 32 0) = keyDigest := by decide

/-- A boot image of three empty sections in VERIFY, with or without a rise of the rollback count; key slot 0 holds the
digest of its key, which is 0. -/
def image (svn : Nat) : State :=
  (inState .verify blank).onDev fun d =>
    let d := (d.setPreg Page.gatehouse 0x10C 8176).wrSram 0 ([0x5A, 0x42, 0x4E, 0x44, 0, 1, 0, BitVec.ofNat 8 svn] ++ leBytes 4 8176 ++ leBytes 4 0 ++ leBytes 4 svn ++
      List.replicate 44 0 ++ [1, 2, 3].flatMap fun t => leBytes 4 t ++ leBytes 4 0x140 ++ List.replicate 24 0)
    { d with trust := { d.trust with latch := BitVec.ofNat 8192 (leNat keyDigest * 2 ^ 192) } }

/-- The image passes where its signature does. -/
theorem image_passes (svn : Nat) (hs : svn = 0 ∨ svn = 1) :
    let d := (image svn).dev
    d.boot.state = .verify ∧ (d.preg Page.gatehouse 0x10C).toNat = 8176 ∧ (Slh.verify Slh.small (List.replicate 32 0) Device.imageContext (d.bundleDigest 8176) (d.rdSram 320 7856) = true →
      d.bundleCheck 8176 = Status.done) := by
  have e : ∀ n, n = 0 ∨ n = 1 → (image n).dev.boot.state = .verify ∧ (image n).dev.bundleFormed 8176 = true ∧
      ((image n).dev.trust.usable (image n).dev.keySlot && (image n).dev.trust.keyHash (image n).dev.keySlot = Sha.sha256 ((image n).dev.rdSram 0x20 32)) = true ∧
      (image n).dev.rdSram 0x20 32 = List.replicate 32 0 ∧ (image n).dev.bundle 0x018 8 = 0 ∧ (image n).dev.debugRaise = 0 ∧
      (image n).dev.bundleFlags.testBit 7 = false ∧ (image n).dev.bundleFlags.testBit 8 = false ∧ ¬ (image n).dev.svn < (image n).dev.trust.rollback := by
    rintro n (rfl | rfl) <;> decide
  obtain ⟨e0, e1, e2, e3, e4, e5, e6, e7, e8⟩ := e svn hs
  refine ⟨e0, by obtain rfl | rfl := hs <;> decide, fun h => ?_⟩
  unfold Device.bundleCheck
  dsimp only
  rw [e1, e2, e3]
  simp [e4, e5, e6, e7, e8]
  exact fun h' => absurd (h.symm.trans h') (by decide)

theorem witness_StartUp_fuses :
    (image 0).dev.fuseRequests 0 = [] ∧ (image 1).dev.fuseRequests 0 = [96] := by
  decide

/-! ### The host queues and their commands -/

/-- Queue q of the host. -/
def hostQueue (q : QueueId) (f : HostQueue → HostQueue) (s : State) : State :=
  s.onDev fun d => { d with queues := d.queues.set q (f d.queues[q]) }

/-- Queue 2 has 16 entries at 0x1000 and 16 completion entries at 0x8000, and one command waits. -/
def ring : State :=
  hostQueue 2 (fun h => { h with en := true, sqTail := 1, sqCount := 1, phase := true }) ((lp6 blank).onDev fun d =>
    ((d.setPreg (Page.hostq 2) 0x100 0x4400).setPreg (Page.hostq 2) 0x108 0x1000).setPreg (Page.hostq 2) 0x110 0x8000)

/-- A completion that waits for an entry. -/
def heldOne : State := hostQueue 2 (fun h => { h with held := [⟨3, 1, 5⟩], full := 16 }) ring

theorem witness_HostQueues :
    ring.dev.served = true ∧ ring.dev.queues[(2 : QueueId)].en = true ∧ ring.dev.queues[(2 : QueueId)].err = false ∧
    (15 : BitVec 12).toNat < ring.dev.sqSize 2 ∧ ring.dev.sqSize 2 ≤ (16 : BitVec 12).toNat ∧
    (let d := (hostQueue 2 (fun h => { h with en := false, draining := true }) ring).dev
     d.queues[(2 : QueueId)].en = false ∧ d.queues[(2 : QueueId)].draining = true ∧ d.queues[(2 : QueueId)].started = [] ∧
       d.queues[(2 : QueueId)].held = []) ∧
    (let ok := fun n : Nat => 4 ≤ n ∧ n ≤ 12
     (ok (field (0x4400 : W32) 12 4) ∧ ok (field (0x4400 : W32) 8 4)) ∧ ¬ (ok (field (0x3400 : W32) 12 4) ∧ ok (field (0x3400 : W32) 8 4))) ∧
    ring.dev.served = true ∧ (15 : BitVec 12).toNat < ring.dev.cqSize 2 ∧
    (let h := (hostQueue 2 (fun h => { h with full := 7, cqTail := 7 }) ring).dev.queues[(2 : QueueId)]
     h.held = [] ∧ h.en = true ∧ h.err = false ∧ (7 + 16 - h.cqHead) % 16 ≤ h.full ∧ h.full < (8 + 16 - h.cqHead) % 16) ∧
    (let h := heldOne.dev.queues[(2 : QueueId)]
     h.held = [⟨3, 1, 5⟩] ∧ h.full ≤ heldOne.dev.cqSize 2 ∧ 0 < (1 + 16 - h.cqHead) % 16 ∧ (1 + 16 - h.cqHead) % 16 ≤ h.full) ∧
    (hostQueue 2 (fun h => { h with en := false }) heldOne).dev.queues[(2 : QueueId)].held = [⟨3, 1, 5⟩] := by
  decide

/-- The command behind the head has been aborted; a doorbell of the old value means a full ring where it was empty, and on
the completion side where it was full. -/
theorem witness_HostQueues_full :
    (let h := (hostQueue 2 (fun h => { h with sqTail := 3, sqCount := 3, skipped := [1] }) ring).dev.queues[(2 : QueueId)]
     h.skipped = [1] ∧ 1 = (h.sqHead + 1) % ring.dev.sqSize 2 ∧ 2 ≤ h.sqCount ∧ ring.dev.sqSize 2 ≠ 1) ∧
    ring.dev.queues[(2 : QueueId)].skipped = [] ∧
    (let h := (hostQueue 2 (fun h => { h with sqTail := 0, sqCount := 0 }) ring).dev.queues[(2 : QueueId)]
     h.sqCount = 0 ∧ ((0 : BitVec 12).toNat + ring.dev.sqSize 2 - h.sqTail) % ring.dev.sqSize 2 = 0) ∧
    (let h := heldOne.dev.queues[(2 : QueueId)]
     ((0 : BitVec 12).toNat + heldOne.dev.cqSize 2 - h.cqHead) % heldOne.dev.cqSize 2 = 0 ∧ h.full = heldOne.dev.cqSize 2) := by
  decide

/-- The command in queue 2 has these words, the first with an identifier of 0x1234. -/
def commands (op : Nat) (l : List Nat) : State :=
  ring.onDev fun d => d.wrHost 0x1000 (((0x1234_0000 + op) :: l).flatMap fun w => leBytes 8 w)

def cmdWords (op : Nat) (l : List Nat) : List W64 := ((0x1234_0000 + op) :: l ++ List.replicate (7 - l.length) 0).map (BitVec.ofNat 64)

/-- The queue starts that command next. -/
def starts (s : State) (op : Nat) (l : List Nat) : Bool :=
  s.dev.nextCommand 2 = some (cmdWords op l) && Device.cmdLegal (cmdWords op l) && Device.opcode (cmdWords op l) = op &&
    s.dev.cmdAllowed op && decide (s.dev.queues[(2 : QueueId)].full < s.dev.cqSize 2)

theorem starts_commandNext {s : State} {op : Nat} {l : List Nat} (h : starts s op l = true) : s.commandNext 2 op (cmdWords op l) := by
  simpa [starts, State.commandNext, and_assoc] using h

theorem witness_HostCommands_1 : starts (commands 0 []) 0 [] = true ∧ starts (commands 1 [0x4000]) 1 [0x4000] = true ∧
    starts (commands 2 [0x4000, 100, 50]) 2 [0x4000, 100, 50] = true := by
  decide

theorem witness_HostCommands_illegal :
    let w := cmdWords 0x77 []
    (commands 0x77 []).dev.nextCommand 2 = some w ∧ Device.cmdLegal w = false ∧
      (commands 0x77 []).dev.queues[(2 : QueueId)].full < (commands 0x77 []).dev.cqSize 2 := by
  decide

/-- A DMA from the host that has started in queue 3, whose rings are at 0x10000 and 0x18000. -/
def dma : HostCmd := ⟨0x55, 0x10, (0x55_0010 :: [0x4000, 0x20000, 256, 0, 0, 0, 0]).map (BitVec.ofNat 64), .dma 1⟩

def aborts (cid : Nat) : State :=
  hostQueue 3 (fun h => { h with en := true, sqTail := 1, sqCount := 1, phase := true, started := [dma] }) ((commands 3 [cid * 0x10000 + 3]).onDev fun d =>
    ((d.setPreg (Page.hostq 3) 0x100 0x4400).setPreg (Page.hostq 3) 0x108 0x10000).setPreg (Page.hostq 3) 0x110 0x18000)

theorem witness_HostCommands_abort : (∀ c ∈ [0x55, 0x56], starts (aborts c) 3 [c * 0x10000 + 3] = true) ∧
    (let s := aborts 0x55
     let x := Device.cmdWord (cmdWords 3 [0x55_0003]) 1
     (3 : QueueId) = Fin.ofNat 16 (field x 0 4) ∧ (3 : QueueId) ≠ 2 ∧ s.dev.queues[(3 : QueueId)].started = [dma] ∧
       dma.cid.toNat = field x 16 16 ∧ dma.wait = .dma 1 ∧ dma.op = 0x10 ∧ s.dev.queues[(3 : QueueId)].held = [] ∧
       s.dev.queues[(3 : QueueId)].full < s.dev.cqSize 3 ∧ s.dev.cqBase 2 + 16 * s.dev.queues[(2 : QueueId)].cqTail + 16 ≤ s.dev.cqBase 3) ∧
    (let s := aborts 0x56
     ∀ c ∈ s.dev.queues[(3 : QueueId)].started, ¬ c.cid.toNat = field (Device.cmdWord (cmdWords 3 [0x56_0003]) 1) 16 16) := by
  decide

/-- The command that waits in queue 3 has CID 0x56; 256 bytes are its whole, 4 are not; and no such command waits. -/
theorem witness_HostCommands_abort_submitted :
    (let s := (aborts 0x56).onDev fun d => d.wrHost 0x10000 (leBytes 8 0x56_0000)
     (∀ c ∈ s.dev.queues[(3 : QueueId)].started, ¬ c.cid.toNat = 0x56) ∧ s.dev.submitted 3 0x56 = some 0 ∧
       starts s 3 [0x56_0003] = true) ∧
    (let s := aborts 0x55
     let n := (Device.cmdWord dma.words 3).toNat
     4 < n ∧ n ≤ 256 ∧ s.dev.soundRange (field (Device.cmdWord dma.words 2) 0 48) n ∧ s.dev.tally.armed = false) ∧
    ((aborts 0x56).dev.takeCmd 2).submitted 3 0x56 = none := by
  unfold Device.soundRange Device.sound; decide

/-- DMA of mapped and unmapped bytes and of a count that is no multiple of 4. -/
theorem witness_HostCommands_dma :
    (∀ op ∈ [0x10, 0x11], ∀ l ∈ ([[0x4000, 0x20000, 256], [0x4000, 2 ^ 40, 256], [0x4000, 0x20000, 255]] : List (List Nat)),
      starts (commands op l) op l = true) ∧ (commands 0x10 []).dev.freeEngine = some 0 ∧
    (commands 0x10 []).dev.mapped 0x20000 256 = true ∧ (commands 0x10 []).dev.mapped (2 ^ 40) 256 = false := by
  decide

/-- Stall 5 with or without a running primary slot. -/
def stall5 (on : Bool) (s : State) : State := s.onDev fun d => d.modCtx 5 .primary fun c => { c with running := on }

theorem witness_HostCommands_load :
    (let l := [0x20000, 5 + 8 * 0x10000, 64]
     ∀ b ∈ [false, true], starts (stall5 b (commands 0x20 l)) 0x20 l = true ∧
       (stall5 b (commands 0x20 l)).dev.stallRuns (Fin.ofNat 384 (field (5 + 8 * 0x10000 : W64) 0 9)) = b ∧
       (stall5 b (commands 0x20 l)).dev.freeEngine ≠ none ∧ (stall5 b (commands 0x20 l)).dev.mapped 0x20000 64 = true) ∧
    starts (commands 0x20 [0x20000, 400, 64]) 0x20 [0x20000, 400, 64] = true := by
  decide

theorem witness_HostCommands_stalls :
    (∀ b ∈ [false, true], ∀ l ∈ ([[5 + 0x100_0000], [0x1_0000 + 5], [400]] : List (List Nat)),
      starts (stall5 b (commands 0x21 l)) 0x21 l = true) ∧
    (∀ b ∈ [false, true], ∀ l ∈ ([[5], [400]] : List (List Nat)), starts (stall5 b (commands 0x22 l)) 0x22 l = true) ∧
    (∀ b ∈ [false, true], ((stall5 b (commands 0x22 [5])).dev.ctx 5 .primary).running = b ∧
      (stall5 b (commands 0x21 [5])).dev.paddockEn 5 = false) := by
  decide

theorem witness_HostCommands_firmware :
    (∀ n ∈ [0, 7], starts (commands 0x40 [n]) 0x40 [n] = true) ∧
    (∀ n ∈ [3, 1025], starts (commands 0x41 [0x5000, n]) 0x41 [0x5000, n] = true) ∧
    starts (commands 0x48 [0, 0x10000, 1, 2, 3, 4]) 0x48 [0, 0x10000, 1, 2, 3, 4] = true ∧
    starts (commands 0x48 [0x501, 0, 1, 2, 3, 4]) 0x48 [0x501, 0, 1, 2, 3, 4] = true ∧
    (let s := (commands 0x48 []).onDev fun d => { d with trust := { d.trust with idkValid := true } }
     s.dev.trust.idkValid = true ∧ s.dev.trust.jobs = [] ∧ s.dev.trust.capture = none ∧
       ∀ c ∈ s.dev.queues[(2 : QueueId)].started, c.wait ≠ .signing) ∧
    (commands 0x48 []).dev.trust.idkValid = false := by
  decide

theorem witness_HostCommands_signing :
    let c : HostCmd := ⟨0x77, 0x48, (0x77_0048 :: [0, 0x10000, 1, 2, 3, 4, 0]).map (BitVec.ofNat 64), .signing⟩
    let s := (hostQueue 2 (fun h => { h with started := [c] }) ring).onDev fun d =>
      { d with trust := { d.trust with capture := some [1, 2, 3], jobs := [.report 2 0x77] } }
    s.dev.trust.capture = some [1, 2, 3] ∧ s.dev.trust.jobs = [.report 2 c.cid] ∧
      (s.dev.queues[(2 : QueueId)].started.find? fun h => h.cid = c.cid && h.wait = .signing) = some c ∧
      s.dev.queues[(2 : QueueId)].held = [] ∧ s.dev.queues[(2 : QueueId)].full < s.dev.cqSize 2 ∧
      s.dev.cqBase 2 + 16 * s.dev.queues[(2 : QueueId)].cqTail + 16 ≤ (Device.cmdWord c.words 2).toNat := by
  decide

/-! ### The memory BAR, data commands, and commands for a drover or a Forge -/

/-- The data command of opcode op is on engine 1. -/
def onEngine1 (op : Nat) (l : List Nat) : State :=
  hostQueue 2 (fun h => { h with started := [⟨0x55, BitVec.ofNat 8 op, ((0x55_0000 + op) :: l).map (BitVec.ofNat 64), .dma 1⟩] }) ring

theorem witness_HostTransfers_data :
    (let d := (lp6 blank).dev
     let a := (d.preg Page.device 0x120).toNat + d.pfield Page.device 0x124 0 16 * 2 ^ 32 + (0x20000 : BitVec 38).toNat
     let b := (d.preg Page.device 0x120).toNat + d.pfield Page.device 0x124 0 16 * 2 ^ 32 + (0x3F_FFFF_FFFF : BitVec 38).toNat
     d.serving = true ∧ d.mapped a 4 = true ∧ d.soundRange a 4 ∧ d.tally.armed = false ∧ d.mapped b 4 = false) ∧
    blank.dev.serving = false ∧ (lp6 blank).dev.onEngine 1 = none ∧
    (∀ x ∈ ([(0x10, [0x4000, 0x20000, 16]), (0x11, [0x4000, 0x20000, 16]), (0x20, [0x20000, 5 + 8 * 0x10000, 64])] : List (Nat × List Nat)),
      let d := (onEngine1 x.1 x.2).dev
      d.onEngine 1 = some (2, ⟨0x55, BitVec.ofNat 8 x.1, ((0x55_0000 + x.1) :: x.2).map (BitVec.ofNat 64), .dma 1⟩) ∧
        d.queues[(2 : QueueId)].held = [] ∧ d.queues[(2 : QueueId)].full < d.cqSize 2 ∧
        d.soundRange 0x20000 64 ∧ d.tally.armed = false ∧ d.stallRuns 5 = false ∧
        0x4000 + 16 ≤ d.cqBase 2 + 16 * d.queues[(2 : QueueId)].cqTail) := by
  unfold Device.soundRange Device.sound; decide

/-- A team record of axis 0 on VC 1 whose legs need frames, at 0x30000. -/
def teamRecord (s : State) : State := s.onDev fun d => d.wrBytes 0x30000
  ([0x77_0003_0108, 2400 + 2400 * 2 ^ 32, 10000 + 10000 * 2 ^ 32, 5 * 2 ^ 32 + 3, 0, 0, 0, 0].flatMap fun w => leBytes 8 w)

theorem witness_HostTransfers_team :
    (let s := teamRecord (commands 0x30 [0x30000, 3, 9])
     starts s 0x30 [0x30000, 3, 9] = true ∧ s.dev.txnHeld 1 = false ∧ s.dev.serving = true ∧
       (∀ p : QueueId, s.dev.queues[p].started = []) ∧ s.dev.now.toNat < (9 : Frame).toNat ∧
       (s.dev.team 0 3).state = .free ∧ 2 ≤ Device.since 9 s.dev.now ∧ Device.since 9 s.dev.now ≤ 65536 ∧
       (s.dev.teamBookings 0 0x30000).2 ≠ [] ∧ ∀ b ∈ (s.dev.teamBookings 0 0x30000).2, b.1.base ∉ s.dev.banks[(0 : Fin 2)].pages) ∧
    (let s := commands 0x30 [0x30004, 3, 9]
     starts s 0x30 [0x30004, 3, 9] = true ∧ (s.dev.teamBookings 0 0x30004).2 = []) ∧
    (let s := (commands 0x30 [0x30000, 3, 9]).onDev fun d => { d with banks := d.banks.set 1 { d.banks[1] with state := .opened } }
     starts s 0x30 [0x30000, 3, 9] = true ∧ s.dev.txnHeld 1 = true) ∧
    (let s := commands 0x31 [0, 3, 9]
     starts s 0x31 [0, 3, 9] = true ∧ field (3 : W64) 6 2 < 2 ∧ s.dev.now.toNat < (9 : Frame).toNat) := by
  decide

theorem witness_HostTransfers_template :
    (∀ op ∈ [0x38, 0x39], let s := commands op [if op = 0x38 then 0x60000 else 0, 18]
      starts s op [if op = 0x38 then 0x60000 else 0, 18] = true ∧ s.dev.templateUsed 1 2 = false ∧
        (s.onDev fun d => { d with forges := d.forges.set 1 { d.forges[1] with ret := d.forges[1].ret.set 0 { Reset.retention with used := true, tslot := 2 } } }).dev.templateUsed 1 2 = true) ∧
    (∀ p : QueueId, ∀ c ∈ (commands 0x39 []).dev.queues[p].started, c.wait ≠ .template 1 2) ∧
    (2 : Fin 16).val = field (18 : W64) 0 4 ∧ (1 : Yard).val = field (18 : W64) 4 1 := by
  decide

/-! ### Registers and transactions -/

/-- The access code of a register. -/
def accessOf (p : Page) (o : Nat) : Option Access := (Device.rowOf p o).map RegRow.acc

/-- BAR offset of a register of port 2. -/
def port2 (o : Nat) : BitVec 26 := BitVec.ofNat 26 ((Page.port 2).reg o)

/-- Bank w is in state x over the pages of the tick unit and port 2, with a shadow. -/
def bank (w : Fin 2) (x : TxnState) (target : Frame) (shadow : List (Nat × W32)) (s : State) : State :=
  s.onDev fun d => { d with banks := d.banks.set w { d.banks[w] with
    state := x, pages := [Page.frame.base, (Page.port 2).base], shadow := shadow, target := target, id := 5, opened := d.now
    timeout := 16, count := 4 } }

theorem witness_Registers :
    (∀ o ∈ [0x01C, 0x100, 0x104, 0x160], (lp6 blank).dev.livePage (port2 o).toNat = some (Page.port 2) ∧ (port2 o).toNat % 4 = 0 ∧
      (port2 o).toNat % 4096 = o) ∧ (port2 0x101).toNat % 4 ≠ 0 ∧ (lp6 blank).dev.livePage (port2 0x101).toNat = some (Page.port 2) ∧
    (port2 0x100).toNat % 8 = 0 ∧ ¬ ((4 : Nat) = 4 ∧ (port2 0x101).toNat % 4 = 0) ∧ ¬ ((8 : Nat) = 8 ∧ (port2 0x104).toNat % 8 = 0) ∧
    accessOf (Page.port 2) 0x01C = some .rw ∧ accessOf (Page.port 2) 0x100 = some .rwt ∧ accessOf (Page.port 2) 0x104 = some .ro ∧
    accessOf (Page.port 2) 0x160 = some .rc ∧ accessOf Page.tally 0x124 = some .rc ∧
    (lp6 blank).dev.livePage (Page.tally.reg 0x124) = some Page.tally ∧
    (∀ w : Fin 2, let d := (bank w .opened 9 [] (lp6 blank)).dev
      d.boot.state ≠ .safe ∧ (∀ i : Fin 2, d.timedOut i = false) ∧ d.banks[w].state = .opened ∧ (Page.port 2).base ∈ d.banks[w].pages) ∧
    (lp6 blank).dev.banks[(0 : Fin 2)].state ≠ .opened := by
  decide

theorem witness_Registers_errors :
    (0x8000_0002 : W32) &&& 0xC000_FFFE ≠ 0 ∧ (1 : W32) &&& 0xC000_FFFE = 0 ∧ (lp6 blank).dev.preg (Page.port 2) 0x018 = 0 ∧
    ((lp6 blank).onDev fun d => d.setPreg (Page.port 2) 0x018 4).dev.preg (Page.port 2) 0x018 ≠ 0 := by
  decide

theorem witness_Registers_mirror :
    (∀ x ∈ ([(0x130, 0x06, false), (0x134, 0x06, true), (0x100, 0x00, false)] : List (Nat × Nat × Bool)),
      Device.mirrorAt x.1 = some (.primary, x.2.1, x.2.2) ∧ crReserved x.2.1 = false) ∧ crReadOnly 0x06 = false ∧ crReadOnly 0 = true ∧
    (lp6 blank).dev.served = true ∧ ((lp6 blank).dev.ctx 5 .primary).running = false ∧
    ((lp6 (two 0 0)).dev.ctx 0 .primary).running = true ∧
    (lp6 blank).dev.crRead 5 .primary 0x06 = ((lp6 blank).dev.ctx 5 .primary).getCr 0x06 := by
  decide

/-- The firmware's bank sees no command that waits. -/
theorem witness_Transactions_open (w : Fin 2) :
    let s := bank w .opened 9 [] (lp6 blank)
    s.dev.served = true ∧ (∀ i : Fin 2, s.dev.timedOut i = false) ∧ s.dev.txnHeld w = true ∧ s.dev.txnHeld (1 - w) = false ∧ s.dev.banks[w].state = .opened ∧ s.dev.banks[w].id = 5 ∧
      (∀ p : QueueId, s.dev.queues[p].started = []) ∧ pageAt Page.gatehouse.base = some Page.gatehouse ∧ Page.gatehouse.kind.hasTxn = false ∧
      pageAt Page.frame.base = some Page.frame ∧ Page.frame.kind.hasTxn = true ∧ Page.frame.base ∉ s.dev.banks[1 - w].pages ∧
      Page.frame.base ∈ s.dev.banks[w].pages ∧ s.dev.banks[1 - w].state ≠ .opened ∧ (6 : BitVec 16) ≠ s.dev.banks[w].id ∧
      s.dev.banks[w].timeout ≤ Device.since (inFrame 30 s).dev.now s.dev.banks[w].opened := by
  revert w; decide

theorem witness_Transactions_commit (w : Fin 2) :
    (let s := (bank w .opened 9 [] (inFrame 5 (lp6 blank))).onDev fun d => (d.setPreg Page.txc 0x108 8).setPreg Page.txc 0x148 8
     s.dev.banks[w].state = .opened ∧ 2 ≤ Device.since (s.dev.txnTarget w) s.dev.now ∧ Device.since (s.dev.txnTarget w) s.dev.now ≤ 65536) ∧
    (let s := bank w .opened 9 [] (inFrame 5 (lp6 blank))
     65536 < Device.since (s.dev.txnTarget w) s.dev.now) ∧
    (let s := bank w .pending 9 [] (inFrame 5 (lp6 blank))
     s.dev.banks[w].state = .pending ∧ s.dev.banks[w].target ≠ s.dev.now) ∧
    (let s := bank w .applied 5 [] (inFrame 5 (lp6 blank))
     s.dev.banks[w].state ≠ .opened ∧ s.dev.banks[w].state ≠ .pending ∧ s.dev.banks[w].state ≠ .idle) := by
  revert w; decide

/-- The boundary's step 6 at which a transaction is due. -/
def dueNow (shadow : List (Nat × W32)) : State :=
  (bank 0 .pending 5 shadow (inFrame 5 (lp6 blank))).onDev fun d => { d with atStep6 := true }

theorem witness_Transactions_apply :
    (let s := dueNow [(Page.power.reg 0x100, 0x0200_0200)]
     s.dev.txnDue 0 = true ∧ s.dev.boot.state ≠ .safe ∧ s.dev.commitFailure 0 = none ∧ (s.dev.banks[(0 : Fin 2)].shadow.map Prod.fst).Nodup ∧
       ∀ x ∈ s.dev.banks[(0 : Fin 2)].shadow, (pageAt x.1).isSome = true ∧ accessOf Page.power (x.1 % 4096) = some .rwt) ∧
    (let s := dueNow [((Page.port 2).reg 0x140, 0xFFFF)]
     s.dev.txnDue 0 = true ∧ s.dev.commitFailure 0 ≠ none) := by
  decide

/-! ### Tallies and built-in self-test -/

/-- The audit unit changed by f. -/
def audited (f : TallyUnit → TallyUnit) (s : State) : State := s.onDev fun d => { d with tally := f d.tally }

/-- The debug level of the fuses. -/
def levelled (n : Nat) (s : State) : State :=
  s.onDev fun d => { d with trust := { d.trust with latch := d.trust.latch ||| BitVec.ofNat 8192 (n <<< 72) } }

theorem witness_Tallies :
    (lp6 blank).dev.serving = true ∧ field (5 : W32) 0 9 ≤ 383 ∧ ((lp6 blank).dev.ctx 5 .primary).running = false ∧
    383 < field (400 : W32) 0 9 ∧ (lp6 blank).dev.served = true ∧ blank.dev.served = false ∧ (lp6 blank).dev.trust.debugLevel = 0 ∧
    (levelled 1 (lp6 blank)).dev.trust.debugLevel ≠ 0 ∧
    (flag (0x8000_0003 : W32) 31 = true ∧ (lp6 blank).dev.boot.state = .ready ∧ (lp6 blank).dev.injectable 0x8000_0003 = true) ∧
    (lp6 blank).dev.tally.armed = false ∧ (lp6 blank).dev.tally.adjDue = false ∧
    (let y := (audited (fun y => { y with armed := true, hit := true }) blank).dev.tally
     y.armed = true ∧ y.hit = true) := by
  decide

/-- An adjustment of the first tally of kind 1. -/
def adjusting (x : W32) : State :=
  audited (fun y => { y with adjDue := true }) (blank.onDev fun d => (d.setPreg Page.tally 0x134 0x0100_0000).setPreg Page.tally 0x138 x)

theorem witness_Tallies_adjust (x : W32) (h : x = 3 ∨ x = 0x1_FFFF ∨ x = 0x2_0005) :
    (adjusting x).dev.tally.adjDue = true ∧ (adjusting x).dev.preg Page.tally 0x134 = 0x0100_0000 ∧
      (adjusting x).dev.preg Page.tally 0x138 = x ∧ 0 < tallyCount 1 ∧ (adjusting x).dev.tallyCounts 1 0 = some ⟨64, 64, 0, 0⟩ := by
  obtain rfl | rfl | rfl := h <;> exact ⟨rfl, by decide, by decide, by decide, by decide⟩

theorem witness_Tallies_balance : (⟨64, 64, 0, 0⟩ : Counts).balanced = true ∧ (⟨5, 1, 2, 3⟩ : Counts).balanced = false := by
  decide

/-- BIST_CTL and BIST_UNITS. -/
def testing (ctl units : W32) (s : State) : State := s.onDev fun d => (d.setPreg Page.bist 0x100 ctl).setPreg Page.bist 0x104 units

/-- A run in progress. -/
def run (todo : List Nat) (lp6 failed : Bool) (phase : Nat) : BistRun := ⟨.ready, 0, true, lp6, 2, 0xFF, 0xF, 0, todo, 0, 0, phase, failed, []⟩

def tested (r : BistRun) (s : State) : State :=
  s.onDev fun d => { d with bist := { d.bist with run := some r }, boot := { d.boot with state := .bist } }

theorem witness_SelfTest_start :
    (testing 4 7 (lp6 blank)).dev.served = true ∧ (testing 4 7 (lp6 blank)).dev.bistCheck = none ∧
    (testing 4 7 blank).dev.served = false ∧ (testing 4 7 blank).dev.bistCheck = none ∧
    (testing 3 7 (lp6 blank)).dev.bistCheck = some Status.stateInvalid ∧
    (testing 3 7 blank).dev.bistCheck = some Status.stateInvalid ∧ field ((testing 3 7 blank).dev.preg Page.bist 0x100) 0 2 = 3 ∧
    (let d := (testing 0xC 7 blank).dev
     d.boot.state = .romWait ∧ flag (d.preg Page.bist 0x100) 3 = true) ∧
    ((testing 4 7 (tested (run [] false false 1) blank)).dev.boot.state ≠ .romWait ∧
      (testing 4 7 (tested (run [] false false 1) blank)).dev.boot.state ≠ .ready) ∧
    (let d := (testing 4 0 blank).dev
     d.preg Page.bist 0x104 = 0 ∧ d.bistChans = 0) := by
  decide

theorem witness_SelfTest_round :
    (let s := tested (run [0, 1, 2, 24] true false 1) (lp6 blank)
     let f : BistFault := ⟨0, 0, 0, 0, false, 1, 0, 0, false⟩
     s.dev.bist.run = some (run [0, 1, 2, 24] true false 1) ∧ (run [0, 1, 2, 24] true false 1).todo ≠ [] ∧
       (run [0, 1, 2, 24] true false 1).ready ≤ s.dev.now ∧ (∀ y : Yard, s.dev.yards[y].level < 2) ∧
       s.dev.reported (run [0, 1, 2, 24] true false 1) ([0, 1, 2, 24].take (run [0, 1, 2, 24] true false 1).maxUnits) f = true ∧ Device.faultWord f ∉ (run [0, 1, 2, 24] true false 1).seen ∧
       s.dev.bist.log.length < 256) ∧
    (blank.dev.now < ({ run [1] true false 1 with ready := 9 } : BistRun).ready) ∧
    2 ≤ (blank.onDev fun d => { d with yards := d.yards.set 0 { d.yards[0] with level := 2 } }).dev.yards[(0 : Yard)].level ∧
    256 ≤ (blank.onDev fun d => { d with bist := { d.bist with log := List.replicate 256 (Vector.replicate 4 0) } }).dev.bist.log.length := by
  decide

/-- The LP6 phase: rails and clocks within the limits, or not. -/
theorem witness_SelfTest_lp6 :
    (let r := run [] true false 1
     let s := (tested r (lp6 blank)).onDev fun d => { d with
       pwr := { d.pwr with rails := [(750, 0), (750, 0), (0, 0), (0, 0), (0, 0), (500, 0), (1800, 0)] }
       yards := Vector.ofFn fun y => { d.yards[y] with mhz := 1400 } }
     s.dev.bist.run = some r ∧ r.todo = [] ∧ r.ready ≤ s.dev.now ∧ r.lp6 = true ∧ r.phase ≠ 3 ∧ s.dev.lp6Conditions r.chans = true ∧
       s.dev.boot.memCapacity ≤ loftBase) ∧
    (tested (run [] true false 1) (lp6 blank)).dev.lp6Conditions 0 = false ∧
    ((run [] false false 1).lp6 = false ∧ (run [] false false 1).failed = false ∧ (run [] true true 3).phase = 3 ∧
      (run [] true true 3).failed = true) ∧ (tested (run [] true true 3) (lp6 blank)).alive ∧
    (lp6 blank).dev.bist.run = none ∧ (lp6 blank).dev.served = true ∧ (tested (run [] true true 3) (lp6 blank)).dev.served = true := by
  unfold State.alive; decide

/-! ### Power, the sideband and the test port -/

/-- The power unit of yard 0 changed by f. -/
def powered (f : YardPower → YardPower) : State := (lp6 blank).onDev fun d => { d with yards := d.yards.set 0 (f d.yards[0]) }

theorem witness_PowerAndSideband :
    (let p := (powered fun y => { y with busy := true }).dev.yards[(0 : Yard)]
     p.busy = true ∧ p.raise = none) ∧
    (let p := (powered fun y => { y with busy := true, raise := some (700, 1200) }).dev.yards[(0 : Yard)]
     p.busy = true ∧ p.raise = some (700, 1200) ∧ p.retry = false) ∧
    (powered id).dev.yards[(0 : Yard)].busy = false ∧ (powered id).dev.yards[(0 : Yard)].raise = none ∧
    (powered id).alive ∧ 100 * 0 < 1000 * min 720 720 * (100 - 2) ∧
    (¬ (100 * 740000 < 1000 * min 720 755 * (100 - 2) ∨ 1000 * max 720 755 * (100 + 2) < 100 * 740000)) ∧ (inState .off blank).dev.boot.state = .off ∧ (0x3C : BitVec 8) ≠ 0xC3 ∧ ∀ c : Chan, (lp6 blank).dev.mc[c].level < 4 := by
  unfold State.alive; decide

/-- A token that names key slot 1. -/
def token (n : BitVec 256) : DebugToken := ⟨0x4742_445A, 0x0100, 1, 0, n, 5, 0, []⟩

/-- A part at debug level 1 with rights, which verifies a token. -/
def locked (r : BitVec 3) : State :=
  levelled 1 (blank.onDev fun d => { d with trust := { d.trust with nonce := some 7, verifying := some (token 9), rights := r } })

theorem witness_TestPort :
    blank.dev.boot.state ≠ .off ∧ blank.dev.tap.trst = false ∧ blank.dev.boot.state = .romWait ∧ ¬ ((lp6 blank).dev.boot.state = .romWait ∨ (lp6 blank).dev.boot.state = .safe) ∧
    (locked 0).dev.trust.debugLevel = 1 ∧ blank.dev.trust.debugLevel = 0 ∧ blank.dev.trust.verifying = none ∧
    (locked 0).dev.trust.verifying = some (token 9) ∧ (locked 0).dev.trust.nonce ≠ some (token 9).nonce ∧
    (∀ i ∈ [0, 1, 2], flag (locked 7).dev.trust.rights i = true ∧ flag (locked 0).dev.trust.rights i = false) ∧
    blank.dev.trust.scanLock = false ∧ 0x100_0000 ≤ (0x100_0004 : BitVec 26).toNat / 4 * 4 ∧ (0x100_0004 : BitVec 26).toNat / 4 * 4 < 0x200_0000 ∧
    ¬ (0x100_0000 ≤ (port2 0x100).toNat / 4 * 4) := by
  decide

theorem witness_TestPort_page : pageAt 0x4100 = some Page.device ∧ blank.dev.pageServed Page.device = true ∧
    pageAt 0x9104 = some Page.bist ∧ blank.dev.pageServed Page.bist = false ∧
    blank.dev.bistCheck = some Status.stateInvalid := by
  decide

/-- TZ_TRST_N low holds the TAP; a code that no row lists is refused at level 0 too. -/
theorem test_tap_held : (nx (exec .bypass (nx (exec .tapReset blank)))).dev.tap.ir = 0x02 := by decide
theorem test_tap_unlisted : (nx (exec (.dbgAccess 0 (.unlisted 0x50)) blank)).dev.tap.code = Status.debugLocked := by decide

/-- The check value of CRC-8 over the digits 1 to 9 (SMBus). -/
theorem test_pec : Device.pec [0x31, 0x32, 0x33, 0x34, 0x35, 0x36, 0x37, 0x38, 0x39] = 0xF4 := by decide

/-- A read that follows reads never turns the channel round (R310). -/
theorem test_reads_never_turn : ∀ turn, (Batch.take ⟨some false, 160, 0⟩ false turn).2 = false := by decide

/-- The test port reaches the self-test's page in ROM_WAIT (R561). -/
theorem test_dbg_bist : (nx (exec (.dbgAccess 0x9104 (.write 3)) blank)).dev.preg Page.bist 0x104 = 3 := by decide

/-- A token holds where its signature does. -/
theorem witness_TestPort_token :
    let k := { token 7 with keySlot := 0, deviceId := 0 }
    let s := levelled 1 ((image 0).onDev fun d => { d with trust := { d.trust with nonce := some 7, verifying := some k } })
    s.dev.trust.verifying = some k ∧
      (Slh.verify Slh.small (Trust.keyBytes k.pubkey) Device.debugContext (Device.tokenBytes k) k.signature = true → s.dev.tokenHolds k = true) := by
  refine ⟨rfl, fun h => ?_⟩
  unfold Device.tokenHolds
  dsimp only
  rw [h]
  decide

/-! ### The whole block -/

theorem witness_StepRunsFront :
    State.reset.pending = [] ∧ ∃ t, step { blank with pending := [.bypass, .bypass] } = .next t := ⟨rfl, _, rfl⟩

/-! ### Ill-formed commands are refused -/

/-- A boundary's samples with n sensors. -/
def samples (n : Nat) : BoundaryInput := { Reset.env with temps := List.replicate n 40, power := [1, 2, 3, 4], rails := List.replicate 7 (1, 1) }

theorem test_wellFormed_lengths :
    (samples 34).ok = true ∧ (samples 33).ok = false ∧
    payloadOk (List.replicate 240 0) = true ∧ payloadOk (List.replicate 239 0) = false ∧
    nakOk [1] = true ∧ nakOk [] = false ∧ nakOk (List.replicate 17 1) = false ∧
    creditOk [(5, 511)] = true ∧ creditOk [(6, 1)] = false ∧ creditOk [(0, 512)] = false ∧
    partOk 71 [1] = true ∧ partOk 72 [1] = false ∧
    FwInitInput.ok ⟨List.replicate 64 0⟩ = true ∧ FwInitInput.ok ⟨[]⟩ = false ∧
    VerifyInput.ok ⟨[8191], 0, 0⟩ = true ∧ VerifyInput.ok ⟨[8192], 0, 0⟩ = false ∧ (token 0).ok = false := by
  decide

theorem test_wellFormed_commands :
    (Instr.dataFlit 0 hdr ⟨0, 0, []⟩ 0 (List.replicate 240 0)).ok = false ∧ (Instr.dataFlit 0 hdr ⟨0, 6, []⟩ 0 (List.replicate 240 0)).ok = true ∧
    (Instr.dataFlit 0 hdr ⟨1, 5, []⟩ 0 (List.replicate 240 0)).ok = true ∧
    (Instr.dataFlit 0 hdr ⟨1, 5, []⟩ 0 [0]).ok = false ∧ (Instr.damagedFlit ⟨0, [0]⟩).ok = false ∧
    (Instr.damagedFlit ⟨0, List.replicate 256 0⟩).ok = true ∧
    (Instr.hostLinkUp Reset.moduleDown Reset.moduleDown 1).ok = false ∧
    (Instr.memoryBarAccess 0 (.write (List.replicate 513 0))).ok = false ∧ (Instr.memoryBarAccess 0 (.write (List.replicate 512 0))).ok = true ∧
    (Instr.memoryBarAccess 0 (.read 4097)).ok = false ∧ (Instr.memoryBarAccess 0 (.write [])).ok = false ∧
    (Instr.memoryBarAccess 0 (.read 4096)).ok = true ∧ (Instr.sqTail 0 0 [(2 ^ 64, 0)]).ok = false ∧
    (Instr.registerWrite .host 0 3 0).ok = false ∧ (Instr.registerWrite .host 0 4 0).ok = true := by
  decide

/-- R344: six credit values. -/
theorem test_wellFormed_ports (h : Hello) :
    Hello.ok { h with credAdv := [1, 2, 3, 4, 5] } = false ∧ Hello.ok { h with credAdv := [1, 2, 3, 4, 5, 6] } = true := by
  refine ⟨rfl, rfl⟩

/-! ### Values from the manual's worked examples -/

/-- Locating stall 205 (chapter 0). -/
theorem test_loft_of_stall_205 : loftDpa 205 0 = 0x8000_3340_0000 := by decide

/-- All channels but those listed are in service. -/
def without (l : List Nat) : Device :=
  ((lp6 blank).onDev fun d => { d with
    boot := { d.boot with memSplit := 2 ^ 39 }
    mc := Vector.ofFn fun i : Fin 64 => { d.mc[i] with serviceIdx := if i.val ∈ l then 0xFF else BitVec.ofNat 8 (i.val % 32) } }).dev

/-- One DPA before and after the map-out of channel 5 (chapter 9). -/
theorem test_place : (without []).place 0x1234_5800 = (31, 0x91_A000) ∧ (without [5]).place 0x1234_5800 = (27, 0x96_5000) := by decide

/-- A bit that no sticky keeps (chapter 6): the entry becomes 200,704.0. -/
theorem test_lane_cycle :
    let v := fun l : List Nat => (l ++ List.replicate (32 - l.length) 0).map (Tile.value 4 false)
    Lane.shortCycle 0 (v [0x7E, 0x35, 0x8A, 0x20]) (v [0x7E, 0x04, 0x08, 0x08]) 0 = (0x4844_0000, 0, 0) := by
  decide

/-- One block of the ocean closure (chapter 5): Z4E and MXFP4. -/
def ocean (f : Nat) : Gate.Out :=
  Gate.blockOut ⟨false, 0, f, false, .num true 1000 0, .num false 1000 0, .num false 8 0, false⟩
    ((List.range 32).map fun i => FFmt.fp64.decodeF false (match i with
      | 0 => 0x3FD3_D70A_3D70_A3D7 -- 0.31
      | 1 => 0xBFA9_9999_9999_999A -- −0.05
      | 2 => 0x3FE6_6666_6666_6666 -- 0.70
      | 3 => 0x4044_8000_0000_0000 -- 41.0
      | 9 => 0x3FF4_CCCC_CCCC_CCCD -- 1.30
      | 17 => 0xC058_2000_0000_0000 -- −96.5
      | _ => 0))

theorem test_block_z4e : (ocean 13).scale = 0x7D ∧ (ocean 13).side = [0x4224, 0xC2C1, 0, 0] ∧ (ocean 13).esc = 2 ∧ (ocean 13).sat = 0 ∧
    (ocean 13).overrun = false ∧ (ocean 13).codes.take 4 = [0b0010, 0b0000, 0b0101, 0b1000] ∧ (ocean 13).codes[9]? = some 0b0111 ∧
    (ocean 13).codes[17]? = some 0b1000 := by
  decide

theorem test_block_mxfp4 : (ocean 11).scale = 0x83 ∧ (ocean 11).codes.take 4 = [0b0000, 0b1000, 0b0000, 0b0101] ∧
    (ocean 11).codes[9]? = some 0 ∧ (ocean 11).codes[17]? = some 0b1111 ∧ (ocean 11).sat = 0 := by
  decide

/-- The merged ledger of the ocean closure (chapter 8). -/
def ledger : List Byte :=
  ([0, 40, 0, 0, 0, 0, 0, 0, 0, 0, 90, 1210, 9870, 31006, 23320, 0].flatMap fun n => leBytes 2 n) ++ List.replicate 12 0 ++
    [0xFD, 0xC6, 0, 0] ++ ([-2, -18, -4, -22, -3, -18, 0, 0, 0, 0, 0, 0].map fun (x : Int) => (BitVec.ofNat 8 (natOfInt 8 x) : Byte)) ++
    [0x1B, 0, 0, 0]

theorem test_fmtsel :
    (Gate.fmtsel ledger ((blank.dev.ctx 0 .primary).getCr 0x0E) ((blank.dev.ctx 0 .primary).getCr 0x0F)).2 = 0x0000_00EA_FE15_0F15 := by decide

/-- SPLIT of 40 (chapter 9) and of 10 (chapter 4). -/
theorem test_loft_limits :
    let d := fun (n : W32) => (blank.dev.setPreg (Page.stall 0) 0xF00 (0x8000_0000 + n))
    (d 40).loftLimit 0 .primary = 2572288 ∧ (d 40).loftLimit 0 .paddock = 475136 ∧ (d 10).loftLimit 0 .primary = 0x9_4000 := by
  decide

/-- The indexes of the gather of chapter 4, which runs with SPLIT of 10. -/
def indexes : BitVec 4096 :=
  BitVec.ofNat 4096 (leNat ([1204, 1205, 388, 12019, 50000, 1, 2, 3, 4, 60000].flatMap fun n => leBytes 4 n))

def gather : State :=
  ((runs fun c => (c.setCr 0x10 16).setCr 0x11 0x4_0000).onDev fun d => d.setPreg (Page.stall 0) 0xF00 0x8000_000A).onDev
    fun d => d.modStall 0 fun x => { x with v := x.v.set 2 indexes }

theorem test_gather_fault :
    let c := (nx (exec (.vgatherW 0 ⟨0, 7, 4, 0, 2⟩) gather)).dev.ctx 0 .primary
    c.getCr 0x14 = 4 ∧ c.getCr 0x07 = 0x0A01_0008 ∧ c.getCr 0x08 = 0xA_1A80 := by
  decide

/-! ### Words of the Coeri encoding, written from its tables (R98 to R101, R147) -/

theorem test_coeri_words :
    Coeri.decode 5 0 0b00000000000_00010_00001_00011_000001 0 = some (.add 5 3 1 2) ∧
    Coeri.decode 5 0 0b00000000001_00010_00001_00011_000001 0 = some (.sub 5 3 1 2) ∧
    Coeri.decode 5 0 0b1111111111111111_00001_00100_000010 0 = some (.addi 5 4 1 (.short 0xFFFF)) ∧
    Coeri.decode 5 0 0b0000000000_000010_00001_00100_111111 0x1234_5678 = some (.addi 5 4 1 (.long 0x1234_5678)) ∧
    Coeri.decode 5 0 0b0000000000000011_00001_00010_001010 0 = some (.beq 5 1 2 3) ∧
    Coeri.decode 5 0 0b001_001_00000_00110_00101_00100_100000 0 = some (.vadd 5 ⟨1, 1, 4, 5, 6⟩) ∧
    Coeri.decode 5 0 0 0 = none ∧ Coeri.decode 5 0 0b0000000001_000010_00001_00100_111111 0 = none := by
  decide

/-- No register page lies in the interrupt tables, and the commands of the block have no bits. -/
theorem test_no_page : pageAt 0xFE_0000 = none ∧ decodeTableWord 32 0x1234 = none := by decide

theorem witness_CoeriRoundTrip : Coeri.encode (.add 5 3 1 2) ≠ [] := by decide

end Sys2Proof.Tests
end

section
/-! The frame wait (R82): what FWAIT does at issue, while it holds the groom, and at its retirement. -/

namespace Sys2Proof.Machine

/-- The frame that FWAIT names is the low 48 bits of its operand. -/
theorem fwaitFrame_le_iff (v : W64) (now : Frame) : v.setWidth 48 ≤ now ↔ v.toNat % 2 ^ 48 ≤ now.toNat := by
  rw [BitVec.le_def, BitVec.toNat_setWidth]

/-- FWAIT of a frame that has begun only retires. -/
theorem exec_fwait_of_begun (s : State) (st : StallId) (d a b : SReg) (hi : s.issues st 1)
    (hf : (s.dev.sreg st a).toNat % 2 ^ 48 ≤ s.dev.now.toNat) :
    exec (.fwait st d a b) s = .next (s.onDev fun dev => dev.retire st 1) := by
  have hle := (fwaitFrame_le_iff _ _).mpr hf
  simp [exec, execFwait, State.onDev, Device.issue_eq s st 1 _ hi, hle]

/-- FWAIT of a later frame only holds the groom, which will wait for that frame. -/
theorem exec_fwait_of_later (s : State) (st : StallId) (d a b : SReg) (hi : s.issues st 1)
    (hf : s.dev.now.toNat < (s.dev.sreg st a).toNat % 2 ^ 48) :
    exec (.fwait st d a b) s = .next (s.onDev fun dev =>
      dev.modCur st fun c => { c with hold := some (.fwait ((s.dev.sreg st a).setWidth 48)) }) := by
  have hle : ¬ (s.dev.sreg st a).setWidth 48 ≤ s.dev.now := fun h => by
    have := (fwaitFrame_le_iff _ _).mp h
    omega
  simp [exec, execFwait, State.onDev, Device.issue_eq s st 1 _ hi, hle]

/-- A groom that holds an instruction issues none. -/
theorem Device.ready_of_hold (dev : Device) (st : StallId) (hh : (dev.cur st).hold ≠ none) :
    dev.ready st = false := by
  simp [Device.ready, Option.isSome_iff_ne_none.mpr hh]

/-- Once its frame has begun and the boundary is over (R85), the held FWAIT lets the groom go and retires. -/
theorem exec_fwaitRetire_of_begun (s : State) (st : StallId) (f : Frame) (ha : (s.dev.stall st).active = true)
    (hh : (s.dev.cur st).hold = some (.fwait f)) (hf : f.toNat ≤ s.dev.now.toNat) (hb : s.dev.inBoundary = false) :
    exec (.fwaitRetire st) s =
      .next (s.onDev fun dev => (dev.modCur st fun c => { c with hold := none }).retire st 1) := by
  have hle : f ≤ s.dev.now := BitVec.le_def.mpr hf
  simp [exec, execFwaitRetire, State.onDev, hh, ha, hb, hle]

/-- Before its frame begins, the held FWAIT stays as it is. -/
theorem exec_fwaitRetire_of_later (s : State) (st : StallId) (f : Frame)
    (hh : (s.dev.cur st).hold = some (.fwait f)) (hf : s.dev.now.toNat < f.toNat) :
    exec (.fwaitRetire st) s = .next s := by
  have hle : ¬ f ≤ s.dev.now := fun h => absurd (BitVec.le_def.mp h) (Nat.not_le.mpr hf)
  simp [exec, execFwaitRetire, State.onDev, hh, hle]

/-- A slot that stops holding and retires an instruction of n words writes no register. -/
theorem wrote_release_retire (s : State) (st : StallId) (n : Nat) :
    s.wrote st n { s.dev.cur st with hold := none } 0 0
      (s.onDev fun dev => (dev.modCur st fun c => { c with hold := none }).retire st n) := by
  have h := wrote_modCur s st n 0 0 (fun c => { c with hold := none }) fun _ => rfl
  simpa only [Device.retire, Device.modCur_modCur, SlotCtx.setS_zero] using h

/-- Settles O12: the issue, the hold and the retirement are one equation of exec each; what each leaves unchanged
follows from the laws of a change to the running slot alone. -/
theorem frameWait : Obligations.FrameWait := by
  intro st d a b s
  refine ⟨fun hi hf => ?begun, fun hi hf => ?later, fun f ha hh => ⟨fun hf hb => ?retires, fun hf => ?waits⟩⟩
  case begun => exact ⟨_, exec_fwait_of_begun s st d a b hi hf, onlyRetired_retire s st 1⟩
  case later =>
    refine ⟨_, exec_fwait_of_later s st d a b hi hf, sameButSlot_modCur s st _, ?_, ?_⟩
    · exact Device.ready_of_hold _ st (by simp)
    · simp
  case retires => exact ⟨_, exec_fwaitRetire_of_begun s st f ha hh hf hb, wrote_release_retire s st 1⟩
  case waits => exact exec_fwaitRetire_of_later s st f hh hf

end Sys2Proof.Machine
end

section
/-! The scalar registers (R94): what a write to one leaves in each of them, and the return address of JAL in s31. -/

namespace Sys2Proof.Machine

/-- A write to another register than s0 is read there and nowhere else. -/
theorem SlotCtx.getS_setS_of_ne_zero (c : SlotCtx) (r q : SReg) (v : W64) (hr : r ≠ 0) :
    (c.setS r v).getS q = if q = r then v else c.getS q := by
  have hiff : (q = r ∧ q ≠ 0) ↔ q = r := and_iff_left_of_imp fun h => h ▸ hr
  simp only [SlotCtx.getS_setS, hiff]

/-- JAL writes its return address to s31 and jumps: a change of the running slot alone. -/
theorem exec_jal_of_issues (s : State) (st : StallId) (off : BitVec 26) (hi : s.issues st 1) :
    exec (.jal st off) s = .next (s.onDev fun dev =>
      dev.modCur st fun c => (c.setS 31 (returnAddress c 1)).jump (targetOf c.pc off)) := by
  simp [exec, execJal, State.onDev, Device.issue_eq s st 1 _ hi]

/-- Settles O3: the laws of getS and setS say what a register reads, and a jump keeps what JAL wrote to s31. -/
theorem scalarRegisterFile : Obligations.ScalarRegisterFile := by
  refine ⟨fun s st => (s.dev.cur st).getS_zero, SlotCtx.setS_zero, SlotCtx.getS_setS_of_ne_zero, ?jal⟩
  intro st off s hi
  refine ⟨_, exec_jal_of_issues s st off hi, sameButSlot_modCur s st _, fun r => ?_⟩
  have hset := (s.dev.cur st).getS_setS_of_ne_zero 31 r (returnAddress (s.dev.cur st) 1) (by decide)
  calc (s.dev.modCur st fun c => (c.setS 31 (returnAddress c 1)).jump (targetOf c.pc off)).sreg st r
      _ = ((s.dev.cur st).setS 31 (returnAddress (s.dev.cur st) 1)).getS r := by
        rw [Device.sreg_modCur, getS_jump]
      _ = if r = 31 then returnAddress (s.dev.cur st) 1 else s.dev.sreg st r := hset

end Sys2Proof.Machine
end

section
/-! The double exception (R130): what a halt of the running slot writes, and that an exception raised inside a handler is
such a halt. -/

namespace Sys2Proof.Machine

/-- A change of the slot that the groom runs is seen in the running context. -/
theorem Stall.cur_modCtx_slot (s : Stall) (f : SlotCtx → SlotCtx) : (s.modCtx s.slot f).cur = f s.cur := by
  simp only [Stall.cur, Stall.modCtx_slot, Stall.modCtx_same]

namespace Device

/-- An MSI-X message writes no register. -/
@[simp] theorem preg_msix (d : Device) (v : Fin 64) (p : Page) (o : Nat) : (d.msix v).preg p o = d.preg p o := by
  unfold msix
  split <;> rfl

/-- A bit that is set reads as set. -/
theorem flag_setBit_same {w : Nat} (x : BitVec w) (i : Nat) (hi : i < w) : flag (setBit x i) i = true := by
  simp only [flag, setBit, BitVec.getLsbD_or, BitVec.getLsbD_ofNat, hi, Nat.testBit_two_pow_self, decide_true, Bool.and_self,
    Bool.or_true]

/-- Once an event has been raised, its bit of EVENT_STAT is set (R497). -/
theorem flag_event (d : Device) (p : Page) (i : Nat) (hi : i < 32) : flag ((d.event p i).preg p 0x028) i = true := by
  have hset := flag_setBit_same (d.preg p 0x028) i hi
  simp only [event]
  split
  next hbefore => exact hbefore
  next => split <;> simpa using hset

/-- Where the running slot halts, it stops, holds nothing and keeps no vector instruction that waits (log 24); its registers
stay. -/
theorem cur_haltSlot (d : Device) (st : StallId) (kind cause : Nat) :
    (d.haltSlot st (d.slotOf st) kind cause).cur st = { d.cur st with running := false, hold := none, vq := [] } := by
  simp only [haltSlot, cur, (quiet_event _ _ _).stall, stall_modStall_same]
  exact (d.stall st).cur_modCtx_slot fun c => { c with running := false, hold := none, vq := [] }

/-- HALT_REASON of a slot that halts: the frame, KIND and the cause. -/
theorem haltReason_haltSlot (d : Device) (st : StallId) (sl : Slot) (kind cause : Nat) :
    ((d.haltSlot st sl kind cause).stall st).haltReason =
      BitVec.ofNat 64 (d.now.toNat * 2 ^ 16 + kind * 2 ^ 8 + cause) := by
  simp only [haltSlot, (quiet_event _ _ _).stall, stall_modStall_same]

/-- The STALL page shows the HALT event of a slot that halts (R597). -/
theorem flag_haltSlot (d : Device) (st : StallId) (sl : Slot) (kind cause : Nat) :
    flag ((d.haltSlot st sl kind cause).preg (Page.stall st) 0x028) 1 = true :=
  flag_event _ _ 1 (by decide)

/-- A halt writes no byte of memory. -/
theorem rdByte_haltSlot (d : Device) (st : StallId) (sl : Slot) (kind cause a : Nat) :
    (d.haltSlot st sl kind cause).rdByte a = d.rdByte a := by
  refine rdByte_of _ _ ?_ a
  rw [haltSlot, quiet_event]
  rfl

/-- An exception raised inside a handler halts the running slot with KIND 2 (R130). -/
theorem raise_of_excActive (d : Device) (st : StallId) (cause : Nat) (code : Code) (info : W64)
    (h : flag ((d.cur st).getCr 0x01) 0 = true) :
    d.raise st cause code info = d.haltSlot st (d.slotOf st) 2 cause :=
  if_pos h

end Device

/-- TRAP raises cause 11 with its immediate. -/
theorem exec_trap_of_issues (s : State) (st : StallId) (d a : SReg) (imm : Imm) (hi : s.issues st imm.words) :
    exec (.trap st d a imm) s = .next (s.onDev fun dev => dev.raise st 11 0 imm.sext) := by
  simp [exec, execTrap, State.onDev, Device.issue_eq s st _ _ hi]

/-- Settles O15: inside a handler raise halts the slot, whatever the cause, and TRAP is such a raise. -/
theorem doubleException : Obligations.DoubleException := by
  intro st s hactive halted
  have hraise : ∀ cause code info, halted cause (s.onDev fun d => d.raise st cause code info) := by
    intro cause code info
    have hcur := s.dev.cur_haltSlot st 2 cause
    simp only [halted, State.sameMemory, State.onDev_dev, Device.raise_of_excActive _ st cause code info hactive]
    exact ⟨hcur, s.dev.haltReason_haltSlot st _ 2 cause, s.dev.flag_haltSlot st _ 2 cause, fun n => by rw [hcur]; rfl,
      s.dev.rdByte_haltSlot st _ 2 cause⟩
  exact ⟨hraise, fun d a imm hi => ⟨_, exec_trap_of_issues s st d a imm hi, hraise 11 0 imm.sext⟩⟩

end Sys2Proof.Machine
end

section
/-! The declarations of this section are elaborated one after another: waiting tasks would each hold a thread, whose stack counts
against the memory that the check allows. -/
set_option Elab.async false

section
/-! The fuse array (R515 to R522): blowing bits keeps every bit that is set, and only the end of verification and FUSE_PROG
blow any. -/

namespace Sys2Proof.Machine

/-- A bit of a word in which bit b has been set. -/
theorem flag_setBit {w : Nat} (x : BitVec w) (b i : Nat) :
    flag (setBit x b) i = (flag x i || (decide (i < w) && decide (b = i))) := by
  simp only [flag, setBit, BitVec.getLsbD_or, BitVec.getLsbD_ofNat, Nat.testBit_two_pow]

/-- The bits of an array in which some have been blown: those that were set, and those blown. -/
theorem flag_blown (a : FuseArray) (bits : List Nat) (i : Nat) :
    flag (Device.blown a bits) i = (flag a i || (decide (i < 8192) && decide (i ∈ bits))) := by
  induction bits generalizing a with
  | nil => simp [Device.blown]
  | cons b bits ih =>
    have hfold : Device.blown a (b :: bits) = Device.blown (setBit a b) bits := rfl
    rw [hfold, ih, flag_setBit]
    by_cases hb : i = b
    · by_cases hlt : b < 8192 <;> simp [hb, hlt]
    · simp [hb, Ne.symm hb]

/-- No fuse update of a bundle (R521) names a bit at or above 8,000. -/
theorem fuseRequests_lt (d : Device) (a : FuseArray) (b : Nat) (h : b ∈ d.fuseRequests a) : b < 8000 := by
  simp only [Device.fuseRequests, List.mem_filter, List.mem_append, List.mem_flatMap, List.mem_filterMap, List.mem_range,
    Option.ite_none_right_eq_some, Option.some.injEq] at h
  obtain ⟨((((⟨k, hk, hpair⟩ | ⟨i, hi, -, rfl⟩) | hscan) | hident) | harb), -⟩ := h
  · split at hpair <;> simp at hpair
    omega
  · omega
  · split at hscan <;> simp at hscan
    omega
  · split at hident <;> simp at hident
    omega
  · split at harb
    · simp only [List.mem_filterMap, List.mem_range, Option.ite_none_right_eq_some, Option.some.injEq] at harb
      obtain ⟨i, hi, -, rfl⟩ := harb
      omega
    · simp at harb

/-- FUSE_PROG blows no bit at or above 8,000. -/
theorem programmed_lt (a bits : FuseArray) (b : Nat) (h : b ∈ Device.programmed a bits) : b < 8000 := by
  simp only [Device.programmed, List.mem_filter, Bool.and_eq_true] at h
  obtain ⟨-, -, hok⟩ := h
  split at hok
  · omega
  · split at hok
    · assumption
    · simp at hok

/-- The array b is a with bits below 8,000 blown. -/
def FuseArray.grew (a b : FuseArray) : Prop := ∃ bits : List Nat, (∀ i ∈ bits, i < 8000) ∧ b = Device.blown a bits

theorem FuseArray.grew_refl (a : FuseArray) : FuseArray.grew a a := ⟨[], by simp, rfl⟩

theorem FuseArray.grew_blown (a : FuseArray) (bits : List Nat) (h : ∀ i ∈ bits, i < 8000) :
    FuseArray.grew a (Device.blown a bits) := ⟨bits, h, rfl⟩

/-- Growth keeps blown bits and the reserved ones. -/
theorem FuseArray.grew_flags {a b : FuseArray} (h : FuseArray.grew a b) :
    (∀ i, flag a i = true → flag b i = true) ∧ ∀ i, 8000 ≤ i → flag b i = flag a i := by
  obtain ⟨bits, hlt, rfl⟩ := h
  refine ⟨fun i hi => by simp [flag_blown, hi], fun i hi => ?_⟩
  have hout : i ∉ bits := fun hmem => by have := hlt i hmem; omega
  simp [flag_blown, hout]

/-- Every command but the end of verification and FUSE_PROG changes the device alone. -/
theorem exec_onDev (c : Instr) (s : State) :
    (∃ f, exec c s = .next (s.onDev f)) ∨ (∃ x, c = .verifyDone x) ∨ ∃ b, c = .fuseProg b := by
  cases c
  case verifyDone x => exact .inr (.inl ⟨x, rfl⟩)
  case fuseProg b => exact .inr (.inr ⟨b, rfl⟩)
  case shi st d a imm =>
    refine .inl ?_
    simp only [exec, execShi]
    split <;> exact ⟨_, rfl⟩
  all_goals exact .inl ⟨_, rfl⟩

/-- Verification leaves the array as it was or blows what the bundle asks for, up to the first bit that stays 0. -/
theorem verifyDone_grew (x : VerifyInput) (s t : State) (h : exec (.verifyDone x) s = .next t) :
    FuseArray.grew s.array t.array := by
  have hblow : FuseArray.grew s.array (Device.blown s.array (Device.blow (s.dev.fuseRequests s.array) x.stuckBits)) :=
    FuseArray.grew_blown _ _ fun i hi => fuseRequests_lt s.dev s.array i (List.takeWhile_subset _ hi)
  simp only [exec, execVerifyDone] at h
  split at h
  · obtain rfl := Host.Outcome.next.inj h
    exact FuseArray.grew_refl _
  split at h
  · obtain rfl := Host.Outcome.next.inj h
    exact FuseArray.grew_refl _
  generalize (if (Device.blow (s.dev.fuseRequests s.array) x.stuckBits).length = _ then Status.done else Status.fuseWriteFail)
    = result at h
  split at h
  all_goals
    obtain rfl := Host.Outcome.next.inj h
    exact hblow

/-- FUSE_PROG leaves the array as it was or blows the bits of its pattern that may be blown. -/
theorem fuseProg_grew (b : BitVec 8192) (s t : State) (h : exec (.fuseProg b) s = .next t) :
    FuseArray.grew s.array t.array := by
  have hblow := FuseArray.grew_blown s.array _ (programmed_lt s.array b)
  simp only [exec, execFuseProg] at h
  split at h
  · obtain rfl := Host.Outcome.next.inj h
    simpa only using hblow
  · obtain rfl := Host.Outcome.next.inj h
    exact FuseArray.grew_refl _

/-- Whatever a command does, the array grows; only two commands change it at all. -/
theorem exec_grew (c : Instr) (s t : State) (h : exec c s = .next t) :
    FuseArray.grew s.array t.array ∧ (t.array ≠ s.array → (∃ x, c = .verifyDone x) ∨ ∃ b, c = .fuseProg b) := by
  rcases exec_onDev c s with ⟨f, hf⟩ | ⟨x, rfl⟩ | ⟨b, rfl⟩
  · obtain rfl := Host.Outcome.next.inj (hf.symm.trans h)
    exact ⟨FuseArray.grew_refl _, fun hne => (hne rfl).elim⟩
  · exact ⟨verifyDone_grew x s t h, fun _ => .inl ⟨x, rfl⟩⟩
  · exact ⟨fuseProg_grew b s t h, fun _ => .inr ⟨b, rfl⟩⟩

/-- Settles O59: a step idles or runs one command, and every command only grows the array by bits below 8,000. -/
theorem fuseBitsStay : Obligations.FuseBitsStay := by
  intro s t hstep
  unfold step at hstep
  split at hstep
  case h_1 =>
    obtain rfl := Host.Outcome.next.inj hstep
    exact ⟨fun _ hi => hi, fun _ _ => rfl, fun hne => (hne rfl).elim⟩
  case h_2 c rest hpending =>
    obtain ⟨hgrew, hwho⟩ := exec_grew c _ t hstep
    obtain ⟨hkeep, hreserved⟩ := FuseArray.grew_flags hgrew
    exact ⟨hkeep, hreserved, fun hne => ⟨c, rest, hpending, hwho hne⟩⟩

/-- Settles O58: step looks at the head of the queue, and at nothing else, to choose what it does. -/
theorem stepRunsFront : Obligations.StepRunsFront := by
  refine ⟨fun c rest s => rfl, fun s hidle => ?_⟩
  unfold step
  rw [hidle]

end Sys2Proof.Machine
end

section
/-! The scalar integer instructions (R91, R92, R100, R101): the shape they share, and the values of division, remainder
and the bit counts. -/

namespace Sys2Proof.Machine

/-- What a one-word integer instruction does where it issues. -/
theorem wroteScalar_intBinary (s : State) (st : StallId) (d a b : SReg) (f : W64 → W64 → W64) (hi : s.issues st 1) :
    s.wroteScalar st 1 d (f (s.dev.sreg st a) (s.dev.sreg st b)) (intBinary st d a b f s) := by
  have h := wroteScalar_retire s st 1 d (f (s.dev.sreg st a) (s.dev.sreg st b))
  simpa only [intBinary, State.onDev, Device.issue_eq s st 1 _ hi] using h

/-- What an immediate integer instruction of either length does where it issues. -/
theorem wroteScalar_intImm (s : State) (st : StallId) (d a : SReg) (imm : Imm) (f : W64 → W64) (hi : s.issues st imm.words) :
    s.wroteScalar st imm.words d (f (s.dev.sreg st a)) (intImm st d a imm f s) := by
  have h := wroteScalar_retire s st imm.words d (f (s.dev.sreg st a))
  simpa only [intImm, State.onDev, Device.issue_eq s st _ _ hi] using h

/-- A command whose meaning is intBinary of f writes the value of f. -/
theorem completes_intBinary {i : Instr} {s : State} {st : StallId} {d a b : SReg} (f : W64 → W64 → W64) {v : W64}
    (hi : s.issues st 1) (he : exec i s = .next (intBinary st d a b f s))
    (hv : f (s.dev.sreg st a) (s.dev.sreg st b) = v) : Completes i s (s.wroteScalar st 1 d v) :=
  ⟨_, he, hv ▸ wroteScalar_intBinary s st d a b f hi⟩

/-- A signed quotient is truncated (log 16); by zero it is all ones (R92). -/
theorem divSigned_eq (x y : W64) : divSigned x y = if y = 0 then BitVec.allOnes 64 else x.sdiv y := by
  unfold divSigned
  split
  · rfl
  · apply BitVec.eq_of_toInt_eq
    rw [BitVec.toInt_ofInt, BitVec.toInt_sdiv]

/-- A signed remainder has the dividend's sign (log 16); by zero it is the dividend (R92). -/
theorem remSigned_eq (x y : W64) : remSigned x y = if y = 0 then x else x.srem y := by
  unfold remSigned
  split
  · rfl
  · rw [← BitVec.toInt_srem, BitVec.ofInt_toInt]

theorem divUnsigned_eq (x y : W64) : divUnsigned x y = if y = 0 then BitVec.allOnes 64 else x.udiv y := by
  unfold divUnsigned
  split
  · rfl
  · rw [← BitVec.toNat_udiv, BitVec.ofNat_toNat, BitVec.setWidth_eq]
    rfl

theorem remUnsigned_eq (x y : W64) : remUnsigned x y = if y = 0 then x else x.umod y := by
  unfold remUnsigned
  split
  · rfl
  · rw [← BitVec.toNat_umod, BitVec.ofNat_toNat, BitVec.setWidth_eq]
    rfl

/-- A shift by a register with a count below 64. -/
theorem shiftBy_of_lt (op : Nat) (f : W64 → Nat → W64) (x n : W64) (h : n.toNat < 64) : shiftBy op f x n = f x n.toNat :=
  if_pos h

/-- The highest set bit of a word stands at 63 − CLZ. -/
theorem leadingZeros_spec (x : W64) :
    if x = 0 then leadingZeros x = 64
    else leadingZeros x < 64 ∧ 2 ^ (63 - leadingZeros x) ≤ x.toNat ∧ x.toNat < 2 ^ (64 - leadingZeros x) := by
  unfold leadingZeros
  split
  · rfl
  next hx =>
    have hne : x.toNat ≠ 0 := fun h => hx (BitVec.eq_of_toNat_eq h)
    have hlog : x.toNat.log2 < 64 := (Nat.log2_lt hne).mpr x.isLt
    have hlow : 63 - (63 - x.toNat.log2) = x.toNat.log2 := by omega
    have hhigh : 64 - (63 - x.toNat.log2) = x.toNat.log2 + 1 := by omega
    rw [hlow, hhigh]
    exact ⟨by omega, Nat.log2_self_le hne, Nat.lt_log2_self⟩

/-- The lowest set bit of a word stands at CTZ. -/
theorem trailingZeros_spec (x : W64) :
    if x = 0 then trailingZeros x = 64
    else x.getLsbD (trailingZeros x) = true ∧ ∀ i, i < trailingZeros x → x.getLsbD i = false := by
  unfold trailingZeros
  split
  next hx => subst hx; decide
  next hx =>
    cases hfind : (List.range 64).find? fun i => flag x i with
    | none =>
      refine absurd (BitVec.eq_of_getLsbD_eq fun i hi => ?_) hx
      have h := List.find?_eq_none.mp hfind i (List.mem_range.mpr hi)
      simpa [flag] using h
    | some n =>
      obtain ⟨hset, hbelow⟩ := List.find?_range_eq_some.mp hfind
      exact ⟨hset, fun i hi => by simpa [flag] using hbelow.2 i hi⟩

theorem bitCount_eq {w : Nat} (x : BitVec w) : bitCount x = (List.range w).countP fun i => x.getLsbD i := by
  simp [bitCount, flag, List.countP_eq_length_filter]

/-- Settles O1: each instruction is intBinary of its operation; the values of those with special cases are the lemmas
above. -/
theorem scalarIntRegister : Obligations.ScalarIntRegister := by
  intro st d a b s hi x y writes
  have run {i : Instr} {v : W64} (f : W64 → W64 → W64) (he : exec i s = .next (intBinary st d a b f s)) (hv : f x y = v) :
      writes i v := completes_intBinary f hi he hv
  refine ⟨run _ rfl rfl, run _ rfl rfl, run _ rfl rfl, run _ rfl rfl, run _ rfl rfl,
    fun hy => ⟨run _ rfl (shiftBy_of_lt 0 _ x y hy), run _ rfl (shiftBy_of_lt 1 _ x y hy), run _ rfl (shiftBy_of_lt 2 _ x y hy)⟩,
    run _ rfl ?slt, run _ rfl ?sltu, run _ rfl rfl, run _ rfl rfl, run _ rfl rfl,
    run _ rfl (divSigned_eq x y), run _ rfl (divUnsigned_eq x y), run _ rfl (remSigned_eq x y), run _ rfl (remUnsigned_eq x y),
    run _ rfl ?min, run _ rfl ?max, run _ rfl ?minu, run _ rfl ?maxu,
    ⟨leadingZeros x, run _ rfl rfl, leadingZeros_spec x⟩, ⟨trailingZeros x, run _ rfl rfl, trailingZeros_spec x⟩,
    run _ rfl (congrArg _ (bitCount_eq x))⟩
  case slt => simp only [truth, BitVec.slt, decide_eq_true_eq]
  case sltu => simp only [truth, BitVec.ult, decide_eq_true_eq]
  case min => simp only [BitVec.slt, decide_eq_true_eq]
  case max => simp only [BitVec.slt, decide_eq_true_eq]
  case minu => simp only [BitVec.ult, decide_eq_true_eq]
  case maxu => simp only [BitVec.ult, decide_eq_true_eq]

/-- The shifts of SHI by their kind. -/
def shiftOfKind (k n : Nat) : Option (W64 → W64) :=
  match k with
  | 0 => some fun x => x <<< n
  | 1 => some fun x => x >>> n
  | 2 => some fun x => x.sshiftRight n
  | _ => none

/-- The kind and the count of SHI, where no other bit of its immediate is set. -/
theorem shiftImm_of_kind (imm : Imm) (k n : Nat) (hn : n < 64) (h : imm.zext.toNat = k * 0x4000 + n) :
    shiftImm imm = shiftOfKind k n := by
  have hcount : (k * 0x4000 + n) % 64 = n := by omega
  have hkind : (k * 0x4000 + n) / 0x4000 = k := by omega
  simp only [shiftImm, h, hcount, hkind, ne_eq, not_true_eq_false, if_false]
  rfl

/-- SHI of a legal kind is intImm of its shift. -/
theorem exec_shi_of_shiftImm (s : State) (st : StallId) (d a : SReg) (imm : Imm) (f : W64 → W64) (h : shiftImm imm = some f) :
    exec (.shi st d a imm) s = .next (intImm st d a imm f s) := by
  simp only [exec, execShi, h]

/-- Settles O2: each instruction is intImm of its operation, and the immediate's kind chooses the operation of SHI. -/
theorem scalarIntImmediate : Obligations.ScalarIntImmediate := by
  refine ⟨fun v => ⟨rfl, rfl⟩, fun v => ⟨rfl, rfl⟩, ?_⟩
  intro st d a imm s hi x writes
  have run {i : Instr} {v : W64} (f : W64 → W64) (he : exec i s = .next (intImm st d a imm f s)) (hv : f x = v) :
      writes i v := ⟨_, he, hv ▸ wroteScalar_intImm s st d a imm f hi⟩
  have shi {v : W64} (k n : Nat) (f : W64 → W64) (hn : n < 64) (h : imm.zext.toNat = k * 0x4000 + n)
      (hk : shiftOfKind k n = some f) (hv : f x = v) : writes (.shi st d a imm) v :=
    run f (exec_shi_of_shiftImm s st d a imm f ((shiftImm_of_kind imm k n hn h).trans hk)) hv
  refine ⟨run _ rfl rfl, run _ rfl rfl, run _ rfl rfl, run _ rfl rfl, run _ rfl rfl,
    fun n hn => ⟨fun h => ?_, fun h => ?_, fun h => ?_⟩⟩
  · exact shi 0 n _ hn (by omega) rfl rfl
  · exact shi 1 n _ hn (by omega) rfl rfl
  · exact shi 2 n _ hn (by omega) rfl rfl

end Sys2Proof.Machine
end

section
/-! The scalar floating-point instructions (R92, R93): the one way in which a result and its flags are written, or the
invalid flag traps. -/

namespace Sys2Proof.Machine

/-- The sticky flags lie below INV_TRAP, which they leave as it is. -/
theorem SlotCtx.invTrap_addFlags (c : SlotCtx) (fl : FFlags) : (c.addFlags fl).invTrap = c.invTrap := by
  have hbit : (fl.setWidth 64).getLsbD 8 = false := by simp
  simp only [SlotCtx.invTrap, SlotCtx.addFlags, SlotCtx.getCr_setCr_same _ _ _ (by decide : 0x0C < 96), flag,
    BitVec.getLsbD_or, hbit, Bool.or_false]

/-- Without a trap, a result and its flags are written and the instruction retires. -/
theorem wrote_fpWrite (s : State) (st : StallId) (d : SReg) (r : W64 × FFlags)
    (hno : (flag r.2 0 && (s.dev.cur st).invTrap) = false) :
    s.wrote st 1 ((s.dev.cur st).addFlags r.2) d r.1 (s.onDev fun dev => fpWrite dev st d r) := by
  have h := wrote_modCur s st 1 d r.1 (fun c => c.addFlags r.2) fun _ => rfl
  simpa only [fpWrite, State.onDev, Device.cur_modCur, SlotCtx.invTrap_addFlags, hno, Bool.false_eq_true, if_false,
    Device.setSreg, Device.retire, Device.modCur_modCur] using h

/-- Under INV_TRAP an invalid operation raises FP_INVALID, with its flags gathered (log 13). -/
theorem fpWrite_of_traps (dev : Device) (st : StallId) (d : SReg) (r : W64 × FFlags) (ht : (dev.cur st).invTrap = true)
    (hf : flag r.2 0 = true) :
    fpWrite dev st d r = (dev.modCur st fun c => c.addFlags r.2).raise st 7 Status.fpInvalid 0 := by
  simp only [fpWrite, Device.cur_modCur, SlotCtx.invTrap_addFlags, ht, hf, Bool.and_self, if_true]

theorem fpBinary_of_issues (s : State) (st : StallId) (d a b : SReg) (g : W64 → W64 → W64 × FFlags) (hi : s.issues st 1) :
    fpBinary st d a b g s = s.onDev fun dev => fpWrite dev st d (g (s.dev.sreg st a) (s.dev.sreg st b)) := by
  simp only [fpBinary, State.onDev, Device.issue_eq s st 1 _ hi]

theorem fpFused_of_issues (s : State) (st : StallId) (d a b c : SReg) (f : FFmt) (p q : Bool) (hi : s.issues st 1) :
    fpFused st d a b c f p q s = s.onDev fun dev =>
      fpWrite dev st d (fpFma f p q (s.dev.sreg st a) (s.dev.sreg st b) (s.dev.sreg st c)) := by
  simp only [fpFused, State.onDev, Device.issue_eq s st 1 _ hi]

/-- Settles O4: each instruction writes the result of its operation by fpWrite. -/
theorem scalarFloat : Obligations.ScalarFloat := by
  intro st d a b c s hi x y z slot result
  have binary {i : Instr} {r : W64 × FFlags} (g : W64 → W64 → W64 × FFlags)
      (he : exec i s = .next (fpBinary st d a b g s)) (hr : g x y = r) : result i r := fun hno =>
    ⟨_, he.trans (congrArg _ (fpBinary_of_issues s st d a b g hi)), hr ▸ wrote_fpWrite s st d _ (hr ▸ hno)⟩
  have fused {i : Instr} (f : FFmt) (p q : Bool) (he : exec i s = .next (fpFused st d a b c f p q s)) :
      result i (fpFma f p q x y z) := fun hno =>
    ⟨_, he.trans (congrArg _ (fpFused_of_issues s st d a b c f p q hi)), wrote_fpWrite s st d _ hno⟩
  exact ⟨binary _ rfl rfl, binary _ rfl rfl, binary _ rfl rfl, binary _ rfl rfl, binary _ rfl rfl, binary _ rfl rfl,
    binary _ rfl rfl, binary _ rfl rfl, binary _ rfl rfl, binary _ rfl rfl, binary _ rfl rfl, binary _ rfl rfl,
    binary _ rfl rfl, binary _ rfl rfl, binary _ rfl rfl, binary _ rfl rfl, binary _ rfl rfl, binary _ rfl rfl,
    binary _ rfl rfl, binary _ rfl rfl, binary _ rfl rfl, binary _ rfl rfl, binary _ rfl rfl, binary _ rfl rfl,
    binary _ rfl rfl, binary _ rfl rfl, binary _ rfl rfl, binary _ rfl rfl,
    fused _ _ _ rfl, fused _ _ _ rfl, fused _ _ _ rfl, fused _ _ _ rfl, fused _ _ _ rfl, fused _ _ _ rfl,
    fused _ _ _ rfl, fused _ _ _ rfl⟩

end Sys2Proof.Machine
end

section
/-! Values of the scalar floating-point operations (R92, R102): NaN operands, and the width of a rounded result. -/

namespace Sys2Proof.Machine

theorem FVal.eq_nan_of_isNan {v : FVal} (h : v.isNan = true) : v = .nan := by
  cases v with
  | nan => rfl
  | inf neg => simp [FVal.isNan] at h
  | num neg m e => simp [FVal.isNan] at h

@[simp] theorem FFmt.addVal_nan_left (v : FVal) : FFmt.addVal .nan v = (.nan, .none) := rfl
@[simp] theorem FFmt.addVal_nan_right (v : FVal) : FFmt.addVal v .nan = (.nan, .none) := by cases v <;> rfl
@[simp] theorem FFmt.mulVal_nan_left (v : FVal) : FFmt.mulVal .nan v = (.nan, .none) := rfl
@[simp] theorem FFmt.mulVal_nan_right (v : FVal) : FFmt.mulVal v .nan = (.nan, .none) := by cases v <;> rfl

/-- A NaN operand of an addition or a multiplication, on either side, gives the canonical NaN. -/
theorem fpAdd_fpMul_nan (f : FFmt) (x y : W64) (h : (fpOperand f x).isNan = true) :
    (fpAdd f x y).1 = BitVec.ofNat 64 f.nan ∧ (fpAdd f y x).1 = BitVec.ofNat 64 f.nan ∧
      (fpMul f x y).1 = BitVec.ofNat 64 f.nan ∧ (fpMul f y x).1 = BitVec.ofNat 64 f.nan := by
  simp [fpAdd, fpMul, FVal.eq_nan_of_isNan h, fpResult, FFmt.roundVal]

/-- Two NaN operands of FMIN or FMAX give the canonical NaN. -/
theorem fpMinMax_nan (f : FFmt) (op : Nat) (x y : W64) (hx : (fpOperand f x).isNan = true)
    (hy : (fpOperand f y).isNan = true) : (fpMinMax f op x y).1 = BitVec.ofNat 64 f.nan := by
  simp [fpMinMax, hx, hy, FFmt.roundVal]

/-- A NaN converted to an integer gives the largest one, with the invalid flag. -/
theorem fpToInt_nan (f : FFmt) (x : W64) (h : (fpOperand f x).isNan = true) :
    fpToInt f x = (0x7FFF_FFFF_FFFF_FFFF, .invalid) := by
  simp only [fpToInt, FVal.eq_nan_of_isNan h, FVal.toInt]
  rfl

/-- Shifting m right by k bits and rounding gives at most 2^n where m lies below 2^(n + k). -/
theorem rneShift_le (m n : Nat) (k : Int) (h : (m : ℚ) < 2 ^ ((n : Int) + k)) : (rneShift m k).1 ≤ 2 ^ n := by
  unfold rneShift
  split
  next hk =>
    obtain ⟨j, hj⟩ : ∃ j : Nat, -k = j := ⟨(-k).toNat, by omega⟩
    have hprod : (m : ℚ) * 2 ^ j < 2 ^ n := by
      calc (m : ℚ) * 2 ^ j < 2 ^ ((n : Int) + k) * 2 ^ j := by gcongr
        _ = 2 ^ n := by
          rw [← zpow_natCast (2 : ℚ) j, ← zpow_add₀ two_ne_zero, ← hj, add_neg_cancel_right, zpow_natCast]
    have hnat : m * 2 ^ j < 2 ^ n := by exact_mod_cast hprod
    simpa [hj, Nat.shiftLeft_eq] using hnat.le
  next hk =>
    obtain ⟨j, hj⟩ : ∃ j : Nat, k = j := ⟨k.toNat, by omega⟩
    have hnat : m < 2 ^ n * 2 ^ j := by
      rw [hj, ← Nat.cast_add, zpow_natCast] at h
      rw [← pow_add]
      exact_mod_cast h
    have hq : m >>> j < 2 ^ n := by
      rw [Nat.shiftRight_eq_div_pow]
      exact Nat.div_lt_of_lt_mul (by rwa [Nat.mul_comm] at hnat)
    simp only [hj, Int.toNat_natCast]
    split <;> omega

/-- The leading bit of m stands at its top exponent. -/
theorem lt_topExp (m : Nat) (e : Int) : (m : ℚ) < 2 ^ (topExp m e - e + 1) := by
  have h : (m : ℚ) < 2 ^ (m.log2 + 1) := by exact_mod_cast Nat.lt_log2_self
  have he : topExp m e - e + 1 = ((m.log2 + 1 : Nat) : Int) := by simp [topExp]
  rwa [he, zpow_natCast]

/-- A code packed from a significand below 2^(mbits + 1) and an exponent in range fits the format's width. -/
theorem FFmt.pack_lt (f : FFmt) (neg : Bool) (r : Nat) (q : Int) (hr : r < 2 ^ (f.mbits + 1))
    (hq : (q + f.mbits + f.bias).toNat + 1 ≤ 2 ^ f.ebits) : f.pack neg r q < 2 ^ f.width := by
  have hsign : f.signBit neg ≤ 2 ^ (f.ebits + f.mbits) := by
    unfold FFmt.signBit bitAt
    split <;> simp
  have hw : 2 ^ f.width = 2 ^ (f.ebits + f.mbits) + 2 ^ f.ebits * 2 ^ f.mbits := by
    rw [← pow_add, FFmt.width, show 1 + f.ebits + f.mbits = f.ebits + f.mbits + 1 by omega, pow_succ]
    ring
  have hfield : ((q + f.mbits + f.bias).toNat + 1) * 2 ^ f.mbits ≤ 2 ^ f.ebits * 2 ^ f.mbits := Nat.mul_le_mul_right _ hq
  have hone : 0 < 2 ^ f.mbits := by positivity
  rw [add_mul, one_mul] at hfield
  rw [pow_succ] at hr
  unfold FFmt.pack
  split <;> omega

/-- A significand rounded up to the next binade is halved; it is then below 2^(mbits + 1). -/
theorem FFmt.carry_lt (f : FFmt) (r : Nat) (q : Int) (h : r ≤ 2 ^ (f.mbits + 1)) :
    (if r = 2 ^ (f.mbits + 1) then (2 ^ f.mbits, q + 1) else (r, q)).1 < 2 ^ (f.mbits + 1) := by
  split
  · exact Nat.pow_lt_pow_right (by decide) (by omega)
  · exact lt_of_le_of_ne h ‹_›

theorem FFmt.signBit_add_lt (f : FFmt) (neg : Bool) (x : Nat) (h : x < 2 ^ (f.ebits + f.mbits)) :
    f.signBit neg + x < 2 ^ f.width := by
  have hw : 2 ^ f.width = 2 ^ (f.ebits + f.mbits) + 2 ^ (f.ebits + f.mbits) := by
    rw [FFmt.width, show 1 + f.ebits + f.mbits = f.ebits + f.mbits + 1 by omega, pow_succ]
    ring
  unfold FFmt.signBit bitAt
  split <;> omega

theorem FFmt.infinity_lt (f : FFmt) (neg : Bool) : f.infinity neg < 2 ^ f.width := by
  refine f.signBit_add_lt neg _ ?_
  rw [pow_add]
  exact Nat.mul_lt_mul_of_pos_right (Nat.sub_lt (by positivity) (by decide)) (by positivity)

/-- A rounded code of an IEEE format fits its width. -/
theorem FFmt.round_lt (f : FFmt) (hf : f.top = .ieee) (he : 1 ≤ f.ebits) (flush neg : Bool) (m : Nat) (e : Int) :
    (f.round flush neg m e).1 < 2 ^ f.width := by
  have hzero : f.zero neg < 2 ^ f.width := f.signBit_add_lt neg 0 (by positivity)
  have htwo : 2 ≤ 2 ^ f.ebits := Nat.pow_le_pow_right (n := 2) (by decide) he
  simp only [FFmt.round]
  split
  · exact hzero
  split
  · exact hzero
  have hle := rneShift_le m (f.mbits + 1) (max (topExp m e) f.emin - f.mbits - e) (by
    refine (lt_topExp m e).trans_le (zpow_le_zpow_right₀ (by norm_num) ?_)
    have := le_max_left (topExp m e) f.emin
    push_cast
    omega)
  have hcarry := f.carry_lt (rneShift m (max (topExp m e) f.emin - f.mbits - e)).1 (max (topExp m e) f.emin - f.mbits) hle
  generalize (if (rneShift m (max (topExp m e) f.emin - f.mbits - e)).1 = 2 ^ (f.mbits + 1) then
    (2 ^ f.mbits, max (topExp m e) f.emin - f.mbits + 1) else _) = rq at hcarry ⊢
  split
  · exact f.infinity_lt neg
  next hmax =>
    refine f.pack_lt neg rq.1 rq.2 hcarry ?_
    have hq : rq.2 ≤ f.maxFinite.2 := by
      rw [not_or] at hmax
      exact not_lt.mp hmax.1
    simp only [FFmt.maxFinite, hf] at hq
    omega

/-- Every rounded result of FP32 clears [63:32] (R102). -/
theorem roundVal_fp32_lt (v : FVal) : (FFmt.fp32.roundVal true v).1 < 2 ^ 32 := by
  cases v with
  | nan => decide
  | inf neg => exact FFmt.fp32.infinity_lt neg
  | num neg m e => exact FFmt.fp32.round_lt rfl (by decide) true neg m e

theorem ofNat_toNat_lt (n : Nat) (h : n < 2 ^ 32) : (BitVec.ofNat 64 n).toNat < 2 ^ 32 := by
  rw [BitVec.toNat_ofNat]
  exact (Nat.mod_le _ _).trans_lt h

theorem fpResult_fp32_lt (r : FVal × FFlags) : (fpResult .fp32 r).1.toNat < 2 ^ 32 :=
  ofNat_toNat_lt _ (roundVal_fp32_lt r.1)

theorem fpMinMax_fp32_lt (op : Nat) (x y : W64) : (fpMinMax .fp32 op x y).1.toNat < 2 ^ 32 := by
  have pick (v : FVal) : (BitVec.ofNat 64 (FFmt.fp32.roundVal true v).1).toNat < 2 ^ 32 :=
    ofNat_toNat_lt _ (roundVal_fp32_lt v)
  simp only [fpMinMax]
  split
  · exact pick _
  split
  · split <;> exact pick _
  split
  · split <;> exact pick _
  · split <;> exact pick _

/-- What an instruction does whose operation raises the invalid flag under INV_TRAP. -/
theorem completes_fpTrap {i : Instr} {s : State} {st : StallId} {d a b : SReg} (g : W64 → W64 → W64 × FFlags)
    (hi : s.issues st 1) (he : exec i s = .next (fpBinary st d a b g s)) (r : W64 × FFlags)
    (hr : g (s.dev.sreg st a) (s.dev.sreg st b) = r) (ht : (s.dev.cur st).invTrap = true) (hf : flag r.2 0 = true)
    (hx : flag ((s.dev.cur st).getCr 0x01) 0 = false) :
    Completes i s fun t =>
      ((s.dev.cur st).addFlags r.2).entered 7 Status.fpInvalid 0 (t.dev.cur st) ∧
        (∀ q, t.dev.sreg st q = s.dev.sreg st q) ∧ s.sameMemory t := by
  refine ⟨_, he.trans (congrArg _ (fpBinary_of_issues s st d a b g hi)), ?_⟩
  have hidle : flag (((s.dev.cur st).addFlags r.2).getCr 0x01) 0 = false := by
    rwa [SlotCtx.addFlags, SlotCtx.getCr_setCr_ne _ _ _ _ (by decide)]
  have h := took_after s st (fun c => c.addFlags r.2) 7 Status.fpInvalid 0 hidle fun _ => rfl
  simpa only [State.onDev, hr, fpWrite_of_traps _ st d r ht hf] using h

/-- Settles O5: NaN operands, the width of FP32 results and saturation are facts of the operations; the trap is fpWrite's. -/
theorem scalarFloatValues : Obligations.ScalarFloatValues := by
  refine ⟨⟨fpAdd_fpMul_nan .fp64, fpAdd_fpMul_nan .fp32,
    fun op x y => ⟨fpMinMax_nan .fp64 op x y, fpMinMax_nan .fp32 op x y⟩, fun op p q x y z => ?_,
    fpToInt_nan .fp64, fpToInt_nan .fp32, by decide, by decide⟩, ?traps⟩
  · exact ⟨fpResult_fp32_lt _, fpResult_fp32_lt _, fpResult_fp32_lt _, fpResult_fp32_lt _, fpResult_fp32_lt _,
      fpMinMax_fp32_lt op x y, fpResult_fp32_lt _, fpResult_fp32_lt _, fpResult_fp32_lt _⟩
  case traps =>
    intro st d a b s hi slot x y traps
    exact ⟨completes_fpTrap _ hi rfl _ rfl, completes_fpTrap _ hi rfl _ rfl, completes_fpTrap _ hi rfl _ rfl⟩

end Sys2Proof.Machine
end

section
/-! Control flow (R92, R94, R98 to R101): branches, jumps and the targets they name. -/

namespace Sys2Proof.Machine

/-- A 16-bit offset is the whole displacement of a target. -/
theorem targetOf_of_16 (pc : Tack) (off : BitVec 16) : targetOf pc off = pc + 4 * off := by
  rw [targetOf, BitVec.signExtend_eq]

/-- Of a wider offset a target keeps the low 16 bits. -/
theorem targetOf_of_le {w : Nat} (hw : 16 ≤ w) (pc : Tack) (off : BitVec w) : targetOf pc off = pc + 4 * off.setWidth 16 := by
  rw [targetOf, BitVec.signExtend_eq_setWidth_of_le off hw]

/-- A branch whose relation holds is a jump of the running slot, and one whose relation fails only retires. -/
theorem completes_branch {i : Instr} {s : State} {st : StallId} {a b : SReg} {off : BitVec 16} (rel : W64 → W64 → Bool)
    {p : Prop} (hi : s.issues st 1) (he : exec i s = .next (branch st a b off rel s))
    (hp : rel (s.dev.sreg st a) (s.dev.sreg st b) = true ↔ p) :
    (p → Completes i s fun t =>
      s.sameButSlot st t ∧ (s.dev.cur st).jumped ((s.dev.cur st).pc + 4 * off) (t.dev.cur st)) ∧
    (¬ p → Completes i s (s.onlyRetired st 1)) := by
  simp only [branch, State.onDev, Device.issue_eq s st 1 _ hi] at he
  constructor
  · intro h
    rw [if_pos (hp.mpr h)] at he
    have hj := jump_jumped (s.dev.cur st) (targetOf (s.dev.cur st).pc off)
    rw [targetOf_of_16] at hj
    refine ⟨_, he, sameButSlot_modCur s st _, ?_⟩
    simpa only [Device.cur_modCur, targetOf_of_16] using hj
  · intro h
    rw [if_neg (mt hp.mp h)] at he
    exact ⟨_, he, onlyRetired_retire s st 1⟩

/-- JALR writes its return address and jumps: a change of the running slot alone. -/
theorem exec_jalr_of_issues (s : State) (st : StallId) (d a : SReg) (imm : Imm) (hi : s.issues st imm.words) :
    exec (.jalr st d a imm) s = .next (s.onDev fun dev =>
      dev.modCur st fun c =>
        (c.setS d (returnAddress c imm.words)).jump ((s.dev.sreg st a + imm.sext).setWidth 16 &&& 0xFFFC)) := by
  simp only [exec, execJalr, State.onDev, Device.issue_eq s st _ _ hi]

/-- Settles O6: a taken branch, JAL and JALR are jumps of the running slot to the target that they name. -/
theorem branchesAndJumps : Obligations.BranchesAndJumps := by
  refine ⟨fun st a b off s hi => ?branches, fun st off s hi => ?jal, fun st d a imm s hi => ?jalr⟩
  case branches =>
    intro x y slot takes
    refine ⟨completes_branch _ hi rfl ?eq, completes_branch _ hi rfl ?ne, completes_branch _ hi rfl ?lt,
      completes_branch _ hi rfl ?ge, completes_branch _ hi rfl ?ltu, completes_branch _ hi rfl ?geu⟩
    case eq => exact beq_iff_eq
    case ne => exact bne_iff_ne
    case lt => exact BitVec.slt_iff_toInt_lt
    case ge => simp only [BitVec.slt, Bool.not_eq_true', decide_eq_false_iff_not, not_lt]; rfl
    case ltu => exact BitVec.ult_iff_toNat_lt
    case geu => simp only [BitVec.ult, Bool.not_eq_true', decide_eq_false_iff_not, not_lt]; rfl
  case jal =>
    have hj := jump_jumped ((s.dev.cur st).setS 31 (returnAddress (s.dev.cur st) 1)) (targetOf (s.dev.cur st).pc off)
    rw [targetOf_of_le (by decide)] at hj
    refine ⟨_, exec_jal_of_issues s st off hi, sameButSlot_modCur s st _, ?_⟩
    simp only [State.onDev_dev, Device.cur_modCur, targetOf_of_le (by decide : 16 ≤ 26)]
    exact hj
  case jalr =>
    refine ⟨_, exec_jalr_of_issues s st d a imm hi, sameButSlot_modCur s st _, ?_⟩
    simp only [State.onDev_dev, Device.cur_modCur]
    exact jump_jumped _ _

end Sys2Proof.Machine
end

section
/-! Hardware loops (R103): the fields of a LOOP register, the three outcomes of LOOP, and the end of a body. -/

namespace Sys2Proof.Machine

/-- A LOOP register made of a count and the two addresses of its body. -/
def loopReg (n : Nat) (first last : Tack) : W64 := BitVec.ofNat 64 (n * 2 ^ 32 + first.toNat * 2 ^ 16 + last.toNat)

section
variable (n : Nat) (first last : Tack)

theorem loopReg_toNat (hn : n < 2 ^ 32) :
    (loopReg n first last).toNat = n * 2 ^ 32 + first.toNat * 2 ^ 16 + last.toNat := by
  have h1 := first.isLt
  have h2 := last.isLt
  rw [loopReg, BitVec.toNat_ofNat, Nat.mod_eq_of_lt (by omega)]

theorem loopCount_loopReg (hn : n < 2 ^ 32) : loopCount (loopReg n first last) = n := by
  have h1 := first.isLt
  have h2 := last.isLt
  rw [loopCount, field, loopReg_toNat n first last hn, Nat.shiftRight_eq_div_pow]
  omega

theorem loopFirst_loopReg (hn : n < 2 ^ 32) : loopFirst (loopReg n first last) = first := by
  have h1 := first.isLt
  have h2 := last.isLt
  apply BitVec.eq_of_toNat_eq
  rw [loopFirst, field, loopReg_toNat n first last hn, Nat.shiftRight_eq_div_pow, BitVec.toNat_ofNat]
  omega

theorem loopLast_loopReg (hn : n < 2 ^ 32) : loopLast (loopReg n first last) = last := by
  have h1 := first.isLt
  have h2 := last.isLt
  apply BitVec.eq_of_toNat_eq
  rw [loopLast, field, loopReg_toNat n first last hn, Nat.shiftRight_eq_div_pow, BitVec.toNat_ofNat]
  omega

end

/-- A LOOP register with another count keeps its addresses. -/
theorem withCount_eq (r : W64) (n : Nat) : withCount r n = loopReg n (loopFirst r) (loopLast r) := by
  have hfields : (loopFirst r).toNat * 2 ^ 16 + (loopLast r).toNat = field r 0 32 := by
    simp only [loopFirst, loopLast, field, Nat.shiftRight_eq_div_pow, BitVec.toNat_ofNat]
    omega
  rw [withCount, loopReg, add_assoc, hfields]

theorem loopCount_lt (r : W64) : loopCount r < 2 ^ 32 := Nat.mod_lt _ (by decide)

/-- The last instruction of an active loop's body takes one from the count, and goes back while turns are left. -/
theorem SlotCtx.loopBack_active (c : SlotCtx) (n : Nat) (a : Tack) (hn : n < 96) (h : loopCount (c.getCr n) ≠ 0)
    (ha : loopLast (c.getCr n) = a) :
    (c.loopBack n a).1.getCr n = withCount (c.getCr n) (loopCount (c.getCr n) - 1) ∧
      (c.loopBack n a).1.pc = if loopCount (c.getCr n) = 1 then c.pc else loopFirst (c.getCr n) := by
  have hsame := c.getCr_setCr_same n (withCount (c.getCr n) (loopCount (c.getCr n) - 1)) hn
  rw [SlotCtx.loopBack, if_pos ⟨h, ha⟩]
  by_cases hone : loopCount (c.getCr n) = 1
  · rw [if_pos hone, if_neg (by omega)]
    exact ⟨hsame, rfl⟩
  · rw [if_neg hone, if_pos (by omega)]
    exact ⟨hsame, rfl⟩

/-- With the inner loop inactive, retirement looks at the outer loop alone. -/
theorem SlotCtx.advance_of_inner_inactive (c : SlotCtx) (n : Nat) (h : loopCount (c.getCr 0x3D) = 0) :
    c.advance n = (SlotCtx.loopBack { c.skip n with resumeAt := none } 0x3C c.pc).1 := by
  have hinner := SlotCtx.loopBack_eq { c.skip n with resumeAt := none } 0x3D c.pc (.inl h)
  rw [SlotCtx.advance, hinner]
  rfl

/-- The end of an active outer body: its count falls by one, and while turns are left the body begins again. -/
theorem SlotCtx.advance_outer (c : SlotCtx) (n : Nat) (hin : loopCount (c.getCr 0x3D) = 0)
    (hout : loopCount (c.getCr 0x3C) ≠ 0) (hlast : loopLast (c.getCr 0x3C) = c.pc) :
    (c.advance n).getCr 0x3C = withCount (c.getCr 0x3C) (loopCount (c.getCr 0x3C) - 1) ∧
      (c.advance n).pc =
        if loopCount (c.getCr 0x3C) = 1 then c.pc + BitVec.ofNat 16 (4 * n) else loopFirst (c.getCr 0x3C) := by
  rw [c.advance_of_inner_inactive n hin]
  exact SlotCtx.loopBack_active { c.skip n with resumeAt := none } 0x3C c.pc (by decide) hout hlast

section
variable (s : State) (st : StallId) (d a : SReg) (imm : Imm) (hi : s.issues st imm.words)
include hi

/-- A body without an instruction, and a third loop, are illegal. -/
theorem exec_loop_of_illegal (h : imm.sext.toInt < imm.words ∨
      (loopCount ((s.dev.cur st).getCr 0x3C) ≠ 0 ∧ loopCount ((s.dev.cur st).getCr 0x3D) ≠ 0)) :
    exec (.loop st d a imm) s =
      .next (s.onDev fun dev => dev.illegal st (Coeri.firstWord (.loop st d a imm))) := by
  simp only [exec, execLoop, State.onDev, Device.issue_eq s st _ _ hi, if_pos h]

variable (h : ¬ (imm.sext.toInt < imm.words ∨
      (loopCount ((s.dev.cur st).getCr 0x3C) ≠ 0 ∧ loopCount ((s.dev.cur st).getCr 0x3D) ≠ 0)))
include h

/-- A count of 0 goes on behind the body. -/
theorem exec_loop_of_zero (hn : s.dev.sreg st a = 0) :
    exec (.loop st d a imm) s = .next (s.onDev fun dev =>
      let last := (s.dev.cur st).pc + 4 * imm.sext.setWidth 16
      let after := last + BitVec.ofNat 16 (4 * s.dev.wordsAt st last)
      dev.modCur st fun c => (SlotCtx.loopBack { c with pc := after, resumeAt := none } 0x3C last).1) := by
  simp only [exec, execLoop, State.onDev, Device.issue_eq s st _ _ hi, if_neg h, if_pos hn,
    targetOf_of_le (by decide : 16 ≤ 64)]

/-- A count of 32 bits that is not 0 begins the body. -/
theorem exec_loop_of_count (hn : s.dev.sreg st a ≠ 0) (hlt : (s.dev.sreg st a).toNat < 2 ^ 32) :
    exec (.loop st d a imm) s = .next (s.onDev fun dev =>
      let first := (s.dev.cur st).pc + BitVec.ofNat 16 (4 * imm.words)
      let last := (s.dev.cur st).pc + 4 * imm.sext.setWidth 16
      dev.modCur st fun c =>
        { (c.setCr (if loopCount ((s.dev.cur st).getCr 0x3C) ≠ 0 then 0x3D else 0x3C)
            (loopReg (s.dev.sreg st a).toNat first last)) with pc := first, resumeAt := none }) := by
  simp only [exec, execLoop, State.onDev, Device.issue_eq s st _ _ hi, if_neg h, if_neg hn,
    targetOf_of_le (by decide : 16 ≤ 64), loopTurns, if_pos hlt, loopReg]

end

/-- Settles O7: LOOP has three outcomes, each an equation above; the end of a body is advance_outer. -/
theorem hardwareLoops : Obligations.HardwareLoops := by
  refine ⟨fun st d a imm s hi => ?loop, fun c n hin hout hlast => ?body⟩
  case loop =>
    intro slot n outer inner first last
    refine ⟨fun hbody hfree hn hlt => ?count, fun hbody hn hfree hlast => ?zero, fun hill hidle => ?illegal⟩
    case count =>
      have hlegal : ¬ (imm.sext.toInt < imm.words ∨ (outer ∧ inner)) := by
        rintro (h | h)
        · omega
        · exact hfree h
      have hne : s.dev.sreg st a ≠ 0 := fun h => hn (by simp [n, h])
      refine ⟨_, exec_loop_of_count s st d a imm hi hlegal hne hlt, sameButSlot_modCur s st _, ?_⟩
      simp only [State.onDev_dev, Device.cur_modCur, Device.sreg_modCur]
      by_cases hout : loopCount (slot.getCr 0x3C) ≠ 0
      · rw [if_pos hout]
        have hreg := slot.getCr_setCr_same 0x3D (loopReg n first last) (by decide)
        refine ⟨rfl, fun r => rfl, fun m _ hm => slot.getCr_setCr_ne 0x3D m _ hm, fun h => absurd hout h, fun _ => ?_⟩
        exact ⟨(congrArg loopCount hreg).trans (loopCount_loopReg n first last hlt),
          (congrArg loopFirst hreg).trans (loopFirst_loopReg n first last hlt),
          (congrArg loopLast hreg).trans (loopLast_loopReg n first last hlt), slot.getCr_setCr_ne 0x3D 0x3C _ (by decide)⟩
      · rw [if_neg hout]
        have hreg := slot.getCr_setCr_same 0x3C (loopReg n first last) (by decide)
        refine ⟨rfl, fun r => rfl, fun m hm _ => slot.getCr_setCr_ne 0x3C m _ hm, fun _ => ?_, fun h => absurd h hout⟩
        exact ⟨(congrArg loopCount hreg).trans (loopCount_loopReg n first last hlt),
          (congrArg loopFirst hreg).trans (loopFirst_loopReg n first last hlt),
          (congrArg loopLast hreg).trans (loopLast_loopReg n first last hlt), slot.getCr_setCr_ne 0x3C 0x3D _ (by decide)⟩
    case zero =>
      have hlegal : ¬ (imm.sext.toInt < imm.words ∨ (outer ∧ inner)) := by
        rintro (h | h)
        · omega
        · exact hfree h
      have hz : s.dev.sreg st a = 0 := BitVec.eq_of_toNat_eq hn
      refine ⟨_, exec_loop_of_zero s st d a imm hi hlegal hz, sameButSlot_modCur s st _, ?_⟩
      have hback := SlotCtx.loopBack_eq
        { slot with pc := last + BitVec.ofNat 16 (4 * s.dev.wordsAt st last), resumeAt := none } 0x3C last (by
          by_cases h : loopCount (slot.getCr 0x3C) = 0
          · exact .inl h
          · exact .inr (hlast h))
      simp only [State.onDev_dev, Device.cur_modCur]
      exact ⟨congrArg (fun x => x.1.pc) hback, congrArg (fun x => x.1.cr) hback, congrArg (fun x => x.1.s) hback⟩
    case illegal =>
      exact ⟨_, exec_loop_of_illegal s st d a imm hi hill, raise_took s st 1 0 _ hidle⟩
  case body =>
    obtain ⟨hreg, hpc⟩ := c.advance_outer n hin hout hlast
    have hlt : loopCount (c.getCr 0x3C) - 1 < 2 ^ 32 := (Nat.sub_le _ _).trans_lt (loopCount_lt _)
    rw [withCount_eq] at hreg
    intro e
    simp only [e, hreg, loopCount_loopReg _ _ _ hlt, loopFirst_loopReg _ _ _ hlt, loopLast_loopReg _ _ _ hlt, hpc]
    exact ⟨by omega, trivial, trivial, trivial⟩

end Sys2Proof.Machine
end

section
/-! Little-endian numbers: the value of a byte list, the bytes of a number, and widening. -/

namespace Sys2Proof.Machine

theorem leNat_lt (l : List Byte) : leNat l < 2 ^ (8 * l.length) := by
  induction l with
  | nil => simp [leNat]
  | cons b t ih =>
    have hb := b.isLt
    have hpow : 2 ^ (8 * (b :: t).length) = 256 * 2 ^ (8 * t.length) := by
      rw [List.length_cons, Nat.mul_add, pow_add]
      ring
    simp only [leNat]
    omega

@[simp] theorem length_leBytes (k n : Nat) : (leBytes k n).length = k := by
  induction k generalizing n with
  | zero => rfl
  | succ k ih => simp [leBytes, ih]

/-- Byte j of a number. -/
theorem getElem_leBytes (k n j : Nat) (h : j < (leBytes k n).length) : (leBytes k n)[j] = BitVec.ofNat 8 (n / 256 ^ j) := by
  induction k generalizing n j with
  | zero => simp [leBytes] at h
  | succ k ih =>
    cases j with
    | zero => simp [leBytes]
    | succ j =>
      simp only [leBytes, List.getElem_cons_succ, ih, Nat.div_div_eq_div_mul, pow_succ, mul_comm]

/-- Byte j of a register is a shift of it. -/
theorem ofNat_div_eq_shift (x : W64) (j : Nat) : BitVec.ofNat 8 (x.toNat / 256 ^ j) = (x >>> (8 * j)).setWidth 8 := by
  apply BitVec.eq_of_toNat_eq
  rw [BitVec.toNat_ofNat, BitVec.toNat_setWidth, BitVec.toNat_ushiftRight, Nat.shiftRight_eq_div_pow, pow_mul,
    show (2 : Nat) ^ 8 = 256 from rfl]

/-- A number and its bytes. -/
theorem leNat_leBytes (k n : Nat) : leNat (leBytes k n) = n % 2 ^ (8 * k) := by
  induction k generalizing n with
  | zero => simp [leBytes, leNat, Nat.mod_one]
  | succ k ih =>
    have hpow : 2 ^ (8 * (k + 1)) = 256 * 2 ^ (8 * k) := by
      rw [Nat.mul_add, pow_add]
      ring
    rw [leBytes, leNat, ih, BitVec.toNat_ofNat, hpow, Nat.mod_mul]

theorem intOfNat_eq_toInt (w n : Nat) : intOfNat w n = (BitVec.ofNat w n).toInt := by
  simp only [intOfNat, BitVec.toInt_eq_toNat_cond, BitVec.toNat_ofNat]

/-- Sign extension of k bytes. -/
theorem signBytes_eq (k n : Nat) : signBytes k n = (BitVec.ofNat (8 * k) n).signExtend 64 := by
  rw [signBytes, intOfNat_eq_toInt]
  rfl

/-- Zero extension of w bits. -/
theorem zeroBytes_eq (w n : Nat) (h : n < 2 ^ w) : zeroBytes n = (BitVec.ofNat w n).setWidth 64 := by
  apply BitVec.eq_of_toNat_eq
  rw [zeroBytes, BitVec.toNat_setWidth, BitVec.toNat_ofNat, BitVec.toNat_ofNat, Nat.mod_eq_of_lt h]

end Sys2Proof.Machine
end

section
/-! Scalar loads and stores of the loft (R104, R105): a load's bytes and their widening, a store's bytes and its frame, and
the faults of both. -/

namespace Sys2Proof.Machine

namespace Device

@[simp] theorem length_rdBytes (d : Device) (a n : Nat) : (d.rdBytes a n).length = n := by simp [rdBytes]

theorem leNat_rdBytes_lt (d : Device) (a n : Nat) : leNat (d.rdBytes a n) < 2 ^ (8 * n) := by
  simpa using leNat_lt (d.rdBytes a n)

section
variable (d : Device) (a : Nat)

/-- The number that n little-endian bytes from a spell, byte by byte. -/
theorem leNat_rdBytes_succ (n : Nat) :
    leNat (d.rdBytes a (n + 1)) = (d.rdByte a).toNat + 256 * leNat (d.rdBytes (a + 1) n) := by
  simp only [rdBytes, List.range_succ_eq_map, List.map_cons, List.map_map, leNat, Nat.add_zero]
  congr 3
  exact List.map_congr_left fun i _ => congrArg d.rdByte (by simp; omega)

theorem leNat_rdBytes_one : leNat (d.rdBytes a 1) = (d.rdByte (a + 0)).toNat := by
  simp [rdBytes, leNat]

theorem leNat_rdBytes_two :
    leNat (d.rdBytes a 2) = (d.rdByte (a + 0)).toNat + (d.rdByte (a + 1)).toNat * 2 ^ 8 := by
  simp only [leNat_rdBytes_succ d a 1, leNat_rdBytes_one, Nat.add_zero]
  omega

theorem leNat_rdBytes_four :
    leNat (d.rdBytes a 4) = (d.rdByte (a + 0)).toNat + (d.rdByte (a + 1)).toNat * 2 ^ 8 +
      (d.rdByte (a + 2)).toNat * 2 ^ 16 + (d.rdByte (a + 3)).toNat * 2 ^ 24 := by
  simp only [leNat_rdBytes_succ d _ 3, leNat_rdBytes_succ d _ 2, leNat_rdBytes_two, Nat.add_zero, add_assoc, Nat.reduceAdd]
  omega

theorem leNat_rdBytes_eight :
    leNat (d.rdBytes a 8) = (d.rdByte (a + 0)).toNat + (d.rdByte (a + 1)).toNat * 2 ^ 8 +
      (d.rdByte (a + 2)).toNat * 2 ^ 16 + (d.rdByte (a + 3)).toNat * 2 ^ 24 + (d.rdByte (a + 4)).toNat * 2 ^ 32 +
      (d.rdByte (a + 5)).toNat * 2 ^ 40 + (d.rdByte (a + 6)).toNat * 2 ^ 48 + (d.rdByte (a + 7)).toNat * 2 ^ 56 := by
  simp only [leNat_rdBytes_succ d _ 7, leNat_rdBytes_succ d _ 6, leNat_rdBytes_succ d _ 5, leNat_rdBytes_succ d _ 4,
    leNat_rdBytes_four, Nat.add_zero, add_assoc, Nat.reduceAdd]
  omega

end

@[simp] theorem stalls_wrBytes (d : Device) (a : Nat) (l : List Byte) : (d.wrBytes a l).stalls = d.stalls := by
  rw [wrBytes_only]

@[simp] theorem stall_wrBytes (d : Device) (a : Nat) (l : List Byte) (st : StallId) :
    (d.wrBytes a l).stall st = d.stall st := by
  simp [stall]

@[simp] theorem cur_wrBytes (d : Device) (a : Nat) (l : List Byte) (st : StallId) : (d.wrBytes a l).cur st = d.cur st := by
  simp [cur]

@[simp] theorem slotOf_wrBytes (d : Device) (a : Nat) (l : List Byte) (st : StallId) :
    (d.wrBytes a l).slotOf st = d.slotOf st := by
  simp [slotOf]

/-- A change of the running slot writes no byte of memory. -/
@[simp] theorem rdByte_modCur (d : Device) (st : StallId) (f : SlotCtx → SlotCtx) (a : Nat) :
    (d.modCur st f).rdByte a = d.rdByte a := rfl

theorem loftBase_le_loftAt (d : Device) (st : StallId) (ea : Nat) : loftBase ≤ d.loftAt st ea :=
  loftBase_le st _

theorem loftBase_le_unitOf_loftAt (d : Device) (st : StallId) (ea : Nat) : loftBase ≤ unitOf (d.loftAt st ea) :=
  unitOf_loft_ge _ (d.loftBase_le_loftAt st ea)

/-- An access below LOFT_LIMIT and aligned to its size takes place. -/
theorem scalarAccess_of_ok (d : Device) (st : StallId) (ea : W64) (k : Nat) (f : Device → Device)
    (hlim : ea.toNat < d.loftLimit st (d.slotOf st)) (hal : ea.toNat % k = 0) : d.scalarAccess st ea k f = f d := by
  rw [scalarAccess, if_neg (Nat.not_le.mpr hlim), if_neg (not_not.mpr hal)]

/-- At or above LOFT_LIMIT an access takes LOFT_ADDRESS, aligned or not. -/
theorem scalarAccess_of_limit (d : Device) (st : StallId) (ea : W64) (k : Nat) (f : Device → Device)
    (hlim : d.loftLimit st (d.slotOf st) ≤ ea.toNat) : d.scalarAccess st ea k f = d.loftAddress st ea := by
  rw [scalarAccess, if_pos hlim]

/-- Below LOFT_LIMIT an access that is not aligned to its size takes LOFT_MISALIGNED. -/
theorem scalarAccess_of_misaligned (d : Device) (st : StallId) (ea : W64) (k : Nat) (f : Device → Device)
    (hlim : ea.toNat < d.loftLimit st (d.slotOf st)) (hal : ea.toNat % k ≠ 0) :
    d.scalarAccess st ea k f = d.loftMisaligned st ea := by
  rw [scalarAccess, if_neg (Nat.not_le.mpr hlim), if_pos hal]

end Device

/-- An instruction that issues runs. -/
theorem onDev_issue {s : State} {st : StallId} {n : Nat} (hi : s.issues st n) (f : Device → Device) :
    (s.onDev fun dev => dev.issue st n f) = s.onDev f :=
  congrArg (fun e => ({ s with dev := e } : State)) (Device.issue_eq s st n f hi)

/-- Two changes that answer alike for the device of s are one. -/
theorem onDev_congr {s : State} {f g : Device → Device} (h : f s.dev = g s.dev) : s.onDev f = s.onDev g :=
  congrArg (fun e => ({ s with dev := e } : State)) h

section
variable {s : State} {st : StallId} {d a : SReg} {imm : Imm} (hi : s.issues st imm.words)
include hi

/-- The faults of a load: nothing is read. -/
theorem scalarLoad_of_limit (k : Nat) (ext : Nat → W64)
    (hlim : s.dev.loftLimit st (s.dev.slotOf st) ≤ (s.dev.effective st a imm).toNat) :
    scalarLoad st d a imm k ext s = s.onDev fun dev => dev.loftAddress st (s.dev.effective st a imm) :=
  (onDev_issue hi _).trans (onDev_congr (Device.scalarAccess_of_limit s.dev st _ k _ hlim))

theorem scalarLoad_of_misaligned (k : Nat) (ext : Nat → W64)
    (hlim : (s.dev.effective st a imm).toNat < s.dev.loftLimit st (s.dev.slotOf st))
    (hal : (s.dev.effective st a imm).toNat % k ≠ 0) :
    scalarLoad st d a imm k ext s = s.onDev fun dev => dev.loftMisaligned st (s.dev.effective st a imm) :=
  (onDev_issue hi _).trans (onDev_congr (Device.scalarAccess_of_misaligned s.dev st _ k _ hlim hal))

/-- The faults of a store: nothing is written. -/
theorem scalarStore_of_limit (k : Nat)
    (hlim : s.dev.loftLimit st (s.dev.slotOf st) ≤ (s.dev.effective st a imm).toNat) :
    scalarStore st d a imm k s = s.onDev fun dev => dev.loftAddress st (s.dev.effective st a imm) :=
  (onDev_issue hi _).trans (onDev_congr (Device.scalarAccess_of_limit s.dev st _ k _ hlim))

theorem scalarStore_of_misaligned (k : Nat)
    (hlim : (s.dev.effective st a imm).toNat < s.dev.loftLimit st (s.dev.slotOf st))
    (hal : (s.dev.effective st a imm).toNat % k ≠ 0) :
    scalarStore st d a imm k s = s.onDev fun dev => dev.loftMisaligned st (s.dev.effective st a imm) :=
  (onDev_issue hi _).trans (onDev_congr (Device.scalarAccess_of_misaligned s.dev st _ k _ hlim hal))

variable (k : Nat) (hlim : (s.dev.effective st a imm).toNat < s.dev.loftLimit st (s.dev.slotOf st))
  (hal : (s.dev.effective st a imm).toNat % k = 0)
  (hb : unitOf (s.dev.loftAt st (s.dev.effective st a imm).toNat) ∉ s.dev.bad)
  (hc : unitOf (s.dev.loftAt st (s.dev.effective st a imm).toNat) ∉ s.dev.ce)
include hlim hal hb hc

/-- A load of k bytes from a word free of errors writes them, widened, to sd. -/
theorem scalarLoad_of_clean (ext : Nat → W64) :
    scalarLoad st d a imm k ext s = s.onDev fun dev =>
      (dev.setSreg st d (ext (leNat (s.dev.rdBytes (s.dev.loftAt st (s.dev.effective st a imm).toNat) k)))).retire st
        imm.words := by
  have hread := s.dev.readUnit_clean _ false (s.dev.loftBase_le_unitOf_loftAt st _) hb hc
  refine (onDev_issue hi _).trans (onDev_congr ((Device.scalarAccess_of_ok s.dev st _ k _ hlim hal).trans ?_))
  extract_lets at_
  rw [show s.dev.readUnit (unitOf at_) false = (s.dev, .ok) from hread]
  exact if_pos rfl

/-- A store of k bytes into a word free of errors writes them and retires. -/
theorem scalarStore_of_clean (hinj : s.dev.tally.armed = false) :
    scalarStore st d a imm k s = s.onDev fun dev =>
      (dev.wrBytes (s.dev.loftAt st (s.dev.effective st a imm).toNat) (leBytes k (s.dev.sreg st d).toNat)).retire st
        imm.words := by
  have hwrite := s.dev.writeUnit_clean _ (leBytes k (s.dev.sreg st d).toNat) false (s.dev.loftBase_le_loftAt st _) hb hc hinj
  refine (onDev_issue hi _).trans (onDev_congr ((Device.scalarAccess_of_ok s.dev st _ k _ hlim hal).trans ?_))
  rw [hwrite]
  exact if_pos rfl

end

/-- A write of bytes, then retirement: the frame of a store. -/
theorem sameButStallMem_store (s : State) (st : StallId) (p : Nat) (l : List Byte) (n : Nat) :
    s.sameButStallMem st (s.onDev fun dev => (dev.wrBytes p l).retire st n) := by
  refine ⟨⟨rfl, rfl⟩, ?_, fun u hu => ?_, ?_⟩
  · simp only [State.onDev_dev, Device.retire, Device.modCur, Device.modStall]
    rw [Device.wrBytes_only]
  · exact (Device.stall_modCur_ne _ st u _ hu).trans (s.dev.stall_wrBytes p l u)
  · simp only [State.onDev_dev, Device.retire, Device.stall_modCur, Device.cur_modCur, Device.stall_wrBytes,
      Device.slotOf_wrBytes]

/-- Settles O8: each load writes the number that its bytes spell, widened. -/
theorem scalarLoads : Obligations.ScalarLoads := by
  intro st d a imm s hi ea p b n1 n2 n4 n8 loads hlim hb hc
  have load {i : Instr} {v : W64} (k : Nat) (ext : Nat → W64) (he : exec i s = .next (scalarLoad st d a imm k ext s))
      (hv : ext (leNat (s.dev.rdBytes p k)) = v) : loads i k v := fun hal =>
    ⟨_, he.trans (congrArg _ (scalarLoad_of_clean hi k hlim hal hb hc ext)), hv ▸ wroteScalar_retire s st _ d _⟩
  have e1 : leNat (s.dev.rdBytes p 1) = n1 := s.dev.leNat_rdBytes_one p
  have e2 : leNat (s.dev.rdBytes p 2) = n2 := s.dev.leNat_rdBytes_two p
  have e4 : leNat (s.dev.rdBytes p 4) = n4 := s.dev.leNat_rdBytes_four p
  have e8 : leNat (s.dev.rdBytes p 8) = n8 := s.dev.leNat_rdBytes_eight p
  have l1 := s.dev.leNat_rdBytes_lt p 1
  have l2 := s.dev.leNat_rdBytes_lt p 2
  have l4 := s.dev.leNat_rdBytes_lt p 4
  refine ⟨load 8 zeroBytes rfl ?d, load 4 (signBytes 4) rfl ?w, load 4 zeroBytes rfl ?wu, load 2 (signBytes 2) rfl ?h,
    load 2 zeroBytes rfl ?hu, load 1 (signBytes 1) rfl ?b, load 1 zeroBytes rfl ?bu⟩
  case d => exact e8 ▸ rfl
  case w => exact e4 ▸ signBytes_eq 4 _
  case wu => exact e4 ▸ zeroBytes_eq 32 _ l4
  case h => exact e2 ▸ signBytes_eq 2 _
  case hu => exact e2 ▸ zeroBytes_eq 16 _ l2
  case b => exact e1 ▸ signBytes_eq 1 _
  case bu => exact e1 ▸ zeroBytes_eq 8 _ l1

/-- Settles O9: each store writes the bytes of sd and retires. -/
theorem scalarStores : Obligations.ScalarStores := by
  intro st d a imm s hi ea p stores hlim hb hc hinj
  have store {i : Instr} (k : Nat) (he : exec i s = .next (scalarStore st d a imm k s)) : stores i k := fun hal => by
    refine ⟨_, he.trans (congrArg _ (scalarStore_of_clean hi k hlim hal hb hc hinj)), sameButStallMem_store s st _ _ _, ?_⟩
    simp only [State.onDev_dev, Device.retire, Device.cur_modCur, Device.cur_wrBytes, Device.sreg_modCur,
      SlotCtx.getS_advance, Device.rdByte_modCur]
    refine ⟨SlotCtx.retired_advance _ _, fun r => rfl, fun j hj => ?_, fun q hq => ?_⟩
    · have hin := s.dev.rdByte_wrBytes_in p j (leBytes k (s.dev.sreg st d).toNat) (by simpa using hj)
      exact hin.trans ((getElem_leBytes k _ j _).trans (ofNat_div_eq_shift _ j))
    · exact s.dev.rdByte_wrBytes_out p q (leBytes k (s.dev.sreg st d).toNat) (by simpa using hq)
  exact ⟨store 8 rfl, store 4 rfl, store 2 rfl, store 1 rfl⟩

/-- Settles O10: loads and stores make the checks of scalarAccess before they read or write. -/
theorem loftFaults : Obligations.LoftFaults := by
  intro st d a imm s hi hx ea limit faults
  have load {i : Instr} (k : Nat) (ext : Nat → W64) (he : exec i s = .next (scalarLoad st d a imm k ext s)) : faults i k :=
    ⟨fun h => ⟨_, he.trans (congrArg _ (scalarLoad_of_limit hi k ext h)), raise_took s st 3 _ _ hx⟩,
      fun h hal => ⟨_, he.trans (congrArg _ (scalarLoad_of_misaligned hi k ext h hal)), raise_took s st 4 _ _ hx⟩⟩
  have store {i : Instr} (k : Nat) (he : exec i s = .next (scalarStore st d a imm k s)) : faults i k :=
    ⟨fun h => ⟨_, he.trans (congrArg _ (scalarStore_of_limit hi k h)), raise_took s st 3 _ _ hx⟩,
      fun h hal => ⟨_, he.trans (congrArg _ (scalarStore_of_misaligned hi k h hal)), raise_took s st 4 _ _ hx⟩⟩
  exact ⟨load 8 _ rfl, load 4 _ rfl, load 4 _ rfl, load 2 _ rfl, load 2 _ rfl, load 1 _ rfl, load 1 _ rfl, store 8 rfl,
    store 4 rfl, store 2 rfl, store 1 rfl⟩

end Sys2Proof.Machine
end

section
/-! The control space (R95, R96, R109, R117): what CRR and CRW do with a register's number and its value. -/

namespace Sys2Proof.Machine

/-- The number that an immediate names, where no bit above it is set. -/
theorem crNumber_eq (imm : Imm) : crNumber imm = if imm.zext.toNat < 128 then some imm.zext.toNat else none := by
  cases imm with
  | short v =>
    have hv : (v.setWidth 64).toNat = v.toNat := BitVec.toNat_setWidth_of_le (by decide)
    simp only [crNumber, Imm.zext, hv]
  | long v =>
    have hv : (v.setWidth 64).toNat = v.toNat := BitVec.toNat_setWidth_of_le (by decide)
    simp only [crNumber, Imm.zext, hv]

/-- A register that is not reserved has a number below 0x3F. -/
theorem lt_of_crReserved_eq_false {n : Nat} (h : crReserved n = false) : n < 0x3F := by
  simp only [crReserved, Bool.or_eq_false_iff, decide_eq_false_iff_not] at h
  omega

theorem crReserved_eq_false_of_chan {n : Nat} (hlo : 0x20 ≤ n) (hhi : n ≤ 0x2F) :
    crReserved n = false ∧ crReadOnly n = false ∧ crWaits n = false := by
  interval_cases n <;> decide

/-- The wait of R91 and R139 is over where no vector instruction is queued or the register is none that they write. -/
theorem crWaits_open {n : Nat} {c : SlotCtx} (h : c.vq = [] ∨ crWaits n = false) : (crWaits n && !c.vq.isEmpty) = false := by
  rcases h with h | h <;> simp [h]

theorem Device.modCtx_slotOf (d : Device) (st : StallId) (f : SlotCtx → SlotCtx) :
    d.modCtx st (d.slotOf st) f = d.modCur st f := by
  simp only [Device.modCtx, Device.modCur, Device.modStall, upd, Device.slotOf, Device.stall]
  rfl

theorem Device.ctx_slotOf (d : Device) (st : StallId) : d.ctx st (d.slotOf st) = d.cur st := rfl

section
variable {s : State} {st : StallId} (d a : SReg) {imm : Imm} (hi : s.issues st imm.words)
include hi

theorem exec_crr_of_legal (hres : crReserved imm.zext.toNat = false)
    (hw : (s.dev.cur st).vq = [] ∨ crWaits imm.zext.toNat = false) :
    exec (.crr st d a imm) s = .next (s.onDev fun dev =>
      (dev.setSreg st d (s.dev.crRead st (s.dev.slotOf st) imm.zext.toNat)).retire st imm.words) := by
  have hlt := lt_of_crReserved_eq_false hres
  refine congrArg _ ((onDev_issue hi _).trans (onDev_congr ?_))
  simp only [crNumber_eq, if_pos (show imm.zext.toNat < 128 by omega), hres, crWaits_open hw, Bool.false_eq_true, if_false]

theorem exec_crr_of_illegal (h : 128 ≤ imm.zext.toNat ∨ crReserved imm.zext.toNat = true) :
    exec (.crr st d a imm) s = .next (s.onDev fun dev => dev.illegal st (Coeri.firstWord (.crr st d a imm))) := by
  refine congrArg _ ((onDev_issue hi _).trans (onDev_congr ?_))
  simp only [crNumber_eq]
  by_cases hlt : imm.zext.toNat < 128
  · simp only [if_pos hlt, h.resolve_left (Nat.not_le.mpr hlt), if_true]
  · simp only [if_neg hlt]

theorem exec_crw_of_illegal
    (h : 128 ≤ imm.zext.toNat ∨ crReserved imm.zext.toNat = true ∨ crReadOnly imm.zext.toNat = true) :
    exec (.crw st d a imm) s = .next (s.onDev fun dev => dev.illegal st (Coeri.firstWord (.crw st d a imm))) := by
  refine congrArg _ ((onDev_issue hi _).trans (onDev_congr ?_))
  simp only [crNumber_eq]
  by_cases hlt : imm.zext.toNat < 128
  · have hbad : (crReserved imm.zext.toNat || crReadOnly imm.zext.toNat) = true := by
      simpa using h.resolve_left (Nat.not_le.mpr hlt)
    simp only [if_pos hlt, hbad, if_true]
  · simp only [if_neg hlt]

variable (hres : crReserved imm.zext.toNat = false) (hro : crReadOnly imm.zext.toNat = false)
  (hw : (s.dev.cur st).vq = [] ∨ crWaits imm.zext.toNat = false)
include hres hro hw

theorem exec_crw_of_fault {m : Nat}
    (h : s.dev.crWrite st (s.dev.slotOf st) imm.zext.toNat (s.dev.sreg st a) = .inl m) :
    exec (.crw st d a imm) s = .next (s.onDev fun dev => dev.msgFault st m) := by
  have hlt := lt_of_crReserved_eq_false hres
  refine congrArg _ ((onDev_issue hi _).trans (onDev_congr ?_))
  simp only [crNumber_eq, if_pos (show imm.zext.toNat < 128 by omega), hres, hro, crWaits_open hw, Bool.false_eq_true,
    if_false, Bool.or_self, h]

theorem exec_crw_of_write {dev' : Device}
    (h : s.dev.crWrite st (s.dev.slotOf st) imm.zext.toNat (s.dev.sreg st a) = .inr dev') :
    exec (.crw st d a imm) s = .next (s.onDev fun _ => dev'.retire st imm.words) := by
  have hlt := lt_of_crReserved_eq_false hres
  refine congrArg _ ((onDev_issue hi _).trans (onDev_congr ?_))
  simp only [crNumber_eq, if_pos (show imm.zext.toNat < 128 by omega), hres, hro, crWaits_open hw, Bool.false_eq_true,
    if_false, Bool.or_self, h]

/-- A write that only stores a value in the register. -/
theorem completes_crw_of_value {v : W64}
    (h : s.dev.crWrite st (s.dev.slotOf st) imm.zext.toNat (s.dev.sreg st a) =
      .inr (s.dev.modCtx st (s.dev.slotOf st) fun c => c.setCr imm.zext.toNat v)) :
    Completes (.crw st d a imm) s (s.wrote st imm.words ((s.dev.cur st).setCr imm.zext.toNat v) 0 0) := by
  have k := wrote_modCur s st imm.words 0 0 (fun c => c.setCr imm.zext.toNat v) fun _ => rfl
  refine ⟨_, exec_crw_of_write d a hi hres hro hw h, ?_⟩
  simpa only [State.onDev, Device.modCtx_slotOf, Device.retire, Device.modCur_modCur, SlotCtx.setS_zero] using k

end

/-- Outside the send channels and MBX_MODE a write stores the bits that are not reserved. -/
theorem Device.crWrite_of_plain (d : Device) (st : StallId) (sl : Slot) (n : Nat) (v : W64) (hm : n ≠ 0x39)
    (hc : ¬ (0x20 ≤ n ∧ n ≤ 0x2F)) : d.crWrite st sl n v = .inr (d.modCtx st sl fun c => c.setCr n (crValue n v)) := by
  simp only [Device.crWrite, if_neg hc, if_neg hm]

theorem crValue_of_ne {n : Nat} (v : W64) (h : n ≠ 0x10) : crValue n v = v &&& BitVec.ofNat 64 (crMask n) := by
  simp only [crValue, h, false_and, if_false]

/-- VL stores at most 512 (R137). -/
theorem crValue_vl (v : W64) : crValue 0x10 v = BitVec.ofNat 64 (min 512 (v.toNat % 2 ^ 10)) := by
  have hx : (v &&& BitVec.ofNat 64 (crMask 0x10)).toNat = v.toNat % 2 ^ 10 := by
    rw [BitVec.toNat_and, show (BitVec.ofNat 64 (crMask 0x10)).toNat = 2 ^ 10 - 1 from rfl, Nat.and_two_pow_sub_one_eq_mod]
  apply BitVec.eq_of_toNat_eq
  simp only [crValue, true_and]
  split
  next h => rw [hx] at h; rw [BitVec.toNat_ofNat, min_eq_left h.le]; rfl
  next h =>
    rw [hx] at h ⊢
    rw [BitVec.toNat_ofNat, min_eq_right (not_lt.mp h)]
    omega

section
variable (d : Device) (st : StallId) (sl : Slot) (v : W64)

/-- A send channel keeps its value while it holds credits, or where the written DEST is above 383 (R109). -/
theorem Device.crWrite_of_chan_fault {n : Nat} (hlo : 0x20 ≤ n) (hhi : n ≤ 0x2F)
    (h : field ((d.ctx st sl).getCr n) 16 7 ≠ 0 ∨ 383 < field v 0 9) : d.crWrite st sl n v = .inl (n - 0x20) := by
  rw [Device.crWrite, if_pos ⟨hlo, hhi⟩, if_pos h]

theorem Device.crWrite_of_chan {n : Nat} (hlo : 0x20 ≤ n) (hhi : n ≤ 0x2F)
    (hcred : field ((d.ctx st sl).getCr n) 16 7 = 0) (hdest : field v 0 9 ≤ 383) :
    d.crWrite st sl n v = .inr (d.modCtx st sl fun c => c.setCr n (v &&& 0x8000_0FFF)) := by
  have hmask : crMask n = 0x8000_0FFF := by interval_cases n <;> rfl
  rw [Device.crWrite, if_pos ⟨hlo, hhi⟩, if_neg (by omega), crValue_of_ne v (by omega), hmask]
  rfl

/-- A mailbox of the slot whose mode the value would change while it has slots that are not FREE (R117). -/
def Device.modeStuck (m : Fin 8) : Prop :=
  d.mbxOwner st m = sl ∧ (d.mbx st m).notice ≠ flag v m ∧ (d.mbx st m).free ≠ 64

/-- The mailboxes of a slot with the modes that the value names. -/
def Device.withModes (s : Stall) : Stall :=
  { s with mbx := Vector.ofFn fun m => if d.mbxOwner st m = sl then { s.mbx[m] with notice := flag v m } else s.mbx[m] }

theorem Device.mem_modeChanges_stuck (m : Fin 8) :
    (m ∈ d.modeChanges st sl v ∧ decide ((d.stall st).mbx[m].free ≠ 64) = true) ↔ d.modeStuck st sl v m := by
  simp [Device.modeChanges, finList, Device.modeStuck, Device.mbx, and_assoc]

theorem Device.crWrite_of_modes (h : ∀ m, ¬ d.modeStuck st sl v m) :
    d.crWrite st sl 0x39 v = .inr (d.modStall st (d.withModes st sl v)) := by
  have hnone : ((d.modeChanges st sl v).find? fun m => (d.stall st).mbx[m].free ≠ 64) = none :=
    List.find?_eq_none.mpr fun m hm hstuck => h m ((d.mem_modeChanges_stuck st sl v m).mp ⟨hm, hstuck⟩)
  rw [Device.crWrite, if_neg (by decide), if_pos rfl, hnone]
  rfl

theorem Device.crWrite_of_modeStuck (h : ∃ m, d.modeStuck st sl v m) :
    ∃ m : Fin 8, d.modeStuck st sl v m ∧ d.crWrite st sl 0x39 v = .inl m.val := by
  obtain ⟨m, hm⟩ := h
  obtain ⟨hmem, hfree⟩ := (d.mem_modeChanges_stuck st sl v m).mpr hm
  cases hfind : (d.modeChanges st sl v).find? fun m => (d.stall st).mbx[m].free ≠ 64 with
  | none => exact absurd hfree (List.find?_eq_none.mp hfind m hmem)
  | some k =>
    have hk := List.find?_some hfind
    refine ⟨k, (d.mem_modeChanges_stuck st sl v k).mp ⟨List.mem_of_find?_eq_some hfind, hk⟩, ?_⟩
    rw [Device.crWrite, if_neg (by decide), if_pos rfl, hfind]

end

/-- A change of a stall, then retirement there: no other stall changes. -/
theorem sameButStall_modStall_retire (s : State) (st : StallId) (n : Nat) (f : Stall → Stall) :
    s.sameButStall st (s.onDev fun dev => (dev.modStall st f).retire st n) := by
  refine ⟨⟨rfl, rfl⟩, rfl, fun u hu => ?_⟩
  exact (Device.stall_modCur_ne _ st u _ hu).trans (s.dev.stall_modStall_ne st u f hu)

section
variable (d : Device) (st : StallId) (n : Nat) (f : Stall → Stall) (hslot : (f (d.stall st)).slot = (d.stall st).slot)
  (hctx : ∀ sl, (f (d.stall st)).ctx sl = (d.stall st).ctx sl)
include hslot hctx

/-- A change that leaves the slots of a stall leaves the running one. -/
theorem Device.cur_modStall_of_ctx : (d.modStall st f).cur st = d.cur st := by
  simp only [Device.cur, Stall.cur, Device.stall_modStall_same, hslot, hctx]

theorem Device.stall_modStall_retire :
    ((d.modStall st f).retire st n).stall st = (f (d.stall st)).setCtx (d.slotOf st) ((d.cur st).advance n) := by
  rw [Device.retire, Device.stall_modCur, Device.cur_modStall_of_ctx d st f hslot hctx, Device.stall_modStall_same,
    Device.slotOf, Device.stall_modStall_same, hslot]
  rfl

theorem Device.cur_modStall_retire : ((d.modStall st f).retire st n).cur st = (d.cur st).advance n := by
  rw [Device.cur_retire, Device.cur_modStall_of_ctx d st f hslot hctx]

end

/-- Settles O11: CRR reads and CRW writes as crRead and crWrite say, once the number is legal and nothing waits. -/
theorem controlSpace : Obligations.ControlSpace := by
  intro st d a imm s hi slot n
  refine ⟨fun _ hres hw => ?crr, fun _ hres hro hm hc hvl hw => ?plain, fun hlo hhi => ?chan, fun hn => ?modes,
    fun hn hvq => ?vl, fun hx h => ?crrIllegal, fun hx h => ?crwIllegal⟩
  case crr => exact ⟨_, exec_crr_of_legal d a hi hres hw, wroteScalar_retire s st _ d _⟩
  case plain =>
    refine completes_crw_of_value d a hi hres hro hw ?_
    rw [Device.crWrite_of_plain _ _ _ _ _ hm hc, crValue_of_ne _ hvl]
  case chan =>
    obtain ⟨hres, hro, hw⟩ := crReserved_eq_false_of_chan hlo hhi
    refine ⟨fun hcred hdest => ?_, fun hbad hx => ?_⟩
    · exact completes_crw_of_value d a hi hres hro (.inr hw) (Device.crWrite_of_chan s.dev st _ _ hlo hhi hcred hdest)
    · exact ⟨_, exec_crw_of_fault d a hi hres hro (.inr hw) (Device.crWrite_of_chan_fault s.dev st _ _ hlo hhi hbad),
        raise_took s st 10 0 _ hx⟩
  case modes =>
    intro v mine stuck
    have hres : crReserved imm.zext.toNat = false := by rw [show imm.zext.toNat = 0x39 from hn]; rfl
    have hro : crReadOnly imm.zext.toNat = false := by rw [show imm.zext.toNat = 0x39 from hn]; rfl
    have hw : crWaits imm.zext.toNat = false := by rw [show imm.zext.toNat = 0x39 from hn]; rfl
    refine ⟨fun hfree => ?_, fun hstuck hx => ?_⟩
    · have hwrite := Device.crWrite_of_modes s.dev st (s.dev.slotOf st) v hfree
      rw [← show imm.zext.toNat = 0x39 from hn] at hwrite
      have hcur := s.dev.cur_modStall_retire st imm.words (s.dev.withModes st (s.dev.slotOf st) v) rfl fun _ => rfl
      have hstall := s.dev.stall_modStall_retire st imm.words (s.dev.withModes st (s.dev.slotOf st) v) rfl fun _ => rfl
      refine ⟨_, exec_crw_of_write d a hi hres hro (.inr hw) hwrite, sameButStall_modStall_retire s st _ _, ?_⟩
      simp only [State.onDev_dev, hcur, hstall, Device.sreg, SlotCtx.getS_advance, Device.mbx, Stall.setCtx_mbx]
      refine ⟨SlotCtx.retired_advance _ _, fun _ => trivial, ?_, fun m => ⟨fun hm => ?_, fun hm => ?_⟩⟩
      · cases s.dev.slotOf st <;> rfl
      · simp only [Device.withModes, Vector.getElem_ofFn, Fin.getElem_fin]
        exact if_pos hm
      · simp only [Device.withModes, Vector.getElem_ofFn, Fin.getElem_fin]
        exact if_neg hm
    · obtain ⟨m, hm, hfault⟩ := Device.crWrite_of_modeStuck s.dev st (s.dev.slotOf st) v hstuck
      rw [← show imm.zext.toNat = 0x39 from hn] at hfault
      exact ⟨m, hm, _, exec_crw_of_fault d a hi hres hro (.inr hw) hfault, raise_took s st 10 0 _ hx⟩
  case vl =>
    have hres : crReserved imm.zext.toNat = false := by rw [show imm.zext.toNat = 0x10 from hn]; rfl
    have hro : crReadOnly imm.zext.toNat = false := by rw [show imm.zext.toNat = 0x10 from hn]; rfl
    rw [← show imm.zext.toNat = 0x10 from hn]
    refine completes_crw_of_value d a hi hres hro (.inl hvq) ?_
    rw [Device.crWrite_of_plain _ _ _ _ _ (by omega) (by omega), show imm.zext.toNat = 0x10 from hn, crValue_vl]
  case crrIllegal => exact ⟨_, exec_crr_of_illegal d a hi h, raise_took s st 1 0 _ hx⟩
  case crwIllegal => exact ⟨_, exec_crw_of_illegal d a hi h, raise_took s st 1 0 _ hx⟩

end Sys2Proof.Machine
end

section
/-! Frame, context and exception instructions (R107, R119, R126 to R130): FYIELD, FENCE, ERET, HALT and CYIELD, the illegal
instruction, and the parity of the words at the pc. -/

namespace Sys2Proof.Machine

/-- A field that fills its word is a truncation. -/
theorem ofNat_field_eq_setWidth (x : W64) (w : Nat) : BitVec.ofNat w (field x 0 w) = x.setWidth w := by
  apply BitVec.eq_of_toNat_eq
  simp [field]

/-- ERET as a change of the running slot (R129, R170). -/
def SlotCtx.eret (c : SlotCtx) : SlotCtx :=
  { (c.setCr 0x01 (clearBit (c.getCr 0x01) 0)).setCr 0x16 (clearBit (c.getCr 0x16) 1) with
    pc := (c.getCr 0x06).setWidth 16
    resumeAt := if flag (c.getCr 0x16) 1 then some (field (c.getCr 0x14) 0 9) else none }

theorem exec_eret_of_issues (s : State) (st : StallId) (d a b : SReg) (hi : s.issues st 1) :
    exec (.eret st d a b) s = .next (s.onDev fun dev => dev.modCur st SlotCtx.eret) := by
  refine congrArg _ ((onDev_issue hi _).trans (onDev_congr (congrArg (s.dev.modCur st) (funext fun c => ?_))))
  simp only [SlotCtx.eret, SlotCtx.getCr_setCr_ne _ _ _ _ (by decide : (0x16 : Nat) ≠ 0x01),
    SlotCtx.getCr_setCr_ne _ _ _ _ (by decide : (0x06 : Nat) ≠ 0x16),
    SlotCtx.getCr_setCr_ne _ _ _ _ (by decide : (0x06 : Nat) ≠ 0x01), ofNat_field_eq_setWidth]

theorem SlotCtx.getCr_eret (c : SlotCtx) :
    c.eret.getCr 0x01 = c.getCr 0x01 &&& ~~~1 ∧ c.eret.getCr 0x16 = c.getCr 0x16 &&& ~~~2 ∧
      ∀ m, m ≠ 0x01 → m ≠ 0x16 → c.eret.getCr m = c.getCr m := by
  refine ⟨?_, ?_, fun m h1 h16 => ?_⟩
  · exact (SlotCtx.getCr_setCr_ne _ 0x16 0x01 _ (by decide)).trans (c.getCr_setCr_same 0x01 _ (by decide))
  · exact SlotCtx.getCr_setCr_same _ 0x16 _ (by decide)
  · exact (SlotCtx.getCr_setCr_ne _ 0x16 m _ h16).trans (c.getCr_setCr_ne 0x01 m _ h1)

theorem exec_fyield_of_issues (s : State) (st : StallId) (d a b : SReg) (hi : s.issues st 1) :
    exec (.fyield st d a b) s = .next (s.onDev fun dev =>
      (dev.modCur st fun c => { c.setCr 0x05 (s.dev.now.setWidth 64) with yielded := true }).retire st 1) := by
  refine congrArg _ ((onDev_issue hi _).trans (onDev_congr ?_))
  rfl

/-- FENCE retires once the manger commands of the slot that read or write the loft are over, and holds before (R107). -/
theorem exec_fence_of_issues (s : State) (st : StallId) (d a b : SReg) (hi : s.issues st 1) :
    exec (.fence st d a b) s =
      .next (s.onDev fun dev => if fenceOpen (s.dev.cur st) then dev.retire st 1 else dev) := by
  refine congrArg _ ((onDev_issue hi _).trans (onDev_congr ?_))
  rfl

theorem exec_halt_of_issues (s : State) (st : StallId) (d a b : SReg) (hi : s.issues st 1) :
    exec (.halt st d a b) s = .next (s.onDev fun dev => dev.haltSlot st (s.dev.slotOf st) 1 0) := by
  refine congrArg _ ((onDev_issue hi _).trans (onDev_congr ?_))
  rfl

theorem exec_cyield_of_issues (s : State) (st : StallId) (d a b : SReg) (hi : s.issues st 1) :
    exec (.cyield st d a b) s = .next (s.onDev fun dev =>
      ((dev.modStall st fun s => { s with switchReq := true }).event (Page.stall st) 2).retire st 1) :=
  congrArg _ (onDev_issue hi _)

namespace Device

theorem Quiet.rdByte {d e : Device} (h : Quiet d e) (a : Nat) : e.rdByte a = d.rdByte a := by
  rw [h]
  rfl

theorem Quiet.cur {d e : Device} (h : Quiet d e) (st : StallId) : e.cur st = d.cur st := by rw [h]; rfl

/-- A halt of a stall leaves every other stall alone. -/
theorem stall_haltSlot_ne (d : Device) (st u : StallId) (sl : Slot) (kind cause : Nat) (h : u ≠ st) :
    (d.haltSlot st sl kind cause).stall u = d.stall u := by
  simp only [haltSlot, (quiet_event _ _ _).stall, stall_modStall_ne _ _ _ _ h]

end Device

/-- Settles O13: each instruction is one change of the running slot or of its stall; CYIELD and HALT raise an event too. -/
theorem frameAndContext : Obligations.FrameAndContext := by
  intro st d a b s hi slot
  refine ⟨?fyield, fun hopen => ?fence, fun hshut => ?hold, ?eret, ?halt, ?cyield⟩
  case fyield =>
    have h := wrote_modCur s st 1 0 0 (fun c => { c.setCr 0x05 (s.dev.now.setWidth 64) with yielded := true }) fun _ => rfl
    refine ⟨_, exec_fyield_of_issues s st d a b hi, ?_⟩
    simpa only [State.onDev, Device.retire, Device.modCur_modCur, SlotCtx.setS_zero] using h
  case fence =>
    refine ⟨_, (exec_fence_of_issues s st d a b hi).trans ?_, onlyRetired_retire s st 1⟩
    rw [show fenceOpen (s.dev.cur st) = true from hopen]
    rfl
  case hold =>
    rw [exec_fence_of_issues s st d a b hi, hshut]
    rfl
  case eret =>
    obtain ⟨hctl, hflags, hothers⟩ := slot.getCr_eret
    refine ⟨_, exec_eret_of_issues s st d a b hi, sameButSlot_modCur s st _, ?_⟩
    simp only [State.onDev_dev, Device.cur_modCur]
    exact ⟨rfl, hctl, hflags, rfl, rfl, rfl, hothers⟩
  case halt =>
    exact ⟨_, exec_halt_of_issues s st d a b hi, s.dev.cur_haltSlot st 1 0, s.dev.haltReason_haltSlot st _ 1 0,
      s.dev.flag_haltSlot st _ 1 0, s.dev.rdByte_haltSlot st _ 1 0, fun u hu => s.dev.stall_haltSlot_ne st u _ 1 0 hu⟩
  case cyield =>
    have hq := Device.quiet_event (s.dev.modStall st fun s => { s with switchReq := true }) (Page.stall st) 2
    have hcur := s.dev.cur_modStall_of_ctx st (fun s => { s with switchReq := true }) rfl fun _ => rfl
    refine ⟨_, exec_cyield_of_issues s st d a b hi, ?_⟩
    simp only [State.onDev_dev, State.sameMemory, Device.retire, Device.stall_modCur, Device.cur_modCur, Device.sreg_modCur,
      SlotCtx.getS_advance, hq.cur, hq.stall, hcur, Device.stall_modStall_same, Stall.setCtx_switchReq, Device.rdByte_modCur,
      hq.rdByte]
    refine ⟨trivial, Device.flag_event _ _ 2 (by decide), SlotCtx.retired_advance _ _, fun _ => rfl, fun _ => rfl, fun u hu => ?_⟩
    rw [Device.stall_modCur_ne _ _ _ _ hu, hq.stall, Device.stall_modStall_ne _ _ _ _ hu]

/-- An instruction whose words fail their parity takes TACK_PARITY with the failing word's address, and has no effect
(R130). -/
theorem took_of_tackFault {s : State} {st : StallId} {n : Nat} {w : Tack} (f : Device → Device) (hr : s.dev.ready st = true)
    (hw : s.dev.tackFault st n = some w) (hx : flag ((s.dev.cur st).getCr 0x01) 0 = false) :
    s.took st 2 Status.tackParity (w.setWidth 64) (s.onDev fun dev => dev.issue st n f) := by
  have h := raise_took s st 2 Status.tackParity (w.setWidth 64) hx
  have he : (s.onDev fun dev => dev.issue st n f) =
      s.onDev fun dev => dev.raise st 2 Status.tackParity (w.setWidth 64) := by
    refine onDev_congr ?_
    simp only [Device.issue, hr, hw, if_true]
  rwa [he]

/-- A word that no format gives a meaning is illegal. -/
theorem exec_illegalInstruction_of_none (s : State) (st : StallId) (hi : s.issues st 1)
    (h : (Coeri.decode st 0 (s.dev.tackWord st (s.dev.cur st).pc)
      (s.dev.tackWord st ((s.dev.cur st).pc + 4))).isNone = true) :
    exec (.illegalInstruction st) s =
      .next (s.onDev fun dev => dev.illegal st (s.dev.tackWord st (s.dev.cur st).pc)) := by
  refine congrArg _ ((onDev_issue hi _).trans (onDev_congr ?_))
  extract_lets c w second
  exact if_pos h

/-- Settles O14: TRAP, the illegal instruction and a parity error are raises of the running slot. -/
theorem exceptions : Obligations.Exceptions := by
  refine ⟨⟨fun st d a imm s hi hx => ?trap, fun st s hi hx => ?illegal⟩, fun st s w hr hw hx => ?parity⟩
  case trap => exact ⟨_, exec_trap_of_issues s st d a imm hi, raise_took s st 11 0 _ hx⟩
  case illegal =>
    intro w hnone
    exact ⟨_, exec_illegalInstruction_of_none s st hi hnone, raise_took s st 1 0 _ hx⟩
  case parity =>
    intro parity
    exact ⟨fun d a b => ⟨_, rfl, took_of_tackFault _ hr hw hx⟩, fun d a i => ⟨_, rfl, took_of_tackFault _ hr hw hx⟩,
      fun v => ⟨_, rfl, took_of_tackFault _ hr hw hx⟩⟩

end Sys2Proof.Machine
end

section
/-! Reads and writes of ranges whose units are sound (R299 to R307): the units of a range, what serving them changes, and
that a write stores every byte. -/

namespace Sys2Proof.Machine

namespace Device

/-- What bytes leave in memory depends on what memory held and on what an unlisted byte reads as. -/
theorem mem_wrBytes_congr {d e : Device} (hm : e.mem = d.mem) (hb : e.blank = d.blank) (p : Nat) (l : List Byte) :
    (e.wrBytes p l).mem = (d.wrBytes p l).mem := by
  induction l generalizing d e p with
  | nil => exact hm
  | cons x t ih =>
    have hx : (e.wrByte p x).mem = (d.wrByte p x).mem := by simp only [wrByte, hm, hb]
    exact ih hx hb (p + 1)

theorem wrBytes_append (d : Device) (p : Nat) (l m : List Byte) :
    d.wrBytes p (l ++ m) = (d.wrBytes p l).wrBytes (p + l.length) m := by
  induction l generalizing d p with
  | nil => rfl
  | cons x t ih =>
    simp only [List.cons_append, wrBytes, ih, List.length_cons, Nat.add_assoc, Nat.add_comm 1]

/-- e is d but for registers, the batches of the controllers and the free values drawn. -/
def Counted (d e : Device) : Prop := e = { d with regs := e.regs, batches := e.batches, free := e.free }

theorem Counted.trans {d e f : Device} (h : Counted d e) (k : Counted e f) : Counted d f := by
  unfold Counted at *
  rw [k, h]

theorem counted_bump (d : Device) (p : Page) (o n : Nat) : Counted d (d.bump p o n) := rfl

/-- A served burst makes its controller count. -/
theorem counted_burstServed (d : Device) (c : Chan) (w b : Bool) : Counted d (d.burstServed c w b) := by
  simp only [burstServed, drawFree]
  have h0 : Counted d { d with free := d.free + 1, batches := d.batches.set c (d.batches[c].take w (Config.turnRound d.free)).1 } :=
    rfl
  generalize ({ d with free := _, batches := _ } : Device) = e at h0 ⊢
  have h1 := h0.trans (counted_bump e (Page.memctl c) (if w then 0x124 else 0x120) 1)
  split
  · exact ((h1.trans (counted_bump _ _ _ _)).trans (counted_bump _ _ _ _)).trans (counted_bump _ _ _ _)
  · exact (h1.trans (counted_bump _ _ _ _)).trans (counted_bump _ _ _ _)

/-- e is d after units were served: controllers have counted and drawn free values; on the loft side nothing has changed. -/
def Served (a : Nat) (d e : Device) : Prop := Counted d e ∧ (loftBase ≤ a → e = d)

namespace Served

theorem refl (a : Nat) (d : Device) : Served a d d := ⟨rfl, fun _ => rfl⟩

theorem trans {a : Nat} {d e f : Device} (h : Served a d e) (k : Served a e f) : Served a d f := by
  exact ⟨h.1.trans k.1, fun ha => (k.2 ha).trans (h.2 ha)⟩

variable {a : Nat} {d e : Device}

section
variable (h : Served a d e)
include h

theorem boot : e.boot = d.boot := by rw [h.1]
theorem mc : e.mc = d.mc := by rw [h.1]
theorem bad : e.bad = d.bad := by rw [h.1]
theorem ce : e.ce = d.ce := by rw [h.1]
theorem mem : e.mem = d.mem := by rw [h.1]
theorem tally : e.tally = d.tally := by rw [h.1]
theorem stalls : e.stalls = d.stalls := by rw [h.1]
theorem queues : e.queues = d.queues := by rw [h.1]
theorem host : e.host = d.host := by rw [h.1]
theorem blank : e.blank = d.blank := by rw [h.1]; rfl
theorem stall (st : StallId) : e.stall st = d.stall st := by rw [h.1]; rfl
theorem rdByte (u : Nat) : e.rdByte u = d.rdByte u := by rw [h.1]; rfl
theorem sound {u : Nat} (hs : d.sound u) : e.sound u := by rw [h.1]; exact hs

end

/-- Units served after a write of bytes could have been served before it. -/
theorem of_wrBytes {p : Nat} {l : List Byte} (h : Served a (d.wrBytes p l) e) :
    ∃ e', Served a d e' ∧ e = e'.wrBytes p l := by
  refine ⟨{ d with regs := e.regs, batches := e.batches, free := e.free }, ⟨rfl, fun ha => ?_⟩, ?_⟩
  · have he := h.2 ha
    rw [he, wrBytes_only]
  · have hm := mem_wrBytes_congr (d := d)
      (e := { d with regs := e.regs, batches := e.batches, free := e.free }) rfl rfl p l
    rw [wrBytes_only, hm]
    conv_lhs => rw [h.1, wrBytes_only]

end Served

/-- Where a burst is served, its controller alone has counted. -/
theorem served_burstServed {a : Nat} (ha : a < loftBase) (d : Device) (c : Chan) (w b : Bool) :
    Served a d (d.burstServed c w b) :=
  ⟨d.counted_burstServed c w b, fun h => absurd ha (Nat.not_lt.mpr h)⟩

/-- A read of a sound unit answers ok. -/
theorem readUnit_sound (d : Device) (u : Nat) (k : Bool) (h : d.sound u) :
    ∃ e, Served u d e ∧ d.readUnit u k = (e, .ok) := by
  obtain ⟨hb, hc, hm⟩ := h
  by_cases hu : u < loftBase
  · refine ⟨_, served_burstServed hu d (d.chanOf u) false k, ?_⟩
    have hs := served_burstServed hu d (d.chanOf u) false k
    simp only [readUnit, if_pos hu, if_neg (hm hu), hs.bad, hs.ce, if_neg hb, if_neg hc]
  · exact ⟨d, Served.refl u d, d.readUnit_clean u k (Nat.not_lt.mp hu) hb hc⟩

/-- A write within a sound unit stores its bytes, while no injection is armed. -/
theorem writeUnit_sound (d : Device) (a : Nat) (l : List Byte) (k : Bool) (hs : d.sound (unitOf a))
    (hi : d.tally.armed = false) :
    ∃ e, Served (unitOf a) d e ∧ d.writeUnit a l k = (e.wrBytes a l, .ok) := by
  obtain ⟨hb, hc, hm⟩ := hs
  by_cases hu : unitOf a < loftBase
  · have hserved := served_burstServed hu d (d.chanOf (unitOf a)) true k
    refine ⟨_, hserved, ?_⟩
    have hoff : (decide (unitOf a < loftBase) && decide (d.mc[d.chanOf (unitOf a)].state = .offline)) = false := by
      rw [decide_eq_false (hm hu), Bool.and_false]
    have hbe : unitOf a ∉ (d.burstServed (d.chanOf (unitOf a)) true k).bad := hserved.bad.symm ▸ hb
    have hce : unitOf a ∉ (d.burstServed (d.chanOf (unitOf a)) true k).ce := hserved.ce.symm ▸ hc
    have hie : (d.burstServed (d.chanOf (unitOf a)) true k).tally.armed = false := hserved.tally.symm ▸ hi
    rw [writeUnit, hoff, if_neg Bool.false_ne_true, if_pos (decide_eq_true hu)]
    generalize d.burstServed (d.chanOf (unitOf a)) true k = e at hbe hce hie
    have hinj : (e.wrBytes a l).tally.armed = false := by
      rw [wrBytes_only]
      exact hie
    simp only [hbe, hce, if_false, setErase_of_not_mem _ _ hbe, setErase_of_not_mem _ _ hce, inject_unarmed _ _ hinj, ite_self]
  · have hu' := Nat.not_lt.mp hu
    have ha : loftBase ≤ a := hu'.trans (Nat.div_mul_le_self a (unitSize a))
    exact ⟨d, Served.refl _ d, d.writeUnit_clean a l k ha hb hc hi⟩

theorem Served.of_le {a b : Nat} {d e : Device} (h : Served b d e) (hab : loftBase ≤ a → loftBase ≤ b) : Served a d e :=
  ⟨h.1, fun ha => h.2 (hab ha)⟩

end Device

theorem unitSize_pos (a : Nat) : 0 < unitSize a := by
  unfold unitSize
  split <;> decide

theorem unitOf_le (a : Nat) : unitOf a ≤ a := Nat.div_mul_le_self a (unitSize a)

theorem lt_unitOf_add (a : Nat) : a < unitOf a + unitSize a := by
  have h := Nat.mod_lt a (unitSize_pos a)
  have k := Nat.div_add_mod' a (unitSize a)
  unfold unitOf
  omega

/-- The last byte of a range lies in its last unit. -/
theorem range_le_units (a n : Nat) (hn : n ≠ 0) :
    a + n ≤ unitOf a + ((a + n - 1) / unitSize a - a / unitSize a + 1) * unitSize a := by
  have hpos := unitSize_pos a
  have hle : a / unitSize a ≤ (a + n - 1) / unitSize a := Nat.div_le_div_right (by omega)
  have hsum : unitOf a + ((a + n - 1) / unitSize a - a / unitSize a + 1) * unitSize a =
      (a + n - 1) / unitSize a * unitSize a + unitSize a := by
    rw [unitOf, ← add_mul, ← Nat.succ_mul]
    congr 1
    omega
  have h := Nat.mod_lt (a + n - 1) hpos
  have k := Nat.div_add_mod' (a + n - 1) (unitSize a)
  omega

/-- Every unit of a range but the first begins inside it. -/
theorem unit_lt_range (a n i : Nat) (hi : i < (a + n - 1) / unitSize a - a / unitSize a + 1) (h0 : i ≠ 0) :
    a < unitOf a + i * unitSize a ∧ unitOf a + i * unitSize a < a + n := by
  have hpos := unitSize_pos a
  have hlt := lt_unitOf_add a
  have hone : 1 * unitSize a ≤ i * unitSize a := Nat.mul_le_mul_right _ (Nat.one_le_iff_ne_zero.mpr h0)
  have hsum : unitOf a + i * unitSize a = (a / unitSize a + i) * unitSize a := by rw [unitOf, ← add_mul]
  have hup : (a / unitSize a + i) * unitSize a ≤ (a + n - 1) / unitSize a * unitSize a :=
    Nat.mul_le_mul_right _ (by omega)
  have hfloor := Nat.div_mul_le_self (a + n - 1) (unitSize a)
  have hn : 0 < a + n := by
    by_contra h
    have : (a + n - 1) / unitSize a ≤ a / unitSize a := Nat.div_le_div_right (by omega)
    omega
  omega

/-- The units of a range of some bytes. -/
theorem unitsOf_eq (a n : Nat) (hn : n ≠ 0) : unitsOf a n =
    (List.range ((a + n - 1) / unitSize a - a / unitSize a + 1)).map fun i => unitOf a + i * unitSize a := if_neg hn

/-- A range that begins in a loft has its units there. -/
theorem loftBase_le_of_mem_unitsOf {a n u : Nat} (hu : u ∈ unitsOf a n) (ha : loftBase ≤ a) : loftBase ≤ u := by
  by_cases hn : n = 0
  · simp [unitsOf, hn] at hu
  · rw [unitsOf_eq a n hn, List.mem_map] at hu
    obtain ⟨i, -, rfl⟩ := hu
    exact (Device.unitOf_loft_ge a ha).trans (Nat.le_add_right _ _)

/-- The units of a range on one side of the loft apertures have one size, and each is the unit of its own first byte. -/
theorem unitSize_of_unit {a n i : Nat} (hside : a + n ≤ loftBase ∨ loftBase ≤ a)
    (hi : i < (a + n - 1) / unitSize a - a / unitSize a + 1) (hn : n ≠ 0) :
    unitSize (unitOf a + i * unitSize a) = unitSize a := by
  by_cases ha : loftBase ≤ a
  · have hu : loftBase ≤ unitOf a + i * unitSize a := (Device.unitOf_loft_ge a ha).trans (Nat.le_add_right _ _)
    rw [unitSize, if_neg (Nat.not_lt.mpr hu), unitSize, if_neg (Nat.not_lt.mpr ha)]
  · have hu : unitOf a + i * unitSize a < loftBase := by
      have hle := unitOf_le a
      by_cases h0 : i = 0
      · rw [h0, Nat.zero_mul, Nat.add_zero]
        omega
      · have := unit_lt_range a n i hi h0
        omega
    rw [unitSize, if_pos hu, unitSize, if_pos (by omega)]

/-- The unit of a piece's first byte is the unit that the piece belongs to. -/
theorem unitOf_piece {a n i : Nat} (hside : a + n ≤ loftBase ∨ loftBase ≤ a)
    (hi : i < (a + n - 1) / unitSize a - a / unitSize a + 1) (hn : n ≠ 0) :
    unitOf (max a (unitOf a + i * unitSize a)) = unitOf a + i * unitSize a := by
  by_cases h0 : i = 0
  · rw [h0, Nat.zero_mul, Nat.add_zero, max_eq_left (unitOf_le a)]
  · rw [max_eq_right (unit_lt_range a n i hi h0).1.le]
    have hsum : unitOf a + i * unitSize a = (a / unitSize a + i) * unitSize a := by rw [unitOf, ← add_mul]
    conv_lhs => rw [unitOf, unitSize_of_unit hside hi hn]
    rw [hsum, Nat.mul_div_cancel _ (unitSize_pos a)]

namespace Device

/-- A read of sound units answers no failed unit. -/
theorem foldl_readUnit_sound {a : Nat} {k : Bool} (us : List Nat) (d : Device) (bad : List (Nat × MemRes))
    (h : ∀ u ∈ us, d.sound u ∧ (loftBase ≤ a → loftBase ≤ u)) :
    ∃ e, Served a d e ∧ us.foldl (fun (x : Device × List (Nat × MemRes)) u =>
      let (d, res) := x.1.readUnit u k
      (d, if res = .ok then x.2 else x.2 ++ [(u, res)])) (d, bad) = (e, bad) := by
  induction us generalizing d with
  | nil => exact ⟨d, Served.refl a d, rfl⟩
  | cons u us ih =>
    obtain ⟨hs, hside⟩ := h u (List.mem_cons_self ..)
    obtain ⟨e, he, hread⟩ := d.readUnit_sound u k hs
    have hea := he.of_le hside
    obtain ⟨f, hf, hrest⟩ := ih e fun v hv =>
      have hv' := h v (List.mem_cons_of_mem u hv)
      ⟨hea.sound hv'.1, hv'.2⟩
    refine ⟨f, hea.trans hf, ?_⟩
    rw [List.foldl_cons, hread]
    exact hrest

theorem readRange_sound (d : Device) (a n : Nat) (k : Bool) (h : d.soundRange a n) :
    ∃ e, Served a d e ∧ d.readRange a n k = (e, d.rdBytes a n, []) := by
  obtain ⟨e, he, hfold⟩ := foldl_readUnit_sound (a := a) (k := k) (unitsOf a n) d []
    fun u hu => ⟨h.2 u hu, loftBase_le_of_mem_unitsOf hu⟩
  refine ⟨e, he, ?_⟩
  rw [readRange, hfold]

/-- A piece joins the bytes before it. -/
theorem take_append_piece (l : List Byte) (a u sz : Nat) (hlt : a < u + sz) :
    l.take (u - a) ++ (l.drop (max a u - a)).take (u + sz - max a u) = l.take (u + sz - a) := by
  have hm : max a u - a = u - a := by omega
  have hs : u + sz - a = (u - a) + (u + sz - max a u) := by omega
  rw [hm, hs, List.take_add]

/-- A write of bytes over sound units stores them all. -/
theorem writeRange_sound (d : Device) (a : Nat) (l : List Byte) (k : Bool) (h : d.soundRange a l.length)
    (hi : d.tally.armed = false) :
    ∃ e, Served a d e ∧ d.writeRange a l k = (e.wrBytes a l, []) := by
  by_cases hn : l.length = 0
  · refine ⟨d, Served.refl a d, ?_⟩
    rw [List.length_eq_zero_iff.mp hn]
    rfl
  have key : ∀ m, m ≤ (a + l.length - 1) / unitSize a - a / unitSize a + 1 → ∃ e, Served a d e ∧
      ((List.range m).map fun i => unitOf a + i * unitSize a).foldl (fun (x : Device × List (Nat × MemRes)) u =>
        let (lo, piece) := pieceOf a l u
        let (d, res) := x.1.writeUnit lo piece k
        (d, if res = .ok then x.2 else x.2 ++ [(u, res)])) (d, []) =
      (e.wrBytes a (l.take (unitOf a + m * unitSize a - a)), []) := by
    intro m
    induction m with
    | zero =>
      intro _
      have hle := unitOf_le a
      have hzero : unitOf a + 0 * unitSize a - a = 0 := by omega
      exact ⟨d, Served.refl a d, by rw [hzero]; rfl⟩
    | succ m ih =>
      intro hm
      obtain ⟨e, he, hfold⟩ := ih (by omega)
      have hpiece := unitOf_piece h.1 (show m < _ by omega) hn
      have hmem : unitOf a + m * unitSize a ∈ unitsOf a l.length := by
        rw [unitsOf_eq a _ hn]
        exact List.mem_map.mpr ⟨m, List.mem_range.mpr (by omega), rfl⟩
      have hsz := unitSize_of_unit h.1 (show m < _ by omega) hn
      have hpos := unitSize_pos a
      have hle := unitOf_le a
      have hlt := lt_unitOf_add a
      have hcut : unitOf a + m * unitSize a ≤ a ∨ unitOf a + m * unitSize a - a ≤ l.length := by
        by_cases h0 : m = 0
        · exact .inl (by rw [h0]; omega)
        · have := unit_lt_range a l.length m (by omega) h0
          exact .inr (by omega)
      have hjoin := take_append_piece l a (unitOf a + m * unitSize a) (unitSize a) (by omega)
      have hstart : a + (l.take (unitOf a + m * unitSize a - a)).length = max a (unitOf a + m * unitSize a) := by
        rw [List.length_take]
        omega
      generalize hbefore : l.take (unitOf a + m * unitSize a - a) = before at hfold hjoin hstart
      have hsound : (e.wrBytes a before).sound (unitOf (max a (unitOf a + m * unitSize a))) := by
        rw [hpiece, wrBytes_only]
        exact he.sound (h.2 _ hmem)
      have harmed : (e.wrBytes a before).tally.armed = false := by
        rw [wrBytes_only]
        exact he.tally.symm ▸ hi
      obtain ⟨f, hf, hwrite⟩ := (e.wrBytes a before).writeUnit_sound _
        ((l.drop (max a (unitOf a + m * unitSize a) - a)).take
          (unitOf a + m * unitSize a + unitSize a - max a (unitOf a + m * unitSize a))) k hsound harmed
      rw [hpiece] at hf
      obtain ⟨f', hf', rfl⟩ := (hf.of_le (a := a) fun ha => loftBase_le_of_mem_unitsOf hmem ha).of_wrBytes
      refine ⟨f', he.trans hf', ?_⟩
      rw [List.range_succ, List.map_append, List.foldl_append, hfold]
      simp only [List.map_cons, List.map_nil, List.foldl_cons, List.foldl_nil, pieceOf, hsz, hwrite, if_true]
      rw [← hstart, ← wrBytes_append, hstart, hjoin, show unitOf a + (m + 1) * unitSize a =
        unitOf a + m * unitSize a + unitSize a by rw [Nat.succ_mul, Nat.add_assoc]]
  obtain ⟨e, he, hfold⟩ := key _ le_rfl
  refine ⟨e, he, ?_⟩
  have hall := range_le_units a l.length hn
  rw [List.take_of_length_le (by omega)] at hfold
  rw [writeRange, unitsOf_eq a _ hn]
  exact hfold

/-- On the loft side a range free of errors is sound. -/
theorem soundRange_of_clean {d : Device} {a n : Nat} (ha : loftBase ≤ a) (h : d.clean a n) : d.soundRange a n :=
  ⟨.inr ha, fun u hu => ⟨(h u hu).1, (h u hu).2, fun hlt =>
    absurd hlt (Nat.not_lt.mpr (loftBase_le_of_mem_unitsOf hu ha))⟩⟩

/-- A read of a loft range free of errors changes nothing. -/
theorem readRange_clean (d : Device) (a n : Nat) (k : Bool) (ha : loftBase ≤ a) (h : d.clean a n) :
    d.readRange a n k = (d, d.rdBytes a n, []) := by
  obtain ⟨e, he, hr⟩ := d.readRange_sound a n k (soundRange_of_clean ha h)
  rw [hr, he.2 ha]

/-- A write of a loft range free of errors stores its bytes and does nothing else, while no injection is armed. -/
theorem writeRange_clean (d : Device) (a : Nat) (l : List Byte) (k : Bool) (ha : loftBase ≤ a) (h : d.clean a l.length)
    (hi : d.tally.armed = false) : d.writeRange a l k = (d.wrBytes a l, []) := by
  obtain ⟨e, he, hw⟩ := d.writeRange_sound a l k (soundRange_of_clean ha h) hi
  rw [hw, he.2 ha]

end Device

end Sys2Proof.Machine
end

section
/-! Mailboxes and channels as updates leave them: one lemma for each named update of the device. -/

namespace Sys2Proof.Machine

namespace Device

variable (d : Device) (st u : StallId) (m k : Fin 8)

/-- A change of a stall that keeps its mailboxes keeps every mailbox. -/
theorem mbx_modStall_of_mbx (f : Stall → Stall) (h : (f (d.stall st)).mbx = (d.stall st).mbx) :
    (d.modStall st f).mbx u k = d.mbx u k := by
  by_cases hu : u = st
  · subst hu
    simp only [mbx, stall_modStall_same, h]
  · simp only [mbx, stall_modStall_ne _ _ _ _ hu]

@[simp] theorem mbx_modCtx (sl : Slot) (f : SlotCtx → SlotCtx) : (d.modCtx st sl f).mbx u k = d.mbx u k :=
  d.mbx_modStall_of_mbx st u k _ (Stall.modCtx_mbx ..)
@[simp] theorem mbx_modCur (f : SlotCtx → SlotCtx) : (d.modCur st f).mbx u k = d.mbx u k :=
  d.mbx_modStall_of_mbx st u k _ (Stall.modCtx_mbx ..)
@[simp] theorem mbx_retire (n : Nat) : (d.retire st n).mbx u k = d.mbx u k := d.mbx_modCur ..
@[simp] theorem mbx_setSreg (r : SReg) (v : W64) : (d.setSreg st r v).mbx u k = d.mbx u k := d.mbx_modCur ..
@[simp] theorem mbx_setChan (sl : Slot) (n : BitVec 4) (r : W64) : (d.setChan st sl n r).mbx u k = d.mbx u k :=
  d.mbx_modCtx ..
@[simp] theorem mbx_wrBytes (a : Nat) (l : List Byte) : (d.wrBytes a l).mbx u k = d.mbx u k := by simp [mbx]

theorem Quiet.mbx {d e : Device} (h : Quiet d e) : e.mbx u k = d.mbx u k := by rw [h]; rfl

/-- A change of one mailbox is seen in it alone. -/
theorem mbx_modMbx (f : Mailbox → Mailbox) :
    (d.modMbx st m f).mbx u k = if u = st ∧ k = m then f (d.mbx u k) else d.mbx u k := by
  unfold modMbx mbx
  by_cases hu : u = st
  · subst hu
    rw [stall_modStall_same]
    by_cases hk : k = m
    · subst hk
      simp
    · simp only [hk, and_false, if_false]
      exact upd_ne _ _ _ _ hk
  · rw [stall_modStall_ne _ _ _ _ hu]
    simp [hu]

@[simp] theorem mbx_modMbx_same (f : Mailbox → Mailbox) : (d.modMbx st m f).mbx st m = f (d.mbx st m) := by
  simp [mbx_modMbx]

@[simp] theorem ctx_modMbx (sl : Slot) (f : Mailbox → Mailbox) : (d.modMbx st m f).ctx u sl = d.ctx u sl := by
  unfold modMbx ctx
  by_cases hu : u = st
  · subst hu
    rw [stall_modStall_same]
    cases sl <;> rfl
  · rw [stall_modStall_ne _ _ _ _ hu]

@[simp] theorem slotOf_modMbx (f : Mailbox → Mailbox) : (d.modMbx st m f).slotOf u = d.slotOf u := by
  unfold modMbx slotOf
  by_cases hu : u = st
  · subst hu
    rw [stall_modStall_same]
  · rw [stall_modStall_ne _ _ _ _ hu]

@[simp] theorem cur_modMbx (f : Mailbox → Mailbox) : (d.modMbx st m f).cur u = d.cur u := by
  rw [← ctx_slotOf, ← ctx_slotOf, slotOf_modMbx, ctx_modMbx]

@[simp] theorem sreg_modMbx (f : Mailbox → Mailbox) (r : SReg) : (d.modMbx st m f).sreg u r = d.sreg u r := by
  rw [sreg, cur_modMbx, sreg]

@[simp] theorem chan_modMbx (sl : Slot) (n : BitVec 4) (f : Mailbox → Mailbox) :
    (d.modMbx st m f).chan u sl n = d.chan u sl n := by rw [chan, ctx_modMbx, chan]

@[simp] theorem rdByte_modMbx (f : Mailbox → Mailbox) (a : Nat) : (d.modMbx st m f).rdByte a = d.rdByte a := rfl

@[simp] theorem mbxOwner_modMbx (f : Mailbox → Mailbox) : (d.modMbx st m f).mbxOwner u k = d.mbxOwner u k := rfl
@[simp] theorem mbxOwner_modCur (f : SlotCtx → SlotCtx) : (d.modCur st f).mbxOwner u k = d.mbxOwner u k := rfl

theorem ctx_modCtx_same (sl : Slot) (f : SlotCtx → SlotCtx) : (d.modCtx st sl f).ctx st sl = f (d.ctx st sl) := by
  simp only [ctx, modCtx, stall_modStall_same, Stall.modCtx_same]

@[simp] theorem slotOf_modCtx (sl : Slot) (f : SlotCtx → SlotCtx) : (d.modCtx st sl f).slotOf u = d.slotOf u := by
  unfold modCtx slotOf
  by_cases hu : u = st
  · subst hu
    rw [stall_modStall_same, Stall.modCtx_slot]
  · rw [stall_modStall_ne _ _ _ _ hu]

/-- What a channel holds after it was written. -/
@[simp] theorem chan_setChan_same (sl : Slot) (n : BitVec 4) (r : W64) : (d.setChan st sl n r).chan st sl n = r := by
  have hn := n.isLt
  rw [chan, setChan, ctx_modCtx_same, SlotCtx.getCr_setCr_same _ _ _ (by omega)]

@[simp] theorem rdByte_setChan (sl : Slot) (n : BitVec 4) (r : W64) (a : Nat) : (d.setChan st sl n r).rdByte a = d.rdByte a := rfl
@[simp] theorem slotOf_setChan (sl : Slot) (n : BitVec 4) (r : W64) : (d.setChan st sl n r).slotOf u = d.slotOf u :=
  d.slotOf_modCtx ..

/-- Writing a channel of the running slot writes no scalar register. -/
theorem cur_setChan (n : BitVec 4) (r : W64) :
    (d.setChan st (d.slotOf st) n r).cur st = (d.cur st).setCr (0x20 + n.toNat) r := by
  rw [setChan, modCtx_slotOf, cur_modCur]

/-- A change of the running slot that keeps a control register keeps the slot's control registers. -/
theorem getCr_ctx_modCur (sl : Slot) (f : SlotCtx → SlotCtx) (n : Nat) (h : (f (d.cur st)).getCr n = (d.cur st).getCr n) :
    ((d.modCur st f).ctx st sl).getCr n = (d.ctx st sl).getCr n := by
  by_cases hs : sl = d.slotOf st
  · subst hs
    rw [ctx, stall_modCur, Stall.ctx_setCtx_same, h]
    rfl
  · rw [ctx, stall_modCur, Stall.ctx_setCtx_ne _ _ _ _ hs]
    rfl

/-- Retirement writes no channel. -/
@[simp] theorem chan_retire (sl : Slot) (n : BitVec 4) (w : Nat) : (d.retire st w).chan st sl n = d.chan st sl n := by
  have hn := n.isLt
  exact d.getCr_ctx_modCur st sl _ _ ((SlotCtx.retired_advance (d.cur st) w).2.1 _ (by omega) (by omega))

end Device

@[simp] theorem SlotCtx.hold_advance (c : SlotCtx) (n : Nat) : (c.advance n).hold = c.hold := by
  obtain ⟨cr, pc, h, -⟩ := SlotCtx.advance_cases c n
  rw [h]

/-! The fields of a send channel (R109). -/

/-- A field of a word, as bits of it. -/
theorem field_eq_extractLsb' {w : Nat} (x : BitVec w) (lo len : Nat) : field x lo len = (x.extractLsb' lo len).toNat := by
  simp [field, BitVec.extractLsb'_toNat]

/-- Two words that agree in the bits of a field agree in the field. -/
theorem field_congr {w : Nat} {x y : BitVec w} {lo len : Nat} (h : ∀ i, i < len → x.getLsbD (lo + i) = y.getLsbD (lo + i)) :
    field x lo len = field y lo len := by
  rw [field_eq_extractLsb', field_eq_extractLsb']
  congr 1
  apply BitVec.eq_of_getLsbD_eq
  intro i hi
  simp only [BitVec.getLsbD_extractLsb', hi, decide_true, Bool.true_and, h i hi]

/-- The bits of a channel whose credits were written. -/
theorem getLsbD_withCred (r : W64) (n i : Nat) (hi : i < 64) :
    (withCred r n).getLsbD i = if 16 ≤ i ∧ i < 23 then (n % 128).testBit (i - 16) else r.getLsbD i := by
  have hcount : (n % 128 * 2 ^ 16).testBit i = (decide (16 ≤ i) && (n % 128).testBit (i - 16)) := by
    rw [Nat.testBit_mul_two_pow]
  have hhigh : 23 ≤ i → (n % 128).testBit (i - 16) = false := fun h =>
    Nat.testBit_lt_two_pow ((Nat.mod_lt n (by decide)).trans_le (Nat.pow_le_pow_right two_pos (show 7 ≤ i - 16 by omega)))
  have hmask : (~~~(0x7F_0000 : W64)).getLsbD i = !(decide (16 ≤ i) && decide (i < 23)) := by
    interval_cases i <;> rfl
  simp only [withCred, BitVec.getLsbD_or, BitVec.getLsbD_and, hmask, BitVec.getLsbD_ofNat, hi, hcount, decide_true, Bool.true_and]
  by_cases hlo : 16 ≤ i
  · by_cases hup : i < 23
    · simp [hlo, hup]
    · simp [hlo, hup, hhigh (by omega)]
  · simp [hlo]

theorem chanCred_withCred (r : W64) (n : Nat) : chanCred (withCred r n) = n % 128 := by
  have hbits : (withCred r n).extractLsb' 16 7 = BitVec.ofNat 7 n := by
    apply BitVec.eq_of_getLsbD_eq
    intro i hi
    rw [BitVec.getLsbD_extractLsb', getLsbD_withCred _ _ _ (by omega), if_pos (by omega), BitVec.getLsbD_ofNat,
      show 16 + i - 16 = i by omega, show (128 : Nat) = 2 ^ 7 from rfl, Nat.testBit_mod_two_pow]
    simp [hi]
  rw [chanCred, field_eq_extractLsb', hbits, BitVec.toNat_ofNat]

theorem chanEn_withCred (r : W64) (n : Nat) : chanEn (withCred r n) = chanEn r := by
  rw [chanEn, flag, getLsbD_withCred _ _ _ (by decide), if_neg (by decide), chanEn, flag]

theorem chanDest_withCred (r : W64) (n : Nat) : chanDest (withCred r n) = chanDest r := by
  have h : field (withCred r n) 0 9 = field r 0 9 := field_congr fun i hi => by
    rw [getLsbD_withCred _ _ _ (by omega), if_neg (by omega)]
  rw [chanDest, h, chanDest]

theorem chanMbx_withCred (r : W64) (n : Nat) : chanMbx (withCred r n) = chanMbx r := by
  have h : field (withCred r n) 9 3 = field r 9 3 := field_congr fun i hi => by
    rw [getLsbD_withCred _ _ _ (by omega), if_neg (by omega)]
  rw [chanMbx, h, chanMbx]

theorem chanCred_lt (r : W64) : chanCred r < 128 := Nat.mod_lt _ (by decide)

end Sys2Proof.Machine
end

section
/-! SEND (R111): with a credit, without one, and on a disabled channel. -/

namespace Sys2Proof.Machine

namespace Device

/-- An operand address in the partition and aligned passes its checks. -/
theorem operandCheck_of_ok (d : Device) (st : StallId) (ea : W64) (k : Nat) (f : Device → Device) (hal : ea.toNat % k = 0)
    (hlim : ea.toNat + k ≤ d.loftLimit st (d.slotOf st)) : d.operandCheck st ea k f = f d := by
  rw [operandCheck, if_neg (Nat.not_lt.mpr hlim), if_neg (not_not.mpr hal)]

/-- The message that a SEND puts on its way. -/
def outgoing (d : Device) (st : StallId) (n : BitVec 4) (bytes : List Byte) : Transit :=
  let r := d.chan st (d.slotOf st) n
  ⟨chanDest r, chanMbx r, ⟨bytes, false, 0, BitVec.ofNat 9 st, d.slotOf st, n, false⟩⟩

/-- A mailbox one of whose granted credits is in flight. -/
def flying (m : Mailbox) : Mailbox := { m with granted := m.granted - 1, inflight := m.inflight + 1 }

/-- One credit moves from GRANTED to INFLIGHT, and the message is on its way. -/
def spendCredit (d : Device) (st : StallId) (n : BitVec 4) (bytes : List Byte) : Device :=
  let r := d.chan st (d.slotOf st) n
  let e := (d.setChan st (d.slotOf st) n (withCred r (chanCred r - 1))).modMbx (chanDest r) (chanMbx r) flying
  { e with msgs := d.msgs ++ [d.outgoing st n bytes] }

/-- A SEND that reads its 64 bytes spends its credit. The constant is unfolded alone, so that the kernel compares its body
as it stands and evaluates no address. -/
theorem sendNow_of_read (d : Device) (st : StallId) (ea : W64) (n : BitVec 4) (bytes : List Byte)
    (h : d.readRange (d.loftAt st ea.toNat) 64 false = (d, bytes, [])) :
    d.sendNow st ea n = ((d.spendCredit st n bytes).modCur st fun c => { c with hold := none }).retire st 1 := by
  generalize hf : @Device.sendNow = f
  delta Device.sendNow at hf
  subst hf
  beta_reduce
  rw [h]
  rfl

/-- A SEND that has its credit and reads its 64 bytes. -/
theorem send_of_credit (d : Device) (st : StallId) (a b : SReg) (hal : (d.sreg st a).toNat % 64 = 0)
    (hlim : (d.sreg st a).toNat + 64 ≤ d.loftLimit st (d.slotOf st))
    (hen : chanEn (d.chan st (d.slotOf st) ((d.sreg st b).setWidth 4)) = true)
    (hcred : chanCred (d.chan st (d.slotOf st) ((d.sreg st b).setWidth 4)) ≠ 0)
    (hclean : d.clean (d.loftAt st (d.sreg st a).toNat) 64) :
    d.send st a b = ((d.spendCredit st ((d.sreg st b).setWidth 4)
      (d.rdBytes (d.loftAt st (d.sreg st a).toNat) 64)).modCur st fun c => { c with hold := none }).retire st 1 := by
  have hread := d.readRange_clean _ 64 false (d.loftBase_le_loftAt st (d.sreg st a).toNat) hclean
  unfold send
  extract_lets ea n
  rw [d.operandCheck_of_ok st _ 64 _ hal hlim]
  extract_lets r
  have hen' : (!chanEn r) = false := by rw [show chanEn r = true from hen]; rfl
  rw [hen', if_neg Bool.false_ne_true, if_neg hcred]
  exact d.sendNow_of_read st ea n _ hread

/-- A SEND without a credit holds. -/
theorem send_of_noCredit (d : Device) (st : StallId) (a b : SReg) (hal : (d.sreg st a).toNat % 64 = 0)
    (hlim : (d.sreg st a).toNat + 64 ≤ d.loftLimit st (d.slotOf st))
    (hen : chanEn (d.chan st (d.slotOf st) ((d.sreg st b).setWidth 4)) = true)
    (hcred : chanCred (d.chan st (d.slotOf st) ((d.sreg st b).setWidth 4)) = 0) :
    d.send st a b = d.modCur st fun c => { c with hold := some (.send a b) } := by
  unfold send
  extract_lets ea n
  rw [d.operandCheck_of_ok st _ 64 _ hal hlim]
  extract_lets r
  have hen' : (!chanEn r) = false := by rw [show chanEn r = true from hen]; rfl
  rw [hen', if_neg Bool.false_ne_true, if_pos hcred]

/-- A SEND on a disabled channel names it in MSG_FAULT. -/
theorem send_of_disabled (d : Device) (st : StallId) (a b : SReg) (hal : (d.sreg st a).toNat % 64 = 0)
    (hlim : (d.sreg st a).toNat + 64 ≤ d.loftLimit st (d.slotOf st))
    (hen : chanEn (d.chan st (d.slotOf st) ((d.sreg st b).setWidth 4)) = false) :
    d.send st a b = d.msgFault st ((d.sreg st b).setWidth 4).toNat := by
  unfold send
  extract_lets ea n
  rw [d.operandCheck_of_ok st _ 64 _ hal hlim]
  extract_lets r
  have hen' : (!chanEn r) = true := by rw [show chanEn r = false from hen]; rfl
  rw [hen', if_pos rfl]

section
variable (d : Device) (st : StallId) (n : BitVec 4) (bytes : List Byte)

theorem mbx_spendCredit (u : StallId) (k : Fin 8) : (d.spendCredit st n bytes).mbx u k =
    if u = chanDest (d.chan st (d.slotOf st) n) ∧ k = chanMbx (d.chan st (d.slotOf st) n) then flying (d.mbx u k)
    else d.mbx u k := by
  have h := (d.setChan st (d.slotOf st) n
    (withCred (d.chan st (d.slotOf st) n) (chanCred (d.chan st (d.slotOf st) n) - 1))).mbx_modMbx
    (chanDest (d.chan st (d.slotOf st) n)) u (chanMbx (d.chan st (d.slotOf st) n)) k flying
  rwa [mbx_setChan] at h

theorem msgs_spendCredit : (d.spendCredit st n bytes).msgs = d.msgs ++ [d.outgoing st n bytes] := rfl

theorem rdByte_spendCredit (a : Nat) : (d.spendCredit st n bytes).rdByte a = d.rdByte a := rfl

theorem slotOf_spendCredit (u : StallId) : (d.spendCredit st n bytes).slotOf u = d.slotOf u := by
  have h := (d.setChan st (d.slotOf st) n
    (withCred (d.chan st (d.slotOf st) n) (chanCred (d.chan st (d.slotOf st) n) - 1))).slotOf_modMbx
    (chanDest (d.chan st (d.slotOf st) n)) u (chanMbx (d.chan st (d.slotOf st) n)) flying
  rwa [slotOf_setChan] at h

theorem chan_spendCredit : (d.spendCredit st n bytes).chan st (d.slotOf st) n =
    withCred (d.chan st (d.slotOf st) n) (chanCred (d.chan st (d.slotOf st) n) - 1) := by
  have h := (d.setChan st (d.slotOf st) n
    (withCred (d.chan st (d.slotOf st) n) (chanCred (d.chan st (d.slotOf st) n) - 1))).chan_modMbx
    (chanDest (d.chan st (d.slotOf st) n)) st (chanMbx (d.chan st (d.slotOf st) n)) (d.slotOf st) n flying
  rwa [chan_setChan_same] at h

theorem cur_spendCredit : (d.spendCredit st n bytes).cur st = (d.cur st).setCr (0x20 + n.toNat)
    (withCred (d.chan st (d.slotOf st) n) (chanCred (d.chan st (d.slotOf st) n) - 1)) := by
  have h := (d.setChan st (d.slotOf st) n
    (withCred (d.chan st (d.slotOf st) n) (chanCred (d.chan st (d.slotOf st) n) - 1))).cur_modMbx
    (chanDest (d.chan st (d.slotOf st) n)) st (chanMbx (d.chan st (d.slotOf st) n)) flying
  rwa [cur_setChan] at h

end

end Device

/-- After a SEND the slot holds nothing and goes on at the next instruction. -/
def Device.released (d : Device) (st : StallId) : Device := (d.modCur st fun c => { c with hold := none }).retire st 1

namespace Device

section
variable (d : Device) (st : StallId)

@[simp] theorem mbx_released (u : StallId) (k : Fin 8) : (d.released st).mbx u k = d.mbx u k := by simp [released]
@[simp] theorem rdByte_released (a : Nat) : (d.released st).rdByte a = d.rdByte a := rfl
@[simp] theorem hold_released : ((d.released st).cur st).hold = none := by
  rw [released, cur_retire, cur_modCur]
  exact SlotCtx.hold_advance _ 1
@[simp] theorem sreg_released (r : SReg) : (d.released st).sreg st r = d.sreg st r := by
  rw [sreg, released, cur_retire, SlotCtx.getS_advance, cur_modCur]
  rfl
@[simp] theorem chan_released (sl : Slot) (n : BitVec 4) : (d.released st).chan st sl n = d.chan st sl n :=
  (chan_retire _ st sl n 1).trans (d.getCr_ctx_modCur st sl _ _ rfl)

theorem sreg_spendCredit (n : BitVec 4) (bytes : List Byte) (r : SReg) :
    (d.spendCredit st n bytes).sreg st r = d.sreg st r := by
  rw [sreg, cur_spendCredit]
  rfl

end

end Device

/-- Settles O16: SEND at issue and from its hold is one operation with three outcomes. -/
theorem sendMessage : Obligations.SendMessage := by
  intro st d a b s ea n sl r p msg sent
  have hsent (hcred : chanCred r ≠ 0) (hen : chanEn r = true) :
      sent (s.onDev fun dev => (dev.spendCredit st n (s.dev.rdBytes p 64)).released st) := by
    have hlt := chanCred_lt r
    have hchan : (s.dev.spendCredit st n (s.dev.rdBytes p 64)).chan st sl n = withCred r (chanCred r - 1) :=
      s.dev.chan_spendCredit st n (s.dev.rdBytes p 64)
    have hmbx : (s.dev.spendCredit st n (s.dev.rdBytes p 64)).mbx (chanDest r) (chanMbx r) =
        Device.flying (s.dev.mbx (chanDest r) (chanMbx r)) :=
      (s.dev.mbx_spendCredit st n (s.dev.rdBytes p 64) _ _).trans (if_pos ⟨rfl, rfl⟩)
    simp only [sent, State.onDev_dev, State.sameMemory, Device.chan_released, Device.hold_released, Device.sreg_released,
      Device.rdByte_released, Device.mbx_released, hchan, hmbx, chanCred_withCred, chanEn_withCred, Device.sreg_spendCredit]
    exact ⟨rfl, by omega, hen, rfl, rfl, rfl, rfl, trivial, fun _ => trivial, fun _ => rfl⟩
  refine ⟨fun hi hal hlim hen => ⟨fun hcred hclean => ?_, fun hcred => ?_⟩, fun hi hal hlim hen hx => ?_,
    fun hact hhold hal hlim hen hcred hclean => ?_⟩
  · refine ⟨_, congrArg Host.Outcome.next ((onDev_issue hi _).trans (onDev_congr ?_)), hsent hcred hen⟩
    exact s.dev.send_of_credit st a b hal hlim hen hcred hclean
  · have hsend := s.dev.send_of_noCredit st a b hal hlim hen hcred
    exact ⟨_, congrArg Host.Outcome.next ((onDev_issue hi _).trans
        (onDev_congr (g := fun dev => dev.modCur st fun c => { c with hold := some (.send a b) }) hsend)),
      sameButSlot_modCur s st _, s.dev.cur_modCur st _⟩
  · have h := raise_took s st 10 0 (BitVec.ofNat 64 n.toNat) hx
    rw [BitVec.ofNat_toNat] at h
    refine ⟨_, congrArg Host.Outcome.next ((onDev_issue hi _).trans (onDev_congr ?_)), h⟩
    exact (s.dev.send_of_disabled st a b hal hlim hen).trans (by rw [Device.msgFault, BitVec.ofNat_toNat])
  · refine ⟨_, congrArg Host.Outcome.next (onDev_congr ?_), hsent hcred hen⟩
    have hsend := s.dev.send_of_credit st a b hal hlim hen hcred hclean
    rw [hhold]
    exact (if_pos hact).trans hsend

end Sys2Proof.Machine
end

section
/-! RECV and RECVA (R112 to R114): which mailbox answers, what taking a message leaves, and the hold. -/

namespace Sys2Proof.Machine

/-- The first number of Fin n with a property is the one below which none has it. -/
theorem find?_finList_eq_some {n : Nat} {p : Fin n → Bool} {i : Fin n} (hi : p i = true) (hlt : ∀ j, j < i → p j = false) :
    (finList n).find? p = some i := by
  rw [finList, List.find?_eq_some_iff_getElem]
  refine ⟨hi, i.val, by simp, by simp, fun j hj => ?_⟩
  have hj' : j < n := hj.trans i.isLt
  simpa using hlt ⟨j, hj'⟩ (Fin.mk_lt_of_lt_val hj)

theorem find?_finList_eq_none {n : Nat} {p : Fin n → Bool} (h : ∀ j, p j = false) : (finList n).find? p = none :=
  List.find?_eq_none.mpr fun j _ => by simp [h j]

/-- The mask of RECV names one mailbox. -/
theorem flag_two_pow (k m : Fin 8) : flag (BitVec.ofNat 8 (2 ^ m.val)) k.val = true ↔ k = m := by
  revert k m
  decide

namespace Device

/-- The slot that the oldest message of a mailbox leaves. -/
theorem freeSlot_frame (d : Device) (st : StallId) (mb : Fin 8) (m : Message) :
    d.freeSlot st mb m = { d with stalls := (d.freeSlot st mb m).stalls, credits := (d.freeSlot st mb m).credits } := by
  unfold freeSlot
  split <;> rfl

theorem mbx_freeSlot_of_notice (d : Device) (st : StallId) (mb : Fin 8) (m : Message) (h : m.notice = true) :
    (d.freeSlot st mb m).mbx st mb =
        { d.mbx st mb with msgs := (d.mbx st mb).msgs.drop 1, free := (d.mbx st mb).free + 1 } ∧
      (d.freeSlot st mb m).credits = d.credits := by
  rw [freeSlot, if_pos h]
  simp only [mbx_modMbx_same, modMbx_credits, and_self]

theorem mbx_freeSlot_of_message (d : Device) (st : StallId) (mb : Fin 8) (m : Message) (h : m.notice = false) :
    (d.freeSlot st mb m).mbx st mb =
        { d.mbx st mb with msgs := (d.mbx st mb).msgs.drop 1, granted := (d.mbx st mb).granted + 1 } ∧
      (d.freeSlot st mb m).credits =
        d.credits ++ [⟨.ret, st, mb, Fin.ofNat 384 m.src.toNat, m.slot, m.chan, 1, false⟩] := by
  rw [freeSlot, if_neg (by simp [h])]
  refine ⟨?_, rfl⟩
  show ((d.modMbx st mb _).modMbx st mb _).mbx st mb = _
  rw [mbx_modMbx_same, mbx_modMbx_same]

@[simp] theorem cur_freeSlot (d : Device) (st u : StallId) (mb : Fin 8) (m : Message) :
    (d.freeSlot st mb m).cur u = d.cur u := by
  unfold freeSlot
  split
  · simp only [cur_modMbx]
  · exact (cur_modMbx ..).trans (cur_modMbx ..)

@[simp] theorem slotOf_freeSlot (d : Device) (st u : StallId) (mb : Fin 8) (m : Message) :
    (d.freeSlot st mb m).slotOf u = d.slotOf u := by
  unfold freeSlot
  split
  · simp only [slotOf_modMbx]
  · exact (slotOf_modMbx ..).trans (slotOf_modMbx ..)

/-- The device once message m, the oldest of mailbox mb, was taken to p and its source word to dst. -/
def taken (d : Device) (st : StallId) (dst : SReg) (p : Nat) (mb : Fin 8) (m : Message) : Device :=
  ((((d.freeSlot st mb m).modCur st fun c => { c with hold := none }).wrBytes p m.data).setSreg st dst
    (sourceWord m mb)).retire st 1

/-- The mailboxes that a mask names belong to the running slot, and mb is the first of them with a message. -/
def answers (d : Device) (st : StallId) (mask : BitVec 8) (mb : Fin 8) : Prop :=
  (∀ k : Fin 8, flag mask k = true → d.mbxOwner st k = d.slotOf st) ∧ flag mask mb = true ∧
    ∀ k : Fin 8, k < mb → flag mask k = true → (d.mbx st k).msgs = []

/-- No mailbox that a mask names belongs to another slot. -/
theorem find?_owner_none (d : Device) (st : StallId) (mask : BitVec 8)
    (h : ∀ k : Fin 8, flag mask k = true → d.mbxOwner st k = d.slotOf st) :
    ((finList 8).find? fun (m : Fin 8) => flag mask m && d.mbxOwner st m != d.slotOf st) = none :=
  find?_finList_eq_none fun j => by
    cases hj : flag mask j with
    | false => rfl
    | true => simp [h j hj]

theorem receive_of_message (d : Device) (st : StallId) (dst a : SReg) (mask : BitVec 8) (mb : Fin 8) (m : Message)
    (rest : List Message) (hal : (d.sreg st a).toNat % 64 = 0)
    (hlim : (d.sreg st a).toNat + 64 ≤ d.loftLimit st (d.slotOf st)) (hans : d.answers st mask mb)
    (hclean : d.clean (d.loftAt st (d.sreg st a).toNat) 64) (hinj : d.tally.armed = false)
    (hmsgs : (d.mbx st mb).msgs = m :: rest) (hbad : m.bad = false) (hlen : m.data.length = 64) :
    d.receive st dst a mask = d.taken st dst (d.loftAt st (d.sreg st a).toNat) mb m := by
  obtain ⟨howner, hmb, hfirst⟩ := hans
  have hfind : ((finList 8).find? fun (m : Fin 8) => flag mask m && !(d.mbx st m).msgs.isEmpty) = some mb :=
    find?_finList_eq_some (by simp [hmb, hmsgs]) fun j hj => by
      cases hm : flag mask j with
      | false => rfl
      | true => simp [hfirst j hj hm]
  have hloft : ((d.freeSlot st mb m).modCur st fun c => { c with hold := none }).loftAt st (d.sreg st a).toNat =
      d.loftAt st (d.sreg st a).toNat := by
    rw [loftAt, slotOf_modCur, slotOf_freeSlot, loftAt, freeSlot_frame]
    rfl
  have hwrite : ((d.freeSlot st mb m).modCur st fun c => { c with hold := none }).writeRange
      (d.loftAt st (d.sreg st a).toNat) m.data false =
      (((d.freeSlot st mb m).modCur st fun c => { c with hold := none }).wrBytes
        (d.loftAt st (d.sreg st a).toNat) m.data, []) := by
    refine writeRange_clean _ _ _ _ (d.loftBase_le_loftAt st _) ?_ ?_
    · rw [hlen, freeSlot_frame]
      exact hclean
    · rw [freeSlot_frame]
      exact hinj
  unfold receive
  extract_lets ea
  rw [d.operandCheck_of_ok st _ 64 _ hal hlim, d.find?_owner_none st mask howner, hfind]
  dsimp only
  rw [hmsgs]
  dsimp only
  rw [if_neg (by simp [hbad]), hloft, hwrite]
  rfl

theorem receive_of_none (d : Device) (st : StallId) (dst a : SReg) (mask : BitVec 8) (hal : (d.sreg st a).toNat % 64 = 0)
    (hlim : (d.sreg st a).toNat + 64 ≤ d.loftLimit st (d.slotOf st))
    (hnone : ∀ k : Fin 8, flag mask k = true → d.mbxOwner st k = d.slotOf st ∧ (d.mbx st k).msgs = []) :
    d.receive st dst a mask = d.modCur st fun c => { c with hold := some (.recv dst a mask) } := by
  have hfind : ((finList 8).find? fun (m : Fin 8) => flag mask m && !(d.mbx st m).msgs.isEmpty) = none :=
    find?_finList_eq_none fun j => by
      cases hm : flag mask j with
      | false => rfl
      | true => simp [(hnone j hm).2]
  unfold receive
  extract_lets ea
  rw [d.operandCheck_of_ok st _ 64 _ hal hlim, d.find?_owner_none st mask fun k hk => (hnone k hk).1, hfind]

section
variable (d : Device) (st : StallId) (dst : SReg) (p : Nat) (mb : Fin 8) (m : Message)

theorem mbx_taken (u : StallId) (k : Fin 8) : (d.taken st dst p mb m).mbx u k = (d.freeSlot st mb m).mbx u k := by
  simp [taken]

theorem credits_taken : (d.taken st dst p mb m).credits = (d.freeSlot st mb m).credits := by
  rw [taken, retire_credits, setSreg_credits, wrBytes_only]
  rfl

theorem sreg_taken (r : SReg) :
    (d.taken st dst p mb m).sreg st r = if r = dst ∧ r ≠ 0 then sourceWord m mb else d.sreg st r := by
  rw [sreg, taken, cur_retire, SlotCtx.getS_advance, cur_setSreg, SlotCtx.getS_setS, cur_wrBytes, cur_modCur, cur_freeSlot]
  rfl

theorem hold_taken : ((d.taken st dst p mb m).cur st).hold = none := by
  rw [taken, cur_retire, SlotCtx.hold_advance, cur_setSreg, SlotCtx.setS_hold, cur_wrBytes, cur_modCur]

theorem rdByte_taken (q : Nat) : (d.taken st dst p mb m).rdByte q = (d.wrBytes p m.data).rdByte q := by
  have hm : (((d.freeSlot st mb m).modCur st fun c => { c with hold := none }).wrBytes p m.data).mem =
      (d.wrBytes p m.data).mem := by
    refine mem_wrBytes_congr ?_ ?_ p m.data
    · rw [freeSlot_frame]
      rfl
    · rw [freeSlot_frame]
      rfl
  rw [taken, rdByte, retire_mem, setSreg_mem, hm, rdByte]
  congr 1
  rw [wrBytes_only, freeSlot_frame, wrBytes_only d]
  rfl

end

end Device

/-- Settles O17: RECV, RECVA and the wake of a held one are one operation of a mask, which takes a message or holds. -/
theorem receiveMessage : Obligations.ReceiveMessage := by
  intro st d a b s mb m rest ea sl p mask took holds ok
  have htook (hmsgs : (s.dev.mbx st mb).msgs = m :: rest) (hlen : m.data.length = 64) :
      took (s.onDev fun dev => dev.taken st d p mb m) := by
    simp only [took, State.onDev_dev, Device.rdByte_taken, Device.sreg_taken, Device.mbx_taken, Device.credits_taken,
      Device.hold_taken]
    have hdrop : (s.dev.mbx st mb).msgs.drop 1 = rest := by rw [hmsgs]; rfl
    refine ⟨fun j hj => ?_, fun q hq => s.dev.rdByte_wrBytes_out p q m.data (by omega), fun q => rfl, ?_, ?_, fun hn => ?_,
      fun hn => ?_, trivial⟩
    · rw [s.dev.rdByte_wrBytes_in p j m.data (by omega), List.getD_eq_getElem]
    · cases hn : m.notice with
      | false => rw [(s.dev.mbx_freeSlot_of_message st mb m hn).1]; exact hdrop
      | true => rw [(s.dev.mbx_freeSlot_of_notice st mb m hn).1]; exact hdrop
    · cases hn : m.notice with
      | false => rw [(s.dev.mbx_freeSlot_of_message st mb m hn).1]
      | true => rw [(s.dev.mbx_freeSlot_of_notice st mb m hn).1]
    · obtain ⟨hmbx, hcred⟩ := s.dev.mbx_freeSlot_of_message st mb m hn
      rw [hmbx, hcred]
      exact ⟨rfl, rfl, rfl⟩
    · obtain ⟨hmbx, hcred⟩ := s.dev.mbx_freeSlot_of_notice st mb m hn
      rw [hmbx, hcred]
      exact ⟨rfl, rfl, rfl⟩
  have htake {i : Instr} {k : BitVec 8} (he : exec i s = .next (s.onDev fun dev => dev.receive st d a k))
      (hok : ok) (hans : s.dev.answers st k mb) : Completes i s took := by
    obtain ⟨hal, hlim, hclean, hinj, hmsgs, hbad, hlen⟩ := hok
    have h := s.dev.receive_of_message st d a k mb m rest hal hlim hans hclean hinj hmsgs hbad hlen
    exact ⟨_, he.trans (congrArg Host.Outcome.next (onDev_congr (g := fun dev => dev.taken st d p mb m) h)), htook hmsgs hlen⟩
  have hhold {i : Instr} {k : BitVec 8} (he : exec i s = .next (s.onDev fun dev => dev.receive st d a k))
      (hal : ea % 64 = 0) (hlim : ea + 64 ≤ s.dev.loftLimit st sl)
      (hnone : ∀ j : Fin 8, flag k j = true → s.dev.mbxOwner st j = sl ∧ (s.dev.mbx st j).msgs = []) :
      Completes i s (holds k) := by
    have h := s.dev.receive_of_none st d a k hal hlim hnone
    exact ⟨_, he.trans (congrArg Host.Outcome.next
        (onDev_congr (g := fun dev => dev.modCur st fun c => { c with hold := some (.recv d a k) }) h)),
      sameButSlot_modCur s st _, s.dev.cur_modCur st _⟩
  have hrecv (hi : s.issues st 1) (hfield : field (s.dev.sreg st b) 0 3 = mb.val) : exec (.recv st d a b) s =
      .next (s.onDev fun dev => dev.receive st d a (BitVec.ofNat 8 (2 ^ mb.val))) := by
    rw [← hfield]
    exact congrArg Host.Outcome.next (onDev_issue hi _)
  have hrecva (hi : s.issues st 1) : exec (.recva st d a b) s = .next (s.onDev fun dev => dev.receive st d a mask) :=
    congrArg Host.Outcome.next (onDev_issue hi _)
  have hwake (hact : (s.dev.stall st).active = true) (hh : (s.dev.cur st).hold = some (.recv d a mask)) :
      exec (.recvWake st) s = .next (s.onDev fun dev => dev.receive st d a mask) := by
    refine congrArg Host.Outcome.next (onDev_congr ?_)
    rw [hh]
    exact if_pos hact
  refine ⟨fun hi hok hf ho => htake (hrecv hi hf) hok ⟨fun k hk => ?_, (flag_two_pow mb mb).mpr rfl, fun k hlt hk => ?_⟩,
    fun hi hok ho hmb hfirst => htake (hrecva hi) hok ⟨ho, hmb, hfirst⟩,
    fun hact hh hok ho hmb hfirst => htake (hwake hact hh) hok ⟨ho, hmb, hfirst⟩,
    fun hi hal hlim hnone => hhold (hrecva hi) hal hlim hnone,
    fun hi hal hlim hf ho hempty => hhold (hrecv hi hf) hal hlim fun k hk => ?_,
    fun hact hh hal hlim hnone => hhold (hwake hact hh) hal hlim hnone⟩
  · obtain rfl := (flag_two_pow k mb).mp hk
    exact ho
  · exact absurd ((flag_two_pow k mb).mp hk) hlt.ne
  · obtain rfl := (flag_two_pow k mb).mp hk
    exact ⟨ho, hempty⟩

end Sys2Proof.Machine
end

section
/-! Credits and arrivals (R110, R111, R113, R116): MGRANT, CHCLOSE, the arrival of a message and of credits. -/

namespace Sys2Proof.Machine

/-- A bit of a word in which bit b has been cleared. -/
theorem getLsbD_clearBit {w : Nat} (x : BitVec w) (b i : Nat) (hi : i < w) :
    (clearBit x b).getLsbD i = (x.getLsbD i && !decide (b = i)) := by
  simp only [clearBit, BitVec.getLsbD_and, BitVec.getLsbD_not, BitVec.getLsbD_ofNat, Nat.testBit_two_pow, hi,
    decide_true, Bool.true_and]

/-- A closed channel: without credits and disabled. -/
def closedChan (r : W64) : W64 := clearBit (withCred r 0) 31

theorem chanEn_closedChan (r : W64) : chanEn (closedChan r) = false := by
  rw [chanEn, flag, closedChan, getLsbD_clearBit _ _ _ (by decide)]
  simp

theorem chanCred_closedChan (r : W64) : chanCred (closedChan r) = 0 := by
  have h : field (closedChan r) 16 7 = field (withCred r 0) 16 7 := field_congr fun i hi => by
    rw [closedChan, getLsbD_clearBit _ _ _ (by omega)]
    simp [show ¬ 31 = 16 + i by omega]
  exact h.trans (chanCred_withCred r 0)

namespace Device

/-- The credits of a channel that travel back to its mailbox. -/
def homeward (d : Device) (st : StallId) (sl : Slot) (n : BitVec 4) (reclaimed : Bool) : CreditTransit :=
  let r := d.chan st sl n
  ⟨.close, chanDest r, chanMbx r, st, sl, n, chanCred r, reclaimed⟩

/-- What closing a channel that is not reclaimed leaves. -/
theorem closeChannel_frame (d : Device) (st : StallId) (sl : Slot) (n : BitVec 4) :
    d.closeChannel st sl n false = { d.setChan st sl n (closedChan (d.chan st sl n)) with
      credits := if chanCred (d.chan st sl n) = 0 then d.credits else d.credits ++ [d.homeward st sl n false] } := by
  simp only [closeChannel, Bool.false_and, Bool.false_eq_true, if_false, List.map_id']
  split <;> rfl

/-- MGRANT of n credits. -/
def granted (d : Device) (st : StallId) (dst : SReg) (m : Fin 8) (n : Nat) (t : CreditTransit) : Device :=
  let e := d.modMbx st m fun q => { q with free := q.free - n, granted := q.granted + n }
  ({ e with credits := d.credits ++ [t] }.setSreg st dst 0).retire st 1

section
variable (d : Device) (st : StallId) (dst : SReg) (m : Fin 8) (n : Nat) (t : CreditTransit)

theorem mbx_granted (u : StallId) (k : Fin 8) : (d.granted st dst m n t).mbx u k =
    if u = st ∧ k = m then { d.mbx u k with free := (d.mbx u k).free - n, granted := (d.mbx u k).granted + n }
    else d.mbx u k := by
  rw [granted, mbx_retire, mbx_setSreg]
  exact d.mbx_modMbx st u m k fun q => { q with free := q.free - n, granted := q.granted + n }

theorem sreg_granted (r : SReg) :
    (d.granted st dst m n t).sreg st r = if r = dst ∧ r ≠ 0 then 0 else d.sreg st r := by
  rw [sreg, granted, cur_retire, SlotCtx.getS_advance, cur_setSreg, SlotCtx.getS_setS]
  congr 1
  exact d.sreg_modMbx st st m _ r

end

/-- The mailbox and the count that MGRANT's operands name are illegal (R110). -/
def grantIllegal (d : Device) (st : StallId) (x y : W64) : Prop :=
  field x 8 7 = 0 ∨ 64 < field x 8 7 ∨ 383 < field y 0 9 ∨ (d.mbx st (Fin.ofNat 8 (field x 0 3))).notice = true ∨
    d.mbxOwner st (Fin.ofNat 8 (field x 0 3)) ≠ d.slotOf st

end Device

/-- The credits that MGRANT sends. -/
def grantOf (st : StallId) (x y : W64) : CreditTransit :=
  ⟨.grant, st, Fin.ofNat 8 (field x 0 3), Fin.ofNat 384 (field y 0 9), if flag y 13 then .paddock else .primary,
    BitVec.ofNat 4 (field y 9 4), field x 8 7, false⟩

section
variable {s : State} {st : StallId} (d a b : SReg) (hi : s.issues st 1)
include hi

theorem exec_mgrant_of_illegal (h : s.dev.grantIllegal st (s.dev.sreg st a) (s.dev.sreg st b)) :
    exec (.mgrant st d a b) s =
      .next (s.onDev fun dev => dev.msgFault st (Fin.ofNat 8 (field (s.dev.sreg st a) 0 3)).val) := by
  refine congrArg Host.Outcome.next ((onDev_issue hi _).trans (onDev_congr ?_))
  exact if_pos h

theorem exec_mgrant_of_short (h : ¬ s.dev.grantIllegal st (s.dev.sreg st a) (s.dev.sreg st b))
    (hfree : (s.dev.mbx st (Fin.ofNat 8 (field (s.dev.sreg st a) 0 3))).free < field (s.dev.sreg st a) 8 7) :
    exec (.mgrant st d a b) s = .next (s.onDev fun dev => (dev.setSreg st d 1).retire st 1) := by
  refine congrArg Host.Outcome.next ((onDev_issue hi _).trans (onDev_congr ?_))
  exact (if_neg h).trans (if_pos hfree)

theorem exec_mgrant_of_free (h : ¬ s.dev.grantIllegal st (s.dev.sreg st a) (s.dev.sreg st b))
    (hfree : field (s.dev.sreg st a) 8 7 ≤ (s.dev.mbx st (Fin.ofNat 8 (field (s.dev.sreg st a) 0 3))).free) :
    exec (.mgrant st d a b) s = .next (s.onDev fun dev =>
      dev.granted st d (Fin.ofNat 8 (field (s.dev.sreg st a) 0 3)) (field (s.dev.sreg st a) 8 7)
        (grantOf st (s.dev.sreg st a) (s.dev.sreg st b))) := by
  refine congrArg Host.Outcome.next ((onDev_issue hi _).trans (onDev_congr ?_))
  exact (if_neg h).trans (if_neg (Nat.not_lt.mpr hfree))

theorem exec_chclose_of_issues : exec (.chclose st d a b) s = .next (s.onDev fun dev =>
    (dev.closeChannel st (s.dev.slotOf st) ((s.dev.sreg st a).setWidth 4) false).retire st 1) := by
  refine congrArg Host.Outcome.next ((onDev_issue hi _).trans (onDev_congr ?_))
  rfl

end

namespace Device

/-- The oldest message from src to a mailbox. -/
def bound (st : StallId) (mb : Fin 8) (src : StallId) (t : Transit) : Bool :=
  t.dst = st && t.mbx = mb && t.msg.src = BitVec.ofNat 9 src

/-- A message arrives in its mailbox. -/
def arrived (d : Device) (st : StallId) (mb : Fin 8) (src : StallId) (t : Transit) : Device :=
  { d with msgs := eraseFirst (bound st mb src) d.msgs }.modMbx st mb fun m =>
    { m with inflight := m.inflight - 1, msgs := m.msgs ++ [{ t.msg with frame := d.now.setWidth 32 }] }

/-- The credits of the i-th transit join their channel. -/
def joined (d : Device) (i : Nat) (c : CreditTransit) : Device :=
  { d with credits := d.credits.eraseIdx i }.setChan c.stall c.slot c.chan
    (withCred (d.chan c.stall c.slot c.chan) (chanCred (d.chan c.stall c.slot c.chan) + c.count))

/-- Credits that find their channel join it. -/
theorem creditArrives_of_taken (d : Device) (i : Nat) (c : CreditTransit) (hk : c.kind ≠ .close)
    (h : chanEn (d.chan c.stall c.slot c.chan) = true ∧ chanDest (d.chan c.stall c.slot c.chan) = c.owner ∧
      chanMbx (d.chan c.stall c.slot c.chan) = c.mbx) :
    d.creditArrives i c = d.joined i c := by
  refine if_pos ?_
  obtain ⟨h1, h2, h3⟩ := h
  have hk' : (c.kind != .close) = true := bne_iff_ne.mpr hk
  rw [hk', show ({ d with credits := d.credits.eraseIdx i } : Device).chan c.stall c.slot c.chan =
    d.chan c.stall c.slot c.chan from rfl, h1, decide_eq_true h2, decide_eq_true h3]
  rfl

/-- A mailbox to which n credits have come home. -/
def refund (n : Nat) (m : Mailbox) : Mailbox := { m with granted := m.granted - n, free := m.free + n }

/-- The credits of the i-th transit return to FREE. -/
def returned (d : Device) (i : Nat) (c : CreditTransit) : Device :=
  { d with credits := d.credits.eraseIdx i }.modMbx c.owner c.mbx (refund c.count)

/-- Credits that no channel takes return to FREE. -/
theorem creditArrives_of_untaken (d : Device) (i : Nat) (c : CreditTransit) (hr : c.reclaimed = false)
    (h : c.kind = .close ∨ ¬ (chanEn (d.chan c.stall c.slot c.chan) = true ∧
      chanDest (d.chan c.stall c.slot c.chan) = c.owner ∧ chanMbx (d.chan c.stall c.slot c.chan) = c.mbx)) :
    d.creditArrives i c = d.returned i c := by
  refine (if_neg fun hall => ?_).trans (if_neg (by simp [hr]))
  simp only [Bool.and_eq_true, decide_eq_true_eq, bne_iff_ne] at hall
  obtain ⟨⟨⟨hk, h1⟩, h2⟩, h3⟩ := hall
  exact h.elim hk fun hn => hn ⟨h1, h2, h3⟩

theorem length_eraseFirst {α : Type} (p : α → Bool) (l : List α) (x : α) (h : l.find? p = some x) :
    (eraseFirst p l).length + 1 = l.length := by
  induction l with
  | nil => simp at h
  | cons y t ih =>
    unfold eraseFirst
    split
    · rfl
    next hy =>
      rw [List.find?_cons_of_neg (by simpa using hy)] at h
      simp [ih h]

end Device

theorem exec_messageArrival_of_some (s : State) (st : StallId) (mb : Fin 8) (src : StallId) (t0 : Transit)
    (h : s.dev.msgs.find? (Device.bound st mb src) = some t0) :
    exec (.messageArrival st mb src) s = .next (s.onDev fun dev => dev.arrived st mb src t0) := by
  refine congrArg Host.Outcome.next (onDev_congr ?_)
  have h' : s.dev.msgs.find? (fun t => t.dst = st && t.mbx = mb && t.msg.src = BitVec.ofNat 9 src) = some t0 := h
  dsimp only
  rw [h']
  rfl

theorem exec_grantArrival_of_grant (s : State) (i : Nat) (c : CreditTransit) (h : s.dev.credits[i]? = some c)
    (hk : c.kind = .grant) : exec (.grantArrival i) s = .next (s.onDev fun dev => dev.creditArrives i c) := by
  refine congrArg Host.Outcome.next (onDev_congr ?_)
  rw [h]
  exact if_pos hk

theorem exec_creditReturnArrival_of_ne (s : State) (i : Nat) (c : CreditTransit) (h : s.dev.credits[i]? = some c)
    (hk : c.kind ≠ .grant) : exec (.creditReturnArrival i) s = .next (s.onDev fun dev => dev.creditArrives i c) := by
  refine congrArg Host.Outcome.next (onDev_congr ?_)
  rw [h]
  exact if_neg hk

/-- Settles O18: MGRANT has three outcomes, CHCLOSE and the arrival of a message one each, and credits that arrive two. -/
theorem creditsAndArrivals : Obligations.CreditsAndArrivals := by
  refine ⟨fun st d a b s hi => ?instructions, fun st mb src s t0 hfind => ?message, fun i c s hc => ?credits⟩
  case instructions =>
    intro x y m n sl
    refine ⟨fun hpos hle hdest hnotice howner => ?grant, fun hbad hx => ?fault, ?close⟩
    case grant =>
      have hlegal : ¬ s.dev.grantIllegal st x y := by
        rintro (h | h | h | h | h)
        · exact hpos.ne' h
        · exact absurd hle (Nat.not_le.mpr h)
        · exact absurd hdest (Nat.not_le.mpr h)
        · exact Bool.false_ne_true (hnotice.symm.trans h)
        · exact h howner
      refine ⟨fun hfree => ⟨_, exec_mgrant_of_free d a b hi hlegal hfree, ?_, fun q => ?_, rfl⟩, fun hshort =>
        ⟨_, exec_mgrant_of_short d a b hi hlegal hshort, wroteScalar_retire s st 1 d 1⟩⟩
      · exact (s.dev.mbx_granted st d m n _ st m).trans (if_pos ⟨rfl, rfl⟩)
      · exact s.dev.sreg_granted st d m n _ q
    case fault => exact ⟨_, exec_mgrant_of_illegal d a b hi hbad, raise_took s st 10 0 _ hx⟩
    case close =>
      intro c r
      have hframe := s.dev.closeChannel_frame st sl c
      have hchan : (s.dev.closeChannel st sl c false).chan st sl c = closedChan r := by
        rw [hframe]
        exact s.dev.chan_setChan_same st sl c (closedChan r)
      refine ⟨_, exec_chclose_of_issues d a b hi, ?_, ?_, fun hcred => ?_, fun hcred => ?_, fun q => ?_⟩
      · rw [State.onDev_dev, Device.chan_retire, hchan, chanEn_closedChan]
      · rw [State.onDev_dev, Device.chan_retire, hchan, chanCred_closedChan]
      · rw [State.onDev_dev, Device.retire_credits, hframe]
        exact if_neg hcred
      · rw [State.onDev_dev, Device.retire_credits, hframe]
        exact if_pos hcred
      · rw [State.onDev_dev, Device.sreg, Device.cur_retire, SlotCtx.getS_advance, hframe]
        exact (congrArg (fun x => SlotCtx.getS x q) (s.dev.cur_setChan st c (closedChan r))).trans rfl
  case message =>
    have hmbx := Device.mbx_modMbx_same { s.dev with msgs := eraseFirst (Device.bound st mb src) s.dev.msgs } st mb fun m =>
      { m with inflight := m.inflight - 1, msgs := m.msgs ++ [{ t0.msg with frame := s.dev.now.setWidth 32 }] }
    refine ⟨_, exec_messageArrival_of_some s st mb src t0 hfind, ?_, ?_, ?_, fun q => rfl⟩
    · exact congrArg Mailbox.msgs hmbx
    · exact congrArg Mailbox.inflight hmbx
    · exact Device.length_eraseFirst (Device.bound st mb src) s.dev.msgs t0 hfind
  case credits =>
    intro r taken joins returns
    have hjoin (hk : c.kind ≠ .close) (ht : taken) : joins (s.onDev fun dev => dev.creditArrives i c) := by
      rw [onDev_congr (g := fun dev => dev.joined i c) (s.dev.creditArrives_of_taken i c hk ht)]
      refine ⟨rfl, ?_, Device.mbx_setChan ..⟩
      rw [State.onDev_dev, Device.joined, Device.chan_setChan_same, chanCred_withCred]
    have hreturn (hr : c.reclaimed = false) (h : c.kind = .close ∨ ¬ taken) :
        returns (s.onDev fun dev => dev.creditArrives i c) := by
      rw [onDev_congr (g := fun dev => dev.returned i c) (s.dev.creditArrives_of_untaken i c hr h)]
      exact ⟨rfl, Device.mbx_modMbx_same ..⟩
    refine ⟨fun hk ht => ⟨_, exec_grantArrival_of_grant s i c hc hk, hjoin (by simp [hk]) ht⟩,
      fun hk ht => ⟨_, exec_creditReturnArrival_of_ne s i c hc (by simp [hk]), hjoin (by simp [hk]) ht⟩,
      fun hk hn hr => ⟨_, exec_grantArrival_of_grant s i c hc hk, hreturn hr (.inr hn)⟩,
      fun hk hn hr => ⟨_, exec_creditReturnArrival_of_ne s i c hc (by simp [hk]), hreturn hr (.inr hn)⟩,
      fun hk hr => ⟨_, exec_creditReturnArrival_of_ne s i c hc (by simp [hk]), hreturn hr (.inl hk)⟩⟩

end Sys2Proof.Machine
end

section
/-! The sum of a mailbox's counts (R108): what accesses to memory and the message operations leave of it. -/

namespace Sys2Proof.Machine

namespace Device

/-- e is d but for memory, its errors, its controllers and what accesses to it count and report. -/
def Accessed (d e : Device) : Prop :=
  e = { d with regs := e.regs, pba := e.pba, out := e.out, batches := e.batches, free := e.free, mc := e.mc,
               bad := e.bad, ce := e.ce, tally := e.tally, mem := e.mem }

theorem Accessed.refl (d : Device) : Accessed d d := rfl

theorem Accessed.trans {d e f : Device} (h : Accessed d e) (k : Accessed e f) : Accessed d f := by
  unfold Accessed at *
  rw [k, h]

theorem Quiet.accessed {d e : Device} (h : Quiet d e) : Accessed d e := by
  rw [Accessed, h]

theorem Counted.accessed {d e : Device} (h : Counted d e) : Accessed d e := by
  rw [Accessed, h]

theorem accessed_wrBytes (d : Device) (a : Nat) (l : List Byte) : Accessed d (d.wrBytes a l) := by
  rw [Accessed, wrBytes_only]

theorem accessed_setMapout (d : Device) (c : Chan) : Accessed d (d.setMapout c) := by
  unfold setMapout
  split
  · exact Accessed.refl d
  · exact Accessed.trans (e := d.modMc c fun m => { m with mapoutPend := true }) rfl (quiet_event _ _ _).accessed

theorem accessed_burstFailed (d : Device) (a : Nat) : Accessed d (d.burstFailed a) := by
  unfold burstFailed
  extract_lets c p d1 d2 d3 d4 d5 lim
  have h3 : Quiet d d3 := ((quiet_bump d p 0x114 1).trans (quiet_setPreg d1 p 0x118 _)).trans (quiet_setPreg d2 p 0x11C _)
  have h4 : Accessed d d4 := h3.accessed.trans (e := d3) rfl
  have h5 : Accessed d d5 := h4.trans (quiet_eventCode d4 p 2 Status.memEccUncorrected).accessed
  split
  · exact h5.trans (accessed_setMapout d5 c)
  · exact h5

theorem accessed_wordFailed (d : Device) (a : Nat) : Accessed d (d.wordFailed a) := by
  unfold wordFailed
  exact ((quiet_bump _ _ _ _).trans (quiet_record _ _ _)).accessed

theorem accessed_inject (d : Device) (u : Nat) : Accessed d (d.inject u) := by
  simp only [inject]
  split_ifs <;> rfl

/-- A read of a unit, whatever error it meets. -/
theorem accessed_readUnit (d : Device) (u : Nat) (b : Bool) : Accessed d (d.readUnit u b).1 := by
  have hs := (counted_burstServed d (d.chanOf u) false b).accessed
  simp only [readUnit]
  generalize d.burstServed (d.chanOf u) false b = e at hs ⊢
  split_ifs
  · exact Accessed.refl d
  · exact hs.trans (accessed_burstFailed _ u)
  · exact hs.trans (quiet_bump _ _ _ _).accessed
  · exact hs
  · exact accessed_wordFailed d u
  · exact Accessed.trans (e := { d with ce := setErase d.ce u }) rfl (quiet_bump _ _ _ _).accessed
  · exact Accessed.refl d

/-- A write within a unit, whatever error it meets. -/
theorem accessed_writeUnit (d : Device) (a : Nat) (l : List Byte) (b : Bool) : Accessed d (d.writeUnit a l b).1 := by
  have hs := (counted_burstServed d (d.chanOf (unitOf a)) true b).accessed
  have hput (x : Device) (hx : Accessed d x) : Accessed d ((x.wrBytes a l).inject (unitOf a)) :=
    (hx.trans (accessed_wrBytes x a l)).trans (accessed_inject _ _)
  unfold writeUnit
  extract_lets u whole lp6 c x y w z
  have hx : Accessed d x := by
    dsimp only [x]
    split
    · exact hs
    · exact Accessed.refl d
  have hz : Accessed d z := by
    dsimp only [z]
    split
    · split
      · exact Accessed.trans (e := w) (hx.trans rfl) (quiet_bump w _ _ _).accessed
      · exact Accessed.trans (e := w) (hx.trans rfl) (quiet_bump w _ _ _).accessed
    · exact hx
  split
  · exact Accessed.refl d
  split
  · exact hput y (hx.trans rfl)
  split
  · split
    · exact hx.trans (accessed_burstFailed x u)
    · exact hx.trans (accessed_wordFailed x u)
  · exact hput z hz

/-- A fold of accesses is one. -/
theorem accessed_foldl {ι : Type} (f : Device → ι → Device × MemRes) (hf : ∀ d u, Accessed d (f d u).1)
    (g : ι → MemRes → List (Nat × MemRes)) (l : List ι) (x : Device × List (Nat × MemRes)) :
    Accessed x.1 (l.foldl (fun x u => ((f x.1 u).1,
      if (f x.1 u).2 = .ok then x.2 else x.2 ++ g u (f x.1 u).2)) x).1 := by
  induction l generalizing x with
  | nil => exact Accessed.refl _
  | cons u t ih => exact (hf x.1 u).trans (ih _)

theorem accessed_readRange (d : Device) (a n : Nat) (b : Bool) : Accessed d (d.readRange a n b).1 :=
  accessed_foldl (fun d u => d.readUnit u b) (fun d u => accessed_readUnit d u b) (fun u r => [(u, r)]) _ (d, [])

theorem accessed_writeRange (d : Device) (a : Nat) (l : List Byte) (b : Bool) : Accessed d (d.writeRange a l b).1 :=
  accessed_foldl (fun d u => d.writeUnit (pieceOf a l u).1 (pieceOf a l u).2 b) (fun d _ => accessed_writeUnit d _ _ b)
    (fun u r => [(u, r)]) _ (d, [])

/-- Every mailbox of e counts as many tokens as in d. -/
def SameCounts (d e : Device) : Prop := ∀ u k, (e.mbx u k).counts = (d.mbx u k).counts

namespace SameCounts

variable {d e f : Device}

theorem refl (d : Device) : SameCounts d d := fun _ _ => rfl
theorem trans (h : SameCounts d e) (k : SameCounts e f) : SameCounts d f := fun u m => (k u m).trans (h u m)
theorem of_mbx (h : ∀ u k, e.mbx u k = d.mbx u k) : SameCounts d e := fun u k => congrArg Mailbox.counts (h u k)
theorem of_stalls (h : e.stalls = d.stalls) : SameCounts d e := of_mbx fun u k => by rw [mbx, stall, h]; rfl

/-- A change of one mailbox that keeps its sum. -/
theorem of_modMbx (st : StallId) (m : Fin 8) (g : Mailbox → Mailbox) (h : (g (d.mbx st m)).counts = (d.mbx st m).counts) :
    SameCounts d (d.modMbx st m g) := fun u k => by
  rw [mbx_modMbx]
  split
  next huk =>
    obtain ⟨rfl, rfl⟩ := huk
    exact h
  next => rfl

end SameCounts

theorem Accessed.stalls {d e : Device} (h : Accessed d e) : e.stalls = d.stalls := by rw [h]

theorem Accessed.sameCounts {d e : Device} (h : Accessed d e) : SameCounts d e := .of_stalls h.stalls

theorem Quiet.sameCounts {d e : Device} (h : Quiet d e) : SameCounts d e := .of_stalls h.stalls

section
variable (d : Device) (st : StallId)

theorem sameCounts_modCur (f : SlotCtx → SlotCtx) : SameCounts d (d.modCur st f) := .of_mbx fun u k => d.mbx_modCur st u k f
theorem sameCounts_setChan (sl : Slot) (n : BitVec 4) (r : W64) : SameCounts d (d.setChan st sl n r) :=
  .of_mbx fun u k => d.mbx_setChan st u k sl n r
theorem sameCounts_retire (n : Nat) : SameCounts d (d.retire st n) := d.sameCounts_modCur st _
theorem sameCounts_setSreg (r : SReg) (v : W64) : SameCounts d (d.setSreg st r v) := d.sameCounts_modCur st _

theorem sameCounts_haltSlot (sl : Slot) (kind cause : Nat) : SameCounts d (d.haltSlot st sl kind cause) :=
  (SameCounts.of_mbx fun u k => d.mbx_modStall_of_mbx st u k _ (Stall.modCtx_mbx ..)).trans (quiet_event _ _ _).sameCounts

theorem sameCounts_raise (cause : Nat) (code : Code) (info : W64) : SameCounts d (d.raise st cause code info) := by
  unfold raise
  split
  · exact d.sameCounts_haltSlot st _ _ _
  · exact (d.sameCounts_modCur st _).trans (quiet_record _ _ _).sameCounts

theorem sameCounts_issue (n : Nat) {f : Device → Device} (h : SameCounts d (f d)) : SameCounts d (d.issue st n f) := by
  unfold issue
  split
  · split
    · exact d.sameCounts_raise st _ _ _
    · exact h
  · exact SameCounts.refl d

theorem sameCounts_operandCheck (ea : W64) (k : Nat) {f : Device → Device} (h : SameCounts d (f d)) :
    SameCounts d (d.operandCheck st ea k f) := by
  unfold operandCheck
  split
  · exact d.sameCounts_raise st _ _ _
  split
  · exact d.sameCounts_raise st _ _ _
  · exact h

end

/-- A SEND spends a credit that its mailbox has granted, and faults where its bytes do not read. -/
theorem sameCounts_sendNow (d : Device) (st : StallId) (ea : W64) (n : BitVec 4)
    (hcov : 1 ≤ (d.mbx (chanDest (d.chan st (d.slotOf st) n)) (chanMbx (d.chan st (d.slotOf st) n))).granted) :
    SameCounts d (d.sendNow st ea n) := by
  have hread := d.accessed_readRange (d.loftAt st ea.toNat) 64 false
  generalize hf : @Device.sendNow = f
  delta Device.sendNow at hf
  subst hf
  beta_reduce
  generalize d.readRange (d.loftAt st ea.toNat) 64 false = r at hread ⊢
  obtain ⟨e, bytes, bad⟩ := r
  refine hread.sameCounts.trans ?_
  have hs : e.stalls = d.stalls := hread.stalls
  cases bad with
  | cons x xs => exact e.sameCounts_raise st _ _ _
  | nil =>
    have hcov' : 1 ≤ (e.mbx (chanDest (e.chan st (e.slotOf st) n)) (chanMbx (e.chan st (e.slotOf st) n))).granted := by
      simpa only [mbx, chan, ctx, slotOf, stall, hs] using hcov
    refine SameCounts.trans (e := e.spendCredit st n bytes) (fun u k => ?_)
      ((sameCounts_modCur _ st _).trans (sameCounts_retire _ st 1))
    rw [mbx_spendCredit]
    split
    next huk =>
      obtain ⟨rfl, rfl⟩ := huk
      simp only [flying, Mailbox.counts]
      omega
    next => rfl

theorem sameCounts_send (d : Device) (st : StallId) (a b : SReg)
    (hcov : let r := d.chan st (d.slotOf st) ((d.sreg st b).setWidth 4)
      1 ≤ (d.mbx (chanDest r) (chanMbx r)).granted) : SameCounts d (d.send st a b) := by
  refine d.sameCounts_operandCheck st _ 64 ?_
  extract_lets r
  split
  · exact d.sameCounts_raise st _ _ _
  split
  · exact d.sameCounts_modCur st _
  · exact d.sameCounts_sendNow st _ _ hcov

/-- The message that leaves its slot is one the mailbox holds: its slot is granted or free instead. -/
theorem sameCounts_freeSlot (d : Device) (st : StallId) (mb : Fin 8) (m : Message) (h : (d.mbx st mb).msgs ≠ []) :
    SameCounts d (d.freeSlot st mb m) := by
  have hlen : (d.mbx st mb).msgs.length ≠ 0 := fun h0 => h (List.length_eq_zero_iff.mp h0)
  intro u k
  unfold freeSlot
  split
  · rw [mbx_modMbx, mbx_modMbx]
    split
    next huk =>
      obtain ⟨rfl, rfl⟩ := huk
      simp only [Mailbox.counts, List.length_drop]
      omega
    next => rfl
  · show (((d.modMbx st mb _).modMbx st mb _).mbx u k).counts = _
    rw [mbx_modMbx, mbx_modMbx]
    split
    next huk =>
      obtain ⟨rfl, rfl⟩ := huk
      simp only [Mailbox.counts, List.length_drop]
      omega
    next => rfl

theorem sameCounts_receive (d : Device) (st : StallId) (dst a : SReg) (mask : BitVec 8) :
    SameCounts d (d.receive st dst a mask) := by
  refine d.sameCounts_operandCheck st _ 64 ?_
  split
  · exact d.sameCounts_raise st _ _ _
  split
  · exact d.sameCounts_modCur st _
  next mb _ =>
    split
    · exact SameCounts.refl d
    next m rest hmsgs =>
      have hfree := (d.sameCounts_freeSlot st mb m (by rw [hmsgs]; exact List.cons_ne_nil _ _)).trans
        (sameCounts_modCur _ st fun c => { c with hold := none })
      generalize (d.freeSlot st mb m).modCur st (fun c => { c with hold := none }) = e at hfree ⊢
      split
      · exact hfree.trans (e.sameCounts_raise st _ _ _)
      · exact ((hfree.trans (accessed_writeRange e _ _ _).sameCounts).trans (sameCounts_setSreg _ st _ _)).trans
          (sameCounts_retire _ st 1)

theorem sameCounts_closeChannel (d : Device) (st : StallId) (sl : Slot) (n : BitVec 4) (r : Bool) :
    SameCounts d (d.closeChannel st sl n r) := by
  have h := d.sameCounts_setChan st sl n (closedChan (d.chan st sl n))
  unfold closeChannel
  extract_lets r e inbound e'
  split
  · exact h.trans (.of_stalls rfl)
  · exact h.trans (.of_stalls rfl)

theorem sameCounts_granted (d : Device) (st : StallId) (dst : SReg) (m : Fin 8) (n : Nat) (t : CreditTransit)
    (h : n ≤ (d.mbx st m).free) : SameCounts d (d.granted st dst m n t) := fun u k => by
  rw [mbx_granted]
  split
  next huk =>
    obtain ⟨rfl, rfl⟩ := huk
    simp only [Mailbox.counts]
    omega
  next => rfl

theorem sameCounts_reclaim (d : Device) (cause : Fin 5) (c : Code) (p : Page) (tally n : Nat) :
    SameCounts d (d.reclaim cause c p tally n) := by
  unfold reclaim
  split
  · exact SameCounts.refl d
  · exact .of_stalls (quiet_eventCode _ _ _ _).stalls

theorem sameCounts_creditArrives (d : Device) (i : Nat) (c : CreditTransit)
    (h : c.count ≤ (d.mbx c.owner c.mbx).granted) : SameCounts d (d.creditArrives i c) := by
  have hback : SameCounts d (d.returned i c) := by
    refine SameCounts.trans (e := { d with credits := d.credits.eraseIdx i }) (.of_stalls rfl) ?_
    refine SameCounts.of_modMbx _ _ _ ?_
    have h' : c.count ≤ (Device.mbx { d with credits := d.credits.eraseIdx i } c.owner c.mbx).granted := h
    simp only [refund, Mailbox.counts]
    omega
  unfold creditArrives
  extract_lets e r e'
  split
  · exact SameCounts.trans (e := e) (.of_stalls rfl) (e.sameCounts_setChan _ _ _ _)
  split
  · exact hback.trans (sameCounts_reclaim _ _ _ _ _ _)
  · exact hback

theorem sameCounts_arrived (d : Device) (st : StallId) (mb : Fin 8) (src : StallId) (t : Transit)
    (h : 1 ≤ (d.mbx st mb).inflight) : SameCounts d (d.arrived st mb src t) := by
  refine SameCounts.trans (e := { d with msgs := eraseFirst (bound st mb src) d.msgs }) (.of_stalls rfl) ?_
  refine SameCounts.of_modMbx _ _ _ ?_
  have h' : 1 ≤ (Device.mbx { d with msgs := eraseFirst (bound st mb src) d.msgs } st mb).inflight := h
  simp only [Mailbox.counts, List.length_append, List.length_singleton]
  omega

theorem sameCounts_slotReclaim (d : Device) (v : W32) : SameCounts d (d.slotReclaim v) := by
  have hclose (st : StallId) (sl : Slot) (l : List Nat) (e : Device) : SameCounts e
      (l.foldl (fun d n => d.closeChannel st sl (BitVec.ofNat 4 n) true) e) := by
    induction l generalizing e with
    | nil => exact SameCounts.refl e
    | cons n t ih => exact (e.sameCounts_closeChannel st sl _ true).trans (ih _)
  have hanswer (e : Device) (c : Code) :
      SameCounts e (({ e with tally := { e.tally with slotRes := c } } : Device).record Page.tally c) :=
    .of_stalls (quiet_record _ _ _).stalls
  unfold slotReclaim
  extract_lets answer st sl
  split
  · exact hanswer d _
  · exact (hclose st sl (List.range 16) d).trans (hanswer _ _)

end Device

/-- Settles O19: each operation of R110 to R116 moves a token between two counts of one mailbox, or touches none. -/
theorem mailboxCountsKept : Obligations.MailboxCountsKept := by
  intro s t u k keeps covered
  have kept {i : Instr} {f : Device → Device} (he : exec i s = .next (s.onDev f)) (hf : Device.SameCounts s.dev (f s.dev))
      (ht : exec i s = .next t) : keeps := by
    obtain rfl := Host.Outcome.next.inj (he.symm.trans ht)
    exact hf u k
  have issued {i : Instr} {st : StallId} {f : Device → Device} (he : exec i s = .next (s.onDev fun d => d.issue st 1 f))
      (hf : Device.SameCounts s.dev (f s.dev)) : exec i s = .next t → keeps :=
    kept he (s.dev.sameCounts_issue st 1 hf)
  refine ⟨fun st d a b hcov => issued rfl (s.dev.sameCounts_send st a b hcov), fun st hcov => kept rfl ?heldSend,
    fun st => kept rfl ?recvWake, fun who v => kept rfl ?reclaim, fun st d a b => issued rfl ?grant,
    fun st d a b => issued rfl (s.dev.sameCounts_receive st d a _),
    fun st d a b => issued rfl (s.dev.sameCounts_receive st d a _),
    fun st d a b => issued rfl ((s.dev.sameCounts_closeChannel st _ _ _).trans (Device.sameCounts_retire _ st 1)),
    fun st mb src hin => kept rfl ?message, fun i hcov => ⟨kept rfl ?grantArrival, kept rfl ?returnArrival⟩⟩
  case heldSend =>
    split
    next a b hh =>
      split
      · exact s.dev.sameCounts_send st a b (hcov a b hh)
      · exact Device.SameCounts.refl s.dev
    next => exact Device.SameCounts.refl s.dev
  case recvWake =>
    split
    · split
      · exact s.dev.sameCounts_receive st _ _ _
      · exact Device.SameCounts.refl s.dev
    · exact Device.SameCounts.refl s.dev
  case reclaim =>
    split
    · exact s.dev.sameCounts_slotReclaim v
    · exact Device.SameCounts.refl s.dev
  case grant =>
    extract_lets x y m n
    split
    · exact s.dev.sameCounts_raise st _ _ _
    split
    · exact (s.dev.sameCounts_setSreg st _ _).trans (Device.sameCounts_retire _ st 1)
    next hfree => exact s.dev.sameCounts_granted st d m n (grantOf st x y) (Nat.not_lt.mp hfree)
  case message =>
    extract_lets mine
    split
    · exact Device.SameCounts.refl s.dev
    next t0 _ => exact s.dev.sameCounts_arrived st mb src t0 hin
  case grantArrival =>
    split
    next c hc =>
      split
      · exact s.dev.sameCounts_creditArrives i c (hcov c hc)
      · exact Device.SameCounts.refl s.dev
    next => exact Device.SameCounts.refl s.dev
  case returnArrival =>
    split
    next c hc =>
      split
      · exact Device.SameCounts.refl s.dev
      · exact s.dev.sameCounts_creditArrives i c (hcov c hc)
    next => exact Device.SameCounts.refl s.dev

end Sys2Proof.Machine
end

section
/-! Vector registers and the entries of the vector queue: elements of a register, what issuing an entry of an idle unit
does, and the frame of an entry that writes the active elements of one register (R135, R136, R141). -/

namespace Sys2Proof.Machine

/-! ### Elements -/

namespace Vec

/-- The number whose digits to base 2 ^ w are f 0, …, f (k − 1). -/
def digits (w k : Nat) (f : Nat → Nat) : Nat := (List.range k).foldr (fun i n => n * 2 ^ w + f i % 2 ^ w) 0

theorem digits_succ (w k : Nat) (f : Nat → Nat) :
    digits w (k + 1) f = digits w k (fun i => f (i + 1)) * 2 ^ w + f 0 % 2 ^ w := by
  simp only [digits, List.range_succ_eq_map, List.foldr_cons, List.foldr_map]

theorem digits_lt (w k : Nat) (f : Nat → Nat) : digits w k f < 2 ^ (w * k) := by
  induction k generalizing f with
  | zero => simp [digits]
  | succ k ih =>
    have h := ih fun i => f (i + 1)
    have h0 : f 0 % 2 ^ w < 2 ^ w := Nat.mod_lt _ (Nat.two_pow_pos w)
    rw [digits_succ, Nat.mul_succ, pow_add]
    calc digits w k (fun i => f (i + 1)) * 2 ^ w + f 0 % 2 ^ w
        < (digits w k (fun i => f (i + 1)) + 1) * 2 ^ w := by rw [add_mul, one_mul]; omega
      _ ≤ 2 ^ (w * k) * 2 ^ w := Nat.mul_le_mul_right _ h

theorem digit_digits (w k : Nat) (f : Nat → Nat) (i : Nat) (hi : i < k) :
    digits w k f / 2 ^ (w * i) % 2 ^ w = f i % 2 ^ w := by
  induction k generalizing f i with
  | zero => omega
  | succ k ih =>
    rw [digits_succ]
    cases i with
    | zero => rw [Nat.mul_zero, pow_zero, Nat.div_one, Nat.mul_add_mod_of_lt (Nat.mod_lt _ (Nat.two_pow_pos w))]
    | succ i =>
      have h0 : f 0 % 2 ^ w / 2 ^ w = 0 := Nat.div_eq_of_lt (Nat.mod_lt _ (Nat.two_pow_pos w))
      rw [Nat.mul_succ, Nat.add_comm (w * i) w, pow_add, ← Nat.div_div_eq_div_mul, Nat.mul_comm _ (2 ^ w),
        Nat.mul_add_div (Nat.two_pow_pos w), h0, Nat.add_zero]
      exact ih (fun j => f (j + 1)) i (by omega)

/-- Element i of a register made of elements. -/
theorem elem_ofElems (w : Nat) (f : Nat → Nat) (i : Nat) (hi : i < 4096 / w) : elem (ofElems w f) w i = f i % 2 ^ w := by
  have hlt : digits w (4096 / w) f < 2 ^ 4096 :=
    (digits_lt w _ f).trans_le (Nat.pow_le_pow_right Nat.two_pos (Nat.mul_div_le 4096 w))
  rw [elem, field, ofElems, Nat.shiftRight_eq_div_pow, BitVec.toNat_ofNat]
  exact (congrArg (fun n => n / 2 ^ (w * i) % 2 ^ w) (Nat.mod_eq_of_lt hlt)).trans (digit_digits w _ f i hi)

theorem elem_lt (x : VReg4096) (w i : Nat) : elem x w i < 2 ^ w := Nat.mod_lt _ (Nat.two_pow_pos w)

theorem elem_setElem (x : VReg4096) (w i n j : Nat) (hj : j < 4096 / w) :
    elem (setElem x w i n) w j = if j = i then n % 2 ^ w else elem x w j := by
  rw [setElem, elem_ofElems _ _ _ hj]
  split
  · rfl
  · exact Nat.mod_eq_of_lt (elem_lt x w j)

end Vec

/-! ### Slots -/

namespace SlotCtx

theorem getCr_advance (c : SlotCtx) (n m : Nat) (h1 : m ≠ 0x3C) (h2 : m ≠ 0x3D) : (c.advance n).getCr m = c.getCr m :=
  (c.retired_advance n).2.1 m h1 h2

@[simp] theorem k_advance (c : SlotCtx) (n : Nat) : (c.advance n).k = c.k := by
  obtain ⟨cr, pc, h, -⟩ := c.advance_cases n
  rw [h]

@[simp] theorem vq_advance (c : SlotCtx) (n : Nat) : (c.advance n).vq = c.vq := by
  obtain ⟨cr, pc, h, -⟩ := c.advance_cases n
  rw [h]

theorem loopBack_with_vq (c : SlotCtx) (n : Nat) (a : Tack) (q : List VecEntry) :
    ({ c with vq := q } : SlotCtx).loopBack n a = ({ (c.loopBack n a).1 with vq := q }, (c.loopBack n a).2) := by
  simp only [loopBack, show ({ c with vq := q } : SlotCtx).getCr n = c.getCr n from rfl]
  split_ifs <;> rfl

/-- What retirement makes of a slot whose pc has moved: the LOOP registers at the address a. -/
def turned (c : SlotCtx) (a : Tack) : SlotCtx :=
  let r := c.loopBack 0x3D a
  if r.2 then r.1 else (r.1.loopBack 0x3C a).1

theorem advance_eq (c : SlotCtx) (n : Nat) : c.advance n = ({ c.skip n with resumeAt := none } : SlotCtx).turned c.pc := rfl

theorem turned_with_vq (c : SlotCtx) (a : Tack) (q : List VecEntry) :
    ({ c with vq := q } : SlotCtx).turned a = { c.turned a with vq := q } := by
  unfold turned
  rw [c.loopBack_with_vq 0x3D a q]
  generalize c.loopBack 0x3D a = r
  obtain ⟨x, again⟩ := r
  cases again with
  | false => exact congrArg Prod.fst (x.loopBack_with_vq 0x3C a q)
  | true => rfl

/-- Retirement counts loops by the pc and the LOOP registers alone, whatever the queue holds. -/
theorem advance_with_vq (c : SlotCtx) (n : Nat) (q : List VecEntry) :
    ({ c with vq := q } : SlotCtx).advance n = { c.advance n with vq := q } :=
  ({ c.skip n with resumeAt := none } : SlotCtx).turned_with_vq c.pc q

/-- A control register other than the LOOP registers may be written before retirement or after. -/
theorem retired_setCr {c e : SlotCtx} {n : Nat} (h : c.retired n e) (m : Nat) (v : W64) (h1 : m ≠ 0x3C) (h2 : m ≠ 0x3D) :
    (c.setCr m v).retired n (e.setCr m v) := by
  obtain ⟨he, hcr, hplain⟩ := h
  refine ⟨?_, fun q hq1 hq2 => ?_, fun hl => ?_⟩
  · conv_lhs => rw [he]
    rfl
  · by_cases hq : q = m
    · subst hq
      by_cases hlt : q < 96
      · rw [getCr_setCr_same _ _ _ hlt, getCr_setCr_same _ _ _ hlt]
      · simp [getCr, vget, hlt]
    · rw [getCr_setCr_ne _ _ _ _ hq, getCr_setCr_ne _ _ _ _ hq, hcr _ hq1 hq2]
  · have hl' : c.endsNoLoop := by
      simpa only [endsNoLoop, getCr_setCr_ne _ _ _ _ (Ne.symm h1), getCr_setCr_ne _ _ _ _ (Ne.symm h2), setCr_pc] using hl
    obtain ⟨hpc, hcr'⟩ := hplain hl'
    exact ⟨hpc, congrArg (fun x => vset x m v) hcr'⟩

theorem addVectorFlags_advance (c : SlotCtx) (n : Nat) (fl : FFlags) : (c.advance n).addVectorFlags fl =
    (c.advance n).setCr 0x16 (c.getCr 0x16 ||| (fl.setWidth 64 <<< 8)) := by
  rw [addVectorFlags, getCr_advance _ _ _ (by decide) (by decide)]

/-- Flags may be gathered after retirement. -/
theorem retired_addVectorFlags (c : SlotCtx) (n : Nat) (fl : FFlags) :
    (c.addVectorFlags fl).retired n ((c.advance n).addVectorFlags fl) := by
  rw [addVectorFlags_advance]
  exact retired_setCr (c.retired_advance n) 0x16 _ (by decide) (by decide)

theorem setCr_getCr (c : SlotCtx) (n : Nat) : c.setCr n (c.getCr n) = c := by
  have h : vset c.cr n (vget c.cr n 0) = c.cr := by
    refine Vector.ext fun i hi => ?_
    rw [vset, vget, Vector.getElem_setIfInBounds]
    split
    next h =>
      subst h
      rw [Vector.getElem?_eq_getElem hi, Option.getD_some]
    next => rfl
  simp only [setCr, getCr, h]

@[simp] theorem addVectorFlags_none (c : SlotCtx) : c.addVectorFlags .none = c := by
  have h : c.getCr 0x16 ||| (FFlags.none.setWidth 64 <<< 8) = c.getCr 0x16 := by
    simp [FFlags.none]
  rw [addVectorFlags, h, setCr_getCr]

@[simp] theorem getS_addVectorFlags (c : SlotCtx) (fl : FFlags) (r : SReg) : (c.addVectorFlags fl).getS r = c.getS r := rfl

end SlotCtx

/-! ### Vector and mask registers -/

namespace Device

section
variable (d : Device) (st : StallId)

@[simp] theorem vreg_modCur (f : SlotCtx → SlotCtx) (r : VReg) : (d.modCur st f).vreg st r = d.vreg st r := by
  simp [vreg]

@[simp] theorem vreg_retire (n : Nat) (r : VReg) : (d.retire st n).vreg st r = d.vreg st r := d.vreg_modCur st _ r

theorem vreg_setVreg (r q : VReg) (x : VReg4096) : (d.setVreg st r x).vreg st q = if q = r then x else d.vreg st q := by
  rw [vreg, setVreg, stall_modStall_same, vreg]
  by_cases h : q = r
  · subst h
    simp
  · have hne : r.val ≠ q.val := fun e => h (Fin.ext e.symm)
    simp [h, hne]

@[simp] theorem slotOf_setVreg (r : VReg) (x : VReg4096) : (d.setVreg st r x).slotOf st = d.slotOf st := by
  rw [slotOf, setVreg, stall_modStall_same]
  rfl

@[simp] theorem cur_setVreg (r : VReg) (x : VReg4096) : (d.setVreg st r x).cur st = d.cur st :=
  d.cur_modStall_of_ctx st _ rfl fun sl => by cases sl <;> rfl

theorem kreg_of_k {e : Device} (h : (e.cur st).k = (d.cur st).k) (k : KReg) : e.kreg st k = d.kreg st k := by
  rw [kreg, kreg, h]

@[simp] theorem kreg_retire (n : Nat) (k : KReg) : (d.retire st n).kreg st k = d.kreg st k :=
  d.kreg_of_k st (by simp) k

@[simp] theorem activeAt_retire (e : VecEntry) (i n : Nat) : (d.retire st n).activeAt st e i = d.activeAt st e i := by
  rw [activeAt, kreg_retire, activeAt]

theorem slotOf_retire (n : Nat) : (d.retire st n).slotOf st = d.slotOf st := d.slotOf_modCur st _

theorem activeAt_lt {e : VecEntry} {i : Nat} (h : d.activeAt st e i = true) : i < e.n := by
  rw [activeAt] at h
  simp only [Bool.and_eq_true, decide_eq_true_eq] at h
  exact h.1.2

end

/-! ### Issue of an entry -/

/-- With good parity in every quarter, no entry meets a parity error. -/
theorem parityFault_none (d : Device) (st : StallId) (e : VecEntry) (h : (d.stall st).vBad = []) : d.parityFault st e = none := by
  unfold parityFault
  split
  · rfl
  · rw [h]
    simp

/-- With good parity in every quarter there is none to renew. -/
theorem renew_of_good (d : Device) (st : StallId) (e : VecEntry) (wr : Nat → Bool) (h : (d.stall st).vBad = []) :
    d.renew st e wr = d := by
  unfold renew modStall
  extract_lets per
  have h' : d.stalls[st].vBad = [] := h
  rw [upd_id]
  generalize d.stalls[st] = x at h' ⊢
  obtain ⟨⟩ := x
  subst h'
  rfl

/-- The arithmetic of an entry leaves the parity of the registers alone. -/
theorem vBad_arith (d : Device) (st : StallId) (e : VecEntry) (n : Nat) (h : (d.stall st).vBad = []) :
    ((d.arithTo st e n).stall st).vBad = [] := by
  have hm (x : Device) (f : SlotCtx → SlotCtx) (hx : (x.stall st).vBad = []) : ((x.modCur st f).stall st).vBad = [] := by
    simp [hx]
  have hv (r : VReg) (y : VReg4096) : ((d.setVreg st r y).stall st).vBad = [] := by
    simp [setVreg, h]
  have hk (k : KReg) (m : Mask) : ((d.setMask st k m).stall st).vBad = [] := by
    unfold setMask
    split
    · exact h
    · exact hm d _ h
  unfold arithTo
  extract_lets w t va vb vd m act masked compare scalar plain
  have hmasked (wd : Nat) (f : Nat → Nat × FFlags) : ((masked wd f).stall st).vBad = [] := hm _ _ (hv _ _)
  have hcompare (f : Nat → Bool × FFlags) : ((compare f).stall st).vBad = [] := hm _ _ (hk _ _)
  have hscalar (x : W64) : ((scalar x).stall st).vBad = [] := hm _ _ h
  split
  · split
    · exact hmasked _ _
    · exact hcompare _
  · split
    · exact hmasked _ _
    · exact hcompare _
  · split_ifs <;> exact hmasked _ _
  · split
    · exact hm _ _ (hv _ _)
    · exact hm _ _ (hv _ _)
  · split
    · exact hm _ _ (hv _ _)
    · exact hv _ _
  · split
    · split
      · exact hscalar _
      · exact h
    · split
      · exact hv _ _
      · exact h
    · exact hmasked _ _
    · exact hscalar _
    · exact hscalar _
  · exact hk _ _
  · exact h

/-- A unit whose running slot has an empty queue has nothing to do. -/
theorem drainQueue_of_empty (d : Device) (st : StallId) (k : Nat) (h : (d.cur st).vq = []) : drainQueue st k d = d := by
  cases k with
  | zero => rfl
  | succ k =>
    unfold drainQueue
    split
    · rfl
    · rw [h]

/-- An awake unit executes the only entry of its queue. -/
theorem drainQueue_of_single (d : Device) (st : StallId) (k : Nat) (e : VecEntry) (hg : (d.stall st).gate = .awake)
    (hq : (d.cur st).vq = [e]) (hlp6 : e.lp6 = false) : drainQueue st (k + 1) d =
      let r := (d.modCur st fun c => { c with vq := [] }).execEntry st e []
      if r.2 then drainQueue st k r.1 else r.1 := by
  rw [drainQueue, if_neg (by simp [hg]), hq]
  exact if_neg (by simp [hlp6])

/-- An entry that is not of memory, with good parity and elements to work on, does its arithmetic. -/
theorem execEntry_of_arith (d : Device) (st : StallId) (e : VecEntry) (rest : List VecEntry) (hbad : (d.stall st).vBad = [])
    (hset : e.kind ≠ .setvl) (hm : e.memory = false) :
    d.execEntry st e rest = (if e.n = 0 then d else d.arith st e, true) := by
  unfold execEntry
  rw [d.parityFault_none st e hbad]
  dsimp only
  rw [if_neg hset]
  split
  · rw [if_neg (by simp [hm])]
  · rw [if_pos (by simp [hm]), arith, renew_of_good _ _ _ _ (d.vBad_arith st e e.n hbad)]

end Device

/-! ### An instruction of an idle unit -/

/-- A change of the running slot is what it makes of the slot. -/
theorem Device.modCur_congr (d : Device) (st : StallId) {f g : SlotCtx → SlotCtx} (h : f (d.cur st) = g (d.cur st)) :
    d.modCur st f = d.modCur st g := by
  have h' : f (d.stalls[st.val].ctx d.stalls[st.val].slot) = g (d.stalls[st.val].ctx d.stalls[st.val].slot) := h
  simp only [modCur, modStall, upd, Stall.modCtx, h']

theorem VecEntry.lp6_of_memory {e : VecEntry} (h : e.memory = false) : e.lp6 = false := by
  unfold memory at h
  unfold lp6
  split at h <;> simp_all

namespace Device

/-- An entry is placed in the queue: one of memory holds the groom, any other retires. -/
def enqueue (d : Device) (st : StallId) (e : VecEntry) : Device :=
  let d := d.modCur st fun c => { c with vq := c.vq ++ [e] }
  if e.memory then d.modCur st fun c => { c with hold := some .vector } else d.retire st 1

/-- Placing an entry changes the running slot alone. -/
theorem stall_enqueue (d : Device) (st : StallId) (e : VecEntry) :
    (d.enqueue st e).stall st = (d.stall st).setCtx (d.slotOf st) ((d.enqueue st e).cur st) := by
  unfold enqueue
  split
  · rw [modCur_modCur, stall_modCur, cur_modCur]
  · rw [retire, modCur_modCur, stall_modCur, cur_modCur]

theorem vq_enqueue (d : Device) (st : StallId) (e : VecEntry) : ((d.enqueue st e).cur st).vq = (d.cur st).vq ++ [e] := by
  unfold enqueue
  split
  · rw [cur_modCur, cur_modCur]
  · rw [cur_retire, SlotCtx.vq_advance, cur_modCur]

/-- An entry that retires at issue leaves its queue empty as it executes. -/
theorem modCur_enqueue (d : Device) (st : StallId) (e : VecEntry) (hm : e.memory = false) (hq : (d.cur st).vq = []) :
    ((d.enqueue st e).modCur st fun c => { c with vq := [] }) = d.retire st 1 := by
  have h : ({ ({ d.cur st with vq := (d.cur st).vq ++ [e] } : SlotCtx).advance 1 with vq := [] } : SlotCtx) =
      (d.cur st).advance 1 := by
    rw [SlotCtx.advance_with_vq, ← hq, ← SlotCtx.vq_advance (d.cur st) 1]
  have he : d.enqueue st e = (d.modCur st fun c => { c with vq := c.vq ++ [e] }).retire st 1 := if_neg (by simp [hm])
  simp only [he, retire, modCur_modCur]
  exact d.modCur_congr st h

end Device

section
variable {s : State} {st : StallId} {kind : VecKind} {v : VFormat}

/-- A vector instruction of an idle awake unit places its entry, and the queue runs. -/
theorem onDev_vectorIssue (w : W32) (hr : s.vectorReady st (s.dev.capture st kind v)) :
    (s.onDev fun d => d.vectorIssue st kind v w) =
      s.onDev fun d => Device.drainQueue st 4 (d.enqueue st (d.capture st kind v)) := by
  obtain ⟨hi, hgate, hq, -, hswitch, hlegal⟩ := hr
  have henq := s.dev.stall_enqueue st (s.dev.capture st kind v)
  have hswitch' : ((s.dev.enqueue st (s.dev.capture st kind v)).stall st).switchTo = none := by
    rw [henq, Stall.setCtx_switchTo, hswitch]
  have hgate' : ((s.dev.enqueue st (s.dev.capture st kind v)).stall st).gate = .awake := by
    rw [henq, Stall.setCtx_gate, hgate]
  have key (x : Device) (hx : x = s.dev.enqueue st (s.dev.capture st kind v)) :
      (if (x.stall st).switchTo.isSome then x else Device.drainQueue st 4 x) =
        Device.drainQueue st 4 (s.dev.enqueue st (s.dev.capture st kind v)) := by
    subst hx
    exact if_neg (by simp [hswitch'])
  refine (onDev_issue hi _).trans (onDev_congr ?_)
  exact (if_neg (by simp [hlegal])).trans ((if_neg (by simp [hq])).trans (key _ (if_neg fun h =>
    absurd (hgate'.symm.trans h) (by decide))))

/-- An instruction whose entry does not access memory executes as it issues. -/
theorem onDev_vectorIssue_of_executes (w : W32) {d : Device} (hr : s.vectorReady st (s.dev.capture st kind v))
    (hm : (s.dev.capture st kind v).memory = false)
    (hx : (s.dev.retire st 1).execEntry st (s.dev.capture st kind v) [] = (d, true)) (hd : (d.cur st).vq = []) :
    (s.onDev fun d => d.vectorIssue st kind v w) = s.onDev fun _ => d := by
  have hrun := onDev_vectorIssue w hr
  obtain ⟨-, hgate, hq, -⟩ := hr
  refine hrun.trans (onDev_congr ?_)
  have hg : ((s.dev.enqueue st (s.dev.capture st kind v)).stall st).gate = .awake := by
    rw [Device.stall_enqueue, Stall.setCtx_gate, hgate]
  rw [Device.drainQueue_of_single _ st 3 (s.dev.capture st kind v) hg (by rw [Device.vq_enqueue, hq]; rfl)
    (VecEntry.lp6_of_memory hm), s.dev.modCur_enqueue st _ hm hq, hx]
  exact (if_pos rfl).trans (d.drainQueue_of_empty st 3 hd)

end

end Sys2Proof.Machine
end

section
/-! Vector instructions that write the active elements of one register: integer and floating-point arithmetic (R149 to
R154), conversions, permutes and VBCAST (R150, R155, R159). -/

namespace Sys2Proof.Machine

namespace Device

/-- The elements of an entry that its arithmetic takes as active, and those below n, are the active elements. -/
theorem activeAt_eq (d : Device) (st : StallId) (e : VecEntry) (i : Nat) :
    d.activeAt st e i = (decide (i < e.n) && (decide (e.start ≤ i) && flag (d.kreg st e.v.k) i)) := by
  rw [activeAt, Bool.and_comm (decide (e.start ≤ i)), Bool.and_assoc]

theorem below_act (d : Device) (st : StallId) (e : VecEntry) :
    below e.n (fun i => decide (e.start ≤ i) && flag (d.kreg st e.v.k) i) = below e.n (d.activeAt st e) :=
  List.filter_congr fun i hi => by simp [activeAt_eq, List.mem_range.mp hi]

/-- The active elements of vd, of w bits, take f, and VFLAGS gathers their flags. -/
def masked (d : Device) (st : StallId) (e : VecEntry) (w : Nat) (f : Nat → Nat × FFlags) : Device :=
  (d.setVreg st e.v.vd (Vec.ofElems w fun i => if d.activeAt st e i then (f i).1 else Vec.elem (d.vreg st e.v.vd) w i)).modCur st
    fun c => c.addVectorFlags (d.elementFlags st e f)

/-- Vec.apply writes the active elements and gathers their flags. -/
theorem masked_eq (d : Device) (st : StallId) (e : VecEntry) (w : Nat) (f : Nat → Nat × FFlags) :
    (let r := Vec.apply w e.n (fun i => decide (e.start ≤ i) && flag (d.kreg st e.v.k) i) (d.vreg st e.v.vd) f
     (d.setVreg st e.v.vd r.1).modCur st fun c => c.addVectorFlags r.2) = d.masked st e w f := by
  simp only [Vec.apply, masked, elementFlags, below_act, activeAt_eq]

/-- An entry of the running slot writes x to a vector register and changes the slot by f, once it has retired. -/
def wroteVreg (d : Device) (st : StallId) (r : VReg) (x : VReg4096) (f : SlotCtx → SlotCtx) : Device :=
  ((d.retire st 1).setVreg st r x).modCur st f

section
variable (d : Device) (st : StallId) (r : VReg) (x : VReg4096) (f : SlotCtx → SlotCtx)

theorem cur_wroteVreg : (d.wroteVreg st r x f).cur st = f ((d.cur st).advance 1) := by
  rw [wroteVreg, cur_modCur, cur_setVreg, cur_retire]

theorem vreg_wroteVreg (q : VReg) : (d.wroteVreg st r x f).vreg st q = if q = r then x else d.vreg st q := by
  rw [wroteVreg, vreg_modCur, vreg_setVreg, vreg_retire]

theorem stall_wroteVreg_ne (u : StallId) (h : u ≠ st) : (d.wroteVreg st r x f).stall u = d.stall u := by
  rw [wroteVreg, stall_modCur_ne _ _ _ _ h, setVreg, stall_modStall_ne _ _ _ _ h, retire, stall_modCur_ne _ _ _ _ h]

theorem stall_wroteVreg : (d.wroteVreg st r x f).stall st =
    { (d.stall st).setCtx (d.slotOf st) ((d.wroteVreg st r x f).cur st) with v := ((d.wroteVreg st r x f).stall st).v } := by
  have h : ((d.wroteVreg st r x f).stall st) =
      ({ (d.stall st).setCtx (d.slotOf st) ((d.cur st).advance 1) with v := (d.stall st).v.set r x } : Stall).setCtx
        (d.slotOf st) (f ((d.cur st).advance 1)) := by
    rw [wroteVreg, stall_modCur, cur_setVreg, cur_retire, slotOf_setVreg, slotOf_retire, setVreg, stall_modStall_same, retire,
      stall_modCur, Stall.setCtx_v]
  rw [h, cur_wroteVreg]
  cases d.slotOf st <;> rfl

end

end Device

/-- An entry that writes vd and lets its slot retire changes nothing else. -/
theorem vectorFrame_wroteVreg (s : State) (st : StallId) (r : VReg) (x : VReg4096) (f : SlotCtx → SlotCtx) (c : SlotCtx)
    (hc : c.retired 1 (f ((s.dev.cur st).advance 1)))
    (hs : ∀ q, (f ((s.dev.cur st).advance 1)).getS q = (s.dev.cur st).getS q) :
    s.vectorFrame st r c (s.onDev fun d => d.wroteVreg st r x f) := by
  refine ⟨⟨⟨rfl, rfl⟩, rfl, s.dev.stall_wroteVreg_ne st r x f⟩, s.dev.stall_wroteVreg st r x f, ?_, fun q => ?_, fun q hq => ?_⟩
  · rw [State.onDev_dev, Device.cur_wroteVreg]
    exact hc
  · rw [State.onDev_dev, Device.sreg, Device.cur_wroteVreg, hs]
    rfl
  · rw [State.onDev_dev, Device.vreg_wroteVreg, if_neg hq]

section
variable {s : State} {st : StallId} {kind : VecKind} {v : VFormat}

/-- The outcome of an entry that is neither of memory nor VSETVL: its arithmetic, or nothing with no elements. -/
theorem onDev_vectorIssue_arith (w : W32) {g : Device → Device} (hr : s.vectorReady st (s.dev.capture st kind v))
    (hm : (s.dev.capture st kind v).memory = false) (hset : kind ≠ .setvl)
    (hg : (s.dev.retire st 1).arith st (s.dev.capture st kind v) = g (s.dev.retire st 1))
    (hvq : ∀ d : Device, (d.cur st).vq = [] → ((g d).cur st).vq = []) :
    (s.onDev fun d => d.vectorIssue st kind v w) =
      s.onDev fun d => if (s.dev.capture st kind v).n = 0 then d.retire st 1 else g (d.retire st 1) := by
  have hq : ((s.dev.retire st 1).cur st).vq = [] := by
    obtain ⟨-, -, hq, -⟩ := hr
    simp [hq]
  have hbad : ((s.dev.retire st 1).stall st).vBad = [] := by
    obtain ⟨-, -, -, hbad, -⟩ := hr
    simp [Device.retire, hbad]
  have hx := (s.dev.retire st 1).execEntry_of_arith st (s.dev.capture st kind v) [] hbad hset hm
  rw [hg] at hx
  refine onDev_vectorIssue_of_executes w hr hm hx ?_
  split
  · exact hq
  · exact hvq _ hq

/-- With no elements nothing is active, and no flag comes. -/
theorem Device.activeAt_of_empty (d : Device) (st : StallId) (e : VecEntry) (hn : e.n = 0) (i : Nat) : d.activeAt st e i = false :=
  Bool.eq_false_iff.mpr fun h => absurd (d.activeAt_lt st h) (by omega)

theorem Device.elementFlags_of_empty (d : Device) (st : StallId) (e : VecEntry) (f : Nat → Nat × FFlags) (hn : e.n = 0) :
    d.elementFlags st e f = .none := by
  rw [elementFlags, hn]
  rfl

theorem Device.elementFlags_retire (d : Device) (st : StallId) (e : VecEntry) (f : Nat → Nat × FFlags) (n : Nat) :
    (d.retire st n).elementFlags st e f = d.elementFlags st e f := by
  rw [elementFlags, funext fun i => d.activeAt_retire st e i n, elementFlags]

/-- Writing what a register holds changes nothing. -/
theorem Device.setVreg_vreg (d : Device) (st : StallId) (r : VReg) : d.setVreg st r (d.vreg st r) = d := by
  have h : ({ d.stalls[st] with v := d.stalls[st].v.set r d.stalls[st].v[r] } : Stall) = d.stalls[st] := by
    generalize d.stalls[st] = x
    obtain ⟨⟩ := x
    simp
  rw [setVreg, modStall, upd_id]
  exact h

theorem Device.retire_eq_wroteVreg (d : Device) (st : StallId) (r : VReg) :
    d.retire st 1 = d.wroteVreg st r (d.vreg st r) fun c => c.addVectorFlags .none := by
  have h : (fun c : SlotCtx => c.addVectorFlags .none) = id := funext SlotCtx.addVectorFlags_none
  have hr := (d.retire st 1).setVreg_vreg st r
  rw [vreg_retire] at hr
  rw [wroteVreg, hr, h, retire, modCur_modCur]
  rfl

theorem wroteElements_wroteVreg (s : State) (st : StallId) (e : VecEntry) (w : Nat) (f : Nat → Nat × FFlags) (x : VReg4096)
    (hx : ∀ i, i < 4096 / w → Vec.elem x w i =
      if s.dev.activeAt st e i then (f i).1 % 2 ^ w else Vec.elem (s.dev.vreg st e.v.vd) w i) :
    s.wroteElements st e w f
      (s.onDev fun d => d.wroteVreg st e.v.vd x fun c => c.addVectorFlags (s.dev.elementFlags st e f)) := by
  refine ⟨vectorFrame_wroteVreg s st e.v.vd x _ _ (SlotCtx.retired_addVectorFlags _ 1 _) fun q => ?_, fun i hi => ?_⟩
  · rw [SlotCtx.getS_addVectorFlags, SlotCtx.getS_advance]
  · rw [State.onDev_dev, Device.vreg_wroteVreg, if_pos rfl, hx i hi]

/-- An instruction whose arithmetic writes the active elements of vd does what State.wroteElements says. -/
theorem completes_masked {i : Instr} {word : W32} {w : Nat} {f g : Nat → Nat × FFlags}
    (he : exec i s = .next (s.onDev fun d => d.vectorIssue st kind v word))
    (hm : (s.dev.capture st kind v).memory = false) (hset : kind ≠ .setvl)
    (hg : (s.dev.retire st 1).arith st (s.dev.capture st kind v) = (s.dev.retire st 1).masked st (s.dev.capture st kind v) w g)
    (hf : ∀ i, (g i).1 % 2 ^ w = (f i).1 % 2 ^ w ∧ (g i).2 = (f i).2) :
    s.vectorReady st (s.dev.capture st kind v) → Completes i s (s.wroteElements st (s.dev.capture st kind v) w f) := by
  intro hr
  have hrun := onDev_vectorIssue_arith (g := fun d => d.masked st (s.dev.capture st kind v) w g) word hr hm hset hg
    fun d hq => by simpa [Device.masked, SlotCtx.addVectorFlags] using hq
  generalize s.dev.capture st kind v = e at hrun ⊢
  by_cases hn : e.n = 0
  · have h := wroteElements_wroteVreg s st e w f (s.dev.vreg st e.v.vd) fun i _ => by simp [s.dev.activeAt_of_empty st e hn i]
    rw [s.dev.elementFlags_of_empty st e f hn] at h
    refine ⟨_, he.trans (congrArg Host.Outcome.next (hrun.trans (onDev_congr ?_))), h⟩
    exact (if_pos hn).trans (s.dev.retire_eq_wroteVreg st e.v.vd)
  · have hflags : s.dev.elementFlags st e f = s.dev.elementFlags st e g := by
      rw [Device.elementFlags, Device.elementFlags, funext fun i => (hf i).2]
    have h := wroteElements_wroteVreg s st e w f (Vec.ofElems w fun i =>
        if s.dev.activeAt st e i then (g i).1 else Vec.elem (s.dev.vreg st e.v.vd) w i) fun i hi => by
      rw [Vec.elem_ofElems _ _ _ hi]
      split
      · exact (hf i).1
      · exact Nat.mod_eq_of_lt (Vec.elem_lt _ _ _)
    refine ⟨_, he.trans (congrArg Host.Outcome.next (hrun.trans (onDev_congr ?_))), h⟩
    refine (if_neg hn).trans ?_
    simp only [Device.masked, Device.wroteVreg, hflags, Device.elementFlags_retire, Device.activeAt_retire, Device.vreg_retire]

/-! ### Integer arithmetic -/

theorem Device.arith_int (d : Device) (st : StallId) (e : VecEntry) (op : Nat) (hop : op < 15) (hk : e.kind = .int op) :
    d.arith st e = d.masked st e e.w fun i =>
      (Vec.intOp op e.w (Vec.elem (d.vreg st e.v.va) e.w i) (Vec.elem (d.vreg st e.v.vb) e.w i), .none) := by
  obtain ⟨kind, v, len, base, stride, scalar, modeF, start, pc⟩ := e
  subst hk
  exact (if_pos hop).trans (d.masked_eq st _ _ _)

end

theorem intOfNat_natOfInt_mod (w : Nat) (i : Int) : natOfInt w i % 2 ^ w = (BitVec.ofInt w i).toNat := by
  rw [natOfInt, BitVec.toNat_ofInt, Nat.mod_eq_of_lt]
  · rfl
  · have h := Int.emod_lt_of_pos i (b := (2 : Int) ^ w) (by positivity)
    have h0 := Int.emod_nonneg i (b := (2 : Int) ^ w) (by positivity)
    zify
    rwa [Int.toNat_of_nonneg h0]

/-- An element as the word of its width. -/
theorem Vec.toNat_ofNat_elem (x : VReg4096) (w i : Nat) : (BitVec.ofNat w (Vec.elem x w i)).toNat = Vec.elem x w i := by
  rw [BitVec.toNat_ofNat, Nat.mod_eq_of_lt (Vec.elem_lt x w i)]

theorem width_pos (t : BitVec 3) : 0 < Vec.width t.toNat := by
  revert t
  decide

/-- Settles O20: each operation of group 0x20 on elements is its counterpart on words of the element's width. -/
theorem vectorInteger : Obligations.VectorInteger := by
  intro st v s e w a b writes
  have run {i : Instr} {word : W32} (op : Nat) (f : BitVec w → BitVec w → BitVec w) (hop : op < 15)
      (he : exec i s = .next (s.onDev fun d => d.vectorIssue st (.int op) v word))
      (hf : ∀ x y : Nat, x < 2 ^ w → y < 2 ^ w →
        Vec.intOp op w x y % 2 ^ w = (f (BitVec.ofNat w x) (BitVec.ofNat w y)).toNat) : writes i op f :=
    completes_masked he rfl (by simp) ((s.dev.retire st 1).arith_int st _ op hop rfl) fun i => by
      rw [Device.vreg_retire, Device.vreg_retire, Nat.mod_eq_of_lt (BitVec.isLt _)]
      exact ⟨hf _ _ (Vec.elem_lt _ _ _) (Vec.elem_lt _ _ _), rfl⟩
  have signed (x : Nat) : Vec.sgn w x = (BitVec.ofNat w x).toInt := intOfNat_eq_toInt w x
  refine ⟨run 0 (· + ·) (by decide) rfl fun x y hx hy => ?add,
    run 1 (· - ·) (by decide) rfl fun x y hx hy => ?sub,
    run 2 (· * ·) (by decide) rfl fun x y hx hy => ?mul,
    run 3 (fun x y => BitVec.ofInt w (x.toInt * y.toInt / 2 ^ w)) (by decide) rfl fun x y hx hy => ?mulh,
    run 4 (fun x y => BitVec.ofNat w (x.toNat * y.toNat / 2 ^ w)) (by decide) rfl fun x y hx hy => ?mulhu,
    run 5 (fun x y => if x.toInt < y.toInt then x else y) (by decide) rfl fun x y hx hy => ?min,
    run 6 (fun x y => if x.toInt < y.toInt then y else x) (by decide) rfl fun x y hx hy => ?max,
    run 7 (fun x y => if x.toNat ≤ y.toNat then x else y) (by decide) rfl fun x y hx hy => ?minu,
    run 8 (fun x y => if x.toNat ≤ y.toNat then y else x) (by decide) rfl fun x y hx hy => ?maxu,
    run 9 (· &&& ·) (by decide) rfl fun x y hx hy => ?and,
    run 10 (· ||| ·) (by decide) rfl fun x y hx hy => ?or,
    run 11 (· ^^^ ·) (by decide) rfl fun x y hx hy => ?xor,
    run 12 (fun x y => x <<< (y.toNat % w)) (by decide) rfl fun x y hx hy => ?sll,
    run 13 (fun x y => x >>> (y.toNat % w)) (by decide) rfl fun x y hx hy => ?srl,
    run 14 (fun x y => x.sshiftRight (y.toNat % w)) (by decide) rfl fun x y hx hy => ?sra⟩
  all_goals simp only [Vec.intOp]
  case add => rw [BitVec.toNat_add, BitVec.toNat_ofNat, BitVec.toNat_ofNat, ← Nat.add_mod]
  case sub =>
    rw [BitVec.toNat_sub, BitVec.toNat_ofNat, BitVec.toNat_ofNat, Nat.mod_eq_of_lt hx, Nat.mod_eq_of_lt hy, Nat.add_comm]
  case mul => rw [BitVec.toNat_mul, BitVec.toNat_ofNat, BitVec.toNat_ofNat, ← Nat.mul_mod]
  case mulh => rw [intOfNat_natOfInt_mod, signed, signed]
  case mulhu => rw [BitVec.toNat_ofNat, BitVec.toNat_ofNat, BitVec.toNat_ofNat, Nat.mod_eq_of_lt hx, Nat.mod_eq_of_lt hy]
  case min =>
    rw [signed, signed]
    split <;> rw [BitVec.toNat_ofNat]
  case max =>
    rw [signed, signed]
    split <;> rw [BitVec.toNat_ofNat]
  case minu =>
    rw [BitVec.toNat_ofNat, BitVec.toNat_ofNat, Nat.mod_eq_of_lt hx, Nat.mod_eq_of_lt hy, min_def]
    split <;> rw [BitVec.toNat_ofNat]
  case maxu =>
    rw [BitVec.toNat_ofNat, BitVec.toNat_ofNat, Nat.mod_eq_of_lt hx, Nat.mod_eq_of_lt hy, max_def]
    split <;> rw [BitVec.toNat_ofNat]
  case and => rw [BitVec.toNat_and, BitVec.toNat_ofNat, BitVec.toNat_ofNat, Nat.and_mod_two_pow]
  case or => rw [BitVec.toNat_or, BitVec.toNat_ofNat, BitVec.toNat_ofNat, Nat.or_mod_two_pow]
  case xor => rw [BitVec.toNat_xor, BitVec.toNat_ofNat, BitVec.toNat_ofNat, Nat.xor_mod_two_pow]
  case sll =>
    rw [BitVec.toNat_shiftLeft, BitVec.toNat_ofNat, BitVec.toNat_ofNat, Nat.mod_eq_of_lt hx, Nat.mod_eq_of_lt hy]
  case srl =>
    rw [BitVec.toNat_ushiftRight, BitVec.toNat_ofNat, BitVec.toNat_ofNat, Nat.mod_eq_of_lt hx, Nat.mod_eq_of_lt hy,
      Nat.mod_eq_of_lt (Nat.shiftRight_le x _ |>.trans_lt hx)]
  case sra =>
    rw [intOfNat_natOfInt_mod, signed, BitVec.sshiftRight, BitVec.toNat_ofNat, Nat.mod_eq_of_lt hy, Int.shiftRight_eq_div_pow]
    rfl

end Sys2Proof.Machine
end

section
/-! Floating-point arithmetic on vectors (R152 to R154), and conversions, permutes and VBCAST (R150, R155, R159): each names
what it writes to an active element. -/

namespace Sys2Proof.Machine

section
variable (d : Device) (st : StallId) (e : VecEntry)

theorem Device.arith_fp (op : Nat) (hop : op < 11) (hk : e.kind = .fp op) : d.arith st e = d.masked st e e.w fun i =>
    Vec.floatOp op e.t e.modeF (Vec.elem (d.vreg st e.v.va) e.w i) (Vec.elem (d.vreg st e.v.vb) e.w i)
      (Vec.elem (d.vreg st e.v.vd) e.w i) := by
  obtain ⟨kind, v, len, base, stride, scalar, modeF, start, pc⟩ := e
  subst hk
  exact (if_pos hop).trans (d.masked_eq st _ _ _)

end

section
variable {s : State} {st : StallId} {v : VFormat}

/-- An operation of group 0x21 below the compares. -/
theorem completes_float {i : Instr} {word : W32} (op : Nat) (hop : op < 11)
    (he : exec i s = .next (s.onDev fun d => d.vectorIssue st (.fp op) v word)) :
    s.vectorReady st (s.dev.capture st (.fp op) v) →
      Completes i s (s.wroteElements st (s.dev.capture st (.fp op) v) (Vec.width v.t.toNat) fun i =>
        Vec.floatOp op v.t.toNat (s.dev.cur st).modeF (Vec.elem (s.dev.vreg st v.va) (Vec.width v.t.toNat) i)
          (Vec.elem (s.dev.vreg st v.vb) (Vec.width v.t.toNat) i) (Vec.elem (s.dev.vreg st v.vd) (Vec.width v.t.toNat) i)) :=
  completes_masked he rfl (by simp) ((s.dev.retire st 1).arith_fp st _ op hop rfl) fun i => by
    simp only [Device.vreg_retire]
    exact ⟨rfl, rfl⟩

end

/-- Settles O21: each operation of group 0x21 on elements is one rounding of a value, or a choice of one operand. -/
theorem vectorFloat : Obligations.VectorFloat := by
  intro st v s
  exact ⟨completes_float 0 (by decide) rfl, completes_float 1 (by decide) rfl, completes_float 2 (by decide) rfl,
    completes_float 3 (by decide) rfl, completes_float 4 (by decide) rfl, completes_float 5 (by decide) rfl,
    completes_float 6 (by decide) rfl, completes_float 7 (by decide) rfl, completes_float 8 (by decide) rfl,
    completes_float 9 (by decide) rfl, completes_float 10 (by decide) rfl⟩

/-! ### Conversions and permutes -/

section
variable (d : Device) (st : StallId) (e : VecEntry)

theorem Device.arith_convert (op : Nat) (hop : op < 8) (hk : e.kind = .cvt op) : d.arith st e = d.masked st e e.w fun i =>
    Vec.convert op e.t e.modeF (Vec.elem (d.vreg st e.v.va) (Vec.width op) i) := by
  obtain ⟨kind, v, len, base, stride, scalar, modeF, start, pc⟩ := e
  subst hk
  exact (if_pos hop).trans (d.masked_eq st _ _ _)

/-- The element of the source that element i of a slide or of VPERM takes. -/
def Device.sourceOf (op i : Nat) : Option Nat :=
  if op = 13 then some (i + e.scalar.toNat)
  else if op = 14 then (if e.scalar.toNat ≤ i then some (i - e.scalar.toNat) else none)
  else
    let x := Vec.elem (d.vreg st e.v.vb) e.w i
    some (if Vec.isFloat e.t then Config.floatIndex e.t x else x)

theorem Device.arith_permute (op : Nat) (hop : 12 < op) (hk : e.kind = .cvt op) : d.arith st e = d.masked st e e.w fun i =>
    match d.sourceOf st e op i with
    | some j => (if j < Vec.count e.t then Vec.elem (d.vreg st e.v.va) e.w j else 0, .none)
    | none => (0, .none) := by
  obtain ⟨kind, v, len, base, stride, scalar, modeF, start, pc⟩ := e
  subst hk
  exact (if_neg (by omega)).trans ((if_neg (by omega)).trans ((if_neg (by omega)).trans ((if_neg (by omega)).trans
    (d.masked_eq st _ _ _))))

end

section
variable {s : State} {st : StallId} {v : VFormat}

/-- A slide or VPERM. -/
theorem completes_permute {i : Instr} {word : W32} {f : Nat → Nat} (op : Nat) (hop : 12 < op)
    (he : exec i s = .next (s.onDev fun d => d.vectorIssue st (.cvt op) v word))
    (hf : ∀ i, (match s.dev.sourceOf st (s.dev.capture st (.cvt op) v) op i with
      | some j => if j < Vec.count v.t.toNat then Vec.elem (s.dev.vreg st v.va) (Vec.width v.t.toNat) j else 0
      | none => 0) = f i) :
    s.vectorReady st (s.dev.capture st (.cvt op) v) → Completes i s
      (s.wroteElements st (s.dev.capture st (.cvt op) v) (Vec.width v.t.toNat) fun i => (f i, .none)) :=
  completes_masked he rfl (by simp) ((s.dev.retire st 1).arith_permute st _ op hop rfl) fun i => by
    have hs : (s.dev.retire st 1).sourceOf st (s.dev.capture st (.cvt op) v) op i =
        s.dev.sourceOf st (s.dev.capture st (.cvt op) v) op i := by
      rw [Device.sourceOf, Device.vreg_retire]
      rfl
    rw [hs, Device.vreg_retire, ← hf i]
    cases s.dev.sourceOf st (s.dev.capture st (.cvt op) v) op i <;> exact ⟨rfl, rfl⟩

end

/-- Settles O23: each operation of group 0x22, and VBCAST, writes a function of one source element. -/
theorem vectorConvertPermute : Obligations.VectorConvertPermute := by
  intro st src v s e t w m n a scalar writes
  have ha : a = fun u i => Vec.elem ((s.dev.retire st 1).vreg st v.va) u i := by simp only [a, Device.vreg_retire]
  have run {i : Instr} {kind : VecKind} {word : W32} (u : Nat) (f : Nat → Nat × FFlags)
      (he : exec i s = .next (s.onDev fun d => d.vectorIssue st kind v word))
      (hm : (s.dev.capture st kind v).memory = false) (hset : kind ≠ .setvl)
      (hg : (s.dev.retire st 1).arith st (s.dev.capture st kind v) =
        (s.dev.retire st 1).masked st (s.dev.capture st kind v) u f) : writes i (s.dev.capture st kind v) u f :=
    completes_masked he hm hset hg fun i => ⟨rfl, rfl⟩
  refine ⟨run w (fun i => Vec.convert src.toNat t m (a (Vec.width src.toNat) i)) rfl rfl (by simp) ?convert,
    run w (fun i => Vec.toType t m (FFmt.e4m3.decodeF m (a 8 i))) rfl rfl (by simp) ?fromE4m3,
    run w (fun i => Vec.toType t m (FFmt.e5m2.decodeF m (a 8 i))) rfl rfl (by simp) ?fromE5m2,
    run 8 (fun i => FFmt.e4m3.roundSat m (Vec.anyValue t m (a w i))) rfl rfl (by simp) ?toE4m3,
    run 8 (fun i => FFmt.e5m2.roundSat m (Vec.anyValue t m (a w i))) rfl rfl (by simp) ?toE5m2,
    run w (fun i => (if Vec.isFloat t then Config.vectorId t i else i, .none)) rfl rfl (by simp)
      ((s.dev.retire st 1).masked_eq st _ _ _),
    completes_permute 13 (by decide) rfl fun i => rfl, completes_permute 14 (by decide) rfl fun i => ?slideUp,
    completes_permute 15 (by decide) rfl fun i => rfl,
    run w (fun _ => (scalar % 2 ^ w, .none)) rfl rfl (by simp) ((s.dev.retire st 1).masked_eq st _ _ _)⟩
  case convert =>
    refine ((s.dev.retire st 1).arith_convert st (e src.toNat) src.toNat src.isLt rfl).trans ?_
    rw [ha]
    rfl
  case slideUp =>
    show (match if scalar ≤ i then some (i - scalar) else none with
      | some j => if j < n then a w j else 0
      | none => 0) = _
    by_cases h : scalar ≤ i <;> simp [h]
  all_goals
    rw [ha]
    exact (s.dev.retire st 1).masked_eq st _ _ _

end Sys2Proof.Machine
end

section
/-! Vector compares and mask operations (R135, R147 to R149): the bits of the mask that they write. -/

namespace Sys2Proof.Machine

/-! ### Masks -/

theorem sum_below_succ (n : Nat) (p : Nat → Bool) : ((below (n + 1) p).map (2 ^ ·)).sum =
    2 ^ n * (if p n then 1 else 0) + ((below n p).map (2 ^ ·)).sum := by
  rw [below, List.range_succ, List.filter_append, List.map_append, List.sum_append, Nat.add_comm]
  congr 1
  cases h : p n <;> simp [h]

theorem sum_below_lt (n : Nat) (p : Nat → Bool) : ((below n p).map (2 ^ ·)).sum < 2 ^ n := by
  induction n with
  | zero => simp [below]
  | succ n ih =>
    rw [sum_below_succ, pow_succ]
    split <;> omega

/-- The number whose set bits are those below n that satisfy p. -/
theorem testBit_sum_below (n : Nat) (p : Nat → Bool) (i : Nat) :
    ((below n p).map (2 ^ ·)).sum.testBit i = (decide (i < n) && p i) := by
  induction n with
  | zero => simp [below]
  | succ n ih =>
    have hlt := sum_below_lt n p
    rw [sum_below_succ]
    rcases Nat.lt_trichotomy i n with h | rfl | h
    · cases p n with
      | false => simp [ih, h, Nat.lt_succ_of_lt h]
      | true => simp [Nat.testBit_two_pow_add_gt h, ih, h, Nat.lt_succ_of_lt h]
    · cases hp : p i with
      | false => simp [ih]
      | true => simp [Nat.testBit_two_pow_add_eq, ih]
    · have hle : 2 ^ n * (if p n then 1 else 0) + ((below n p).map (2 ^ ·)).sum < 2 ^ i := by
        have h1 : 2 ^ (n + 1) ≤ 2 ^ i := Nat.pow_le_pow_right Nat.two_pos h
        rw [pow_succ] at h1
        split <;> omega
      rw [Nat.testBit_lt_two_pow hle]
      simp [show ¬ i < n + 1 by omega]

namespace Vec

theorem allFlags_none (l : List Nat) : allFlags (l.map fun _ => FFlags.none) = .none := by
  unfold allFlags
  induction l with
  | nil => rfl
  | cons x t ih =>
    rw [List.map_cons, List.foldl_cons, show FFlags.none ||| FFlags.none = .none from rfl]
    exact ih

end Vec

/-- A slot may take other masks before it retires or after. -/
theorem SlotCtx.retired_with_k {c e : SlotCtx} {n : Nat} (h : c.retired n e) (k : Vector (BitVec 512) 8) :
    ({ c with k := k } : SlotCtx).retired n { e with k := k } := by
  obtain ⟨h1, h2, h3⟩ := h
  refine ⟨?_, h2, h3⟩
  conv_lhs => rw [h1]

/-- The slot's mask k, which is not k0, becomes m. -/
def SlotCtx.withMask (c : SlotCtx) (k : KReg) (m : Mask) : SlotCtx := { c with k := c.k.set k m }

namespace Device

theorem kreg_of_ne (d : Device) (st : StallId) (k : KReg) (h : k ≠ 0) : d.kreg st k = (d.cur st).k[k] := if_neg h

theorem setMask_of_ne (d : Device) (st : StallId) (k : KReg) (m : Mask) (h : k ≠ 0) :
    d.setMask st k m = d.modCur st fun c => c.withMask k m := if_neg h

/-- The running slot writes mask k and gathers flags, once the instruction has retired. -/
def wroteKreg (d : Device) (st : StallId) (k : KReg) (m : Mask) (fl : FFlags) : Device :=
  ((d.retire st 1).setMask st k m).modCur st fun c => c.addVectorFlags fl

theorem wroteKreg_of_ne (d : Device) (st : StallId) (k : KReg) (m : Mask) (fl : FFlags) (h : k ≠ 0) : d.wroteKreg st k m fl =
    d.modCur st fun c => ((c.advance 1).withMask k m).addVectorFlags fl := by
  rw [wroteKreg, setMask_of_ne _ _ _ _ h, retire, modCur_modCur, modCur_modCur]

/-- Writing what a mask holds changes nothing. -/
theorem retire_eq_wroteKreg (d : Device) (st : StallId) (k : KReg) (h : k ≠ 0) :
    d.retire st 1 = d.wroteKreg st k (d.kreg st k) .none := by
  rw [wroteKreg_of_ne _ _ _ _ _ h, kreg_of_ne _ _ _ h]
  refine d.modCur_congr st ?_
  rw [SlotCtx.addVectorFlags_none, SlotCtx.withMask, ← SlotCtx.k_advance (d.cur st) 1]
  generalize (d.cur st).advance 1 = c
  obtain ⟨⟩ := c
  simp

end Device

/-- A mask that holds f below n and its old bits from there on is what State.wroteMask says. -/
theorem wroteMask_wroteKreg (s : State) (st : StallId) (e : VecEntry) (f : Nat → Bool × FFlags) (m : Mask) (hk : e.v.k ≠ 0)
    (hm : ∀ i, i < 512 → flag m i = if i < e.n then (f i).1 else flag (s.dev.kreg st e.v.k) i) :
    s.wroteMask st e f
      (s.onDev fun d => d.wroteKreg st e.v.k m (Vec.allFlags ((List.range e.n).map fun i => (f i).2))) := by
  generalize hfl : Vec.allFlags ((List.range e.n).map fun i => (f i).2) = fl
  rw [onDev_congr (g := fun d => d.modCur st fun c => ((c.advance 1).withMask e.v.k m).addVectorFlags fl)
    (s.dev.wroteKreg_of_ne st e.v.k m fl hk)]
  refine ⟨sameButSlot_modCur s st _, fun r => ?_, fun i hi => ?_, fun q hq => ?_, ?_⟩
  · rw [State.onDev_dev, Device.sreg_modCur, SlotCtx.getS_addVectorFlags]
    exact SlotCtx.getS_advance ..
  · rw [← hm i hi, State.onDev_dev, Device.kreg_of_ne _ _ _ hk, Device.cur_modCur]
    exact congrArg (flag · i) (Vector.getElem_set_self _)
  · by_cases h0 : q = 0
    · rw [State.onDev_dev, Device.kreg, Device.kreg, if_pos h0, if_pos h0]
    · rw [State.onDev_dev, Device.kreg_of_ne _ _ _ h0, Device.kreg_of_ne _ _ _ h0, Device.cur_modCur,
        ← SlotCtx.k_advance (s.dev.cur st) 1]
      exact Vector.getElem_set_ne e.v.k.isLt q.isLt fun h => hq (Fin.ext h.symm)
  · rw [State.onDev_dev, Device.cur_modCur, hfl]
    exact SlotCtx.retired_with_k ((s.dev.cur st).retired_addVectorFlags 1 fl) _

/-! ### Compares -/

section
variable (d : Device) (st : StallId) (e : VecEntry)

/-- The mask whose bits below n are those of f, and whose others are those of m. -/
def compareMask (n : Nat) (m : Mask) (f : Nat → Bool) : Mask :=
  BitVec.ofNat 512 ((below 512 fun i => if i < n then f i else flag m i).map (2 ^ ·)).sum

theorem flag_compareMask (n : Nat) (m : Mask) (f : Nat → Bool) (i : Nat) (hi : i < 512) :
    flag (compareMask n m f) i = if i < n then f i else flag m i := by
  rw [flag, compareMask, BitVec.getLsbD_ofNat, testBit_sum_below]
  simp [hi]

/-- A compare writes its mask and gathers the flags of every element below n. -/
def Device.compared (f : Nat → Bool × FFlags) : Device :=
  (d.setMask st e.v.k (compareMask e.n (d.kreg st e.v.k) fun i => (f i).1)).modCur st fun c =>
    c.addVectorFlags (Vec.allFlags ((List.range e.n).map fun i => (f i).2))

theorem Device.arith_intCmp (op : Nat) (hop : 15 ≤ op) (hk : e.kind = .int op) : d.arith st e = d.compared st e fun i =>
    (Vec.intCmp op e.w (Vec.elem (d.vreg st e.v.va) e.w i) (Vec.elem (d.vreg st e.v.vb) e.w i), .none) := by
  obtain ⟨kind, v, len, base, stride, scalar, modeF, start, pc⟩ := e
  subst hk
  exact if_neg (Nat.not_lt.mpr hop)

theorem Device.arith_floatCmp (op : Nat) (hop : 11 ≤ op) (hk : e.kind = .fp op) : d.arith st e = d.compared st e fun i =>
    Vec.floatCmp op e.t e.modeF (Vec.elem (d.vreg st e.v.va) e.w i) (Vec.elem (d.vreg st e.v.vb) e.w i) := by
  obtain ⟨kind, v, len, base, stride, scalar, modeF, start, pc⟩ := e
  subst hk
  exact if_neg (Nat.not_lt.mpr hop)

end

section
variable {s : State} {st : StallId} {kind : VecKind} {v : VFormat}

/-- An instruction whose arithmetic writes a mask other than k0 does what State.wroteMask says. -/
theorem completes_wroteMask {i : Instr} {word : W32} {f : Nat → Bool × FFlags} {m : Mask}
    (he : exec i s = .next (s.onDev fun d => d.vectorIssue st kind v word))
    (hm : (s.dev.capture st kind v).memory = false) (hset : kind ≠ .setvl) (hk : v.k ≠ 0)
    (hg : (s.dev.retire st 1).arith st (s.dev.capture st kind v) = s.dev.wroteKreg st v.k m
      (Vec.allFlags ((List.range (s.dev.capture st kind v).n).map fun i => (f i).2)))
    (hbits : ∀ i, i < 512 → flag m i = if i < (s.dev.capture st kind v).n then (f i).1 else flag (s.dev.kreg st v.k) i) :
    s.vectorReady st (s.dev.capture st kind v) → Completes i s (s.wroteMask st (s.dev.capture st kind v) f) := by
  intro hr
  have hrun := onDev_vectorIssue_arith (g := fun d => (d.setMask st v.k m).modCur st fun c => c.addVectorFlags
    (Vec.allFlags ((List.range (s.dev.capture st kind v).n).map fun i => (f i).2))) word hr hm hset hg
    fun d hq => by simpa [d.setMask_of_ne _ _ _ hk, SlotCtx.addVectorFlags, SlotCtx.withMask] using hq
  have hv : (s.dev.capture st kind v).v = v := rfl
  generalize s.dev.capture st kind v = e at hrun hbits hv ⊢
  subst hv
  by_cases hn : e.n = 0
  · have h := wroteMask_wroteKreg s st e f (s.dev.kreg st e.v.k) hk fun i _ => by simp [hn]
    rw [hn] at h
    refine ⟨_, he.trans (congrArg Host.Outcome.next (hrun.trans (onDev_congr ?_))), h⟩
    exact (if_pos hn).trans (s.dev.retire_eq_wroteKreg st e.v.k hk)
  · refine ⟨_, he.trans (congrArg Host.Outcome.next (hrun.trans (onDev_congr ?_))), wroteMask_wroteKreg s st e f m hk hbits⟩
    exact if_neg hn

/-- A compare into a mask other than k0. -/
theorem completes_compared {i : Instr} {word : W32} (f : Nat → Bool × FFlags)
    (he : exec i s = .next (s.onDev fun d => d.vectorIssue st kind v word))
    (hm : (s.dev.capture st kind v).memory = false) (hset : kind ≠ .setvl) (hk : v.k ≠ 0)
    (hg : (s.dev.retire st 1).arith st (s.dev.capture st kind v) =
      (s.dev.retire st 1).compared st (s.dev.capture st kind v) f) :
    s.vectorReady st (s.dev.capture st kind v) → Completes i s (s.wroteMask st (s.dev.capture st kind v) f) := by
  refine completes_wroteMask he hm hset hk (hg.trans ?_) fun i hi => flag_compareMask _ _ _ i hi
  rw [Device.compared, Device.kreg_retire]
  rfl

/-- A form that is illegal takes ILLEGAL_INSTRUCTION with its word. -/
theorem completes_illegal {i : Instr} (word : W32)
    (he : exec i s = .next (s.onDev fun d => d.vectorIssue st kind v word))
    (hill : (s.dev.capture st kind v).illegal = true) (hi : s.issues st 1) (hx : flag ((s.dev.cur st).getCr 0x01) 0 = false) :
    Completes i s (s.took st 1 0 (word.setWidth 64)) := by
  refine ⟨_, he.trans (congrArg Host.Outcome.next ((onDev_issue hi _).trans (onDev_congr (g := fun d => d.illegal st word) ?_))),
    raise_took s st 1 0 _ hx⟩
  exact if_pos hill

end

/-! ### Mask operations -/

/-- The mask whose bits below n are those of z, and whose others are those of m. -/
def combinedMask (n : Nat) (z m : Mask) : Mask :=
  (z &&& BitVec.ofNat 512 (2 ^ n - 1)) ||| (m &&& ~~~(BitVec.ofNat 512 (2 ^ n - 1)))

theorem flag_combinedMask (n : Nat) (z m : Mask) (i : Nat) (hi : i < 512) :
    flag (combinedMask n z m) i = if i < n then flag z i else flag m i := by
  by_cases h : i < n <;> simp only [flag, combinedMask, BitVec.getLsbD_or, BitVec.getLsbD_and, BitVec.getLsbD_not,
    BitVec.getLsbD_ofNat, Nat.testBit_two_pow_sub_one, hi, h, decide_true, decide_false, Bool.and_true, Bool.and_false,
    Bool.not_true, Bool.not_false, Bool.or_false, Bool.false_or, if_true, if_false]

/-- A mask written without flags. -/
theorem Device.wroteKreg_none (d : Device) (st : StallId) (k : KReg) (m : Mask) (hk : k ≠ 0) :
    d.wroteKreg st k m .none = (d.retire st 1).setMask st k m := by
  rw [wroteKreg, setMask_of_ne _ _ _ _ hk, modCur_modCur]
  exact modCur_congr _ st (SlotCtx.addVectorFlags_none _)

/-- Settles O22: each compare and each mask operation decides one bit of the mask per element. -/
theorem vectorMasks : Obligations.VectorMasks := by
  intro st v s t w m x y a b sets compares int fp
  have hva (r : VReg) : (s.dev.retire st 1).vreg st r = s.dev.vreg st r := s.dev.vreg_retire st 1 r
  have runInt {i : Instr} {word : W32} (op : Nat) (f : Nat → Bool × FFlags) (hop : 15 ≤ op)
      (he : exec i s = .next (s.onDev fun d => d.vectorIssue st (.int op) v word)) (hw : word = Coeri.firstWord i)
      (hf : ∀ j, Vec.intCmp op w (x j) (y j) = (f j).1 ∧ .none = (f j).2) : compares i (int op) f := by
    refine ⟨fun hk => completes_compared f he rfl (by simp) hk ?_, fun hk hi hx => ?_⟩
    · refine ((s.dev.retire st 1).arith_intCmp st _ op hop rfl).trans ?_
      rw [hva, hva]
      exact congrArg _ (funext fun j => Prod.ext (hf j).1 (hf j).2)
    · subst hw
      refine completes_illegal _ he ?_ hi hx
      simp [VecEntry.illegal, VecEntry.writesMask, Device.capture, hop, hk]
  have runFloat {i : Instr} {word : W32} (op : Nat) (hop : 11 ≤ op)
      (he : exec i s = .next (s.onDev fun d => d.vectorIssue st (.fp op) v word)) (hw : word = Coeri.firstWord i) :
      compares i (fp op) fun i => Vec.floatCmp op t m (x i) (y i) := by
    refine ⟨fun hk => completes_compared _ he rfl (by simp) hk ?_, fun hk hi hx => ?_⟩
    · refine ((s.dev.retire st 1).arith_floatCmp st _ op hop rfl).trans ?_
      rw [hva, hva]
      rfl
    · subst hw
      refine completes_illegal _ he ?_ hi hx
      simp [VecEntry.illegal, VecEntry.writesMask, Device.capture, hop, hk]
  have hx (i : Nat) : BitVec.toNat (a i) = x i := Vec.toNat_ofNat_elem _ _ _
  have hy (i : Nat) : BitVec.toNat (b i) = y i := Vec.toNat_ofNat_elem _ _ _
  have sx (i : Nat) : Vec.sgn w (x i) = (a i).toInt := intOfNat_eq_toInt w _
  have sy (i : Nat) : Vec.sgn w (y i) = (b i).toInt := intOfNat_eq_toInt w _
  have hab (i : Nat) : a i = b i ↔ x i = y i := by rw [← hx, ← hy, BitVec.toNat_inj]
  refine ⟨runInt 15 (fun i => (decide (a i = b i), .none)) (by decide) rfl rfl fun j => ⟨?_, rfl⟩,
    runInt 16 (fun i => (decide (a i ≠ b i), .none)) (by decide) rfl rfl fun j => ⟨?_, rfl⟩,
    runInt 17 (fun i => (decide ((a i).toInt < (b i).toInt), .none)) (by decide) rfl rfl fun j => ⟨?_, rfl⟩,
    runInt 18 (fun i => (decide ((a i).toNat < (b i).toNat), .none)) (by decide) rfl rfl fun j => ⟨?_, rfl⟩,
    runInt 19 (fun i => (decide ((a i).toInt ≤ (b i).toInt), .none)) (by decide) rfl rfl fun j => ⟨?_, rfl⟩,
    runInt 20 (fun i => (decide ((a i).toNat ≤ (b i).toNat), .none)) (by decide) rfl rfl fun j => ⟨?_, rfl⟩,
    runFloat 11 (by decide) rfl rfl, runFloat 12 (by decide) rfl rfl, runFloat 13 (by decide) rfl rfl,
    runFloat 14 (by decide) rfl rfl, fun kd p q => ?masks⟩
  case masks =>
    intro e bp bq combines
    have run {i : Instr} {word : W32} (op : Nat) (z : Mask) (f : Nat → Bool)
        (he : exec i s = .next (s.onDev fun d =>
          d.vectorIssue st (.mask op p q) { k := kd, t := 0, vd := 0, va := 0, vb := 0 } word))
        (hz : (s.dev.retire st 1).arith st (e op) =
          (s.dev.retire st 1).setMask st kd (combinedMask (e op).n z ((s.dev.retire st 1).kreg st kd)))
        (hf : ∀ i, i < 512 → flag z i = f i) : combines i op f := by
      refine ⟨fun hk => completes_wroteMask (m := combinedMask (e op).n z (s.dev.kreg st kd)) he rfl (by simp) hk ?_
        fun i hi => ?_, fun hk hr => ?_⟩
      · rw [hz, Device.kreg_retire, Vec.allFlags_none, Device.wroteKreg_none _ _ _ _ hk]
      · rw [flag_combinedMask _ _ _ _ hi, hf i hi]
      · have hrun := onDev_vectorIssue_arith (g := fun d => d) word hr rfl (by simp)
          (hz.trans (if_pos hk)) fun d hd => hd
        refine ⟨_, he.trans (congrArg Host.Outcome.next (hrun.trans (onDev_congr (g := fun d => d.retire st 1) ?_))),
          onlyRetired_retire s st 1⟩
        exact ite_self _
    have hp : (s.dev.retire st 1).kreg st p = s.dev.kreg st p := s.dev.kreg_retire st 1 p
    have hq : (s.dev.retire st 1).kreg st q = s.dev.kreg st q := s.dev.kreg_retire st 1 q
    refine ⟨run 0 (s.dev.kreg st p &&& s.dev.kreg st q) (fun i => bp i && bq i) rfl ?_ fun i hi => ?_,
      run 1 (s.dev.kreg st p ||| s.dev.kreg st q) (fun i => bp i || bq i) rfl ?_ fun i hi => ?_,
      run 2 (s.dev.kreg st p ^^^ s.dev.kreg st q) (fun i => bp i != bq i) rfl ?_ fun i hi => ?_,
      run 3 (s.dev.kreg st p &&& ~~~s.dev.kreg st q) (fun i => bp i && !bq i) rfl ?_ fun i hi => ?_⟩
    case refine_1 | refine_3 | refine_5 | refine_7 =>
      rw [← hp, ← hq]
      rfl
    all_goals simp only [flag, bp, bq, BitVec.getLsbD_and, BitVec.getLsbD_or, BitVec.getLsbD_xor, BitVec.getLsbD_not, hi,
      decide_true, Bool.true_and]
  all_goals simp only [Vec.intCmp, hx, hy, sx, sy, hab, Ne]

end Sys2Proof.Machine
end

section
/-! Reductions, compress, expand and the moves between vectors and VSCALAR (R150, R156 to R158). -/

namespace Sys2Proof.Machine

namespace Vec

/-- A segmented reduction looks at the activity of the elements below n alone. -/
theorem segments_congr (f : Nat → Nat → Nat × FFlags) (ids vals : Nat → Nat) (n : Nat) {p q : Nat → Bool}
    (h : ∀ i, i < n → p i = q i) : segments f ids vals p n = segments f ids vals q n := by
  unfold segments
  extract_lets stepP stepQ
  have hstep : (List.range n).foldl stepP (none, [], .none) = (List.range n).foldl stepQ (none, [], .none) := by
    refine List.foldl_ext _ _ _ fun x i hi => ?_
    simp only [stepP, stepQ, h i (List.mem_range.mp hi)]
  rw [hstep]

end Vec

section
variable {s : State} {st : StallId} {kind : VecKind} {v : VFormat} {i : Instr} {word : W32}
variable (he : exec i s = .next (s.onDev fun d => d.vectorIssue st kind v word))
  (hm : (s.dev.capture st kind v).memory = false) (hset : kind ≠ .setvl)
include he hm hset

/-- With no elements the instruction only retires. -/
theorem completes_of_empty (hr : s.vectorReady st (s.dev.capture st kind v)) (hn : (s.dev.capture st kind v).n = 0) :
    Completes i s (s.onlyRetired st 1) := by
  have hq : ((s.dev.retire st 1).cur st).vq = [] := by
    obtain ⟨-, -, hq, -⟩ := hr
    simp [hq]
  have hbad : ((s.dev.retire st 1).stall st).vBad = [] := by
    obtain ⟨-, -, -, hbad, -⟩ := hr
    simp [Device.retire, hbad]
  have hx := (s.dev.retire st 1).execEntry_of_arith st (s.dev.capture st kind v) [] hbad hset hm
  rw [if_pos hn] at hx
  exact ⟨_, he.trans (congrArg Host.Outcome.next (onDev_vectorIssue_of_executes word hr hm hx hq)), onlyRetired_retire s st 1⟩

/-- With elements the instruction does its arithmetic, which writes vd and changes the slot by f. -/
theorem exec_of_wroteVreg {x : VReg4096} {f : SlotCtx → SlotCtx} (hr : s.vectorReady st (s.dev.capture st kind v))
    (hn : (s.dev.capture st kind v).n ≠ 0)
    (hg : (s.dev.retire st 1).arith st (s.dev.capture st kind v) = ((s.dev.retire st 1).setVreg st v.vd x).modCur st f)
    (hf : ∀ c, (f c).vq = c.vq) : exec i s = .next (s.onDev fun d => d.wroteVreg st v.vd x f) := by
  have hq : ((s.dev.wroteVreg st v.vd x f).cur st).vq = [] := by
    obtain ⟨-, -, hq, -⟩ := hr
    rw [Device.cur_wroteVreg, hf, SlotCtx.vq_advance, hq]
  have hbad : ((s.dev.retire st 1).stall st).vBad = [] := by
    obtain ⟨-, -, -, hbad, -⟩ := hr
    simp [Device.retire, hbad]
  have hx := (s.dev.retire st 1).execEntry_of_arith st (s.dev.capture st kind v) [] hbad hset hm
  rw [if_neg hn, hg] at hx
  exact he.trans (congrArg Host.Outcome.next (onDev_vectorIssue_of_executes word hr hm hx hq))

/-- With elements the instruction does its arithmetic, which writes VSCALAR alone. -/
theorem exec_of_setScalar {x : W64} (hr : s.vectorReady st (s.dev.capture st kind v))
    (hn : (s.dev.capture st kind v).n ≠ 0)
    (hg : (s.dev.retire st 1).arith st (s.dev.capture st kind v) = (s.dev.retire st 1).setVectorCr st 0x13 x) :
    exec i s = .next (s.onDev fun d => d.modCur st fun c => (c.advance 1).setCr 0x13 x) := by
  have hq : (((s.dev.retire st 1).setVectorCr st 0x13 x).cur st).vq = [] := by
    obtain ⟨-, -, hq, -⟩ := hr
    simp [Device.setVectorCr, hq]
  have hbad : ((s.dev.retire st 1).stall st).vBad = [] := by
    obtain ⟨-, -, -, hbad, -⟩ := hr
    simp [Device.retire, hbad]
  have hx := (s.dev.retire st 1).execEntry_of_arith st (s.dev.capture st kind v) [] hbad hset hm
  rw [if_neg hn, hg] at hx
  refine he.trans (congrArg Host.Outcome.next ((onDev_vectorIssue_of_executes word hr hm hx hq).trans (onDev_congr ?_)))
  exact Device.modCur_modCur ..

end

section
variable (d : Device) (st : StallId) (e : VecEntry)

/-- Activity of an element that exists, as an entry's arithmetic computes it. -/
theorem Device.act_of_lt {i : Nat} (h : i < e.n) :
    (decide (e.start ≤ i) && flag (d.kreg st e.v.k) i) = d.activeAt st e i := by
  rw [activeAt_eq, decide_eq_true h, Bool.true_and]

/-- The leaves of a reduction's tree: the active elements. -/
def Device.leaves : List (Option Nat) := (List.range (Vec.count e.t)).map fun i =>
  if d.activeAt st e i then some (Vec.leaf e.t e.modeF (Vec.elem (d.vreg st e.v.va) e.w i)) else none

theorem Device.arith_reduce (op : Nat) (hop : op < 3) (hk : e.kind = .red op) : d.arith st e =
    let r := Vec.tree (Vec.combine op e.t e.modeF) 9 (d.leaves st e)
    (d.setVreg st e.v.vd (Vec.setElem (d.vreg st e.v.vd) e.w 0 (r.1.getD (Vec.emptyResult op e.t)))).modCur st fun c =>
      c.addVectorFlags r.2 := by
  have hl : (List.range (Vec.count e.t)).map (fun i =>
      if decide (i < e.n) && (decide (e.start ≤ i) && flag (d.kreg st e.v.k) i) then
        some (Vec.leaf e.t e.modeF (Vec.elem (d.vreg st e.v.va) e.w i)) else none) = d.leaves st e := by
    simp only [leaves, activeAt_eq]
  rw [← hl]
  unfold arith arithTo
  rw [hk]
  dsimp only
  rw [if_pos hop]

/-- The runs of a segmented reduction: the last element of each, and its value. -/
def Device.runs (op : Nat) : List (Nat × Nat) × FFlags :=
  Vec.segments (Vec.combine op e.t e.modeF) (Vec.elem (d.vreg st e.v.vb) e.w)
    (fun i => Vec.leaf e.t e.modeF (Vec.elem (d.vreg st e.v.va) e.w i)) (d.activeAt st e) e.n

theorem Device.arith_segments (op : Nat) (hk : e.kind = .red (op + 3)) : d.arith st e =
    (d.setVreg st e.v.vd (Vec.ofElems e.w fun i =>
      (((d.runs st e op).1.find? fun p => p.1 = i).map Prod.snd).getD (Vec.elem (d.vreg st e.v.vd) e.w i))).modCur st fun c =>
      c.addVectorFlags (d.runs st e op).2 := by
  rw [runs, ← Vec.segments_congr _ _ _ _ fun i hi => d.act_of_lt st e hi]
  unfold arith arithTo
  rw [hk]
  dsimp only
  rw [if_neg (by omega), Nat.add_sub_cancel]

theorem Device.arith_compress (hk : e.kind = .pack 0) : d.arith st e =
    (d.setVreg st e.v.vd (Vec.ofElems e.w fun i => match (below e.n (d.activeAt st e))[i]? with
      | some j => Vec.elem (d.vreg st e.v.va) e.w j
      | none => Vec.elem (d.vreg st e.v.vd) e.w i)).modCur st fun c =>
        c.setCr 0x13 (BitVec.ofNat 64 (below e.n (d.activeAt st e)).length) := by
  rw [← below_act]
  obtain ⟨kind, v, len, base, stride, scalar, modeF, start, pc⟩ := e
  subst hk
  rfl

theorem Device.arith_expand (hk : e.kind = .pack 1) : d.arith st e =
    d.setVreg st e.v.vd (Vec.ofElems e.w fun i => match (below e.n (d.activeAt st e)).findIdx? (· = i) with
      | some j => Vec.elem (d.vreg st e.v.va) e.w j
      | none => Vec.elem (d.vreg st e.v.vd) e.w i) := by
  rw [← below_act]
  obtain ⟨kind, v, len, base, stride, scalar, modeF, start, pc⟩ := e
  subst hk
  rfl

theorem Device.arith_insert (hn : e.n ≠ 0) (hk : e.kind = .move 1) : d.arith st e =
    if d.activeAt st e 0 then d.setVreg st e.v.vd (Vec.setElem (d.vreg st e.v.vd) e.w 0 (e.scalar.toNat % 2 ^ e.w)) else d := by
  rw [← d.act_of_lt st e (Nat.pos_of_ne_zero hn)]
  obtain ⟨kind, v, len, base, stride, scalar, modeF, start, pc⟩ := e
  subst hk
  rfl

theorem Device.arith_extract (hn : e.n ≠ 0) (hk : e.kind = .move 0) : d.arith st e =
    if d.activeAt st e 0 then d.setVectorCr st 0x13 (if Vec.isFloat e.t then BitVec.ofNat 64 (Vec.elem (d.vreg st e.v.va) e.w 0)
      else BitVec.ofInt 64 (Vec.sgn e.w (Vec.elem (d.vreg st e.v.va) e.w 0))) else d := by
  rw [← d.act_of_lt st e (Nat.pos_of_ne_zero hn)]
  obtain ⟨kind, v, len, base, stride, scalar, modeF, start, pc⟩ := e
  subst hk
  rfl

end

/-- A change that keeps the running slot keeps the device. -/
theorem Device.modCur_id (d : Device) (st : StallId) : d.modCur st id = d := by
  have h : ∀ x : Stall, x.modCtx x.slot id = x := fun x => by simp [Stall.modCtx]
  rw [modCur, modStall, upd_id _ _ _ (h _)]

theorem SlotCtx.getCr_addVectorFlags (c : SlotCtx) (fl : FFlags) (n : Nat) (h : n ≠ 0x16) :
    (c.addVectorFlags fl).getCr n = c.getCr n := getCr_setCr_ne _ _ _ _ h

/-- Settles O24: each of these entries writes vd, VSCALAR or both, once. -/
theorem vectorReduce : Obligations.VectorReduce := by
  intro st v s t w m a b old leaf leaves idx same writes reduces segments scalar
  have hv (r : VReg) : (s.dev.retire st 1).vreg st r = s.dev.vreg st r := s.dev.vreg_retire st 1 r
  have hact (e : VecEntry) : (s.dev.retire st 1).activeAt st e = s.dev.activeAt st e :=
    funext fun i => s.dev.activeAt_retire st e i 1
  have hcr (n : Nat) (h1 : n ≠ 0x3C) (h2 : n ≠ 0x3D) : ((s.dev.cur st).advance 1).getCr n = (s.dev.cur st).getCr n :=
    SlotCtx.getCr_advance _ _ _ h1 h2
  have run {i : Instr} {kind : VecKind} {word : W32} (f : VecEntry → Nat → Nat) (g : VecEntry → W64)
      (x : VReg4096) (h : SlotCtx → SlotCtx)
      (he : exec i s = .next (s.onDev fun d => d.vectorIssue st kind v word))
      (hm : (s.dev.capture st kind v).memory = false) (hset : kind ≠ .setvl)
      (hg : (s.dev.capture st kind v).n ≠ 0 →
        (s.dev.retire st 1).arith st (s.dev.capture st kind v) = ((s.dev.retire st 1).setVreg st v.vd x).modCur st h)
      (hx : ∀ i, i < 4096 / w → Vec.elem x w i = f (s.dev.capture st kind v) i % 2 ^ w)
      (hcr : (h ((s.dev.cur st).advance 1)).getCr 0x13 = g (s.dev.capture st kind v))
      (hq : ∀ c, (h c).vq = c.vq ∧ ∀ r, (h c).getS r = c.getS r) : writes i kind f g := by
    refine fun hr => ⟨completes_of_empty he hm hset hr, fun hn =>
      ⟨_, exec_of_wroteVreg he hm hset hr hn (hg hn) fun c => (hq c).1, ⟨⟨rfl, rfl⟩, rfl, ?_⟩, ?_, fun i hi => ?_,
        fun q hq' => ?_, fun r => ?_⟩⟩
    · exact s.dev.stall_wroteVreg_ne st v.vd x h
    · rw [State.onDev_dev, Device.cur_wroteVreg, hcr]
    · rw [State.onDev_dev, Device.vreg_wroteVreg, if_pos rfl, hx i hi]
    · rw [State.onDev_dev, Device.vreg_wroteVreg, if_neg hq']
    · rw [State.onDev_dev, Device.sreg, Device.cur_wroteVreg, (hq _).2, SlotCtx.getS_advance]
      rfl
  have kept (i : Nat) : old i % 2 ^ w = old i := Nat.mod_eq_of_lt (Vec.elem_lt _ _ _)
  have hfirst (n i : Nat) (hi : i < 4096 / w) : Vec.elem (Vec.setElem (s.dev.vreg st v.vd) w 0 n) w i =
      (if i = 0 then n else old i) % 2 ^ w := by
    rw [Vec.elem_setElem _ _ _ _ _ hi]
    split
    · rfl
    · exact (kept i).symm
  have hflags (fl : FFlags) : (((s.dev.cur st).advance 1).addVectorFlags fl).getCr 0x13 = same :=
    (SlotCtx.getCr_addVectorFlags _ _ _ (by decide)).trans (hcr _ (by decide) (by decide))
  have hreduce {i : Instr} {word : W32} (op : Nat) (hop : op < 3)
      (he : exec i s = .next (s.onDev fun d => d.vectorIssue st (.red op) v word)) : reduces i op := by
    have h := (s.dev.retire st 1).arith_reduce st (s.dev.capture st (.red op) v) op hop rfl
    have hl : (s.dev.retire st 1).leaves st (s.dev.capture st (.red op) v) = leaves (s.dev.capture st (.red op) v) := by
      rw [Device.leaves, hact, hv]
      rfl
    rw [hl, hv] at h
    refine run (kind := .red op)
      (fun x i => if i = 0 then (Vec.tree (Vec.combine op t m) 9 (leaves x)).1.getD (Vec.emptyResult op t) else old i)
      (fun _ => same) (Vec.setElem (s.dev.vreg st v.vd) w 0
        ((Vec.tree (Vec.combine op t m) 9 (leaves (s.dev.capture st (.red op) v))).1.getD (Vec.emptyResult op t)))
      (fun c => c.addVectorFlags (Vec.tree (Vec.combine op t m) 9 (leaves (s.dev.capture st (.red op) v))).2)
      he rfl (by simp) (fun _ => ?_) (fun i hi => ?_) ?_ fun c => ?_
    · exact h
    · exact hfirst _ i hi
    · exact hflags _
    · exact ⟨rfl, fun r => rfl⟩
  have hsegment {i : Instr} {word : W32} (op : Nat)
      (he : exec i s = .next (s.onDev fun d => d.vectorIssue st (.red (op + 3)) v word)) : segments i op := by
    have h := (s.dev.retire st 1).arith_segments st (s.dev.capture st (.red (op + 3)) v) op rfl
    have hr : (s.dev.retire st 1).runs st (s.dev.capture st (.red (op + 3)) v) op =
        s.dev.runs st (s.dev.capture st (.red (op + 3)) v) op := by
      rw [Device.runs, hact, hv, hv]
      rfl
    rw [hr, hv] at h
    have hwrites := @run i (.red (op + 3)) word (fun x i => (((Vec.segments (Vec.combine op t m) b leaf
        (s.dev.activeAt st x) x.n).1.find? fun p => p.1 = i).map Prod.snd).getD (old i)) (fun _ => same)
      (Vec.ofElems w fun i => (((s.dev.runs st (s.dev.capture st (.red (op + 3)) v) op).1.find? fun p =>
        p.1 = i).map Prod.snd).getD (old i))
      (fun c => c.addVectorFlags (s.dev.runs st (s.dev.capture st (.red (op + 3)) v) op).2) he rfl (by simp) (fun _ => h)
      (fun i hi => Vec.elem_ofElems _ _ _ hi) (hflags _) fun c => ⟨rfl, fun r => rfl⟩
    unfold segments
    exact hwrites
  have hscalar {i : Instr} {kind : VecKind} {word : W32} (f : VecEntry → W64)
      (he : exec i s = .next (s.onDev fun d => d.vectorIssue st kind v word))
      (hm : (s.dev.capture st kind v).memory = false) (hset : kind ≠ .setvl)
      (hg : (s.dev.capture st kind v).n ≠ 0 → (s.dev.retire st 1).arith st (s.dev.capture st kind v) =
        (s.dev.retire st 1).setVectorCr st 0x13 (f (s.dev.capture st kind v))) : scalar i kind f := by
    refine fun hr => ⟨completes_of_empty he hm hset hr, fun hn =>
      ⟨_, exec_of_setScalar he hm hset hr hn (hg hn), sameButSlot_modCur s st _, ?_, fun r => ?_⟩⟩
    · rw [State.onDev_dev, Device.cur_modCur, SlotCtx.getCr_setCr_same _ _ _ (by decide)]
    · rw [State.onDev_dev, Device.sreg_modCur, SlotCtx.getS_setCr, SlotCtx.getS_advance]
      rfl
  have hsame : (s.dev.retire st 1).setVectorCr st 0x13 same = s.dev.retire st 1 := by
    have h := (s.dev.retire st 1).modCur_congr st (g := id)
      (f := fun c => c.setCr 0x13 same) (by
        rw [Device.cur_retire]
        exact (congrArg _ (hcr 0x13 (by decide) (by decide)).symm).trans (SlotCtx.setCr_getCr _ _))
    refine h.trans ?_
    rw [Device.retire, Device.modCur_modCur]
    rfl
  refine ⟨hreduce 0 (by decide) rfl, hreduce 1 (by decide) rfl, hreduce 2 (by decide) rfl, hsegment 0 rfl, hsegment 1 rfl,
    hsegment 2 rfl, ?compress, ?expand, ?insert, ?extract, ?count, ?first⟩
  case compress =>
    have h := (s.dev.retire st 1).arith_compress st (s.dev.capture st (.pack 0) v) rfl
    rw [hact, hv, hv] at h
    exact run (fun x i => match (idx x)[i]? with | some j => a j | none => old i)
      (fun x => BitVec.ofNat 64 (idx x).length) _ _ rfl rfl (by simp) (fun _ => h) (fun i hi => Vec.elem_ofElems _ _ _ hi)
      (SlotCtx.getCr_setCr_same _ _ _ (by decide)) fun c => ⟨rfl, fun r => rfl⟩
  case expand =>
    have h := (s.dev.retire st 1).arith_expand st (s.dev.capture st (.pack 1) v) rfl
    rw [hact, hv, hv] at h
    exact run (fun x i => match (idx x).findIdx? (· = i) with | some j => a j | none => old i) (fun _ => same) _ id rfl rfl
      (by simp) (fun _ => h.trans (Device.modCur_id ..).symm) (fun i hi => Vec.elem_ofElems _ _ _ hi)
      (hcr _ (by decide) (by decide)) fun c => ⟨rfl, fun r => rfl⟩
  case insert =>
    have h (hn : (s.dev.capture st (.move 1) v).n ≠ 0) :=
      (s.dev.retire st 1).arith_insert st (s.dev.capture st (.move 1) v) hn rfl
    simp only [hact, hv] at h
    have hold : s.dev.retire st 1 = (s.dev.retire st 1).setVreg st v.vd (s.dev.vreg st v.vd) := by
      rw [← hv, Device.setVreg_vreg]
    have hwrites := @run (.vins st v) (.move 1) _ (fun x i => if i = 0 ∧ s.dev.activeAt st x 0 = true then
        ((s.dev.cur st).getCr 0x13).toNat % 2 ^ w else old i) (fun _ => same)
      (if s.dev.activeAt st (s.dev.capture st (.move 1) v) 0 then
        Vec.setElem (s.dev.vreg st v.vd) w 0 (((s.dev.cur st).getCr 0x13).toNat % 2 ^ w) else s.dev.vreg st v.vd) id rfl rfl
      (by simp) (fun hn => ?_) (fun i hi => ?_) (hcr _ (by decide) (by decide)) fun c => ⟨rfl, fun r => rfl⟩
    · exact hwrites
    · rw [Device.modCur_id, h hn]
      split
      · rfl
      · exact hold
    · cases s.dev.activeAt st (s.dev.capture st (.move 1) v) 0 with
      | true => simpa using hfirst (((s.dev.cur st).getCr 0x13).toNat % 2 ^ w) i hi
      | false => simpa using (kept i).symm
  case extract =>
    refine hscalar (kind := .move 0) (fun x => if s.dev.activeAt st x 0 then
        (if Vec.isFloat t then BitVec.ofNat 64 (a 0) else (BitVec.ofNat w (a 0)).signExtend 64)
      else (s.dev.cur st).getCr 0x13) rfl rfl (by simp) fun hn => ?_
    rw [(s.dev.retire st 1).arith_extract st (s.dev.capture st (.move 0) v) hn rfl, hact, hv]
    split
    · rw [Vec.sgn, intOfNat_eq_toInt]
      rfl
    · exact hsame.symm
  case count =>
    refine hscalar (kind := .move 3) (fun x => BitVec.ofNat 64 ((List.range x.n).countP fun i =>
      flag (s.dev.kreg st v.k) i)) rfl rfl (by simp) fun hn => ?_
    rw [List.countP_eq_length_filter, ← s.dev.kreg_retire st 1]
    rfl
  case first =>
    refine hscalar (kind := .move 4) (fun x => match (List.range x.n).find? fun i => flag (s.dev.kreg st v.k) i with
      | some i => BitVec.ofNat 64 i
      | none => BitVec.allOnes 64) rfl rfl (by simp) fun hn => ?_
    rw [← List.head?_filter, ← s.dev.kreg_retire st 1, List.head?_eq_getElem?]
    rfl

end Sys2Proof.Machine
end

section
/-! VSETVL, VWAKE and the power gate (R144, R145, R150). -/

namespace Sys2Proof.Machine

/-- VSETVL executes whatever LEN is. -/
theorem Device.execEntry_setvl (d : Device) (st : StallId) (e : VecEntry) (rest : List VecEntry) (hbad : (d.stall st).vBad = [])
    (hk : e.kind = .setvl) : d.execEntry st e rest = (d.setvl st e, true) := by
  unfold execEntry
  rw [d.parityFault_none st e hbad]
  exact if_pos hk

/-- A change of the running slot that f makes before retirement or after. -/
theorem wrote_modCur_advance (s : State) (st : StallId) (c : SlotCtx) (f : SlotCtx → SlotCtx)
    (hc : c.retired 1 (f ((s.dev.cur st).advance 1)))
    (hs : ∀ r, (f ((s.dev.cur st).advance 1)).getS r = (s.dev.cur st).getS r) :
    s.wrote st 1 c 0 0 (s.onDev fun d => d.modCur st fun c => f (c.advance 1)) := by
  refine ⟨sameButSlot_modCur s st _, ?_, fun r => ?_⟩
  · rw [State.onDev_dev, Device.cur_modCur]
    exact hc
  · rw [State.onDev_dev, Device.sreg_modCur, hs, if_neg (fun h => h.2 h.1)]
    rfl

/-- Settles O28: VSETVL writes two control registers; VWAKE and the events of the power gate write the gate. -/
theorem vectorControl : Obligations.VectorControl := by
  refine fun st v s => ⟨?setvl, fun hi hd ha hb hk => ?wake, fun hgate hp hq hidle => ?gate, fun hgate hq => ?awake⟩
  case setvl =>
    intro e len hr
    have hx := (s.dev.retire st 1).execEntry_setvl st e [] (by
      obtain ⟨-, -, -, hbad, -⟩ := hr
      simp [Device.retire, hbad]) rfl
    have hq : (((s.dev.retire st 1).setvl st e).cur st).vq = [] := by
      obtain ⟨-, -, hq, -⟩ := hr
      simp [Device.setvl, Device.setVectorCr, hq]
    refine ⟨_, congrArg Host.Outcome.next ((onDev_vectorIssue_of_executes _ hr rfl hx hq).trans
      (onDev_congr (g := fun d => d.modCur st fun c => ((c.advance 1).setCr 0x10 len).setCr 0x13 len) ?_)),
      wrote_modCur_advance s st _ (fun c => (c.setCr 0x10 len).setCr 0x13 len) ?_ fun r => SlotCtx.getS_advance ..⟩
    · simp only [Device.setvl, Device.setVectorCr, Device.retire, Device.modCur_modCur]
      rfl
    · exact SlotCtx.retired_setCr (SlotCtx.retired_setCr (SlotCtx.retired_advance _ 1) _ _ (by decide) (by decide)) _ _
        (by decide) (by decide)
  case wake =>
    have hrun : exec (.vwake st v) s = .next (s.onDev fun d =>
        (d.modStall st fun x => { x with gate := if x.gate = .gated then .waking else x.gate }).retire st 1) := by
      refine congrArg Host.Outcome.next ((onDev_issue hi _).trans (onDev_congr ?_))
      exact if_neg (by simp [hd, ha, hb, hk])
    have hcur := s.dev.cur_modStall_retire st 1 (fun x => { x with gate := if x.gate = .gated then .waking else x.gate }) rfl
      fun sl => by cases sl <;> rfl
    have hstall := s.dev.stall_modStall_retire st 1 (fun x => { x with gate := if x.gate = .gated then .waking else x.gate }) rfl
      fun sl => by cases sl <;> rfl
    refine ⟨_, hrun, ?_, ?_, fun r => ?_, ?_⟩
    · exact ⟨⟨rfl, rfl⟩, rfl, fun u hu => (Device.stall_modCur_ne _ st u _ hu).trans (s.dev.stall_modStall_ne st u _ hu)⟩
    · rw [State.onDev_dev, hcur]
      exact SlotCtx.retired_advance _ 1
    · rw [State.onDev_dev, Device.sreg, hcur, SlotCtx.getS_advance]
      rfl
    · rw [State.onDev_dev, hstall]
      exact Stall.setCtx_gate ..
  case gate =>
    refine ⟨_, congrArg Host.Outcome.next (onDev_congr (g := fun d => d.modStall st fun x => { x with gate := .gated }) ?_),
      ⟨⟨rfl, rfl⟩, rfl, fun u hu => s.dev.stall_modStall_ne st u _ hu⟩, s.dev.stall_modStall_same st _⟩
    exact if_pos (by simp [hgate, hp, hq, hidle])
  case awake =>
    have hcur := s.dev.cur_modStall_of_ctx st (fun x => { x with gate := .awake }) rfl fun sl => by cases sl <;> rfl
    refine ⟨_, congrArg Host.Outcome.next (onDev_congr (g := fun d => d.modStall st fun x => { x with gate := .awake }) ?_),
      ⟨⟨rfl, rfl⟩, rfl, fun u hu => s.dev.stall_modStall_ne st u _ hu⟩, s.dev.stall_modStall_same st _⟩
    refine (if_pos hgate).trans ?_
    dsimp only
    rw [Device.drainQueue_of_empty _ st 4 (by rw [hcur, hq])]
    exact ite_self _

end Sys2Proof.Machine
end

section
/-! Elements of vector memory instructions (R160 to R168): what reads and writes of good units leave, and one step of the
walk over the elements. -/

namespace Sys2Proof.Machine

theorem PageKind.base_mod (k : PageKind) : k.base % 0x1000 = 0 := by
  cases k <;> decide

/-- Registers at different places within their pages are different. -/
theorem Page.reg_ne (p q : Page) {o n : Nat} (ho : o < 0x1000) (hn : n < 0x1000) (h : o ≠ n) : p.reg o ≠ q.reg n := by
  have hp := p.kind.base_mod
  have hq := q.kind.base_mod
  simp only [Page.reg, Page.base]
  omega

namespace Device

theorem ctxCtl_setPreg (d : Device) (p : Page) (o : Nat) (v : W32) (st : StallId) (ho : o < 0x1000) (h : o ≠ 0xF00) :
    (d.setPreg p o v).ctxCtl st = d.ctxCtl st :=
  reg_setReg_ne _ _ _ _ (Page.reg_ne _ _ (by decide) ho (Ne.symm h))

/-- e is d but for corrected errors, counters and the batches of the controllers: no byte, register of a slot, partition or
uncorrectable error has changed. -/
def Touched (d e : Device) : Prop :=
  e = { d with ce := e.ce, regs := e.regs, batches := e.batches, free := e.free } ∧ ∀ st, e.ctxCtl st = d.ctxCtl st

namespace Touched

theorem refl (d : Device) : Touched d d := ⟨rfl, fun _ => rfl⟩

theorem trans {d e f : Device} (h : Touched d e) (k : Touched e f) : Touched d f := by
  refine ⟨?_, fun st => (k.2 st).trans (h.2 st)⟩
  rw [k.1, h.1]

section
variable {d e : Device} (h : Touched d e)
include h

theorem bad : e.bad = d.bad := by rw [h.1]
theorem mc : e.mc = d.mc := by rw [h.1]
theorem boot : e.boot = d.boot := by rw [h.1]
theorem mem : e.mem = d.mem := by rw [h.1]
theorem tally : e.tally = d.tally := by rw [h.1]
theorem stalls : e.stalls = d.stalls := by rw [h.1]
theorem chanOf (a : Nat) : e.chanOf a = d.chanOf a := by rw [h.1]; rfl
theorem blank : e.blank = d.blank := by rw [h.1]; rfl
theorem rdByte (a : Nat) : e.rdByte a = d.rdByte a := by rw [h.1]; rfl
theorem rdBytes (a n : Nat) : e.rdBytes a n = d.rdBytes a n := by rw [h.1]; rfl
theorem stall (st : StallId) : e.stall st = d.stall st := by rw [h.1]; rfl
theorem cur (st : StallId) : e.cur st = d.cur st := by rw [h.1]; rfl
theorem slotOf (st : StallId) : e.slotOf st = d.slotOf st := by rw [h.1]; rfl
theorem vreg (st : StallId) (r : VReg) : e.vreg st r = d.vreg st r := by rw [h.1]; rfl
theorem activeAt (st : StallId) (x : VecEntry) (i : Nat) : e.activeAt st x i = d.activeAt st x i := by rw [h.1]; rfl

theorem partBase (st : StallId) (sl : Slot) : e.partBase st sl = d.partBase st sl := by
  cases sl with
  | primary => rfl
  | paddock => rw [Device.partBase, Device.partBase, paddockEn, paddockEn, h.2]

theorem loftLimit (st : StallId) (sl : Slot) : e.loftLimit st sl = d.loftLimit st sl := by
  unfold Device.loftLimit paddockEn
  rw [h.2]

theorem loftAt (st : StallId) (a : Nat) : e.loftAt st a = d.loftAt st a := by
  rw [Device.loftAt, h.partBase, h.slotOf, Device.loftAt]

theorem elemAddr (st : StallId) (x : VecEntry) (i : Nat) : e.elemAddr st x i = d.elemAddr st x i := by
  simp only [Device.elemAddr, h.vreg]

theorem staticFault (st : StallId) (x : VecEntry) (a : Nat) : e.staticFault st x a = d.staticFault st x a := by
  simp only [Device.staticFault, h.boot, h.loftLimit, h.slotOf]

theorem elemDpa (st : StallId) (x : VecEntry) (a : Nat) : e.elemDpa st x a = d.elemDpa st x a := by
  simp only [Device.elemDpa, h.loftAt]

/-- Bytes written before units are touched, or after. -/
theorem wrBytes (a : Nat) (l : List Byte) : Touched (d.wrBytes a l) (e.wrBytes a l) := by
  have hm := mem_wrBytes_congr h.mem h.blank a l
  refine ⟨?_, fun st => ?_⟩
  · rw [wrBytes_only e, wrBytes_only d, hm, h.1]
  · rw [wrBytes_only e, wrBytes_only d]
    exact h.2 st

end

end Touched

theorem touched_bump (d : Device) (p : Page) (o n : Nat) (ho : o < 0x1000) (h : o ≠ 0xF00) : Touched d (d.bump p o n) :=
  ⟨rfl, fun st => d.ctxCtl_setPreg p o _ st ho h⟩

theorem touched_burstServed (d : Device) (c : Chan) (w b : Bool) : Touched d (d.burstServed c w b) := by
  simp only [burstServed, drawFree]
  have h0 : Touched d { d with free := d.free + 1, batches := d.batches.set c (d.batches[c].take w (Config.turnRound d.free)).1 } :=
    ⟨rfl, fun _ => rfl⟩
  generalize ({ d with free := _, batches := _ } : Device) = e at h0 ⊢
  have h1 : Touched d (e.bump (Page.memctl c) (if w then 0x124 else 0x120) 1) :=
    h0.trans (touched_bump e _ _ 1 (by split <;> decide) (by split <;> decide))
  have h2 (x : Device) (hx : Touched d x) (m n : Nat) :
      Touched d ((x.bump (Page.memctl c) 0x128 m).bump (Page.memctl c) 0x12C n) :=
    (hx.trans (touched_bump x _ _ _ (by decide) (by decide))).trans (touched_bump _ _ _ _ (by decide) (by decide))
  split
  · exact h2 _ (h1.trans (touched_bump _ _ _ _ (by decide) (by decide))) _ _
  · exact h2 _ h1 _ _

/-- The unit at u reads: no uncorrectable error and no offline channel. -/
def readable (d : Device) (u : Nat) : Prop := u ∉ d.bad ∧ (u < loftBase → d.mc[d.chanOf u].state ≠ .offline)

theorem Touched.readable {d e : Device} (h : Touched d e) {u : Nat} (hr : d.readable u) : e.readable u := by
  obtain ⟨hb, hm⟩ := hr
  refine ⟨by rwa [h.bad], fun hu => ?_⟩
  rw [h.1]
  exact hm hu

theorem touched_shedBump (d : Device) (st : StallId) (n : Nat) (l : List Nat) :
    Touched d ({ d with ce := l }.bump (Page.shedOf st) (shedOff st 0x108) n) := by
  have hlt : inShed st < 16 := Nat.mod_lt _ (by decide)
  have h0 : Touched d { d with ce := l } := ⟨rfl, fun _ => rfl⟩
  exact h0.trans (touched_bump _ _ _ _ (by simp only [shedOff]; omega) (by simp only [shedOff]; omega))

theorem readUnit_readable (d : Device) (u : Nat) (k : Bool) (h : d.readable u) :
    ∃ e, Touched d e ∧ d.readUnit u k = (e, .ok) := by
  obtain ⟨hb, hm⟩ := h
  have hs := touched_burstServed d (d.chanOf u) false k
  unfold readUnit
  by_cases hu : u < loftBase
  · rw [if_pos hu]
    extract_lets c e
    have hs' : Touched d e := hs
    rw [if_neg (hm hu), if_neg (by rwa [hs'.bad])]
    split
    · exact ⟨_, hs'.trans (touched_bump _ _ _ _ (by decide) (by decide)), rfl⟩
    · exact ⟨_, hs', rfl⟩
  · rw [if_neg hu, if_neg hb]
    split
    · exact ⟨_, d.touched_shedBump (loftStall u) 1 _, rfl⟩
    · exact ⟨_, Touched.refl d, rfl⟩

theorem writeUnit_readable (d : Device) (a : Nat) (l : List Byte) (k : Bool) (h : d.readable (unitOf a))
    (hi : d.tally.armed = false) : ∃ e, Touched d e ∧ d.writeUnit a l k = (e.wrBytes a l, .ok) := by
  obtain ⟨hb, hm⟩ := h
  have hs := touched_burstServed d (d.chanOf (unitOf a)) true k
  have hput {x : Device} (hx : Touched d x) : (x.wrBytes a l).inject (unitOf a) = x.wrBytes a l :=
    inject_unarmed _ _ (by rw [wrBytes_only]; show x.tally.armed = false; rw [hx.tally, hi])
  unfold writeUnit
  extract_lets u whole lp6 c x y w z
  have hx : Touched d x := by
    dsimp only [x]
    split
    · exact hs
    · exact Touched.refl d
  have hw (v : Device) (hv : v = { x with ce := v.ce }) : Touched d v := hx.trans ⟨by rw [hv], fun st => by rw [hv]; rfl⟩
  have hbad : u ∉ x.bad := by rwa [hx.bad]
  have hz : Touched d z := by
    dsimp only [z]
    split
    · split
      · exact (hw w rfl).trans (touched_bump _ _ _ _ (by decide) (by decide))
      · exact hx.trans (x.touched_shedBump (loftStall u) 1 _)
    · exact hx
  have hy : y = { x with ce := setErase x.ce u } := by
    simp only [y, setErase_of_not_mem _ _ hbad]
  rw [if_neg]
  · split
    · exact ⟨y, hw y (by rw [hy]), by rw [hput (hw y (by rw [hy]))]⟩
    · exact ⟨z, hz, by rw [hput hz]⟩
  · intro h
    simp only [lp6, Bool.and_eq_true, decide_eq_true_eq] at h
    exact hm h.1 h.2

end Device

end Sys2Proof.Machine
end

section
/-! Vector loads (R160 to R168): the walk over good elements, and a load instruction from its entry to its retirement. -/

namespace Sys2Proof.Machine

theorem VecEntry.bytes_mul (e : VecEntry) : 8 * (e.w / 8) = e.w := by
  have h : ∀ t : BitVec 3, 8 * (Vec.width t.toNat / 8) = Vec.width t.toNat := by decide
  exact h e.v.t

theorem VecEntry.bytes_pos (e : VecEntry) : 0 < e.w / 8 := by
  have h : ∀ t : BitVec 3, 0 < Vec.width t.toNat / 8 := by decide
  exact h e.v.t

namespace Device

/-- The DPA of element i of an entry. -/
def dpaAt (d : Device) (st : StallId) (e : VecEntry) (i : Nat) : Nat := d.elemDpa st e (d.elemAddr st e i)

/-- Element i of an entry is accessed without a fault. -/
def goodAt (d : Device) (st : StallId) (e : VecEntry) (i : Nat) : Prop :=
  d.staticFault st e (d.elemAddr st e i) = none ∧ d.readable (unitOf (d.dpaAt st e i))

theorem Touched.dpaAt {d x : Device} (h : Touched d x) (st : StallId) (e : VecEntry) (i : Nat) :
    x.dpaAt st e i = d.dpaAt st e i := by
  rw [Device.dpaAt, h.elemAddr, h.elemDpa, Device.dpaAt]

theorem Touched.goodAt {d x : Device} (h : Touched d x) {st : StallId} {e : VecEntry} {i : Nat} (hg : d.goodAt st e i) :
    x.goodAt st e i := by
  obtain ⟨hf, hr⟩ := hg
  refine ⟨by rw [h.elemAddr, h.staticFault, hf], ?_⟩
  rw [h.dpaAt]
  exact h.readable hr

/-- An element that is not active, or that comes after a fault, is passed over. -/
theorem elemStep_of_inactive (st : StallId) (e : VecEntry) (x : VecWalk) (i : Nat) (h : x.dev.activeAt st e i = false) :
    elemStep st e x i = x := by
  unfold elemStep
  exact if_pos (by simp [h])

/-- A good element of a load is read into its place. -/
theorem elemStep_of_load (st : StallId) (e : VecEntry) (x : VecWalk) (i : Nat) (hs : x.stop = none) (hist : e.kind ≠ .hist)
    (hst : e.stores = false) (ha : x.dev.activeAt st e i = true) (hg : x.dev.goodAt st e i) :
    ∃ d', Touched x.dev d' ∧ elemStep st e x i = { x with
      dev := d', seen := unitOf (x.dev.dpaAt st e i) :: x.seen,
      reg := Vec.setElem x.reg e.w i (leNat (x.dev.rdBytes (x.dev.dpaAt st e i) (e.w / 8))) } := by
  obtain ⟨hf, hr⟩ := hg
  have hread : ∃ d', Touched x.dev d' ∧ (if unitOf (x.dev.dpaAt st e i) ∈ x.seen then (x.dev, MemRes.ok)
      else x.dev.readUnit (unitOf (x.dev.dpaAt st e i)) false) = (d', .ok) := by
    split
    · exact ⟨x.dev, Touched.refl _, rfl⟩
    · exact x.dev.readUnit_readable _ false hr
  obtain ⟨d', ht, hd'⟩ := hread
  refine ⟨d', ht, ?_⟩
  unfold elemStep
  extract_lets d a
  rw [if_neg (by simp [hs, d, ha]), show d.staticFault st e a = none from hf]
  dsimp only
  rw [if_neg hist, if_neg (by simp [hst]), show (if unitOf (d.elemDpa st e a) ∈ x.seen then (d, MemRes.ok)
    else d.readUnit (unitOf (d.elemDpa st e a)) false) = (d', .ok) from hd']
  dsimp only
  rw [if_pos rfl, ht.rdBytes]
  rfl

/-- The register that a load leaves: the w bits at each active address, the old elements elsewhere. -/
def loaded (d : Device) (st : StallId) (e : VecEntry) (k i : Nat) : Nat :=
  if decide (i < k) && d.activeAt st e i then leNat (d.rdBytes (d.dpaAt st e i) (e.w / 8))
  else Vec.elem (d.vreg st e.v.vd) e.w i

/-- The walk of a load over elements below k of which the active ones are good. -/
theorem walk_of_load (d : Device) (st : StallId) (e : VecEntry) (hist : e.kind ≠ .hist) (hst : e.stores = false) (k : Nat)
    (hg : ∀ i, i < k → d.activeAt st e i = true → d.goodAt st e i) :
    let x := (List.range k).foldl (elemStep st e) ⟨d, d.vreg st e.v.vd, [], .none, none⟩
    Touched d x.dev ∧ x.flags = .none ∧ x.stop = none ∧
      ∀ i, i < 4096 / e.w → Vec.elem x.reg e.w i = d.loaded st e k i := by
  induction k with
  | zero => exact ⟨Touched.refl d, rfl, rfl, fun i _ => rfl⟩
  | succ k ih =>
    rw [List.range_succ, List.foldl_append]
    obtain ⟨ht, hfl, hs, hreg⟩ := ih fun i hi => hg i (Nat.lt_succ_of_lt hi)
    generalize (List.range k).foldl (elemStep st e) _ = x at ht hfl hs hreg ⊢
    show let y := elemStep st e x k
      Touched d y.dev ∧ y.flags = .none ∧ y.stop = none ∧
        ∀ i, i < 4096 / e.w → Vec.elem y.reg e.w i = d.loaded st e (k + 1) i
    cases ha : d.activeAt st e k with
    | false =>
      rw [elemStep_of_inactive st e x k (by rw [ht.activeAt, ha])]
      refine ⟨ht, hfl, hs, fun i hi => ?_⟩
      rw [hreg i hi, loaded, loaded]
      by_cases hik : i = k
      · subst hik
        simp [ha]
      · simp [show (i < k + 1) = (i < k) by simp; omega]
    | true =>
      obtain ⟨d', ht', hstep⟩ := elemStep_of_load st e x k hs hist hst (by rw [ht.activeAt, ha])
        (ht.goodAt (hg k (Nat.lt_succ_self k) ha))
      rw [hstep]
      refine ⟨ht.trans ht', hfl, hs, fun i hi => ?_⟩
      rw [Vec.elem_setElem _ _ _ _ _ hi, ht.rdBytes, ht.dpaAt, hreg i hi, loaded, loaded]
      by_cases hik : i = k
      · subst hik
        have hlt : leNat (d.rdBytes (d.dpaAt st e i) (e.w / 8)) < 2 ^ e.w := by
          have h := d.leNat_rdBytes_lt (d.dpaAt st e i) (e.w / 8)
          rwa [e.bytes_mul] at h
        simp [ha, Nat.mod_eq_of_lt hlt]
      · simp [hik, show (i < k + 1) = (i < k) by simp; omega]

end Device

/-- A vector memory instruction ended in a slot: it holds no more and has retired; scalar registers and queue stay. -/
def SlotCtx.finished (c e : SlotCtx) : Prop :=
  e.hold = none ∧ e.vq = c.vq ∧ (∀ r, e.getS r = c.getS r) ∧ (c.endsNoLoop → e.pc = c.pc + 4)

/-- A slot that writes VFLAGS, holds no more and retires. -/
theorem SlotCtx.finished_advance (c e : SlotCtx) (v : W64) (h : e = { c.setCr 0x16 v with hold := none }) :
    c.finished (e.advance 1) := by
  subst h
  refine ⟨SlotCtx.hold_advance .., SlotCtx.vq_advance .., fun r => SlotCtx.getS_advance .., fun hl => ?_⟩
  have hl' : ({ c.setCr 0x16 v with hold := none } : SlotCtx).endsNoLoop := by
    simpa only [endsNoLoop, getCr, setCr, vget, vset, Vector.getElem?_setIfInBounds_ne (show (0x16 : Nat) ≠ 0x3C by decide),
      Vector.getElem?_setIfInBounds_ne (show (0x16 : Nat) ≠ 0x3D by decide)] using hl
  rw [SlotCtx.advance_plain _ _ hl']
  rfl

/-- What the end of a load makes of its slot before it retires: the hold ends, and a first-fault load clears FF_TRIMMED. -/
def VecEntry.loadDone (e : VecEntry) (c : SlotCtx) : SlotCtx :=
  match e.kind with
  | .first _ => { c.setCr 0x16 (clearBit (c.getCr 0x16) 0) with hold := none }
  | _ => { c with hold := none }

theorem VecEntry.finished_loadDone (e : VecEntry) (c : SlotCtx) : c.finished ((e.loadDone c).advance 1) := by
  unfold loadDone
  split
  · exact SlotCtx.finished_advance c _ _ rfl
  · exact SlotCtx.finished_advance c _ (c.getCr 0x16) (by rw [SlotCtx.setCr_getCr])

namespace Device

theorem vBad_touched {d x : Device} (h : Touched d x) (st : StallId) (r : VReg) (y : VReg4096) (f : SlotCtx → SlotCtx)
    (hbad : (d.stall st).vBad = []) : (((x.setVreg st r y).modCur st f).stall st).vBad = [] := by
  rw [stall_modCur, Stall.setCtx_vBad, setVreg, stall_modStall_same, h.stall]
  exact hbad

/-- A walk that raised no flag leaves its register in vd. -/
theorem memElems_of_load (d : Device) (st : StallId) (e : VecEntry) (hi : Nat) (hst : e.stores = false) :
    let x := (List.range hi).foldl (elemStep st e) ⟨d, d.vreg st e.v.vd, [], .none, none⟩
    x.flags = .none →
      d.memElems st e hi = ((x.dev.setVreg st e.v.vd x.reg).modCur st fun c => c.addVectorFlags .none, x.stop) := by
  intro x hfl
  have hy : (if e.stores then x.dev else x.dev.setVreg st e.v.vd x.reg) = x.dev.setVreg st e.v.vd x.reg :=
    if_neg (by simp [hst])
  change ((if e.stores then x.dev else x.dev.setVreg st e.v.vd x.reg).modCur st fun c => c.addVectorFlags x.flags, x.stop) = _
  rw [hy, hfl]

/-- A load whose active elements are good executes to its end. -/
theorem execEntry_of_load (d : Device) (st : StallId) (e : VecEntry) (rest : List VecEntry) (hbad : (d.stall st).vBad = [])
    (hn : e.n ≠ 0) (hm : e.memory = true) (hist : e.kind ≠ .hist) (hst : e.stores = false)
    (hg : ∀ i, d.activeAt st e i = true → d.goodAt st e i) :
    ∃ x reg f, Touched d x ∧ (∀ i, i < 4096 / e.w → Vec.elem reg e.w i = d.loaded st e e.n i) ∧
      d.execEntry st e rest = ((x.setVreg st e.v.vd reg).modCur st f, true) ∧ ∀ c, SlotCtx.finished c (f c) := by
  have hset : e.kind ≠ .setvl := fun h => by simp [VecEntry.memory, h] at hm
  obtain ⟨ht, hfl, hs, hreg⟩ := d.walk_of_load st e hist hst e.n fun i _ => hg i
  have hmem := d.memElems_of_load st e e.n hst hfl
  rw [hs] at hmem
  generalize (List.range e.n).foldl (elemStep st e) ⟨d, d.vreg st e.v.vd, [], .none, none⟩ = x at ht hreg hmem
  refine ⟨x.dev, x.reg, fun c => (e.loadDone c).advance 1, ht, hreg, ?_, e.finished_loadDone⟩
  · unfold execEntry
    rw [d.parityFault_none st e hbad]
    dsimp only
    rw [if_neg hset, if_neg hn, if_neg (by simp [hm]), hmem]
    refine congrArg (·, true) ?_
    have hy : (match e.kind with
        | .first _ => (((x.dev.setVreg st e.v.vd x.reg).modCur st fun c => c.addVectorFlags .none).modCur st fun c =>
          { c with hold := none }).modCur st fun c => c.setCr 0x16 (clearBit (c.getCr 0x16) 0)
        | _ => ((x.dev.setVreg st e.v.vd x.reg).modCur st fun c => c.addVectorFlags .none).modCur st fun c =>
          { c with hold := none }) = (x.dev.setVreg st e.v.vd x.reg).modCur st e.loadDone := by
      unfold VecEntry.loadDone
      split <;> simp only [modCur_modCur, SlotCtx.addVectorFlags_none]
      rfl
    refine (congrArg (fun y => (renew y st e _).retire st 1) hy).trans ?_
    rw [renew_of_good _ _ _ _ (vBad_touched ht st _ _ _ hbad), retire, modCur_modCur]

end Device

end Sys2Proof.Machine
end

section
/-! Loft loads as instructions (R160, R168): from issue to retirement. -/

namespace Sys2Proof.Machine

namespace Device

section
variable (d : Device) (st : StallId) (e : VecEntry) (f : SlotCtx → SlotCtx)

theorem elemAddr_modCur (i : Nat) : (d.modCur st f).elemAddr st e i = d.elemAddr st e i := by
  simp only [elemAddr, vreg_modCur]

theorem staticFault_modCur (a : Nat) : (d.modCur st f).staticFault st e a = d.staticFault st e a := by
  rw [staticFault, slotOf_modCur]
  rfl

theorem elemDpa_modCur (a : Nat) : (d.modCur st f).elemDpa st e a = d.elemDpa st e a := by
  rw [elemDpa, loftAt, slotOf_modCur]
  rfl

theorem dpaAt_modCur (i : Nat) : (d.modCur st f).dpaAt st e i = d.dpaAt st e i := by
  rw [dpaAt, elemAddr_modCur, elemDpa_modCur, dpaAt]

theorem goodAt_modCur {i : Nat} (h : d.goodAt st e i) : (d.modCur st f).goodAt st e i := by
  obtain ⟨hf, hr⟩ := h
  refine ⟨by rw [elemAddr_modCur, staticFault_modCur, hf], ?_⟩
  rw [dpaAt_modCur]
  exact hr

variable (hk : (f (d.cur st)).k = (d.cur st).k)
include hk

theorem activeAt_modCur (i : Nat) : (d.modCur st f).activeAt st e i = d.activeAt st e i := by
  rw [activeAt, d.kreg_of_k st (by rw [cur_modCur, hk]), activeAt]

theorem loaded_modCur (k i : Nat) : (d.modCur st f).loaded st e k i = d.loaded st e k i := by
  rw [loaded, activeAt_modCur _ _ _ _ hk, dpaAt_modCur, vreg_modCur]
  rfl

end

/-- Every active element of an entry is below its count. -/
theorem loaded_all (d : Device) (st : StallId) (e : VecEntry) (i : Nat) : d.loaded st e e.n i =
    if d.activeAt st e i then leNat (d.rdBytes (d.dpaAt st e i) (e.w / 8)) else Vec.elem (d.vreg st e.v.vd) e.w i := by
  rw [loaded]
  cases ha : d.activeAt st e i with
  | false => simp
  | true => simp [d.activeAt_lt st ha]

/-- The device as it executes a memory entry that was placed in an empty queue: the groom holds for it. -/
def held (d : Device) (st : StallId) : Device := d.modCur st fun c => { c with vq := [], hold := some .vector }

theorem activeAt_held (d : Device) (st : StallId) (e : VecEntry) (i : Nat) : (d.held st).activeAt st e i = d.activeAt st e i :=
  d.activeAt_modCur st e (fun c => { c with vq := [], hold := some .vector }) rfl i

/-- The elements of a loft form lie in the loft. -/
theorem dpaAt_loft (d : Device) (st : StallId) (e : VecEntry) (hlp6 : e.lp6 = false) (i : Nat) :
    d.dpaAt st e i = d.loftAt st (d.elemAddr st e i) := if_neg (by simp [hlp6])

/-- An element of a loft form that does not fault, over a sound unit, is good under the hold too. -/
theorem goodAt_held (d : Device) (st : StallId) (e : VecEntry) (hlp6 : e.lp6 = false) {i : Nat}
    (h : d.staticFault st e (d.elemAddr st e i) = none ∧ unitOf (d.loftAt st (d.elemAddr st e i)) ∉ d.bad) :
    (d.held st).goodAt st e i := by
  obtain ⟨hf, hb⟩ := h
  refine d.goodAt_modCur st e _ ⟨hf, ?_⟩
  rw [d.dpaAt_loft st e hlp6]
  exact ⟨hb, fun h => absurd h (Nat.not_lt.mpr (d.loftBase_le_unitOf_loftAt st _))⟩

theorem modCur_enqueue_memory (d : Device) (st : StallId) (e : VecEntry) (hm : e.memory = true) :
    ((d.enqueue st e).modCur st fun c => { c with vq := [] }) = d.held st := by
  have he : d.enqueue st e = (d.modCur st fun c => { c with vq := c.vq ++ [e] }).modCur st fun c =>
    { c with hold := some .vector } := if_pos hm
  simp only [he, modCur_modCur]
  rfl

/-- A memory entry with no elements ends its hold and retires. -/
theorem execEntry_of_memory_empty (d : Device) (st : StallId) (e : VecEntry) (rest : List VecEntry)
    (hbad : (d.stall st).vBad = []) (hm : e.memory = true) (hn : e.n = 0) :
    d.execEntry st e rest = ((d.modCur st fun c => { c with hold := none }).retire st 1, true) := by
  have hset : e.kind ≠ .setvl := fun h => by simp [VecEntry.memory, h] at hm
  unfold execEntry
  rw [d.parityFault_none st e hbad]
  dsimp only
  rw [if_neg hset, if_pos hn, if_pos hm]

end Device

section
variable {s : State} {st : StallId} {kind : VecKind} {v : VFormat} {i : Instr} {word : W32}
variable (he : exec i s = .next (s.onDev fun d => d.vectorIssue st kind v word))
  (hm : (s.dev.capture st kind v).memory = true) (hlp6 : (s.dev.capture st kind v).lp6 = false)
include he hm hlp6

/-- A loft memory instruction of an idle unit executes as it issues, under the hold; the queue goes on where its fault allows. -/
theorem exec_of_memory_result {r : Device × Bool} (hr : s.vectorReady st (s.dev.capture st kind v))
    (hx : (s.dev.held st).execEntry st (s.dev.capture st kind v) [] = r) :
    exec i s = .next (s.onDev fun _ => if r.2 then Device.drainQueue st 3 r.1 else r.1) := by
  have hrun := onDev_vectorIssue word hr
  obtain ⟨-, hgate, hq, -⟩ := hr
  refine he.trans (congrArg Host.Outcome.next (hrun.trans (onDev_congr ?_)))
  have hg : ((s.dev.enqueue st (s.dev.capture st kind v)).stall st).gate = .awake := by
    rw [Device.stall_enqueue, Stall.setCtx_gate, hgate]
  rw [Device.drainQueue_of_single _ st 3 (s.dev.capture st kind v) hg (by rw [Device.vq_enqueue, hq]; rfl) hlp6,
    s.dev.modCur_enqueue_memory st _ hm, hx]

/-- One that ends retires, and the queue is empty again. -/
theorem exec_of_memory {d : Device} (hr : s.vectorReady st (s.dev.capture st kind v))
    (hx : (s.dev.held st).execEntry st (s.dev.capture st kind v) [] = (d, true)) (hd : (d.cur st).vq = []) :
    exec i s = .next (s.onDev fun _ => d) :=
  (exec_of_memory_result he hm hlp6 hr hx).trans (congrArg Host.Outcome.next
    (onDev_congr ((if_pos rfl).trans (d.drainQueue_of_empty st 3 hd))))

omit he hm hlp6 in
theorem vBad_held (hr : s.vectorReady st (s.dev.capture st kind v)) : ((s.dev.held st).stall st).vBad = [] := by
  obtain ⟨-, -, -, hbad, -⟩ := hr
  rw [Device.held, Device.stall_modCur, Stall.setCtx_vBad, hbad]

/-- With no elements a memory instruction only retires. -/
theorem completes_of_memory_empty (hr : s.vectorReady st (s.dev.capture st kind v)) (hn : (s.dev.capture st kind v).n = 0) :
    Completes i s (s.onlyRetired st 1) := by
  have hx := (s.dev.held st).execEntry_of_memory_empty st _ [] (vBad_held hr) hm hn
  have hd : ((s.dev.held st).modCur st fun c => { c with hold := none }).retire st 1 = s.dev.retire st 1 := by
    obtain ⟨⟨hready, -⟩, -, hq, -⟩ := hr
    have hhold : (s.dev.cur st).hold = none := by
      have h := (Bool.and_eq_true_iff.mp hready).2
      exact Option.isNone_iff_eq_none.mp h
    have hc : ({ s.dev.cur st with vq := [], hold := none } : SlotCtx) = s.dev.cur st := by
      rw [← hq, ← hhold]
    simp only [Device.held, Device.retire, Device.modCur_modCur]
    exact s.dev.modCur_congr st (congrArg (SlotCtx.advance · 1) hc)
  rw [hd] at hx
  have hq : ((s.dev.retire st 1).cur st).vq = [] := by
    obtain ⟨-, -, hq, -⟩ := hr
    rw [Device.cur_retire, SlotCtx.vq_advance, hq]
  exact ⟨_, exec_of_memory he hm hlp6 hr hx hq, onlyRetired_retire s st 1⟩

end

/-- Settles O25: a loft load walks its good elements and takes the bytes at their addresses. -/
theorem vectorLoftLoads : Obligations.VectorLoftLoads := by
  intro st v s w loads
  have run {i : Instr} {kind : VecKind} {word : W32}
      (he : exec i s = .next (s.onDev fun d => d.vectorIssue st kind v word))
      (hm : (s.dev.capture st kind v).memory = true) (hlp6 : (s.dev.capture st kind v).lp6 = false)
      (hist : kind ≠ .hist) (hst : (s.dev.capture st kind v).stores = false) : loads i kind := by
    intro hr
    let e := s.dev.capture st kind v
    refine ⟨completes_of_memory_empty he hm hlp6 hr, fun hn hgood => ?_⟩
    have hk : (({ s.dev.cur st with vq := [], hold := some .vector } : SlotCtx)).k = (s.dev.cur st).k := rfl
    have hg (j : Nat) (hj : (s.dev.held st).activeAt st e j = true) : (s.dev.held st).goodAt st e j :=
      s.dev.goodAt_held st e hlp6 (hgood j ((s.dev.activeAt_held st e j).symm.trans hj))
    obtain ⟨x, reg, f, ht, hreg, hx, hf⟩ :=
      (s.dev.held st).execEntry_of_load st e [] (vBad_held hr) hn hm hist hst hg
    have hx : (s.dev.held st).execEntry st e [] = ((x.setVreg st v.vd reg).modCur st f, true) := hx
    have hcur : ((x.setVreg st v.vd reg).modCur st f).cur st = f { s.dev.cur st with vq := [], hold := some .vector } := by
      rw [Device.cur_modCur, Device.cur_setVreg, ht.cur, Device.held, Device.cur_modCur]
    obtain ⟨hhold, hvq, hs, hpc⟩ := hf { s.dev.cur st with vq := [], hold := some .vector }
    have hvreg (q : VReg) : ((x.setVreg st v.vd reg).modCur st f).vreg st q = if q = v.vd then reg else s.dev.vreg st q := by
      rw [Device.vreg_modCur, Device.vreg_setVreg, ht.vreg, Device.held, Device.vreg_modCur]
    refine ⟨_, exec_of_memory he hm hlp6 hr hx (by rw [hcur, hvq]), fun j hj => ?_, fun q hq => ?_, fun r => ?_, fun a => ?_,
      ?_, ?_, fun hl => ?_⟩
    · rw [State.onDev_dev, hvreg, if_pos rfl]
      refine (hreg j hj).trans ?_
      rw [Device.held, Device.loaded_modCur _ _ _ _ hk, Device.loaded_all, s.dev.dpaAt_loft st e hlp6]
      rfl
    · rw [State.onDev_dev, hvreg, if_neg hq]
    · rw [State.onDev_dev, Device.sreg, hcur, hs]
      rfl
    · rw [State.onDev_dev]
      exact (ht.rdByte a).trans (s.dev.rdByte_modCur st _ a)
    · rw [State.onDev_dev, hcur, hhold]
    · rw [State.onDev_dev, hcur, hvq]
    · rw [State.onDev_dev, hcur, hpc hl]
  exact ⟨run rfl rfl rfl (by simp) rfl, run rfl rfl rfl (by simp) rfl, run rfl rfl rfl (by simp) rfl,
    run rfl rfl rfl (by simp) rfl, run rfl rfl rfl (by simp) rfl, run rfl rfl rfl (by simp) rfl,
    run rfl rfl rfl (by simp) rfl⟩

end Sys2Proof.Machine
end

section
/-! Element faults and first-fault trimming (R168, R169, R173): a walk that stops at its first faulting element. -/

namespace Sys2Proof.Machine

namespace Device

/-- Once an element has faulted, the walk goes no further. -/
theorem elemStep_of_stopped (st : StallId) (e : VecEntry) (x : VecWalk) (i : Nat) (h : x.stop.isSome = true) :
    elemStep st e x i = x := by
  unfold elemStep
  exact if_pos (by simp [h])

theorem foldl_elemStep_of_stopped (st : StallId) (e : VecEntry) (x : VecWalk) (l : List Nat) (h : x.stop.isSome = true) :
    l.foldl (elemStep st e) x = x := by
  induction l with
  | nil => rfl
  | cons i t ih => rw [List.foldl_cons, elemStep_of_stopped st e x i h, ih]

/-- An active element whose address faults stops the walk. -/
theorem elemStep_of_fault (st : StallId) (e : VecEntry) (x : VecWalk) (i : Nat) (c : Code) (hs : x.stop = none)
    (ha : x.dev.activeAt st e i = true) (hf : x.dev.staticFault st e (x.dev.elemAddr st e i) = some c) :
    elemStep st e x i = { x with stop := some (i, c, x.dev.elemAddr st e i) } := by
  unfold elemStep
  extract_lets d a
  rw [if_neg (by simp [hs, d, ha]), show d.staticFault st e a = some c from hf]

theorem range_split {f n : Nat} (h : f < n) : List.range n = List.range f ++ (f :: List.range' (f + 1) (n - f - 1)) := by
  have h2 := List.range'_append_1 (s := 0) (m := f) (n := n - f - 1 + 1)
  rw [Nat.zero_add] at h2
  rw [List.range_eq_range', List.range_eq_range', ← List.range'_succ, h2]
  congr 1
  omega

/-- The walk of a load whose element f is the first to fault. -/
theorem walk_of_fault (d : Device) (st : StallId) (e : VecEntry) (f : Nat) (c : Code) (hist : e.kind ≠ .hist)
    (hst : e.stores = false) (hg : ∀ i, i < f → d.activeAt st e i = true → d.goodAt st e i)
    (ha : d.activeAt st e f = true) (hf : d.staticFault st e (d.elemAddr st e f) = some c) :
    let x := (List.range e.n).foldl (elemStep st e) ⟨d, d.vreg st e.v.vd, [], .none, none⟩
    Touched d x.dev ∧ x.flags = .none ∧ x.stop = some (f, c, d.elemAddr st e f) ∧
      ∀ i, i < 4096 / e.w → Vec.elem x.reg e.w i = d.loaded st e f i := by
  rw [range_split (d.activeAt_lt st ha), List.foldl_append, List.foldl_cons]
  obtain ⟨ht, hfl, hs, hreg⟩ := d.walk_of_load st e hist hst f hg
  generalize (List.range f).foldl (elemStep st e) _ = x at ht hfl hs hreg ⊢
  rw [elemStep_of_fault st e x f c hs (by rw [ht.activeAt, ha]) (by rw [ht.elemAddr, ht.staticFault, hf]),
    foldl_elemStep_of_stopped st e _ _ rfl, ht.elemAddr]
  exact ⟨ht, hfl, rfl, hreg⟩

/-- What a load whose element f faulted first leaves before its fault is taken: the elements below f are loaded. -/
theorem execEntry_of_fault (d : Device) (st : StallId) (e : VecEntry) (rest : List VecEntry) (f : Nat) (c : Code)
    (hbad : (d.stall st).vBad = []) (hm : e.memory = true) (hlp6 : e.lp6 = false) (hist : e.kind ≠ .hist)
    (hst : e.stores = false) (hg : ∀ i, i < f → d.activeAt st e i = true → d.goodAt st e i)
    (ha : d.activeAt st e f = true) (hf : d.staticFault st e (d.elemAddr st e f) = some c) :
    ∃ x reg, Touched d x ∧ (∀ i, i < 4096 / e.w → Vec.elem reg e.w i = d.loaded st e f i) ∧
      let y := (x.setVreg st e.v.vd reg).modCur st fun c => { c with hold := none }
      d.execEntry st e rest = if (match e.kind with | .first _ => decide (0 < f) | _ => false) then
          (((y.modCur st fun c => c.setCr 0x16 (setBit (c.getCr 0x16) 0)).setVectorCr st 0x10
            (BitVec.ofNat 64 f)).retire st 1, true)
        else
          (((y.recordStop st f c 1 false).modCur st fun c => c.setCr 0x16 (setBit (c.getCr 0x16) 1)).raise st 8
            Status.vecElementFault (BitVec.ofNat 64 (d.elemAddr st e f)), false) := by
  have hset : e.kind ≠ .setvl := fun h => by simp [VecEntry.memory, h] at hm
  have hn : e.n ≠ 0 := Nat.ne_zero_of_lt (d.activeAt_lt st ha)
  obtain ⟨ht, hfl, hs, hreg⟩ := d.walk_of_fault st e f c hist hst hg ha hf
  have hmem := d.memElems_of_load st e e.n hst hfl
  rw [hs] at hmem
  generalize (List.range e.n).foldl (elemStep st e) ⟨d, d.vreg st e.v.vd, [], .none, none⟩ = x at ht hreg hmem
  refine ⟨x.dev, x.reg, ht, hreg, ?_⟩
  unfold execEntry
  rw [d.parityFault_none st e hbad]
  dsimp only
  rw [if_neg hset, if_neg hn, if_neg (by simp [hm]), hmem]
  dsimp only
  rw [renew_of_good _ _ _ _ (by
    rw [modCur_modCur]
    exact vBad_touched ht st _ _ _ hbad), hlp6]
  simp only [modCur_modCur, SlotCtx.addVectorFlags_none, Bool.false_and, Bool.false_eq_true, if_false] <;> rfl

end Device

namespace Device

/-- VFAULT_IDX holds an active element's number whole: masks have 512 bits. -/
theorem activeAt_lt_512 {d : Device} {st : StallId} {e : VecEntry} {i : Nat} (h : d.activeAt st e i = true) : i < 512 := by
  rw [activeAt] at h
  exact BitVec.lt_of_getLsbD (Bool.and_eq_true_iff.mp h).2

/-- The slot after a stop was recorded. -/
theorem cur_recordStop (d : Device) (st : StallId) (f : Nat) (code : Code) (source : Nat) (switch : Bool) :
    (d.recordStop st f code source switch).cur st = ((d.cur st).setCr 0x14 (BitVec.ofNat 64 (f % 512))).setCr 0x15
      (BitVec.ofNat 64 (code.toNat * 2 ^ 16 + source * 2 ^ 8 + b2n switch)) := by
  unfold recordStop
  rw [(quiet_record _ _ _).cur]
  simp only [setVectorCr, cur_modCur]

theorem staticFault_above {d : Device} {st : StallId} {e : VecEntry} {a : Nat} (hlp6 : e.lp6 = false)
    (h : d.loftLimit st (d.slotOf st) ≤ a) : d.staticFault st e a = some Status.loftAddressFault := by
  rw [staticFault, if_neg (by simp [hlp6]), if_pos h]

end Device

section
variable {s : State} {st : StallId} {kind : VecKind} {v : VFormat} {f : Nat}
variable (hm : (s.dev.capture st kind v).memory = true) (hlp6 : (s.dev.capture st kind v).lp6 = false)
  (hist : kind ≠ .hist) (hst : (s.dev.capture st kind v).stores = false)
  (hr : s.vectorReady st (s.dev.capture st kind v)) (ha : s.dev.activeAt st (s.dev.capture st kind v) f = true)
  (hlim : s.dev.loftLimit st (s.dev.slotOf st) ≤ s.dev.elemAddr st (s.dev.capture st kind v) f)
  (hgood : ∀ i, i < f → s.dev.activeAt st (s.dev.capture st kind v) i = true →
    s.dev.staticFault st (s.dev.capture st kind v) (s.dev.elemAddr st (s.dev.capture st kind v) i) = none ∧
      unitOf (s.dev.loftAt st (s.dev.elemAddr st (s.dev.capture st kind v) i)) ∉ s.dev.bad)
include hm hlp6 hist hst hr ha hlim hgood

/-- The result of a loft load whose element f is the first to fault, at or above LOFT_LIMIT. -/
theorem execEntry_of_limit :
    ∃ x reg, Device.Touched (s.dev.held st) x ∧
      (∀ i, i < 4096 / (s.dev.capture st kind v).w → Vec.elem reg (s.dev.capture st kind v).w i =
        (s.dev.held st).loaded st (s.dev.capture st kind v) f i) ∧
      let y := (x.setVreg st v.vd reg).modCur st fun c => { c with hold := none }
      (s.dev.held st).execEntry st (s.dev.capture st kind v) [] =
        if (match kind with | .first _ => decide (0 < f) | _ => false) then
          (((y.modCur st fun c => c.setCr 0x16 (setBit (c.getCr 0x16) 0)).setVectorCr st 0x10
            (BitVec.ofNat 64 f)).retire st 1, true)
        else
          (((y.recordStop st f Status.loftAddressFault 1 false).modCur st fun c => c.setCr 0x16 (setBit (c.getCr 0x16) 1)).raise
            st 8 Status.vecElementFault (BitVec.ofNat 64 (s.dev.elemAddr st (s.dev.capture st kind v) f)), false) := by
  have haddr := s.dev.elemAddr_modCur st (s.dev.capture st kind v) (fun c => { c with vq := [], hold := some .vector }) f
  have hf : (s.dev.held st).staticFault st (s.dev.capture st kind v) ((s.dev.held st).elemAddr st (s.dev.capture st kind v) f) =
      some Status.loftAddressFault := by
    rw [Device.held, haddr, Device.staticFault_modCur, Device.staticFault_above hlp6 hlim]
  rw [← haddr]
  exact (s.dev.held st).execEntry_of_fault st (s.dev.capture st kind v) [] f _ (vBad_held hr) hm hlp6 hist hst
    (fun i hi h => s.dev.goodAt_held st _ hlp6 (hgood i hi ((s.dev.activeAt_held st _ i).symm.trans h)))
    ((s.dev.activeAt_held st _ f).trans ha) hf

end

/-- What a first-fault load whose element f faulted makes of its slot before it retires: LEN becomes f. -/
def SlotCtx.trimmed (f : Nat) (c : SlotCtx) : SlotCtx :=
  (({ c with hold := none }).setCr 0x16 (setBit (({ c with hold := none } : SlotCtx).getCr 0x16) 0)).setCr 0x10
    (BitVec.ofNat 64 f)

theorem SlotCtx.getCr_trimmed (c : SlotCtx) (f n : Nat) (h1 : n ≠ 0x16) (h2 : n ≠ 0x10) :
    (c.trimmed f).getCr n = c.getCr n := by
  rw [trimmed, getCr_setCr_ne _ _ _ _ h2, getCr_setCr_ne _ _ _ _ h1]
  rfl

/-- An exception outside a handler enters it. -/
theorem cur_raise (d : Device) (st : StallId) (cause : Nat) (code : Code) (info : W64)
    (h : flag ((d.cur st).getCr 0x01) 0 = false) : (d.raise st cause code info).cur st = (d.cur st).enter cause code info := by
  rw [Device.raise, if_neg (by simp [h]), (Device.quiet_record _ _ _).cur, Device.cur_modCur]

/-- A load that stops at element f has taken VEC_ELEMENT: VFAULT_IDX, VFAULT_CAUSE and RESUME are written, and the handler
runs. -/
theorem entered_of_stop (d : Device) (st : StallId) (f : Nat) (code : Code) (info : W64) (hf : f < 512)
    (h : flag ((d.cur st).getCr 0x01) 0 = false) :
    let e := (((d.recordStop st f code 1 false).modCur st fun c => c.setCr 0x16 (setBit (c.getCr 0x16) 1)).raise
      st 8 Status.vecElementFault info).cur st
    e.getCr 0x14 = BitVec.ofNat 64 f ∧ e.getCr 0x15 = BitVec.ofNat 64 (code.toNat * 2 ^ 16 + 0x100) ∧
      flag (e.getCr 0x16) 1 = true ∧ flag (e.getCr 0x01) 0 = true ∧ e.getCr 0x06 = (d.cur st).pc.setWidth 64 ∧
      e.getCr 0x07 = BitVec.ofNat 64 (Status.vecElementFault.toNat * 2 ^ 16 + 8) ∧ e.getCr 0x08 = info := by
  intro e
  let c := ((d.cur st).setCr 0x14 (BitVec.ofNat 64 (f % 512))).setCr 0x15
    (BitVec.ofNat 64 (code.toNat * 2 ^ 16 + 1 * 2 ^ 8 + b2n false))
  let c' := c.setCr 0x16 (setBit (c.getCr 0x16) 1)
  have h1 : c'.getCr 0x01 = (d.cur st).getCr 0x01 := by
    rw [SlotCtx.getCr_setCr_ne _ _ _ _ (by decide), SlotCtx.getCr_setCr_ne _ _ _ _ (by decide),
      SlotCtx.getCr_setCr_ne _ _ _ _ (by decide)]
  have he : e = c'.enter 8 Status.vecElementFault info := by
    have hcur : ((d.recordStop st f code 1 false).modCur st fun c => c.setCr 0x16 (setBit (c.getCr 0x16) 1)).cur st = c' := by
      rw [Device.cur_modCur, d.cur_recordStop]
    rw [← hcur]
    exact cur_raise _ _ _ _ _ (by rw [hcur, h1, h])
  obtain ⟨-, -, hpc, hcause, hinfo, hact, hrest⟩ := entered_enter c' 8 Status.vecElementFault info
  rw [he]
  refine ⟨?_, ?_, ?_, ?_, hpc, hcause, hinfo⟩
  · rw [hrest _ (by decide) (by decide) (by decide) (by decide), SlotCtx.getCr_setCr_ne _ _ _ _ (by decide),
      SlotCtx.getCr_setCr_ne _ _ _ _ (by decide), SlotCtx.getCr_setCr_same _ _ _ (by decide), Nat.mod_eq_of_lt hf]
  · rw [hrest _ (by decide) (by decide) (by decide) (by decide), SlotCtx.getCr_setCr_ne _ _ _ _ (by decide),
      SlotCtx.getCr_setCr_same _ _ _ (by decide)]
    simp [b2n]
  · rw [hrest _ (by decide) (by decide) (by decide) (by decide), SlotCtx.getCr_setCr_same _ _ _ (by decide), flag_setBit]
    simp
  · rw [hact]
    simp [flag]

/-- A loft load that takes its fault ends the execution of the queue. -/
theorem exec_of_memory_stopped {s : State} {st : StallId} {kind : VecKind} {v : VFormat} {i : Instr} {word : W32} {d : Device}
    (he : exec i s = .next (s.onDev fun d => d.vectorIssue st kind v word)) (hm : (s.dev.capture st kind v).memory = true)
    (hlp6 : (s.dev.capture st kind v).lp6 = false) (hr : s.vectorReady st (s.dev.capture st kind v))
    (hx : (s.dev.held st).execEntry st (s.dev.capture st kind v) [] = (d, false)) : exec i s = .next (s.onDev fun _ => d) :=
  (exec_of_memory_result he hm hlp6 hr hx).trans (congrArg Host.Outcome.next (onDev_congr (if_neg (by simp))))

/-- Settles O29: the walk stops at the first element at or above LOFT_LIMIT, and the elements below it are loaded. -/
theorem vectorElementFault : Obligations.VectorElementFault := by
  intro st v s f at_
  have hheld : (s.dev.held st).cur st = { s.dev.cur st with vq := [], hold := some .vector } := Device.cur_modCur ..
  constructor
  · intro e ⟨hr, ha, hlim, hgood⟩ hact
    obtain ⟨x, reg, ht, -, hx⟩ := execEntry_of_limit rfl rfl (by simp) rfl hr ha hlim hgood
    have hx := Eq.trans hx (if_neg (by simp))
    refine ⟨_, exec_of_memory_stopped rfl rfl rfl hr hx, ?_⟩
    have hcur : ((x.setVreg st v.vd reg).modCur st fun c => { c with hold := none }).cur st =
        { s.dev.cur st with vq := [], hold := none } := by
      rw [Device.cur_modCur, Device.cur_setVreg, ht.cur, hheld]
    have h := entered_of_stop ((x.setVreg st v.vd reg).modCur st fun c => { c with hold := none }) st f Status.loftAddressFault
      (BitVec.ofNat 64 (s.dev.elemAddr st e f)) (Device.activeAt_lt_512 ha) (by rw [hcur]; exact hact)
    rw [hcur] at h
    exact h
  · intro e ⟨hr, ha, hlim, hgood⟩ hf0
    obtain ⟨x, reg, ht, hreg, hx⟩ := execEntry_of_limit rfl rfl (by simp) rfl hr ha hlim hgood
    have hx := Eq.trans hx (if_pos (by simp [Nat.pos_of_ne_zero hf0]))
    simp only [Device.setVectorCr, Device.retire, Device.modCur_modCur] at hx
    have hcur : ((x.setVreg st v.vd reg).modCur st fun c => (c.trimmed f).advance 1).cur st =
        (({ s.dev.cur st with vq := [], hold := some .vector } : SlotCtx).trimmed f).advance 1 := by
      rw [Device.cur_modCur, Device.cur_setVreg, ht.cur, hheld]
    refine ⟨s.onDev fun _ => (x.setVreg st v.vd reg).modCur st fun c => (c.trimmed f).advance 1,
      exec_of_memory rfl rfl rfl hr hx (by rw [hcur, SlotCtx.vq_advance]; rfl), ?_, ?_, ?_, fun j hfj hj => ?_⟩
    · rw [State.onDev_dev, hcur, SlotCtx.getCr_advance _ _ _ (by decide) (by decide), SlotCtx.trimmed,
        SlotCtx.getCr_setCr_same _ _ _ (by decide)]
    · rw [State.onDev_dev, hcur, SlotCtx.getCr_advance _ _ _ (by decide) (by decide), SlotCtx.trimmed,
        SlotCtx.getCr_setCr_ne _ _ _ _ (by decide), SlotCtx.getCr_setCr_same _ _ _ (by decide), flag_setBit]
      simp
    · rw [State.onDev_dev, hcur, SlotCtx.getCr_advance _ _ _ (by decide) (by decide),
        SlotCtx.getCr_trimmed _ _ _ (by decide) (by decide)]
      rfl
    · rw [State.onDev_dev, Device.vreg_modCur, Device.vreg_setVreg, if_pos rfl]
      refine (hreg j hj).trans ?_
      rw [Device.loaded, if_neg (by simp; omega), Device.held, Device.vreg_modCur]
      rfl

end Sys2Proof.Machine
end

section
/-! Vector stores, scatters and VHADD (R160, R163, R164): the walk over good elements leaves at each address what its elements
put there, in ascending order. -/

namespace Sys2Proof.Machine

namespace Device

/-! ### Bytes written and read back -/

theorem rdBytes_wrBytes_same (d : Device) (p : Nat) (l : List Byte) : (d.wrBytes p l).rdBytes p l.length = l := by
  refine List.ext_getElem (by simp) fun j h1 h2 => ?_
  simp only [rdBytes, List.getElem_map, List.getElem_range]
  exact d.rdByte_wrBytes_in p j l h2

theorem rdBytes_wrBytes_out (d : Device) (p q n : Nat) (l : List Byte) (h : q + n ≤ p ∨ p + l.length ≤ q) :
    (d.wrBytes p l).rdBytes q n = d.rdBytes q n := by
  refine List.map_congr_left fun j hj => ?_
  have := List.mem_range.mp hj
  exact d.rdByte_wrBytes_out p (q + j) l (by omega)

theorem length_leBytes (k n : Nat) : (leBytes k n).length = k := by
  induction k generalizing n with
  | zero => rfl
  | succ k ih => rw [leBytes, List.length_cons, ih]

/-! ### Devices that differ in memory -/

/-- e is d but for bytes of memory, corrected errors, counters and the batches of the controllers. -/
def Stored (d e : Device) : Prop := Touched { d with mem := e.mem } e

namespace Stored

theorem refl (d : Device) : Stored d d := Touched.refl d

section
variable {d e : Device} (h : Stored d e) {st : StallId} {x : VecEntry} {i : Nat}
include h

theorem write {y : Device} (k : Touched e y) (p : Nat) (l : List Byte) : Stored d (y.wrBytes p l) := by
  have hy : Touched { d with mem := e.mem } y := Touched.trans h k
  refine ⟨?_, fun st => ?_⟩
  · rw [wrBytes_only, hy.1]
  · rw [wrBytes_only]
    exact hy.2 st

theorem vreg (r : VReg) : e.vreg st r = d.vreg st r := Touched.vreg h st r
theorem activeAt : e.activeAt st x i = d.activeAt st x i := Touched.activeAt h st x i
theorem elemAddr : e.elemAddr st x i = d.elemAddr st x i := Touched.elemAddr h st x i
theorem dpaAt : e.dpaAt st x i = d.dpaAt st x i := Touched.dpaAt h st x i
theorem goodAt (hg : d.goodAt st x i) : e.goodAt st x i := Touched.goodAt h hg
theorem unarmed (hi : d.tally.armed = false) : e.tally.armed = false := by rw [Touched.tally h, hi]

end

end Stored

/-! ### What an element puts at its address -/

/-- What element i of a storing entry leaves where the number n was: its w bits, or for VHADD their sum with n. -/
def put (d : Device) (st : StallId) (e : VecEntry) (n i : Nat) : Nat :=
  if e.kind = .hist then (Vec.combine 0 e.t e.modeF n (Vec.elem (d.vreg st e.v.va) e.w i)).1 % 2 ^ e.w
  else Vec.elem (d.vreg st e.v.vd) e.w i

section
variable (st : StallId) (e : VecEntry) (x : VecWalk) (i : Nat) (hs : x.stop = none) (hi : x.dev.tally.armed = false)
  (ha : x.dev.activeAt st e i = true) (hg : x.dev.goodAt st e i)
include hs hi ha hg

/-- A good element of VHADD is added to the number at its address. -/
theorem elemStep_of_hist (hist : e.kind = .hist) :
    ∃ y l fl, Touched x.dev y ∧ l.length = e.w / 8 ∧
      leNat l = x.dev.put st e (leNat (x.dev.rdBytes (x.dev.dpaAt st e i) (e.w / 8))) i ∧
      elemStep st e x i = { x with dev := y.wrBytes (x.dev.dpaAt st e i) l, flags := fl } := by
  obtain ⟨hf, hr⟩ := hg
  obtain ⟨y, hy, hread⟩ := x.dev.readUnit_readable _ false hr
  let sum := Vec.combine 0 e.t e.modeF (leNat (y.rdBytes (x.dev.dpaAt st e i) (e.w / 8))) (Vec.elem (y.vreg st e.v.va) e.w i)
  obtain ⟨z, hz, hwrite⟩ := y.writeUnit_readable (x.dev.dpaAt st e i) (leBytes (e.w / 8) sum.1) false (hy.readable hr)
    (by rw [hy.tally, hi])
  refine ⟨z, leBytes (e.w / 8) sum.1, x.flags ||| sum.2, hy.trans hz, length_leBytes _ _, ?_, ?_⟩
  · rw [put, if_pos hist, leNat_leBytes, e.bytes_mul, ← hy.rdBytes, ← hy.vreg]
  · unfold elemStep
    extract_lets d a
    rw [if_neg (by simp [hs, d, ha]), show d.staticFault st e a = none from hf]
    dsimp only
    rw [if_pos hist, show d.readUnit (unitOf (d.elemDpa st e a)) false = (y, .ok) from hread]
    exact (if_neg (by simp)).trans (congrArg
      (fun r : Device × MemRes => ({ x with dev := r.1, flags := x.flags ||| sum.2 } : VecWalk)) hwrite)

/-- A good element of a store or scatter is left at its address. -/
theorem elemStep_of_plain (hist : e.kind ≠ .hist) (hst : e.stores = true) (hreg : x.reg = x.dev.vreg st e.v.vd) :
    ∃ y l fl, Touched x.dev y ∧ l.length = e.w / 8 ∧
      leNat l = x.dev.put st e (leNat (x.dev.rdBytes (x.dev.dpaAt st e i) (e.w / 8))) i ∧
      elemStep st e x i = { x with dev := y.wrBytes (x.dev.dpaAt st e i) l, flags := fl } := by
  obtain ⟨hf, hr⟩ := hg
  obtain ⟨y, hy, hwrite⟩ := x.dev.writeUnit_readable (x.dev.dpaAt st e i)
    (leBytes (e.w / 8) (Vec.elem x.reg e.w i)) false hr hi
  refine ⟨y, _, x.flags, hy, length_leBytes (e.w / 8) (Vec.elem x.reg e.w i), ?_, ?_⟩
  · rw [put, if_neg hist, leNat_leBytes, e.bytes_mul, hreg, Nat.mod_eq_of_lt (Vec.elem_lt _ _ _)]
  · unfold elemStep
    extract_lets d a
    rw [if_neg (by simp [hs, d, ha]), show d.staticFault st e a = none from hf]
    dsimp only
    rw [if_neg hist, if_pos hst,
      show d.writeUnit (d.elemDpa st e a) (leBytes (e.w / 8) (Vec.elem x.reg e.w i)) false = _ from hwrite]
    exact if_pos rfl

/-- A good element of a store, a scatter or VHADD puts its number at its address. -/
theorem elemStep_of_store (hst : e.stores = true) (hreg : x.reg = x.dev.vreg st e.v.vd) :
    ∃ y l fl, Touched x.dev y ∧ l.length = e.w / 8 ∧
      leNat l = x.dev.put st e (leNat (x.dev.rdBytes (x.dev.dpaAt st e i) (e.w / 8))) i ∧
      elemStep st e x i = { x with dev := y.wrBytes (x.dev.dpaAt st e i) l, flags := fl } := by
  by_cases hist : e.kind = .hist
  · exact elemStep_of_hist st e x i hs hi ha hg hist
  · exact elemStep_of_plain st e x i hs hi ha hg hist hst hreg

end

/-! ### The walk -/

/-- Addresses that are multiples of the element's bytes are equal or apart. -/
theorem dpaAt_apart {d : Device} {st : StallId} {e : VecEntry} {i j : Nat} (hi : d.goodAt st e i) (hj : d.goodAt st e j)
    (h : d.elemAddr st e j ≠ d.elemAddr st e i) :
    d.dpaAt st e i + e.w / 8 ≤ d.dpaAt st e j ∨ d.dpaAt st e j + e.w / 8 ≤ d.dpaAt st e i := by
  have mul {a : Nat} (ha : d.staticFault st e a = none) : e.w / 8 ∣ a := by
    refine Nat.dvd_of_mod_eq_zero ?_
    by_contra hne
    cases hl : e.lp6 with
    | true =>
      rw [staticFault, if_pos hl, if_pos hne] at ha
      cases ha
    | false =>
      rw [staticFault, if_neg (by simp [hl]), if_pos hne] at ha
      split at ha <;> cases ha
  have apart {u v : Nat} (h : e.w / 8 * u < e.w / 8 * v) : e.w / 8 * u + e.w / 8 ≤ e.w / 8 * v :=
    Nat.mul_le_mul_left (e.w / 8) (Nat.lt_of_mul_lt_mul_left h)
  obtain ⟨u, hu⟩ := mul hi.1
  obtain ⟨v, hv⟩ := mul hj.1
  simp only [dpaAt, elemDpa, loftAt, loftDpa]
  rw [hu, hv] at h ⊢
  rcases Nat.lt_or_gt_of_ne h with hlt | hlt
  · have := apart hlt
    split <;> omega
  · have := apart hlt
    split <;> omega

/-- The active elements below k at the address of element i. -/
def sharing (d : Device) (st : StallId) (e : VecEntry) (k i : Nat) : List Nat :=
  (List.range k).filter fun j => d.activeAt st e j && decide (d.elemAddr st e j = d.elemAddr st e i)

theorem sharing_succ (d : Device) (st : StallId) (e : VecEntry) (k i : Nat) : d.sharing st e (k + 1) i =
    d.sharing st e k i ++ if d.activeAt st e k = true ∧ d.elemAddr st e k = d.elemAddr st e i then [k] else [] := by
  simp only [sharing, List.range_succ, List.filter_append, List.filter_singleton]
  congr 1
  by_cases h : d.activeAt st e k = true ∧ d.elemAddr st e k = d.elemAddr st e i <;> simp_all

/-- The walk of a storing entry over elements below k, its active elements all good. -/
theorem walk_of_store (d : Device) (st : StallId) (e : VecEntry) (hst : e.stores = true) (harm : d.tally.armed = false)
    (hg : ∀ i, d.activeAt st e i = true → d.goodAt st e i) (k : Nat) :
    let x := (List.range k).foldl (elemStep st e) ⟨d, d.vreg st e.v.vd, [], .none, none⟩
    Stored d x.dev ∧ x.stop = none ∧ x.reg = d.vreg st e.v.vd ∧
      (∀ q, (∀ i, d.activeAt st e i = true → q < d.dpaAt st e i ∨ d.dpaAt st e i + e.w / 8 ≤ q) →
        x.dev.rdByte q = d.rdByte q) ∧
      ∀ i, d.activeAt st e i = true → leNat (x.dev.rdBytes (d.dpaAt st e i) (e.w / 8)) =
        (d.sharing st e k i).foldl (d.put st e) (leNat (d.rdBytes (d.dpaAt st e i) (e.w / 8))) := by
  induction k with
  | zero => exact ⟨Stored.refl d, rfl, rfl, fun q _ => rfl, fun i _ => rfl⟩
  | succ k ih =>
    rw [List.range_succ, List.foldl_append]
    obtain ⟨ht, hs, hreg, hout, hin⟩ := ih
    generalize (List.range k).foldl (elemStep st e) _ = x at ht hs hreg hout hin ⊢
    rw [List.foldl_cons, List.foldl_nil]
    cases ha : d.activeAt st e k with
    | false =>
      rw [elemStep_of_inactive st e x k (by rw [ht.activeAt, ha])]
      refine ⟨ht, hs, hreg, hout, fun i hi => ?_⟩
      rw [hin i hi, sharing_succ, if_neg (by simp [ha]), List.append_nil]
    | true =>
      obtain ⟨y, l, fl, hy, hlen, hl, hstep⟩ := elemStep_of_store st e x k hs (ht.unarmed harm) (by rw [ht.activeAt, ha])
        (ht.goodAt (hg k ha)) hst (by rw [hreg, ht.vreg])
      rw [ht.dpaAt] at hl hstep
      rw [hstep]
      refine ⟨ht.write hy _ _, hs, hreg, fun q hq => ?_, fun i hi => ?_⟩
      · have hqk := hq k ha
        rw [rdByte_wrBytes_out _ _ _ _ (by rw [hlen]; exact hqk), hy.rdByte, hout q hq]
      · dsimp only
        rw [sharing_succ]
        by_cases hsame : d.elemAddr st e k = d.elemAddr st e i
        · have hp : d.dpaAt st e k = d.dpaAt st e i := congrArg (d.elemDpa st e) hsame
          rw [if_pos ⟨ha, hsame⟩, List.foldl_append, ← hin i hi, ← hp, ← hlen, rdBytes_wrBytes_same, hl, hlen]
          simp only [List.foldl_cons, List.foldl_nil, put, ht.vreg]
        · have hap := dpaAt_apart (hg i hi) (hg k ha) hsame
          rw [if_neg (fun h => hsame h.2), List.append_nil, rdBytes_wrBytes_out _ _ _ _ _ (by rw [hlen]; omega),
            hy.rdBytes, hin i hi]

/-- A walk of a storing entry changes no register. -/
theorem memElems_of_store (d : Device) (st : StallId) (e : VecEntry) (hi : Nat) (hst : e.stores = true) :
    let x := (List.range hi).foldl (elemStep st e) ⟨d, d.vreg st e.v.vd, [], .none, none⟩
    x.stop = none → d.memElems st e hi = (x.dev.modCur st fun c => c.addVectorFlags x.flags, none) := by
  intro x hs
  have hy : (if e.stores then x.dev else x.dev.setVreg st e.v.vd x.reg) = x.dev := if_pos hst
  change ((if e.stores then x.dev else x.dev.setVreg st e.v.vd x.reg).modCur st fun c => c.addVectorFlags x.flags, x.stop) = _
  rw [hy, hs]

/-- A storing entry whose active elements are good executes to its end. -/
theorem execEntry_of_store (d : Device) (st : StallId) (e : VecEntry) (rest : List VecEntry) (hbad : (d.stall st).vBad = [])
    (hn : e.n ≠ 0) (hst : e.stores = true) (harm : d.tally.armed = false)
    (hg : ∀ i, d.activeAt st e i = true → d.goodAt st e i) :
    ∃ x f, Stored d x ∧
      (∀ q, (∀ i, d.activeAt st e i = true → q < d.dpaAt st e i ∨ d.dpaAt st e i + e.w / 8 ≤ q) →
        x.rdByte q = d.rdByte q) ∧
      (∀ i, d.activeAt st e i = true → leNat (x.rdBytes (d.dpaAt st e i) (e.w / 8)) =
        (d.sharing st e e.n i).foldl (d.put st e) (leNat (d.rdBytes (d.dpaAt st e i) (e.w / 8)))) ∧
      d.execEntry st e rest = (x.modCur st f, true) ∧ ∀ c, SlotCtx.finished c (f c) := by
  have hset : e.kind ≠ .setvl := fun h => by simp [VecEntry.stores, h] at hst
  have hm : e.memory = true := by
    revert hst
    unfold VecEntry.stores VecEntry.memory
    cases e.kind <;> simp
  have hfirst (op : Nat) : e.kind ≠ .first op := fun h => by simp [VecEntry.stores, h] at hst
  obtain ⟨ht, hs, -, hout, hin⟩ := d.walk_of_store st e hst harm hg e.n
  have hmem := d.memElems_of_store st e e.n hst hs
  generalize (List.range e.n).foldl (elemStep st e) ⟨d, d.vreg st e.v.vd, [], .none, none⟩ = x at ht hout hin hmem
  refine ⟨x.dev, fun c => ({ c.addVectorFlags x.flags with hold := none } : SlotCtx).advance 1, ht, hout, hin, ?_,
    fun c => SlotCtx.finished_advance c _ _ rfl⟩
  unfold execEntry
  rw [d.parityFault_none st e hbad]
  dsimp only
  rw [if_neg hset, if_neg hn, if_neg (by simp [hm]), hmem]
  refine congrArg (·, true) ?_
  have hy : (match e.kind with
      | .first _ => ((x.dev.modCur st fun c => c.addVectorFlags x.flags).modCur st fun c =>
        { c with hold := none }).modCur st fun c => c.setCr 0x16 (clearBit (c.getCr 0x16) 0)
      | _ => (x.dev.modCur st fun c => c.addVectorFlags x.flags).modCur st fun c => { c with hold := none }) =
        x.dev.modCur st fun c => { c.addVectorFlags x.flags with hold := none } := by
    split
    · rename_i hk
      exact absurd hk (hfirst _)
    · rw [modCur_modCur]
  refine (congrArg (fun y => (renew y st e _).retire st 1) hy).trans ?_
  rw [renew_of_good _ _ _ _ (by rw [stall_modCur, Stall.setCtx_vBad, Touched.stall ht]; exact hbad), retire, modCur_modCur]

end Device

end Sys2Proof.Machine
end

section
/-! Vector stores from issue to retirement (R160, R163, R164). -/

namespace Sys2Proof.Machine

namespace Device

theorem put_modCur (d : Device) (st : StallId) (e : VecEntry) (f : SlotCtx → SlotCtx) :
    (d.modCur st f).put st e = d.put st e := by
  funext n i
  simp only [put, vreg_modCur]

theorem sharing_modCur (d : Device) (st : StallId) (e : VecEntry) (f : SlotCtx → SlotCtx) (hk : (f (d.cur st)).k = (d.cur st).k)
    (k i : Nat) : (d.modCur st f).sharing st e k i = d.sharing st e k i := by
  simp only [sharing, activeAt_modCur d st e f hk, elemAddr_modCur]

/-- Where no later active element shares its address, element i is the last that puts its number there. -/
theorem foldl_put_last (d : Device) (st : StallId) (e : VecEntry) (hist : e.kind ≠ .hist) {i : Nat}
    (ha : d.activeAt st e i = true)
    (hlast : ∀ j, i < j → d.activeAt st e j = true → d.elemAddr st e j ≠ d.elemAddr st e i)
    (n : Nat) : (d.sharing st e e.n i).foldl (d.put st e) n = Vec.elem (d.vreg st e.v.vd) e.w i := by
  have hrest : (List.range' (i + 1) (e.n - i - 1)).filter
      (fun j => d.activeAt st e j && decide (d.elemAddr st e j = d.elemAddr st e i)) = [] := by
    refine List.filter_eq_nil_iff.mpr fun j hj => ?_
    obtain ⟨hij, -⟩ := List.mem_range'_1.mp hj
    cases hact : d.activeAt st e j with
    | false => simp
    | true => simp [hlast j hij hact]
  rw [sharing, range_split (d.activeAt_lt st ha), List.filter_append, List.filter_cons_of_pos (by simp [ha]), hrest,
    List.foldl_append]
  exact if_neg hist

end Device

/-- A loft store, scatter or VHADD of good elements executes as it issues: what it leaves in memory, and its frame. -/
theorem exec_of_store {s : State} {st : StallId} {kind : VecKind} {v : VFormat} {i : Instr} {word : W32}
    (he : exec i s = .next (s.onDev fun d => d.vectorIssue st kind v word)) (hst : (s.dev.capture st kind v).stores = true)
    (hm : (s.dev.capture st kind v).memory = true) (hlp6 : (s.dev.capture st kind v).lp6 = false)
    (hr : s.vectorReady st (s.dev.capture st kind v)) (hn : (s.dev.capture st kind v).n ≠ 0) (harm : s.dev.tally.armed = false)
    (hg : ∀ i, s.dev.activeAt st (s.dev.capture st kind v) i = true →
      s.dev.staticFault st (s.dev.capture st kind v) (s.dev.elemAddr st (s.dev.capture st kind v) i) = none ∧
        unitOf (s.dev.loftAt st (s.dev.elemAddr st (s.dev.capture st kind v) i)) ∉ s.dev.bad) :
    ∃ d, exec i s = .next (s.onDev fun _ => d) ∧
      (∀ q, (∀ i, s.dev.activeAt st (s.dev.capture st kind v) i = true →
          q < s.dev.loftAt st (s.dev.elemAddr st (s.dev.capture st kind v) i) ∨
            s.dev.loftAt st (s.dev.elemAddr st (s.dev.capture st kind v) i) + Vec.width v.t.toNat / 8 ≤ q) →
        d.rdByte q = s.dev.rdByte q) ∧
      (∀ r, d.vreg st r = s.dev.vreg st r) ∧ (∀ r, d.sreg st r = s.dev.sreg st r) ∧ (d.cur st).hold = none ∧
      ∀ i, s.dev.activeAt st (s.dev.capture st kind v) i = true →
        leNat (d.rdBytes (s.dev.loftAt st (s.dev.elemAddr st (s.dev.capture st kind v) i)) (Vec.width v.t.toNat / 8)) =
          (s.dev.sharing st (s.dev.capture st kind v) (s.dev.capture st kind v).n i).foldl
            (s.dev.put st (s.dev.capture st kind v))
            (leNat (s.dev.rdBytes (s.dev.loftAt st (s.dev.elemAddr st (s.dev.capture st kind v) i))
              (Vec.width v.t.toNat / 8))) := by
  generalize he' : s.dev.capture st kind v = e at *
  have hw : e.w = Vec.width v.t.toNat := by rw [← he']; rfl
  have hact (j : Nat) := s.dev.activeAt_held st e j
  have hdpa (j : Nat) : (s.dev.held st).dpaAt st e j = s.dev.loftAt st (s.dev.elemAddr st e j) := by
    rw [Device.held, Device.dpaAt_modCur, s.dev.dpaAt_loft st e hlp6]
  obtain ⟨x, f, ht, hout, hin, hx, hf⟩ := (s.dev.held st).execEntry_of_store st e [] (vBad_held (he' ▸ hr)) hn hst harm
    fun j hj => s.dev.goodAt_held st e hlp6 (hg j ((hact j).symm.trans hj))
  have hcur : (x.modCur st f).cur st = f { s.dev.cur st with vq := [], hold := some .vector } := by
    rw [Device.cur_modCur]
    exact congrArg f ((Device.Touched.cur ht st).trans (Device.cur_modCur ..))
  obtain ⟨hhold, hvq, hs, -⟩ := hf { s.dev.cur st with vq := [], hold := some .vector }
  refine ⟨x.modCur st f, ?_, fun q hq => ?_, fun r => ?_, fun r => ?_, ?_, fun j hj => ?_⟩
  · subst he'
    exact exec_of_memory he hm hlp6 hr hx (by rw [hcur, hvq])
  · rw [Device.rdByte_modCur, hout q fun j hj => by rw [hdpa, hw]; exact hq j ((hact j).symm.trans hj)]
    exact s.dev.rdByte_modCur st _ q
  · rw [Device.vreg_modCur, ht.vreg, Device.held, Device.vreg_modCur]
  · rw [Device.sreg, hcur, hs]
    rfl
  · rw [hcur, hhold]
  · have h := hin j ((hact j).trans hj)
    rw [hdpa, hw, Device.held, Device.put_modCur, Device.sharing_modCur] at h
    · exact h
    · rfl

/-- Settles O26: the walk of a store, a scatter or VHADD leaves at each address what its elements put there in order. -/
theorem vectorLoftStores : Obligations.VectorLoftStores := by
  intro st v s w clear stays stores
  have run {i : Instr} {kind : VecKind} {word : W32} (he : exec i s = .next (s.onDev fun d => d.vectorIssue st kind v word))
      (hst : (s.dev.capture st kind v).stores = true) (hm : (s.dev.capture st kind v).memory = true)
      (hlp6 : (s.dev.capture st kind v).lp6 = false) (hist : kind ≠ .hist) : stores i kind := by
    refine ⟨completes_of_memory_empty he hm hlp6, fun ⟨hr, hn, harm, hg⟩ => ?_⟩
    obtain ⟨d, hx, hout, hv, hs, hhold, hin⟩ := exec_of_store he hst hm hlp6 hr hn harm hg
    refine ⟨_, hx, ⟨hout, hv, hs, hhold⟩, fun j hj hlast => ?_⟩
    rw [State.onDev_dev, hin j hj, s.dev.foldl_put_last st _ hist hj hlast]
    rfl
  refine ⟨run rfl rfl rfl rfl (by simp), run rfl rfl rfl rfl (by simp), run rfl rfl rfl rfl (by simp),
    run rfl rfl rfl rfl (by simp), fun hr hn => completes_of_memory_empty rfl rfl rfl hr hn, fun ⟨hr, hn, harm, hg⟩ => ?_⟩
  obtain ⟨d, hx, hout, hv, hs, hhold, hin⟩ := exec_of_store (i := .vhadd st v) rfl rfl rfl rfl hr hn harm hg
  refine ⟨_, hx, ⟨hout, hv, hs, hhold⟩, fun j hj => (hin j hj).trans ?_⟩
  refine congrArg (fun f => List.foldl f _ _) ?_
  funext n j
  exact if_pos rfl

end Sys2Proof.Machine
end

section
/-! LP6 vector forms (R141, R167): they wait in the queue and hold the groom; VECTOR_LP6_DONE brings their elements. -/

namespace Sys2Proof.Machine

theorem VecEntry.memory_of_lp6 {e : VecEntry} (h : e.lp6 = true) : e.memory = true := by
  cases hm : e.memory with
  | true => rfl
  | false => rw [lp6_of_memory hm] at h; cases h

theorem VecEntry.not_hist_of_lp6 {e : VecEntry} (h : e.lp6 = true) : e.kind ≠ .hist := fun hk => by
  simp [lp6, hk] at h

/-- An LP6 form at the head of an idle unit's queue waits there. -/
theorem completes_of_lp6 {s : State} {st : StallId} {kind : VecKind} {v : VFormat} {i : Instr} {word : W32}
    (he : exec i s = .next (s.onDev fun d => d.vectorIssue st kind v word)) (hlp6 : (s.dev.capture st kind v).lp6 = true)
    (hr : s.vectorReady st (s.dev.capture st kind v)) : Completes i s fun t =>
      s.sameButSlot st t ∧ t.dev.cur st = { s.dev.cur st with vq := [s.dev.capture st kind v], hold := some .vector } := by
  have hrun := onDev_vectorIssue word hr
  obtain ⟨-, hgate, hq, -⟩ := hr
  have henq : s.dev.enqueue st (s.dev.capture st kind v) =
      s.dev.modCur st fun c => { c with vq := c.vq ++ [s.dev.capture st kind v], hold := some .vector } := by
    rw [Device.enqueue, if_pos (VecEntry.memory_of_lp6 hlp6), Device.modCur_modCur]
  have hstop : Device.drainQueue st 4 (s.dev.enqueue st (s.dev.capture st kind v)) =
      s.dev.enqueue st (s.dev.capture st kind v) := by
    rw [Device.drainQueue, if_neg (by rw [Device.stall_enqueue, Stall.setCtx_gate, hgate]; simp), Device.vq_enqueue, hq]
    exact if_pos hlp6
  refine ⟨_, he.trans (congrArg Host.Outcome.next (hrun.trans (onDev_congr (hstop.trans henq)))),
    sameButSlot_modCur s st _, ?_⟩
  rw [State.onDev_dev, Device.cur_modCur, hq, List.nil_append]

section
variable {s : State} {st : StallId} {e : VecEntry} (hact : (s.dev.stall st).active = true)
  (hgate : (s.dev.stall st).gate = .awake) (hq : (s.dev.cur st).vq = [e]) (hlp6 : e.lp6 = true)
include hact hgate hq hlp6

/-- The elements of the LP6 entry at the head of the queue come, and it executes to its end. -/
theorem exec_vectorLp6Done {d : Device} (hx : (s.dev.modCur st fun c => { c with vq := [] }).execEntry st e [] = (d, true))
    (hd : (d.cur st).vq = []) : exec (.vectorLp6Done st) s = .next (s.onDev fun _ => d) := by
  refine congrArg Host.Outcome.next (onDev_congr (f := fun d => _) ?_)
  rw [if_pos (by simp [hact, hgate]), hq]
  refine (if_pos hlp6).trans ?_
  rw [hx]
  exact (if_pos rfl).trans (d.drainQueue_of_empty st 4 hd)

end

/-- Settles O27: an LP6 form waits at the head of the queue; when its elements come it walks them as a loft form does. -/
theorem vectorLp6 : Obligations.VectorLp6 := by
  refine ⟨?_, ?_⟩
  · intro st v s waits
    exact ⟨completes_of_lp6 rfl rfl, completes_of_lp6 rfl rfl, completes_of_lp6 rfl rfl, completes_of_lp6 rfl rfl,
      completes_of_lp6 rfl rfl, completes_of_lp6 rfl rfl, completes_of_lp6 rfl rfl, completes_of_lp6 rfl rfl,
      completes_of_lp6 rfl rfl, completes_of_lp6 rfl rfl, completes_of_lp6 rfl rfl⟩
  intro st s e hact hgate hbad hq hlp6 _ hgood done
  let y := s.dev.modCur st fun c => { c with vq := [] }
  have hm := VecEntry.memory_of_lp6 hlp6
  have hist := VecEntry.not_hist_of_lp6 hlp6
  have hk : ({ s.dev.cur st with vq := [] } : SlotCtx).k = (s.dev.cur st).k := rfl
  have hy : (y.stall st).vBad = [] := by rw [Device.stall_modCur, Stall.setCtx_vBad, hbad]
  have hact' (j : Nat) : y.activeAt st e j = s.dev.activeAt st e j := s.dev.activeAt_modCur st e _ hk j
  have hsdpa (j : Nat) : s.dev.dpaAt st e j = s.dev.elemAddr st e j := if_pos hlp6
  have hdpa (j : Nat) : y.dpaAt st e j = s.dev.elemAddr st e j := (s.dev.dpaAt_modCur st e _ j).trans (hsdpa j)
  have hg (j : Nat) (hj : y.activeAt st e j = true) : y.goodAt st e j := by
    obtain ⟨hf, hb, hc⟩ := hgood j ((hact' j).symm.trans hj)
    refine s.dev.goodAt_modCur st e _ ⟨hf, ?_⟩
    rw [hsdpa]
    exact ⟨hb, fun _ => hc⟩
  have hdone {x : Device} {f : SlotCtx → SlotCtx} (hcur : x.cur st = { s.dev.cur st with vq := [] })
      (hf : ∀ c, SlotCtx.finished c (f c)) (hv : ∀ q, q ≠ e.v.vd → x.vreg st q = s.dev.vreg st q) :
      done (s.onDev fun _ => x.modCur st f) := by
    obtain ⟨hhold, hvq, hs, hpc⟩ := hf { s.dev.cur st with vq := [] }
    have hc : (x.modCur st f).cur st = f { s.dev.cur st with vq := [] } := by rw [Device.cur_modCur, hcur]
    refine ⟨fun r => ?_, ?_, ?_, fun q hq => ?_, fun hl => ?_⟩
    · rw [State.onDev_dev, Device.sreg, hc, hs]
      rfl
    · rw [State.onDev_dev, hc, hhold]
    · rw [State.onDev_dev, hc, hvq]
    · rw [State.onDev_dev, Device.vreg_modCur, hv q hq]
    · rw [State.onDev_dev, hc, hpc hl]
  have hvq {x : Device} {f : SlotCtx → SlotCtx} (hcur : x.cur st = { s.dev.cur st with vq := [] })
      (hf : ∀ c, SlotCtx.finished c (f c)) : ((x.modCur st f).cur st).vq = [] := by
    obtain ⟨-, hvq, -⟩ := hf { s.dev.cur st with vq := [] }
    rw [Device.cur_modCur, hcur, hvq]
  have hcy : y.cur st = { s.dev.cur st with vq := [] } := Device.cur_modCur ..
  have hvy (q : VReg) : y.vreg st q = s.dev.vreg st q := Device.vreg_modCur ..
  refine ⟨fun hn => ?_, fun hst hn => ?_, fun hst hn harm => ?_⟩
  · have hx := y.execEntry_of_memory_empty st e [] hy hm hn
    rw [Device.retire, Device.modCur_modCur] at hx
    have hf (c : SlotCtx) : c.finished (({ c with hold := none } : SlotCtx).advance 1) :=
      SlotCtx.finished_advance c _ (c.getCr 0x16) (by rw [SlotCtx.setCr_getCr])
    refine ⟨_, exec_vectorLp6Done hact hgate hq hlp6 hx (hvq hcy hf), hdone hcy hf fun q _ => hvy q, ?_⟩
    rw [show y.modCur st _ = s.dev.modCur st _ from Device.modCur_modCur ..]
    exact sameButSlot_modCur s st _
  · obtain ⟨x, reg, f, ht, hreg, hx, hf⟩ := y.execEntry_of_load st e [] hy hn hm hist hst hg
    have hcur : (x.setVreg st e.v.vd reg).cur st = { s.dev.cur st with vq := [] } := by
      rw [Device.cur_setVreg, ht.cur, hcy]
    refine ⟨_, exec_vectorLp6Done hact hgate hq hlp6 hx (hvq hcur hf), hdone hcur hf fun q hne => ?_, fun a => ?_,
      fun j hj => ?_⟩
    · rw [Device.vreg_setVreg, if_neg hne, ht.vreg, hvy]
    · exact (ht.rdByte a).trans (s.dev.rdByte_modCur st _ a)
    · rw [State.onDev_dev, Device.vreg_modCur, Device.vreg_setVreg, if_pos rfl]
      refine (hreg j hj).trans ?_
      rw [Device.loaded_modCur _ _ _ _ hk, Device.loaded_all, hsdpa]
  · obtain ⟨x, f, ht, hout, hin, hx, hf⟩ := y.execEntry_of_store st e [] hy hn hst harm hg
    have hcur : x.cur st = { s.dev.cur st with vq := [] } := (Device.Touched.cur ht st).trans hcy
    refine ⟨_, exec_vectorLp6Done hact hgate hq hlp6 hx (hvq hcur hf), hdone hcur hf fun q _ => ?_, fun q hq => ?_,
      fun j hj hlast => ?_⟩
    · rw [ht.vreg, hvy]
    · rw [State.onDev_dev, Device.rdByte_modCur, hout q fun j hj => by rw [hdpa]; exact hq j ((hact' j).symm.trans hj)]
      exact s.dev.rdByte_modCur st _ q
    · have h := hin j ((hact' j).trans hj)
      rw [hdpa, Device.put_modCur, Device.sharing_modCur _ _ _ _ hk, s.dev.foldl_put_last st e hist hj hlast] at h
      exact h

end Sys2Proof.Machine
end

section
/-! Coeri's encoding (R98 to R101, R147, R148): the fields of each format are read back from its words, and so is every
instruction. -/

namespace Sys2Proof.Machine

namespace Coeri

/-! ### Fields of a word -/

/-- A word by its four low fields: op [5:0], [10:6], [15:11] and the upper half. -/
def halves (op : Nat) (d a : SReg) (x : Nat) : W32 := BitVec.ofNat 32 (op + d.val * 2 ^ 6 + a.val * 2 ^ 11 + x * 2 ^ 16)

theorem word_eq_halves (op : Nat) (d a b : SReg) (top : Nat) : word op d a b top = halves op d a (b.val + top * 2 ^ 5) := by
  refine congrArg (BitVec.ofNat 32) ?_
  omega

section
variable {op x : Nat} (hop : op < 64) (hx : x < 65536) (d a : SReg)
include hop hx

theorem field_halves (lo len : Nat) : field (halves op d a x) lo len =
    (op + d.val * 2 ^ 6 + a.val * 2 ^ 11 + x * 2 ^ 16) / 2 ^ lo % 2 ^ len := by
  have hlt : op + d.val * 2 ^ 6 + a.val * 2 ^ 11 + x * 2 ^ 16 < 2 ^ 32 := by omega
  rw [field, halves, BitVec.toNat_ofNat, Nat.mod_eq_of_lt hlt, Nat.shiftRight_eq_div_pow]

theorem field_halves_op : field (halves op d a x) 0 6 = op := by
  rw [field_halves hop hx]
  omega

theorem reg_halves_d : reg (halves op d a x) 6 = d := by
  rw [reg, field_halves hop hx]
  refine Fin.ext ((Fin.val_ofNat ..).trans ?_)
  omega

theorem reg_halves_a : reg (halves op d a x) 11 = a := by
  rw [reg, field_halves hop hx]
  refine Fin.ext ((Fin.val_ofNat ..).trans ?_)
  omega

theorem field_halves_upper (k len : Nat) : field (halves op d a x) (16 + k) len = x / 2 ^ k % 2 ^ len := by
  rw [field_halves hop hx, pow_add, ← Nat.div_div_eq_div_mul]
  congr 2
  omega

end

section
variable {op top : Nat} (hop : op < 64) (htop : top < 2048) (d a b : SReg)
include hop htop

theorem field_word_op : field (word op d a b top) 0 6 = op := by
  rw [word_eq_halves, field_halves_op hop (by omega)]

theorem reg_word_d : reg (word op d a b top) 6 = d := by
  rw [word_eq_halves, reg_halves_d hop (by omega)]

theorem reg_word_a : reg (word op d a b top) 11 = a := by
  rw [word_eq_halves, reg_halves_a hop (by omega)]

theorem field_word_b : field (word op d a b top) 16 5 = b := by
  rw [word_eq_halves, field_halves_upper hop (by omega) d a 0 5]
  omega

theorem reg_word_b : reg (word op d a b top) 16 = b := by
  rw [reg, field_word_b hop htop]
  exact Fin.ofNat_val_eq_self b

/-- A field of the top eleven bits. -/
theorem field_word_top (k len : Nat) : field (word op d a b top) (21 + k) len = top / 2 ^ k % 2 ^ len := by
  rw [word_eq_halves, show 21 + k = 16 + (5 + k) by omega, field_halves_upper hop (by omega), pow_add, ← Nat.div_div_eq_div_mul]
  congr 2
  omega

end

theorem imm_halves {op : Nat} (hop : op < 64) (d a : SReg) (v : BitVec 16) :
    BitVec.ofNat 16 (field (halves op d a v.toNat) 16 16) = v := by
  rw [field_halves_upper hop v.isLt d a 0 16]
  exact BitVec.eq_of_toNat_eq (by simp [v.isLt])

/-! ### What each opcode is decoded by -/

section
variable (st : StallId) (k : Nat) {w : W32} (second : W32)

theorem decode_int (h : field w 0 6 = 0x01) :
    decode st k w second = intOp st (reg w 6) (reg w 11) (reg w 16) (field w 21 11) := by
  simp [decode, h]

theorem decode_fp (h : field w 0 6 = 0x08) :
    decode st k w second = fpOp st (reg w 6) (reg w 11) (reg w 16) (field w 21 11) := by
  simp [decode, h]

theorem decode_fma (h : field w 0 6 = 0x09) :
    decode st k w second =
      fmaOp st (reg w 6) (reg w 11) (reg w 16) (Fin.ofNat 32 (field w 21 11 % 32)) (field w 21 11 / 32) := by
  simp [decode, h]

theorem decode_msg (h : field w 0 6 = 0x2E) :
    decode st k w second = msgOp st (reg w 6) (reg w 11) (reg w 16) (field w 21 11) := by
  simp [decode, h]

theorem decode_frame (h : field w 0 6 = 0x31) :
    decode st k w second = frameOp st (reg w 6) (reg w 11) (reg w 16) (field w 21 11) := by
  simp [decode, h]

theorem decode_ctx (h : field w 0 6 = 0x32) :
    decode st k w second = ctxOp st (reg w 6) (reg w 11) (reg w 16) (field w 21 11) := by
  simp [decode, h]

theorem decode_branch {op : Nat} (h : field w 0 6 = op) (hop : 0x0A ≤ op ∧ op ≤ 0x0F) :
    decode st k w second = branchOp st (reg w 11) (reg w 6) (BitVec.ofNat 16 (field w 16 16)) op := by
  simp only [decode, h]
  rw [if_neg (by omega), if_neg (by omega), if_neg (by omega), if_pos hop]

theorem decode_jump (h : field w 0 6 = 0x10) :
    decode st k w second = some (.jal st (BitVec.ofNat 26 (field w 6 26))) := by
  simp [decode, h]

theorem decode_mask (h : field w 0 6 = 0x23) :
    decode st k w second = maskOp st (Fin.ofNat 8 (field w 29 3)) (Fin.ofNat 8 (field w 24 3)) (Fin.ofNat 8 (field w 21 3))
      (reg w 6) (reg w 11) (reg w 16) (field w 27 2) := by
  simp [decode, h]

theorem decode_vec {op : Nat} (h : field w 0 6 = op) (hop : 0x20 ≤ op ∧ op ≤ 0x2B) (hne : op ≠ 0x23) :
    decode st k w second = vecOp st (vFormat w) op (field w 21 5) := by
  simp only [decode, h]
  rw [if_neg (by omega), if_neg (by omega), if_neg (by omega), if_neg (by omega), if_neg (by omega), if_neg hne, if_pos hop]

theorem decode_unit {op : Nat} (h : field w 0 6 = op) (hop : op = 0x2C ∨ op = 0x2D ∨ op = 0x2F ∨ op = 0x30) :
    decode st k w second = unitOp st (mFormat w) op (field w 21 7) k := by
  simp only [decode, h]
  rw [if_neg (by omega), if_neg (by omega), if_neg (by omega), if_neg (by omega), if_neg (by omega), if_neg (by omega),
    if_neg (by omega), if_neg (by omega), if_neg (by omega), if_neg (by omega), if_pos hop]

theorem decode_long (h : field w 0 6 = 0x3F) (hz : field w 22 10 = 0) :
    decode st k w second = immOp st (reg w 6) (reg w 11) (.long second) (field w 16 6) := by
  simp [decode, h, hz]

theorem decode_short {op : Nat} (h : field w 0 6 = op)
    (hop : 2 ≤ op ∧ op ≤ 7 ∨ 0x11 ≤ op ∧ op ≤ 0x1E ∨ 0x33 ≤ op ∧ op ≤ 0x35) :
    decode st k w second = immOp st (reg w 6) (reg w 11) (.short (BitVec.ofNat 16 (field w 16 16))) op := by
  simp only [decode, h]
  rw [if_neg (by omega), if_neg (by omega), if_neg (by omega), if_neg (by omega), if_neg (by omega), if_neg (by omega),
    if_neg (by omega), if_neg (by omega), if_neg (by omega), if_neg (by omega), if_neg (by omega), if_neg (by omega)]

end

/-! ### Reading an instruction back -/

/-- The words of the instruction are read back as it. -/
def Decoded (i : Instr) : Prop := ∃ st, decode st (descKind i) (firstWord i) (((encode i)[1]?).getD 0) = some i

theorem decoded_of_word {i : Instr} {w : W32} (he : encode i = [w]) {st : StallId} (h : decode st (descKind i) w 0 = some i) :
    Decoded i := ⟨st, by rw [firstWord, he]; exact h⟩

section
variable {i : Instr} {st : StallId} {d a b c : SReg} {op top : Nat}

/-- The formats whose top field is a function. -/
theorem decoded_of_function (f : SReg → SReg → SReg → Nat → Option Instr)
    (hdec : ∀ w, field w 0 6 = op → decode st (descKind i) w 0 = f (reg w 6) (reg w 11) (reg w 16) (field w 21 11))
    (he : encode i = [word op d a b top]) (ho : f d a b top = some i) (hop : op < 64) (ht : top < 2048) : Decoded i := by
  refine decoded_of_word he ((hdec _ (field_word_op hop ht d a b)).trans ?_)
  rw [reg_word_d hop ht, reg_word_a hop ht, reg_word_b hop ht, field_word_top hop ht d a b 0 11, ← ho]
  congr 1
  omega

theorem decoded_int (he : encode i = aWord 0x01 top b a d) (ho : intOp st d a b top = some i) (ht : top < 2048) : Decoded i :=
  decoded_of_function (intOp st) (fun _ => decode_int st _ 0) he ho (by decide) ht

theorem decoded_fp (he : encode i = aWord 0x08 top b a d) (ho : fpOp st d a b top = some i) (ht : top < 2048) : Decoded i :=
  decoded_of_function (fpOp st) (fun _ => decode_fp st _ 0) he ho (by decide) ht

theorem decoded_msg (he : encode i = aWord 0x2E top b a d) (ho : msgOp st d a b top = some i) (ht : top < 2048) : Decoded i :=
  decoded_of_function (msgOp st) (fun _ => decode_msg st _ 0) he ho (by decide) ht

theorem decoded_frame (he : encode i = aWord 0x31 top b a d) (ho : frameOp st d a b top = some i) (ht : top < 2048) :
    Decoded i :=
  decoded_of_function (frameOp st) (fun _ => decode_frame st _ 0) he ho (by decide) ht

theorem decoded_ctx (he : encode i = aWord 0x32 top b a d) (ho : ctxOp st d a b top = some i) (ht : top < 2048) : Decoded i :=
  decoded_of_function (ctxOp st) (fun _ => decode_ctx st _ 0) he ho (by decide) ht

theorem decoded_fma (he : encode i = a4Word 0x09 top c b a d) (ho : fmaOp st d a b c top = some i) (ht : top < 64) :
    Decoded i := by
  refine decoded_of_function (fun d a b top => fmaOp st d a b (Fin.ofNat 32 (top % 32)) (top / 32))
    (fun _ => decode_fma st _ 0) he ?_ (by decide) (by omega)
  have hc : Fin.ofNat 32 ((top * 2 ^ 5 + c.val) % 32) = c := Fin.ext ((Fin.val_ofNat ..).trans (by omega))
  rw [hc, show (top * 2 ^ 5 + c.val) / 32 = top by omega, ho]

theorem decoded_branch {off : BitVec 16} (he : encode i = bWord op a b off) (ho : branchOp st a b off op = some i)
    (hop : 0x0A ≤ op ∧ op ≤ 0x0F) : Decoded i := by
  have h64 : op < 64 := by omega
  refine decoded_of_word (w := halves op b a off.toNat) he
    ((decode_branch st _ 0 (field_halves_op h64 off.isLt b a) hop).trans ?_)
  rw [reg_halves_d h64 off.isLt, reg_halves_a h64 off.isLt, imm_halves h64, ho]

theorem decoded_jump {off : BitVec 26} (he : encode i = jWord 0x10 off) (ho : i = .jal st off) : Decoded i := by
  have hoff := off.isLt
  have hlt : 0x10 + off.toNat * 2 ^ 6 < 2 ^ 32 := by omega
  have hf (lo len : Nat) : field (BitVec.ofNat 32 (0x10 + off.toNat * 2 ^ 6)) lo len =
      (0x10 + off.toNat * 2 ^ 6) / 2 ^ lo % 2 ^ len := by
    rw [field, BitVec.toNat_ofNat, Nat.mod_eq_of_lt hlt, Nat.shiftRight_eq_div_pow]
  refine decoded_of_word he ((decode_jump st _ 0 (by rw [hf]; omega)).trans ?_)
  rw [ho, hf, show (0x10 + off.toNat * 2 ^ 6) / 2 ^ 6 % 2 ^ 26 = off.toNat by omega, BitVec.ofNat_toNat, BitVec.setWidth_eq]

theorem decoded_imm {imm : Imm} (he : encode i = iWord op d a imm) (ho : immOp st d a imm op = some i)
    (hop : 2 ≤ op ∧ op ≤ 7 ∨ 0x11 ≤ op ∧ op ≤ 0x1E ∨ 0x33 ≤ op ∧ op ≤ 0x35) : Decoded i := by
  have h64 : op < 64 := by omega
  cases imm with
  | short v =>
    refine decoded_of_word (w := halves op d a v.toNat) he
      ((decode_short st _ 0 (field_halves_op h64 v.isLt d a) hop).trans ?_)
    rw [reg_halves_d h64 v.isLt, reg_halves_a h64 v.isLt, imm_halves h64, ho]
  | long v =>
    have hw : word 0x3F d a op 0 = halves 0x3F d a op := by simp [word, halves]
    have hx : op < 65536 := by omega
    refine ⟨st, ?_⟩
    rw [firstWord, he]
    refine (decode_long st _ (w := word 0x3F d a op 0) v ?_ ?_).trans ?_
    · rw [hw, field_halves_op (by decide) hx]
    · rw [hw, field_halves_upper (by decide) hx d a 6 10]
      omega
    · rw [hw, reg_halves_d (by decide) hx, reg_halves_a (by decide) hx, field_halves_upper (by decide) hx d a 0 6, ← ho]
      congr 1
      omega

/-! ### Vector and unit formats -/

theorem ofNat_toNat_of_eq {w n : Nat} {x : BitVec w} (h : n = x.toNat) : BitVec.ofNat w n = x := by
  rw [h, BitVec.ofNat_toNat, BitVec.setWidth_eq]

theorem fin_ofNat_of_eq {n m : Nat} [NeZero n] {x : Fin n} (h : m = x.val) : Fin.ofNat n m = x := by
  rw [h, Fin.ofNat_val_eq_self]

theorem vFormat_word (hop : op < 64) (ht : top < 32) (v : VFormat) :
    vFormat (word op v.vd v.va v.vb (v.k.val * 2 ^ 8 + (v.t.toNat * 2 ^ 5 + top))) = v := by
  have hk := v.k.isLt
  have htt := v.t.isLt
  have h : v.k.val * 2 ^ 8 + (v.t.toNat * 2 ^ 5 + top) < 2048 := by omega
  rw [vFormat, reg_word_d hop h, reg_word_a hop h, reg_word_b hop h, field_word_top hop h _ _ _ 8 3,
    field_word_top hop h _ _ _ 5 3, fin_ofNat_of_eq (x := v.k) (by omega), ofNat_toNat_of_eq (x := v.t) (by omega)]

theorem decoded_vec {v : VFormat} (he : encode i = vWord op top v) (ho : vecOp st v op top = some i)
    (hop : 0x20 ≤ op ∧ op ≤ 0x2B) (hne : op ≠ 0x23) (ht : top < 32) : Decoded i := by
  have h64 : op < 64 := by omega
  have hk := v.k.isLt
  have htt := v.t.isLt
  have h : v.k.val * 2 ^ 8 + (v.t.toNat * 2 ^ 5 + top) < 2048 := by omega
  refine decoded_of_word he ((decode_vec st _ 0 (field_word_op h64 h v.vd v.va v.vb) hop hne).trans ?_)
  rw [vFormat_word h64 ht, field_word_top h64 h _ _ _ 0 5, ← ho]
  congr 1
  omega

theorem decoded_mask {f : Nat} {kd ks1 ks2 : KReg} {vd va vb : VReg}
    (he : encode i = kWord 0x23 (f * 2 ^ 6 + ks1.val * 2 ^ 3 + ks2.val) kd vd va vb)
    (ho : maskOp st kd ks1 ks2 vd va vb f = some i) (hf : f < 4) : Decoded i := by
  have hkd := kd.isLt
  have hk1 := ks1.isLt
  have hk2 := ks2.isLt
  have h : kd.val * 2 ^ 8 + (f * 2 ^ 6 + ks1.val * 2 ^ 3 + ks2.val) < 2048 := by omega
  refine decoded_of_word he ((decode_mask st _ 0 (field_word_op (by decide) h vd va vb)).trans ?_)
  rw [reg_word_d (by decide) h, reg_word_a (by decide) h, reg_word_b (by decide) h, field_word_top (by decide) h _ _ _ 8 3,
    field_word_top (by decide) h _ _ _ 3 3, field_word_top (by decide) h _ _ _ 0 3, field_word_top (by decide) h _ _ _ 6 2,
    fin_ofNat_of_eq (x := kd) (by omega), fin_ofNat_of_eq (x := ks1) (by omega), fin_ofNat_of_eq (x := ks2) (by omega), ← ho]
  congr 1
  omega

theorem mFormat_word (hop : op < 64) (ht : top < 128) (m : MFormat) :
    mFormat (word op m.d m.a m.b (m.sel.toNat * 2 ^ 7 + top)) = m := by
  have hs := m.sel.isLt
  have h : m.sel.toNat * 2 ^ 7 + top < 2048 := by omega
  rw [mFormat, reg_word_d hop h, reg_word_a hop h, reg_word_b hop h, field_word_top hop h _ _ _ 7 4,
    ofNat_toNat_of_eq (x := m.sel) (by omega)]

theorem decoded_unit {m : MFormat} (he : encode i = mWord op top m) (ho : unitOp st m op top (descKind i) = some i)
    (hop : op = 0x2C ∨ op = 0x2D ∨ op = 0x2F ∨ op = 0x30) (ht : top < 128) : Decoded i := by
  have h64 : op < 64 := by omega
  have hs := m.sel.isLt
  have h : m.sel.toNat * 2 ^ 7 + top < 2048 := by omega
  refine decoded_of_word he ((decode_unit st _ 0 (field_word_op h64 h m.d m.a m.b) hop).trans ?_)
  rw [mFormat_word h64 ht, field_word_top h64 h _ _ _ 0 7, ← ho]
  congr 1
  omega

end

/-- The conversions of group 0x22 carry their source type in the function. -/
theorem vecOp_vcvt (st : StallId) (v : VFormat) (src : BitVec 3) : vecOp st v 0x22 src.toNat = some (.vcvt st src v) := by
  have h : ∀ n, n < 8 → vecOp st v 0x22 n = some (.vcvt st (BitVec.ofNat 3 n) v) := by
    intro n hn
    interval_cases n <;> rfl
  rw [h _ src.isLt, BitVec.ofNat_toNat, BitVec.setWidth_eq]

end Coeri

/-- Settles O60: each instruction by the format of its words; every other command has none. -/
theorem coeriRoundTrip : Obligations.CoeriRoundTrip := by
  intro i hi
  show Coeri.Decoded i
  cases i
  case add st d a b | sub st d a b | and st d a b | or st d a b | xor st d a b | sll st d a b | srl st d a b | sra st d a b |
    slt st d a b | sltu st d a b | mul st d a b | mulh st d a b | mulhu st d a b | div st d a b | divu st d a b | rem st d a b
    | remu st d a b | min st d a b | max st d a b | minu st d a b | maxu st d a b | clz st d a b | ctz st d a b | popc st d a
    b =>
    exact Coeri.decoded_int (st := st) rfl rfl (by decide)
  case addi st d a imm | andi st d a imm | ori st d a imm | xori st d a imm | shi st d a imm | lih st d a imm | jalr st d a
    imm | loop st d a imm | ldD st d a imm | ldW st d a imm | ldWu st d a imm | ldH st d a imm | ldHu st d a imm | ldB st d a
    imm | ldBu st d a imm | stD st d a imm | stW st d a imm | stH st d a imm | stB st d a imm | trap st d a imm | crr st d a
    imm | crw st d a imm =>
    exact Coeri.decoded_imm (st := st) rfl rfl (by decide)
  case faddD st d a b | fsubD st d a b | fmulD st d a b | fdivD st d a b | fsqrtD st d a b | fminD st d a b | fmaxD st d a b |
    feqD st d a b | fltD st d a b | fleD st d a b | fclassD st d a b | faddS st d a b | fsubS st d a b | fmulS st d a b |
    fdivS st d a b | fsqrtS st d a b | fminS st d a b | fmaxS st d a b | feqS st d a b | fltS st d a b | fleS st d a b |
    fclassS st d a b | fcvtDS st d a b | fcvtSD st d a b | fcvtDL st d a b | fcvtLD st d a b | fcvtSL st d a b | fcvtLS st d a
    b =>
    exact Coeri.decoded_fp (st := st) rfl rfl (by decide)
  case fmaddD st d a b c | fmsubD st d a b c | fnmaddD st d a b c | fnmsubD st d a b c | fmaddS st d a b c | fmsubS st d a b c
    | fnmaddS st d a b c | fnmsubS st d a b c =>
    exact Coeri.decoded_fma (st := st) rfl rfl (by decide)
  case beq st a b off | bne st a b off | blt st a b off | bge st a b off | bltu st a b off | bgeu st a b off =>
    exact Coeri.decoded_branch (st := st) rfl rfl (by decide)
  case jal st off =>
    exact Coeri.decoded_jump rfl rfl
  case vadd st v | vsub st v | vmul st v | vmulh st v | vmulhu st v | vmin st v | vmax st v | vminu st v | vmaxu st v | vand
    st v | vor st v | vxor st v | vsll st v | vsrl st v | vsra st v | vcmpeq st v | vcmpne st v | vcmplt st v | vcmpltu st v |
    vcmple st v | vcmpleu st v | vfadd st v | vfsub st v | vfmul st v | vfma st v | vfnma st v | vfdiv st v | vfsqrt st v |
    vfmin st v | vfmax st v | vfabs st v | vfneg st v | vfcmpeq st v | vfcmplt st v | vfcmple st v | vfcmpun st v |
    vcvtFromE4m3 st v | vcvtFromE5m2 st v | vcvtToE4m3 st v | vcvtToE5m2 st v | vid st v | vslidedn st v | vslideup st v |
    vperm st v | vrsum st v | vrmin st v | vrmax st v | vsegsum st v | vsegmin st v | vsegmax st v | vcompress st v | vexpand
    st v | vld st v | vlds st v | vst st v | vsts st v | vldm st v | vldsm st v | vstm st v | vstsm st v | vgatherW st v |
    vgatherD st v | vscatterW st v | vscatterD st v | vgathermW st v | vgathermD st v | vscattermW st v | vscattermD st v |
    vldff st v | vgatherffW st v | vgatherffD st v | vldffm st v | vgatherffmW st v | vgatherffmD st v | vhadd st v | vmvsx st
    v | vins st v | vbcast st v | vmpopc st v | vmfirst st v | vwake st v | vsetvl st v =>
    exact Coeri.decoded_vec (st := st) rfl rfl (by decide) (by decide) (by decide)
  case vcvt st src v =>
    exact Coeri.decoded_vec (st := st) rfl (Coeri.vecOp_vcvt st v src) (by decide) (by decide) (by have := src.isLt; omega)
  case kand st kd ks1 ks2 vd va vb | kor st kd ks1 ks2 vd va vb | kxor st kd ks1 ks2 vd va vb | kandn st kd ks1 ks2 vd va vb
    =>
    exact Coeri.decoded_mask (st := st) rfl rfl (by decide)
  case mload st m | mfeed st m | mdrain st m | mstat st m | fmtsel st m | bget st m | bput st m | shift st m | permute st m |
    teamSend st m | siding st m | release st m | permset st m | fsubmit st m | backward st m | backwardAndRelease st m |
    forgeRelease st m =>
    exact Coeri.decoded_unit (st := st) rfl rfl (by decide) (by decide)
  case stashOpen st put m | stashPut st put m | stashGet st put m | stashFree st put m | stashClose st put m =>
    cases put <;> exact Coeri.decoded_unit (st := st) rfl rfl (by decide) (by decide)
  case send st d a b | recv st d a b | recva st d a b | mgrant st d a b | chclose st d a b =>
    exact Coeri.decoded_msg (st := st) rfl rfl (by decide)
  case fwait st d a b | fyield st d a b =>
    exact Coeri.decoded_frame (st := st) rfl rfl (by decide)
  case fence st d a b | eret st d a b | cyield st d a b | halt st d a b =>
    exact Coeri.decoded_ctx (st := st) rfl rfl (by decide)
  all_goals exact absurd rfl hi

end Sys2Proof.Machine
end

section
/-! What engines do without memory: notices, flits, reclaimed tokens, records and events leave every byte as it was, and an
event that is set stays set. -/

namespace Sys2Proof.Machine

namespace Device

/-- Every event bit of d is set in e. -/
def EventsKept (d e : Device) : Prop := ∀ (p : Page) (i : Nat), flag (d.preg p 0x028) i = true → flag (e.preg p 0x028) i = true

/-- e is d but for registers, messages to the host, tallies and the states of stalls, ports, drovers and sidings: memory, its
errors and its controllers stay, and so does every event. -/
def Managed (d e : Device) : Prop :=
  e = { d with
    regs := e.regs, pba := e.pba, out := e.out, tally := e.tally, stalls := e.stalls, ports := e.ports, drovers := e.drovers
    sidings := e.sidings } ∧ EventsKept d e

theorem EventsKept.of_regs {d e : Device} (h : e.regs = d.regs) : EventsKept d e := fun p i hf => by
  rw [preg, reg, h]
  exact hf

/-- Writing a register other than an event register keeps the events. -/
theorem eventsKept_setPreg (d : Device) (p : Page) (o : Nat) (v : W32) (ho : o < 0x1000) (h : o ≠ 0x028) :
    EventsKept d (d.setPreg p o v) := fun q i hf => by
  rw [preg, setPreg, reg_setReg_ne _ _ _ _ (Page.reg_ne q p (by decide) ho (Ne.symm h))]
  exact hf

theorem eventsKept_event (d : Device) (p : Page) (i : Nat) : EventsKept d (d.event p i) := by
  intro q j hf
  have hmsix (x : Device) : (x.msix 0).regs = x.regs := by
    unfold msix
    split <;> rfl
  have hset : flag ((d.setPreg p 0x028 (setBit (d.preg p 0x028) i)).preg q 0x028) j = true := by
    by_cases hq : q.reg 0x028 = p.reg 0x028
    · rw [preg, setPreg, hq, reg_setReg_same, flag_setBit]
      rw [preg, hq] at hf
      simp [preg, hf]
    · rw [preg, setPreg, reg_setReg_ne _ _ _ _ hq]
      exact hf
  unfold event
  split
  · exact hf
  · dsimp only
    split
    · rw [preg, reg, hmsix]
      exact hset
    · exact hset

namespace Managed

theorem refl (d : Device) : Managed d d := ⟨rfl, fun _ _ h => h⟩

theorem trans {d e f : Device} (h : Managed d e) (k : Managed e f) : Managed d f := by
  refine ⟨?_, fun p i hf => k.2 p i (h.2 p i hf)⟩
  rw [k.1, h.1]

theorem of_quiet {d e : Device} (h : Quiet d e) (k : EventsKept d e) : Managed d e := ⟨by rw [h], k⟩

section
variable {d e : Device} (h : Managed d e)
include h

theorem mc : e.mc = d.mc := by rw [h.1]
theorem boot : e.boot = d.boot := by rw [h.1]
theorem rdByte (a : Nat) : e.rdByte a = d.rdByte a := by rw [h.1]; rfl

end

/-- What keeps memory at each step of a walk keeps it over the walk. -/
theorem foldl {α : Type} {f : Device → α → Device} (hf : ∀ d x, Managed d (f d x)) (l : List α) (d : Device) :
    Managed d (l.foldl f d) := by
  induction l generalizing d with
  | nil => exact refl d
  | cons x l ih => exact (hf d x).trans (ih _)

end Managed

section
variable (d : Device)

theorem managed_setPreg (p : Page) (o : Nat) (v : W32) (ho : o < 0x1000) (h : o ≠ 0x028) : Managed d (d.setPreg p o v) :=
  .of_quiet (d.quiet_setPreg p o v) (d.eventsKept_setPreg p o v ho h)

theorem managed_bump (p : Page) (o n : Nat) (ho : o < 0x1000) (h : o ≠ 0x028) : Managed d (d.bump p o n) :=
  d.managed_setPreg p o _ ho h

theorem managed_event (p : Page) (i : Nat) : Managed d (d.event p i) := .of_quiet (d.quiet_event p i) (d.eventsKept_event p i)

theorem managed_recordBits (p : Page) (bits : W32) (bit : Nat) (c : Code) (i : Bool) :
    Managed d (d.recordBits p bits bit c i) := by
  unfold recordBits
  extract_lets old fresh e x y
  have he : Managed d e := d.managed_setPreg p _ _ (by decide) (by decide)
  have hy : Managed d y := by
    dsimp only [y]
    split
    · exact ((he.trans (managed_setPreg _ p _ _ (by decide) (by decide))).trans
        (managed_setPreg _ p _ _ (by decide) (by decide))).trans (managed_setPreg _ p _ _ (by decide) (by decide))
    · exact he
  split
  · exact hy
  · exact hy.trans (y.managed_event p 0)

theorem managed_record (p : Page) (c : Code) : Managed d (d.record p c) := by
  unfold record
  extract_lets n
  split
  · exact .refl d
  · exact d.managed_recordBits p _ _ _ _

theorem managed_eventCode (p : Page) (i : Nat) (c : Code) : Managed d (d.eventCode p i c) :=
  (d.managed_record p c).trans (managed_event _ p i)

theorem managed_logRing (r : BitVec 512) : Managed d (d.logRing r) := ⟨rfl, fun _ _ h => h⟩

theorem managed_reclaim (cause : Fin 5) (c : Code) (p : Page) (t n : Nat) : Managed d (d.reclaim cause c p t n) := by
  unfold reclaim
  split
  · exact .refl d
  · have h0 : Managed d { d with tally := { d.tally with reclaimed := upd d.tally.reclaimed cause (· + n) } } :=
      ⟨rfl, fun _ _ h => h⟩
    exact (h0.trans (managed_logRing _ _)).trans (managed_eventCode _ _ _ _)

theorem managed_modStall (st : StallId) (f : Stall → Stall) : Managed d (d.modStall st f) := ⟨rfl, fun _ _ h => h⟩

theorem managed_modTeam (y : Yard) (t : Fin 64) (f : Team → Team) : Managed d (d.modTeam y t f) := ⟨rfl, fun _ _ h => h⟩

theorem managed_modDrover (y : Yard) (f : Drover → Drover) : Managed d (d.modDrover y f) := ⟨rfl, fun _ _ h => h⟩

theorem managed_modPort (p : PortId) (f : Port → Port) : Managed d (d.modPort p f) := ⟨rfl, fun _ _ h => h⟩

theorem managed_post (st : StallId) (m : Fin 8) (src : BitVec 9) (l : List Nat) : Managed d (d.post st m src l) := by
  unfold post
  extract_lets data msg e x away
  have he : Managed d e := d.managed_modStall st _
  split
  · exact he.trans (e.managed_modStall st _)
  · exact he

theorem managed_releaseNotices (st : StallId) (m : Fin 8) (n : Nat) (cause : Fin 5) (c : Code) :
    Managed d (d.releaseNotices st m n cause c) :=
  (d.managed_modStall st _).trans (managed_reclaim _ _ _ _ _ _)

/-! ### Barrow and drover -/

theorem managed_barrowNotice (st : StallId) (j : BarrowJob) (code cause : Code) (k bytes fail : Nat) :
    Managed d (d.barrowNotice st j code cause k bytes fail) := by
  unfold barrowNotice
  split
  · exact .refl d
  · exact d.managed_post st _ _ _

theorem managed_reassessBarrow (st : StallId) (c : Chan) (lvl : Chan → Nat) : Managed d (d.reassessBarrow st c lvl) := by
  refine Managed.foldl (fun e i => ?_) _ d
  dsimp only
  split
  · exact .refl e
  · split
    · split
      · exact .refl e
      · exact (e.managed_modStall st _).trans (managed_barrowNotice _ st _ _ _ _ _ _)
    · exact .refl e

theorem managed_teamFlit (y : Yard) (t : Fin 64) (neg : Bool) (src kind : Nat) (poison booked ahead : Bool)
    (payload : List Byte) : Managed d (d.teamFlit y t neg src kind poison booked ahead payload) := by
  unfold teamFlit
  extract_lets p tag w vc
  split
  · split
    · exact d.managed_modPort p _
    · exact d.managed_modPort p _
  · exact .refl d

theorem managed_droveNotice (y : Yard) (j : DroveJob) (status cause : Code) (rank : BitVec 4) (k : Nat)
    (accept promise : Option Frame) (bytes : Nat) :
    Managed d (d.droveNotice y j status cause rank k accept promise bytes) := d.managed_post _ _ _ _

theorem managed_abortAnswer (y : Yard) (t : Fin 64) (c : Code) : Managed d (d.abortAnswer y t c) :=
  ((d.managed_modDrover y _).trans (managed_modTeam _ y t _)).trans (managed_eventCode _ _ _ _)

theorem managed_reclaimOp (y : Yard) (t : Fin 64) (status : Code) : Managed d (d.reclaimOp y t status) := by
  unfold reclaimOp
  split
  · exact .refl d
  · next o _ =>
    extract_lets st left d1 d2 d3
    have h1 : Managed d d1 := by
      dsimp only [d1]
      split
      · next s _ =>
        have h0 : Managed d (d.setSiding st o.job.slot o.sidingIdx { s with reserved := s.reserved - left }) :=
          ⟨rfl, fun _ _ h => h⟩
        exact h0.trans (managed_reclaim _ _ _ _ _ _)
      · exact .refl d
    have h2 : Managed d d2 := by
      dsimp only [d2]
      split
      · exact h1.trans (managed_reclaim _ _ _ _ _ _)
      · exact h1
    have h3 : Managed d d3 := by
      dsimp only [d3]
      split
      · exact h2
      · exact h2.trans (managed_releaseNotices _ _ _ _ _ _)
    exact h3.trans (managed_modTeam _ y t _)

theorem managed_closeOp (y : Yard) (t : Fin 64) (status : Code) : Managed d (d.closeOp y t status) := by
  unfold closeOp
  split
  · exact .refl d
  · exact (d.managed_reclaimOp y t status).trans (managed_modTeam _ y t _)

theorem managed_endOp (y : Yard) (t : Fin 64) (status cause : Code) (rank : BitVec 4) (k : Nat) (close : Bool) :
    Managed d (d.endOp y t status cause rank k close) := by
  unfold endOp
  split
  · exact .refl d
  · next o _ =>
    extract_lets accept d0 d1 d2 d3
    have h2 : Managed d d2 := by
      dsimp only [d2]
      split
      · exact ((d.managed_droveNotice y o.job _ _ _ _ _ _ _).trans (managed_modTeam _ y t _)).trans
          (managed_bump _ _ _ _ (by split <;> decide) (by split <;> decide))
      · exact .refl d
    have h3 : Managed d d3 := by
      dsimp only [d3]
      split
      · exact h2.trans (managed_abortAnswer _ y t _)
      · exact h2
    split
    · exact h3.trans (managed_closeOp _ y t _)
    · split
      · exact h3.trans (managed_reclaimOp _ y t _)
      · exact h3

theorem managed_memberOffline (y : Yard) (t : Fin 64) : Managed d (d.memberOffline y t) := by
  unfold memberOffline
  split
  · split
    · exact ((d.managed_teamFlit y t _ _ _ _ _ _ _).trans (managed_modTeam _ y t _)).trans (managed_endOp _ y t _ _ _ _ _)
    · exact .refl d
  · exact .refl d

theorem managed_modOp (y : Yard) (t : Fin 64) (f : TeamOp → TeamOp) : Managed d (d.modOp y t f) := d.managed_modTeam y t _

theorem managed_reassessTeam (y : Yard) (t : Fin 64) (c : Chan) : Managed d (d.reassessTeam y t c) := by
  unfold reassessTeam
  extract_lets m
  split
  · extract_lets
    split
    · exact d.managed_modOp y t _
    · exact .refl d
  · exact .refl d

theorem managed_offlineTeam (y : Yard) (t : Fin 64) (c : Chan) : Managed d (d.offlineTeam y t c) := by
  unfold offlineTeam
  split
  · split
    · exact d.managed_memberOffline y t
    · exact .refl d
  · exact .refl d

theorem managed_levelEffects (c : Chan) (l : Nat) : Managed d (d.levelEffects c l) := by
  unfold levelEffects
  extract_lets page lvl x y
  have hx : Managed d x := by
    dsimp only [x]
    split
    · exact (d.managed_record page _).trans (managed_logRing _ _)
    · exact .refl d
  have hy : Managed x y := Managed.foldl (fun e st => by
    split
    · exact .refl e
    · exact e.managed_reassessBarrow st c lvl) _ x
  refine (hx.trans hy).trans (Managed.foldl (fun e u => Managed.foldl (fun e t => ?_) _ e) _ y)
  split
  · exact .refl e
  · split
    · exact e.managed_reassessTeam u t c
    · split
      · exact e.managed_offlineTeam u t c
      · exact .refl e

end

end Device

end Sys2Proof.Machine
end

section
/-! The memory controllers' own events (R304, R311, R313, R314, R329). -/

namespace Sys2Proof.Machine

/-- A command that leaves the device as it is has no effect. -/
theorem next_of_unchanged {s : State} {f : Device → Device} (h : f s.dev = s.dev) :
    (Host.Outcome.next (s.onDev f) : Host.Outcome State Fault Refusal) = .next s :=
  congrArg Host.Outcome.next (onDev_congr (g := id) h)

/-- What a command makes of the device. -/
theorem next_congr {s : State} {f : Device → Device} (g : Device → Device) (h : f s.dev = g s.dev) :
    (Host.Outcome.next (s.onDev f) : Host.Outcome State Fault Refusal) = .next (s.onDev g) :=
  congrArg Host.Outcome.next (onDev_congr h)

namespace Device

/-- The level by which a temperature enters, from level 0. -/
theorem heatLevel_zero (t : Int) : heatLevel 0 t = if 105 < t then 3 else if 95 < t then 2 else if 85 < t then 1 else 0 := by
  have h4 : List.range 4 = [0, 1, 2, 3] := rfl
  by_cases h3 : 105 < t
  · simp [heatLevel, heatLimit, h4, h3, show 95 < t by omega, show 85 < t by omega]
  · by_cases h2 : 95 < t
    · simp [heatLevel, heatLimit, h4, h3, h2, show 85 < t by omega]
    · by_cases h1 : 85 < t
      · simp [heatLevel, heatLimit, h4, h3, h2, h1]
      · simp [heatLevel, heatLimit, h4, h3, h2, h1]

/-- Level 1 stays until the temperature has fallen 5 °C below its entry. -/
theorem heatLevel_one {t : Int} (h : t ≤ 85) : heatLevel 1 t = if 80 < t then 1 else 0 := by
  have h4 : List.range 4 = [0, 1, 2, 3] := rfl
  by_cases h1 : 80 < t
  · simp [heatLevel, heatLimit, h4, h1, show ¬ 95 < t by omega, show ¬ 85 < t by omega, show ¬ 105 < t by omega]
  · simp [heatLevel, heatLimit, h4, h1, show ¬ 95 < t by omega, show ¬ 85 < t by omega, show ¬ 105 < t by omega]

/-- A controller whose level of the next boundary takes effect. -/
def relevel (l : Nat) (m : MemCtl) : MemCtl :=
  { m with level := l, next := none, due := false, state := if l = 3 then .offline else m.state }

/-- A level change writes its controller, raises the page's event, and keeps memory. -/
theorem managed_changeLevel (d : Device) (c : Chan) (l : Nat) :
    Managed ((d.modMc c (relevel l)).event (Page.memctl c) 1) (d.changeLevel c l) := by
  change Managed _ (if d.mc[c].state = .inService then ((d.modMc c (relevel l)).event (Page.memctl c) 1).levelEffects c l
    else (d.modMc c (relevel l)).event (Page.memctl c) 1)
  generalize (d.modMc c (relevel l)).event (Page.memctl c) 1 = y
  split
  · exact y.managed_levelEffects c l
  · exact .refl y

end Device

/-- Settles O43: each event's guard and what it writes of its controller. -/
theorem memoryController : Obligations.MemoryController := by
  intro c s m becomes
  refine ⟨fun code temp hage => ?_, fun code temp hst hserv hage => ?_, fun t => ?_, fun l hnext hdue => ?_,
    fun bank hst hsafe => ?_, fun bank h => ?_, fun hwin => ?_⟩
  · have hage : s.dev.mc[c.val].age < 64 := hage
    exact next_of_unchanged (if_pos (by simp [hage]))
  · have hage : ¬ s.dev.mc[c.val].age < 64 := Nat.not_lt.mpr hage
    refine ⟨_, next_congr (fun d => d.modMc c _) (if_neg ?_), ⟨rfl, rfl⟩, rfl⟩
    have hst : s.dev.mc[c.val].state = .inService ∨ s.dev.mc[c.val].state = .offline := hst
    rcases hst with h | h <;> simp [h, hserv, hage]
  · refine ⟨Device.heatLevel_zero t, fun h h' => ?_, fun h => ?_⟩
    · rw [Device.heatLevel_one h', if_pos h]
    · rw [Device.heatLevel_one (by omega), if_neg (by omega)]
  · have hk := s.dev.managed_changeLevel c l
    refine ⟨s.onDev fun d => d.changeLevel c l, next_congr _ ?_, ?_, ?_, fun a => ?_⟩
    · rw [show s.dev.mc[c].next = some l from hnext]
      exact if_pos hdue
    · exact hk.mc.trans (by rw [Device.quiet_event]; rfl)
    · exact hk.2 _ _ (Device.flag_event _ _ 1 (by decide))
    · exact (hk.rdByte a).trans (((Device.quiet_event _ _ _).rdByte a).trans
        ((s.dev.modMc_fill c (Device.relevel l) fun _ => rfl).rdByte a))
  · have hst : s.dev.mc[c.val].state = .inService := hst
    exact ⟨_, next_congr (fun d => d.modMc c fun m => { m with refreshes := m.refreshes + 1 })
      (if_pos (by simp [hst, hsafe, Device.selfRefresh])), ⟨rfl, rfl⟩, rfl⟩
  · refine next_of_unchanged (if_neg ?_)
    have h : s.dev.boot.state = .safe ∨ s.dev.mc[c.val].state = .offline := h
    rcases h with h | h <;> simp [Device.selfRefresh, h]
  · exact ⟨_, next_congr (fun d => d.modMc c fun m => { m with ueW := 0, winAge := 0 }) (if_pos hwin), ⟨rfl, rfl⟩, rfl⟩

end Sys2Proof.Machine
end

section
/-! Entry into SAFE (R469, R541, R542): every slot halts, every engine stops, and no byte of memory changes but of the format
ledgers. -/

namespace Sys2Proof.Machine

namespace Device

/-! ### Bytes -/

/-- e holds the bytes that d holds: the listed ones, and what an unlisted one reads as. -/
def SameBytes (d e : Device) : Prop := e.mem = d.mem ∧ e.blank = d.blank

namespace SameBytes

theorem refl (d : Device) : SameBytes d d := ⟨rfl, rfl⟩

theorem trans {d e f : Device} (h : SameBytes d e) (k : SameBytes e f) : SameBytes d f := ⟨k.1.trans h.1, k.2.trans h.2⟩

theorem rdByte {d e : Device} (h : SameBytes d e) (a : Nat) : e.rdByte a = d.rdByte a := by
  rw [Device.rdByte, Device.rdByte, h.1, h.2]

end SameBytes

theorem SameFill.sameBytes {d e : Device} (h : SameFill d e) : SameBytes d e := ⟨h.1, h.blank⟩
theorem Quiet.sameBytes {d e : Device} (h : Quiet d e) : SameBytes d e := h.fill.sameBytes

theorem Managed.sameBytes {d e : Device} (h : Managed d e) : SameBytes d e := by
  rw [h.1]
  exact ⟨rfl, rfl⟩

/-! ### What the host and the links see -/

/-- e is d but for registers, tallies, ports, host queues, host memory and transactions; every event stays. -/
def Outer (d e : Device) : Prop :=
  e = { d with
    regs := e.regs, pba := e.pba, out := e.out, tally := e.tally, ports := e.ports, queues := e.queues, host := e.host
    hostBad := e.hostBad, banks := e.banks, free := e.free } ∧ EventsKept d e

namespace Outer

theorem refl (d : Device) : Outer d d := ⟨rfl, .of_regs rfl⟩

theorem trans {d e f : Device} (h : Outer d e) (k : Outer e f) : Outer d f := by
  refine ⟨?_, fun p i hf => k.2 p i (h.2 p i hf)⟩
  rw [k.1, h.1]

theorem of_quiet {d e : Device} (h : Quiet d e) (k : EventsKept d e) : Outer d e := ⟨by rw [h], k⟩

theorem sameBytes {d e : Device} (h : Outer d e) : SameBytes d e := by
  rw [h.1]
  exact ⟨rfl, rfl⟩

theorem tick {d e : Device} (h : Outer d e) : e.tick = d.tick := by rw [h.1]

theorem foldl {α : Type} {f : Device → α → Device} (hf : ∀ d x, Outer d (f d x)) (l : List α) (d : Device) :
    Outer d (l.foldl f d) := by
  induction l generalizing d with
  | nil => exact refl d
  | cons x l ih => exact (hf d x).trans (ih _)

end Outer

section
variable (d : Device)

theorem outer_sendDown (p : PortId) (c : Nat) : Outer d (d.sendDown p c) := by
  unfold sendDown
  extract_lets q w r
  split
  · exact ⟨rfl, .of_regs rfl⟩
  · exact .refl d

theorem outer_logFence (p : PortId) (c : Code) : Outer d (d.logFence p c) := ⟨rfl, .of_regs rfl⟩

theorem outer_event (p : Page) (i : Nat) : Outer d (d.event p i) :=
  .of_quiet (d.quiet_event p i) (d.eventsKept_event p i)
theorem outer_record (p : Page) (c : Code) : Outer d (d.record p c) :=
  .of_quiet (d.quiet_record p c) (d.managed_record p c).2
theorem outer_bump (p : Page) (o n : Nat) (ho : o < 0x1000) (h : o ≠ 0x028) : Outer d (d.bump p o n) :=
  .of_quiet (d.quiet_bump p o n) (d.managed_bump p o n ho h).2

theorem outer_leavePort (p : PortId) (new : PortState) (detail : Nat) (code : Code) :
    Outer d (d.leavePort p new detail code) := by
  unfold leavePort
  extract_lets q page d1 d2 d3 d4 d5 d6
  have h1 : Outer d d1 := by
    dsimp only [d1]
    split
    · exact d.outer_sendDown p detail
    · exact .refl d
  have h2 : Outer d d2 := h1.trans ⟨rfl, .of_regs rfl⟩
  have h3 : Outer d d3 := (h2.trans (outer_record _ page code)).trans (outer_event _ page 1)
  have h4 : Outer d d4 := by
    dsimp only [d4]
    split
    · exact h3.trans (outer_logFence _ p _)
    · exact h3
  have h5 : Outer d d5 := by
    dsimp only [d5]
    split
    · exact (h4.trans (outer_bump _ page _ _ (by decide) (by decide))).trans (outer_event _ page 3)
    · exact h4
  have h6 : Outer d d6 := by
    dsimp only [d6]
    split
    · exact h5.trans (outer_logFence _ p _)
    · exact h5
  split
  · exact h6.trans (outer_event _ page 4)
  · exact h6

theorem outer_wrHost (a : Nat) (l : List Byte) : Outer d (d.wrHost a l) := by
  induction l generalizing d a with
  | nil => exact .refl d
  | cons b l ih => exact Outer.trans (e := { d with host := _, hostBad := _ }) ⟨rfl, .of_regs rfl⟩ (ih _ _)

theorem outer_modQueue (q : QueueId) (f : HostQueue → HostQueue) : Outer d (d.modQueue q f) :=
  ⟨rfl, .of_regs rfl⟩

theorem outer_writeCompletion (q : QueueId) (c : Completion) : Outer d (d.writeCompletion q c) := by
  unfold writeCompletion
  extract_lets h w0 x next y z v
  have hz : Outer d z := ((d.outer_wrHost _ _).trans (outer_modQueue _ q _)).trans
    (outer_bump _ _ _ _ (by split <;> decide) (by split <;> decide))
  split
  · exact hz
  · exact hz.trans (.of_quiet (z.quiet_msix v) fun p i hf => by rwa [preg_msix])

theorem outer_completeCmd (q : QueueId) (cid : BitVec 16) (code : Code) (r : W64) : Outer d (d.completeCmd q cid code r) := by
  unfold completeCmd
  extract_lets c h
  split
  · exact d.outer_writeCompletion q c
  · exact d.outer_modQueue q _

theorem outer_finishCmd (q : QueueId) (p : HostCmd → Bool) (code : Code) (r : W64) : Outer d (d.finishCmd q p code r) := by
  unfold finishCmd
  split
  · exact .refl d
  · exact (d.outer_modQueue q _).trans (outer_completeCmd _ q _ code r)

theorem outer_passSkipped (q : QueueId) (n : Nat) : Outer d (d.passSkipped q n) := by
  induction n generalizing d with
  | zero => exact .refl d
  | succ n ih =>
    rw [passSkipped]
    split
    · exact (d.outer_modQueue q _).trans (ih _)
    · exact .refl d

theorem outer_abortSubmitted (q : QueueId) (pos : Nat) (r : W64) : Outer d (d.abortSubmitted q pos r) :=
  ((d.outer_modQueue q _).trans (outer_passSkipped _ q _)).trans (outer_completeCmd _ q _ _ r)

theorem outer_abortQueue (q : QueueId) (cause : Code) : Outer d (d.abortQueue q cause) :=
  (Outer.foldl (fun e _ => e.outer_finishCmd q _ _ _) _ d).trans (Outer.foldl (fun e p => e.outer_abortSubmitted q p _) _ _)

theorem outer_endTxn (w : Fin 2) (s : TxnState) (c : Code) (p o : W32) : Outer d (d.endTxn w s c p o) :=
  ((show Outer d (d.modBank w _) from ⟨rfl, .of_regs rfl⟩).trans
    (outer_bump _ _ _ _ (by split <;> decide) (by split <;> decide))).trans
    (.of_quiet (quiet_eventCode _ _ _ _) (managed_eventCode _ _ _ _).2)

theorem outer_failPending : Outer d d.failPending := by
  refine Outer.foldl (fun e w => ?_) _ d
  split
  · unfold failSafe
    split
    · exact e.outer_endTxn w _ _ _ _
    · exact .refl e
  · exact .refl e

/-! ### Stalls that stop -/

/-- The stall's slots are halted, and its barrow holds no descriptor. -/
def Stopped (s : Stall) : Prop := s.primary.running = false ∧ s.paddock.running = false ∧ s.barrow = []

/-- A slot that runs halts, in SAFE. -/
def haltRunning (st : StallId) (sl : Slot) : Device := if (d.ctx st sl).running then d.haltSlot st sl 5 0 else d

theorem managed_haltSlot (st : StallId) (sl : Slot) (kind cause : Nat) : Managed d (d.haltSlot st sl kind cause) :=
  (d.managed_modStall st _).trans (managed_event _ _ _)

theorem managed_haltRunning (st : StallId) (sl : Slot) : Managed d (d.haltRunning st sl) := by
  unfold haltRunning
  split
  · exact d.managed_haltSlot st sl 5 0
  · exact .refl d

theorem stall_haltRunning_ne (st u : StallId) (sl : Slot) (h : u ≠ st) : (d.haltRunning st sl).stall u = d.stall u := by
  unfold haltRunning
  split
  · exact d.stall_haltSlot_ne st u sl 5 0 h
  · rfl

theorem running_haltRunning (st : StallId) (sl : Slot) : ((d.haltRunning st sl).ctx st sl).running = false := by
  unfold haltRunning
  split
  · simp only [haltSlot, ctx, (quiet_event _ _ _).stall, stall_modStall_same]
    cases sl <;> rfl
  · next h => simpa using h

theorem running_haltRunning_other (st : StallId) (sl sl' : Slot) (h : (d.ctx st sl').running = false) :
    ((d.haltRunning st sl).ctx st sl').running = false := by
  by_cases hs : sl' = sl
  · rw [hs]
    exact d.running_haltRunning st sl
  · unfold haltRunning
    split
    · simp only [haltSlot, ctx, (quiet_event _ _ _).stall, stall_modStall_same]
      rw [← h]
      cases sl <;> cases sl' <;> rfl
    · exact h

theorem stopStall_eq (k : Nat) (st : StallId) : ∃ f : Stall → Stall,
    stopStall k d st = ((d.haltRunning st .primary).haltRunning st .paddock).modStall st f ∧
      ∀ s, (f s).primary.running = s.primary.running ∧ (f s).paddock.running = s.paddock.running ∧ (f s).barrow = [] :=
  ⟨_, rfl, fun _ => ⟨rfl, rfl, rfl⟩⟩

theorem managed_stopStall (k : Nat) (st : StallId) : Managed d (stopStall k d st) := by
  obtain ⟨f, h, -⟩ := d.stopStall_eq k st
  rw [h]
  exact ((d.managed_haltRunning st .primary).trans (managed_haltRunning _ st .paddock)).trans (managed_modStall _ st f)

theorem stall_stopStall_ne (k : Nat) (st u : StallId) (h : u ≠ st) : (stopStall k d st).stall u = d.stall u := by
  obtain ⟨f, he, -⟩ := d.stopStall_eq k st
  rw [he, stall_modStall_ne _ _ _ _ h, stall_haltRunning_ne _ _ _ _ h, stall_haltRunning_ne _ _ _ _ h]

theorem stopped_stopStall (k : Nat) (st : StallId) : Stopped ((stopStall k d st).stall st) := by
  obtain ⟨f, he, hf⟩ := d.stopStall_eq k st
  rw [he, stall_modStall_same]
  obtain ⟨hp, hq, hb⟩ := hf (((d.haltRunning st .primary).haltRunning st .paddock).stall st)
  exact ⟨hp.trans (running_haltRunning_other _ st .paddock .primary (d.running_haltRunning st .primary)),
    hq.trans (running_haltRunning _ st .paddock), hb⟩

/-- The walk over the stalls stops those it visits. -/
theorem stopped_foldl_stopStall (k : Nat) (l : List StallId) : ∀ u, u ∈ l ∨ Stopped (d.stall u) →
    Stopped ((l.foldl (stopStall k) d).stall u) := by
  induction l generalizing d with
  | nil =>
    intro u hu
    simpa using hu
  | cons st l ih =>
    intro u hu
    refine ih _ u ?_
    by_cases h : u = st
    · subst h
      exact .inr (d.stopped_stopStall k u)
    · rw [stall_stopStall_ne _ _ _ _ h]
      rcases hu with hu | hu
      · exact .inl ((List.mem_cons.mp hu).resolve_left h)
      · exact .inr hu

/-! ### The format ledgers -/

omit d in
theorem ctxCtl_of_regs {d e : Device} (h : e.regs = d.regs) (st : StallId) : e.ctxCtl st = d.ctxCtl st := by
  rw [ctxCtl, ctxCtl, preg, preg, reg, reg, h]

theorem ctxCtl_event (p : Page) (i : Nat) (st : StallId) : (d.event p i).ctxCtl st = d.ctxCtl st := by
  unfold event
  split
  · rfl
  · dsimp only
    split
    · rw [ctxCtl, preg_msix]
      exact d.ctxCtl_setPreg p _ _ st (by decide) (by decide)
    · exact d.ctxCtl_setPreg p _ _ st (by decide) (by decide)

theorem ctxCtl_record (p : Page) (c : Code) (st : StallId) : (d.record p c).ctxCtl st = d.ctxCtl st := by
  unfold record recordBits
  extract_lets n old fresh e x y
  have he : e.ctxCtl st = d.ctxCtl st := d.ctxCtl_setPreg p _ _ st (by decide) (by decide)
  have hy : y.ctxCtl st = d.ctxCtl st := by
    dsimp only [y]
    split
    · rw [ctxCtl_setPreg _ p _ _ st (by decide) (by decide), ctxCtl_setPreg _ p _ _ st (by decide) (by decide),
        ctxCtl_setPreg _ p _ _ st (by decide) (by decide), he]
    · exact he
  split
  · rfl
  · split
    · exact hy
    · rw [ctxCtl_event, hy]

theorem ctxCtl_eventCode (p : Page) (i : Nat) (c : Code) (st : StallId) : (d.eventCode p i c).ctxCtl st = d.ctxCtl st := by
  rw [eventCode, ctxCtl_event, ctxCtl_record]

/-- The ledgers depend on the stalls, on what the drovers have queued, and on where the partitions lie. -/
theorem allLedgers_congr {d e : Device} (hs : e.stalls = d.stalls) (hl : e.ledgers = d.ledgers) (hd : e.drovers = d.drovers)
    (hc : ∀ st, e.ctxCtl st = d.ctxCtl st) : e.allLedgers = d.allLedgers := by
  have hbase : e.partBase = d.partBase := by
    funext st sl
    cases sl with
    | primary => rfl
    | paddock => rw [partBase, partBase, paddockEn, paddockEn, hc]
  have hslot : e.slotAt = d.slotAt := by
    funext st sl a
    rw [slotAt, slotAt, hbase]
  have hcheck : e.checkLedger = d.checkLedger := by
    funext j
    rw [checkLedger, checkLedger, hslot]
  have hctx : e.ctx = d.ctx := by
    funext st sl
    rw [ctx, ctx, stall, stall, hs]
  unfold allLedgers
  rw [hslot, hcheck, hctx, hl, hd]

/-- Losing the ledgers changes no byte outside them. -/
theorem rdByte_loseLedgers (k a : Nat) (h : ∀ p ∈ d.allLedgers, a < p ∨ p + 64 ≤ a) : (loseLedgers k d).rdByte a = d.rdByte a := by
  unfold loseLedgers
  generalize d.allLedgers = l at h
  induction l generalizing d with
  | nil => rfl
  | cons p l ih =>
    rw [List.foldl_cons, ih _ fun q hq => h q (List.mem_cons_of_mem p hq)]
    exact d.rdByte_wrBytes_out p a _ (by simpa using h p List.mem_cons_self)

theorem loseLedgers_only (k : Nat) : ∃ m, loseLedgers k d = { d with mem := m } := by
  unfold loseLedgers
  generalize d.allLedgers = l
  induction l generalizing d with
  | nil => exact ⟨d.mem, rfl⟩
  | cons p l ih =>
    obtain ⟨m, h⟩ := ih (d.wrBytes p ((List.range 64).map (Config.lostLedger k p)))
    exact ⟨m, by rw [List.foldl_cons, h, wrBytes_only]⟩

end

end Device

end Sys2Proof.Machine
end

section
/-! Entry into SAFE, whole (R469, R541, R542), and the causes that a clock, a watchdog and the bridge give. -/

namespace Sys2Proof.Machine

namespace Device

section
variable (d : Device)

/-! ### A change of state -/

/-- The device in another state, before the event goes out. -/
def restated (s : DevState) : Device :=
  let d := { d with
    boot := { d.boot with state := s, window := s = .romWait }
    tap := { d.tap with
      driving := (d.tap.ir = 0x00 || d.tap.ir = 0x03 || d.tap.ir = 0x04) && (s = .romWait || s = .safe) } }
  if s = .ready then d else { d with tally := { d.tally with armed := false, hit := false } }

theorem setState_quiet (s : DevState) : Quiet (d.restated s) (d.setState s) := by
  change Quiet (d.restated s) (if d.boot.state ≠ s then
    (if flag (((d.restated s).event Page.device 1).preg Page.device 0x02C) 1 && !flag ((d.restated s).preg Page.device 0x028) 1
      then (d.restated s).event Page.device 1 else ((d.restated s).event Page.device 1).msix 0) else d.restated s)
  have he := (d.restated s).quiet_event Page.device 1
  split
  · split
    · exact he
    · exact he.trans (quiet_msix _ _)
  · exact Quiet.refl _

/-- What another state leaves as it is. -/
theorem restated_only (s : DevState) : d.restated s = { d with
    boot := { d.boot with state := s, window := s = .romWait }, tap := (d.restated s).tap, tally := (d.restated s).tally } := by
  unfold restated
  dsimp only
  split <;> rfl

theorem setState_only (s : DevState) : d.setState s = { d with
    boot := { d.boot with state := s, window := s = .romWait }, tap := (d.setState s).tap, tally := (d.setState s).tally
    regs := (d.setState s).regs, pba := (d.setState s).pba, out := (d.setState s).out } := by
  have h := d.setState_quiet s
  unfold Quiet at h
  rw [h, d.restated_only s]

theorem eventsKept_setState (s : DevState) : EventsKept d (d.setState s) := by
  have hr : (d.restated s).regs = d.regs := by rw [restated_only]
  have hx : EventsKept d (d.restated s) := .of_regs hr
  change EventsKept d (if d.boot.state ≠ s then
    (if flag (((d.restated s).event Page.device 1).preg Page.device 0x02C) 1 && !flag ((d.restated s).preg Page.device 0x028) 1
      then (d.restated s).event Page.device 1 else ((d.restated s).event Page.device 1).msix 0) else d.restated s)
  have he := eventsKept_event (d.restated s) Page.device 1
  intro p i hf
  split
  · split
    · exact he p i (hx p i hf)
    · rw [preg_msix]
      exact he p i (hx p i hf)
  · exact hx p i hf

theorem sameBytes_setState (s : DevState) : SameBytes d (d.setState s) := by
  rw [setState_only]
  exact ⟨rfl, rfl⟩

/-! ### Mangers, drovers and Forges -/

omit d in
/-- A walk keeps what each of its steps keeps. -/
theorem foldl_keeps {α β : Type} {f : Device → α → Device} {p : Device → β} (h : ∀ d x, p (f d x) = p d) (l : List α)
    (d : Device) : p (l.foldl f d) = p d := by
  induction l generalizing d with
  | nil => rfl
  | cons x l ih => exact (ih _).trans (h d x)

/-- Halting the mangers changes of each stall its mangers alone. -/
theorem haltMangers_eq : ∃ v : Vector Stall 384, d.haltMangers = { d with free := d.free + 1, stalls := v } ∧
    ∀ st : StallId, ∃ m, v[st] = { d.stall st with mgr := m } :=
  ⟨_, rfl, fun st => ⟨_, Vector.getElem_ofFn st.isLt⟩⟩

theorem sameBytes_haltMangers : SameBytes d d.haltMangers := by
  obtain ⟨v, h, -⟩ := d.haltMangers_eq
  rw [h]
  exact ⟨rfl, rfl⟩

theorem kept_haltMangers : d.haltMangers.tick = d.tick ∧ d.haltMangers.regs = d.regs := by
  obtain ⟨v, h, -⟩ := d.haltMangers_eq
  rw [h]
  exact ⟨rfl, rfl⟩

theorem stopped_haltMangers {st : StallId} (h : Stopped (d.stall st)) : Stopped (d.haltMangers.stall st) := by
  obtain ⟨v, he, hv⟩ := d.haltMangers_eq
  obtain ⟨m, hm⟩ := hv st
  rw [he, stall, hm]
  exact h

theorem stopYard_only (y : Yard) :
    d.stopYard y = { d with drovers := (d.stopYard y).drovers, forges := (d.stopYard y).forges } := rfl

/-- The yard's drover and Forge hold no work. -/
def Idle (y : Yard) : Prop := d.drovers[y].jobs = [] ∧ d.forges[y].reqs = []

theorem idle_stopYard (y z : Yard) (h : z = y ∨ d.Idle z) : (d.stopYard y).Idle z := by
  unfold Idle stopYard modForge modDrover
  by_cases hz : z = y
  · subst hz
    dsimp only
    rw [upd_same, upd_same]
    exact ⟨rfl, rfl⟩
  · dsimp only
    rw [upd_ne _ _ _ _ hz, upd_ne _ _ _ _ hz]
    exact h.resolve_left hz

theorem idle_foldl_stopYard (l : List Yard) : ∀ z, z ∈ l ∨ d.Idle z → (l.foldl stopYard d).Idle z := by
  induction l generalizing d with
  | nil =>
    intro z hz
    simpa using hz
  | cons y l ih =>
    intro z hz
    refine ih _ z ?_
    rcases hz with hz | hz
    · rcases List.mem_cons.mp hz with h | h
      · exact .inr (d.idle_stopYard y z (.inl h))
      · exact .inl h
    · exact .inr (d.idle_stopYard y z (.inr hz))

theorem stalls_foldl_stopYard (l : List Yard) : (l.foldl stopYard d).stalls = d.stalls :=
  foldl_keeps (f := stopYard) (p := stalls) (fun _ _ => rfl) l d

/-! ### SAFE -/

/-- What a device in SAFE holds: no slot runs and no engine works. -/
def Halted : Prop := (∀ st, Stopped (d.stall st)) ∧ ∀ y : Yard, d.Idle y

theorem Outer.halted {d e : Device} (h : Outer d e) (k : d.Halted) : e.Halted := by
  rw [h.1]
  exact k

/-- The engines and mangers stop: bytes stay but in the ledgers. -/
def stopAll (k : Nat) : Device :=
  (finList 2).foldl stopYard ((finList 384).foldl (stopStall k) (loseLedgers k d)).haltMangers

theorem halted_stopAll (k : Nat) : (d.stopAll k).Halted := by
  unfold stopAll
  have h1 (st : StallId) : Stopped (((finList 384).foldl (stopStall k) (loseLedgers k d)).stall st) :=
    stopped_foldl_stopStall _ k _ st (.inl (List.mem_finRange st))
  generalize (finList 384).foldl (stopStall k) (loseLedgers k d) = x at h1
  refine ⟨fun st => ?_, fun y => idle_foldl_stopYard _ _ y (.inl (List.mem_finRange y))⟩
  rw [stall, stalls_foldl_stopYard]
  exact x.stopped_haltMangers (h1 st)

theorem rdByte_stopAll (k a : Nat) (h : ∀ p ∈ d.allLedgers, a < p ∨ p + 64 ≤ a) : (d.stopAll k).rdByte a = d.rdByte a := by
  unfold stopAll
  rw [foldl_keeps (f := stopYard) (p := fun x => x.rdByte a) (fun _ _ => rfl), ← d.rdByte_loseLedgers k a h]
  have h1 : Managed (loseLedgers k d) ((finList 384).foldl (stopStall k) (loseLedgers k d)) :=
    Managed.foldl (fun e st => e.managed_stopStall k st) _ _
  exact (h1.sameBytes.trans (sameBytes_haltMangers _)).rdByte a

/-- Stopping the engines keeps the tick unit and every event. -/
theorem kept_stopAll (k : Nat) : (d.stopAll k).tick = d.tick ∧ EventsKept d (d.stopAll k) := by
  have h1 : Managed (loseLedgers k d) ((finList 384).foldl (stopStall k) (loseLedgers k d)) :=
    Managed.foldl (fun e st => e.managed_stopStall k st) _ _
  obtain ⟨m, hm⟩ := d.loseLedgers_only k
  unfold stopAll
  generalize (finList 384).foldl (stopStall k) (loseLedgers k d) = x at h1
  obtain ⟨ht, hr⟩ := x.kept_haltMangers
  refine ⟨?_, fun p i hf => ?_⟩
  · rw [foldl_keeps (f := stopYard) (p := tick) (fun _ _ => rfl), ht, h1.1, hm]
  · rw [preg, reg, foldl_keeps (f := stopYard) (p := regs) (fun _ _ => rfl), hr]
    refine h1.2 p i ?_
    rw [preg, reg, hm]
    exact hf

/-- SAFE's cause is logged: the tallies alone change. -/
theorem logSafe_only (domain : Nat) (c : Code) (p : Page) :
    ∃ t, d.logSafe domain c p = { d with tally := t } := by
  unfold logSafe
  extract_lets r
  split
  · exact ⟨_, rfl⟩
  · exact ⟨_, rfl⟩

omit d in
/-- A change of the controllers' states and of the registers of start-up that say nothing of capacity keeps the bytes. -/
theorem sameBytes_of {d e : Device} (hm : e.mem = d.mem) (hcap : e.boot.memCapacity = d.boot.memCapacity)
    (hsplit : e.boot.memSplit = d.boot.memSplit) (hch : e.chanFill = d.chanFill) (hep : e.epoch = d.epoch)
    (hsh : e.shedFill = d.shedFill) (hidx : ∀ c : Chan, e.mc[c].serviceIdx = d.mc[c].serviceIdx) : SameBytes d e := by
  have hf : SameFill { d with boot := e.boot } e := ⟨hm, rfl, hch, hep, hsh, hidx⟩
  have hb : SameBytes d { d with boot := e.boot } := by
    have hplace (a : Nat) : ({ d with boot := e.boot } : Device).place a = d.place a := by
      unfold place yardAt
      rw [show ({ d with boot := e.boot } : Device).boot.memSplit = d.boot.memSplit from hsplit]
      rfl
    have hchan (a : Nat) : ({ d with boot := e.boot } : Device).chanOf a = d.chanOf a := congrArg Prod.fst (hplace a)
    refine ⟨rfl, funext fun a => ?_⟩
    unfold blank fillAt
    simp only [hchan, hcap]
  exact hb.trans hf.sameBytes

theorem outer_foldl_leavePort (l : List PortId) (new : PortState) (detail : Nat) (code : Code) :
    Outer d (l.foldl (fun d p => if d.ports[p].state = .down then d else d.leavePort p new detail code) d) :=
  Outer.foldl (fun e p => by
    split
    · exact .refl e
    · exact e.outer_leavePort p new detail code) l d

/-- Training channels, the self-test and reports stop, and the cause is shown. -/
def closed (code : Code) (alive : Bool) : Device := { d with
  mc := d.mc.map fun (m : MemCtl) => { m with state := if m.state = ChanState.training then ChanState.absent else m.state }
  boot := { d.boot with safeCause := code, diag := alive }
  pwr := { d.pwr with alert := true }
  bist := { d.bist with run := none, phase := if d.bist.run.isSome then 0 else d.bist.phase }
  trust := { d.trust with
    capture := none
    jobs := d.trust.jobs.filter fun j => match j with
      | .report _ _ => false
      | .link _ _ => true } }

theorem sameBytes_closed (code : Code) (alive : Bool) : SameBytes d (d.closed code alive) :=
  sameBytes_of rfl rfl rfl rfl rfl rfl fun c => by
    refine (congrArg MemCtl.serviceIdx (Vector.getElem_map (xs := d.mc) _ c.isLt)).trans ?_
    rfl

/-- What a stopped device shows once it has closed. -/
theorem safe_of_stopped (code : Code) (alive : Bool) (h : d.Halted) {e : Device} (he : Outer ((d.closed code alive).setState .safe) e) :
    e.boot.state = .safe ∧ e.boot.safeCause = code ∧ e.Halted ∧ SameBytes d e ∧ e.tick = d.tick ∧ EventsKept d e := by
  have h9 := d.sameBytes_closed code alive
  have ht : (d.closed code alive).tick = d.tick := rfl
  have hev : EventsKept d (d.closed code alive) := .of_regs rfl
  have hhalt : (d.closed code alive).Halted := h
  have hcause : (d.closed code alive).boot.safeCause = code := rfl
  generalize d.closed code alive = x at he h9 hhalt hcause ht hev
  have hbytes := x.sameBytes_setState .safe
  have hs := x.setState_only .safe
  have hk := x.eventsKept_setState .safe
  generalize x.setState .safe = y at he hs hbytes hk
  have hy : y.Halted := by
    rw [hs]
    exact hhalt
  have hb : e.boot = y.boot := by rw [he.1]
  refine ⟨?_, ?_, he.halted hy, (h9.trans hbytes).trans he.sameBytes, ?_,
    fun p i hf => he.2 p i (hk p i (hev p i hf))⟩
  · rw [hb, hs]
  · rw [hb, hs, ← hcause]
  · rw [he.tick, hs, ht]

/-- SAFE is entered: the cause, the state, and a device that has stopped, whose bytes stay but in the ledgers. -/
theorem enterSafe_spec (domain : Nat) (code : Code) (page : Page) (hoff : d.boot.state ≠ .off) (hsafe : d.boot.state ≠ .safe) :
    let e := d.enterSafe domain code page
    e.boot.state = .safe ∧ e.boot.safeCause = code ∧ e.Halted ∧ e.tick = d.tick ∧ EventsKept d e ∧
      ∀ a, (∀ p ∈ d.allLedgers, a < p ∨ p + 64 ≤ a) → e.rdByte a = d.rdByte a := by
  intro e
  have he : d.enterSafe domain code page = e := rfl
  clear_value e
  obtain ⟨t, ht⟩ := d.logSafe_only domain code page
  unfold enterSafe at he
  rw [if_neg hoff] at he
  rw [ht] at he
  extract_lets d1 d2 stop alive src d3 at he
  rw [if_neg hsafe] at he
  split at he
  next k d4 h4 =>
  extract_lets +lift d5 d6 d7 d8 boot8 trust8 bist8 pwr8 d9 d10 at he
  have h12 : Outer d1 d2 := d1.outer_record Page.gatehouse code
  have h23 : Outer d2 d3 := ⟨rfl, .of_regs rfl⟩
  have hd4 : d4 = { d3 with free := d3.free + 1 } := (congrArg Prod.snd h4).symm
  have h34 : Outer d3 d4 := by
    rw [hd4]
    exact ⟨rfl, .of_regs rfl⟩
  have h04 : Outer d d4 := Outer.trans (e := d1) ⟨rfl, .of_regs rfl⟩ (h12.trans (h23.trans h34))
  have hctl (st : StallId) : d4.ctxCtl st = d.ctxCtl st := by
    have h2 : d4.regs = d2.regs := by simp only [hd4, d3]
    rw [ctxCtl_of_regs h2, show d2.ctxCtl st = d1.ctxCtl st from d1.ctxCtl_record Page.gatehouse code st]
    exact ctxCtl_of_regs rfl st
  have hled : d4.allLedgers = d.allLedgers := allLedgers_congr (by rw [h04.1]) (by rw [h04.1]) (by rw [h04.1]) hctl
  have h6 : d6 = d4.stopAll k := rfl
  have h68 : Outer d6 d8 := (d6.outer_foldl_leavePort _ _ _ _).trans (Outer.foldl (fun e q => e.outer_abortQueue q code) _ d7)
  have hend : Outer d10 e := by
    rw [← he]
    split
    · exact .refl d10
    · exact d10.outer_failPending
  obtain ⟨ht6, hk6⟩ := d4.kept_stopAll k
  obtain ⟨hstate, hcause, hhalt, hbytes, htick, hkept⟩ := d8.safe_of_stopped code alive (h68.halted (d4.halted_stopAll k)) hend
  refine ⟨hstate, hcause, hhalt, ?_, fun p i hf => hkept p i (h68.2 p i (hk6 p i (h04.2 p i hf))), fun a ha => ?_⟩
  · rw [htick, h68.tick, h6, ht6, h04.tick]
  · rw [hbytes.rdByte, h68.sameBytes.rdByte, h6, d4.rdByte_stopAll k a (by rw [hled]; exact ha), h04.sameBytes.rdByte]

end

end Device

/-- A device that keeps its bytes, its ledgers and its start-up registers up to its entry into SAFE has gone to SAFE. -/
theorem wentSafe_of_enterSafe {s : State} (ha : s.alive) {d : Device} (hboot : d.boot = s.dev.boot)
    (hbytes : Device.SameBytes s.dev d) (hled : d.allLedgers = s.dev.allLedgers) (domain : Nat) (code : Code) (page : Page) :
    s.wentSafe code (s.onDev fun _ => d.enterSafe domain code page) := by
  obtain ⟨hoff, hsafe⟩ := ha
  obtain ⟨hst, hcause, ⟨hstop, hidle⟩, -, -, hmem⟩ := d.enterSafe_spec domain code page (by rwa [hboot]) (by rwa [hboot])
  refine ⟨hst, hcause, fun st sl => ?_, fun st => ?_, hidle, fun a h => ?_, rfl, rfl⟩
  · obtain ⟨hp, hq, -⟩ := hstop st
    cases sl with
    | primary => exact hp
    | paddock => exact hq
  · obtain ⟨-, -, hb⟩ := hstop st
    exact hb
  · exact (hmem a (by rwa [hled])).trans (hbytes.rdByte a)

namespace Device

/-- Records and events leave the ledgers. -/
theorem allLedgers_eventCode (d : Device) (p : Page) (i : Nat) (c : Code) : (d.eventCode p i c).allLedgers = d.allLedgers := by
  have h := d.quiet_eventCode p i c
  have hc (st : StallId) := d.ctxCtl_eventCode p i c st
  generalize d.eventCode p i c = e at h hc ⊢
  exact allLedgers_congr (by rw [h]) (by rw [h]) (by rw [h]) hc

theorem allLedgers_record (d : Device) (p : Page) (c : Code) : (d.record p c).allLedgers = d.allLedgers := by
  have h := d.quiet_record p c
  have hc (st : StallId) := d.ctxCtl_record p c st
  generalize d.record p c = e at h hc ⊢
  exact allLedgers_congr (by rw [h]) (by rw [h]) (by rw [h]) hc

/-- In SAFE a later cause is logged alone. -/
theorem enterSafe_of_safe (d : Device) (domain : Nat) (code : Code) (page : Page) (h : d.boot.state = .safe) :
    d.enterSafe domain code page = d.logSafe domain code page := by
  obtain ⟨t, ht⟩ := d.logSafe_only domain code page
  unfold enterSafe
  rw [if_neg (by simp [h]), ht]
  exact if_pos h

theorem boot_enterSafe_of_safe (d : Device) (domain : Nat) (code : Code) (page : Page) (h : d.boot.state = .safe) :
    (d.enterSafe domain code page).boot = d.boot := by
  obtain ⟨t, ht⟩ := d.logSafe_only domain code page
  rw [d.enterSafe_of_safe domain code page h, ht]

end Device

end Sys2Proof.Machine
end

section
/-! The causes of SAFE that a clock, a watchdog and the bridge give (R27, R53, R84, R541), and the stall watchdog (R83). -/

namespace Sys2Proof.Machine

namespace Device

section
variable {d e : Device} (h : Quiet d e)
include h

theorem Quiet.boot : e.boot = d.boot := by rw [h]
theorem Quiet.tick : e.tick = d.tick := by rw [h]

end

/-- The slot that is resident halts by its watchdog: the stall, and the events of its page and of the FRAME page. -/
theorem stallWatchdog_spec {d x y : Device} (st : StallId) (hy : y = d.modStall st fun s => { s with watchdogDue := false })
    (hx : x = (y.haltSlot st (y.slotOf st) 3 0).eventCode Page.frame 4 Status.frameWatchdog) :
    x.cur st = { d.cur st with running := false, hold := none, vq := [] } ∧ (x.stall st).watchdogDue = false ∧
      (x.stall st).haltReason = BitVec.ofNat 64 (d.now.toNat * 2 ^ 16 + 0x300) ∧
      flag (x.preg (Page.stall st) 0x028) 1 = true ∧ flag (x.preg Page.frame 0x028) 4 = true ∧
      x.boot = d.boot ∧ SameBytes d x ∧ ∀ u, u ≠ st → x.stall u = d.stall u := by
  have hmy : Managed d y := by
    rw [hy]
    exact d.managed_modStall st _
  have hmz := hmy.trans (y.managed_haltSlot st (y.slotOf st) 3 0)
  have hcur : y.cur st = d.cur st := by
    rw [hy, cur, stall_modStall_same]
    rfl
  have hdue : (y.stall st).watchdogDue = false := by rw [hy, stall_modStall_same]
  have hne (u : StallId) (hu : u ≠ st) : y.stall u = d.stall u := by rw [hy, stall_modStall_ne _ _ _ _ hu]
  have hnow : y.now = d.now := by rw [hy]; rfl
  have hzcur := y.cur_haltSlot st 3 0
  have hzreason := y.haltReason_haltSlot st (y.slotOf st) 3 0
  have hzflag := y.flag_haltSlot st (y.slotOf st) 3 0
  have hzne (u : StallId) := y.stall_haltSlot_ne st u (y.slotOf st) 3 0
  have hzdue : ((y.haltSlot st (y.slotOf st) 3 0).stall st).watchdogDue = false := by
    simp only [haltSlot, (quiet_event _ _ _).stall, stall_modStall_same]
    rw [← hdue]
    cases y.slotOf st <;> rfl
  generalize y.haltSlot st (y.slotOf st) 3 0 = z at hx hmz hzcur hzreason hzflag hzne hzdue
  have hq := z.quiet_eventCode Page.frame 4 Status.frameWatchdog
  have hf : flag (x.preg Page.frame 0x028) 4 = true := by
    rw [hx]
    exact flag_event _ _ 4 (by decide)
  have hk : Managed z x := by
    rw [hx]
    exact z.managed_eventCode _ _ _
  rw [← hx] at hq
  refine ⟨?_, ?_, ?_, hk.2 _ _ hzflag, hf, (hmz.trans hk).boot, (hmz.trans hk).sameBytes, fun u hu => ?_⟩
  · rw [hq.cur, hzcur, hcur]
  · rw [hq.stall, hzdue]
  · rw [hq.stall, hzreason, hnow]
    rfl
  · rw [hq.stall, hzne u hu, hne u hu]

end Device

section
variable {s : State}

/-- A cause that a page has reported before SAFE is entered. -/
theorem wentSafe_of_reported (ha : s.alive) {d x : Device} (hboot : d.boot = s.dev.boot)
    (hbytes : Device.SameBytes s.dev d) (hled : d.allLedgers = s.dev.allLedgers) (hq : Device.Quiet d x)
    (hx : x.allLedgers = d.allLedgers) (domain : Nat) (code : Code) (page : Page) :
    s.wentSafe code (s.onDev fun _ => x.enterSafe domain code page) :=
  wentSafe_of_enterSafe ha (hq.boot.trans hboot) (hbytes.trans hq.sameBytes) (hx.trans hled) domain code page

/-- A later cause changes neither state nor cause. -/
theorem stays_of_enterSafe (h : s.dev.boot.state = .safe) {x : Device} (hb : x.boot = s.dev.boot) (domain : Nat)
    (code : Code) (page : Page) : (x.enterSafe domain code page).boot.state = .safe ∧
      (x.enterSafe domain code page).boot.safeCause = s.dev.boot.safeCause := by
  rw [x.boot_enterSafe_of_safe domain code page (by rw [hb, h]), hb]
  exact ⟨h, rfl⟩

/-- The reference clock is lost before the report goes out. -/
theorem reported_refLost {k x : Device} (hk : k = s.dev.modTick fun t => { t with refLost := true })
    (hx : x = k.eventCode Page.frame 1 Status.tickLost) : Device.Quiet k x ∧ x.allLedgers = k.allLedgers ∧
      k.boot = s.dev.boot ∧ Device.SameBytes s.dev k ∧ k.allLedgers = s.dev.allLedgers ∧ k.tick.refLost = true := by
  refine ⟨?_, ?_, ?_, ?_, ?_, ?_⟩
  · rw [hx]
    exact k.quiet_eventCode _ _ _
  · rw [hx, Device.allLedgers_eventCode]
  · rw [hk]; rfl
  · rw [hk]; exact ⟨rfl, rfl⟩
  · rw [hk]; exact Device.allLedgers_congr rfl rfl rfl fun _ => rfl
  · rw [hk]; rfl

theorem refClockLost_alive (ha : s.alive) : Completes .refClockLost s fun t =>
    t.dev.tick.refLost = true ∧ s.wentSafe Status.tickLost t := by
  have hp : s.dev.powered = true := by simp [Device.powered, ha.1]
  obtain ⟨k, hk⟩ : ∃ k, k = s.dev.modTick fun t => { t with refLost := true } := ⟨_, rfl⟩
  obtain ⟨x, hx⟩ : ∃ x, x = k.eventCode Page.frame 1 Status.tickLost := ⟨_, rfl⟩
  obtain ⟨hq, hlx, hboot, hbytes, hlk, hlost⟩ := reported_refLost hk hx
  refine ⟨_, next_congr (fun _ => x.enterSafe 2 Status.tickLost Page.frame) ((if_pos hp).trans (by rw [hx, hk])), ?_,
    wentSafe_of_reported ha hboot hbytes hlk hq hlx 2 _ _⟩
  obtain ⟨-, -, -, ht, -⟩ := x.enterSafe_spec 2 Status.tickLost Page.frame (by rw [hq.boot, hboot]; exact ha.1)
    (by rw [hq.boot, hboot]; exact ha.2)
  rw [State.onDev_dev, ht, hq.tick, hlost]

theorem refClockLost_safe (h : s.dev.boot.state = .safe) : Completes .refClockLost s fun t =>
    t.dev.boot.state = .safe ∧ t.dev.boot.safeCause = s.dev.boot.safeCause := by
  have hp : s.dev.powered = true := by simp [Device.powered, h]
  obtain ⟨k, hk⟩ : ∃ k, k = s.dev.modTick fun t => { t with refLost := true } := ⟨_, rfl⟩
  obtain ⟨x, hx⟩ : ∃ x, x = k.eventCode Page.frame 1 Status.tickLost := ⟨_, rfl⟩
  obtain ⟨hq, -, hboot, -⟩ := reported_refLost hk hx
  exact ⟨_, next_congr (fun _ => x.enterSafe 2 Status.tickLost Page.frame) ((if_pos hp).trans (by rw [hx, hk])),
    stays_of_enterSafe h (hq.boot.trans hboot) 2 _ _⟩

theorem fwWatchdogExpiry_alive (ha : s.alive) (hfw : s.dev.boot.fwRunning = true) (hage : s.dev.fwLimit < s.dev.ctr.kickAge) :
    Completes .fwWatchdogExpiry s fun t => flag (t.dev.preg Page.frame 0x028) 4 = true ∧ s.wentSafe Status.frameWatchdog t := by
  have hp : s.dev.powered = true := by simp [Device.powered, ha.1]
  obtain ⟨x, hx⟩ : ∃ x, x = s.dev.eventCode Page.frame 4 Status.frameWatchdog := ⟨_, rfl⟩
  have hq : Device.Quiet s.dev x := hx ▸ s.dev.quiet_eventCode _ _ _
  have hl : x.allLedgers = s.dev.allLedgers := hx ▸ s.dev.allLedgers_eventCode _ _ _
  have hf : flag (x.preg Page.frame 0x028) 4 = true := hx ▸ Device.flag_event _ _ 4 (by decide)
  refine ⟨_, next_congr (fun _ => x.enterSafe 2 Status.frameWatchdog Page.frame)
    ((if_pos (by simp [hp, hfw, hage])).trans (by rw [hx])), ?_, wentSafe_of_reported ha rfl (.refl _) rfl hq hl 2 _ _⟩
  obtain ⟨-, -, -, -, hkept, -⟩ := x.enterSafe_spec 2 Status.frameWatchdog Page.frame (by rw [hq.boot]; exact ha.1)
    (by rw [hq.boot]; exact ha.2)
  exact hkept _ _ hf

theorem bridgeFail_alive (y : Yard) (ha : s.alive) : Completes (.bridgeFail y) s (s.wentSafe Status.bridgeFail) := by
  obtain ⟨x, hx⟩ : ∃ x, x = s.dev.record (Page.yard y) Status.bridgeFail := ⟨_, rfl⟩
  have hq : Device.Quiet s.dev x := hx ▸ s.dev.quiet_record _ _
  have hl : x.allLedgers = s.dev.allLedgers := hx ▸ s.dev.allLedgers_record _ _
  exact ⟨_, next_congr (fun _ => x.enterSafe y Status.bridgeFail (Page.yard y)) (by rw [hx]),
    wentSafe_of_reported ha rfl (.refl _) rfl hq hl y _ _⟩

theorem bridgeFail_safe (y : Yard) (h : s.dev.boot.state = .safe) : Completes (.bridgeFail y) s fun t =>
    t.dev.boot.state = .safe ∧ t.dev.boot.safeCause = s.dev.boot.safeCause := by
  obtain ⟨x, hx⟩ : ∃ x, x = s.dev.record (Page.yard y) Status.bridgeFail := ⟨_, rfl⟩
  have hq : Device.Quiet s.dev x := hx ▸ s.dev.quiet_record _ _
  exact ⟨_, next_congr (fun _ => x.enterSafe y Status.bridgeFail (Page.yard y)) (by rw [hx]),
    stays_of_enterSafe h hq.boot y _ _⟩

end

/-- Settles O41: each cause enters SAFE from a device whose bytes and ledgers are still those of before. -/
theorem safeEntry : Obligations.SafeEntry := by
  intro s stays
  refine ⟨refClockLost_alive, refClockLost_safe, fwWatchdogExpiry_alive, fun y => ⟨bridgeFail_alive y,
    bridgeFail_safe y, fun hoff hlt => ?_⟩, fun st hdue => ?_⟩
  · refine ⟨_, next_congr (fun d => d.bump (Page.yard y) 0x120 1) (if_neg hoff), ⟨⟨rfl, rfl⟩, rfl⟩, ?_⟩
    rw [State.onDev_dev, Device.bump, Device.preg_setPreg_same, if_pos hlt, BitVec.toNat_ofNat, Nat.mod_eq_of_lt hlt]
  · obtain ⟨y, hy⟩ : ∃ y, y = s.dev.modStall st fun x => { x with watchdogDue := false } := ⟨_, rfl⟩
    obtain ⟨x, hx⟩ : ∃ x, x = (y.haltSlot st (y.slotOf st) 3 0).eventCode Page.frame 4 Status.frameWatchdog := ⟨_, rfl⟩
    obtain ⟨hcur, hw, hr, hf1, hf4, hboot, hbytes, hne⟩ := Device.stallWatchdog_spec st hy hx
    exact ⟨_, next_congr (fun _ => x) ((if_pos hdue).trans (by rw [hx, hy])), hcur, hw, hr, hf1, hf4, hboot, hbytes.rdByte, hne⟩

end Sys2Proof.Machine
end

section
/-! A flit that comes in as the one expected (R345 to R349). -/

namespace Sys2Proof.Machine

theorem behind_self (a : Seq) : behind a a = 0 := by simp [behind]

/-! ### The port -/

/-- A flit of VC0 counts as heard. -/
def listening (v : Nat) (q : Port) : Port := if v = 0 then { q with heard := true } else q

/-- An ACK without news drops the flits that it names. -/
def covered (q : Port) : Port :=
  { q with unacked := q.unacked.filter fun u => u.naked || decide (0 < behind q.acked u.flit.hdr.seq) }

/-- SEQ and ACK go on. -/
def seqAdvanced (q : Port) : Port := { q with expect := q.expect + 1, ack := q.expect + 1 - 1 }

/-- A flit of VC v takes a buffer. -/
def buffered (v : Nat) (q : Port) : Port := { q with granted := vset q.granted v (vget q.granted v 0 - 1) }

/-- A port whose expected flit, of VC v, is in its buffer. -/
def hearing (v : Nat) (q : Port) : Port := buffered v (seqAdvanced (covered (listening v q)))

/-- The same port once the flit has left its buffer. -/
def heardBy (v : Nat) (q : Port) : Port := { hearing v q with owed := vset q.owed v (vget q.owed v 0 + 1) }

theorem listening_only (v : Nat) (q : Port) : listening v q = { q with heard := (listening v q).heard } := by
  unfold listening
  split <;> rfl

/-- What a flit in its buffer leaves of its port. -/
theorem hearing_only (v : Nat) (q : Port) : hearing v q = { q with
    heard := (hearing v q).heard, unacked := (hearing v q).unacked, expect := q.expect + 1
    ack := q.expect + 1 - 1, granted := vset q.granted v (vget q.granted v 0 - 1) } := by
  rw [hearing, buffered, seqAdvanced, covered, listening_only]

/-- What a flit that came in leaves of its port. -/
theorem heardBy_only (v : Nat) (q : Port) : heardBy v q = { q with
    heard := (heardBy v q).heard, unacked := (heardBy v q).unacked, expect := q.expect + 1
    ack := q.expect + 1 - 1, granted := vset q.granted v (vget q.granted v 0 - 1)
    owed := vset q.owed v (vget q.owed v 0 + 1) } := by
  rw [heardBy, hearing_only]

theorem takeAck_acked (q : Port) : Device.takeAck q q.acked = some (covered q) := by
  unfold Device.takeAck
  rw [behind_self]
  exact if_neg (by omega)

theorem advance_expected (q : Port) : Device.advance q q.expect (q.expect + 1) = seqAdvanced q := by
  have h0 : Device.gap q.expect q.expect = [] := by rw [Device.gap, behind_self]; rfl
  have hn : q.nakFlits [] = q := by simp [Port.nakFlits, chunksOf]
  rw [Device.advance, h0, hn, List.append_nil, seqAdvanced]

/-! ### The device -/

namespace Device

theorem ports_modPort_same (d : Device) (p : PortId) (f : Port → Port) : (d.modPort p f).ports[p] = f d.ports[p] :=
  upd_same _ _ _

theorem modPort_modPort (d : Device) (p : PortId) (f g : Port → Port) :
    (d.modPort p f).modPort p g = d.modPort p fun q => g (f q) := by
  simp [modPort, upd]

theorem modPort_congr (d : Device) (p : PortId) (f g : Port → Port) (h : f d.ports[p] = g d.ports[p]) :
    d.modPort p f = d.modPort p g := by
  have h' : f d.ports[p.val] = g d.ports[p.val] := h
  simp [modPort, upd, h']

/-- A header without news. -/
theorem receiveHeader_expected (d : Device) (p : PortId) (h : FlitHeader) (f : Device → Device) (hack : h.ack = d.ports[p].acked)
    (hcc : h.ccount = 0) : d.receiveHeader p h f = f (d.modPort p covered) := by
  unfold receiveHeader
  rw [hack, takeAck_acked, hcc]
  exact congrArg f (modPort_congr d p _ _ rfl)

theorem enterBuffer_free (d : Device) (p : PortId) (v : Nat) (f : Device → Device) (hg : vget d.ports[p].granted v 0 ≠ 0) :
    d.enterBuffer p v none f = f (d.modPort p (buffered v)) := if_neg hg

/-- A flit of VC0 is heard; a flit of another VC leaves the mark. -/
theorem listening_modPort (d : Device) (p : PortId) (v : Nat) :
    (if v = 0 then d.modPort p (fun q => { q with heard := true }) else d) = d.modPort p (listening v) := by
  unfold listening
  split
  · rfl
  · exact congrArg (fun w => ({ d with ports := w } : Device)) (upd_id _ _ _ rfl).symm

/-- The expected flit enters a buffer. -/
theorem receiveData_expected (d : Device) (p : PortId) (h : FlitHeader) (v : Nat) (f : Device → Device)
    (ht : d.ports[p].talking = true) (hseq : h.seq = d.ports[p].expect) (hack : h.ack = d.ports[p].acked) (hcc : h.ccount = 0)
    (hg : vget d.ports[p].granted v 0 ≠ 0) :
    d.receiveData p h v none id f = f (d.modPort p (hearing v)) := by
  have hq : (d.modPort p (listening v)).ports[p] = listening v d.ports[p] := d.ports_modPort_same p _
  have hl := listening_only v d.ports[p]
  have ht2 : (d.modPort p (listening v)).ports[p].talking = true := by
    rw [hq, hl]
    exact ht
  have hseq2 : h.seq = ((d.modPort p (listening v)).modPort p covered).ports[p].expect := by
    rw [ports_modPort_same, hq, hl]
    exact hseq
  have hack2 : h.ack = (d.modPort p (listening v)).ports[p].acked := by
    rw [hq, hl]
    exact hack
  unfold receiveData
  rw [if_neg (by rw [ht]; decide), listening_modPort]
  dsimp only [id]
  rw [if_neg (by rw [ht2]; decide), receiveHeader_expected _ _ _ _ hack2 hcc]
  have hall : ((((d.modPort p (listening v)).modPort p covered).modPort p seqAdvanced).modPort p (buffered v)) =
      d.modPort p (hearing v) := by rw [modPort_modPort, modPort_modPort, modPort_modPort]; rfl
  have hg2 : vget (((d.modPort p (listening v)).modPort p covered).modPort p seqAdvanced).ports[p].granted v 0 ≠ 0 := by
    rw [ports_modPort_same, ports_modPort_same, hq, hl]
    exact hg
  generalize (d.modPort p (listening v)).modPort p covered = x at hseq2 hg2 hall
  rw [← hall, hseq2, behind_self, if_pos (by decide), modPort_congr x p _ seqAdvanced (advance_expected _), enterBuffer_free _ _ _ _ hg2]

/-- The expected flit is taken out of its buffer as it arrives. -/
theorem receiveFlit_expected (d : Device) (p : PortId) (h : FlitHeader) (v : Nat) (f : Device → Device)
    (ht : d.ports[p].talking = true) (hseq : h.seq = d.ports[p].expect) (hack : h.ack = d.ports[p].acked) (hcc : h.ccount = 0)
    (hg : vget d.ports[p].granted v 0 ≠ 0) :
    d.receiveFlit p h v none id f = f (d.modPort p (heardBy v)) := by
  unfold receiveFlit
  rw [receiveData_expected _ _ _ _ _ ht hseq hack hcc hg, leaveBuffer, modPort_modPort]
  congr 2
  funext q
  rw [heardBy, hearing_only]

end Device

/-- A CONTROL flit that comes in as the one expected and breaks no rule takes effect. -/
theorem receiveControl_of_hears {s : State} {p : PortId} {h : FlitHeader} (hh : s.hears p h 0) {bad : Device → Option Nat}
    (hb : bad s.dev = none) (f : Device → Device) :
    s.dev.receiveControl p h bad f = f (s.dev.modPort p (heardBy 0)) := by
  obtain ⟨ht, hseq, hack, hcc, hg⟩ := hh
  rw [Device.receiveControl, hb]
  exact s.dev.receiveFlit_expected p h 0 f ht hseq hack hcc hg

end Sys2Proof.Machine
end

section
/-! The tick unit (R53, R57 to R70, R87). -/

namespace Sys2Proof.Machine

namespace Device

/-- e is d but for its tick unit, registers, messages and ports; every event stays. -/
def Ticked (d e : Device) : Prop :=
  e = { d with tick := e.tick, regs := e.regs, pba := e.pba, out := e.out, ports := e.ports, free := e.free } ∧ EventsKept d e

/-- e is d with its markers out: of the tick unit at most the mark that they wait has gone. -/
def Marked (d e : Device) : Prop :=
  e = { d with
    tick := { d.tick with markersHeld := e.tick.markersHeld }, out := e.out, ports := e.ports, free := e.free }

namespace Ticked

theorem refl (d : Device) : Ticked d d := ⟨rfl, .of_regs rfl⟩

theorem trans {d e f : Device} (h : Ticked d e) (k : Ticked e f) : Ticked d f := by
  refine ⟨?_, fun p i hf => k.2 p i (h.2 p i hf)⟩
  rw [k.1, h.1]

section
variable {d e : Device} (h : Ticked d e)
include h

theorem ctr : e.ctr = d.ctr := by rw [h.1]
theorem stalls : e.stalls = d.stalls := by rw [h.1]
theorem sameBytes : SameBytes d e := by
  rw [h.1]
  exact ⟨rfl, rfl⟩

end

theorem of_quiet {d e : Device} (h : Quiet d e) (k : EventsKept d e) : Ticked d e := ⟨by rw [h], k⟩

end Ticked

theorem Marked.ticked {d e : Device} (h : Marked d e) : Ticked d e := by
  unfold Marked at h
  refine ⟨?_, .of_regs ?_⟩
  · rw [h]
  · rw [h]

theorem Marked.tick {d e : Device} (h : Marked d e) : e.tick = { d.tick with markersHeld := e.tick.markersHeld } := by
  unfold Marked at h
  rw [h]

theorem Marked.trans {d e f : Device} (h : Marked d e) (k : Marked e f) : Marked d f := by
  unfold Marked at *
  rw [k, h]

theorem Marked.foldl {α : Type} {f : Device → α → Device} (hf : ∀ d x, Marked d (f d x)) (l : List α) (d : Device) :
    Marked d (l.foldl f d) := by
  induction l generalizing d with
  | nil => rfl
  | cons x l ih => exact (hf d x).trans (ih _)

section
variable (d : Device)

theorem ticked_modTick (f : TickUnit → TickUnit) : Ticked d (d.modTick f) := ⟨rfl, .of_regs rfl⟩
theorem ticked_modPort (p : PortId) (f : Port → Port) : Ticked d (d.modPort p f) := ⟨rfl, .of_regs rfl⟩
theorem ticked_eventCode (p : Page) (i : Nat) (c : Code) : Ticked d (d.eventCode p i c) :=
  .of_quiet (d.quiet_eventCode p i c) (d.managed_eventCode p i c).2
theorem ticked_event (p : Page) (i : Nat) : Ticked d (d.event p i) := .of_quiet (d.quiet_event p i) (d.eventsKept_event p i)
theorem ticked_record (p : Page) (c : Code) : Ticked d (d.record p c) :=
  .of_quiet (d.quiet_record p c) (d.managed_record p c).2

/-! ### Markers -/

theorem marked_sendMarkers : Marked d d.sendMarkers := by
  unfold sendMarkers
  extract_lets m d1 d2 ps d3
  have h2 (x : List (PortId × TickMarker)) : Marked d { d1 with out := { d1.out with markers := x } } := rfl
  split
  · exact h2 _
  · refine Marked.trans (h2 []) ?_
    refine Marked.foldl (fun x p => ?_) ps _
    rfl

theorem marked_releaseMarkers : Marked d d.releaseMarkers := by
  unfold releaseMarkers
  split
  · exact d.marked_sendMarkers
  · rfl

/-! ### FRAME_HOLDOVER and TICK_RESULT -/

theorem ticked_setHoldoverFlag : Ticked d d.setHoldoverFlag := by
  unfold setHoldoverFlag
  split
  · exact .refl d
  · exact (d.ticked_modTick _).trans (ticked_eventCode _ _ _ _)

theorem tick_setHoldoverFlag : d.setHoldoverFlag.tick = { d.tick with flag := true } := by
  unfold setHoldoverFlag
  split
  · next h => rw [← h]
  · rw [(quiet_eventCode _ _ _ _).tick]
    rfl

theorem ticked_tickResult (c : Code) : Ticked d (d.tickResult c) := (d.ticked_modTick _).trans (ticked_record _ _ _)

theorem tick_tickResult (c : Code) : (d.tickResult c).tick = { d.tick with result := c } :=
  (quiet_record _ _ _).tick

/-! ### HOLDOVER -/

/-- The tick unit as it enters HOLDOVER, before its flag is set. -/
def heldOver (t : TickUnit) : TickUnit :=
  { t with
    state := .holdover, holdoverFrames := 0, errRun := 0, correction := 0, stepReq := false, stepDue := false
    inStep := false }

theorem enterHoldover_spec : Ticked d d.enterHoldover ∧ flag (d.enterHoldover.preg Page.frame 0x028) 1 = true ∧
    d.enterHoldover.tick = { heldOver d.tick with flag := true, markersHeld := d.enterHoldover.tick.markersHeld } := by
  have h1 := d.ticked_modTick heldOver
  have h2 := (d.modTick heldOver).quiet_eventCode Page.frame 1 Status.tickLost
  have h3 := h1.trans (ticked_eventCode _ Page.frame 1 Status.tickLost)
  have hf : flag (((d.modTick heldOver).eventCode Page.frame 1 Status.tickLost).preg Page.frame 0x028) 1 = true :=
    flag_event _ _ 1 (by decide)
  change Ticked d (((d.modTick heldOver).eventCode Page.frame 1 Status.tickLost).setHoldoverFlag).releaseMarkers ∧
    flag ((((d.modTick heldOver).eventCode Page.frame 1 Status.tickLost).setHoldoverFlag).releaseMarkers.preg _ _) 1 = true ∧
    (((d.modTick heldOver).eventCode Page.frame 1 Status.tickLost).setHoldoverFlag).releaseMarkers.tick = { heldOver d.tick with
      flag := true
      markersHeld := (((d.modTick heldOver).eventCode Page.frame 1 Status.tickLost).setHoldoverFlag).releaseMarkers.tick.markersHeld }
  generalize (d.modTick heldOver).eventCode Page.frame 1 Status.tickLost = x at h2 h3 hf ⊢
  have h4 := x.ticked_setHoldoverFlag
  have h5 := x.tick_setHoldoverFlag
  generalize x.setHoldoverFlag = y at h4 h5 ⊢
  have h6 := y.marked_releaseMarkers
  refine ⟨(h3.trans h4).trans h6.ticked, h6.ticked.2 _ _ (h4.2 _ _ hf), ?_⟩
  rw [h6.tick, h5, h2.tick]
  rfl

/-! ### Receipt of a marker -/

/-- The tick unit has seen a marker with its tracking error. -/
def seen (m : TickMarker) (e : Int) (t : TickUnit) : TickUnit :=
  { t with last := some (m, e), lastAge := 0, hopDepth := m.hopDepth + 1 }

section
variable (m : TickMarker) (e : Int)

/-- FREE and HOLDOVER discard the marker. -/
theorem takeMarker_ignored (h : d.tick.state = .free ∨ d.tick.state = .holdover) :
    d.takeMarker m e = d.modTick fun t => { t with ignored := t.ignored + 1 } := by
  unfold takeMarker
  dsimp only
  rcases h with h | h <;> rw [h]

/-- ACQUIRING counts the run of markers of consecutive frames. -/
theorem takeMarker_acquiring (h : d.tick.state = .acquiring) {l : TickMarker} {e' : Int} (hl : d.tick.last = some (l, e')) :
    let run := if d.tick.validRun ≠ 0 ∧ m.frame = l.frame + 1 then d.tick.validRun + 1 else 1
    d.takeMarker m e = d.modTick fun t =>
      { seen m e t with validRun := run, stepReq := t.stepReq || (decide (2 ≤ run) && !t.inStep) } := by
  unfold takeMarker
  dsimp only
  rw [h]
  dsimp only
  rw [hl]
  simp only [Bool.and_eq_true, decide_eq_true_eq]
  rfl

/-- ALIGNED steps with the upstream where it is idle enough. -/
theorem takeMarker_step (h : d.tick.state = .aligned) (hm : m.step = true) (hi : d.idleToStep = true) :
    d.takeMarker m e = (d.modTick fun t => { seen m e t with stepReq := true }).releaseMarkers := by
  unfold takeMarker
  dsimp only
  rw [h]
  dsimp only
  rw [if_pos hm]
  exact if_pos hi

/-- ALIGNED goes to HOLDOVER where it is not. -/
theorem takeMarker_busy (h : d.tick.state = .aligned) (hm : m.step = true) (hi : d.idleToStep = false) :
    d.takeMarker m e = (d.modTick (seen m e)).enterHoldover := by
  unfold takeMarker
  dsimp only
  rw [h]
  dsimp only
  rw [if_pos hm]
  exact if_neg (by
    change ¬ d.idleToStep = true
    rw [hi]
    decide)

/-- ALIGNED takes the correction of the tracking error. -/
theorem takeMarker_aligned (h : d.tick.state = .aligned) (hin : d.tick.inStep = false) (hm : m.step = false) :
    d.takeMarker m e = (d.modTick fun t =>
      { seen m e t with phaseErr := e, correction := correctionOf e, errRun := if 40000 < e.natAbs then t.errRun + 1 else 0 }).releaseMarkers := by
  unfold takeMarker
  dsimp only
  rw [h]
  dsimp only
  rw [if_neg (by rw [hm]; decide), if_neg (by rw [hin]; decide)]
  simp only [decide_eq_true_eq]
  rfl

end

/-- Markers go out from a tick unit that has changed. -/
theorem tick_releaseMarkers_modTick (f : TickUnit → TickUnit) : Ticked d (d.modTick f).releaseMarkers ∧
    (d.modTick f).releaseMarkers.tick = { f d.tick with markersHeld := (d.modTick f).releaseMarkers.tick.markersHeld } := by
  have h := (d.modTick f).marked_releaseMarkers
  exact ⟨(d.ticked_modTick f).trans h.ticked, h.tick⟩

/-! ### Steps, LOAD and the end of an acquisition -/

/-- The step boundary: the frame counter, and a step frame that ends at the aligned instant. -/
theorem beginStep_spec {m : TickMarker} {e : Int} (hl : d.tick.last = some (m, e)) :
    Ticked { d with ctr := d.beginStep.ctr } d.beginStep ∧ d.beginStep.ctr = { d.ctr with frame := d.beginStep.now } ∧
      d.beginStep.now = m.frame + BitVec.ofInt 48 (stepFrames (e - d.tick.lastLen)) - 1 ∧ d.beginStep.tick.inStep = true ∧
      (d.beginStep.tick.stepLen : Int) = e - d.tick.lastLen + 10240000 * stepFrames (e - d.tick.lastLen) ∧
      d.beginStep.tick.stepDue = false := by
  obtain ⟨f, hf⟩ : ∃ f, f = m.frame + BitVec.ofInt 48 (stepFrames (e - d.tick.lastLen)) - 1 := ⟨_, rfl⟩
  obtain ⟨n, hn⟩ : ∃ n, n = (e - d.tick.lastLen + 10240000 * stepFrames (e - d.tick.lastLen)).toNat := ⟨_, rfl⟩
  have he : d.beginStep = ((({ d with ctr := { d.ctr with frame := f } } : Device).modTick fun t =>
      { t with stepDue := false, inStep := true, stepLen := n, correction := 0 }).releaseMarkers) := by
    rw [hf, hn]
    unfold beginStep
    rw [hl]
  obtain ⟨ht, htick⟩ := tick_releaseMarkers_modTick { d with ctr := { d.ctr with frame := f } } fun t =>
      { t with stepDue := false, inStep := true, stepLen := n, correction := 0 }
  rw [← he] at ht htick
  have hc := ht.ctr
  refine ⟨by rw [hc]; exact ht, by rw [now, hc], by rw [now, hc, ← hf], by rw [htick], ?_, by rw [htick]⟩
  rw [htick, hn]
  refine Int.toNat_of_nonneg ?_
  unfold stepFrames
  omega

theorem applyLoad_spec : d.applyLoad.ctr.uptime = d.ctr.uptime ∧
    d.applyLoad.now = BitVec.ofNat 48 ((d.preg Page.frame 0x118).toNat + d.pfield Page.frame 0x11C 0 16 * 2 ^ 32) ∧
    d.applyLoad.tick.loadDue = false ∧ d.applyLoad.tick.stepSent = true := by
  obtain ⟨f, hf⟩ : ∃ f, f = BitVec.ofNat 48 ((d.preg Page.frame 0x118).toNat + d.pfield Page.frame 0x11C 0 16 * 2 ^ 32) :=
    ⟨_, rfl⟩
  have he : d.applyLoad = (({ d with ctr := { d.ctr with frame := f } } : Device).modTick fun t =>
      { t with loadDue := false, stepSent := true }).releaseMarkers := by
    rw [hf]
    rfl
  obtain ⟨ht, htick⟩ := tick_releaseMarkers_modTick { d with ctr := { d.ctr with frame := f } } fun t =>
      { t with loadDue := false, stepSent := true }
  rw [← he] at ht htick
  have hc := ht.ctr
  exact ⟨by rw [hc], by rw [now, hc, hf], by rw [htick], by rw [htick]⟩

/-- The acquisition that finds no markers ends. -/
def acquireEnds : Device :=
  (((d.modTick fun t => { t with state := t.origin, stepReq := false }).tickResult Status.tickLost).event Page.frame 1).releaseMarkers

theorem acquireEnds_spec : Ticked d d.acquireEnds ∧ d.acquireEnds.tick.state = d.tick.origin ∧
    d.acquireEnds.tick.result = Status.tickLost := by
  unfold acquireEnds
  have h1 := (d.ticked_modTick fun t => { t with state := t.origin, stepReq := false }).trans (ticked_tickResult _ Status.tickLost)
  have h2 := tick_tickResult (d.modTick fun t => { t with state := t.origin, stepReq := false }) Status.tickLost
  generalize (d.modTick fun t => { t with state := t.origin, stepReq := false }).tickResult Status.tickLost = x at h1 h2 ⊢
  have h3 := x.ticked_event Page.frame 1
  have h4 := (x.quiet_event Page.frame 1).tick
  generalize x.event Page.frame 1 = y at h3 h4 ⊢
  have h5 := y.marked_releaseMarkers
  refine ⟨(h1.trans h3).trans h5.ticked, ?_, ?_⟩
  · rw [h5.tick, h4, h2]
    rfl
  · rw [h5.tick, h4, h2]

end

end Device

/-- The marker of UPSTREAM reaches the tick unit of a device that differs in the port alone. -/
theorem completes_tick {s : State} {p : PortId} {h : FlitHeader} {m : TickMarker} {arrival : Int} (hh : s.hears p h 0)
    (hr : s.dev.tickRole = 2) (hp : p = s.dev.upstream)
    (hm : (m.holdover = false ∧ m.step = false) ∨ s.dev.ports[p].has 2 = true) {f : TickUnit → Prop}
    (hf : ∀ x : Device, x.tick = s.dev.tick → x.idleToStep = s.dev.idleToStep →
      Device.Ticked x (x.takeMarker m (s.dev.trackingError p m arrival)) ∧
        f (x.takeMarker m (s.dev.trackingError p m arrival)).tick) :
    Completes (.tick p h m arrival) s fun t => f t.dev.tick ∧ t.dev.ctr = s.dev.ctr ∧ t.dev.stalls = s.dev.stalls ∧
      s.sameMemory t := by
  have hrule : s.dev.markerRule p m = none := by
    unfold Device.markerRule
    rw [if_neg (by simp [hr, hp])]
    rcases hm with ⟨h1, h2⟩ | h3
    · exact if_neg (by simp [h1, h2])
    · exact if_neg (by rw [h3]; simp)
  have herr : (s.dev.modPort p (heardBy 0)).trackingError p m arrival = s.dev.trackingError p m arrival := by
    rw [Device.trackingError, Device.ports_modPort_same, heardBy_only, Device.trackingError]
  obtain ⟨ht, hfin⟩ := hf (s.dev.modPort p (heardBy 0)) rfl rfl
  have hx : Device.Ticked s.dev (s.dev.modPort p (heardBy 0)) := s.dev.ticked_modPort p _
  refine ⟨_, next_congr (fun _ => (s.dev.modPort p (heardBy 0)).takeMarker m (s.dev.trackingError p m arrival)) ?_, hfin,
    (hx.trans ht).ctr, (hx.trans ht).stalls, (hx.trans ht).sameBytes.rdByte⟩
  refine (receiveControl_of_hears hh (bad := fun d => d.markerRule p m) hrule _).trans ?_
  rw [herr]
  exact if_pos hr

/-- A change of the tick unit alone. -/
theorem onlyTick_of {s : State} (f : TickUnit → TickUnit) :
    s.onlyTo (s.onDev fun _ => s.dev.modTick f) { s.dev with tick := (s.onDev fun _ => s.dev.modTick f).dev.tick } :=
  ⟨⟨rfl, rfl⟩, rfl⟩

/-- Settles O40: each command is one change of the tick unit, followed at most by its report and the markers that waited. -/
theorem tickRules : Obligations.TickRules := by
  intro s k only holds
  have hold : holds (s.onDev fun _ => s.dev.enterHoldover) := by
    obtain ⟨ht, hf, htick⟩ := s.dev.enterHoldover_spec
    refine ⟨?_, ?_, ?_, ?_, hf, ht.ctr, ht.sameBytes.rdByte⟩
    · rw [State.onDev_dev, htick]; rfl
    · rw [State.onDev_dev, htick]; rfl
    · rw [State.onDev_dev, htick]
    · rw [State.onDev_dev, htick]; rfl
  refine ⟨?_, ?_, ?_, ?_, ?_, ?_, ?_, ?_, ?_⟩
  · intro p h m arrival hh hr hp e hm tells
    have key (f : TickUnit → Prop) (hf : ∀ x : Device, x.tick = k → x.idleToStep = s.dev.idleToStep →
        Device.Ticked x (x.takeMarker m e) ∧ f (x.takeMarker m e).tick) : tells f := completes_tick hh hr hp hm hf
    clear_value tells
    refine ⟨fun hst => ?_, fun hst hin l e' hl => ⟨fun hv hfr => ?_, fun hfr => ?_⟩, fun hst hs hi => ?_,
      fun hst hs hi => ?_, fun hst hin hs => ?_⟩
    · refine key _ ?_
      intro x hx hidle
      rw [x.takeMarker_ignored m _ (by rw [hx]; exact hst), ← hx]
      exact ⟨x.ticked_modTick _, rfl⟩
    · refine key _ ?_
      intro x hx hidle
      rw [x.takeMarker_acquiring m _ (by rw [hx]; exact hst) (by rw [hx]; exact hl), if_pos ⟨by rwa [hx], hfr⟩]
      refine ⟨x.ticked_modTick _, by rw [← hx]; rfl, ?_, rfl, rfl⟩
      have hp : 2 ≤ x.tick.validRun + 1 := by rw [hx]; omega
      have hn : x.tick.inStep = false := by rw [hx]; exact hin
      change (x.tick.stepReq || (decide (2 ≤ x.tick.validRun + 1) && !x.tick.inStep)) = true
      simp [hp, hn]
    · refine key _ ?_
      intro x hx hidle
      rw [x.takeMarker_acquiring m _ (by rw [hx]; exact hst) (by rw [hx]; exact hl), if_neg fun h => hfr h.2]
      refine ⟨x.ticked_modTick _, rfl, ?_, rfl⟩
      rw [← hx]
      exact Bool.or_false _
    · refine key _ ?_
      intro x hx hidle
      rw [x.takeMarker_step m _ (by rw [hx]; exact hst) hs (by rw [hidle, hi])]
      obtain ⟨ht, htick⟩ := x.tick_releaseMarkers_modTick fun t => { Device.seen m e t with stepReq := true }
      rw [htick]
      exact ⟨ht, by rw [← hst, ← hx]; rfl, rfl, rfl, rfl⟩
    · refine key _ ?_
      intro x hx hidle
      rw [x.takeMarker_busy m _ (by rw [hx]; exact hst) hs (by rw [hidle, hi])]
      obtain ⟨ht, -, htick⟩ := (x.modTick (Device.seen m e)).enterHoldover_spec
      rw [htick]
      exact ⟨(x.ticked_modTick _).trans ht, rfl, rfl, rfl, rfl, rfl⟩
    · refine key _ ?_
      intro x hx hidle
      rw [x.takeMarker_aligned m _ (by rw [hx]; exact hst) (by rw [hx]; exact hin) hs]
      obtain ⟨ht, htick⟩ := x.tick_releaseMarkers_modTick fun t => { Device.seen m e t with
        phaseErr := e, correction := Device.correctionOf e, errRun := if 40000 < e.natAbs then t.errRun + 1 else 0 }
      rw [htick]
      exact ⟨ht, by rw [← hst, ← hx]; rfl, rfl, rfl, rfl, rfl, by rw [← hx]⟩
  · intro hr hst hin hage
    exact ⟨_, next_congr (fun _ => s.dev.enterHoldover) (if_pos (by simp [hr, show s.dev.tick.state = .aligned from hst,
      show s.dev.tick.inStep = false from hin, show 2 ≤ s.dev.tick.lastAge from hage])), hold⟩
  · intro hr hst herr
    exact ⟨_, next_congr (fun _ => s.dev.enterHoldover) (if_pos (by simp [hr, show s.dev.tick.state = .aligned from hst,
      show 4 ≤ s.dev.tick.errRun from herr])), hold⟩
  · intro who hserv
    have hacq (d : Device) (h : s.dev.acquire = d) : exec (.acquire who) s = .next (s.onDev fun _ => d) :=
      next_congr (fun _ => d) ((if_pos hserv).trans h)
    have hload (d : Device) (h : s.dev.load = d) : exec (.tickLoad who) s = .next (s.onDev fun _ => d) :=
      next_congr (fun _ => d) ((if_pos hserv).trans h)
    refine ⟨fun hr hi => ?_, fun hr => ?_, fun hr hi => ?_, fun hr hi => ?_, fun hr hi => ?_, fun hr => ?_⟩
    · refine ⟨_, hacq _ (by rw [Device.acquire, if_neg (not_not.mpr hr), if_neg (by rw [hi]; decide)]), onlyTick_of _,
        rfl, rfl, rfl, rfl, rfl, rfl, rfl, fun hne => ?_⟩
      exact if_neg hne
    · exact ⟨_, hacq _ (if_pos hr), s.dev.tick_tickResult _⟩
    · exact ⟨_, hacq (s.dev.tickResult _) (by rw [Device.acquire, if_neg (not_not.mpr hr), if_pos (by rw [hi]; decide)]), s.dev.tick_tickResult _⟩
    · refine ⟨_, hload _ (by rw [Device.load, if_neg hr, if_neg (by rw [hi]; decide)]), ?_⟩
      have ht := (s.dev.ticked_modTick fun t => { t with loadReq := true }).trans (Device.ticked_tickResult _ Status.done)
      refine ⟨?_, ht.ctr⟩
      rw [State.onDev_dev, Device.tick_tickResult]
      rfl
    · exact ⟨_, hload (s.dev.tickResult _) (by rw [Device.load, if_neg hr, if_pos (by rw [hi]; decide)]), s.dev.tick_tickResult _⟩
    · exact ⟨_, hload _ (if_pos hr), s.dev.tick_tickResult _⟩
  · intro m e hdue hlast
    obtain ⟨h, hc, hf, hin, hlen, hd⟩ := s.dev.beginStep_spec hlast
    exact ⟨_, next_congr (fun _ => s.dev.beginStep) (if_pos hdue), hf, hin, hlen, hd, by rw [State.onDev_dev, hc]⟩
  · intro hst hin hdue hage
    obtain ⟨ht, horig, hres⟩ := s.dev.acquireEnds_spec
    exact ⟨_, next_congr (fun _ => s.dev.acquireEnds) (if_pos (by simp [show s.dev.tick.state = .acquiring from hst,
      show s.dev.tick.inStep = false from hin, show s.dev.tick.stepDue = false from hdue,
      show 8 ≤ s.dev.tick.acquireAge from hage])), horig, hres, ht.ctr⟩
  · intro hdue
    obtain ⟨hc, hf, hd, hsent⟩ := s.dev.applyLoad_spec
    exact ⟨_, next_congr (fun _ => s.dev.applyLoad) (if_pos hdue), hf, hd, hsent, hc⟩
  · intro who r hserv
    exact ⟨_, next_congr (fun d => { d with out := { d.out with read := 0 } }) (if_neg (by rw [hserv]; decide)),
      ⟨⟨rfl, rfl⟩, rfl⟩, rfl⟩
  · intro who hserv
    refine ⟨⟨_, next_congr (fun d => d.readCounter who .frameNow) (if_pos hserv), ⟨⟨rfl, rfl⟩, rfl⟩, rfl, rfl, ?_⟩,
      ⟨_, next_congr (fun d => d.readCounter who .uptime) (if_pos hserv), ⟨⟨rfl, rfl⟩, rfl⟩, rfl, rfl, ?_⟩,
      fun v => ⟨_, next_congr (fun d => d.kick) (if_pos hserv), ⟨⟨rfl, rfl⟩, rfl⟩, rfl⟩⟩
    · exact Vector.getElem_set_self who.idx.isLt
    · exact Vector.getElem_set_self who.idx.isLt

end Sys2Proof.Machine
end

section
/-! SLOT_RECLAIM and the credits that are on their way to the channels that it closes (R552). -/

namespace Sys2Proof.Machine

/-- Every credit on its way to channel n of the slot is marked as reclaimed. -/
def Marks (st : StallId) (sl : Slot) (n : BitVec 4) (l : List CreditTransit) : Prop :=
  ∀ c ∈ l, c.kind ≠ .close → c.stall = st → c.slot = sl → c.chan = n → c.reclaimed = true

namespace Device

section
variable (d : Device) (st : StallId) (sl : Slot)

/-- The credits after a close: those before, some of them marked, and the channel's own. -/
theorem credits_closeChannel (n : BitVec 4) : ∃ own : List CreditTransit, (∀ c ∈ own, c.kind = .close) ∧
    (d.closeChannel st sl n true).credits =
      (d.credits.map fun c => if c.kind ≠ .close ∧ c.stall = st ∧ c.slot = sl ∧ c.chan = n then { c with reclaimed := true } else c)
        ++ own := by
  have hmap (c : CreditTransit) : (if (true && (c.kind != .close && decide (c.stall = st) && decide (c.slot = sl) &&
      decide (c.chan = n))) = true then { c with reclaimed := true } else c) =
      if c.kind ≠ .close ∧ c.stall = st ∧ c.slot = sl ∧ c.chan = n then { c with reclaimed := true } else c := by
    simp [and_assoc]
  unfold closeChannel
  extract_lets r d1 inbound d2
  have h2 : d2.credits = d.credits.map fun c =>
      if c.kind ≠ .close ∧ c.stall = st ∧ c.slot = sl ∧ c.chan = n then { c with reclaimed := true } else c :=
    List.map_congr_left fun c _ => hmap c
  split
  · exact ⟨[], by simp, by rw [List.append_nil, h2]⟩
  · exact ⟨_, by simp, congrArg (· ++ _) h2⟩

/-- A close marks what is on its way to its channel. -/
theorem marks_closeChannel (n : BitVec 4) : Marks st sl n (d.closeChannel st sl n true).credits := by
  obtain ⟨own, hown, he⟩ := d.credits_closeChannel st sl n
  intro c hc hk hs hsl hn
  rw [he, List.mem_append, List.mem_map] at hc
  rcases hc with ⟨b, -, hb⟩ | hc
  · split at hb
    · rw [← hb]
    · next hnot =>
      rw [hb] at hnot
      exact absurd (And.intro hk ⟨hs, hsl, hn⟩) hnot
  · exact absurd (hown c hc) hk

/-- Another close keeps the marks. -/
theorem marks_closeChannel_other {n : BitVec 4} (h : Marks st sl n d.credits) (m : BitVec 4) :
    Marks st sl n (d.closeChannel st sl m true).credits := by
  obtain ⟨own, hown, he⟩ := d.credits_closeChannel st sl m
  intro c hc hk hs hsl hn
  rw [he, List.mem_append, List.mem_map] at hc
  rcases hc with ⟨b, hmem, hb⟩ | hc
  · split at hb
    · rw [← hb]
    · rw [← hb] at hk hs hsl hn ⊢
      exact h b hmem hk hs hsl hn
  · exact absurd (hown c hc) hk

/-- The walk over the channels marks what is on its way to those it closes. -/
theorem marks_foldl (n : Nat) (l : List Nat) (h : n ∈ l ∨ Marks st sl (BitVec.ofNat 4 n) d.credits) :
    Marks st sl (BitVec.ofNat 4 n) (l.foldl (fun d m => d.closeChannel st sl (BitVec.ofNat 4 m) true) d).credits := by
  induction l generalizing d with
  | nil => exact h.resolve_left (by simp)
  | cons m l ih =>
    refine ih _ ?_
    rcases h with h | h
    · rcases List.mem_cons.mp h with h | h
      · exact .inr (h ▸ d.marks_closeChannel st sl _)
      · exact .inl h
    · exact .inr (marks_closeChannel_other d st sl h _)

end

/-- SLOT_RECLAIM marks every credit on its way to channel 0 of the slot that it names. -/
theorem marks_slotReclaim (d : Device) (v : W32) (hn : ¬ 383 < field v 0 9) :
    let st : StallId := Fin.ofNat 384 (field v 0 9)
    let sl : Slot := if flag v 9 = true then .paddock else .primary
    (d.ctx st sl).running = false → Marks st sl 0 (d.slotReclaim v).credits := by
  intro st sl hrun
  unfold slotReclaim
  have hno : ¬ (383 < field v 0 9 ∨ (d.ctx st sl).running = true) := by
    rw [hrun]
    simpa using hn
  refine Eq.mpr (congrArg (fun x : Device => Marks st sl 0 x.credits) (if_neg hno)) ?_
  rw [show ∀ x : Device, (x.record Page.tally Status.done).credits = x.credits from fun x => by rw [x.quiet_record]]
  exact d.marks_foldl st sl 0 (List.range 16) (.inl (by decide))

end Device

/-- A device in READY with one credit on its way to channel 0 of slot 0 of stall 0. -/
def granted : State := State.reset.onDev fun d =>
  { d with boot := { d.boot with state := .ready }, credits := [⟨.grant, 0, 0, 0, .primary, 0, 1, false⟩] }

/-- Refutes O54: SLOT_RECLAIM marks the credits that travel to a channel it closes, so they do not stay as they were. -/
theorem not_tallies : ¬ Obligations.Tallies := by
  intro h
  obtain ⟨hreclaim, -⟩ := h .host 0 granted
  obtain ⟨hdone, -⟩ := hreclaim (by decide)
  obtain ⟨t, hexec, -, -, hcredits⟩ := hdone (by decide) (by decide)
  have ht : granted.onDev (fun d => if d.serving then d.slotReclaim 0 else d) = t := Host.Outcome.next.inj hexec
  have hs : granted.dev.serving = true := by decide
  rw [← ht, State.onDev_dev, if_pos hs] at hcredits
  have hmarks := granted.dev.marks_slotReclaim 0 (by decide) (by decide)
  rw [hcredits] at hmarks
  exact absurd (hmarks ⟨.grant, 0, 0, 0, .primary, 0, 1, false⟩ (List.mem_append_left _ List.mem_cons_self)
    (by decide) (by decide) (by decide) (by decide)) (by decide)

end Sys2Proof.Machine
end

section
/-! A write of PAGE_TXN, which the access codes call RW, writes no register but a bank (R493, R503). -/

namespace Sys2Proof.Machine

namespace Device

section
variable (d : Device)

/-- CMD_RES of a bank, as the command reports it; no other bank changes. -/
theorem banks_cmdRes (w : Fin 2) (c : Code) : (d.cmdRes w c).banks = upd d.banks w fun b => { b with cmdRes := c } := by
  rw [cmdRes, quiet_record]
  rfl

/-- An enrolment reports its code in CMD_RES. -/
theorem cmdRes_enrol (w : Fin 2) (p : Page) (id : BitVec 16) : (d.enrol w p id).banks[w].cmdRes = d.enrolCode w p id := by
  unfold enrol
  rw [banks_cmdRes, upd_same]

/-- Without a transaction that has passed its time-out no command finds one ended. -/
theorem expired_of_young (h : ∀ i : Fin 2, d.timedOut i = false) : d.expired = d := by
  have h0 : d.expire 0 = d := if_neg (by rw [h]; decide)
  rw [expired, h0]
  exact if_neg (by rw [h]; decide)

/-- A write of a page's PAGE_TXN with bit 31 enrols it. -/
theorem regWrite_pageTxn (a : FuseArray) (who : Requester) (p : Page) (off : Nat) (v : W64) (ho : off % 4096 = 0x00C)
    (hoff : 0x4000 ≤ off ∧ off < 0xFE_0000) (hp : d.powered = true) (hl : d.livePage off = some p)
    (hv : flag (v.setWidth 32) 31 = true) :
    d.regWrite a who off 4 v = d.expired.enrol who.idx p ((v.setWidth 32).setWidth 16) := by
  have hlegal : legalAccess off 4 = true := by
    have h4 : off % 4 = 0 := by omega
    simp [legalAccess, h4]
  have hrow : rowOf p 0x00C = some { off := 0x00C, acc := .rw, mask := 0 } := by
    unfold rowOf PageKind.row?
    rfl
  unfold regWrite
  rw [if_neg (by rw [hlegal]; decide)]
  dsimp only
  rw [if_neg (by decide)]
  unfold wordWrite
  rw [if_neg (by rw [hp]; decide), if_neg (by omega), if_neg (by omega), hl]
  dsimp only
  rw [ho]
  unfold pageWrite
  rw [hrow]
  dsimp only
  rw [if_neg (by simp)]
  unfold plainWrite
  rw [if_pos rfl]
  exact if_pos hv

end

end Device

/-- A device in READY. -/
def readied : State := State.reset.onDev fun d => { d with boot := { d.boot with state := .ready } }

/-- Refutes O52: a write of PAGE_TXN of MEMCTL page 0 with bit 31 enrols the page, and CMD_RES of the host's bank changes. -/
theorem not_registers : ¬ Obligations.Registers := by
  intro h
  obtain ⟨-, -, hpage, -, -⟩ := h .host 0x10000C readied
  obtain ⟨-, -, -, -, hrows⟩ := hpage (Page.memctl 0) (by decide)
  obtain ⟨hrw, -⟩ := hrows (by decide) { off := 0x00C, acc := .rw, mask := 0 } (by decide)
  obtain ⟨t, hexec, ⟨-, honly⟩, -⟩ := hrw 0x8000_0000 rfl (.inr (.inl rfl))
  have hw := readied.dev.regWrite_pageTxn readied.array .host (Page.memctl 0) 0x10000C 0x8000_0000 (by decide) (by decide) (by decide)
    (by decide) (by decide)
  rw [Device.expired_of_young _ (by decide)] at hw
  have ht : readied.onDev (fun d => d.regWrite readied.array .host 0x10000C 4 0x8000_0000) = t := Host.Outcome.next.inj hexec
  have hcmd := readied.dev.cmdRes_enrol 0 (Page.memctl 0) 0
  have hbank : t.dev.banks[(0 : Fin 2)].cmdRes = Status.stateInvalid := by
    rw [← ht, State.onDev_dev, hw]
    exact hcmd
  rw [honly] at hbank
  have hidle : readied.dev.banks[(0 : Fin 2)].cmdRes ≠ Status.stateInvalid := by decide
  exact hidle hbank

end Sys2Proof.Machine
end

section
/-! Which registers a report, an event and a count write. -/

namespace Sys2Proof.Machine

/-- Pages begin at multiples of 4096. -/
theorem Page.base_mod (p : Page) : p.base % 4096 = 0 := by
  have hk : p.kind.base % 4096 = 0 := by cases p.kind <;> rfl
  unfold Page.base
  omega

theorem Page.reg_mod (p : Page) {o : Nat} (ho : o < 4096) : p.reg o % 4096 = o := by
  have := p.base_mod
  unfold Page.reg
  omega

namespace Device

section
variable (d : Device)

theorem reg_setPreg_ne (p : Page) (o : Nat) (v : W32) (k : Nat) (h : k ≠ p.reg o) : (d.setPreg p o v).reg k = d.reg k :=
  d.reg_setReg_ne _ _ v h

theorem reg_msix (v : Fin 64) (k : Nat) : (d.msix v).reg k = d.reg k := by
  unfold msix
  split <;> rfl

theorem reg_event_ne (p : Page) (i k : Nat) (h : k ≠ p.reg 0x028) : (d.event p i).reg k = d.reg k := by
  unfold event
  split
  · rfl
  · dsimp only
    split
    · rw [reg_msix, reg_setPreg_ne _ _ _ _ _ h]
    · exact d.reg_setPreg_ne _ _ _ _ h

/-- The registers that a report on a page may write. -/
def reportRegs : List Nat := [0x018, 0x020, 0x028, 0x040, 0x044]

theorem reg_recordBits_ne (p : Page) (bits : W32) (bit : Nat) (c : Code) (inj : Bool) (k : Nat)
    (h : ∀ o ∈ reportRegs, k ≠ p.reg o) : (d.recordBits p bits bit c inj).reg k = d.reg k := by
  have hset (x : Device) (o : Nat) (v : W32) (ho : o ∈ reportRegs) : (x.setPreg p o v).reg k = x.reg k :=
    x.reg_setPreg_ne p o v k (h o ho)
  unfold recordBits
  extract_lets old fresh e x y
  have hy : y.reg k = d.reg k := by
    have he : e.reg k = d.reg k := hset d 0x018 _ (by decide)
    dsimp only [y]
    split
    · rw [hset _ 0x044 _ (by decide), hset _ 0x040 _ (by decide), hset _ 0x020 _ (by decide), he]
    · exact he
  split
  · exact hy
  · rw [reg_event_ne _ _ _ _ (h 0x028 (by decide)), hy]

theorem reg_record_ne (p : Page) (c : Code) (k : Nat) (h : ∀ o ∈ reportRegs, k ≠ p.reg o) : (d.record p c).reg k = d.reg k := by
  unfold record
  extract_lets n
  split
  · rfl
  · exact d.reg_recordBits_ne p _ _ _ _ k h

theorem reg_eventCode_ne (p : Page) (i : Nat) (c : Code) (k : Nat) (h : ∀ o ∈ reportRegs, k ≠ p.reg o) :
    (d.eventCode p i c).reg k = d.reg k := by
  rw [eventCode, reg_event_ne _ _ _ _ (h 0x028 (by decide)), reg_record_ne _ _ _ _ h]

end

/-- A register above the common block is none that a report writes. -/
theorem ne_reportReg (p : Page) {k : Nat} (h : 0x100 ≤ k % 4096) : ∀ o ∈ reportRegs, k ≠ p.reg o := by
  intro o ho hk
  have hlt : o < 0x100 := by
    have hall : ∀ x ∈ reportRegs, x < 0x100 := by decide
    exact hall o ho
  rw [hk, p.reg_mod (by omega)] at h
  omega

/-- A register outside the page is none that a report writes. -/
theorem ne_reportReg_of_outside (p : Page) {k : Nat} (h : k < p.base ∨ p.base + 4096 ≤ k) : ∀ o ∈ reportRegs, k ≠ p.reg o := by
  intro o ho hk
  have hlt : o < 0x100 := by
    have hall : ∀ x ∈ reportRegs, x < 0x100 := by decide
    exact hall o ho
  unfold Page.reg at hk
  omega

end Device

end Sys2Proof.Machine
end

section
/-! The transaction banks (R502 to R510). -/

namespace Sys2Proof.Machine

namespace Device

/-- e is d but for its banks, registers and messages to the host. -/
def Banked (d e : Device) : Prop :=
  e = { d with banks := e.banks, regs := e.regs, pba := e.pba, out := e.out, commits := e.commits }

namespace Banked

theorem trans {d e f : Device} (h : Banked d e) (k : Banked e f) : Banked d f := by
  unfold Banked at *
  rw [k, h]

theorem of_quiet {d e : Device} (h : Quiet d e) : Banked d e := by
  unfold Banked
  rw [h]

theorem queues {d e : Device} (h : Banked d e) : e.queues = d.queues := by
  unfold Banked at h
  rw [h]

end Banked

/-- The bank of a transaction that has ended. -/
def endedBank (s : TxnState) (c : Code) (page off : W32) (now : Frame) (b : TxnBank) : TxnBank :=
  { b with state := s, code := c, failPage := page, failOff := off, endFrame := now, pages := [], shadow := [] }

section
variable (d : Device) (w : Fin 2)

theorem banked_modBank (f : TxnBank → TxnBank) : Banked d (d.modBank w f) := rfl

theorem banked_cmdRes (c : Code) : Banked d (d.cmdRes w c) :=
  (d.banked_modBank w _).trans (.of_quiet (quiet_record _ _ _))

/-- A change of a bank that reports its code. -/
theorem cmdRes_modBank (f : TxnBank → TxnBank) (c : Code) : Banked d ((d.modBank w f).cmdRes w c) ∧
    ((d.modBank w f).cmdRes w c).banks = d.banks.set w { f d.banks[w] with cmdRes := c } := by
  refine ⟨(d.banked_modBank w f).trans (banked_cmdRes _ w c), ?_⟩
  rw [banks_cmdRes]
  simp [modBank, upd]

/-- A report alone. -/
theorem reported_cmdRes (c : Code) : Banked d (d.cmdRes w c) ∧
    (d.cmdRes w c).banks = d.banks.set w { d.banks[w] with cmdRes := c } := ⟨d.banked_cmdRes w c, d.banks_cmdRes w c⟩

theorem endTxn_spec (s : TxnState) (c : Code) (page off : W32) : Banked d (d.endTxn w s c page off) ∧
    (d.endTxn w s c page off).banks = d.banks.set w (endedBank s c page off d.now d.banks[w]) := by
  have hq : Quiet (d.modBank w (endedBank s c page off d.now)) (d.endTxn w s c page off) :=
    (quiet_bump _ _ _ _).trans (quiet_eventCode _ _ _ _)
  refine ⟨(d.banked_modBank w _).trans (.of_quiet hq), ?_⟩
  rw [hq]
  rfl

/-- The end of a transaction writes registers of the TXC page: counts, and what a report writes. -/
theorem reg_endTxn_ne (s : TxnState) (c : Code) (page off : W32) (k : Nat) (h180 : k ≠ Page.txc.reg 0x180)
    (h184 : k ≠ Page.txc.reg 0x184) (h : ∀ o ∈ reportRegs, k ≠ Page.txc.reg o) :
    (d.endTxn w s c page off).reg k = d.reg k := by
  unfold endTxn
  extract_lets x
  rw [reg_eventCode_ne _ _ _ _ _ h, bump, reg_setPreg_ne]
  · rfl
  · split
    · exact h180
    · exact h184

/-! ### What waits for gate firmware -/

/-- No command waits for gate firmware's transaction. -/
def NoWaiters : Prop := ∀ p : QueueId, ∀ c ∈ d.queues[p].started, ∀ n, c.wait ≠ .fwTxn n

theorem resume_of_noWaiters (h : d.NoWaiters) : d.resume = d := by
  have hz : d.waiters = 0 := by
    unfold waiters
    refine List.sum_eq_zero fun n hn => ?_
    obtain ⟨q, -, rfl⟩ := List.mem_map.mp hn
    rw [List.length_eq_zero_iff, List.filter_eq_nil_iff]
    intro c hc hsome
    unfold waitOrder at hsome
    split at hsome
    · next n hw => exact h q c hc n hw
    · exact absurd hsome (by decide)
  rw [resume, hz, serveWaiting]

/-- Where bank 1 has no waiters behind it, an ending is the whole change. -/
theorem ended_of_noWaiters {e : Device} (hk : Banked d e) (h : w = 1 → d.NoWaiters) : (if w = 1 then e.resume else e) = e := by
  split
  · next hw =>
    refine e.resume_of_noWaiters fun p c hc n => h hw p c ?_ n
    rwa [hk.queues] at hc
  · rfl

end

end Device

section
variable {s : State}

/-- A command whose whole effect is on a bank. -/
theorem completes_bank {c : Instr} {w : Fin 2} {b : TxnBank} (x : Device) (hexec : exec c s = .next (s.onDev fun _ => x))
    (hx : Device.Banked s.dev x ∧ x.banks = s.dev.banks.set w b) :
    Completes c s fun t => t.dev.banks = s.dev.banks.set w b ∧ s.onlyTo t { s.dev with
      banks := t.dev.banks, regs := t.dev.regs, pba := t.dev.pba, out := t.dev.out, commits := t.dev.commits } :=
  ⟨_, hexec, hx.2, ⟨rfl, rfl⟩, hx.1⟩

end

end Sys2Proof.Machine
end

section
/-! Transactions (R502, R503, R505 to R510). -/

namespace Sys2Proof.Machine

namespace Device

section
variable (d : Device) (w : Fin 2)

theorem openTxn_free (h : d.txnHeld w = false) : Banked d (d.openTxn w) ∧
    let n := d.banks[w].count % 32767 + 1
    (d.openTxn w).banks = d.banks.set w { d.banks[w] with
      state := .opened, id := BitVec.ofNat 16 (32768 * w.val + n), count := n, code := 0, cmdRes := Status.done, failPage := 0
      failOff := 0, opened := d.now, timeout := max 16 (d.pfield Page.txc (0x100 + 0x40 * w.val + 0x24) 0 16)
      pages := [], shadow := [] } := by
  unfold openTxn
  rw [if_neg (by rw [h]; decide)]
  exact d.cmdRes_modBank w _ _

theorem openTxn_busy (h : d.txnHeld w = true) : d.openTxn w = d.cmdRes w Status.txnBusy := if_pos h

theorem enrol_done (p : Page) (id : BitVec 16) (h : d.enrolCode w p id = Status.done) : Banked d (d.enrol w p id) ∧
    (d.enrol w p id).banks = d.banks.set w { d.banks[w] with pages := setInsert d.banks[w].pages p.base, cmdRes := Status.done } := by
  unfold enrol
  rw [h]
  exact d.cmdRes_modBank w (fun b => { b with pages := setInsert b.pages p.base }) _

theorem enrol_refused (p : Page) (id : BitVec 16) (c : Code) (h : d.enrolCode w p id = c) (hc : c ≠ Status.done) :
    d.enrol w p id = d.cmdRes w c := by
  unfold enrol
  rw [h]
  dsimp only
  rw [if_neg hc]

/-- An identifier that is not that of the OPEN transaction. -/
theorem txnOpenId_iff (id : BitVec 16) : d.txnOpenId w id = true ↔ d.banks[w].state = .opened ∧ d.banks[w].id = id := by
  simp [txnOpenId]

theorem enrolCode_stale (p : Page) (id : BitVec 16) (h : ¬ (d.banks[w].state = .opened ∧ id = d.banks[w].id)) :
    d.enrolCode w p id = Status.stateInvalid := by
  unfold enrolCode
  refine if_pos ?_
  rw [Bool.not_eq_true', ← Bool.not_eq_true, txnOpenId_iff]
  exact fun ⟨ho, hid⟩ => h ⟨ho, hid.symm⟩

theorem enrolCode_open (p : Page) (h : d.banks[w].state = .opened) : d.enrolCode w p d.banks[w].id =
    if p.kind.hasTxn = false then Status.txnInvalid else if p.base ∈ d.banks[1 - w].pages then Status.txnBusy else Status.done := by
  have hid : d.txnOpenId w d.banks[w].id = true := (d.txnOpenId_iff w _).mpr ⟨h, rfl⟩
  unfold enrolCode
  rw [if_neg (by rw [hid]; decide)]
  simp only [Bool.not_eq_true', List.contains_iff_mem]

theorem commitCode_stale (id : BitVec 16) (f : Frame) (h : ¬ (d.banks[w].state = .opened ∧ id = d.banks[w].id)) :
    d.commitCode w id f = Status.stateInvalid := by
  unfold commitCode
  refine if_pos ?_
  rw [Bool.not_eq_true', ← Bool.not_eq_true, txnOpenId_iff]
  exact fun ⟨ho, hid⟩ => h ⟨ho, hid.symm⟩

theorem commitCode_open (f : Frame) (h : d.banks[w].state = .opened) : d.commitCode w d.banks[w].id f =
    if 2 ≤ since f d.now ∧ since f d.now ≤ 65536 then Status.done else Status.txnInvalid := by
  have hid : d.txnOpenId w d.banks[w].id = true := (d.txnOpenId_iff w _).mpr ⟨h, rfl⟩
  unfold commitCode
  exact if_neg (by rw [hid]; decide)

theorem commitTxn_done (id : BitVec 16) (f : Frame) (h : d.commitCode w id f = Status.done) : Banked d (d.commitTxn w id f) ∧
    (d.commitTxn w id f).banks = d.banks.set w { d.banks[w] with
      state := .pending, target := f, order := d.commits, cmdRes := Status.done } := by
  unfold commitTxn
  rw [h]
  obtain ⟨hk, hb⟩ := cmdRes_modBank { d with commits := d.commits + 1 } w
    (fun b => { b with state := .pending, target := f, order := d.commits }) Status.done
  exact ⟨Banked.trans (e := { d with commits := d.commits + 1 }) rfl hk, hb⟩

theorem commitTxn_refused (id : BitVec 16) (f : Frame) (c : Code) (h : d.commitCode w id f = c) (hc : c ≠ Status.done) :
    d.commitTxn w id f = d.cmdRes w c := by
  unfold commitTxn
  rw [h]
  exact if_neg hc

/-- A rollback before the boundary of the target ends the transaction. -/
theorem rollbackTxn_early (h : d.banks[w].state = .opened ∨ (d.banks[w].state = .pending ∧ d.banks[w].target ≠ d.now)) :
    Banked d (d.rollbackTxn w d.banks[w].id) ∧ (d.rollbackTxn w d.banks[w].id).banks =
      d.banks.set w { endedBank .rolledBack Status.aborted 0 0 d.now d.banks[w] with cmdRes := Status.aborted } := by
  have hnot : ¬ (d.banks[w].id ≠ d.banks[w].id ∨ d.banks[w].state = .idle) := by
    rintro (hid | hi)
    · exact hid rfl
    · rw [hi] at h
      exact absurd h (by simp)
  unfold rollbackTxn
  rw [if_neg hnot, if_pos (by simpa using h)]
  obtain ⟨hk, hb⟩ := d.endTxn_spec w .rolledBack Status.aborted 0 0
  obtain ⟨hk2, hb2⟩ := (d.endTxn w .rolledBack Status.aborted 0 0).reported_cmdRes w Status.aborted
  refine ⟨hk.trans hk2, ?_⟩
  rw [hb2, hb]
  simp

theorem rollbackTxn_late (h : ¬ (d.banks[w].state = .opened ∨ (d.banks[w].state = .pending ∧ d.banks[w].target ≠ d.now)))
    (hi : d.banks[w].state ≠ .idle) : d.rollbackTxn w d.banks[w].id = d.cmdRes w Status.abortTooLate := by
  unfold rollbackTxn
  rw [if_neg fun hor => hor.elim (fun hid => hid rfl) hi]
  exact if_neg (by simpa using h)

theorem rollbackTxn_stale (id : BitVec 16) (h : id ≠ d.banks[w].id ∨ d.banks[w].state = .idle) :
    d.rollbackTxn w id = d.cmdRes w Status.stateInvalid := by
  unfold rollbackTxn
  refine if_pos ?_
  rcases h with h | h
  · exact .inl (Ne.symm h)
  · exact .inr h

/-- A transaction that has passed TXN_TIMEOUT ends so. -/
theorem lapse_spec (h : d.timedOut w = true) : Banked d (d.lapse w) ∧
    (d.lapse w).banks = d.banks.set w (endedBank .timedOut Status.txnTimeout 0 0 d.now d.banks[w]) := by
  unfold lapse
  rw [if_pos h]
  exact d.endTxn_spec w _ _ _ _

end

end Device

end Sys2Proof.Machine
end

section
/-! Settlement of a due transaction (R506, R507), and the obligation. -/

namespace Sys2Proof.Machine

namespace Device

section
variable (d : Device) (w : Fin 2)

/-- e keeps of d the banks, the frame counter, the step that the boundary waits at, and every register above the common
blocks. -/
def Settling (d e : Device) : Prop :=
  e.banks = d.banks ∧ e.ctr = d.ctr ∧ e.atStep6 = d.atStep6 ∧ ∀ k, 0x100 ≤ k % 4096 → e.reg k = d.reg k

theorem settling_applied (p : Page) (o : Nat) (old v : W32) : Settling d (d.applied p o old v) := by
  unfold applied
  split
  · have hk : ∃ t, d.tickCommitted old v = { d with tick := t } := by
      unfold tickCommitted
      extract_lets role x
      have hx : ∃ t, x = { d with tick := t } := by
        dsimp only [x]
        split
        · exact ⟨d.tick, rfl⟩
        · exact ⟨_, rfl⟩
      obtain ⟨t, ht⟩ := hx
      split
      · exact ⟨t, ht⟩
      · exact ⟨_, by rw [ht]; rfl⟩
    obtain ⟨t, ht⟩ := hk
    rw [ht]
    exact ⟨rfl, rfl, rfl, fun _ _ => rfl⟩
  · split
    · unfold setMapout
      split
      · exact ⟨rfl, rfl, rfl, fun _ _ => rfl⟩
      · have hq := (d.modMc (Fin.ofNat 64 p.num) fun m => { m with mapoutPend := true }).quiet_event
          (Page.memctl (Fin.ofNat 64 p.num)) 3
        refine ⟨by rw [hq]; rfl, by rw [hq]; rfl, by rw [hq]; rfl, fun k hk => ?_⟩
        rw [reg_event_ne _ _ _ _ (ne_reportReg _ hk 0x028 (by decide))]
        rfl
    · exact ⟨rfl, rfl, rfl, fun _ _ => rfl⟩
  · split
    · exact ⟨rfl, rfl, rfl, fun _ _ => rfl⟩
    · exact ⟨rfl, rfl, rfl, fun _ _ => rfl⟩
  · exact ⟨rfl, rfl, rfl, fun _ _ => rfl⟩

/-- One shadow of a walk takes force. -/
def applyShadow (n : Device) (x : Nat × W32) : Device :=
  match pageAt x.1 with
  | some p => (n.setReg x.1 x.2).applied p (x.1 % 4096) (d.reg x.1) x.2
  | none => n

theorem applyShadows_eq : d.applyShadows w = d.banks[w].shadow.foldl (applyShadow d) d := rfl

theorem applyShadow_spec (n : Device) (x : Nat × W32) : (applyShadow d n x).banks = n.banks ∧
    (applyShadow d n x).ctr = n.ctr ∧ (applyShadow d n x).atStep6 = n.atStep6 ∧
    (∀ k, k ≠ x.1 → 0x100 ≤ k % 4096 → (applyShadow d n x).reg k = n.reg k) ∧
    ((∃ p, pageAt x.1 = some p) → 0x100 ≤ x.1 % 4096 → (applyShadow d n x).reg x.1 = x.2) := by
  unfold applyShadow
  split
  · next p hp =>
    obtain ⟨hb, hc, h6, hr⟩ := (n.setReg x.1 x.2).settling_applied p (x.1 % 4096) (d.reg x.1) x.2
    refine ⟨hb, hc, h6, fun k hk hm => ?_, fun _ hm => ?_⟩
    · rw [hr k hm, reg_setReg_ne _ _ _ _ hk]
    · rw [hr _ hm, reg_setReg_same]
  · next hp => exact ⟨rfl, rfl, rfl, fun _ _ _ => rfl, fun ⟨p, h⟩ => absurd (hp.symm.trans h) (by simp)⟩

/-- The walk over the shadows: nothing but registers that they name, and each takes its value. -/
theorem applyShadows_spec (l : List (Nat × W32)) (n : Device) :
    (l.foldl (applyShadow d) n).banks = n.banks ∧ (l.foldl (applyShadow d) n).ctr = n.ctr ∧
    (l.foldl (applyShadow d) n).atStep6 = n.atStep6 ∧
    (∀ k, k ∉ l.map Prod.fst → 0x100 ≤ k % 4096 → (l.foldl (applyShadow d) n).reg k = n.reg k) ∧
    ((l.map Prod.fst).Nodup → (∀ x ∈ l, (∃ p, pageAt x.1 = some p) ∧ 0x100 ≤ x.1 % 4096) →
      ∀ x ∈ l, (l.foldl (applyShadow d) n).reg x.1 = x.2) := by
  induction l generalizing n with
  | nil => exact ⟨rfl, rfl, rfl, fun _ _ _ => rfl, fun _ _ x hx => absurd hx (by simp)⟩
  | cons y l ih =>
    obtain ⟨hb, hc, h6, hout, hin⟩ := ih (applyShadow d n y)
    obtain ⟨hb1, hc1, h61, hout1, hin1⟩ := d.applyShadow_spec n y
    refine ⟨hb.trans hb1, hc.trans hc1, h6.trans h61, fun k hk hm => ?_, fun hnd hall x hx => ?_⟩
    · rw [List.map_cons, List.mem_cons, not_or] at hk
      exact (hout k hk.2 hm).trans (hout1 k hk.1 hm)
    · rw [List.map_cons, List.nodup_cons] at hnd
      rcases List.mem_cons.mp hx with h | h
      · obtain ⟨hp, hm⟩ := hall y List.mem_cons_self
        subst h
        exact (hout x.1 hnd.1 hm).trans (hin1 hp hm)
      · exact hin hnd.2 (fun z hz => hall z (List.mem_cons_of_mem y hz)) x h

/-- A register of access RWT lies above the common block, and not on the TXC page. -/
theorem rwt_place {k : Nat} {p : Page} {r : RegRow} (hp : pageAt k = some p) (hr : rowOf p (k % 4096) = some r)
    (ha : r.acc = .rwt) : 0x100 ≤ k % 4096 ∧ k ≠ Page.txc.reg 0x180 ∧ k ≠ Page.txc.reg 0x184 := by
  refine ⟨?_, ?_, ?_⟩
  · by_contra hlt
    have hmem : r ∈ PageKind.common := by
      unfold rowOf PageKind.row? at hr
      rw [if_pos (by omega)] at hr
      exact List.mem_of_find?_eq_some hr
    have hno : ∀ x ∈ PageKind.common, x.acc ≠ .rwt := by decide
    exact hno r hmem ha
  · rintro rfl
    have hpage : pageAt (Page.txc.reg 0x180) = some Page.txc := by decide
    rw [hpage] at hp
    cases hp
    have hrow : rowOf Page.txc (Page.txc.reg 0x180 % 4096) = some { off := 0x180, acc := .rc, count := 2 } := by decide
    rw [hrow] at hr
    cases hr
    cases ha
  · rintro rfl
    have hpage : pageAt (Page.txc.reg 0x184) = some Page.txc := by decide
    rw [hpage] at hp
    cases hp
    have hrow : rowOf Page.txc (Page.txc.reg 0x184 % 4096) = some { off := 0x180, acc := .rc, count := 2 } := by decide
    rw [hrow] at hr
    cases hr
    cases ha

/-- A due transaction that passes validation is applied. -/
theorem settleTxn_passed (hs : d.boot.state ≠ .safe) (hf : d.commitFailure w = none) :
    (d.settleTxn w).banks = d.banks.set w (endedBank .applied Status.done 0 0 d.now d.banks[w]) ∧
    (d.settleTxn w).atStep6 = d.atStep6 ∧
    ((d.banks[w].shadow.map Prod.fst).Nodup → (∀ x ∈ d.banks[w].shadow, ∃ p : Page, ∃ r : RegRow,
      pageAt x.1 = some p ∧ rowOf p (x.1 % 4096) = some r ∧ r.acc = .rwt) →
      ∀ x ∈ d.banks[w].shadow, (d.settleTxn w).reg x.1 = x.2) := by
  have he : d.settleTxn w = (d.applyShadows w).endTxn w .applied Status.done 0 0 := by
    unfold settleTxn
    rw [if_neg fun h => hs h.1, hf]
  obtain ⟨hb, hc, h6, -, hregs⟩ := d.applyShadows_spec d.banks[w].shadow d
  rw [← applyShadows_eq] at hb hc h6 hregs
  rw [he]
  generalize d.applyShadows w = n at hb hc h6 hregs
  obtain ⟨hk, hbanks⟩ := n.endTxn_spec w .applied Status.done 0 0
  refine ⟨by rw [hbanks, hb, now, hc]; rfl, ?_, fun hnd hall x hx => ?_⟩
  · unfold Banked at hk
    rw [hk, h6]
  · obtain ⟨p, r, hp, hr, ha⟩ := hall x hx
    obtain ⟨hm, h180, h184⟩ := rwt_place hp hr ha
    rw [n.reg_endTxn_ne w .applied Status.done 0 0 x.1 h180 h184 (ne_reportReg _ hm)]
    refine hregs hnd (fun z hz => ?_) x hx
    obtain ⟨q, r', hq, hr', ha'⟩ := hall z hz
    obtain ⟨hmz, -, -⟩ := rwt_place hq hr' ha'
    exact ⟨⟨q, hq⟩, hmz⟩

/-- One that fails validation changes its bank, and of the registers those of the TXC page alone. -/
theorem settleTxn_failed (hs : d.boot.state ≠ .safe) {off r : Nat} (hf : d.commitFailure w = some (off, r)) :
    Banked d (d.settleTxn w) ∧ (d.settleTxn w).banks =
      d.banks.set w (endedBank .failed Status.txnInvalid (failWords off r).1 (failWords off r).2 d.now d.banks[w]) ∧
    ∀ k, k < Page.txc.base ∨ Page.txc.base + 4096 ≤ k → (d.settleTxn w).reg k = d.reg k := by
  have he : d.settleTxn w = d.endTxn w .failed Status.txnInvalid (failWords off r).1 (failWords off r).2 := by
    unfold settleTxn
    rw [if_neg fun h => hs h.1, hf]
  rw [he]
  obtain ⟨hk, hb⟩ := d.endTxn_spec w .failed Status.txnInvalid (failWords off r).1 (failWords off r).2
  refine ⟨hk, hb, fun k hout => d.reg_endTxn_ne w _ _ _ _ k ?_ ?_ (ne_reportReg_of_outside _ hout)⟩
  · unfold Page.reg
    omega
  · unfold Page.reg
    omega

theorem afterTxn_eq : d.afterTxn w = (let e := if d.atStep6 = true ∧ d.anyDue = false then
    ({ d with atStep6 := false }).boundaryTail d.env else d
    if w = 1 then e.resume else e) := by
  unfold afterTxn
  simp only [Bool.and_eq_true, Bool.not_eq_true']

end

end Device

/-- Settles O53: each command leaves one bank and its report; a due transaction ends, and the boundary goes on. -/
theorem transactions : Obligations.Transactions := by
  intro who s w b bank answers open_ young nobody ended goesOn
  have hbank {i : Instr} {b' : TxnBank} (x : Device) (hexec : exec i s = .next (s.onDev fun _ => x))
      (hx : Device.Banked s.dev x ∧ x.banks = s.dev.banks.set w b') : Completes i s (bank b') := completes_bank x hexec hx
  have hans {i : Instr} {c : Code} (x : Device) (hexec : exec i s = .next (s.onDev fun _ => x)) (hx : x = s.dev.cmdRes w c) :
      answers i c := hbank x hexec (by rw [hx]; exact s.dev.reported_cmdRes w c)
  refine ⟨fun hserv hyoung => ?_, fun hdue hsafe => ?_, fun hopen hto => ?_⟩
  · have hexp : s.dev.expired = s.dev := s.dev.expired_of_young hyoung
    have hcall (f : Device → Device) : (if s.dev.served then f s.dev.expired else s.dev) = f s.dev := by rw [if_pos hserv, hexp]
    refine ⟨?_, fun hheld => ?_, fun page p hp => ?_, ?_, ?_⟩
    · intro hheld n
      exact hbank _ (next_congr (fun _ => s.dev.openTxn w) (hcall fun d => d.openTxn w)) (s.dev.openTxn_free w hheld)
    · exact hans _ (next_congr (fun _ => s.dev.openTxn w) (hcall fun d => d.openTxn w)) (s.dev.openTxn_busy w hheld)
    · have henrol (id : BitVec 16) : exec (.enrol who page id) s = .next (s.onDev fun _ => s.dev.enrol w p id) := by
        refine next_congr (fun _ => s.dev.enrol w p id) ?_
        rw [hp]
        exact hcall fun d => d.enrol w p id
      refine ⟨fun ho ht hmem => ?_, fun ho ht hmem => ?_, fun ho ht => ?_, fun id hid => ?_⟩
      · refine hbank _ (henrol b.id) (s.dev.enrol_done w p b.id ?_)
        rw [s.dev.enrolCode_open w p ho, if_neg (by rw [ht]; decide), if_neg hmem]
      · refine hans _ (henrol b.id) (s.dev.enrol_refused w p b.id _ ?_ (by decide))
        rw [s.dev.enrolCode_open w p ho, if_neg (by rw [ht]; decide), if_pos hmem]
      · refine hans _ (henrol b.id) (s.dev.enrol_refused w p b.id _ ?_ (by decide))
        rw [s.dev.enrolCode_open w p ho, if_pos ht]
      · exact hans _ (henrol id) (s.dev.enrol_refused w p id _ (s.dev.enrolCode_stale w p id hid) (by decide))
    · intro f n
      have hcommit (id : BitVec 16) : exec (.txnCommit who id) s = .next (s.onDev fun _ => s.dev.commitTxn w id f) :=
        next_congr (fun _ => s.dev.commitTxn w id f) (hcall fun d => d.commitTxn w id f)
      refine ⟨fun ho h2 hn => ?_, fun ho hn => ?_, fun id hid => ?_⟩
      · refine hbank _ (hcommit b.id) (s.dev.commitTxn_done w b.id f ?_)
        rw [s.dev.commitCode_open w f ho, if_pos ⟨h2, hn⟩]
      · refine hans _ (hcommit b.id) (s.dev.commitTxn_refused w b.id f _ ?_ (by decide))
        rw [s.dev.commitCode_open w f ho]
        exact if_neg fun h => hn.elim (Nat.not_lt.mpr h.1) (Nat.not_lt.mpr h.2)
      · exact hans _ (hcommit id) (s.dev.commitTxn_refused w id f _ (s.dev.commitCode_stale w id f hid) (by decide))
    · intro early hno
      have hroll (id : BitVec 16) (hk : Device.Banked s.dev (s.dev.rollbackTxn w id)) :
          exec (.txnRollback who id) s = .next (s.onDev fun _ => s.dev.rollbackTxn w id) :=
        next_congr (fun _ => s.dev.rollbackTxn w id)
          ((hcall fun d => d.rollbackCmd w id).trans (s.dev.ended_of_noWaiters w hk hno))
      have hreport (id : BitVec 16) (c : Code) (hx : s.dev.rollbackTxn w id = s.dev.cmdRes w c) : answers (.txnRollback who id) c :=
        hans _ (hroll id (by rw [hx]; exact s.dev.banked_cmdRes w c)) hx
      refine ⟨fun h => ?_, fun ho he hi => ?_, fun id hid => ?_⟩
      · have hspec := s.dev.rollbackTxn_early w h
        exact hbank _ (hroll b.id hspec.1) hspec
      · exact hreport b.id _ (s.dev.rollbackTxn_late w (fun h => h.elim ho he) hi)
      · exact hreport id _ (s.dev.rollbackTxn_stale w id hid)
  · have h6 : s.dev.atStep6 = true := by
      unfold Device.txnDue at hdue
      simp only [Bool.and_eq_true] at hdue
      exact hdue.1.1
    refine ⟨_, next_congr (fun _ => s.dev.applyTxn w) (if_pos hdue), s.dev.settleTxn w, (s.dev.settleTxn w).afterTxn_eq w, ?_⟩
    have hother : (1 - w).val ≠ w.val := by omega
    cases hf : s.dev.commitFailure w with
    | none =>
      obtain ⟨hb, hs6, hregs⟩ := s.dev.settleTxn_passed w hsafe hf
      refine ⟨hs6.trans h6, ?_, ⟨rfl, rfl⟩, fun _ => ?_, fun off r h => absurd h (by simp)⟩
      · rw [hb]
        exact Vector.getElem_set_ne w.isLt (1 - w).isLt hother.symm
      · rw [hb]
        have hw : (s.dev.banks.set w (Device.endedBank .applied Status.done 0 0 s.dev.now s.dev.banks[w]))[w] =
          Device.endedBank .applied Status.done 0 0 s.dev.now s.dev.banks[w] := Vector.getElem_set_self w.isLt
        rw [hw]
        exact ⟨rfl, rfl, rfl, rfl, hregs⟩
    | some x =>
      obtain ⟨off, r⟩ := x
      obtain ⟨hk, hb, hregs⟩ := s.dev.settleTxn_failed w hsafe hf
      unfold Device.Banked at hk
      refine ⟨?_, ?_, ⟨rfl, rfl⟩, fun h => absurd h (by simp), fun off' r' h => ?_⟩
      · rw [hk]
        exact h6
      · rw [hb]
        exact Vector.getElem_set_ne w.isLt (1 - w).isLt hother.symm
      · cases h
        refine ⟨?_, by rw [hk], by rw [hk], hregs⟩
        rw [hb]
        exact Vector.getElem_set_self w.isLt
  · have hout : s.dev.timedOut w = true := by
      have ho : s.dev.banks[w.val].state = .opened := hopen
      have ht : s.dev.banks[w.val].timeout ≤ Device.since s.dev.now s.dev.banks[w.val].opened := hto
      simp [Device.timedOut, ho, ht]
    have hspec := s.dev.lapse_spec w hout
    have hk := hspec.1
    have hexec : exec (.txnTimeout who) s = .next (s.onDev fun _ => (s.dev.lapse w).afterTxn w) :=
      next_congr (fun _ => (s.dev.lapse w).afterTxn w) (if_pos hout)
    refine ⟨fun h6 hno => ?_, ?_⟩
    · refine hbank (s.dev.lapse w) (hexec.trans (congrArg (fun x => Host.Outcome.next (s.onDev fun _ => x)) ?_)) hspec
      have h6' : (s.dev.lapse w).atStep6 = false := by
        unfold Device.Banked at hk
        rw [hk]
        exact h6
      rw [Device.afterTxn_eq, h6']
      exact s.dev.ended_of_noWaiters w hk hno
    · exact ⟨_, hexec, s.onDev fun _ => s.dev.lapse w, ⟨hspec.2, ⟨rfl, rfl⟩, hspec.1⟩, (s.dev.lapse w).afterTxn_eq w, rfl, rfl⟩

end Sys2Proof.Machine
end

section
/-! The host's memory and the completion rings (R477). -/

namespace Sys2Proof.Machine

namespace Device

section
variable (d : Device)

/-! ### The host's memory -/

/-- A byte of the host's memory. -/
def hostByte (a : Nat) : Byte := (mapGet d.host a).getD 0

theorem rdHost_one (a : Nat) : d.rdHost a 1 = [d.hostByte a] := rfl

theorem rdHost_congr {d e : Device} (a n : Nat) (h : ∀ x, a ≤ x → x < a + n → e.hostByte x = d.hostByte x) :
    e.rdHost a n = d.rdHost a n := by
  unfold rdHost
  refine List.map_congr_left fun i hi => ?_
  exact h (a + i) (by omega) (by have := List.mem_range.mp hi; omega)

theorem hostByte_wrHost_one (a x : Nat) (b : Byte) : (d.wrHost a [b]).hostByte x = if x = a then b else d.hostByte x := by
  unfold hostByte wrHost wrHost
  dsimp only
  split
  · next h => rw [h, mapGet_mapWrite_same]
  · next h => rw [mapGet_mapWrite_ne _ _ _ _ _ h]

theorem wrHost_cons (a : Nat) (b : Byte) (l : List Byte) : d.wrHost a (b :: l) = (d.wrHost a [b]).wrHost (a + 1) l := rfl

/-- Bytes outside those written stay. -/
theorem hostByte_wrHost_out (a : Nat) (l : List Byte) (x : Nat) (h : x < a ∨ a + l.length ≤ x) :
    (d.wrHost a l).hostByte x = d.hostByte x := by
  induction l generalizing d a with
  | nil => rfl
  | cons b l ih =>
    rw [List.length_cons] at h
    rw [wrHost_cons, ih _ (a + 1) (by omega), hostByte_wrHost_one, if_neg (by omega)]

/-- Bytes written read back. -/
theorem rdHost_wrHost_same (a : Nat) (l : List Byte) : (d.wrHost a l).rdHost a l.length = l := by
  induction l generalizing d a with
  | nil => rfl
  | cons b l ih =>
    have hhead : (d.wrHost a (b :: l)).hostByte a = b := by
      rw [wrHost_cons, hostByte_wrHost_out _ _ _ _ (by omega), hostByte_wrHost_one, if_pos rfl]
    have htail := ih (d.wrHost a [b]) (a + 1)
    rw [← wrHost_cons] at htail
    generalize d.wrHost a (b :: l) = e at hhead htail
    unfold rdHost at htail ⊢
    rw [List.length_cons, List.range_succ_eq_map, List.map_cons, List.map_map]
    refine congr (congrArg List.cons hhead) (Eq.trans ?_ htail)
    refine List.map_congr_left fun i _ => ?_
    change (mapGet e.host (a + (i + 1))).getD 0 = _
    rw [show a + (i + 1) = a + 1 + i by omega]

theorem wrHost_only (a : Nat) (l : List Byte) : ∃ m b, d.wrHost a l = { d with host := m, hostBad := b } := by
  induction l generalizing d a with
  | nil => exact ⟨d.host, d.hostBad, rfl⟩
  | cons b l ih =>
    obtain ⟨m, x, h⟩ := ih (d.wrHost a [b]) (a + 1)
    exact ⟨m, x, by rw [wrHost_cons, h]; rfl⟩

/-! ### The rings -/

theorem queues_modQueue (q : QueueId) (f : HostQueue → HostQueue) : (d.modQueue q f).queues = d.queues.set q (f d.queues[q]) := rfl

/-- The queue after a completion is written. -/
def nextEntry (size : Nat) (h : HostQueue) : HostQueue :=
  { h with
    cqTail := (h.cqTail + 1) % size
    phase := if (h.cqTail + 1) % size = 0 then !h.phase else h.phase
    full := h.full + 1 }

/-- The 16 bytes of a completion. -/
def entryBytes (h : HostQueue) (c : Completion) : List Byte :=
  leBytes 8 (h.sqHead * 2 ^ 48 + c.cid.toNat * 2 ^ 32 + bitAt h.phase 16 + c.code.toNat) ++ leBytes 8 c.result.toNat

theorem length_entryBytes (h : HostQueue) (c : Completion) : (entryBytes h c).length = 16 := by
  simp [entryBytes]

/-- A completion fills the free entry and moves the ring on; beside the ring, the count and a message, nothing changes. -/
theorem writeCompletion_spec (q : QueueId) (c : Completion) :
    (d.writeCompletion q c).queues = d.queues.set q (nextEntry (d.cqSize q) d.queues[q]) ∧
    (d.writeCompletion q c).host = (d.wrHost (d.cqBase q + 16 * d.queues[q].cqTail) (entryBytes d.queues[q] c)).host ∧
    d.writeCompletion q c = { d with
      queues := (d.writeCompletion q c).queues, host := (d.writeCompletion q c).host
      hostBad := (d.writeCompletion q c).hostBad, regs := (d.writeCompletion q c).regs, pba := (d.writeCompletion q c).pba
      out := (d.writeCompletion q c).out } := by
  obtain ⟨m, b, hw⟩ := d.wrHost_only (d.cqBase q + 16 * d.queues[q].cqTail) (entryBytes d.queues[q] c)
  obtain ⟨e, he⟩ : ∃ e, e = d.writeCompletion q c := ⟨_, rfl⟩
  rw [hw, ← he]
  unfold writeCompletion at he
  extract_lets h w0 x next y z v at he
  have hx : x = { d with host := m, hostBad := b } := by
    have hb : leBytes 8 w0 ++ leBytes 8 c.result.toNat = entryBytes d.queues[q] c := rfl
    dsimp only [x]
    rw [hb]
    exact hw
  have hnext : next = (h.cqTail + 1) % d.cqSize q := by
    dsimp only [next]
    rw [hx]
    rfl
  have hy : y = ({ d with host := m, hostBad := b } : Device).modQueue q (nextEntry (d.cqSize q)) := by
    dsimp only [y]
    rw [hx, hnext]
    rfl
  have hz : Quiet y z := quiet_bump _ _ _ _
  clear_value z y x
  have hq : Quiet y e := by
    rw [he]
    split
    · exact hz
    · exact hz.trans (quiet_msix _ _)
  unfold Quiet at hq
  rw [hq, hy]
  exact ⟨rfl, rfl, rfl⟩

end

end Device

end Sys2Proof.Machine
end

section
/-! The rings of the host queues and their doorbells (R475 to R478, R483). -/

namespace Sys2Proof.Machine

namespace Device

section
variable (d : Device) (q : QueueId)

theorem queue_modQueue (f : HostQueue → HostQueue) : (d.modQueue q f).queues[q] = f d.queues[q] := upd_same _ _ _

/-- Without held completions none goes out. -/
theorem flushHeld_nil (n : Nat) (h : d.queues[q].held = []) : d.flushHeld q n = d := by
  cases n with
  | zero => rfl
  | succ n =>
    unfold flushHeld
    rw [h]

/-- One held completion goes out where an entry is free. -/
theorem flushHeld_one (c : Completion) (h : d.queues[q].held = [c]) (hf : d.queues[q].full < d.cqSize q) :
    d.flushHeld q 1 = (d.modQueue q fun h => { h with held := [] }).writeCompletion q c := by
  unfold flushHeld
  rw [h]
  dsimp only
  rw [if_pos hf]
  rfl

/-- A queue error shows on its page and in its event. -/
theorem queueError_spec (c : Code) : (d.queueError q c).queues = d.queues.set q { d.queues[q] with err := true, code := c } ∧
    flag ((d.queueError q c).preg (Page.hostq q) 0x028) 1 = true ∧ Outer d (d.queueError q c) := by
  have hq : Quiet (d.modQueue q fun h => { h with err := true, code := c }) (d.queueError q c) := quiet_eventCode _ _ _ _
  refine ⟨by rw [hq]; rfl, flag_event _ _ 1 (by decide), (d.outer_modQueue q _).trans (.of_quiet hq (managed_eventCode _ _ _ _).2)⟩

/-! ### Commands that are taken -/

/-- SQ_HEAD passes one command. -/
def passedOne (size : Nat) (h : HostQueue) : HostQueue :=
  { h with sqHead := (h.sqHead + 1) % size, sqCount := h.sqCount - 1, skipped := h.skipped.filter fun p => p ≠ h.sqHead }

theorem passHead_eq : d.passHead q = d.modQueue q (passedOne (d.sqSize q)) := rfl

theorem takeCmd_of_none (h : d.queues[q].skipped = []) : d.takeCmd q = { d with
    queues := d.queues.set q { d.queues[q] with
      sqHead := (d.queues[q].sqHead + 1) % d.sqSize q, sqCount := d.queues[q].sqCount - 1 } } := by
  have hp : passedOne (d.sqSize q) d.queues[q] =
      { d.queues[q] with sqHead := (d.queues[q].sqHead + 1) % d.sqSize q, sqCount := d.queues[q].sqCount - 1 } := by
    unfold passedOne
    rw [h, List.filter_nil, ← h]
  rw [takeCmd, h, List.length_nil, passSkipped, passHead_eq, ← hp]
  rfl

theorem takeCmd_of_one {k : Nat} (h : d.queues[q].skipped = [k]) (hk : k = (d.queues[q].sqHead + 1) % d.sqSize q)
    (hc : 2 ≤ d.queues[q].sqCount) (hs : d.sqSize q ≠ 1) : d.takeCmd q = { d with
    queues := d.queues.set q { d.queues[q] with
      sqHead := (k + 1) % d.sqSize q, sqCount := d.queues[q].sqCount - 2, skipped := [] } } := by
  have hpos : 0 < d.sqSize q := Nat.two_pow_pos _
  have hne : k ≠ d.queues[q].sqHead := by
    rw [hk]
    intro he
    have hlt : d.queues[q].sqHead < d.sqSize q := he ▸ Nat.mod_lt _ hpos
    by_cases hlast : d.queues[q].sqHead + 1 = d.sqSize q
    · rw [hlast, Nat.mod_self] at he
      omega
    · rw [Nat.mod_eq_of_lt (by omega)] at he
      omega
  have h1 : passedOne (d.sqSize q) d.queues[q] =
      { d.queues[q] with sqHead := k, sqCount := d.queues[q].sqCount - 1 } := by
    have hf : [k].filter (fun p => p ≠ d.queues[q].sqHead) = [k] := List.filter_cons_of_pos (decide_eq_true hne)
    unfold passedOne
    rw [h, ← hk, hf, ← h]
  rw [takeCmd, h, passHead_eq, List.length_singleton, passSkipped]
  have hq : (d.modQueue q (passedOne (d.sqSize q))).queues[q] = { d.queues[q] with sqHead := k, sqCount := d.queues[q].sqCount - 1 } := by
    rw [queue_modQueue, h1]
  have hskip : (d.modQueue q (passedOne (d.sqSize q))).queues[q].sqCount ≠ 0 ∧
      (d.modQueue q (passedOne (d.sqSize q))).queues[q].skipped.contains (d.modQueue q (passedOne (d.sqSize q))).queues[q].sqHead := by
    rw [hq]
    refine ⟨?_, ?_⟩
    · change d.queues[q].sqCount - 1 ≠ 0
      omega
    · change d.queues[q].skipped.contains k = true
      rw [h]
      simp
  rw [if_pos hskip, passSkipped, passHead_eq]
  have h2 : passedOne (d.sqSize q) { d.queues[q] with sqHead := k, sqCount := d.queues[q].sqCount - 1 } =
      { d.queues[q] with sqHead := (k + 1) % d.sqSize q, sqCount := d.queues[q].sqCount - 2, skipped := [] } := by
    unfold passedOne
    rw [h]
    simp [Nat.sub_sub]
  have hset : (d.modQueue q (passedOne (d.sqSize q))).modQueue q (passedOne (d.sqSize q)) =
      { d with queues := d.queues.set q (passedOne (d.sqSize q) (passedOne (d.sqSize q) d.queues[q])) } := by
    simp [modQueue, upd]
  rw [show (d.modQueue q (passedOne (d.sqSize q))).sqSize q = d.sqSize q from rfl, hset, h1, h2]

/-! ### Enabling -/

/-- A queue as it is enabled. -/
def freshQueue (h : HostQueue) : HostQueue :=
  { h with
    en := true, err := false, code := 0, sqTail := 0, sqHead := 0, cqHead := 0, cqTail := 0, phase := true, full := 0
    sqCount := 0, skipped := [] }

theorem field_setBit_31 (v : W32) (lo n : Nat) (h : lo + n ≤ 31) : field (setBit v 31) lo n = field v lo n := by
  refine field_congr fun i hi => ?_
  have hb := flag_setBit v 31 (lo + i)
  have hd : (decide (lo + i < 32) && decide (31 = lo + i)) = false := by simp; omega
  unfold flag at hb
  rw [hb, hd, Bool.or_false]

theorem setBit_31_and (v m : W32) (h : flag m 31 = false) : setBit v 31 &&& m = v &&& m := by
  refine BitVec.eq_of_getLsbD_eq fun i hi => ?_
  have hb := flag_setBit v 31 i
  unfold flag at hb h
  rw [BitVec.getLsbD_and, BitVec.getLsbD_and, hb]
  by_cases hi31 : 31 = i
  · rw [← hi31, h, Bool.and_false, Bool.and_false]
  · rw [decide_eq_false hi31, Bool.and_false, Bool.or_false]

/-- The sizes of both rings are legal. -/
def LegalSizes (v : W32) : Prop := (4 ≤ field v 12 4 ∧ field v 12 4 ≤ 12) ∧ 4 ≤ field v 8 4 ∧ field v 8 4 ≤ 12

/-- HQ_CTL of a disabled queue, with EN := 1. -/
theorem hqCtl_enable (v : W32) (hen : d.queues[q].en = false) (hv : LegalSizes v) : d.hqCtl q (setBit v 31) =
    ((d.setPreg (Page.hostq q) 0x100 (v &&& 0x003F_FF00)).modQueue q freshQueue).flushHeld q d.queues[q].held.length := by
  obtain ⟨⟨h1, h2⟩, h3, h4⟩ := hv
  have hon : flag (setBit v 31) 31 = true := flag_setBit_same v 31 (by decide)
  unfold hqCtl
  rw [if_neg (by rw [hen]; decide)]
  dsimp only
  rw [if_neg (by rw [hon]; decide), setBit_31_and v _ (by decide), field_setBit_31 v 12 4 (by decide),
    field_setBit_31 v 8 4 (by decide), if_pos (by simp [h1, h2, h3, h4])]
  rfl

theorem hqCtl_refused (v : W32) (hen : d.queues[q].en = false) (hv : ¬ LegalSizes v) : d.hqCtl q (setBit v 31) =
    (d.setPreg (Page.hostq q) 0x100 (v &&& 0x003F_FF00)).queueError q Status.txnInvalid := by
  have hon : flag (setBit v 31) 31 = true := flag_setBit_same v 31 (by decide)
  unfold hqCtl
  rw [if_neg (by rw [hen]; decide)]
  dsimp only
  rw [if_neg (by rw [hon]; decide), setBit_31_and v _ (by decide), field_setBit_31 v 12 4 (by decide),
    field_setBit_31 v 8 4 (by decide)]
  exact if_neg (by simpa [LegalSizes, and_assoc] using hv)

/-- While EN is 1 a write of EN := 1 has no effect. -/
theorem hqCtl_enabled (v : W32) (hen : d.queues[q].en = true) : d.hqCtl q (setBit v 31) = d := by
  unfold hqCtl
  rw [if_pos hen, if_pos (flag_setBit_same v 31 (by decide))]

theorem hqCtl_disable (hen : d.queues[q].en = true) : d.hqCtl q 0 = d.modQueue q fun h =>
    { h with
      en := false, draining := true, sqHead := h.sqTail, sqCount := 0, skipped := []
      started := h.started ++ d.outstandingAborts q } := by
  unfold hqCtl
  rw [if_pos hen, if_neg (by decide)]

/-! ### Doorbells -/

theorem sqDoorbell_submits (tail : Nat) (hen : d.queues[q].en = true) (herr : d.queues[q].err = false) (ht : tail < d.sqSize q) :
    d.sqDoorbell q tail = d.modQueue q fun h => { h with
      sqTail := tail
      sqCount := min (d.sqSize q) (h.sqCount +
        if (tail + d.sqSize q - d.queues[q].sqTail) % d.sqSize q = 0 ∧ d.queues[q].sqCount = 0 then d.sqSize q
        else (tail + d.sqSize q - d.queues[q].sqTail) % d.sqSize q) } := by
  unfold sqDoorbell
  dsimp only
  rw [if_neg (by rw [hen, herr]; decide), if_neg (Nat.not_le.mpr ht)]

theorem sqDoorbell_outside (tail : Nat) (hen : d.queues[q].en = true) (herr : d.queues[q].err = false) (ht : d.sqSize q ≤ tail) :
    d.sqDoorbell q tail = d.queueError q Status.hostqFault := by
  unfold sqDoorbell
  dsimp only
  rw [if_neg (by rw [hen, herr]; decide), if_pos ht]

theorem sqDoorbell_ignored (tail : Nat) (h : d.queues[q].en = false ∨ d.queues[q].err = true) : d.sqDoorbell q tail = d := by
  unfold sqDoorbell
  refine if_pos ?_
  rcases h with h | h <;> rw [h] <;> simp

/-- The entries that a CQ_HEAD of a queue consumes. -/
def consumed (head : Nat) : Nat :=
  if (head + d.cqSize q - d.queues[q].cqHead) % d.cqSize q = 0 ∧ d.queues[q].full = d.cqSize q then d.cqSize q
  else (head + d.cqSize q - d.queues[q].cqHead) % d.cqSize q

theorem cqDoorbell_consumes (head : Nat) (hen : d.queues[q].en = true ∨ d.queues[q].draining = true)
    (herr : d.queues[q].err = false) (ht : head < d.cqSize q) (hn : d.consumed q head ≤ d.queues[q].full) :
    d.cqDoorbell q head = (d.modQueue q fun h =>
      { h with cqHead := head, full := h.full - d.consumed q head }).flushHeld q d.queues[q].held.length := by
  have hon : (d.queues[q].en || d.queues[q].draining) = true := by rcases hen with h | h <;> rw [h] <;> simp
  unfold cqDoorbell
  dsimp only
  rw [if_neg (by rw [hon, herr]; decide)]
  exact if_neg fun h => h.elim (Nat.not_le.mpr ht) (Nat.not_lt.mpr hn)

theorem cqDoorbell_outside (head : Nat) (hen : d.queues[q].en = true ∨ d.queues[q].draining = true)
    (herr : d.queues[q].err = false) (h : d.cqSize q ≤ head ∨ d.queues[q].full < d.consumed q head) :
    d.cqDoorbell q head = d.queueError q Status.hostqFault := by
  have hon : (d.queues[q].en || d.queues[q].draining) = true := by rcases hen with h | h <;> rw [h] <;> simp
  unfold cqDoorbell
  dsimp only
  rw [if_neg (by rw [hon, herr]; decide)]
  exact if_pos h

end

end Device

end Sys2Proof.Machine
end

section
/-! Enabling, disabling and draining a host queue, and its doorbells (R475 to R478, R483). -/

namespace Sys2Proof.Machine

namespace Device

section
variable (d : Device) (q : QueueId)

theorem rdHost_of_host {d e : Device} (h : e.host = d.host) (a n : Nat) : e.rdHost a n = d.rdHost a n := by
  unfold rdHost
  rw [h]

/-- The completion stands in its entry. -/
theorem rdHost_writeCompletion (c : Completion) :
    (d.writeCompletion q c).rdHost (d.cqBase q + 16 * d.queues[q].cqTail) 16 = entryBytes d.queues[q] c := by
  obtain ⟨-, hh, -⟩ := d.writeCompletion_spec q c
  rw [rdHost_of_host hh]
  have h := d.rdHost_wrHost_same (d.cqBase q + 16 * d.queues[q].cqTail) (entryBytes d.queues[q] c)
  rwa [length_entryBytes] at h

theorem sameBytes_writeCompletion (c : Completion) : SameBytes d (d.writeCompletion q c) :=
  (d.outer_writeCompletion q c).sameBytes

/-- A write of HQ_CTL leaves the addresses of the rings. -/
theorem cqBase_setCtl (v : W32) : (d.setPreg (Page.hostq q) 0x100 v).cqBase q = d.cqBase q := by
  have h (o : Nat) (ho : o ≠ 0x100) : (d.setPreg (Page.hostq q) 0x100 v).preg (Page.hostq q) o = d.preg (Page.hostq q) o :=
    d.reg_setPreg_ne _ _ v _ (by unfold Page.reg; omega)
  rw [cqBase, h 0x110 (by decide), h 0x114 (by decide), cqBase]

/-- The size of the completion ring, as HQ_CTL sets it. -/
theorem cqSize_setCtl (v : W32) : (d.setPreg (Page.hostq q) 0x100 (v &&& 0x003F_FF00)).cqSize q = 2 ^ field v 8 4 := by
  have hf : field (v &&& 0x003F_FF00) 8 4 = field v 8 4 := by
    refine field_congr fun i hi => ?_
    rw [BitVec.getLsbD_and]
    have hm : ∀ j < 4, (0x003F_FF00 : W32).getLsbD (8 + j) = true := by decide
    rw [hm i hi, Bool.and_true]
  rw [cqSize, pfield, preg_setPreg_same, hf]

/-! ### What the host writes -/

/-- The host writes one cell after another. -/
def hostWrites (l : List Host.Cell) : Device := l.foldl (fun (d : Device) c => d.wrHost c.1 [c.2]) d

theorem hostWrites_only (l : List Host.Cell) : ∃ m b, d.hostWrites l = { d with host := m, hostBad := b } := by
  unfold hostWrites
  induction l generalizing d with
  | nil => exact ⟨d.host, d.hostBad, rfl⟩
  | cons c l ih =>
    obtain ⟨m, x, h⟩ := ih (d.wrHost c.1 [c.2])
    exact ⟨m, x, by rw [List.foldl_cons, h]; rfl⟩

/-- A byte that the host writes reads as the last cell of it. -/
theorem hostByte_hostWrites (l : List Host.Cell) (a : Nat) : (d.hostWrites l).hostByte a =
    match l.reverse.find? fun c => c.1 = a with
    | some c => c.2
    | none => d.hostByte a := by
  unfold hostWrites
  induction l using List.reverseRecOn with
  | nil => rfl
  | append_singleton l c ih =>
    rw [List.foldl_append, List.foldl_cons, List.foldl_nil, hostByte_wrHost_one, List.reverse_append, List.reverse_singleton,
      List.singleton_append, List.find?_cons]
    by_cases h : a = c.1
    · rw [if_pos h, decide_eq_true h.symm]
    · rw [if_neg h, decide_eq_false (Ne.symm h)]
      exact ih

/-! ### Completions that were held -/

theorem entryBytes_fresh (h : HostQueue) (c : Completion) : entryBytes { freshQueue h with held := [] } c =
    leBytes 8 (c.cid.toNat * 2 ^ 32 + 2 ^ 16 + c.code.toNat) ++ leBytes 8 c.result.toNat := by
  unfold entryBytes freshQueue
  dsimp only
  rw [Nat.zero_mul, Nat.zero_add]
  rfl

/-- A queue enabled with one held completion writes it as the first entry of its new ring. -/
theorem enabled_held (v : W32) (c : Completion) (hen : d.queues[q].en = false) (hv : LegalSizes v)
    (hheld : d.queues[q].held = [c]) :
    (d.hqCtl q (setBit v 31)).queues = d.queues.set q { freshQueue d.queues[q] with held := [], cqTail := 1, full := 1 } ∧
    (d.hqCtl q (setBit v 31)).rdHost (d.cqBase q) 16 =
      leBytes 8 (c.cid.toNat * 2 ^ 32 + 2 ^ 16 + c.code.toNat) ++ leBytes 8 c.result.toNat := by
  have hbig : 2 ≤ 2 ^ field v 8 4 := by
    obtain ⟨-, h4, -⟩ := hv
    calc 2 ≤ 2 ^ 4 := by decide
      _ ≤ 2 ^ field v 8 4 := Nat.pow_le_pow_right (by decide) h4
  have hx := d.hqCtl_enable q v hen hv
  rw [hheld, List.length_singleton] at hx
  have hbase := d.cqBase_setCtl q (v &&& 0x003F_FF00)
  have hsize := d.cqSize_setCtl q v
  have hqs : (d.setPreg (Page.hostq q) 0x100 (v &&& 0x003F_FF00)).queues = d.queues := rfl
  generalize d.setPreg (Page.hostq q) 0x100 (v &&& 0x003F_FF00) = e at hx hbase hsize hqs
  have hq1 : (e.modQueue q freshQueue).queues[q] = freshQueue d.queues[q] := by rw [queue_modQueue, hqs]
  rw [flushHeld_one _ q c (by rw [hq1]; exact hheld) (by
    rw [hq1, show (e.modQueue q freshQueue).cqSize q = e.cqSize q from rfl, hsize]
    exact Nat.two_pow_pos _)] at hx
  have hset : (e.modQueue q freshQueue).modQueue q (fun h => { h with held := [] }) =
      { e with queues := d.queues.set q { freshQueue d.queues[q] with held := [] } } := by
    simp [modQueue, upd, hqs]
  rw [hset] at hx
  obtain ⟨y, hy⟩ : ∃ y, y = ({ e with queues := d.queues.set q { freshQueue d.queues[q] with held := [] } } : Device) := ⟨_, rfl⟩
  have hyq : y.queues[q] = { freshQueue d.queues[q] with held := [] } := by
    rw [hy]
    exact Vector.getElem_set_self q.isLt
  have hysize : y.cqSize q = 2 ^ field v 8 4 := by rw [hy, ← hsize]; rfl
  have hybase : y.cqBase q = d.cqBase q := by rw [hy, ← hbase]; rfl
  have hyqs : y.queues = d.queues.set q { freshQueue d.queues[q] with held := [] } := by rw [hy]
  rw [← hy] at hx
  obtain ⟨hq, -, -⟩ := y.writeCompletion_spec q c
  have hr := y.rdHost_writeCompletion q c
  rw [← hx, hyq, hybase] at hr
  rw [← hx, hyq, hysize, hyqs] at hq
  have hone : (0 + 1) % 2 ^ field v 8 4 = 1 := Nat.mod_eq_of_lt (by omega)
  refine ⟨?_, ?_⟩
  · rw [hq]
    unfold nextEntry freshQueue
    dsimp only
    rw [hone]
    simp
  · have h0 : d.cqBase q + 16 * ({ freshQueue d.queues[q] with held := [] } : HostQueue).cqTail = d.cqBase q :=
      Nat.add_zero (d.cqBase q)
    rw [h0] at hr
    rw [← entryBytes_fresh d.queues[q] c, hr]

end

end Device

section
variable {s : State}

/-- A command that changes its queue alone. -/
theorem completes_queue {i : Instr} {q : QueueId} (f : HostQueue → HostQueue) {k : HostQueue}
    (hexec : exec i s = .next (s.onDev fun _ => s.dev.modQueue q f)) (hk : f s.dev.queues[q] = k) :
    Completes i s fun t => s.onlyTo t { s.dev with queues := t.dev.queues } ∧ t.dev.queues = s.dev.queues.set q k :=
  ⟨_, hexec, ⟨⟨rfl, rfl⟩, rfl⟩, by rw [← hk]; rfl⟩

/-- A command that the queue refuses with an error. -/
theorem completes_queueError {i : Instr} {q : QueueId} {c : Code} (x : Device)
    (hexec : exec i s = .next (s.onDev fun _ => x.queueError q c)) (hq : x.queues = s.dev.queues)
    (hb : Device.SameBytes s.dev x) : Completes i s fun t =>
      t.dev.queues = s.dev.queues.set q { s.dev.queues[q] with err := true, code := c } ∧
      flag (t.dev.preg (Page.hostq q) 0x028) 1 = true ∧ s.sameMemory t ∧ s.sameOutside t := by
  obtain ⟨hqueues, hf, ho⟩ := x.queueError_spec q c
  refine ⟨_, hexec, ?_, hf, (hb.trans ho.sameBytes).rdByte, rfl, rfl⟩
  rw [State.onDev_dev, hqueues, hq]

end

/-- A completion written from a device whose ring of the queue is where it was. -/
theorem completed_of_writeCompletion {s : State} {y : Device} {q : QueueId} (c : Completion)
    (hbase : y.cqBase q = s.dev.cqBase q) (hsize : y.cqSize q = s.dev.cqSize q)
    (htail : y.queues[q].cqTail = s.dev.queues[q].cqTail) (hphase : y.queues[q].phase = s.dev.queues[q].phase) :
    s.completed q c.cid c.code c.result (s.onDev fun _ => y.writeCompletion q c) := by
  obtain ⟨hq, -, -⟩ := y.writeCompletion_spec q c
  have hr := y.rdHost_writeCompletion q c
  have hk : (y.writeCompletion q c).queues[q] = Device.nextEntry (y.cqSize q) y.queues[q] := by
    rw [hq]
    exact Vector.getElem_set_self q.isLt
  unfold State.completed
  rw [State.onDev_dev]
  dsimp only
  rw [hk, ← hbase, ← hsize, ← htail, ← hphase, hr]
  exact ⟨rfl, rfl, rfl⟩

/-- A CQ_HEAD that frees entries lets the held completion go out. -/
theorem cqHead_held {s : State} (q : QueueId) (head : Nat) (c : Completion) (hheld : s.dev.queues[q].held = [c])
    (hpos : 0 < s.dev.consumed q head) (hfull : s.dev.queues[q].full ≤ s.dev.cqSize q)
    (hn : s.dev.consumed q head ≤ s.dev.queues[q].full) :
    let x := (s.dev.modQueue q fun h => { h with cqHead := head, full := h.full - s.dev.consumed q head }).flushHeld q 1
    s.completed q c.cid c.code c.result (s.onDev fun _ => x) ∧ x.queues[q].held = [] ∧
      x.queues[q].full = s.dev.queues[q].full - s.dev.consumed q head + 1 := by
  intro x
  have hx : x = (s.dev.modQueue q fun h => { h with cqHead := head, full := h.full - s.dev.consumed q head }).flushHeld q 1 := rfl
  clear_value x
  have hq1 := s.dev.queue_modQueue q fun h => { h with cqHead := head, full := h.full - s.dev.consumed q head }
  rw [Device.flushHeld_one _ q c (by rw [hq1]; exact hheld) (by
    rw [hq1]
    change s.dev.queues[q].full - s.dev.consumed q head < s.dev.cqSize q
    omega)] at hx
  have hset : (s.dev.modQueue q fun h => { h with cqHead := head, full := h.full - s.dev.consumed q head }).modQueue q
      (fun h => { h with held := [] }) = s.dev.modQueue q fun h =>
        { h with cqHead := head, full := h.full - s.dev.consumed q head, held := [] } := by
    simp [Device.modQueue, upd]
  rw [hset] at hx
  have hq2 := s.dev.queue_modQueue q fun h =>
    { h with cqHead := head, full := h.full - s.dev.consumed q head, held := [] }
  obtain ⟨hq, -, -⟩ := (s.dev.modQueue q fun h =>
    { h with cqHead := head, full := h.full - s.dev.consumed q head, held := [] }).writeCompletion_spec q c
  have hk : x.queues[q] = Device.nextEntry (s.dev.cqSize q)
      { s.dev.queues[q] with cqHead := head, full := s.dev.queues[q].full - s.dev.consumed q head, held := [] } := by
    rw [hx, hq, hq2]
    exact Vector.getElem_set_self q.isLt
  refine ⟨?_, by rw [hk]; rfl, by rw [hk]; rfl⟩
  rw [hx]
  exact completed_of_writeCompletion c rfl rfl (by rw [hq2]) (by rw [hq2])

/-- Settles O49: each command is a change of its queue, a queue error, or a completion that had been held. -/
theorem hostQueues : Obligations.HostQueues := by
  intro who q s hserv h page queue refused
  have hqueue {i : Instr} (f : HostQueue → HostQueue) {k : HostQueue}
      (hexec : exec i s = .next (s.onDev fun _ => s.dev.modQueue q f)) (hk : f s.dev.queues[q] = k) : queue i k :=
    completes_queue f hexec hk
  have hrefused {i : Instr} {c : Code} (x : Device) (hexec : exec i s = .next (s.onDev fun _ => x.queueError q c))
      (hq : x.queues = s.dev.queues) (hb : Device.SameBytes s.dev x) : refused i c := completes_queueError x hexec hq hb
  refine ⟨?_, fun hen => ?_, s.dev.takeCmd_of_none q, fun k hk hkn hc hs => s.dev.takeCmd_of_one q hk hkn hc hs, fun hen => ?_,
    fun hd hst hheld => ?_, ?_, ?_⟩
  · intro v ok fresh
    have hexec : exec (.queueEnable who q v) s = .next (s.onDev fun _ => s.dev.hqCtl q (setBit v 31)) :=
      next_congr (fun _ => s.dev.hqCtl q (setBit v 31)) (if_pos hserv)
    refine ⟨fun hen h1 h2 => ⟨fun hheld => ?_, fun c hheld => ?_⟩, fun hen hno => ?_, fun hen => ?_⟩
    · have hx := s.dev.hqCtl_enable q v hen ⟨h1, h2⟩
      rw [show s.dev.queues[q].held = [] from hheld, List.length_nil, Device.flushHeld] at hx
      refine ⟨_, hexec, ⟨⟨rfl, rfl⟩, ?_⟩, ?_, ?_⟩
      · rw [State.onDev_dev, hx]
        rfl
      · rw [State.onDev_dev, hx]
        exact Device.preg_setPreg_same _ _ _ _
      · rw [State.onDev_dev, hx]
        rfl
    · obtain ⟨hq, he⟩ := s.dev.enabled_held q v c hen ⟨h1, h2⟩ hheld
      exact ⟨_, hexec, hq, he⟩
    · refine hrefused _ (hexec.trans (congrArg (fun x => Host.Outcome.next (s.onDev fun _ => x)) (s.dev.hqCtl_refused q v hen hno)))
        rfl ⟨rfl, rfl⟩
    · exact next_of_unchanged ((if_pos hserv).trans (s.dev.hqCtl_enabled q v hen))
  · refine hqueue _ (next_congr (fun _ => _) ((if_pos ?_).trans (s.dev.hqCtl_disable q hen))) rfl
    rw [hserv]
    exact hen
  · refine next_of_unchanged (if_neg ?_)
    rw [hserv, show s.dev.queues[q].en = false from hen]
    decide
  · have hx : s.dev.drained q = (s.dev.modQueue q fun h => { h with draining := false }).event (Page.hostq q) 2 := by
      unfold Device.drained
      refine if_pos ?_
      rw [show s.dev.queues[q].draining = true from hd, show s.dev.queues[q].started = [] from hst,
        show s.dev.queues[q].held = [] from hheld]
      decide
    have hq := (s.dev.modQueue q fun h => { h with draining := false }).quiet_event (Page.hostq q) 2
    have hf := Device.flag_event (s.dev.modQueue q fun h => { h with draining := false }) (Page.hostq q) 2 (by decide)
    rw [← hx] at hq hf
    refine ⟨_, next_congr (fun _ => s.dev.drained q) rfl, ?_, hf, hq.rdByte, rfl, rfl⟩
    rw [State.onDev_dev, hq]
    rfl
  · intro tail l written
    obtain ⟨m, b, hw⟩ := s.dev.hostWrites_only l
    have hexec : exec (.sqTail q tail l) s = .next (s.onDev fun _ => (s.dev.hostWrites l).sqDoorbell q tail.toNat) := by
      refine next_congr (fun _ => (s.dev.hostWrites l).sqDoorbell q tail.toNat) ?_
      change (if (s.dev.hostWrites l).served then (s.dev.hostWrites l).sqDoorbell q tail.toNat else s.dev.hostWrites l) = _
      exact if_pos (by rw [hw]; exact hserv)
    have hwritten (x : Device) (hx : x.host = (s.dev.hostWrites l).host) : written (s.onDev fun _ => x) := by
      intro a
      rw [State.onDev_dev, Device.rdHost_of_host hx, Device.rdHost_one, s.dev.hostByte_hostWrites l a, Device.rdHost_one]
      generalize List.find? (fun c : Host.Cell => decide (c.1 = a)) l.reverse = o
      cases o <;> rfl
    have hqs : (s.dev.hostWrites l).queues = s.dev.queues := by rw [hw]
    have hsize : (s.dev.hostWrites l).sqSize q = s.dev.sqSize q := by rw [hw]; rfl
    refine ⟨?_, fun hen herr ht => ?_, fun hoff => ?_⟩
    · intro hen herr ht size n
      have hx := (s.dev.hostWrites l).sqDoorbell_submits q tail.toNat (by rw [hqs]; exact hen) (by rw [hqs]; exact herr)
        (by rw [hsize]; exact ht)
      refine ⟨_, hexec, hwritten _ (by rw [hx]; rfl), ?_, fun a => ?_, rfl, rfl⟩
      · rw [State.onDev_dev, hx, Device.queues_modQueue, hqs, hsize]
      · rw [State.onDev_dev, hx, hw]
        rfl
    · refine hrefused s.dev (next_congr (fun _ => s.dev.queueError q Status.hostqFault) ?_) rfl (.refl _)
      change (if s.dev.served then s.dev.sqDoorbell q tail.toNat else s.dev) = _
      rw [if_pos hserv, s.dev.sqDoorbell_outside q tail.toNat hen herr ht]
    · have hx := (s.dev.hostWrites l).sqDoorbell_ignored q tail.toNat (by rw [hqs]; exact hoff)
      exact ⟨_, hexec, hwritten _ (by rw [hx]), by rw [State.onDev_dev, hx, hqs]⟩
  · intro head hen herr k n
    have hexec : exec (.cqHead q head) s = .next (s.onDev fun _ => s.dev.cqDoorbell q head.toNat) :=
      next_congr (fun _ => s.dev.cqDoorbell q head.toNat) (if_pos hserv)
    have hto (x : Device) (hx : s.dev.cqDoorbell q head.toNat = x) : exec (.cqHead q head) s = .next (s.onDev fun _ => x) := by
      rw [hexec, hx]
    refine ⟨fun hlt hn => ⟨fun hheld => ?_, fun c hheld hpos hfull => ?_⟩, fun hout => ?_⟩
    · refine hqueue (fun h => { h with cqHead := head.toNat, full := h.full - n }) (hto _ ?_) rfl
      rw [s.dev.cqDoorbell_consumes q head.toNat hen herr hlt hn, show s.dev.queues[q].held = [] from hheld]
      rfl
    · obtain ⟨hdone, hh, hf⟩ := cqHead_held q head.toNat c hheld hpos hfull hn
      have hx := s.dev.cqDoorbell_consumes q head.toNat hen herr hlt hn
      rw [show s.dev.queues[q].held.length = 1 by rw [show s.dev.queues[q].held = [c] from hheld]; rfl] at hx
      exact ⟨_, hto _ hx, hdone, hh, hf⟩
    · exact hrefused s.dev (hto _ (s.dev.cqDoorbell_outside q head.toNat hen herr hout)) rfl (.refl _)

end Sys2Proof.Machine
end

section
/-! The command at the head of a host queue: taken, answered, or waiting (R477, R479). -/

namespace Sys2Proof.Machine

namespace Device

/-- e is d but for what queue q holds of its submission ring. -/
def Taken (q : QueueId) (d e : Device) : Prop :=
  ∃ (a n : Nat) (l : List Nat), e = d.modQueue q fun h => { h with sqHead := a, sqCount := n, skipped := l }

section
variable (d : Device) (q : QueueId)

theorem Taken.trans {q : QueueId} {d e f : Device} (h : Taken q d e) (k : Taken q e f) : Taken q d f := by
  obtain ⟨a, n, l, rfl⟩ := h
  obtain ⟨a', n', l', rfl⟩ := k
  exact ⟨a', n', l', by simp [modQueue, upd]⟩

theorem Taken.refl : Taken q d d :=
  ⟨d.queues[q].sqHead, d.queues[q].sqCount, d.queues[q].skipped,
    congrArg (fun v => ({ d with queues := v } : Device)) (upd_id _ _ _ rfl).symm⟩

theorem taken_passHead : Taken q d (d.passHead q) := by
  refine ⟨(d.queues[q].sqHead + 1) % d.sqSize q, d.queues[q].sqCount - 1,
    d.queues[q].skipped.filter fun p => p ≠ d.queues[q].sqHead, ?_⟩
  simp [passHead, modQueue, upd]

theorem taken_passSkipped (n : Nat) : Taken q d (d.passSkipped q n) := by
  induction n generalizing d with
  | zero => exact .refl d q
  | succ n ih =>
    unfold passSkipped
    dsimp only
    split
    · exact (d.taken_passHead q).trans (ih _)
    · exact .refl d q

theorem taken_takeCmd : Taken q d (d.takeCmd q) := (d.taken_passHead q).trans (taken_passSkipped _ q _)

/-- What a taken command leaves: the rest of its queue, and every other queue. -/
theorem Taken.queues {q : QueueId} {d e : Device} (h : Taken q d e) :
    e.queues[q] = { d.queues[q] with
      sqHead := e.queues[q].sqHead, sqCount := e.queues[q].sqCount, skipped := e.queues[q].skipped } ∧
    ∀ p, p ≠ q → e.queues[p] = d.queues[p] := by
  obtain ⟨a, n, l, rfl⟩ := h
  refine ⟨?_, fun p hp => upd_ne _ _ _ _ hp⟩
  rw [queue_modQueue]

theorem Taken.eq {q : QueueId} {d e : Device} (h : Taken q d e) : e = { d with queues := e.queues } := by
  obtain ⟨a, n, l, rfl⟩ := h
  rfl

/-- The queue's next command, legal, selected and allowed, has its effect. -/
theorem startCmd_of {w : List W64} {p : List W64 → Bool} {f : Device → List W64 → Device} (hn : d.nextCommand q = some w)
    (hl : cmdLegal w = true) (hp : p w = true) (ha : d.cmdAllowed (opcode w) = true) :
    d.startCmd q p f = f (d.takeCmd q) w := by
  unfold startCmd
  rw [hn]
  dsimp only
  rw [if_neg (by rw [hl]; decide), if_neg (by rw [hp]; decide), if_neg (by rw [ha]; decide)]

/-- A malformed command is refused. -/
theorem startCmd_illegal {w : List W64} {p : List W64 → Bool} {f : Device → List W64 → Device} (hn : d.nextCommand q = some w)
    (hl : cmdLegal w = false) : d.startCmd q p f = (d.takeCmd q).endNow q w Status.txnInvalid 0 := by
  unfold startCmd
  rw [hn]
  dsimp only
  rw [if_pos (by rw [hl]; decide)]

/-- The next command is one of a queue without held completions. -/
theorem held_of_nextCommand {w : List W64} (h : d.nextCommand q = some w) : d.queues[q].held = [] := by
  unfold nextCommand at h
  dsimp only at h
  split at h
  · exact absurd h (by simp)
  · next hno =>
    simp only [Bool.or_eq_true, not_or, Bool.not_eq_true', Bool.not_eq_false] at hno
    simpa using hno.1.2

end

end Device

section
variable {s : State} {q : QueueId} {w : List W64}

/-- From y the command that queue q has taken can be answered: the queues are as it was taken, and the completion ring lies
where it lay. -/
structure Answers (s : State) (q : QueueId) (y : Device) : Prop where
  queues : y.queues = (s.dev.takeCmd q).queues
  base : y.cqBase q = s.dev.cqBase q
  size : y.cqSize q = s.dev.cqSize q

theorem answers_takeCmd : Answers s q (s.dev.takeCmd q) := by
  have h := (s.dev.taken_takeCmd q).eq
  refine ⟨rfl, ?_, ?_⟩
  · rw [h]; rfl
  · rw [h]; rfl

/-- The answer of a command. -/
theorem answered_endNow {y : Device} (hy : Answers s q y) (hheld : s.dev.queues[q].held = [])
    (hfull : s.dev.queues[q].full < s.dev.cqSize q) (c : Code) (r : W64) :
    s.answered q w c r (s.onDev fun _ => y.endNow q w c r) ∧ y.endNow q w c r = { y with
      queues := (y.endNow q w c r).queues, host := (y.endNow q w c r).host, hostBad := (y.endNow q w c r).hostBad
      regs := (y.endNow q w c r).regs, pba := (y.endNow q w c r).pba, out := (y.endNow q w c r).out } := by
  obtain ⟨hq, hothers⟩ := (s.dev.taken_takeCmd q).queues
  rw [← hy.queues] at hq hothers
  have he : y.endNow q w c r = y.writeCompletion q ⟨cidOf w, c, r⟩ := by
    refine if_pos ⟨?_, ?_⟩
    · rw [hy.size, hq]
      exact hfull
    · rw [hq]
      exact hheld
  have hdone : s.completed q (cidOf w) c r (s.onDev fun _ => y.writeCompletion q ⟨cidOf w, c, r⟩) :=
    completed_of_writeCompletion ⟨cidOf w, c, r⟩ hy.base hy.size (by rw [hq]) (by rw [hq])
  obtain ⟨hqs, -, honly⟩ := y.writeCompletion_spec q ⟨cidOf w, c, r⟩
  rw [he]
  have hk : (y.writeCompletion q ⟨cidOf w, c, r⟩).queues[q] = Device.nextEntry (y.cqSize q) y.queues[q] := by
    rw [hqs]
    exact Vector.getElem_set_self q.isLt
  refine ⟨⟨hdone, ?_, ?_, ?_, fun p hp => ?_⟩, honly⟩
  · rw [State.onDev_dev, hk, ← hy.queues]
    rfl
  · rw [State.onDev_dev, hk, hq]
    rfl
  · rw [State.onDev_dev, hk, hq]
    rfl
  · rw [State.onDev_dev, hqs, ← hothers p hp]
    exact Vector.getElem_set_ne q.isLt p.isLt fun h => hp (Fin.ext h).symm

/-- The bytes of host memory apart from the completion stay over the answer. -/
theorem rdHost_endNow {y : Device} (hy : Answers s q y) (hheld : s.dev.queues[q].held = [])
    (hfull : s.dev.queues[q].full < s.dev.cqSize q) (c : Code) (r : W64) (a n : Nat) (ha : s.apart q a n) :
    (y.endNow q w c r).rdHost a n = y.rdHost a n := by
  obtain ⟨hq, -⟩ := (s.dev.taken_takeCmd q).queues
  rw [← hy.queues] at hq
  have he : y.endNow q w c r = y.writeCompletion q ⟨cidOf w, c, r⟩ := by
    refine if_pos ⟨?_, ?_⟩
    · rw [hy.size, hq]
      exact hfull
    · rw [hq]
      exact hheld
  obtain ⟨-, hh, -⟩ := y.writeCompletion_spec q ⟨cidOf w, c, r⟩
  rw [he, Device.rdHost_of_host hh]
  refine Device.rdHost_congr a n fun x h1 h2 => y.hostByte_wrHost_out _ _ _ ?_
  have ht : y.queues[q].cqTail = s.dev.queues[q].cqTail := by rw [hq]
  rw [Device.length_entryBytes, ht, hy.base]
  unfold State.apart at ha
  dsimp only at ha
  omega

end

end Sys2Proof.Machine
end

section
/-! The commands that complete at once or begin to wait: NOP, IDENTIFY, LOG_READ, host DMA and STALL_LOAD (R480, R484, R544). -/

namespace Sys2Proof.Machine

section
variable {s : State} {q : QueueId} {w : List W64}

theorem startCmd_of_next {op : Nat} (h : s.commandNext q op w) (f : Device → List W64 → Device) :
    s.dev.startCmd q (Device.isOp op) f = f (s.dev.takeCmd q) w := by
  obtain ⟨hn, hl, hop, ha, -⟩ := h
  exact s.dev.startCmd_of q hn hl (by simp [Device.isOp, hop]) (by rw [hop]; exact ha)

theorem held_of_next {op : Nat} (h : s.commandNext q op w) : s.dev.queues[q].held = [] := s.dev.held_of_nextCommand q h.1

theorem full_of_next {op : Nat} (h : s.commandNext q op w) : s.dev.queues[q].full < s.dev.cqSize q := by
  obtain ⟨-, -, -, -, hfull⟩ := h
  exact hfull

/-- A command that is answered from a device that differs from the state at most in what the host sees. -/
theorem completes_answered {i : Instr} {y : Device} {c : Code} {r : W64}
    (hexec : exec i s = .next (s.onDev fun _ => y.endNow q w c r)) (hy : Answers s q y)
    (honly : y = { s.dev with
      queues := y.queues, host := y.host, hostBad := y.hostBad, regs := y.regs, pba := y.pba, out := y.out })
    (hheld : s.dev.queues[q].held = []) (hfull : s.dev.queues[q].full < s.dev.cqSize q) :
    Completes i s fun t => s.onlyTo t { s.dev with
      queues := t.dev.queues, host := t.dev.host, hostBad := t.dev.hostBad, regs := t.dev.regs, pba := t.dev.pba
      out := t.dev.out } ∧ s.answered q w c r t := by
  obtain ⟨hans, hend⟩ := answered_endNow (w := w) hy hheld hfull c r
  generalize y.endNow q w c r = e at hexec hans hend
  refine ⟨_, hexec, ⟨⟨rfl, rfl⟩, ?_⟩, hans⟩
  rw [State.onDev_dev, hend, honly]

/-- A command that is answered at once. -/
theorem completes_ended {i : Instr} {c : Code} {r : W64}
    (hexec : exec i s = .next (s.onDev fun _ => (s.dev.takeCmd q).endNow q w c r))
    (hheld : s.dev.queues[q].held = []) (hfull : s.dev.queues[q].full < s.dev.cqSize q) :
    Completes i s fun t => s.onlyTo t { s.dev with
      queues := t.dev.queues, host := t.dev.host, hostBad := t.dev.hostBad, regs := t.dev.regs, pba := t.dev.pba
      out := t.dev.out } ∧ s.answered q w c r t := by
  have h := (s.dev.taken_takeCmd q).eq
  exact completes_answered hexec answers_takeCmd (by rw [h]) hheld hfull

/-- The host's memory written before the answer leaves the queue ready for it. -/
theorem answers_wrHost {y : Device} (h : Answers s q y) (a : Nat) (l : List Byte) : Answers s q (y.wrHost a l) := by
  obtain ⟨m, b, he⟩ := y.wrHost_only a l
  refine ⟨?_, ?_, ?_⟩
  · rw [he]; exact h.queues
  · rw [he]; exact h.base
  · rw [he]; exact h.size

/-- A command that writes the host's memory and is answered. -/
theorem completes_written {i : Instr} {a : Nat} {l : List Byte} {r : W64}
    (hexec : exec i s = .next (s.onDev fun _ => ((s.dev.takeCmd q).wrHost a l).endNow q w Status.done r))
    (hheld : s.dev.queues[q].held = []) (hfull : s.dev.queues[q].full < s.dev.cqSize q) :
    Completes i s fun t => s.onlyTo t { s.dev with
      queues := t.dev.queues, host := t.dev.host, hostBad := t.dev.hostBad, regs := t.dev.regs, pba := t.dev.pba
      out := t.dev.out } ∧ s.answered q w Status.done r t ∧ (s.apart q a l.length → t.dev.rdHost a l.length = l) := by
  have hy := answers_wrHost (answers_takeCmd (s := s) (q := q)) a l
  obtain ⟨m, b, he⟩ := (s.dev.takeCmd q).wrHost_only a l
  obtain ⟨t, ht, honly, hans⟩ := completes_answered hexec hy
    (by rw [he, (s.dev.taken_takeCmd q).eq]) hheld hfull
  refine ⟨t, ht, honly, hans, fun hap => ?_⟩
  have hdev : t = s.onDev fun _ => ((s.dev.takeCmd q).wrHost a l).endNow q w Status.done r :=
    (Host.Outcome.next.inj (hexec.symm.trans ht)).symm
  rw [hdev, State.onDev_dev, rdHost_endNow hy hheld hfull _ _ _ _ hap, Device.rdHost_wrHost_same]

/-! ### NOP, IDENTIFY and LOG_READ -/

theorem length_padTo (k : Nat) (l : List Byte) : (padTo k l).length = k := by
  rw [padTo, List.length_append, List.length_take, List.length_replicate]
  omega

theorem length_identifyPage (d : Device) : d.identifyPage.length = 4096 := length_padTo _ _

theorem length_logBytes (d : Device) (o n : Nat) : (d.logBytes o n).length = n := by
  unfold Device.logBytes
  rw [List.length_map, List.length_range]

theorem nop_answers (h : s.commandNext q 0 w) (hexec : exec (.nop q) s = .next (s.onDev fun _ =>
    (s.dev.takeCmd q).endNow q w Status.done 0)) : Completes (.nop q) s fun t => ∀ a, s.apart q a 1 →
      t.dev.rdHost a 1 = s.dev.rdHost a 1 := by
  refine ⟨_, hexec, fun a ha => ?_⟩
  rw [State.onDev_dev, rdHost_endNow answers_takeCmd (held_of_next h) (full_of_next h) _ _ _ _ ha, (s.dev.taken_takeCmd q).eq]
  rfl

theorem exec_nop (h : s.commandNext q 0 w) :
    exec (.nop q) s = .next (s.onDev fun _ => (s.dev.takeCmd q).endNow q w Status.done 0) :=
  next_congr (fun _ => _) (startCmd_of_next h _)

/-! ### Host DMA and STALL_LOAD -/

/-- A command that begins to wait. -/
theorem completes_waits {i : Instr} {y : HostWait} (hexec : exec i s = .next (s.onDev fun _ => (s.dev.takeCmd q).startWait q w y)) :
    Completes i s fun t => s.onlyTo t { s.dev with queues := t.dev.queues } ∧ s.waits q w y t := by
  have ht := s.dev.taken_takeCmd q
  obtain ⟨hq, hothers⟩ := ht.queues
  have he := ht.eq
  have hk : ((s.dev.takeCmd q).startWait q w y).queues[q] = { (s.dev.takeCmd q).queues[q] with
      started := (s.dev.takeCmd q).queues[q].started ++ [⟨cidOf w, BitVec.ofNat 8 (Device.opcode w), w, y⟩] } :=
    Device.queue_modQueue _ _ _
  have hs : (s.dev.takeCmd q).queues[q].started = s.dev.queues[q].started := by rw [hq]
  refine ⟨_, hexec, ⟨⟨rfl, rfl⟩, ?_⟩, ?_, fun p hp => ?_⟩
  · rw [State.onDev_dev]
    generalize s.dev.takeCmd q = e at he
    rw [he]
    rfl
  · rw [State.onDev_dev, hk, hs]
  · rw [State.onDev_dev, ← hothers p hp]
    exact upd_ne _ _ _ _ hp

/-- Taking a command leaves what an engine and an address are. -/
theorem kept_takeCmd (d : Device) : (d.takeCmd q).freeEngine = d.freeEngine ∧ (∀ a n, (d.takeCmd q).mapped a n = d.mapped a n) ∧
    (∀ st, (d.takeCmd q).stallRuns st = d.stallRuns st) := by
  have ht := d.taken_takeCmd q
  obtain ⟨hq, hothers⟩ := ht.queues
  have he := ht.eq
  have hstarted (p : QueueId) : (d.takeCmd q).queues[p].started = d.queues[p].started := by
    by_cases hp : p = q
    · rw [hp, hq]
    · rw [hothers p hp]
  generalize d.takeCmd q = e at he hstarted
  refine ⟨?_, fun a n => ?_, fun st => ?_⟩
  · unfold Device.freeEngine
    simp only [hstarted]
  · rw [he]
    rfl
  · rw [he]
    rfl

end

end Sys2Proof.Machine
end

section
/-! Host DMA, STALL_LOAD, and the commands that act on a stall (R480). -/

namespace Sys2Proof.Machine

namespace Device

/-- A reclaim of tokens counts them and reports; queues, memory and rings stay. -/
theorem reclaim_spec (d : Device) (cause : Fin 5) (c : Code) (p : Page) (n : Nat) :
    ∃ x : Device, d.reclaim cause c p 0 (n + 1) = x ∧ x = { d with tally := x.tally, regs := x.regs, pba := x.pba, out := x.out } ∧
      x.tally.reclaimed[cause] = d.tally.reclaimed[cause] + (n + 1) ∧
      ∀ k, 0x100 ≤ k % 4096 → x.reg k = d.reg k := by
  obtain ⟨y, hy⟩ : ∃ y : Device, y = { d with tally := { d.tally with reclaimed := upd d.tally.reclaimed cause (· + (n + 1)) } } := ⟨_, rfl⟩
  have hlog (e : Device) (r : BitVec 512) : ∃ t, e.logRing r = { e with tally := t } ∧ t.reclaimed = e.tally.reclaimed := ⟨_, rfl, rfl⟩
  obtain ⟨t, ht, htr⟩ := hlog y (y.logWord 3 p.domain c p 0 (n + 1) noCounts 0)
  obtain ⟨z, hz⟩ : ∃ z, z = y.logRing (y.logWord 3 p.domain c p 0 (n + 1) noCounts 0) := ⟨_, rfl⟩
  have hq := z.quiet_eventCode Page.tally 2 c
  have hr (k : Nat) (hk : 0x100 ≤ k % 4096) := z.reg_eventCode_ne Page.tally 2 c k (ne_reportReg _ hk)
  have he : d.reclaim cause c p 0 (n + 1) = z.eventCode Page.tally 2 c := by
    rw [hz, hy]
    exact if_neg (Nat.succ_ne_zero n)
  rw [← he] at hq hr
  rw [ht] at hz
  have hreg (k : Nat) : z.reg k = d.reg k := by
    rw [hz, hy]
    rfl
  refine ⟨_, rfl, ?_, ?_, fun k hk => (hr k hk).trans (hreg k)⟩
  · generalize d.reclaim cause c p 0 (n + 1) = x at hq
    unfold Quiet at hq
    rw [hq, hz, hy]
  · rw [hq, hz]
    change t.reclaimed[cause] = _
    rw [htr, hy]
    exact upd_same _ _ _

end Device

section
variable {s : State} {q : QueueId} {w : List W64}

/-- Where the registers of a queue's page above the common block stay, its rings do. -/
theorem rings_of_regs {d e : Device} (h : ∀ k, 0x100 ≤ k % 4096 → e.reg k = d.reg k) :
    e.cqBase q = d.cqBase q ∧ e.cqSize q = d.cqSize q := by
  have hp (o : Nat) (h1 : 0x100 ≤ o) (h2 : o < 4096) : e.preg (Page.hostq q) o = d.preg (Page.hostq q) o :=
    h _ (by rw [Page.reg_mod _ h2]; exact h1)
  refine ⟨?_, ?_⟩
  · rw [Device.cqBase, hp 0x110 (by decide) (by decide), hp 0x114 (by decide) (by decide), Device.cqBase]
  · rw [Device.cqSize, Device.pfield, hp 0x100 (by decide) (by decide), Device.cqSize, Device.pfield]

/-- What a data command does once an engine is free. -/
theorem completes_data {i : Instr} {e : Fin 4} (dpa : Nat) (load : Bool) (hheld : s.dev.queues[q].held = [])
    (hfull : s.dev.queues[q].full < s.dev.cqSize q) (he : s.dev.freeEngine = some e)
    (hexec : exec i s = .next (s.onDev fun _ => (s.dev.takeCmd q).startDma q w dpa load)) :
    let n := (Device.cmdWord w 3).toNat
    let only := fun (t : State) => s.onlyTo t { s.dev with
      queues := t.dev.queues, host := t.dev.host, hostBad := t.dev.hostBad, regs := t.dev.regs, pba := t.dev.pba, out := t.dev.out }
    (n % 4 = 0 → 0 < n → n ≤ 2 ^ 32 →
      (s.dev.mapped dpa n = true → Completes i s fun t => s.onlyTo t { s.dev with queues := t.dev.queues } ∧
        s.waits q w (if load then .loadDma e else .dma e) t) ∧
      (s.dev.mapped dpa n = false → Completes i s fun t => s.sameMemory t ∧ t.dev.stalls = s.dev.stalls ∧
        s.answered q w Status.addressUnmapped 0 t ∧ t.dev.tally.reclaimed[3] = s.dev.tally.reclaimed[3] + 1)) ∧
    (n % 4 ≠ 0 ∨ n = 0 ∨ 2 ^ 32 < n → Completes i s fun t => only t ∧ s.answered q w Status.txnInvalid 0 t) := by
  intro n only
  obtain ⟨hengine, hmapped, -⟩ := kept_takeCmd (q := q) s.dev
  have hto {x : Device} (hx : (s.dev.takeCmd q).startDma q w dpa load = x) : exec i s = .next (s.onDev fun _ => x) := by
    rw [hexec, hx]
  refine ⟨fun h4 hpos hmax => ⟨fun hm => ?_, fun hm => ?_⟩, fun hbad => ?_⟩
  · refine completes_waits (hto ?_)
    unfold Device.startDma
    dsimp only
    rw [if_neg (by omega), hmapped, hm, if_neg (by decide), hengine, he]
  · obtain ⟨x, hx, honly, hcount, hregs⟩ := (s.dev.takeCmd q).reclaim_spec 3 Status.addressUnmapped (Page.hostq q) 0
    have htk := (s.dev.taken_takeCmd q).eq
    have hdma : (s.dev.takeCmd q).startDma q w dpa load = x.endNow q w Status.addressUnmapped 0 := by
      unfold Device.startDma
      dsimp only
      rw [if_neg (by omega), hmapped, hm, if_pos (by decide), hx]
    have htally : (s.dev.takeCmd q).tally = s.dev.tally := by rw [htk]
    have hready := answers_takeCmd (s := s) (q := q)
    obtain ⟨hb, hs⟩ := rings_of_regs (q := q) hregs
    have hy : Answers s q x := ⟨by rw [honly], hb.trans hready.base, hs.trans hready.size⟩
    obtain ⟨hans, hend⟩ := answered_endNow (w := w) hy hheld hfull Status.addressUnmapped 0
    have hbytes : Device.SameBytes s.dev (x.endNow q w Status.addressUnmapped 0) := by
      refine Device.SameBytes.trans ?_ (x.outer_completeCmd q _ _ _).sameBytes
      rw [honly, htk]
      exact ⟨rfl, rfl⟩
    refine ⟨_, hto hdma, hbytes.rdByte, ?_, hans, ?_⟩
    · rw [State.onDev_dev, hend]
      change x.stalls = _
      rw [honly, htk]
    · rw [State.onDev_dev, hend]
      change x.tally.reclaimed[(3 : Fin 5)] = _
      rw [hcount, htally]
      rfl
  · refine completes_ended (hto ?_) hheld hfull
    unfold Device.startDma
    exact if_pos hbad

/-! ### Stalls -/

/-- The slot that bit 9 names. -/
theorem slot_of_flag {b : Bool} {sl : Slot} (h : b = true ↔ sl = .paddock) : (if b = true then Slot.paddock else .primary) = sl := by
  cases b <;> cases sl <;> simp_all

/-- A change of one slot of a stall, then the answer. -/
theorem completes_slot {i : Instr} {st : StallId} {y : Device} {r : W64} (hheld : s.dev.queues[q].held = [])
    (hfull : s.dev.queues[q].full < s.dev.cqSize q)
    (hexec : exec i s = .next (s.onDev fun _ => y.endNow q w Status.done r)) (hy : Answers s q y)
    (hbytes : Device.SameBytes s.dev y) (hne : ∀ u, u ≠ st → y.stall u = s.dev.stall u) : Completes i s fun t =>
      ((∀ u, u ≠ st → t.dev.stall u = s.dev.stall u) ∧ s.sameMemory t ∧ s.answered q w Status.done r t) ∧
      t.dev.stalls = y.stalls ∧ Device.EventsKept y t.dev := by
  obtain ⟨hans, hend⟩ := answered_endNow (w := w) hy hheld hfull Status.done r
  have ho := y.outer_completeCmd q (cidOf w) Status.done r
  refine ⟨_, hexec, ⟨fun u hu => ?_, (hbytes.trans ho.sameBytes).rdByte, hans⟩, ?_, ho.2⟩
  · rw [← hne u hu, State.onDev_dev, hend]
    rfl
  · rw [State.onDev_dev, hend]

/-- A device that differs from one that has taken the command outside its queues and the rings' registers. -/
theorem Answers.congr {x y : Device} (h : Answers s q x) (hq : y.queues = x.queues)
    (hr : ∀ k, 0x100 ≤ k % 4096 → y.reg k = x.reg k) : Answers s q y := by
  obtain ⟨hb, hs⟩ := rings_of_regs (q := q) hr
  exact ⟨hq.trans h.queues, hb.trans h.base, hs.trans h.size⟩

/-- A halt writes no register above the common block. -/
theorem reg_haltSlot (d : Device) (st : StallId) (sl : Slot) (kind cause k : Nat) (hk : 0x100 ≤ k % 4096) :
    (d.haltSlot st sl kind cause).reg k = d.reg k := by
  unfold Device.haltSlot
  rw [Device.reg_event_ne _ _ _ _ (Device.ne_reportReg _ hk 0x028 (by decide))]
  rfl

theorem queues_haltSlot (d : Device) (st : StallId) (sl : Slot) (kind cause : Nat) :
    (d.haltSlot st sl kind cause).queues = d.queues := by
  rw [(d.managed_haltSlot st sl kind cause).1]

theorem ctx_haltSlot (d : Device) (st : StallId) (sl : Slot) (kind cause : Nat) :
    (d.haltSlot st sl kind cause).ctx st sl = { d.ctx st sl with running := false, hold := none, vq := [] } := by
  simp only [Device.haltSlot, Device.ctx, (Device.quiet_event _ _ _).stall, Device.stall_modStall_same]
  cases sl <;> rfl

/-- STALL_START. -/
theorem stallStart_spec (h : s.commandNext q 0x21 w) {sl : Slot} (hsl : flag (Device.cmdWord w 1) 9 = true ↔ sl = .paddock) :
    let n := field (Device.cmdWord w 1) 0 9
    let st : StallId := Fin.ofNat 384 n
    let c := s.dev.ctx st sl
    let only := fun (t : State) => s.onlyTo t { s.dev with
      queues := t.dev.queues, host := t.dev.host, hostBad := t.dev.hostBad, regs := t.dev.regs, pba := t.dev.pba, out := t.dev.out }
    (n < 384 → field (Device.cmdWord w 1) 16 2 = 0 → c.running = false → (sl = .paddock → s.dev.paddockEn st = true) →
      Completes (.stallStart q) s fun t => ((∀ u, u ≠ st → t.dev.stall u = s.dev.stall u) ∧ s.sameMemory t ∧
        s.answered q w Status.done (s.dev.now.setWidth 64) t) ∧ t.dev.ctx st sl = { c with
          running := true, pc := BitVec.ofNat 16 (field (Device.cmdWord w 1) 16 16), hold := none, resumeAt := none, yielded := false
          ran := decide ((s.dev.stall st).slot = sl) }) ∧
    (n < 384 → field (Device.cmdWord w 1) 16 2 = 0 → c.running = true ∨ (sl = .paddock ∧ s.dev.paddockEn st = false) →
      Completes (.stallStart q) s fun t => only t ∧ s.answered q w Status.stateInvalid 0 t) ∧
    (384 ≤ n ∨ field (Device.cmdWord w 1) 16 2 ≠ 0 →
      Completes (.stallStart q) s fun t => only t ∧ s.answered q w Status.txnInvalid 0 t) := by
  intro n st c only
  have hslot := slot_of_flag hsl
  have htk := (s.dev.taken_takeCmd q).eq
  have hready := answers_takeCmd (s := s) (q := q)
  have hto {x : Device} (hx : (s.dev.takeCmd q).stallStart q w = x) : exec (.stallStart q) s = .next (s.onDev fun _ => x) :=
    next_congr (fun _ => x) ((startCmd_of_next h _).trans hx)
  have hctx : (s.dev.takeCmd q).ctx st sl = c := by rw [htk]; rfl
  have hen : (s.dev.takeCmd q).paddockEn st = s.dev.paddockEn st := by rw [htk]; rfl
  have hbytes : Device.SameBytes s.dev (s.dev.takeCmd q) := by rw [htk]; exact ⟨rfl, rfl⟩
  have hstall (u : StallId) : (s.dev.takeCmd q).stall u = s.dev.stall u := by rw [htk]; rfl
  have hnow : (s.dev.takeCmd q).now = s.dev.now := by rw [htk]; rfl
  refine ⟨fun hn hf hrun hpad => ?_, fun hn hf hbad => ?_, fun hbad => ?_⟩
  · have hx : (s.dev.takeCmd q).stallStart q w = ((s.dev.takeCmd q).modCtx st sl fun c =>
        { c with
          running := true, pc := BitVec.ofNat 16 (field (Device.cmdWord w 1) 16 16), hold := none, resumeAt := none
          yielded := false, ran := decide ((s.dev.stall st).slot = sl) }).endNow q w Status.done (s.dev.now.setWidth 64) := by
      unfold Device.stallStart
      dsimp only
      rw [hslot, if_neg (by omega), hctx, hen, if_neg, hstall, hnow]
      rintro (h1 | ⟨h1, h2⟩)
      · rw [hrun] at h1
        exact absurd h1 (by decide)
      · rw [hpad h1] at h2
        exact absurd h2 (by decide)
    obtain ⟨t, ht, hsl', hst, -⟩ := completes_slot (st := st) (held_of_next h) (full_of_next h) (hto hx)
      (hready.congr rfl fun _ _ => rfl) (hbytes.trans ⟨rfl, rfl⟩)
      (fun u hu => (Device.stall_modStall_ne _ _ _ _ hu).trans (hstall u))
    refine ⟨t, ht, hsl', ?_⟩
    rw [Device.ctx, Device.stall, hst]
    change (((s.dev.takeCmd q).modCtx st sl _).stall st).ctx sl = _
    rw [Device.modCtx, Device.stall_modStall_same, hstall]
    cases sl <;> rfl
  · refine completes_ended (hto ?_) (held_of_next h) (full_of_next h)
    unfold Device.stallStart
    dsimp only
    rw [hslot, if_neg (by omega), hctx, hen, if_pos]
    rcases hbad with h1 | ⟨h1, h2⟩
    · exact .inl h1
    · exact .inr ⟨h1, by rw [h2]; decide⟩
  · refine completes_ended (hto ?_) (held_of_next h) (full_of_next h)
    unfold Device.stallStart
    dsimp only
    rw [if_pos hbad]

/-- STALL_HALT. -/
theorem stallHalt_spec (h : s.commandNext q 0x22 w) {sl : Slot} (hsl : flag (Device.cmdWord w 1) 9 = true ↔ sl = .paddock) :
    let n := field (Device.cmdWord w 1) 0 9
    let st : StallId := Fin.ofNat 384 n
    let c := s.dev.ctx st sl
    let only := fun (t : State) => s.onlyTo t { s.dev with
      queues := t.dev.queues, host := t.dev.host, hostBad := t.dev.hostBad, regs := t.dev.regs, pba := t.dev.pba, out := t.dev.out }
    (n < 384 → c.running = true → Completes (.stallHalt q) s fun t =>
      ((∀ u, u ≠ st → t.dev.stall u = s.dev.stall u) ∧ s.sameMemory t ∧
        s.answered q w Status.done (s.dev.now.setWidth 64) t) ∧
      t.dev.ctx st sl = { c with running := false, hold := none, vq := [] } ∧
      (t.dev.stall st).haltReason = BitVec.ofNat 64 (s.dev.now.toNat * 2 ^ 16 + 0x400) ∧
      flag (t.dev.preg (Page.stall st) 0x028) 1 = true) ∧
    (n < 384 → c.running = false → Completes (.stallHalt q) s fun t => only t ∧ s.answered q w Status.stateInvalid 0 t) ∧
    (384 ≤ n → Completes (.stallHalt q) s fun t => only t ∧ s.answered q w Status.txnInvalid 0 t) := by
  intro n st c only
  have hslot := slot_of_flag hsl
  have htk := (s.dev.taken_takeCmd q).eq
  have hready := answers_takeCmd (s := s) (q := q)
  have hto {x : Device} (hx : (s.dev.takeCmd q).stallHalt q w = x) : exec (.stallHalt q) s = .next (s.onDev fun _ => x) :=
    next_congr (fun _ => x) ((startCmd_of_next h _).trans hx)
  have hctx : (s.dev.takeCmd q).ctx st sl = c := by rw [htk]; rfl
  have hbytes : Device.SameBytes s.dev (s.dev.takeCmd q) := by rw [htk]; exact ⟨rfl, rfl⟩
  have hstall (u : StallId) : (s.dev.takeCmd q).stall u = s.dev.stall u := by rw [htk]; rfl
  have hnow : (s.dev.takeCmd q).now = s.dev.now := by rw [htk]; rfl
  refine ⟨fun hn hrun => ?_, fun hn hrun => ?_, fun hbad => ?_⟩
  · have hx : (s.dev.takeCmd q).stallHalt q w =
        ((s.dev.takeCmd q).haltSlot st sl 4 0).endNow q w Status.done (s.dev.now.setWidth 64) := by
      unfold Device.stallHalt
      dsimp only
      rw [hslot, if_neg (by omega), hctx, if_neg (by rw [hrun]; decide), hnow]
    obtain ⟨t, ht, hsl', hst, hev⟩ := completes_slot (st := st) (held_of_next h) (full_of_next h) (hto hx)
      (hready.congr (queues_haltSlot _ st sl 4 0) fun k hk => reg_haltSlot _ st sl 4 0 k hk)
      (hbytes.trans (Device.managed_haltSlot _ st sl 4 0).sameBytes)
      (fun u hu => (Device.stall_haltSlot_ne _ st u sl 4 0 hu).trans (hstall u))
    refine ⟨t, ht, hsl', ?_, ?_, hev _ _ (Device.flag_haltSlot _ st sl 4 0)⟩
    · rw [Device.ctx, Device.stall, hst]
      exact (ctx_haltSlot _ st sl 4 0).trans (by rw [hctx])
    · rw [Device.stall, hst]
      refine (Device.haltReason_haltSlot _ st sl 4 0).trans ?_
      rw [hnow]
      rfl
  · refine completes_ended (hto ?_) (held_of_next h) (full_of_next h)
    unfold Device.stallHalt
    dsimp only
    rw [hslot, if_neg (by omega), hctx, if_pos (by rw [hrun]; decide)]
  · refine completes_ended (hto ?_) (held_of_next h) (full_of_next h)
    unfold Device.stallHalt
    dsimp only
    rw [if_pos hbad]

end

end Sys2Proof.Machine
end

section
/-! SET_FILL_LIMIT, SET_ALLOWLIST, and attestation (R419, R467, R527, R530, R531). -/

namespace Sys2Proof.Machine

theorem vget_vset {α : Type} {n : Nat} (v : Vector α n) (i j : Nat) (x z : α) (hj : j < n) :
    vget (vset v i x) j z = if j = i then x else vget v j z := by
  unfold vget vset
  rw [Vector.getElem?_setIfInBounds]
  by_cases h : j = i
  · subst h
    simp [hj]
  · simp [h, Ne.symm h]

namespace Device

/-- The only thing that the start of a signature writes is what is captured. -/
theorem beginSigning_only (d : Device) : ∃ c, d.beginSigning = { d with trust := { d.trust with capture := c } } := by
  unfold beginSigning
  split
  · exact ⟨d.trust.capture, rfl⟩
  · split
    · exact ⟨_, rfl⟩
    · exact ⟨d.trust.capture, rfl⟩

end Device

section
variable {s : State} {q : QueueId} {w : List W64}

/-- A change outside queues, memory and registers before the answer. -/
theorem completes_changed {i : Instr} {y : Device} (hheld : s.dev.queues[q].held = [])
    (hfull : s.dev.queues[q].full < s.dev.cqSize q)
    (hexec : exec i s = .next (s.onDev fun _ => y.endNow q w Status.done 0)) (hy : Answers s q y) :
    Completes i s fun t => s.answered q w Status.done 0 t ∧ t.dev.boot = y.boot ∧ t.dev.trust = y.trust ∧
      Device.SameBytes y t.dev ∧ t.dev.stalls = y.stalls := by
  obtain ⟨hans, hend⟩ := answered_endNow (w := w) hy hheld hfull Status.done 0
  have hb := (y.outer_completeCmd q (cidOf w) Status.done 0).sameBytes
  refine ⟨_, hexec, hans, ?_, ?_, hb, ?_⟩
  · rw [State.onDev_dev, hend]
  · rw [State.onDev_dev, hend]
  · rw [State.onDev_dev, hend]

/-- SET_FILL_LIMIT. -/
theorem setFillLimit_spec (h : s.commandNext q 0x40 w) :
    let n := field (Device.cmdWord w 1) 0 8
    let only := fun (t : State) => s.onlyTo t { s.dev with
      queues := t.dev.queues, host := t.dev.host, hostBad := t.dev.hostBad, regs := t.dev.regs, pba := t.dev.pba, out := t.dev.out }
    (n ≠ 0 → Completes (.setFillLimit q) s fun t => t.dev.boot = { s.dev.boot with fillLimit := BitVec.ofNat 8 n } ∧
      s.answered q w Status.done 0 t ∧ s.sameMemory t ∧ t.dev.stalls = s.dev.stalls) ∧
    (n = 0 → Completes (.setFillLimit q) s fun t => only t ∧ s.answered q w Status.txnInvalid 0 t) := by
  intro n only
  have htk := (s.dev.taken_takeCmd q).eq
  have hready := answers_takeCmd (s := s) (q := q)
  have hto {x : Device} (hx : (s.dev.takeCmd q).setFillLimit q w = x) : exec (.setFillLimit q) s = .next (s.onDev fun _ => x) :=
    next_congr (fun _ => x) ((startCmd_of_next h _).trans hx)
  have hlt : n < 256 := Nat.mod_lt _ (by decide)
  refine ⟨fun hn => ?_, fun hn => ?_⟩
  · have hx : (s.dev.takeCmd q).setFillLimit q w =
        ({ s.dev.takeCmd q with boot := { (s.dev.takeCmd q).boot with fillLimit := BitVec.ofNat 8 n } } : Device).endNow q w
          Status.done 0 := by
      unfold Device.setFillLimit
      refine if_neg fun hz => hn ?_
      have := congrArg BitVec.toNat hz
      rw [BitVec.toNat_ofNat, Nat.mod_eq_of_lt hlt] at this
      exact this
    obtain ⟨t, ht, hans, hb, -, hbytes, hst⟩ := completes_changed (held_of_next h) (full_of_next h) (hto hx)
      (hready.congr rfl fun _ _ => rfl)
    have hbase : Device.SameBytes s.dev
        ({ s.dev.takeCmd q with boot := { (s.dev.takeCmd q).boot with fillLimit := BitVec.ofNat 8 n } } : Device) := by
      rw [htk]
      exact ⟨rfl, rfl⟩
    refine ⟨t, ht, ?_, hans, (hbase.trans hbytes).rdByte, ?_⟩
    · rw [hb, htk]
    · rw [hst, htk]
  · refine completes_ended (hto ?_) (held_of_next h) (full_of_next h)
    unfold Device.setFillLimit
    exact if_pos (by rw [show field (Device.cmdWord w 1) 0 8 = 0 from hn]; rfl)

/-- SET_ALLOWLIST. -/
theorem setAllowlist_spec (h : s.commandNext q 0x41 w) :
    let n := field (Device.cmdWord w 2) 0 11
    let bytes := s.dev.rdHost (Device.cmdWord w 1).toNat (32 * n)
    let only := fun (t : State) => s.onlyTo t { s.dev with
      queues := t.dev.queues, host := t.dev.host, hostBad := t.dev.hostBad, regs := t.dev.regs, pba := t.dev.pba, out := t.dev.out }
    (n ≤ 1024 → Completes (.setAllowlist q) s fun t => s.answered q w Status.done 0 t ∧
      t.dev.boot = { s.dev.boot with allow := (List.range n).map fun k => BitVec.ofNat 256 (leNat ((bytes.drop (32 * k)).take 32)) } ∧
      vget t.dev.trust.mr 3 0 = Trust.digest (Trust.keyBytes (vget s.dev.trust.mr 3 0) ++ Sha.sha256 bytes) ∧
      s.sameMemory t ∧ t.dev.stalls = s.dev.stalls) ∧
    (1024 < n → Completes (.setAllowlist q) s fun t => only t ∧ s.answered q w Status.txnInvalid 0 t) := by
  intro n bytes only
  have htk := (s.dev.taken_takeCmd q).eq
  have hready := answers_takeCmd (s := s) (q := q)
  have hto {x : Device} (hx : (s.dev.takeCmd q).setAllowlist q w = x) : exec (.setAllowlist q) s = .next (s.onDev fun _ => x) :=
    next_congr (fun _ => x) ((startCmd_of_next h _).trans hx)
  have hrd : (s.dev.takeCmd q).rdHost (Device.cmdWord w 1).toNat (32 * n) = bytes := by rw [htk]; rfl
  refine ⟨fun hn => ?_, fun hn => ?_⟩
  · obtain ⟨keys, hkeys⟩ : ∃ keys : List (BitVec 256),
        keys = (List.range n).map fun k => BitVec.ofNat 256 (leNat ((bytes.drop (32 * k)).take 32)) := ⟨_, rfl⟩
    obtain ⟨y, hy⟩ : ∃ y : Device, y = ({ s.dev.takeCmd q with boot := { (s.dev.takeCmd q).boot with allow := keys } } : Device).extend 3
      (Sha.sha256 bytes) := ⟨_, rfl⟩
    have hx : (s.dev.takeCmd q).setAllowlist q w = y.endNow q w Status.done 0 := by
      rw [hy, hkeys, ← hrd]
      unfold Device.setAllowlist
      exact if_neg (by omega)
    have hy2 : y = { s.dev.takeCmd q with boot := { (s.dev.takeCmd q).boot with allow := keys }, trust := y.trust } := by
      rw [hy]
      rfl
    have hmr : vget y.trust.mr 3 0 = Trust.digest (Trust.keyBytes (vget s.dev.trust.mr 3 0) ++ Sha.sha256 bytes) := by
      rw [hy, htk]
      exact (vget_vset _ 3 3 _ 0 (by decide)).trans (if_pos rfl)
    obtain ⟨t, ht, hans, hb, htr, hbytes, hst⟩ := completes_changed (held_of_next h) (full_of_next h) (hto hx)
      (hready.congr (by rw [hy2]) fun k _ => by rw [hy2]; rfl)
    have hbase : Device.SameBytes s.dev y := by
      rw [hy2, htk]
      exact ⟨rfl, rfl⟩
    refine ⟨t, ht, hans, ?_, by rw [htr, hmr], (hbase.trans hbytes).rdByte, ?_⟩
    · rw [hb, hy2, htk, hkeys]
    · rw [hst, hy2, htk]
  · refine completes_ended (hto ?_) (held_of_next h) (full_of_next h)
    unfold Device.setAllowlist
    exact if_pos hn

end

end Sys2Proof.Machine
end

section
/-! Attestation (R527, R530, R531). -/

namespace Sys2Proof.Machine

section
variable {s : State} {q : QueueId} {w : List W64}

/-- ATTEST of either operation acts where the queue may start it. -/
theorem startCmd_attest (h : s.commandNext q 0x48 w) (n : Nat) (hn : field (Device.cmdWord w 1) 0 8 = n)
    (f : Device → List W64 → Device) :
    s.dev.startCmd q (fun w => Device.isOp 0x48 w && field (Device.cmdWord w 1) 0 8 = n) f = f (s.dev.takeCmd q) w := by
  obtain ⟨hnext, hl, hop, ha, -⟩ := h
  exact s.dev.startCmd_of q hnext hl (by simp [Device.isOp, hop, hn]) (by rw [hop]; exact ha)

/-- The words of the report that has just been queued, where no other waits for a signature. -/
theorem reportWords_startWait {y : Device} (hno : ∀ c ∈ y.queues[q].started, c.wait ≠ .signing) :
    (y.startWait q w .signing).reportWords q (cidOf w) = some w := by
  have hk : (y.startWait q w .signing).queues[q].started = y.queues[q].started ++
      [⟨cidOf w, BitVec.ofNat 8 (Device.opcode w), w, .signing⟩] :=
    congrArg HostQueue.started (Device.queue_modQueue _ _ _)
  unfold Device.reportWords
  rw [hk, List.find?_append, List.find?_eq_none.mpr fun c hc => by simp [hno c hc]]
  simp

/-- ATTEST REPORT. -/
theorem attestReport_spec (h : s.commandNext q 0x48 w) (hf : field (Device.cmdWord w 1) 0 8 = 0) :
    let only := fun (t : State) => s.onlyTo t { s.dev with
      queues := t.dev.queues, host := t.dev.host, hostBad := t.dev.hostBad, regs := t.dev.regs, pba := t.dev.pba, out := t.dev.out }
    (s.dev.trust.idkValid = true → Completes (.attestReport q) s fun t => s.waits q w .signing t ∧
      t.dev.trust.jobs = s.dev.trust.jobs ++ [.report q (cidOf w)] ∧
      (s.dev.trust.jobs = [] → s.dev.trust.capture = none → (∀ c ∈ s.dev.queues[q].started, c.wait ≠ .signing) →
        t.dev.trust.capture = some (s.dev.reportBytes (((w.drop 3).take 4).flatMap fun x => leBytes 8 x.toNat)))) ∧
    (s.dev.trust.idkValid = false → Completes (.attestReport q) s fun t => only t ∧ s.answered q w Status.identityUnavailable 0 t) := by
  intro only
  have ht := s.dev.taken_takeCmd q
  have htk := ht.eq
  obtain ⟨hq, hothers⟩ := ht.queues
  have hto {x : Device} (hx : (s.dev.takeCmd q).attestReport q w = x) : exec (.attestReport q) s = .next (s.onDev fun _ => x) :=
    next_congr (fun _ => x) ((startCmd_attest h 0 hf _).trans hx)
  have hvalid : (s.dev.takeCmd q).trust = s.dev.trust := by rw [htk]
  refine ⟨fun hv => ?_, fun hv => ?_⟩
  · obtain ⟨y, hy⟩ : ∃ y, y = (s.dev.takeCmd q).startWait q w .signing := ⟨_, rfl⟩
    obtain ⟨z, hz⟩ : ∃ z, z = ({ y with trust := { y.trust with jobs := y.trust.jobs ++ [SignJob.report q (cidOf w)] } } : Device) :=
      ⟨_, rfl⟩
    have hx : (s.dev.takeCmd q).attestReport q w = z.beginSigning := by
      unfold Device.attestReport
      rw [hvalid, if_neg (by rw [hv]; decide), hz, hy]
      rfl
    obtain ⟨c, hc⟩ := z.beginSigning_only
    have hyt : y.trust = s.dev.trust := by rw [hy, ← hvalid]; rfl
    have hyq : y.queues[q] = { (s.dev.takeCmd q).queues[q] with
        started := (s.dev.takeCmd q).queues[q].started ++ [⟨cidOf w, BitVec.ofNat 8 (Device.opcode w), w, .signing⟩] } := by
      rw [hy]
      exact Device.queue_modQueue _ _ _
    have hs : (s.dev.takeCmd q).queues[q].started = s.dev.queues[q].started := by rw [hq]
    refine ⟨_, hto hx, ⟨?_, fun p hp => ?_⟩, ?_, fun hj hcap hno => ?_⟩
    · rw [State.onDev_dev, hc, hz]
      exact hyq.trans (by rw [hs])
    · rw [State.onDev_dev, hc, hz, ← hothers p hp, hy]
      exact upd_ne _ _ _ _ hp
    · rw [State.onDev_dev, hc, hz]
      change y.trust.jobs ++ _ = _
      rw [hyt]
    · have hwords : z.reportWords q (cidOf w) = some w := by
        have hr := reportWords_startWait (w := w) (y := s.dev.takeCmd q) (q := q) (by rw [hs]; exact hno)
        rw [← hy] at hr
        rw [hz]
        exact hr
      have hjobs : z.trust.jobs = [SignJob.report q (cidOf w)] := by
        rw [hz]
        change y.trust.jobs ++ _ = _
        rw [hyt, hj]
        rfl
      have hnone : z.trust.capture = none := by
        rw [hz]
        change y.trust.capture = none
        rw [hyt, hcap]
      have hbytes (l : List Byte) : z.reportBytes l = s.dev.reportBytes l := by
        rw [hz, hy, htk]
        rfl
      rw [State.onDev_dev]
      unfold Device.beginSigning
      rw [hnone, hjobs]
      dsimp only
      rw [if_neg (by simp [Device.isLink]), hwords]
      dsimp only [Option.getD_some]
      rw [hbytes]
  · refine completes_ended (hto ?_) (held_of_next h) (full_of_next h)
    unfold Device.attestReport
    rw [hvalid, if_pos (by rw [hv]; decide)]

/-- ATTEST EXTEND. -/
theorem attestExtend_spec (h : s.commandNext q 0x48 w) (hf : field (Device.cmdWord w 1) 0 8 = 1) :
    let m := field (Device.cmdWord w 1) 8 3
    Completes (.attestExtend q) s fun t => s.answered q w Status.done 0 t ∧
      (∀ i, i < 8 → vget t.dev.trust.mr i 0 = if i = m then Trust.digest (Trust.keyBytes (vget s.dev.trust.mr m 0) ++
        ((w.drop 3).take 4).flatMap fun x => leBytes 8 x.toNat) else vget s.dev.trust.mr i 0) := by
  intro m
  have htk := (s.dev.taken_takeCmd q).eq
  obtain ⟨y, hy⟩ : ∃ y, y = (s.dev.takeCmd q).extend m (((w.drop 3).take 4).flatMap fun x => leBytes 8 x.toNat) := ⟨_, rfl⟩
  have hexec : exec (.attestExtend q) s = .next (s.onDev fun _ => y.endNow q w Status.done 0) :=
    next_congr (fun _ => y.endNow q w Status.done 0) ((startCmd_attest h 1 hf _).trans (by rw [hy]; rfl))
  obtain ⟨t, ht, hans, -, htr, -⟩ := completes_changed (held_of_next h) (full_of_next h) hexec
    (answers_takeCmd.congr (by rw [hy]; rfl) fun _ _ => by rw [hy]; rfl)
  refine ⟨t, ht, hans, fun i hi => ?_⟩
  rw [htr, hy, htk]
  exact vget_vset _ m i _ 0 hi

end

end Sys2Proof.Machine
end

section
/-! ABORT (R481, R485): a completion of another queue, then the answer. -/

namespace Sys2Proof.Machine

namespace Device

section
variable (d : Device)

theorem reg_bump_ne (p : Page) (o n k : Nat) (h : k ≠ p.reg o) : (d.bump p o n).reg k = d.reg k := d.reg_setPreg_ne _ _ _ _ h

theorem reg_wrHost (a : Nat) (l : List Byte) (k : Nat) : (d.wrHost a l).reg k = d.reg k := by
  obtain ⟨m, b, h⟩ := d.wrHost_only a l
  rw [h]
  rfl

/-- A completion writes the two counts of its queue's page. -/
theorem reg_writeCompletion_ne (q : QueueId) (c : Completion) (k : Nat) (h1 : k ≠ (Page.hostq q).reg 0x128)
    (h2 : k ≠ (Page.hostq q).reg 0x12C) : (d.writeCompletion q c).reg k = d.reg k := by
  unfold writeCompletion
  extract_lets h w0 x next y z v
  have hx : x.reg k = d.reg k := d.reg_wrHost _ _ k
  have hz : z.reg k = d.reg k := by
    dsimp only [z]
    split
    · exact (reg_bump_ne _ _ _ _ _ h1).trans hx
    · exact (reg_bump_ne _ _ _ _ _ h2).trans hx
  split
  · exact hz
  · exact (reg_msix _ _ _).trans hz

/-- The rings of every queue lie in e where they lie in d. -/
def SameRings (d e : Device) : Prop := ∀ q, e.cqBase q = d.cqBase q ∧ e.cqSize q = d.cqSize q

theorem SameRings.trans {d e f : Device} (h : SameRings d e) (k : SameRings e f) : SameRings d f := fun q =>
  ⟨(k q).1.trans (h q).1, (k q).2.trans (h q).2⟩

/-- The registers of the queues' pages that place the rings. -/
theorem sameRings_of_regs {d e : Device} (h : ∀ q : QueueId, ∀ o ∈ [0x100, 0x110, 0x114],
    e.reg ((Page.hostq q).reg o) = d.reg ((Page.hostq q).reg o)) : SameRings d e := by
  intro q
  have hp (o : Nat) (ho : o ∈ [0x100, 0x110, 0x114]) : e.preg (Page.hostq q) o = d.preg (Page.hostq q) o := h q o ho
  refine ⟨?_, ?_⟩
  · rw [cqBase, hp 0x110 (by decide), hp 0x114 (by decide), cqBase]
  · rw [cqSize, pfield, hp 0x100 (by decide), cqSize, pfield]

theorem sameRings_writeCompletion (q : QueueId) (c : Completion) : SameRings d (d.writeCompletion q c) := by
  refine sameRings_of_regs fun p o ho => ?_
  have hlt : o < 4096 ∧ o ≠ 0x128 ∧ o ≠ 0x12C := by
    revert ho o
    decide
  obtain ⟨hlt, h1, h2⟩ := hlt
  refine d.reg_writeCompletion_ne q c _ (fun hk => ?_) fun hk => ?_
  · exact h1 (by rw [← (Page.hostq p).reg_mod hlt, hk, Page.reg_mod _ (by decide)])
  · exact h2 (by rw [← (Page.hostq p).reg_mod hlt, hk, Page.reg_mod _ (by decide)])

/-- A free entry takes a completion at once. -/
theorem completeCmd_of_free (q : QueueId) (cid : BitVec 16) (c : Code) (r : W64) (hfull : d.queues[q].full < d.cqSize q)
    (hheld : d.queues[q].held = []) : d.completeCmd q cid c r = d.writeCompletion q ⟨cid, c, r⟩ := if_pos ⟨hfull, hheld⟩

/-- A started command ends where an entry is free. -/
theorem finishCmd_of_free (q : QueueId) (p : HostCmd → Bool) (x : HostCmd) (c : Code) (r : W64)
    (hfind : d.queues[q].started.find? p = some x) (hfull : d.queues[q].full < d.cqSize q) (hheld : d.queues[q].held = []) :
    d.finishCmd q p c r = (d.modQueue q fun h => { h with started := eraseFirst p h.started }).writeCompletion q ⟨x.cid, c, r⟩ := by
  unfold finishCmd
  rw [hfind]
  refine completeCmd_of_free _ q _ _ _ ?_ ?_
  · rw [queue_modQueue]
    exact hfull
  · rw [queue_modQueue]
    exact hheld

/-- The queue that a completion is written to, and the others. -/
theorem queue_writeCompletion (q : QueueId) (c : Completion) :
    (d.writeCompletion q c).queues[q] = nextEntry (d.cqSize q) d.queues[q] ∧
    ∀ p, p ≠ q → (d.writeCompletion q c).queues[p] = d.queues[p] := by
  obtain ⟨hqs, -, -⟩ := d.writeCompletion_spec q c
  rw [hqs]
  exact ⟨Vector.getElem_set_self q.isLt, fun p hp => Vector.getElem_set_ne q.isLt p.isLt fun h => hp (Fin.ext h).symm⟩

/-- Host memory apart from the free entry stays over a completion. -/
theorem rdHost_writeCompletion_apart (q : QueueId) (c : Completion) (a n : Nat)
    (h : a + n ≤ d.cqBase q + 16 * d.queues[q].cqTail ∨ d.cqBase q + 16 * d.queues[q].cqTail + 16 ≤ a) :
    (d.writeCompletion q c).rdHost a n = d.rdHost a n := by
  obtain ⟨-, hh, -⟩ := d.writeCompletion_spec q c
  rw [rdHost_of_host hh]
  refine rdHost_congr a n fun x h1 h2 => d.hostByte_wrHost_out _ _ _ ?_
  rw [length_entryBytes]
  omega

end

end Device

section
variable {s : State} {q k : QueueId} {w : List W64}

/-- What a completion says depends on its entry and its queue alone. -/
theorem State.completed.congr {t u : State} {cid : BitVec 16} {c : Code} {r : W64} (h : s.completed q cid c r t)
    (hr : u.dev.rdHost (s.dev.cqBase q + 16 * s.dev.queues[q].cqTail) 16 =
      t.dev.rdHost (s.dev.cqBase q + 16 * s.dev.queues[q].cqTail) 16) (hq : u.dev.queues[q] = t.dev.queues[q]) :
    s.completed q cid c r u := by
  obtain ⟨h1, h2, h3⟩ := h
  unfold State.completed
  dsimp only
  rw [hr, hq]
  exact ⟨h1, h2, h3⟩

/-- Queue q has taken its command, and queue k holds what it held but for its submission ring and its started commands. -/
structure Aborting (s : State) (q k : QueueId) (y : Device) : Prop where
  taken : y.queues[q] = (s.dev.takeCmd q).queues[q]
  tail : y.queues[k].cqTail = s.dev.queues[k].cqTail
  phase : y.queues[k].phase = s.dev.queues[k].phase
  held : y.queues[k].held = s.dev.queues[k].held
  full : y.queues[k].full = s.dev.queues[k].full
  others : ∀ p, p ≠ q → p ≠ k → y.queues[p] = s.dev.queues[p]
  rings : Device.SameRings s.dev y

/-- A completion in queue k, then the answer in queue q. -/
theorem answered_twice {y z : Device} (hy : Aborting s q k y) (hk : k ≠ q) (hheld : s.dev.queues[q].held = [])
    (hfull : s.dev.queues[q].full < s.dev.cqSize q) (hap : s.apart q (s.dev.cqBase k + 16 * s.dev.queues[k].cqTail) 16)
    (c : Completion) (r : W64) (hz : z.queues = (y.writeCompletion k c).queues) (hhost : z.host = (y.writeCompletion k c).host)
    (hrings : Device.SameRings (y.writeCompletion k c) z) :
    let t := s.onDev fun _ => z.endNow q w Status.done r
    s.answered q w Status.done r { t with dev := { t.dev with queues := t.dev.queues.set k s.dev.queues[k] } } ∧
    s.completed k c.cid c.code c.result t ∧ t.dev.queues[k] = Device.nextEntry (s.dev.cqSize k) y.queues[k] := by
  intro t
  obtain ⟨hq, -⟩ := (s.dev.taken_takeCmd q).queues
  have hr1 : Device.SameRings s.dev (y.writeCompletion k c) := hy.rings.trans (y.sameRings_writeCompletion k c)
  have hr2 := hr1.trans hrings
  obtain ⟨hwk, hwo⟩ := y.queue_writeCompletion k c
  have hzq : z.queues[q] = (s.dev.takeCmd q).queues[q] := by rw [hz, hwo q (Ne.symm hk), hy.taken]
  have he : z.endNow q w Status.done r = z.writeCompletion q ⟨cidOf w, Status.done, r⟩ := by
    refine z.completeCmd_of_free q _ _ _ ?_ ?_
    · rw [(hr2 q).2, hzq, hq]
      exact hfull
    · rw [hzq, hq]
      exact hheld
  have ht : t = s.onDev fun _ => z.writeCompletion q ⟨cidOf w, Status.done, r⟩ := by rw [← he]
  clear_value t
  have hdev : t.dev = z.writeCompletion q ⟨cidOf w, Status.done, r⟩ := by rw [ht, State.onDev_dev]
  obtain ⟨htq, hto⟩ := z.queue_writeCompletion q ⟨cidOf w, Status.done, r⟩
  rw [← hdev] at htq hto
  have hdone : s.completed q (cidOf w) Status.done r t := by
    rw [ht]
    exact completed_of_writeCompletion ⟨cidOf w, Status.done, r⟩ (hr2 q).1 (hr2 q).2 (by rw [hzq, hq]) (by rw [hzq, hq])
  have hset (p : QueueId) (hp : p ≠ k) : (t.dev.queues.set k s.dev.queues[k])[p] = t.dev.queues[p] :=
    Vector.getElem_set_ne k.isLt p.isLt fun h => hp (Fin.ext h).symm
  have hkdone : s.completed k c.cid c.code c.result (s.onDev fun _ => y.writeCompletion k c) :=
    completed_of_writeCompletion c (hy.rings k).1 (hy.rings k).2 hy.tail hy.phase
  have hsame (a n : Nat) : z.rdHost a n = (y.writeCompletion k c).rdHost a n := Device.rdHost_of_host hhost a n
  refine ⟨⟨hdone.congr rfl (hset q (Ne.symm hk)), ?_, ?_, ?_, fun p hp => ?_⟩, hkdone.congr ?_ ?_, ?_⟩
  · change (t.dev.queues.set k s.dev.queues[k])[q].sqHead = _
    rw [hset q (Ne.symm hk), htq, hzq]
    rfl
  · change (t.dev.queues.set k s.dev.queues[k])[q].full = _
    rw [hset q (Ne.symm hk), htq, hzq, hq]
    rfl
  · change (t.dev.queues.set k s.dev.queues[k])[q].started = _
    rw [hset q (Ne.symm hk), htq, hzq, hq]
    rfl
  · change (t.dev.queues.set k s.dev.queues[k])[p] = _
    by_cases hpk : p = k
    · rw [hpk]
      exact Vector.getElem_set_self k.isLt
    · rw [hset p hpk, hto p hp, hz, hwo p hpk, hy.others p hp hpk]
  · rw [hdev, z.rdHost_writeCompletion_apart, hsame, State.onDev_dev]
    have htail : z.queues[q].cqTail = s.dev.queues[q].cqTail := by rw [hzq, hq]
    rw [(hr2 q).1, htail]
    exact hap
  · rw [hto k hk, hz, State.onDev_dev]
  · rw [hto k hk, hz, hwk, (hy.rings k).2]

end

end Sys2Proof.Machine
end

section
/-! The signature of a report (R531), and ABORT (R481, R485). -/

namespace Sys2Proof.Machine

section
variable {s : State} {q : QueueId} {w : List W64}

/-- The signature of a report is ready. -/
theorem signingDone_spec (body : List Byte) (c : HostCmd) (jobs : List SignJob) (hcap : s.dev.trust.capture = some body)
    (hjobs : s.dev.trust.jobs = .report q c.cid :: jobs)
    (hfind : (s.dev.queues[q].started.find? fun h => h.cid = c.cid && h.wait = .signing) = some c)
    (hheld : s.dev.queues[q].held = []) (hfull : s.dev.queues[q].full < s.dev.cqSize q) :
    Completes .signingDone s fun t => t.dev.trust.jobs = jobs ∧ s.completed q c.cid Status.done 17600 t ∧
      let a := (Device.cmdWord c.words 2).toNat
      let report := body ++ s.dev.trust.sign Device.reportContext body
      (s.apart q a report.length → t.dev.rdHost a report.length = report) := by
  obtain ⟨y, hy⟩ : ∃ y, y = ({ s.dev with trust := { s.dev.trust with capture := none, jobs := jobs } } : Device) := ⟨_, rfl⟩
  obtain ⟨report, hreport⟩ : ∃ r, r = body ++ s.dev.trust.sign Device.reportContext body := ⟨_, rfl⟩
  obtain ⟨a, ha⟩ : ∃ a, a = (Device.cmdWord c.words 2).toNat := ⟨_, rfl⟩
  have hyq : y.queues = s.dev.queues := by rw [hy]
  have hwords : y.reportWords q c.cid = some c.words := by
    unfold Device.reportWords
    rw [hyq, hfind]
    rfl
  have hsign : y.trust.sign Device.reportContext body = s.dev.trust.sign Device.reportContext body := by
    rw [hy]
    rfl
  obtain ⟨m, b, hw⟩ := y.wrHost_only a report
  obtain ⟨z, hz⟩ : ∃ z, z = (y.wrHost a report).modQueue q fun h =>
    { h with started := eraseFirst (fun h => h.cid = c.cid && h.wait = .signing) h.started } := ⟨_, rfl⟩
  have hwq : (y.wrHost a report).queues = s.dev.queues := by rw [hw, ← hyq]
  have hrings : Device.SameRings s.dev (y.wrHost a report) := fun p => by
    rw [hw, hy]
    exact ⟨rfl, rfl⟩
  have hzq : z.queues[q] = { s.dev.queues[q] with
      started := eraseFirst (fun h => h.cid = c.cid && h.wait = .signing) s.dev.queues[q].started } := by
    rw [hz, Device.queue_modQueue, hwq]
  have hzr : Device.SameRings s.dev z := fun p => by
    rw [hz]
    exact hrings p
  have hwrite : y.writeReport q c.cid body = z.writeCompletion q ⟨c.cid, Status.done, 17600⟩ := by
    unfold Device.writeReport
    rw [hwords, hsign]
    dsimp only [Option.map_some, Option.getD_some]
    rw [← hreport, ← ha, hz]
    refine Device.finishCmd_of_free _ q _ c _ _ ?_ ?_ ?_
    · rw [hwq]
      exact hfind
    · rw [hwq, (hrings q).2]
      exact hfull
    · rw [hwq]
      exact hheld
  have hexec : exec .signingDone s = .next (s.onDev fun _ => (y.writeReport q c.cid body).beginSigning) := by
    refine next_congr (fun _ => (y.writeReport q c.cid body).beginSigning) ?_
    unfold Device.signed
    rw [hcap, hjobs, List.find?_cons]
    dsimp only [Device.isLink, Bool.not_false]
    rw [hy]
    rfl
  obtain ⟨e, he⟩ := (y.writeReport q c.cid body).beginSigning_only
  rw [he, hwrite] at hexec
  have hdone : s.completed q c.cid Status.done 17600 (s.onDev fun _ => z.writeCompletion q ⟨c.cid, Status.done, 17600⟩) :=
    completed_of_writeCompletion ⟨c.cid, Status.done, 17600⟩ (hzr q).1 (hzr q).2 (by rw [hzq]) (by rw [hzq])
  have hread (n x : Nat) : (z.writeCompletion q ⟨c.cid, Status.done, 17600⟩).rdHost n x =
      ({ z.writeCompletion q ⟨c.cid, Status.done, 17600⟩ with
        trust := { (z.writeCompletion q ⟨c.cid, Status.done, 17600⟩).trust with capture := e } } : Device).rdHost n x := rfl
  have hjobs' : (z.writeCompletion q ⟨c.cid, Status.done, 17600⟩).trust.jobs = jobs := by
    obtain ⟨-, -, honly⟩ := z.writeCompletion_spec q ⟨c.cid, Status.done, 17600⟩
    rw [honly, hz, hw, hy]
    rfl
  have hap := z.rdHost_writeCompletion_apart q ⟨c.cid, Status.done, 17600⟩ a report.length
  have hpre : z.rdHost a report.length = report := by
    rw [hz]
    exact y.rdHost_wrHost_same a report
  rw [(hzr q).1, show z.queues[q].cqTail = s.dev.queues[q].cqTail by rw [hzq]] at hap
  generalize z.writeCompletion q ⟨c.cid, Status.done, 17600⟩ = x at hexec hdone hread hjobs' hap
  refine ⟨_, hexec, hjobs', hdone.congr rfl rfl, fun happ => ?_⟩
  rw [← hreport, ← ha] at happ ⊢
  exact ((hread _ _).symm.trans (hap happ)).trans hpre

end

end Sys2Proof.Machine
end

section
/-! What accesses to memory leave of the registers of other pages, and host DMA (R480). -/

namespace Sys2Proof.Machine

namespace Device

/-- No register of the pages of yards, drovers, Forges, ports and host queues differs. -/
def EnginePagesKept (d e : Device) : Prop := ∀ k, 0x1_0000 ≤ k → k < 0x6_0000 → e.reg k = d.reg k

namespace EnginePagesKept

variable {d e f : Device}

theorem refl (d : Device) : EnginePagesKept d d := fun _ _ _ => rfl

theorem trans (h : EnginePagesKept d e) (k : EnginePagesKept e f) : EnginePagesKept d f := fun i h1 h2 =>
  (k i h1 h2).trans (h i h1 h2)

theorem of_regs (h : e.regs = d.regs) : EnginePagesKept d e := fun k _ _ => by
  unfold reg
  rw [h]

theorem sameRings (h : EnginePagesKept d e) : SameRings d e := by
  refine sameRings_of_regs fun q o ho => h _ ?_ ?_
  · have : (Page.hostq q).base = 0x5_0000 + q.val * 0x1000 := rfl
    unfold Page.reg
    omega
  · have : (Page.hostq q).base = 0x5_0000 + q.val * 0x1000 := rfl
    have : o < 4096 := by
      revert ho o
      decide
    unfold Page.reg
    omega

end EnginePagesKept

/-- No register below the pages behind the host queues' differs. -/
def FrontPagesKept (d e : Device) : Prop := ∀ k, k < 0x6_0000 → e.reg k = d.reg k

namespace FrontPagesKept

variable {d e f : Device}

theorem refl (d : Device) : FrontPagesKept d d := fun _ _ => rfl

theorem trans (h : FrontPagesKept d e) (k : FrontPagesKept e f) : FrontPagesKept d f := fun i hi => (k i hi).trans (h i hi)

theorem of_regs (h : e.regs = d.regs) : FrontPagesKept d e := fun k _ => by
  unfold reg
  rw [h]

theorem enginePages (h : FrontPagesKept d e) : EnginePagesKept d e := fun k _ h2 => h k h2

end FrontPagesKept

section
variable (d : Device)

theorem frontPages_setPreg (p : Page) (o : Nat) (v : W32) (h : 0x6_0000 ≤ p.base) : FrontPagesKept d (d.setPreg p o v) :=
  fun k h2 => d.reg_setPreg_ne p o v k (by unfold Page.reg; omega)

theorem frontPages_bump (p : Page) (o n : Nat) (h : 0x6_0000 ≤ p.base) : FrontPagesKept d (d.bump p o n) :=
  d.frontPages_setPreg p o _ h

theorem frontPages_eventCode (p : Page) (i : Nat) (c : Code) (h : 0x6_0000 ≤ p.base) : FrontPagesKept d (d.eventCode p i c) :=
  fun k h2 => d.reg_eventCode_ne p i c k (ne_reportReg_of_outside p (.inl (by omega)))

theorem frontPages_record (p : Page) (c : Code) (h : 0x6_0000 ≤ p.base) : FrontPagesKept d (d.record p c) :=
  fun k h2 => d.reg_record_ne p c k (ne_reportReg_of_outside p (.inl (by omega)))

theorem base_memctl (c : Chan) : 0x6_0000 ≤ (Page.memctl c).base := by
  have : (Page.memctl c).base = 0x10_0000 + c.val * 0x1000 := rfl
  omega

theorem base_shedOf (st : StallId) : 0x6_0000 ≤ (Page.shedOf st).base := by
  have : (Page.shedOf st).base = 0x8_0000 + st.val / 16 * 0x1000 := rfl
  omega

theorem frontPages_wrBytes (a : Nat) (l : List Byte) : FrontPagesKept d (d.wrBytes a l) := by
  rw [wrBytes_only]
  exact .of_regs rfl

theorem frontPages_burstServed (c : Chan) (w b : Bool) : FrontPagesKept d (d.burstServed c w b) := by
  have hp := base_memctl c
  simp only [burstServed, drawFree]
  have h0 : FrontPagesKept d { d with
      free := d.free + 1, batches := d.batches.set c (d.batches[c].take w (Config.turnRound d.free)).1 } := .of_regs rfl
  generalize ({ d with free := _, batches := _ } : Device) = e at h0 ⊢
  have h1 := h0.trans (e.frontPages_bump (Page.memctl c) (if w then 0x124 else 0x120) 1 hp)
  split
  · exact ((h1.trans (frontPages_bump _ _ _ _ hp)).trans (frontPages_bump _ _ _ _ hp)).trans (frontPages_bump _ _ _ _ hp)
  · exact (h1.trans (frontPages_bump _ _ _ _ hp)).trans (frontPages_bump _ _ _ _ hp)

theorem frontPages_setMapout (c : Chan) : FrontPagesKept d (d.setMapout c) := by
  unfold setMapout
  split
  · exact .refl d
  · exact fun k h2 => (reg_event_ne _ _ _ _ (by have := base_memctl c; unfold Page.reg; omega)).trans rfl

theorem frontPages_burstFailed (a : Nat) : FrontPagesKept d (d.burstFailed a) := by
  have hp := base_memctl (d.chanOf a)
  unfold burstFailed
  extract_lets c p d1 d2 d3 d4 d5 lim
  have h3 : FrontPagesKept d d3 := ((d.frontPages_bump p 0x114 1 hp).trans (frontPages_setPreg d1 p 0x118 _ hp)).trans
    (frontPages_setPreg d2 p 0x11C _ hp)
  have h5 : FrontPagesKept d d5 := (h3.trans (f := d4) (.of_regs rfl)).trans (frontPages_eventCode d4 p 2 _ hp)
  split
  · exact h5.trans (frontPages_setMapout d5 c)
  · exact h5

theorem frontPages_wordFailed (a : Nat) : FrontPagesKept d (d.wordFailed a) :=
  (frontPages_bump _ _ _ _ (base_shedOf _)).trans (frontPages_record _ _ _ (base_shedOf _))

theorem frontPages_inject (u : Nat) : FrontPagesKept d (d.inject u) := by
  simp only [inject]
  split_ifs <;> exact .of_regs rfl

theorem frontPages_readUnit (u : Nat) (b : Bool) : FrontPagesKept d (d.readUnit u b).1 := by
  have hs := frontPages_burstServed d (d.chanOf u) false b
  simp only [readUnit]
  generalize d.burstServed (d.chanOf u) false b = e at hs ⊢
  split_ifs
  · exact .refl d
  · exact hs.trans (frontPages_burstFailed _ u)
  · exact hs.trans (frontPages_bump _ _ _ _ (base_memctl _))
  · exact hs
  · exact frontPages_wordFailed d u
  · exact FrontPagesKept.trans (e := { d with ce := setErase d.ce u }) (.of_regs rfl) (frontPages_bump _ _ _ _ (base_shedOf _))
  · exact .refl d

theorem frontPages_writeUnit (a : Nat) (l : List Byte) (b : Bool) : FrontPagesKept d (d.writeUnit a l b).1 := by
  have hs := frontPages_burstServed d (d.chanOf (unitOf a)) true b
  have hput (x : Device) (hx : FrontPagesKept d x) : FrontPagesKept d ((x.wrBytes a l).inject (unitOf a)) :=
    (hx.trans (frontPages_wrBytes x a l)).trans (frontPages_inject _ _)
  unfold writeUnit
  extract_lets u whole lp6 c x y w z
  have hx : FrontPagesKept d x := by
    dsimp only [x]
    split
    · exact hs
    · exact .refl d
  have hz : FrontPagesKept d z := by
    have hw : FrontPagesKept d w := hx.trans (.of_regs rfl)
    dsimp only [z]
    split
    · split
      · exact hw.trans (frontPages_bump w _ _ _ (base_memctl _))
      · exact hw.trans (frontPages_bump w _ _ _ (base_shedOf _))
    · exact hx
  split
  · exact .refl d
  split
  · exact hput y (hx.trans (.of_regs rfl))
  split
  · split
    · exact hx.trans (frontPages_burstFailed x u)
    · exact hx.trans (frontPages_wordFailed x u)
  · exact hput z hz

/-- A fold of accesses. -/
theorem frontPages_foldl {ι : Type} (f : Device → ι → Device × MemRes) (hf : ∀ d u, FrontPagesKept d (f d u).1)
    (g : ι → MemRes → List (Nat × MemRes)) (l : List ι) (x : Device × List (Nat × MemRes)) :
    FrontPagesKept x.1 (l.foldl (fun x u => ((f x.1 u).1,
      if (f x.1 u).2 = .ok then x.2 else x.2 ++ g u (f x.1 u).2)) x).1 := by
  induction l generalizing x with
  | nil => exact .refl _
  | cons u t ih => exact (hf x.1 u).trans (ih _)

theorem frontPages_readRange (a n : Nat) (b : Bool) : FrontPagesKept d (d.readRange a n b).1 :=
  frontPages_foldl (fun d u => d.readUnit u b) (fun d u => frontPages_readUnit d u b) (fun u r => [(u, r)]) _ (d, [])

theorem frontPages_writeRange (a : Nat) (l : List Byte) (b : Bool) : FrontPagesKept d (d.writeRange a l b).1 :=
  frontPages_foldl (fun d u => d.writeUnit (pieceOf a l u).1 (pieceOf a l u).2 b) (fun d _ => frontPages_writeUnit d _ _ b)
    (fun u r => [(u, r)]) _ (d, [])

theorem enginePages_readRange (a n : Nat) (b : Bool) : EnginePagesKept d (d.readRange a n b).1 :=
  (d.frontPages_readRange a n b).enginePages

theorem enginePages_writeRange (a : Nat) (l : List Byte) (b : Bool) : EnginePagesKept d (d.writeRange a l b).1 :=
  (d.frontPages_writeRange a l b).enginePages

/-- The bytes that a data command moved are counted; the queues' pages and everything but the counts stay. -/
theorem dmaMoved_spec (n : Nat) : EnginePagesKept d (d.dmaMoved n) ∧
    d.dmaMoved n = { d with regs := (d.dmaMoved n).regs, boot := (d.dmaMoved n).boot } := by
  refine ⟨fun k h1 _ => ?_, rfl⟩
  refine (reg_setPreg_ne _ _ _ _ _ ?_).trans rfl
  have : Page.gatehouse.reg 0x154 = 0x5154 := rfl
  omega

/-- Bytes come in from the host: queues, rings and the host's memory stay. -/
theorem dmaMove_in (c : HostCmd) (hop : c.op = 0x10) (n : Nat) :
    (d.dmaMove c n).1.queues = d.queues ∧ (d.dmaMove c n).1.host = d.host ∧ SameRings d (d.dmaMove c n).1 := by
  obtain ⟨x, hx⟩ : ∃ x, x = d.moveIn (cmdWord c.words 1).toNat (field (cmdWord c.words 2) 0 48) n := ⟨_, rfl⟩
  have hm : (d.dmaMove c n).1 = x.1.dmaMoved n := by
    unfold dmaMove
    rw [hop, hx]
    rfl
  have ha : Accessed d x.1 := by
    rw [hx]
    exact accessed_writeRange _ _ _ _
  have hp : EnginePagesKept d x.1 := by
    rw [hx]
    exact enginePages_writeRange _ _ _ _
  obtain ⟨hk, honly⟩ := x.1.dmaMoved_spec n
  unfold Accessed at ha
  rw [hm]
  refine ⟨?_, ?_, (hp.trans hk).sameRings⟩
  · rw [honly, ha]
  · rw [honly, ha]

/-- Bytes come in from the host to sound units. -/
theorem dmaMove_in_sound (c : HostCmd) (hop : c.op = 0x10) (n : Nat)
    (hs : d.soundRange (field (cmdWord c.words 2) 0 48) n) (harm : d.tally.armed = false) :
    ∃ e, Served (field (cmdWord c.words 2) 0 48) d e ∧ d.dmaMove c n =
      ((e.wrBytes (field (cmdWord c.words 2) 0 48) (d.rdHost (cmdWord c.words 1).toNat n)).dmaMoved n, []) := by
  have hlen : (d.rdHost (cmdWord c.words 1).toNat n).length = n := by
    unfold rdHost
    rw [List.length_map, List.length_range]
  obtain ⟨e, he, hw⟩ := d.writeRange_sound (field (cmdWord c.words 2) 0 48) (d.rdHost (cmdWord c.words 1).toNat n) false
    (by rw [hlen]; exact hs) harm
  refine ⟨e, he, ?_⟩
  unfold dmaMove
  rw [hop]
  change ((d.moveIn _ _ n).1.dmaMoved n, (d.moveIn _ _ n).2) = _
  rw [show d.moveIn (cmdWord c.words 1).toNat (field (cmdWord c.words 2) 0 48) n = _ from hw]

end

end Device

end Sys2Proof.Machine
end

section
/-! ABORT (R481, R485). -/

namespace Sys2Proof.Machine

namespace Device

section
variable (d : Device) (q : QueueId)

/-- Passing ended commands: either none is passed, or fewer commands are left. -/
theorem passSkipped_progress (n : Nat) : d.passSkipped q n = d ∨ (d.passSkipped q n).queues[q].sqCount < d.queues[q].sqCount := by
  induction n generalizing d with
  | zero => exact .inl rfl
  | succ n ih =>
    unfold passSkipped
    dsimp only
    split
    · next h =>
      have hp : (d.passHead q).queues[q].sqCount = d.queues[q].sqCount - 1 := by
        rw [passHead, queue_modQueue]
      rcases ih (d.passHead q) with hk | hk
      · refine .inr ?_
        have h2 : ((d.passHead q).passSkipped q n).queues[q].sqCount = (d.passHead q).queues[q].sqCount :=
          congrArg (fun x : Device => x.queues[q].sqCount) hk
        omega
      · exact .inr (by omega)
    · exact .inl rfl

/-- ABORT of a command that is submitted and not taken. -/
theorem abortCmd_submitted {w : List W64} {k : QueueId} {cid pos : Nat} (moved : Nat)
    (hkw : Fin.ofNat 16 (field (cmdWord w 1) 0 4) = k) (hcid : field (cmdWord w 1) 16 16 = cid)
    (hfind : (d.queues[k].started.find? fun c => decide (c.cid.toNat = cid)) = none) (hsub : d.submitted k cid = some pos) :
    d.abortCmd q w moved = (d.abortSubmitted k pos 0).endNow q w Status.done 0x0001 := by
  subst hkw hcid
  unfold abortCmd
  dsimp only
  rw [hfind, hsub]
  rfl

/-- ABORT of a data command that has not reached its commit point. -/
theorem abortCmd_data {w : List W64} {k : QueueId} {c : HostCmd} {e : Fin 4} (moved : Nat)
    (hkw : Fin.ofNat 16 (field (cmdWord w 1) 0 4) = k)
    (hfind : (d.queues[k].started.find? fun c => decide (c.cid.toNat = field (cmdWord w 1) 16 16)) = some c)
    (hwait : c.wait = .dma e) (hlt : moved < (cmdWord c.words 3).toNat) :
    d.abortCmd q w moved = (((d.finishCmd k (fun h => h == c) Status.aborted (BitVec.ofNat 64 moved)).dmaMove c moved).1).endNow q w
      Status.done 0x0001 := by
  subst hkw
  unfold abortCmd
  dsimp only
  rw [hfind]
  dsimp only
  rw [if_neg (by simp only [committed, hwait, decide_eq_true_eq]; omega), hwait]
  dsimp only
  unfold stopCmd
  rw [hwait]
  dsimp only
  rw [Nat.min_eq_left (Nat.le_of_lt hlt)]
  rfl

/-- ABORT of a data command behind its commit point. -/
theorem abortCmd_committed {w : List W64} {k : QueueId} {c : HostCmd} {e : Fin 4} (moved : Nat)
    (hkw : Fin.ofNat 16 (field (cmdWord w 1) 0 4) = k)
    (hfind : (d.queues[k].started.find? fun c => decide (c.cid.toNat = field (cmdWord w 1) 16 16)) = some c)
    (hwait : c.wait = .dma e) (hle : (cmdWord c.words 3).toNat ≤ moved) :
    d.abortCmd q w moved = (d.finishDma k c).endNow q w Status.done 0x0002 := by
  subst hkw
  unfold abortCmd
  dsimp only
  rw [hfind]
  dsimp only
  rw [if_pos (by simp only [committed, hwait, decide_eq_true_eq]; exact hle)]
  rfl

/-- The end of a data command that brings bytes in. -/
theorem finishDma_in (c : HostCmd) (hop : c.op = 0x10) (hbad : (d.dmaMove c (cmdWord c.words 3).toNat).2 = []) :
    d.finishDma q c = (d.dmaMove c (cmdWord c.words 3).toNat).1.finishCmd q (fun h => h == c) Status.unbookedDone
      (BitVec.ofNat 64 (cmdWord c.words 3).toNat) := by
  unfold finishDma
  dsimp only
  rw [if_neg (by rw [hop]; exact fun h => absurd h.1 (by decide)), hbad]
  rfl

end

end Device

section
variable {s : State} {q k : QueueId} {w : List W64}

/-- Taking a command leaves what every queue has started. -/
theorem started_takeCmd (p : QueueId) : (s.dev.takeCmd q).queues[p].started = s.dev.queues[p].started := by
  obtain ⟨hq, hothers⟩ := (s.dev.taken_takeCmd q).queues
  by_cases hp : p = q
  · subst hp
    rw [hq]
  · rw [hothers p hp]

theorem beq_self (c : HostCmd) : (c == c) = true := by simp

theorem ringWord_takeCmd (p i : Nat) : (s.dev.takeCmd q).ringWord k p i = s.dev.ringWord k p i := by
  rw [(s.dev.taken_takeCmd q).eq]
  rfl

/-- Submitted commands of another queue, after a queue has taken its own. -/
theorem submitted_takeCmd (hk : k ≠ q) (cid : Nat) : (s.dev.takeCmd q).submitted k cid = s.dev.submitted k cid := by
  have ht := s.dev.taken_takeCmd q
  obtain ⟨-, hothers⟩ := ht.queues
  have hq := hothers k hk
  have he := ht.eq
  generalize s.dev.takeCmd q = e at he hq
  have hw : e.waitingAt k = s.dev.waitingAt k := by
    unfold Device.waitingAt
    rw [hq, he]
    rfl
  have hr (p i : Nat) : e.ringWord k p i = s.dev.ringWord k p i := by
    rw [he]
    rfl
  unfold Device.submitted
  rw [hw]
  simp only [hr]

theorem cidOf_submitted {cid pos : Nat} (h : s.dev.submitted k cid = some pos) :
    cidOf [s.dev.ringWord k pos 0] = BitVec.ofNat 16 cid := by
  have hp := List.find?_some h
  rw [decide_eq_true_eq] at hp
  rw [← hp, BitVec.ofNat_toNat, BitVec.setWidth_eq]
  rfl

theorem exec_abort (h : s.commandNext q 3 w) (moved : Nat) {x : Device} (hx : (s.dev.takeCmd q).abortCmd q w moved = x) :
    exec (.abort q moved) s = .next (s.onDev fun _ => x) := by
  refine next_congr (fun _ => x) ?_
  have hs := startCmd_of_next h fun d w => d.abortCmd q w moved
  obtain ⟨hn, hl, hop, -, -⟩ := h
  unfold Device.nextAbort
  rw [if_pos, hs, hx]
  rw [hn, Option.any_some, show Device.isOp 0x03 w = true by simp [Device.isOp, hop]]
  rfl

/-- No command of that CID is outstanding. -/
theorem abort_late (h : s.commandNext q 3 w) (moved : Nat) :
    let k : QueueId := Fin.ofNat 16 (field (Device.cmdWord w 1) 0 4)
    let cid := field (Device.cmdWord w 1) 16 16
    (∀ c ∈ s.dev.queues[k].started, ¬ c.cid.toNat = cid) → (s.dev.takeCmd q).submitted k cid = none →
      Completes (.abort q moved) s fun t => s.onlyTo t { s.dev with
        queues := t.dev.queues, host := t.dev.host, hostBad := t.dev.hostBad, regs := t.dev.regs, pba := t.dev.pba
        out := t.dev.out } ∧ s.answered q w Status.done 0x0002 t := by
  intro k cid hno hsub
  refine completes_ended (exec_abort h moved ?_) (held_of_next h) (full_of_next h)
  have hst : (s.dev.takeCmd q).queues[k].started = s.dev.queues[k].started := started_takeCmd k
  have hfind : ((s.dev.takeCmd q).queues[k].started.find? fun c => decide (c.cid.toNat = cid)) = none := by
    rw [hst]
    exact List.find?_eq_none.mpr fun c hc => by simpa using hno c hc
  unfold Device.abortCmd
  dsimp only
  rw [show ((s.dev.takeCmd q).queues[k].started.find? fun c => decide (c.cid.toNat = field (Device.cmdWord w 1) 16 16)) = none
    from hfind, show (s.dev.takeCmd q).submitted k (field (Device.cmdWord w 1) 16 16) = none from hsub]
  rfl

/-- Another queue's started commands and ring, once q has taken its command. -/
theorem aborting_takeCmd (hk : k ≠ q) (f : List HostCmd → List HostCmd) :
    Aborting s q k ((s.dev.takeCmd q).modQueue k fun h => { h with started := f h.started }) := by
  have ht := s.dev.taken_takeCmd q
  obtain ⟨-, hothers⟩ := ht.queues
  have he := ht.eq
  have hkq := Device.queue_modQueue (s.dev.takeCmd q) k fun h => { h with started := f h.started }
  have hne (p : QueueId) (hp : p ≠ k) : ((s.dev.takeCmd q).modQueue k fun h => { h with started := f h.started }).queues[p] =
    (s.dev.takeCmd q).queues[p] := upd_ne _ _ _ _ hp
  refine ⟨hne q (Ne.symm hk), ?_, ?_, ?_, ?_, fun p hp hpk => (hne p hpk).trans (hothers p hp), fun p => ?_⟩
  · rw [hkq, hothers k hk]
  · rw [hkq, hothers k hk]
  · rw [hkq, hothers k hk]
  · rw [hkq, hothers k hk]
  · rw [he]
    exact ⟨rfl, rfl⟩

/-- A change of memory before leaves what queue k and the rings are. -/
theorem Aborting.congr {y z : Device} (h : Aborting s q k y) (hq : z.queues = y.queues) (hr : Device.SameRings y z) :
    Aborting s q k z := by
  refine ⟨?_, ?_, ?_, ?_, ?_, fun p hp hpk => ?_, h.rings.trans hr⟩
  · rw [hq]; exact h.taken
  · rw [hq]; exact h.tail
  · rw [hq]; exact h.phase
  · rw [hq]; exact h.held
  · rw [hq]; exact h.full
  · rw [hq]; exact h.others p hp hpk

/-- What an ABORT that ends a command of queue k answers. -/
def State.abortAnswers (s : State) (q k : QueueId) (w : List W64) (r : W64) (t : State) : Prop :=
  s.answered q w Status.done r { t with dev := { t.dev with queues := t.dev.queues.set k s.dev.queues[k] } }

/-- ABORT of a command that is submitted and not taken. -/
theorem abort_submitted (h : s.commandNext q 3 w) (moved cid pos : Nat) (hcid : field (Device.cmdWord w 1) 16 16 = cid)
    (hkw : Fin.ofNat 16 (field (Device.cmdWord w 1) 0 4) = k) (hk : k ≠ q) (hheld : s.dev.queues[k].held = [])
    (hfull : s.dev.queues[k].full < s.dev.cqSize k) (hap : s.apart q (s.dev.cqBase k + 16 * s.dev.queues[k].cqTail) 16)
    (hno : ∀ c ∈ s.dev.queues[k].started, ¬ c.cid.toNat = cid) (hsub : s.dev.submitted k cid = some pos) :
    Completes (.abort q moved) s fun t => s.abortAnswers q k w 0x0001 t ∧ t.dev.queues[k].started = s.dev.queues[k].started ∧
      s.completed k (BitVec.ofNat 16 cid) Status.aborted 0 t ∧
      (pos ∈ t.dev.queues[k].skipped ∨ t.dev.queues[k].sqCount < s.dev.queues[k].sqCount) := by
  obtain ⟨y0, hy0⟩ : ∃ y0, y0 = (s.dev.takeCmd q).modQueue k fun h => { h with skipped := h.skipped ++ [pos] } := ⟨_, rfl⟩
  obtain ⟨n, hn⟩ : ∃ n, n = (s.dev.takeCmd q).queues[k].skipped.length + 1 := ⟨_, rfl⟩
  obtain ⟨y, hy⟩ : ∃ y, y = y0.passSkipped k n := ⟨_, rfl⟩
  have ht := s.dev.taken_takeCmd q
  obtain ⟨-, hothers⟩ := ht.queues
  have he := ht.eq
  have hq0 : y0.queues[k] = { s.dev.queues[k] with skipped := s.dev.queues[k].skipped ++ [pos] } := by
    rw [hy0, Device.queue_modQueue, hothers k hk]
  have htk := y0.taken_passSkipped k n
  rw [← hy] at htk
  obtain ⟨hyk, hyo⟩ := htk.queues
  have hne (p : QueueId) (hp : p ≠ k) : y.queues[p] = (s.dev.takeCmd q).queues[p] := by
    rw [hyo p hp, hy0]
    exact upd_ne _ _ _ _ hp
  have hab : Aborting s q k y := by
    refine ⟨hne q (Ne.symm hk), ?_, ?_, ?_, ?_, fun p hp hpk => (hne p hpk).trans (hothers p hp), fun p => ?_⟩
    · rw [hyk, hq0]
    · rw [hyk, hq0]
    · rw [hyk, hq0]
    · rw [hyk, hq0]
    · rw [htk.eq, hy0, he]
      exact ⟨rfl, rfl⟩
  have hprogress : pos ∈ y.queues[k].skipped ∨ y.queues[k].sqCount < s.dev.queues[k].sqCount := by
    rcases y0.passSkipped_progress k n with hp | hp
    · rw [← hy] at hp
      exact .inl (by rw [hp, hq0]; simp)
    · rw [← hy, hq0] at hp
      exact .inr hp
  have hstart : y.queues[k].started = s.dev.queues[k].started := by rw [hyk, hq0]
  have hfind : ((s.dev.takeCmd q).queues[k].started.find? fun c => decide (c.cid.toNat = cid)) = none := by
    rw [started_takeCmd]
    exact List.find?_eq_none.mpr fun c hc => by simpa using hno c hc
  have hring : cidOf [(s.dev.takeCmd q).ringWord k pos 0] = BitVec.ofNat 16 cid := by
    rw [ringWord_takeCmd]
    exact cidOf_submitted hsub
  have hx : (s.dev.takeCmd q).abortCmd q w moved = (y.writeCompletion k ⟨BitVec.ofNat 16 cid, Status.aborted, 0⟩).endNow q w
      Status.done 0x0001 := by
    have hfree : y.completeCmd k (BitVec.ofNat 16 cid) Status.aborted 0 = y.writeCompletion k ⟨BitVec.ofNat 16 cid, Status.aborted, 0⟩ :=
      y.completeCmd_of_free k _ _ _ (by rw [hab.full, (hab.rings k).2]; exact hfull) (by rw [hab.held]; exact hheld)
    rw [← hfree]
    rw [(s.dev.takeCmd q).abortCmd_submitted q moved hkw hcid hfind ((submitted_takeCmd hk cid).trans hsub)]
    unfold Device.abortSubmitted
    rw [← hn, ← hy0, ← hy, show Device.cidOf [(s.dev.takeCmd q).ringWord k pos 0] = BitVec.ofNat 16 cid from hring]
  obtain ⟨hans, hdone, hqk⟩ := answered_twice (w := w) hab hk (held_of_next h) (full_of_next h) hap
    ⟨BitVec.ofNat 16 cid, Status.aborted, 0⟩ 0x0001 rfl rfl (fun _ => ⟨rfl, rfl⟩)
  refine ⟨_, exec_abort h moved hx, hans, ?_, hdone, ?_⟩
  · rw [hqk]
    exact hstart
  · rw [hqk]
    exact hprogress

/-- The first command of a list is erased where it satisfies p. -/
theorem eraseFirst_head {α : Type} (p : α → Bool) (c : α) (l : List α) (h : p c = true) : eraseFirst p (c :: l) = l := by
  simp [eraseFirst, h]

/-- ABORT of a data command before and behind its commit point. -/
theorem abort_data (h : s.commandNext q 3 w) (moved : Nat) (c : HostCmd) (e : Fin 4) (rest : List HostCmd)
    (hcid : c.cid.toNat = field (Device.cmdWord w 1) 16 16)
    (hkw : Fin.ofNat 16 (field (Device.cmdWord w 1) 0 4) = k) (hk : k ≠ q) (hheld : s.dev.queues[k].held = [])
    (hfull : s.dev.queues[k].full < s.dev.cqSize k) (hap : s.apart q (s.dev.cqBase k + 16 * s.dev.queues[k].cqTail) 16)
    (hst : s.dev.queues[k].started = c :: rest) (hwait : c.wait = .dma e) (hop : c.op = 0x10) :
    let n := (Device.cmdWord c.words 3).toNat
    (moved < n → Completes (.abort q moved) s fun t => s.abortAnswers q k w 0x0001 t ∧ t.dev.queues[k].started = rest ∧
      s.completed k c.cid Status.aborted (BitVec.ofNat 64 moved) t) ∧
    (n ≤ moved → s.dev.soundRange (field (Device.cmdWord c.words 2) 0 48) n → s.dev.tally.armed = false →
      Completes (.abort q moved) s fun t => s.abortAnswers q k w 0x0002 t ∧ t.dev.queues[k].started = rest ∧
        s.completed k c.cid Status.unbookedDone (BitVec.ofNat 64 n) t) := by
  intro n
  have hstarted : (s.dev.takeCmd q).queues[k].started = c :: rest := by rw [started_takeCmd, hst]
  have hfind : ((s.dev.takeCmd q).queues[k].started.find? fun c => decide (c.cid.toNat = field (Device.cmdWord w 1) 16 16)) =
      some c := by
    rw [hstarted, List.find?_cons, decide_eq_true hcid]
  have hself (x : Device) (hx : x.queues[k].started = c :: rest) : (x.queues[k].started.find? fun h => h == c) = some c := by
    rw [hx, List.find?_cons, beq_self]
  have he := (s.dev.taken_takeCmd q).eq
  have hmod := aborting_takeCmd (s := s) hk (eraseFirst fun h => h == c)
  have hid : Aborting s q k (s.dev.takeCmd q) := by
    refine (aborting_takeCmd (s := s) hk id).congr ?_ fun _ => ⟨rfl, rfl⟩
    exact (upd_id (s.dev.takeCmd q).queues k (fun h => { h with started := id h.started }) rfl).symm
  refine ⟨fun hlt => ?_, fun hle hsound harm => ?_⟩
  · obtain ⟨y, hy⟩ : ∃ y, y = (s.dev.takeCmd q).modQueue k fun h => { h with started := eraseFirst (fun h => h == c) h.started } :=
      ⟨_, rfl⟩
    rw [← hy] at hmod
    have hyst : y.queues[k].started = rest := by
      rw [hy, Device.queue_modQueue, hstarted]
      exact eraseFirst_head (fun h => h == c) c rest (beq_self c)
    have hfin : (s.dev.takeCmd q).finishCmd k (fun h => h == c) Status.aborted (BitVec.ofNat 64 moved) =
        y.writeCompletion k ⟨c.cid, Status.aborted, BitVec.ofNat 64 moved⟩ := by
      rw [hy]
      refine Device.finishCmd_of_free _ k _ c _ _ (hself _ hstarted) ?_ ?_
      · rw [hid.full, (hid.rings k).2]
        exact hfull
      · rw [hid.held]
        exact hheld
    obtain ⟨z, hz⟩ : ∃ z, z = ((y.writeCompletion k ⟨c.cid, Status.aborted, BitVec.ofNat 64 moved⟩).dmaMove c moved).1 := ⟨_, rfl⟩
    obtain ⟨hzq, hzh, hzr⟩ := (y.writeCompletion k ⟨c.cid, Status.aborted, BitVec.ofNat 64 moved⟩).dmaMove_in c hop moved
    rw [← hz] at hzq hzh hzr
    have hx : (s.dev.takeCmd q).abortCmd q w moved = z.endNow q w Status.done 0x0001 := by
      rw [(s.dev.takeCmd q).abortCmd_data q moved hkw hfind hwait hlt, hfin, ← hz]
    obtain ⟨hans, hdone, hqk⟩ := answered_twice (w := w) hmod hk (held_of_next h) (full_of_next h) hap
      ⟨c.cid, Status.aborted, BitVec.ofNat 64 moved⟩ 0x0001 hzq hzh hzr
    refine ⟨_, exec_abort h moved hx, hans, ?_, hdone⟩
    rw [hqk]
    exact hyst
  · obtain ⟨x, hx⟩ : ∃ x, x = ((s.dev.takeCmd q).dmaMove c n).1 := ⟨_, rfl⟩
    obtain ⟨hxq, -, hxr⟩ := (s.dev.takeCmd q).dmaMove_in c hop n
    have hsound' : (s.dev.takeCmd q).soundRange (field (Device.cmdWord c.words 2) 0 48) n := by
      rw [he]
      exact hsound
    have harm' : (s.dev.takeCmd q).tally.armed = false := by
      rw [he]
      exact harm
    obtain ⟨g, -, hg⟩ := (s.dev.takeCmd q).dmaMove_in_sound c hop n hsound' harm'
    have hbad : ((s.dev.takeCmd q).dmaMove c n).2 = [] := by rw [hg]
    rw [← hx] at hxq hxr
    have hxab : Aborting s q k x := hid.congr hxq hxr
    have hxst : x.queues[k].started = c :: rest := by rw [hxq, hstarted]
    obtain ⟨y, hy⟩ : ∃ y, y = x.modQueue k fun h => { h with started := eraseFirst (fun h => h == c) h.started } := ⟨_, rfl⟩
    have hyst : y.queues[k].started = rest := by
      rw [hy, Device.queue_modQueue, hxst]
      exact eraseFirst_head (fun h => h == c) c rest (beq_self c)
    have hyab : Aborting s q k y := by
      refine hmod.congr ?_ fun p => ?_
      · rw [hy, Device.queues_modQueue, Device.queues_modQueue, hxq]
      · rw [hy]
        exact hxr p
    have hfin : (s.dev.takeCmd q).finishDma k c = y.writeCompletion k ⟨c.cid, Status.unbookedDone, BitVec.ofNat 64 n⟩ := by
      have hf := Device.finishCmd_of_free x k (fun h => h == c) c Status.unbookedDone (BitVec.ofNat 64 n) (hself x hxst)
        (by rw [hxab.full, (hxab.rings k).2]; exact hfull) (by rw [hxab.held]; exact hheld)
      rw [← hy] at hf
      rw [← hf]
      rw [(s.dev.takeCmd q).finishDma_in k c hop hbad, show ((s.dev.takeCmd q).dmaMove c (Device.cmdWord c.words 3).toNat).1 = x
        from hx.symm]
    have hcmd : (s.dev.takeCmd q).abortCmd q w moved =
        (y.writeCompletion k ⟨c.cid, Status.unbookedDone, BitVec.ofNat 64 n⟩).endNow q w Status.done 0x0002 := by
      rw [(s.dev.takeCmd q).abortCmd_committed q moved hkw hfind hwait hle, hfin]
    obtain ⟨hans, hdone, hqk⟩ := answered_twice (w := w) hyab hk (held_of_next h) (full_of_next h) hap
      ⟨c.cid, Status.unbookedDone, BitVec.ofNat 64 n⟩ 0x0002 rfl rfl (fun _ => ⟨rfl, rfl⟩)
    refine ⟨_, exec_abort h moved hcmd, hans, ?_, hdone⟩
    rw [hqk]
    exact hyst

end

end Sys2Proof.Machine
end

section
/-! The ZHI commands (R480 to R485, R419, R467, R527, R530, R531, R544). -/

namespace Sys2Proof.Machine

section
variable {s : State} {q : QueueId} {w : List W64}

/-- NOP. -/
theorem nop_spec (h : s.commandNext q 0 w) :
    (Completes (.nop q) s fun t => s.onlyTo t { s.dev with
      queues := t.dev.queues, host := t.dev.host, hostBad := t.dev.hostBad, regs := t.dev.regs, pba := t.dev.pba
      out := t.dev.out } ∧ s.answered q w Status.done 0 t) ∧
    Completes (.nop q) s fun t => ∀ a, s.apart q a 1 → t.dev.rdHost a 1 = s.dev.rdHost a 1 :=
  ⟨completes_ended (exec_nop h) (held_of_next h) (full_of_next h), nop_answers h (exec_nop h)⟩

/-- A malformed command. -/
theorem illegal_spec (hn : s.dev.nextCommand q = some w) (hl : Device.cmdLegal w = false)
    (hfull : s.dev.queues[q].full < s.dev.cqSize q) : Completes (.nop q) s fun t => s.onlyTo t { s.dev with
      queues := t.dev.queues, host := t.dev.host, hostBad := t.dev.hostBad, regs := t.dev.regs, pba := t.dev.pba
      out := t.dev.out } ∧ s.answered q w Status.txnInvalid 0 t :=
  completes_ended (next_congr (fun _ => _) (s.dev.startCmd_illegal q hn hl)) (s.dev.held_of_nextCommand q hn) hfull

/-- IDENTIFY. -/
theorem identify_spec (h : s.commandNext q 1 w) : Completes (.identify q) s fun t => s.onlyTo t { s.dev with
      queues := t.dev.queues, host := t.dev.host, hostBad := t.dev.hostBad, regs := t.dev.regs, pba := t.dev.pba
      out := t.dev.out } ∧ s.answered q w Status.done 0 t ∧
      (s.apart q (Device.cmdWord w 1).toNat 4096 → t.dev.rdHost (Device.cmdWord w 1).toNat 4096 = s.dev.identifyPage) := by
  have hpage : (s.dev.takeCmd q).identifyPage = s.dev.identifyPage := by
    rw [(s.dev.taken_takeCmd q).eq]
    rfl
  have hexec : exec (.identify q) s = .next (s.onDev fun _ =>
      ((s.dev.takeCmd q).wrHost (Device.cmdWord w 1).toNat (s.dev.takeCmd q).identifyPage).endNow q w Status.done 0) :=
    next_congr (fun _ => _) (startCmd_of_next h _)
  obtain ⟨t, ht, honly, hans, hr⟩ := completes_written hexec (held_of_next h) (full_of_next h)
  rw [hpage, length_identifyPage] at hr
  exact ⟨t, ht, honly, hans, hr⟩

/-- LOG_READ. -/
theorem logRead_spec (h : s.commandNext q 2 w) :
    let n := min (Device.cmdWord w 2).toNat (65536 - (Device.cmdWord w 3).toNat)
    Completes (.logRead q) s fun t => s.onlyTo t { s.dev with
      queues := t.dev.queues, host := t.dev.host, hostBad := t.dev.hostBad, regs := t.dev.regs, pba := t.dev.pba
      out := t.dev.out } ∧ s.answered q w Status.done (BitVec.ofNat 64 n) t ∧
      (s.apart q (Device.cmdWord w 1).toNat n → t.dev.rdHost (Device.cmdWord w 1).toNat n = s.dev.logBytes (Device.cmdWord w 3).toNat n) := by
  intro n
  have hlog : (s.dev.takeCmd q).logBytes (Device.cmdWord w 3).toNat n = s.dev.logBytes (Device.cmdWord w 3).toNat n := by
    rw [(s.dev.taken_takeCmd q).eq]
    rfl
  have hexec : exec (.logRead q) s = .next (s.onDev fun _ =>
      ((s.dev.takeCmd q).wrHost (Device.cmdWord w 1).toNat ((s.dev.takeCmd q).logBytes (Device.cmdWord w 3).toNat n)).endNow q w
        Status.done (BitVec.ofNat 64 n)) :=
    next_congr (fun _ => _) (startCmd_of_next h _)
  obtain ⟨t, ht, honly, hans, hr⟩ := completes_written hexec (held_of_next h) (full_of_next h)
  rw [hlog, length_logBytes] at hr
  exact ⟨t, ht, honly, hans, hr⟩

/-- STALL_LOAD of a stall's tack store. -/
theorem stallLoad_spec (h : s.commandNext q 0x20 w) :
    let st := field (Device.cmdWord w 2) 0 9
    let off := field (Device.cmdWord w 2) 16 16
    let n := (Device.cmdWord w 3).toNat
    let dpa := field (Device.cmdWord w 1) 0 48
    let only := fun (t : State) => s.onlyTo t { s.dev with
      queues := t.dev.queues, host := t.dev.host, hostBad := t.dev.hostBad, regs := t.dev.regs, pba := t.dev.pba, out := t.dev.out }
    (st < 384 → off % 4 = 0 → off + n ≤ 65536 →
      (s.dev.stallRuns (Fin.ofNat 384 st) = false → ∀ e, s.dev.freeEngine = some e →
        (n % 4 = 0 → 0 < n → n ≤ 2 ^ 32 →
          (s.dev.mapped dpa n = true → Completes (.stallLoad q) s fun t => s.onlyTo t { s.dev with queues := t.dev.queues } ∧
            s.waits q w (.loadDma e) t) ∧
          (s.dev.mapped dpa n = false → Completes (.stallLoad q) s fun t => s.sameMemory t ∧ t.dev.stalls = s.dev.stalls ∧
            s.answered q w Status.addressUnmapped 0 t ∧ t.dev.tally.reclaimed[3] = s.dev.tally.reclaimed[3] + 1)) ∧
        (n % 4 ≠ 0 ∨ n = 0 ∨ 2 ^ 32 < n → Completes (.stallLoad q) s fun t => only t ∧ s.answered q w Status.txnInvalid 0 t)) ∧
      (s.dev.stallRuns (Fin.ofNat 384 st) = true → s.dev.freeEngine ≠ none →
        Completes (.stallLoad q) s fun t => only t ∧ s.answered q w Status.stateInvalid 0 t)) ∧
    (384 ≤ st ∨ off % 4 ≠ 0 ∨ 65536 < off + n → s.dev.freeEngine ≠ none →
      Completes (.stallLoad q) s fun t => only t ∧ s.answered q w Status.txnInvalid 0 t) := by
  intro st off n dpa only
  obtain ⟨-, -, hruns⟩ := kept_takeCmd (q := q) s.dev
  have hto {x : Device} (hfree : s.dev.freeEngine ≠ none) (hx : (s.dev.takeCmd q).stallLoad q w = x) :
      exec (.stallLoad q) s = .next (s.onDev fun _ => x) := by
    refine next_congr (fun _ => x) ?_
    rw [if_neg (by simpa using hfree), startCmd_of_next h, hx]
  refine ⟨fun hst hoff hlen => ⟨fun hrun e he => ?_, fun hrun hfree => ?_⟩, fun hbad hfree => ?_⟩
  · refine completes_data dpa true (held_of_next h) (full_of_next h) he (hto (by rw [he]; simp) ?_)
    unfold Device.stallLoad
    dsimp only
    rw [if_neg (by omega), hruns, if_neg (by rw [hrun]; decide)]
  · refine completes_ended (hto hfree ?_) (held_of_next h) (full_of_next h)
    unfold Device.stallLoad
    dsimp only
    rw [if_neg (by omega), hruns, if_pos hrun]
  · refine completes_ended (hto hfree ?_) (held_of_next h) (full_of_next h)
    unfold Device.stallLoad
    exact if_pos hbad

/-- Settles O50: each command has its own lemma; the answers rest on one rule for a completion at once. -/
theorem hostCommands : Obligations.HostCommands := by
  unfold Obligations.HostCommands
  intro q w s x only is ends waitsFor data
  refine ⟨nop_spec, illegal_spec, identify_spec, logRead_spec, fun moved h => ?_, fun h e he => ?_, fun h e he => ?_, stallLoad_spec,
    fun sl hsl => ⟨fun h => stallStart_spec h hsl, fun h => stallHalt_spec h hsl⟩, setFillLimit_spec, setAllowlist_spec,
    fun h => ⟨attestReport_spec h, attestExtend_spec h⟩, signingDone_spec⟩
  · intro k cid named answers
    refine ⟨abort_late h moved, fun hk hheld hfull hap => ⟨fun pos hno hsub => ?_, fun c e rest hst hnamed hwait hop => ?_⟩⟩
    · exact abort_submitted h moved cid pos rfl rfl hk hheld hfull hap hno hsub
    · exact abort_data h moved c e rest hnamed rfl hk hheld hfull hap hst hwait hop
  · refine completes_data _ false (held_of_next h) (full_of_next h) he (next_congr (fun _ => _) ?_)
    rw [he, if_neg (by simp)]
    exact startCmd_of_next h _
  · refine completes_data _ false (held_of_next h) (full_of_next h) he (next_congr (fun _ => _) ?_)
    rw [he, if_neg (by simp)]
    exact startCmd_of_next h _

end

end Sys2Proof.Machine
end

section
/-! The memory BAR (R40, R41, R460) and the end of a data command (R480, R481). -/

namespace Sys2Proof.Machine

namespace Device

/-- The DPA that a memory-BAR offset names. -/
def barAddr (d : Device) (off : BitVec 38) : Nat :=
  (d.preg Page.device 0x120).toNat + d.pfield Page.device 0x124 0 16 * 2 ^ 32 + off.toNat

section
variable (d : Device) (off : BitVec 38)

theorem barAccess_refused (a : BarAccess) (n : Nat) (hn : n = match a with | .read k => k | .write bs => bs.length)
    (h : d.serving = false ∨ d.mapped (d.barAddr off) n = false) : d.barAccess off.toNat a = d.unsupported := by
  subst hn
  unfold barAccess
  refine if_pos ?_
  rw [Bool.or_eq_true, Bool.not_eq_true', Bool.not_eq_true']
  exact h

theorem barAccess_read (n : Nat) (hs : d.serving = true) (hm : d.mapped (d.barAddr off) n = true)
    (hsound : d.soundRange (d.barAddr off) n) : ∃ e, Served (d.barAddr off) d e ∧ d.barAccess off.toNat (.read n) =
      { e with out := { e.out with data := d.rdBytes (d.barAddr off) n, unsupported := false, failed := 0 } } := by
  obtain ⟨e, he, hr⟩ := d.readRange_sound (d.barAddr off) n false hsound
  refine ⟨e, he, ?_⟩
  unfold barAccess
  dsimp only
  rw [if_neg (by rw [hs, show d.mapped (_ + _ * 2 ^ 32 + off.toNat) n = true from hm]; decide),
    show d.readRange (_ + _ * 2 ^ 32 + off.toNat) n false = _ from hr]
  rfl

theorem barAccess_write (bs : List Byte) (hs : d.serving = true) (hm : d.mapped (d.barAddr off) bs.length = true)
    (hsound : d.soundRange (d.barAddr off) bs.length) (harm : d.tally.armed = false) :
    ∃ e, Served (d.barAddr off) d e ∧ d.barAccess off.toNat (.write bs) =
      { e.wrBytes (d.barAddr off) bs with
        out := { (e.wrBytes (d.barAddr off) bs).out with data := [], unsupported := false, failed := 0 } } := by
  obtain ⟨e, he, hr⟩ := d.writeRange_sound (d.barAddr off) bs false hsound harm
  refine ⟨e, he, ?_⟩
  unfold barAccess
  dsimp only
  rw [if_neg (by rw [hs, show d.mapped (_ + _ * 2 ^ 32 + off.toNat) bs.length = true from hm]; decide),
    show d.writeRange (_ + _ * 2 ^ 32 + off.toNat) bs false = _ from hr]
  rfl

/-- A byte of the tack stores after a write. -/
theorem rdTackByte_wr (st : StallId) (a x : Nat) (b : Byte) (ha : a < 65536) (hx : x < 65536) :
    (d.wrTackByte st a b).rdTackByte st x = if x = a then b else d.rdTackByte st x := by
  unfold rdTackByte wrTackByte
  dsimp only
  split
  · next h =>
    subst h
    exact mapGet_mapWrite_same _ _ _ _
  · next h =>
    rw [mapGet_mapWrite_ne _ _ _ _ _ (by unfold tackKey; omega)]
    rfl

/-- A byte of a tack store with good parity. -/
def putTack (d : Device) (st : StallId) (a : Nat) (b : Byte) : Device :=
  { d.wrTackByte st a b with tackBad := setErase (d.wrTackByte st a b).tackBad (tackKey st a / 4 * 4) }

/-- Bytes put one after another. -/
theorem rdTackByte_putTack (st : StallId) (off : Nat) (l : List (Byte × Nat)) (k : Nat)
    (hk : ∀ i (h : i < l.length), l[i].2 = k + i) (hlen : off + k + l.length ≤ 65536) (x : Nat) (hx : x < 65536) :
    (l.foldl (fun d x => d.putTack st (off + x.2) x.1) d).rdTackByte st x =
      if h : off + k ≤ x ∧ x < off + k + l.length then (l[x - (off + k)]'(by omega)).1 else d.rdTackByte st x := by
  induction l generalizing d k with
  | nil =>
    rw [List.foldl_nil, dif_neg]
    rw [List.length_nil]
    omega
  | cons c l ih =>
    rw [List.length_cons] at hlen
    have hc : c.2 = k := hk 0 (by rw [List.length_cons]; omega)
    have hone : (d.putTack st (off + c.2) c.1).rdTackByte st x = if x = off + k then c.1 else d.rdTackByte st x := by
      rw [hc]
      exact d.rdTackByte_wr st (off + k) x c.1 (by omega) hx
    rw [List.foldl_cons, ih _ (k + 1) (fun i h => ?_) (by omega), hone]
    · by_cases h1 : off + (k + 1) ≤ x ∧ x < off + (k + 1) + l.length
      · rw [dif_pos h1, dif_pos ⟨by omega, by rw [List.length_cons]; omega⟩]
        have hidx : x - (off + k) = x - (off + (k + 1)) + 1 := by omega
        simp only [hidx, List.getElem_cons_succ]
      · rw [dif_neg h1]
        by_cases h2 : x = off + k
        · subst h2
          rw [if_pos rfl, dif_pos ⟨by omega, by rw [List.length_cons]; omega⟩]
          simp
        · rw [if_neg h2, dif_neg]
          rw [List.length_cons]
          omega
    · have := hk (i + 1) (by rw [List.length_cons]; omega)
      rw [List.getElem_cons_succ] at this
      omega

theorem putTack_only (st : StallId) (off : Nat) (l : List (Byte × Nat)) : ∃ t b,
    l.foldl (fun d x => d.putTack st (off + x.2) x.1) d = { d with tack := t, tackBad := b } := by
  induction l generalizing d with
  | nil => exact ⟨d.tack, d.tackBad, rfl⟩
  | cons c l ih =>
    obtain ⟨t, b, h⟩ := ih (d.putTack st (off + c.2) c.1)
    exact ⟨t, b, by rw [List.foldl_cons, h]; rfl⟩

end

end Device

/-- The memory BAR. -/
theorem memoryBar_spec (off : BitVec 38) (s : State) :
    let a := s.dev.barAddr off
    let refused := fun (x : BarAccess) => Completes (.memoryBarAccess off x) s fun t =>
      s.onlyTo t { s.dev with out := t.dev.out, pcie := t.dev.pcie } ∧ t.dev.out.unsupported = true ∧ t.dev.out.data = []
    (∀ n, s.dev.serving = true → 0 < n → s.dev.mapped a n = true → s.dev.soundRange a n →
      Completes (.memoryBarAccess off (.read n)) s fun t => t.dev.out.data = s.dev.rdBytes a n ∧
        t.dev.out.unsupported = false ∧ t.dev.out.failed = 0 ∧ t.dev.stalls = s.dev.stalls ∧ s.sameMemory t ∧
        s.sameOutside t) ∧
    (∀ bs : List Byte, s.dev.serving = true → 0 < bs.length → s.dev.mapped a bs.length = true → s.dev.soundRange a bs.length →
      s.dev.tally.armed = false → Completes (.memoryBarAccess off (.write bs)) s fun t =>
        (∀ i (h : i < bs.length), t.dev.rdByte (a + i) = bs[i]) ∧
        (∀ p, p < a ∨ a + bs.length ≤ p → t.dev.rdByte p = s.dev.rdByte p) ∧ t.dev.out.unsupported = false ∧
        t.dev.out.failed = 0 ∧ t.dev.stalls = s.dev.stalls ∧ s.sameOutside t) ∧
    (∀ n, s.dev.serving = false ∨ s.dev.mapped a n = false → refused (.read n)) ∧
    ∀ bs, s.dev.serving = false ∨ s.dev.mapped a bs.length = false → refused (.write bs) := by
  intro a refused
  have href (x : BarAccess) (n : Nat) (hn : n = match x with | .read k => k | .write bs => bs.length)
      (h : s.dev.serving = false ∨ s.dev.mapped a n = false) : refused x :=
    ⟨_, next_congr (fun _ => s.dev.unsupported) (s.dev.barAccess_refused off x n hn h), ⟨⟨rfl, rfl⟩, rfl⟩, rfl, rfl⟩
  refine ⟨fun n hs _ hm hsound => ?_, fun bs hs _ hm hsound harm => ?_, fun n h => href _ n rfl h, fun bs h => href _ _ rfl h⟩
  · obtain ⟨e, he, hx⟩ := s.dev.barAccess_read off n hs hm hsound
    exact ⟨_, next_congr (fun _ => _) hx, rfl, rfl, rfl, he.stalls, fun p => he.rdByte p, rfl, rfl⟩
  · obtain ⟨e, he, hx⟩ := s.dev.barAccess_write off bs hs hm hsound harm
    refine ⟨_, next_congr (fun _ => _) hx, fun i hi => e.rdByte_wrBytes_in a i bs hi, fun p hp => ?_, rfl, rfl, ?_, rfl, rfl⟩
    · exact (e.rdByte_wrBytes_out a p bs hp).trans (he.rdByte p)
    · rw [State.onDev_dev, Device.wrBytes_only]
      exact he.stalls

end Sys2Proof.Machine
end

section
/-! The end of a data command (R480, R481). -/

namespace Sys2Proof.Machine

namespace Device

section
variable (d : Device)

/-- Bytes go out to the host from sound units. -/
theorem dmaMove_out_sound (c : HostCmd) (hop : c.op = 0x11) (n : Nat) (hs : d.soundRange (field (cmdWord c.words 2) 0 48) n) :
    ∃ e, Served (field (cmdWord c.words 2) 0 48) d e ∧ EnginePagesKept d e ∧ d.dmaMove c n =
      ((e.wrHost (cmdWord c.words 1).toNat (d.rdBytes (field (cmdWord c.words 2) 0 48) n)).dmaMoved n, []) := by
  obtain ⟨e, he, hr⟩ := d.readRange_sound (field (cmdWord c.words 2) 0 48) n false hs
  have hk := d.enginePages_readRange (field (cmdWord c.words 2) 0 48) n false
  rw [hr] at hk
  refine ⟨e, he, hk, ?_⟩
  unfold dmaMove
  rw [hop]
  change ((d.moveOut _ _ n).1.dmaMoved n, (d.moveOut _ _ n).2) = _
  have hm : d.moveOut (cmdWord c.words 1).toNat (field (cmdWord c.words 2) 0 48) n =
      (e.wrHost (cmdWord c.words 1).toNat (d.rdBytes (field (cmdWord c.words 2) 0 48) n), []) := by
    unfold moveOut
    rw [hr]
    rfl
  rw [hm]

/-- Bytes go into a tack store from sound units. -/
theorem dmaMove_tack_sound (c : HostCmd) (hop : c.op = 0x20) (n : Nat) (hs : d.soundRange (field (cmdWord c.words 1) 0 48) n) :
    ∃ e, Served (field (cmdWord c.words 1) 0 48) d e ∧ EnginePagesKept d e ∧ d.dmaMove c n =
      (((d.rdBytes (field (cmdWord c.words 1) 0 48) n).zipIdx.foldl (fun d x =>
        d.putTack (Fin.ofNat 384 (field (cmdWord c.words 2) 0 9)) (field (cmdWord c.words 2) 16 16 + x.2) x.1) e).dmaMoved n, []) := by
  obtain ⟨e, he, hr⟩ := d.readRange_sound (field (cmdWord c.words 1) 0 48) n false hs
  have hk := d.enginePages_readRange (field (cmdWord c.words 1) 0 48) n false
  rw [hr] at hk
  refine ⟨e, he, hk, ?_⟩
  have hm : d.moveTack (field (cmdWord c.words 1) 0 48) (Fin.ofNat 384 (field (cmdWord c.words 2) 0 9)) (field (cmdWord c.words 2) 16 16) n =
      ((d.rdBytes (field (cmdWord c.words 1) 0 48) n).zipIdx.foldl (fun d x =>
        d.putTack (Fin.ofNat 384 (field (cmdWord c.words 2) 0 9)) (field (cmdWord c.words 2) 16 16 + x.2) x.1) e, []) := by
    unfold moveTack
    rw [hr]
    dsimp only
    have hall : ((d.rdBytes (field (cmdWord c.words 1) 0 48) n).zipIdx.filter fun x =>
        !([] : List (Nat × MemRes)).any fun u => u.1 == unitOf (field (cmdWord c.words 1) 0 48 + x.2)) =
        (d.rdBytes (field (cmdWord c.words 1) 0 48) n).zipIdx := List.filter_eq_self.mpr fun _ _ => rfl
    rw [hall]
    rfl
  unfold dmaMove
  rw [hop]
  change ((d.moveTack _ _ _ n).1.dmaMoved n, (d.moveTack _ _ _ n).2) = _
  rw [hm]

/-- What is left to do after a data command has moved its bytes. -/
theorem finishDma_moved (q : QueueId) (c : HostCmd) {x : Device}
    (hstall : c.op = 0x20 → d.stallRuns (Fin.ofNat 384 (field (cmdWord c.words 2) 0 9)) = false)
    (hmove : d.dmaMove c (cmdWord c.words 3).toNat = (x, [])) :
    d.finishDma q c = x.finishCmd q (fun h => h == c) Status.unbookedDone (BitVec.ofNat 64 (cmdWord c.words 3).toNat) := by
  unfold finishDma
  dsimp only
  rw [if_neg, hmove]
  · rfl
  · rintro ⟨h1, h2⟩
    rw [hstall h1] at h2
    exact absurd h2 (by decide)

end

end Device

section
variable {s : State} {q : QueueId} {c : HostCmd} {rest : List HostCmd}

/-- A started command that completes from a device whose queues and rings are those of the state. -/
theorem completes_finished {i : Instr} {x : Device} {r : Code} {v : W64}
    (hexec : exec i s = .next (s.onDev fun _ => x.finishCmd q (fun h => h == c) r v)) (hq : x.queues = s.dev.queues)
    (hr : Device.SameRings s.dev x) (hst : s.dev.queues[q].started = c :: rest) (hheld : s.dev.queues[q].held = [])
    (hfull : s.dev.queues[q].full < s.dev.cqSize q) :
    Completes i s fun t => (t.dev.queues[q].started = rest ∧ s.completed q c.cid r v t ∧
      ∀ p, p ≠ q → t.dev.queues[p] = s.dev.queues[p]) ∧ Device.SameBytes x t.dev ∧ t.dev.tack = x.tack ∧
      t.dev.tackBlank = x.tackBlank ∧ ∀ a n, s.apart q a n → t.dev.rdHost a n = x.rdHost a n := by
  obtain ⟨y, hy⟩ : ∃ y, y = x.modQueue q fun h => { h with started := eraseFirst (fun h => h == c) h.started } := ⟨_, rfl⟩
  have hyq : y.queues[q] = { s.dev.queues[q] with started := rest } := by
    rw [hy, Device.queue_modQueue, hq, hst, eraseFirst_head (fun h => h == c) c rest (beq_self c)]
  have hyr : Device.SameRings s.dev y := by
    rw [hy]
    exact hr
  have hyo (p : QueueId) (hp : p ≠ q) : y.queues[p] = s.dev.queues[p] := by
    rw [hy, ← hq]
    exact upd_ne _ _ _ _ hp
  have hfin := x.finishCmd_of_free q (fun h => h == c) c r v (by rw [hq, hst, List.find?_cons, beq_self])
    (by rw [hq, (hr q).2]; exact hfull) (by rw [hq]; exact hheld)
  rw [← hy] at hfin
  rw [hfin] at hexec
  obtain ⟨hk, ho⟩ := y.queue_writeCompletion q ⟨c.cid, r, v⟩
  have hdone : s.completed q c.cid r v (s.onDev fun _ => y.writeCompletion q ⟨c.cid, r, v⟩) :=
    completed_of_writeCompletion ⟨c.cid, r, v⟩ (hyr q).1 (hyr q).2 (by rw [hyq]) (by rw [hyq])
  have hbytes : Device.SameBytes x (y.writeCompletion q ⟨c.cid, r, v⟩) := by
    refine Device.SameBytes.trans ?_ (y.sameBytes_writeCompletion q _)
    rw [hy]
    exact ⟨rfl, rfl⟩
  obtain ⟨-, -, honly⟩ := y.writeCompletion_spec q ⟨c.cid, r, v⟩
  have htack : (y.writeCompletion q ⟨c.cid, r, v⟩).tack = x.tack := by
    rw [honly, hy]
    rfl
  have hblank : (y.writeCompletion q ⟨c.cid, r, v⟩).tackBlank = x.tackBlank := by
    rw [honly, hy]
    rfl
  have hread (a n : Nat) (h : s.apart q a n) : (y.writeCompletion q ⟨c.cid, r, v⟩).rdHost a n = x.rdHost a n := by
    rw [y.rdHost_writeCompletion_apart q _ a n (by rw [(hyr q).1, hyq]; exact h), hy]
    rfl
  refine ⟨_, hexec, ⟨?_, hdone, fun p hp => ?_⟩, hbytes, htack, hblank, hread⟩
  · rw [State.onDev_dev, hk, hyq]
    rfl
  · rw [State.onDev_dev, ho p hp, hyo p hp]

/-- The end of a data command that an engine runs. -/
theorem exec_dmaComplete {e : Fin 4} (h : s.dev.onEngine e = some (q, c)) :
    exec (.dmaComplete e) s = .next (s.onDev fun _ => s.dev.finishDma q c) := by
  refine next_congr (fun _ => s.dev.finishDma q c) ?_
  rw [h]

theorem sameRings_dmaMoved (d : Device) (n : Nat) : Device.SameRings d (d.dmaMoved n) := (d.dmaMoved_spec n).1.sameRings

/-- Units served leave queues and rings. -/
theorem sameRings_served {a : Nat} {d e : Device} (h : Device.Served a d e) (hk : Device.EnginePagesKept d e) :
    e.queues = d.queues ∧ Device.SameRings d e := ⟨h.queues, hk.sameRings⟩

section
variable {e : Fin 4} (h : s.dev.onEngine e = some (q, c)) (hst : s.dev.queues[q].started = c :: rest)
  (hheld : s.dev.queues[q].held = []) (hfull : s.dev.queues[q].full < s.dev.cqSize q)
include h hst hheld hfull

/-- The end of DMA_H2D. -/
theorem dmaComplete_in (hop : c.op = 0x10) (hs : s.dev.soundRange (field (Device.cmdWord c.words 2) 0 48) (Device.cmdWord c.words 3).toNat)
    (harm : s.dev.tally.armed = false) :
    let n := (Device.cmdWord c.words 3).toNat
    let a := field (Device.cmdWord c.words 2) 0 48
    Completes (.dmaComplete e) s fun t => (t.dev.queues[q].started = rest ∧
      s.completed q c.cid Status.unbookedDone (BitVec.ofNat 64 n) t ∧ ∀ p, p ≠ q → t.dev.queues[p] = s.dev.queues[p]) ∧
      (∀ i, i < n → [t.dev.rdByte (a + i)] = s.dev.rdHost ((Device.cmdWord c.words 1).toNat + i) 1) ∧
      ∀ p, p < a ∨ a + n ≤ p → t.dev.rdByte p = s.dev.rdByte p := by
  intro n a
  obtain ⟨x, hx⟩ : ∃ x, x = s.dev.rdHost (Device.cmdWord c.words 1).toNat n := ⟨_, rfl⟩
  have hlen : x.length = n := by
    rw [hx]
    unfold Device.rdHost
    rw [List.length_map, List.length_range]
  obtain ⟨g, hg, hmove⟩ := s.dev.dmaMove_in_sound c hop n hs harm
  obtain ⟨hq, -, hr⟩ := s.dev.dmaMove_in c hop n
  rw [hmove] at hq hr
  rw [← hx] at hmove hq hr
  obtain ⟨y, hy⟩ : ∃ y, y = (g.wrBytes a x).dmaMoved n := ⟨_, rfl⟩
  rw [show (g.wrBytes (field (Device.cmdWord c.words 2) 0 48) x).dmaMoved n = y from hy.symm] at hmove hq hr
  have hfin := s.dev.finishDma_moved q c (fun h => by rw [hop] at h; exact absurd h (by decide)) hmove
  obtain ⟨t, ht, hends, hb, -⟩ := completes_finished (by rw [exec_dmaComplete h, hfin]) hq hr hst hheld hfull
  have hbyte (p : Nat) : t.dev.rdByte p = (g.wrBytes a x).rdByte p := by
    rw [hb.rdByte, hy]
    rfl
  refine ⟨t, ht, hends, fun i hi => ?_, fun p hp => ?_⟩
  · have hin : i < x.length := by rw [hlen]; exact hi
    rw [hbyte, g.rdByte_wrBytes_in a i x hin]
    subst hx
    unfold Device.rdHost
    simp
  · rw [hbyte, g.rdByte_wrBytes_out a p x (by rw [hlen]; exact hp), hg.rdByte]

/-- The end of DMA_D2H. -/
theorem dmaComplete_out (hop : c.op = 0x11) (hs : s.dev.soundRange (field (Device.cmdWord c.words 2) 0 48) (Device.cmdWord c.words 3).toNat)
    (hap : s.apart q (Device.cmdWord c.words 1).toNat (Device.cmdWord c.words 3).toNat) :
    let n := (Device.cmdWord c.words 3).toNat
    let a := field (Device.cmdWord c.words 2) 0 48
    Completes (.dmaComplete e) s fun t => (t.dev.queues[q].started = rest ∧
      s.completed q c.cid Status.unbookedDone (BitVec.ofNat 64 n) t ∧ ∀ p, p ≠ q → t.dev.queues[p] = s.dev.queues[p]) ∧
      s.sameMemory t ∧ t.dev.rdHost (Device.cmdWord c.words 1).toNat n = s.dev.rdBytes a n := by
  intro n a
  obtain ⟨g, hg, hk, hmove⟩ := s.dev.dmaMove_out_sound c hop n hs
  obtain ⟨x, hx⟩ : ∃ x, x = s.dev.rdBytes a n := ⟨_, rfl⟩
  have hlen : x.length = n := by
    rw [hx]
    unfold Device.rdBytes
    rw [List.length_map, List.length_range]
  rw [show s.dev.rdBytes (field (Device.cmdWord c.words 2) 0 48) n = x from hx.symm] at hmove
  obtain ⟨y, hy⟩ : ∃ y, y = (g.wrHost (Device.cmdWord c.words 1).toNat x).dmaMoved n := ⟨_, rfl⟩
  rw [← hy] at hmove
  obtain ⟨m, b, hw⟩ := g.wrHost_only (Device.cmdWord c.words 1).toNat x
  have hq : y.queues = s.dev.queues := by
    rw [hy, (Device.dmaMoved_spec _ n).2, hw]
    exact hg.queues
  have hr : Device.SameRings s.dev y := by
    rw [hy]
    refine Device.SameRings.trans (e := g.wrHost (Device.cmdWord c.words 1).toNat x) ?_ (sameRings_dmaMoved _ n)
    rw [hw]
    exact hk.sameRings
  have hfin := s.dev.finishDma_moved q c (fun h => by rw [hop] at h; exact absurd h (by decide)) hmove
  obtain ⟨t, ht, hends, hb, -, -, hread⟩ := completes_finished (by rw [exec_dmaComplete h, hfin]) hq hr hst hheld hfull
  refine ⟨t, ht, hends, fun p => ?_, ?_⟩
  · have hyp : y.rdByte p = g.rdByte p := by
      rw [hy, hw]
      rfl
    rw [hb.rdByte, hyp, hg.rdByte]
  · have hyr : y.rdHost (Device.cmdWord c.words 1).toNat n = (g.wrHost (Device.cmdWord c.words 1).toNat x).rdHost
        (Device.cmdWord c.words 1).toNat n := by rw [hy]; rfl
    have hsame := g.rdHost_wrHost_same (Device.cmdWord c.words 1).toNat x
    rw [hlen] at hsame
    rw [hread _ _ hap, hyr, hsame, hx]

/-- The end of STALL_LOAD. -/
theorem dmaComplete_tack (hop : c.op = 0x20) (hs : s.dev.soundRange (field (Device.cmdWord c.words 1) 0 48) (Device.cmdWord c.words 3).toNat)
    (hstall : s.dev.stallRuns (Fin.ofNat 384 (field (Device.cmdWord c.words 2) 0 9)) = false)
    (hlen : field (Device.cmdWord c.words 2) 16 16 + (Device.cmdWord c.words 3).toNat ≤ 65536) :
    let n := (Device.cmdWord c.words 3).toNat
    let a := field (Device.cmdWord c.words 1) 0 48
    let st : StallId := Fin.ofNat 384 (field (Device.cmdWord c.words 2) 0 9)
    let off := field (Device.cmdWord c.words 2) 16 16
    Completes (.dmaComplete e) s fun t => (t.dev.queues[q].started = rest ∧
      s.completed q c.cid Status.unbookedDone (BitVec.ofNat 64 n) t ∧ ∀ p, p ≠ q → t.dev.queues[p] = s.dev.queues[p]) ∧
      s.sameMemory t ∧ (∀ i, i < n → t.dev.rdTackByte st (off + i) = s.dev.rdByte (a + i)) ∧
      ∀ i, i < off ∨ (off + n ≤ i ∧ i < 65536) → t.dev.rdTackByte st i = s.dev.rdTackByte st i := by
  intro n a st off
  obtain ⟨g, hg, hk, hmove⟩ := s.dev.dmaMove_tack_sound c hop n hs
  obtain ⟨x, hx⟩ : ∃ x, x = s.dev.rdBytes a n := ⟨_, rfl⟩
  have hxlen : x.length = n := by
    rw [hx]
    unfold Device.rdBytes
    rw [List.length_map, List.length_range]
  rw [show s.dev.rdBytes (field (Device.cmdWord c.words 1) 0 48) n = x from hx.symm] at hmove
  obtain ⟨z, hz⟩ : ∃ z, z = x.zipIdx.foldl (fun d x => d.putTack st (off + x.2) x.1) g := ⟨_, rfl⟩
  rw [show x.zipIdx.foldl (fun d x => d.putTack (Fin.ofNat 384 (field (Device.cmdWord c.words 2) 0 9))
    (field (Device.cmdWord c.words 2) 16 16 + x.2) x.1) g = z from hz.symm] at hmove
  obtain ⟨m, b, hw⟩ := g.putTack_only st off x.zipIdx
  rw [← hz] at hw
  have hq : (z.dmaMoved n).queues = s.dev.queues := by
    rw [(z.dmaMoved_spec n).2, hw]
    exact hg.queues
  have hr : Device.SameRings s.dev (z.dmaMoved n) := by
    refine Device.SameRings.trans (e := z) ?_ (sameRings_dmaMoved _ n)
    rw [hw]
    exact hk.sameRings
  have hfin := s.dev.finishDma_moved q c (fun _ => hstall) hmove
  obtain ⟨t, ht, hends, hb, htack, hblank, -⟩ := completes_finished (by rw [exec_dmaComplete h, hfin]) hq hr hst hheld hfull
  have hread (i : Nat) : t.dev.rdTackByte st i = z.rdTackByte st i := by
    unfold Device.rdTackByte
    rw [htack, hblank]
    rfl
  have hput := g.rdTackByte_putTack st off x.zipIdx 0 (fun i hi => by simp) (by rw [List.length_zipIdx, hxlen]; exact hlen)
  rw [← hz] at hput
  have hzlen : x.zipIdx.length = n := by rw [List.length_zipIdx, hxlen]
  have hbase (i : Nat) : g.rdTackByte st i = s.dev.rdTackByte st i := by
    have hc := hg.1
    unfold Device.Counted at hc
    rw [hc]
    rfl
  refine ⟨t, ht, hends, fun p => ?_, fun i hi => ?_, fun i hi => ?_⟩
  · have hzp : (z.dmaMoved n).rdByte p = g.rdByte p := by
      rw [hw]
      rfl
    rw [hb.rdByte, hzp, hg.rdByte]
  · rw [hread, hput (off + i) (by omega), dif_pos ⟨by omega, by omega⟩]
    subst hx
    simp [Device.rdBytes]
  · rw [hread, hput i (by omega), dif_neg (by omega), hbase]

end

end

end Sys2Proof.Machine
end

section
/-! The template commands and TEAM_DESTROY (R379, R441). -/

namespace Sys2Proof.Machine

namespace Device

theorem sameRings_eventCode (d : Device) (p : Page) (i : Nat) (c : Code) : SameRings d (d.eventCode p i c) := fun q =>
  rings_of_regs (q := q) fun k hk => d.reg_eventCode_ne p i c k (ne_reportReg p hk)

end Device

/-- The last of a list is the first that satisfies p where none before does. -/
theorem eraseFirst_last {α : Type} (p : α → Bool) (l : List α) (c : α) (hl : ∀ x ∈ l, p x = false) (hc : p c = true) :
    eraseFirst p (l ++ [c]) = l := by
  induction l with
  | nil => exact eraseFirst_head p c [] hc
  | cons x l ih =>
    have hx := hl x List.mem_cons_self
    rw [List.cons_append, eraseFirst, hx, ih fun y hy => hl y (List.mem_cons_of_mem x hy)]
    rfl

section
variable {s : State} {q : QueueId} {w : List W64}

/-- The command that a queue has started to wait. -/
def startedCmd (w : List W64) (x : HostWait) : HostCmd := ⟨cidOf w, BitVec.ofNat 8 (Device.opcode w), w, x⟩

theorem queues_startWait (x : HostWait) : ((s.dev.takeCmd q).startWait q w x).queues[q] = { (s.dev.takeCmd q).queues[q] with
    started := s.dev.queues[q].started ++ [startedCmd w x] } ∧
    ∀ p, p ≠ q → ((s.dev.takeCmd q).startWait q w x).queues[p] = s.dev.queues[p] := by
  obtain ⟨-, hothers⟩ := (s.dev.taken_takeCmd q).queues
  have hst := started_takeCmd (s := s) (q := q) q
  have hk : ((s.dev.takeCmd q).startWait q w x).queues[q] = { (s.dev.takeCmd q).queues[q] with
      started := (s.dev.takeCmd q).queues[q].started ++ [startedCmd w x] } := Device.queue_modQueue _ _ _
  refine ⟨by rw [hk, hst], fun p hp => ?_⟩
  rw [← hothers p hp]
  exact upd_ne _ _ _ _ hp

/-- A command waits in every device with the queues of one that began to wait. -/
theorem waits_startWait {x : HostWait} {y : Device} (h : y.queues = ((s.dev.takeCmd q).startWait q w x).queues) :
    s.waits q w x (s.onDev fun _ => y) := by
  obtain ⟨hq, ho⟩ := queues_startWait (s := s) (q := q) (w := w) x
  rw [← h] at hq ho
  exact ⟨hq, ho⟩

/-- A command that began to wait and ends in the same step is answered. -/
theorem answered_finish {x : HostWait} {y : Device} {p : HostCmd → Bool} (c : Code) (r : W64)
    (hy : y.queues = ((s.dev.takeCmd q).startWait q w x).queues) (hr : Device.SameRings s.dev y)
    (hp : p (startedCmd w x) = true) (hno : ∀ k ∈ s.dev.queues[q].started, p k = false) (hheld : s.dev.queues[q].held = [])
    (hfull : s.dev.queues[q].full < s.dev.cqSize q) :
    s.answered q w c r (s.onDev fun _ => y.finishCmd q p c r) ∧ y.finishCmd q p c r = { y with
      queues := (y.finishCmd q p c r).queues, host := (y.finishCmd q p c r).host, hostBad := (y.finishCmd q p c r).hostBad
      regs := (y.finishCmd q p c r).regs, pba := (y.finishCmd q p c r).pba, out := (y.finishCmd q p c r).out } := by
  obtain ⟨hq, ho⟩ := queues_startWait (s := s) (q := q) (w := w) x
  obtain ⟨-, hothers⟩ := (s.dev.taken_takeCmd q).queues
  rw [← hy] at hq ho
  obtain ⟨z, hz⟩ : ∃ z, z = y.modQueue q fun h => { h with started := eraseFirst p h.started } := ⟨_, rfl⟩
  have hfind : y.queues[q].started.find? p = some (startedCmd w x) := by
    rw [hq, List.find?_append, List.find?_eq_none.mpr fun k hk => by rw [hno k hk]; decide, Option.none_or, List.find?_cons, hp]
  have hfin : y.finishCmd q p c r = z.endNow q w c r := by
    unfold Device.finishCmd
    rw [hfind, hz]
    rfl
  have hzq : z.queues = (s.dev.takeCmd q).queues := by
    refine Vector.ext fun i hi => ?_
    by_cases h : (⟨i, hi⟩ : QueueId) = q
    · have hk : z.queues[q] = (s.dev.takeCmd q).queues[q] := by
        rw [hz, Device.queue_modQueue, hq]
        dsimp only
        rw [eraseFirst_last p _ _ hno hp, ← started_takeCmd (q := q)]
      have hv : i = q.val := congrArg Fin.val h
      subst hv
      exact hk
    · have hk : z.queues[(⟨i, hi⟩ : QueueId)] = (s.dev.takeCmd q).queues[(⟨i, hi⟩ : QueueId)] := by
        rw [hothers _ h, ← ho _ h, hz]
        exact upd_ne _ _ _ _ h
      exact hk
  have hans : Answers s q z := by
    refine ⟨hzq, ?_, ?_⟩
    · rw [hz]
      exact (hr q).1
    · rw [hz]
      exact (hr q).2
  obtain ⟨h1, h2⟩ := answered_endNow (w := w) hans hheld hfull c r
  rw [hfin]
  refine ⟨h1, ?_⟩
  rw [hz] at h2 ⊢
  exact h2

/-! ### Templates -/

/-- The result of a template command answers the host. -/
theorem answered_templateResult {v : Device} (y : Yard) (t : Fin 16) (c : Code)
    (hq : v.queues = ((s.dev.takeCmd q).startWait q w (.template y t)).queues) (hr : Device.SameRings s.dev v)
    (hno : ∀ p : QueueId, ∀ c ∈ s.dev.queues[p].started, c.wait ≠ .template y t) (hheld : s.dev.queues[q].held = [])
    (hfull : s.dev.queues[q].full < s.dev.cqSize q) :
    s.answered q w c (c.setWidth 64) (s.onDev fun _ => v.templateResult y t (some (q, cidOf w)) c) ∧
      (v.templateResult y t (some (q, cidOf w)) c).forges = upd v.forges y fun f => { f with tplResult := c } := by
  obtain ⟨z, hz⟩ : ∃ z, z = (v.modForge y fun f => { f with tplResult := c }).eventCode (Page.forge y) 1 c := ⟨_, rfl⟩
  have hl : v.templateResult y t (some (q, cidOf w)) c = z.finishCmd q
      (fun h => h.cid = cidOf w && h.wait = .template y t) c (c.setWidth 64) := by
    rw [hz]
    rfl
  have hquiet := Device.quiet_eventCode (v.modForge y fun f => { f with tplResult := c }) (Page.forge y) 1 c
  rw [← hz] at hquiet
  have hzr : Device.SameRings s.dev z := by
    rw [hz]
    exact hr.trans (Device.SameRings.trans (e := v.modForge y fun f => { f with tplResult := c }) (fun _ => ⟨rfl, rfl⟩)
      (Device.sameRings_eventCode _ _ _ _))
  obtain ⟨hans, hend⟩ := answered_finish (s := s) (w := w) (x := .template y t) (y := z)
    (p := fun h => h.cid = cidOf w && h.wait = .template y t) c
    (c.setWidth 64) (by rw [← hq, hquiet]; rfl) hzr (by simp [startedCmd])
    (fun k hk => by simp [hno q k hk]) hheld hfull
  rw [hl]
  refine ⟨hans, ?_⟩
  rw [hend, hquiet]
  rfl

/-- TPL_LOAD. -/
theorem tplLoad_spec (h : s.commandNext q 0x38 w) (t : Fin 16) (y : Yard) (ht : t.val = field (Device.cmdWord w 2) 0 4)
    (hy : y.val = field (Device.cmdWord w 2) 4 1) :
    let f := s.dev.forge y
    let others := fun (u : State) => ∀ z, z ≠ y → u.dev.forges[z] = s.dev.forges[z]
    (s.dev.templateUsed y t = false → Completes (.tplLoad q) s fun u => s.waits q w (.template y t) u ∧ others u ∧
      u.dev.forge y = { f with
        loading := f.loading ++ [⟨t, field (Device.cmdWord w 1) 0 48, some (q, cidOf w), s.dev.now⟩] }) ∧
    (s.dev.templateUsed y t = true → (∀ p : QueueId, ∀ c ∈ s.dev.queues[p].started, c.wait ≠ .template y t) →
      Completes (.tplLoad q) s fun u =>
        s.answered q w Status.forgeTemplateInvalid (Status.forgeTemplateInvalid.setWidth 64) u ∧ others u) := by
  intro f others
  have hf : Fin.ofNat 16 (field (Device.cmdWord w 2) 0 4) = t := Fin.ext (by rw [← ht]; exact Nat.mod_eq_of_lt t.isLt)
  have hyf : (Fin.ofNat 2 (field (Device.cmdWord w 2) 4 1) : Yard) = y := Fin.ext (by rw [← hy]; exact Nat.mod_eq_of_lt y.isLt)
  have he := (s.dev.taken_takeCmd q).eq
  obtain ⟨x, hx⟩ : ∃ x, x = (s.dev.takeCmd q).startWait q w (.template y t) := ⟨_, rfl⟩
  have honly : x = { s.dev with queues := x.queues } := by
    rw [hx]
    unfold Device.startWait Device.modQueue
    rw [he]
  have hxf : x.forges = s.dev.forges := by rw [honly]
  have hused : x.templateUsed y t = s.dev.templateUsed y t := by rw [honly]; rfl
  have hnow : x.now = s.dev.now := by rw [honly]; rfl
  have hexec : exec (.tplLoad q) s = .next (s.onDev fun _ => x.loadTemplate y t (field (Device.cmdWord w 1) 0 48) (some (q, cidOf w))) := by
    refine next_congr (fun _ => _) ((startCmd_of_next h _).trans ?_)
    unfold Device.tplLoad
    dsimp only
    rw [hf, hyf, hx]
    rfl
  refine ⟨fun hfree => ?_, fun hbusy hno => ?_⟩
  · have hl : x.loadTemplate y t (field (Device.cmdWord w 1) 0 48) (some (q, cidOf w)) = x.modForge y fun f => { f with
        loading := f.loading ++ [⟨t, field (Device.cmdWord w 1) 0 48, some (q, cidOf w), s.dev.now⟩] } := by
      unfold Device.loadTemplate
      rw [hused, hfree, hnow]
      rfl
    rw [hl] at hexec
    refine ⟨_, hexec, waits_startWait (by rw [← hx]; rfl), fun z hz => ?_, ?_⟩
    · rw [← hxf]
      exact upd_ne _ _ _ _ hz
    · rw [State.onDev_dev]
      unfold Device.forge Device.modForge
      dsimp only
      rw [upd_same, hxf]
      rfl
  · have hl : x.loadTemplate y t (field (Device.cmdWord w 1) 0 48) (some (q, cidOf w)) =
        x.templateResult y t (some (q, cidOf w)) Status.forgeTemplateInvalid := by
      unfold Device.loadTemplate
      rw [hused, hbusy]
      rfl
    obtain ⟨hans, hforges⟩ := answered_templateResult (s := s) (w := w) (v := x) y t Status.forgeTemplateInvalid (by rw [← hx])
      (by rw [honly]; exact fun _ => ⟨rfl, rfl⟩) hno (held_of_next h) (full_of_next h)
    rw [hl] at hexec
    refine ⟨_, hexec, hans, fun v hv => ?_⟩
    rw [State.onDev_dev, hforges, hxf]
    exact upd_ne _ _ _ _ hv

/-- TPL_UNLOAD. -/
theorem tplUnload_spec (h : s.commandNext q 0x39 w) (t : Fin 16) (y : Yard) (ht : t.val = field (Device.cmdWord w 2) 0 4)
    (hy : y.val = field (Device.cmdWord w 2) 4 1)
    (hno : ∀ p : QueueId, ∀ c ∈ s.dev.queues[p].started, c.wait ≠ .template y t) :
    let f := s.dev.forge y
    let answers := fun (c : Code) (u : State) => s.answered q w c (c.setWidth 64) u ∧
      ∀ z, z ≠ y → u.dev.forges[z] = s.dev.forges[z]
    (s.dev.templateUsed y t = false → Completes (.tplUnload q) s fun u =>
      answers Status.done u ∧ u.dev.forge y = { f with tpl := f.tpl.set t none, tplResult := Status.done }) ∧
    (s.dev.templateUsed y t = true → Completes (.tplUnload q) s fun u =>
      answers Status.forgeTemplateInvalid u ∧ u.dev.forge y = { f with tplResult := Status.forgeTemplateInvalid }) := by
  intro f answers
  have hf : Fin.ofNat 16 (field (Device.cmdWord w 2) 0 4) = t := Fin.ext (by rw [← ht]; exact Nat.mod_eq_of_lt t.isLt)
  have hyf : (Fin.ofNat 2 (field (Device.cmdWord w 2) 4 1) : Yard) = y := Fin.ext (by rw [← hy]; exact Nat.mod_eq_of_lt y.isLt)
  have he := (s.dev.taken_takeCmd q).eq
  obtain ⟨x, hx⟩ : ∃ x, x = (s.dev.takeCmd q).startWait q w (.template y t) := ⟨_, rfl⟩
  have honly : x = { s.dev with queues := x.queues } := by
    rw [hx]
    unfold Device.startWait Device.modQueue
    rw [he]
  have hxf : x.forges = s.dev.forges := by rw [honly]
  have hused : x.templateUsed y t = s.dev.templateUsed y t := by rw [honly]; rfl
  have hexec : exec (.tplUnload q) s = .next (s.onDev fun _ => x.unloadTemplate y t (some (q, cidOf w))) := by
    refine next_congr (fun _ => _) ((startCmd_of_next h _).trans ?_)
    unfold Device.tplUnload
    dsimp only
    rw [hf, hyf, hx]
    rfl
  refine ⟨fun hfree => ?_, fun hbusy => ?_⟩
  · have hl : x.unloadTemplate y t (some (q, cidOf w)) =
        (x.modForge y fun f => { f with tpl := f.tpl.set t none }).templateResult y t (some (q, cidOf w)) Status.done := by
      unfold Device.unloadTemplate
      rw [hused, hfree]
      rfl
    obtain ⟨hans, hforges⟩ := answered_templateResult (s := s) (w := w) (v := x.modForge y fun f => { f with tpl := f.tpl.set t none })
      y t Status.done (by rw [← hx]; rfl) (by rw [honly]; exact fun _ => ⟨rfl, rfl⟩) hno (held_of_next h) (full_of_next h)
    rw [hl] at hexec
    have hm : (x.modForge y fun f => { f with tpl := f.tpl.set t none }).forges = upd s.dev.forges y fun f =>
      { f with tpl := f.tpl.set t none } := by rw [← hxf]; rfl
    rw [hm] at hforges
    refine ⟨_, hexec, ⟨hans, fun v hv => ?_⟩, ?_⟩
    · rw [State.onDev_dev, hforges, upd_ne _ _ _ _ hv, upd_ne _ _ _ _ hv]
    · rw [State.onDev_dev, Device.forge, hforges, upd_same, upd_same]
      rfl
  · have hl : x.unloadTemplate y t (some (q, cidOf w)) = x.templateResult y t (some (q, cidOf w)) Status.forgeTemplateInvalid := by
      unfold Device.unloadTemplate
      rw [hused, hbusy]
      rfl
    obtain ⟨hans, hforges⟩ := answered_templateResult (s := s) (w := w) (v := x) y t Status.forgeTemplateInvalid (by rw [← hx])
      (by rw [honly]; exact fun _ => ⟨rfl, rfl⟩) hno (held_of_next h) (full_of_next h)
    rw [hl] at hexec
    rw [hxf] at hforges
    refine ⟨_, hexec, ⟨hans, fun v hv => ?_⟩, ?_⟩
    · rw [State.onDev_dev, hforges]
      exact upd_ne _ _ _ _ hv
    · rw [State.onDev_dev, Device.forge, hforges, upd_same]
      rfl

/-! ### TEAM_DESTROY -/

theorem team_modTeam_same (d : Device) (y : Yard) (t : Fin 64) (f : Team → Team) : (d.modTeam y t f).team y t = f (d.team y t) := by
  unfold Device.team Device.modTeam Device.modDrover
  dsimp only
  rw [upd_same, upd_same]

theorem team_modTeam_ne (d : Device) (y : Yard) (t v : Fin 64) (f : Team → Team) (hv : v ≠ t) :
    (d.modTeam y t f).team y v = d.team y v := by
  unfold Device.team Device.modTeam Device.modDrover
  dsimp only
  rw [upd_same, upd_ne _ _ _ _ hv]

/-- TEAM_DESTROY of a frame to come. -/
theorem teamDestroy_spec (h : s.commandNext q 0x31 w) (hy2 : field (Device.cmdWord w 2) 6 2 < 2) :
    let t : Fin 64 := Fin.ofNat 64 (field (Device.cmdWord w 2) 0 6)
    let y : Yard := Fin.ofNat 2 (field (Device.cmdWord w 2) 6 2)
    let f : Frame := BitVec.ofNat 48 (field (Device.cmdWord w 3) 0 48)
    s.dev.now.toNat < f.toNat → Completes (.teamDestroy q) s fun u => s.waits q w (.teamAt y t) u ∧
      u.dev.team y t = { s.dev.team y t with destroys := (s.dev.team y t).destroys ++ [(f, some (q, cidOf w))] } ∧
      ∀ v, v ≠ t → u.dev.team y v = s.dev.team y v := by
  intro t y f hf
  have he := (s.dev.taken_takeCmd q).eq
  obtain ⟨x, hx⟩ : ∃ x, x = (s.dev.takeCmd q).startWait q w (.teamAt y t) := ⟨_, rfl⟩
  have honly : x = { s.dev with queues := x.queues } := by
    rw [hx]
    unfold Device.startWait Device.modQueue
    rw [he]
  have hnow : x.now = s.dev.now := by rw [honly]; rfl
  have hteam (v : Fin 64) : x.team y v = s.dev.team y v := by rw [honly]; rfl
  have hexec : exec (.teamDestroy q) s = .next (s.onDev fun _ => x.modTeam y t fun m =>
      { m with destroys := m.destroys ++ [(f, some (q, cidOf w))] }) := by
    refine next_congr (fun _ => _) ((startCmd_of_next h _).trans ?_)
    unfold Device.teamDestroy
    dsimp only
    rw [if_neg (by omega)]
    have hd : x.destroyTeam y t f (some (q, cidOf w)) = x.modTeam y t fun m =>
        { m with destroys := m.destroys ++ [(f, some (q, cidOf w))] } := by
      unfold Device.destroyTeam
      rw [if_neg (by rw [hnow, BitVec.le_def]; omega)]
    rw [← hd, hx]
    rfl
  refine ⟨_, hexec, waits_startWait (by rw [← hx]; rfl), ?_, fun v hv => ?_⟩
  · rw [State.onDev_dev, team_modTeam_same, hteam]
  · rw [State.onDev_dev, team_modTeam_ne _ _ _ _ _ hv, hteam]

end

end Sys2Proof.Machine
end

section
/-! TEAM_CREATE: gate firmware's transaction (R377, R378, R512). -/

namespace Sys2Proof.Machine

theorem mem_setInsert (l : List Nat) (a x : Nat) : x ∈ setInsert l a ↔ x = a ∨ x ∈ l := by
  induction l with
  | nil => simp [setInsert]
  | cons k t ih =>
    unfold setInsert
    split
    · simp
    · split
      · next h => simp [h]
      · simp only [List.mem_cons, ih]
        tauto

namespace Device

section
variable (d : Device)

theorem Banked.refl (d : Device) : Banked d d := rfl

/-- Pages are enrolled one after another in the OPEN transaction of bank 1. -/
theorem enrol_all (l : List (Page × Nat × W32)) (id : BitVec 16) (ho : d.banks[(1 : Fin 2)].state = .opened)
    (hid : d.banks[(1 : Fin 2)].id = id) (htxn : ∀ x ∈ l, x.1.kind.hasTxn = true) (hfree : ∀ x ∈ l, x.1.base ∉ d.banks[(0 : Fin 2)].pages) :
    let e := l.foldl (fun d x => d.enrol 1 x.1 id) d
    Banked d e ∧ e.banks[(0 : Fin 2)] = d.banks[(0 : Fin 2)] ∧ e.banks[(1 : Fin 2)] = { d.banks[(1 : Fin 2)] with
        pages := e.banks[(1 : Fin 2)].pages, cmdRes := e.banks[(1 : Fin 2)].cmdRes } ∧
      ∀ p, (p ∈ d.banks[(1 : Fin 2)].pages ∨ ∃ x ∈ l, x.1.base = p) → p ∈ e.banks[(1 : Fin 2)].pages := by
  induction l generalizing d with
  | nil =>
    refine ⟨.refl d, rfl, rfl, fun p hp => ?_⟩
    rcases hp with hp | ⟨x, hx, -⟩
    · exact hp
    · exact absurd hx (by simp)
  | cons x l ih =>
    have hcode : d.enrolCode 1 x.1 id = Status.done := by
      have hc := d.enrolCode_open 1 x.1 ho
      rw [hid] at hc
      rw [hc, if_neg (by rw [htxn x List.mem_cons_self]; decide), if_neg]
      exact hfree x List.mem_cons_self
    obtain ⟨hk, hb⟩ := d.enrol_done 1 x.1 id hcode
    rw [List.foldl_cons]
    generalize d.enrol 1 x.1 id = f at hk hb ⊢
    have hone : f.banks[(1 : Fin 2)] = { d.banks[(1 : Fin 2)] with
        pages := setInsert d.banks[(1 : Fin 2)].pages x.1.base, cmdRes := Status.done } := by
      rw [hb]
      exact Vector.getElem_set_self (by decide)
    have hzero : f.banks[(0 : Fin 2)] = d.banks[(0 : Fin 2)] := by
      rw [hb]
      exact Vector.getElem_set_ne (by decide) (by decide) (by decide)
    obtain ⟨hk2, hz2, ho2, hp2⟩ := ih f (by rw [hone]; exact ho) (by rw [hone]; exact hid)
      (fun y hy => htxn y (List.mem_cons_of_mem x hy)) (fun y hy => by rw [hzero]; exact hfree y (List.mem_cons_of_mem x hy))
    refine ⟨hk.trans hk2, hz2.trans hzero, ho2.trans (by rw [hone]), fun p hp => hp2 p ?_⟩
    rw [hone]
    rcases hp with hp | ⟨y, hy, hyp⟩
    · exact .inl ((mem_setInsert _ _ _).mpr (.inr hp))
    · rcases List.mem_cons.mp hy with rfl | hy
      · exact .inl ((mem_setInsert _ _ _).mpr (.inl hyp.symm))
      · exact .inr ⟨y, hy, hyp⟩

/-- The register that a booking raises. -/
def bookedReg (x : Page × Nat × W32) : Nat := x.1.reg x.2.1

theorem bookedReg_port (p : PortId) (o : Nat) (v : W32) : bookedReg (Page.port p, o, v) = 0x40000 + p.val * 0x1000 + o := rfl

/-- Shadows are written one after another on enrolled pages. -/
theorem shadow_all (l : List (Page × Nat × W32)) (hs : d.boot.state ≠ .safe) (ho : d.banks[(1 : Fin 2)].state = .opened)
    (hp : ∀ x ∈ l, x.1.base ∈ d.banks[(1 : Fin 2)].pages) (hd : l.Pairwise fun x y => bookedReg x ≠ bookedReg y) :
    let e := l.foldl (fun d x => d.shadowWrite 1 x.1 x.2.1 x.2.2) d
    e = { d with banks := e.banks } ∧ e.banks[(1 : Fin 2)] = { d.banks[(1 : Fin 2)] with shadow := e.banks[(1 : Fin 2)].shadow } ∧
      (∀ x ∈ l, mapGet e.banks[(1 : Fin 2)].shadow (bookedReg x) = some x.2.2) ∧
      ∀ k, (∀ x ∈ l, bookedReg x ≠ k) → mapGet e.banks[(1 : Fin 2)].shadow k = mapGet d.banks[(1 : Fin 2)].shadow k := by
  induction l generalizing d with
  | nil => exact ⟨rfl, rfl, fun x hx => absurd hx (by simp), fun _ _ => rfl⟩
  | cons x l ih =>
    obtain ⟨hx, hd⟩ := List.pairwise_cons.mp hd
    have hw : d.shadowWrite 1 x.1 x.2.1 x.2.2 = d.modBank 1 fun b => { b with shadow := mapInsert b.shadow (bookedReg x) x.2.2 } :=
      if_pos ⟨hs, ho, List.contains_iff_mem.mpr (hp x List.mem_cons_self)⟩
    obtain ⟨f, hf⟩ : ∃ f, f = d.modBank 1 fun b => { b with shadow := mapInsert b.shadow (bookedReg x) x.2.2 } := ⟨_, rfl⟩
    have hone : f.banks[(1 : Fin 2)] = { d.banks[(1 : Fin 2)] with
        shadow := mapInsert d.banks[(1 : Fin 2)].shadow (bookedReg x) x.2.2 } := by
      rw [hf]
      exact upd_same _ _ _
    have honly : f = { d with banks := f.banks } := by rw [hf]; rfl
    obtain ⟨h1, h2, h3, h4⟩ := ih f (by rw [honly]; exact hs) (by rw [hone]; exact ho)
      (fun y hy => by rw [hone]; exact hp y (List.mem_cons_of_mem x hy)) hd
    rw [List.foldl_cons, hw, ← hf]
    generalize l.foldl (fun d x => d.shadowWrite 1 x.1 x.2.1 x.2.2) f = e at h1 h2 h3 h4
    refine ⟨?_, h2.trans (by rw [hone]), fun y hy => ?_, fun k hk => ?_⟩
    · rw [h1, honly]
    · rcases List.mem_cons.mp hy with rfl | hy
      · rw [h4 _ fun z hz => (hx z hz).symm, hone]
        exact mapGet_mapInsert_same _ _ _
      · exact h3 y hy
    · rw [h4 k fun z hz => hk z (List.mem_cons_of_mem x hz), hone]
      exact mapGet_mapInsert_ne _ _ _ _ (hk x List.mem_cons_self).symm

/-- The bookings of a team are registers of two ports. -/
theorem teamBookings_spec (y : Yard) (dpa : Nat) : Accessed d (d.teamBookings y dpa).1 ∧
    (∀ x ∈ (d.teamBookings y dpa).2, x.1.kind.hasTxn = true) ∧
    (d.teamBookings y dpa).2.Pairwise fun x z => bookedReg x ≠ bookedReg z := by
  have hnil (e : Device) (he : Accessed d e) : Accessed d (e, ([] : List (Page × Nat × W32))).1 ∧
      (∀ x ∈ (e, ([] : List (Page × Nat × W32))).2, x.1.kind.hasTxn = true) ∧
      (e, ([] : List (Page × Nat × W32))).2.Pairwise fun x z => bookedReg x ≠ bookedReg z :=
    ⟨he, fun x hx => absurd hx (by simp), List.Pairwise.nil⟩
  have hr := d.accessed_readRange dpa 64 false
  unfold teamBookings
  split
  · exact hnil d rfl
  · generalize d.readRange dpa 64 false = r at hr
    obtain ⟨e, bs, bad⟩ := r
    dsimp only
    split
    · exact hnil e hr
    · next hok =>
      have hport : PageKind.port.hasTxn = true := by decide
      obtain ⟨m, hm⟩ : ∃ m : Team, m = { Reset.team with
          record := Vector.ofFn fun i : Fin 8 => BitVec.ofNat 64 (leNat ((bs.drop (8 * i)).take 8)) } := ⟨_, rfl⟩
      rw [← hm]
      have hax : m.axis < 4 := Nat.mod_lt _ (by decide)
      have hraise (neg : Bool) (x : Page × Nat × W32) (hx : (if m.flits neg = 0 then none
          else some (Page.port (Fin.ofNat 8 (2 * m.axis + b2n neg)), 0x140 + 4 * (m.vc - 1),
            BitVec.ofNat 32 (min 0xFFFF (e.book (Fin.ofNat 8 (2 * m.axis + b2n neg)) m.vc + m.flits neg)))) = some x) :
          x.1.kind = .port ∧ bookedReg x = 0x40000 + (2 * m.axis + b2n neg) * 0x1000 + (0x140 + 4 * (m.vc - 1)) := by
        split at hx
        · exact absurd hx (by simp)
        · rw [← Option.some.inj hx]
          refine ⟨rfl, ?_⟩
          have hp : ((Fin.ofNat 8 (2 * m.axis + b2n neg) : PortId)).val = 2 * m.axis + b2n neg := by
            have hb : b2n neg ≤ 1 := by cases neg <;> decide
            exact Nat.mod_eq_of_lt (by omega)
          rw [bookedReg_port, hp]
      refine ⟨hr, fun x hx => ?_, ?_⟩
      · obtain ⟨o, ho, hox⟩ := List.mem_filterMap.mp hx
        have hcase : ∃ neg, o = (if m.flits neg = 0 then none
            else some (Page.port (Fin.ofNat 8 (2 * m.axis + b2n neg)), 0x140 + 4 * (m.vc - 1),
              BitVec.ofNat 32 (min 0xFFFF (e.book (Fin.ofNat 8 (2 * m.axis + b2n neg)) m.vc + m.flits neg)))) := by
          rcases List.mem_cons.mp ho with rfl | ho
          · exact ⟨false, rfl⟩
          · exact ⟨true, List.mem_singleton.mp ho⟩
        obtain ⟨neg, hneg⟩ := hcase
        rw [(hraise neg x (by rw [← hneg]; exact hox)).1]
        exact hport
      · refine List.pairwise_filterMap.mpr (List.pairwise_pair.mpr fun x hx z hz => ?_)
        rw [(hraise false x hx).2, (hraise true z hz).2]
        have h0 : b2n false = 0 := rfl
        have h1 : b2n true = 1 := rfl
        omega

end

end Device

end Sys2Proof.Machine
end

section
/-! TEAM_CREATE served by gate firmware (R377, R378, R512). -/

namespace Sys2Proof.Machine

namespace Device

/-- e is d but for memory and what accesses to it count, the banks and their registers. -/
def Serving (d e : Device) : Prop := e.queues = d.queues ∧ e.drovers = d.drovers ∧ e.ctr = d.ctr ∧ e.boot = d.boot

namespace Serving

variable {d e f : Device}

theorem trans (h : Serving d e) (k : Serving e f) : Serving d f := by
  obtain ⟨h1, h2, h3, h4⟩ := h
  obtain ⟨k1, k2, k3, k4⟩ := k
  exact ⟨k1.trans h1, k2.trans h2, k3.trans h3, k4.trans h4⟩

theorem of_banked (h : Banked d e) : Serving d e := by
  unfold Banked at h
  rw [h]
  exact ⟨rfl, rfl, rfl, rfl⟩

theorem of_accessed (h : Accessed d e) : Serving d e := by
  unfold Accessed at h
  rw [h]
  exact ⟨rfl, rfl, rfl, rfl⟩

end Serving

section
variable (d : Device)

/-- The other bank's lapse frees pages at most. -/
theorem lapse_zero : Banked d (d.lapse 0) ∧ (d.lapse 0).banks[(1 : Fin 2)] = d.banks[(1 : Fin 2)] ∧
    ∀ p ∈ (d.lapse 0).banks[(0 : Fin 2)].pages, p ∈ d.banks[(0 : Fin 2)].pages := by
  by_cases h : d.timedOut 0 = true
  · obtain ⟨hk, hb⟩ := d.lapse_spec 0 h
    refine ⟨hk, ?_, fun p hp => ?_⟩
    · rw [hb]
      exact Vector.getElem_set_ne (by decide) (by decide) (by decide)
    · rw [hb, show (d.banks.set (0 : Fin 2) (endedBank .timedOut Status.txnTimeout 0 0 d.now d.banks[(0 : Fin 2)]))[(0 : Fin 2)] =
        endedBank .timedOut Status.txnTimeout 0 0 d.now d.banks[(0 : Fin 2)] from Vector.getElem_set_self (by decide)] at hp
      exact absurd hp (by simp [endedBank])
  · have hl : d.lapse 0 = d := if_neg h
    rw [hl]
    exact ⟨.refl d, rfl, fun p hp => hp⟩

/-- A transaction is opened, its pages enrolled and its shadows written. -/
theorem bookTeam_steps (sets : List (Page × Nat × W32)) (act : Frame) (hheld : d.txnHeld 1 = false) (hs : d.boot.state ≠ .safe)
    (htxn : ∀ x ∈ sets, x.1.kind.hasTxn = true) (hd : sets.Pairwise fun x z => bookedReg x ≠ bookedReg z)
    (hfree : ∀ x ∈ sets, x.1.base ∉ d.banks[(0 : Fin 2)].pages) (h1 : 2 ≤ since act d.now) (h2 : since act d.now ≤ 65536) :
    ∃ (x e f g : Device) (id : BitVec 16), (d.lapse 0).openTxn 1 = x ∧ x.banks[(1 : Fin 2)].id = id ∧
      sets.foldl (fun d x => d.enrol 1 x.1 id) x = e ∧
      (∀ x ∈ sets, x.1.base ∈ e.banks[(1 : Fin 2)].pages) ∧ sets.foldl (fun d x => d.shadowWrite 1 x.1 x.2.1 x.2.2) e = f ∧
      ((f.setPreg Page.txc (bankReg 1 0x08) (act.setWidth 32)).setPreg Page.txc (bankReg 1 0x0C)
        (BitVec.ofNat 32 (act.toNat / 2 ^ 32))).commitTxn 1 id act = g ∧ Serving d f ∧ Serving d g ∧
      g.banks[(1 : Fin 2)].state = .pending ∧ g.banks[(1 : Fin 2)].target = act ∧ g.banks[(1 : Fin 2)].cmdRes = Status.done ∧
      ∀ x ∈ sets, mapGet g.banks[(1 : Fin 2)].shadow (bookedReg x) = some x.2.2 := by
  obtain ⟨hk0, hb0, hp0⟩ := d.lapse_zero
  generalize d.lapse 0 = y at hk0 hb0 hp0
  have hyheld : y.txnHeld 1 = false := by
    unfold txnHeld at hheld ⊢
    rw [hb0]
    exact hheld
  obtain ⟨hk1, hb1⟩ := y.openTxn_free 1 hyheld
  obtain ⟨x, hx⟩ : ∃ x, x = y.openTxn 1 := ⟨_, rfl⟩
  rw [← hx] at hk1 hb1
  have hxo : x.banks[(1 : Fin 2)].state = .opened := by
    rw [hb1]
    exact congrArg TxnBank.state (Vector.getElem_set_self (by decide))
  have hx0 : x.banks[(0 : Fin 2)] = y.banks[(0 : Fin 2)] := by
    rw [hb1]
    exact Vector.getElem_set_ne (by decide) (by decide) (by decide)
  obtain ⟨id, hid⟩ : ∃ id, x.banks[(1 : Fin 2)].id = id := ⟨_, rfl⟩
  obtain ⟨hk2, -, hone, hpages⟩ := x.enrol_all sets id hxo hid htxn fun z hz hmem =>
    hfree z hz (hp0 _ (by rw [← hx0]; exact hmem))
  obtain ⟨e, he⟩ : ∃ e, e = sets.foldl (fun d x => d.enrol 1 x.1 id) x := ⟨_, rfl⟩
  rw [← he] at hk2 hone hpages
  have hin : ∀ z ∈ sets, z.1.base ∈ e.banks[(1 : Fin 2)].pages := fun z hz => hpages _ (.inr ⟨z, hz, rfl⟩)
  have hserve : Serving d e := .of_banked ((hk0.trans hk1).trans hk2)
  obtain ⟨hsq, hsd, hsc, hsb⟩ := hserve
  have heo : e.banks[(1 : Fin 2)].state = .opened := by rw [hone]; exact hxo
  obtain ⟨honly, hf1, hget, -⟩ := e.shadow_all sets (by rw [hsb]; exact hs) heo hin hd
  obtain ⟨f, hf⟩ : ∃ f, f = sets.foldl (fun d x => d.shadowWrite 1 x.1 x.2.1 x.2.2) e := ⟨_, rfl⟩
  rw [← hf] at honly hf1 hget
  have hfserve : Serving d f := by
    rw [honly]
    exact ⟨hsq, hsd, hsc, hsb⟩
  obtain ⟨g0, hg0⟩ : ∃ g0, g0 = (f.setPreg Page.txc (bankReg 1 0x08) (act.setWidth 32)).setPreg Page.txc (bankReg 1 0x0C)
    (BitVec.ofNat 32 (act.toNat / 2 ^ 32)) := ⟨_, rfl⟩
  have hgb : g0.banks = f.banks := by rw [hg0]; rfl
  have hgserve : Serving d g0 := by
    rw [hg0]
    exact hfserve
  have hnow : g0.now = d.now := congrArg Counters.frame hgserve.2.2.1
  have hgo : g0.banks[(1 : Fin 2)].state = .opened := by rw [hgb, hf1]; exact heo
  have hgid : g0.banks[(1 : Fin 2)].id = id := by rw [hgb, hf1, hone]; exact hid
  have hcode : g0.commitCode 1 id act = Status.done := by
    rw [← hgid, g0.commitCode_open 1 act hgo, hnow, if_pos ⟨h1, h2⟩]
  obtain ⟨hk3, hb3⟩ := g0.commitTxn_done 1 id act hcode
  obtain ⟨g, hg⟩ : ∃ g, g = g0.commitTxn 1 id act := ⟨_, rfl⟩
  rw [← hg] at hk3 hb3
  have hgone : g.banks[(1 : Fin 2)] = { g0.banks[(1 : Fin 2)] with
      state := .pending, target := act, order := g0.commits, cmdRes := Status.done } := by
    rw [hb3]
    exact Vector.getElem_set_self (by decide)
  refine ⟨x, e, f, g, id, hx.symm, hid, he.symm, hin, hf.symm, by rw [← hg0, hg], hfserve, hgserve.trans (.of_banked hk3), ?_, ?_, ?_,
    fun z hz => ?_⟩
  · rw [hgone]
  · rw [hgone]
  · rw [hgone]
  · rw [hgone, hgb]
    exact hget z hz

/-- The command of a waiting TEAM_CREATE goes on to wait for its team. -/
def waitTeam (d : Device) (q : QueueId) (c : HostCmd) (y : Yard) (t : Fin 64) : Device := d.modQueue q fun h =>
  { h with started := modifyFirst (fun h => h == c) (fun x => { x with wait := .teamAt y t }) h.started }

/-- Gate firmware books a team's legs and creates it. -/
theorem serveCreate_spec (q : QueueId) (c : HostCmd) (t : Fin 64) (y : Yard) (dpa : Nat) (act : Frame)
    (hargs : createArgs c.words = (t, y, dpa, act)) (hact : d.now.toNat < act.toNat) (hne : (d.teamBookings y dpa).2 ≠ [])
    (hheld : d.txnHeld 1 = false) (hs : d.boot.state ≠ .safe) (hm : (d.team y t).state = .free)
    (hfree : ∀ x ∈ (d.teamBookings y dpa).2, x.1.base ∉ d.banks[(0 : Fin 2)].pages) (h1 : 2 ≤ since act d.now)
    (h2 : since act d.now ≤ 65536) : ∃ g, Serving d g ∧
      d.serveCreate q c = (g.waitTeam q c y t).createTeam y t dpa act (some (q, c.cid)) ∧
      g.banks[(1 : Fin 2)].state = .pending ∧ g.banks[(1 : Fin 2)].target = act ∧
      ∀ x ∈ (d.teamBookings y dpa).2, mapGet g.banks[(1 : Fin 2)].shadow (bookedReg x) = some x.2.2 := by
  obtain ⟨hacc, htxn, hd⟩ := d.teamBookings_spec y dpa
  obtain ⟨r, hr⟩ : ∃ r, d.teamBookings y dpa = r := ⟨_, rfl⟩
  rw [hr] at hacc htxn hd hne hfree ⊢
  obtain ⟨b, sets⟩ := r
  dsimp only at hacc htxn hd hne hfree ⊢
  have hb := Serving.of_accessed hacc
  have hbb : b.banks = d.banks := by rw [hacc]
  have hbheld : b.txnHeld 1 = false := by
    unfold txnHeld at hheld ⊢
    rw [hbb]
    exact hheld
  have hnow : b.now = d.now := congrArg Counters.frame hb.2.2.1
  obtain ⟨x, e, f, g, id, hx, hid, he, hin, hf, hg, hsf, hsg, hst, htg, hres, hsh⟩ := b.bookTeam_steps sets act hbheld
    (by rw [hb.2.2.2]; exact hs) htxn hd (by rw [hbb]; exact hfree) (by rw [hnow]; exact h1) (by rw [hnow]; exact h2)
  have hteam : (f.team y t).state = .free := by
    have hdr := (hb.trans hsf).2.1
    unfold team at hm ⊢
    rw [hdr]
    exact hm
  refine ⟨g, hb.trans hsg, ?_, hst, htg, hsh⟩
  unfold serveCreate
  rw [hargs]
  dsimp only
  rw [hr]
  dsimp only
  rw [hnow, if_neg (by rw [BitVec.le_def]; exact fun h => h.elim (fun h => by omega) hne), hx, show x.banks[1].id = id from hid, he, if_neg, hf, if_neg, hg, if_neg]
  · rfl
  · rw [show g.banks[1].cmdRes = Status.done from hres]
    exact fun h => h rfl
  · rw [hteam]
    exact fun h => h rfl
  · rw [List.any_eq_true]
    rintro ⟨z, hz, hzn⟩
    rw [Bool.not_eq_true', ← Bool.not_eq_true, List.contains_iff_mem] at hzn
    exact hzn (hin z hz)

end

end Device

end Sys2Proof.Machine
end

section
/-! Reads of a range: which units fail depends on the units alone. -/

namespace Sys2Proof.Machine

namespace Device

/-- What a read of a unit answers. -/
def unitRes (d : Device) (u : Nat) : MemRes :=
  if u < loftBase ∧ d.mc[d.chanOf u].state = .offline then .offline else if u ∈ d.bad then .ecc else .ok

/-- Units of e answer reads as those of d. -/
def SameUnits (d e : Device) : Prop := e.boot = d.boot ∧ e.bad = d.bad ∧
  ∀ c : Chan, e.mc[c].state = d.mc[c].state ∧ e.mc[c].serviceIdx = d.mc[c].serviceIdx

namespace SameUnits

variable {d e f : Device}

theorem refl (d : Device) : SameUnits d d := ⟨rfl, rfl, fun _ => ⟨rfl, rfl⟩⟩

theorem trans (h : SameUnits d e) (k : SameUnits e f) : SameUnits d f := by
  obtain ⟨h1, h2, h3⟩ := h
  obtain ⟨k1, k2, k3⟩ := k
  exact ⟨k1.trans h1, k2.trans h2, fun c => ⟨(k3 c).1.trans (h3 c).1, (k3 c).2.trans (h3 c).2⟩⟩

theorem of_counted (h : Counted d e) : SameUnits d e := by
  unfold Counted at h
  rw [h]
  exact ⟨rfl, rfl, fun _ => ⟨rfl, rfl⟩⟩

theorem of_quiet (h : Quiet d e) : SameUnits d e := by
  unfold Quiet at h
  rw [h]
  exact ⟨rfl, rfl, fun _ => ⟨rfl, rfl⟩⟩

theorem chanOf (h : SameUnits d e) (u : Nat) : e.chanOf u = d.chanOf u := by
  obtain ⟨h1, -, h3⟩ := h
  have hch (y : Yard) : e.channels y = d.channels y := by
    unfold channels
    simp only [(h3 _).2]
  unfold Device.chanOf place yardAt
  simp only [hch, h1]

theorem unitRes (h : SameUnits d e) (u : Nat) : e.unitRes u = d.unitRes u := by
  unfold Device.unitRes
  simp only [h.chanOf u]
  obtain ⟨-, h2, h3⟩ := h
  rw [(h3 _).1, h2]

end SameUnits

section
variable (d : Device)

theorem sameUnits_modMc (c : Chan) (f : MemCtl → MemCtl) (hs : ∀ m, (f m).state = m.state) (hi : ∀ m, (f m).serviceIdx = m.serviceIdx) :
    SameUnits d (d.modMc c f) := by
  refine ⟨rfl, rfl, fun k => ?_⟩
  by_cases h : k = c
  · subst h
    have hk : (d.modMc k f).mc[k] = f d.mc[k] := upd_same _ _ _
    rw [hk]
    exact ⟨hs _, hi _⟩
  · have hk : (d.modMc c f).mc[k] = d.mc[k] := upd_ne _ _ _ _ h
    rw [hk]
    exact ⟨rfl, rfl⟩

theorem sameUnits_setMapout (c : Chan) : SameUnits d (d.setMapout c) := by
  unfold setMapout
  split
  · exact .refl d
  · have hm := d.sameUnits_modMc c (fun m => { m with mapoutPend := true }) (fun _ => rfl) fun _ => rfl
    exact hm.trans (.of_quiet (quiet_event _ _ _))

theorem sameUnits_burstFailed (a : Nat) : SameUnits d (d.burstFailed a) := by
  unfold burstFailed
  extract_lets c p d1 d2 d3 d4 d5 lim
  have h3 : Quiet d d3 := ((quiet_bump d p 0x114 1).trans (quiet_setPreg d1 p 0x118 _)).trans (quiet_setPreg d2 p 0x11C _)
  have h4 : SameUnits d d4 := (SameUnits.of_quiet h3).trans (d3.sameUnits_modMc c _ (fun _ => rfl) fun _ => rfl)
  have h5 : SameUnits d d5 := h4.trans (.of_quiet (quiet_eventCode d4 p 2 Status.memEccUncorrected))
  split
  · exact h5.trans (sameUnits_setMapout d5 c)
  · exact h5

theorem sameUnits_wordFailed (a : Nat) : SameUnits d (d.wordFailed a) := by
  unfold wordFailed
  exact .of_quiet ((quiet_bump _ _ _ _).trans (quiet_record _ _ _))

/-- A read of a unit. -/
theorem readUnit_res (u : Nat) (b : Bool) : SameUnits d (d.readUnit u b).1 ∧ (d.readUnit u b).2 = d.unitRes u := by
  have hs := SameUnits.of_counted (counted_burstServed d (d.chanOf u) false b)
  unfold unitRes
  simp only [readUnit]
  generalize d.burstServed (d.chanOf u) false b = e at hs ⊢
  by_cases hu : u < loftBase
  · by_cases ho : d.mc[d.chanOf u].state = .offline
    · rw [if_pos hu, if_pos ho, if_pos ⟨hu, ho⟩]
      exact ⟨.refl d, rfl⟩
    · have hoff : ¬ (u < loftBase ∧ d.mc[d.chanOf u].state = .offline) := fun h => ho h.2
      rw [if_pos hu, if_neg ho, if_neg hoff, hs.2.1]
      by_cases hb : u ∈ d.bad
      · rw [if_pos hb, if_pos hb]
        exact ⟨hs.trans (sameUnits_burstFailed _ u), rfl⟩
      · rw [if_neg hb, if_neg hb]
        split
        · refine ⟨hs.trans (.of_quiet ?_), rfl⟩
          exact quiet_bump _ _ _ _
        · exact ⟨hs, rfl⟩
  · have hoff : ¬ (u < loftBase ∧ d.mc[d.chanOf u].state = .offline) := fun h => hu h.1
    rw [if_neg hu, if_neg hoff]
    by_cases hb : u ∈ d.bad
    · rw [if_pos hb, if_pos hb]
      exact ⟨sameUnits_wordFailed d u, rfl⟩
    · rw [if_neg hb, if_neg hb]
      split
      · refine ⟨SameUnits.trans (e := { d with ce := setErase d.ce u }) ⟨rfl, rfl, fun _ => ⟨rfl, rfl⟩⟩ (.of_quiet ?_), rfl⟩
        exact quiet_bump _ _ _ _
      · exact ⟨.refl d, rfl⟩

/-- The units of a range that fail. -/
def failing (d : Device) (l : List Nat) : List (Nat × MemRes) := (l.map fun u => (u, d.unitRes u)).filter fun x => x.2 ≠ .ok

theorem readRange_res (a n : Nat) (b : Bool) : SameUnits d (d.readRange a n b).1 ∧
    (d.readRange a n b).2 = (d.rdBytes a n, d.failing (unitsOf a n)) := by
  have key (l : List Nat) (x : Device × List (Nat × MemRes)) :
      SameUnits x.1 (l.foldl (fun (x : Device × List (Nat × MemRes)) u =>
        let (d, res) := x.1.readUnit u b
        (d, if res = .ok then x.2 else x.2 ++ [(u, res)])) x).1 ∧
      (l.foldl (fun (x : Device × List (Nat × MemRes)) u =>
        let (d, res) := x.1.readUnit u b
        (d, if res = .ok then x.2 else x.2 ++ [(u, res)])) x).2 = x.2 ++ x.1.failing l := by
    induction l generalizing x with
    | nil => exact ⟨.refl _, (List.append_nil _).symm⟩
    | cons u l ih =>
      obtain ⟨h1, h2⟩ := x.1.readUnit_res u b
      rw [List.foldl_cons]
      obtain ⟨k1, k2⟩ := ih ((x.1.readUnit u b).1, if (x.1.readUnit u b).2 = .ok then x.2 else x.2 ++ [(u, (x.1.readUnit u b).2)])
      refine ⟨h1.trans k1, k2.trans ?_⟩
      have hf : (x.1.readUnit u b).1.failing l = x.1.failing l := by
        unfold failing
        simp only [h1.unitRes]
      dsimp only
      rw [hf, h2]
      unfold failing
      rw [List.map_cons, List.filter_cons]
      by_cases hr : x.1.unitRes u = .ok
      · simp [hr]
      · simp [hr]
  obtain ⟨h1, h2⟩ := key (unitsOf a n) (d, [])
  exact ⟨h1, Prod.ext rfl (h2.trans (List.nil_append _))⟩

/-- A port's booking is a register of its page. -/
theorem book_congr {d e : Device} (h : EnginePagesKept d e) (p : PortId) (v : Nat) (hv : 0x140 + 4 * (v - 1) < 4096) :
    e.book p v = d.book p v := by
  unfold book pfield preg
  rw [h]
  · have : (Page.port p).base = 0x4_0000 + p.val * 0x1000 := rfl
    unfold Page.reg
    omega
  · have : (Page.port p).base = 0x4_0000 + p.val * 0x1000 := rfl
    unfold Page.reg
    omega

/-- The bookings of a team record depend on memory, its errors and the ports' registers. -/
theorem teamBookings_congr {d e : Device} (y : Yard) (dpa : Nat) (hu : SameUnits d e) (hb : ∀ a, e.rdByte a = d.rdByte a)
    (hk : EnginePagesKept d e) : (e.teamBookings y dpa).2 = (d.teamBookings y dpa).2 := by
  have hin : e.inLp6 dpa 64 = d.inLp6 dpa 64 := by
    unfold inLp6
    rw [hu.1]
  have hrd : e.rdBytes dpa 64 = d.rdBytes dpa 64 := List.map_congr_left fun i _ => hb _
  have hfail : e.failing (unitsOf dpa 64) = d.failing (unitsOf dpa 64) := by
    unfold failing
    simp only [hu.unitRes]
  obtain ⟨-, he⟩ := e.readRange_res dpa 64 false
  obtain ⟨-, hd⟩ := d.readRange_res dpa 64 false
  have hek := e.enginePages_readRange dpa 64 false
  have hdk := d.enginePages_readRange dpa 64 false
  rw [hrd, hfail] at he
  unfold teamBookings
  rw [hin]
  split
  · rfl
  · generalize e.readRange dpa 64 false = re at he hek
    generalize d.readRange dpa 64 false = rd at hd hdk
    obtain ⟨e1, bs, bad⟩ := re
    obtain ⟨d1, bs', bad'⟩ := rd
    obtain ⟨rfl, rfl⟩ := Prod.mk.inj (he.trans hd.symm)
    dsimp only
    obtain ⟨m, hm⟩ : ∃ m : Team, m = { Reset.team with
        record := Vector.ofFn fun i : Fin 8 => BitVec.ofNat 64 (leNat ((bs.drop (8 * i)).take 8)) } := ⟨_, rfl⟩
    rw [← hm]
    split
    · rfl
    · next hok =>
      have hvc : m.vc ≤ 5 := by
        simp only [Bool.or_eq_true, decide_eq_true_eq, not_or] at hok
        omega
      have hsame (p : PortId) : e1.book p m.vc = d1.book p m.vc := by
        rw [book_congr hek p _ (by omega), book_congr hdk p _ (by omega), book_congr hk p _ (by omega)]
      dsimp only
      simp only [hsame]

end

end Device

end Sys2Proof.Machine
end

section
/-! TEAM_CREATE of the host (R377, R378, R512), and the obligation on host transfers. -/

namespace Sys2Proof.Machine

/-- A choice among copies of one element. -/
theorem foldl_copies {α : Type} (g : Option α → α → Option α) (x : α) (hnone : g none x = some x) (hsome : g (some x) x = some x)
    (l : List α) (h : ∀ z ∈ l, z = x) (b : Option α) (hb : b = none ∨ b = some x) :
    l.foldl g b = if l = [] then b else some x := by
  induction l generalizing b with
  | nil => rfl
  | cons z l ih =>
    have hz := h z List.mem_cons_self
    subst hz
    have hg : g b z = some z := by
      rcases hb with rfl | rfl
      · exact hnone
      · exact hsome
    rw [List.foldl_cons, hg, ih (fun y hy => h y (List.mem_cons_of_mem z hy)) _ (.inr rfl)]
    simp

theorem modifyFirst_last {α : Type} (p : α → Bool) (f : α → α) (l : List α) (c : α) (hl : ∀ x ∈ l, p x = false) (hc : p c = true) :
    modifyFirst p f (l ++ [c]) = l ++ [f c] := by
  induction l with
  | nil => simp [modifyFirst, hc]
  | cons x l ih =>
    have hx := hl x List.mem_cons_self
    rw [List.cons_append, modifyFirst, hx, ih fun y hy => hl y (List.mem_cons_of_mem x hy)]
    rfl

namespace Device

section
variable (d : Device)

/-- One command alone waits for gate firmware's transaction. -/
theorem longestWait_one (q : QueueId) (c : HostCmd) (n : Nat) (hc : c ∈ d.queues[q].started) (hw : c.wait = .fwTxn n)
    (honly : ∀ p : QueueId, ∀ x ∈ d.queues[p].started, (∃ m, x.wait = .fwTxn m) → p = q ∧ x = c) :
    d.longestWait = some (q, c) ∧ ∃ m, d.waiters = m + 1 := by
  have hord : waitOrder c = some n := by
    unfold waitOrder
    rw [hw]
  have hwait (x : HostCmd) (m : Nat) (hx : waitOrder x = some m) : x.wait = .fwTxn m := by
    unfold waitOrder at hx
    split at hx
    · next k hk => rw [hk, Option.some.inj hx]
    · exact absurd hx (by simp)
  refine ⟨?_, ?_⟩
  · unfold longestWait
    dsimp only
    rw [foldl_copies _ (n, q, c) rfl (if_neg (Nat.lt_irrefl _)) _ (fun z hz => ?_) none (.inl rfl), if_neg]
    · rfl
    · intro hnil
      have hmem : (n, q, c) ∈ (finList 16).flatMap fun (q : QueueId) =>
          (d.queues[q].started.filterMap fun c => (waitOrder c).map fun n => (n, q, c)) := by
        refine List.mem_flatMap.mpr ⟨q, List.mem_finRange q, List.mem_filterMap.mpr ⟨c, hc, ?_⟩⟩
        rw [hord]
        rfl
      rw [hnil] at hmem
      exact absurd hmem (by simp)
    · obtain ⟨p, -, hp⟩ := List.mem_flatMap.mp hz
      obtain ⟨x, hx, hxz⟩ := List.mem_filterMap.mp hp
      obtain ⟨m, hm, rfl⟩ := Option.map_eq_some_iff.mp hxz
      obtain ⟨rfl, rfl⟩ := honly p x hx ⟨m, hwait x m hm⟩
      rw [hord] at hm
      rw [Option.some.inj hm]
  · refine Nat.exists_eq_succ_of_ne_zero fun hz => ?_
    unfold waiters at hz
    rw [List.sum_eq_zero_iff] at hz
    have h0 := hz _ (List.mem_map.mpr ⟨q, List.mem_finRange q, rfl⟩)
    rw [List.length_eq_zero_iff, List.filter_eq_nil_iff] at h0
    exact h0 c hc (by rw [hord]; rfl)

/-- Gate firmware serves one waiting command; the transaction that it opens holds it. -/
theorem resume_one (q : QueueId) (c : HostCmd) (n : Nat) (hc : c ∈ d.queues[q].started) (hw : c.wait = .fwTxn n)
    (honly : ∀ p : QueueId, ∀ x ∈ d.queues[p].started, (∃ m, x.wait = .fwTxn m) → p = q ∧ x = c)
    (hfree : d.txnHeld 1 = false) (hs : d.serving = true) (hheld : (d.serveCreate q c).txnHeld 1 = true) :
    d.resume = d.serveCreate q c := by
  obtain ⟨hl, m, hm⟩ := d.longestWait_one q c n hc hw honly
  have hstop (k : Nat) (e : Device) (he : e.txnHeld 1 = true) : serveWaiting k e = e := by
    cases k with
    | zero => rfl
    | succ k =>
      unfold serveWaiting
      exact if_pos (by rw [he]; rfl)
  unfold resume
  rw [hm]
  unfold serveWaiting
  rw [if_neg (by rw [hfree, hs]; decide), hl]
  exact hstop m _ hheld

/-- Where a transaction is held, nothing is served. -/
theorem resume_held (h : d.txnHeld 1 = true) : d.resume = d := by
  unfold resume
  generalize d.waiters = k
  cases k with
  | zero => rfl
  | succ k =>
    unfold serveWaiting
    exact if_pos (by rw [h]; rfl)

theorem createTeam_later (y : Yard) (t : Fin 64) (dpa : Nat) (act : Frame) (who : Option Asker) (h : d.now.toNat < act.toNat) :
    d.createTeam y t dpa act who = d.modTeam y t fun m => { m with
      creates := m.creates ++ [⟨dpa, act, who, decide (m.state = .free)⟩]
      state := if m.state = .free then .pending else m.state } := by
  unfold createTeam
  exact if_neg (by rw [BitVec.le_def]; omega)

end

end Device

section
variable {s : State} {q : QueueId} {w : List W64}

/-- A TEAM_CREATE of a frame to come. -/
theorem teamCreate_spec (h : s.commandNext q 0x30 w) (hy2 : field (Device.cmdWord w 2) 6 2 < 2) :
    let x := Device.cmdWord w
    let t : Fin 64 := Fin.ofNat 64 (field (x 2) 0 6)
    let y : Yard := Fin.ofNat 2 (field (x 2) 6 2)
    let dpa := field (x 1) 0 48
    let act : Frame := BitVec.ofNat 48 (field (x 3) 0 48)
    let m := s.dev.team y t
    let pending := fun (u : State) => s.waits q w (.teamAt y t) u ∧
      u.dev.team y t = { m with
        creates := m.creates ++ [⟨dpa, act, some (q, cidOf w), decide (m.state = .free)⟩]
        state := if m.state = .free then .pending else m.state }
    s.dev.now.toNat < act.toNat → ∀ sets, (s.dev.teamBookings y dpa).2 = sets →
      (sets = [] → Completes (.teamCreate q) s fun u => pending u ∧ u.dev.banks = s.dev.banks) ∧
      (sets ≠ [] → s.dev.txnHeld 1 = true → Completes (.teamCreate q) s fun u => s.waits q w (.fwTxn s.dev.commits) u ∧
        u.dev.banks = s.dev.banks ∧ u.dev.drovers = s.dev.drovers) ∧
      (sets ≠ [] → s.dev.txnHeld 1 = false → s.dev.serving = true →
        (∀ p : QueueId, ∀ c ∈ s.dev.queues[p].started, ∀ n, c.wait ≠ .fwTxn n) →
        m.state = .free → 2 ≤ Device.since act s.dev.now → Device.since act s.dev.now ≤ 65536 →
          (∀ b ∈ sets, b.1.base ∉ s.dev.banks[(0 : Fin 2)].pages) → Completes (.teamCreate q) s fun u => pending u ∧
            u.dev.banks[(1 : Fin 2)].state = .pending ∧ u.dev.banks[(1 : Fin 2)].target = act ∧
            ∀ b ∈ sets, mapGet u.dev.banks[(1 : Fin 2)].shadow (b.1.reg b.2.1) = some b.2.2) := by
  intro x t y dpa act m pending hact sets hsets
  have he := (s.dev.taken_takeCmd q).eq
  obtain ⟨d, hd⟩ : ∃ d, d = s.dev.takeCmd q := ⟨_, rfl⟩
  have hargs : Device.createArgs w = (t, y, dpa, act) := rfl
  have hnow : d.now = s.dev.now := by rw [hd, he]; rfl
  have hcommits : d.commits = s.dev.commits := by rw [hd, he]
  have hsame (e : Device) (heq : e = { s.dev with queues := e.queues, commits := e.commits }) :
      (e.teamBookings y dpa).2 = sets := by
    rw [← hsets, heq]
    exact Device.teamBookings_congr y dpa ⟨rfl, rfl, fun _ => ⟨rfl, rfl⟩⟩ (fun _ => rfl) (.of_regs rfl)
  have hbook : (d.teamBookings y dpa).2 = sets := hsame d (by rw [hd, he])
  have hexec {z : Device} (hz : d.teamCreate q w = z) : exec (.teamCreate q) s = .next (s.onDev fun _ => z) :=
    next_congr (fun _ => z) ((startCmd_of_next h _).trans (by rw [← hd]; exact hz))
  have hlater : ¬ act ≤ d.now := by
    rw [hnow, BitVec.le_def]
    omega
  have hnot : ¬ 2 ≤ field (Device.cmdWord w 2) 6 2 := by omega
  have hwaits : (d.startWait q w (.teamAt y t)).queues = ((s.dev.takeCmd q).startWait q w (.teamAt y t)).queues := by rw [hd]
  refine ⟨fun hnil => ?_, fun hne hheld => ?_, fun hne hfree hserv hno hm h1 h2 hpages => ?_⟩
  · obtain ⟨hacc, -⟩ := d.teamBookings_spec y dpa
    obtain ⟨b, hb⟩ : ∃ b, b = (d.teamBookings y dpa).1 := ⟨_, rfl⟩
    rw [← hb] at hacc
    have hz : d.teamCreate q w = (b.startWait q w (.teamAt y t)).createTeam y t dpa act (some (q, cidOf w)) := by
      unfold Device.teamCreate
      rw [if_neg hnot, hargs]
      dsimp only
      rw [if_neg hlater, hbook, if_pos hnil, hb]
      rfl
    have hserve := Device.Serving.of_accessed hacc
    have hbnow : (b.startWait q w (.teamAt y t)).now = s.dev.now := by
      rw [← hnow]
      exact congrArg Counters.frame hserve.2.2.1
    rw [Device.createTeam_later _ _ _ _ _ _ (by rw [hbnow]; exact hact)] at hz
    have hteam : (b.startWait q w (.teamAt y t)).team y t = m := by
      unfold Device.team
      change b.drovers[y].teams[t] = _
      rw [hserve.2.1, hd, he]
      rfl
    refine ⟨_, hexec hz, ⟨waits_startWait ?_, ?_⟩, ?_⟩
    · rw [← hwaits]
      unfold Device.modTeam Device.modDrover Device.startWait Device.modQueue
      dsimp only
      rw [hserve.1]
    · rw [State.onDev_dev, team_modTeam_same, hteam]
    · rw [State.onDev_dev]
      change b.banks = _
      rw [hacc, hd, he]
  · obtain ⟨z, hz⟩ : ∃ z, z = ({ d with commits := s.dev.commits + 1 } : Device).startWait q w (.fwTxn s.dev.commits) := ⟨_, rfl⟩
    have hzheld : z.txnHeld 1 = true := by
      rw [hz, hd, he]
      exact hheld
    have hx : d.teamCreate q w = z := by
      unfold Device.teamCreate
      rw [if_neg hnot, hargs]
      dsimp only
      rw [if_neg hlater, hbook, if_neg hne, hcommits, ← hz]
      exact z.resume_held hzheld
    refine ⟨_, hexec hx, waits_startWait ?_, ?_, ?_⟩
    · rw [hz, hd]
      rfl
    · rw [State.onDev_dev, hz, hd, he]
      rfl
    · rw [State.onDev_dev, hz, hd, he]
      rfl
  · obtain ⟨z, hz⟩ : ∃ z, z = ({ d with commits := s.dev.commits + 1 } : Device).startWait q w (.fwTxn s.dev.commits) := ⟨_, rfl⟩
    have hzonly : z = { s.dev with queues := z.queues, commits := z.commits } := by
      rw [hz, hd, he]
      rfl
    have hzbook := hsame z hzonly
    obtain ⟨hzq, hzo⟩ := queues_startWait (s := s) (q := q) (w := w) (.fwTxn s.dev.commits)
    have hzqueues : z.queues = ((s.dev.takeCmd q).startWait q w (.fwTxn s.dev.commits)).queues := by
      rw [hz, hd]
      rfl
    rw [← hzqueues] at hzq hzo
    have hznow : z.now = s.dev.now := by
      rw [hzonly]
      rfl
    have hc : startedCmd w (.fwTxn s.dev.commits) ∈ z.queues[q].started := by
      rw [hzq]
      simp
    have honly : ∀ p : QueueId, ∀ x ∈ z.queues[p].started, (∃ k, x.wait = .fwTxn k) → p = q ∧ x = startedCmd w (.fwTxn s.dev.commits) := by
      rintro p k hk ⟨n, hkn⟩
      by_cases hp : p = q
      · subst hp
        rw [hzq] at hk
        rcases List.mem_append.mp hk with hk | hk
        · exact absurd hkn (hno p k hk n)
        · exact ⟨rfl, List.mem_singleton.mp hk⟩
      · rw [hzo p hp] at hk
        exact absurd hkn (hno p k hk n)
    have hstate : s.dev.boot.state ≠ .safe := fun hsafe => by
      unfold Device.serving at hserv
      rw [hsafe] at hserv
      exact absurd hserv (by decide)
    have hzfree : z.txnHeld 1 = false := by
      rw [hzonly]
      exact hfree
    obtain ⟨g, hg, hserve, hst, htg, hsh⟩ := z.serveCreate_spec q (startedCmd w (.fwTxn s.dev.commits)) t y dpa act hargs
      (by rw [hznow]; exact hact) (by rw [hzbook]; exact hne) hzfree (by rw [hzonly]; exact hstate) (by rw [hzonly]; exact hm)
      (by rw [hzbook, hzonly]; exact hpages) (by rw [hznow]; exact h1) (by rw [hznow]; exact h2)
    rw [hzbook] at hsh
    have hgnow : (g.waitTeam q (startedCmd w (.fwTxn s.dev.commits)) y t).now = s.dev.now := by
      rw [← hznow]
      exact congrArg Counters.frame hg.2.2.1
    rw [Device.createTeam_later _ _ _ _ _ _ (by rw [hgnow]; exact hact)] at hserve
    have hresume := z.resume_one q _ _ hc rfl honly hzfree (by rw [hzonly]; exact hserv) (by
      rw [hserve]
      unfold Device.txnHeld
      change (decide (g.banks[(1 : Fin 2)].state = _) || decide (g.banks[(1 : Fin 2)].state = _)) = true
      rw [hst]
      rfl)
    have hx : d.teamCreate q w = z.serveCreate q (startedCmd w (.fwTxn s.dev.commits)) := by
      unfold Device.teamCreate
      rw [if_neg hnot, hargs]
      dsimp only
      rw [if_neg hlater, hbook, if_neg hne, hcommits, ← hz]
      exact hresume
    rw [hserve] at hx
    have hteam : (g.waitTeam q (startedCmd w (.fwTxn s.dev.commits)) y t).team y t = m := by
      unfold Device.team
      change g.drovers[y].teams[t] = _
      rw [hg.2.1, hzonly]
      rfl
    have hmod : modifyFirst (fun h => h == startedCmd w (.fwTxn s.dev.commits)) (fun x => { x with wait := .teamAt y t })
        (s.dev.queues[q].started ++ [startedCmd w (.fwTxn s.dev.commits)]) = s.dev.queues[q].started ++ [startedCmd w (.teamAt y t)] := by
      refine modifyFirst_last _ _ _ _ (fun k hk => ?_) (beq_self _)
      rw [beq_eq_false_iff_ne]
      rintro rfl
      exact hno q _ hk _ rfl
    refine ⟨_, hexec hx, ⟨⟨?_, fun p hp => ?_⟩, ?_⟩, hst, htg, hsh⟩
    · rw [State.onDev_dev]
      change (g.waitTeam q (startedCmd w (.fwTxn s.dev.commits)) y t).queues[q] = _
      unfold Device.waitTeam
      rw [Device.queue_modQueue, hg.1, hzq]
      dsimp only
      rw [hmod]
      rfl
    · rw [State.onDev_dev, ← hzo p hp, ← hg.1]
      exact upd_ne _ _ _ _ hp
    · rw [State.onDev_dev, team_modTeam_same, hteam]
      rfl

end

/-- Settles O51: the memory BAR and the data commands rest on reads and writes of sound ranges; a team or template command hands
its work on from the queue as it was taken. -/
theorem hostTransfers : Obligations.HostTransfers := by
  unfold Obligations.HostTransfers
  refine ⟨memoryBar_spec, fun e q c rest s h hst hheld hfull => ?_, fun e s h => ?_, fun q w s => ?_⟩
  · exact ⟨dmaComplete_in h hst hheld hfull, dmaComplete_out h hst hheld hfull, dmaComplete_tack h hst hheld hfull⟩
  · refine (next_congr (fun d => d) ?_).trans rfl
    rw [h]
  · exact ⟨teamCreate_spec, teamDestroy_spec, fun t y ht hy => ⟨fun h => tplLoad_spec h t y ht hy,
      fun h hno => tplUnload_spec h t y ht hy hno⟩⟩

end Sys2Proof.Machine
end

section
/-! What reset leaves, and the four resets (R46, R49, R460, R466, R471, R473). -/

namespace Sys2Proof.Machine

namespace Device

section
variable (d : Device)

/-- DOWN touches its port and what goes out. -/
theorem sendDown_only (p : PortId) (c : Nat) : ∃ v t o, d.sendDown p c = { d with ports := v, tally := t, out := o } := by
  unfold sendDown
  extract_lets q w r
  split
  · exact ⟨_, _, _, rfl⟩
  · exact ⟨d.ports, d.tally, d.out, rfl⟩

/-- DOWN on every linked port. -/
theorem foldl_sendDown_only (l : List PortId) : ∃ v t o,
    l.foldl (fun d (p : PortId) => if d.ports[p].linked then d.sendDown p 0 else d) d = { d with ports := v, tally := t, out := o } := by
  induction l generalizing d with
  | nil => exact ⟨d.ports, d.tally, d.out, rfl⟩
  | cons p l ih =>
    have hone : ∃ v t o, (if d.ports[p].linked then d.sendDown p 0 else d) = { d with ports := v, tally := t, out := o } := by
      split
      · exact d.sendDown_only p 0
      · exact ⟨d.ports, d.tally, d.out, rfl⟩
    obtain ⟨v, t, o, h⟩ := hone
    obtain ⟨v2, t2, o2, h2⟩ := ih { d with ports := v, tally := t, out := o }
    rw [List.foldl_cons, h, h2]
    exact ⟨v2, t2, o2, rfl⟩

/-- Entry into ROM_WAIT. -/
theorem enterRomWait_only (time : Option Nat) : ∃ e : Device, d.enterRomWait time = e ∧ e = { d with
    sram := [], trust := e.trust, tap := e.tap, tally := e.tally, regs := e.regs, pba := e.pba, out := e.out
    boot := { d.boot with timer := time.getD d.boot.timer, fwRunning := false, state := .romWait, window := true } } ∧
    e.trust = { d.trust.deriveIdentity with mr := d.trust.deriveIdentity.mr.set 0 Config.romDigest } := by
  obtain ⟨x, hx⟩ : ∃ x : Device, x = { d with
    sram := []
    trust := { d.trust.deriveIdentity with mr := d.trust.deriveIdentity.mr.set 0 Config.romDigest }
    boot := { d.boot with timer := time.getD d.boot.timer, fwRunning := false } } := ⟨_, rfl⟩
  have he : d.enterRomWait time = x.setState .romWait := by rw [hx]; rfl
  have hs := x.setState_only .romWait
  refine ⟨_, he, ?_, ?_⟩
  · rw [hs, hx]
    rfl
  · rw [hs, hx]

theorem readArray_only (a : FuseArray) : ∃ e : Device, d.readArray a = e ∧ e = { d with
    trust := d.trust.readFuses a, regs := e.regs, pba := e.pba, out := e.out } := by
  refine ⟨_, rfl, ?_⟩
  obtain ⟨x, hx⟩ : ∃ x : Device, x = { d with trust := d.trust.readFuses a } := ⟨_, rfl⟩
  have hq : Quiet x (d.readArray a) := by
    have h2 : Quiet x ((x.setPreg Page.fuseView 0x108 (BitVec.ofNat 32 (Trust.corrected a))).setPreg Page.fuseView 0x10C
        (BitVec.ofNat 32 x.trust.badUnits.length)) := (quiet_setPreg _ _ _ _).trans (quiet_setPreg _ _ _ _)
    unfold readArray
    rw [← hx]
    dsimp only
    split
    · exact h2
    · exact h2.trans (quiet_record _ _ _)
  unfold Quiet at hq
  rw [hq, hx]

/-- Lost accumulators: no slot changes. -/
theorem forgetAcc_only : ∃ v, d.forgetAcc = { d with free := d.free + 1, stalls := v } ∧
    ∀ st sl, (d.forgetAcc).ctx st sl = d.ctx st sl := by
  refine ⟨_, rfl, fun st sl => ?_⟩
  have hp : ((d.forgetAcc).stall st).primary = (d.stall st).primary := by
    unfold forgetAcc drawFree stall
    simp
  have hq : ((d.forgetAcc).stall st).paddock = (d.stall st).paddock := by
    unfold forgetAcc drawFree stall
    simp
  cases sl with
  | primary => exact hp
  | paddock => exact hq

end

/-- The device as a warm reset leaves it before the array is read. -/
def rebooted (d : Device) (config link : Bool) : Device :=
  { d.fresh with
    ctr := { Reset.device.ctr with frame := d.ctr.frame, uptime := d.ctr.uptime, phase := d.ctr.phase }
    tick := { Reset.device.tick with refLost := d.tick.refLost }
    mc := Vector.ofFn fun (c : Fin 64) => { Reset.memCtl with mapoutPend := d.mc[c].mapoutPend }
    pcie := if config then { d.pcie with d3hot := false } else Reset.device.pcie
    msixTable := if config then d.msixTable else Reset.device.msixTable
    pba := if config then d.pba else Reset.device.pba
    pwr := { d.fresh.pwr with thermtrip := d.pwr.thermtrip }
    trust := { Reset.device.trust with repair := d.trust.repair, scanCleared := d.trust.scanCleared }
    boot := { Reset.device.boot with
      state := d.boot.state
      warmResets := min (d.boot.warmResets + 1) 0xFFFF
      m0 := if link then d.boot.m0 else Reset.device.boot.m0
      m1 := if link then d.boot.m1 else Reset.device.boot.m1
      rate := if link then d.boot.rate else Reset.device.boot.rate } }

theorem warmReset_eq (d : Device) (a : FuseArray) (config link : Bool) (hoff : d.boot.state ≠ .off) : ∃ v t o,
    d.warmReset a config link =
      (((({ d with ports := v, tally := t, out := o } : Device).rebooted config link).readArray a).forgetAcc).enterRomWait (some romTime) := by
  obtain ⟨v, t, o, hdown⟩ := d.foldl_sendDown_only (finList 8)
  refine ⟨v, t, o, ?_⟩
  unfold warmReset
  rw [if_neg hoff, hdown]
  rfl

/-- What a warm reset keeps of d. -/
theorem warmReset_spec (d : Device) (a : FuseArray) (config link : Bool) (hoff : d.boot.state ≠ .off) :
    ∃ e : Device, d.warmReset a config link = e ∧ e.boot.state = .romWait ∧ e.boot.window = true ∧ e.boot.timer = romTime ∧
      e.boot.warmResets = min (d.boot.warmResets + 1) 0xFFFF ∧ e.ctr.frame = d.ctr.frame ∧ e.ctr.uptime = d.ctr.uptime ∧
      (∀ st sl, e.ctx st sl = Reset.device.ctx st sl) ∧ e.ports = Reset.device.ports ∧ e.queues = Reset.device.queues ∧
      e.drovers = Reset.device.drovers ∧ e.forges = Reset.device.forges ∧ e.banks = Reset.device.banks ∧
      (∀ c : Chan, e.mc[c].mapoutPend = d.mc[c].mapoutPend) ∧ e.host = d.host ∧
      e.msixTable = (if config then d.msixTable else Reset.device.msixTable) ∧
      e.pcie = (if config then { d.pcie with d3hot := false } else Reset.device.pcie) ∧
      e.boot.m0 = (if link then d.boot.m0 else Reset.device.boot.m0) ∧ e.boot.m1 = (if link then d.boot.m1 else Reset.device.boot.m1) ∧
      e.boot.rate = (if link then d.boot.rate else Reset.device.boot.rate) := by
  obtain ⟨v, t, o, he⟩ := d.warmReset_eq a config link hoff
  obtain ⟨z, hz⟩ : ∃ z, z = ({ d with ports := v, tally := t, out := o } : Device).rebooted config link := ⟨_, rfl⟩
  rw [← hz] at he
  obtain ⟨f, hf, hfo⟩ := z.readArray_only a
  rw [hf] at he
  obtain ⟨w, hw, hctx⟩ := f.forgetAcc_only
  obtain ⟨h, hh⟩ : ∃ h, h = f.forgetAcc := ⟨_, rfl⟩
  rw [← hh] at he hw hctx
  obtain ⟨g, hg, hgo, -⟩ := h.enterRomWait_only (some romTime)
  refine ⟨g, he.trans hg, ?_⟩
  have hboot : g.boot = { z.boot with timer := romTime, fwRunning := false, state := .romWait, window := true } := by
    rw [hgo, hw, hfo]
    rfl
  have hslot (st : StallId) (sl : Slot) : g.ctx st sl = z.ctx st sl := by
    have h1 : g.ctx st sl = h.ctx st sl := by rw [hgo]; rfl
    have hs : f.stalls = z.stalls := by rw [hfo]
    have h2 : f.ctx st sl = z.ctx st sl := by
      unfold ctx stall
      rw [hs]
    rw [h1, hctx, h2]
  refine ⟨by rw [hboot], by rw [hboot], ?_, ?_, ?_, ?_, fun st sl => ?_, ?_, ?_, ?_, ?_, ?_, fun c => ?_, ?_, ?_, ?_, ?_, ?_, ?_⟩
  · have ht : g.boot.timer = ({ z.boot with timer := romTime, fwRunning := false, state := .romWait, window := true } : Boot).timer := by
      rw [hboot]
    exact ht
  · rw [hboot, hz]
    rfl
  · rw [hgo, hw, hfo, hz]
    rfl
  · rw [hgo, hw, hfo, hz]
    rfl
  · rw [hslot, hz]
    rfl
  · rw [hgo, hw, hfo, hz]
    rfl
  · rw [hgo, hw, hfo, hz]
    rfl
  · rw [hgo, hw, hfo, hz]
    rfl
  · rw [hgo, hw, hfo, hz]
    rfl
  · rw [hgo, hw, hfo, hz]
    rfl
  · have hmc : g.mc = z.mc := by rw [hgo, hw, hfo]
    rw [hmc, hz]
    simp [rebooted]
  · rw [hgo, hw, hfo, hz]
    rfl
  · rw [hgo, hw, hfo, hz]
    rfl
  · rw [hgo, hw, hfo, hz]
    rfl
  · rw [hboot, hz]
    rfl
  · rw [hboot, hz]
    rfl
  · rw [hboot, hz]
    rfl

end Device

/-- A warm reset of any kind. -/
theorem reset_spec (s : State) (i : Instr) (config link : Bool) (hexec : exec i s = .next (s.onDev fun d => d.warmReset s.array config link)) :
    (s.dev.boot.state ≠ .off → Completes i s fun t =>
        t.dev.boot.state = .romWait ∧ t.dev.boot.window = true ∧ t.dev.boot.timer = 600000000000 ∧
        t.dev.boot.warmResets = min (s.dev.boot.warmResets + 1) 0xFFFF ∧ t.dev.ctr.frame = s.dev.ctr.frame ∧
        t.dev.ctr.uptime = s.dev.ctr.uptime ∧ (∀ st sl, t.dev.ctx st sl = State.reset.dev.ctx st sl) ∧
        t.dev.ports = State.reset.dev.ports ∧ t.dev.queues = State.reset.dev.queues ∧
        t.dev.drovers = State.reset.dev.drovers ∧ t.dev.forges = State.reset.dev.forges ∧
        t.dev.banks = State.reset.dev.banks ∧ (∀ c : Chan, t.dev.mc[c].mapoutPend = s.dev.mc[c].mapoutPend) ∧
        t.dev.host = s.dev.host ∧ s.sameOutside t ∧
        t.dev.msixTable = (if config then s.dev.msixTable else State.reset.dev.msixTable) ∧
        t.dev.pcie = (if config then { s.dev.pcie with d3hot := false } else State.reset.dev.pcie) ∧
        (link = true → t.dev.boot.m0 = s.dev.boot.m0 ∧ t.dev.boot.m1 = s.dev.boot.m1 ∧ t.dev.boot.rate = s.dev.boot.rate) ∧
        (link = false → t.dev.boot.m0 = State.reset.dev.boot.m0 ∧ t.dev.boot.m1 = State.reset.dev.boot.m1 ∧
          t.dev.boot.rate = State.reset.dev.boot.rate)) ∧
      (s.dev.boot.state = .off → exec i s = .next s) := by
  refine ⟨fun hoff => ?_, fun hoff => ?_⟩
  · obtain ⟨e, he, h1, h2, h3, h4, h5, h6, h7, h8, h9, h10, h11, h12, h13, h14, h15, h16, h17, h18, h19⟩ :=
      s.dev.warmReset_spec s.array config link hoff
    refine ⟨_, hexec.trans (congrArg _ (congrArg (fun d => ({ s with dev := d } : State)) he)), h1, h2, h3, h4, h5, h6, h7, h8, h9, h10,
      h11, h12, h13, h14, ⟨rfl, rfl⟩, h15, h16, fun hl => ?_, fun hl => ?_⟩
    · rw [hl] at h17 h18 h19
      exact ⟨h17, h18, h19⟩
    · rw [hl] at h17 h18 h19
      exact ⟨h17, h18, h19⟩
  · have hid : s.dev.warmReset s.array config link = s.dev := if_pos hoff
    refine hexec.trans (congrArg _ ?_)
    exact congrArg (fun d => ({ s with dev := d } : State)) hid

/-- Settles O48: what reset leaves is read off it; every reset is one warm reset that keeps what its kind keeps. -/
theorem resets : Obligations.Resets := by
  unfold Obligations.Resets
  refine ⟨?_, fun s who => ⟨?_, ?_, ?_, ?_, fun key hkey => ?_⟩⟩
  · refine ⟨rfl, rfl, rfl, rfl, rfl, rfl, rfl, fun st m => ?_, fun st sl => ?_, fun p => ?_, fun q => ?_, fun y t => ?_, fun w => ?_,
      ?_, fun p o r hp hr => ?_⟩
    · have hm : State.reset.dev.mbx st m = Reset.mailbox := by simp [State.reset, Reset.device, Device.mbx, Device.stall, Reset.stall]
      rw [hm]
      decide
    · have hc : State.reset.dev.ctx st sl = Reset.slotCtx := by
        cases sl <;> simp [State.reset, Reset.device, Device.ctx, Device.stall, Reset.stall, Stall.ctx]
      rw [hc]
      rfl
    · have hp : State.reset.dev.ports[p] = Reset.port := by simp [State.reset, Reset.device]
      rw [hp]
      rfl
    · have hq : State.reset.dev.queues[q] = Reset.queue := by simp [State.reset, Reset.device]
      rw [hq]
      rfl
    · have ht : State.reset.dev.team y t = Reset.team := by simp [State.reset, Reset.device, Device.team, Reset.drover]
      rw [ht]
      rfl
    · have hw : State.reset.dev.banks[w] = Reset.bank := by simp [State.reset, Reset.device]
      rw [hw]
      rfl
    · exact ⟨List.Pairwise.nil, fun p hp => absurd hp (by simp [State.reset, Reset.device])⟩
    · have hreg : State.reset.dev.preg p o = regReset (p.reg o) := rfl
      rw [hreg, regReset, hp]
      dsimp only
      rw [show p.kind.row? (p.reg o % 0x1000) = some r from hr]
      rfl
  · exact reset_spec s _ true true rfl
  · exact reset_spec s _ false false rfl
  · exact reset_spec s _ false false rfl
  · exact reset_spec s _ true false rfl
  · refine (next_congr (fun d => d) ?_).trans rfl
    exact if_neg hkey

end Sys2Proof.Machine
end

section
/-! The fuse latches after the array is read (R517), power, and entry into verification (R459, R460, R466). -/

namespace Sys2Proof.Machine

theorem leNat_append (l m : List Byte) : leNat (l ++ m) = leNat l + 256 ^ l.length * leNat m := by
  induction l with
  | nil => simp [leNat]
  | cons b l ih =>
    rw [List.cons_append, leNat, leNat, ih, List.length_cons, pow_succ]
    ring

/-- Word u of words laid out one after another. -/
theorem word_of_flatMap (l : List Nat) (hl : ∀ x ∈ l, x < 2 ^ 32) (u : Nat) :
    leNat (l.flatMap fun x => leBytes 4 x) / 2 ^ (32 * u) % 2 ^ 32 = (l[u]?).getD 0 := by
  induction l generalizing u with
  | nil => simp [leNat]
  | cons x l ih =>
    have hx := hl x List.mem_cons_self
    have hcat : leNat ((x :: l).flatMap fun x => leBytes 4 x) = x + 2 ^ 32 * leNat (l.flatMap fun x => leBytes 4 x) := by
      rw [List.flatMap_cons, leNat_append, leNat_leBytes, length_leBytes, Nat.mod_eq_of_lt (by simpa using hx)]
      rfl
    rw [hcat]
    cases u with
    | zero =>
      rw [Nat.mul_zero, pow_zero, Nat.div_one, Nat.add_mul_mod_self_left, Nat.mod_eq_of_lt hx]
      rfl
    | succ u =>
      rw [show 32 * (u + 1) = 32 + 32 * u by ring, pow_add, ← Nat.div_div_eq_div_mul, Nat.add_mul_div_left _ _ (by decide),
        Nat.div_eq_of_lt hx, Nat.zero_add, ih (fun y hy => hl y (List.mem_cons_of_mem x hy)), List.getElem?_cons_succ]

/-- What unit u of the latches shows once the array has been read. -/
theorem unit_readFuses (t : Trust) (a : FuseArray) (u : Nat) (hu : u < 200) :
    (t.readFuses a).unit u = ((fuseDecode a u).map (·.1)).getD 0 := by
  obtain ⟨l, hl⟩ : ∃ l : List Nat, l = (List.range 200).map fun u => ((fuseDecode a u).map (·.1.toNat)).getD 0 := ⟨_, rfl⟩
  have hlen : l.length = 200 := by rw [hl, List.length_map, List.length_range]
  have hlt : ∀ x ∈ l, x < 2 ^ 32 := by
    intro x hx
    rw [hl] at hx
    obtain ⟨k, -, rfl⟩ := List.mem_map.mp hx
    cases fuseDecode a k with
    | none => decide
    | some r => exact r.1.isLt
  have hbytes : (((List.range 200).map fun u => fuseDecode a u).flatMap fun r => leBytes 4 ((r.map (·.1.toNat)).getD 0)) =
      l.flatMap fun x => leBytes 4 x := by
    rw [hl, List.flatMap_map, List.flatMap_map]
  have hbig : leNat (l.flatMap fun x => leBytes 4 x) < 2 ^ 8192 := by
    refine Nat.lt_of_lt_of_le (leNat_lt _) (Nat.pow_le_pow_right (by decide) ?_)
    rw [List.length_flatMap]
    have : (l.map fun x => (leBytes 4 x).length) = l.map fun _ => 4 := List.map_congr_left fun x _ => length_leBytes 4 x
    rw [this, List.map_const', List.sum_replicate, hlen]
    norm_num
  have hunit : (t.readFuses a).unit u = BitVec.ofNat 32 (field (BitVec.ofNat 8192 (leNat (l.flatMap fun x => leBytes 4 x))) (32 * u) 32) := by
    rw [← hbytes]
    rfl
  rw [hunit, field, BitVec.toNat_ofNat, Nat.mod_eq_of_lt hbig, Nat.shiftRight_eq_div_pow, word_of_flatMap l hlt u]
  have hg : l[u]? = some (((fuseDecode a u).map (·.1.toNat)).getD 0) := by
    rw [hl, List.getElem?_map, List.getElem?_range hu]
    rfl
  rw [hg]
  cases fuseDecode a u with
  | none => rfl
  | some r =>
    dsimp only [Option.map_some, Option.getD_some]
    rw [BitVec.ofNat_toNat, BitVec.setWidth_eq]

end Sys2Proof.Machine
end

section
/-! Power, entry into verification, the timer of ROM_WAIT, the host link and the gatehouse's SRAM (R455, R459, R460, R466, R539). -/

namespace Sys2Proof.Machine

section
variable {s : State}

/-- Power comes. -/
theorem powerGood_spec (hoff : s.dev.boot.state = .off) : Completes .powerGood s fun t =>
    t.dev.boot.state = .romWait ∧ t.dev.boot.window = true ∧ t.dev.boot.timer = 600000000000 ∧ t.dev.ctr.frame = 0 ∧
    t.dev.ctr.uptime = 0 ∧ t.dev.stalls = State.reset.dev.stalls ∧ t.dev.host = s.dev.host ∧ s.sameOutside t ∧
    ∀ u, u < 200 → t.dev.trust.unit u = ((fuseDecode s.array u).map (·.1)).getD 0 := by
  obtain ⟨x, hx⟩ : ∃ x, x = s.dev.fresh := ⟨_, rfl⟩
  obtain ⟨f, hf, hfo⟩ := x.readArray_only s.array
  obtain ⟨y, hy⟩ : ∃ y : Device, y = { f with
    trust := { f.trust with repair := f.trust.repairEntries }, boot := { f.boot with state := .off } } := ⟨_, rfl⟩
  obtain ⟨e, he, heo, htrust⟩ := y.enterRomWait_only (some Device.romTime)
  have hexec : exec .powerGood s = .next (s.onDev fun _ => e) := by
    refine next_congr (fun _ => e) ?_
    rw [if_neg (fun h => h hoff), ← hx, hf]
    dsimp only
    rw [← hy, he]
  have hboot : e.boot = { y.boot with timer := Device.romTime, fwRunning := false, state := .romWait, window := true } := by
    rw [heo]
    rfl
  have htimer : e.boot.timer = ({ y.boot with timer := Device.romTime, fwRunning := false, state := .romWait, window := true } : Boot).timer := by
    rw [hboot]
  refine ⟨_, hexec, ?_, ?_, htimer, ?_, ?_, ?_, ?_, ⟨rfl, rfl⟩, fun u hu => ?_⟩
  · rw [State.onDev_dev, hboot]
  · rw [State.onDev_dev, hboot]
  · rw [State.onDev_dev, heo, hy, hfo, hx]
    rfl
  · rw [State.onDev_dev, heo, hy, hfo, hx]
    rfl
  · rw [State.onDev_dev, heo, hy, hfo, hx]
    rfl
  · rw [State.onDev_dev, heo, hy, hfo, hx]
    rfl
  · have hlatch : e.trust.latch = (x.trust.readFuses s.array).latch := by
      have h1 : y.trust.deriveIdentity.latch = y.trust.latch := by
        unfold Trust.deriveIdentity
        split <;> rfl
      have h2 : e.trust.latch = y.trust.deriveIdentity.latch := by rw [htrust]
      have h3 : y.trust.latch = f.trust.latch := by rw [hy]
      have h4 : f.trust = x.trust.readFuses s.array := by rw [hfo]
      rw [h2, h1, h3, h4]
    have hunit : e.trust.unit u = (x.trust.readFuses s.array).unit u := by
      unfold Trust.unit
      rw [hlatch]
    rw [State.onDev_dev, hunit]
    exact unit_readFuses _ _ _ hu

/-- Power goes. -/
theorem powerRemoval_spec : Completes .powerRemoval s fun t => t.dev.boot.state = .off ∧ t.dev.boot.window = false ∧
    t.dev.ctr.frame = 0 ∧ t.dev.ctr.uptime = 0 ∧ t.dev.stalls = State.reset.dev.stalls ∧ t.dev.host = s.dev.host ∧
    s.sameOutside t := ⟨_, rfl, rfl, rfl, rfl, rfl, rfl, rfl, rfl, rfl⟩

/-- VERIFY. -/
theorem verify_spec (who : Requester) :
    (s.dev.boot.state = .romWait → Completes (.verify who) s fun t =>
      t.dev.boot = { s.dev.boot with state := .verify, window := false } ∧ t.dev.stalls = s.dev.stalls ∧ s.sameOutside t) ∧
    (s.dev.boot.state ≠ .romWait → s.dev.boot.state ≠ .off → Completes (.verify who) s fun t =>
      t.dev.boot = { s.dev.boot with result := Status.stateInvalid } ∧ t.dev.stalls = s.dev.stalls ∧ s.sameOutside t) := by
  refine ⟨fun hrom => ?_, fun hrom hoff => ?_⟩
  · have hx : s.dev.startVerify = s.dev.setState .verify := by
      unfold Device.startVerify
      rw [if_neg (by rw [hrom]; decide), if_pos hrom]
    refine ⟨_, next_congr (fun d => d.setState .verify) hx, ?_, ?_, rfl, rfl⟩
    · rw [State.onDev_dev, Device.setState_only]
      rfl
    · rw [State.onDev_dev, Device.setState_only]
  · have hx : s.dev.startVerify = s.dev.bootResult Status.stateInvalid := by
      unfold Device.startVerify
      rw [if_neg hoff, if_neg hrom]
    have hq := Device.quiet_eventCode ({ s.dev with boot := { s.dev.boot with result := Status.stateInvalid } } : Device) Page.gatehouse 1
      Status.stateInvalid
    refine ⟨_, next_congr (fun d => d.bootResult Status.stateInvalid) hx, ?_, ?_, rfl, rfl⟩
    · rw [State.onDev_dev]
      exact hq.boot
    · rw [State.onDev_dev]
      have hst := hq.stalls
      exact hst

/-- The timer of ROM_WAIT reaches 0. -/
theorem romTimerExpiry_spec (hrom : s.dev.boot.state = .romWait) (ht : s.dev.boot.timer = 0) :
    Completes .romTimerExpiry s (s.wentSafe Status.bootTimeout) := by
  have hx : (if (decide (s.dev.boot.state = .romWait) && decide (s.dev.boot.timer = 0)) = true then
      s.dev.enterSafe 2 Status.bootTimeout Page.gatehouse else s.dev) = s.dev.enterSafe 2 Status.bootTimeout Page.gatehouse :=
    if_pos (by rw [hrom, ht]; rfl)
  refine ⟨_, next_congr (fun _ => s.dev.enterSafe 2 Status.bootTimeout Page.gatehouse) hx, ?_⟩
  exact wentSafe_of_enterSafe ⟨by rw [hrom]; decide, by rw [hrom]; decide⟩ rfl (.refl _) rfl 2 _ _

/-- The host link trains. -/
theorem hostLinkUp_spec (m0 m1 : ModuleState) (rate : BitVec 4) :
    (s.dev.boot.state = .off ∨ linkOk m0 m1 rate = false → exec (.hostLinkUp m0 m1 rate) s = .next s) ∧
    (s.dev.boot.state ≠ .off → linkOk m0 m1 rate = true → Completes (.hostLinkUp m0 m1 rate) s fun t =>
      s.onlyTo t { s.dev with boot := { s.dev.boot with m0 := m0, m1 := m1, rate := rate } }) := by
  refine ⟨fun h => ?_, fun hoff hl => ?_⟩
  · have hbad : s.dev.boot.state = .off ∨ (!linkOk m0 m1 rate) = true := h.imp id fun h => by rw [h]; rfl
    have hid : (if s.dev.boot.state = .off ∨ (!linkOk m0 m1 rate) = true then s.dev
      else { s.dev with boot := { s.dev.boot with m0 := m0, m1 := m1, rate := rate } }) = s.dev := if_pos hbad
    exact (next_congr (fun d => d) hid).trans rfl
  · refine ⟨_, next_congr (fun d => { d with boot := { d.boot with m0 := m0, m1 := m1, rate := rate } }) (if_neg ?_), ⟨rfl, rfl⟩, rfl⟩
    rintro (h | h)
    · exact hoff h
    · rw [hl] at h
      exact absurd h (by decide)

/-- A module is lost. -/
theorem moduleFailure_spec :
    (Completes (.moduleFailure false) s fun t => s.onlyTo t { s.dev with
      boot := { s.dev.boot with m0 := Reset.moduleDown, rate := if s.dev.boot.m1.up = true then s.dev.boot.rate else 0 } }) ∧
    (Completes (.moduleFailure true) s fun t => s.onlyTo t { s.dev with
      boot := { s.dev.boot with m1 := Reset.moduleDown, rate := if s.dev.boot.m0.up = true then s.dev.boot.rate else 0 } }) := by
  refine ⟨⟨_, rfl, ⟨rfl, rfl⟩, ?_⟩, ⟨_, rfl, ⟨rfl, rfl⟩, ?_⟩⟩
  · rfl
  · rw [State.onDev_dev]
    simp [Reset.moduleDown]

/-- An uncorrectable word of the gatehouse's SRAM. -/
theorem gatehouseSram_spec (a : BitVec 24) (fw : Bool) (ha : s.alive) :
    ((fw && s.dev.boot.fwRunning) = false → (s.dev.preg Page.gatehouse 0x15C).toNat + 1 < 2 ^ 32 →
      Completes (.gatehouseSramUncorrected a fw) s fun t =>
        (t.dev.preg Page.gatehouse 0x15C).toNat = (s.dev.preg Page.gatehouse 0x15C).toNat + 1 ∧
        flag (t.dev.preg Page.gatehouse 0x028) 2 = true ∧ t.dev.boot = s.dev.boot ∧ s.sameMemory t) ∧
    ((fw && s.dev.boot.fwRunning) = true → Completes (.gatehouseSramUncorrected a fw) s (s.wentSafe Status.memEccUncorrected)) := by
  obtain ⟨x, hx⟩ : ∃ x, x = s.dev.bump Page.gatehouse 0x15C 1 := ⟨_, rfl⟩
  obtain ⟨y, hy⟩ : ∃ y, y = x.eventCode Page.gatehouse 2 Status.memEccUncorrected := ⟨_, rfl⟩
  have hq : Device.Quiet s.dev y := by
    rw [hy, hx]
    exact (Device.quiet_bump _ _ _ _).trans (Device.quiet_eventCode _ _ _ _)
  have hb : y.boot = s.dev.boot := hq.boot
  have hstep {z : Device} (hz : (if (fw && y.boot.fwRunning) = true then y.enterSafe 2 Status.memEccUncorrected Page.gatehouse else y) = z) :
      exec (.gatehouseSramUncorrected a fw) s = .next (s.onDev fun _ => z) := by
    refine next_congr (fun _ => z) ?_
    obtain ⟨hoff, -⟩ := ha
    rw [if_neg hoff, ← hx]
    dsimp only
    rw [← hy, hz]
  refine ⟨fun hf hlt => ?_, fun hf => ?_⟩
  · refine ⟨_, hstep (if_neg (by rw [hb, hf]; decide)), ?_, ?_, hb, hq.sameBytes.rdByte⟩
    · have h1 : y.preg Page.gatehouse 0x15C = x.preg Page.gatehouse 0x15C := by
        rw [hy]
        exact x.reg_eventCode_ne _ _ _ _ (Device.ne_reportReg _ (by decide))
      have h2 : x.preg Page.gatehouse 0x15C = BitVec.ofNat 32 ((s.dev.preg Page.gatehouse 0x15C).toNat + 1) := by
        rw [hx]
        unfold Device.bump
        dsimp only
        rw [if_pos hlt, Device.preg_setPreg_same]
      rw [State.onDev_dev, h1, h2, BitVec.toNat_ofNat, Nat.mod_eq_of_lt hlt]
    · rw [State.onDev_dev, hy]
      exact Device.flag_event _ _ 2 (by decide)
  · have hled : y.allLedgers = s.dev.allLedgers := by
      rw [hy, Device.allLedgers_eventCode, hx]
      refine Device.allLedgers_congr rfl rfl rfl fun st => s.dev.reg_setPreg_ne _ _ _ _ ?_
      intro h
      have := Page.reg_mod (Page.stall st) (o := 0xF00) (by decide)
      rw [h, Page.reg_mod _ (by decide)] at this
      exact absurd this (by decide)
    refine ⟨_, hstep (if_pos (by rw [hb]; exact hf)), ?_⟩
    exact wentSafe_of_enterSafe ha hb hq.sameBytes hled 2 _ _

end

end Sys2Proof.Machine
end

section
/-! The end of verification (R521, R522, R525) and entry into FW_INIT (R467). -/

namespace Sys2Proof.Machine

namespace Device

section
variable (d : Device)

theorem bootResult_only (c : Code) : ∃ e : Device, d.bootResult c = e ∧ e = { d with
    boot := { d.boot with result := c }, regs := e.regs, pba := e.pba, out := e.out } := by
  have hq := quiet_eventCode ({ d with boot := { d.boot with result := c } } : Device) Page.gatehouse 1 c
  exact ⟨_, rfl, hq⟩

/-- Back to ROM_WAIT with a result. -/
theorem romWait_result (c : Code) (time : Option Nat) : ∃ e : Device, (d.bootResult c).enterRomWait time = e ∧
    e.boot = { d.boot with result := c, timer := time.getD d.boot.timer, fwRunning := false, state := .romWait, window := true } := by
  obtain ⟨x, hx, hxo⟩ := d.bootResult_only c
  obtain ⟨e, he, heo, -⟩ := x.enterRomWait_only time
  refine ⟨e, by rw [hx, he], ?_⟩
  rw [heo, hxo]

/-- Entry into FW_INIT. -/
theorem enterFwInit_spec (a b : BitVec 16) : ∃ e : Device, d.enterFwInit a b = e ∧
    e.boot = { d.boot with
      fwRunning := true, fwVersion := BitVec.ofNat 32 (d.bundle 0x00C 4), fwMin := a, fwMax := b, state := .fwInit, window := false } ∧
    (∀ i, i ≠ 3 → vget e.trust.mr i 0 = vget d.trust.mr i 0) ∧
    ∀ k : Chan, e.mc[k].state = if (d.initLegal && (zhiVersion (BitVec.ofNat 16 (d.initField 4 2)) (BitVec.ofNat 16 (d.initField 6 2)) a b).isSome) &&
      d.mayTrain (BitVec.ofNat 64 (d.initField 8 8)) k then .training else d.mc[k].state := by
  obtain ⟨x, hx⟩ : ∃ x : Device, x = { d with
    boot := { d.boot with fwRunning := true, fwVersion := BitVec.ofNat 32 (d.bundle 0x00C 4), fwMin := a, fwMax := b }
    trust := { d.trust with mr := d.trust.mr.set 3 (Trust.digest (d.rdSram 0xC0_0000 (d.initField 0 4))) }
    mc := Vector.ofFn fun (c : Fin 64) => { d.mc[c] with
      state := if (d.initLegal && (zhiVersion (BitVec.ofNat 16 (d.initField 4 2)) (BitVec.ofNat 16 (d.initField 6 2)) a b).isSome) &&
        d.mayTrain (BitVec.ofNat 64 (d.initField 8 8)) c then .training else d.mc[c].state } } := ⟨_, rfl⟩
  have he : d.enterFwInit a b = x.setState .fwInit := by
    rw [hx]
    rfl
  have hs := x.setState_only .fwInit
  refine ⟨_, he, ?_, fun i hi => ?_, fun k => ?_⟩
  · rw [hs, hx]
    rfl
  · have ht : (x.setState .fwInit).trust = x.trust := by rw [hs]
    rw [ht, hx]
    unfold vget
    dsimp only
    rw [Vector.getElem?_set]
    exact congrArg (fun o => Option.getD o 0) (if_neg (Ne.symm hi))
  · have ht : (x.setState .fwInit).mc = x.mc := by rw [hs]
    rw [ht, hx]
    simp

/-- Bits before the first that stays 0. -/
theorem blow_of_none (bits stuck : List Nat) (h : ∀ i ∈ bits, i ∉ stuck) : blow bits stuck = bits := by
  refine List.takeWhile_eq_self_iff.mpr fun i hi => ?_
  simp [h i hi]

theorem length_blow_of_stuck (bits stuck : List Nat) (h : ∃ i ∈ bits, i ∈ stuck) : (blow bits stuck).length ≠ bits.length := by
  intro heq
  obtain ⟨i, hi, hs⟩ := h
  have hall := (List.takeWhile_prefix (l := bits) fun b => !stuck.contains b).eq_of_length heq
  have := List.takeWhile_eq_self_iff.mp hall i hi
  simp [hs] at this

end

end Device

section
variable {s : State}

/-- What verification leaves where it ends in FW_INIT. -/
def State.verified (s : State) (x : VerifyInput) (t : State) : Prop :=
  let len := (s.dev.preg Page.gatehouse 0x10C).toNat
  let excl : W64 := BitVec.ofNat 64 (s.dev.initField 8 8)
  let go := s.dev.initLegal &&
    (Device.zhiVersion (BitVec.ofNat 16 (s.dev.initField 4 2)) (BitVec.ofNat 16 (s.dev.initField 6 2)) x.fwMin x.fwMax).isSome
  (t.dev.boot.state = .fwInit ∧ t.dev.boot.result = Status.done) ∧ t.dev.boot.fwRunning = true ∧
    t.dev.boot.fwMin = x.fwMin ∧ t.dev.boot.fwMax = x.fwMax ∧
    (∀ k : Chan, t.dev.mc[k].state = if go && s.dev.mayTrain excl k then .training else s.dev.mc[k].state) ∧
    t.dev.boot.svn = BitVec.ofNat 8 s.dev.svn ∧ t.dev.boot.keySlot = BitVec.ofNat 2 s.dev.keySlot ∧
    vget t.dev.trust.mr 1 0 = Trust.digest (s.dev.rdSram 0 (len - 7856))

/-- The device after the fuse updates, where they ended with a result. -/
def fused (d : Device) (good : List Nat) (none : Bool) (result : Code) : Device :=
  let d := { d with trust := { d.trust with latch := Device.blown d.trust.latch good } }
  if none then d else ({ d with boot := { d.boot with fuseResult := result } }).eventCode Page.fuseView 1 result

theorem fused_only (d : Device) (good : List Nat) (none : Bool) (result : Code) : ∃ e : Device, fused d good none result = e ∧ e = { d with
    trust := { d.trust with latch := Device.blown d.trust.latch good }, regs := e.regs, pba := e.pba, out := e.out
    boot := { d.boot with fuseResult := if none then d.boot.fuseResult else result } } := by
  refine ⟨_, rfl, ?_⟩
  cases none with
  | true => rfl
  | false => exact Device.quiet_eventCode _ _ _ _

/-- The device after the measurements of a verified bundle. -/
def measured (d : Device) (array : FuseArray) (len : Nat) : Device :=
  { d with
    trust := { d.trust with
      mr := (d.trust.mr.set 1 (BitVec.ofNat 256 (leNat (d.bundleDigest len)))).set 2 (Trust.digest (leBytes 144 (field array 64 1152))) }
    boot := { d.boot with svn := BitVec.ofNat 8 d.svn, keySlot := BitVec.ofNat 2 d.keySlot } }

section
variable {x : VerifyInput} (hv : s.dev.boot.state = .verify)
include hv

/-- A bundle that is refused. -/
theorem verifyDone_refused (c : Code) (hc : s.dev.bundleCheck (s.dev.preg Page.gatehouse 0x10C).toNat = c) (hne : c ≠ Status.done) :
    exec (.verifyDone x) s = .next { s with dev := (s.dev.bootResult c).enterRomWait none } := by
  change execVerifyDone x s = _
  unfold execVerifyDone
  dsimp only
  rw [if_neg (fun h => h hv), hc, if_pos hne]

/-- A bundle that passes. -/
theorem verifyDone_passed (hc : s.dev.bundleCheck (s.dev.preg Page.gatehouse 0x10C).toNat = Status.done) (good : List Nat) (result : Code)
    (hgood : Device.blow (s.dev.fuseRequests s.array) x.stuckBits = good)
    (hresult : (if good.length = (s.dev.fuseRequests s.array).length then Status.done else Status.fuseWriteFail) = result) :
    exec (.verifyDone x) s = if result ≠ Status.done then .next { s with
        array := Device.blown s.array good
        dev := ((fused s.dev good (s.dev.fuseRequests s.array).isEmpty result).bootResult result).enterRomWait none }
      else .next { s with
        array := Device.blown s.array good
        dev := ((measured (fused s.dev good (s.dev.fuseRequests s.array).isEmpty result) (Device.blown s.array good)
          (s.dev.preg Page.gatehouse 0x10C).toNat).bootResult Status.done).enterFwInit x.fwMin x.fwMax } := by
  subst hgood hresult
  change execVerifyDone x s = _
  unfold execVerifyDone
  dsimp only
  rw [if_neg (fun h => h hv), hc, if_neg (fun h => h rfl)]
  rfl

end

end

end Sys2Proof.Machine
end

section
/-! Verification and firmware initialisation (R467, R468, R521, R525). -/

namespace Sys2Proof.Machine

section
variable {s : State}

/-- A verified bundle takes the device to FW_INIT. -/
theorem verified_of (x : VerifyInput) (array : FuseArray) (good : List Nat) (none : Bool) (result : Code) :
    ∃ e : Device, ((measured (fused s.dev good none result) array (s.dev.preg Page.gatehouse 0x10C).toNat).bootResult
        Status.done).enterFwInit x.fwMin x.fwMax = e ∧ (∀ a b, s.verified x ⟨a, b, e⟩) ∧
      e.boot.fuseResult = if none then s.dev.boot.fuseResult else result := by
  obtain ⟨len, hlen⟩ : ∃ n, (s.dev.preg Page.gatehouse 0x10C).toNat = n := ⟨_, rfl⟩
  obtain ⟨f, hf, hfo⟩ := fused_only s.dev good none result
  rw [hf, hlen]
  obtain ⟨y, hy⟩ : ∃ y, y = measured f array len := ⟨_, rfl⟩
  rw [← hy]
  obtain ⟨z, hz, hzo⟩ := y.bootResult_only Status.done
  obtain ⟨e, he, hboot, hmr, hmc⟩ := z.enterFwInit_spec x.fwMin x.fwMax
  have hsram : z.sram = s.dev.sram := by rw [hzo, hy]; exact (congrArg Device.sram hfo).trans rfl
  have hfsram : f.sram = s.dev.sram := by rw [hfo]
  have hzmc : z.mc = s.dev.mc := by rw [hzo, hy]; exact (congrArg Device.mc hfo).trans rfl
  have hrd (d : Device) (h : d.sram = s.dev.sram) (o n : Nat) : d.rdSram o n = s.dev.rdSram o n := by
    unfold Device.rdSram
    rw [h]
  have hinit (o n : Nat) : z.initField o n = s.dev.initField o n := by
    unfold Device.initField
    rw [hrd z hsram]
  have hlegal : z.initLegal = s.dev.initLegal := by
    unfold Device.initLegal
    simp only [hinit]
  have hmay (w : W64) (k : Chan) : z.mayTrain w k = s.dev.mayTrain w k := by
    unfold Device.mayTrain
    rw [hzmc]
  have hzb : z.boot = { f.boot with svn := BitVec.ofNat 8 f.svn, keySlot := BitVec.ofNat 2 f.keySlot, result := Status.done } := by
    rw [hzo, hy]
    rfl
  have hfb : f.boot = { s.dev.boot with fuseResult := if none then s.dev.boot.fuseResult else result } := by rw [hfo]
  have hsvn : f.svn = s.dev.svn := by
    unfold Device.svn Device.bundle
    rw [hrd f hfsram]
  have hslot : f.keySlot = s.dev.keySlot := by
    unfold Device.keySlot Device.bundle
    rw [hrd f hfsram]
  have hdigest : f.bundleDigest len = s.dev.bundleDigest len := by
    unfold Device.bundleDigest
    rw [hrd f hfsram]
  refine ⟨e, by rw [hz, he], fun a b => ?_, ?_⟩
  · unfold State.verified
    dsimp only
    rw [hlen]
    refine ⟨⟨by rw [hboot], by rw [hboot, hzb]⟩, by rw [hboot], by rw [hboot], by rw [hboot], fun k => ?_, ?_, ?_, ?_⟩
    · rw [hmc, hlegal, hmay, hinit, hinit, hinit, hzmc]
    · rw [hboot, hzb, hsvn]
    · rw [hboot, hzb, hslot]
    · have ht : z.trust = y.trust := by rw [hzo]
      have hone : vget y.trust.mr 1 0 = BitVec.ofNat 256 (leNat (f.bundleDigest len)) := by
        rw [hy]
        unfold measured vget
        simp
      rw [hmr 1 (by decide), ht, hone, hdigest]
      rfl
  · rw [hboot, hzb, hfb]

/-- Where every asked bit can be blown, or none is asked for. -/
theorem verifyDone_spec (x : VerifyInput) (hv : s.dev.boot.state = .verify) :
    let len := (s.dev.preg Page.gatehouse 0x10C).toNat
    let asked := s.dev.fuseRequests s.array
    (∀ c, s.dev.bundleCheck len = c → c ≠ Status.done → Completes (.verifyDone x) s fun t =>
      (t.dev.boot.state = .romWait ∧ t.dev.boot.result = c) ∧ t.dev.boot.timer = s.dev.boot.timer ∧ t.array = s.array ∧
        t.pending = s.pending) ∧
    (s.dev.bundleCheck len = Status.done →
      (asked = [] → Completes (.verifyDone x) s fun t => s.verified x t ∧ t.array = s.array) ∧
      (asked ≠ [] → (∀ i ∈ asked, i ∉ x.stuckBits) → Completes (.verifyDone x) s fun t => s.verified x t ∧
        t.dev.boot.fuseResult = Status.done ∧ ∀ i, i < 8192 → flag t.array i = (flag s.array i || decide (i ∈ asked))) ∧
      ((∃ i ∈ asked, i ∈ x.stuckBits) → Completes (.verifyDone x) s fun t =>
        (t.dev.boot.state = .romWait ∧ t.dev.boot.result = Status.fuseWriteFail) ∧ t.dev.boot.fuseResult = Status.fuseWriteFail ∧
        ∀ i, flag s.array i = true → flag t.array i = true)) := by
  intro len asked
  refine ⟨fun c hc hne => ?_, fun hdone => ⟨fun hnil => ?_, fun hne hok => ?_, fun hstuck => ?_⟩⟩
  · obtain ⟨e, he, hb⟩ := s.dev.romWait_result c none
    refine ⟨_, verifyDone_refused hv c hc hne, ?_⟩
    rw [he]
    exact ⟨⟨by rw [hb], by rw [hb]⟩, by rw [hb]; rfl, rfl, rfl⟩
  · have hgood : Device.blow asked x.stuckBits = [] := by rw [hnil]; rfl
    have hx := verifyDone_passed (x := x) hv hdone [] Status.done hgood (if_pos (by rw [show s.dev.fuseRequests s.array = [] from hnil]))
    rw [if_neg (fun h => h rfl)] at hx
    obtain ⟨e, he, hver, -⟩ := verified_of (s := s) x (Device.blown s.array []) [] (s.dev.fuseRequests s.array).isEmpty Status.done
    rw [he] at hx
    exact ⟨_, hx, hver _ _, rfl⟩
  · have hgood := Device.blow_of_none asked x.stuckBits hok
    have hx := verifyDone_passed (x := x) hv hdone asked Status.done hgood (if_pos rfl)
    rw [if_neg (fun h => h rfl)] at hx
    have hsome : (s.dev.fuseRequests s.array).isEmpty = false := by
      rw [← Bool.not_eq_true, List.isEmpty_iff]
      exact hne
    obtain ⟨e, he, hver, hres⟩ := verified_of (s := s) x (Device.blown s.array asked) asked (s.dev.fuseRequests s.array).isEmpty Status.done
    rw [he] at hx
    rw [hsome] at hres
    refine ⟨_, hx, hver _ _, hres, fun i hi => ?_⟩
    rw [flag_blown, decide_eq_true hi, Bool.true_and]
  · obtain ⟨good, hgood⟩ : ∃ g, Device.blow asked x.stuckBits = g := ⟨_, rfl⟩
    have hlen := Device.length_blow_of_stuck asked x.stuckBits hstuck
    rw [hgood] at hlen
    have hx := verifyDone_passed (x := x) hv hdone good Status.fuseWriteFail hgood (if_neg hlen)
    rw [if_pos (by decide)] at hx
    have hsome : (s.dev.fuseRequests s.array).isEmpty = false := by
      rw [← Bool.not_eq_true, List.isEmpty_iff]
      rintro hnil
      obtain ⟨i, hi, -⟩ := hstuck
      rw [show asked = [] from hnil] at hi
      exact absurd hi (by simp)
    rw [hsome] at hx
    obtain ⟨f, hf, hfo⟩ := fused_only s.dev good false Status.fuseWriteFail
    rw [hf] at hx
    obtain ⟨e, he, hb⟩ := f.romWait_result Status.fuseWriteFail none
    rw [he] at hx
    refine ⟨_, hx, ⟨by rw [hb], by rw [hb]⟩, ?_, fun i hi => ?_⟩
    · have hfb : f.boot.fuseResult = Status.fuseWriteFail := by rw [hfo]; rfl
      rw [hb]
      exact hfb
    · rw [flag_blown, hi]
      rfl

end

end Sys2Proof.Machine
end

section
/-! Firmware initialisation (R467), and start-up as a whole. -/

namespace Sys2Proof.Machine

namespace Device

section
variable (d : Device)

theorem boot_stopYard (y : Yard) : (d.stopYard y).boot = d.boot := by rw [stopYard_only]

theorem boot_haltMangers : d.haltMangers.boot = d.boot := by
  obtain ⟨v, h, -⟩ := d.haltMangers_eq
  rw [h]

theorem boot_stopAll (k : Nat) : (d.stopAll k).boot = d.boot := by
  have h1 : Managed (loseLedgers k d) ((finList 384).foldl (stopStall k) (loseLedgers k d)) :=
    Managed.foldl (fun e st => e.managed_stopStall k st) _ _
  obtain ⟨m, hm⟩ := d.loseLedgers_only k
  unfold stopAll
  generalize (finList 384).foldl (stopStall k) (loseLedgers k d) = x at h1
  have hy : ((finList 2).foldl stopYard x.haltMangers).boot = x.haltMangers.boot :=
    foldl_keeps (p := boot) boot_stopYard _ _
  rw [hy, boot_haltMangers, h1.boot, hm]

theorem Outer.boot_eq {d e : Device} (h : Outer d e) : e.boot = d.boot := by rw [h.1]

/-- The start-up state that SAFE leaves, from the stopped device. -/
theorem boot_of_closed (code : Code) (alive : Bool) {e : Device} (he : Outer ((d.closed code alive).setState .safe) e) :
    e.boot = { d.boot with safeCause := code, diag := alive, state := .safe, window := false } := by
  have hb : (d.closed code alive).boot = { d.boot with safeCause := code, diag := alive } := rfl
  generalize d.closed code alive = x at he hb
  have hs := x.setState_only .safe
  generalize x.setState .safe = y at he hs
  have h : e.boot = y.boot := by rw [he.1]
  have hy : y.boot = { x.boot with state := .safe, window := false } := by
    rw [hs]
    rfl
  rw [h, hy, hb]

/-- Of the start-up state, entry into SAFE changes the state and its cause. -/
theorem boot_enterSafe (domain : Nat) (code : Code) (page : Page) (hoff : d.boot.state ≠ .off) (hsafe : d.boot.state ≠ .safe) :
    ∃ alive, (d.enterSafe domain code page).boot = { d.boot with safeCause := code, diag := alive, state := .safe, window := false } := by
  obtain ⟨e, he⟩ : ∃ e, d.enterSafe domain code page = e := ⟨_, rfl⟩
  rw [he]
  obtain ⟨t, ht⟩ := d.logSafe_only domain code page
  unfold enterSafe at he
  rw [if_neg hoff] at he
  rw [ht] at he
  extract_lets d1 d2 stop alive src d3 at he
  rw [if_neg hsafe] at he
  split at he
  next k d4 h4 =>
  extract_lets +lift d5 d6 d7 d8 boot8 trust8 bist8 pwr8 d9 d10 at he
  have hd4 : d4 = { d3 with free := d3.free + 1 } := (congrArg Prod.snd h4).symm
  have h12 : Outer d1 d2 := d1.outer_record Page.gatehouse code
  have h34 : Outer d3 d4 := by
    rw [hd4]
    exact ⟨rfl, .of_regs rfl⟩
  have h04 : Outer d d4 := Outer.trans (e := d1) ⟨rfl, .of_regs rfl⟩ (h12.trans (Outer.trans (e := d3) ⟨rfl, .of_regs rfl⟩ h34))
  have h4b : d4.boot = d.boot := h04.boot_eq
  have h6b : d6.boot = d.boot := (d4.boot_stopAll k).trans h4b
  have h68 : Outer d6 d8 := (d6.outer_foldl_leavePort _ _ _ _).trans (Outer.foldl (fun e q => e.outer_abortQueue q code) _ d7)
  have h8b : d8.boot = d.boot := h68.boot_eq.trans h6b
  have hend : Outer d10 e := by
    rw [← he]
    split
    · exact .refl d10
    · exact d10.outer_failPending
  refine ⟨alive, ?_⟩
  have hb := d8.boot_of_closed code alive hend
  rw [h8b] at hb
  exact hb

end

end Device

end Sys2Proof.Machine
end

section
/-! Firmware initialisation (R467), and start-up as a whole. -/

namespace Sys2Proof.Machine

/-- The channels of a yard that FW_INIT trains. -/
def Device.trainsIn (d : Device) (excl : W64) (rates : List (BitVec 2)) (y : Nat) : Nat :=
  (finList 64).countP fun k : Chan => k.val / 32 = y && d.mayTrain excl k && ((rates[k.val]?).getD 3) ≠ 3

namespace Device

section
variable (d : Device)

/-- The placement of channels, and what it leaves of the rest. -/
theorem placeMemory_only (excl : W64) (cap : Nat) (rates : List (BitVec 2)) : ∃ e : Device, d.placeMemory excl cap rates = e ∧
    e = { d with mc := e.mc, boot := { d.boot with
      trained := d.trainsIn excl rates 0 + d.trainsIn excl rates 1
      memSplit := d.trainsIn excl rates 0 * (20 * 2 ^ 30)
      memCapacity := (d.trainsIn excl rates 0 + d.trainsIn excl rates 1) * (20 * 2 ^ 30) } } ∧
    ∀ y : Yard, (e.channels y).length = d.trainsIn excl rates y.val := by
  have hcount (y : Nat) : ((finList 64).filter fun k : Chan => decide (k.val / 32 = y) &&
      (d.mayTrain excl k && decide (((rates[k.val]?).getD 3) ≠ 3))).length = d.trainsIn excl rates y := by
    rw [← List.countP_eq_length_filter]
    unfold trainsIn
    refine List.countP_congr fun k _ => ?_
    rw [Bool.and_assoc]
  refine ⟨_, rfl, ?_, fun y => ?_⟩
  · unfold placeMemory
    dsimp only
    rw [hcount 0, hcount 1]
  · unfold channels
    rw [← hcount y.val]
    refine congrArg List.length (List.filter_congr fun c _ => ?_)
    have hidx : ((d.placeMemory excl cap rates).mc[c].serviceIdx != 0xFF) = (d.mayTrain excl c && decide (((rates[c.val]?).getD 3) ≠ 3)) := by
      unfold placeMemory
      simp only [Fin.getElem_fin, Vector.getElem_ofFn, Fin.eta]
      by_cases ht : (d.mayTrain excl c && decide (((rates[c.val]?).getD 3) ≠ 3)) = true
      · rw [if_pos ht, ht]
        have hlt : ((finList 64).filter fun k : Chan => decide (k.val / 32 = c.val / 32) && decide (k.val < c.val) &&
            (d.mayTrain excl k && decide (((rates[k.val]?).getD 3) ≠ 3))).length ≤ 64 := by
          refine (List.length_filter_le _ _).trans ?_
          unfold finList
          rw [List.length_finRange]
        rw [bne_iff_ne]
        dsimp only
        intro heq
        have := congrArg BitVec.toNat heq
        rw [BitVec.toNat_ofNat, Nat.mod_eq_of_lt (by omega)] at this
        change _ = 255 at this
        omega
      · rw [if_neg ht]
        rw [Bool.not_eq_true] at ht
        rw [ht]
        rfl
    rw [hidx]

end

end Device

section
variable {s : State}

theorem mayTrain_congr {d e : Device} (h : e.mc = d.mc) (w : W64) (r : List (BitVec 2)) (y : Nat) :
    e.trainsIn w r y = d.trainsIn w r y := by
  unfold Device.trainsIn Device.mayTrain
  rw [h]

/-- Steps 4 to 7. -/
theorem initTake_spec (d : Device) (x : FwInitInput) (v : BitVec 16) (cap : Nat) (excl : W64) (allow : List (BitVec 256))
    (hstate : d.boot.state = .fwInit) :
    (16 ≤ d.trainsIn excl x.trained 0 → 16 ≤ d.trainsIn excl x.trained 1 → ∃ e, d.initTake x v cap excl allow = e ∧
      (e.boot.state = .ready ∧ e.boot.result = Status.done) ∧ e.boot.zhiVer = v ∧
      e.boot.memSplit = d.trainsIn excl x.trained 0 * (20 * 2 ^ 30) ∧
      e.boot.memCapacity = (d.trainsIn excl x.trained 0 + d.trainsIn excl x.trained 1) * (20 * 2 ^ 30)) ∧
    (d.trainsIn excl x.trained 0 < 16 ∨ d.trainsIn excl x.trained 1 < 16 → ∃ e, d.initTake x v cap excl allow = e ∧
      e.boot.state = .safe ∧ e.boot.safeCause = Status.memChannelOffline ∧ e.boot.memSplit = 0 ∧ e.boot.memCapacity = 0) := by
  obtain ⟨a, ha⟩ : ∃ a : Device, a = { d with boot := { d.boot with zhiVer := v, allow := allow } } := ⟨_, rfl⟩
  obtain ⟨b, hb, hbo, hch⟩ := a.placeMemory_only excl cap x.trained
  have hmc : a.mc = d.mc := by rw [ha]
  simp only [mayTrain_congr hmc] at hbo hch
  have hboot : b.boot = { d.boot with
      zhiVer := v
      allow := allow
      trained := d.trainsIn excl x.trained 0 + d.trainsIn excl x.trained 1
      memSplit := d.trainsIn excl x.trained 0 * (20 * 2 ^ 30)
      memCapacity := (d.trainsIn excl x.trained 0 + d.trainsIn excl x.trained 1) * (20 * 2 ^ 30) } := by
    rw [hbo, ha]
  have hinit {z : Device} (hz : (if (b.channels 0).length < 16 ∨ (b.channels 1).length < 16 then
        ({ b with boot := { b.boot with memSplit := 0, memCapacity := 0 } } : Device).enterSafe 2 Status.memChannelOffline Page.gatehouse
      else (({ b with boot := { b.boot with readyFrame := b.now } } : Device).setState .ready).bootResult Status.done) = z) :
      d.initTake x v cap excl allow = z := by
    have h : d.initTake x v cap excl allow = (fun b : Device => if (b.channels 0).length < 16 ∨ (b.channels 1).length < 16 then
        ({ b with boot := { b.boot with memSplit := 0, memCapacity := 0 } } : Device).enterSafe 2 Status.memChannelOffline Page.gatehouse
      else (({ b with boot := { b.boot with readyFrame := b.now } } : Device).setState .ready).bootResult Status.done)
        (({ d with boot := { d.boot with zhiVer := v, allow := allow } } : Device).placeMemory excl cap x.trained) := rfl
    rw [h, ← ha, hb]
    exact hz
  rw [hch 0, hch 1] at hinit
  refine ⟨fun h0 h1 => ?_, fun h => ?_⟩
  · obtain ⟨y, hy⟩ : ∃ y : Device, y = { b with boot := { b.boot with readyFrame := b.now } } := ⟨_, rfl⟩
    have hs := y.setState_only .ready
    rw [← hy] at hinit
    generalize y.setState .ready = w at hs hinit
    obtain ⟨e, he, heo⟩ := w.bootResult_only Status.done
    refine ⟨e, hinit ?_, ?_⟩
    · rw [if_neg ?_, he]
      rintro (h | h)
      · exact absurd h0 (Nat.not_le.mpr h)
      · exact absurd h1 (Nat.not_le.mpr h)
    · have hwb : w.boot = { y.boot with state := .ready, window := false } := by
        rw [hs]
        rfl
      have heb : e.boot = { w.boot with result := Status.done } := by rw [heo]
      rw [heb, hwb, hy, hboot]
      exact ⟨⟨rfl, rfl⟩, rfl, rfl, rfl⟩
  · obtain ⟨y, hy⟩ : ∃ y : Device, y = { b with boot := { b.boot with memSplit := 0, memCapacity := 0 } } := ⟨_, rfl⟩
    rw [← hy] at hinit
    have hys : y.boot.state = .fwInit := by
      rw [hy, hboot]
      exact hstate
    obtain ⟨alive, hsafe⟩ := y.boot_enterSafe 2 Status.memChannelOffline Page.gatehouse (by rw [hys]; decide) (by rw [hys]; decide)
    generalize y.enterSafe 2 Status.memChannelOffline Page.gatehouse = e at hsafe hinit
    refine ⟨e, hinit (if_pos h), ?_⟩
    rw [hsafe, hy]
    exact ⟨rfl, rfl, rfl, rfl⟩

/-- The end of FW_INIT. -/
theorem fwInitDone_spec (x : FwInitInput) (hstate : s.dev.boot.state = .fwInit) :
    let excl : W64 := BitVec.ofNat 64 (s.dev.initField 8 8)
    let trains := s.dev.trainsIn excl x.trained
    (s.dev.initLegal = false → Completes (.fwInitDone x) s fun t =>
      (t.dev.boot.state = .romWait ∧ t.dev.boot.result = Status.initBlockInvalid) ∧ s.sameOutside t) ∧
    (s.dev.initLegal = true → s.dev.initVersion = none → Completes (.fwInitDone x) s fun t =>
      (t.dev.boot.state = .romWait ∧ t.dev.boot.result = Status.zhiVersion) ∧ s.sameOutside t) ∧
    ∀ v, s.dev.initLegal = true → s.dev.initVersion = some v →
      (16 ≤ trains 0 → 16 ≤ trains 1 → Completes (.fwInitDone x) s fun t =>
        (t.dev.boot.state = .ready ∧ t.dev.boot.result = Status.done) ∧
        t.dev.boot.zhiVer = v ∧ t.dev.boot.memSplit = trains 0 * (20 * 2 ^ 30) ∧
        t.dev.boot.memCapacity = (trains 0 + trains 1) * (20 * 2 ^ 30) ∧ s.sameOutside t) ∧
      (trains 0 < 16 ∨ trains 1 < 16 → Completes (.fwInitDone x) s fun t =>
        t.dev.boot.state = .safe ∧ t.dev.boot.safeCause = Status.memChannelOffline ∧ t.dev.boot.memSplit = 0 ∧
        t.dev.boot.memCapacity = 0 ∧ s.sameOutside t) := by
  intro excl trains
  have hexec {e : Device} (he : s.dev.fwInit x = e) : exec (.fwInitDone x) s = .next (s.onDev fun _ => e) :=
    next_congr (fun _ => e) ((if_pos hstate).trans he)
  have hfail (c : Code) (h : s.dev.fwInit x = s.dev.initFailed c) : Completes (.fwInitDone x) s fun t =>
      (t.dev.boot.state = .romWait ∧ t.dev.boot.result = c) ∧ s.sameOutside t := by
    obtain ⟨e, he, hb⟩ := s.dev.romWait_result c (some Device.romTime)
    refine ⟨_, hexec (h.trans he), ⟨?_, ?_⟩, rfl, rfl⟩
    · rw [State.onDev_dev, hb]
    · rw [State.onDev_dev, hb]
  refine ⟨fun hl => hfail _ ?_, fun hl hn => hfail _ ?_, fun v hl hv => ?_⟩
  · unfold Device.fwInit
    rw [if_neg (by rw [hl]; decide)]
  · unfold Device.fwInit
    rw [if_pos hl, hn]
  · have hfw : s.dev.fwInit x = s.dev.initTake x v (s.dev.initField 0x10 1) excl s.dev.initAllow := by
      unfold Device.fwInit
      rw [if_pos hl, hv]
    obtain ⟨hready, hsafe⟩ := initTake_spec s.dev x v (s.dev.initField 0x10 1) excl s.dev.initAllow hstate
    refine ⟨fun h0 h1 => ?_, fun h => ?_⟩
    · obtain ⟨e, he, hst, hz, hm, hc⟩ := hready h0 h1
      exact ⟨_, hexec (hfw.trans he), hst, hz, hm, hc, rfl, rfl⟩
    · obtain ⟨e, he, hst, hz, hm, hc⟩ := hsafe h
      exact ⟨_, hexec (hfw.trans he), hst, hz, hm, hc, rfl, rfl⟩

/-- Settles O47, a command of start-up at a time; verification's end by the outcome of its checks and of the bits that it blows. -/
theorem startUp : Obligations.StartUp := by
  unfold Obligations.StartUp
  intro s b at_
  refine ⟨powerGood_spec, fun hoff => ?_, powerRemoval_spec, verify_spec, fun x hv => ?_, fun x hs => fwInitDone_spec x hs, romTimerExpiry_spec,
    fun m0 m1 rate => (hostLinkUp_spec m0 m1 rate).1, fun m0 m1 rate => (hostLinkUp_spec m0 m1 rate).2, moduleFailure_spec.1,
    moduleFailure_spec.2, fun a fw ha => gatehouseSram_spec a fw ha⟩
  · change s.dev.boot.state ≠ .off at hoff
    have hexec : exec .powerGood s = .next (s.onDev fun d => d) := by
      refine next_congr (fun d => d) ?_
      rw [if_pos hoff]
    exact hexec.trans rfl
  · exact verifyDone_spec x hv

end

end Sys2Proof.Machine
end

section
/-! What entry into SAFE puts out: MSI-X messages and flits alone (R458, R541). -/

namespace Sys2Proof.Machine

namespace Device

/-- e has put out MSI-X messages and flits alone. -/
def SentOnly (d e : Device) : Prop := e.out = { d.out with
    msix := e.out.msix, wire := e.out.wire, wireBytes := e.out.wireBytes, wireLanes := e.out.wireLanes }

namespace SentOnly

theorem of_out {d e : Device} (h : e.out = d.out) : SentOnly d e := by
  rw [SentOnly, h]

theorem refl (d : Device) : SentOnly d d := .of_out rfl

theorem trans {d e f : Device} (h : SentOnly d e) (k : SentOnly e f) : SentOnly d f := by
  rw [SentOnly] at h k ⊢
  rw [k, h]

theorem nack {d e : Device} (h : SentOnly d e) : e.out.nack = d.out.nack := by rw [h]

theorem foldl {α : Type} {f : Device → α → Device} (hf : ∀ d x, SentOnly d (f d x)) (l : List α) (d : Device) :
    SentOnly d (l.foldl f d) := by
  induction l generalizing d with
  | nil => exact refl d
  | cons x l ih => exact (hf d x).trans (ih _)

end SentOnly

section
variable (d : Device)

theorem sentOnly_msix (v : Fin 64) : SentOnly d (d.msix v) := by
  unfold msix
  split
  · exact .of_out rfl
  · rfl

theorem sentOnly_event (p : Page) (i : Nat) : SentOnly d (d.event p i) := by
  unfold event
  split
  · exact .refl d
  · dsimp only
    split
    · exact SentOnly.trans (.of_out rfl) (sentOnly_msix _ 0)
    · exact .of_out rfl

theorem sentOnly_setPreg (p : Page) (o : Nat) (v : W32) : SentOnly d (d.setPreg p o v) := .of_out rfl

theorem sentOnly_record (p : Page) (c : Code) : SentOnly d (d.record p c) := by
  unfold record recordBits
  extract_lets n old fresh e x y
  have he : SentOnly d e := d.sentOnly_setPreg p _ _
  have hy : SentOnly d y := by
    dsimp only [y]
    split
    · exact ((he.trans (sentOnly_setPreg _ p _ _)).trans (sentOnly_setPreg _ p _ _)).trans (sentOnly_setPreg _ p _ _)
    · exact he
  split
  · exact .refl d
  · split
    · exact hy
    · exact hy.trans (sentOnly_event _ p 0)

theorem sentOnly_eventCode (p : Page) (i : Nat) (c : Code) : SentOnly d (d.eventCode p i c) :=
  (d.sentOnly_record p c).trans (sentOnly_event _ p i)

theorem sentOnly_bump (p : Page) (o n : Nat) : SentOnly d (d.bump p o n) := .of_out rfl

theorem sentOnly_sendDown (p : PortId) (c : Nat) : SentOnly d (d.sendDown p c) := by
  unfold sendDown
  extract_lets q w r
  split
  · rfl
  · exact .refl d

theorem sentOnly_logFence (p : PortId) (c : Code) : SentOnly d (d.logFence p c) := .of_out rfl

theorem sentOnly_leavePort (p : PortId) (new : PortState) (detail : Nat) (code : Code) :
    SentOnly d (d.leavePort p new detail code) := by
  unfold leavePort
  extract_lets q page d1 d2 d3 d4 d5 d6
  have h1 : SentOnly d d1 := by
    dsimp only [d1]
    split
    · exact d.sentOnly_sendDown p detail
    · exact .refl d
  have h2 : SentOnly d d2 := h1.trans (.of_out rfl)
  have h3 : SentOnly d d3 := (h2.trans (sentOnly_record _ page code)).trans (sentOnly_event _ page 1)
  have h4 : SentOnly d d4 := by
    dsimp only [d4]
    split
    · exact h3.trans (sentOnly_logFence _ p _)
    · exact h3
  have h5 : SentOnly d d5 := by
    dsimp only [d5]
    split
    · exact (h4.trans (sentOnly_bump _ page _ _)).trans (sentOnly_event _ page 3)
    · exact h4
  have h6 : SentOnly d d6 := by
    dsimp only [d6]
    split
    · exact h5.trans (sentOnly_logFence _ p _)
    · exact h5
  split
  · exact h6.trans (sentOnly_event _ page 4)
  · exact h6

theorem sentOnly_wrHost (a : Nat) (l : List Byte) : SentOnly d (d.wrHost a l) := by
  induction l generalizing d a with
  | nil => exact .refl d
  | cons b l ih => exact SentOnly.trans (e := { d with host := _, hostBad := _ }) (.of_out rfl) (ih _ _)

theorem sentOnly_writeCompletion (q : QueueId) (c : Completion) : SentOnly d (d.writeCompletion q c) := by
  unfold writeCompletion
  extract_lets h w0 x next y z v
  have hz : SentOnly d z := (d.sentOnly_wrHost _ _).trans (.of_out rfl)
  split
  · exact hz
  · exact hz.trans (sentOnly_msix z v)

theorem sentOnly_completeCmd (q : QueueId) (cid : BitVec 16) (code : Code) (r : W64) : SentOnly d (d.completeCmd q cid code r) := by
  unfold completeCmd
  extract_lets c h
  split
  · exact d.sentOnly_writeCompletion q c
  · exact .of_out rfl

theorem sentOnly_finishCmd (q : QueueId) (p : HostCmd → Bool) (code : Code) (r : W64) : SentOnly d (d.finishCmd q p code r) := by
  unfold finishCmd
  split
  · exact .refl d
  · exact SentOnly.trans (.of_out rfl) (sentOnly_completeCmd _ q _ code r)

theorem sentOnly_passSkipped (q : QueueId) (n : Nat) : SentOnly d (d.passSkipped q n) := by
  induction n generalizing d with
  | zero => exact .refl d
  | succ n ih =>
    rw [passSkipped]
    split
    · exact SentOnly.trans (.of_out rfl) (ih _)
    · exact .refl d

theorem sentOnly_modQueue (q : QueueId) (f : HostQueue → HostQueue) : SentOnly d (d.modQueue q f) := .of_out rfl

theorem sentOnly_abortSubmitted (q : QueueId) (pos : Nat) (r : W64) : SentOnly d (d.abortSubmitted q pos r) :=
  ((d.sentOnly_modQueue q _).trans (sentOnly_passSkipped _ q _)).trans (sentOnly_completeCmd _ q _ _ r)

theorem sentOnly_abortQueue (q : QueueId) (cause : Code) : SentOnly d (d.abortQueue q cause) :=
  (SentOnly.foldl (fun e _ => e.sentOnly_finishCmd q _ _ _) _ d).trans (SentOnly.foldl (fun e p => e.sentOnly_abortSubmitted q p _) _ _)

theorem sentOnly_endTxn (w : Fin 2) (s : TxnState) (c : Code) (p o : W32) : SentOnly d (d.endTxn w s c p o) :=
  ((show SentOnly d (d.modBank w _) from .of_out rfl).trans (sentOnly_bump _ _ _ _)).trans (sentOnly_eventCode _ _ _ _)

theorem sentOnly_failPending : SentOnly d d.failPending := by
  refine SentOnly.foldl (fun e w => ?_) _ d
  split
  · unfold failSafe
    split
    · exact e.sentOnly_endTxn w _ _ _ _
    · exact .refl e
  · exact .refl e

theorem sentOnly_setState (s : DevState) : SentOnly d (d.setState s) := by
  have hr : (d.restated s).out = d.out := by rw [restated_only]
  have hx : SentOnly d (d.restated s) := .of_out hr
  have he := hx.trans (sentOnly_event (d.restated s) Page.device 1)
  change SentOnly d (if d.boot.state ≠ s then
    (if flag (((d.restated s).event Page.device 1).preg Page.device 0x02C) 1 && !flag ((d.restated s).preg Page.device 0x028) 1
      then (d.restated s).event Page.device 1 else ((d.restated s).event Page.device 1).msix 0) else d.restated s)
  split
  · split
    · exact he
    · exact he.trans (sentOnly_msix _ _)
  · exact hx

theorem sentOnly_haltRunning (st : StallId) (sl : Slot) : SentOnly d (d.haltRunning st sl) := by
  unfold haltRunning
  split
  · exact (show SentOnly d (d.modStall st _) from .of_out rfl).trans (sentOnly_event _ _ _)
  · exact .refl d

theorem sentOnly_stopStall (k : Nat) (st : StallId) : SentOnly d (stopStall k d st) := by
  obtain ⟨f, h, -⟩ := d.stopStall_eq k st
  rw [h]
  exact ((d.sentOnly_haltRunning st .primary).trans (sentOnly_haltRunning _ st .paddock)).trans
    (show SentOnly _ (modStall _ st f) from .of_out rfl)

theorem sentOnly_haltMangers : SentOnly d d.haltMangers := by
  obtain ⟨v, h, -⟩ := d.haltMangers_eq
  exact .of_out (by rw [h])

theorem sentOnly_loseLedgers (k : Nat) : SentOnly d (loseLedgers k d) := by
  obtain ⟨m, hm⟩ := d.loseLedgers_only k
  exact .of_out (by rw [hm])

theorem sentOnly_stopAll (k : Nat) : SentOnly d (d.stopAll k) := by
  have h1 : SentOnly d ((finList 384).foldl (stopStall k) (loseLedgers k d)) :=
    (d.sentOnly_loseLedgers k).trans (SentOnly.foldl (fun e st => e.sentOnly_stopStall k st) _ _)
  unfold stopAll
  generalize (finList 384).foldl (stopStall k) (loseLedgers k d) = x at h1
  have h2 : ((finList 2).foldl stopYard x.haltMangers).out = x.haltMangers.out := foldl_keeps (f := stopYard) (p := out) (fun _ _ => rfl) _ _
  exact (h1.trans x.sentOnly_haltMangers).trans (.of_out h2)

theorem sentOnly_of_closed (code : Code) (alive : Bool) {e : Device} (he : SentOnly ((d.closed code alive).setState .safe) e) :
    SentOnly d e := by
  have h : SentOnly d (d.closed code alive) := .of_out rfl
  generalize d.closed code alive = x at he h
  exact (h.trans (x.sentOnly_setState .safe)).trans he

/-- Entry into SAFE puts out MSI-X messages and flits alone. -/
theorem sentOnly_enterSafe (domain : Nat) (code : Code) (page : Page) : SentOnly d (d.enterSafe domain code page) := by
  obtain ⟨e, he⟩ : ∃ e, d.enterSafe domain code page = e := ⟨_, rfl⟩
  rw [he]
  obtain ⟨t, ht⟩ := d.logSafe_only domain code page
  unfold enterSafe at he
  split at he
  · rw [← he]
    exact .refl d
  rw [ht] at he
  extract_lets d1 d2 stop alive src d3 at he
  split at he
  · rw [← he]
    exact .of_out rfl
  split at he
  next k d4 h4 =>
  extract_lets +lift d5 d6 d7 d8 boot8 trust8 bist8 pwr8 d9 d10 at he
  have hd4 : d4 = { d3 with free := d3.free + 1 } := (congrArg Prod.snd h4).symm
  have h12 : SentOnly d1 d2 := d1.sentOnly_record Page.gatehouse code
  have h34 : SentOnly d3 d4 := .of_out (by rw [hd4])
  have h04 : SentOnly d d4 := SentOnly.trans (e := d1) (.of_out rfl) (h12.trans (SentOnly.trans (e := d3) (.of_out rfl) h34))
  have h6 : SentOnly d4 d6 := d4.sentOnly_stopAll k
  have h67 : SentOnly d6 d7 := SentOnly.foldl (fun e p => by
    split
    · exact .refl e
    · exact e.sentOnly_leavePort p _ _ _) _ d6
  have h78 : SentOnly d7 d8 := SentOnly.foldl (fun e q => e.sentOnly_abortQueue q code) _ d7
  have hend : SentOnly d10 e := by
    rw [← he]
    split
    · exact .refl d10
    · exact d10.sentOnly_failPending
  exact (((h04.trans h6).trans h67).trans h78).trans (d8.sentOnly_of_closed code alive hend)

end

end Device

end Sys2Proof.Machine
end

section
/-! The regulator, the rails and the pins (R575, R577, R579, R583). -/

namespace Sys2Proof.Machine

namespace Device

section
variable (d : Device)

theorem alert_of_closed (code : Code) (alive : Bool) {e : Device} (he : Outer ((d.closed code alive).setState .safe) e) :
    e.pwr.alert = true := by
  have h : (d.closed code alive).pwr.alert = true := rfl
  generalize d.closed code alive = x at he h
  have hs := x.setState_only .safe
  generalize x.setState .safe = y at he hs
  have h1 : e.pwr = y.pwr := by rw [he.1]
  have h2 : y.pwr = x.pwr := by rw [hs]
  rw [h1, h2, h]

/-- Entry into SAFE raises the sideband's alert (R585). -/
theorem alert_enterSafe (domain : Nat) (code : Code) (page : Page) (hoff : d.boot.state ≠ .off) (hsafe : d.boot.state ≠ .safe) :
    (d.enterSafe domain code page).pwr.alert = true := by
  obtain ⟨e, he⟩ : ∃ e, d.enterSafe domain code page = e := ⟨_, rfl⟩
  rw [he]
  obtain ⟨t, ht⟩ := d.logSafe_only domain code page
  unfold enterSafe at he
  rw [if_neg hoff] at he
  rw [ht] at he
  extract_lets d1 d2 stop alive src d3 at he
  rw [if_neg hsafe] at he
  split at he
  next k d4 h4 =>
  extract_lets +lift d5 d6 d7 d8 boot8 trust8 bist8 pwr8 d9 d10 at he
  have hend : Outer d10 e := by
    rw [← he]
    split
    · exact .refl d10
    · exact d10.outer_failPending
  exact d8.alert_of_closed code alive hend

end

/-- A rail's voltage lies outside its limits, in the terms of R575. -/
def railOutside (d : Device) (rail : Fin 7) (uv : Nat) : Prop :=
  let limits := fun (low high pct : Nat) => 100 * uv < 1000 * low * (100 - pct) ∨ 1000 * high * (100 + pct) < 100 * uv
  let core := fun (p : YardPower) => limits (min p.vold p.vset) (max p.vold p.vset) 2
  match rail.val with
  | 0 => core d.yards[(0 : Yard)]
  | 1 => core d.yards[(1 : Yard)]
  | 2 => limits 750 750 3
  | 3 => limits 750 750 3
  | 4 => limits 900 900 3
  | 5 => limits 500 500 3
  | _ => limits 1800 1800 5

theorem outside_iff (low high pct uv : Nat) :
    (decide (uv < 10 * low * (100 - pct)) || decide (10 * high * (100 + pct) < uv)) = true ↔
      100 * uv < 1000 * low * (100 - pct) ∨ 1000 * high * (100 + pct) < 100 * uv := by
  have h1 : 1000 * low * (100 - pct) = 100 * (10 * low * (100 - pct)) := by
    rw [← Nat.mul_assoc, ← Nat.mul_assoc]
  have h2 : 1000 * high * (100 + pct) = 100 * (10 * high * (100 + pct)) := by
    rw [← Nat.mul_assoc, ← Nat.mul_assoc]
  rw [h1, h2, Bool.or_eq_true, decide_eq_true_iff, decide_eq_true_iff]
  omega

theorem outsideLimits_iff (d : Device) (rail : Fin 7) (uv : Nat) : d.outsideLimits ⟨rail, uv⟩ = true ↔ d.railOutside rail uv := by
  unfold outsideLimits railOutside railLimits
  obtain ⟨r, hr⟩ := rail
  match r, hr with
  | 0, _ => exact outside_iff _ _ 2 uv
  | 1, _ => exact outside_iff _ _ 2 uv
  | 2, _ => exact outside_iff 750 750 3 uv
  | 3, _ => exact outside_iff 750 750 3 uv
  | 4, _ => exact outside_iff 900 900 3 uv
  | 5, _ => exact outside_iff 500 500 3 uv
  | 6, _ => exact outside_iff 1800 1800 5 uv

end Device

section
variable {s : State}

theorem voltageReached_spec (y : Yard) :
    (s.dev.yards[y].busy = true →
      (∀ v mhz, s.dev.yards[y].raise = some (v, mhz) → Completes (.voltageReached y) s fun t => s.onlyTo t { s.dev with
        yards := s.dev.yards.set y { s.dev.yards[y] with
          busy := false, vold := s.dev.yards[y].vset, raise := none, raised := true, mhz := mhz } }) ∧
      (s.dev.yards[y].raise = none → Completes (.voltageReached y) s fun t => s.onlyTo t { s.dev with
        yards := s.dev.yards.set y { s.dev.yards[y] with busy := false, vold := s.dev.yards[y].vset } })) ∧
    (s.dev.yards[y].busy = false → Completes (.voltageReached y) s fun t => s.onlyTo t s.dev) := by
  obtain ⟨f, hf⟩ : ∃ f : YardPower → YardPower, f = fun p =>
      if !p.busy then p
      else
        match p.raise with
        | some (_, mhz) => { p with busy := false, vold := p.vset, raise := none, raised := true, mhz := mhz }
        | none => { p with busy := false, vold := p.vset } := ⟨_, rfl⟩
  have hexec : exec (.voltageReached y) s = .next (s.onDev fun d => d.modYard y f) := by
    rw [hf]
    rfl
  have hset (q : YardPower) (h : f s.dev.yards[y] = q) : Completes (.voltageReached y) s fun t => s.onlyTo t { s.dev with
      yards := s.dev.yards.set y q } := by
    refine ⟨_, hexec, ⟨rfl, rfl⟩, ?_⟩
    rw [State.onDev_dev, ← h]
    rfl
  refine ⟨fun hb => ⟨fun v mhz hr => hset _ ?_, fun hr => hset _ ?_⟩, fun hb => ?_⟩
  · rw [hf]
    dsimp only
    rw [if_neg (by rw [hb]; decide), hr]
  · rw [hf]
    dsimp only
    rw [if_neg (by rw [hb]; decide), hr]
  · refine ⟨_, hexec, ⟨rfl, rfl⟩, ?_⟩
    have hid : f s.dev.yards[y] = s.dev.yards[y] := by
      rw [hf]
      dsimp only
      rw [if_pos (by rw [hb]; rfl)]
    rw [State.onDev_dev]
    unfold Device.modYard
    rw [upd_id _ _ _ hid]

theorem avsTimeout_spec (y : Yard) :
    (s.dev.yards[y].raise ≠ none → s.dev.yards[y].busy = true → s.dev.yards[y].retry = false → Completes (.avsTimeout y) s fun t =>
      t.dev.yards = s.dev.yards.set y { s.dev.yards[y] with retry := true, busy := false } ∧
      flag (t.dev.preg (Page.yard y) 0x028) 2 = true ∧ t.dev.boot = s.dev.boot ∧ s.sameMemory t) ∧
    (s.dev.yards[y].raise = none ∨ s.dev.yards[y].busy = false ∨ s.dev.yards[y].retry = true → exec (.avsTimeout y) s = .next s) := by
  refine ⟨fun hr hb ht => ?_, fun h => ?_⟩
  · obtain ⟨x, hx⟩ : ∃ x, x = s.dev.modYard y fun p => { p with retry := true, busy := false } := ⟨_, rfl⟩
    obtain ⟨z, hz⟩ : ∃ z, z = x.bump (Page.yard y) 0x11C 1 := ⟨_, rfl⟩
    have hq : Device.Quiet x (z.event (Page.yard y) 2) := by
      rw [hz]
      exact (x.quiet_bump _ _ _).trans (Device.quiet_event _ _ _)
    have hsome : s.dev.yards[y].raise.isSome = true := Option.isSome_iff_ne_none.mpr hr
    have hexec : exec (.avsTimeout y) s = .next (s.onDev fun _ => z.event (Page.yard y) 2) := by
      refine next_congr (fun _ => z.event (Page.yard y) 2) ?_
      rw [hsome, hb, ht, hz, hx]
      rfl
    refine ⟨_, hexec, ?_, Device.flag_event _ _ 2 (by decide), ?_, fun a => ?_⟩
    · have h1 : (z.event (Page.yard y) 2).yards = x.yards := by rw [hq]
      rw [State.onDev_dev, h1, hx]
      rfl
    · rw [State.onDev_dev, hq.boot, hx]
      rfl
    · have h1 := hq.sameBytes.rdByte a
      rw [State.onDev_dev, h1, hx]
      rfl
  · have hno : (s.dev.yards[y].raise.isSome && s.dev.yards[y].busy && !s.dev.yards[y].retry) = false := by
      rcases h with h | h | h
      · rw [h]; rfl
      · rw [h, Bool.and_false, Bool.false_and]
      · rw [h]; exact Bool.and_false _
    have hexec : exec (.avsTimeout y) s = .next (s.onDev fun d => d) := by
      refine next_congr (fun d => d) ?_
      rw [hno]
      rfl
    exact hexec.trans rfl

theorem railFault_spec (rail : Fin 7) (uv : Nat) :
    (s.alive → s.dev.railOutside rail uv → Completes (.railFault ⟨rail, uv⟩) s fun t => s.wentSafe Status.railFault t ∧
      t.dev.pwr.alert = true ∧ flag (t.dev.preg Page.power 0x028) 2 = true) ∧
    (¬ s.dev.railOutside rail uv → exec (.railFault ⟨rail, uv⟩) s = .next s) := by
  refine ⟨fun ha ho => ?_, fun ho => ?_⟩
  · obtain ⟨w, hw⟩ : ∃ w : Device, w = { s.dev with pwr := { s.dev.pwr with alert := true } } := ⟨_, rfl⟩
    obtain ⟨v, hv⟩ : ∃ v, v = w.bump Page.power 0x128 1 := ⟨_, rfl⟩
    obtain ⟨x, hx⟩ : ∃ x, x = v.eventCode Page.power 2 Status.railFault := ⟨_, rfl⟩
    have hwb : w.boot = s.dev.boot := by rw [hw]
    have hq : Device.Quiet w x := by
      rw [hx, hv]
      exact (w.quiet_bump _ _ _).trans (Device.quiet_eventCode _ _ _ _)
    have hbytes : Device.SameBytes s.dev w := by
      rw [hw]
      exact ⟨rfl, rfl⟩
    have hwl : w.allLedgers = s.dev.allLedgers := by
      rw [hw]
      exact Device.allLedgers_congr rfl rfl rfl fun _ => rfl
    have hl : x.allLedgers = w.allLedgers := by
      rw [hx, Device.allLedgers_eventCode, hv]
      exact Device.allLedgers_congr rfl rfl rfl fun st => w.ctxCtl_setPreg Page.power _ _ st (by decide) (by decide)
    have hexec : exec (.railFault ⟨rail, uv⟩) s =
        .next (s.onDev fun _ => x.enterSafe (if rail.val < 2 then rail.val else 2) Status.railFault Page.power) := by
      refine next_congr (fun _ => x.enterSafe (if rail.val < 2 then rail.val else 2) Status.railFault Page.power) ?_
      rw [if_neg ?_, hx, hv, hw]
      obtain ⟨hoff, -⟩ := ha
      rw [(s.dev.outsideLimits_iff rail uv).mpr ho, decide_eq_false hoff]
      decide
    have hxb : x.boot = s.dev.boot := hq.boot.trans hwb
    have hoff : x.boot.state ≠ .off := by rw [hxb]; exact ha.1
    have hsafe : x.boot.state ≠ .safe := by rw [hxb]; exact ha.2
    obtain ⟨-, -, -, -, hkept, -⟩ := x.enterSafe_spec (if rail.val < 2 then rail.val else 2) Status.railFault Page.power hoff hsafe
    refine ⟨_, hexec, wentSafe_of_reported ha hwb hbytes hwl hq hl _ _ _, x.alert_enterSafe _ _ _ hoff hsafe, ?_⟩
    refine hkept _ _ ?_
    rw [hx]
    exact Device.flag_event _ _ 2 (by decide)
  · have hno : (decide (s.dev.boot.state = .off) || !s.dev.outsideLimits ⟨rail, uv⟩) = true := by
      have : s.dev.outsideLimits ⟨rail, uv⟩ = false := by
        rw [← Bool.not_eq_true, s.dev.outsideLimits_iff]
        exact ho
      rw [this]
      exact Bool.or_true _
    have hexec : exec (.railFault ⟨rail, uv⟩) s = .next (s.onDev fun d => d) :=
      next_congr (fun d => d) (if_pos hno)
    exact hexec.trans rfl

end

end Sys2Proof.Machine
end

section
/-! The management sideband (R585, R586). -/

namespace Sys2Proof.Machine

/-- Part i of a block made of parts of one length. -/
theorem flatMap_part {α β : Type} (l : List α) (f : α → List β) (k : Nat) (h : ∀ x ∈ l, (f x).length = k) (i : Nat) (hi : i < l.length) :
    ((l.flatMap f).drop (k * i)).take k = f l[i] := by
  induction l generalizing i with
  | nil => exact absurd hi (Nat.not_lt_zero i)
  | cons x l ih =>
    have hx := h x List.mem_cons_self
    cases i with
    | zero =>
      rw [List.flatMap_cons, Nat.mul_zero, List.drop_zero, List.take_append_of_le_length hx.ge, List.take_of_length_le hx.le]
      rfl
    | succ i =>
      have hdrop : ((x :: l).flatMap f).drop (k * (i + 1)) = (l.flatMap f).drop (k * i) := by
        rw [List.flatMap_cons, List.drop_append, List.drop_of_length_le (by rw [hx, Nat.mul_succ]; omega), List.nil_append, hx]
        congr 1
        rw [Nat.mul_succ]
        omega
      rw [hdrop, ih (fun y hy => h y (List.mem_cons_of_mem x hy)) i (by simpa using hi)]
      rfl

theorem length_flatMap_const {α β : Type} (l : List α) (f : α → List β) (k : Nat) (h : ∀ x ∈ l, (f x).length = k) :
    (l.flatMap f).length = k * l.length := by
  induction l with
  | nil => rfl
  | cons x l ih =>
    rw [List.flatMap_cons, List.length_append, h x List.mem_cons_self, ih fun y hy => h y (List.mem_cons_of_mem x hy),
      List.length_cons, Nat.mul_succ, Nat.add_comm]

namespace Device

/-- The hottest of n sensors. -/
theorem hottest_spec (temps : List Int) (first n : Nat) (hn : 0 < n) :
    (∃ i, i < n ∧ (temps[first + i]?).getD 0 = (hottest temps first n).1) ∧
      ∀ i, i < n → (temps[first + i]?).getD 0 ≤ (hottest temps first n).1 := by
  induction n with
  | zero => exact absurd hn (Nat.lt_irrefl 0)
  | succ n ih =>
    have hstep : hottest temps first (n + 1) = if n = 0 ∨ (hottest temps first n).1 < (temps[first + n]?).getD 0
        then ((temps[first + n]?).getD 0, first + n) else hottest temps first n := by
      unfold hottest
      rw [List.range_succ, List.foldl_append]
      rfl
    by_cases h0 : n = 0
    · rw [hstep, if_pos (.inl h0)]
      subst h0
      refine ⟨⟨0, by omega, rfl⟩, fun i hi => ?_⟩
      have : i = 0 := by omega
      rw [this]
    · obtain ⟨⟨j, hj, hje⟩, hall⟩ := ih (by omega)
      by_cases hlt : (hottest temps first n).1 < (temps[first + n]?).getD 0
      · rw [hstep, if_pos (.inr hlt)]
        refine ⟨⟨n, by omega, rfl⟩, fun i hi => ?_⟩
        by_cases hin : i = n
        · rw [hin]
        · exact (hall i (by omega)).trans hlt.le
      · rw [hstep, if_neg (by rintro (h | h); exacts [h0 h, hlt h])]
        refine ⟨⟨j, by omega, hje⟩, fun i hi => ?_⟩
        by_cases hin : i = n
        · rw [hin]
          exact not_lt.mp hlt
        · exact hall i (by omega)

/-- A number written digit by digit in base 4. -/
def digits4 (f : Nat → Nat) (n : Nat) : Nat := (List.range n).foldl (fun a i => a + f i * 4 ^ i) 0

theorem digits4_lt (f : Nat → Nat) (n : Nat) (h : ∀ i, i < n → f i < 4) : digits4 f n < 4 ^ n := by
  induction n with
  | zero => exact Nat.one_pos
  | succ n ih =>
    have hs : digits4 f (n + 1) = digits4 f n + f n * 4 ^ n := by
      unfold digits4
      rw [List.range_succ, List.foldl_append]
      rfl
    have h1 := ih fun i hi => h i (by omega)
    have h2 : f n * 4 ^ n ≤ 3 * 4 ^ n := Nat.mul_le_mul_right _ (by have := h n (by omega); omega)
    rw [hs, Nat.pow_succ]
    omega

theorem digits4_digit (f : Nat → Nat) (n : Nat) (h : ∀ i, i < n → f i < 4) (i : Nat) (hi : i < n) : digits4 f n / 4 ^ i % 4 = f i := by
  induction n with
  | zero => exact absurd hi (Nat.not_lt_zero i)
  | succ n ih =>
    have hs : digits4 f (n + 1) = digits4 f n + f n * 4 ^ n := by
      unfold digits4
      rw [List.range_succ, List.foldl_append]
      rfl
    have hlt := digits4_lt f n fun i hi => h i (by omega)
    rw [hs]
    by_cases hin : i = n
    · rw [hin, Nat.add_mul_div_right _ _ (by positivity), Nat.div_eq_of_lt hlt, Nat.zero_add, Nat.mod_eq_of_lt (h n (by omega))]
    · have hk : f n * 4 ^ n = 4 * (f n * 4 ^ (n - 1 - i)) * 4 ^ i := by
        have : n = i + (n - 1 - i) + 1 := by omega
        conv_lhs => rw [this, Nat.pow_succ, Nat.pow_add]
        have h2 : f (i + (n - 1 - i) + 1) = f n := by rw [← this]
        rw [h2]
        ring
      rw [hk, Nat.add_mul_div_right _ _ (by positivity), Nat.add_mul_mod_self_left]
      exact ih (fun i hi => h i (by omega)) (by omega)

end Device

section
variable {s : State}

/-- A block read of the sideband. -/
theorem reads_of {i : Instr} (data : Device → List Byte) (hexec : exec i s = .next (s.onDev fun d => d.sideband data))
    (hoff : s.dev.boot.state ≠ .off) {p : List Byte → Prop} (hp : p (data s.dev)) :
    Completes i s fun t => p t.dev.out.block ∧ t.dev.out.nack = false ∧
      s.onlyTo t { s.dev with out := { s.dev.out with block := t.dev.out.block, nack := false } } := by
  have hx : s.dev.sideband data = { s.dev with out := { s.dev.out with block := data s.dev, nack := false } } := if_neg hoff
  exact ⟨_, hexec.trans (next_congr (fun d => { d with out := { d.out with block := data s.dev, nack := false } }) hx), hp, rfl,
    ⟨rfl, rfl⟩, rfl⟩

theorem sideband_off {i : Instr} (data : Device → List Byte) (hexec : exec i s = .next (s.onDev fun d => d.sideband data))
    (hoff : s.dev.boot.state = .off) : exec i s = .next s :=
  (hexec.trans (next_congr (fun d => d) (if_pos hoff))).trans rfl

/-- The levels of the channels, as the sideband puts them out. -/
theorem levels_spec (d : Device) :
    (leBytes 16 ((finList 64).foldl (fun n (c : Chan) => n + d.mc[c].level * 4 ^ c.val) 0)).length = 16 ∧
      ((∀ c : Chan, d.mc[c].level < 4) →
        ∀ c : Chan, leNat (leBytes 16 ((finList 64).foldl (fun n (c : Chan) => n + d.mc[c].level * 4 ^ c.val) 0)) / 4 ^ c.val % 4 =
          d.mc[c].level) := by
  refine ⟨length_leBytes _ _, fun h c => ?_⟩
  obtain ⟨f, hf⟩ : ∃ f : Nat → Nat, f = fun i => if hi : i < 64 then d.mc[i].level else 0 := ⟨_, rfl⟩
  have hfc (c : Chan) : f c.val = d.mc[c].level := by
    rw [hf]
    exact dif_pos c.isLt
  have hlt (i : Nat) (hi : i < 64) : f i < 4 := by
    rw [show f i = _ from hfc ⟨i, hi⟩]
    exact h _
  have hsum : (finList 64).foldl (fun n (c : Chan) => n + d.mc[c].level * 4 ^ c.val) 0 = Device.digits4 f 64 := by
    unfold Device.digits4 finList
    rw [← List.map_coe_finRange_eq_range, List.foldl_map]
    refine List.foldl_ext _ _ _ fun n c _ => ?_
    rw [hfc]
  have hpow : Device.digits4 f 64 < 2 ^ (8 * 16) := (Device.digits4_lt f 64 hlt).trans_eq (by decide)
  rw [hsum, leNat_leBytes, Nat.mod_eq_of_lt hpow, Device.digits4_digit f 64 hlt c.val c.isLt, hfc]

/-- The command that sends the device to SAFE. -/
theorem mgSafe_spec (ha : s.alive) (p : Option Byte)
    (hp : p = none ∨ p = some (Device.pec [s.dev.busAddress ++ (0 : BitVec 1), 0x40, 0xC3])) :
    Completes (.mgSafe (.command 0x40 0xC3 p)) s fun t => s.wentSafe Status.sidebandSafe t ∧ t.dev.out.nack = false := by
  obtain ⟨x, hx⟩ : ∃ x : Device, x = { s.dev with out := { s.dev.out with nack := false } } := ⟨_, rfl⟩
  have hacc : s.dev.mgAccepts 0x40 0xC3 p = true := by
    rcases hp with rfl | rfl
    · rfl
    · unfold Device.mgAccepts
      simp
  have hexec : exec (.mgSafe (.command 0x40 0xC3 p)) s =
      .next (s.onDev fun _ => x.enterSafe 2 Status.sidebandSafe Page.gatehouse) := by
    refine next_congr (fun _ => x.enterSafe 2 Status.sidebandSafe Page.gatehouse) ?_
    obtain ⟨hoff, -⟩ := ha
    rw [if_neg hoff]
    dsimp only
    rw [if_pos hacc, hx]
  have hxb : x.boot = s.dev.boot := by rw [hx]
  have hxm : Device.SameBytes s.dev x := by
    rw [hx]
    exact ⟨rfl, rfl⟩
  have hxl : x.allLedgers = s.dev.allLedgers := by
    rw [hx]
    exact Device.allLedgers_congr rfl rfl rfl fun _ => rfl
  refine ⟨_, hexec, wentSafe_of_enterSafe ha hxb hxm hxl _ _ _, ?_⟩
  have hn := (x.sentOnly_enterSafe 2 Status.sidebandSafe Page.gatehouse).nack
  rw [State.onDev_dev, hn, hx]

theorem mgSafe_refused (hoff : s.dev.boot.state ≠ .off) (code data : Byte) (p : Option Byte)
    (h : code ≠ 0x40 ∨ data ≠ 0xC3 ∨ s.dev.mgAccepts code data p = false) :
    Completes (.mgSafe (.command code data p)) s fun t => s.onlyTo t { s.dev with out := { s.dev.out with nack := true } } := by
  have hacc : s.dev.mgAccepts code data p = false := by
    rcases h with h | h | h
    · unfold Device.mgAccepts
      rw [decide_eq_false h]
      rfl
    · unfold Device.mgAccepts
      rw [decide_eq_false h, Bool.and_false]
      rfl
    · exact h
  have hexec : exec (.mgSafe (.command code data p)) s =
      .next (s.onDev fun d => { d with out := { d.out with nack := true } }) := by
    refine next_congr (fun d => { d with out := { d.out with nack := true } }) ?_
    rw [if_neg hoff]
    dsimp only
    rw [if_neg (by rw [hacc]; decide)]
  exact ⟨_, hexec, ⟨rfl, rfl⟩, rfl⟩

theorem mgSafe_off (hoff : s.dev.boot.state = .off) (v : MgWrite) : exec (.mgSafe v) s = .next s := by
  have hexec : exec (.mgSafe v) s = .next (s.onDev fun d => d) := by
    refine next_congr (fun d => d) ?_
    rw [if_pos hoff]
  exact hexec.trans rfl

/-- Settles O56: the regulator, the rails and the pins each by its command, and the sideband's reads by the block that they put out. -/
theorem powerAndSideband : Obligations.PowerAndSideband := by
  unfold Obligations.PowerAndSideband
  refine ⟨fun y s => ⟨(voltageReached_spec y).1, (voltageReached_spec y).2, (avsTimeout_spec y).1, (avsTimeout_spec y).2⟩, fun s => ?_⟩
  refine ⟨fun rail uv => railFault_spec rail uv, fun low => ⟨_, rfl, ⟨rfl, rfl⟩, rfl⟩, fun hoff => ?_, fun ha p hp => mgSafe_spec ha p hp,
    fun hoff => ⟨sideband_off _ rfl hoff, sideband_off _ rfl hoff, sideband_off _ rfl hoff, sideband_off _ rfl hoff, sideband_off _ rfl hoff,
      sideband_off _ rfl hoff, sideband_off _ rfl hoff, sideband_off _ rfl hoff, sideband_off _ rfl hoff, mgSafe_off hoff⟩⟩
  intro reads temp rail hottest
  have hreads (i : Instr) (data : Device → List Byte) (hexec : exec i s = .next (s.onDev fun d => d.sideband data))
      (p : List Byte → Prop) (hp : p (data s.dev)) : reads i p := reads_of data hexec hoff hp
  clear_value reads
  refine ⟨?_, ?_, ?_, ?_, ?_, ?_, ?_, ?_, ?_, ?_, fun m => ?_, fun code data p h => mgSafe_refused hoff code data p h⟩
  · have hexec : exec .thermtripAnalog s = .next (s.onDev fun d => { d with pwr := { d.pwr with thermtrip := true } }) := by
      refine next_congr (fun d => { d with pwr := { d.pwr with thermtrip := true } }) ?_
      rw [if_neg hoff]
    exact ⟨_, hexec, ⟨rfl, rfl⟩, rfl⟩
  · exact hreads .mgId _ rfl _ rfl
  · exact hreads .mgState _ rfl _ rfl
  · exact hreads .mgFrame _ rfl _ rfl
  · exact hreads .mgUptime _ rfl _ rfl
  · refine hreads .mgTemp _ rfl _ ?_
    refine ⟨_, _, _, ?_, Device.hottest_spec s.dev.pwr.temps 0 16 (by decide), Device.hottest_spec s.dev.pwr.temps 16 16 (by decide),
      Device.hottest_spec s.dev.pwr.temps 32 2 (by decide)⟩
    simp only [List.flatMap_cons, List.flatMap_nil, List.append_nil, List.append_assoc]
  · refine hreads .mgTempAll _ rfl _ ?_
    have hlen (i : Nat) (_ : i ∈ List.range 34) : (leBytes 2 (natOfInt 16 (temp i))).length = 2 := length_leBytes _ _
    refine ⟨length_flatMap_const _ _ 2 hlen, fun i hi => ?_⟩
    exact (flatMap_part _ _ 2 hlen i (by simpa using hi)).trans (by rw [List.getElem_range])
  · exact hreads .mgLp6Level _ rfl _ (levels_spec s.dev)
  · refine hreads .mgPower _ rfl _ ?_
    have hlen (i : Nat) (_ : i ∈ List.range 4) : (leBytes 2 ((s.dev.pwr.sample[i]?).getD 0)).length = 2 := length_leBytes _ _
    refine ⟨length_flatMap_const _ _ 2 hlen, fun i hi => ?_⟩
    exact (flatMap_part _ _ 2 hlen i (by simpa using hi)).trans (by rw [List.getElem_range])
  · refine hreads .mgRails _ rfl _ ?_
    have hlen (i : Nat) (_ : i ∈ List.range 7) : (leBytes 2 (rail i).1 ++ leBytes 2 (rail i).2).length = 4 := by
      rw [List.length_append, length_leBytes, length_leBytes]
    refine ⟨length_flatMap_const _ _ 4 hlen, fun i hi => ?_⟩
    exact (flatMap_part _ _ 4 hlen i (by simpa using hi)).trans (by rw [List.getElem_range])
  · have hexec : exec (.mgSafe (.assign m)) s = .next (s.onDev fun d => { d with pwr := { d.pwr with bus := m } }) := by
      refine next_congr (fun d => { d with pwr := { d.pwr with bus := m } }) ?_
      rw [if_neg hoff]
    exact ⟨_, hexec, ⟨rfl, rfl⟩, rfl⟩

end

end Sys2Proof.Machine
end

section
/-! The test port's instructions but DBG_ACCESS (R533 to R537, R588). -/

namespace Sys2Proof.Machine

theorem leBytes_mod (k n : Nat) : leBytes k (n % 256 ^ k) = leBytes k n := by
  induction k generalizing n with
  | zero => rfl
  | succ k ih =>
    have h1 : BitVec.ofNat 8 (n % 256 ^ (k + 1)) = BitVec.ofNat 8 n := by
      refine BitVec.eq_of_toNat_eq ?_
      rw [BitVec.toNat_ofNat, BitVec.toNat_ofNat]
      exact Nat.mod_mod_of_dvd n ⟨256 ^ k, by rw [Nat.pow_succ, Nat.mul_comm]⟩
    have h2 : n % 256 ^ (k + 1) / 256 = n / 256 % 256 ^ k := by
      rw [Nat.pow_succ, Nat.mul_comm, Nat.mod_mul_right_div_self]
    rw [leBytes, leBytes, h1, h2, ih]

namespace Device

section
variable (d : Device) (ir : BitVec 8) (f : Device → Device)

theorem tapRun_held (allowed inState : Bool) (h : d.tap.trst = true) : d.tapRun ir allowed inState f = d := by
  refine if_pos ?_
  unfold tapLive
  rw [h, Bool.not_true, Bool.and_false]
  rfl

theorem tapLive_of (hoff : d.boot.state ≠ .off) (h : d.tap.trst = false) : d.tapLive = true := by
  unfold tapLive powered
  rw [h, decide_eq_true hoff]
  rfl

theorem tapRun_locked (inState : Bool) (hl : d.tapLive = true) : d.tapRun ir false inState f = d.tapRefuse Status.debugLocked := by
  unfold tapRun
  rw [hl]
  rfl

theorem tapRun_state (hl : d.tapLive = true) : d.tapRun ir true false f = d.tapRefuse Status.stateInvalid := by
  unfold tapRun
  rw [hl]
  rfl

theorem tapRun_open (hl : d.tapLive = true) : d.tapRun ir true true f = f (d.select ir) := by
  unfold tapRun
  rw [hl]
  rfl

theorem hasRight_iff (i : Nat) : d.hasRight i = true ↔
    d.trust.debugLevel = 0 ∨ (d.trust.debugLevel = 1 ∧ flag d.trust.rights i = true) := by
  unfold hasRight level
  rw [Bool.or_eq_true, Bool.and_eq_true, decide_eq_true_iff, decide_eq_true_iff]

theorem landsFree_iff : d.landsFree = true ↔ d.boot.state = .romWait ∨ d.boot.state = .safe := by
  unfold landsFree
  rw [Bool.or_eq_true, decide_eq_true_iff, decide_eq_true_iff]

/-- Where a condition of R534 fails, the token does not hold. -/
theorem tokenHolds_false (k : DebugToken) (h : d.trust.debugLevel ≠ 1 ∨ d.trust.nonce ≠ some k.nonce ∨ k.deviceId ≠ d.trust.deviceId ∨
    d.trust.usable k.keySlot.toNat = false ∨ d.trust.keyHash k.keySlot.toNat ≠ Sha.sha256 (Trust.keyBytes k.pubkey)) :
    d.tokenHolds k = false := by
  rw [← Bool.not_eq_true]
  intro hk
  unfold tokenHolds level at hk
  dsimp only at hk
  simp only [Bool.and_eq_true, decide_eq_true_iff] at hk
  obtain ⟨⟨⟨⟨⟨⟨⟨⟨⟨hlevel, -⟩, -⟩, -⟩, -⟩, huse⟩, hhash⟩, hid⟩, hnonce⟩, -⟩ := hk
  rcases h with h | h | h | h | h
  · exact h hlevel
  · exact h hnonce
  · exact h hid
  · rw [h] at huse
    exact absurd huse (by decide)
  · exact h hhash

/-- What the pages read does not depend on the test port. -/
theorem pageValue_select (who : Requester) (p : Page) (o : Nat) : (d.select ir).pageValue who p o = d.pageValue who p o := rfl

theorem regValue_select (who : Requester) (o : Nat) : (d.select ir).regValue who o = d.regValue who o := rfl

end

end Device

section
variable {s : State}

/-- TZ_TRST_N low holds every instruction. -/
theorem trst_holds (h : s.dev.tap.trst = true) (n : BitVec 256) (k : DebugToken) (off : BitVec 26) (w : DebugAccess) (bits : BitVec 8192) :
    ∀ i ∈ [Instr.extest, .extestPulse, .extestTrain, .samplePreload, .bypass, .idcode,
      .dbgChallenge n, .dbgToken k, .dbgStatus, .dbgAccess off w, .ghHalt, .scanConnect, .fuseProg bits], exec i s = .next s := by
  have hrun {i : Instr} {ir : BitVec 8} {a b : Device → Bool} {f : Device → Device}
      (hi : exec i s = .next (s.onDev fun d => d.tapRun ir (a d) (b d) f)) : exec i s = .next s :=
    (hi.trans (next_congr (fun d => d) (s.dev.tapRun_held ir f _ _ h))).trans rfl
  have hfuse : exec (.fuseProg bits) s = .next s := by
    have hl : s.dev.tapLive = false := by
      unfold Device.tapLive
      rw [h, Bool.not_true, Bool.and_false]
    change execFuseProg bits s = _
    unfold execFuseProg
    dsimp only
    rw [hl, Bool.false_and, if_neg (by decide), s.dev.tapRun_held _ _ _ _ h]
  simp only [List.forall_mem_cons]
  exact ⟨hrun rfl (a := fun _ => true) (b := fun _ => true), hrun rfl (a := fun _ => true) (b := fun _ => true),
    hrun rfl (a := fun _ => true) (b := fun _ => true), hrun rfl (a := fun _ => true) (b := fun _ => true),
    hrun rfl (a := fun _ => true) (b := fun _ => true), hrun rfl (a := fun _ => true) (b := fun _ => true),
    hrun rfl (a := fun d => d.level = 1) (b := fun _ => true), hrun rfl (a := fun d => d.level = 1) (b := fun _ => true),
    hrun rfl (a := fun _ => true) (b := fun _ => true), hrun rfl (a := fun d => d.hasRight 0) (b := fun _ => true),
    hrun rfl (a := fun d => d.hasRight 1) (b := fun _ => true),
    hrun rfl (a := fun d => d.hasRight 2 && !d.trust.scanLock) (b := Device.landsFree), hfuse, fun _ hx => absurd hx (by simp)⟩

section
variable {i : Instr} {ir : BitVec 8} {a b : Device → Bool} {f : Device → Device} (hl : s.dev.tapLive = true)
  (hi : exec i s = .next (s.onDev fun d => d.tapRun ir (a d) (b d) f))
include hl hi

theorem tap_open (ha : a s.dev = true) (hb : b s.dev = true) : exec i s = .next (s.onDev fun d => f (d.select ir)) := by
  refine hi.trans (next_congr (fun d => f (d.select ir)) ?_)
  rw [ha, hb]
  exact s.dev.tapRun_open ir f hl

theorem tap_locked (ha : a s.dev = false) : Completes i s fun t => s.onlyTo t { s.dev with
    tap := { s.dev.tap with ir := 0xFF, driving := false, code := Status.debugLocked } } := by
  refine ⟨_, hi.trans (next_congr (fun d => d.tapRefuse Status.debugLocked) ?_), ⟨rfl, rfl⟩, rfl⟩
  rw [ha]
  exact s.dev.tapRun_locked ir f _ hl

theorem tap_state (ha : a s.dev = true) (hb : b s.dev = false) : Completes i s fun t => s.onlyTo t { s.dev with
    tap := { s.dev.tap with ir := 0xFF, driving := false, code := Status.stateInvalid } } := by
  refine ⟨_, hi.trans (next_congr (fun d => d.tapRefuse Status.stateInvalid) ?_), ⟨rfl, rfl⟩, rfl⟩
  rw [ha, hb]
  exact s.dev.tapRun_state ir f hl

end

section
variable (hl : s.dev.tapLive = true)
include hl

/-- Boundary scan, by the lands. -/
theorem extest_spec {i : Instr} {ir : BitVec 8} (hi : exec i s = .next (s.onDev fun d => d.extest ir)) :
    ((s.dev.boot.state = .romWait ∨ s.dev.boot.state = .safe) → Completes i s fun t => s.onlyTo t { s.dev with
      tap := { s.dev.tap with ir := ir, driving := true } }) ∧
    (¬ (s.dev.boot.state = .romWait ∨ s.dev.boot.state = .safe) → Completes i s fun t => s.onlyTo t { s.dev with
      tap := { s.dev.tap with ir := ir, driving := false } }) := by
  have hexec := tap_open (a := fun _ => true) (b := fun _ => true) hl hi rfl rfl
  refine ⟨fun h => ⟨_, hexec, ⟨rfl, rfl⟩, ?_⟩, fun h => ⟨_, hexec, ⟨rfl, rfl⟩, ?_⟩⟩
  · have hf : (s.dev.select ir).landsFree = true := (s.dev.landsFree_iff).mpr h
    rw [State.onDev_dev, hf]
    rfl
  · have hf : (s.dev.select ir).landsFree = false := by
      rw [← Bool.not_eq_true]
      exact fun hx => h ((s.dev.landsFree_iff).mp hx)
    rw [State.onDev_dev, hf]
    rfl

/-- A challenge and a token are taken at level 1. -/
theorem challenge_spec (n : BitVec 256) :
    (s.dev.trust.debugLevel = 1 → Completes (.dbgChallenge n) s fun t => s.onlyTo t { s.dev with
      tap := { s.dev.tap with ir := 0x10, driving := false }, trust := { s.dev.trust with nonce := some n }
      out := { s.dev.out with tdo := Trust.keyBytes n } }) ∧
    (s.dev.trust.debugLevel ≠ 1 → Completes (.dbgChallenge n) s fun t => s.onlyTo t { s.dev with
      tap := { s.dev.tap with ir := 0xFF, driving := false, code := Status.debugLocked } }) :=
  ⟨fun h => ⟨_, tap_open (a := fun d => d.level = 1) (b := fun _ => true) hl rfl (decide_eq_true h) rfl, ⟨rfl, rfl⟩, rfl⟩,
    fun h => tap_locked (a := fun d => d.level = 1) (b := fun _ => true) hl rfl (decide_eq_false h)⟩

theorem token_spec (k : DebugToken) :
    (s.dev.trust.debugLevel = 1 → Completes (.dbgToken k) s fun t => s.onlyTo t { s.dev with
      tap := { s.dev.tap with ir := 0x11, driving := false }, trust := { s.dev.trust with verifying := some k } }) ∧
    (s.dev.trust.debugLevel ≠ 1 → Completes (.dbgToken k) s fun t => s.onlyTo t { s.dev with
      tap := { s.dev.tap with ir := 0xFF, driving := false, code := Status.debugLocked } }) :=
  ⟨fun h => ⟨_, tap_open (a := fun d => d.level = 1) (b := fun _ => true) hl rfl (decide_eq_true h) rfl, ⟨rfl, rfl⟩, rfl⟩,
    fun h => tap_locked (a := fun d => d.level = 1) (b := fun _ => true) hl rfl (decide_eq_false h)⟩

theorem dbgStatus_spec : Completes .dbgStatus s fun t => s.onlyTo t { s.dev with
    tap := { s.dev.tap with ir := 0x12, driving := false }
    out := { s.dev.out with tdo := leBytes 4 (s.dev.tap.code.toNat * 2 ^ 16 + bitAt s.dev.trust.scanCleared 6 +
      bitAt s.dev.trust.tokenActive 5 + s.dev.trust.rights.toNat * 4 + s.dev.trust.debugLevel) } } := by
  refine ⟨_, tap_open (a := fun _ => true) (b := fun _ => true) hl rfl rfl rfl, ⟨rfl, rfl⟩, ?_⟩
  have hmod (x : Nat) : leBytes 4 (lo32 x).toNat = leBytes 4 x := by
    unfold lo32
    rw [BitVec.toNat_ofNat]
    exact leBytes_mod 4 x
  exact congrArg (fun l => ({ s.dev with
    tap := { s.dev.tap with ir := 0x12, driving := false }, out := { s.dev.out with tdo := l } } : Device)) (hmod _)

end

/-- A token's verification ends. -/
theorem debugTokenVerified_spec :
    (∀ k, s.dev.trust.verifying = some k →
      (s.dev.tokenHolds k = true → Completes .debugTokenVerified s fun t => t.dev.tap = { s.dev.tap with code := Status.done } ∧
        t.dev.trust = { s.dev.trust with
          verifying := none, nonce := none, rights := BitVec.ofNat 3 k.rights.toNat, tokenActive := true } ∧
        flag (t.dev.preg Page.fuseView 0x028) 2 = true) ∧
      ((s.dev.trust.debugLevel ≠ 1 ∨ s.dev.trust.nonce ≠ some k.nonce ∨ k.deviceId ≠ s.dev.trust.deviceId ∨
          s.dev.trust.usable k.keySlot.toNat = false ∨
          s.dev.trust.keyHash k.keySlot.toNat ≠ Sha.sha256 (Trust.keyBytes k.pubkey)) →
        Completes .debugTokenVerified s fun t => s.onlyTo t { s.dev with
          tap := { s.dev.tap with code := Status.debugLocked }, trust := { s.dev.trust with verifying := none } })) ∧
    (s.dev.trust.verifying = none → exec .debugTokenVerified s = .next s) := by
  refine ⟨fun k hk => ⟨fun hh => ?_, fun h => ?_⟩, fun hn => ?_⟩
  · obtain ⟨x, hx⟩ : ∃ x : Device, x = { s.dev with
        trust := { s.dev.trust with verifying := none, nonce := none, rights := BitVec.ofNat 3 k.rights.toNat, tokenActive := true }
        tap := { s.dev.tap with code := Status.done } } := ⟨_, rfl⟩
    have hexec : exec .debugTokenVerified s = .next (s.onDev fun _ => x.event Page.fuseView 2) := by
      refine next_congr (fun _ => x.event Page.fuseView 2) ?_
      unfold Device.tokenVerified
      rw [hk]
      dsimp only
      rw [if_pos hh, hx]
    have hq := x.quiet_event Page.fuseView 2
    refine ⟨_, hexec, ?_, ?_, x.flag_event _ 2 (by decide)⟩
    · have h1 : (x.event Page.fuseView 2).tap = x.tap := by rw [hq]
      rw [State.onDev_dev, h1, hx]
    · have h1 : (x.event Page.fuseView 2).trust = x.trust := by rw [hq]
      rw [State.onDev_dev, h1, hx]
  · have hf := s.dev.tokenHolds_false k h
    refine ⟨_, next_congr (fun d => { d with
      tap := { d.tap with code := Status.debugLocked }, trust := { d.trust with verifying := none } }) ?_, ⟨rfl, rfl⟩, rfl⟩
    unfold Device.tokenVerified
    rw [hk]
    dsimp only
    rw [if_neg (by rw [hf]; decide)]
  · have hexec : exec .debugTokenVerified s = .next (s.onDev fun d => d) := by
      refine next_congr (fun d => d) ?_
      unfold Device.tokenVerified
      rw [hn]
    exact hexec.trans rfl

end

end Sys2Proof.Machine
end

section
/-! DBG_ACCESS (R533, R561). -/

namespace Sys2Proof.Machine

namespace Device

section
variable (d : Device)

/-! ### The gatehouse's SRAM -/

def sramByte (a : Nat) : Byte := (mapGet d.sram a).getD 0

theorem wrSram_only (a : Nat) (l : List Byte) : ∃ m, d.wrSram a l = { d with sram := m } := by
  induction l generalizing d a with
  | nil => exact ⟨d.sram, rfl⟩
  | cons b l ih =>
    obtain ⟨m, h⟩ := ih { d with sram := mapWrite 0 d.sram a b } (a + 1)
    exact ⟨m, h⟩

theorem sramByte_wrSram_out (a : Nat) (l : List Byte) (x : Nat) (h : x < a) : (d.wrSram a l).sramByte x = d.sramByte x := by
  induction l generalizing d a with
  | nil => rfl
  | cons b l ih =>
    rw [wrSram, ih _ (a + 1) (by omega)]
    unfold sramByte
    dsimp only
    rw [mapGet_mapWrite_ne _ _ _ _ _ (by omega)]

/-- What is written to the SRAM reads back. -/
theorem rdSram_wrSram (a : Nat) (l : List Byte) : (d.wrSram a l).rdSram a l.length = l := by
  induction l generalizing d a with
  | nil => rfl
  | cons b l ih =>
    have hhead : (d.wrSram a (b :: l)).sramByte a = b := by
      rw [wrSram, sramByte_wrSram_out _ _ _ _ (by omega)]
      unfold sramByte
      dsimp only
      rw [mapGet_mapWrite_same]
    have htail := ih { d with sram := mapWrite 0 d.sram a b } (a + 1)
    change (d.wrSram a (b :: l)).rdSram (a + 1) l.length = l at htail
    generalize d.wrSram a (b :: l) = e at hhead htail
    unfold rdSram at htail ⊢
    rw [List.length_cons, List.range_succ_eq_map, List.map_cons, List.map_map]
    refine congr (congrArg List.cons hhead) (Eq.trans ?_ htail)
    refine List.map_congr_left fun i _ => ?_
    change (mapGet e.sram (a + (i + 1))).getD 0 = _
    rw [show a + (i + 1) = a + 1 + i by omega]

/-! ### Pages -/

omit d in
/-- The pages lie between the directory and the MSI-X table. -/
theorem page_range {o : Nat} {p : Page} (h : pageAt o = some p) : 0x4000 ≤ o ∧ o < 0xFE_0000 := by
  have hall : ∀ k ∈ PageKind.all, 0x4000 ≤ k.base ∧ k.base + k.count * 0x1000 ≤ 0xFE_0000 := by decide
  unfold pageAt at h
  obtain ⟨k, hk, -⟩ := Option.map_eq_some_iff.mp h
  have hp := List.find?_some hk
  obtain ⟨h1, h2⟩ := hall k (List.mem_of_find?_eq_some hk)
  rw [Bool.and_eq_true, decide_eq_true_iff, decide_eq_true_iff] at hp
  omega

theorem sameBytes_pageEffect (who : Requester) (p : Page) (o : Nat) : SameBytes d (d.pageEffect who p o) := by
  unfold pageEffect
  split
  · exact ⟨rfl, rfl⟩
  split
  · exact ⟨rfl, rfl⟩
  split
  · exact ⟨rfl, rfl⟩
  · cases rowOf p o with
    | none => exact .refl d
    | some r =>
      dsimp only
      split
      · exact ⟨rfl, rfl⟩
      · exact .refl d

/-- Where the page answers, or there is none, the register BAR and the test port see one register file. -/
theorem regValue_of_page {o : Nat} {p : Page} (hp : pageAt o = some p) (hserved : d.pageServed p = true) (hoff : d.powered = true)
    (who : Requester) : d.regValue who o = d.pageValue who p (o % 4096) := by
  obtain ⟨h1, h2⟩ := page_range hp
  have hlive : d.livePage o = some p := by
    unfold livePage
    rw [hp, Option.bind_some, if_pos hserved]
  unfold regValue
  rw [hoff, if_neg (by decide), if_neg (by omega), if_neg (by omega), if_neg (by omega), if_neg (by omega), if_neg (by omega), hlive]

theorem wordWrite_of_page {o : Nat} {p : Page} (hp : pageAt o = some p) (hserved : d.pageServed p = true) (hoff : d.powered = true)
    (a : FuseArray) (who : Requester) (v : W32) : d.wordWrite a who o v = d.pageWrite a who p (o % 4096) v := by
  obtain ⟨h1, h2⟩ := page_range hp
  have hlive : d.livePage o = some p := by
    unfold livePage
    rw [hp, Option.bind_some, if_pos hserved]
  unfold wordWrite
  rw [hoff, if_neg (by decide), if_neg (by omega), if_neg (by omega), hlive]

/-! ### DBG_ACCESS -/

variable (a : FuseArray) (off : Nat)

theorem debugAccess_read_page {p : Page} (hp : pageAt (off / 4 * 4) = some p) : d.debugAccess a off .read =
    (d.pageEffect .host p (off / 4 * 4 % 4096)).shiftOut (leBytes 4 (d.pageValue .host p (off / 4 * 4 % 4096)).toNat) := by
  unfold debugAccess
  dsimp only
  rw [hp]

theorem debugAccess_write_page {p : Page} (hp : pageAt (off / 4 * 4) = some p) (v : W32) : d.debugAccess a off (.write v) =
    d.pageWrite a .host p (off / 4 * 4 % 4096) v := by
  unfold debugAccess
  dsimp only
  rw [hp]

theorem debugAccess_read_none (hp : pageAt (off / 4 * 4) = none) : d.debugAccess a off .read =
    d.shiftOut (if 0x100_0000 ≤ off / 4 * 4 ∧ off / 4 * 4 < 0x200_0000 then d.rdSram (off / 4 * 4 - 0x100_0000) 4
      else leBytes 4 (d.regValue .host (off / 4 * 4)).toNat) := by
  unfold debugAccess
  dsimp only
  rw [hp]
  dsimp only
  simp only [Bool.and_eq_true, decide_eq_true_eq]

theorem debugAccess_write_none (hp : pageAt (off / 4 * 4) = none) (v : W32) : d.debugAccess a off (.write v) =
    if 0x100_0000 ≤ off / 4 * 4 ∧ off / 4 * 4 < 0x200_0000 then d.wrSram (off / 4 * 4 - 0x100_0000) (leBytes 4 v.toNat)
    else d.wordWrite a .host (off / 4 * 4) v := by
  unfold debugAccess
  dsimp only
  rw [hp]
  dsimp only
  simp only [Bool.and_eq_true, decide_eq_true_eq]

theorem debugAccess_unlisted (code : BitVec 8) : d.debugAccess a off (.unlisted code) = d.tapRefuse Status.debugLocked := by
  unfold debugAccess
  dsimp only

end

end Device

section
variable {s : State} (hl : s.dev.tapLive = true) (hr : s.dev.hasRight 0 = true)
include hl hr

theorem dbgAccess_exec (off : BitVec 26) (w : DebugAccess) : exec (.dbgAccess off w) s =
    .next (s.onDev fun d => (d.select 0x20).debugAccess s.array off.toNat w) :=
  tap_open (a := fun d => d.hasRight 0) (b := fun _ => true) (f := fun d => d.debugAccess s.array off.toNat w) hl rfl hr rfl

/-- A word of the gatehouse's SRAM. -/
theorem dbgAccess_sram (off : BitVec 26) (h1 : 0x100_0000 ≤ off.toNat / 4 * 4) (h2 : off.toNat / 4 * 4 < 0x200_0000) :
    (Completes (.dbgAccess off .read) s fun t => s.onlyTo t { s.dev with
      tap := { s.dev.tap with ir := 0x20, driving := false }
      out := { s.dev.out with tdo := s.dev.rdSram (off.toNat / 4 * 4 - 0x100_0000) 4 } }) ∧
    ∀ v, Completes (.dbgAccess off (.write v)) s fun t =>
      t.dev.rdSram (off.toNat / 4 * 4 - 0x100_0000) 4 = leBytes 4 v.toNat ∧
      s.onlyTo t { s.dev with tap := { s.dev.tap with ir := 0x20, driving := false }, sram := t.dev.sram } := by
  have hnone : pageAt (off.toNat / 4 * 4) = none := by
    rw [Option.eq_none_iff_forall_ne_some]
    intro p hp
    have := Device.page_range hp
    omega
  refine ⟨⟨_, dbgAccess_exec hl hr off .read, ⟨rfl, rfl⟩, ?_⟩, fun v => ⟨_, dbgAccess_exec hl hr off _, ?_, ⟨rfl, rfl⟩, ?_⟩⟩
  · rw [State.onDev_dev, Device.debugAccess_read_none _ _ _ hnone, if_pos ⟨h1, h2⟩]
    rfl
  · rw [State.onDev_dev, Device.debugAccess_write_none _ _ _ hnone, if_pos ⟨h1, h2⟩]
    have h := (s.dev.select 0x20).rdSram_wrSram (off.toNat / 4 * 4 - 0x100_0000) (leBytes 4 v.toNat)
    rw [length_leBytes] at h
    exact h
  · rw [State.onDev_dev, Device.debugAccess_write_none _ _ _ hnone, if_pos ⟨h1, h2⟩]
    obtain ⟨m, hm⟩ := (s.dev.select 0x20).wrSram_only (off.toNat / 4 * 4 - 0x100_0000) (leBytes 4 v.toNat)
    rw [hm]
    rfl

/-- A register of a page. -/
theorem dbgAccess_page (off : BitVec 26) (p : Page) (hp : pageAt (off.toNat / 4 * 4) = some p) :
    Completes (.dbgAccess off .read) s fun t =>
      t.dev.out.tdo = leBytes 4 (s.dev.pageValue .host p (off.toNat / 4 * 4 % 4096)).toNat ∧ s.sameMemory t := by
  have hx := (s.dev.select 0x20).debugAccess_read_page s.array _ hp
  have hb := (s.dev.select 0x20).sameBytes_pageEffect .host p (off.toNat / 4 * 4 % 4096)
  refine ⟨_, dbgAccess_exec hl hr off .read, ?_, fun x => ?_⟩
  · rw [State.onDev_dev, hx]
    rfl
  · rw [State.onDev_dev, hx]
    exact hb.rdByte x

/-- Where a page is served, or there is none, the test port has the host's view. -/
theorem dbgAccess_host (off : BitVec 26) (hs : ¬ (0x100_0000 ≤ off.toNat / 4 * 4 ∧ off.toNat / 4 * 4 < 0x200_0000))
    (hserved : ∀ p, pageAt (off.toNat / 4 * 4) = some p → s.dev.pageServed p = true) :
    (Completes (.dbgAccess off .read) s fun t =>
      t.dev.out.tdo = leBytes 4 (s.dev.regValue .host (off.toNat / 4 * 4)).toNat ∧ s.sameMemory t) ∧
    ∀ v : W32, ∃ u, exec (.registerWrite .host (BitVec.ofNat 26 (off.toNat / 4 * 4)) 4 (v.setWidth 64))
        { s with dev := { s.dev with tap := { s.dev.tap with ir := 0x20, driving := false } } } = .next u ∧
      exec (.dbgAccess off (.write v)) s = .next u := by
  have hon : s.dev.powered = true := by
    have h := hl
    unfold Device.tapLive at h
    rw [Bool.and_eq_true] at h
    exact h.1
  have hwrite (v : W32) : (s.dev.select 0x20).debugAccess s.array off.toNat (.write v) =
      (s.dev.select 0x20).wordWrite s.array .host (off.toNat / 4 * 4) v := by
    cases hp : pageAt (off.toNat / 4 * 4) with
    | none => rw [Device.debugAccess_write_none _ _ _ hp, if_neg hs]
    | some p =>
      rw [Device.debugAccess_write_page _ _ _ hp, Device.wordWrite_of_page (s.dev.select 0x20) hp (hserved p hp) hon]
  have hoff : (BitVec.ofNat 26 (off.toNat / 4 * 4)).toNat = off.toNat / 4 * 4 := by
    rw [BitVec.toNat_ofNat]
    have := off.isLt
    exact Nat.mod_eq_of_lt (by omega)
  refine ⟨?_, fun v => ⟨_, ?_, dbgAccess_exec hl hr off _⟩⟩
  · cases hp : pageAt (off.toNat / 4 * 4) with
    | none =>
      refine ⟨_, dbgAccess_exec hl hr off .read, ?_, fun x => ?_⟩
      · rw [State.onDev_dev, Device.debugAccess_read_none _ _ _ hp, if_neg hs]
        rfl
      · rw [State.onDev_dev, Device.debugAccess_read_none _ _ _ hp, if_neg hs]
        rfl
    | some p =>
      obtain ⟨t, ht, hval, hmem⟩ := dbgAccess_page hl hr off p hp
      refine ⟨t, ht, ?_, hmem⟩
      rw [hval, s.dev.regValue_of_page hp (hserved p hp) hon]
  · have hreg : (s.dev.select 0x20).regWrite s.array .host (BitVec.ofNat 26 (off.toNat / 4 * 4)).toNat 4 (v.setWidth 64) =
        (s.dev.select 0x20).debugAccess s.array off.toNat (.write v) := by
      rw [hoff, hwrite]
      unfold Device.regWrite
      have hlegal : Device.legalAccess (off.toNat / 4 * 4) 4 = true := by
        unfold Device.legalAccess
        simp
      rw [hlegal, if_neg (by decide)]
      dsimp only
      rw [if_neg (by decide), BitVec.setWidth_setWidth_of_le v (by decide), BitVec.setWidth_eq]
    exact congrArg (fun e : Device => (Host.Outcome.next { s with dev := e } : Host.Outcome State Fault Refusal)) hreg

theorem dbgAccess_unlisted (off : BitVec 26) (code : BitVec 8) : Completes (.dbgAccess off (.unlisted code)) s fun t => s.onlyTo t { s.dev with
    tap := { s.dev.tap with ir := 0xFF, driving := false, code := Status.debugLocked } } := by
  refine ⟨_, dbgAccess_exec hl hr off _, ⟨rfl, rfl⟩, ?_⟩
  rw [State.onDev_dev, Device.debugAccess_unlisted]
  rfl

end

end Sys2Proof.Machine
end

section
/-! The test port, whole (R520, R533 to R537, R561, R588). -/

namespace Sys2Proof.Machine

namespace Device

section
variable (d : Device)

/-! ### START of a self-test -/

theorem startBist_refused {c : Code} (h : d.bistCheck = some c) : d.startBist = d.bistResult c := by
  unfold startBist
  rw [h]

/-- A refused START leaves its code. -/
theorem bistResult_spec (c : Code) : ∃ e, d.bistResult c = e ∧ e.bist = { d.bist with result := c } ∧ e.boot = d.boot ∧
    e.stalls = d.stalls ∧ SameBytes d e := by
  obtain ⟨x, hx⟩ : ∃ x : Device, x = { d with bist := { d.bist with result := c } } := ⟨_, rfl⟩
  have he : d.bistResult c = x.record Page.bist c := by
    rw [hx]
    rfl
  have hq := x.quiet_record Page.bist c
  have hs : SameBytes d x := by
    rw [hx]
    exact ⟨rfl, rfl⟩
  have hb : (x.record Page.bist c).bist = x.bist := by rw [hq]
  have ho : (x.record Page.bist c).boot = x.boot := hq.boot
  have ht : (x.record Page.bist c).stalls = x.stalls := by rw [hq]
  refine ⟨_, he, ?_, ?_, ?_, hs.trans hq.sameBytes⟩
  · rw [hb, hx]
  · rw [ho, hx]
  · rw [ht, hx]

/-- The run that START begins. -/
def newRun : BistRun :=
  let ctl := d.preg Page.bist 0x100
  let n := field ctl 4 3
  { origin := d.boot.state
    algo := BitVec.ofNat 2 (field ctl 0 2)
    sram := flag ctl 2
    lp6 := flag ctl 3
    maxUnits := if n = 0 ∨ 4 < n then 4 else n
    units := d.preg Page.bist 0x104
    chans := d.bistChans
    pause := d.pfield Page.bist 0x110 0 16
    todo := if flag ctl 2 then below 28 (flag (d.preg Page.bist 0x104)) else []
    round := 0
    ready := d.now + 1
    phase := 1
    failed := false
    seen := [] }

theorem startBist_runs (h : d.bistCheck = none) : ∃ e, d.startBist = e ∧ e.boot.state = .bist ∧ SameBytes d e ∧
    e.bist.run = some d.newRun ∧ e.bist.found = 0 ∧ e.bist.log = [] := by
  obtain ⟨x, hx⟩ : ∃ x : Device, x = { d with bist := { d.bist with
      run := some d.newRun, found := 0, log := [], phase := if d.newRun.sram then 1 else 2
      origin := BitVec.ofNat 3 (stateCode d.boot.state), startFrame := d.now.setWidth 32 } } := ⟨_, rfl⟩
  have he : d.startBist = x.setState .bist := by
    unfold startBist
    rw [h, hx]
    rfl
  have hs := x.setState_only .bist
  have hb : (x.setState .bist).bist = x.bist := by rw [hs]
  have hxs : SameBytes d x := by
    rw [hx]
    exact ⟨rfl, rfl⟩
  refine ⟨_, he, ?_, hxs.trans (x.sameBytes_setState .bist), ?_, ?_, ?_⟩
  · rw [hs]
  · rw [hb, hx]
  · rw [hb, hx]
  · rw [hb, hx]

/-! ### SCAN_CONNECT -/

theorem mapGet_filter {α : Type} (l : List (Nat × α)) (p : Nat → Bool) (a : Nat) :
    mapGet (l.filter fun c => p c.1) a = if p a then mapGet l a else none := by
  induction l with
  | nil => simp [mapGet]
  | cons c l ih =>
    obtain ⟨k, v⟩ := c
    rw [List.filter_cons]
    by_cases hp : p k = true
    · rw [if_pos hp, mapGet, mapGet, ih]
      by_cases hk : k = a
      · rw [if_pos hk, if_pos hk, ← hk, if_pos hp]
      · rw [if_neg hk, if_neg hk]
    · rw [if_neg hp, ih, mapGet]
      by_cases hk : k = a
      · rw [← hk, if_neg hp, if_neg hp]
      · rw [if_neg hk]

theorem rdByte_scanConnect (a : Nat) :
    (loftBase ≤ a → a < loftBase + 0x6000_0000 → d.scanConnect.rdByte a = 0) ∧
      (a < loftBase → d.scanConnect.rdByte a = d.rdByte a) := by
  have hmem : mapGet d.scanConnect.mem a = if (!(decide (loftBase ≤ a) && decide (a < loftBase + 0x6000_0000))) = true then
      mapGet d.mem a else none := mapGet_filter d.mem (fun a => !(decide (loftBase ≤ a) && decide (a < loftBase + 0x6000_0000))) a
  refine ⟨fun h1 h2 => ?_, fun h => ?_⟩
  · unfold rdByte
    rw [hmem, if_neg (by simp [h1, h2])]
    unfold blank fillAt
    rw [if_neg (by omega)]
    have hz : vget d.scanConnect.shedFill ((loftStall a).val / 16) (some d.scanConnect.epoch) = none := by
      have hlt : (loftStall a).val / 16 < 24 := by
        have := (loftStall a).isLt
        omega
      change vget (Vector.replicate 24 none) _ _ = none
      unfold vget
      rw [Vector.getElem?_eq_getElem hlt, Vector.getElem_replicate]
      rfl
    rw [hz]
    rfl
  · unfold rdByte
    rw [hmem, if_pos (by simp [Nat.not_le.mpr h])]
    unfold blank fillAt
    rw [if_pos h, if_pos h]
    rfl

end

end Device

section
variable {s : State} (hl : s.dev.tapLive = true)
include hl

/-- The self-test's page in ROM_WAIT. -/
theorem dbgAccess_bist (hr : s.dev.hasRight 0 = true) (hrom : s.dev.boot.state = .romWait) :
    (∀ v, Completes (.dbgAccess 0x9104 (.write v)) s fun t => t.dev.preg Page.bist 0x104 = v &&& 0x0FFF_FFFF ∧
      s.onlyTo t { s.dev with tap := { s.dev.tap with ir := 0x20, driving := false }, regs := t.dev.regs }) ∧
    (s.dev.bistCheck = none → Completes (.dbgAccess 0x9114 (.write 1)) s fun t =>
      t.dev.boot.state = .bist ∧ s.sameMemory t ∧ ∃ r, t.dev.bist.run = some r ∧ r.origin = .romWait ∧
      t.dev.bist.found = 0 ∧ t.dev.bist.log = []) ∧
    ∀ c, s.dev.bistCheck = some c → Completes (.dbgAccess 0x9114 (.write 1)) s fun t =>
      t.dev.bist = { s.dev.bist with result := c } ∧ t.dev.boot = s.dev.boot := by
  have hpage : pageAt ((0x9104 : BitVec 26).toNat / 4 * 4) = some Page.bist := by decide
  have hcmd : pageAt ((0x9114 : BitVec 26).toNat / 4 * 4) = some Page.bist := by decide
  obtain ⟨x, hx⟩ : ∃ x, x = s.dev.select 0x20 := ⟨_, rfl⟩
  have hunits (v : W32) : x.debugAccess s.array (0x9104 : BitVec 26).toNat (.write v) = x.setPreg Page.bist 0x104 (v &&& 0x0FFF_FFFF) := by
    rw [Device.debugAccess_write_page _ _ _ hpage]
    rfl
  have hstart : x.debugAccess s.array (0x9114 : BitVec 26).toNat (.write 1) = x.startBist := by
    rw [Device.debugAccess_write_page _ _ _ hcmd]
    rfl
  have hcheck : x.bistCheck = s.dev.bistCheck := by
    rw [hx]
    rfl
  have hexec {off : BitVec 26} {w : DebugAccess} {e : Device} (he : x.debugAccess s.array off.toNat w = e) :
      exec (.dbgAccess off w) s = .next (s.onDev fun _ => e) := by
    refine (dbgAccess_exec hl hr off w).trans (next_congr (fun _ => e) ?_)
    rw [← he, hx]
  have hbytes : Device.SameBytes s.dev x := by
    rw [hx]
    exact ⟨rfl, rfl⟩
  refine ⟨fun v => ⟨_, hexec (hunits v), Device.preg_setPreg_same _ _ _ _, ⟨rfl, rfl⟩, ?_⟩, fun hn => ?_, fun c hc => ?_⟩
  · rw [State.onDev_dev, hx]
    rfl
  · obtain ⟨e, he, hst, hb, hrun, hf, hlog⟩ := x.startBist_runs (hcheck.trans hn)
    refine ⟨_, hexec (hstart.trans he), hst, (hbytes.trans hb).rdByte, x.newRun, hrun, ?_, hf, hlog⟩
    have ho : x.newRun.origin = s.dev.boot.state := by
      rw [hx]
      rfl
    rw [ho, hrom]
  · obtain ⟨e, he, hb, ho, -⟩ := x.bistResult_spec c
    refine ⟨_, hexec ((hstart.trans (x.startBist_refused (hcheck.trans hc))).trans he), ?_, ?_⟩
    · rw [State.onDev_dev, hb, hx]
      rfl
    · rw [State.onDev_dev, ho, hx]
      rfl

/-- GH_HALT. -/
theorem ghHalt_spec :
    (s.dev.hasRight 1 = true → Completes .ghHalt s fun t => t.dev.boot = { s.dev.boot with halted := true } ∧
      t.dev.tap = { s.dev.tap with ir := 0x21, driving := false } ∧ t.dev.stalls = s.dev.stalls ∧ s.sameMemory t) ∧
    (s.dev.hasRight 1 = false → Completes .ghHalt s fun t => s.onlyTo t { s.dev with
      tap := { s.dev.tap with ir := 0xFF, driving := false, code := Status.debugLocked } }) := by
  refine ⟨fun hr => ?_, fun hr => tap_locked (a := fun d => d.hasRight 1) (b := fun _ => true) hl rfl hr⟩
  obtain ⟨x, hx⟩ : ∃ x : Device, x = { s.dev.select 0x21 with boot := { s.dev.boot with halted := true } } := ⟨_, rfl⟩
  have hexec : exec .ghHalt s = .next (s.onDev fun _ => if x.boot.state = .safe then x.failPending else x) := by
    refine (tap_open (a := fun d => d.hasRight 1) (b := fun _ => true) hl rfl hr rfl).trans (next_congr _ ?_)
    rw [hx]
    rfl
  have ho : Device.Outer x (if x.boot.state = .safe then x.failPending else x) := by
    split
    · exact x.outer_failPending
    · exact .refl x
  generalize (if x.boot.state = .safe then x.failPending else x) = e at hexec ho
  refine ⟨_, hexec, ?_, ?_, ?_, fun a => ?_⟩
  · rw [State.onDev_dev, ho.boot_eq, hx]
  · have h : e.tap = x.tap := by rw [ho.1]
    rw [State.onDev_dev, h, hx]
    rfl
  · have h : e.stalls = x.stalls := by rw [ho.1]
    rw [State.onDev_dev, h, hx]
    rfl
  · rw [State.onDev_dev, ho.sameBytes.rdByte, hx]
    rfl

/-- SCAN_CONNECT. -/
theorem scanConnect_spec :
    ((s.dev.hasRight 2 = true ∧ s.dev.trust.scanLock = false) → s.dev.landsFree = true → Completes .scanConnect s fun t =>
      t.dev.tap = { s.dev.tap with ir := 0x30, driving := false, scan := true } ∧ t.dev.sram = [] ∧
      t.dev.trust.idkValid = false ∧ t.dev.trust.idkPub = 0 ∧ t.dev.trust.nonce = none ∧ t.dev.trust.scanCleared = true ∧
      (∀ a, a < 0x6000_0000 → t.dev.rdByte (loftBase + a) = 0) ∧ (∀ a, a < loftBase → t.dev.rdByte a = s.dev.rdByte a) ∧
      ∀ k, t.dev.trust.usable k = false) ∧
    ((s.dev.hasRight 2 = true ∧ s.dev.trust.scanLock = false) → s.dev.landsFree = false → Completes .scanConnect s fun t =>
      s.onlyTo t { s.dev with tap := { s.dev.tap with ir := 0xFF, driving := false, code := Status.stateInvalid } }) ∧
    (¬ (s.dev.hasRight 2 = true ∧ s.dev.trust.scanLock = false) → Completes .scanConnect s fun t =>
      s.onlyTo t { s.dev with tap := { s.dev.tap with ir := 0xFF, driving := false, code := Status.debugLocked } }) := by
  have hmay (h : s.dev.hasRight 2 = true ∧ s.dev.trust.scanLock = false) : (s.dev.hasRight 2 && !s.dev.trust.scanLock) = true := by
    rw [h.1, h.2]
    rfl
  refine ⟨fun hm hf => ?_, fun hm hf => tap_state (a := fun d => d.hasRight 2 && !d.trust.scanLock) (b := Device.landsFree) hl rfl (hmay hm) hf,
    fun hm => tap_locked (a := fun d => d.hasRight 2 && !d.trust.scanLock) (b := Device.landsFree) hl rfl ?_⟩
  · refine ⟨_, tap_open (a := fun d => d.hasRight 2 && !d.trust.scanLock) (b := Device.landsFree) hl rfl (hmay hm) hf, rfl, rfl, rfl, rfl,
      rfl, rfl, fun a ha => ?_, fun a ha => ?_, fun k => Bool.and_false _⟩
    · exact ((s.dev.select 0x30).rdByte_scanConnect (loftBase + a)).1 (Nat.le_add_right _ _) (Nat.add_lt_add_left ha _)
    · exact ((s.dev.select 0x30).rdByte_scanConnect a).2 ha
  · rw [← Bool.not_eq_true]
    intro h
    rw [Bool.and_eq_true, Bool.not_eq_true'] at h
    exact hm h

/-- FUSE_PROG. -/
theorem fuseProg_spec (bits : BitVec 8192) :
    (s.dev.trust.debugLevel = 0 → Completes (.fuseProg bits) s fun t =>
      t.dev = { s.dev with tap := { s.dev.tap with ir := 0x40, driving := false } } ∧
      ∀ i, i < 8192 → flag t.array i = (flag s.array i || decide (i ∈ Device.programmed s.array bits))) ∧
    (s.dev.trust.debugLevel ≠ 0 → Completes (.fuseProg bits) s fun t => s.onlyTo t { s.dev with
      tap := { s.dev.tap with ir := 0xFF, driving := false, code := Status.debugLocked } }) := by
  have hexec : exec (.fuseProg bits) s = if (s.dev.tapLive && decide (s.dev.level = 0)) = true then
      .next { s with
        array := Device.blown s.array (Device.programmed s.array bits), dev := s.dev.tapRun 0x40 (s.dev.level = 0) true id }
      else .next { s with dev := s.dev.tapRun 0x40 (s.dev.level = 0) true id } := rfl
  refine ⟨fun h => ?_, fun h => ?_⟩
  · have h0 : decide (s.dev.level = 0) = true := decide_eq_true h
    rw [h0, hl, if_pos (by rfl), s.dev.tapRun_open _ _ hl] at hexec
    refine ⟨_, hexec, rfl, fun i hi => ?_⟩
    rw [flag_blown, decide_eq_true hi, Bool.true_and]
  · have h0 : decide (s.dev.level = 0) = false := decide_eq_false h
    rw [h0, hl, if_neg (by decide), s.dev.tapRun_locked _ _ _ hl] at hexec
    exact ⟨_, hexec, ⟨rfl, rfl⟩, rfl⟩

end

/-- Settles O57, an instruction at a time: each by whether the level, the rights and the state open it. -/
theorem testPort : Obligations.TestPort := by
  unfold Obligations.TestPort
  intro s hoff
  refine ⟨⟨_, rfl, ⟨rfl, rfl⟩, rfl⟩, fun h n k off w bits => trst_holds h n k off w bits, fun htrst => ?_⟩
  have hl := s.dev.tapLive_of hoff htrst
  have hno (i : Nat) (h : ¬ (s.dev.trust.debugLevel = 0 ∨ (s.dev.trust.debugLevel = 1 ∧ flag s.dev.trust.rights i = true))) :
      s.dev.hasRight i = false := by
    rw [← Bool.not_eq_true, s.dev.hasRight_iff]
    exact h
  have hlands : ¬ (s.dev.boot.state = .romWait ∨ s.dev.boot.state = .safe) → s.dev.landsFree = false := by
    intro h
    rw [← Bool.not_eq_true, s.dev.landsFree_iff]
    exact h
  intro tap level right lands only chosen out refused
  refine ⟨?_, ⟨_, tap_open (a := fun _ => true) (b := fun _ => true) hl rfl rfl rfl, ⟨rfl, rfl⟩, rfl⟩,
    ⟨_, tap_open (a := fun _ => true) (b := fun _ => true) hl rfl rfl rfl, ⟨rfl, rfl⟩, rfl⟩, ?_, challenge_spec hl, token_spec hl,
    debugTokenVerified_spec.1, debugTokenVerified_spec.2, dbgStatus_spec hl, fun off => ?_, fun h0 hrom =>
    dbgAccess_bist hl ((s.dev.hasRight_iff 0).mpr h0) hrom, fun h => (ghHalt_spec hl).1 ((s.dev.hasRight_iff 1).mpr h),
    fun h => (ghHalt_spec hl).2 (hno 1 h), ?_, fuseProg_spec hl⟩
  · intro i ir hi
    simp only [List.mem_cons, Prod.mk.injEq, List.not_mem_nil, or_false] at hi
    rcases hi with ⟨rfl, rfl⟩ | ⟨rfl, rfl⟩ | ⟨rfl, rfl⟩
    · exact extest_spec hl rfl
    · exact extest_spec hl rfl
    · exact extest_spec hl rfl
  · refine ⟨_, tap_open (a := fun _ => true) (b := fun _ => true) hl rfl rfl rfl, ⟨rfl, rfl⟩, ?_⟩
    have hid : 0x1 * 2 ^ 28 + 0x0900 * 2 ^ 12 + Config.jep106.toNat * 2 + 1 = 0x1090_0001 + Config.jep106.toNat * 2 := by omega
    exact congrArg (fun n => (s.dev.select 0x02).shiftOut (leBytes 4 n)) hid
  · have hr (h0 : right 0) : s.dev.hasRight 0 = true := (s.dev.hasRight_iff 0).mpr h0
    exact ⟨fun h0 h1 h2 => dbgAccess_sram hl (hr h0) off h1 h2, fun h0 p hp => dbgAccess_page hl (hr h0) off p hp,
      fun h0 hs hserved => dbgAccess_host hl (hr h0) off hs hserved, fun code => by
        by_cases h0 : s.dev.hasRight 0 = true
        · exact dbgAccess_unlisted hl h0 off code
        · exact tap_locked (a := fun d => d.hasRight 0) (b := fun _ => true) hl rfl (by simpa using h0),
      fun h0 w => tap_locked (a := fun d => d.hasRight 0) (b := fun _ => true) hl rfl (hno 0 h0)⟩
  · obtain ⟨h1, h2, h3⟩ := scanConnect_spec hl
    refine ⟨fun hm hf => h1 ⟨(s.dev.hasRight_iff 2).mpr hm.1, hm.2⟩ ((s.dev.landsFree_iff).mpr hf),
      fun hm hf => h2 ⟨(s.dev.hasRight_iff 2).mpr hm.1, hm.2⟩ (hlands hf), fun hm => h3 fun h => hm ⟨(s.dev.hasRight_iff 2).mp h.1, h.2⟩⟩

end Sys2Proof.Machine
end

section
/-! Lane sparing (R364 to R367). -/

namespace Sys2Proof.Machine

/-- A CONTROL flit with that tag waits on VC0. -/
def Port.waits (u : Port) (tag : BitVec 20) : Prop := ∃ w ∈ vget u.queue 0 [], w.tag = tag

/-- What a CONTROL flit that waits leaves of its port. -/
theorem control_only (q : Port) (ctl : Nat) (payload : List Byte) :
    q.control ctl payload = { q with queue := (q.control ctl payload).queue } := rfl

theorem waits_control (q : Port) (ctl : Nat) (payload : List Byte) : (q.control ctl payload).waits (BitVec.ofNat 20 (ctl * 4096)) := by
  refine ⟨{ ftype := 2, tag := BitVec.ofNat 20 (ctl * 4096), payload := padTo 240 payload, booked := false }, ?_, rfl⟩
  change _ ∈ vget (vset q.queue 0 _) 0 []
  rw [vget_vset _ _ _ _ _ (by decide), if_pos rfl]
  exact List.mem_append_right _ List.mem_cons_self

namespace Device

/-- e is d but for one port, registers and messages. -/
def PortOnly (p : PortId) (d e : Device) : Prop :=
  e = { d with ports := e.ports, regs := e.regs, pba := e.pba, out := e.out } ∧ ∀ r, r ≠ p → e.ports[r] = d.ports[r]

namespace PortOnly

variable {p : PortId}

theorem refl (d : Device) : PortOnly p d d := ⟨rfl, fun _ _ => rfl⟩

theorem trans {d e f : Device} (h : PortOnly p d e) (k : PortOnly p e f) : PortOnly p d f := by
  refine ⟨?_, fun r hr => (k.2 r hr).trans (h.2 r hr)⟩
  rw [k.1, h.1]

theorem of_quiet {d e : Device} (h : Quiet d e) : PortOnly p d e := by
  refine ⟨?_, fun _ _ => ?_⟩
  · rw [h]
  · have hp : e.ports = d.ports := by rw [h]
    rw [hp]

theorem modPort (d : Device) (f : Port → Port) : PortOnly p d (d.modPort p f) :=
  ⟨rfl, fun r hr => upd_ne _ _ _ _ hr⟩

theorem sameBytes {d e : Device} (h : PortOnly p d e) : SameBytes d e := by
  rw [h.1]
  exact ⟨rfl, rfl⟩

theorem stalls {d e : Device} (h : PortOnly p d e) : e.stalls = d.stalls := by rw [h.1]

end PortOnly

end Device

section
variable {s : State} {p : PortId}

/-- What a command of one port leaves of the rest. -/
def State.othersStay (s : State) (p : PortId) (t : State) : Prop :=
  s.sameMemory t ∧ t.dev.stalls = s.dev.stalls ∧ ∀ r, r ≠ p → t.dev.ports[r] = s.dev.ports[r]

/-- A command that changes one port, where the port ends as f says. -/
theorem changes_of {i : Instr} {e : Device} (hexec : exec i s = .next (s.onDev fun _ => e)) (ho : Device.PortOnly p s.dev e)
    {f : Port → Prop} (hf : f e.ports[p]) : Completes i s fun t =>
      s.sameMemory t ∧ t.dev.stalls = s.dev.stalls ∧ (∀ r, r ≠ p → t.dev.ports[r] = s.dev.ports[r]) ∧ f t.dev.ports[p] :=
  ⟨_, hexec, ho.sameBytes.rdByte, ho.stalls, ho.2, hf⟩

/-- A command that ends in a change of the port alone. -/
theorem changes_modPort {i : Instr} {d : Device} {g : Port → Port} (hexec : exec i s = .next (s.onDev fun _ => d.modPort p g))
    (ho : Device.PortOnly p s.dev d) {q : Port} (hq : d.ports[p] = q) {f : Port → Prop} (hf : f (g q)) : Completes i s fun t =>
      s.sameMemory t ∧ t.dev.stalls = s.dev.stalls ∧ (∀ r, r ≠ p → t.dev.ports[r] = s.dev.ports[r]) ∧ f t.dev.ports[p] := by
  refine changes_of hexec (ho.trans (.modPort d g)) ?_
  rw [d.ports_modPort_same, hq]
  exact hf

/-- A port that hears a flit of VC0, and what stays of it. -/
theorem heard_of (s : State) (p : PortId) : ∃ d : Device, d = s.dev.modPort p (heardBy 0) ∧ Device.PortOnly p s.dev d ∧
    d.ports[p] = heardBy 0 s.dev.ports[p] ∧ d.now = s.dev.now :=
  ⟨_, rfl, .modPort s.dev _, s.dev.ports_modPort_same p _, rfl⟩

theorem heardBy_lanes (q : Port) : (heardBy 0 q).tx = q.tx ∧ (heardBy 0 q).rx = q.rx ∧ (heardBy 0 q).swapTx = q.swapTx ∧
    (heardBy 0 q).swapRx = q.swapRx ∧ (heardBy 0 q).features = q.features ∧ (heardBy 0 q).faultDue = q.faultDue := by
  rw [heardBy_only]
  exact ⟨rfl, rfl, rfl, rfl, rfl, rfl⟩

/-! ### What the transmitter hears -/

section
variable {h : FlitHeader} {lane : Fin 17} (hh : s.hears p h 0)
include hh

theorem swapReq_plans (h1 : s.dev.ports[p].has 1 = true) (sp : Fin 17) (hsp : s.dev.ports[p].tx.spare = some sp)
    (hnone : s.dev.ports[p].swapTx = none) (hact : flag s.dev.ports[p].tx.active lane = true) :
    Completes (.swapReq p h lane false) s fun t =>
      s.sameMemory t ∧ t.dev.stalls = s.dev.stalls ∧ (∀ r, r ≠ p → t.dev.ports[r] = s.dev.ports[r]) ∧
      t.dev.ports[p].swapTx = some ⟨lane, sp, s.dev.now + 2, false⟩ ∧ t.dev.ports[p].tx = s.dev.ports[p].tx ∧
      t.dev.ports[p].waits 0x31000 := by
  obtain ⟨d, hd, ho, hq, hnow⟩ := heard_of s p
  obtain ⟨q, hqq⟩ : ∃ q, heardBy 0 s.dev.ports[p] = q := ⟨_, rfl⟩
  obtain ⟨htx, -, hstx, -, hfeat, -⟩ := heardBy_lanes s.dev.ports[p]
  rw [hqq] at hq htx hstx hfeat
  obtain ⟨bytes, hbytes⟩ : ∃ l, l = [BitVec.ofNat 8 lane.val, BitVec.ofNat 8 sp.val] ++ leBytes 6 (s.dev.now + 2).toNat := ⟨_, rfl⟩
  have hexec : exec (.swapReq p h lane false) s = .next (s.onDev fun _ => d.modPort p fun q =>
      ({ q with swapTx := some ⟨lane, sp, s.dev.now + 2, false⟩ } : Port).control 0x31 bytes) := by
    refine next_congr (fun _ => d.modPort p fun q =>
      ({ q with swapTx := some ⟨lane, sp, s.dev.now + 2, false⟩ } : Port).control 0x31 bytes) ?_
    rw [receiveControl_of_hears hh (by rw [h1]; rfl), ← hd]
    dsimp only
    rw [if_neg (by decide), hq, htx, hsp, hstx, hnone]
    dsimp only
    rw [if_neg (by rw [hact]; decide), hnow, ← hbytes, Device.controlFlit, Device.modPort_modPort]
  exact changes_modPort hexec ho hq (f := fun u => u.swapTx = some ⟨lane, sp, s.dev.now + 2, false⟩ ∧ u.tx = s.dev.ports[p].tx ∧
    u.waits 0x31000) ⟨rfl, htx, waits_control _ _ _⟩

theorem swapReq_cancels (h1 : s.dev.ports[p].has 1 = true) (w : Swap) (hw : s.dev.ports[p].swapTx = some w) (hl : w.lane = lane)
    (hlost : w.lost = false) :
    Completes (.swapReq p h lane true) s fun t =>
      s.sameMemory t ∧ t.dev.stalls = s.dev.stalls ∧ (∀ r, r ≠ p → t.dev.ports[r] = s.dev.ports[r]) ∧
      t.dev.ports[p].swapTx = none ∧ t.dev.ports[p].tx = { s.dev.ports[p].tx with spare := none } := by
  obtain ⟨d, hd, ho, hq, hnow⟩ := heard_of s p
  obtain ⟨q, hqq⟩ : ∃ q, heardBy 0 s.dev.ports[p] = q := ⟨_, rfl⟩
  obtain ⟨htx, -, hstx, -, hfeat, -⟩ := heardBy_lanes s.dev.ports[p]
  rw [hqq] at hq htx hstx hfeat
  have hexec : exec (.swapReq p h lane true) s = .next (s.onDev fun _ => d.modPort p fun q =>
      { q with swapTx := none, tx := { q.tx with spare := none } }) := by
    refine next_congr (fun _ => d.modPort p fun q => { q with swapTx := none, tx := { q.tx with spare := none } }) ?_
    rw [receiveControl_of_hears hh (by rw [h1]; rfl), ← hd]
    dsimp only
    rw [if_pos rfl, hq, hstx, hw, if_pos (by simp [hl, hlost])]
  exact changes_modPort hexec ho hq (f := fun u => u.swapTx = none ∧ u.tx = { s.dev.ports[p].tx with spare := none })
    ⟨rfl, by rw [htx]⟩

theorem swapAck_spec (h1 : s.dev.ports[p].has 1 = true) (w : Swap) (sp : Fin 17) (f : Frame)
    (hw : s.dev.ports[p].swapRx = some w) (hl : w.lane = lane) :
    (w.lost = false → Completes (.swapAck p h lane sp f) s fun t =>
      s.sameMemory t ∧ t.dev.stalls = s.dev.stalls ∧ (∀ r, r ≠ p → t.dev.ports[r] = s.dev.ports[r]) ∧
      t.dev.ports[p].swapRx = some { w with spare := sp, frame := f } ∧ t.dev.ports[p].rx = s.dev.ports[p].rx) ∧
    (w.lost = true → Completes (.swapAck p h lane sp f) s fun t =>
      s.sameMemory t ∧ t.dev.stalls = s.dev.stalls ∧ (∀ r, r ≠ p → t.dev.ports[r] = s.dev.ports[r]) ∧
      t.dev.ports[p].swapRx = none ∧ t.dev.ports[p].rx = Device.swapLane s.dev.ports[p].rx { w with spare := sp, frame := f }) := by
  obtain ⟨d, hd, ho, hq, hnow⟩ := heard_of s p
  obtain ⟨q, hqq⟩ : ∃ q, heardBy 0 s.dev.ports[p] = q := ⟨_, rfl⟩
  obtain ⟨-, hrx, -, hsrx, hfeat, -⟩ := heardBy_lanes s.dev.ports[p]
  rw [hqq] at hq hrx hsrx hfeat
  obtain ⟨w', hw'⟩ : ∃ w' : Swap, w' = { w with spare := sp, frame := f } := ⟨_, rfl⟩
  have hexec {e : Device} (he : (if w'.lost = true then
      (d.modPort p fun q => { q with rx := Device.swapLane q.rx w', swapRx := none }).event (Page.port p) 2
      else d.modPort p fun q => { q with swapRx := some w' }) = e) : exec (.swapAck p h lane sp f) s = .next (s.onDev fun _ => e) := by
    refine next_congr (fun _ => e) ?_
    rw [receiveControl_of_hears hh (by rw [h1]; rfl), ← hd]
    dsimp only
    rw [hq, hsrx, hw]
    dsimp only
    rw [if_neg (fun hne => hne hl)]
    subst hw'
    exact he
  have hlost : w'.lost = w.lost := by rw [hw']
  rw [hlost] at hexec
  rw [← hw']
  refine ⟨fun hf => ?_, fun ht => ?_⟩
  · exact changes_modPort (hexec (if_neg (by rw [hf]; decide))) ho hq (f := fun u => u.swapRx = some w' ∧ u.rx = s.dev.ports[p].rx)
      ⟨rfl, hrx⟩
  · have hev := Device.quiet_event (d.modPort p fun q => { q with rx := Device.swapLane q.rx w', swapRx := none }) (Page.port p) 2
    refine changes_of (hexec (if_pos ht)) (ho.trans ((Device.PortOnly.modPort d _).trans (.of_quiet hev)))
      (f := fun u => u.swapRx = none ∧ u.rx = Device.swapLane s.dev.ports[p].rx w') ?_
    have hports : ((d.modPort p fun q => { q with rx := Device.swapLane q.rx w', swapRx := none }).event (Page.port p) 2).ports =
        (d.modPort p fun q => { q with rx := Device.swapLane q.rx w', swapRx := none }).ports := by rw [hev]
    rw [hports, d.ports_modPort_same, hq, hrx]
    exact ⟨rfl, rfl⟩

theorem laneDown_spec (h1 : s.dev.ports[p].has 1 = true) (hact : flag s.dev.ports[p].tx.active lane = true)
    (hnone : s.dev.ports[p].swapTx = none) :
    (s.dev.ports[p].tx.spare = none → Completes (.laneDown p h lane) s fun t =>
      s.sameMemory t ∧ t.dev.stalls = s.dev.stalls ∧ (∀ r, r ≠ p → t.dev.ports[r] = s.dev.ports[r]) ∧
      t.dev.ports[p].tx = { s.dev.ports[p].tx with active := clearBit s.dev.ports[p].tx.active lane, degraded := true } ∧
      t.dev.ports[p].faultDue = if s.dev.ports[p].tx.degraded || Device.short s.dev.ports[p].rx s.dev.ports[p].swapRx then some 1
        else s.dev.ports[p].faultDue) ∧
    (∀ sp, s.dev.ports[p].tx.spare = some sp → Completes (.laneDown p h lane) s fun t =>
      s.sameMemory t ∧ t.dev.stalls = s.dev.stalls ∧ (∀ r, r ≠ p → t.dev.ports[r] = s.dev.ports[r]) ∧
      t.dev.ports[p].swapTx = some ⟨lane, sp, s.dev.now + 1, true⟩ ∧ flag t.dev.ports[p].tx.active lane = false ∧
      t.dev.ports[p].waits 0x31000) := by
  obtain ⟨d, hd, ho, hq, hnow⟩ := heard_of s p
  obtain ⟨q, hqq⟩ : ∃ q, heardBy 0 s.dev.ports[p] = q := ⟨_, rfl⟩
  obtain ⟨htx, hrx, hstx, hsrx, hfeat, hfd⟩ := heardBy_lanes s.dev.ports[p]
  rw [hqq] at hq htx hrx hstx hsrx hfeat hfd
  obtain ⟨m, hm⟩ : ∃ m : LaneMap, m = { s.dev.ports[p].tx with active := clearBit s.dev.ports[p].tx.active lane, degraded := true } :=
    ⟨_, rfl⟩
  obtain ⟨fault, hfault⟩ : ∃ x : Option (BitVec 8), x = if s.dev.ports[p].tx.degraded ||
      Device.short s.dev.ports[p].rx s.dev.ports[p].swapRx then some 1 else s.dev.ports[p].faultDue := ⟨_, rfl⟩
  have hlose : Device.loseLane q q.tx lane = (m, fault) := by
    unfold Device.loseLane
    rw [htx, hstx, hnone, hrx, hsrx, hfd, hm, hfault]
    have hs : Device.short s.dev.ports[p].tx none = s.dev.ports[p].tx.degraded := by
      unfold Device.short
      simp
    rw [hs, Bool.or_self]
  obtain ⟨g, hg⟩ : ∃ g : Port → Port, g = fun q => { q with
    tx := m, faultDue := fault, room := q.room * lanes m.active / max 1 (lanes q.tx.active) } := ⟨_, rfl⟩
  rw [← hm, ← hfault]
  refine ⟨fun hsp => ?_, fun sp hsp => ?_⟩
  · have hexec : exec (.laneDown p h lane) s = .next (s.onDev fun _ => d.modPort p g) := by
      refine next_congr (fun _ => d.modPort p g) ?_
      rw [receiveControl_of_hears hh rfl, ← hd]
      dsimp only
      rw [hq, htx, if_neg (by rw [hact]; decide), ← htx, hlose]
      dsimp only
      rw [hstx, hnone, htx, hsp, ← hg]
    refine changes_modPort hexec ho hq (f := fun u => u.tx = m ∧ u.faultDue = fault) ?_
    rw [hg]
    exact ⟨rfl, rfl⟩
  · obtain ⟨bytes, hbytes⟩ : ∃ l, l = [BitVec.ofNat 8 lane.val, BitVec.ofNat 8 sp.val] ++ leBytes 6 (s.dev.now + 1).toNat := ⟨_, rfl⟩
    have hhas : q.has 1 = true := by
      unfold Port.has at h1 ⊢
      rw [hfeat, h1]
    have hexec : exec (.laneDown p h lane) s = .next (s.onDev fun _ => d.modPort p fun q =>
        ({ g q with swapTx := some ⟨lane, sp, s.dev.now + 1, true⟩ } : Port).control 0x31 bytes) := by
      refine next_congr (fun _ => d.modPort p fun q =>
        ({ g q with swapTx := some ⟨lane, sp, s.dev.now + 1, true⟩ } : Port).control 0x31 bytes) ?_
      rw [receiveControl_of_hears hh rfl, ← hd]
      dsimp only
      rw [hq, htx, if_neg (by rw [hact]; decide), ← htx, hlose]
      dsimp only
      rw [hstx, hnone, htx, hsp, ← hg]
      dsimp only
      rw [if_pos hhas]
      have hn : (d.modPort p g).now = s.dev.now := hnow
      rw [hn, ← hbytes, Device.controlFlit, Device.modPort_modPort, Device.modPort_modPort]
    refine changes_modPort hexec ho hq (f := fun u => u.swapTx = some ⟨lane, sp, s.dev.now + 1, true⟩ ∧
      flag u.tx.active lane = false ∧ u.waits 0x31000) ⟨rfl, ?_, waits_control _ _ _⟩
    rw [control_only]
    dsimp only
    rw [hg, hm]
    refine (getLsbD_clearBit _ _ _ lane.isLt).trans ?_
    simp

end

end

end Sys2Proof.Machine
end

section
/-! Lane sparing: what the receiver counts, the frame of a swap, and a lost lock (R364 to R367), whole. -/

namespace Sys2Proof.Machine

section
variable {s : State} {p : PortId} {lane : Fin 17}

theorem swapThreshold_spec (n k : Nat) (sp : Fin 17) (ht : s.dev.ports[p].talking = true)
    (hact : flag s.dev.ports[p].rx.active lane = true) (hnone : s.dev.ports[p].swapRx = none) (h1 : s.dev.ports[p].has 1 = true)
    (hsp : s.dev.ports[p].rx.spare = some sp) :
    let r : Port := { s.dev.ports[p] with fec := s.dev.ports[p].fec ++ [(s.dev.now, lane, n, k)] }
    let asks := (s.dev.preg (Page.port p) 0x124).toNat < s.dev.corrected r lane ∨ 2 ≤ s.dev.codewordFrames r lane
    (asks → Completes (.swapThreshold p lane n k) s fun t =>
      s.sameMemory t ∧ t.dev.stalls = s.dev.stalls ∧ (∀ r, r ≠ p → t.dev.ports[r] = s.dev.ports[r]) ∧
      t.dev.ports[p].swapRx = some ⟨lane, sp, 0, false⟩ ∧ t.dev.ports[p].waits 0x30000) ∧
    (¬ asks → Completes (.swapThreshold p lane n k) s fun t =>
      s.sameMemory t ∧ t.dev.stalls = s.dev.stalls ∧ (∀ r, r ≠ p → t.dev.ports[r] = s.dev.ports[r]) ∧ t.dev.ports[p] = r) := by
  intro r asks
  obtain ⟨x, hx⟩ : ∃ x, x = (s.dev.bump (Page.port p) (0x180 + 4 * lane.val) n).bump (Page.port p) 0x168 k := ⟨_, rfl⟩
  have hquiet : Device.Quiet s.dev x := by
    rw [hx]
    exact (s.dev.quiet_bump _ _ _).trans (Device.quiet_bump _ _ _ _)
  have hports : x.ports = s.dev.ports := by rw [hquiet]
  have hnow : x.now = s.dev.now := by rw [hquiet]; rfl
  have hthr : x.preg (Page.port p) 0x124 = s.dev.preg (Page.port p) 0x124 := by
    rw [hx]
    have hlane := lane.isLt
    have hne (o : Nat) (ho : o < 0x1000) (hx : o ≠ 0x124) : (Page.port p).reg 0x124 ≠ (Page.port p).reg o :=
      fun h => hx (Nat.add_left_cancel h).symm
    exact (Device.reg_bump_ne _ _ _ _ _ (hne _ (by decide) (by decide))).trans
      (Device.reg_bump_ne _ _ _ _ _ (hne _ (by omega) (by omega)))
  obtain ⟨d, hd⟩ : ∃ d, d = x.modPort p fun q => { q with fec := q.fec ++ [(x.now, lane, n, k)] } := ⟨_, rfl⟩
  have hq : d.ports[p] = r := by
    rw [hd, x.ports_modPort_same, hnow]
    exact congrArg (fun v : Vector Port 8 => ({ v[p] with fec := v[p].fec ++ [(s.dev.now, lane, n, k)] } : Port)) hports
  have ho : Device.PortOnly p s.dev d := by
    rw [hd]
    exact (Device.PortOnly.of_quiet hquiet).trans (.modPort x _)
  have hdnow : d.now = s.dev.now := by rw [hd]; exact hnow
  have hdthr : d.preg (Page.port p) 0x124 = s.dev.preg (Page.port p) 0x124 := by rw [hd]; exact hthr
  have hcor : d.corrected r lane = s.dev.corrected r lane := by
    unfold Device.corrected
    rw [hdnow]
  have hcw : d.codewordFrames r lane = s.dev.codewordFrames r lane := by
    unfold Device.codewordFrames
    rw [hdnow]
  have hrt : r.talking = true := ht
  have hra : flag r.rx.active lane = true := hact
  have hrn : r.swapRx = none := hnone
  have hr1 : r.has 1 = true := h1
  have hrs : r.rx.spare = some sp := hsp
  clear_value r
  have hask : (decide ((d.preg (Page.port p) 0x124).toNat < d.corrected r lane) || decide (2 ≤ d.codewordFrames r lane)) = decide asks := by
    rw [hdthr, hcor, hcw, ← Bool.decide_or]
  obtain ⟨reason, hreason⟩ : ∃ b, b = b2n (decide (2 ≤ d.codewordFrames r lane)) := ⟨_, rfl⟩
  have hexec {e : Device} (he : (if asks then (d.modPort p fun q => { q with swapRx := some ⟨lane, sp, 0, false⟩ }).swapReq p lane reason
      else d) = e) : exec (.swapThreshold p lane n k) s = .next (s.onDev fun _ => e) := by
    refine next_congr (fun _ => e) ?_
    dsimp only
    rw [← hx, ← hd, hq, hrs]
    dsimp only
    rw [hask, hrt, hra, hrn, hr1, ← hreason, ← he]
    by_cases h : asks
    · rw [if_pos h, if_pos (by rw [decide_eq_true h]; rfl)]
    · rw [if_neg h, if_neg (by rw [decide_eq_false h]; decide)]
  refine ⟨fun h => ?_, fun h => ?_⟩
  · have he := hexec (if_pos h)
    unfold Device.swapReq Device.controlFlit at he
    rw [Device.modPort_modPort] at he
    exact changes_modPort he ho hq (f := fun u => u.swapRx = some ⟨lane, sp, 0, false⟩ ∧ u.waits 0x30000) ⟨rfl, waits_control _ _ _⟩
  · exact changes_of (hexec (if_neg h)) ho (f := fun u => u = r) hq

/-! ### The frame of a swap -/

/-- Planned swaps that are due take effect. -/
def swapped (tx rx : Option Swap) (q : Port) : Port :=
  { q with
    tx := (tx.map (Device.swapLane q.tx)).getD q.tx, swapTx := if tx.isSome then none else q.swapTx
    rx := (rx.map (Device.swapLane q.rx)).getD q.rx, swapRx := if rx.isSome then none else q.swapRx }

/-- A swap is due. -/
def Swap.due (now : Frame) (w : Swap) : Bool := w.frame ≠ 0 && decide (w.frame.toNat ≤ now.toNat)

/-- Swaps take effect, and are reported. -/
def Device.swapsApplied (d : Device) (p : PortId) (now : Frame) : Device :=
  let tx := d.ports[p].swapTx.filter (Swap.due now)
  let rx := d.ports[p].swapRx.filter (Swap.due now)
  if tx.isSome || rx.isSome then (d.modPort p (swapped tx rx)).event (Page.port p) 2 else d.modPort p (swapped tx rx)

theorem applySwaps_none (d : Device) (checked : Bool) (h : d.ports[p].swapRx = none) : d.applySwaps p checked = d.swapsApplied p d.now := by
  unfold Device.applySwaps
  rw [h]
  rfl

theorem applySwaps_some (d : Device) (checked : Bool) (w : Swap) (h : d.ports[p].swapRx = some w) : d.applySwaps p checked =
    (if (w.due d.now && !checked && !w.lost) = true then d.cancelSwap p w else d).swapsApplied p d.now := by
  unfold Device.applySwaps
  rw [h]
  rfl

/-- A planned swap that is due changes the port alone. -/
theorem swapsApplied_due (d : Device) (now : Frame) {tx rx : Option Swap} (htx : d.ports[p].swapTx.filter (Swap.due now) = tx)
    (hrx : d.ports[p].swapRx.filter (Swap.due now) = rx) (h : (tx.isSome || rx.isSome) = true) :
    Device.PortOnly p d (d.swapsApplied p now) ∧ (d.swapsApplied p now).ports[p] = swapped tx rx d.ports[p] := by
  have he : d.swapsApplied p now = (d.modPort p (swapped tx rx)).event (Page.port p) 2 := by
    unfold Device.swapsApplied
    rw [htx, hrx]
    exact if_pos h
  have hq := Device.quiet_event (d.modPort p (swapped tx rx)) (Page.port p) 2
  rw [he]
  refine ⟨(Device.PortOnly.modPort d _).trans (.of_quiet hq), ?_⟩
  have hp : ((d.modPort p (swapped tx rx)).event (Page.port p) 2).ports = (d.modPort p (swapped tx rx)).ports := by rw [hq]
  rw [hp, d.ports_modPort_same]

theorem due_of {w : Swap} {now : Frame} (h0 : w.frame ≠ 0) (h : w.frame.toNat ≤ now.toNat) : w.due now = true := by
  unfold Swap.due
  rw [decide_eq_true h0, decide_eq_true h]
  rfl

section
variable (ht : s.dev.ports[p].talking = true) (hb : s.dev.inBoundary = false)
include ht hb

theorem swapFrame_exec (checked : Bool) {e : Device} (he : s.dev.applySwaps p checked = e) :
    exec (.swapFrame ⟨p, checked⟩) s = .next (s.onDev fun _ => e) := by
  refine next_congr (fun _ => e) ?_
  rw [ht, hb]
  exact he

theorem swapFrame_tx (checked : Bool) (w : Swap) (hw : s.dev.ports[p].swapTx = some w) (h0 : w.frame ≠ 0)
    (hle : w.frame.toNat ≤ s.dev.now.toNat) (hnone : s.dev.ports[p].swapRx = none) :
    Completes (.swapFrame ⟨p, checked⟩) s fun t =>
      s.sameMemory t ∧ t.dev.stalls = s.dev.stalls ∧ (∀ r, r ≠ p → t.dev.ports[r] = s.dev.ports[r]) ∧
      t.dev.ports[p].tx = Device.swapLane s.dev.ports[p].tx w ∧ t.dev.ports[p].swapTx = none ∧ t.dev.ports[p].rx = s.dev.ports[p].rx := by
  have htx : s.dev.ports[p].swapTx.filter (Swap.due s.dev.now) = some w := by
    rw [hw, Option.filter_some, if_pos (due_of h0 hle)]
  have hrx : s.dev.ports[p].swapRx.filter (Swap.due s.dev.now) = none := by
    rw [hnone]
    rfl
  obtain ⟨ho, hq⟩ := swapsApplied_due s.dev s.dev.now htx hrx rfl
  refine changes_of (swapFrame_exec ht hb checked (applySwaps_none s.dev checked hnone)) ho (f := fun u => u.tx = Device.swapLane
    s.dev.ports[p].tx w ∧ u.swapTx = none ∧ u.rx = s.dev.ports[p].rx) ?_
  rw [hq]
  exact ⟨rfl, rfl, rfl⟩

theorem swapFrame_rx (w : Swap) (hw : s.dev.ports[p].swapRx = some w) (hlost : w.lost = false) (h0 : w.frame ≠ 0)
    (hle : w.frame.toNat ≤ s.dev.now.toNat) (hnone : s.dev.ports[p].swapTx = none) :
    (Completes (.swapFrame ⟨p, true⟩) s fun t =>
      s.sameMemory t ∧ t.dev.stalls = s.dev.stalls ∧ (∀ r, r ≠ p → t.dev.ports[r] = s.dev.ports[r]) ∧
      t.dev.ports[p].rx = Device.swapLane s.dev.ports[p].rx w ∧ t.dev.ports[p].swapRx = none ∧ t.dev.ports[p].tx = s.dev.ports[p].tx) ∧
    (Completes (.swapFrame ⟨p, false⟩) s fun t =>
      s.sameMemory t ∧ t.dev.stalls = s.dev.stalls ∧ (∀ r, r ≠ p → t.dev.ports[r] = s.dev.ports[r]) ∧
      t.dev.ports[p].rx = { s.dev.ports[p].rx with spare := none } ∧ t.dev.ports[p].swapRx = none ∧ t.dev.ports[p].waits 0x30000) := by
  have hdue := due_of h0 hle
  refine ⟨?_, ?_⟩
  · have htx : s.dev.ports[p].swapTx.filter (Swap.due s.dev.now) = none := by
      rw [hnone]
      rfl
    have hrx : s.dev.ports[p].swapRx.filter (Swap.due s.dev.now) = some w := by
      rw [hw, Option.filter_some, if_pos hdue]
    have happ := applySwaps_some s.dev true w hw
    rw [if_neg (by rw [Bool.not_true, Bool.and_false, Bool.false_and]; decide)] at happ
    obtain ⟨ho, hq⟩ := swapsApplied_due s.dev s.dev.now htx hrx rfl
    refine changes_of (swapFrame_exec ht hb true happ) ho (f := fun u => u.rx = Device.swapLane s.dev.ports[p].rx w ∧
      u.swapRx = none ∧ u.tx = s.dev.ports[p].tx) ?_
    rw [hq]
    exact ⟨rfl, rfl, rfl⟩
  · have happ := applySwaps_some s.dev false w hw
    rw [if_pos (by rw [hdue, hlost]; rfl)] at happ
    obtain ⟨d, hd⟩ : ∃ d, d = s.dev.cancelSwap p w := ⟨_, rfl⟩
    obtain ⟨g, hg⟩ : ∃ g : Port → Port, g = fun q => ({ q with swapRx := none, rx := { q.rx with spare := none } } : Port).control 0x30
      [Config.swapCode 0 0, BitVec.ofNat 8 w.lane.val, Config.swapCode 1 2] := ⟨_, rfl⟩
    have hdm : d = s.dev.modPort p g := by
      rw [hd, hg]
      unfold Device.cancelSwap Device.swapReq Device.controlFlit
      rw [Device.modPort_modPort]
    have hq : d.ports[p] = g s.dev.ports[p] := by rw [hdm, Device.ports_modPort_same]
    have hgrx : (g s.dev.ports[p]).swapRx = none := by rw [hg]; rfl
    have hgtx : (g s.dev.ports[p]).swapTx = none := by rw [hg]; exact hnone
    have hs : d.swapsApplied p s.dev.now = d.modPort p (swapped none none) := by
      unfold Device.swapsApplied
      rw [hq, hgrx, hgtx]
      exact if_neg (fun h => Bool.noConfusion h)
    rw [← hd, hs] at happ
    have ho : Device.PortOnly p s.dev d := by
      rw [hdm]
      exact .modPort s.dev g
    refine changes_modPort (swapFrame_exec ht hb false happ) ho hq (f := fun u => u.rx = { s.dev.ports[p].rx with spare := none } ∧
      u.swapRx = none ∧ u.waits 0x30000) ⟨?_, hgrx, ?_⟩
    · rw [hg]
      rfl
    · rw [hg]
      exact waits_control _ _ _

end

/-! ### A lost lock -/

theorem lockLoss_spec (ht : s.dev.ports[p].talking = true) (hact : flag s.dev.ports[p].rx.active lane = true) :
    Completes (.lockLoss p lane) s fun t =>
      s.sameMemory t ∧ t.dev.stalls = s.dev.stalls ∧ (∀ r, r ≠ p → t.dev.ports[r] = s.dev.ports[r]) ∧
      t.dev.ports[p].rx = { s.dev.ports[p].rx with active := clearBit s.dev.ports[p].rx.active lane, degraded := true } ∧
      t.dev.ports[p].faultDue = (if s.dev.ports[p].rx.degraded || Device.short s.dev.ports[p].tx s.dev.ports[p].swapTx then some 1
        else s.dev.ports[p].faultDue) ∧ t.dev.ports[p].waits 0x32000 := by
  obtain ⟨q, hq⟩ : ∃ q, s.dev.ports[p] = q := ⟨_, rfl⟩
  rw [hq] at ht hact ⊢
  obtain ⟨m, hm⟩ : ∃ m : LaneMap, m = { q.rx with active := clearBit q.rx.active lane, degraded := true } := ⟨_, rfl⟩
  obtain ⟨fault, hfault⟩ : ∃ x : Option (BitVec 8), x = if q.rx.degraded || Device.short q.tx q.swapTx then some 1 else q.faultDue := ⟨_, rfl⟩
  have hlose : Device.loseLane q q.rx lane = (m, fault) := by
    unfold Device.loseLane
    rw [hm, hfault]
    have hs : (q.rx.degraded || Device.short q.tx q.swapTx || Device.short q.rx q.swapRx) = (q.rx.degraded || Device.short q.tx q.swapTx) := by
      unfold Device.short
      cases q.rx.degraded with
      | true => rfl
      | false => rw [Bool.false_and, Bool.or_false]
    rw [hs]
  rw [← hm, ← hfault]
  obtain ⟨g, hg⟩ : ∃ g : Port → Port, g = fun q => ({ q with rx := m, faultDue := fault } : Port).control 0x32 [BitVec.ofNat 8 lane.val] :=
    ⟨_, rfl⟩
  have hgood (f : Port → Port) (hf : ∀ u, (f u).rx = u.rx ∧ (f u).faultDue = u.faultDue ∧ (f u).queue = u.queue)
      (hexec : exec (.lockLoss p lane) s = .next (s.onDev fun _ => s.dev.modPort p fun q => f (g q))) : Completes (.lockLoss p lane) s fun t =>
      s.sameMemory t ∧ t.dev.stalls = s.dev.stalls ∧ (∀ r, r ≠ p → t.dev.ports[r] = s.dev.ports[r]) ∧
      t.dev.ports[p].rx = m ∧ t.dev.ports[p].faultDue = fault ∧ t.dev.ports[p].waits 0x32000 := by
    refine changes_modPort hexec (.refl s.dev) hq (f := fun u => u.rx = m ∧ u.faultDue = fault ∧ u.waits 0x32000) ?_
    obtain ⟨h1, h2, h3⟩ := hf (g q)
    refine ⟨h1.trans (by rw [hg]; rfl), h2.trans (by rw [hg]; rfl), ?_⟩
    unfold Port.waits
    rw [h3, hg]
    exact waits_control _ _ _
  have hstep {e : Device} (he : (match q.swapRx, q.rx.spare with
      | some w, _ => if w.lane = lane then (s.dev.modPort p g).modPort p fun q => { q with swapRx := some { w with lost := true } }
        else s.dev.modPort p g
      | none, some sp => if q.has 1 then (s.dev.modPort p g).modPort p fun q => { q with swapRx := some ⟨lane, sp, 0, true⟩ }
        else s.dev.modPort p g
      | none, none => s.dev.modPort p g) = e) : exec (.lockLoss p lane) s = .next (s.onDev fun _ => e) := by
    refine next_congr (fun _ => e) ?_
    dsimp only
    rw [hq, ht, if_neg (by decide), if_neg (by rw [hact]; decide), hlose]
    unfold Device.controlFlit
    rw [Device.modPort_modPort, ← he, hg] <;> rfl
  cases hw : q.swapRx with
  | some w =>
    rw [hw] at hstep
    by_cases hl : w.lane = lane
    · refine hgood (fun q => { q with swapRx := some { w with lost := true } }) (fun u => ⟨rfl, rfl, rfl⟩) (hstep ?_)
      dsimp only
      rw [if_pos hl, Device.modPort_modPort]
    · exact hgood id (fun u => ⟨rfl, rfl, rfl⟩) (hstep (if_neg hl))
  | none =>
    rw [hw] at hstep
    cases hsp : q.rx.spare with
    | none =>
      rw [hsp] at hstep
      exact hgood id (fun u => ⟨rfl, rfl, rfl⟩) (hstep rfl)
    | some sp =>
      rw [hsp] at hstep
      by_cases h1 : q.has 1 = true
      · refine hgood (fun q => { q with swapRx := some ⟨lane, sp, 0, true⟩ }) (fun u => ⟨rfl, rfl, rfl⟩) (hstep ?_)
        dsimp only
        rw [if_pos h1, Device.modPort_modPort]
      · exact hgood id (fun u => ⟨rfl, rfl, rfl⟩) (hstep (if_neg h1))

end

/-- Settles O46, a command at a time: what each makes of the lane maps and swaps of its port. -/
theorem laneSparing : Obligations.LaneSparing := by
  unfold Obligations.LaneSparing
  intro p h lane s
  refine ⟨fun hh h1 => ⟨fun sp hsp hnone hact => swapReq_plans hh h1 sp hsp hnone hact,
      fun w hw hl hlost => swapReq_cancels hh h1 w hw hl hlost, fun w sp f hw hl => swapAck_spec hh h1 w sp f hw hl,
      fun hact hnone => laneDown_spec hh h1 hact hnone⟩,
    fun n k sp ht hact hnone h1 hsp => swapThreshold_spec n k sp ht hact hnone h1 hsp,
    fun ht hb => ⟨fun w c hw h0 hle hnone => swapFrame_tx ht hb c w hw h0 hle hnone,
      fun w hw hlost h0 hle hnone => swapFrame_rx ht hb w hw hlost h0 hle hnone⟩,
    fun ht hact => lockLoss_spec ht hact⟩

end Sys2Proof.Machine
end

section
/-! A port leaves a link or a bring-up phase (R368, R369). -/

namespace Sys2Proof.Machine

/-- A port that has entered state new. -/
def leftPort (q : Port) (new : PortState) (detail : Nat) (code : Code) : Port :=
  let shown := q.linked || q.rising || new ≠ .down
  { q with state := new
           fenceCode := if !shown then q.fenceCode else if Status.cls code = 0 then 0 else code
           fenceDetail := if shown then BitVec.ofNat 8 detail else q.fenceDetail
           result := if q.rising then code else q.result
           left := if q.linked then some 0 else q.left
           rxHeld := []
           identity := none, swapTx := none, swapRx := none, faultDue := none, quiet := false }

namespace Device

/-- e is d but for one port and what the links and the host see. -/
def LinkOnly (p : PortId) (d e : Device) : Prop := Outer d e ∧ ∀ r, r ≠ p → e.ports[r] = d.ports[r]

namespace LinkOnly

variable {p : PortId}

theorem of_ports {d e : Device} (h : Outer d e) (hp : e.ports = d.ports) : LinkOnly p d e := ⟨h, fun _ _ => by rw [hp]⟩

theorem refl (d : Device) : LinkOnly p d d := .of_ports (.refl d) rfl

theorem trans {d e f : Device} (h : LinkOnly p d e) (k : LinkOnly p e f) : LinkOnly p d f :=
  ⟨h.1.trans k.1, fun r hr => (k.2 r hr).trans (h.2 r hr)⟩

theorem modPort (d : Device) (f : Port → Port) : LinkOnly p d (d.modPort p f) :=
  ⟨⟨rfl, .of_regs rfl⟩, fun _ hr => upd_ne _ _ _ _ hr⟩

theorem stalls {d e : Device} (h : LinkOnly p d e) : e.stalls = d.stalls := by rw [h.1.1]

end LinkOnly

section
variable (d : Device) (p : PortId)

theorem ports_event (q : Page) (i : Nat) : (d.event q i).ports = d.ports := by rw [d.quiet_event q i]
theorem ports_record (q : Page) (c : Code) : (d.record q c).ports = d.ports := by rw [d.quiet_record q c]

theorem linkOnly_event (q : Page) (i : Nat) : LinkOnly p d (d.event q i) := .of_ports (d.outer_event q i) (d.ports_event q i)
theorem linkOnly_record (q : Page) (c : Code) : LinkOnly p d (d.record q c) := .of_ports (d.outer_record q c) (d.ports_record q c)
theorem linkOnly_logFence (c : Code) : LinkOnly p d (d.logFence p c) := .of_ports (d.outer_logFence p c) rfl
theorem linkOnly_bump (q : Page) (o n : Nat) (ho : o < 0x1000) (h : o ≠ 0x028) : LinkOnly p d (d.bump q o n) :=
  .of_ports (d.outer_bump q o n ho h) rfl

omit d p in
theorem header_only (q : Port) (x : Seq) (b : Bool) : ∃ o g, (q.header x b).1 = { q with owed := o, granted := g } := by
  have h : (q.header x b).1 = q.returns.1 := rfl
  rw [h]
  unfold Port.returns
  split
  · exact ⟨q.owed, q.granted, rfl⟩
  · exact ⟨_, _, rfl⟩

/-- DOWN leaves of its port the state and what hangs on it. -/
theorem sendDown_spec (cause : Nat) : LinkOnly p d (d.sendDown p cause) ∧ (d.sendDown p cause).ports[p].state = d.ports[p].state ∧
    (d.sendDown p cause).ports[p].left = d.ports[p].left ∧ (d.sendDown p cause).ports[p].result = d.ports[p].result := by
  have ho := d.outer_sendDown p cause
  obtain ⟨e, he⟩ : ∃ e, d.sendDown p cause = e := ⟨_, rfl⟩
  rw [he] at ho ⊢
  unfold sendDown at he
  extract_lets q w r at he
  split at he
  · have hports : e.ports = ((d.modPort p fun _ => r.1).modPort p fun q => { q with lane := (q.nextLane.map fun i => i.val + 1).getD q.lane }).ports := by
      rw [← he]
      rfl
    have hp : e.ports[p] = { r.1 with lane := (r.1.nextLane.map fun i => i.val + 1).getD r.1.lane } := by
      rw [hports, ports_modPort_same, ports_modPort_same]
    have hr : r.1.state = q.state ∧ r.1.left = q.left ∧ r.1.result = q.result := by
      obtain ⟨o, g, hh⟩ := header_only ({ q with queue := vset q.queue 0 (w :: vget q.queue 0 []) }) q.nextSeq false
      have hfst : ∃ u : Port, u = (({ q with queue := vset q.queue 0 (w :: vget q.queue 0 []) } : Port).header q.nextSeq false).1 ∧
          r.1.state = u.state ∧ r.1.left = u.left ∧ r.1.result = u.result := ⟨_, rfl, rfl, rfl, rfl⟩
      obtain ⟨u, hu, h1, h2, h3⟩ := hfst
      rw [hh] at hu
      rw [h1, h2, h3, hu]
      exact ⟨rfl, rfl, rfl⟩
    refine ⟨⟨ho, fun s hs => ?_⟩, ?_⟩
    · rw [hports]
      exact (upd_ne _ _ _ _ hs).trans (upd_ne _ _ _ _ hs)
    · rw [hp]
      exact hr
  · rw [← he]
    exact ⟨.refl d, rfl, rfl, rfl⟩

/-- The reports of a port that enters state new. -/
def leaveReported (new : PortState) (faulty rising : Bool) (code : Code) : Device :=
  let page := Page.port p
  let d := (d.record page code).event page 1
  let d := if new = .hostile && faulty then d.logFence p Status.portFenced else d
  let d := if new = .hostile then (d.bump page 0x16C 1).event page 3 else d
  let d := if new = .hostile || new = .faulty then d.logFence p code else d
  if rising then d.event page 4 else d

theorem leaveReported_spec (new : PortState) (faulty rising : Bool) (code : Code) :
    LinkOnly p d (d.leaveReported p new faulty rising code) ∧ (d.leaveReported p new faulty rising code).ports = d.ports := by
  obtain ⟨e, he⟩ : ∃ e, d.leaveReported p new faulty rising code = e := ⟨_, rfl⟩
  rw [he]
  unfold leaveReported at he
  extract_lets page d3 d4 d5 d6 at he
  have h3 : LinkOnly p d d3 ∧ d3.ports = d.ports :=
    ⟨(d.linkOnly_record p page code).trans (linkOnly_event _ p page 1), (ports_event _ page 1).trans (d.ports_record page code)⟩
  have h4 : LinkOnly p d3 d4 ∧ d4.ports = d3.ports := by
    dsimp only [d4]
    split
    · exact ⟨linkOnly_logFence _ p _, rfl⟩
    · exact ⟨.refl _, rfl⟩
  have h5 : LinkOnly p d4 d5 ∧ d5.ports = d4.ports := by
    dsimp only [d5]
    split
    · exact ⟨(linkOnly_bump _ p page _ _ (by decide) (by decide)).trans (linkOnly_event _ p page 3), ports_event _ page 3⟩
    · exact ⟨.refl _, rfl⟩
  have h6 : LinkOnly p d5 d6 ∧ d6.ports = d5.ports := by
    dsimp only [d6]
    split
    · exact ⟨linkOnly_logFence _ p _, rfl⟩
    · exact ⟨.refl _, rfl⟩
  have h7 : LinkOnly p d6 e ∧ e.ports = d6.ports := by
    rw [← he]
    split
    · exact ⟨linkOnly_event _ p page 4, ports_event _ page 4⟩
    · exact ⟨.refl _, rfl⟩
  exact ⟨(((h3.1.trans h4.1).trans h5.1).trans h6.1).trans h7.1, (((h7.2.trans h6.2).trans h5.2).trans h4.2).trans h3.2⟩

theorem leavePort_eq (new : PortState) (detail : Nat) (code : Code) : d.leavePort p new detail code =
    ((if d.ports[p].linked && new ≠ .absent then d.sendDown p detail else d).modPort p fun q => leftPort q new detail code).leaveReported p new
      d.ports[p].faultDue.isSome d.ports[p].rising code := rfl

/-- A port leaves its link or its phase: where it was linked, DOWN may have gone out before. -/
theorem leavePort_spec (new : PortState) (detail : Nat) (code : Code) : LinkOnly p d (d.leavePort p new detail code) ∧
    ∃ q, (d.leavePort p new detail code).ports[p] = leftPort q new detail code ∧ q.state = d.ports[p].state ∧ q.left = d.ports[p].left ∧
      q.result = d.ports[p].result ∧ (d.ports[p].linked = false → q = d.ports[p]) := by
  obtain ⟨x, hx⟩ : ∃ x, x = if d.ports[p].linked && new ≠ .absent then d.sendDown p detail else d := ⟨_, rfl⟩
  have h1 : LinkOnly p d x ∧ x.ports[p].state = d.ports[p].state ∧ x.ports[p].left = d.ports[p].left ∧
      x.ports[p].result = d.ports[p].result ∧ (d.ports[p].linked = false → x.ports[p] = d.ports[p]) := by
    rw [hx]
    split
    · next h =>
      obtain ⟨ha, hb, hc, hr⟩ := d.sendDown_spec p detail
      refine ⟨ha, hb, hc, hr, fun hl => ?_⟩
      rw [hl] at h
      exact absurd h (by simp)
    · exact ⟨.refl d, rfl, rfl, rfl, fun _ => rfl⟩
  obtain ⟨ho1, hs1, hl1, hr1, hq1⟩ := h1
  obtain ⟨y, hy⟩ : ∃ y, y = x.modPort p fun q => leftPort q new detail code := ⟨_, rfl⟩
  have ho2 : LinkOnly p x y := by
    rw [hy]
    exact .modPort x _
  have hp2 : y.ports[p] = leftPort x.ports[p] new detail code := by
    rw [hy, x.ports_modPort_same]
  obtain ⟨ho3, hp3⟩ := y.leaveReported_spec p new d.ports[p].faultDue.isSome d.ports[p].rising code
  rw [leavePort_eq, ← hx, ← hy]
  exact ⟨(ho1.trans ho2).trans ho3, x.ports[p], by rw [hp3, hp2], hs1, hl1, hr1, hq1⟩

/-- A port without a link leaves its phase, and no team is severed. -/
theorem leave_unlinked (new : PortState) (detail : Nat) (code : Code) (h : d.ports[p].linked = false) :
    d.leave p new detail code = d.leavePort p new detail code := by
  unfold leave
  exact if_neg (by rw [h]; decide)

end

end Device

end Sys2Proof.Machine
end

section
/-! The loss of a port's teams leaves its state (R403, R408). -/

namespace Sys2Proof.Machine

namespace Device

section
variable (d : Device)

theorem ports_eventCode (q : Page) (i : Nat) (c : Code) : (d.eventCode q i c).ports = d.ports := by rw [d.quiet_eventCode q i c]

theorem ports_reclaim (cause : Fin 5) (c : Code) (p : Page) (t n : Nat) : (d.reclaim cause c p t n).ports = d.ports := by
  unfold reclaim
  split
  · rfl
  · exact ports_eventCode _ _ _ _

theorem ports_post (st : StallId) (m : Fin 8) (src : BitVec 9) (l : List Nat) : (d.post st m src l).ports = d.ports := by
  unfold post
  extract_lets data msg e x away
  split
  · rfl
  · rfl

theorem ports_releaseNotices (st : StallId) (m : Fin 8) (n : Nat) (cause : Fin 5) (c : Code) :
    (d.releaseNotices st m n cause c).ports = d.ports := ports_reclaim _ _ _ _ _ _

theorem ports_reclaimOp (y : Yard) (t : Fin 64) (status : Code) : (d.reclaimOp y t status).ports = d.ports := by
  unfold reclaimOp
  split
  · rfl
  · next o _ =>
    extract_lets st left d1 d2 d3
    have h1 : d1.ports = d.ports := by
      dsimp only [d1]
      split
      · exact ports_reclaim _ _ _ _ _ _
      · rfl
    have h2 : d2.ports = d.ports := by
      dsimp only [d2]
      split
      · exact (ports_reclaim _ _ _ _ _ _).trans h1
      · exact h1
    have h3 : d3.ports = d.ports := by
      dsimp only [d3]
      split
      · exact h2
      · exact (ports_releaseNotices _ _ _ _ _ _).trans h2
    exact h3

theorem ports_closeOp (y : Yard) (t : Fin 64) (status : Code) : (d.closeOp y t status).ports = d.ports := by
  unfold closeOp
  split
  · rfl
  · exact d.ports_reclaimOp y t status

theorem ports_endOp (y : Yard) (t : Fin 64) (status cause : Code) (rank : BitVec 4) (k : Nat) (close : Bool) :
    (d.endOp y t status cause rank k close).ports = d.ports := by
  unfold endOp
  split
  · rfl
  · next o _ =>
    extract_lets accept d0 d1 d2 d3
    have h2 : d2.ports = d.ports := by
      dsimp only [d2]
      split
      · exact d.ports_post _ _ _ _
      · rfl
    have h3 : d3.ports = d.ports := by
      dsimp only [d3]
      split
      · exact (ports_eventCode _ _ _ _).trans h2
      · exact h2
    split
    · exact (ports_closeOp _ y t _).trans h3
    · split
      · exact (ports_reclaimOp _ y t _).trans h3
      · exact h3

/-- Every port keeps its state, the boundaries since it lost its link, and the cause of its fence. -/
def PortsStand (d e : Device) : Prop := ∀ r : PortId, e.ports[r].state = d.ports[r].state ∧ e.ports[r].left = d.ports[r].left ∧
  e.ports[r].fenceCode = d.ports[r].fenceCode ∧ e.ports[r].fenceDetail = d.ports[r].fenceDetail

omit d in
theorem PortsStand.of_ports {d e : Device} (h : e.ports = d.ports) : PortsStand d e := fun r => by
  rw [h]
  exact ⟨rfl, rfl, rfl, rfl⟩

omit d in
theorem PortsStand.trans {d e f : Device} (h : PortsStand d e) (k : PortsStand e f) : PortsStand d f :=
  fun r => by
    obtain ⟨h1, h2, h3, h4⟩ := h r
    obtain ⟨k1, k2, k3, k4⟩ := k r
    exact ⟨k1.trans h1, k2.trans h2, k3.trans h3, k4.trans h4⟩

theorem portsStand_modPort (p : PortId) (f : Port → Port) (h : ∀ q, (f q).state = q.state ∧ (f q).left = q.left ∧
    (f q).fenceCode = q.fenceCode ∧ (f q).fenceDetail = q.fenceDetail) : PortsStand d (d.modPort p f) := by
  intro r
  by_cases hr : r = p
  · rw [hr, d.ports_modPort_same]
    exact h _
  · have he : (d.modPort p f).ports[r] = d.ports[r] := upd_ne _ _ _ _ hr
    rw [he]
    exact ⟨rfl, rfl, rfl, rfl⟩

theorem portsStand_teamFlit (y : Yard) (t : Fin 64) (neg : Bool) (src kind : Nat) (poison booked ahead : Bool)
    (payload : List Byte) : PortsStand d (d.teamFlit y t neg src kind poison booked ahead payload) := by
  unfold teamFlit
  extract_lets p tag w vc
  split
  · split
    · exact d.portsStand_modPort p _ fun _ => ⟨rfl, rfl, rfl, rfl⟩
    · exact d.portsStand_modPort p _ fun _ => ⟨rfl, rfl, rfl, rfl⟩
  · exact .of_ports rfl

theorem ports_breakTeam (y : Yard) (t : Fin 64) (s : TeamState) : (d.breakTeam y t s).ports = d.ports := by
  unfold breakTeam
  split
  · exact ports_eventCode _ _ _ _
  · rfl

theorem portsStand_foldl {α : Type} {f : Device → α → Device} (hf : ∀ d x, PortsStand d (f d x)) (l : List α) :
    PortsStand d (l.foldl f d) := by
  induction l generalizing d with
  | nil => exact .of_ports rfl
  | cons x l ih => exact (hf d x).trans (ih _)

/-- The ports stand where a port's teams are severed. -/
theorem portsStand_severPort (p : PortId) : PortsStand d (d.severPort p) := by
  refine d.portsStand_foldl (fun e t => ?_) _
  dsimp only
  split
  · exact ((PortsStand.of_ports (e.ports_breakTeam _ t _)).trans (portsStand_teamFlit _ _ t _ _ _ _ _ _ _)).trans
      (.of_ports (ports_endOp _ _ t _ _ _ _ _))
  · exact .of_ports rfl

/-- A port leaves its link, and its teams with it. -/
theorem leave_stands (p : PortId) (new : PortState) (detail : Nat) (code : Code) :
    PortsStand (d.leavePort p new detail code) (d.leave p new detail code) := by
  unfold leave
  dsimp only
  split
  · exact portsStand_severPort _ p
  · exact .of_ports rfl

theorem leave_spec (p : PortId) (new : PortState) (detail : Nat) (code : Code) :
    (d.leave p new detail code).ports[p].state = new ∧
      (d.ports[p].linked = true → (d.leave p new detail code).ports[p].left = some 0) := by
  obtain ⟨-, q, hq, hs, hl, -, -⟩ := d.leavePort_spec p new detail code
  obtain ⟨h1, h2, -, -⟩ := d.leave_stands p new detail code p
  rw [hq] at h1 h2
  refine ⟨h1, fun hlink => h2.trans ?_⟩
  have hql : q.linked = true := by
    unfold Port.linked at hlink ⊢
    rw [hs, hlink]
  exact if_pos hql

/-- FENCE_CAUSE of a port that enters another state than DOWN. -/
theorem leave_shows (p : PortId) (new : PortState) (detail : Nat) (code : Code) (hnew : new ≠ .down) :
    (d.leave p new detail code).ports[p].fenceDetail = BitVec.ofNat 8 detail ∧
      (Status.cls code ≠ 0 → (d.leave p new detail code).ports[p].fenceCode = code) := by
  obtain ⟨-, q, hq, -⟩ := d.leavePort_spec p new detail code
  obtain ⟨-, -, h3, h4⟩ := d.leave_stands p new detail code p
  rw [hq] at h3 h4
  have hshown : (q.linked || q.rising || new ≠ .down) = true := by simp [hnew]
  refine ⟨h4.trans (if_pos hshown), fun hc => h3.trans ?_⟩
  change (if !(q.linked || q.rising || new ≠ .down) then q.fenceCode else if Status.cls code = 0 then 0 else code) = code
  rw [hshown]
  exact if_neg hc

theorem hostile_spec (p : PortId) (detail : Nat) :
    (d.hostile p detail).ports[p].state = .hostile ∧ (d.hostile p detail).ports[p].fenceDetail = BitVec.ofNat 8 detail :=
  ⟨(d.leave_spec p _ _ _).1, (d.leave_shows p _ _ _ (by decide)).1⟩

end

end Device

end Sys2Proof.Machine
end

section
/-! Bring-up: the host's commands, training and the bounds of the phases (R333, R353, R368). -/

namespace Sys2Proof.Machine

/-- A port whose phase 1 starts. -/
def trainingPort (q : Port) (ctl : W32) (own : Vector Nat 6) : Port :=
  { (if q.left.isSome then { Reset.port with
        left := q.left, adv := q.adv, held := q.held, granted := q.granted, owed := q.owed, unacked := q.unacked }
      else Reset.port) with
    state := .training, result := q.result, fenceCode := q.fenceCode, fenceDetail := q.fenceDetail, echoId := q.echoId
    own := q.own, nextOwn := own, ctl := ctl }

/-- A port whose link is up. -/
def upPort (q : Port) : Port :=
  { q with state := if q.width = 16 && !q.rateFb then .up else .slow, result := Status.done, identity := none
           held := Vector.ofFn fun i : Fin 6 => if i = 0 then q.held[i] else q.adv[i]
           granted := Vector.ofFn fun i : Fin 6 => if i = 0 then q.granted[i] else q.own[i] }

/-- A CONTROL flit of that type waits on VC0. -/
def Port.queued (u : Port) (ctl : Nat) : Prop := ∃ w ∈ vget u.queue 0 [], w.ftype = 2 ∧ w.tag = BitVec.ofNat 20 (ctl * 4096)

theorem queued_control (q : Port) (ctl : Nat) (payload : List Byte) : (q.control ctl payload).queued ctl := by
  refine ⟨{ ftype := 2, tag := BitVec.ofNat 20 (ctl * 4096), payload := padTo 240 payload, booked := false }, ?_, rfl, rfl⟩
  change _ ∈ vget (vset q.queue 0 _) 0 []
  rw [vget_vset _ _ _ _ _ (by decide), if_pos rfl]
  exact List.mem_append_right _ List.mem_cons_self

theorem upPort_spec (q : Port) : (upPort q).state = (if q.width = 16 ∧ q.rateFb = false then PortState.up else PortState.slow) ∧
    (upPort q).result = Status.done ∧ ∀ v, 0 < v → v < 6 → vget (upPort q).held v 0 = vget q.adv v 0 := by
  refine ⟨?_, rfl, fun v h0 h6 => ?_⟩
  · unfold upPort
    simp only [Bool.and_eq_true, decide_eq_true_eq, Bool.not_eq_true']
  · unfold upPort vget
    rw [Vector.getElem?_eq_getElem h6, Vector.getElem?_eq_getElem h6]
    simp only [Vector.getElem_ofFn, Option.getD_some]
    exact if_neg fun h => by
      have := congrArg Fin.val h
      simp at this
      omega

namespace Device

section
variable (d : Device) (p : PortId)

theorem startPhase1_spec (ctl : W32) (own : Vector Nat 6) : LinkOnly p d (d.startPhase1 p ctl own) ∧
    (d.startPhase1 p ctl own).ports[p] = trainingPort d.ports[p] ctl own ∧
    flag ((d.startPhase1 p ctl own).preg (Page.port p) 0x028) 1 = true := by
  obtain ⟨x, hx⟩ : ∃ x, x = d.modPort p fun q => trainingPort q ctl own := ⟨_, rfl⟩
  have he : d.startPhase1 p ctl own = x.event (Page.port p) 1 := by
    rw [hx]
    rfl
  have ho : LinkOnly p d x := by
    rw [hx]
    exact .modPort d _
  rw [he]
  refine ⟨ho.trans (x.linkOnly_event p _ 1), ?_, x.flag_event _ 1 (by decide)⟩
  rw [x.ports_event, hx, d.ports_modPort_same]

theorem linkUp_spec : LinkOnly p d (d.linkUp p) ∧ (d.linkUp p).ports[p] = upPort d.ports[p] := by
  obtain ⟨x, hx⟩ : ∃ x, x = d.modPort p upPort := ⟨_, rfl⟩
  have he : d.linkUp p = (x.event (Page.port p) 1).event (Page.port p) 4 := by
    rw [hx]
    rfl
  have ho : LinkOnly p d x := by
    rw [hx]
    exact .modPort d _
  rw [he]
  refine ⟨ho.trans ((x.linkOnly_event p _ 1).trans (linkOnly_event _ p _ 4)), ?_⟩
  rw [ports_event, ports_event, hx, d.ports_modPort_same]

/-- A partner that misbehaves in a phase. -/
theorem hostile_unlinked (detail : Nat) (h : d.ports[p].linked = false) : LinkOnly p d (d.hostile p detail) ∧
    (d.hostile p detail).ports[p] =
      leftPort d.ports[p] .hostile detail (if detail = 1 then Status.portIdentityFail else Status.portHostile) := by
  unfold hostile
  rw [d.leave_unlinked p _ _ _ h]
  obtain ⟨ho, q, hq, -, -, -, hqq⟩ := d.leavePort_spec p .hostile detail (if detail = 1 then Status.portIdentityFail else Status.portHostile)
  exact ⟨ho, by rw [hq, hqq h]⟩

/-- A port without a link leaves its phase. -/
theorem leavePort_unlinked (new : PortState) (detail : Nat) (code : Code) (h : d.ports[p].linked = false) :
    LinkOnly p d (d.leavePort p new detail code) ∧ (d.leavePort p new detail code).ports[p] = leftPort d.ports[p] new detail code := by
  obtain ⟨ho, q, hq, -, -, -, hqq⟩ := d.leavePort_spec p new detail code
  exact ⟨ho, by rw [hq, hqq h]⟩

end

end Device

section
variable {s : State} {p : PortId}

theorem not_linked_of_rising {q : Port} (h : q.rising = true) : q.linked = false := by
  unfold Port.rising at h
  unfold Port.linked
  rcases hs : q.state <;> simp_all

/-- A command of one port's bring-up. -/
theorem brings_of {i : Instr} {e : Device} (hexec : exec i s = .next (s.onDev fun _ => e)) (ho : Device.LinkOnly p s.dev e)
    {f : Port → Prop} (hf : f e.ports[p]) : Completes i s fun t =>
      (s.sameMemory t ∧ t.dev.stalls = s.dev.stalls ∧ ∀ r, r ≠ p → t.dev.ports[r] = s.dev.ports[r]) ∧ f t.dev.ports[p] :=
  ⟨_, hexec, ⟨ho.1.sameBytes.rdByte, ho.stalls, ho.2⟩, hf⟩

section
variable (hserving : s.dev.serving = true)
include hserving

theorem bringup_starts (h : s.dev.ports[p].state = .down ∨ s.dev.ports[p].state = .absent ∨ s.dev.ports[p].state = .faulty) :
    Completes (.bringup .host p) s fun t =>
      (s.sameMemory t ∧ t.dev.stalls = s.dev.stalls ∧ ∀ r, r ≠ p → t.dev.ports[r] = s.dev.ports[r]) ∧
      t.dev.ports[p].state = .training ∧ t.dev.ports[p].result = s.dev.ports[p].result ∧
      t.dev.ports[p].ctl = s.dev.preg (Page.port p) 0x100 ∧ flag (t.dev.preg (Page.port p) 0x028) 1 = true := by
  have hx : s.dev.bringupCmd .host p = s.dev.startBringup p := by
    unfold Device.bringupCmd
    rw [hserving, if_neg (by decide)]
    exact if_pos h
  obtain ⟨ho, hq, hf⟩ := s.dev.startPhase1_spec p (s.dev.preg (Page.port p) 0x100) (Vector.ofFn fun i : Fin 6 => s.dev.credAdv p i)
  have hexec : exec (.bringup .host p) s = .next (s.onDev fun _ => s.dev.startBringup p) := next_congr (fun _ => s.dev.startBringup p) hx
  refine ⟨_, hexec, ⟨ho.1.sameBytes.rdByte, ho.stalls, ho.2⟩, ?_, ?_, ?_, hf⟩
  · exact (congrArg Port.state hq).trans rfl
  · exact (congrArg Port.result hq).trans rfl
  · exact (congrArg Port.ctl hq).trans rfl

theorem bringup_invalid (h : s.dev.ports[p].linked = true ∨ s.dev.ports[p].rising = true ∨ s.dev.ports[p].state = .hostile) :
    Completes (.bringup .host p) s fun t =>
      (s.sameMemory t ∧ t.dev.stalls = s.dev.stalls ∧ ∀ r, r ≠ p → t.dev.ports[r] = s.dev.ports[r]) ∧
      t.dev.ports[p] = { s.dev.ports[p] with result := Status.stateInvalid } := by
  have hno : ¬ (s.dev.ports[p].state = .down ∨ s.dev.ports[p].state = .absent ∨ s.dev.ports[p].state = .faulty) := by
    unfold Port.linked Port.rising at h
    rintro (hs | hs | hs) <;> rw [hs] at h <;> exact absurd h (by decide)
  obtain ⟨x, hxd⟩ : ∃ x, x = s.dev.modPort p fun q => { q with result := Status.stateInvalid } := ⟨_, rfl⟩
  have hx : s.dev.bringupCmd .host p = x.record (Page.port p) Status.stateInvalid := by
    unfold Device.bringupCmd
    rw [hserving, if_neg (by decide), hxd]
    exact if_neg hno
  have ho : Device.LinkOnly p s.dev x := by
    rw [hxd]
    exact .modPort s.dev _
  have hexec : exec (.bringup .host p) s = .next (s.onDev fun _ => x.record (Page.port p) Status.stateInvalid) :=
    next_congr (fun _ => x.record (Page.port p) Status.stateInvalid) hx
  refine brings_of hexec (ho.trans (x.linkOnly_record p _ _))
    (f := fun u => u = { s.dev.ports[p] with result := Status.stateInvalid }) ?_
  rw [x.ports_record, hxd, s.dev.ports_modPort_same]

theorem portDown_exec (who : Requester) (h : s.dev.ports[p].state ≠ .down) : exec (.portDown who p) s =
    .next (s.onDev fun _ => s.dev.leave p .down 0 (if s.dev.ports[p].rising then Status.aborted else Status.done)) := by
  refine next_congr (fun _ => s.dev.leave p .down 0 (if s.dev.ports[p].rising then Status.aborted else Status.done)) ?_
  unfold Device.downCmd
  rw [hserving, decide_eq_false h]
  exact if_neg (by decide)

theorem portDown_rising (who : Requester) (h : s.dev.ports[p].rising = true) : Completes (.portDown who p) s fun t =>
    (s.sameMemory t ∧ t.dev.stalls = s.dev.stalls ∧ ∀ r, r ≠ p → t.dev.ports[r] = s.dev.ports[r]) ∧
    t.dev.ports[p].state = .down ∧ t.dev.ports[p].result = Status.aborted := by
  have hl := not_linked_of_rising h
  have hs : s.dev.ports[p].state ≠ .down := by
    intro hd
    unfold Port.rising at h
    rw [hd] at h
    exact absurd h (by decide)
  have hexec := portDown_exec (p := p) hserving who hs
  rw [if_pos h, s.dev.leave_unlinked p _ _ _ hl] at hexec
  obtain ⟨ho, hq⟩ := s.dev.leavePort_unlinked p .down 0 Status.aborted hl
  refine brings_of hexec ho (f := fun u => u.state = .down ∧ u.result = Status.aborted) ?_
  rw [hq]
  exact ⟨rfl, if_pos h⟩

theorem portDown_linked (who : Requester) (h : s.dev.ports[p].linked = true) : Completes (.portDown who p) s fun t =>
    t.dev.ports[p].state = .down ∧ t.dev.ports[p].left = some 0 := by
  have hs : s.dev.ports[p].state ≠ .down := by
    intro hd
    unfold Port.linked at h
    rw [hd] at h
    exact absurd h (by decide)
  obtain ⟨h1, h2⟩ := s.dev.leave_spec p .down 0 (if s.dev.ports[p].rising then Status.aborted else Status.done)
  exact ⟨_, portDown_exec hserving who hs, h1, h2 h⟩

end

/-! ### Training -/

section
variable (r : TrainResult) (ht : s.dev.ports[p].state = .training) (hleft : s.dev.ports[p].left = none)
include ht

theorem training_unlinked : s.dev.ports[p].linked = false := by
  unfold Port.linked
  rw [ht]
  rfl

include hleft

theorem trainingDone_fails (h : Device.configure s.dev.ports[p].ctl r = none) : Completes (.trainingDone p r) s fun t =>
    (s.sameMemory t ∧ t.dev.stalls = s.dev.stalls ∧ ∀ r, r ≠ p → t.dev.ports[r] = s.dev.ports[r]) ∧
    t.dev.ports[p].state = .absent ∧ t.dev.ports[p].result = Status.portAbsent := by
  obtain ⟨ho, hq⟩ := s.dev.leavePort_unlinked p .absent 0 Status.portAbsent (training_unlinked ht)
  have hexec : exec (.trainingDone p r) s = .next (s.onDev fun _ => s.dev.leavePort p .absent 0 Status.portAbsent) := by
    refine next_congr (fun _ => s.dev.leavePort p .absent 0 Status.portAbsent) ?_
    rw [ht, hleft, h]
    rfl
  refine brings_of hexec ho (f := fun u => u.state = .absent ∧ u.result = Status.portAbsent) ?_
  rw [hq]
  refine ⟨rfl, if_pos ?_⟩
  unfold Port.rising
  rw [ht]
  rfl

theorem trainingDone_fits (n : Nat) (slow : Bool) (tx rx : LaneMap) (h : Device.configure s.dev.ports[p].ctl r = some (n, slow, tx, rx)) :
    Completes (.trainingDone p r) s fun t =>
      (s.sameMemory t ∧ t.dev.stalls = s.dev.stalls ∧ ∀ r, r ≠ p → t.dev.ports[r] = s.dev.ports[r]) ∧
      t.dev.ports[p].state = .negotiating ∧ t.dev.ports[p].width = BitVec.ofNat 5 n ∧ t.dev.ports[p].rateFb = slow ∧
      t.dev.ports[p].tx = tx ∧ t.dev.ports[p].rx = rx ∧ t.dev.ports[p].queued 1 := by
  obtain ⟨g, hg⟩ : ∃ g : Port → Port, g = fun q => { q with
      state := .negotiating, width := BitVec.ofNat 5 n, rateFb := slow, tx := tx, rx := rx, own := q.nextOwn
      room := (if slow then 500 else 1000) * lanes tx.active
      held := vset q.held 0 64, adv := vset q.adv 0 64, granted := vset q.granted 0 64 } := ⟨_, rfl⟩
  obtain ⟨x, hx⟩ : ∃ x, x = (s.dev.modPort p g).event (Page.port p) 1 := ⟨_, rfl⟩
  have ho : Device.LinkOnly p s.dev x := by
    rw [hx]
    exact (Device.LinkOnly.modPort s.dev g).trans (Device.linkOnly_event _ p _ 1)
  have hq : x.ports[p] = g s.dev.ports[p] := by
    rw [hx, Device.ports_event, Device.ports_modPort_same]
  obtain ⟨bytes, hbytes⟩ : ∃ b, b = helloBytes (x.ownHello p) := ⟨_, rfl⟩
  have hexec : exec (.trainingDone p r) s = .next (s.onDev fun _ =>
      (x.controlFlit p 0x01 bytes).modPort p fun q => { q with helloSent := true }) := by
    refine next_congr (fun _ => (x.controlFlit p 0x01 bytes).modPort p fun q => { q with helloSent := true }) ?_
    rw [ht, hleft, h, hbytes, hx, hg]
    rfl
  unfold Device.controlFlit at hexec
  rw [Device.modPort_modPort] at hexec
  refine brings_of hexec (ho.trans (.modPort x _)) (f := fun u => u.state = .negotiating ∧ u.width = BitVec.ofNat 5 n ∧ u.rateFb = slow ∧
    u.tx = tx ∧ u.rx = rx ∧ u.queued 1) ?_
  rw [x.ports_modPort_same, hq, hg]
  exact ⟨rfl, rfl, rfl, rfl, rfl, queued_control _ _ _⟩

theorem trainingDone_full (hctl : field s.dev.ports[p].ctl 8 2 = 0) (hpart : flag r.partner 0 = true) (htx : 16 ≤ lanes r.txFast)
    (hrx : 16 ≤ lanes r.rxFast) : Completes (.trainingDone p r) s fun t =>
    (s.sameMemory t ∧ t.dev.stalls = s.dev.stalls ∧ ∀ r, r ≠ p → t.dev.ports[r] = s.dev.ports[r]) ∧
    t.dev.ports[p].width = 16 ∧ t.dev.ports[p].rateFb = false := by
  have hfit : Device.configure s.dev.ports[p].ctl r = some (16, false, Device.lowest r.txFast 16, Device.lowest r.rxFast 16) := by
    unfold Device.configure Device.configurations
    rw [hctl]
    simp [hpart, htx, hrx, List.zipIdx]
  obtain ⟨t, ht', hothers, -, hw, hr, -⟩ := trainingDone_fits r ht hleft _ _ _ _ hfit
  exact ⟨t, ht', hothers, hw, hr⟩

end

/-! ### The bounds of the phases -/

theorem phaseTimeout_early (h : s.dev.ports[p].state = .training ∨ s.dev.ports[p].state = .negotiating) :
    Completes (.phaseTimeout p) s fun t =>
      (s.sameMemory t ∧ t.dev.stalls = s.dev.stalls ∧ ∀ r, r ≠ p → t.dev.ports[r] = s.dev.ports[r]) ∧
      t.dev.ports[p].state = .absent ∧ t.dev.ports[p].result = Status.portAbsent := by
  have hr : s.dev.ports[p].rising = true := by
    unfold Port.rising
    rcases h with h | h <;> rw [h] <;> rfl
  obtain ⟨ho, hq⟩ := s.dev.leavePort_unlinked p .absent 0 Status.portAbsent (not_linked_of_rising hr)
  have hexec : exec (.phaseTimeout p) s = .next (s.onDev fun _ => s.dev.leavePort p .absent 0 Status.portAbsent) := by
    refine next_congr (fun _ => s.dev.leavePort p .absent 0 Status.portAbsent) ?_
    rcases h with h | h
    · rw [h]
    · rw [h]
  refine brings_of hexec ho (f := fun u => u.state = .absent ∧ u.result = Status.portAbsent) ?_
  rw [hq]
  exact ⟨rfl, if_pos hr⟩

theorem phaseTimeout_identifying (h : s.dev.ports[p].state = .identifying) : Completes (.phaseTimeout p) s fun t =>
    (s.sameMemory t ∧ t.dev.stalls = s.dev.stalls ∧ ∀ r, r ≠ p → t.dev.ports[r] = s.dev.ports[r]) ∧
    t.dev.ports[p].state = .hostile ∧ t.dev.ports[p].fenceDetail = 1 := by
  have hl : s.dev.ports[p].linked = false := by
    unfold Port.linked
    rw [h]
    rfl
  obtain ⟨ho, hq⟩ := s.dev.hostile_unlinked p 1 hl
  have hexec : exec (.phaseTimeout p) s = .next (s.onDev fun _ => s.dev.hostile p 1) := by
    refine next_congr (fun _ => s.dev.hostile p 1) ?_
    rw [h]
  refine brings_of hexec ho (f := fun u => u.state = .hostile ∧ u.fenceDetail = 1) ?_
  rw [hq]
  refine ⟨rfl, if_pos ?_⟩
  simp

end

end Sys2Proof.Machine
end

section
/-! Bring-up: HELLO, echoes and the partner's identity (R354 to R360). -/

namespace Sys2Proof.Machine

theorem length_mapInsert {α : Type} (m : List (Nat × α)) (a : Nat) (x : α) :
    (mapInsert m a x).length = m.length ∨ (mapInsert m a x).length = m.length + 1 := by
  induction m with
  | nil => exact .inr rfl
  | cons kv m ih =>
    obtain ⟨k, v⟩ := kv
    unfold mapInsert
    split
    · exact .inr rfl
    · split
      · exact .inl rfl
      · simpa using ih

theorem heardBy_bringup (q : Port) : ∃ u, heardBy 0 q = u ∧ u.state = q.state ∧ u.width = q.width ∧ u.rateFb = q.rateFb ∧
    u.retrained = q.retrained ∧ u.ctl = q.ctl ∧ u.partner = q.partner ∧ u.echoes = q.echoes ∧ u.echoId = q.echoId ∧
    u.identity = q.identity ∧ ∀ w, Device.turnPs u w = Device.turnPs q w := by
  refine ⟨_, rfl, ?_⟩
  rw [heardBy_only]
  exact ⟨rfl, rfl, rfl, rfl, rfl, rfl, rfl, rfl, rfl, fun _ => rfl⟩

section
variable (s : State) (p : PortId)

/-- A device whose port p has heard a flit of VC0. -/
theorem listened_of : ∃ d : Device, d = s.dev.modPort p (heardBy 0) ∧ Device.LinkOnly p s.dev d ∧
    d.ports[p] = heardBy 0 s.dev.ports[p] ∧ d.boot = s.dev.boot ∧ d.trust = s.dev.trust :=
  ⟨_, rfl, .modPort s.dev _, s.dev.ports_modPort_same p _, rfl, rfl⟩

end

section
variable {s : State} {p : PortId}

/-- A command that ends in a change of the port alone. -/
theorem brings_modPort {i : Instr} {d : Device} {g : Port → Port} (hexec : exec i s = .next (s.onDev fun _ => d.modPort p g))
    (ho : Device.LinkOnly p s.dev d) {q : Port} (hq : d.ports[p] = q) {f : Port → Prop} (hf : f (g q)) : Completes i s fun t =>
      (s.sameMemory t ∧ t.dev.stalls = s.dev.stalls ∧ ∀ r, r ≠ p → t.dev.ports[r] = s.dev.ports[r]) ∧ f t.dev.ports[p] := by
  refine brings_of hexec (ho.trans (.modPort d g)) (f := f) ?_
  rw [d.ports_modPort_same, hq]
  exact hf

section
variable {h : FlitHeader} (hh : s.hears p h 0)
include hh

/-! ### HELLO -/

section
variable (e : Hello) (hst : s.dev.ports[p].state = .negotiating)
include hst

/-- A HELLO in phase 2 is taken. -/
theorem hello_exec {d x : Device} (hd : d = s.dev.modPort p (heardBy 0)) (hq : d.ports[p] = heardBy 0 s.dev.ports[p])
    (hx : d.takeHello p e = x) : exec (.hello p h e) s = .next (s.onDev fun _ => x) := by
  refine next_congr (fun _ => x) ?_
  obtain ⟨u, hu, hus, -⟩ := heardBy_bringup s.dev.ports[p]
  have hl : s.dev.ports[p].linked = false := by
    unfold Port.linked
    rw [hst]
    rfl
  rw [receiveControl_of_hears hh (by rw [hl]; rfl), ← hd]
  rw [if_pos (by rw [hq, hu, hus, hst]), hx]

section
variable (hlanes : e.lanes = s.dev.ports[p].width) (hrate : e.slowRate = s.dev.ports[p].rateFb)
include hlanes hrate

theorem hello_agrees (hmin : e.verMin.toNat ≤ 0x0201) (hmax : 0x0100 ≤ e.verMax.toNat) (hord : e.verMin.toNat ≤ e.verMax.toNat)
    (hcab : e.port.toNat / 2 = p.val / 2) (hdir : e.port.toNat ≠ p.val) (hnone : s.dev.ports[p].partner = none) :
    Completes (.hello p h e) s fun t =>
      (s.sameMemory t ∧ t.dev.stalls = s.dev.stalls ∧ ∀ r, r ≠ p → t.dev.ports[r] = s.dev.ports[r]) ∧
      t.dev.ports[p].partner = some e ∧ t.dev.ports[p].version = BitVec.ofNat 16 (min e.verMax.toNat 0x0201) ∧
      t.dev.ports[p].state = .negotiating ∧
      t.dev.ports[p].features = e.features &&& 0x1F &&& Device.featureMask t.dev.ports[p].version ∧ t.dev.ports[p].queued 2 ∧
      ∀ v, 0 < v → v < 6 → vget t.dev.ports[p].adv v 0 = (e.credAdv[v]?).getD 0 := by
  obtain ⟨d, hd, ho, hq, -, -⟩ := listened_of s p
  obtain ⟨u, hu, hus, huw, hur, -, -, hup, -⟩ := heardBy_bringup s.dev.ports[p]
  obtain ⟨g, hg⟩ : ∃ g : Port → Port, g = fun q => { q with
      partner := some e, version := BitVec.ofNat 16 (min e.verMax.toNat 0x0201)
      features := e.features &&& 0x1F &&& Device.featureMask (BitVec.ofNat 16 (min e.verMax.toNat 0x0201))
      adv := Vector.ofFn fun i : Fin 6 => if i = 0 then 64 else (e.credAdv[i.val]?).getD 0 } := ⟨_, rfl⟩
  have hx : d.takeHello p e = (d.modPort p g).sendEcho p := by
    unfold Device.takeHello
    dsimp only
    rw [hq, hu, if_neg (by rw [huw, hur, hlanes, hrate]; simp), if_neg (by omega), if_neg (by omega), hup, hnone, hg]
    rfl
  obtain ⟨bytes, hbytes⟩ : ∃ b, b = leBytes 4 ((d.modPort p g).ports[p].echoId + 1).toNat := ⟨_, rfl⟩
  have hexec := hello_exec hh e hst hd hq hx
  unfold Device.sendEcho at hexec
  rw [← hbytes] at hexec
  unfold Device.controlFlit at hexec
  rw [Device.modPort_modPort, Device.modPort_modPort] at hexec
  refine brings_modPort hexec ho (hq.trans hu) (f := fun w => w.partner = some e ∧
    w.version = BitVec.ofNat 16 (min e.verMax.toNat 0x0201) ∧ w.state = .negotiating ∧
    w.features = e.features &&& 0x1F &&& Device.featureMask w.version ∧ w.queued 2 ∧
    ∀ v, 0 < v → v < 6 → vget w.adv v 0 = (e.credAdv[v]?).getD 0) ?_
  rw [hg]
  refine ⟨rfl, rfl, hus.trans hst, rfl, queued_control _ _ _, fun v h0 h6 => ?_⟩
  change vget (Vector.ofFn fun i : Fin 6 => if i = 0 then 64 else (e.credAdv[i.val]?).getD 0) v 0 = _
  unfold vget
  rw [Vector.getElem?_eq_getElem h6]
  simp only [Vector.getElem_ofFn, Option.getD_some]
  exact if_neg fun hv => by
    have := congrArg Fin.val hv
    simp at this
    omega

theorem hello_miscabled (hmin : e.verMin.toNat ≤ 0x0201) (hmax : 0x0100 ≤ e.verMax.toNat) (hord : e.verMin.toNat ≤ e.verMax.toNat)
    (hcab : e.port.toNat / 2 ≠ p.val / 2 ∨ e.port.toNat = p.val) : Completes (.hello p h e) s fun t =>
      (s.sameMemory t ∧ t.dev.stalls = s.dev.stalls ∧ ∀ r, r ≠ p → t.dev.ports[r] = s.dev.ports[r]) ∧
      t.dev.ports[p].faultDue = some 4 ∧ t.dev.ports[p].state = s.dev.ports[p].state := by
  obtain ⟨d, hd, ho, hq, -, -⟩ := listened_of s p
  obtain ⟨u, hu, hus, huw, hur, -⟩ := heardBy_bringup s.dev.ports[p]
  have hx : d.takeHello p e = d.modPort p fun q => { q with faultDue := some 4 } := by
    unfold Device.takeHello
    dsimp only
    rw [hq, hu, if_neg (by rw [huw, hur, hlanes, hrate]; simp), if_neg (by omega), if_pos hcab]
  exact brings_modPort (hello_exec hh e hst hd hq hx) ho (hq.trans hu)
    (f := fun w => w.faultDue = some 4 ∧ w.state = s.dev.ports[p].state) ⟨rfl, hus⟩

theorem hello_versions (hv : 0x0201 < e.verMin.toNat ∨ e.verMax.toNat < 0x0100) : Completes (.hello p h e) s fun t =>
    (s.sameMemory t ∧ t.dev.stalls = s.dev.stalls ∧ ∀ r, r ≠ p → t.dev.ports[r] = s.dev.ports[r]) ∧
    t.dev.ports[p].state = .down ∧ t.dev.ports[p].result = Status.portNoCommonVersion := by
  obtain ⟨d, hd, ho, hq, -, -⟩ := listened_of s p
  obtain ⟨u, hu, hus, huw, hur, -⟩ := heardBy_bringup s.dev.ports[p]
  have hx : d.takeHello p e = (d.sendDown p 0).leavePort p .down 0 Status.portNoCommonVersion := by
    rw [show (d.sendDown p 0).leavePort p .down 0 Status.portNoCommonVersion = d.failVersion p from rfl]
    unfold Device.takeHello
    dsimp only
    rw [hq, hu, if_neg (by rw [huw, hur, hlanes, hrate]; simp), if_pos (by omega)]
  obtain ⟨hs1, hs2, -, -⟩ := d.sendDown_spec p 0
  obtain ⟨hl1, q, hl2, hqs, -⟩ := (d.sendDown p 0).leavePort_spec p .down 0 Status.portNoCommonVersion
  have hstate : q.state = .negotiating := hqs.trans (hs2.trans ((congrArg Port.state (hq.trans hu)).trans (hus.trans hst)))
  refine brings_of (hello_exec hh e hst hd hq hx) (ho.trans (hs1.trans hl1))
    (f := fun w => w.state = .down ∧ w.result = Status.portNoCommonVersion) ?_
  rw [hl2]
  refine ⟨rfl, if_pos ?_⟩
  unfold Port.rising
  rw [hstate]
  rfl

end

/-- The partner came up in another configuration. -/
theorem hello_differs (hdiff : e.lanes ≠ s.dev.ports[p].width ∨ e.slowRate ≠ s.dev.ports[p].rateFb) :
    Completes (.hello p h e) s fun t =>
      (s.sameMemory t ∧ t.dev.stalls = s.dev.stalls ∧ ∀ r, r ≠ p → t.dev.ports[r] = s.dev.ports[r]) ∧
      if s.dev.ports[p].retrained then t.dev.ports[p].state = .absent ∧ t.dev.ports[p].result = Status.portAbsent
      else t.dev.ports[p].state = .training ∧ t.dev.ports[p].retrained = true ∧ t.dev.ports[p].ctl = s.dev.ports[p].ctl := by
  obtain ⟨d, hd, ho, hq, -, -⟩ := listened_of s p
  obtain ⟨u, hu, hus, huw, hur, hret, hctl, -⟩ := heardBy_bringup s.dev.ports[p]
  have hqu := hq.trans hu
  cases hr : s.dev.ports[p].retrained with
  | true =>
    have hx : d.takeHello p e = d.leavePort p .absent 0 Status.portAbsent := by
      unfold Device.takeHello
      dsimp only
      rw [hqu, if_pos (by rw [huw, hur]; exact hdiff), hret, hr]
      rfl
    have hrise : u.rising = true := by
      unfold Port.rising
      rw [hus, hst]
      rfl
    obtain ⟨hl, hlq⟩ := d.leavePort_unlinked p .absent 0 Status.portAbsent (by rw [hqu]; exact not_linked_of_rising hrise)
    refine brings_of (hello_exec hh e hst hd hq hx) (ho.trans hl) (f := fun w => w.state = .absent ∧ w.result = Status.portAbsent) ?_
    rw [hlq, hqu]
    exact ⟨rfl, if_pos hrise⟩
  | false =>
    have hx : d.takeHello p e = (d.startPhase1 p u.ctl u.nextOwn).modPort p fun q => { q with retrained := true } := by
      unfold Device.takeHello
      dsimp only
      rw [hqu, if_pos (by rw [huw, hur]; exact hdiff), hret, hr]
      rfl
    obtain ⟨hl, hlq, -⟩ := d.startPhase1_spec p u.ctl u.nextOwn
    refine brings_modPort (hello_exec hh e hst hd hq hx) (ho.trans hl) hlq
      (f := fun w => w.state = .training ∧ w.retrained = true ∧ w.ctl = s.dev.ports[p].ctl) ?_
    exact ⟨rfl, rfl, hctl⟩

end

/-! ### Echoes -/

theorem echoReq_answers (id : W32) : Completes (.echoReq p h id) s fun t =>
    (s.sameMemory t ∧ t.dev.stalls = s.dev.stalls ∧ ∀ r, r ≠ p → t.dev.ports[r] = s.dev.ports[r]) ∧
    ∃ w ∈ vget t.dev.ports[p].queue 0 [], w.tag = 0x03000 ∧ w.payload.take 4 = leBytes 4 id.toNat := by
  obtain ⟨d, hd, ho, hq, -, -⟩ := listened_of s p
  obtain ⟨bytes, hbytes⟩ : ∃ b, b = leBytes 4 (Config.turnaround d.free).toNat := ⟨_, rfl⟩
  obtain ⟨x, hx⟩ : ∃ x, x = { d with free := d.free + 1 } := ⟨_, rfl⟩
  have hexec : exec (.echoReq p h id) s = .next (s.onDev fun _ => x.modPort p fun q => q.control 0x03 (leBytes 4 id.toNat ++ bytes)) := by
    refine next_congr (fun _ => x.modPort p fun q => q.control 0x03 (leBytes 4 id.toNat ++ bytes)) ?_
    rw [receiveControl_of_hears hh rfl, ← hd, hbytes, hx]
    rfl
  have hxo : Device.LinkOnly p d x := by
    rw [hx]
    exact .of_ports ⟨rfl, .of_regs rfl⟩ rfl
  refine brings_modPort hexec (ho.trans hxo) rfl
    (f := fun u => ∃ w ∈ vget u.queue 0 [], w.tag = 0x03000 ∧ w.payload.take 4 = leBytes 4 id.toNat) ?_
  refine ⟨{ ftype := 2, tag := BitVec.ofNat 20 (0x03 * 4096), payload := padTo 240 (leBytes 4 id.toNat ++ bytes), booked := false }, ?_, rfl, ?_⟩
  · change _ ∈ vget (vset _ 0 _) 0 []
    rw [vget_vset _ _ _ _ _ (by decide), if_pos rfl]
    exact List.mem_append_right _ List.mem_cons_self
  · have hl : (leBytes 4 id.toNat).length = 4 := by simp [leBytes]
    have hb : bytes.length = 4 := by rw [hbytes]; simp [leBytes]
    change (padTo 240 (leBytes 4 id.toNat ++ bytes)).take 4 = _
    unfold padTo
    have h8 : (leBytes 4 id.toNat ++ bytes).take 240 = leBytes 4 id.toNat ++ bytes :=
      List.take_of_length_le (by rw [List.length_append, hl, hb]; decide)
    rw [h8, List.append_assoc, List.take_left' hl]

theorem echoRsp_counts (turn : W32) (ps : Nat) (hlen : s.dev.ports[p].echoes.length < 16) (hpart : s.dev.ports[p].partner ≠ none) :
    Completes (.echoRsp p h s.dev.ports[p].echoId turn ps) s fun t =>
      (s.sameMemory t ∧ t.dev.stalls = s.dev.stalls ∧ ∀ r, r ≠ p → t.dev.ports[r] = s.dev.ports[r]) ∧
      t.dev.ports[p].echoes = s.dev.ports[p].echoes ++ [ps - Device.turnPs s.dev.ports[p] turn] ∧
      (s.dev.ports[p].echoes.length = 15 → t.dev.ports[p].rtt = Device.median t.dev.ports[p].echoes) ∧
      (s.dev.ports[p].echoes.length < 15 → t.dev.ports[p].queued 2) := by
  obtain ⟨d, hd, ho, hq, -, -⟩ := listened_of s p
  obtain ⟨u, hu, -, -, -, -, -, hup, hue, hui, -, hut⟩ := heardBy_bringup s.dev.ports[p]
  have hqu := hq.trans hu
  obtain ⟨l, hl⟩ : ∃ l, l = s.dev.ports[p].echoes ++ [ps - Device.turnPs s.dev.ports[p] turn] := ⟨_, rfl⟩
  have hll : l.length = s.dev.ports[p].echoes.length + 1 := by rw [hl]; simp
  obtain ⟨g, hg⟩ : ∃ g : Port → Port, g = fun q => { q with echoes := l, rtt := if l.length = 16 then Device.median l else q.rtt } := ⟨_, rfl⟩
  have hpart' : ¬ (u.partner.isNone = true) := by
    rw [hup]
    simpa using hpart
  have htake : d.takeEcho p s.dev.ports[p].echoId turn ps = if l.length = 16 then d.modPort p g else (d.modPort p g).sendEcho p := by
    unfold Device.takeEcho
    dsimp only
    rw [hqu, if_neg (by rw [hui, hue]; simp only [ne_eq, not_true_eq_false, false_or, not_or]; exact ⟨by omega, hpart'⟩), hue, hut, ← hl, hg]
  have hexec {x : Device} (hx : (if l.length = 16 then d.modPort p g else (d.modPort p g).sendEcho p) = x) :
      exec (.echoRsp p h s.dev.ports[p].echoId turn ps) s = .next (s.onDev fun _ => x) := by
    refine next_congr (fun _ => x) ?_
    rw [receiveControl_of_hears hh rfl, ← hd, htake, hx]
  by_cases h16 : l.length = 16
  · refine brings_modPort (hexec (if_pos h16)) ho hqu (f := fun w => w.echoes = s.dev.ports[p].echoes ++ [ps - Device.turnPs s.dev.ports[p] turn] ∧
      (s.dev.ports[p].echoes.length = 15 → w.rtt = Device.median w.echoes) ∧ (s.dev.ports[p].echoes.length < 15 → w.queued 2)) ?_
    rw [hg]
    exact ⟨hl, fun _ => if_pos h16, fun _ => by omega⟩
  · obtain ⟨bytes, hbytes⟩ : ∃ b, b = leBytes 4 ((d.modPort p g).ports[p].echoId + 1).toNat := ⟨_, rfl⟩
    have hsend := hexec (if_neg h16)
    unfold Device.sendEcho at hsend
    rw [← hbytes] at hsend
    unfold Device.controlFlit at hsend
    rw [Device.modPort_modPort, Device.modPort_modPort] at hsend
    refine brings_modPort hsend ho hqu (f := fun w => w.echoes = s.dev.ports[p].echoes ++ [ps - Device.turnPs s.dev.ports[p] turn] ∧
      (s.dev.ports[p].echoes.length = 15 → w.rtt = Device.median w.echoes) ∧ (s.dev.ports[p].echoes.length < 15 → w.queued 2)) ?_
    rw [hg]
    exact ⟨hl, fun _ => by omega, fun _ => queued_control _ _ _⟩

/-! ### The challenge and its answer -/

section
variable (h3 : s.dev.ports[p].has 3 = true)
include h3

theorem challenge_queues (n : BitVec 256) (hidk : s.dev.trust.idkValid = true) : Completes (.challenge p h n) s fun t =>
    (s.sameMemory t ∧ t.dev.stalls = s.dev.stalls ∧ ∀ r, r ≠ p → t.dev.ports[r] = s.dev.ports[r]) ∧
    t.dev.trust.jobs = s.dev.trust.jobs ++ [.link p n] := by
  obtain ⟨d, hd, ho, hq, -, htr⟩ := listened_of s p
  have hexec : exec (.challenge p h n) s = .next (s.onDev fun _ => { d with trust := { d.trust with jobs := d.trust.jobs ++ [.link p n] } }) := by
    refine next_congr (fun _ => { d with trust := { d.trust with jobs := d.trust.jobs ++ [.link p n] } }) ?_
    rw [receiveControl_of_hears hh (by rw [h3]; rfl), ← hd, if_pos (by rw [htr]; exact hidk)]
  exact ⟨_, hexec, ⟨ho.1.sameBytes.rdByte, ho.stalls, ho.2⟩, by rw [← htr]; rfl⟩

theorem signature_part (part : Nat) (data : List Byte) (i : Identity) (hpart : part < 72) (hi : s.dev.ports[p].identity = some i) :
    Completes (.signature p h part data) s fun t =>
      (s.sameMemory t ∧ t.dev.stalls = s.dev.stalls ∧ ∀ r, r ≠ p → t.dev.ports[r] = s.dev.ports[r]) ∧
      t.dev.ports[p].identity = some { i with
        parts := mapInsert i.parts part data
        listed := if i.parts.length = 71 ∧ (mapInsert i.parts part data).length = 72 then
            s.dev.boot.allow.contains (Trust.digest ((Device.answer { i with parts := mapInsert i.parts part data }).take 32))
          else i.listed } := by
  obtain ⟨d, hd, ho, hq, hboot, -⟩ := listened_of s p
  obtain ⟨u, hu, -, -, -, -, -, -, -, -, hid, -⟩ := heardBy_bringup s.dev.ports[p]
  have hexec : exec (.signature p h part data) s = .next (s.onDev fun _ =>
      d.modPort p fun q => { q with identity := q.identity.map fun i => d.takePart i part data }) := by
    refine next_congr (fun _ => d.modPort p fun q => { q with identity := q.identity.map fun i => d.takePart i part data }) ?_
    rw [receiveControl_of_hears hh (by rw [h3]; rfl), ← hd, if_pos hpart]
  have htake : d.takePart i part data = { i with
      parts := mapInsert i.parts part data
      listed := if i.parts.length = 71 ∧ (mapInsert i.parts part data).length = 72 then
          s.dev.boot.allow.contains (Trust.digest ((Device.answer { i with parts := mapInsert i.parts part data }).take 32))
        else i.listed } := by
    have hlen := length_mapInsert i.parts part data
    unfold Device.takePart
    dsimp only
    rw [hboot]
    by_cases hc : i.parts.length = 71 ∧ (mapInsert i.parts part data).length = 72
    · rw [if_pos hc, if_pos (by simp [hc])]
    · rw [if_neg hc, if_neg (by simp only [Bool.and_eq_true, decide_eq_true_eq]; omega)]
  refine brings_modPort hexec ho (hq.trans hu) (f := fun w => w.identity = some { i with
      parts := mapInsert i.parts part data
      listed := if i.parts.length = 71 ∧ (mapInsert i.parts part data).length = 72 then
          s.dev.boot.allow.contains (Trust.digest ((Device.answer { i with parts := mapInsert i.parts part data }).take 32))
        else i.listed }) ?_
  dsimp only
  rw [hid, hi, Option.map_some, htake]

end

end

end

end Sys2Proof.Machine
end

section
/-! Bring-up: the ends of phases 2 and 3 (R358 to R360), and the whole of bring-up. -/

namespace Sys2Proof.Machine

section
variable {s : State} {p : PortId}

/-- The link that comes up from this port. -/
def Port.comesUp (q u : Port) : Prop :=
  u.state = (if q.width = 16 ∧ q.rateFb = false then PortState.up else PortState.slow) ∧
    u.result = Status.done ∧ ∀ v, 0 < v → v < 6 → vget u.held v 0 = vget q.adv v 0

theorem linkUp_brings {i : Instr} (hexec : exec i s = .next (s.onDev fun _ => s.dev.linkUp p)) : Completes i s fun t =>
    (s.sameMemory t ∧ t.dev.stalls = s.dev.stalls ∧ ∀ r, r ≠ p → t.dev.ports[r] = s.dev.ports[r]) ∧
    s.dev.ports[p].comesUp t.dev.ports[p] := by
  obtain ⟨ho, hq⟩ := s.dev.linkUp_spec p
  refine brings_of hexec ho (f := fun u => s.dev.ports[p].comesUp u) ?_
  rw [hq]
  exact upPort_spec _

theorem hostile_brings {i : Instr} {d : Device} (hexec : exec i s = .next (s.onDev fun _ => d.hostile p 1))
    (ho : Device.LinkOnly p s.dev d) (hl : d.ports[p].linked = false) : Completes i s fun t =>
    (s.sameMemory t ∧ t.dev.stalls = s.dev.stalls ∧ ∀ r, r ≠ p → t.dev.ports[r] = s.dev.ports[r]) ∧
    t.dev.ports[p].state = .hostile ∧ t.dev.ports[p].fenceDetail = 1 := by
  obtain ⟨hh, hq⟩ := d.hostile_unlinked p 1 hl
  refine brings_of hexec (ho.trans hh) (f := fun u => u.state = .hostile ∧ u.fenceDetail = 1) ?_
  rw [hq]
  refine ⟨rfl, if_pos ?_⟩
  simp

section
variable (e : Hello) (hst : s.dev.ports[p].state = .negotiating) (hpart : s.dev.ports[p].partner = some e)
  (hlen : s.dev.ports[p].echoes.length = 16) (hack : Device.helloAcked s.dev.ports[p] = true)
include hst hpart hlen hack

theorem negotiationDone_exec {x : Device} (hx : s.dev.negotiated p e = x) : exec (.negotiationDone p) s = .next (s.onDev fun _ => x) := by
  refine next_congr (fun _ => x) ?_
  dsimp only
  rw [hpart]
  dsimp only
  rw [if_pos (by rw [hst, hlen, hack]; rfl), hx]

theorem negotiationDone_up (hown : s.dev.trust.identReq = false) (hid : e.ident = false) : Completes (.negotiationDone p) s fun t =>
    (s.sameMemory t ∧ t.dev.stalls = s.dev.stalls ∧ ∀ r, r ≠ p → t.dev.ports[r] = s.dev.ports[r]) ∧
    s.dev.ports[p].comesUp t.dev.ports[p] := by
  have hx : s.dev.negotiated p e = s.dev.linkUp p := by
    unfold Device.negotiated
    dsimp only
    rw [hown, hid]
    rfl
  exact linkUp_brings (negotiationDone_exec e hst hpart hlen hack hx)

omit hst hpart hlen hack in
/-- Phase 3 begins with a fresh nonce. -/
theorem negotiated_identifies (hid : s.dev.trust.identReq = true ∨ e.ident = true) : ∃ (x : Device) (i : Identity),
    Device.LinkOnly p s.dev x ∧ x.ports[p] = { s.dev.ports[p] with state := .identifying, identity := some i } ∧
    i.required = s.dev.trust.identReq ∧ s.dev.negotiated p e =
      if s.dev.ports[p].has 3 then x.controlFlit p 0x04 (Trust.keyBytes i.nonce) else x.hostile p 1 := by
  obtain ⟨i, hi⟩ : ∃ i : Identity, i = ⟨s.dev.trust.identReq, Config.freshNonce s.dev.free, [], false⟩ := ⟨_, rfl⟩
  obtain ⟨y, hy⟩ : ∃ y, y = { s.dev with free := s.dev.free + 1 } := ⟨_, rfl⟩
  obtain ⟨z, hz⟩ : ∃ z, z = y.modPort p fun q => { q with state := .identifying, identity := some i } := ⟨_, rfl⟩
  have hyp : y.ports = s.dev.ports := by rw [hy]
  have hyo : Device.LinkOnly p s.dev y := by
    refine .of_ports ?_ hyp
    rw [hy]
    exact ⟨rfl, .of_regs rfl⟩
  have hzo : Device.LinkOnly p y z := by
    rw [hz]
    exact .modPort y _
  refine ⟨z.event (Page.port p) 1, i, hyo.trans (hzo.trans (z.linkOnly_event p _ 1)), ?_, by rw [hi], ?_⟩
  · rw [z.ports_event, hz, y.ports_modPort_same, hyp]
  · have hno : ¬ ((!s.dev.trust.identReq && !e.ident) = true) := by
      rcases hid with h | h <;> rw [h] <;> simp
    unfold Device.negotiated
    dsimp only
    rw [if_neg hno, hz, hy, hi]
    rfl

theorem negotiationDone_identifies (hid : s.dev.trust.identReq = true ∨ e.ident = true) (h3 : s.dev.ports[p].has 3 = true) :
    Completes (.negotiationDone p) s fun t =>
      (s.sameMemory t ∧ t.dev.stalls = s.dev.stalls ∧ ∀ r, r ≠ p → t.dev.ports[r] = s.dev.ports[r]) ∧
      t.dev.ports[p].state = .identifying ∧ t.dev.ports[p].queued 4 ∧
      ∃ i, t.dev.ports[p].identity = some i ∧ i.required = s.dev.trust.identReq := by
  obtain ⟨x, i, hxo, hxq, hreq, hx⟩ := negotiated_identifies e hid
  rw [h3] at hx
  have hexec := negotiationDone_exec e hst hpart hlen hack (hx.trans (if_pos rfl))
  unfold Device.controlFlit at hexec
  exact brings_modPort hexec hxo hxq (f := fun u => u.state = .identifying ∧ u.queued 4 ∧
    ∃ i, u.identity = some i ∧ i.required = s.dev.trust.identReq) ⟨rfl, queued_control _ _ _, i, rfl, hreq⟩

theorem negotiationDone_hostile (hid : s.dev.trust.identReq = true ∨ e.ident = true) (h3 : s.dev.ports[p].has 3 = false) :
    Completes (.negotiationDone p) s fun t =>
      (s.sameMemory t ∧ t.dev.stalls = s.dev.stalls ∧ ∀ r, r ≠ p → t.dev.ports[r] = s.dev.ports[r]) ∧
      t.dev.ports[p].state = .hostile ∧ t.dev.ports[p].fenceDetail = 1 := by
  obtain ⟨x, i, hxo, hxq, -, hx⟩ := negotiated_identifies e hid
  rw [h3] at hx
  refine hostile_brings (negotiationDone_exec e hst hpart hlen hack (hx.trans (if_neg (by decide)))) hxo ?_
  rw [hxq]
  rfl

end

section
variable (e : Hello) (i : Identity) (hst : s.dev.ports[p].state = .identifying) (hpart : s.dev.ports[p].partner = some e)
  (hi : s.dev.ports[p].identity = some i)
include hst hpart hi

theorem identityDone_exec {x : Device} (hx : s.dev.identified p i e = x) : exec (.identityDone p) s = .next (s.onDev fun _ => x) := by
  refine next_congr (fun _ => x) ?_
  dsimp only
  rw [hi, hpart]
  dsimp only
  rw [if_pos hst, hx]

theorem identityDone_spec :
    (i.required = false → Completes (.identityDone p) s fun t =>
      (s.sameMemory t ∧ t.dev.stalls = s.dev.stalls ∧ ∀ r, r ≠ p → t.dev.ports[r] = s.dev.ports[r]) ∧
      s.dev.ports[p].comesUp t.dev.ports[p]) ∧
    (i.required = true → i.parts.length = 72 → s.dev.identityHolds p i e = true → Completes (.identityDone p) s fun t =>
      (s.sameMemory t ∧ t.dev.stalls = s.dev.stalls ∧ ∀ r, r ≠ p → t.dev.ports[r] = s.dev.ports[r]) ∧
      s.dev.ports[p].comesUp t.dev.ports[p]) ∧
    (i.required = true → i.parts.length = 72 → s.dev.identityHolds p i e = false → Completes (.identityDone p) s fun t =>
      (s.sameMemory t ∧ t.dev.stalls = s.dev.stalls ∧ ∀ r, r ≠ p → t.dev.ports[r] = s.dev.ports[r]) ∧
      t.dev.ports[p].state = .hostile ∧ t.dev.ports[p].fenceDetail = 1) := by
  refine ⟨fun hr => linkUp_brings (identityDone_exec e i hst hpart hi ?_),
    fun hr hl hok => linkUp_brings (identityDone_exec e i hst hpart hi ?_),
    fun hr hl hok => hostile_brings (identityDone_exec e i hst hpart hi ?_) (.refl s.dev) ?_⟩
  · unfold Device.identified
    exact if_pos (by rw [hr]; rfl)
  · unfold Device.identified
    rw [if_neg (by rw [hr]; decide), if_neg (by omega), if_pos hok]
  · unfold Device.identified
    rw [if_neg (by rw [hr]; decide), if_neg (by omega), if_neg (by rw [hok]; decide)]
  · unfold Port.linked
    rw [hst]
    rfl

end

end

/-- Settles O44: what each phase of bring-up leaves of its port, and that it leaves the rest alone. -/
theorem portBringup : Obligations.PortBringup := by
  unfold Obligations.PortBringup
  intro p s q page others changes queues comesUp
  refine ⟨fun hserving => ⟨bringup_starts hserving, bringup_invalid hserving, portDown_rising hserving, portDown_linked hserving⟩,
    fun r ht hleft => ⟨trainingDone_fails r ht hleft, fun n slow tx rx hf => trainingDone_fits r ht hleft n slow tx rx hf,
      trainingDone_full r ht hleft⟩, phaseTimeout_early, phaseTimeout_identifying, fun h hh => ⟨fun e hst hl hr => ⟨?_, ?_, ?_⟩,
      fun e hst hd => hello_differs hh e hst hd, fun id => echoReq_answers hh id, fun turn ps hlen hpart => echoRsp_counts hh turn ps hlen hpart,
      fun h3 => ⟨fun n => challenge_queues hh h3 n, fun part data i hpart hi => signature_part hh h3 part data i hpart hi⟩⟩,
    fun e hst hpart hlen hack => ⟨negotiationDone_up e hst hpart hlen hack, negotiationDone_identifies e hst hpart hlen hack,
      negotiationDone_hostile e hst hpart hlen hack⟩, fun e i hst hpart hi => identityDone_spec e i hst hpart hi⟩
  · exact hello_agrees hh e hst hl hr
  · exact hello_miscabled hh e hst hl hr
  · exact hello_versions hh e hst hl hr

end Sys2Proof.Machine
end

section
/-! Flits that come in: acceptance, gaps, replays and credits (R345 to R350). -/

namespace Sys2Proof.Machine

theorem mem_modifyFirst {α : Type} {p : α → Bool} {l : List α} {x : α} (f : α → α) (h : l.find? p = some x) :
    f x ∈ modifyFirst p f l := by
  induction l with
  | nil => exact absurd h (by simp)
  | cons y l ih =>
    unfold modifyFirst
    rw [List.find?_cons] at h
    split at h
    · next hp =>
      rw [if_pos hp, Option.some.inj h]
      exact List.mem_cons_self
    · next hp =>
      rw [if_neg (by simp [hp])]
      exact List.mem_cons_of_mem _ (ih h)

/-! ### The port -/

/-- A flit of VC v with header h has been accepted: u is q after it. -/
def Port.tookFlit (q : Port) (h : FlitHeader) (v : Nat) (u : Port) : Prop :=
  u.expect = q.expect + 1 ∧ u.ack = h.seq ∧ vget u.owed v 0 = vget q.owed v 0 + 1 ∧ vget u.granted v 0 + 1 = vget q.granted v 0

theorem tookFlit_heardBy {s : State} {p : PortId} {h : FlitHeader} {v : Nat} (hh : s.hears p h v) (hv : v < 6) :
    s.dev.ports[p].tookFlit h v (heardBy v s.dev.ports[p]) := by
  obtain ⟨-, hseq, -, -, hg⟩ := hh
  rw [heardBy_only]
  refine ⟨rfl, ?_, ?_, ?_⟩
  · change _ + 1 - 1 = h.seq
    rw [hseq]
    bv_omega
  · exact (vget_vset _ _ _ _ _ hv).trans (if_pos rfl)
  · change vget (vset _ v _) v 0 + 1 = _
    rw [vget_vset _ _ _ _ _ hv, if_pos rfl]
    omega

theorem outstanding_heardBy (q : Port) (v : Nat) : (heardBy 0 q).outstanding v ≤ q.outstanding v := by
  have hu : (heardBy 0 q).unacked = q.unacked.filter fun u => u.naked || decide (0 < behind q.acked u.flit.hdr.seq) := rfl
  have ha : (heardBy 0 q).acked = q.acked := by rw [heardBy_only]
  unfold Port.outstanding
  rw [hu, ha]
  exact (List.Sublist.filter _ List.filter_sublist).length_le

/-- What the NAKs of lost flits leave of a port: they wait on VC0. -/
theorem nakFlits_only (q : Port) (lost : List Seq) : q.nakFlits lost = { q with queue := (q.nakFlits lost).queue } := by
  unfold Port.nakFlits
  generalize chunksOf 16 lost.length lost = l
  induction l generalizing q with
  | nil => rfl
  | cons x l ih =>
    rw [List.foldl_cons, ih, control_only]

/-- A port that an IDLE flit brings forward. -/
theorem advance_only (q : Port) (x y : Seq) : Device.advance q x y = { q with
    queue := (q.nakFlits (Device.gap q.expect x)).queue, missing := q.missing ++ Device.gap q.expect x, expect := y, ack := y - 1 } := by
  unfold Device.advance
  dsimp only
  rw [nakFlits_only]

theorem waits_nakFlits (q : Port) (lost : List Seq) (h : lost ≠ []) : (q.nakFlits lost).waits 0x20000 := by
  unfold Port.nakFlits
  have hne : chunksOf 16 lost.length lost ≠ [] := by
    cases lost with
    | nil => exact absurd rfl h
    | cons x t => simp [chunksOf]
  generalize chunksOf 16 lost.length lost = l at hne
  have hkeep (u : Port) (hu : u.waits 0x20000) (l : List (List Seq)) : (l.foldl (fun q l =>
      q.control 0x20 (padTo 32 (l.flatMap fun s => leBytes 2 s.toNat) ++ [BitVec.ofNat 8 l.length])) u).waits 0x20000 := by
    induction l generalizing u with
    | nil => exact hu
    | cons x l ih => exact ih _ (waits_control _ _ _)
  cases l with
  | nil => exact absurd rfl hne
  | cons x l => exact hkeep _ (waits_control _ _ _) l

/-! ### The device -/

namespace Device

/-- Names that a NAK gives before its own ACK takes effect. -/
theorem receiveData_pre (d : Device) (p : PortId) (h : FlitHeader) (v : Nat) (bad : Option Nat) (pre f : Device → Device) (g : Port → Port)
    (hpre : pre (d.modPort p (listening v)) = (d.modPort p g).modPort p (listening v))
    (ht : d.ports[p].talking = true) (hg : (g d.ports[p]).talking = true) :
    d.receiveData p h v bad pre f = (d.modPort p g).receiveData p h v bad id f := by
  have ht' : (d.modPort p g).ports[p].talking = true := by rw [d.ports_modPort_same, hg]
  unfold receiveData
  refine (if_neg (by rw [ht]; decide)).trans (Eq.trans ?_ (if_neg (by rw [ht']; decide)).symm)
  rw [listening_modPort, listening_modPort, hpre]
  rfl

end Device

section
variable {s : State} {p : PortId}

/-- What an event of one port alone leaves. -/
def State.portAlone (s : State) (p : PortId) (t : State) : Prop :=
  s.onlyTo t { s.dev with ports := t.dev.ports } ∧ ∀ r, r ≠ p → t.dev.ports[r] = s.dev.ports[r]

/-- An event that changes one port, where the port ends as f says. -/
theorem alone_of {i : Instr} {g : Port → Port} (hexec : exec i s = .next (s.onDev fun _ => s.dev.modPort p g))
    {f : Port → Prop} (hf : f (g s.dev.ports[p])) : Completes i s fun t => s.portAlone p t ∧ f t.dev.ports[p] := by
  refine ⟨_, hexec, ⟨⟨⟨rfl, rfl⟩, rfl⟩, fun r hr => upd_ne _ _ _ _ hr⟩, ?_⟩
  change f (s.dev.modPort p g).ports[p]
  rw [s.dev.ports_modPort_same]
  exact hf

section
variable {h : FlitHeader} (hh : s.hears p h 0)
include hh

theorem keepalive_spec : Completes (.keepalive p h) s fun t =>
    s.portAlone p t ∧ s.dev.ports[p].tookFlit h 0 t.dev.ports[p] ∧ t.dev.ports[p].heard = true := by
  have hexec : exec (.keepalive p h) s = .next (s.onDev fun _ => s.dev.modPort p (heardBy 0)) :=
    next_congr (fun _ => s.dev.modPort p (heardBy 0)) (receiveControl_of_hears hh rfl fun d => d)
  exact alone_of hexec (f := fun u => s.dev.ports[p].tookFlit h 0 u ∧ u.heard = true) ⟨tookFlit_heardBy hh (by decide), rfl⟩

/-- CREDIT for one VC. -/
theorem credit_exec (v : BitVec 3) (n : Nat) {x : Device}
    (hx : (match Device.takeCredit (heardBy 0 s.dev.ports[p]) v.toNat n with
      | some q => (s.dev.modPort p (heardBy 0)).modPort p fun _ => q
      | none => (s.dev.modPort p (heardBy 0)).hostile p 2) = x) :
    exec (.credit p h [(v, n)]) s = .next (s.onDev fun _ => x) := by
  refine next_congr (fun _ => x) ?_
  rw [receiveControl_of_hears hh rfl]
  obtain ⟨d, hd⟩ : ∃ d, d = s.dev.modPort p (heardBy 0) := ⟨_, rfl⟩
  have hq : d.ports[p] = heardBy 0 s.dev.ports[p] := by rw [hd, s.dev.ports_modPort_same]
  have ht : d.ports[p].talking = true := by
    rw [hq, heardBy_only]
    exact hh.1
  rw [← hd] at hx ⊢
  rw [List.foldl_cons, List.foldl_nil, if_neg (by rw [ht]; decide), hq]
  exact hx

theorem credit_adds (v : BitVec 3) (n : Nat) (hv : v.toNat < 6) (hn : 0 < n)
    (hroom : vget s.dev.ports[p].held v.toNat 0 + n + s.dev.ports[p].outstanding v.toNat ≤ vget s.dev.ports[p].adv v.toNat 0) :
    Completes (.credit p h [(v, n)]) s fun t => s.portAlone p t ∧ s.dev.ports[p].tookFlit h 0 t.dev.ports[p] ∧
      vget t.dev.ports[p].held v.toNat 0 = vget s.dev.ports[p].held v.toNat 0 + n := by
  have hheld : (heardBy 0 s.dev.ports[p]).held = s.dev.ports[p].held ∧ (heardBy 0 s.dev.ports[p]).adv = s.dev.ports[p].adv := by
    rw [heardBy_only]
    exact ⟨rfl, rfl⟩
  have hout := outstanding_heardBy s.dev.ports[p] v.toNat
  have htook := tookFlit_heardBy hh (by decide)
  have hexec {x : Device} := credit_exec (x := x) hh v n
  obtain ⟨u, hu⟩ : ∃ u, heardBy 0 s.dev.ports[p] = u := ⟨_, rfl⟩
  rw [hu] at hheld hout htook hexec
  have hcredit : Device.takeCredit u v.toNat n = some { u with held := vset u.held v.toNat (vget u.held v.toNat 0 + n) } := by
    unfold Device.takeCredit
    rw [if_neg (by omega), hheld.1, hheld.2, if_neg (by omega)]
  rw [hcredit] at hexec
  have hrun := hexec rfl
  dsimp only at hrun
  rw [Device.modPort_modPort] at hrun
  refine alone_of hrun (f := fun w => s.dev.ports[p].tookFlit h 0 w ∧
    vget w.held v.toNat 0 = vget s.dev.ports[p].held v.toNat 0 + n) ⟨htook, ?_⟩
  rw [vget_vset _ _ _ _ _ hv, if_pos rfl, hheld.1]

theorem credit_exceeds (v : BitVec 3) (n : Nat) (hn : 0 < n)
    (hroom : vget s.dev.ports[p].adv v.toNat 0 < vget s.dev.ports[p].held v.toNat 0 + n) :
    Completes (.credit p h [(v, n)]) s fun t => t.dev.ports[p].state = .hostile ∧ t.dev.ports[p].fenceDetail = 2 := by
  have hcredit : Device.takeCredit (heardBy 0 s.dev.ports[p]) v.toNat n = none := by
    have hheld : (heardBy 0 s.dev.ports[p]).held = s.dev.ports[p].held ∧ (heardBy 0 s.dev.ports[p]).adv = s.dev.ports[p].adv := by
      rw [heardBy_only]
      exact ⟨rfl, rfl⟩
    unfold Device.takeCredit
    rw [if_neg (by omega), hheld.1, hheld.2, if_pos (by omega)]
  have hexec : exec (.credit p h [(v, n)]) s = .next (s.onDev fun _ => (s.dev.modPort p (heardBy 0)).hostile p 2) :=
    credit_exec hh v n (by rw [hcredit])
  exact ⟨_, hexec, Device.hostile_spec _ p 2⟩

/-- A NAK of one flit. -/
theorem nak_marks (x : Seq) (u : Unacked) (hu : (s.dev.ports[p].unacked.find? fun u => u.flit.hdr.seq = x) = some u)
    (hrep : u.replayed = false) : Completes (.nak p h [x]) s fun t =>
      s.portAlone p t ∧ s.dev.ports[p].tookFlit h 0 t.dev.ports[p] ∧ ∃ w ∈ t.dev.ports[p].unacked, w.flit = u.flit ∧ w.naked = true := by
  obtain ⟨ht, hseq, hack, hcc, hg⟩ := hh
  obtain ⟨g, hgd⟩ : ∃ g : Port → Port, g = fun q => { q with
      unacked := modifyFirst (fun v => v.flit.hdr.seq = x) (fun v => { v with naked := true }) q.unacked } := ⟨_, rfl⟩
  obtain ⟨y, hy⟩ : ∃ y, y = s.dev.modPort p g := ⟨_, rfl⟩
  have hyq : y.ports[p] = g s.dev.ports[p] := by rw [hy, s.dev.ports_modPort_same]
  have hexec : exec (.nak p h [x]) s = .next (s.onDev fun _ => y.modPort p (heardBy 0)) := by
    refine next_congr (fun _ => y.modPort p (heardBy 0)) ?_
    have hyt : y.ports[p].talking = true := by rw [hyq, hgd]; exact ht
    have hys : h.seq = y.ports[p].expect := by rw [hyq, hgd]; exact hseq
    have hya : h.ack = y.ports[p].acked := by rw [hyq, hgd]; exact hack
    have hyg : vget y.ports[p].granted 0 0 ≠ 0 := by rw [hyq, hgd]; exact hg
    refine Eq.trans ?_ (y.receiveFlit_expected p h 0 id hyt hys hya hcc hyg)
    unfold Device.receiveFlit
    rw [hy]
    refine s.dev.receiveData_pre p h 0 none _ _ g ?_ ht (by rw [hgd]; exact ht)
    have hl : (s.dev.modPort p (listening 0)).ports[p] = listening 0 s.dev.ports[p] := s.dev.ports_modPort_same p _
    dsimp only
    rw [hl, if_pos (by
      rw [Bool.or_eq_true]
      refine .inl (decide_eq_true ?_)
      change behind s.dev.ports[p].expect h.seq < 2048
      rw [hseq, behind_self]
      decide), List.foldl_cons, List.foldl_nil, hl]
    change (match s.dev.ports[p].unacked.find? fun u => u.flit.hdr.seq = x with | none => _ | some u => _) = _
    rw [hu]
    dsimp only
    rw [if_neg (by rw [hrep]; decide), Device.modPort_modPort, Device.modPort_modPort, hgd]
    rfl
  rw [hy, Device.modPort_modPort] at hexec
  have hg' : s.dev.ports[p].tookFlit h 0 (heardBy 0 (g s.dev.ports[p])) := by
    have := tookFlit_heardBy (v := 0) (s := s) ⟨ht, hseq, hack, hcc, hg⟩ (by decide)
    rw [hgd]
    exact this
  refine alone_of hexec (f := fun w => s.dev.ports[p].tookFlit h 0 w ∧ ∃ v ∈ w.unacked, v.flit = u.flit ∧ v.naked = true)
    ⟨hg', { u with naked := true }, ?_, rfl, rfl⟩
  change _ ∈ (g s.dev.ports[p]).unacked.filter _
  rw [List.mem_filter, hgd]
  exact ⟨mem_modifyFirst (fun v : Unacked => { v with naked := true }) hu, rfl⟩

theorem down_spec (c : BitVec 8) : Completes (.down p h c) s fun t => t.dev.ports[p].state = .absent ∧
    (s.dev.ports[p].linked = true → t.dev.ports[p].left = some 0) := by
  have hexec : exec (.down p h c) s = .next (s.onDev fun _ => (s.dev.modPort p (heardBy 0)).leave p .absent 0 Status.portAbsent) :=
    next_congr (fun _ => (s.dev.modPort p (heardBy 0)).leave p .absent 0 Status.portAbsent) (receiveControl_of_hears hh rfl _)
  obtain ⟨h1, h2⟩ := (s.dev.modPort p (heardBy 0)).leave_spec p .absent 0 Status.portAbsent
  refine ⟨_, hexec, h1, fun hl => h2 ?_⟩
  rw [s.dev.ports_modPort_same, heardBy_only]
  exact hl

end

/-! ### IDLE flits -/

section
variable (h : FlitHeader) (ht : s.dev.ports[p].talking = true) (hack : h.ack = s.dev.ports[p].acked) (hcc : h.ccount = 0)
include ht hack hcc

theorem idleFlit_exec (hb : behind s.dev.ports[p].expect h.seq < 2048) : exec (.idleFlit p h) s =
    .next (s.onDev fun _ => s.dev.modPort p fun q => Device.advance (covered q) h.seq h.seq) := by
  refine next_congr (fun _ => s.dev.modPort p fun q => Device.advance (covered q) h.seq h.seq) ?_
  unfold Device.receiveIdle
  rw [if_neg (by rw [ht]; decide), Device.receiveHeader_expected _ _ _ _ hack hcc, s.dev.ports_modPort_same]
  have hc : (covered s.dev.ports[p]).expect = s.dev.ports[p].expect := rfl
  rw [hc, if_pos hb, Device.modPort_modPort]

theorem idleFlit_expected (hseq : h.seq = s.dev.ports[p].expect) : Completes (.idleFlit p h) s fun t =>
    s.portAlone p t ∧ t.dev.ports[p].expect = s.dev.ports[p].expect ∧
    t.dev.ports[p].missing = s.dev.ports[p].missing ∧ t.dev.ports[p].granted = s.dev.ports[p].granted ∧
    t.dev.ports[p].owed = s.dev.ports[p].owed := by
  have hb : behind s.dev.ports[p].expect h.seq < 2048 := by
    rw [hseq, behind_self]
    decide
  refine alone_of (idleFlit_exec h ht hack hcc hb) (f := fun u => u.expect = s.dev.ports[p].expect ∧
    u.missing = s.dev.ports[p].missing ∧ u.granted = s.dev.ports[p].granted ∧ u.owed = s.dev.ports[p].owed) ?_
  rw [advance_only]
  refine ⟨hseq, ?_, rfl, rfl⟩
  have h0 : Device.gap s.dev.ports[p].expect h.seq = [] := by
    rw [Device.gap, hseq, behind_self]
    rfl
  exact (congrArg (s.dev.ports[p].missing ++ ·) h0).trans (List.append_nil _)

theorem idleFlit_gap (hseq : h.seq ≠ s.dev.ports[p].expect) (hb : behind s.dev.ports[p].expect h.seq < 2048) :
    Completes (.idleFlit p h) s fun t => s.portAlone p t ∧ t.dev.ports[p].expect = h.seq ∧
      t.dev.ports[p].missing = s.dev.ports[p].missing ++ Device.gap s.dev.ports[p].expect h.seq ∧ t.dev.ports[p].waits 0x20000 := by
  refine alone_of (idleFlit_exec h ht hack hcc hb) (f := fun u => u.expect = h.seq ∧
    u.missing = s.dev.ports[p].missing ++ Device.gap s.dev.ports[p].expect h.seq ∧ u.waits 0x20000) ?_
  have hne : Device.gap (covered s.dev.ports[p]).expect h.seq ≠ [] := by
    change Device.gap s.dev.ports[p].expect h.seq ≠ []
    have hpos : behind s.dev.ports[p].expect h.seq ≠ 0 := by
      unfold behind
      bv_omega
    intro hnil
    have := congrArg List.length hnil
    unfold Device.gap at this
    rw [List.length_map, List.length_range] at this
    exact hpos this
  have hw := waits_nakFlits (covered s.dev.ports[p]) _ hne
  rw [advance_only]
  exact ⟨rfl, rfl, hw⟩

end

end

end Sys2Proof.Machine
end

section
/-! Flit slots of a port (R334, R341, R348, R350). -/

namespace Sys2Proof.Machine

theorem orElse_of {α : Type} {P : α → Prop} {a b : Option α} (ha : ∀ x ∈ a, P x) (hb : ∀ x ∈ b, P x) : ∀ x ∈ (a <|> b), P x := by
  cases a with
  | none => exact hb
  | some x => exact ha

theorem getD_of {α : Type} {P : α → Prop} {a : Option α} {y : α} (ha : ∀ x ∈ a, P x) (hy : P y) : P (a.getD y) := by
  cases a with
  | none => exact hy
  | some x => exact ha x rfl

/-! ### The lanes -/

/-- The next flit of u goes out on the lane on which that of q would. -/
def Port.SameLane (q u : Port) : Prop := u.tx = q.tx ∧ u.swapTx = q.swapTx ∧ u.lane = q.lane

namespace Port.SameLane

theorem of_header (q : Port) (x : Seq) (b : Bool) : q.SameLane (q.header x b).1 := by
  obtain ⟨o, g, h⟩ := Device.header_only q x b
  rw [h]
  exact ⟨rfl, rfl, rfl⟩

theorem trans {q u w : Port} (h : q.SameLane u) (k : u.SameLane w) : q.SameLane w := by
  obtain ⟨h1, h2, h3⟩ := h
  obtain ⟨k1, k2, k3⟩ := k
  exact ⟨k1.trans h1, k2.trans h2, k3.trans h3⟩

theorem sendFirst (q : Port) (v i : Nat) (w : Waiting) (f : Frame) : q.SameLane (q.sendFirst v i w f).1 := of_header q q.nextSeq false
theorem sendReplay (q : Port) (u : Unacked) : q.SameLane (q.sendReplay u).1 := of_header q u.flit.hdr.seq true
theorem idle (q : Port) : q.SameLane q.idle.1 := of_header q q.nextSeq false

theorem chargeTeam (q : Port) (w : Waiting) : q.SameLane (Device.chargeTeam q w) := by
  unfold Device.chargeTeam
  split
  · exact ⟨rfl, rfl, rfl⟩
  · exact ⟨rfl, rfl, rfl⟩

theorem roundRobin {q u : Port} {weight : Nat → Nat} {cand : List Nat} {v : Nat} (h : q.roundRobin weight cand = some (u, v)) : q.SameLane u := by
  unfold Port.roundRobin at h
  split at h
  · obtain ⟨rfl, -⟩ := Prod.mk.injEq .. ▸ Option.some.inj h
    exact ⟨rfl, rfl, rfl⟩
  · obtain ⟨x, -, hx⟩ := Option.map_eq_some_iff.mp h
    obtain ⟨rfl, -⟩ := Prod.mk.injEq .. ▸ hx
    exact ⟨rfl, rfl, rfl⟩

theorem nextLane {q u : Port} (h : q.SameLane u) : u.nextLane = q.nextLane := by
  obtain ⟨h1, -, h3⟩ := h
  unfold Port.nextLane
  rw [h1, h3]

theorem carriers {q u : Port} (h : q.SameLane u) (i : Fin 17) (now : Frame) : u.carriers i now = q.carriers i now := by
  obtain ⟨-, h2, -⟩ := h
  unfold Port.carriers
  rw [h2]

end Port.SameLane

theorem nextLane_active {q : Port} (h : lanes q.tx.active ≠ 0) : ∃ i, q.nextLane = some i ∧ flag q.tx.active i = true := by
  obtain ⟨k, hk⟩ : ∃ k, k ∈ (List.range 17).filter fun i => flag q.tx.active i :=
    List.exists_mem_of_ne_nil _ fun h0 => h (by rw [lanes, h0]; rfl)
  obtain ⟨hk17, hact⟩ := List.mem_filter.mp hk
  obtain ⟨l, hl⟩ : ∃ l, l = (finList 17).filter fun (i : Fin 17) => flag q.tx.active i := ⟨_, rfl⟩
  have hmem : (⟨k, List.mem_range.mp hk17⟩ : Fin 17) ∈ l := by
    rw [hl]
    exact List.mem_filter.mpr ⟨List.mem_finRange _, hact⟩
  have hall : ∀ i ∈ l, flag q.tx.active i = true := fun i hi => by
    rw [hl] at hi
    exact (List.mem_filter.mp hi).2
  have hnext : q.nextLane = ((l.find? fun i => decide (q.lane ≤ i.val)) <|> l.head?) := by rw [hl]; rfl
  rw [hnext]
  cases hf : l.find? fun i => decide (q.lane ≤ i.val) with
  | some i => exact ⟨i, rfl, hall i (List.mem_of_find?_eq_some hf)⟩
  | none =>
    cases l with
    | nil => exact absurd hmem (by simp)
    | cons i l => exact ⟨i, rfl, hall i List.mem_cons_self⟩

/-! ### A flit leaves -/

namespace Device

section
variable (d : Device) (p : PortId) (f : Flit)

theorem emit_wire : (d.emit p f).out.wire[p] = some f := Vector.getElem_set_self _

theorem emit_wireBytes (h : d.tally.armed = false) : (d.emit p f).out.wireBytes[p] = Flit.image f 0 := by
  have hset (x : Bool) (hx : x = false) : (d.out.wireBytes.set p (Flit.image f (if x then Config.crcDamage d.free ||| 1 else 0)))[p] =
      Flit.image f 0 := by
    rw [hx]
    exact Vector.getElem_set_self _
  refine hset _ ?_
  rw [h]
  simp

theorem emit_wireLanes : (d.emit p f).out.wireLanes[p] = (d.ports[p].nextLane.map fun i => d.ports[p].carriers i d.now).getD 0 :=
  Vector.getElem_set_self _

theorem emit_port : (d.emit p f).ports[p] = { d.ports[p] with lane := (d.ports[p].nextLane.map fun i => i.val + 1).getD d.ports[p].lane } :=
  upd_same _ _ _

/-- A flit without payload leaves the port's lane and what goes over the wire. -/
theorem emit_only (h : f.ftype ≠ 1) : d.emit p f = { (d.modPort p fun q =>
    { q with lane := (d.ports[p].nextLane.map fun i => i.val + 1).getD q.lane }) with out := (d.emit p f).out } := by
  have hhit (x : Bool) (hx : x = false) : (if x then { d.tally with hit := true } else d.tally) = d.tally := by rw [hx]; rfl
  have ht : (d.emit p f).tally = d.tally := by
    refine hhit _ ?_
    rw [decide_eq_false h]
    simp
  have he : ∃ t, d.emit p f = { (d.modPort p fun q =>
      { q with lane := (d.ports[p].nextLane.map fun i => i.val + 1).getD q.lane }) with out := (d.emit p f).out, tally := t } := ⟨_, rfl⟩
  obtain ⟨t, he⟩ := he
  have htt : t = d.tally := by rw [← ht, he]
  rw [he, htt]
  rfl

/-- Some flit left port p, on the lane that was next. -/
def SlotSent (e : Device) : Prop :=
  ∃ u f x, d.ports[p].SameLane u ∧ x = (d.modPort p fun _ => u).emit p f ∧ e.ports = x.ports ∧ e.out = x.out

omit f in
theorem slotSent_of {u : Port} (h : d.ports[p].SameLane u) (f : Flit) : d.SlotSent p ((d.modPort p fun _ => u).emit p f) :=
  ⟨u, f, _, h, rfl, rfl, rfl⟩

omit f in
theorem slotFlit_sent : d.SlotSent p (d.slotFlit p) := by
  unfold slotFlit
  extract_lets q opens marked q' inReplay ready first0 data done dataFlit send0 replay
  have hq : q.SameLane q' := ⟨rfl, rfl, rfl⟩
  have hdone (r : Port × Flit) (h : q.SameLane r.1) : d.SlotSent p (done r) := d.slotSent_of p h r.2
  have hsend0 : ∀ x ∈ send0, d.SlotSent p x := by
    intro x hx
    obtain ⟨w, -, rfl⟩ := Option.map_eq_some_iff.mp hx
    exact hdone _ (hq.trans (.sendFirst q' 0 0 w d.now))
  have hreplay : ∀ x ∈ replay, d.SlotSent p x := by
    intro x hx
    obtain ⟨u, -, rfl⟩ := Option.map_eq_some_iff.mp hx
    obtain ⟨v, f, y, h1, h2, h3, h4⟩ := hdone _ (hq.trans (.sendReplay q' u))
    exact ⟨v, f, y, h1, h2, h3, h4⟩
  have hdata (b : Bool) : ∀ x ∈ dataFlit b, d.SlotSent p x := by
    intro x hx
    obtain ⟨⟨u, v⟩, hu, hx⟩ := Option.bind_eq_some_iff.mp hx
    obtain ⟨⟨i, w⟩, -, hx⟩ := Option.bind_eq_some_iff.mp hx
    obtain rfl := Option.some.inj hx
    exact hdone _ (hq.trans ((Port.SameLane.roundRobin hu).trans ((Port.SameLane.sendFirst u v i w d.now).trans (.chargeTeam _ w))))
  have hif (b : Prop) [Decidable b] (o : Option Device) (h : ∀ x ∈ o, d.SlotSent p x) : ∀ x ∈ (if b then o else none), d.SlotSent p x := by
    split
    · exact h
    · exact fun x hx => absurd hx (by simp)
  exact getD_of (orElse_of (hif _ _ hsend0) (orElse_of (hif _ _ hreplay) (orElse_of (hdata true) (orElse_of (hdata false) hsend0))))
    (hdone _ (hq.trans (.idle q')))

end

end Device

section
variable {s : State} {p : PortId} (hl : lanes s.dev.ports[p].tx.active ≠ 0) (hst : s.dev.ports[p].state ≠ .training)
include hl hst

theorem flitSlot_talks (ht : s.dev.ports[p].talking = true) (hr : 0 < s.dev.ports[p].room) {x : Device} (hx : s.dev.slotFlit p = x) :
    exec (.flitSlot p) s = .next (s.onDev fun _ => x) := by
  refine next_congr (fun _ => x) ?_
  dsimp only
  rw [if_neg (by simpa only [Bool.or_eq_true, decide_eq_true_eq, not_or] using And.intro hl hst), if_pos ht, if_pos hr, hx]

theorem flitSlot_fenced (ht : s.dev.ports[p].talking = false) :
    exec (.flitSlot p) s = .next (s.onDev fun _ => s.dev.emit p s.dev.ports[p].bareIdle) := by
  refine next_congr (fun _ => s.dev.emit p s.dev.ports[p].bareIdle) ?_
  dsimp only
  rw [if_neg (by simpa only [Bool.or_eq_true, decide_eq_true_eq, not_or] using And.intro hl hst), if_neg (by rw [ht]; decide)]

theorem flitSlot_idles (ht : s.dev.ports[p].talking = false) : Completes (.flitSlot p) s fun t =>
    t.dev.out.wire[p] = some s.dev.ports[p].bareIdle ∧ s.portAlone p { t with dev := { t.dev with out := s.dev.out } } ∧
    t.dev.ports[p] = { s.dev.ports[p] with lane := t.dev.ports[p].lane } := by
  obtain ⟨e, he⟩ : ∃ e, s.dev.emit p s.dev.ports[p].bareIdle = e := ⟨_, rfl⟩
  have h01 : (0 : BitVec 4) ≠ 1 := by decide
  have honly := s.dev.emit_only p s.dev.ports[p].bareIdle h01
  have hw := s.dev.emit_wire p s.dev.ports[p].bareIdle
  have hp := s.dev.emit_port p s.dev.ports[p].bareIdle
  have hexec := flitSlot_fenced hl hst ht
  rw [he] at honly hw hp hexec
  have hports : e.ports = (s.dev.modPort p fun q =>
      { q with lane := (s.dev.ports[p].nextLane.map fun i => i.val + 1).getD q.lane }).ports := by rw [honly]
  refine ⟨_, hexec, hw, ⟨⟨⟨rfl, rfl⟩, ?_⟩, fun r hr => ?_⟩, ?_⟩
  · change ({ e with out := s.dev.out } : Device) = { s.dev with ports := e.ports }
    rw [honly]
    rfl
  · change e.ports[r] = _
    rw [hports]
    exact upd_ne _ _ _ _ hr
  · change e.ports[p] = { s.dev.ports[p] with lane := e.ports[p].lane }
    rw [hp]

theorem flitSlot_lane (h : s.dev.ports[p].talking = true → 0 < s.dev.ports[p].room ∨ s.dev.ports[p].talking = false) :
    ∃ i : Fin 17, s.dev.ports[p].nextLane = some i ∧ flag s.dev.ports[p].tx.active i = true ∧ Completes (.flitSlot p) s fun t =>
      t.dev.out.wireLanes[p] = s.dev.ports[p].carriers i s.dev.now ∧ t.dev.ports[p].lane = i.val + 1 := by
  obtain ⟨i, hi, hact⟩ := nextLane_active hl
  refine ⟨i, hi, hact, ?_⟩
  cases ht : s.dev.ports[p].talking with
  | false =>
    refine ⟨_, flitSlot_fenced hl hst ht, (s.dev.emit_wireLanes p _).trans (by rw [hi]; rfl), ?_⟩
    rw [State.onDev_dev, s.dev.emit_port p _, hi]
    rfl
  | true =>
    have hr := (h ht).resolve_right (by rw [ht]; decide)
    obtain ⟨u, f, x, hu, hx, hp, ho⟩ := s.dev.slotFlit_sent p
    obtain ⟨y, hy⟩ : ∃ y, y = s.dev.modPort p fun _ => u := ⟨_, rfl⟩
    have hyq : y.ports[p] = u := by rw [hy, s.dev.ports_modPort_same]
    have hnow : y.now = s.dev.now := by rw [hy]; rfl
    have hnext : u.nextLane = some i := hu.nextLane.trans hi
    rw [← hy] at hx
    refine ⟨_, flitSlot_talks hl hst ht hr rfl, ?_, ?_⟩
    · rw [State.onDev_dev, ho, hx, y.emit_wireLanes, hyq, hnext, hnow]
      exact hu.carriers i s.dev.now
    · rw [State.onDev_dev, hp, hx, y.emit_port, hyq, hnext]
      rfl

end

end Sys2Proof.Machine
end

section
/-! What a slot sends, flits against the rules, and the loss of a link (R341, R348, R350, R368 to R372). -/

namespace Sys2Proof.Machine

namespace Device

section
variable (d : Device) (p : PortId)

/-- The oldest VC0 flit goes first. -/
theorem slotFlit_vc0 (w : Waiting) (rest : List Waiting) (hw : vget d.ports[p].queue 0 [] = w :: rest)
    (hheld : vget d.ports[p].held 0 0 ≠ 0) (hroom : d.ports[p].unacked.length < 2048) (hsent : d.ports[p].sent0 < 256) :
    ∃ q : Port, d.slotFlit p = (d.modPort p fun _ => (q.sendFirst 0 0 w d.now).1).emit p (q.sendFirst 0 0 w d.now).2 ∧
      q.queue = d.ports[p].queue ∧ q.held = d.ports[p].held ∧ q.nextSeq = d.ports[p].nextSeq := by
  unfold slotFlit
  extract_lets q opens marked q' inReplay ready first0 data done dataFlit send0 replay
  have hmarked : marked.length = q.unacked.length := by
    dsimp only [marked]
    split
    · exact List.length_map ..
    · rfl
  have hmay : q'.maySend 0 = true := by
    unfold Port.maySend
    have h2 : q'.unacked.length < 2048 := by
      change marked.length < 2048
      rw [hmarked]
      exact hroom
    rw [decide_eq_true h2, Bool.and_true]
    exact decide_eq_true hheld
  have hfirst : first0 = some w := by
    dsimp only [first0]
    rw [if_pos hmay]
    exact congrArg List.head? hw
  have hsend : send0 = some (done (q'.sendFirst 0 0 w d.now)) := by
    dsimp only [send0]
    rw [hfirst]
    rfl
  refine ⟨q', ?_, rfl, rfl, rfl⟩
  have h0 : q'.sent0 < 256 := hsent
  rw [if_pos h0, hsend]
  rfl

/-- Nothing waits: IDLE. -/
theorem slotFlit_idle (hun : d.ports[p].unacked = []) (hqueues : ∀ v, v < 6 → vget d.ports[p].queue v [] = []) :
    ∃ q : Port, d.slotFlit p = (d.modPort p fun _ => q.idle.1).emit p q.idle.2 ∧ q.nextSeq = d.ports[p].nextSeq := by
  unfold slotFlit
  extract_lets q opens marked q' inReplay ready first0 data done dataFlit send0 replay
  have hmarked : marked = [] := by
    dsimp only [marked]
    change (if opens = true then d.ports[p].unacked.map _ else d.ports[p].unacked) = []
    rw [hun]
    split <;> rfl
  have hqueue (v : Nat) (hv : v < 6) : vget q'.queue v [] = [] := hqueues v hv
  have hsend : send0 = none := by
    have hfirst : first0 = none := by
      dsimp only [first0]
      rw [hqueue 0 (by decide)]
      split <;> rfl
    dsimp only [send0]
    rw [hfirst]
    rfl
  have hreplay : replay = none := by
    have hf : (q'.unacked.find? fun u => u.due && !u.replayed) = none := by
      change (marked.find? _) = none
      rw [hmarked]
      rfl
    dsimp only [replay]
    rw [hf]
    rfl
  have hready (v : Nat) (b : Bool) (hv : v < 6) : ready v b = none := by
    dsimp only [ready]
    rw [hqueue v hv]
    split <;> rfl
  have hdata (b : Bool) : data b = [] := by
    dsimp only [data]
    refine List.filter_eq_nil_iff.mpr fun v hv => ?_
    have hv6 : v < 6 := by
      simp only [List.mem_cons, List.not_mem_nil, or_false] at hv
      omega
    rw [hready v b hv6]
    exact Bool.false_ne_true
  have hflit (b : Bool) : dataFlit b = none := by
    have hrr : q'.roundRobin (d.weight p) (data b) = none := by rw [hdata b]; rfl
    dsimp only [dataFlit]
    rw [hrr]
    rfl
  refine ⟨q', ?_, rfl⟩
  rw [hsend, hreplay, hflit true, hflit false]
  split <;> split <;> rfl

/-! ### Credits of a lost link (R372) -/

theorem reclaimed_reclaim (c : Code) (q : Page) (t n : Nat) :
    (d.reclaim 0 c q t n).tally.reclaimed[(0 : Fin 5)] = d.tally.reclaimed[(0 : Fin 5)] + n := by
  by_cases hn : n = 0
  · rw [hn]
    rfl
  obtain ⟨y, hy⟩ : ∃ y : Device, y = { d with tally := { d.tally with reclaimed := upd d.tally.reclaimed (0 : Fin 5) (· + n) } } := ⟨_, rfl⟩
  have hlog (e : Device) (r : BitVec 512) : (e.logRing r).tally.reclaimed = e.tally.reclaimed := rfl
  obtain ⟨z, hz⟩ : ∃ z, z = y.logRing (y.logWord 3 q.domain c q t n noCounts 0) := ⟨_, rfl⟩
  have he : d.reclaim 0 c q t n = z.eventCode Page.tally 2 c := by
    rw [hz, hy]
    exact if_neg hn
  have hq : (z.eventCode Page.tally 2 c).tally = z.tally := by rw [z.quiet_eventCode Page.tally 2 c]
  have hzr : z.tally.reclaimed = y.tally.reclaimed := by rw [hz, hlog]
  rw [he, hq, hzr, hy]
  exact upd_same _ _ _

/-- The credits of some VCs return. -/
def vcsReclaimed (q : Port) (l : List Nat) : Device :=
  l.foldl (fun d v =>
    (d.reclaim 0 Status.creditReclaimed (Page.port p) (0x0600_0000 + p.val * 6 + v) (vget q.adv v 0)).reclaim 0 Status.creditReclaimed
      (Page.port p) (0x0700_0000 + p.val * 6 + v) (vget q.granted v 0)) d

theorem vcsReclaimed_spec (q : Port) (l : List Nat) : (d.vcsReclaimed p q l).ports = d.ports ∧
    (d.vcsReclaimed p q l).tally.reclaimed[(0 : Fin 5)] =
      d.tally.reclaimed[(0 : Fin 5)] + (l.map fun v => vget q.adv v 0 + vget q.granted v 0).sum := by
  induction l generalizing d with
  | nil => exact ⟨rfl, rfl⟩
  | cons v l ih =>
    obtain ⟨x, hx⟩ : ∃ x, x = d.reclaim 0 Status.creditReclaimed (Page.port p) (0x0600_0000 + p.val * 6 + v) (vget q.adv v 0) := ⟨_, rfl⟩
    obtain ⟨y, hy⟩ : ∃ y, y = x.reclaim 0 Status.creditReclaimed (Page.port p) (0x0700_0000 + p.val * 6 + v) (vget q.granted v 0) := ⟨_, rfl⟩
    have hstep : d.vcsReclaimed p q (v :: l) = y.vcsReclaimed p q l := by
      rw [hy, hx]
      rfl
    obtain ⟨h1, h2⟩ := ih y
    have hp : y.ports = d.ports := by rw [hy, ports_reclaim, hx, ports_reclaim]
    have hr : y.tally.reclaimed[(0 : Fin 5)] = d.tally.reclaimed[(0 : Fin 5)] + (vget q.adv v 0 + vget q.granted v 0) := by
      rw [hy, reclaimed_reclaim, hx, reclaimed_reclaim, Nat.add_assoc]
    rw [hstep]
    refine ⟨h1.trans hp, h2.trans ?_⟩
    rw [hr, List.map_cons, List.sum_cons]
    omega

end

end Device

section
variable {s : State} {p : PortId}

/-! ### Slots -/

section
variable (hl : lanes s.dev.ports[p].tx.active ≠ 0) (hst : s.dev.ports[p].state ≠ .training)
  (ht : s.dev.ports[p].talking = true) (hr : 0 < s.dev.ports[p].room)
include hl hst ht hr

theorem flitSlot_sends (w : Waiting) (rest : List Waiting) (hw : vget s.dev.ports[p].queue 0 [] = w :: rest)
    (hheld : vget s.dev.ports[p].held 0 0 ≠ 0) (hroom : s.dev.ports[p].unacked.length < 2048) (hsent : s.dev.ports[p].sent0 < 256) :
    Completes (.flitSlot p) s fun t => ∃ f : Flit,
      t.dev.out.wire[p] = some f ∧ f.vc = 0 ∧ f.tag = w.tag ∧ f.payload = w.payload ∧ f.hdr.seq = s.dev.ports[p].nextSeq ∧
      (s.dev.tally.armed = false → t.dev.out.wireBytes[p] = Flit.image f 0) ∧
      vget t.dev.ports[p].queue 0 [] = rest ∧ t.dev.ports[p].nextSeq = s.dev.ports[p].nextSeq + 1 ∧
      vget t.dev.ports[p].held 0 0 + 1 = vget s.dev.ports[p].held 0 0 := by
  obtain ⟨q, hslot, hqueue, hqheld, hseq⟩ := s.dev.slotFlit_vc0 p w rest hw hheld hroom hsent
  obtain ⟨f, hf⟩ : ∃ f, f = (q.sendFirst 0 0 w s.dev.now).2 := ⟨_, rfl⟩
  obtain ⟨u, hu⟩ : ∃ u, u = (q.sendFirst 0 0 w s.dev.now).1 := ⟨_, rfl⟩
  obtain ⟨y, hy⟩ : ∃ y, y = s.dev.modPort p fun _ => u := ⟨_, rfl⟩
  have hyq : y.ports[p] = u := by rw [hy, s.dev.ports_modPort_same]
  have hflit : f.vc = 0 ∧ f.tag = w.tag ∧ f.payload = w.payload ∧ f.hdr.seq = q.nextSeq := by
    rw [hf]
    exact ⟨rfl, rfl, rfl, rfl⟩
  obtain ⟨o, g, hhead⟩ := Device.header_only q q.nextSeq false
  have hport : u.queue = vset q.queue 0 ((vget q.queue 0 []).eraseIdx 0) ∧ u.nextSeq = q.nextSeq + 1 ∧
      u.held = vset q.held 0 (vget q.held 0 0 - 1) := by
    obtain ⟨v, hv⟩ : ∃ v, v = (q.header q.nextSeq false).1 := ⟨_, rfl⟩
    have h : u.queue = vset v.queue 0 ((vget v.queue 0 []).eraseIdx 0) ∧ u.nextSeq = v.nextSeq + 1 ∧
        u.held = vset v.held 0 (vget v.held 0 0 - 1) := by
      rw [hu, hv]
      exact ⟨rfl, rfl, rfl⟩
    rw [← hv] at hhead
    rw [hhead] at h
    exact h
  rw [← hf, ← hu, ← hy] at hslot
  obtain ⟨h1, h2, h3, h4⟩ := hflit
  obtain ⟨k1, k2, k3⟩ := hport
  refine ⟨_, flitSlot_talks hl hst ht hr hslot, f, y.emit_wire p f, h1, h2, h3, h4.trans hseq, fun ha => y.emit_wireBytes p f (by rw [hy]; exact ha), ?_⟩
  rw [State.onDev_dev, y.emit_port p f, hyq]
  dsimp only
  refine ⟨?_, k2.trans (by rw [hseq]), ?_⟩
  · rw [k1, vget_vset _ _ _ _ _ (by decide), if_pos rfl, hqueue, hw]
    rfl
  · rw [k3, vget_vset _ _ _ _ _ (by decide), if_pos rfl, hqheld]
    omega

theorem flitSlot_empty (hun : s.dev.ports[p].unacked = []) (hqueues : ∀ v, v < 6 → vget s.dev.ports[p].queue v [] = []) :
    Completes (.flitSlot p) s fun t => ∃ f : Flit, t.dev.out.wire[p] = some f ∧ f.ftype = 0 ∧
      f.payload.length = 240 ∧ t.dev.ports[p].nextSeq = s.dev.ports[p].nextSeq := by
  obtain ⟨q, hslot, hseq⟩ := s.dev.slotFlit_idle p hun hqueues
  obtain ⟨f, hf⟩ : ∃ f, f = q.idle.2 := ⟨_, rfl⟩
  obtain ⟨u, hu⟩ : ∃ u, u = q.idle.1 := ⟨_, rfl⟩
  obtain ⟨y, hy⟩ : ∃ y, y = s.dev.modPort p fun _ => u := ⟨_, rfl⟩
  have hyq : y.ports[p] = u := by rw [hy, s.dev.ports_modPort_same]
  have hflit : f.ftype = 0 ∧ f.payload = Port.idlePayload := by
    rw [hf]
    exact ⟨rfl, rfl⟩
  obtain ⟨o, g, hhead⟩ := Device.header_only q q.nextSeq false
  have hun : u.nextSeq = q.nextSeq := by
    have h : u = (q.header q.nextSeq false).1 := by rw [hu]; rfl
    rw [h, hhead]
  rw [← hf, ← hu, ← hy] at hslot
  refine ⟨_, flitSlot_talks hl hst ht hr hslot, f, y.emit_wire p f, hflit.1, ?_, ?_⟩
  · rw [hflit.2, Port.idlePayload, List.length_map, List.length_range]
  · rw [State.onDev_dev, y.emit_port p f, hyq]
    exact hun.trans hseq

end

/-! ### Flits against the rules -/

theorem dataFlit_illegal (h : FlitHeader) (k : BitVec 4) (vc : BitVec 3) (tag : BitVec 20) (bs : List Byte) (gaps : List Seq)
    (ht : s.dev.ports[p].talking = true) (h0 : k = 0 → 5 < vc.toNat) (h1 : k ≠ 1)
    (h2 : k = 2 → vc = 0 → field tag 12 8 ∉ controlTypes) : Completes (.dataFlit p h ⟨k, vc, gaps⟩ tag bs) s fun t =>
      t.dev.ports[p].state = .hostile ∧ t.dev.ports[p].fenceDetail = 4 := by
  have hexec : exec (.dataFlit p h ⟨k, vc, gaps⟩ tag bs) s = .next (s.onDev fun _ => s.dev.hostile p 4) := by
    refine next_congr (fun _ => s.dev.hostile p 4) ?_
    rw [if_neg (by rw [ht]; decide)]
    by_cases hk : k = 0
    · rw [if_pos hk, if_pos (by rw [decide_eq_true (h0 hk)]; rfl)]
    · rw [if_neg hk, if_neg h1, if_neg ?_]
      intro hc
      rw [Bool.and_eq_true, Bool.and_eq_true] at hc
      obtain ⟨⟨hk2, hvc⟩, hmem⟩ := hc
      exact h2 (of_decide_eq_true hk2) (of_decide_eq_true hvc) (by simpa using hmem)
  exact ⟨_, hexec, s.dev.hostile_spec p 4⟩

theorem damagedFlit_whole (bs : List Byte) (h : crcHolds bs = true) : exec (.damagedFlit ⟨p, bs⟩) s = .next s := by
  refine (next_congr (fun d => d) ?_ : _ = _)
  rw [if_neg]
  rw [h]
  simp

theorem damagedFlit_counts (bs : List Byte) (ht : s.dev.ports[p].talking = true) (h : crcHolds bs = false)
    (hroom : (s.dev.preg (Page.port p) 0x160).toNat + 1 < 2 ^ 32) : Completes (.damagedFlit ⟨p, bs⟩) s fun t =>
      s.onlyTo t { s.dev with regs := t.dev.regs } ∧
      (t.dev.preg (Page.port p) 0x160).toNat = (s.dev.preg (Page.port p) 0x160).toNat + 1 := by
  have hexec : exec (.damagedFlit ⟨p, bs⟩) s = .next (s.onDev fun _ => s.dev.bump (Page.port p) 0x160 1) := by
    refine next_congr (fun _ => s.dev.bump (Page.port p) 0x160 1) ?_
    rw [if_pos]
    rw [h]
    simpa using ht
  refine ⟨_, hexec, ⟨⟨rfl, rfl⟩, rfl⟩, ?_⟩
  rw [State.onDev_dev, Device.bump, Device.preg_setPreg_same, if_pos hroom, BitVec.toNat_ofNat, Nat.mod_eq_of_lt hroom]

/-! ### A link is lost -/

section
variable (hlink : s.dev.ports[p].linked = true)
include hlink

theorem faultCondition_linked (x : BitVec 8) : s.dev.faultCondition p x = s.dev.modPort p fun q => { q with faultDue := some x } := if_pos hlink

theorem replayDeadline_spec (u : Unacked) (hu : u ∈ s.dev.ports[p].unacked) (hn : u.naked = true) (hr : u.replayed = false)
    (h2 : 2 ≤ Device.since s.dev.now u.first) : Completes (.replayDeadline p) s fun t =>
      s.portAlone p t ∧ t.dev.ports[p] = { s.dev.ports[p] with faultDue := some 3 } := by
  have hexec : exec (.replayDeadline p) s = .next (s.onDev fun _ => s.dev.modPort p fun q => { q with faultDue := some 3 }) := by
    refine next_congr (fun _ => s.dev.modPort p fun q => { q with faultDue := some 3 }) ?_
    rw [if_pos, faultCondition_linked hlink]
    refine List.any_eq_true.mpr ⟨u, hu, ?_⟩
    rw [hn, hr, decide_eq_true h2]
    rfl
  exact alone_of hexec (f := fun w => w = { s.dev.ports[p] with faultDue := some 3 }) rfl

theorem replayLimit_spec (hlog : s.dev.ports[p].replayLog = []) (hlim : (s.dev.preg (Page.port p) 0x128).toNat < s.dev.ports[p].replaysSent) :
    Completes (.replayLimitExceeded p) s fun t =>
      s.portAlone p t ∧ t.dev.ports[p] = { s.dev.ports[p] with faultDue := some 2 } := by
  have hexec : exec (.replayLimitExceeded p) s = .next (s.onDev fun _ => s.dev.modPort p fun q => { q with faultDue := some 2 }) := by
    refine next_congr (fun _ => s.dev.modPort p fun q => { q with faultDue := some 2 }) ?_
    rw [if_pos, faultCondition_linked hlink]
    refine decide_eq_true ?_
    rw [hlog, List.filter_nil, List.map_nil, List.sum_nil, Nat.zero_add]
    exact hlim
  exact alone_of hexec (f := fun w => w = { s.dev.ports[p] with faultDue := some 2 }) rfl

theorem partnerLost_spec (all : Bool) (h : (all = true ∧ lanes s.dev.ports[p].rx.active = 0) ∨ s.dev.ports[p].quiet = true) :
    Completes (.partnerLost p all) s fun t =>
      t.dev.ports[p].state = .absent ∧ t.dev.ports[p].left = some 0 ∧ t.dev.ports[p].fenceCode = Status.portAbsent := by
  have hexec : exec (.partnerLost p all) s = .next (s.onDev fun _ => s.dev.leave p .absent 0 Status.portAbsent) := by
    refine next_congr (fun _ => s.dev.leave p .absent 0 Status.portAbsent) (if_pos ?_)
    rw [hlink]
    rcases h with ⟨ha, hl⟩ | hq
    · rw [ha, decide_eq_true hl]
      rfl
    · rw [hq, Bool.or_true]
      rfl
  obtain ⟨h1, h2⟩ := s.dev.leave_spec p .absent 0 Status.portAbsent
  exact ⟨_, hexec, h1, h2 hlink, (s.dev.leave_shows p .absent 0 Status.portAbsent (by decide)).2 (by decide)⟩

end

theorem creditReclaim_spec (n : Nat) (hleft : s.dev.ports[p].left = some n) (hn : 2 ≤ n) : Completes (.creditReclaim p) s fun t =>
    t.dev.ports[p].left = none ∧ t.dev.ports[p].held = Vector.replicate 6 0 ∧ t.dev.ports[p].granted = Vector.replicate 6 0 ∧
    t.dev.ports[p].unacked = [] ∧ (∀ r, r ≠ p → t.dev.ports[r] = s.dev.ports[r]) ∧
    t.dev.tally.reclaimed[0] = s.dev.tally.reclaimed[0] +
      ((List.range 6).map fun v => vget s.dev.ports[p].adv v 0 + vget s.dev.ports[p].granted v 0).sum := by
  obtain ⟨y, hy⟩ : ∃ y, y = s.dev.vcsReclaimed p s.dev.ports[p] (List.range 6) := ⟨_, rfl⟩
  obtain ⟨hp, ht⟩ := s.dev.vcsReclaimed_spec p s.dev.ports[p] (List.range 6)
  rw [← hy] at hp ht
  obtain ⟨g, hg⟩ : ∃ g : Port → Port, g = fun q =>
    { q with left := none, held := Vector.replicate 6 0, adv := Vector.replicate 6 0, granted := Vector.replicate 6 0
             owed := Vector.replicate 6 0, unacked := [], queue := Vector.replicate 6 [], missing := [] } := ⟨_, rfl⟩
  have hexec : exec (.creditReclaim p) s = .next (s.onDev fun _ => y.modPort p g) := by
    refine next_congr (fun _ => y.modPort p g) ?_
    rw [if_pos (by rw [hleft]; exact decide_eq_true hn), hy, hg]
    rfl
  have hq : (y.modPort p g).ports[p] = g y.ports[p] := y.ports_modPort_same p g
  refine ⟨_, hexec, ?_⟩
  dsimp only
  rw [State.onDev_dev, hq, hg]
  refine ⟨rfl, rfl, rfl, rfl, fun r hr => ?_, ht⟩
  rw [← hp]
  exact upd_ne _ _ _ _ hr

end

end Sys2Proof.Machine
end

section
/-! Payload that lands from a flit (R351, R382, R390), and the whole of flits. -/

namespace Sys2Proof.Machine

namespace Device

section
variable (d : Device) (y : Yard) (t : Fin 64)

theorem team_modOp (f : TeamOp → TeamOp) : (d.modOp y t f).team y t = { d.team y t with op := (d.team y t).op.map f } := by
  have h1 : (d.modOp y t f).drovers[y] = { d.drovers[y] with
      teams := upd d.drovers[y].teams t fun m => { m with op := m.op.map f } } := upd_same _ _ _
  have h2 : (d.modOp y t f).team y t = (d.modOp y t f).drovers[y].teams[t] := rfl
  rw [h2, h1]
  exact upd_same _ _ _

/-- A payload flit of an operation that lands DIRECT, over sound units. -/
theorem landFlit_sound (o : TeamOp) (bs : List Byte) (hlen : bs.length = 240) (hland : o.land = false) {n a : Nat}
    (hn : n = min 240 (o.inBytes (d.team y t) - o.gotBytes)) (ha : a = dfield o.desc 2 0 48 + o.gotBytes)
    (hs : d.soundRange a n) (harm : d.tally.armed = false) : ∃ e, Served a d e ∧
      d.landFlit y t o bs false = (e.wrBytes a (bs.take n)).modOp y t fun o' =>
        { o' with gotBytes := o.gotBytes + n, poisoned := o'.poisoned || false || false } := by
  obtain ⟨l, hl⟩ : ∃ l, l = bs.take n := ⟨_, rfl⟩
  have hll : l.length = n := by
    rw [hl, List.length_take]
    omega
  have hpad : (padTo 240 bs).take n = l := by
    have h240 : padTo 240 bs = bs := by
      rw [padTo, List.take_of_length_le (by omega), hlen]
      exact List.append_nil _
    rw [h240, hl]
  obtain ⟨e, he, hw⟩ := d.writeRange_sound a l (!o.nobook) (by rw [hll]; exact hs) harm
  have hpieces : d.landPieces o o.gotBytes l.length = [(a, 0, n)] := by
    unfold landPieces
    dsimp only
    rw [hland, if_pos (by decide), hll, ← ha]
  have htake : (l.drop 0).take n = l := by
    rw [List.drop_zero, List.take_of_length_le hll.le]
  refine ⟨e, he, ?_⟩
  have hbytes : d.landBytes y t o o.gotBytes l [] = ((e.wrBytes a l).modOp y t fun o' =>
      { o' with gotBytes := o.gotBytes + n, poisoned := o'.poisoned || false || false }, false) := by
    unfold landBytes
    dsimp only
    rw [hpieces, List.foldl_cons, List.foldl_nil]
    dsimp only
    rw [htake, hw, hll]
    rfl
  unfold landFlit
  dsimp only
  rw [← hn, hpad, if_neg Bool.false_ne_true, hbytes, ← hl]
  exact if_neg Bool.false_ne_true

end

end Device

theorem field_of_low {tag : BitVec 20} (h : field tag 0 10 = 0) : field tag 8 2 = 0 ∧ field tag 0 7 = 0 ∧ flag tag 7 = false := by
  unfold field at h ⊢
  unfold flag
  rw [Nat.shiftRight_eq_div_pow] at h ⊢
  rw [Nat.shiftRight_eq_div_pow]
  refine ⟨by omega, by omega, ?_⟩
  rw [BitVec.getLsbD, Nat.testBit_eq_decide_div_mod_eq]
  exact decide_eq_false (by omega)

section
variable {s : State} {p : PortId} {h : FlitHeader} {vc : BitVec 3}

/-- The port whose DATA flit has come in and left its buffer at once. -/
def handedOn (v : Nat) (x : HeldFlit) (q : Port) : Port :=
  { hearing v q with rxHeld := eraseFirst (fun y => y.seq = x.seq) (q.rxHeld ++ [x]), owed := vset q.owed v (vget q.owed v 0 + 1) }

theorem tookFlit_handedOn {v : Nat} (x : HeldFlit) (hh : s.hears p h v) (hv : v < 6) :
    s.dev.ports[p].tookFlit h v (handedOn v x s.dev.ports[p]) := tookFlit_heardBy hh hv

/-- A DATA flit that waits for nothing is handed over at once (R382). -/
theorem dataFlit_hands (gaps : List Seq) (tag : BitVec 20) (bs : List Byte) (hh : s.hears p h vc.toNat)
    (hlink : s.dev.ports[p].linked = true) (h1 : 1 ≤ vc.toNat) (h4 : vc.toNat ≤ 4) (hmiss : s.dev.ports[p].missing = [])
    (hheld : s.dev.ports[p].rxHeld = []) : exec (.dataFlit p h ⟨1, vc, gaps⟩ tag bs) s =
      .next (s.onDev fun _ => (s.dev.modPort p (handedOn vc.toNat ⟨h.seq, gaps, vc, tag, bs⟩)).handOver p tag bs) := by
  obtain ⟨ht, hseq, hack, hcc, hg⟩ := hh
  obtain ⟨x, hx⟩ : ∃ x : HeldFlit, x = ⟨h.seq, gaps, vc, tag, bs⟩ := ⟨_, rfl⟩
  obtain ⟨d, hd⟩ : ∃ d, d = s.dev.modPort p (hearing vc.toNat) := ⟨_, rfl⟩
  obtain ⟨e, he⟩ : ∃ e, e = d.modPort p fun q => { q with rxHeld := q.rxHeld ++ [x] } := ⟨_, rfl⟩
  have hdq : d.ports[p] = hearing vc.toNat s.dev.ports[p] := by rw [hd, s.dev.ports_modPort_same]
  have hrx : d.ports[p].rxHeld = [] := by
    rw [hdq, hearing_only]
    exact hheld
  have heq : e.ports[p] = { d.ports[p] with rxHeld := [x] } := by
    rw [he, d.ports_modPort_same, hrx]
    rfl
  have hmiss' : e.ports[p].missing = [] := by
    rw [heq, hdq, hearing_only]
    exact hmiss
  have hrx' : e.ports[p].rxHeld = [x] := by rw [heq]
  have hwaits : Device.waitsForGap e.ports[p] x = false := by
    unfold Device.waitsForGap
    dsimp only
    rw [hmiss', hrx']
    simp
  have hfind : e.ports[p].rxHeld.find? (!Device.waitsForGap e.ports[p] ·) = some x := by
    rw [hrx', List.find?_cons, hwaits]
    rfl
  have hall : ((e.modPort p fun q => { q with rxHeld := eraseFirst (fun y => y.seq = x.seq) q.rxHeld }).leaveBuffer p vc.toNat) =
      s.dev.modPort p (handedOn vc.toNat x) := by
    unfold Device.leaveBuffer
    rw [he, hd, Device.modPort_modPort, Device.modPort_modPort, Device.modPort_modPort]
    congr 1
    funext q
    rw [handedOn, hearing_only]
  have hdrain : e.drainHeld p e.ports[p].rxHeld.length = (s.dev.modPort p (handedOn vc.toNat x)).handOver p tag bs := by
    have hlen : e.ports[p].rxHeld.length = 1 := by rw [hrx']; rfl
    rw [hlen]
    unfold Device.drainHeld
    rw [hfind]
    have hxf : x.vc = vc ∧ x.tag = tag ∧ x.payload = bs := by rw [hx]; exact ⟨rfl, rfl, rfl⟩
    obtain ⟨hv, htag, hbs⟩ := hxf
    dsimp only
    rw [hv, htag, hbs, hall]
    rfl
  have hrule : Device.dataRule s.dev.ports[p] vc.toNat = none := by
    unfold Device.dataRule
    rw [if_neg (by omega), if_neg (by rw [hlink]; decide), if_neg]
    rw [Bool.and_eq_true]
    rintro ⟨h5, -⟩
    exact absurd (of_decide_eq_true h5) (by omega)
  rw [← hx, ← hdrain, he]
  refine next_congr (fun _ => (d.modPort p fun q => { q with rxHeld := q.rxHeld ++ [x] }).drainHeld p
    (d.modPort p fun q => { q with rxHeld := q.rxHeld ++ [x] }).ports[p].rxHeld.length) ?_
  have hk : (1 : BitVec 4) ≠ 0 := by decide
  rw [if_neg (by rw [ht]; decide), if_neg hk, if_pos rfl, hrule, s.dev.receiveData_expected p h _ _ ht hseq hack hcc hg, hx, hd]

/-- The hand-over of a flit of the leg that ends here. -/
theorem handOver_lands (d : Device) (tag : BitVec 20) (bs : List Byte) {y : Yard} {t : Fin 64} (hy : y = Fin.ofNat 2 (p.val / 4))
    (htag : t = Fin.ofNat 64 (field tag 14 6)) (h0 : field tag 0 10 = 0) (hact : (d.team y t).state = .active)
    (hp : p = d.teamPort y t (!decide (p.val % 2 = 0)))
    (hcross : d.legCrosses y t (field tag 10 4) (decide (p.val % 2 = 0)) = true) (o : TeamOp) (hop : (d.team y t).op = some o)
    (hgo : o.go = true) (hstop : o.stopped = false) (hleg : ∃ g, o.inLeg (d.team y t) = some g ∧ g.src = field tag 10 4)
    (hgot : o.gotBytes < o.inBytes (d.team y t)) : d.handOver p tag bs = d.landFlit y t o bs false := by
  obtain ⟨hk, hr, hpo⟩ := field_of_low h0
  obtain ⟨g, hg, hsrc⟩ := hleg
  have hfilter : (d.team y t).op.filter (·.go) = some o := by
    rw [hop]
    exact Option.filter_eq_some_iff.mpr ⟨rfl, hgo⟩
  unfold Device.handOver
  rw [← hy, ← htag]
  dsimp only
  rw [hk, hr, hpo, if_neg, if_neg (by decide), if_neg (by rw [hcross]; decide), hfilter]
  · dsimp only
    rw [hg, Option.any_some, if_pos (decide_eq_true hsrc), if_pos (by rw [decide_eq_true hgot, hstop]; rfl)]
  · simp only [Bool.or_eq_true, decide_eq_true_eq, not_or, ne_eq, not_not]
    exact ⟨⟨⟨hact, by decide⟩, trivial⟩, hp⟩

end

end Sys2Proof.Machine
end

section
/-! Flits of a port, together (R334 to R352, R368 to R372, R381). -/

namespace Sys2Proof.Machine

section
variable {s : State} {p : PortId} {h : FlitHeader} {vc : BitVec 3}

theorem dataFlit_lands (gaps : List Seq) (tag : BitVec 20) (bs : List Byte) (o : TeamOp) (hh : s.hears p h vc.toNat)
    (hlink : s.dev.ports[p].linked = true) (h1 : 1 ≤ vc.toNat) (h4 : vc.toNat ≤ 4) (hmiss : s.dev.ports[p].missing = [])
    (hheld : s.dev.ports[p].rxHeld = []) (hlen : bs.length = 240) {y : Yard} {t : Fin 64} (hy : y = Fin.ofNat 2 (p.val / 4))
    (ht : t = Fin.ofNat 64 (field tag 14 6)) (h0 : field tag 0 10 = 0) (hact : (s.dev.team y t).state = .active)
    (hp : p = s.dev.teamPort y t (!decide (p.val % 2 = 0)))
    (hcross : s.dev.legCrosses y t (field tag 10 4) (decide (p.val % 2 = 0)) = true) (hop : (s.dev.team y t).op = some o)
    (hgo : o.go = true) (hstop : o.stopped = false) (hland : o.land = false)
    (hleg : ∃ g, o.inLeg (s.dev.team y t) = some g ∧ g.src = field tag 10 4) (hgot : o.gotBytes < o.inBytes (s.dev.team y t))
    {n a : Nat} (hn : n = min 240 (o.inBytes (s.dev.team y t) - o.gotBytes)) (ha : a = dfield o.desc 2 0 48 + o.gotBytes)
    (hs : s.dev.soundRange a n) (harm : s.dev.tally.armed = false) : Completes (.dataFlit p h ⟨1, vc, gaps⟩ tag bs) s fun u =>
      u.dev.rdBytes a n = bs.take n ∧ (∀ b, b < a ∨ a + n ≤ b → u.dev.rdByte b = s.dev.rdByte b) ∧
      s.dev.ports[p].tookFlit h vc.toNat u.dev.ports[p] ∧
      ∃ o', (u.dev.team y t).op = some o' ∧ o'.gotBytes = o.gotBytes + n := by
  have hexec := dataFlit_hands gaps tag bs hh hlink h1 h4 hmiss hheld
  have htook := tookFlit_handedOn ⟨h.seq, gaps, vc, tag, bs⟩ hh (by omega : vc.toNat < 6)
  obtain ⟨g, hg⟩ : ∃ g, g = handedOn vc.toNat ⟨h.seq, gaps, vc, tag, bs⟩ := ⟨_, rfl⟩
  obtain ⟨d, hd⟩ : ∃ d, d = s.dev.modPort p g := ⟨_, rfl⟩
  have hteam : d.team y t = s.dev.team y t := by rw [hd]; rfl
  have hport : d.teamPort y t (!decide (p.val % 2 = 0)) = s.dev.teamPort y t (!decide (p.val % 2 = 0)) := by rw [hd]; rfl
  have hlegs : d.legCrosses y t (field tag 10 4) (decide (p.val % 2 = 0)) =
      s.dev.legCrosses y t (field tag 10 4) (decide (p.val % 2 = 0)) := by
    unfold Device.legCrosses
    rw [hteam]
  have hsound : d.soundRange a n := by
    rw [hd]
    exact hs
  have harmed : d.tally.armed = false := by
    rw [hd]
    exact harm
  have hbyte (b : Nat) : d.rdByte b = s.dev.rdByte b := by rw [hd]; rfl
  have hq : d.ports[p] = g s.dev.ports[p] := by rw [hd, s.dev.ports_modPort_same]
  rw [← hg] at hexec htook
  rw [← hd] at hexec
  rw [← hteam] at hact hop hleg hgot hn
  rw [← hport] at hp
  rw [← hlegs] at hcross
  rw [handOver_lands d tag bs hy ht h0 hact hp hcross o hop hgo hstop hleg hgot] at hexec
  obtain ⟨e, he, hland⟩ := d.landFlit_sound y t o bs hlen hland hn ha hsound harmed
  obtain ⟨l, hl⟩ : ∃ l, l = bs.take n := ⟨_, rfl⟩
  have hll : l.length = n := by
    rw [hl, List.length_take]
    omega
  obtain ⟨z, hz⟩ : ∃ z, z = e.wrBytes a l := ⟨_, rfl⟩
  have hzports : z.ports = d.ports := by
    rw [hz, Device.wrBytes_only]
    change e.ports = d.ports
    rw [he.1]
  have hzteam : z.team y t = d.team y t := by
    have hzd : z.drovers = d.drovers := by
      rw [hz, Device.wrBytes_only]
      change e.drovers = d.drovers
      rw [he.1]
    unfold Device.team
    rw [hzd]
  rw [hland, ← hl, ← hz] at hexec
  rw [← hl]
  obtain ⟨F, hF⟩ : ∃ F : TeamOp → TeamOp, F = fun o' => { o' with gotBytes := o.gotBytes + n, poisoned := o'.poisoned || false || false } := ⟨_, rfl⟩
  rw [← hF] at hexec
  refine ⟨_, hexec, ?_, fun b hb => ?_, ?_, F o, ?_, by rw [hF]⟩
  · change z.rdBytes a n = l
    rw [hz, ← hll]
    exact e.rdBytes_wrBytes_same a l
  · change z.rdByte b = _
    rw [hz, e.rdByte_wrBytes_out a b l (by rw [hll]; exact hb), he.rdByte, hbyte]
  · change Port.tookFlit _ _ _ z.ports[p]
    rw [hzports, hq]
    exact htook
  · change ((z.modOp y t F).team y t).op = _
    rw [z.team_modOp, hzteam, hop]
    rfl

end

/-- Settles O45: a flit that comes in, one that leaves, and the loss of a link, each through what it leaves of its port. -/
theorem portFlits : Obligations.PortFlits := by
  unfold Obligations.PortFlits
  intro p h s q page only took
  refine ⟨fun hh => ⟨keepalive_spec hh, fun v n hv hn => ⟨credit_adds hh v n hv hn, credit_exceeds hh v n hn⟩,
      fun x u hu hr => nak_marks hh x u hu hr, fun c => down_spec hh c⟩,
    fun ht hack hcc => ⟨idleFlit_expected h ht hack hcc, idleFlit_gap h ht hack hcc⟩, ?_,
    fun k vc tag bs ht h0 h1 h2 gaps => dataFlit_illegal h k vc tag bs gaps ht h0 h1 h2,
    fun hl hst => ⟨fun w rest ht hr => flitSlot_sends hl hst ht hr w rest, fun ht hr => flitSlot_empty hl hst ht hr,
      flitSlot_idles hl hst, fun _ hr => flitSlot_lane hl hst fun _ => hr⟩,
    damagedFlit_whole, damagedFlit_counts,
    fun hlink => ⟨replayDeadline_spec hlink, replayLimit_spec hlink, partnerLost_spec hlink⟩, creditReclaim_spec⟩
  intro vc tag bs o hh hlink h1 h4 hmiss hheld hlen y t m neg h0 hact hp hcross hop hgo hstop hland hleg hgot n a hs harm gaps
  exact dataFlit_lands gaps tag bs o hh hlink h1 h4 hmiss hheld hlen rfl rfl h0 hact hp hcross hop hgo hstop hland hleg hgot rfl rfl hs harm

end Sys2Proof.Machine
end

section
/-! The images of a context switch (R122 to R125). -/

namespace Sys2Proof.Machine

/-! ### Lanes -/

/-- A lane past an unused one. -/
def pastLane (dead : Option Nat) (p : Nat) : Nat :=
  match dead with
  | some l => if l ≤ p then p + 1 else p
  | none => p

theorem pastLane_bounds (dead : Option Nat) (p : Nat) : p ≤ pastLane dead p ∧ pastLane dead p ≤ p + 1 := by
  unfold pastLane
  split
  · split <;> omega
  · omega

theorem pastLane_injective (dead : Option Nat) : Function.Injective (pastLane dead) := by
  intro i j h
  unfold pastLane at h
  split at h
  · split_ifs at h <;> omega
  · exact h

theorem physLane_eq (dead : List Nat) (j : Fin 64) : physLane dead j = Fin.ofNat 66 (pastLane dead[1]? (pastLane dead[0]? j)) := rfl

theorem physLane_injective (dead : List Nat) : Function.Injective (physLane dead) := by
  intro i j h
  rw [physLane_eq, physLane_eq] at h
  have hv := congrArg Fin.val h
  rw [Fin.val_ofNat, Fin.val_ofNat] at hv
  have hlt (k : Fin 64) : pastLane dead[1]? (pastLane dead[0]? k) < 66 := by
    have hk := k.isLt
    have h0 := pastLane_bounds dead[0]? k
    have h1 := pastLane_bounds dead[1]? (pastLane dead[0]? k)
    omega
  rw [Nat.mod_eq_of_lt (hlt i), Nat.mod_eq_of_lt (hlt j)] at hv
  exact Fin.ext (pastLane_injective _ (pastLane_injective _ hv))

/-- Writes at distinct places of a vector are all found. -/
theorem getElem_foldl_set {α ι : Type} {n : Nat} {g : ι → Fin n} (hg : Function.Injective g) (f : ι → α) (l : List ι) (v : Vector α n)
    (j : ι) (hj : j ∈ l ∨ v[g j] = f j) : (l.foldl (fun (v : Vector α n) j => v.set (g j) (f j)) v)[g j] = f j := by
  induction l generalizing v with
  | nil => exact hj.resolve_left (by simp)
  | cons i l ih =>
    refine ih _ ?_
    by_cases hij : j = i
    · refine .inr ?_
      rw [hij]
      exact Vector.getElem_set_self _
    · rcases hj with hm | hv
      · exact .inl ((List.mem_cons.mp hm).resolve_left hij)
      · refine .inr ((Vector.getElem_set_ne _ _ fun h => hij (hg (Fin.ext h)).symm).trans hv)

namespace Device

section
variable (d : Device) (st : StallId)

theorem modStall_modStall (f g : Stall → Stall) : (d.modStall st f).modStall st g = d.modStall st fun s => g (f s) := by
  simp [modStall, upd]

theorem rdBytes_slice (a o n k : Nat) (h : o + n ≤ k) : ((d.rdBytes a k).drop o).take n = d.rdBytes (a + o) n := by
  refine List.ext_getElem ?_ fun i h1 h2 => ?_
  · simp only [rdBytes, List.length_take, List.length_drop, List.length_map, List.length_range]
    omega
  · simp only [rdBytes, List.getElem_take, List.getElem_drop, List.getElem_map, List.getElem_range, Nat.add_assoc]

/-- An image is 48 KiB. -/
theorem length_imageBytes : (d.imageBytes st).length = 49152 := by
  have hle (n x : Nat) : (leBytes n x).length = n := by simp
  unfold imageBytes
  dsimp only
  rw [List.length_append, length_flatMap_const _ _ 512 fun _ _ => hle _ _, Vector.length_toList,
    length_flatMap_const _ _ 8192 fun m _ => ?_, finList, List.length_finRange]
  rw [length_flatMap_const _ _ 4096 fun h _ => ?_, finList, List.length_finRange]
  rw [length_flatMap_const _ _ 64 fun _ _ => hle _ _, finList, List.length_finRange]

/-- A half with the entries that some bytes of an image give. -/
def imagedHalf (lane : Fin 4 → Fin 64 → Fin 66) (bs : List Byte) (m : Fin 4) (h : Fin 2) (old : Vector (BitVec 512) 66) :
    Vector (BitVec 512) 66 :=
  (finList 64).foldl (fun (v : Vector (BitVec 512) 66) (j : Fin 64) => v.set (lane m j)
    (BitVec.ofNat 512 (leNat ((bs.drop (16384 + (m.val * 2 + h.val) * 4096 + j.val * 64)).take 64)))) old

/-- A stall with the registers and halves that some bytes give. -/
def imagedStall (lane : Fin 4 → Fin 64 → Fin 66) (bs : List Byte) (s : Stall) : Stall :=
  { s with
    v := Vector.ofFn fun (r : Fin 32) => BitVec.ofNat 4096 (leNat ((bs.drop (r.val * 512)).take 512))
    mgr := Vector.ofFn fun (m : Fin 4) =>
      { s.mgr[m] with half := Vector.ofFn fun (h : Fin 2) => imagedHalf lane bs m h s.mgr[m].half[h] } }

theorem withImage_eq (bs : List Byte) : d.withImage st bs = d.modStall st (imagedStall (d.lane st) bs) := rfl

omit d st in
/-- The registers and halves of an image. -/
theorem imagedStall_spec {lane : Fin 4 → Fin 64 → Fin 66} (hl : ∀ m, Function.Injective (lane m)) (bs : List Byte) (s : Stall) :
    (∀ r : Fin 32, (imagedStall lane bs s).v[r] = BitVec.ofNat 4096 (leNat ((bs.drop (r.val * 512)).take 512))) ∧
    ∀ (m : Fin 4) (h : Fin 2) (j : Fin 64), ((imagedStall lane bs s).mgr[m]).half[h][lane m j] =
      BitVec.ofNat 512 (leNat ((bs.drop (16384 + (m.val * 2 + h.val) * 4096 + j.val * 64)).take 64)) := by
  refine ⟨fun r => Vector.getElem_ofFn _, fun m h j => ?_⟩
  have hm : (imagedStall lane bs s).mgr[m] =
      { s.mgr[m] with half := Vector.ofFn fun (h : Fin 2) => imagedHalf lane bs m h s.mgr[m].half[h] } :=
    Vector.getElem_ofFn _
  rw [hm]
  have hh : ∀ (F : Fin 2 → Vector (BitVec 512) 66), (Vector.ofFn F)[h] = F h := fun F => Vector.getElem_ofFn _
  dsimp only
  rw [hh]
  exact getElem_foldl_set (hl m) (fun j : Fin 64 =>
    BitVec.ofNat 512 (leNat ((bs.drop (16384 + (m.val * 2 + h.val) * 4096 + j.val * 64)).take 64))) (finList 64) _ j (.inl (List.mem_finRange j))

end

/-! ### What moves -/

section
variable (d : Device) (st : StallId) (sl : Slot)

/-- The outgoing image goes over sound bytes. -/
theorem saveImage_clean (hv : (d.stall st).vBad = []) (hc : d.clean (d.imageAt st sl) 49152) (harm : d.tally.armed = false) :
    d.saveImage st sl = d.wrBytes (d.imageAt st sl) (d.imageBytes st) := by
  have hbase : loftBase ≤ d.imageAt st sl := loftBase_le _ _
  have hw := d.writeRange_clean (d.imageAt st sl) (d.imageBytes st) false hbase (by rw [d.length_imageBytes]; exact hc) harm
  have hvb : (d.wrBytes (d.imageAt st sl) (d.imageBytes st)).stall st = d.stall st := by
    rw [wrBytes_only]
    rfl
  unfold saveImage
  dsimp only
  rw [hw]
  dsimp only
  rw [hvb, hv]
  rfl

/-- A stall that an image without damage was loaded into. -/
def reimaged (lane : Fin 4 → Fin 64 → Fin 66) (bs : List Byte) (s : Stall) : Stall := { imagedStall lane bs s with vBad := [] }

/-- What the bytes of an image, with the words that do not read, make of a stall. -/
def loadedFrom (x : Device) (a : Nat) (bs : List Byte) (bad : List (Nat × MemRes)) : Device :=
  let offs := bad.map fun p => p.1 - a
  let quarter (r : VReg) (q : Fin 4) : Bool := offs.any fun o => o / 512 = r.val && o % 512 / 128 = q.val
  let lost := (finList 32).flatMap fun (r : VReg) => ((finList 4).filter fun (q : Fin 4) => quarter r q).map fun q => (r, q)
  let poisoned (m : Fin 4) (h : Fin 2) : Bool := offs.any fun o => decide (16384 ≤ o) && (o - 16384) / 4096 = m.val * 2 + h.val
  let d := (x.withImage st bs).modStall st fun s => { s with vBad := lost }
  d.modCtx st sl fun c =>
    { c with half := Vector.ofFn fun (m : Fin 4) => Vector.ofFn fun (h : Fin 2) =>
        if poisoned m h then { c.half[m][h] with poisoned := true } else c.half[m][h] }

theorem loadImage_eq {x : Device} {bs : List Byte} {bad : List (Nat × MemRes)}
    (h : d.readRange (d.imageAt st sl) 49152 false = (x, bs, bad)) : d.loadImage st sl = loadedFrom st sl x (d.imageAt st sl) bs bad := by
  unfold loadImage
  extract_lets a
  rw [show d.readRange a 49152 false = (x, bs, bad) from h]
  rfl

/-- A change that rebuilds the halves of a slot from themselves. -/
theorem modCtx_halves : (d.modCtx st sl fun c =>
    { c with half := Vector.ofFn fun (m : Fin 4) => Vector.ofFn fun (h : Fin 2) => c.half[m][h] }) = d := by
  have hctx (c : SlotCtx) : ({ c with half := Vector.ofFn fun (m : Fin 4) => Vector.ofFn fun (h : Fin 2) => c.half[m][h] } : SlotCtx) = c := by
    have hhalf : (Vector.ofFn fun (m : Fin 4) => Vector.ofFn fun (h : Fin 2) => c.half[m][h]) = c.half := by
      refine Vector.ext fun i hi => ?_
      rw [Vector.getElem_ofFn]
      refine Vector.ext fun j hj => ?_
      rw [Vector.getElem_ofFn]
      rfl
    rw [hhalf]
  have hs (s : Stall) : s.modCtx sl (fun c =>
      { c with half := Vector.ofFn fun (m : Fin 4) => Vector.ofFn fun (h : Fin 2) => c.half[m][h] }) = s := by
    refine (congrArg (s.setCtx sl) (hctx _)).trans ?_
    cases sl <;> rfl
  have hx : (d.modCtx st sl fun c =>
      { c with half := Vector.ofFn fun (m : Fin 4) => Vector.ofFn fun (h : Fin 2) => c.half[m][h] }) = d.modStall st id :=
    congrArg (d.modStall st) (funext hs)
  rw [hx]
  exact congrArg (fun v => ({ d with stalls := v } : Device)) (upd_id _ _ _ rfl)

theorem loadedFrom_sound (x : Device) (a : Nat) (bs : List Byte) : loadedFrom st sl x a bs [] = x.modStall st (reimaged (x.lane st) bs) := by
  have hall : (x.withImage st bs).modStall st (fun s => { s with vBad := [] }) = x.modStall st (reimaged (x.lane st) bs) := by
    rw [withImage_eq, modStall_modStall]
    rfl
  unfold loadedFrom
  extract_lets offs quarter lost poisoned y
  have hlost : lost = [] := by
    refine List.flatMap_eq_nil_iff.mpr fun r _ => ?_
    rw [List.map_eq_nil_iff, List.filter_eq_nil_iff]
    exact fun q _ => Bool.false_ne_true
  have hpois (m : Fin 4) (h : Fin 2) : poisoned m h = false := rfl
  have hy : y = x.modStall st (reimaged (x.lane st) bs) := by
    rw [← hall]
    dsimp only [y]
    rw [hlost]
  clear_value poisoned y
  simp only [hpois, Bool.false_eq_true, if_false]
  rw [modCtx_halves, hy]

/-- The incoming image comes from sound bytes. -/
theorem loadImage_clean (hc : d.clean (d.imageAt st sl) 49152) : d.loadImage st sl =
    d.modStall st (reimaged (d.lane st) (d.rdBytes (d.imageAt st sl) 49152)) := by
  exact (d.loadImage_eq st sl (d.readRange_clean (d.imageAt st sl) 49152 false (loftBase_le _ _) hc)).trans (loadedFrom_sound st sl d _ _)

end

end Device

end Sys2Proof.Machine
end

section
/-! Context switches and the parking of contexts (R86, R124 to R127). -/

namespace Sys2Proof.Machine

section
variable {s : State} {st : StallId}

/-! ### The switch begins -/

theorem releaseHold_eq (c : SlotCtx) : Device.releaseHold c = { c with
    hold := match c.hold with
      | some (.fwait _) | some (.send _ _) | some (.recv _ _ _) => none
      | h => h } := by
  unfold Device.releaseHold
  rcases c with ⟨_, _, _, _, _, hold, _, _, _, _, _, _, _, _, _, _⟩
  rcases hold with _ | (_ | _ | _ | _ | _) <;> rfl

/-- The stall while its images move: the engine has the incoming one in it. -/
def switched (target : Slot) (lane : Fin 4 → Fin 64 → Fin 66) (bs : List Byte) (x : Stall) : Stall :=
  { Device.reimaged lane bs x with switchTo := none, switching := some target, switchReq := false }

theorem switched_only (target : Slot) (lane : Fin 4 → Fin 64 → Fin 66) (bs : List Byte) (x : Stall) :
    ∃ v m, (Device.imagedStall lane bs x).v = v ∧ (Device.imagedStall lane bs x).mgr = m ∧ switched target lane bs x = { x with
      v := v, mgr := m, vBad := [], switchTo := none, switching := some target, switchReq := false } := by
  obtain ⟨v, m, h⟩ : ∃ v m, Device.imagedStall lane bs x = { x with v := v, mgr := m } := ⟨_, _, rfl⟩
  refine ⟨v, m, by rw [h], by rw [h], ?_⟩
  unfold switched Device.reimaged
  rw [h]

theorem switched_spec (target : Slot) (lane : Fin 4 → Fin 64 → Fin 66) (bs : List Byte) (x : Stall) :
    (switched target lane bs x).slot = x.slot ∧ (switched target lane bs x).v = (Device.imagedStall lane bs x).v ∧
    (switched target lane bs x).mgr = (Device.imagedStall lane bs x).mgr ∧ (switched target lane bs x).switching = some target ∧
    (switched target lane bs x).switchTo = none ∧ (switched target lane bs x).switchReq = false := by
  obtain ⟨v, m, hv, hm, h⟩ := switched_only target lane bs x
  rw [h, hv, hm]
  exact ⟨rfl, rfl, rfl, rfl, rfl, rfl⟩

theorem ctx_switched (target sl : Slot) (lane : Fin 4 → Fin 64 → Fin 66) (bs : List Byte) (x : Stall) :
    (switched target lane bs x).ctx sl = x.ctx sl := by
  obtain ⟨v, m, -, -, h⟩ := switched_only target lane bs x
  rw [h]
  cases sl
  · rfl
  · rfl

section
variable (target : Slot) (f : Frame) (hto : (s.dev.stall st).switchTo = some (target, f)) (hb : s.dev.inBoundary = false)
  (hpass : ∀ r ∈ (s.dev.cur st).mrun, r.inPass = false)
include hto hb hpass

theorem contextSwitchStart_exec (n : Nat) {x : Device} (hx : s.dev.startSwitch st target n = x) :
    exec (.contextSwitchStart st n) s = .next (s.onDev fun _ => x) := by
  refine next_congr (fun _ => x) ?_
  rw [hto]
  dsimp only
  have hany : (s.dev.cur st).mrun.any (·.inPass) = false := by
    rw [List.any_eq_false]
    exact fun r hr => by rw [hpass r hr]; decide
  rw [if_neg (by rw [hb, hany]; decide), hx]

omit hto hb hpass in
/-- The device after both images have moved. -/
theorem startSwitch_eq (n : Nat) (hvq : (s.dev.cur st).vq = []) (hvb : (s.dev.stall st).vBad = [])
    (hdis : s.dev.imageAt st (s.dev.slotOf st) + 49152 ≤ s.dev.imageAt st target ∨
      s.dev.imageAt st target + 49152 ≤ s.dev.imageAt st (s.dev.slotOf st))
    (hca : s.dev.clean (s.dev.imageAt st (s.dev.slotOf st)) 49152) (hcb : s.dev.clean (s.dev.imageAt st target) 49152)
    (harm : s.dev.tally.armed = false) : s.dev.startSwitch st target n =
      ((s.dev.modCur st Device.releaseHold).wrBytes (s.dev.imageAt st (s.dev.slotOf st)) (s.dev.imageBytes st)).modStall st
        (switched target (s.dev.lane st) (s.dev.rdBytes (s.dev.imageAt st target) 49152)) := by
  obtain ⟨x, hx⟩ : ∃ x, x = s.dev.modCur st Device.releaseHold := ⟨_, rfl⟩
  have hstop : s.dev.stopVector st n = s.dev := by
    unfold Device.stopVector
    rw [hvq]
  have hslot : x.slotOf st = s.dev.slotOf st := by rw [hx, Device.slotOf_modCur]
  have hstall : x.stall st = (s.dev.stall st).setCtx (s.dev.slotOf st) (Device.releaseHold (s.dev.cur st)) := by
    rw [hx, Device.stall_modCur]
  have hset (y : Stall) (sl : Slot) (c : SlotCtx) : (y.setCtx sl c).v = y.v ∧ (y.setCtx sl c).mgr = y.mgr ∧ (y.setCtx sl c).vBad = y.vBad := by
    cases sl <;> exact ⟨rfl, rfl, rfl⟩
  obtain ⟨hv, hmgr, hbad⟩ := hset (s.dev.stall st) (s.dev.slotOf st) (Device.releaseHold (s.dev.cur st))
  rw [← hstall] at hv hmgr hbad
  have hlane : x.lane st = s.dev.lane st := by rw [hx]; rfl
  have himage : x.imageBytes st = s.dev.imageBytes st := by
    unfold Device.imageBytes
    dsimp only
    rw [hv, hmgr]
    have hl (i : Fin 4) (j : Fin 64) : x.lane st i j = s.dev.lane st i j := by rw [hlane]
    simp only [hl]
  have hat (sl : Slot) : x.imageAt st sl = s.dev.imageAt st sl := by rw [hx]; rfl
  have hclean (p k : Nat) (h : s.dev.clean p k) : x.clean p k := by
    rw [hx]
    exact h
  have hbytes (p k : Nat) : x.rdBytes p k = s.dev.rdBytes p k := by rw [hx]; rfl
  have hxarm : x.tally.armed = false := by rw [hx]; exact harm
  rw [← hat] at hdis hca hcb
  rw [← hat] at hdis
  obtain ⟨y, hy⟩ : ∃ y, y = x.wrBytes (x.imageAt st (s.dev.slotOf st)) (x.imageBytes st) := ⟨_, rfl⟩
  have hsave : x.saveImage st (x.slotOf st) = y := by
    rw [hslot, x.saveImage_clean st _ (hbad.trans hvb) (hclean _ _ hca) hxarm, hy]
  have hyat (sl : Slot) : y.imageAt st sl = x.imageAt st sl := by
    rw [hy, Device.wrBytes_only]
    rfl
  have hyclean : y.clean (y.imageAt st target) 49152 := by
    rw [hyat, hy, Device.wrBytes_only]
    exact hclean _ _ hcb
  have hylane : y.lane st = s.dev.lane st := by
    rw [← hlane, hy, Device.wrBytes_only]
    rfl
  have hread : y.rdBytes (y.imageAt st target) 49152 = s.dev.rdBytes (s.dev.imageAt st target) 49152 := by
    rw [hyat, hy, x.rdBytes_wrBytes_out _ _ _ _ (by rw [x.length_imageBytes]; omega), hbytes, hat]
  have hload := y.loadImage_clean st target hyclean
  rw [hread, hylane] at hload
  unfold Device.startSwitch
  dsimp only
  rw [hstop, ← hx, hsave, hload, Device.modStall_modStall, hy, hat, himage]
  rfl

theorem contextSwitchStart_spec (n : Nat) (hvq : (s.dev.cur st).vq = []) (hvb : (s.dev.stall st).vBad = [])
    (hne : target ≠ s.dev.slotOf st)
    (hdis : s.dev.imageAt st (s.dev.slotOf st) + 49152 ≤ s.dev.imageAt st target ∨
      s.dev.imageAt st target + 49152 ≤ s.dev.imageAt st (s.dev.slotOf st))
    (hca : s.dev.clean (s.dev.imageAt st (s.dev.slotOf st)) 49152) (hcb : s.dev.clean (s.dev.imageAt st target) 49152)
    (harm : s.dev.tally.armed = false) : Completes (.contextSwitchStart st n) s fun t => s.sameOutside t ∧
      (∀ u, u ≠ st → t.dev.stall u = s.dev.stall u) ∧
      (t.dev.stall st).switching = some target ∧ (t.dev.stall st).switchTo = none ∧ (t.dev.stall st).switchReq = false ∧
      (t.dev.stall st).slot = (s.dev.stall st).slot ∧ t.dev.ctx st target = s.dev.ctx st target ∧
      t.dev.cur st = { s.dev.cur st with
        hold := match (s.dev.cur st).hold with
          | some (.fwait _) | some (.send _ _) | some (.recv _ _ _) => none
          | h => h } ∧
      (∀ r : VReg, t.dev.vreg st r = BitVec.ofNat 4096 (leNat (s.dev.rdBytes (s.dev.imageAt st target + r.val * 512) 512))) ∧
      (∀ (m : Fin 4) (h : Fin 2) (j : Fin 64), ((t.dev.stall st).mgr[m]).half[h][s.dev.lane st m j] =
        BitVec.ofNat 512 (leNat (s.dev.rdBytes (s.dev.imageAt st target + 16384 + (m.val * 2 + h.val) * 4096 + j.val * 64) 64))) ∧
      (∀ i, i < 49152 → t.dev.rdByte (s.dev.imageAt st (s.dev.slotOf st) + i) = ((s.dev.imageBytes st)[i]?).getD 0) ∧
      ∀ p, p < s.dev.imageAt st (s.dev.slotOf st) ∨ s.dev.imageAt st (s.dev.slotOf st) + 49152 ≤ p →
        t.dev.rdByte p = s.dev.rdByte p := by
  have hexec := contextSwitchStart_exec target f hto hb hpass n (startSwitch_eq target n hvq hvb hdis hca hcb harm)
  obtain ⟨a, ha⟩ : ∃ a, a = s.dev.imageAt st (s.dev.slotOf st) := ⟨_, rfl⟩
  obtain ⟨b, hbd⟩ : ∃ b, b = s.dev.imageAt st target := ⟨_, rfl⟩
  obtain ⟨bs, hbs⟩ : ∃ bs, bs = s.dev.rdBytes b 49152 := ⟨_, rfl⟩
  obtain ⟨l, hl⟩ : ∃ l, l = s.dev.imageBytes st := ⟨_, rfl⟩
  obtain ⟨x, hx⟩ : ∃ x, x = s.dev.modCur st Device.releaseHold := ⟨_, rfl⟩
  obtain ⟨y, hy⟩ : ∃ y, y = x.wrBytes a l := ⟨_, rfl⟩
  rw [← ha, ← hbd, ← hbs, ← hl, ← hx, ← hy] at hexec
  rw [← ha, ← hbd, ← hl]
  have hll : l.length = 49152 := by rw [hl, s.dev.length_imageBytes]
  have hystall (u : StallId) : y.stall u = x.stall u := by
    rw [hy, Device.wrBytes_only]
    rfl
  have hxstall : x.stall st = (s.dev.stall st).setCtx (s.dev.slotOf st) (Device.releaseHold (s.dev.cur st)) := by
    rw [hx, Device.stall_modCur]
  obtain ⟨t, ht⟩ : ∃ t, t = y.modStall st (switched target (s.dev.lane st) bs) := ⟨_, rfl⟩
  have hts : t.stall st = switched target (s.dev.lane st) bs (x.stall st) := by
    rw [ht, Device.stall_modStall_same, hystall]
  obtain ⟨hslot, hv, hmgr, hswing, hswto, hreq⟩ := switched_spec target (s.dev.lane st) bs (x.stall st)
  have htctx (sl : Slot) : (t.stall st).ctx sl = (x.stall st).ctx sl := by rw [hts, ctx_switched]
  rw [← hts] at hslot hv hmgr hswing hswto hreq
  have htslot : (t.stall st).slot = (s.dev.stall st).slot := by
    have h2 : (x.stall st).slot = (s.dev.stall st).slot := by
      rw [hxstall]
      cases s.dev.slotOf st <;> rfl
    exact hslot.trans h2
  have htbyte (p : Nat) : t.rdByte p = y.rdByte p := by rw [ht]; rfl
  have hxbyte (p : Nat) : x.rdByte p = s.dev.rdByte p := by rw [hx]; rfl
  obtain ⟨hregs, hhalves⟩ := Device.imagedStall_spec (lane := s.dev.lane st) (fun m => physLane_injective _) bs (x.stall st)
  rw [← ht] at hexec
  refine ⟨_, hexec, ⟨rfl, rfl⟩, fun u hu => ?_, hswing, hswto, hreq, htslot, ?_, ?_, fun r => ?_, fun m h j => ?_, fun i hi => ?_, fun p hp => ?_⟩
  · change t.stall u = _
    rw [ht, Device.stall_modStall_ne _ _ _ _ hu, hystall, hx, Device.stall_modCur_ne _ _ _ _ hu]
  · change (t.stall st).ctx target = (s.dev.stall st).ctx target
    rw [htctx, hxstall, Stall.ctx_setCtx_ne _ _ _ _ hne]
  · change (t.stall st).ctx (t.stall st).slot = _
    rw [htslot, htctx, hxstall, ← releaseHold_eq]
    exact Stall.ctx_setCtx_same _ _ _
  · change (t.stall st).v[r] = _
    have hr := r.isLt
    rw [hv, hregs r, hbs, s.dev.rdBytes_slice b _ _ _ (by omega)]
  · change (t.stall st).mgr[m].half[h][s.dev.lane st m j] = _
    have hm4 := m.isLt
    have hh2 := h.isLt
    have hj := j.isLt
    rw [hmgr, hhalves m h j, hbs, s.dev.rdBytes_slice b _ _ _ (by omega)]
    congr 3
    omega
  · change t.rdByte (a + i) = _
    rw [htbyte, hy, x.rdByte_wrBytes_in a i l (by omega), List.getElem?_eq_getElem (by omega), Option.getD_some]
  · change t.rdByte p = _
    rw [htbyte, hy, x.rdByte_wrBytes_out a p l (by omega), hxbyte]

end

/-! ### The switch ends -/

theorem contextSwitchDone_spec (target : Slot) (hsw : (s.dev.stall st).switching = some target) (hvq : (s.dev.ctx st target).vq = []) :
    Completes (.contextSwitchDone st) s fun t => s.sameButStall st t ∧
      t.dev.stall st = { (s.dev.stall st).setCtx target { s.dev.ctx st target with ran := true } with
        slot := target, switching := none, fillAge := 0
        recalled := (s.dev.stall st).recalled && decide (target = .paddock) } := by
  obtain ⟨F, hF⟩ : ∃ F : Stall → Stall, F = fun x => ({ x with
      slot := target, switching := none, fillAge := 0, recalled := x.recalled && decide (target = .paddock) } : Stall).modCtx target
        fun c => { c with ran := true } := ⟨_, rfl⟩
  obtain ⟨x, hx⟩ : ∃ x, x = s.dev.modStall st F := ⟨_, rfl⟩
  have hxs : x.stall st = F (s.dev.stall st) := by rw [hx, Device.stall_modStall_same]
  have hcur : (x.cur st).vq = [] := by
    change (x.stall st).cur.vq = []
    rw [hxs, hF]
    unfold Device.ctx at hvq
    cases target <;> exact hvq
  have hend : s.dev.endSwitch st target = x := by
    have h : s.dev.endSwitch st target = if (x.stall st).active then Device.drainQueue st 4 x else x := by
      rw [hx, hF]
      unfold Device.endSwitch Device.modCtx
      dsimp only
      rw [Device.modStall_modStall]
    have hdrain : Device.drainQueue st 4 x = x := by
      unfold Device.drainQueue
      rw [hcur]
      split <;> rfl
    rw [h, hdrain, ite_self]
  have hexec : exec (.contextSwitchDone st) s = .next (s.onDev fun _ => x) := by
    refine next_congr (fun _ => x) ?_
    rw [hsw]
    exact hend
  refine ⟨_, hexec, ⟨⟨rfl, rfl⟩, ?_, fun u hu => ?_⟩, ?_⟩
  · change x = { s.dev with stalls := x.stalls }
    rw [hx]
    rfl
  · change x.stall u = _
    rw [hx, Device.stall_modStall_ne _ _ _ _ hu]
  · change x.stall st = _
    rw [hxs, hF]
    cases target <;> rfl

end

end Sys2Proof.Machine
end

section
/-! Parking: a booked move of a whole partition (R127, R317 to R319). -/

namespace Sys2Proof.Machine

namespace Device

section
variable (d : Device)

theorem reclaim_only (cause : Fin 5) (c : Code) (p : Page) (t n : Nat) :
    ∃ x, d.reclaim cause c p t n = x ∧ x = { d with tally := x.tally, regs := x.regs, pba := x.pba, out := x.out } := by
  refine ⟨_, rfl, ?_⟩
  by_cases hn : n = 0
  · rw [hn]
    rfl
  obtain ⟨y, hy⟩ : ∃ y : Device, y = { d with tally := { d.tally with reclaimed := upd d.tally.reclaimed cause (· + n) } } := ⟨_, rfl⟩
  obtain ⟨z, hz⟩ : ∃ z, z = y.logRing (y.logWord 3 p.domain c p t n noCounts 0) := ⟨_, rfl⟩
  have he : d.reclaim cause c p t n = z.eventCode Page.tally 2 c := by
    rw [hz, hy]
    exact if_neg hn
  have hzd : z = { d with tally := z.tally } := by
    rw [hz, hy]
    rfl
  have hq := z.quiet_eventCode Page.tally 2 c
  rw [← he] at hq
  generalize d.reclaim cause c p t n = x at hq
  unfold Quiet at hq
  rw [hq, hzd]

theorem modStall_id (st : StallId) (f : Stall → Stall) (h : f (d.stall st) = d.stall st) : d.modStall st f = d :=
  congrArg (fun v => ({ d with stalls := v } : Device)) (upd_id _ _ _ h)

theorem partBytes_lt (st : StallId) (sl : Slot) : d.partBytes st sl < 2 ^ 32 := by
  have hf : field (d.ctxCtl st) 0 6 < 2 ^ 6 := Nat.mod_lt _ (by decide)
  unfold partBytes loftLimit
  split <;> cases sl <;> dsimp only <;> omega

/-- The job of a context move, as it enters the queue. -/
def parkJob (st : StallId) (sl : Slot) (dir : ParkDir) (dpa : Nat) : BarrowJob :=
  { d.newJob st (dir = .park) (d.parkDesc st sl dpa) with slot := sl, firmware := true }

theorem parkDesc_fields (st : StallId) (sl : Slot) (dpa : BitVec 48) :
    dfield (d.parkDesc st sl dpa.toNat) 0 0 4 = 0 ∧ dfield (d.parkDesc st sl dpa.toNat) 0 15 1 = 0 ∧
    dfield (d.parkDesc st sl dpa.toNat) 1 32 32 = d.partBytes st sl ∧ dfield (d.parkDesc st sl dpa.toNat) 2 0 48 = dpa.toNat := by
  have hn := d.partBytes_lt st sl
  have hd := dpa.isLt
  obtain ⟨n, hnn⟩ : ∃ n, n = d.partBytes st sl := ⟨_, rfl⟩
  unfold parkDesc
  rw [← hnn] at hn ⊢
  have h0 : vget (((Vector.replicate 8 (0 : W64)).set 1 (BitVec.ofNat 64 (n * 2 ^ 32))).set 2 (BitVec.ofNat 64 dpa.toNat)) 0 0 = 0 := rfl
  refine ⟨by rw [dfield, h0]; rfl, by rw [dfield, h0]; decide, ?_, ?_⟩
  · change ((BitVec.ofNat 64 (n * 2 ^ 32)).toNat >>> 32) % 2 ^ 32 = n
    rw [BitVec.toNat_ofNat, Nat.shiftRight_eq_div_pow]
    omega
  · change ((BitVec.ofNat 64 dpa.toNat).toNat >>> 0) % 2 ^ 48 = dpa.toNat
    rw [BitVec.toNat_ofNat, Nat.shiftRight_zero]
    omega

/-- The one range that a context move has outside the stall's loft. -/
theorem rangesOf_park (e : Device) (st : StallId) (sl : Slot) (dpa : BitVec 48) (j : BarrowJob)
    (hdesc : j.desc = d.parkDesc st sl dpa.toNat) (hstash : j.stash = false) :
    e.rangesOf st j = [(dpa.toNat, d.partBytes st sl)] := by
  obtain ⟨h1, -, h3, h4⟩ := d.parkDesc_fields st sl dpa
  unfold rangesOf
  rw [if_neg (by rw [hstash]; decide), hdesc]
  unfold barrowRows
  dsimp only
  rw [h1, h3, h4, if_neg (by decide)]
  simp

end

end Device

end Sys2Proof.Machine
end

section
/-! Parking, and context switches together (R127). -/

namespace Sys2Proof.Machine

section
variable {s : State} {st : StallId} {sl : Slot} {dpa : BitVec 48}

/-- What the rule for a context move checks. -/
theorem mayPark_spec (h : s.dev.mayPark st sl dpa.toNat = true) :
    s.dev.inLp6 dpa.toNat (s.dev.partBytes st sl) = true ∧
    s.dev.yardAt (dpa.toNat + s.dev.partBytes st sl - 1) = s.dev.yardAt dpa.toNat ∧
    s.dev.backlog st (s.dev.yardAt dpa.toNat) = 0 ∧ s.dev.share st (s.dev.yardAt dpa.toNat) ≠ 0 := by
  unfold Device.mayPark at h
  dsimp only at h
  simp only [Bool.and_eq_true, decide_eq_true_eq] at h
  obtain ⟨⟨⟨⟨⟨⟨⟨⟨⟨⟨⟨⟨-, -⟩, -⟩, -⟩, -⟩, -⟩, -⟩, hlp6⟩, hyard⟩, hback⟩, hshare⟩, -⟩, -⟩ := h
  exact ⟨hlp6, hyard, hback, hshare⟩

variable (s st sl dpa) in
/-- The device with a context move at the end of the stall's queue. -/
def parked (dir : ParkDir) : Device :=
  s.dev.modStall st fun x => { x with barrow := x.barrow ++ [s.dev.parkJob st sl dir dpa.toNat] }

section
variable (dir : ParkDir)

theorem parked_backlog (y : Yard) : (parked s st sl dpa dir).backlog st y = s.dev.backlog st y := by
  obtain ⟨j, hj⟩ : ∃ j, j = s.dev.parkJob st sl dir dpa.toNat := ⟨_, rfl⟩
  have hacc : j.accepted = false := by rw [hj]; rfl
  have hl : ((parked s st sl dpa dir).stall st).barrow = (s.dev.stall st).barrow ++ [j] := by
    rw [parked, Device.stall_modStall_same, hj]
  unfold Device.backlog
  rw [hl, List.filter_append, List.filter_cons, hacc, Bool.false_and, Bool.false_and, if_neg Bool.false_ne_true, List.filter_nil,
    List.append_nil]

/-- The place that an accepted move takes. -/
theorem placeJob_parked (j : BarrowJob) : (parked s st sl dpa dir).placeJob st (s.dev.stall st).barrow.length j =
    s.dev.modStall st fun x => { x with
      barrow := (s.dev.stall st).barrow.filter (·.accepted) ++ j :: (s.dev.stall st).barrow.filter (fun k => !k.accepted) } := by
  obtain ⟨k, hk⟩ : ∃ k, k = s.dev.parkJob st sl dir dpa.toNat := ⟨_, rfl⟩
  have hacc : k.accepted = false := by rw [hk]; rfl
  obtain ⟨l, hl⟩ : ∃ l, l = (s.dev.stall st).barrow := ⟨_, rfl⟩
  have hfilter : (l ++ [k]).filter (·.accepted) = l.filter (·.accepted) := by
    rw [List.filter_append, List.filter_cons, hacc, if_neg Bool.false_ne_true, List.filter_nil, List.append_nil]
  have herase : (l ++ [k]).eraseIdx l.length = l := by
    rw [List.eraseIdx_append_of_length_le le_rfl, Nat.sub_self]
    exact List.append_nil l
  unfold Device.placeJob parked
  rw [Device.modStall_modStall, ← hk, ← hl]
  have hupd (f g : Stall → Stall) (h : f (s.dev.stall st) = g (s.dev.stall st)) : s.dev.modStall st f = s.dev.modStall st g := by
    have h' : f s.dev.stalls[st.val] = g s.dev.stalls[st.val] := h
    simp [Device.modStall, upd, h']
  refine hupd _ _ ?_
  dsimp only
  rw [← hl, hfilter, herase]

theorem refuseJob_parked (j : BarrowJob) (hfw : j.firmware = true) : ∃ x, (parked s st sl dpa dir).refuseJob st
    (s.dev.stall st).barrow.length j Status.admissionRefused 0 = x ∧ x = { s.dev with tally := x.tally, regs := x.regs, pba := x.pba, out := x.out } := by
  have hdrop : (parked s st sl dpa dir).dropJob st (s.dev.stall st).barrow.length = s.dev := by
    unfold Device.dropJob parked
    rw [Device.modStall_modStall]
    refine s.dev.modStall_id st _ ?_
    dsimp only
    rw [List.eraseIdx_append_of_length_le le_rfl, Nat.sub_self]
    change { s.dev.stall st with barrow := (s.dev.stall st).barrow ++ [] } = s.dev.stall st
    rw [List.append_nil]
  obtain ⟨x, hx, hxo⟩ := s.dev.reclaim_only 3 Status.admissionRefused (Page.stall st) (Device.barrowTally st j.slot) 1
  refine ⟨x, ?_, hxo⟩
  unfold Device.refuseJob
  dsimp only
  rw [hdrop, if_neg (by decide), Device.barrowNotice, if_pos hfw, hx]

end

section
variable (dir : ParkDir) (h : s.dev.mayPark st sl dpa.toNat = true)
include h

/-- A context move at acceptance: placed where its charge fits, refused where not. -/
theorem acceptJob_parked : ∃ j : BarrowJob, j.slot = sl ∧ j.firmware = true ∧ j.accepted = true ∧
    j.put = decide (dir = .park) ∧ j.desc = s.dev.parkDesc st sl dpa.toNat ∧ j.accept = s.dev.now ∧
    s.dev.parkContext st sl dir dpa.toNat =
      if s.dev.inService (s.dev.yardAt dpa.toNat) * Device.maxOf (s.dev.charges [(dpa.toNat, s.dev.partBytes st sl)]) ≤
        64 * s.dev.share st (s.dev.yardAt dpa.toNat)
      then (parked s st sl dpa dir).placeJob st (s.dev.stall st).barrow.length { j with
        booked := true
        promise := s.dev.now + BitVec.ofNat 48 (2 + ceilDiv (s.dev.inService (s.dev.yardAt dpa.toNat) *
          Device.maxOf (s.dev.charges [(dpa.toNat, s.dev.partBytes st sl)])) (s.dev.share st (s.dev.yardAt dpa.toNat))) }
      else (parked s st sl dpa dir).refuseJob st (s.dev.stall st).barrow.length j Status.admissionRefused 0 := by
  obtain ⟨hlp6, hyard, hback, hshare⟩ := mayPark_spec h
  obtain ⟨n, hn⟩ : ∃ n, n = s.dev.partBytes st sl := ⟨_, rfl⟩
  obtain ⟨j, hj⟩ : ∃ j, j = s.dev.parkJob st sl dir dpa.toNat := ⟨_, rfl⟩
  obtain ⟨d, hd⟩ : ∃ d, d = parked s st sl dpa dir := ⟨_, rfl⟩
  have hnow : d.now = s.dev.now := by rw [hd]; rfl
  have hdlp6 : d.inLp6 dpa.toNat n = true := by rw [hd, hn]; exact hlp6
  have hdyard (a : Nat) : d.yardAt a = s.dev.yardAt a := by rw [hd]; rfl
  have hdsvc (y : Yard) : d.inService y = s.dev.inService y := by rw [hd]; rfl
  have hdcharge (l : List (Nat × Nat)) : d.charges l = s.dev.charges l := by rw [hd]; rfl
  have hdshare (y : Yard) : d.share st y = s.dev.share st y := by rw [hd]; rfl
  have hdback (y : Yard) : d.backlog st y = s.dev.backlog st y := by rw [hd, parked_backlog]
  obtain ⟨k, hk⟩ : ∃ k : BarrowJob, k = { j with accept := d.now, accepted := true } := ⟨_, rfl⟩
  have hkdesc : k.desc = s.dev.parkDesc st sl dpa.toNat ∧ k.stash = j.stash ∧ k.slot = sl ∧ k.firmware = true ∧ k.put = decide (dir = .park) := by
    rw [hk, hj]
    exact ⟨rfl, rfl, rfl, rfl, rfl⟩
  obtain ⟨hdesc, hkstash, hslot, hfw, hput⟩ := hkdesc
  obtain ⟨h1, h2, h3, h4⟩ := s.dev.parkDesc_fields st sl dpa
  have hstash : k.stash = false := by
    have hjs : j.stash = decide (dfield (s.dev.parkDesc st sl dpa.toNat) 0 0 4 = 8) := by rw [hj]; rfl
    rw [hkstash, hjs, h1]
    decide
  have hranges : d.rangesOf st k = [(dpa.toNat, n)] := by rw [s.dev.rangesOf_park d st sl dpa k hdesc hstash, hn]
  have hpark : s.dev.parkContext st sl dir dpa.toNat = d.acceptJob st (s.dev.stall st).barrow.length j := by
    unfold Device.parkContext
    rw [if_pos h, hd, hj]
    rfl
  obtain ⟨y, hy⟩ : ∃ y, y = s.dev.yardAt dpa.toNat := ⟨_, rfl⟩
  obtain ⟨x, hx⟩ : ∃ x, x = s.dev.inService y * Device.maxOf (s.dev.charges [(dpa.toNat, n)]) := ⟨_, rfl⟩
  rw [← hn, ← hy] at hyard
  rw [← hy] at hback hshare
  refine ⟨{ k with yard := y, rem := (s.dev.charges [(dpa.toNat, n)]).map fun p => (p.1, 2 * s.dev.inService y * p.2) }, hslot, hfw, ?_, hput, hdesc, ?_, ?_⟩
  · rw [hk]
  · rw [hk]
    exact hnow
  rw [← hn, ← hy, ← hx, hpark, ← hd]
  unfold Device.acceptJob
  rw [← hk]
  dsimp only
  rw [hranges]
  rw [List.find?_cons, show (!d.mapped dpa.toNat n) = false by rw [Device.mapped, hdlp6]; rfl, List.find?_nil, List.filter_cons,
    if_pos hdlp6, List.filter_nil]
  dsimp only
  rw [hdyard, ← hy, if_neg, hdsvc, hdcharge, ← hx, hdshare, hdback, hback, Nat.zero_add, if_neg, hnow]
  · by_cases hfit : x ≤ 64 * s.dev.share st y
    · rw [if_pos hfit, if_pos (by rw [decide_eq_true (Nat.pos_of_ne_zero hshare), decide_eq_true hfit]; rfl)]
    · rw [if_neg hfit, if_neg (by rw [decide_eq_false hfit, Bool.and_false]; decide), if_neg (by rw [hstash]; decide)]
  · rw [hdesc, h2, hstash]
    decide
  · rintro (hlt | hany)
    · exact absurd hlt (lt_irrefl _)
    · obtain ⟨q, hq, hne⟩ := List.any_eq_true.mp hany
      obtain rfl := List.mem_singleton.mp hq
      have hne := of_decide_eq_true hne
      rw [hdyard, hdyard] at hne
      exact hne.elim (fun h => h hy.symm) fun h => h hyard

theorem parkContext_fits (hfit : s.dev.inService (s.dev.yardAt dpa.toNat) *
      Device.maxOf (s.dev.charges [(dpa.toNat, s.dev.partBytes st sl)]) ≤ 64 * s.dev.share st (s.dev.yardAt dpa.toNat)) :
    Completes (.parkContext st sl dir dpa) s fun t => s.sameButStall st t ∧ ∃ j : BarrowJob,
      t.dev.stall st = { s.dev.stall st with
        barrow := (s.dev.stall st).barrow.filter (·.accepted) ++ j :: (s.dev.stall st).barrow.filter (fun k => !k.accepted) } ∧
      j.slot = sl ∧ j.firmware = true ∧ j.accepted = true ∧ j.booked = true ∧ j.put = decide (dir = .park) ∧
      dfield j.desc 1 32 32 = s.dev.partBytes st sl % 2 ^ 32 ∧ dfield j.desc 2 0 48 = dpa.toNat ∧ j.accept = s.dev.now ∧
      j.promise = s.dev.now + BitVec.ofNat 48 (2 + ceilDiv (s.dev.inService (s.dev.yardAt dpa.toNat) *
        Device.maxOf (s.dev.charges [(dpa.toNat, s.dev.partBytes st sl)])) (s.dev.share st (s.dev.yardAt dpa.toNat))) := by
  obtain ⟨j, hslot, hfw, hacc, hput, hdesc, haccept, hpark⟩ := acceptJob_parked dir h
  rw [if_pos hfit, placeJob_parked] at hpark
  obtain ⟨-, -, h3, h4⟩ := s.dev.parkDesc_fields st sl dpa
  obtain ⟨promise, hpr⟩ : ∃ x, x = s.dev.now + BitVec.ofNat 48 (2 + ceilDiv (s.dev.inService (s.dev.yardAt dpa.toNat) *
        Device.maxOf (s.dev.charges [(dpa.toNat, s.dev.partBytes st sl)])) (s.dev.share st (s.dev.yardAt dpa.toNat))) := ⟨_, rfl⟩
  rw [← hpr] at hpark ⊢
  obtain ⟨x, hx⟩ : ∃ x, x = s.dev.parkContext st sl dir dpa.toNat := ⟨_, rfl⟩
  have hexec : exec (.parkContext st sl dir dpa) s = .next (s.onDev fun _ => x) := next_congr (fun _ => x) hx.symm
  rw [← hx] at hpark
  refine ⟨_, hexec, ⟨⟨rfl, rfl⟩, ?_, fun u hu => ?_⟩, { j with booked := true, promise := promise }, ?_, hslot, hfw, hacc, rfl, hput, ?_, ?_, haccept, rfl⟩
  · change x = { s.dev with stalls := x.stalls }
    rw [hpark]
    rfl
  · change x.stall u = _
    rw [hpark, Device.stall_modStall_ne _ _ _ _ hu]
  · change x.stall st = _
    rw [hpark, Device.stall_modStall_same]
  · dsimp only
    rw [hdesc, h3, Nat.mod_eq_of_lt (s.dev.partBytes_lt st sl)]
  · dsimp only
    rw [hdesc, h4]

theorem parkContext_exceeds (hfit : 64 * s.dev.share st (s.dev.yardAt dpa.toNat) < s.dev.inService (s.dev.yardAt dpa.toNat) *
      Device.maxOf (s.dev.charges [(dpa.toNat, s.dev.partBytes st sl)])) :
    Completes (.parkContext st sl dir dpa) s fun t => t.dev.stalls = s.dev.stalls ∧ s.sameMemory t := by
  obtain ⟨j, -, hfw, -, -, -, -, hpark⟩ := acceptJob_parked dir h
  obtain ⟨x, hx, hxo⟩ := refuseJob_parked (sl := sl) (dpa := dpa) dir j hfw
  rw [if_neg (by omega), hx] at hpark
  have hexec : exec (.parkContext st sl dir dpa) s = .next (s.onDev fun _ => x) := next_congr (fun _ => x) hpark
  refine ⟨_, hexec, ?_, fun a => ?_⟩
  · change x.stalls = _
    rw [hxo]
  · change x.rdByte a = _
    rw [hxo]
    rfl

end

end

/-- Settles O42: the images of a switch are moved over sound bytes, and a parked context is a booked descriptor. -/
theorem contextSwitch : Obligations.ContextSwitch := by
  unfold Obligations.ContextSwitch
  intro st s
  refine ⟨fun target f n hto hb hpass hvq hvb hne => contextSwitchStart_spec target f hto hb hpass n hvq hvb hne,
    fun target hsw hvq => contextSwitchDone_spec target hsw hvq, fun sl dir dpa => ?_⟩
  intro l y n x share
  refine ⟨fun h hfit => parkContext_fits dir h hfit, fun h hfit => parkContext_exceeds dir h hfit, fun h => ?_⟩
  refine (next_congr (fun d => d) ?_ : _ = _)
  unfold Device.parkContext
  rw [if_neg (by rw [h]; decide)]

end Sys2Proof.Machine
end

section
/-! Descriptor-driven instructions at issue (R131): the descriptor read, the regions checked, the manger queue and its
instructions MLOAD, MFEED, MDRAIN, MSTAT and FMTSEL (R239, R240, R243, R284). -/

namespace Sys2Proof.Machine

namespace Device

/-- The words of 64 bytes that were read are the descriptor that stands there. -/
theorem words_descrAt (d : Device) (a : Nat) :
    (Vector.ofFn fun i : Fin 8 => BitVec.ofNat 64 (leNat (((d.rdBytes a 64).drop (8 * i.val)).take 8))) = d.descrAt a :=
  congrArg Vector.ofFn (funext fun i => by rw [d.rdBytes_slice a (8 * i.val) 8 64 (by omega)])

/-- A descriptor read without an error is handed on. -/
theorem withDescr_of_read (d : Device) (st : StallId) (ea : W64) (f : Device → Vector W64 8 → Device) (bytes : List Byte)
    (hal : ea.toNat % 64 = 0) (hlim : ea.toNat + 64 ≤ d.loftLimit st (d.slotOf st))
    (h : d.readRange (d.loftAt st ea.toNat) 64 false = (d, bytes, [])) :
    d.withDescr st ea f = f d (Vector.ofFn fun i : Fin 8 => BitVec.ofNat 64 (leNat ((bytes.drop (8 * i.val)).take 8))) := by
  rw [withDescr, d.operandCheck_of_ok st ea 64 _ hal hlim]
  rw [h]

/-- A descriptor that reads cleanly is the one that stands there. -/
theorem withDescr_clean (d : Device) (st : StallId) (ea : W64) (f : Device → Vector W64 8 → Device) (hal : ea.toNat % 64 = 0)
    (hlim : ea.toNat + 64 ≤ d.loftLimit st (d.slotOf st)) (hclean : d.clean (d.loftAt st ea.toNat) 64) :
    d.withDescr st ea f = f d (d.descrAt (d.loftAt st ea.toNat)) := by
  rw [d.withDescr_of_read st ea f _ hal hlim (d.readRange_clean _ 64 false (d.loftBase_le_loftAt st ea.toNat) hclean),
    words_descrAt]

/-- Regions that fit pass their checks. -/
theorem checkRegions_fit (d : Device) (st : StallId) (regs : List Region) (f : Device → Device)
    (h : ∀ r ∈ regs, r.base + r.bytes ≤ d.loftLimit st (d.slotOf st) ∧ r.base % r.align = 0) :
    d.checkRegions st regs f = f d := by
  have hin : (regs.find? fun r => decide (d.loftLimit st (d.slotOf st) < r.base + r.bytes)) = none :=
    List.find?_eq_none.mpr fun r hr => by simpa using (h r hr).1
  have hal : (regs.find? fun r => decide (r.base % r.align ≠ 0)) = none :=
    List.find?_eq_none.mpr fun r hr => by simpa using (h r hr).2
  rw [checkRegions, hin, hal]

end Device

/-- The operand's descriptor is read at issue. -/
theorem withDescr_of_names {s : State} {st : StallId} {a : SReg} (h : s.namesDescr st a)
    (f : Device → Vector W64 8 → Device) : s.dev.withDescr st (s.dev.sreg st a) f = f s.dev (s.descr st a) :=
  s.dev.withDescr_clean st _ f h.1 h.2.1 h.2.2

/-- An instruction that its checks let through does what they let through. -/
theorem completes_issue {i : Instr} {s : State} {st : StallId} {n : Nat} {f g : Device → Device} {Q : State → Prop}
    (hi : s.issues st n) (he : exec i s = .next (s.onDev fun d => d.issue st n f)) (hf : f s.dev = g s.dev)
    (hq : Q (s.onDev g)) : Completes i s Q :=
  ⟨_, he.trans (congrArg Host.Outcome.next ((onDev_issue hi f).trans (onDev_congr hf))), hq⟩

section
variable {s : State} {st : StallId} {m : MFormat} {op : Nat} {w : W32}

/-- A form that selects no manger is illegal. -/
theorem mangerIssue_of_illegal (h : m.sel = 0 ∨ m.b ≠ 0 ∨ m.d ≠ 0) : s.dev.mangerIssue st op m w = s.dev.illegal st w := by
  rw [Device.mangerIssue, if_pos h]

/-- A full queue holds the instruction. -/
theorem mangerIssue_of_full (hs : m.sel ≠ 0) (hb : m.b = 0) (hd : m.d = 0) (h : 8 ≤ (s.dev.cur st).mq.length) :
    s.dev.mangerIssue st op m w = s.dev := by
  rw [Device.mangerIssue, if_neg (fun h => h.elim hs fun h => h.elim (absurd hb) (absurd hd)), if_pos h]

/-- The fields of a command's descriptor that are used, and the regions that it names. -/
def mangerFields (op : Nat) : List (Nat × Nat × Nat) :=
  if op = 0 then mloadFields else if op = 1 then mfeedFields else mdrainFields

def mangerRegions (op : Nat) (x : Vector W64 8) (n : Nat) : List Region :=
  if op = 0 then mloadRegions x n else if op = 1 then mfeedRegions x else drainReads x n ++ drainWrites x n

/-- The accumulator entries of a slot in the view of a descriptor, and the counts that an issue refuses (R240). -/
def entryShare (wide : Bool) (p : Nat × Nat) : Nat × Nat := if wide then (p.1 / 4, p.2 / 4) else p

def badEntries (op : Nat) (x : Vector W64 8) (p : Nat × Nat) : Bool :=
  if op = 0 then false
  else if op = 2 && widening x then dfield x 0 48 8 = 0 || decide (128 < dfield x 0 48 8)
  else dfield x 0 48 8 = 0 || decide (dfield x 0 41 7 < (entryShare (if op = 1 then pieceFeed x else wideDrain x) p).1) ||
    decide ((entryShare (if op = 1 then pieceFeed x else wideDrain x) p).1 +
      (entryShare (if op = 1 then pieceFeed x else wideDrain x) p).2 < dfield x 0 41 7 + dfield x 0 48 8)

/-- A legal command is queued. -/
theorem mangerIssue_of_legal (hs : m.sel ≠ 0) (hb : m.b = 0) (hd : m.d = 0) (hq : (s.dev.cur st).mq.length < 8)
    (hn : s.namesDescr st m.a) (hr : reservedClear (s.descr st m.a) (mangerFields op) = true)
    (hc : badEntries op (s.descr st m.a) (accShare (s.dev.paddockEn st) (s.dev.slotOf st)) = false)
    (hf : s.regionsFit st (mangerRegions op (s.descr st m.a) (selected m.sel).length)) :
    s.dev.mangerIssue st op m w = (s.dev.modCur st fun k => { k with
      mq := k.mq ++ [⟨op, m.sel, s.descr st m.a, flag ((s.dev.cur st).getCr 0x0D) 0, 0, 0⟩] }).retire st 1 := by
  rw [Device.mangerIssue, if_neg (fun h => h.elim hs fun h => h.elim (absurd hb) (absurd hd)), if_neg (by omega)]
  rw [withDescr_of_names hn]
  generalize s.descr st m.a = x at hr hc hf
  generalize accShare (s.dev.paddockEn st) (s.dev.slotOf st) = p at hc
  obtain ⟨lo, cnt⟩ := p
  have hno : (!reservedClear x (mangerFields op) || badEntries op x (lo, cnt)) = false := by rw [hr, hc]; rfl
  unfold badEntries entryShare at hno
  refine (if_neg fun h => Bool.false_ne_true (hno.symm.trans (Eq.trans ?_ h))).trans (s.dev.checkRegions_fit st _ _ hf)
  generalize hw : (if op = 1 then pieceFeed x else wideDrain x) = wide
  cases wide <;> rfl

end

end Sys2Proof.Machine
end

section
/-! O30: MLOAD, MFEED, MDRAIN, MSTAT and FMTSEL at issue (R239, R240, R243, R284). -/

namespace Sys2Proof.Machine

section
variable {s : State} {st : StallId} {m : MFormat}

/-- A legal command enters the queue, and its instruction retires. -/
theorem completes_queued {i : Instr} {op : Nat} (hi : s.issues st 1)
    (he : exec i s = .next (s.onDev fun d => d.issue st 1 fun d => d.mangerIssue st op m (Coeri.firstWord i)))
    (hs : m.sel ≠ 0) (hb : m.b = 0) (hd : m.d = 0) (hq : (s.dev.cur st).mq.length < 8)
    (hn : s.namesDescr st m.a) (hr : reservedClear (s.descr st m.a) (mangerFields op) = true)
    (hc : badEntries op (s.descr st m.a) (accShare (s.dev.paddockEn st) (s.dev.slotOf st)) = false)
    (hf : s.regionsFit st (mangerRegions op (s.descr st m.a) (selected m.sel).length)) :
    Completes i s (s.wrote st 1 { s.dev.cur st with
      mq := (s.dev.cur st).mq ++ [⟨op, m.sel, s.descr st m.a, flag ((s.dev.cur st).getCr 0x0D) 0, 0, 0⟩] } 0 0) := by
  refine completes_issue hi he (mangerIssue_of_legal hs hb hd hq hn hr hc hf) (g := fun d => (d.modCur st fun k => { k with
    mq := k.mq ++ [⟨op, m.sel, s.descr st m.a, flag ((s.dev.cur st).getCr 0x0D) 0, 0, 0⟩] }).retire st 1) ?_
  have h := wrote_modCur s st 1 0 0 (fun k => { k with
    mq := k.mq ++ [⟨op, m.sel, s.descr st m.a, flag ((s.dev.cur st).getCr 0x0D) 0, 0, 0⟩] }) fun _ => rfl
  simpa only [Device.retire, Device.modCur_modCur, SlotCtx.setS_zero] using h

/-- A full queue holds the instruction. -/
theorem exec_of_full {i : Instr} {op : Nat} (hi : s.issues st 1)
    (he : exec i s = .next (s.onDev fun d => d.issue st 1 fun d => d.mangerIssue st op m (Coeri.firstWord i)))
    (hs : m.sel ≠ 0) (hb : m.b = 0) (hd : m.d = 0) (hq : 8 ≤ (s.dev.cur st).mq.length) : exec i s = .next s :=
  he.trans (congrArg Host.Outcome.next ((onDev_issue hi _).trans
    (onDev_congr (g := fun d => d) (mangerIssue_of_full hs hb hd hq))))

/-- A form that selects no manger takes ILLEGAL_INSTRUCTION. -/
theorem took_of_noManger {i : Instr} {op : Nat} (hi : s.issues st 1)
    (he : exec i s = .next (s.onDev fun d => d.issue st 1 fun d => d.mangerIssue st op m (Coeri.firstWord i)))
    (h : m.sel = 0 ∨ m.b ≠ 0 ∨ m.d ≠ 0) (hx : flag ((s.dev.cur st).getCr 0x01) 0 = false) :
    Completes i s (s.took st 1 0 ((Coeri.firstWord i).setWidth 64)) :=
  completes_issue hi he (mangerIssue_of_illegal h) (g := fun d => d.illegal st (Coeri.firstWord i))
    (raise_took s st 1 0 _ hx)

/-- The counts of a command that moves entries lie in the slot's share. -/
theorem badEntries_share {op : Nat} {x : Vector W64 8} {p : Nat × Nat} (wide : Bool) (h0 : op ≠ 0)
    (h2 : (op = 2 && widening x) = false) (hw : (if op = 1 then pieceFeed x else wideDrain x) = wide)
    (h : 0 < dfield x 0 48 8 ∧ p.1 / (if wide then 4 else 1) ≤ dfield x 0 41 7 ∧
      dfield x 0 41 7 + dfield x 0 48 8 ≤ p.1 / (if wide then 4 else 1) + p.2 / (if wide then 4 else 1)) :
    badEntries op x p = false := by
  obtain ⟨hrows, hlo, hhi⟩ := h
  rw [badEntries, if_neg h0, if_neg (by rw [h2]; exact Bool.false_ne_true), hw]
  cases wide
  all_goals
    simp only [entryShare, Bool.false_eq_true, if_false, if_true, Nat.div_one] at hlo hhi ⊢
    simp only [Bool.or_eq_false_iff, decide_eq_false_iff_not]
    omega

theorem badEntries_widening {x : Vector W64 8} {p : Nat × Nat} (hw : widening x = true)
    (h : 1 ≤ dfield x 0 48 8 ∧ dfield x 0 48 8 ≤ 128) : badEntries 2 x p = false := by
  rw [badEntries, if_neg (by decide), hw]
  simp only [decide_true, Bool.and_self, if_true, Bool.or_eq_false_iff, decide_eq_false_iff_not]
  omega

/-- MSTAT of one manger takes the oldest record, or the count of the commands. -/
theorem exec_mstat_of_one (hi : s.issues st 1) {g : Fin 4} (hg : selected m.sel = [g]) (ha : m.a = 0) (hb : m.b = 0) :
    exec (.mstat st m) s = .next (s.onDev fun d => ((d.modCur st fun k =>
      { k with rings := upd k.rings g (·.drop 1), lost := clearBit k.lost g }).setSreg st m.d
        (((s.dev.cur st).rings[g].head?).getD (BitVec.ofNat 64 ((((s.dev.cur st).mq.filter fun c => flag c.sel g).length +
          ((s.dev.cur st).mrun.filter fun r => r.mgr[g].busy).length) % 256)))).retire st 1) := by
  refine congrArg Host.Outcome.next ((onDev_issue hi _).trans (onDev_congr ?_))
  dsimp only
  rw [hg]
  exact if_neg (by simp [ha, hb])

/-- FMTSEL of an aligned target in the partition queues and holds. -/
theorem exec_fmtsel_of_legal (hi : s.issues st 1) (hs : m.sel = 0) (hb : m.b = 0) (hq : (s.dev.cur st).mq.length < 8)
    (hal : (s.dev.sreg st m.a).toNat % 64 = 0)
    (hlim : (s.dev.sreg st m.a).toNat + 64 ≤ s.dev.loftLimit st (s.dev.slotOf st)) :
    exec (.fmtsel st m) s = .next (s.onDev fun d => d.modCur st fun k => { k with
      mq := k.mq ++ [⟨4, 0, Vector.replicate 8 0, false, m.d, (s.dev.sreg st m.a).toNat⟩], hold := some (.fmtsel m.d) }) := by
  refine congrArg Host.Outcome.next ((onDev_issue hi _).trans (onDev_congr ?_))
  refine (if_neg (by simp [hs, hb])).trans ((if_neg (by omega)).trans ?_)
  exact s.dev.operandCheck_of_ok st _ 64 _ hal hlim

/-- MSTAT of one manger writes what it takes and drops the record. -/
theorem completes_mstat (hi : s.issues st 1) {g : Fin 4} (hg : selected m.sel = [g]) (ha : m.a = 0) (hb : m.b = 0) {v : W64}
    (hv : ((s.dev.cur st).rings[g].head?).getD (BitVec.ofNat 64 ((((s.dev.cur st).mq.filter fun c => flag c.sel g).length +
      ((s.dev.cur st).mrun.filter fun r => r.mgr[g].busy).length) % 256)) = v) :
    Completes (.mstat st m) s (s.wrote st 1 { s.dev.cur st with
      rings := upd (s.dev.cur st).rings g (·.drop 1), lost := clearBit (s.dev.cur st).lost g.val } m.d v) := by
  have hw := wrote_modCur s st 1 m.d v
    (fun k => { k with rings := upd k.rings g (·.drop 1), lost := clearBit k.lost g }) fun _ => rfl
  refine ⟨_, hv ▸ exec_mstat_of_one hi hg ha hb, ?_⟩
  simpa only [Device.setSreg, Device.retire, Device.modCur_modCur] using hw

theorem completes_fmtsel (hi : s.issues st 1) (hs : m.sel = 0) (hb : m.b = 0) (hq : (s.dev.cur st).mq.length < 8)
    (hal : (s.dev.sreg st m.a).toNat % 64 = 0)
    (hlim : (s.dev.sreg st m.a).toNat + 64 ≤ s.dev.loftLimit st (s.dev.slotOf st)) :
    Completes (.fmtsel st m) s fun t => s.sameButSlot st t ∧ t.dev.cur st = { s.dev.cur st with
      mq := (s.dev.cur st).mq ++ [⟨4, 0, Vector.replicate 8 0, false, m.d, (s.dev.sreg st m.a).toNat⟩]
      hold := some (.fmtsel m.d) } :=
  ⟨_, exec_fmtsel_of_legal hi hs hb hq hal hlim, sameButSlot_modCur s st _, s.dev.cur_modCur st _⟩

end

/-- What O30 says of a queueing form, with the operation's own fields, counts and regions. -/
def Queues (s : State) (st : StallId) (m : MFormat) (i : Instr) (op : Nat) (used : List (Nat × Nat × Nat)) (counts : Prop)
    (regs : List Region) : Prop :=
  (m.sel ≠ 0 → m.b = 0 → m.d = 0 → (s.dev.cur st).mq.length < 8 → s.namesDescr st m.a →
    reservedClear (s.descr st m.a) used = true → counts → s.regionsFit st regs →
    Completes i s (s.wrote st 1 { s.dev.cur st with
      mq := (s.dev.cur st).mq ++ [⟨op, m.sel, s.descr st m.a, flag ((s.dev.cur st).getCr 0x0D) 0, 0, 0⟩] } 0 0)) ∧
  (m.sel ≠ 0 → m.b = 0 → m.d = 0 → 8 ≤ (s.dev.cur st).mq.length → exec i s = .next s) ∧
  (m.sel = 0 ∨ m.b ≠ 0 ∨ m.d ≠ 0 → flag ((s.dev.cur st).getCr 0x01) 0 = false →
    Completes i s (s.took st 1 0 ((Coeri.firstWord i).setWidth 64)))

section
variable {s : State} {st : StallId} {m : MFormat}

theorem queues_of {i : Instr} {op : Nat} {counts : Prop} (hi : s.issues st 1)
    (he : exec i s = .next (s.onDev fun d => d.issue st 1 fun d => d.mangerIssue st op m (Coeri.firstWord i)))
    (hc : counts → badEntries op (s.descr st m.a) (accShare (s.dev.paddockEn st) (s.dev.slotOf st)) = false) :
    Queues s st m i op (mangerFields op) counts (mangerRegions op (s.descr st m.a) (selected m.sel).length) :=
  ⟨fun hs hb hd hq hn hr hcount hf => completes_queued hi he hs hb hd hq hn hr (hc hcount) hf,
    fun hs hb hd hq => exec_of_full hi he hs hb hd hq, fun h hx => took_of_noManger hi he h hx⟩

/-- The counts that a drain needs, in entries moved or in rows. -/
theorem badEntries_drain {x : Vector W64 8} {p : Nat × Nat}
    (h : if widening x then 1 ≤ dfield x 0 48 8 ∧ dfield x 0 48 8 ≤ 128
      else 0 < dfield x 0 48 8 ∧ p.1 / (if wideDrain x then 4 else 1) ≤ dfield x 0 41 7 ∧
        dfield x 0 41 7 + dfield x 0 48 8 ≤ p.1 / (if wideDrain x then 4 else 1) + p.2 / (if wideDrain x then 4 else 1)) :
    badEntries 2 x p = false := by
  cases hw : widening x
  · rw [hw] at h
    exact badEntries_share (wideDrain x) (by decide) (by rw [hw]; rfl) rfl h
  · rw [hw] at h
    exact badEntries_widening hw h

end

/-- Settles O30: a legal form passes its checks in order (R131) and changes the running slot alone. -/
theorem mangerInstructions : Obligations.MangerInstructions := by
  intro st m s hi slot x n rows e0 inShare queues
  have hload := queues_of (m := m) (op := 0) (i := .mload st m) hi rfl (counts := True) fun _ => rfl
  have hfeed := queues_of (m := m) (op := 1) (i := .mfeed st m) hi rfl (counts := inShare (pieceFeed x))
    fun h => badEntries_share (pieceFeed x) (by decide) rfl rfl h
  have hdrain := queues_of (m := m) (op := 2) (i := .mdrain st m) hi rfl
    (counts := if widening x then 1 ≤ rows ∧ rows ≤ 128 else inShare (wideDrain x)) badEntries_drain
  refine ⟨hload, hfeed, hdrain, fun g hg ha hb => ⟨fun r rest hr => ?record, fun hr => ?count⟩,
    fun hs hb hq hal hlim => completes_fmtsel hi hs hb hq hal hlim⟩
  case record => exact completes_mstat hi hg ha hb (by rw [show (s.dev.cur st).rings[g] = r :: rest from hr]; rfl)
  case count =>
    refine completes_mstat hi hg ha hb ?_
    rw [show (s.dev.cur st).rings[g] = [] from hr, ← List.countP_eq_length_filter, ← List.countP_eq_length_filter]
    rfl

end Sys2Proof.Machine
end

section
/-! An instruction that books with its stall and retires: what it leaves of the stall (R115, R131), and whole words
written to a loft (R300). -/

namespace Sys2Proof.Machine

/-- A mailbox n of whose free slots are reserved. -/
def Mailbox.booked (n : Nat) (m : Mailbox) : Mailbox := { m with free := m.free - n, inflight := m.inflight + n }

namespace Device

/-- u's stalls are d's, but that st has done f outside its slots, and g in its running slot, which then retired. -/
def Issued (d : Device) (st : StallId) (f : Stall → Stall) (g : SlotCtx → SlotCtx) (u : Device) : Prop :=
  u.stalls = (d.modStall st fun s => (f s).setCtx s.slot ((g s.cur).advance 1)).stalls

section
variable {d u : Device} {st : StallId} {f : Stall → Stall} {g : SlotCtx → SlotCtx} (h : d.Issued st f g u)
include h

theorem Issued.stall : u.stall st = (f (d.stall st)).setCtx (d.slotOf st) ((g (d.cur st)).advance 1) := by
  have hs : u.stall st = (d.modStall st fun s => (f s).setCtx s.slot ((g s.cur).advance 1)).stall st :=
    congrArg (·[st.val]) h
  rw [hs, stall_modStall_same]
  rfl

theorem Issued.other {v : StallId} (hv : v ≠ st) : u.stall v = d.stall v := by
  have hs : u.stall v = (d.modStall st fun s => (f s).setCtx s.slot ((g s.cur).advance 1)).stall v :=
    congrArg (·[v.val]) h
  rw [hs, stall_modStall_ne _ _ _ _ hv]

theorem Issued.barrow : (u.stall st).barrow = (f (d.stall st)).barrow := by
  rw [h.stall, Stall.setCtx_barrow]

theorem Issued.mbx (k : Fin 8) : u.mbx st k = (f (d.stall st)).mbx[k] := by
  rw [Device.mbx, h.stall, Stall.setCtx_mbx]

theorem Issued.cur (hf : (f (d.stall st)).slot = d.slotOf st) : u.cur st = (g (d.cur st)).advance 1 := by
  rw [Device.cur, Stall.cur, h.stall, Stall.setCtx_slot, hf, Stall.ctx_setCtx_same]

theorem Issued.retired (hf : (f (d.stall st)).slot = d.slotOf st) : (g (d.cur st)).retired 1 (u.cur st) := by
  rw [h.cur hf]
  exact SlotCtx.retired_advance _ 1

theorem Issued.sreg (hf : (f (d.stall st)).slot = d.slotOf st) (r : SReg) : u.sreg st r = (g (d.cur st)).getS r := by
  rw [Device.sreg, h.cur hf, SlotCtx.getS_advance]

end

/-- A change of the stall, then one of its running slot and its retirement. -/
theorem issued_modCur (d e : Device) (st : StallId) (f : Stall → Stall) (g : SlotCtx → SlotCtx)
    (he : e.stalls = (d.modStall st f).stalls) (hslot : ∀ s, (f s).slot = s.slot) (hcur : ∀ s, (f s).cur = s.cur) :
    d.Issued st f g ((e.modCur st g).retire st 1) := by
  have hm (x : Device) (p : Stall → Stall) : (x.modStall st p).stalls = upd x.stalls st p := rfl
  have hupd (v : Vector Stall 384) (a b : Stall → Stall) : upd (upd v st a) st b = upd v st fun s => b (a s) := by simp [upd]
  unfold Issued
  rw [show (e.modCur st g).retire st 1 = (e.modStall st fun s => s.modCtx s.slot g).modStall st
    fun s => s.modCtx s.slot fun c => c.advance 1 from rfl, hm, hm, he, hm, hm, hupd, hupd]
  refine congrArg (upd d.stalls st) (funext fun s => ?_)
  have hctx : (f s).ctx s.slot = s.cur := by rw [← hcur s, Stall.cur, hslot]
  simp only [Stall.modCtx, Stall.setCtx_slot, Stall.ctx_setCtx_same, Stall.setCtx_setCtx, hslot, hctx]

/-- An instruction that may reserve its notice slots reserves them. -/
theorem withNotices_of_takes {s : State} {st : StallId} {k : Fin 8} {n : Nat} (h : s.takesNotices st k n)
    (f : Device → Device) : s.dev.withNotices st k n f = f (s.dev.modMbx st k (Mailbox.booked n)) := by
  obtain ⟨hn, ho, hf⟩ := h
  have hbad : s.dev.badNoticeMbx st k = false := by
    rw [badNoticeMbx, hn, ho]
    simp
  rw [withNotices, hbad, if_neg Bool.false_ne_true, reserve, if_neg (Nat.not_lt.mpr hf)]
  rfl

end Device

end Sys2Proof.Machine
end

section
/-! Whole words written to a loft (R300): each is stored whatever errors it had. -/

namespace Sys2Proof.Machine

namespace Device

theorem SameBytes.wrBytes {d e : Device} (h : SameBytes d e) (a : Nat) (l : List Byte) :
    SameBytes (d.wrBytes a l) (e.wrBytes a l) := by
  refine ⟨mem_wrBytes_congr h.1 h.2 a l, ?_⟩
  rw [e.wrBytes_only, d.wrBytes_only]
  exact h.2

theorem sameBytes_inject (d : Device) (u : Nat) : SameBytes d (d.inject u) := (d.inject_fill u).sameBytes

/-- A whole word of a loft is stored. -/
theorem writeUnit_whole (d : Device) (a : Nat) (l : List Byte) (k : Bool) (ha : loftBase ≤ a) (hl : l.length = 8) :
    SameBytes (d.wrBytes a l) (d.writeUnit a l k).1 := by
  have hu : ¬ unitOf a < loftBase := Nat.not_lt.mpr (unitOf_loft_ge a ha)
  have hw : l.length = unitSize a := by rw [hl, unitSize, if_neg (Nat.not_lt.mpr ha)]
  have hlp6 : decide (unitOf a < loftBase) = false := decide_eq_false hu
  rw [writeUnit]
  simp only [hlp6, Bool.false_and, Bool.false_eq_true, if_false, hw, if_true]
  refine SameBytes.trans ?_ (sameBytes_inject _ _)
  exact SameBytes.wrBytes (d := d) (e := { d with bad := setErase d.bad (unitOf a), ce := setErase d.ce (unitOf a) }) ⟨rfl, rfl⟩ a l

/-- The words of a range of whole words in a loft. -/
theorem unitsOf_words (a q : Nat) (ha : loftBase ≤ a) (h8 : a % 8 = 0) :
    unitsOf a (8 * q) = (List.range q).map fun i => a + i * 8 := by
  have hs : unitSize a = 8 := if_neg (Nat.not_lt.mpr ha)
  by_cases hq : q = 0
  · rw [hq]; rfl
  have ho : unitOf a = a := by rw [unitOf, hs]; omega
  rw [unitsOf_eq a _ (by omega), hs, ho, show (a + 8 * q - 1) / 8 - a / 8 + 1 = q by omega]

/-- Whole words written to a loft are stored, whatever errors stand there. -/
theorem writeRange_words (d : Device) (a : Nat) (l : List Byte) (k : Bool) (ha : loftBase ≤ a) (h8 : a % 8 = 0) (q : Nat)
    (hl : l.length = 8 * q) : SameBytes (d.wrBytes a l) (d.writeRange a l k).1 := by
  have key : ∀ m, m ≤ q → SameBytes (d.wrBytes a (l.take (8 * m)))
      (((List.range m).map fun i => a + i * 8).foldl (fun (x : Device × List (Nat × MemRes)) u =>
        let (lo, piece) := pieceOf a l u
        let (d, res) := x.1.writeUnit lo piece k
        (d, if res = .ok then x.2 else x.2 ++ [(u, res)])) (d, [])).1 := by
    intro m
    induction m with
    | zero => intro _; exact SameBytes.refl d
    | succ m ih =>
      intro hm
      have hs : unitSize (a + m * 8) = 8 := if_neg (by omega)
      have hlen : ((l.drop (m * 8)).take 8).length = 8 := by
        rw [List.length_take, List.length_drop]
        omega
      have hpiece : pieceOf a l (a + m * 8) = (a + m * 8, (l.drop (m * 8)).take 8) := by
        rw [pieceOf, hs, max_eq_right (by omega), Nat.add_sub_cancel_left, Nat.add_sub_cancel_left]
      rw [List.range_succ, List.map_append, List.foldl_append, List.map_cons, List.map_nil, List.foldl_cons, List.foldl_nil,
        hpiece]
      refine SameBytes.trans ?_ (writeUnit_whole _ _ _ k (by omega) hlen)
      have hsplit : d.wrBytes a (l.take (8 * (m + 1))) =
          (d.wrBytes a (l.take (8 * m))).wrBytes (a + m * 8) ((l.drop (m * 8)).take 8) := by
        rw [show 8 * (m + 1) = 8 * m + 8 by omega, List.take_add, wrBytes_append, List.length_take, min_eq_left (by omega),
          Nat.mul_comm m 8]
      rw [hsplit]
      exact (ih (by omega)).wrBytes _ _
  have h := key q le_rfl
  rw [← hl, List.take_length] at h
  rw [writeRange, hl, unitsOf_words a q ha h8]
  exact h

end Device

end Sys2Proof.Machine
end

section
/-! BGET, BPUT and the stash operations at issue (R131, R287 to R291, R316). -/

namespace Sys2Proof.Machine

namespace Device

/-- The job enters the barrow's queue, its notice slot is reserved, and the slot keeps the given stash. -/
def JobIssued (d : Device) (st : StallId) (k : Fin 8) (j : BarrowJob) (x : Option Stash) (u : Device) : Prop :=
  d.Issued st (fun s => { s with mbx := upd s.mbx k (Mailbox.booked 1), barrow := s.barrow ++ [j] })
    (fun c => { c with stash := x }) u

/-- A job enqueued after accesses to memory. -/
theorem jobIssued_setStash {d e : Device} {st : StallId} {k : Fin 8} (h : Accessed (d.modMbx st k (Mailbox.booked 1)) e)
    (j : BarrowJob) (x : Option Stash) : d.JobIssued st k j x ((e.setStash st x).enqueueBarrow st j) := by
  have hcomm : (e.setStash st x).enqueueBarrow st j =
      ((e.modStall st fun s => { s with barrow := s.barrow ++ [j] }).modCur st fun c => { c with stash := x }).retire st 1 := by
    refine congrArg (fun y : Device => y.retire st 1) ?_
    rw [setStash, modCur, modCur, modStall_modStall, modStall_modStall]
    refine congrArg (e.modStall st) (funext fun s => ?_)
    cases hs : s.slot <;> simp only [Stall.modCtx, Stall.setCtx, Stall.ctx, hs]
  rw [hcomm]
  refine issued_modCur d _ st _ _ ?_ (fun _ => rfl) (fun _ => rfl)
  have hst : e.stalls = (d.modMbx st k (Mailbox.booked 1)).stalls := by rw [h]
  rw [modStall, modStall, hst]
  simp [modMbx, modStall, upd]

/-- A job enqueued by an instruction that leaves the stash. -/
theorem jobIssued_enqueue (d : Device) (st : StallId) (k : Fin 8) (j : BarrowJob) :
    d.JobIssued st k j (d.cur st).stash ((d.modMbx st k (Mailbox.booked 1)).enqueueBarrow st j) := by
  have hid : ((d.modMbx st k (Mailbox.booked 1)).setStash st (d.cur st).stash) = d.modMbx st k (Mailbox.booked 1) := by
    have hc : (d.modMbx st k (Mailbox.booked 1)).cur st = d.cur st := d.cur_modMbx st st k _
    refine modStall_id _ st _ ?_
    change Stall.setCtx _ _ { ((d.modMbx st k (Mailbox.booked 1)).cur st) with stash := (d.cur st).stash } = _
    rw [hc]
    have hx : ({ d.cur st with stash := (d.cur st).stash } : SlotCtx) = (d.modMbx st k (Mailbox.booked 1)).cur st := hc.symm
    rw [hx]
    exact Stall.setCtx_ctx _ _
  have h := jobIssued_setStash (Accessed.refl (d.modMbx st k (Mailbox.booked 1))) j (d.cur st).stash
  rwa [hid] at h

end Device

/-- What an instruction that queues a job of the barrow leaves, as O32 says it. -/
def QueuesJob (st : StallId) (k : Fin 8) (x : Vector W64 8) (p : Bool) (stash : Option Stash) (f : BarrowJob → Prop)
    (s t : State) : Prop :=
  (∃ j, (t.dev.stall st).barrow = (s.dev.stall st).barrow ++ [j] ∧ j.slot = s.dev.slotOf st ∧ j.put = p ∧ j.desc = x ∧
    j.accepted = false ∧ f j) ∧ s.reserved st k 1 t ∧ (t.dev.cur st).stash = stash ∧
  { s.dev.cur st with stash := stash }.retired 1 (t.dev.cur st) ∧ (∀ r, t.dev.sreg st r = s.dev.sreg st r) ∧
  ∀ u, u ≠ st → t.dev.stall u = s.dev.stall u

theorem queuesJob_of {s : State} {st : StallId} {k : Fin 8} {x : Vector W64 8} {p : Bool} {stash : Option Stash}
    {f : BarrowJob → Prop} {g : Device → Device} (j : BarrowJob) (h : s.dev.JobIssued st k j stash (g s.dev))
    (hslot : j.slot = s.dev.slotOf st) (hput : j.put = p) (hdesc : j.desc = x) (hacc : j.accepted = false) (hf : f j) :
    QueuesJob st k x p stash f s (s.onDev g) := by
  refine ⟨⟨j, ?_, hslot, hput, hdesc, hacc, hf⟩, ?_, ?_, ?_, fun r => ?_, fun u hu => ?_⟩
  all_goals
    change s.dev.JobIssued st k j stash (s.onDev g).dev at h
  · exact h.barrow
  · exact (h.mbx k).trans (upd_same _ _ _)
  · rw [h.cur rfl, (SlotCtx.retired_advance _ 1).1]
  · exact h.retired rfl
  · exact h.sreg rfl r
  · exact h.other hu

end Sys2Proof.Machine
end

section
/-! O32: the descriptors of BGET and BPUT at issue, with the stash operations (R287 to R291, R316). -/

namespace Sys2Proof.Machine

section
variable {s : State} {st : StallId} {m : MFormat} {p : Bool} {w : W32}

theorem slotAt_ge (d : Device) (st : StallId) (sl : Slot) (a : Nat) : loftBase ≤ d.slotAt st sl a := by
  unfold Device.slotAt loftDpa
  omega

/-- An engine reads a range free of errors. -/
theorem engRead_clean (d : Device) (st : StallId) (sl : Slot) (a n : Nat) (h : d.clean (d.slotAt st sl a) n) :
    d.engRead st sl a n = (d, d.rdBytes (d.slotAt st sl a) n, true) := by
  have hr := d.readRange_clean _ n false (slotAt_ge d st sl a) h
  rw [Device.engRead, hr]
  rfl

theorem accessed_engWrite (d : Device) (st : StallId) (sl : Slot) (a : Nat) (bs : List Byte) :
    Device.Accessed d (d.engWrite st sl a bs) := d.accessed_writeRange _ bs false

/-- Directory entries written back change nothing but memory. -/
theorem accessed_storeEntries (c : Stash) (P : Nat → Prop) [DecidablePred P] (l : List Nat) (d : Device) :
    Device.Accessed d (l.foldl (fun d i => if P i then d else d.storeEntry st c i) d) := by
  induction l generalizing d with
  | nil => exact Device.Accessed.refl d
  | cons i l ih =>
    refine Device.Accessed.trans ?_ (ih _)
    beta_reduce
    split
    · exact Device.Accessed.refl d
    · exact accessed_engWrite d st _ _ _

/-! ### The descriptor -/

section
variable {x : Vector W64 8} (hx : s.descr st m.a = x) (hsel : m.sel = 0) (hb : m.b = 0) (hd : m.d = 0) (hn : s.namesDescr st m.a)
  (hq : ((s.dev.stall st).barrow.countP fun j => j.slot = s.dev.slotOf st) < 16)
include hx hsel hb hd hn hq

/-- A legal descriptor of a move is queued. -/
theorem barrowIssue_move (hkind : dfield x 0 0 4 ≠ 8) (hlegal : barrowLegal x = true)
    (hfit : s.regionsFit st [⟨dfield x 1 0 32,
      ((if dfield x 0 0 4 = 1 then dfield x 3 0 32 else 1) - 1) *
        dfield x 3 32 32 + dfield x 1 32 32, 64⟩])
    (hk : s.takesNotices st (Device.noticeMbx x) 1) :
    s.dev.barrowIssue st p m w = (s.dev.modMbx st (Device.noticeMbx x) (Mailbox.booked 1)).enqueueBarrow st
      ((s.dev.modMbx st (Device.noticeMbx x) (Mailbox.booked 1)).newJob st p x) := by
  rw [List.countP_eq_length_filter] at hq
  rw [Device.barrowIssue, if_neg (by simp [hsel, hb, hd]), if_neg (Nat.not_le.mpr hq), withDescr_of_names hn, hx]
  refine (if_neg hkind).trans ((if_neg (by rw [hlegal]; exact Bool.false_ne_true)).trans ?_)
  refine (s.dev.checkRegions_fit st _ _ hfit).trans ?_
  exact Device.withNotices_of_takes hk _

/-- A legal stash descriptor does its operation. -/
theorem barrowIssue_stash (hkind : dfield x 0 0 4 = 8)
    (hlegal : stashLegal x (s.dev.cur st).stash = true) :
    s.dev.barrowIssue st p m w = s.dev.stashIssue st (s.dev.newJob st p x) w := by
  rw [List.countP_eq_length_filter] at hq
  rw [Device.barrowIssue, if_neg (by simp [hsel, hb, hd]), if_neg (Nat.not_le.mpr hq), withDescr_of_names hn, hx]
  exact (if_pos hkind).trans (if_pos hlegal)

end

/-! ### The operations -/

section
variable {j : BarrowJob} {x : Vector W64 8} (hdesc : j.desc = x)
include hdesc

omit hdesc in
/-- The region of n bytes that an operation names passes its check. -/
theorem stash_checkRegions {n : Nat} {f : Device → Device} (h : n = 0 ∨ s.regionsFit st [⟨dfield x 1 0 32, n, 1⟩]) :
    s.dev.checkRegions st (if n = 0 then [] else [⟨dfield x 1 0 32, n, 1⟩]) f = f s.dev := by
  refine s.dev.checkRegions_fit st _ _ fun r hr => ?_
  split at hr
  · exact absurd hr List.not_mem_nil
  · exact (h.resolve_left ‹_›) r hr

/-- OPEN reads the control block. -/
theorem stashIssue_open (hs : (s.dev.cur st).stash = none) (hop : dfield x 0 52 4 = 0)
    (hfit : s.regionsFit st [⟨dfield x 1 0 32, 64, 1⟩]) : s.dev.stashIssue st j w = s.dev.stashOpen st j w := by
  subst hdesc
  unfold Device.stashIssue
  extract_lets x op e n
  have hn : n = 64 := if_pos (.inl hop)
  refine (stash_checkRegions (by rw [hn]; exact .inr hfit)).trans ?_
  rw [hs]

section
variable {c : Stash} (hs : (s.dev.cur st).stash = some c)
include hs

/-- PUT looks for a place. -/
theorem stashIssue_put (hop : dfield x 0 52 4 = 1)
    (hfit : s.regionsFit st [⟨dfield x 1 0 32, dfield x 1 32 32, 1⟩]) :
    s.dev.stashIssue st j w = s.dev.stashPut st j c := by
  subst hdesc
  unfold Device.stashIssue
  extract_lets x op e n
  have hop' : op = 1 := hop
  have hn : n = dfield x 1 32 32 := (if_neg (by omega)).trans (if_pos hop')
  refine (stash_checkRegions (by rw [hn]; exact .inr hfit)).trans ?_
  rw [hs]
  exact if_pos hop

variable (hk : s.takesNotices st (Device.noticeMbx x) 1)
include hk

/-- GET frees its entry and copies it. -/
theorem stashIssue_get (hop : dfield x 0 52 4 = 2)
    (hfit : (c.entry (dfield x 2 32 16)).bytes = 0 ∨
      s.regionsFit st [⟨dfield x 1 0 32, (c.entry (dfield x 2 32 16)).bytes, 1⟩]) :
    s.dev.stashIssue st j w = (s.dev.modMbx st (Device.noticeMbx x) (Mailbox.booked 1)).stashGetFree st j c true := by
  subst hdesc
  unfold Device.stashIssue
  extract_lets x op e n
  have hop' : op = 2 := hop
  have he : e = c.entry (dfield x 2 32 16) := by
    dsimp only [e]
    rw [hs]
  have hn : n = (c.entry (dfield x 2 32 16)).bytes :=
    (if_neg (by omega)).trans ((if_neg (by omega)).trans ((if_pos hop').trans (congrArg _ he)))
  refine (stash_checkRegions (by rw [hn]; exact hfit)).trans ?_
  rw [hs]
  refine (if_neg (by omega)).trans ((Device.withNotices_of_takes hk _).trans ((if_neg (by omega)).trans ?_))
  rw [hop', decide_eq_true rfl]

/-- FREE frees its entry. -/
theorem stashIssue_free (hop : dfield x 0 52 4 = 3) :
    s.dev.stashIssue st j w = (s.dev.modMbx st (Device.noticeMbx x) (Mailbox.booked 1)).stashGetFree st j c false := by
  subst hdesc
  unfold Device.stashIssue
  extract_lets x op e n
  have hop' : op = 3 := hop
  have hn : n = 0 := (if_neg (by omega)).trans ((if_neg (by omega)).trans (if_neg (by omega)))
  refine (stash_checkRegions (.inl hn)).trans ?_
  rw [hs]
  refine (if_neg (by omega)).trans ((Device.withNotices_of_takes hk _).trans ((if_neg (by omega)).trans ?_))
  rw [hop', decide_eq_false (by decide)]

/-- CLOSE gives the stash up. -/
theorem stashIssue_close (hop : dfield x 0 52 4 = 4) (hfit : s.regionsFit st [⟨dfield x 1 0 32, 64, 1⟩]) :
    s.dev.stashIssue st j w = ((s.dev.modMbx st (Device.noticeMbx x) (Mailbox.booked 1)).setStash st none).enqueueBarrow st
      { j with close := some (c.seq, c.spills, c.drops) } := by
  subst hdesc
  unfold Device.stashIssue
  extract_lets x op e n
  have hop' : op = 4 := hop
  have hn : n = 64 := if_pos (.inr hop')
  refine (stash_checkRegions (by rw [hn]; exact .inr hfit)).trans ?_
  rw [hs]
  exact (if_neg (by omega)).trans ((Device.withNotices_of_takes hk _).trans (if_pos hop'))

end

end

end

end Sys2Proof.Machine
end

section
/-! O32: what the stash operations leave (R287 to R291). -/

namespace Sys2Proof.Machine

section
variable {s : State} {st : StallId} {j : BarrowJob} {w : W32} {x : Vector W64 8} (hdesc : j.desc = x)

include hdesc in
/-- A control block read without an error. -/
theorem stashOpen_of_read {b : Stash} {bytes : List Byte}
    (hread : s.dev.engRead st j.slot (dfield x 1 0 32) 64 = (s.dev, bytes, true)) (hblock : Stash.ofBlock bytes = b)
    (hlen : 0 < b.entries.length) (hmax : b.entries.length ≤ 4096) (hslot : 0 < b.slotBytes) (hpage : b.slotBytes % 4096 = 0)
    (hbig : b.slotBytes ≤ 1048576) (hloft : b.loftSlots ≤ 4095) (hbase : b.lp6Base % 4096 = 0)
    (hfit : s.regionsFit st [⟨b.dirBase, 16 * b.entries.length, 16⟩, ⟨b.loftBase, b.loftSlots * b.slotBytes, 4096⟩])
    (hk : s.takesNotices st (Device.noticeMbx x) 1) :
    s.dev.stashOpen st j w = (((s.dev.modMbx st (Device.noticeMbx x) (Mailbox.booked 1)).engWrite st j.slot b.dirBase
      (List.replicate (16 * b.entries.length) 0)).setStash st (some b)).enqueueBarrow st
        { j with stashCode := Status.done } := by
  subst hdesc
  unfold Device.stashOpen
  rw [hread]
  dsimp only
  rw [hblock]
  refine (if_neg (by omega)).trans ((s.dev.checkRegions_fit st _ _ hfit).trans ?_)
  exact Device.withNotices_of_takes hk _

/-- A partition begins at a whole word. -/
theorem partBase_mod (d : Device) (st : StallId) (sl : Slot) : d.partBase st sl % 8 = 0 := by
  unfold Device.partBase
  split
  · rfl
  · split
    · omega
    · rfl

/-- A directory at a whole word is cleared, whatever errors stand there. -/
theorem rdByte_cleared (d : Device) (st : StallId) (sl : Slot) (a n i : Nat) (ha : a % 8 = 0) (hi : i < 16 * n) :
    (d.engWrite st sl a (List.replicate (16 * n) 0)).rdByte (d.slotAt st sl a + i) = 0 := by
  obtain ⟨x, hx⟩ : ∃ x, x = d.slotAt st sl a := ⟨_, rfl⟩
  have hge : loftBase ≤ x := hx ▸ slotAt_ge d st sl a
  have hal : x % 8 = 0 := by
    have hpart := partBase_mod d st sl
    rw [hx]
    unfold Device.slotAt loftDpa loftBase
    omega
  have hbytes := d.writeRange_words x (List.replicate (16 * n) 0) false hge hal (2 * n) (by rw [List.length_replicate]; omega)
  unfold Device.engWrite
  rw [← hx, hbytes.rdByte, d.rdByte_wrBytes_in x i _ (by rw [List.length_replicate]; exact hi), List.getElem_replicate]

section
variable {c : Stash}

include hdesc in
/-- A PUT that finds a place fills its entry. -/
theorem stashPut_of_place (hj : j.slot = s.dev.slotOf st) (hk : s.takesNotices st (Device.noticeMbx x) 1) {c' : Stash} {state : BitVec 2} {k : Nat}
    {sp : Option (Nat × Nat × Nat)} (h : c.takePlace = some (c', state, k, sp)) :
    ∃ l : List Move, s.dev.JobIssued st (Device.noticeMbx x) { j with moves := l ++ [⟨s.dev.slotAt st (s.dev.slotOf st) (dfield x 1 0 32),
        if state = 1 then s.dev.slotAt st (s.dev.slotOf st) (c.loftSlot k) else c.lp6Slot k, dfield x 1 32 32⟩] }
      (some { c'.setEntry (dfield x 2 32 16) ⟨state, decide (dfield x 0 48 1 = 1),
        BitVec.ofNat 32 (dfield x 2 0 32), c.seq, dfield x 1 32 32, k⟩ with seq := c.seq + 1 })
      (s.dev.stashPut st j c) := by
  subst hdesc
  unfold Device.stashPut
  extract_lets x i tag
  rw [h]
  dsimp only
  rw [Device.withNotices_of_takes hk, ← hj]
  exact ⟨_, Device.jobIssued_setStash (accessed_storeEntries _ _ _ _) _ _⟩

include hdesc in
/-- A PUT without a place raises STASH_FULL. -/
theorem stashPut_of_none (hk : s.takesNotices st (Device.noticeMbx x) 1) (h : c.takePlace = none) :
    s.dev.stashPut st j c = s.dev.raise st 9 Status.stashFull
      ((BitVec.ofNat 32 (dfield x 2 0 32)).setWidth 64) := by
  have hbad : s.dev.badNoticeMbx st (Device.noticeMbx x) = false := by
    rw [Device.badNoticeMbx, hk.1, hk.2.1]
    simp
  subst hdesc
  unfold Device.stashPut
  extract_lets x i tag
  rw [h]
  dsimp only
  rw [show s.dev.badNoticeMbx st (Device.noticeMbx x) = false from hbad, if_neg Bool.false_ne_true]

include hdesc in
/-- The end of a GET or FREE: its entry's fate, its code and its copy. -/
theorem stashGetFree_issued (hslot : j.slot = s.dev.slotOf st) (k : Fin 8) (get : Bool) {stash : Stash} {moves : List Move} {code : Code}
    (hstash : (if (get && (c.entry (dfield x 2 32 16)).tag ≠ BitVec.ofNat 32 (dfield x 2 0 32) &&
        !decide ((c.entry (dfield x 2 32 16)).state = 3)) = true then c
      else c.setEntry (dfield x 2 32 16) { c.entry (dfield x 2 32 16) with state := 0 }) = stash)
    (hmoves : (if (get && !decide ((c.entry (dfield x 2 32 16)).state = 3) &&
        !(get && (c.entry (dfield x 2 32 16)).tag ≠ BitVec.ofNat 32 (dfield x 2 0 32))) = true then
        [⟨if (c.entry (dfield x 2 32 16)).state = 1 then
            s.dev.slotAt st (s.dev.slotOf st) (c.loftSlot (c.entry (dfield x 2 32 16)).slot)
          else c.lp6Slot (c.entry (dfield x 2 32 16)).slot, s.dev.slotAt st (s.dev.slotOf st) (dfield x 1 0 32),
          (c.entry (dfield x 2 32 16)).bytes⟩] else []) = moves)
    (hcode : (if (get && decide ((c.entry (dfield x 2 32 16)).state = 3)) = true then Status.stashRecompute
      else if (get && (c.entry (dfield x 2 32 16)).tag ≠ BitVec.ofNat 32 (dfield x 2 0 32)) = true then
        Status.stashTagMismatch else Status.done) = code) :
    s.dev.JobIssued st k { j with moves := moves, stashCode := code } (some stash)
      ((s.dev.modMbx st k (Mailbox.booked 1)).stashGetFree st j c get) := by
  rw [← hslot] at hmoves
  subst hdesc hstash hmoves hcode
  exact Device.jobIssued_setStash (accessed_engWrite _ _ _ _ _) _ _

end

end

end Sys2Proof.Machine
end

section
/-! O32: BGET, BPUT and the stash operations at issue, assembled. -/

namespace Sys2Proof.Machine

/-- An exception changes its slot, and no byte of memory. -/
theorem took_sees {s t : State} {st : StallId} {cause : Nat} {code : Code} {info : W64} (h : s.took st cause code info t) :
    (s.dev.cur st).entered cause code info (t.dev.cur st) ∧ s.sameMemory t := by
  obtain ⟨-, hdev, -, -, -, hin⟩ := h
  refine ⟨hin, fun a => ?_⟩
  rw [hdev]
  rfl

/-- A job enqueued changes no byte of memory. -/
theorem rdByte_enqueued (e : Device) (st : StallId) (x : Option Stash) (j : BarrowJob) (a : Nat) :
    ((e.setStash st x).enqueueBarrow st j).rdByte a = e.rdByte a := rfl

/-- A job as a descriptor gives it, before its operation settles its moves and code. -/
structure BarrowJob.Fresh (j : BarrowJob) (sl : Slot) (p : Bool) (x : Vector W64 8) : Prop where
  slot : j.slot = sl
  put : j.put = p
  desc : j.desc = x
  accepted : j.accepted = false
  moves : j.moves = []
  code : j.stashCode = Status.done

section
variable {s : State} {st : StallId} {m : MFormat} {p : Bool} {i : Instr} (hi : s.issues st 1)
  (he : exec i s = .next (s.onDev fun d => d.issue st 1 fun d => d.barrowIssue st p m (Coeri.firstWord i)))
include hi he

/-- An instruction whose issue is known queues its job. -/
theorem completes_queuesJob {x : Vector W64 8} {k : Fin 8} {stash : Option Stash} {f : BarrowJob → Prop} (j : BarrowJob)
    (h : s.dev.JobIssued st k j stash (s.dev.barrowIssue st p m (Coeri.firstWord i)))
    (hslot : j.slot = s.dev.slotOf st) (hput : j.put = p) (hdesc : j.desc = x) (hacc : j.accepted = false) (hf : f j) :
    Completes i s (QueuesJob st k x p stash f s) :=
  completes_issue hi he (g := fun d => d.barrowIssue st p m (Coeri.firstWord i)) rfl
    (queuesJob_of (g := fun d => d.barrowIssue st p m (Coeri.firstWord i)) j h hslot hput hdesc hacc hf)

variable {x : Vector W64 8}

/-- A move of bytes is queued. -/
theorem completes_move (hx : s.descr st m.a = x) (hsel : m.sel = 0) (hb : m.b = 0) (hd : m.d = 0) (hn : s.namesDescr st m.a)
    (hq : ((s.dev.stall st).barrow.countP fun j => j.slot = s.dev.slotOf st) < 16)
    (hk : s.takesNotices st (Device.noticeMbx x) 1) (hkind : dfield x 0 0 4 ≠ 8) (hlegal : barrowLegal x = true)
    (hfit : s.regionsFit st [⟨dfield x 1 0 32,
      ((if dfield x 0 0 4 = 1 then dfield x 3 0 32 else 1) - 1) * dfield x 3 32 32 + dfield x 1 32 32, 64⟩]) :
    Completes i s (QueuesJob st (Device.noticeMbx x) x p (s.dev.cur st).stash (fun j => j.stash = false) s) := by
  have h := s.dev.jobIssued_enqueue st (Device.noticeMbx x)
    ((s.dev.modMbx st (Device.noticeMbx x) (Mailbox.booked 1)).newJob st p x)
  rw [← barrowIssue_move (w := Coeri.firstWord i) hx hsel hb hd hn hq hkind hlegal hfit hk] at h
  exact completes_queuesJob hi he _ h (s.dev.slotOf_modMbx st st _ _) rfl rfl rfl (decide_eq_false hkind)

variable {j : BarrowJob} (hj : j.Fresh (s.dev.slotOf st) p x)
  (hissue : s.dev.barrowIssue st p m (Coeri.firstWord i) = s.dev.stashIssue st j (Coeri.firstWord i))
include hj hissue

/-- A stash operation whose stash, moves and code are known. -/
theorem completes_stash {stash : Option Stash} {f : BarrowJob → Prop} (l : List Move) (c : Code)
    (o : Option (BitVec 32 × BitVec 32 × BitVec 32))
    (h : s.dev.JobIssued st (Device.noticeMbx x) { j with moves := l, stashCode := c, close := o } stash
      (s.dev.stashIssue st j (Coeri.firstWord i))) (hf : f { j with moves := l, stashCode := c, close := o }) :
    Completes i s (QueuesJob st (Device.noticeMbx x) x p stash f s) :=
  completes_queuesJob hi he { j with moves := l, stashCode := c, close := o } (hissue ▸ h) hj.slot hj.put hj.desc hj.accepted hf

variable (hk : s.takesNotices st (Device.noticeMbx x) 1)
include hk

/-- OPEN takes the control block. -/
theorem completes_open (hs : (s.dev.cur st).stash = none) (hop : dfield x 0 52 4 = 0) {b : Stash}
    (hblock : Stash.ofBlock (s.dev.rdBytes (s.dev.slotAt st (s.dev.slotOf st) (dfield x 1 0 32)) 64) = b)
    (hreg : s.regionsFit st [⟨dfield x 1 0 32, 64, 1⟩])
    (hclean : s.dev.clean (s.dev.slotAt st (s.dev.slotOf st) (dfield x 1 0 32)) 64)
    (hfit : s.regionsFit st [⟨b.dirBase, 16 * b.entries.length, 16⟩, ⟨b.loftBase, b.loftSlots * b.slotBytes, 4096⟩])
    (hlen : 0 < b.entries.length) (hmax : b.entries.length ≤ 4096) (hslot : 0 < b.slotBytes) (hpage : b.slotBytes % 4096 = 0)
    (hbig : b.slotBytes ≤ 1048576) (hloft : b.loftSlots ≤ 4095) (hbase : b.lp6Base % 4096 = 0) :
    Completes i s (QueuesJob st (Device.noticeMbx x) x p (some b) (fun j => j.moves = [] ∧ j.stashCode = Status.done) s) ∧
    ∃ t, exec i s = .next t ∧
      ∀ q, q < 16 * b.entries.length → t.dev.rdByte (s.dev.slotAt st (s.dev.slotOf st) b.dirBase + q) = 0 := by
  have hread := engRead_clean s.dev st (s.dev.slotOf st) (dfield x 1 0 32) 64 hclean
  rw [← hj.slot] at hread
  have hopen := (stashIssue_open (w := Coeri.firstWord i) hj.desc hs hop hreg).trans
    (stashOpen_of_read hj.desc hread (hj.slot ▸ hblock) hlen hmax hslot hpage hbig hloft hbase hfit hk)
  have h := Device.jobIssued_setStash (d := s.dev) (k := Device.noticeMbx x) (st := st)
    (accessed_engWrite _ st j.slot b.dirBase (List.replicate (16 * b.entries.length) 0))
    { j with stashCode := Status.done } (some b)
  rw [← hopen] at h
  refine ⟨completes_stash hi he hj hissue j.moves Status.done j.close h ⟨hj.moves, rfl⟩,
    _, he.trans (congrArg Host.Outcome.next (onDev_issue hi _)), fun q hq' => ?_⟩
  change (s.dev.barrowIssue st p m (Coeri.firstWord i)).rdByte _ = 0
  have hdir : b.dirBase % 16 = 0 := (hfit _ (List.mem_cons_self ..)).2
  rw [hissue, hopen, ← hj.slot, rdByte_enqueued]
  exact rdByte_cleared _ st _ b.dirBase b.entries.length q (by omega) hq'

variable {c : Stash} (hs : (s.dev.cur st).stash = some c)
include hs

/-- PUT with a place fills its entry. -/
theorem completes_put (hop : dfield x 0 52 4 = 1) (hreg : s.regionsFit st [⟨dfield x 1 0 32, dfield x 1 32 32, 1⟩])
    {c' : Stash} {state : BitVec 2} {k : Nat} {sp : Option (Nat × Nat × Nat)} (h : c.takePlace = some (c', state, k, sp)) :
    Completes i s (QueuesJob st (Device.noticeMbx x) x p
      (some { c'.setEntry (dfield x 2 32 16) ⟨state, decide (dfield x 0 48 1 = 1), BitVec.ofNat 32 (dfield x 2 0 32), c.seq,
        dfield x 1 32 32, k⟩ with seq := c.seq + 1 })
      (fun j => j.stashCode = Status.done ∧ ∃ sp, j.moves = sp ++
        [⟨s.dev.slotAt st (s.dev.slotOf st) (dfield x 1 0 32),
          if state = 1 then s.dev.slotAt st (s.dev.slotOf st) (c.loftSlot k) else c.lp6Slot k, dfield x 1 32 32⟩]) s) := by
  obtain ⟨l, hl⟩ := stashPut_of_place hj.desc hj.slot hk h
  rw [← stashIssue_put (w := Coeri.firstWord i) hj.desc hs hop hreg] at hl
  exact completes_stash hi he hj hissue _ j.stashCode j.close hl ⟨hj.code, l, rfl⟩

/-- PUT without a place takes STASH_FULL. -/
theorem completes_full (hop : dfield x 0 52 4 = 1) (hreg : s.regionsFit st [⟨dfield x 1 0 32, dfield x 1 32 32, 1⟩])
    (h : c.takePlace = none) (hact : flag ((s.dev.cur st).getCr 0x01) 0 = false) : Completes i s fun t =>
      (s.dev.cur st).entered 9 Status.stashFull ((BitVec.ofNat 32 (dfield x 2 0 32)).setWidth 64) (t.dev.cur st) ∧
        s.sameMemory t := by
  have hraise := hissue.trans ((stashIssue_put hj.desc hs hop hreg).trans (stashPut_of_none hj.desc hk h))
  exact (completes_issue hi he hraise (raise_took s st 9 _ _ hact)).imp fun t ht => ⟨ht.1, took_sees ht.2⟩

/-- GET of an entry: its copy and its code. -/
theorem completes_get (hop : dfield x 0 52 4 = 2)
    (hreg : (c.entry (dfield x 2 32 16)).bytes = 0 ∨
      s.regionsFit st [⟨dfield x 1 0 32, (c.entry (dfield x 2 32 16)).bytes, 1⟩]) :
    let e := c.entry (dfield x 2 32 16)
    let tag : W32 := BitVec.ofNat 32 (dfield x 2 0 32)
    let queues := fun stash f => Completes i s (QueuesJob st (Device.noticeMbx x) x p (some stash) f s)
    (e.state ≠ 3 → e.tag = tag → queues (c.setEntry (dfield x 2 32 16) { e with state := 0 }) fun j =>
      j.stashCode = Status.done ∧ j.moves =
        [⟨if e.state = 1 then s.dev.slotAt st (s.dev.slotOf st) (c.loftSlot e.slot) else c.lp6Slot e.slot,
          s.dev.slotAt st (s.dev.slotOf st) (dfield x 1 0 32), e.bytes⟩]) ∧
    (e.state ≠ 3 → e.tag ≠ tag → queues c fun j => j.moves = [] ∧ j.stashCode = Status.stashTagMismatch) ∧
    (e.state = 3 → queues (c.setEntry (dfield x 2 32 16) { e with state := 0 }) fun j =>
      j.moves = [] ∧ j.stashCode = Status.stashRecompute) := by
  have hget := stashIssue_get (w := Coeri.firstWord i) hj.desc hs hk hop hreg
  have hends := fun stash moves code => stashGetFree_issued (s := s) (st := st) (c := c) hj.desc hj.slot (Device.noticeMbx x) true
    (stash := stash) (moves := moves) (code := code)
  rw [← hget] at hends
  generalize c.entry (dfield x 2 32 16) = e at hends ⊢
  dsimp only
  refine ⟨fun hst htag => ?_, fun hst htag => ?_, fun hst => ?_⟩
  · rw [decide_eq_false (not_not.mpr htag), decide_eq_false hst] at hends
    exact completes_stash hi he hj hissue _ _ j.close (hends _ _ _ rfl rfl rfl) ⟨rfl, rfl⟩
  · rw [decide_eq_true htag, decide_eq_false hst] at hends
    exact completes_stash hi he hj hissue _ _ j.close (hends _ _ _ rfl rfl rfl) ⟨rfl, rfl⟩
  · rw [decide_eq_true hst, Bool.not_true, Bool.and_false, Bool.and_false, Bool.false_and] at hends
    exact completes_stash hi he hj hissue _ _ j.close (hends _ _ _ rfl rfl rfl) ⟨rfl, rfl⟩

/-- FREE of an entry. -/
theorem completes_free (hop : dfield x 0 52 4 = 3) : Completes i s
    (QueuesJob st (Device.noticeMbx x) x p
      (some (c.setEntry (dfield x 2 32 16) { c.entry (dfield x 2 32 16) with state := 0 }))
      (fun j => j.moves = [] ∧ j.stashCode = Status.done) s) := by
  have h := stashGetFree_issued (s := s) (st := st) (c := c) hj.desc hj.slot (Device.noticeMbx x) false rfl rfl rfl
  rw [← stashIssue_free (w := Coeri.firstWord i) hj.desc hs hk hop] at h
  exact completes_stash hi he hj hissue _ _ j.close h ⟨rfl, rfl⟩

/-- CLOSE gives the stash up. -/
theorem completes_close (hop : dfield x 0 52 4 = 4) (hreg : s.regionsFit st [⟨dfield x 1 0 32, 64, 1⟩]) : Completes i s
    (QueuesJob st (Device.noticeMbx x) x p none (fun j => j.close = some (c.seq, c.spills, c.drops)) s) := by
  have h := Device.jobIssued_setStash (Device.Accessed.refl (s.dev.modMbx st (Device.noticeMbx x) (Mailbox.booked 1)))
    { j with close := some (c.seq, c.spills, c.drops) } none
  rw [← stashIssue_close (w := Coeri.firstWord i) hj.desc hs hk hop hreg] at h
  exact completes_stash hi he hj hissue j.moves j.stashCode _ h rfl

end

/-- Settles O32: a legal descriptor passes its checks, settles the directory, and leaves one job in the queue. -/
theorem barrowInstructions : Obligations.BarrowInstructions := by
  intro st put m s hi hsel hb hd hn slot sl x k op at_ queues hq hk
  obtain ⟨y, hy⟩ : ∃ y, s.descr st m.a = y := ⟨_, rfl⟩
  have hxy : x = y := hy
  clear_value x
  subst hxy
  obtain ⟨j, hj⟩ : ∃ j, s.dev.newJob st put x = j := ⟨_, rfl⟩
  have hfresh : j.Fresh sl put x := by subst hj; exact ⟨rfl, rfl, rfl, rfl, rfl, rfl⟩
  have hissue (hkind : dfield x 0 0 4 = 8) (hlegal : stashLegal x slot.stash = true) (w : W32) :
      s.dev.barrowIssue st put m w = s.dev.stashIssue st j w := hj ▸ barrowIssue_stash hy hsel hb hd hn hq hkind hlegal
  refine ⟨fun hkind hlegal hfit => ⟨completes_move hi rfl hy hsel hb hd hn hq hk hkind hlegal hfit,
      completes_move hi rfl hy hsel hb hd hn hq hk hkind hlegal hfit⟩, fun hkind hlegal => ⟨fun hs => ?_, fun c hs => ?_⟩⟩
  · have hop : dfield x 0 52 4 = 0 := by
      unfold stashLegal at hlegal
      rw [hs] at hlegal
      exact of_decide_eq_true (Bool.and_eq_true_iff.mp hlegal).2
    intro b hreg hclean hfit hlen hmax hslot hpage hbig hloft hbase
    exact completes_open (i := .stashOpen st put m) hi rfl
      hfresh (hissue hkind hlegal _) hk hs hop rfl hreg hclean hfit hlen hmax hslot hpage hbig hloft hbase
  · refine ⟨fun hop hreg => ⟨fun c' state k sp h => ?_, fun h hx => ?_⟩, fun hop hreg => ?_, fun hop => ?_, fun hop hreg => ?_⟩
    · exact completes_put hi rfl hfresh (hissue hkind hlegal _) hk hs hop hreg h
    · exact completes_full hi rfl hfresh (hissue hkind hlegal _) hk hs hop hreg h hx
    · exact completes_get hi rfl hfresh (hissue hkind hlegal _) hk hs hop hreg
    · exact completes_free hi rfl hfresh (hissue hkind hlegal _) hk hs hop
    · exact completes_close hi rfl hfresh (hissue hkind hlegal _) hk hs hop hreg

end Sys2Proof.Machine
end

section
/-! The drover's instructions at issue: SUBMIT, SIDING, RELEASE and PERMSET (R384 to R391). -/

namespace Sys2Proof.Machine

/-- The instruction wrote v to scalar register d and retired; it changed no other stall and no byte of memory. -/
def State.wroteAlone (st : StallId) (d : SReg) (v : W64) (s t : State) : Prop :=
  (s.dev.cur st).retired 1 (t.dev.cur st) ∧
    (∀ r, t.dev.sreg st r = if r = d ∧ r ≠ 0 then v else s.dev.sreg st r) ∧
    (∀ u, u ≠ st → t.dev.stall u = s.dev.stall u) ∧ s.sameMemory t

/-- A slot is no business of what an instruction does with the mailboxes of its stall. -/
def Stall.bookedAt (k : Fin 8) (f : Mailbox → Mailbox) (s : Stall) : Stall := { s with mbx := upd s.mbx k f }

section
variable {s : State} {st : StallId} {d : SReg} {v : W64} {f : Stall → Stall}

theorem wroteAlone_of {u : Device} (h : s.dev.Issued st f (fun c => c.setS d v) u) (hslot : ∀ x, (f x).slot = x.slot)
    (hb : Device.SameBytes s.dev u) : s.wroteAlone st d v (s.onDev fun _ => u) := by
  refine ⟨?_, fun r => ?_, fun w hw => h.other hw, fun a => hb.rdByte a⟩
  · change (s.dev.cur st).retired 1 (u.cur st)
    rw [h.cur (hslot _)]
    exact SlotCtx.retired_setS _ 1 d v
  · change u.sreg st r = _
    rw [h.sreg (hslot _), SlotCtx.getS_setS]
    rfl

/-- The end of an instruction that writes a register, after a change of the stall outside its slots. -/
theorem issued_done (e : Device) (he : e.stalls = (s.dev.modStall st f).stalls) (hslot : ∀ x, (f x).slot = x.slot)
    (hcur : ∀ x, (f x).cur = x.cur) :
    s.dev.Issued st f (fun c => c.setS d v) ((e.setSreg st d v).retire st 1) := Device.issued_modCur _ e st f _ he hslot hcur

theorem setSreg_zero (e : Device) : e.setSreg st 0 0 = e := by
  refine e.modStall_id st _ ?_
  rw [Stall.modCtx, SlotCtx.setS_zero, Stall.setCtx_ctx]

end

end Sys2Proof.Machine
end

section
/-! O34: SIDING and RELEASE (R389, R390). -/

namespace Sys2Proof.Machine

namespace Device

section
variable (d : Device) (st : StallId) (sl : Slot) (i : Fin 8) (q : Siding)

theorem siding_dropSiding_same : (d.dropSiding st sl i).siding st sl i = none := by
  have h : (d.sidings.filter fun p => p.1 ≠ (st, sl, i)).find? (fun p => p.1 = (st, sl, i)) = none :=
    List.find?_eq_none.mpr fun p hp => by simpa using (List.mem_filter.mp hp).2
  unfold dropSiding siding
  rw [h]
  rfl

theorem siding_setSiding_same : (d.setSiding st sl i q).siding st sl i = some q := by
  have h : (d.sidings.filter fun p => p.1 ≠ (st, sl, i)).find? (fun p => p.1 = (st, sl, i)) = none :=
    List.find?_eq_none.mpr fun p hp => by simpa using (List.mem_filter.mp hp).2
  unfold setSiding siding
  rw [List.find?_append, h]
  simp

variable {k : Fin 8} (hk : k ≠ i)
include hk

theorem find_others : (d.sidings.filter fun p => p.1 ≠ (st, sl, i)).find? (fun p => p.1 = (st, sl, k)) =
    d.sidings.find? fun p => p.1 = (st, sl, k) := by
  rw [List.find?_filter]
  refine congrArg (fun f => List.find? f d.sidings) (funext fun p => ?_)
  by_cases hp : p.1 = (st, sl, k)
  · have hne : p.1 ≠ (st, sl, i) := by
      rw [hp]
      simpa using hk
    simp [hp, hk]
  · simp [hp]

theorem siding_dropSiding_ne : (d.dropSiding st sl i).siding st sl k = d.siding st sl k := by
  unfold siding dropSiding
  rw [d.find_others st sl i hk]

theorem siding_setSiding_ne : (d.setSiding st sl i q).siding st sl k = d.siding st sl k := by
  have hne : ((st, sl, i) : StallId × Slot × Fin 8) ≠ (st, sl, k) := by simpa using fun h => hk h.symm
  unfold siding setSiding
  rw [List.find?_append, d.find_others st sl i hk, List.find?_singleton, if_neg (by simpa using fun h => hk h.symm),
    Option.or_none]

end

end Device

section
variable {s : State} {st : StallId} {m : MFormat} {w : W32}

/-- An instruction that ends by writing a register, after changes outside the slots. -/
theorem completes_done {i : Instr} {f : Device → Device} {g : Stall → Stall} {e : Device} {d : SReg} {v : W64}
    {Q : State → Prop} (hi : s.issues st 1) (he : exec i s = .next (s.onDev fun d => d.issue st 1 f))
    (hf : f s.dev = (e.setSreg st d v).retire st 1) (hst : e.stalls = (s.dev.modStall st g).stalls)
    (hslot : ∀ x, (g x).slot = x.slot) (hcur : ∀ x, (g x).cur = x.cur) (hb : Device.SameBytes s.dev e)
    (hq : ∀ u : Device, s.dev.Issued st g (fun c => c.setS d v) u → u.sidings = e.sidings → u.drovers = e.drovers →
      u.forges = e.forges → s.wroteAlone st d v (s.onDev fun _ => u) → Q (s.onDev fun _ => u)) : Completes i s Q := by
  have h := issued_done (s := s) (d := d) (v := v) e hst hslot hcur
  exact completes_issue hi he (g := fun _ => (e.setSreg st d v).retire st 1) hf
    (hq _ h rfl rfl rfl (wroteAlone_of h hslot hb))

section
variable (hsel : m.sel = 0)
include hsel

/-- A siding in use answers 1. -/
theorem droveSiding_busy {q : Siding} (hopen : flag (s.dev.sreg st m.b) 16 = false)
    (hd : 2 ≤ field (s.dev.sreg st m.b) 3 3 + 1) (hc : 0 < field (s.dev.sreg st m.b) 8 8 * 4096)
    (hc' : field (s.dev.sreg st m.b) 8 8 * 4096 ≤ 128 * 4096)
    (hfit : (s.dev.sreg st m.a).toNat + (field (s.dev.sreg st m.b) 3 3 + 1) * (field (s.dev.sreg st m.b) 8 8 * 4096) ≤
      s.dev.loftLimit st (s.dev.slotOf st)) (hal : (s.dev.sreg st m.a).toNat % 4096 = 0)
    (hq : s.dev.siding st (s.dev.slotOf st) (Fin.ofNat 8 (field (s.dev.sreg st m.b) 0 3)) = some q)
    (hbusy : q.occupied ≠ 0 ∨ q.reserved ≠ 0) :
    s.dev.droveSiding st m w = (s.dev.setSreg st m.d 1).retire st 1 := by
  unfold Device.droveSiding
  extract_lets sl a b i depth chunk done busy release
  have hdepth : 2 ≤ depth := hd
  have hmin : 0 < chunk := hc
  have hmax : chunk ≤ 128 * 4096 := hc'
  have hpos : 0 < depth * chunk := Nat.mul_pos (by omega) hc
  have hlt : a.toNat + depth * chunk ≤ s.dev.loftLimit st sl := hfit
  have hb : busy = true := by
    dsimp only [busy]
    rw [hq]
    simpa using hbusy
  have hnf : ¬ flag b 16 = true := by rw [hopen]; exact Bool.false_ne_true
  rw [if_neg (not_not.mpr hsel), if_neg hnf, if_neg (by omega), if_neg (not_not.mpr hal), if_neg (by omega), if_pos hb]

/-- A siding that is not in use opens. -/
theorem droveSiding_opens (hopen : flag (s.dev.sreg st m.b) 16 = false)
    (hd : 2 ≤ field (s.dev.sreg st m.b) 3 3 + 1) (hc : 0 < field (s.dev.sreg st m.b) 8 8 * 4096)
    (hc' : field (s.dev.sreg st m.b) 8 8 * 4096 ≤ 128 * 4096)
    (hfit : (s.dev.sreg st m.a).toNat + (field (s.dev.sreg st m.b) 3 3 + 1) * (field (s.dev.sreg st m.b) 8 8 * 4096) ≤
      s.dev.loftLimit st (s.dev.slotOf st)) (hal : (s.dev.sreg st m.a).toNat % 4096 = 0)
    (hq : s.dev.siding st (s.dev.slotOf st) (Fin.ofNat 8 (field (s.dev.sreg st m.b) 0 3)) = none) :
    s.dev.droveSiding st m w =
      ((s.dev.setSiding st (s.dev.slotOf st) (Fin.ofNat 8 (field (s.dev.sreg st m.b) 0 3))
        { base := (s.dev.sreg st m.a).toNat, depth := field (s.dev.sreg st m.b) 3 3 + 1
          chunk := field (s.dev.sreg st m.b) 8 8 * 4096, occupied := 0, reserved := 0, landNext := 0
          freeNext := 0, notices := 0, mbx := 0 }).setSreg st m.d 0).retire st 1 := by
  unfold Device.droveSiding
  extract_lets sl a b i depth chunk done busy release
  have hdepth : 2 ≤ depth := hd
  have hmin : 0 < chunk := hc
  have hmax : chunk ≤ 128 * 4096 := hc'
  have hpos : 0 < depth * chunk := Nat.mul_pos (by omega) hc
  have hlt : a.toNat + depth * chunk ≤ s.dev.loftLimit st sl := hfit
  have hb : ¬ busy = true := by
    dsimp only [busy]
    rw [hq]
    exact Bool.false_ne_true
  have hr : release s.dev = s.dev := by
    dsimp only [release]
    rw [hq]
  have hnf : ¬ flag b 16 = true := by rw [hopen]; exact Bool.false_ne_true
  rw [if_neg (not_not.mpr hsel), if_neg hnf, if_neg (by omega), if_neg (not_not.mpr hal), if_neg (by omega), if_neg hb, hr]

/-- A siding that is not in use closes, and gives its notice slots back. -/
theorem droveSiding_closes {q : Siding} (hclose : flag (s.dev.sreg st m.b) 16 = true)
    (hq : s.dev.siding st (s.dev.slotOf st) (Fin.ofNat 8 (field (s.dev.sreg st m.b) 0 3)) = some q)
    (ho : q.occupied = 0) (hr : q.reserved = 0) :
    s.dev.droveSiding st m w =
      (((s.dev.modMbx st q.mbx fun x => { x with inflight := x.inflight - q.notices, free := x.free + q.notices }).dropSiding
        st (s.dev.slotOf st) (Fin.ofNat 8 (field (s.dev.sreg st m.b) 0 3))).setSreg st m.d 0).retire st 1 := by
  unfold Device.droveSiding
  extract_lets sl a b i depth chunk done busy release
  have hb : ¬ busy = true := by
    dsimp only [busy]
    rw [hq]
    simp [ho, hr]
  have hrel : release s.dev =
      s.dev.modMbx st q.mbx fun x => { x with inflight := x.inflight - q.notices, free := x.free + q.notices } := by
    dsimp only [release]
    rw [hq]
  rw [if_neg (not_not.mpr hsel), if_pos hclose, if_neg hb, hrel]

/-- What RELEASE does with the siding that it names. -/
theorem droveRelease_of {q : Siding} (ha : m.a = 0) (hd : m.d = 0)
    (hq : s.dev.siding st (s.dev.slotOf st) (Fin.ofNat 8 (field (s.dev.sreg st m.b) 0 3)) = some q)
    (h1 : 1 ≤ field (s.dev.sreg st m.b) 8 4) (h8 : field (s.dev.sreg st m.b) 8 4 ≤ 8) :
    s.dev.droveRelease st m w =
      let k := min (field (s.dev.sreg st m.b) 8 4) q.occupied
      if k = 0 then s.dev.retire st 1
      else if (s.dev.mbx st q.mbx).free < k then s.dev
      else ((s.dev.modMbx st q.mbx (Mailbox.booked k)).setSiding st (s.dev.slotOf st)
        (Fin.ofNat 8 (field (s.dev.sreg st m.b) 0 3)) { q with
          occupied := q.occupied - k, freeNext := (q.freeNext + k) % q.depth, notices := q.notices + k }).retire st 1 := by
  unfold Device.droveRelease
  extract_lets sl b i n k
  have hn1 : 1 ≤ n := h1
  have hn8 : n ≤ 8 := h8
  have hform : ¬ (m.sel ≠ 0 ∨ m.a ≠ 0 ∨ m.d ≠ 0 ∨ n = 0 ∨ 8 < n) := by
    rintro (h | h | h | h | h)
    · exact h hsel
    · exact h ha
    · exact h hd
    · omega
    · omega
  rw [if_neg hform, hq]
  dsimp only
  refine congrArg (ite (k = 0) _) ?_
  by_cases hfree : (s.dev.mbx st q.mbx).free < k
  · rw [if_pos hfree, show s.dev.reserve st q.mbx (min n q.occupied) = none from if_pos hfree]
  · rw [if_neg hfree, show s.dev.reserve st q.mbx (min n q.occupied) = some _ from if_neg hfree]
    rfl

end

end

end Sys2Proof.Machine
end

section
/-! O34: SUBMIT, SIDING, RELEASE and PERMSET at issue, assembled (R384 to R391). -/

namespace Sys2Proof.Machine

section
variable {s : State} {st : StallId} {m : MFormat} {w : W32}

/-- An instruction that changes nothing but mailboxes and engines, and retires. -/
theorem completes_retired {i : Instr} {f : Device → Device} {g : Stall → Stall} {e : Device}
    {Q : State → Prop} (hi : s.issues st 1) (he : exec i s = .next (s.onDev fun d => d.issue st 1 f))
    (hf : f s.dev = e.retire st 1) (hst : e.stalls = (s.dev.modStall st g).stalls)
    (hslot : ∀ x, (g x).slot = x.slot) (hcur : ∀ x, (g x).cur = x.cur) (hb : Device.SameBytes s.dev e)
    (hq : ∀ u : Device, s.dev.Issued st g (fun c => c.setS 0 0) u → u.sidings = e.sidings → u.drovers = e.drovers →
      u.forges = e.forges → s.wroteAlone st 0 0 (s.onDev fun _ => u) → Q (s.onDev fun _ => u)) : Completes i s Q :=
  completes_done (d := 0) (v := 0) hi he (by rw [setSreg_zero]; exact hf) hst hslot hcur hb hq

/-! ### SUBMIT -/

/-- What a submission leaves: its notice slots reserved, its team's next number taken, its job queued. -/
def Device.droveQueuedUp (d : Device) (st : StallId) (x : Vector W64 8) (n : Nat) (l : List ((StallId × Slot × Fin 8) × Siding)) :
    Device :=
  let y := Device.yardOf st
  let t : Fin 64 := Fin.ofNat 64 (dfield x 0 42 6)
  ({ (d.modMbx st (Device.noticeMbx x) (Mailbox.booked n)).modTeam y t fun _ => (Device.takeSeq (d.team y t) x).2 with
      sidings := l } : Device).modDrover y fun v =>
    { v with jobs := v.jobs ++ [⟨st, d.slotOf st, x, (Device.takeSeq (d.team y t) x).1, n⟩] }

/-- A legal descriptor is queued. -/
theorem droveSubmit_legal {x : Vector W64 8} (hx : s.descr st m.a = x) (hsel : m.sel = 0) (hb : m.b = 0) (hd : m.d = 0)
    (hn : s.namesDescr st m.a)
    (hq : s.dev.droveQueued st (s.dev.slotOf st) + s.dev.droveAccepted st (s.dev.slotOf st) < 16)
    (hlegal : s.dev.droveLegal st x = true)
    (hfit : s.regionsFit st (⟨dfield x 3 0 32, 64, 64⟩ :: if dfield x 0 34 2 = 2 then [⟨dfield x 3 32 32, 64, 64⟩] else []))
    (hk : s.takesNotices st (Device.noticeMbx x) (1 + (if dfield x 0 39 1 = 1 then
      ((s.dev.siding st (s.dev.slotOf st) (Fin.ofNat 8 (dfield x 0 36 3))).map Siding.depth).getD 0 else 0))) :
    ∃ l, s.dev.droveSubmit st m w = (s.dev.droveQueuedUp st x (1 + (if dfield x 0 39 1 = 1 then
      ((s.dev.siding st (s.dev.slotOf st) (Fin.ofNat 8 (dfield x 0 36 3))).map Siding.depth).getD 0 else 0)) l).retire st 1 := by
  have hform : ¬ (m.sel ≠ 0 ∨ m.b ≠ 0 ∨ m.d ≠ 0) := fun h => h.elim (absurd hsel) fun h => h.elim (absurd hb) (absurd hd)
  unfold Device.droveSubmit
  extract_lets sl y
  rw [if_neg hform, if_neg (Nat.not_le.mpr hq), withDescr_of_names hn, hx]
  rw [hlegal, Bool.not_true, if_neg Bool.false_ne_true]
  rw [s.dev.checkRegions_fit st _ _ hfit]
  dsimp only
  rw [Device.withNotices_of_takes hk]
  split
  · exact ⟨_, rfl⟩
  · exact ⟨_, rfl⟩

section
variable (d : Device) (st : StallId) (x : Vector W64 8) (n : Nat) (l : List ((StallId × Slot × Fin 8) × Siding))

theorem jobs_droveQueuedUp : (d.droveQueuedUp st x n l).drovers[Device.yardOf st].jobs = d.drovers[Device.yardOf st].jobs ++
    [⟨st, d.slotOf st, x, (Device.takeSeq (d.team (Device.yardOf st) (Fin.ofNat 64 (dfield x 0 42 6))) x).1, n⟩] := by
  simp only [Device.droveQueuedUp, Device.modDrover, Device.modTeam, upd_same]
  rfl

theorem team_droveQueuedUp (v : Fin 64) : (d.droveQueuedUp st x n l).team (Device.yardOf st) v =
    if v = Fin.ofNat 64 (dfield x 0 42 6) then
      (Device.takeSeq (d.team (Device.yardOf st) (Fin.ofNat 64 (dfield x 0 42 6))) x).2
    else d.team (Device.yardOf st) v := by
  have h : (d.droveQueuedUp st x n l).team (Device.yardOf st) v =
      (d.modTeam (Device.yardOf st) (Fin.ofNat 64 (dfield x 0 42 6)) fun _ =>
        (Device.takeSeq (d.team (Device.yardOf st) (Fin.ofNat 64 (dfield x 0 42 6))) x).2).team (Device.yardOf st) v := by
    simp only [Device.team, Device.droveQueuedUp, Device.modDrover, Device.modTeam, upd_same]
    rfl
  rw [h]
  split
  · next hv => rw [hv, team_modTeam_same]
  · next hv => exact team_modTeam_ne d _ _ _ _ hv

end

/-- A submission of another OP than SEND takes the team's next number. -/
theorem takeSeq_next (t : Team) {x : Vector W64 8} (h : dfield x 0 52 4 ≠ 2) :
    (Device.takeSeq t x).2 = { t with nextSeq := t.nextSeq + 1 } := by
  rw [Device.takeSeq, if_neg h]

/-- SUBMIT of a legal descriptor. -/
theorem completes_submit {c : Instr} (hi : s.issues st 1)
    (he : exec c s = .next (s.onDev fun d => d.issue st 1 fun d => d.droveSubmit st m w))
    {x : Vector W64 8} (hx : s.descr st m.a = x) (hsel : m.sel = 0) (hb : m.b = 0) (hd : m.d = 0)
    (hn : s.namesDescr st m.a)
    (hq : s.dev.droveQueued st (s.dev.slotOf st) + s.dev.droveAccepted st (s.dev.slotOf st) < 16)
    (hlegal : s.dev.droveLegal st x = true)
    (hfit : s.regionsFit st (⟨dfield x 3 0 32, 64, 64⟩ :: if dfield x 0 34 2 = 2 then [⟨dfield x 3 32 32, 64, 64⟩] else []))
    {n : Nat} (hcount : 1 + (if dfield x 0 39 1 = 1 then
      ((s.dev.siding st (s.dev.slotOf st) (Fin.ofNat 8 (dfield x 0 36 3))).map Siding.depth).getD 0 else 0) = n)
    (hk : s.takesNotices st (Device.noticeMbx x) n) :
    let y := Device.yardOf st
    let t : Fin 64 := Fin.ofNat 64 (dfield x 0 42 6)
    Completes c s fun u =>
      u.dev.drovers[y].jobs = s.dev.drovers[y].jobs ++ [⟨st, s.dev.slotOf st, x, (Device.takeSeq (s.dev.team y t) x).1, n⟩] ∧
      s.reserved st (Device.noticeMbx x) n u ∧ u.dev.team y t = (Device.takeSeq (s.dev.team y t) x).2 ∧
      (dfield x 0 52 4 ≠ 2 → u.dev.team y t = { s.dev.team y t with nextSeq := (s.dev.team y t).nextSeq + 1 }) ∧
      (∀ v, v ≠ t → u.dev.team y v = s.dev.team y v) ∧ s.wroteAlone st 0 0 u := by
  intro y t
  subst hcount
  obtain ⟨l, hl⟩ := droveSubmit_legal (w := w) hx hsel hb hd hn hq hlegal hfit hk
  generalize 1 + (if dfield x 0 39 1 = 1 then
      ((s.dev.siding st (s.dev.slotOf st) (Fin.ofNat 8 (dfield x 0 36 3))).map Siding.depth).getD 0 else 0) = n at hl
  refine completes_retired hi he hl (g := Stall.bookedAt (Device.noticeMbx x) (Mailbox.booked n)) rfl (fun _ => rfl)
    (fun _ => rfl) ⟨rfl, rfl⟩ fun u hu _ hdr _ hw => ?_
  have hteam (v : Fin 64) : u.team y v = _ := (congrArg (fun z : Vector Drover 2 => z[y].teams[v]) hdr).trans
    (team_droveQueuedUp s.dev st x n l v)
  refine ⟨?_, (hu.mbx _).trans (upd_same _ _ _), ?_, fun hop => ?_, fun v hv => ?_, hw⟩
  · exact (congrArg (fun z : Vector Drover 2 => z[y].jobs) hdr).trans (jobs_droveQueuedUp s.dev st x n l)
  · exact (hteam t).trans (if_pos rfl)
  · exact ((hteam t).trans (if_pos rfl)).trans (takeSeq_next _ hop)
  · exact (hteam v).trans (if_neg hv)

end

end Sys2Proof.Machine
end

section
/-! O34: SIDING, RELEASE and PERMSET, and the obligation. -/

namespace Sys2Proof.Machine

/-- An instruction that changes nothing outside its slot leaves its stall's mailboxes. -/
theorem completes_wroteScalar {s : State} {st : StallId} {i : Instr} {f : Device → Device} {d : SReg} {v : W64} (hi : s.issues st 1)
    (he : exec i s = .next (s.onDev fun d => d.issue st 1 f)) (hf : f s.dev = (s.dev.setSreg st d v).retire st 1) :
    Completes i s (s.wroteScalar st 1 d v) :=
  completes_issue hi he (g := fun dev => (dev.setSreg st d v).retire st 1) hf (wroteScalar_retire s st 1 d v)

/-- The mailbox of a closed siding takes its notice slots back. -/
def Mailbox.refilled (n : Nat) (m : Mailbox) : Mailbox := { m with inflight := m.inflight - n, free := m.free + n }

section
variable {s : State} {st : StallId} {m : MFormat} (hi : s.issues st 1)
include hi

/-- SIDING opens. -/
theorem completes_sidingOpens (i : Fin 8) {q : Siding}
    (h : s.dev.droveSiding st m (Coeri.firstWord (.siding st m)) =
      ((s.dev.setSiding st (s.dev.slotOf st) i q).setSreg st m.d 0).retire st 1) :
    Completes (.siding st m) s fun u => s.wroteAlone st m.d 0 u ∧ u.dev.siding st (s.dev.slotOf st) i = some q ∧
      ∀ k, k ≠ i → u.dev.siding st (s.dev.slotOf st) k = s.dev.siding st (s.dev.slotOf st) k := by
  refine completes_done hi (f := fun d => d.droveSiding st m (Coeri.firstWord (.siding st m))) rfl h (g := fun x => x) ?_
    (fun _ => rfl) (fun _ => rfl) ⟨rfl, rfl⟩ fun u _ hsid _ _ hw => ⟨hw, ?_, fun k hk => ?_⟩
  · exact (upd_id s.dev.stalls st (fun x => x) rfl).symm
  · have h := s.dev.siding_setSiding_same st (s.dev.slotOf st) i q
    unfold Device.siding at h ⊢
    rw [State.onDev_dev, hsid]
    exact h
  · have h := s.dev.siding_setSiding_ne st (s.dev.slotOf st) i q hk
    unfold Device.siding at h ⊢
    rw [State.onDev_dev, hsid]
    exact h

/-- SIDING closes. -/
theorem completes_sidingCloses (i : Fin 8) {q : Siding}
    (h : s.dev.droveSiding st m (Coeri.firstWord (.siding st m)) =
      (((s.dev.modMbx st q.mbx (Mailbox.refilled q.notices)).dropSiding st (s.dev.slotOf st) i).setSreg st m.d 0).retire st 1) :
    Completes (.siding st m) s fun u => s.wroteAlone st m.d 0 u ∧ u.dev.siding st (s.dev.slotOf st) i = none ∧
      (u.dev.mbx st q.mbx).free = (s.dev.mbx st q.mbx).free + q.notices ∧
      ∀ k, k ≠ i → u.dev.siding st (s.dev.slotOf st) k = s.dev.siding st (s.dev.slotOf st) k := by
  refine completes_done hi (f := fun d => d.droveSiding st m (Coeri.firstWord (.siding st m))) rfl h
    (g := Stall.bookedAt q.mbx (Mailbox.refilled q.notices)) rfl (fun _ => rfl) (fun _ => rfl) ⟨rfl, rfl⟩
    fun u hu hsid _ _ hw => ⟨hw, ?_, ?_, fun k hk => ?_⟩
  · have h := s.dev.siding_dropSiding_same st (s.dev.slotOf st) i
    unfold Device.siding at h ⊢
    rw [State.onDev_dev, hsid]
    exact h
  · exact congrArg Mailbox.free ((hu.mbx q.mbx).trans (upd_same _ _ _))
  · have h := s.dev.siding_dropSiding_ne st (s.dev.slotOf st) i hk
    unfold Device.siding at h ⊢
    rw [State.onDev_dev, hsid]
    exact h

/-- RELEASE frees slots and reserves their notices. -/
theorem completes_releases (i : Fin 8) {k : Fin 8} {n : Nat} {q : Siding}
    (h : s.dev.droveRelease st m (Coeri.firstWord (.release st m)) =
      ((s.dev.modMbx st k (Mailbox.booked n)).setSiding st (s.dev.slotOf st) i q).retire st 1) :
    Completes (.release st m) s fun u => s.wroteAlone st 0 0 u ∧ s.reserved st k n u ∧
      u.dev.siding st (s.dev.slotOf st) i = some q := by
  refine completes_retired hi (f := fun d => d.droveRelease st m (Coeri.firstWord (.release st m))) rfl h
    (g := Stall.bookedAt k (Mailbox.booked n)) rfl (fun _ => rfl) (fun _ => rfl) ⟨rfl, rfl⟩
    fun u hu hsid _ _ hw => ⟨hw, (hu.mbx k).trans (upd_same _ _ _), ?_⟩
  have h := s.dev.siding_setSiding_same st (s.dev.slotOf st) i q
  unfold Device.siding at h ⊢
  rw [State.onDev_dev, hsid]
  exact h

section
variable (hsel : m.sel = 0) (hal : (s.dev.sreg st m.a).toNat % 16 = 0)
  (hlim : (s.dev.sreg st m.a).toNat + 16 ≤ s.dev.loftLimit st (s.dev.slotOf st))
  (hclean : s.dev.clean (s.dev.loftAt st (s.dev.sreg st m.a).toNat) 16)
include hsel hal hlim hclean

omit hi in
/-- What PERMSET does once its entry is read. -/
theorem drovePermset_of_clean (w : W32) : s.dev.drovePermset st m w =
    if ((s.dev.team (Device.yardOf st) (Fin.ofNat 64 (field (s.dev.sreg st m.b) 0 6))).op.isSome ||
        s.dev.drovers[Device.yardOf st].jobs.any fun j =>
          dfield j.desc 0 42 6 = (Fin.ofNat 64 (field (s.dev.sreg st m.b) 0 6) : Fin 64).val) = true then
      (s.dev.setSreg st m.d 1).retire st 1
    else
      ((s.dev.modTeam (Device.yardOf st) (Fin.ofNat 64 (field (s.dev.sreg st m.b) 0 6)) fun x =>
        { x with turn := (s.dev.rdBytes (s.dev.loftAt st (s.dev.sreg st m.a).toNat) 16).map (·.toNat) }).setSreg st m.d
          0).retire st 1 := by
  have hread := s.dev.readRange_clean _ 16 false (s.dev.loftBase_le_loftAt st (s.dev.sreg st m.a).toNat) hclean
  unfold Device.drovePermset
  rw [if_neg (not_not.mpr hsel), s.dev.operandCheck_of_ok st _ 16 _ hal hlim, hread]

/-- PERMSET of a team without work. -/
theorem completes_permset
    (hop : (s.dev.team (Device.yardOf st) (Fin.ofNat 64 (field (s.dev.sreg st m.b) 0 6))).op = none)
    (hjobs : ∀ j ∈ s.dev.drovers[Device.yardOf st].jobs,
      dfield j.desc 0 42 6 ≠ (Fin.ofNat 64 (field (s.dev.sreg st m.b) 0 6) : Fin 64).val) :
    Completes (.permset st m) s fun u => s.wroteAlone st m.d 0 u ∧
      u.dev.team (Device.yardOf st) (Fin.ofNat 64 (field (s.dev.sreg st m.b) 0 6)) =
        { s.dev.team (Device.yardOf st) (Fin.ofNat 64 (field (s.dev.sreg st m.b) 0 6)) with
          turn := (s.dev.rdBytes (s.dev.loftAt st (s.dev.sreg st m.a).toNat) 16).map (·.toNat) } := by
  have h := drovePermset_of_clean hsel hal hlim hclean (Coeri.firstWord (.permset st m))
  rw [hop, Option.isSome_none, Bool.false_or, if_neg (by simpa using hjobs)] at h
  refine completes_done hi (f := fun d => d.drovePermset st m (Coeri.firstWord (.permset st m))) rfl h (g := fun x => x) ?_
    (fun _ => rfl) (fun _ => rfl) ⟨rfl, rfl⟩ fun u _ _ hdr _ hw => ⟨hw, ?_⟩
  · exact (upd_id s.dev.stalls st (fun x => x) rfl).symm
  · exact (congrArg (fun z : Vector Drover 2 => z[Device.yardOf st].teams[Fin.ofNat 64 (field (s.dev.sreg st m.b) 0 6)]) hdr).trans
      (team_modTeam_same s.dev _ _ _)

/-- PERMSET of a team at work answers 1. -/
theorem completes_permsetBusy
    (h : (s.dev.team (Device.yardOf st) (Fin.ofNat 64 (field (s.dev.sreg st m.b) 0 6))).op.isSome = true ∨
      ∃ j ∈ s.dev.drovers[Device.yardOf st].jobs,
        dfield j.desc 0 42 6 = (Fin.ofNat 64 (field (s.dev.sreg st m.b) 0 6) : Fin 64).val) :
    Completes (.permset st m) s (s.wroteScalar st 1 m.d 1) := by
  have hbusy := drovePermset_of_clean hsel hal hlim hclean (Coeri.firstWord (.permset st m))
  rw [if_pos (by simpa only [Bool.or_eq_true, List.any_eq_true, decide_eq_true_eq] using h)] at hbusy
  exact completes_wroteScalar hi (f := fun d => d.drovePermset st m (Coeri.firstWord (.permset st m))) rfl hbusy

end

end

/-- Settles O34: each instruction changes its drover's or siding's record, the mailbox that it reserves in, and its slot. -/
theorem droverInstructions : Obligations.DroverInstructions := by
  intro st m s hi hsel slot sl y a b i same wrote
  refine ⟨?submit, fun hopen hd hc hc' hfit hal => ⟨fun hq => ?opens, fun q hq hbusy => ?busy⟩,
    fun q hclose hq ho hr => ?closes, fun q ha hd hq h1 h8 => ⟨fun hk hfree => ?releases,
      fun hk hfree => ?holds, fun hk => ?none⟩, ?permset⟩
  case submit =>
    intro x t n queues hb hd hn hq hlegal hfit hk
    exact ⟨completes_submit hi rfl rfl hsel hb hd hn hq hlegal hfit rfl hk,
      completes_submit hi rfl rfl hsel hb hd hn hq hlegal hfit rfl hk,
      completes_submit hi rfl rfl hsel hb hd hn hq hlegal hfit rfl hk⟩
  case opens =>
    obtain ⟨t, ht, hw, hq', hne⟩ := completes_sidingOpens hi i (droveSiding_opens hsel hopen hd hc hc' hfit hal hq)
    exact ⟨t, ht, hw, ⟨_, hq', rfl, rfl, rfl, rfl, rfl⟩, hne⟩
  case busy => exact completes_wroteScalar hi rfl (droveSiding_busy hsel hopen hd hc hc' hfit hal hq hbusy)
  case closes => exact completes_sidingCloses hi i (droveSiding_closes hsel hclose hq ho hr)
  case releases =>
    have h := droveRelease_of (w := Coeri.firstWord (.release st m)) hsel ha hd hq h1 h8
    dsimp only at h
    rw [if_neg (Nat.pos_iff_ne_zero.mp hk), if_neg (Nat.not_lt.mpr hfree)] at h
    exact completes_releases hi i h
  case holds =>
    have h := droveRelease_of (w := Coeri.firstWord (.release st m)) hsel ha hd hq h1 h8
    dsimp only at h
    rw [if_neg (Nat.pos_iff_ne_zero.mp hk), if_pos hfree] at h
    exact congrArg Host.Outcome.next ((onDev_issue hi _).trans (onDev_congr (g := fun d => d) h))
  case none =>
    have h := droveRelease_of (w := Coeri.firstWord (.release st m)) hsel ha hd hq h1 h8
    dsimp only at h
    rw [if_pos hk] at h
    exact completes_issue hi rfl (g := fun d => d.retire st 1) h (onlyRetired_retire s st 1)
  case permset =>
    intro t hal hlim hclean
    exact ⟨fun hop hjobs => completes_permset hi hsel hal hlim hclean hop hjobs,
      fun h => completes_permsetBusy hi hsel hal hlim hclean h⟩

end Sys2Proof.Machine
end

section
/-! A notice posted (R115): what it leaves of its stall. -/

namespace Sys2Proof.Machine

/-- A mailbox that takes a notice into a slot reserved for it. -/
def Mailbox.noticed (n : Message) (m : Mailbox) : Mailbox := { m with inflight := m.inflight - 1, msgs := m.msgs ++ [n] }

/-- A stall one of whose mailboxes takes a notice, which may call its primary slot back. -/
def Stall.posted (k : Fin 8) (n : Message) (recalls : Bool) (s : Stall) : Stall :=
  { s with mbx := upd s.mbx k (Mailbox.noticed n), recalled := s.recalled || recalls }

/-- A notice whose first word is w. -/
def Message.says (n : Message) (w : Nat) : Prop := n.notice = true ∧ leNat (n.data.take 8) = w

namespace Device

/-- A notice changes its stall alone, and there a mailbox and whether its primary slot is called back. -/
theorem post_eq (d : Device) (st : StallId) (k : Fin 8) (src : BitVec 9) (w : Nat) (ws : List Nat) (hw : w < 2 ^ 64) :
    ∃ n : Message, ∃ b : Bool, n.says w ∧ d.post st k src (w :: ws) = d.modStall st (Stall.posted k n b) := by
  have hfalse (s : Stall) (n : Message) :
      ({ s with mbx := upd s.mbx k (Mailbox.noticed n) } : Stall) = Stall.posted k n false s := by
    simp only [Stall.posted, Bool.or_false]
  have htrue (s : Stall) (n : Message) :
      ({ s with mbx := upd s.mbx k (Mailbox.noticed n), recalled := true } : Stall) = Stall.posted k n true s := by
    simp only [Stall.posted, Bool.or_true]
  unfold post
  extract_lets data msg e s away
  have hsays : msg.says w := by
    refine ⟨rfl, ?_⟩
    have hlen : (leBytes 8 w).length = 8 := by simp
    change leNat (((leBytes 8 w ++ ws.flatMap fun w => leBytes 8 w) ++ _).take 8) = w
    rw [List.append_assoc, List.take_append_of_le_length (by omega), List.take_of_length_le (by omega)]
    rw [leNat_leBytes, Nat.mod_eq_of_lt (by omega)]
  split
  · refine ⟨msg, true, hsays, ?_⟩
    change ((d.modStall st fun s => { s with mbx := upd s.mbx k (Mailbox.noticed msg) }).modStall st fun s => { s with recalled := true }) = _
    rw [modStall_modStall]
    exact congrArg (d.modStall st) (funext fun s => htrue s msg)
  · exact ⟨msg, false, hsays, congrArg (d.modStall st) (funext fun s => hfalse s msg)⟩

end Device

end Sys2Proof.Machine
end

section
/-! The Forge's acceptance of a request (R433, R435, R439): refusal with a notice, and admission. -/

namespace Sys2Proof.Machine

theorem field_lt {w : Nat} (x : BitVec w) (lo len : Nat) : field x lo len < 2 ^ len := Nat.mod_lt _ (Nat.two_pow_pos len)

theorem dfield_lt (x : Vector W64 8) (i lo len : Nat) : dfield x i lo len < 2 ^ len := field_lt _ _ _

/-- The first word of a Forge's notice. -/
def noticeWord (x : Vector W64 8) (back : Bool) (handle : Nat) (code : Code) : Nat :=
  dfield x 0 56 8 * 2 ^ 56 + bitAt back 52 + handle * 2 ^ 32 + code.toNat

theorem noticeWord_lt (x : Vector W64 8) (back : Bool) {handle : Nat} (h : handle < 2 ^ 16) (code : Code) :
    noticeWord x back handle code < 2 ^ 64 := by
  have hn := dfield_lt x 0 56 8
  have hc : code.toNat < 2 ^ 16 := code.isLt
  have hb : bitAt back 52 ≤ 2 ^ 52 := by cases back <;> simp [bitAt]
  unfold noticeWord
  omega

namespace Device

/-- e is d but that a notice n has been posted at a mailbox of st, and for what is counted. -/
structure Answered (d : Device) (st : StallId) (k : Fin 8) (n : Message) (e : Device) : Prop where
  stalls : ∃ b, e.stalls = (d.modStall st (Stall.posted k n b)).stalls
  forges : e.forges = d.forges
  bytes : SameBytes d e

theorem Answered.of_same {d e f : Device} {st : StallId} {k : Fin 8} {n : Message} (h : d.Answered st k n e)
    (hs : f.stalls = e.stalls) (hf : f.forges = e.forges) (hb : SameBytes e f) : d.Answered st k n f :=
  ⟨h.stalls.imp fun _ hb => hs.trans hb, hf.trans h.forges, h.bytes.trans hb⟩

/-- A Forge's notice. -/
theorem forgeNotice_answered (d : Device) (y : Yard) (q : ForgeReq) (code : Code) {handle : Nat} (hh : handle < 2 ^ 16)
    (done rej third : Nat) (f : Frame) : ∃ n : Message, n.says (noticeWord q.desc q.back handle code) ∧
      d.Answered q.stall q.mbx n (d.forgeNotice y q code 0 handle done rej third f) := by
  obtain ⟨n, b, hn, hp⟩ := d.post_eq q.stall q.mbx (forgeSrc y) (noticeWord q.desc q.back handle code)
    [q.accept.toNat, q.deadline.toNat, third * 2 ^ 32 + rej * 2 ^ 16 + done, q.spent fun _ => 0, f.toNat]
    (noticeWord_lt _ _ hh _)
  have hw : q.ntag * 2 ^ 56 + bitAt q.back 52 + handle * 2 ^ 32 + (0 : Code).toNat * 2 ^ 16 + code.toNat =
      noticeWord q.desc q.back handle code := by
    unfold noticeWord ForgeReq.ntag
    simp
  refine ⟨n, hn, ?_⟩
  rw [forgeNotice, hw, hp]
  exact ⟨⟨b, rfl⟩, rfl, rfl, rfl⟩

/-- A refusal: its notice. -/
theorem forgeRefuse_answered (d : Device) (y : Yard) (q : ForgeReq) (code : Code) :
    ∃ n : Message, n.says (noticeWord q.desc q.back 0xFFFF code) ∧ d.Answered q.stall q.mbx n (d.forgeRefuse y q code) := by
  obtain ⟨n, hn, h⟩ := d.forgeNotice_answered y q code (handle := 0xFFFF) (by decide) 0 0 0 0
  refine ⟨n, hn, ?_⟩
  have hbump := h.of_same (f := (d.forgeNotice y q code 0 0xFFFF 0 0 0 0).bump (Page.forge y) 0x160 1) rfl rfl ⟨rfl, rfl⟩
  unfold forgeRefuse
  dsimp only
  split
  · obtain ⟨x, hx, hx'⟩ := ((d.forgeNotice y q code 0 0xFFFF 0 0 0 0).bump (Page.forge y) 0x160 1).reclaim_only 3 code
      (Page.stall q.stall) (forgeTally q.stall q.slot) 1
    rw [hx]
    exact hbump.of_same (by rw [hx']) (by rw [hx']) (by rw [hx']; exact ⟨rfl, rfl⟩)
  · exact hbump

/-- The request's own amounts, as admission adds them to the Forge's booked set. -/
def askedOf (d : Device) (t : Template) (q : ForgeReq) : Frame × Frame × Nat × Nat :=
  (q.deadline, q.accept, q.left t d.spentNow, q.lp6Left t)

/-- A request without retention joins the Forge, unless it is booked and does not fit. -/
theorem forgeAdmit_plain (d : Device) (y : Yard) (q : ForgeReq) (t : Template) (hdue : q.accept.toNat < q.deadline.toNat) :
    d.forgeAdmit y q t none =
      if q.booked = true ∧ forgeFits d.now (d.forgeBook y) (d.forgeLp6 y) (d.forgeSet y d.spentNow ++ [d.askedOf t q]) = false then
        d.forgeRefuse y q Status.admissionRefused
      else d.modForge y fun f => { f with reqs := f.reqs ++ [q] } := by
  unfold forgeAdmit
  extract_lets part set slot
  have hlate : (decide (q.deadline.toNat ≤ q.accept.toNat) || (none : Option Nat).isSome && slot.isNone) = false := by
    rw [decide_eq_false (Nat.not_le.mpr hdue)]
    rfl
  rw [hlate, if_neg Bool.false_ne_true]
  cases hb : q.booked
  · rw [if_neg (by simp), if_neg (by simp)]
  · have hset : set = d.forgeSet y d.spentNow ++ [d.askedOf t q] := by
      dsimp only [set]
      rw [hb, if_pos rfl]
      rfl
    rw [hset]
    cases forgeFits d.now (d.forgeBook y) (d.forgeLp6 y) (d.forgeSet y d.spentNow ++ [d.askedOf t q]) <;> rfl

end Device

end Sys2Proof.Machine
end

section
/-! The Forge's acceptance of FSUBMIT and FBACK (R433, R435, R446, R447): which request joins, and which is refused. -/

namespace Sys2Proof.Machine

namespace Device

section
variable (d : Device) (y : Yard) (q : ForgeReq)

/-- A table read without an error. -/
theorem readTable_clean (st : StallId) (sl : Slot) (a n : Nat) (h : d.clean (d.slotAt st sl a) (32 * n)) :
    d.readTable st sl a n = (d, (d.readTable st sl a n).2) := by
  have hr := engRead_clean d st sl a (32 * n) h
  unfold readTable
  rw [hr]

/-- The request that FSUBMIT asks for, with its table. -/
def forwardReq (q : ForgeReq) (tbl : List Source) : ForgeReq :=
  { q with tslot := Fin.ofNat 16 (dfield q.desc 0 52 4), table := tbl
           problems := List.replicate (dfield q.desc 2 32 32) ForgeReq.freshProblem }

section
variable {t : Template} {tbl : List Source} (htpl : d.forgeTpl y (Fin.ofNat 16 (dfield q.desc 0 52 4)) = some t)
  (hread : d.readTable q.stall q.slot (dfield q.desc 3 0 32) t.nsrc = (d, tbl))
include htpl hread

/-- A template of another version. -/
theorem acceptForward_version (hver : t.version.toNat ≠ dfield q.desc 2 0 32) :
    d.acceptForward y q = d.forgeRefuse y (forwardReq q tbl) Status.forgeTemplateInvalid := by
  unfold acceptForward
  extract_lets x ts n q'
  rw [show d.forgeTpl y ts = some t from htpl]
  dsimp only
  rw [show d.readTable q'.stall q'.slot (dfield x 3 0 32) t.nsrc = (d, tbl) from hread]
  exact if_pos (Bool.or_eq_true_iff.mpr (.inl (decide_eq_true hver)))

/-- A request that its template, its sources and its areas admit is put to the tests of R439. -/
theorem acceptForward_legal (hver : t.version.toNat = dfield q.desc 2 0 32)
    (hlen : ∀ i, i < t.nsrc → (t.elems[i]?).getD 0 ≤ ((tbl[i]?).map Source.len).getD 0)
    (hfmt : tbl.all Source.formatOk = true) (hout : d.mapped (dfield q.desc 4 0 48) (dfield q.desc 2 32 32 * t.stride) = true)
    (hdiag : d.mapped (dfield q.desc 5 0 48) (dfield q.desc 2 32 32 * t.stride) = true)
    (hsrc : ∀ i ∈ tbl, d.sourceMapped q.stall q.slot i
      (if i.len = 0 then 0 else (dfield q.desc 2 32 32 - 1) * i.pstride + i.len) = true)
    (hraw : dfield q.desc 0 49 1 = 0) (hret : dfield q.desc 0 50 1 = 0) :
    d.acceptForward y q = d.forgeAdmit y (forwardReq q tbl) t none := by
  unfold acceptForward
  extract_lets x ts n q'
  rw [show d.forgeTpl y ts = some t from htpl]
  dsimp only
  rw [show d.readTable q'.stall q'.slot (dfield x 3 0 32) t.nsrc = (d, tbl) from hread]
  dsimp only
  have hshort : ((List.range t.nsrc).any fun s =>
      decide (((tbl[s]?).map Source.len).getD 0 < (t.elems[s]?).getD 0)) = false := by
    rw [List.any_eq_false]
    intro i hi
    simpa using hlen i (List.mem_range.mp hi)
  have hv : decide (t.version.toNat ≠ dfield x 2 0 32) = false := decide_eq_false (not_not.mpr hver)
  have hr1 : decide (dfield x 0 49 1 = 0) = true := decide_eq_true hraw
  have hr2 : decide (dfield x 0 50 1 = 1) = false := decide_eq_false (by rw [show dfield x 0 50 1 = 0 from hret]; decide)
  have hs : (tbl.all fun s => d.sourceMapped q'.stall q'.slot s (if s.len = 0 then 0 else (n - 1) * s.pstride + s.len)) = true :=
    List.all_eq_true.mpr hsrc
  rw [hshort, hv, hfmt, hr1, hr2, hs]
  have hareas {b c : Bool} : ¬ (!(d.mapped (dfield q.desc 4 0 48) (dfield q.desc 2 32 32 * t.stride) &&
      d.mapped (dfield q.desc 5 0 48) (dfield q.desc 2 32 32 * t.stride) && true && (true || b) && (!false || c))) = true := by
    rw [hout, hdiag]
    exact Bool.false_ne_true
  refine (if_neg Bool.false_ne_true).trans ((if_neg Bool.false_ne_true).trans ((if_neg hareas).trans ?_))
  exact congrArg (d.forgeAdmit y _ t) (if_neg (show ¬ dfield q.desc 0 50 1 = 1 by rw [hret]; decide))

end

/-- An FBACK of an entry that is not retained. -/
theorem acceptBackward_expired (h : d.retained y (dfield q.desc 2 0 16) = none) :
    d.acceptBackward y q = d.forgeRefuse y q Status.forgeRetentionExpired := by
  unfold acceptBackward
  extract_lets x
  rw [h]

section
variable {e : Fin 64} {r : Retention} (h : d.retained y (dfield q.desc 2 0 16) = some (e, r))
include h

/-- The entry that a handle names, and the handle that it has. -/
theorem retained_entry : (d.forge y).ret[e] = r ∧ handleOf e r < 2 ^ 16 := by
  unfold retained at h
  extract_lets e' r' at h
  split at h
  · next hc =>
    obtain ⟨rfl, rfl⟩ := Prod.mk.inj (Option.some.inj h)
    have hgen : r'.gen = dfield q.desc 2 0 16 / 64 := of_decide_eq_true (Bool.and_eq_true_iff.mp hc).2
    have hlt := dfield_lt q.desc 2 0 16
    have hval : e'.val = dfield q.desc 2 0 16 % 64 := rfl
    refine ⟨rfl, ?_⟩
    unfold handleOf
    omega
  · exact absurd h (by simp)

/-- A release of an entry that no FBACK holds frees it. -/
theorem acceptBackward_release (hop : dfield q.desc 0 54 2 = 2) :
    d.acceptBackward y q =
      (((d.modRet y e fun r => { r with releaseDue := true }).forgeNotice y q Status.done 0 (handleOf e r) 0 0 0
        d.now).bump (Page.forge y) 0x154 1).settleRetention y e := by
  unfold acceptBackward
  extract_lets x
  rw [h]
  exact if_pos hop

/-- The request that FBACK asks for, with its table. -/
def backwardReq (q : ForgeReq) (e : Fin 64) (r : Retention) (tbl : List Source) : ForgeReq :=
  { q with table := tbl, tslot := r.tslot, entry := some e, problems := List.replicate r.nprob ForgeReq.freshProblem }

/-- An FBACK whose gradients go nowhere but into its source is put to the tests of R439. -/
theorem acceptBackward_legal {t : Template} {tbl : List Source} {g : Source} (hop : dfield q.desc 0 54 2 ≠ 2)
    (htpl : d.forgeTpl y r.tslot = some t) (hread : d.readTable q.stall q.slot (dfield q.desc 2 32 32) 9 = (d, tbl))
    (hg : (tbl[0]?).getD (Vector.replicate 4 0) = g) (hlen : t.n ≤ g.len) (hfmt : g.formatOk = true)
    (hoff : ∀ i ∈ (tbl.drop 1).take t.nsrc, Source.enabled i = false) (hraw : dfield q.desc 3 0 48 = 0)
    (hsrc : d.sourceMapped q.stall q.slot g ((r.nprob - 1) * g.pstride + g.len) = true) :
    d.acceptBackward y q = d.forgeAdmit y (backwardReq q e r tbl) t none := by
  -- The constant is kept opaque, so that the kernel evaluates no table.
  have houts : (((tbl.drop 1).take t.nsrc).zipIdx.filter fun s => Source.enabled s.1) = [] := by
    rw [List.filter_eq_nil_iff]
    intro s hs
    rw [hoff s.1 (List.fst_mem_of_mem_zipIdx hs)]
    exact Bool.false_ne_true
  unfold acceptBackward
  generalize @Device.readTable = readTable at hread ⊢
  extract_lets x
  rw [h]
  refine (if_neg hop).trans ?_
  rw [htpl, show readTable d q.stall q.slot (dfield x 2 32 32) 9 = (d, tbl) from hread]
  subst hg
  have hfmts {b : Bool} (hb : b = true) : ¬ (!Source.formatOk ((tbl[0]?).getD (Vector.replicate 4 0)) || !b) = true := by
    rw [hfmt, hb]
    exact Bool.false_ne_true
  have hrest {b c : Bool} (hb : b = true) : ¬ (!(d.sourceMapped q.stall q.slot ((tbl[0]?).getD (Vector.replicate 4 0))
      ((r.nprob - 1) * Source.pstride ((tbl[0]?).getD (Vector.replicate 4 0)) + Source.len ((tbl[0]?).getD (Vector.replicate 4 0)))
      && b && (decide (dfield q.desc 3 0 48 = 0) || c))) = true := by
    rw [hsrc, hb, hraw]
    exact Bool.false_ne_true
  refine (if_neg (Nat.not_lt.mpr hlen)).trans ((if_neg (hfmts ?_)).trans (if_neg (hrest ?_)))
  · rw [houts, List.all_nil]
  · rw [houts, List.all_nil]

end

end

end Device

end Sys2Proof.Machine
end

section
/-! O37: FSUBMIT and FBACK at issue (R433, R435, R446, R447). -/

namespace Sys2Proof.Machine

/-- What an instruction of the Forge leaves beside its request: it retires and reserves or uses its notice slot. -/
def State.forgeRetires (st : StallId) (s u : State) : Prop :=
  (s.dev.cur st).retired 1 (u.dev.cur st) ∧ (∀ r, u.dev.sreg st r = s.dev.sreg st r) ∧
    (∀ v, v ≠ st → u.dev.stall v = s.dev.stall v) ∧ s.sameMemory u ∧
    ∀ z, z ≠ Device.yardOf st → u.dev.forges[z] = s.dev.forges[z]

theorem forgeRetires_of {s : State} {st : StallId} {u : Device} (h : s.wroteAlone st 0 0 (s.onDev fun _ => u))
    (hf : ∀ z, z ≠ Device.yardOf st → u.forges[z] = s.dev.forges[z]) : s.forgeRetires st (s.onDev fun _ => u) := by
  obtain ⟨hret, hs, hother, hmem⟩ := h
  refine ⟨hret, fun r => (hs r).trans (if_neg fun hr => hr.2 hr.1), hother, hmem, hf⟩

/-- The device once the notice slot of an instruction is reserved. -/
def Device.reserving (d : Device) (st : StallId) (k : Fin 8) : Device := d.modMbx st k (Mailbox.booked 1)

theorem Device.newReq_reserving (d : Device) (st : StallId) (k : Fin 8) (back : Bool) (x : Vector W64 8) :
    (d.reserving st k).newReq st back x = d.newReq st back x := by
  have h : (d.reserving st k).slotOf st = d.slotOf st := d.slotOf_modMbx st st k _
  unfold Device.newReq
  rw [h]
  rfl

section
variable {s : State} {st : StallId} {m : MFormat} {w : W32} {x : Vector W64 8} (hx : s.descr st m.a = x) (hsel : m.sel = 0)
  (hb : m.b = 0) (hd : m.d = 0) (hn : s.namesDescr st m.a) (hq : s.dev.forgeOutstanding st (s.dev.slotOf st) < 4)
  (hk : s.takesNotices st (Device.noticeMbx x) 1)
include hx hsel hb hd hn hq hk

/-- FSUBMIT of a legal descriptor is put to acceptance. -/
theorem forgeIssue_forward (hlegal : Device.forgeLegal false x = true) {t : Template}
    (htpl : s.dev.forgeTpl (Device.yardOf st) (Fin.ofNat 16 (dfield x 0 52 4)) = some t)
    (hfit : s.regionsFit st [⟨dfield x 3 0 32, 32 * t.nsrc, 64⟩]) :
    s.dev.forgeIssue st false m w = ((s.dev.reserving st (Device.noticeMbx x)).acceptForward (Device.yardOf st)
      (s.dev.newReq st false x)).retire st 1 := by
  have hform : ¬ (m.sel ≠ 0 ∨ m.b ≠ 0 ∨ m.d ≠ 0) := fun h => h.elim (absurd hsel) fun h => h.elim (absurd hb) (absurd hd)
  unfold Device.forgeIssue
  extract_lets sl y
  rw [if_neg hform, if_neg (Nat.not_le.mpr hq), withDescr_of_names hn, hx, hlegal, Bool.not_true, if_neg Bool.false_ne_true,
    show s.dev.forgeTpl y (Fin.ofNat 16 (dfield x 0 52 4)) = some t from htpl]
  refine (s.dev.checkRegions_fit st _ _ hfit).trans ((Device.withNotices_of_takes hk _).trans ?_)
  rw [← s.dev.newReq_reserving st (Device.noticeMbx x)]
  rfl

/-- FBACK of a legal descriptor is put to acceptance. -/
theorem forgeIssue_backward (hlegal : Device.forgeLegal true x = true)
    (hfit : dfield x 0 54 2 = 2 ∨ s.regionsFit st [⟨dfield x 2 32 32, 288, 64⟩]) :
    s.dev.forgeIssue st true m w = ((s.dev.reserving st (Device.noticeMbx x)).acceptBackward (Device.yardOf st)
      (s.dev.newReq st true x)).retire st 1 := by
  have hform : ¬ (m.sel ≠ 0 ∨ m.b ≠ 0 ∨ m.d ≠ 0) := fun h => h.elim (absurd hsel) fun h => h.elim (absurd hb) (absurd hd)
  unfold Device.forgeIssue
  extract_lets sl y
  rw [if_neg hform, if_neg (Nat.not_le.mpr hq), withDescr_of_names hn, hx, hlegal, Bool.not_true, if_neg Bool.false_ne_true]
  refine (s.dev.checkRegions_fit st _ _ ?_).trans ((Device.withNotices_of_takes hk _).trans ?_)
  · intro r hr
    by_cases hop : dfield x 0 54 2 = 2
    · rw [decide_eq_true hop] at hr
      exact absurd hr List.not_mem_nil
    · rw [decide_eq_false hop] at hr
      exact hfit.resolve_left hop r hr
  · rw [← s.dev.newReq_reserving st (Device.noticeMbx x)]
    rfl

end

section
variable {s : State} {st : StallId} {i : Instr} {f : Device → Device} (hi : s.issues st 1)
  (he : exec i s = .next (s.onDev fun d => d.issue st 1 f)) {k : Fin 8}
include hi he

/-- A request that its acceptance answers at once. -/
theorem completes_forgeAnswer {e : Device} {n : Message} {w : Nat} (hn : n.says w) (hf : f s.dev = e.retire st 1)
    (hst : ∃ b, e.stalls = ((s.dev.reserving st k).modStall st (Stall.posted k n b)).stalls)
    (hb : Device.SameBytes s.dev e) (hz : ∀ z, z ≠ Device.yardOf st → e.forges[z] = s.dev.forges[z]) :
    Completes i s fun u => s.forgeRetires st u ∧ u.dev.forges = e.forges ∧
      (u.dev.mbx st k).free = (s.dev.mbx st k).free - 1 ∧
      ∃ n : Message, (u.dev.mbx st k).msgs = (s.dev.mbx st k).msgs ++ [n] ∧ n.notice = true ∧ leNat (n.data.take 8) = w := by
  obtain ⟨b, hst⟩ := hst
  have hcomp : e.stalls = (s.dev.modStall st fun x => Stall.posted k n b (Stall.bookedAt k (Mailbox.booked 1) x)).stalls := by
    rw [hst]
    unfold Device.reserving Device.modMbx
    rw [Device.modStall_modStall]
    rfl
  refine completes_retired hi he hf hcomp (fun _ => rfl) (fun _ => rfl) hb fun u hu _ _ hforge hw =>
    ⟨forgeRetires_of hw fun z hne => (congrArg (·[z]) hforge).trans (hz z hne), hforge, ?_⟩
  have hm : u.mbx st k = Mailbox.noticed n (Mailbox.booked 1 (s.dev.mbx st k)) := by
    refine (hu.mbx k).trans ?_
    change (upd (upd _ k _) k _)[k] = _
    rw [upd_same, upd_same]
    rfl
  rw [State.onDev_dev, hm]
  exact ⟨rfl, n, rfl, hn.1, hn.2⟩

/-- A request that its acceptance admits. -/
theorem completes_forgeAdmits {q : ForgeReq}
    (hf : f s.dev = (((s.dev.reserving st k).modForge (Device.yardOf st)
      fun g => { g with reqs := g.reqs ++ [q] })).retire st 1) :
    Completes i s fun u => s.forgeRetires st u ∧ s.reserved st k 1 u ∧
      (u.dev.forge (Device.yardOf st)).reqs = (s.dev.forge (Device.yardOf st)).reqs ++ [q] := by
  refine completes_retired hi he hf (g := Stall.bookedAt k (Mailbox.booked 1)) rfl (fun _ => rfl) (fun _ => rfl) ⟨rfl, rfl⟩
    fun u hu _ _ hforge hw => ⟨forgeRetires_of hw fun z hne => ?_, (hu.mbx k).trans (upd_same _ _ _), ?_⟩
  · exact (congrArg (·[z]) hforge).trans (upd_ne _ _ _ _ hne)
  · refine (congrArg (fun v : Vector Forge 2 => v[Device.yardOf st].reqs) hforge).trans ?_
    exact congrArg Forge.reqs (upd_same _ _ _)

end

end Sys2Proof.Machine
end

section
/-! O37: what the acceptance of FSUBMIT and FBACK comes to, and the obligation. -/

namespace Sys2Proof.Machine

/-- A request fits the booked set of its Forge (R439). -/
def Device.admits (d : Device) (y : Yard) (t : Template) (q : ForgeReq) : Bool :=
  Device.forgeFits d.now (d.forgeBook y) (d.forgeLp6 y) (d.forgeSet y d.spentNow ++ [d.askedOf t q])

theorem Device.admits_reserving (d : Device) (st : StallId) (k : Fin 8) (y : Yard) (t : Template) (q : ForgeReq) :
    (d.reserving st k).admits y t q = d.admits y t q := rfl

/-- What O37 says of an answered request. -/
def State.forgeAnswers (st : StallId) (x : Vector W64 8) (back : Bool) (handle : Nat) (code : Code) (f : State → Prop)
    (s u : State) : Prop :=
  s.forgeRetires st u ∧ (u.dev.forge (Device.yardOf st)).reqs = (s.dev.forge (Device.yardOf st)).reqs ∧ f u ∧
    (u.dev.mbx st (Device.noticeMbx x)).free = (s.dev.mbx st (Device.noticeMbx x)).free - 1 ∧
    ∃ n : Message, (u.dev.mbx st (Device.noticeMbx x)).msgs = (s.dev.mbx st (Device.noticeMbx x)).msgs ++ [n] ∧
      n.notice = true ∧ leNat (n.data.take 8) = noticeWord x back handle code

section
variable {s : State} {st : StallId} {i : Instr} {f : Device → Device} {x : Vector W64 8} {back : Bool} (hi : s.issues st 1)
  (he : exec i s = .next (s.onDev fun d => d.issue st 1 f)) {q : ForgeReq} (hst : q.stall = st) (hdesc : q.desc = x)
  (hback : q.back = back)
include hi he hst hdesc hback

/-- A refused request has its notice, and the Forge stays. -/
theorem completes_forgeRefused {code : Code}
    (hf : f s.dev = ((s.dev.reserving st (Device.noticeMbx x)).forgeRefuse (Device.yardOf st) q code).retire st 1) :
    Completes i s (s.forgeAnswers st x back 0xFFFF code fun u => u.dev.forges = s.dev.forges) := by
  obtain ⟨n, hn, ha⟩ := (s.dev.reserving st (Device.noticeMbx x)).forgeRefuse_answered (Device.yardOf st) q code
  have hmbx : q.mbx = Device.noticeMbx x := congrArg Device.noticeMbx hdesc
  rw [hmbx, hst] at ha
  rw [hdesc, hback] at hn
  have hforges : ((s.dev.reserving st (Device.noticeMbx x)).forgeRefuse (Device.yardOf st) q code).forges = s.dev.forges :=
    ha.forges
  refine (completes_forgeAnswer hi he hn hf ha.stalls (Device.SameBytes.trans ⟨rfl, rfl⟩ ha.bytes)
    (fun z _ => congrArg (·[z]) hforges)).imp fun t ht => ⟨ht.1, ?_⟩
  obtain ⟨hret, hsame, hfree, hmsg⟩ := ht.2
  have hs : t.dev.forges = s.dev.forges := hsame.trans hforges
  exact ⟨hret, congrArg (fun v : Vector Forge 2 => v[Device.yardOf st].reqs) hs, hs, hfree, hmsg⟩

variable {t : Template} (hdue : q.accept.toNat < q.deadline.toNat)
  (hf : f s.dev = ((s.dev.reserving st (Device.noticeMbx x)).forgeAdmit (Device.yardOf st) q t none).retire st 1)
include hdue hf

/-- A booked request that does not fit is refused. -/
theorem completes_forgeUnfit (hb : q.booked = true) (hfits : s.dev.admits (Device.yardOf st) t q = false) :
    Completes i s (s.forgeAnswers st x back 0xFFFF Status.admissionRefused fun u => u.dev.forges = s.dev.forges) := by
  rw [Device.forgeAdmit_plain _ _ _ _ hdue, if_pos ⟨hb, hfits⟩] at hf
  exact completes_forgeRefused hi he hst hdesc hback hf

omit hst hdesc hback in
/-- A request that is not booked, or that fits, joins. -/
theorem completes_forgeJoins (hfits : q.booked = true → s.dev.admits (Device.yardOf st) t q = true) :
    Completes i s fun u => s.forgeRetires st u ∧ s.reserved st (Device.noticeMbx x) 1 u ∧
      (u.dev.forge (Device.yardOf st)).reqs = (s.dev.forge (Device.yardOf st)).reqs ++ [q] := by
  rw [Device.forgeAdmit_plain _ _ _ _ hdue, if_neg (fun h => Bool.false_ne_true (h.2.symm.trans (hfits h.1)))] at hf
  exact completes_forgeAdmits hi he hf

end

namespace Device

theorem ret_modRet_same (d : Device) (y : Yard) (e : Fin 64) (f : Retention → Retention) :
    ((d.modRet y e f).forge y).ret[e] = f (d.forge y).ret[e] := by
  unfold forge modRet modForge
  dsimp only
  rw [upd_same]
  exact upd_same _ _ _

theorem ret_modRet_ne (d : Device) (y : Yard) (e v : Fin 64) (f : Retention → Retention) (h : v ≠ e) :
    ((d.modRet y e f).forge y).ret[v] = (d.forge y).ret[v] := by
  unfold forge modRet modForge
  dsimp only
  rw [upd_same]
  exact upd_ne _ _ _ _ h

theorem reqs_modRet (d : Device) (y : Yard) (e : Fin 64) (f : Retention → Retention) :
    ((d.modRet y e f).forge y).reqs = (d.forge y).reqs := by
  unfold forge modRet modForge
  dsimp only
  rw [upd_same]

theorem forges_modRet_ne (d : Device) (y z : Yard) (e : Fin 64) (f : Retention → Retention) (h : z ≠ y) :
    (d.modRet y e f).forges[z] = d.forges[z] := upd_ne _ _ _ _ h

/-- A release that no FBACK holds takes effect. -/
theorem settleRetention_due (d : Device) (y : Yard) (e : Fin 64) (hheld : d.retentionHeld y e = false)
    (hdue : (d.forge y).ret[e].releaseDue = true) : d.settleRetention y e = d.freeRetention y e := by
  unfold settleRetention
  dsimp only
  rw [hheld, if_neg Bool.false_ne_true, if_pos hdue]

theorem retentionHeld_of_reqs {c d : Device} {y : Yard} (h : (d.forge y).reqs = (c.forge y).reqs) (e : Fin 64) :
    d.retentionHeld y e = c.retentionHeld y e := by
  unfold retentionHeld
  rw [h]

/-- A release of an entry that no FBACK holds posts its notice and frees the entry. -/
theorem acceptBackward_frees (c : Device) (y : Yard) (q : ForgeReq) {e : Fin 64} {r : Retention}
    (h : c.retained y (dfield q.desc 2 0 16) = some (e, r)) (hop : dfield q.desc 0 54 2 = 2)
    (hheld : c.retentionHeld y e = false) :
    ∃ n : Message, n.says (noticeWord q.desc q.back (handleOf e r) Status.done) ∧
      (∃ b, (c.acceptBackward y q).stalls = (c.modStall q.stall (Stall.posted q.mbx n b)).stalls) ∧
      SameBytes c (c.acceptBackward y q) ∧ (∀ z, z ≠ y → (c.acceptBackward y q).forges[z] = c.forges[z]) ∧
      ((c.acceptBackward y q).forge y).reqs = (c.forge y).reqs ∧
      ((c.acceptBackward y q).forge y).ret[e] = { Reset.retention with gen := (r.gen + 1) % 1023 } ∧
      ∀ v, v ≠ e → ((c.acceptBackward y q).forge y).ret[v] = (c.forge y).ret[v] := by
  obtain ⟨hentry, hlt⟩ := c.retained_entry y q h
  rw [c.acceptBackward_release y q h hop]
  obtain ⟨d, hd⟩ : ∃ d, d = c.modRet y e fun r => { r with releaseDue := true } := ⟨_, rfl⟩
  have hret : (d.forge y).ret[e] = { r with releaseDue := true } := by
    rw [hd, ret_modRet_same, hentry]
  have hreqs : (d.forge y).reqs = (c.forge y).reqs := by rw [hd, reqs_modRet]
  have hother (v : Fin 64) (hv : v ≠ e) : (d.forge y).ret[v] = (c.forge y).ret[v] := by rw [hd, ret_modRet_ne _ _ _ _ _ hv]
  have hyards (z : Yard) (hz : z ≠ y) : d.forges[z] = c.forges[z] := by rw [hd, forges_modRet_ne _ _ _ _ _ hz]
  have hstalls : d.stalls = c.stalls := by rw [hd]; rfl
  have hbytes : SameBytes c d := by rw [hd]; exact ⟨rfl, rfl⟩
  rw [← hd]
  obtain ⟨n, hn, ha⟩ := d.forgeNotice_answered y q Status.done hlt 0 0 0 c.now
  obtain ⟨a, hna⟩ : ∃ a, a = (d.forgeNotice y q Status.done 0 (handleOf e r) 0 0 0 c.now).bump (Page.forge y) 0x154 1 :=
    ⟨_, rfl⟩
  have haa : d.Answered q.stall q.mbx n a := by
    rw [hna]
    exact ha.of_same rfl rfl ⟨rfl, rfl⟩
  have hforge : a.forge y = d.forge y := congrArg (·[y]) haa.forges
  have hheld' : a.retentionHeld y e = false :=
    (retentionHeld_of_reqs ((congrArg Forge.reqs hforge).trans hreqs) e).trans hheld
  rw [← hna, a.settleRetention_due y e hheld' (by rw [hforge, hret])]
  refine ⟨n, hn, ?_, (hbytes.trans haa.bytes).trans ⟨rfl, rfl⟩, fun z hz => ?_, ?_, ?_, fun v hv => ?_⟩
  · obtain ⟨b, hb⟩ := haa.stalls
    refine ⟨b, hb.trans ?_⟩
    change upd d.stalls _ _ = upd c.stalls _ _
    rw [hstalls]
  · exact (forges_modRet_ne _ _ _ _ _ hz).trans ((congrArg (·[z]) haa.forges).trans (hyards z hz))
  · exact (reqs_modRet _ _ _ _).trans ((congrArg Forge.reqs hforge).trans hreqs)
  · exact (ret_modRet_same _ _ _ _).trans (by rw [hforge, hret])
  · exact (ret_modRet_ne _ _ _ _ _ hv).trans ((congrArg (fun g : Forge => g.ret[v]) hforge).trans (hother v hv))

end Device

section
variable {s : State} {st : StallId} {i : Instr} {f : Device → Device} {x : Vector W64 8} (hi : s.issues st 1)
  (he : exec i s = .next (s.onDev fun d => d.issue st 1 f)) {q : ForgeReq} (hst : q.stall = st) (hdesc : q.desc = x)
  (hback : q.back = true)
include hi he hst hdesc hback

/-- A release of an entry that no FBACK holds is answered and frees it. -/
theorem completes_forgeFrees {e : Fin 64} {r : Retention}
    (hret : s.dev.retained (Device.yardOf st) (dfield x 2 0 16) = some (e, r)) (hop : dfield x 0 54 2 = 2)
    (hheld : s.dev.retentionHeld (Device.yardOf st) e = false)
    (hf : f s.dev = ((s.dev.reserving st (Device.noticeMbx x)).acceptBackward (Device.yardOf st) q).retire st 1) :
    Completes i s (s.forgeAnswers st x true (Device.handleOf e r) Status.done fun u =>
      (u.dev.forge (Device.yardOf st)).ret[e] = { Reset.retention with gen := (r.gen + 1) % 1023 } ∧
        ∀ v, v ≠ e → (u.dev.forge (Device.yardOf st)).ret[v] = (s.dev.forge (Device.yardOf st)).ret[v]) := by
  subst hdesc
  obtain ⟨n, hn, hstalls, hbytes, hyards, hreqs, hfreed, hother⟩ :=
    (s.dev.reserving st (Device.noticeMbx q.desc)).acceptBackward_frees (Device.yardOf st) q hret hop hheld
  rw [hst] at hstalls
  rw [hback] at hn
  obtain ⟨t, ht, hr, hsame, hfree, hmsg⟩ := completes_forgeAnswer hi he (k := Device.noticeMbx q.desc) hn hf hstalls
    (Device.SameBytes.trans ⟨rfl, rfl⟩ hbytes) hyards
  have hforge : t.dev.forge (Device.yardOf st) = _ := congrArg (fun v : Vector Forge 2 => v[Device.yardOf st]) hsame
  refine ⟨t, ht, hr, ?_, ⟨?_, fun v hv => ?_⟩, hfree, hmsg⟩
  · exact (congrArg Forge.reqs hforge).trans hreqs
  · exact (congrArg (fun g : Forge => g.ret[e]) hforge).trans hfreed
  · exact (congrArg (fun g : Forge => g.ret[v]) hforge).trans (hother v hv)

end

end Sys2Proof.Machine
end

section
/-! O37: the obligation. -/

namespace Sys2Proof.Machine

/-- What O37 says of an admitted request. -/
def State.forgeJoins (st : StallId) (x : Vector W64 8) (back booked : Bool) (ts : Fin 16) (e : Option (Fin 64)) (n : Nat)
    (s u : State) : Prop :=
  s.forgeRetires st u ∧ s.reserved st (Device.noticeMbx x) 1 u ∧ ∃ q : ForgeReq,
    (u.dev.forge (Device.yardOf st)).reqs = (s.dev.forge (Device.yardOf st)).reqs ++ [q] ∧ q.stall = st ∧
      q.slot = s.dev.slotOf st ∧ q.back = back ∧ q.desc = x ∧ q.accept = s.dev.now ∧ q.booked = booked ∧
      q.deadline = BitVec.ofNat 48 (dfield x 1 0 48) ∧ q.tslot = ts ∧ q.entry = e ∧
      q.problems = List.replicate n ForgeReq.freshProblem

/-- A deadline to come is after the acceptance. -/
theorem accept_lt_deadline {a : Frame} {x : Vector W64 8} (h : a.toNat < dfield x 1 0 48) :
    a.toNat < (BitVec.ofNat 48 (dfield x 1 0 48)).toNat := by
  rw [BitVec.toNat_ofNat, Nat.mod_eq_of_lt (dfield_lt x 1 0 48)]
  exact h

/-- The sources of a table's bytes. -/
def tableOf (bs : List Byte) (n : Nat) : List Source :=
  (List.range n).map fun i => Vector.ofFn fun (j : Fin 4) => BitVec.ofNat 64 (leNat ((bs.drop (32 * i + 8 * j.val)).take 8))

theorem readTable_eq (d : Device) (st : StallId) (sl : Slot) (a n : Nat) (h : d.clean (d.slotAt st sl a) (32 * n)) :
    d.readTable st sl a n = (d, tableOf (d.rdBytes (d.slotAt st sl a) (32 * n)) n) := by
  have hr := engRead_clean d st sl a (32 * n) h
  unfold Device.readTable
  rw [hr]
  rfl

/-- The device d and the request q that acceptance sees. -/
structure State.Asks (s : State) (st : StallId) (back : Bool) (x : Vector W64 8) (d : Device) (q : ForgeReq) : Prop where
  dev : d = s.dev.reserving st (Device.noticeMbx x)
  req : q = s.dev.newReq st back x
  stall : q.stall = st
  slot : q.slot = s.dev.slotOf st
  backs : q.back = back
  desc : q.desc = x
  accept : q.accept = s.dev.now
  deadline : q.deadline = BitVec.ofNat 48 (dfield x 1 0 48)

theorem asks_newReq (s : State) (st : StallId) (back : Bool) (x : Vector W64 8) :
    s.Asks st back x (s.dev.reserving st (Device.noticeMbx x)) (s.dev.newReq st back x) :=
  ⟨rfl, rfl, rfl, rfl, rfl, rfl, rfl, rfl⟩

section
variable {s : State} {st : StallId} {back : Bool} {x : Vector W64 8} {d : Device} {q : ForgeReq} (h : s.Asks st back x d q)
include h

/-- A table reads alike once a notice slot is reserved. -/
theorem State.Asks.readTable {a n : Nat} (hc : s.dev.clean (s.dev.slotAt st (s.dev.slotOf st) a) (32 * n)) :
    d.readTable q.stall q.slot a n = (d, (s.dev.readTable st (s.dev.slotOf st) a n).2) := by
  rw [h.stall, h.slot, readTable_eq s.dev st _ a n hc, h.dev]
  exact readTable_eq (s.dev.reserving st (Device.noticeMbx x)) st _ a n hc

theorem State.Asks.forgeTpl (y : Yard) (i : Fin 16) : d.forgeTpl y i = s.dev.forgeTpl y i := by
  rw [h.dev]
  rfl

theorem State.Asks.mapped (a n : Nat) : d.mapped a n = s.dev.mapped a n := by
  rw [h.dev]
  rfl

theorem State.Asks.sourceMapped (i : Source) (n : Nat) :
    d.sourceMapped q.stall q.slot i n = s.dev.sourceMapped st (s.dev.slotOf st) i n := by
  rw [h.stall, h.slot, h.dev]
  rfl

theorem State.Asks.retained (y : Yard) (a : Nat) : d.retained y a = s.dev.retained y a := by
  rw [h.dev]
  rfl

end

end Sys2Proof.Machine
end

section
/-! O37: FSUBMIT and FBACK, clause by clause. -/

namespace Sys2Proof.Machine

/-- r is q with its template slot, table, entry and problems settled. -/
structure ForgeReq.Settles (q r : ForgeReq) (ts : Fin 16) (e : Option (Fin 64)) (n : Nat) : Prop where
  rest : r = { q with tslot := r.tslot, table := r.table, entry := r.entry, problems := r.problems }
  slot : r.tslot = ts
  entry : r.entry = e
  problems : r.problems = List.replicate n ForgeReq.freshProblem

section
variable {s : State} {st : StallId} {i : Instr} {f : Device → Device} {back : Bool} {x : Vector W64 8} {d : Device} {q r : ForgeReq}
  {t : Template} {ts : Fin 16} {e : Option (Fin 64)} {n : Nat} (hi : s.issues st 1)
  (he : exec i s = .next (s.onDev fun d => d.issue st 1 f)) (h : s.Asks st back x d q) (hr : q.Settles r ts e n)
  (hf : f s.dev = (d.forgeAdmit (Device.yardOf st) r t none).retire st 1) (hdue : s.dev.now.toNat < dfield x 1 0 48)
include hi he h hr hf hdue

/-- A request that is put to the tests of R439, and is not booked or fits, joins. -/
theorem completes_joins {booked : Bool} (hb : q.booked = booked)
    (hfits : booked = true → s.dev.admits (Device.yardOf st) t r = true) :
    Completes i s (s.forgeJoins st x back booked ts e n) := by
  have hd : r.accept.toNat < r.deadline.toNat := by
    rw [hr.rest]
    change q.accept.toNat < q.deadline.toNat
    rw [h.accept, h.deadline]
    exact accept_lt_deadline hdue
  have hrb : r.booked = booked := by rw [hr.rest]; exact hb
  rw [h.dev] at hf
  obtain ⟨u, hu, hret, hres, hreq⟩ := completes_forgeJoins hi he (x := x) hd hf fun hb' => hfits (hrb.symm.trans hb')
  refine ⟨u, hu, hret, hres, r, hreq, ?_, ?_, ?_, ?_, ?_, hrb, ?_, hr.slot, hr.entry, hr.problems⟩
  · rw [hr.rest]; exact h.stall
  · rw [hr.rest]; exact h.slot
  · rw [hr.rest]; exact h.backs
  · rw [hr.rest]; exact h.desc
  · rw [hr.rest]; exact h.accept
  · rw [hr.rest]; exact h.deadline

/-- A booked request that does not fit is refused. -/
theorem completes_unfit (hb : q.booked = true) (hfits : s.dev.admits (Device.yardOf st) t r = false) :
    Completes i s (s.forgeAnswers st x back 0xFFFF Status.admissionRefused fun u => u.dev.forges = s.dev.forges) := by
  have hd : r.accept.toNat < r.deadline.toNat := by
    rw [hr.rest]
    change q.accept.toNat < q.deadline.toNat
    rw [h.accept, h.deadline]
    exact accept_lt_deadline hdue
  rw [h.dev] at hf
  exact completes_forgeUnfit hi he (by rw [hr.rest]; exact h.stall) (by rw [hr.rest]; exact h.desc)
    (by rw [hr.rest]; exact h.backs) hd hf (by rw [hr.rest]; exact hb) hfits

end

section
variable {s : State} {st : StallId} {i : Instr} {f : Device → Device} {x : Vector W64 8} {d : Device} {q : ForgeReq}
  (hi : s.issues st 1) (he : exec i s = .next (s.onDev fun d => d.issue st 1 f))

section
variable {t : Template} {tbl : List Source} (h : s.Asks st false x d q)
  (hf : f s.dev = (d.acceptForward (Device.yardOf st) q).retire st 1)
  (htpl : s.dev.forgeTpl (Device.yardOf st) (Fin.ofNat 16 (dfield x 0 52 4)) = some t)
  (hclean : s.dev.clean (s.dev.slotAt st (s.dev.slotOf st) (dfield x 3 0 32)) (32 * t.nsrc))
  (htbl : (s.dev.readTable st (s.dev.slotOf st) (dfield x 3 0 32) t.nsrc).2 = tbl)
include hi he h hf htpl hclean htbl

/-- FSUBMIT for a template of another version. -/
theorem completes_wrongVersion (hver : t.version.toNat ≠ dfield x 2 0 32) :
    Completes i s (s.forgeAnswers st x false 0xFFFF Status.forgeTemplateInvalid fun u => u.dev.forges = s.dev.forges) := by
  have hread := h.readTable hclean
  rw [htbl] at hread
  rw [Device.acceptForward_version d _ q (tbl := tbl) (by rw [h.forgeTpl, h.desc]; exact htpl) (by rw [h.desc]; exact hread)
    (by rw [h.desc]; exact hver)] at hf
  obtain ⟨r, hr⟩ : ∃ r, r = Device.forwardReq q tbl := ⟨_, rfl⟩
  rw [← hr, h.dev] at hf
  exact completes_forgeRefused hi he (by rw [hr]; exact h.stall) (by rw [hr]; exact h.desc) (by rw [hr]; exact h.backs) hf

omit hi he in
/-- FSUBMIT of a request that its template, sources and areas admit comes to the tests of R439. -/
theorem forward_tested (hver : t.version.toNat = dfield x 2 0 32)
    (hlen : ∀ i, i < t.nsrc → (t.elems[i]?).getD 0 ≤ ((tbl[i]?).map Source.len).getD 0)
    (hfmt : tbl.all Source.formatOk = true) (hout : s.dev.mapped (dfield x 4 0 48) (dfield x 2 32 32 * t.stride) = true)
    (hdiag : s.dev.mapped (dfield x 5 0 48) (dfield x 2 32 32 * t.stride) = true)
    (hsrc : ∀ i ∈ tbl, s.dev.sourceMapped st (s.dev.slotOf st) i
      (if i.len = 0 then 0 else (dfield x 2 32 32 - 1) * i.pstride + i.len) = true)
    (hraw : dfield x 0 49 1 = 0) (hret : dfield x 0 50 1 = 0) :
    f s.dev = (d.forgeAdmit (Device.yardOf st) (Device.forwardReq q tbl) t none).retire st 1 := by
  have hread := h.readTable hclean
  rw [htbl] at hread
  rw [hf, Device.acceptForward_legal d _ q (tbl := tbl) (by rw [h.forgeTpl, h.desc]; exact htpl) (by rw [h.desc]; exact hread)
    (by rw [h.desc]; exact hver) hlen hfmt (by rw [h.mapped, h.desc]; exact hout) (by rw [h.mapped, h.desc]; exact hdiag)
    (fun j hj => by rw [h.sourceMapped, h.desc]; exact hsrc j hj) (by rw [h.desc]; exact hraw) (by rw [h.desc]; exact hret)]

end

section
variable (h : s.Asks st true x d q) (hf : f s.dev = (d.acceptBackward (Device.yardOf st) q).retire st 1)
include hi he h hf

/-- FBACK of an entry that is not retained. -/
theorem completes_notRetained (hret : s.dev.retained (Device.yardOf st) (dfield x 2 0 16) = none) :
    Completes i s (s.forgeAnswers st x true 0xFFFF Status.forgeRetentionExpired fun u => u.dev.forges = s.dev.forges) := by
  rw [Device.acceptBackward_expired d _ q (by rw [h.retained, h.desc]; exact hret), h.dev] at hf
  exact completes_forgeRefused hi he h.stall h.desc h.backs hf

variable {e : Fin 64} {r : Retention} (hret : s.dev.retained (Device.yardOf st) (dfield x 2 0 16) = some (e, r))
include hret

omit hi he in
/-- FBACK of a request whose gradients go into its source alone comes to the tests of R439. -/
theorem backward_tested {t : Template} {tbl : List Source} {g : Source} (hop : dfield x 0 54 2 ≠ 2)
    (htpl : s.dev.forgeTpl (Device.yardOf st) r.tslot = some t)
    (hclean : s.dev.clean (s.dev.slotAt st (s.dev.slotOf st) (dfield x 2 32 32)) (32 * 9))
    (htbl : (s.dev.readTable st (s.dev.slotOf st) (dfield x 2 32 32) 9).2 = tbl)
    (hg : (tbl[0]?).getD (Vector.replicate 4 0) = g) (hlen : t.n ≤ g.len) (hfmt : g.formatOk = true)
    (hoff : ∀ i ∈ (tbl.drop 1).take t.nsrc, Source.enabled i = false) (hraw : dfield x 3 0 48 = 0)
    (hsrc : s.dev.sourceMapped st (s.dev.slotOf st) g ((r.nprob - 1) * g.pstride + g.len) = true) :
    f s.dev = (d.forgeAdmit (Device.yardOf st) (Device.backwardReq q e r tbl) t none).retire st 1 := by
  have hread := h.readTable hclean
  rw [htbl] at hread
  rw [hf, Device.acceptBackward_legal d _ q (by rw [h.retained, h.desc]; exact hret) (by rw [h.desc]; exact hop)
    (by rw [h.forgeTpl]; exact htpl) (by rw [h.desc]; exact hread) hg hlen hfmt hoff (by rw [h.desc]; exact hraw)
    (by rw [h.sourceMapped]; exact hsrc)]

end

end

end Sys2Proof.Machine
end

section
/-! O37: the obligation. -/

namespace Sys2Proof.Machine

theorem settles_forward {q : ForgeReq} {x : Vector W64 8} (hd : q.desc = x) (he : q.entry = none) (tbl : List Source) :
    q.Settles (Device.forwardReq q tbl) (Fin.ofNat 16 (dfield x 0 52 4)) none (dfield x 2 32 32) := by
  subst hd
  exact ⟨rfl, rfl, he, rfl⟩

theorem settles_backward (q : ForgeReq) (e : Fin 64) (r : Retention) (tbl : List Source) :
    q.Settles (Device.backwardReq q e r tbl) r.tslot (some e) r.nprob := ⟨rfl, rfl, rfl, rfl⟩

/-- A one-bit field is 0 or 1. -/
theorem dfield_bit (x : Vector W64 8) (i lo : Nat) : dfield x i lo 1 = 0 ∨ dfield x i lo 1 = 1 := by
  have := dfield_lt x i lo 1
  omega

theorem booked_newReq (s : State) (st : StallId) (back : Bool) (x : Vector W64 8) :
    (s.dev.newReq st back x).booked = decide (dfield x 0 (if back then 53 else 51) 1 = 0) := by
  change (!decide (dfield x 0 (if back then 53 else 51) 1 = 1)) = _
  rcases dfield_bit x 0 (if back then 53 else 51) with h | h <;> rw [h] <;> rfl

section
variable {s : State} {st : StallId} {m : MFormat} {x : Vector W64 8} (hi : s.issues st 1) (hx : s.descr st m.a = x)
  (hsel : m.sel = 0) (hb : m.b = 0) (hd : m.d = 0) (hn : s.namesDescr st m.a)
  (hq : s.dev.forgeOutstanding st (s.dev.slotOf st) < 4) (hk : s.takesNotices st (Device.noticeMbx x) 1)
include hi hx hsel hb hd hn hq hk

/-- FSUBMIT (R433, R435, R439). -/
theorem fsubmit_spec (hlegal : Device.forgeLegal false x = true) {t : Template}
    (htpl : s.dev.forgeTpl (Device.yardOf st) (Fin.ofNat 16 (dfield x 0 52 4)) = some t)
    (hfit : s.regionsFit st [⟨dfield x 3 0 32, 32 * t.nsrc, 64⟩])
    (hclean : s.dev.clean (s.dev.slotAt st (s.dev.slotOf st) (dfield x 3 0 32)) (32 * t.nsrc)) {tbl : List Source}
    (htbl : (s.dev.readTable st (s.dev.slotOf st) (dfield x 3 0 32) t.nsrc).2 = tbl) :
    let answers := fun code => Completes (.fsubmit st m) s (s.forgeAnswers st x false 0xFFFF code
      fun u => u.dev.forges = s.dev.forges)
    let joins := fun booked => Completes (.fsubmit st m) s (s.forgeJoins st x false booked
      (Fin.ofNat 16 (dfield x 0 52 4)) none (dfield x 2 32 32))
    (t.version.toNat ≠ dfield x 2 0 32 → answers Status.forgeTemplateInvalid) ∧
    (t.version.toNat = dfield x 2 0 32 → (∀ i, i < t.nsrc → (t.elems[i]?).getD 0 ≤ ((tbl[i]?).map Source.len).getD 0) →
      tbl.all Source.formatOk = true → s.dev.mapped (dfield x 4 0 48) (dfield x 2 32 32 * t.stride) = true →
      s.dev.mapped (dfield x 5 0 48) (dfield x 2 32 32 * t.stride) = true →
      (∀ i ∈ tbl, s.dev.sourceMapped st (s.dev.slotOf st) i
        (if i.len = 0 then 0 else (dfield x 2 32 32 - 1) * i.pstride + i.len) = true) →
      dfield x 0 49 1 = 0 → dfield x 0 50 1 = 0 → s.dev.now.toNat < dfield x 1 0 48 →
      (dfield x 0 51 1 = 1 → joins false) ∧
      (dfield x 0 51 1 = 0 → s.dev.admits (Device.yardOf st) t (Device.forwardReq (s.dev.newReq st false x) tbl) = true →
        joins true) ∧
      (dfield x 0 51 1 = 0 → ¬ s.dev.admits (Device.yardOf st) t (Device.forwardReq (s.dev.newReq st false x) tbl) = true →
        answers Status.admissionRefused)) := by
  have hissue := forgeIssue_forward (w := Coeri.firstWord (.fsubmit st m)) hx hsel hb hd hn hq hk hlegal htpl hfit
  have hask := asks_newReq s st false x
  have hbook := booked_newReq s st false x
  have hnone : (s.dev.newReq st false x).entry = none := rfl
  generalize s.dev.newReq st false x = q at hissue hask hbook hnone ⊢
  generalize s.dev.reserving st (Device.noticeMbx x) = d at hissue hask
  have he : exec (.fsubmit st m) s =
      .next (s.onDev fun d => d.issue st 1 fun d => d.forgeIssue st false m (Coeri.firstWord (.fsubmit st m))) := rfl
  refine ⟨fun hver => completes_wrongVersion hi he hask hissue htpl hclean htbl hver,
    fun hver hlen hfmt hout hdiag hsrc hraw hret hdue => ?_⟩
  have htest := forward_tested (f := fun d => d.forgeIssue st false m (Coeri.firstWord (.fsubmit st m))) hask hissue
    htpl hclean htbl hver hlen hfmt hout hdiag hsrc hraw hret
  have hset := settles_forward hask.desc hnone tbl
  rw [if_neg Bool.false_ne_true] at hbook
  exact ⟨fun hu => completes_joins hi he hask hset htest hdue (hbook.trans (decide_eq_false (by omega)))
      fun h => absurd h Bool.false_ne_true,
    fun hu hfits => completes_joins hi he hask hset htest hdue (hbook.trans (decide_eq_true hu)) fun _ => hfits,
    fun hu hfits => completes_unfit hi he hask hset htest hdue (hbook.trans (decide_eq_true hu)) (Bool.eq_false_iff.mpr hfits)⟩

variable {i : Instr} (he : exec i s =
  .next (s.onDev fun d => d.issue st 1 fun d => d.forgeIssue st true m (Coeri.firstWord (.backward st m))))
  (hlegal : Device.forgeLegal true x = true)
  (hfit : dfield x 0 54 2 = 2 ∨ s.regionsFit st [⟨dfield x 2 32 32, 288, 64⟩])
include he hlegal hfit

/-- FBACK of an entry that is not retained (R447). -/
theorem fback_expired (hret : s.dev.retained (Device.yardOf st) (dfield x 2 0 16) = none) :
    Completes i s (s.forgeAnswers st x true 0xFFFF Status.forgeRetentionExpired fun u => u.dev.forges = s.dev.forges) :=
  completes_notRetained hi he (asks_newReq s st true x)
    (forgeIssue_backward hx hsel hb hd hn hq hk hlegal hfit) hret

variable {e : Fin 64} {r : Retention} (hret : s.dev.retained (Device.yardOf st) (dfield x 2 0 16) = some (e, r))
include hret

/-- RELEASE of an entry that no FBACK holds (R447). -/
theorem fback_release (hop : dfield x 0 54 2 = 2) (hheld : s.dev.retentionHeld (Device.yardOf st) e = false) :
    Completes i s (s.forgeAnswers st x true (Device.handleOf e r) Status.done fun u =>
      (u.dev.forge (Device.yardOf st)).ret[e] = { Reset.retention with gen := (r.gen + 1) % 1023 } ∧
        ∀ v, v ≠ e → (u.dev.forge (Device.yardOf st)).ret[v] = (s.dev.forge (Device.yardOf st)).ret[v]) := by
  have hissue := forgeIssue_backward (w := Coeri.firstWord (.backward st m)) hx hsel hb hd hn hq hk hlegal hfit
  have hask := asks_newReq s st true x
  generalize s.dev.newReq st true x = q at hissue hask
  exact completes_forgeFrees hi he hask.stall hask.desc hask.backs hret hop hheld hissue

/-- FBACK whose gradients go into its source alone (R446). -/
theorem fback_joins {t : Template} {tbl : List Source} {g : Source} (hop : dfield x 0 54 2 ≠ 2)
    (htpl : s.dev.forgeTpl (Device.yardOf st) r.tslot = some t)
    (hclean : s.dev.clean (s.dev.slotAt st (s.dev.slotOf st) (dfield x 2 32 32)) (32 * 9))
    (htbl : (s.dev.readTable st (s.dev.slotOf st) (dfield x 2 32 32) 9).2 = tbl)
    (hg : (tbl[0]?).getD (Vector.replicate 4 0) = g) (hlen : t.n ≤ g.len) (hfmt : g.formatOk = true)
    (hoff : ∀ i ∈ (tbl.drop 1).take t.nsrc, Source.enabled i = false) (hraw : dfield x 3 0 48 = 0)
    (hfits : decide (dfield x 0 53 1 = 0) = true →
      s.dev.admits (Device.yardOf st) t (Device.backwardReq (s.dev.newReq st true x) e r tbl) = true)
    (hsrc : s.dev.sourceMapped st (s.dev.slotOf st) g ((r.nprob - 1) * g.pstride + g.len) = true)
    (hdue : s.dev.now.toNat < dfield x 1 0 48) :
    Completes i s (s.forgeJoins st x true (decide (dfield x 0 53 1 = 0)) r.tslot (some e) r.nprob) := by
  have hissue := forgeIssue_backward (w := Coeri.firstWord (.backward st m)) hx hsel hb hd hn hq hk hlegal hfit
  have hask := asks_newReq s st true x
  have hbook := booked_newReq s st true x
  generalize s.dev.newReq st true x = q at hissue hask hbook hfits
  generalize s.dev.reserving st (Device.noticeMbx x) = d at hissue hask
  have htest := backward_tested (f := fun d => d.forgeIssue st true m (Coeri.firstWord (.backward st m))) hask hissue
    hret hop htpl hclean htbl hg hlen hfmt hoff hraw hsrc
  exact completes_joins hi he hask (settles_backward q e r tbl) htest hdue hbook hfits

end

end Sys2Proof.Machine
end

section
/-! O37: the obligation. -/

namespace Sys2Proof.Machine

/-- Settles O37: a request that the checks let through is answered, admitted or released, and each instruction retires. -/
theorem forgeInstructions : Obligations.ForgeInstructions := by
  intro st m s hi hsel hb hd hn hq sl y x k reqs retires admits answers same fits hk
  have hz : s.descr st m.a = x := rfl
  refine ⟨fun hlegal t => ?_, fun hlegal => ?_⟩
  · intro ts n tbl q htpl hfit hclean
    exact fsubmit_spec hi hz hsel hb hd hn hq hk hlegal htpl hfit hclean rfl
  · intro op handle hfit
    refine ⟨fun hret => ?_, fun e r hret => ⟨fun hop hheld => ?_, fun t => ?_⟩⟩
    · exact ⟨fback_expired hi hz hsel hb hd hn hq hk rfl hlegal hfit hret,
      fback_expired hi hz hsel hb hd hn hq hk rfl hlegal hfit hret,
      fback_expired hi hz hsel hb hd hn hq hk rfl hlegal hfit hret⟩
    · exact fback_release hi hz hsel hb hd hn hq hk rfl hlegal hfit hret hop hheld
    · intro htpl tbl g q booked hop hclean hlen hfmt hoff hraw hfits hsrc hdue
      exact ⟨fun _ => fback_joins hi hz hsel hb hd hn hq hk rfl hlegal hfit hret hop htpl hclean rfl rfl hlen hfmt hoff hraw
        hfits hsrc hdue,
      fun _ => fback_joins hi hz hsel hb hd hn hq hk rfl hlegal hfit hret hop htpl hclean rfl rfl hlen hfmt hoff hraw hfits hsrc
        hdue⟩

end Sys2Proof.Machine
end

section
/-! O36: commands of the DROVER page (R377, R379, R407). -/

namespace Sys2Proof.Machine

namespace Device

section
variable (d : Device) (y : Yard) (t : Fin 64)

theorem drovers_eventCode (p : Page) (i : Nat) (c : Code) : (d.eventCode p i c).drovers = d.drovers := by
  rw [d.quiet_eventCode p i c]

theorem drovers_writeCompletion (q : QueueId) (c : Completion) : (d.writeCompletion q c).drovers = d.drovers := by
  obtain ⟨-, -, h⟩ := d.writeCompletion_spec q c
  rw [h]

theorem drovers_completeCmd (q : QueueId) (cid : BitVec 16) (c : Code) (r : W64) :
    (d.completeCmd q cid c r).drovers = d.drovers := by
  unfold completeCmd
  extract_lets x h
  split
  · exact d.drovers_writeCompletion q x
  · rfl

theorem drovers_finishCmd (q : QueueId) (p : HostCmd → Bool) (c : Code) (r : W64) :
    (d.finishCmd q p c r).drovers = d.drovers := by
  unfold finishCmd
  split
  · rfl
  · exact drovers_completeCmd _ q _ c r

/-- TEAM_RESULT takes the code, and of the drovers nothing else differs. -/
theorem drovers_teamResult (who : Option Asker) (c : Code) :
    (d.teamResult y t who c).drovers = upd d.drovers y fun v => { v with result := c } := by
  unfold teamResult
  extract_lets e
  have he : e.drovers = upd d.drovers y fun v => { v with result := c } := drovers_eventCode _ _ _ _
  cases who with
  | none => exact he
  | some x => exact (e.drovers_finishCmd x.1 _ _ _).trans he

theorem result_teamResult (who : Option Asker) (c : Code) : (d.teamResult y t who c).drovers[y].result = c := by
  rw [d.drovers_teamResult, upd_same]

theorem team_of_drovers {d e : Device} (h : e.drovers = d.drovers) (v : Fin 64) : e.team y v = d.team y v := by
  unfold team
  rw [h]

/-- A change of a drover beside its teams. -/
theorem team_modDrover (f : Drover → Drover) (hf : (f d.drovers[y]).teams = d.drovers[y].teams) (v : Fin 64) :
    (d.modDrover y f).team y v = d.team y v := by
  have h : (d.modDrover y f).drovers[y] = f d.drovers[y] := upd_same _ _ _
  unfold team
  rw [h, hf]

theorem team_teamResult (who : Option Asker) (c : Code) (v : Fin 64) : (d.teamResult y t who c).team y v = d.team y v := by
  refine (team_of_drovers y (e := d.teamResult y t who c) (d := d.modDrover y fun v => { v with result := c }) ?_ v).trans
    (d.team_modDrover y _ rfl v)
  exact d.drovers_teamResult y t who c

/-- TEAM_ABORT_RES takes the code, and the team has no abort pending. -/
theorem abortAnswer_spec (c : Code) : (d.abortAnswer y t c).drovers[y].abortRes = c ∧
    (d.abortAnswer y t c).team y t = { d.team y t with abortPending := false } := by
  obtain ⟨e, he⟩ : ∃ e, e = d.modDrover y fun v => { v with abortRes := c } := ⟨_, rfl⟩
  have hres : e.drovers[y].abortRes = c := by
    rw [he]
    exact congrArg Drover.abortRes (upd_same _ _ _)
  have hteam : e.team y t = d.team y t := by rw [he, d.team_modDrover y _ rfl]
  obtain ⟨f, hf⟩ : ∃ f, f = e.modTeam y t fun m => { m with abortPending := false } := ⟨_, rfl⟩
  have hend : (d.abortAnswer y t c).drovers = f.drovers := by
    rw [hf, he]
    exact drovers_eventCode _ _ _ _
  constructor
  · rw [hend, hf]
    exact (congrArg Drover.abortRes (upd_same _ _ _)).trans hres
  · rw [team_of_drovers y hend, hf, team_modTeam_same, hteam]

end

end Device

section
variable {s : State} {y : Yard} {v : W32} {t : Fin 64} {who : Requester}

/-- A change of one team alone. -/
theorem onlyTo_modTeam (f : Team → Team) {m : Team} (hf : f (s.dev.team y t) = m) :
    s.onlyTo (s.onDev fun d => d.modTeam y t f) { s.dev with drovers := (s.dev.modTeam y t f).drovers } ∧
      (s.dev.modTeam y t f).team y t = m ∧ ∀ w, w ≠ t → (s.dev.modTeam y t f).team y w = s.dev.team y w :=
  ⟨⟨⟨rfl, rfl⟩, rfl⟩, (team_modTeam_same _ _ _ _).trans hf, fun _ hw => team_modTeam_ne _ _ _ _ _ hw⟩

variable (hserve : s.dev.serving = true) (ht : Fin.ofNat 64 (field v 0 6) = t)
include hserve ht

theorem teamCmd_create (hop : field v 16 2 = 1) : exec (.teamCmdCreate who y v) s = .next (s.onDev fun d => d.createTeam y t
    ((s.dev.preg (Page.drover y) 0x10C).toNat + s.dev.pfield (Page.drover y) 0x110 0 16 * 2 ^ 32)
    (s.dev.teamFrameReg y) none) := by
  subst ht
  change Host.Outcome.next (s.onDev fun d => d.teamCmd y v) = _
  refine congrArg _ (onDev_congr ?_)
  unfold Device.teamCmd
  dsimp only
  rw [if_neg (by rw [hserve]; decide), if_pos hop]

theorem teamCmd_destroy (hop : field v 16 2 = 2) : exec (.teamCmdDestroy who y v) s =
    .next (s.onDev fun d => d.destroyTeam y t (s.dev.teamFrameReg y) none) := by
  subst ht
  change Host.Outcome.next (s.onDev fun d => d.teamCmd y v) = _
  refine congrArg _ (onDev_congr ?_)
  unfold Device.teamCmd
  dsimp only
  rw [if_neg (by rw [hserve]; decide), if_neg (by omega), if_pos hop]

/-- An abort that no running operation answers (R407). -/
theorem teamAbort_late (h : (∃ o, (s.dev.team y t).op = some o ∧ o.live = false) ∨ (s.dev.team y t).op = none ∧
      ∀ j ∈ s.dev.drovers[y].jobs, dfield j.desc 0 42 6 ≠ t.val) :
    Completes (.teamAbort who y v) s fun u => u.dev.drovers[y].abortRes = Status.abortTooLate ∧
      u.dev.team y t = { s.dev.team y t with abortPending := false } := by
  refine ⟨s.onDev fun d => d.abortAnswer y t Status.abortTooLate, ?_, s.dev.abortAnswer_spec y t _⟩
  subst ht
  change Host.Outcome.next (s.onDev fun d => d.teamAbortCmd y v) = _
  refine congrArg _ (onDev_congr ?_)
  unfold Device.teamAbortCmd
  rw [if_neg (by rw [hserve]; decide)]
  dsimp only
  rcases h with ⟨o, ho, hl⟩ | ⟨ho, hj⟩
  · rw [ho]
    exact if_pos (by rw [hl]; rfl)
  · rw [ho]
    exact if_neg (by simpa using hj)

/-- An abort of an operation that waits in the queue (R407). -/
theorem teamAbort_pends (ho : (s.dev.team y t).op = none) (hj : ∃ j ∈ s.dev.drovers[y].jobs, dfield j.desc 0 42 6 = t.val) :
    exec (.teamAbort who y v) s = .next (s.onDev fun d => d.modTeam y t fun m => { m with abortPending := true }) := by
  subst ht
  change Host.Outcome.next (s.onDev fun d => d.teamAbortCmd y v) = _
  refine congrArg _ (onDev_congr ?_)
  unfold Device.teamAbortCmd
  rw [if_neg (by rw [hserve]; decide)]
  dsimp only
  rw [ho]
  exact if_pos (by simpa using hj)

end

end Sys2Proof.Machine
end

section
/-! O36: CREATE and DESTROY of a team slot (R377, R379). -/

namespace Sys2Proof.Machine

section
variable {s : State} {y : Yard} {t : Fin 64}

/-- A CREATE that waits for its frame. -/
theorem createTeam_waits {dpa : Nat} {f : Frame} {who : Option Asker} (h : s.dev.now.toNat < f.toNat) :
    s.onDev (fun d => d.createTeam y t dpa f who) = s.onDev fun d => d.modTeam y t fun m => { m with
      creates := m.creates ++ [⟨dpa, f, who, decide (m.state = .free)⟩]
      state := if m.state = .free then .pending else m.state } := by
  refine onDev_congr ?_
  unfold Device.createTeam
  rw [if_neg (by rw [BitVec.le_def]; omega)]

theorem createTeam_refused {dpa : Nat} {f : Frame} {who : Option Asker} (h : f.toNat ≤ s.dev.now.toNat) :
    s.onDev (fun d => d.createTeam y t dpa f who) = s.onDev fun d => d.teamResult y t who Status.teamConfigInvalid := by
  refine onDev_congr ?_
  unfold Device.createTeam
  rw [if_pos (by rw [BitVec.le_def]; exact h)]

theorem destroyTeam_waits {f : Frame} {who : Option Asker} (h : s.dev.now.toNat < f.toNat) :
    s.onDev (fun d => d.destroyTeam y t f who) =
      s.onDev fun d => d.modTeam y t fun m => { m with destroys := m.destroys ++ [(f, who)] } := by
  refine onDev_congr ?_
  unfold Device.destroyTeam
  rw [if_neg (by rw [BitVec.le_def]; omega)]

theorem destroyTeam_refused {f : Frame} {who : Option Asker} (h : f.toNat ≤ s.dev.now.toNat) :
    s.onDev (fun d => d.destroyTeam y t f who) = s.onDev fun d => d.teamResult y t who Status.teamConfigInvalid := by
  refine onDev_congr ?_
  unfold Device.destroyTeam
  rw [if_pos (by rw [BitVec.le_def]; exact h)]

end

theorem upd_congr_at {α : Type} {n : Nat} (v : Vector α n) (i : Fin n) (f g : α → α) (h : f v[i] = g v[i]) : upd v i f = upd v i g := by
  have h' : f v[i.val] = g v[i.val] := h
  simp [upd, h']

theorem upd_upd {α : Type} {n : Nat} (v : Vector α n) (i : Fin n) (f g : α → α) : upd (upd v i f) i g = upd v i fun x => g (f x) := by
  simp [upd]

namespace Device

section
variable (d : Device) (y : Yard) (t : Fin 64)

/-- The teams with one of them replaced. -/
theorem modTeam_modTeam (f g : Team → Team) : (d.modTeam y t f).modTeam y t g = d.modTeam y t fun m => g (f m) := by
  unfold modTeam modDrover
  dsimp only
  rw [upd_upd]
  dsimp only
  congr 2
  funext x
  rw [upd_upd]

end

end Device

/-! ### A read of sound LP6 memory and the registers of other pages -/

namespace Device

/-- e is d but for counters of the memory controllers, batches and free values drawn. -/
def Read (d e : Device) : Prop := Counted d e ∧ ∀ k, k < 0x10_0000 → e.reg k = d.reg k

namespace Read

variable {d e f : Device}

theorem refl (d : Device) : Read d d := ⟨rfl, fun _ _ => rfl⟩

theorem trans (h : Read d e) (k : Read e f) : Read d f := ⟨h.1.trans k.1, fun i hi => (k.2 i hi).trans (h.2 i hi)⟩

end Read

section
variable (d : Device)

theorem read_bump (c : Chan) (o n : Nat) : Read d (d.bump (Page.memctl c) o n) :=
  ⟨rfl, fun k hk => d.reg_setPreg_ne _ o _ k (by
    have : (Page.memctl c).base = 0x10_0000 + c.val * 0x1000 := rfl
    unfold Page.reg
    omega)⟩

theorem read_burstServed (c : Chan) (w b : Bool) : Read d (d.burstServed c w b) := by
  simp only [burstServed, drawFree]
  have h0 : Read d { d with free := d.free + 1, batches := d.batches.set c (d.batches[c].take w (Config.turnRound d.free)).1 } :=
    ⟨rfl, fun _ _ => rfl⟩
  generalize ({ d with free := _, batches := _ } : Device) = e at h0 ⊢
  have h1 := h0.trans (read_bump e c (if w then 0x124 else 0x120) 1)
  split
  · exact ((h1.trans (read_bump _ _ _ _)).trans (read_bump _ _ _ _)).trans (read_bump _ _ _ _)
  · exact (h1.trans (read_bump _ _ _ _)).trans (read_bump _ _ _ _)

theorem read_readUnit (u : Nat) (k : Bool) (h : d.sound u) : Read d (d.readUnit u k).1 := by
  obtain ⟨hb, hc, hm⟩ := h
  by_cases hu : u < loftBase
  · have hs := served_burstServed hu d (d.chanOf u) false k
    have hr : d.readUnit u k = (d.burstServed (d.chanOf u) false k, .ok) := by
      simp only [readUnit, if_pos hu, if_neg (hm hu), hs.bad, hs.ce, if_neg hb, if_neg hc]
    rw [hr]
    exact d.read_burstServed _ _ _
  · rw [d.readUnit_clean u k (Nat.not_lt.mp hu) hb hc]
    exact .refl d

theorem read_foldl {k : Bool} (us : List Nat) (bad : List (Nat × MemRes)) (h : ∀ u ∈ us, d.sound u) :
    Read d (us.foldl (fun (x : Device × List (Nat × MemRes)) u =>
      let (d, res) := x.1.readUnit u k
      (d, if res = .ok then x.2 else x.2 ++ [(u, res)])) (d, bad)).1 := by
  induction us generalizing d bad with
  | nil => exact .refl d
  | cons u us ih =>
    have hone := d.read_readUnit u k (h u (List.mem_cons_self ..))
    rw [List.foldl_cons]
    dsimp only
    refine hone.trans (ih _ _ fun v hv => ?_)
    rw [hone.1]
    exact h v (List.mem_cons_of_mem u hv)

theorem read_readRange (a n : Nat) (k : Bool) (h : d.soundRange a n) : Read d (d.readRange a n k).1 := by
  have hr := d.read_foldl (k := k) (unitsOf a n) [] h.2
  unfold readRange
  exact hr

end

end Device

end Sys2Proof.Machine
end

section
/-! O36: the check of a record does not depend on what a read of it counts (R377, R378). -/

namespace Sys2Proof.Machine

namespace Device

namespace Read

variable {d e : Device} (h : Read d e)
include h

theorem modTeam (y : Yard) (t : Fin 64) (f : Team → Team) : Read (d.modTeam y t f) (e.modTeam y t f) := by
  refine ⟨?_, h.2⟩
  unfold Counted
  conv_lhs => rw [h.1]
  rfl

theorem drovers : e.drovers = d.drovers := by rw [h.1]

theorem preg (p : Page) (o : Nat) (hp : p.base + o < 0x10_0000) : e.preg p o = d.preg p o := h.2 _ hp

theorem share (st : StallId) (y : Yard) : e.share st y = d.share st y := by
  have hb : (Page.shedOf st).base + shedOff st 0x100 < 0x10_0000 := by
    have h1 : (Page.shedOf st).base = 0x8_0000 + st.val / 16 * 0x1000 := rfl
    have h2 : shedOff st 0x100 = 0x100 + 16 * (st.val % 16) := rfl
    omega
  unfold Device.share
  rw [h.preg _ _ hb]

theorem activeTeams : e.activeTeams = d.activeTeams := by
  unfold Device.activeTeams
  rw [h.drovers]

theorem yardCapacity (y : Yard) : e.yardCapacity y = d.yardCapacity y := by
  rw [h.1]
  rfl

theorem reservations (y : Yard) : e.reservations y = d.reservations y := by
  have hb : (Page.forge y).base + 0x104 < 0x10_0000 := by
    revert y
    decide
  unfold Device.reservations pfield
  rw [h.activeTeams, h.preg _ _ hb]

theorem lp6Fits (y : Yard) : e.lp6Fits y = d.lp6Fits y := by
  unfold Device.lp6Fits allShares
  rw [h.yardCapacity, h.reservations, funext fun st => h.share st y]

theorem bridgeFits : e.bridgeFits = d.bridgeFits := by
  unfold Device.bridgeFits bridgeBooked crossShares
  rw [h.activeTeams, funext fun st => h.share st _]

theorem teamPort (y : Yard) (t : Fin 64) (neg : Bool) : e.teamPort y t neg = d.teamPort y t neg := by
  unfold Device.teamPort team
  rw [h.drovers]

theorem teamFlits (y : Yard) (p : PortId) (v : Nat) : e.teamFlits y p v = d.teamFlits y p v := by
  unfold Device.teamFlits
  rw [h.drovers]

theorem book (p : PortId) (v : Nat) (hv : v < 8) : e.book p v = d.book p v := by
  have hb : (Page.port p).base + (0x140 + 4 * (v - 1)) < 0x10_0000 := by
    have : (Page.port p).base = 0x4_0000 + p.val * 0x1000 := rfl
    omega
  unfold Device.book pfield
  rw [h.preg _ _ hb]

theorem teamRefusal (y : Yard) (t : Fin 64) (m : Team) : e.teamRefusal y t m = d.teamRefusal y t m := by
  have hx := h.modTeam y t fun _ => { m with state := .active }
  have hv : m.vc < 8 := dfield_lt _ _ _ _
  have hfits : e.teamFits y t m = d.teamFits y t m := by
    unfold teamFits
    dsimp only
    rw [hx.teamPort, hx.teamPort, hx.teamFlits, hx.teamFlits, h.book _ _ hv, h.book _ _ hv, hx.lp6Fits, hx.lp6Fits]
  unfold Device.teamRefusal
  rw [hfits, hx.bridgeFits]

end Read

end Device

end Sys2Proof.Machine
end

section
/-! O36: the boundary that activates a team (R377). -/

namespace Sys2Proof.Machine

namespace Device

section
variable (d : Device) (y : Yard) (t : Fin 64) (c : TeamCreate)

theorem team_dropCreate : (d.dropCreate y t c).team y t = { d.team y t with
    creates := (d.team y t).creates.erase c, state := if c.holds then .free else (d.team y t).state } :=
  team_modTeam_same _ _ _ _

/-- The slot is free but for the CREATE itself. -/
def emptyFor (d : Device) (y : Yard) (t : Fin 64) (c : TeamCreate) : Prop := c.holds = true ∨ (d.team y t).state = .free

theorem state_dropCreate : ((d.dropCreate y t c).team y t).state = .free ↔ d.emptyFor y t c := by
  rw [team_dropCreate]
  unfold emptyFor
  cases c.holds <;> simp

/-- A CREATE that is refused leaves its slot. -/
theorem activateOne_refuses {code : Code} {e : Device} (h : d.activateOne y t c = e.teamResult y t c.who code)
    (he : e.drovers = (d.dropCreate y t c).drovers) : (d.activateOne y t c).drovers[y].result = code ∧
      (d.activateOne y t c).team y t = { d.team y t with
        creates := (d.team y t).creates.erase c, state := if c.holds then .free else (d.team y t).state } := by
  rw [h]
  exact ⟨e.result_teamResult y t _ _, by rw [e.team_teamResult, team_of_drovers y he, team_dropCreate]⟩

/-- The slot, or the place of the record, rules a CREATE out. -/
theorem activateOne_misplaced (h : ¬ d.emptyFor y t c ∨ c.dpa % 8 ≠ 0 ∨ (d.mapped c.dpa 64 = true ∧ d.inLp6 c.dpa 64 = false)) :
    d.activateOne y t c = (d.dropCreate y t c).teamResult y t c.who Status.teamConfigInvalid := by
  rw [← d.state_dropCreate] at h
  unfold activateOne
  extract_lets e m
  change ¬ m.state = .free ∨ _ at h
  by_cases h1 : m.state ≠ .free ∨ c.dpa % 8 ≠ 0
  · exact if_pos (by simpa using h1)
  · refine (if_neg (by simpa using h1)).trans ?_
    obtain ⟨hm, hl⟩ := (h.resolve_left fun h2 => h1 (.inl h2)).resolve_left fun h2 => h1 (.inr h2)
    refine (if_neg (show ¬ (!d.mapped c.dpa 64) = true by rw [hm]; decide)).trans (if_pos ?_)
    change (!d.inLp6 c.dpa 64) = true
    rw [hl]
    rfl

theorem activateOne_unmapped (he : d.emptyFor y t c) (ha : c.dpa % 8 = 0) (hm : d.mapped c.dpa 64 = false) :
    d.activateOne y t c = (d.dropCreate y t c).teamResult y t c.who Status.addressUnmapped := by
  rw [← d.state_dropCreate] at he
  unfold activateOne
  extract_lets e m
  refine (if_neg (by simpa using ⟨he, ha⟩)).trans (if_pos ?_)
  change (!d.mapped c.dpa 64) = true
  rw [hm]
  rfl

/-- The team that a record at a sound place describes. -/
def describedTeam (d : Device) (y : Yard) (t : Fin 64) (c : TeamCreate) : Team :=
  { Reset.team with
    state := .active, record := d.descrAt c.dpa, act := c.act, since := c.act, turn := (d.team y t).turn
    nextSeq := (d.team y t).nextSeq, sendSeq := (d.team y t).sendSeq, creates := (d.team y t).creates.erase c
    destroys := (d.team y t).destroys, abortPending := (d.team y t).abortPending }

/-- A CREATE whose record reads well. -/
theorem activateOne_reads (he : d.emptyFor y t c) (ha : c.dpa % 8 = 0) (hl : d.inLp6 c.dpa 64 = true)
    (hs : d.soundRange c.dpa 64) : ∃ g : Device, g.drovers = (d.dropCreate y t c).drovers ∧ d.activateOne y t c =
      match (d.dropCreate y t c).teamRefusal y t (d.describedTeam y t c) with
      | some code => g.teamResult y t c.who code
      | none => (g.modTeam y t fun _ => d.describedTeam y t c).teamResult y t c.who Status.done := by
  obtain ⟨e, hed⟩ : ∃ e, e = d.dropCreate y t c := ⟨_, rfl⟩
  have hteam := d.team_dropCreate y t c
  have hfree := (d.state_dropCreate y t c).mpr he
  have hse : e.soundRange c.dpa 64 := hed ▸ hs
  obtain ⟨g, -, hg⟩ := e.readRange_sound c.dpa 64 false hse
  have hread := e.read_readRange c.dpa 64 false hse
  rw [hg] at hread
  refine ⟨g, hread.drovers.trans (by rw [hed]), ?_⟩
  have hmap : e.mapped c.dpa 64 = true := by
    rw [hed]
    change d.mapped c.dpa 64 = true
    unfold mapped
    rw [hl]
    rfl
  have hin : e.inLp6 c.dpa 64 = true := by
    rw [hed]
    exact hl
  have hdescr : e.descrAt c.dpa = d.descrAt c.dpa := by
    rw [hed]
    rfl
  rw [← hed] at hfree hteam ⊢
  unfold activateOne
  rw [← hed]
  dsimp only
  refine (if_neg (by simpa using ⟨hfree, ha⟩)).trans ?_
  refine (if_neg (by rw [hmap]; decide)).trans ((if_neg (by rw [hin]; decide)).trans ?_)
  rw [hg]
  dsimp only
  rw [e.words_descrAt, hdescr, hteam, hread.teamRefusal]
  rfl

end

end Device

end Sys2Proof.Machine
end

section
/-! O36: the boundary that frees a team (R379). -/

namespace Sys2Proof.Machine

namespace Device

theorem drovers_modStall (d : Device) (st : StallId) (f : Stall → Stall) : (d.modStall st f).drovers = d.drovers := rfl

section
variable (d : Device) (y : Yard) (t : Fin 64)

theorem drovers_reclaim (cause : Fin 5) (c : Code) (p : Page) (k n : Nat) : (d.reclaim cause c p k n).drovers = d.drovers := by
  obtain ⟨x, hx, he⟩ := d.reclaim_only cause c p k n
  rw [hx, he]

theorem drovers_releaseNotices (st : StallId) (m : Fin 8) (n : Nat) (cause : Fin 5) (c : Code) :
    (d.releaseNotices st m n cause c).drovers = d.drovers := drovers_reclaim _ _ _ _ _ _

/-- What an operation held goes back: the drovers differ by that operation alone. -/
theorem reclaimOp_eq (c : Code) {o : TeamOp} (h : (d.team y t).op = some o) : ∃ g f, d.reclaimOp y t c = modOp g y t f ∧
    g.drovers = d.drovers := by
  unfold reclaimOp
  split
  · next hn => exact absurd (h.symm.trans hn) (Option.some_ne_none o)
  · next o' =>
    extract_lets st left e f g
    have he : e.drovers = d.drovers := by
      dsimp only [e]
      split
      · exact drovers_reclaim _ _ _ _ _ _
      · rfl
    have hf : f.drovers = e.drovers := by
      dsimp only [f]
      split
      · exact e.drovers_reclaim _ _ _ _ _
      · rfl
    have hg : g.drovers = f.drovers := by
      dsimp only [g]
      split
      · rfl
      · exact f.drovers_releaseNotices _ _ _ _ _
    exact ⟨g, _, rfl, hg.trans (hf.trans he)⟩

theorem team_reclaimOp (c : Code) : ∃ o, (d.reclaimOp y t c).team y t = { d.team y t with op := o } := by
  cases h : (d.team y t).op with
  | none =>
    have hr : d.reclaimOp y t c = d := by
      unfold reclaimOp
      rw [h]
    rw [hr]
    exact ⟨_, rfl⟩
  | some o =>
    obtain ⟨g, f, hr, hg⟩ := d.reclaimOp_eq y t c h
    rw [hr, g.team_modOp, team_of_drovers y hg]
    exact ⟨_, rfl⟩

/-- An operation leaves its team: the turntable, the CREATEs and the DESTROYs stay. -/
theorem team_closeOp (c : Code) : (d.closeOp y t c).team y t = { (d.closeOp y t c).team y t with
    turn := (d.team y t).turn, creates := (d.team y t).creates, destroys := (d.team y t).destroys } := by
  unfold closeOp
  split
  · rfl
  · obtain ⟨o, ho⟩ := d.team_reclaimOp y t c
    dsimp only
    rw [team_modTeam_same, ho]

/-- A change of a team leaves the queue. -/
theorem jobs_modTeam (g : Team → Team) : (d.modTeam y t g).drovers[y].jobs = d.drovers[y].jobs := by
  have h : (d.modTeam y t g).drovers[y] = { d.drovers[y] with teams := upd d.drovers[y].teams t g } := upd_same _ _ _
  rw [h]

/-- The team that a DESTROY leaves. -/
def freedTeam (m : Team) : Team := { Reset.team with turn := m.turn, creates := m.creates, destroys := m.destroys }

variable (f : Frame × Option Asker)

/-- A DESTROY of a team at work, or of a slot that is not set up. -/
theorem freeOne_refused (h : (d.team y t).setUp = false ∨ (d.team y t).op.any (·.live) = true ∨
      ∃ j ∈ d.drovers[y].jobs, dfield j.desc 0 42 6 = t.val) :
    (d.freeOne y t f).drovers[y].result = Status.teamConfigInvalid ∧
      (d.freeOne y t f).team y t = { d.team y t with destroys := (d.team y t).destroys.erase f } := by
  obtain ⟨e, he⟩ : ∃ e, e = d.modTeam y t fun m => { m with destroys := m.destroys.erase f } := ⟨_, rfl⟩
  have hteam : e.team y t = { d.team y t with destroys := (d.team y t).destroys.erase f } := by rw [he, team_modTeam_same]
  have hjobs : e.drovers[y].jobs = d.drovers[y].jobs := by
    rw [he]
    exact jobs_modTeam _ _ _ _
  have hfree : d.freeOne y t f = e.teamResult y t f.2 Status.teamConfigInvalid := by
    unfold freeOne
    rw [← he]
    refine if_pos ?_
    rw [hteam, hjobs]
    simpa [Team.setUp, or_assoc] using h
  rw [hfree]
  exact ⟨e.result_teamResult y t _ _, by rw [e.team_teamResult, hteam]⟩

theorem freeOne_frees (hs : (d.team y t).setUp = true) (hl : (d.team y t).op.any (·.live) = false)
    (hj : ∀ j ∈ d.drovers[y].jobs, dfield j.desc 0 42 6 ≠ t.val) :
    (d.freeOne y t f).drovers[y].result = Status.done ∧ (d.freeOne y t f).team y t =
      freedTeam { d.team y t with destroys := (d.team y t).destroys.erase f } := by
  obtain ⟨e, he⟩ : ∃ e, e = d.modTeam y t fun m => { m with destroys := m.destroys.erase f } := ⟨_, rfl⟩
  have hteam : e.team y t = { d.team y t with destroys := (d.team y t).destroys.erase f } := by rw [he, team_modTeam_same]
  have hjobs : e.drovers[y].jobs = d.drovers[y].jobs := by
    rw [he]
    exact jobs_modTeam _ _ _ _
  obtain ⟨g, hg⟩ : ∃ g, g = match (e.team y t).op with
      | some o => e.closeOp y t o.worst
      | none => e := ⟨_, rfl⟩
  have hkept : freedTeam (g.team y t) = freedTeam (e.team y t) := by
    rw [hg]
    split
    · next o ho => rw [e.team_closeOp]; rfl
    · rfl
  have hfree : d.freeOne y t f = (g.modTeam y t freedTeam).teamResult y t f.2 Status.done := by
    unfold freeOne
    rw [← he]
    refine (if_neg ?_).trans (by rw [hg]; rfl)
    have hset : (e.team y t).setUp = true := by
      rw [hteam]
      exact hs
    have hop : (e.team y t).op = (d.team y t).op := by rw [hteam]
    rw [hset, hop, hl, hjobs]
    simpa using hj
  rw [hfree]
  exact ⟨result_teamResult _ y t _ _, by rw [team_teamResult, team_modTeam_same, hkept, hteam]⟩

end

end Device

end Sys2Proof.Machine
end

section
/-! O36: the obligation. -/

namespace Sys2Proof.Machine

section
variable {s : State} {y : Yard} {t : Fin 64}

/-- A boundary with one CREATE due. -/
theorem teamActivate_one (hb : s.dev.inBoundary = false) {c : TeamCreate}
    (hc : ((s.dev.team y t).creates.filter fun c => decide (c.act ≤ s.dev.now)) = [c]) :
    exec (.teamActivate y t) s = .next (s.onDev fun d => d.activateOne y t c) := by
  change Host.Outcome.next (s.onDev fun d => if d.inBoundary then d else d.activateTeam y t) = _
  refine congrArg _ (onDev_congr ?_)
  refine (if_neg (by rw [hb]; decide)).trans ?_
  unfold Device.activateTeam
  rw [hc]
  rfl

/-- A boundary with one DESTROY due. -/
theorem teamFree_one {f : Frame × Option Asker}
    (hf : ((s.dev.team y t).destroys.filter fun f => decide (f.1 ≤ s.dev.now)) = [f]) :
    exec (.teamFree y t) s = .next (s.onDev fun d => d.freeOne y t f) := by
  change Host.Outcome.next (s.onDev fun d => d.freeTeam y t) = _
  refine congrArg _ (onDev_congr ?_)
  unfold Device.freeTeam
  rw [hf]
  rfl

/-- A CREATE whose record reads well is decided by the check of the record. -/
theorem teamActivate_read {c : TeamCreate}
    (hexec : exec (.teamActivate y t) s = .next (s.onDev fun d => d.activateOne y t c)) (he : s.dev.emptyFor y t c)
    (ha : c.dpa % 8 = 0) (hl : s.dev.inLp6 c.dpa 64 = true) (hs : s.dev.soundRange c.dpa 64) :
    ((s.dev.dropCreate y t c).teamRefusal y t (s.dev.describedTeam y t c) = none →
      Completes (.teamActivate y t) s fun u => u.dev.team y t = s.dev.describedTeam y t c ∧
        u.dev.drovers[y].result = Status.done) ∧
    ∀ code, (s.dev.dropCreate y t c).teamRefusal y t (s.dev.describedTeam y t c) = some code →
      Completes (.teamActivate y t) s fun u => u.dev.drovers[y].result = code ∧ u.dev.team y t = { s.dev.team y t with
        creates := (s.dev.team y t).creates.erase c, state := if c.holds then .free else (s.dev.team y t).state } := by
  obtain ⟨g, hg, hone⟩ := s.dev.activateOne_reads y t c he ha hl hs
  generalize s.dev.describedTeam y t c = new at hone ⊢
  refine ⟨fun hr => ⟨_, hexec, ?_⟩, fun code hr => ⟨_, hexec, ?_⟩⟩
  · rw [hr] at hone
    change (s.dev.activateOne y t c).team y t = new ∧ (s.dev.activateOne y t c).drovers[y].result = Status.done
    rw [hone]
    exact ⟨by rw [Device.team_teamResult, team_modTeam_same], Device.result_teamResult _ y t _ _⟩
  · rw [hr] at hone
    exact s.dev.activateOne_refuses y t c hone hg

end

/-- Settles O36: a CREATE and a DESTROY are taken out at their frame, and each leaves the slot and TEAM_RESULT that the check
of the record, the slot and its work decide. -/
theorem teamLife : Obligations.TeamLife := by
  intro who y v s frame answers
  constructor
  · intro t m dpa hserve
    refine ⟨fun hop hf => ?_, fun hop hf => ?_, fun hop hf => ?_, fun hop hf => ?_, fun ho hj => ?_, fun o ho hl => ?_,
      fun ho hj => ?_⟩
    · have he := teamCmd_create (who := who) hserve (y := y) (t := t) rfl hop
      rw [createTeam_waits hf] at he
      exact ⟨_, he, onlyTo_modTeam _ rfl⟩
    · have he := teamCmd_destroy (who := who) hserve (y := y) (t := t) rfl hop
      rw [destroyTeam_waits hf] at he
      exact ⟨_, he, onlyTo_modTeam _ rfl⟩
    · have he := teamCmd_create (who := who) hserve (y := y) (t := t) rfl hop
      rw [createTeam_refused hf] at he
      exact ⟨_, he, Device.result_teamResult _ y t _ _, Device.team_teamResult _ y t _ _ t⟩
    · have he := teamCmd_destroy (who := who) hserve (y := y) (t := t) rfl hop
      rw [destroyTeam_refused hf] at he
      exact ⟨_, he, Device.result_teamResult _ y t _ _, Device.team_teamResult _ y t _ _ t⟩
    · exact teamAbort_late hserve rfl (.inr ⟨ho, hj⟩)
    · exact teamAbort_late hserve rfl (.inl ⟨o, ho, hl⟩)
    · obtain ⟨honly, hteam, -⟩ := onlyTo_modTeam (s := s) (y := y) (t := t) (fun m => { m with abortPending := true }) rfl
      exact ⟨_, teamAbort_pends hserve rfl ho hj, honly, hteam⟩
  · intro t m
    refine ⟨fun hb c hc => ?_, fun f hf => ?_⟩
    · intro rest empty new refuses
      have hexec := teamActivate_one hb hc
      refine ⟨fun he ha hl hs => teamActivate_read hexec he ha hl hs, fun he ha hm => ⟨_, hexec, ?_⟩, fun h => ⟨_, hexec, ?_⟩⟩
      · exact s.dev.activateOne_refuses y t c (s.dev.activateOne_unmapped y t c he ha hm) rfl
      · exact s.dev.activateOne_refuses y t c (s.dev.activateOne_misplaced y t c h) rfl
    · intro works
      have hexec := teamFree_one hf
      refine ⟨fun hs hw => ⟨_, hexec, ?_⟩, fun h => ⟨_, hexec, ?_⟩⟩
      · exact s.dev.freeOne_frees y t f hs (Bool.eq_false_iff.mpr fun h => hw (.inl h)) fun j hj h => hw (.inr ⟨j, hj, h⟩)
      · exact s.dev.freeOne_refused y t f h

end Sys2Proof.Machine
end

section
/-! O33: the end of a barrow descriptor, and its acceptance (R317 to R319, R322). -/

namespace Sys2Proof.Machine

namespace Device

/-- e has written a notice with first word w to mailbox k of st, into a slot reserved for it. -/
def Noticed (st : StallId) (k : Fin 8) (w : Nat) (d e : Device) : Prop :=
  ∃ m : Message, (e.mbx st k).msgs = (d.mbx st k).msgs ++ [m] ∧ m.notice = true ∧ leNat (m.data.take 8) = w ∧
    (e.mbx st k).inflight = (d.mbx st k).inflight - 1

section
variable (d : Device) (st : StallId) (i : Nat) (j : BarrowJob) (code : Code) (bytes fail : Nat)

theorem barrowNotice_posted (hfw : j.firmware = false) : ∃ n : Message, ∃ b : Bool,
    n.says (dfield j.desc 0 56 8 * 2 ^ 56 + code.toNat) ∧
      d.barrowNotice st j code 0 0 bytes fail = d.modStall st (Stall.posted (noticeMbx j.desc) n b) := by
  have htag := dfield_lt j.desc 0 56 8
  have hcode := code.isLt
  have hw : dfield j.desc 0 56 8 * 2 ^ 56 + 0 % 2 ^ 16 * 2 ^ 32 + (0 : Code).toNat * 2 ^ 16 + code.toNat =
      dfield j.desc 0 56 8 * 2 ^ 56 + code.toNat := by
    have : (0 : Code).toNat = 0 := rfl
    omega
  unfold barrowNotice
  rw [hfw, if_neg Bool.false_ne_true, hw]
  exact d.post_eq st _ _ _ _ (by omega)

/-- A descriptor that leaves the queue with its notice. -/
theorem dropNotice_spec (hfw : j.firmware = false) : ∃ e : Device, (d.dropJob st i).barrowNotice st j code 0 0 bytes fail = e ∧
    e = { d with stalls := e.stalls } ∧ (e.stall st).barrow = (d.stall st).barrow.eraseIdx i ∧
    Noticed st (noticeMbx j.desc) (dfield j.desc 0 56 8 * 2 ^ 56 + code.toNat) d e := by
  obtain ⟨n, b, ⟨hn, hw⟩, hp⟩ := (d.dropJob st i).barrowNotice_posted st j code bytes fail hfw
  refine ⟨_, hp, rfl, ?_, n, ?_, hn, hw, ?_⟩
  · rw [stall_modStall_same, dropJob, stall_modStall_same]
    rfl
  · unfold mbx
    rw [stall_modStall_same, dropJob, stall_modStall_same]
    exact congrArg Mailbox.msgs (upd_same _ _ _)
  · unfold mbx
    rw [stall_modStall_same, dropJob, stall_modStall_same]
    exact congrArg Mailbox.inflight (upd_same _ _ _)

/-- A descriptor refused at its acceptance. -/
theorem refuseJob_spec (hfw : j.firmware = false) (hcode : code ≠ Status.barrowFault) : ∃ e : Device,
    d.refuseJob st i j code fail = e ∧ SameBytes d e ∧ (e.stall st).barrow = (d.stall st).barrow.eraseIdx i ∧
    Noticed st (noticeMbx j.desc) (dfield j.desc 0 56 8 * 2 ^ 56 + code.toNat) d e := by
  obtain ⟨e, he, hes, hb, hn⟩ := d.dropNotice_spec st i j code 0 fail hfw
  obtain ⟨x, hx, hxo⟩ := e.reclaim_only 3 code (Page.stall st) (barrowTally st j.slot) 1
  have hxs : x.stalls = e.stalls := by rw [hxo]
  have hstall : x.stall st = e.stall st := congrArg (fun v : Vector Stall 384 => v[st]) hxs
  refine ⟨x, ?_, ?_, ?_, ?_⟩
  · unfold refuseJob
    rw [he]
    exact (if_neg hcode).trans hx
  · exact ⟨by rw [hxo, hes], by rw [hxo, hes]; rfl⟩
  · rw [hstall, hb]
  · unfold Noticed mbx at hn ⊢
    rw [hstall]
    exact hn

end

section
variable (d : Device) (st : StallId) (i : Nat) (j : BarrowJob)

/-- A descriptor as its acceptance marks it. -/
def acceptedJob (d : Device) (j : BarrowJob) : BarrowJob := { j with accept := d.now, accepted := true }

theorem rangesOf_accepted : d.rangesOf st (d.acceptedJob j) = d.rangesOf st j := rfl

/-- Acceptance of a descriptor that names an unmapped byte. -/
theorem acceptJob_unmapped (h : ∃ r ∈ d.rangesOf st j, d.mapped r.1 r.2 = false) : ∃ fail,
    d.acceptJob st i j = d.refuseJob st i (d.acceptedJob j) Status.addressUnmapped fail := by
  obtain ⟨r, hr, hm⟩ := h
  have hsome : ((d.rangesOf st j).find? fun r => !d.mapped r.1 r.2).isSome = true :=
    List.find?_isSome.mpr ⟨r, hr, by rw [hm]; rfl⟩
  obtain ⟨q, hq⟩ := Option.isSome_iff_exists.mp hsome
  refine ⟨d.firstUnmapped q.1, ?_⟩
  unfold acceptJob
  extract_lets k rs lp6
  rw [show rs.find? (fun r => !d.mapped r.1 r.2) = some q from hq]
  rfl

/-- The charge of a descriptor and the stall's backlog in a yard (R318, R319). -/
def demand (d : Device) (st : StallId) (y : Yard) (rs : List (Nat × Nat)) : Nat :=
  d.backlog st y + d.inService y * maxOf (d.charges rs)

/-- A descriptor with its yard and the charge that is left. -/
def chargedJob (d : Device) (j : BarrowJob) (y : Yard) (rs : List (Nat × Nat)) : BarrowJob :=
  { d.acceptedJob j with yard := y, rem := (d.charges rs).map fun p => (p.1, 2 * d.inService y * p.2) }

/-- Acceptance of a descriptor in the memory of one yard. -/
theorem acceptJob_lp6 {y : Yard} (hs : j.stash = false) (hne : d.rangesOf st j ≠ [])
    (h : ∀ r ∈ d.rangesOf st j, d.inLp6 r.1 r.2 = true ∧ d.yardAt r.1 = y ∧ d.yardAt (r.1 + r.2 - 1) = y) :
    d.acceptJob st i j =
      if dfield j.desc 0 15 1 = 1 then d.placeJob st i (d.chargedJob j y (d.rangesOf st j))
      else if 0 < d.share st y ∧ d.demand st y (d.rangesOf st j) ≤ 64 * d.share st y then
        d.placeJob st i { d.chargedJob j y (d.rangesOf st j) with
          booked := true
          promise := d.now + BitVec.ofNat 48 (2 + ceilDiv (d.demand st y (d.rangesOf st j)) (d.share st y)) }
      else d.refuseJob st i (d.chargedJob j y (d.rangesOf st j)) Status.admissionRefused 0 := by
  obtain ⟨rs, hrs⟩ : ∃ rs, rs = d.rangesOf st j := ⟨_, rfl⟩
  rw [← hrs] at h hne ⊢
  have hfind : rs.find? (fun r => !d.mapped r.1 r.2) = none := List.find?_eq_none.mpr fun r hr => by
    rw [mapped, (h r hr).1, Bool.true_or]
    decide
  have hfilter : rs.filter (fun r => d.inLp6 r.1 r.2) = rs := List.filter_eq_self.mpr fun r hr => (h r hr).1
  obtain ⟨r, rest, hr⟩ := List.exists_cons_of_ne_nil hne
  have hy : d.yardAt r.1 = y := (h r (hr ▸ List.mem_cons_self ..)).2.1
  have hone : ¬ (rs.length < rs.length ∨ (rs.any fun q => decide (d.yardAt q.1 ≠ y ∨ d.yardAt (q.1 + q.2 - 1) ≠ y)) = true) := by
    rintro (hlt | hany)
    · exact absurd hlt (lt_irrefl _)
    · obtain ⟨q, hq, hne⟩ := List.any_eq_true.mp hany
      obtain ⟨-, hq1, hq2⟩ := h q hq
      exact (of_decide_eq_true hne).elim (fun h => h hq1) fun h => h hq2
  obtain ⟨k, hk⟩ : ∃ k, k = d.acceptedJob j := ⟨_, rfl⟩
  have hks : k.stash = false := by
    rw [hk]
    exact hs
  have hkd : k.desc = j.desc := by
    rw [hk]
    rfl
  have hkr : d.rangesOf st k = rs := by rw [hk, rangesOf_accepted, hrs]
  unfold acceptJob chargedJob demand
  rw [show ({ j with accept := d.now, accepted := true } : BarrowJob) = k from hk.symm, ← hk]
  dsimp only
  rw [hkr, hfind, hfilter]
  generalize hrs' : rs = l at hr ⊢
  rw [hr]
  dsimp only
  rw [← hr, ← hrs', hy]
  refine (if_neg hone).trans ?_
  rw [hks, hkd]
  by_cases hu : dfield j.desc 0 15 1 = 1
  · rw [if_pos hu]
    exact if_pos (by rw [decide_eq_true hu]; rfl)
  · rw [if_neg hu, if_neg (by rw [decide_eq_false hu]; decide)]
    by_cases hfit : 0 < d.share st y ∧ d.backlog st y + d.inService y * maxOf (d.charges rs) ≤ 64 * d.share st y
    · rw [if_pos hfit, if_pos (by rw [decide_eq_true hfit.1, decide_eq_true hfit.2]; rfl)]
    · rw [if_neg hfit, if_neg (by rw [Bool.and_eq_true, decide_eq_true_eq, decide_eq_true_eq]; exact hfit),
        if_neg Bool.false_ne_true]

end

end Device

end Sys2Proof.Machine
end

section
/-! O33: the moves of a descriptor (R320, R323, R324). -/

namespace Sys2Proof.Machine

namespace Device

theorem Counted.soundRange {d e : Device} (h : Counted d e) {a n : Nat} (hs : d.soundRange a n) : e.soundRange a n := by
  rw [h]
  exact hs

section
variable (d : Device)

theorem moveRow_zero (a b : Nat) (k named : Bool) : d.moveRow a b 0 k named = (d, []) := rfl

/-- A move over sound units leaves what its source held at its destination. -/
theorem moveRow_sound (src dst n : Nat) (k named : Bool) (hs : d.soundRange src n) (hd : d.soundRange dst n)
    (harm : d.tally.armed = false) : ∃ e : Device, Counted d e ∧
      d.moveRow src dst n k named = (e.wrBytes dst (d.rdBytes src n), []) := by
  obtain ⟨e, he, hread⟩ := d.readRange_sound src n k hs
  obtain ⟨l, hl⟩ : ∃ l, l = d.rdBytes src n := ⟨_, rfl⟩
  have hlen : l.length = n := by rw [hl, length_rdBytes]
  obtain ⟨f, hf, hwrite⟩ := e.writeRange_sound dst l k (by rw [hlen]; exact he.1.soundRange hd) (by rw [he.tally]; exact harm)
  refine ⟨f, he.1.trans hf.1, ?_⟩
  unfold moveRow
  rw [hread, ← hl]
  dsimp only
  rw [hwrite]
  rfl

variable (st : StallId) (j : BarrowJob)

/-- No byte moves nothing. -/
theorem runMoves_zero : d.runMoves st j 0 = (d, [], 0) := by
  have h (l : List Move) : l.foldl (fun (a : Device × List (Nat × MemRes) × Nat × Nat) m =>
      let n := min m.bytes a.2.2.2
      let named := if j.stash then !ownLoft st m.dst else j.put
      let (d, bad) := a.1.moveRow m.src m.dst n j.booked named
      let base := if named then m.dst else m.src
      let lost := (bad.map fun p => overlapBytes base n p.1).sum
      (d, a.2.1 ++ bad, a.2.2.1 + lost, a.2.2.2 - n)) (d, [], 0, 0) = (d, [], 0, 0) := by
    induction l with
    | nil => rfl
    | cons m l ih =>
      rw [List.foldl_cons]
      dsimp only
      rw [Nat.min_zero, moveRow_zero]
      exact ih
  unfold runMoves
  rw [h]

/-- The first n bytes of a descriptor's one move. -/
theorem runMoves_one {m : Move} {n : Nat} (hm : d.movesOf st j = [m]) (hn : n ≤ m.bytes) (hs : d.soundRange m.src n)
    (hd : d.soundRange m.dst n) (harm : d.tally.armed = false) : ∃ e : Device, Counted d e ∧
      d.runMoves st j n = (e.wrBytes m.dst (d.rdBytes m.src n), [], 0) := by
  obtain ⟨e, he, hrow⟩ := d.moveRow_sound m.src m.dst n j.booked (if j.stash then !ownLoft st m.dst else j.put) hs hd harm
  refine ⟨e, he, ?_⟩
  unfold runMoves
  rw [hm, List.foldl_cons, List.foldl_nil]
  dsimp only
  rw [Nat.min_eq_right hn, hrow]
  rfl

end

/-- What n bytes moved from src to dst leave. -/
def Moved (d : Device) (src dst n : Nat) (e : Device) : Prop :=
  (∀ q, q < n → e.rdByte (dst + q) = d.rdByte (src + q)) ∧ ∀ a, a < dst ∨ dst + n ≤ a → e.rdByte a = d.rdByte a

theorem moved_wrBytes {d e : Device} (h : Counted d e) (src dst n : Nat) : Moved d src dst n (e.wrBytes dst (d.rdBytes src n)) := by
  have hlen : (d.rdBytes src n).length = n := length_rdBytes ..
  have hbyte (a : Nat) : e.rdByte a = d.rdByte a := by
    rw [h]
    rfl
  refine ⟨fun q hq => ?_, fun a ha => ?_⟩
  · rw [e.rdByte_wrBytes_in dst q _ (by rw [hlen]; exact hq)]
    simp [rdBytes]
  · rw [e.rdByte_wrBytes_out dst a _ (by rw [hlen]; exact ha), hbyte]

/-- The first bytes of a sound range are sound. -/
theorem soundRange_take {d : Device} {a n m : Nat} (h : d.soundRange a n) (hm : m ≤ n) : d.soundRange a m := by
  obtain ⟨hside, hall⟩ := h
  refine ⟨hside.imp_left fun h => by omega, fun u hu => hall u ?_⟩
  by_cases h0 : m = 0
  · rw [unitsOf, if_pos h0] at hu
    exact absurd hu List.not_mem_nil
  · rw [unitsOf_eq a _ h0] at hu
    rw [unitsOf_eq a _ (by omega)]
    obtain ⟨i, hi, rfl⟩ := List.mem_map.mp hu
    have hle : (a + m - 1) / unitSize a ≤ (a + n - 1) / unitSize a := Nat.div_le_div_right (by omega)
    have hlt := List.mem_range.mp hi
    exact List.mem_map.mpr ⟨i, List.mem_range.mpr (by omega), rfl⟩

end Device

end Sys2Proof.Machine
end

section
/-! O33: completion and abort (R323 to R325). -/

namespace Sys2Proof.Machine

namespace Device

section
variable (d : Device) (st : StallId) (i : Nat) (j : BarrowJob)

/-- What a completed or aborted descriptor leaves: its moved bytes, the queue without it, and its notice. -/
def Ended (m : Move) (n i : Nat) (code : Code) (st : StallId) (j : BarrowJob) (d e : Device) : Prop :=
  Moved d m.src m.dst n e ∧ (e.stall st).barrow = (d.stall st).barrow.eraseIdx i ∧
    Noticed st (noticeMbx j.desc) (dfield j.desc 0 56 8 * 2 ^ 56 + code.toNat) d e

variable {m : Move}

/-- The notice of a descriptor once bytes of its move are moved. -/
theorem ended_dropNotice {e : Device} {n : Nat} (he : Counted d e) (code : Code) (bytes fail : Nat) (hfw : j.firmware = false) :
    ∃ x, ((e.wrBytes m.dst (d.rdBytes m.src n)).dropJob st i).barrowNotice st j code 0 0 bytes fail = x ∧
      Ended m n i code st j d x := by
  obtain ⟨f, hf⟩ : ∃ f, f = e.wrBytes m.dst (d.rdBytes m.src n) := ⟨_, rfl⟩
  have hmoved : Moved d m.src m.dst n f := by
    rw [hf]
    exact moved_wrBytes he _ _ _
  have hstalls : f.stalls = d.stalls := by
    rw [hf, wrBytes_only]
    change e.stalls = _
    rw [he]
  have hstall : f.stall st = d.stall st := congrArg (fun v : Vector Stall 384 => v[st]) hstalls
  rw [← hf]
  obtain ⟨x, hx, hxs, hb, hn⟩ := f.dropNotice_spec st i j code bytes fail hfw
  refine ⟨x, hx, ?_, by rw [hb, hstall], ?_⟩
  · have hbyte (a : Nat) : x.rdByte a = f.rdByte a := by
      rw [hxs]
      rfl
    exact ⟨fun q hq => (hbyte _).trans (hmoved.1 q hq), fun a ha => (hbyte a).trans (hmoved.2 a ha)⟩
  · unfold Noticed mbx at hn ⊢
    rw [← hstall]
    exact hn

variable (hs : j.stash = false) (hfw : j.firmware = false) (hlate : j.late = none) (hclose : j.close = none)
  (hm : d.movesOf st j = [m]) (hsrc : d.soundRange m.src m.bytes) (hdst : d.soundRange m.dst m.bytes)
  (harm : d.tally.armed = false)

include hs hfw hlate hclose hm hsrc hdst harm in
theorem completeJob_spec : ∃ x, d.completeJob st i j = x ∧
    Ended m m.bytes i (if j.booked then Status.done else Status.unbookedDone) st j d x := by
  obtain ⟨e, he, hrun⟩ := d.runMoves_one st j hm le_rfl hsrc hdst harm
  obtain ⟨x, hx, hend⟩ := d.ended_dropNotice st i j (m := m) (n := m.bytes) he
    (if j.booked then Status.done else Status.unbookedDone) (m.bytes - 0) 0 hfw
  refine ⟨x, ?_, hend⟩
  unfold completeJob
  rw [hm]
  dsimp only
  rw [List.map_cons, List.map_nil, List.sum_singleton, hrun]
  dsimp only
  rw [hclose, hlate]
  dsimp only
  rw [hs, Bool.false_and, Bool.false_and, if_neg Bool.false_ne_true, if_neg Bool.false_ne_true]
  exact (if_neg Bool.false_ne_true).trans hx

end

end Device

end Sys2Proof.Machine
end

section
/-! O33: BARROW_ABORT (R324). -/

namespace Sys2Proof.Machine

namespace Device

section
variable (d : Device)

/-- The answer of BARROW_ABORT. -/
def abortAnswered (d : Device) (shed : Fin 24) (c : Code) : Device :=
  (d.setPreg ⟨.shed, shed⟩ 0x204 (c.setWidth 32)).record ⟨.shed, shed⟩ c

theorem abortAnswered_spec (shed : Fin 24) (c : Code) : (d.abortAnswered shed c).preg ⟨.shed, shed⟩ 0x204 = c.setWidth 32 ∧
    (d.abortAnswered shed c).stalls = d.stalls ∧ SameBytes d (d.abortAnswered shed c) := by
  have hq := (d.quiet_setPreg ⟨.shed, shed⟩ 0x204 (c.setWidth 32)).trans (quiet_record _ ⟨.shed, shed⟩ c)
  refine ⟨?_, ?_, hq.sameBytes⟩
  · have hne : ∀ o ∈ reportRegs, (⟨.shed, shed⟩ : Page).reg 0x204 ≠ (⟨.shed, shed⟩ : Page).reg o := by
      intro o ho h
      have : (0x204 : Nat) = o := Nat.add_left_cancel h
      subst this
      exact absurd ho (by decide)
    exact (reg_record_ne _ _ _ _ hne).trans (d.preg_setPreg_same _ _ _)
  · rw [show d.abortAnswered shed c = _ from hq]

/-- The first descriptor that satisfies a test. -/
theorem findIdx_of_take {l : List BarrowJob} {p : BarrowJob → Bool} {i : Nat} {j : BarrowJob} (hi : l[i]? = some j)
    (hj : p j = true) (hk : ∀ k ∈ l.take i, p k = false) : l.findIdx? p = some i := by
  obtain ⟨hlt, rfl⟩ := List.getElem?_eq_some_iff.mp hi
  refine List.findIdx?_eq_some_iff_getElem.mpr ⟨hlt, hj, fun n hn => ?_⟩
  rw [hk _ (List.mem_take_iff_getElem.mpr ⟨n, by omega, rfl⟩)]
  decide

/-- A write of BARROW_ABORT names a descriptor. -/
def abortNames (v : W32) (j : BarrowJob) : Bool :=
  j.slot = (if flag v 4 then .paddock else .primary : Slot) && dfield j.desc 0 56 8 = field v 8 8 && j.late.isNone &&
    !j.firmware

variable (shed : Fin 24) (v : W32) (moved : Nat)

theorem barrowAbort_none (h : ∀ j ∈ (d.stall (stallOf shed (field v 0 4))).barrow, abortNames v j = false) :
    d.barrowAbort shed v moved = d.abortAnswered shed Status.abortTooLate := by
  have hnone : (d.stall (stallOf shed (field v 0 4))).barrow.findIdx? (abortNames v) = none :=
    List.findIdx?_eq_none_iff.mpr h
  unfold barrowAbort
  extract_lets st sl p l answer
  rw [show l.findIdx? (fun j => j.slot = sl && dfield j.desc 0 56 8 = field v 8 8 && j.late.isNone && !j.firmware) = none from hnone]
  rfl

section
variable {i : Nat} {j : BarrowJob} (hi : (d.stall (stallOf shed (field v 0 4))).barrow[i]? = some j)
  (hj : abortNames v j = true) (hk : ∀ k ∈ (d.stall (stallOf shed (field v 0 4))).barrow.take i, abortNames v k = false)
include hi hj hk

/-- A descriptor taken out with the first n bytes moved. -/
theorem barrowAbort_takes {n : Nat}
    (hc : ¬ (((d.movesOf (stallOf shed (field v 0 4)) j).map Move.bytes).sum ≤ moved ∧
      ((d.movesOf (stallOf shed (field v 0 4)) j).map Move.bytes).sum ≠ 0 ∧ d.mayComplete (stallOf shed (field v 0 4)) i = true))
    (hn : (if d.inProgress (stallOf shed (field v 0 4)) i then
      min moved (((d.movesOf (stallOf shed (field v 0 4)) j).map Move.bytes).sum - 1) else 0) = n)
    {e : Device} (hrun : d.runMoves (stallOf shed (field v 0 4)) j n = (e, [], 0)) : d.barrowAbort shed v moved =
      ((e.dropJob (stallOf shed (field v 0 4)) i).barrowNotice (stallOf shed (field v 0 4)) j Status.aborted 0 0 (n - 0)
        0).abortAnswered shed Status.aborted := by
  have hfind := findIdx_of_take hi hj hk
  unfold barrowAbort
  extract_lets st sl p l answer
  rw [show l.findIdx? (fun j => j.slot = sl && dfield j.desc 0 56 8 = field v 8 8 && j.late.isNone && !j.firmware) = some i from hfind]
  dsimp only
  rw [show l[i]? = some j from hi]
  dsimp only
  refine (if_neg (by simpa [st, and_assoc] using hc)).trans ?_
  rw [show (if d.inProgress st i then min moved (((d.movesOf st j).map Move.bytes).sum - 1) else 0) = n from hn,
    show d.runMoves st j n = (e, [], 0) from hrun]
  rfl

/-- A descriptor whose last byte is written ends as it would have. -/
theorem barrowAbort_late (hm : d.mayComplete (stallOf shed (field v 0 4)) i = true)
    (h0 : 0 < ((d.movesOf (stallOf shed (field v 0 4)) j).map Move.bytes).sum)
    (hn : ((d.movesOf (stallOf shed (field v 0 4)) j).map Move.bytes).sum ≤ moved) :
    d.barrowAbort shed v moved = (d.completeJob (stallOf shed (field v 0 4)) i j).abortAnswered shed Status.abortTooLate := by
  have hfind := findIdx_of_take hi hj hk
  unfold barrowAbort
  extract_lets st sl p l answer
  rw [show l.findIdx? (fun j => j.slot = sl && dfield j.desc 0 56 8 = field v 8 8 && j.late.isNone && !j.firmware) = some i from hfind]
  dsimp only
  rw [show l[i]? = some j from hi]
  exact if_pos (by simpa [st, and_assoc] using ⟨hn, by omega, hm⟩)

end

end

end Device

end Sys2Proof.Machine
end

section
/-! O33: the obligation. -/

namespace Sys2Proof.Machine

section
variable {s : State} {st : StallId} {n : Nat} {j : BarrowJob}

theorem barrowAccept_eq (hj : (s.dev.stall st).barrow[n]? = some j) (hacc : j.accepted = false)
    (hfirst : ((s.dev.stall st).barrow.take n).all (fun k => k.accepted || k.slot != j.slot) = true) :
    exec (.barrowAccept st n) s = .next (s.onDev fun _ => s.dev.acceptJob st n j) := by
  have hany : (((s.dev.stall st).barrow.take n).any fun k => !k.accepted && decide (k.slot = j.slot)) = false := by
    refine List.any_eq_false.mpr fun k hk => ?_
    have h := List.all_eq_true.mp hfirst k hk
    cases hka : k.accepted
    · simpa [hka] using h
    · simp
  change Host.Outcome.next (s.onDev fun d => match (d.stall st).barrow[n]? with
    | some j => if j.accepted || ((d.stall st).barrow.take n).any fun k => !k.accepted && k.slot = j.slot then d else d.acceptJob st n j
    | none => d) = _
  refine next_congr _ ?_
  rw [hj]
  dsimp only
  rw [hacc, hany]
  rfl

theorem barrowComplete_eq (hj : (s.dev.stall st).barrow[n]? = some j) (hm : s.dev.mayComplete st n = true) :
    exec (.barrowComplete st n) s = .next (s.onDev fun _ => s.dev.completeJob st n j) := by
  change Host.Outcome.next (s.onDev fun d => match (d.stall st).barrow[n]? with
    | some j => if d.mayComplete st n then d.completeJob st n j else d
    | none => d) = _
  refine next_congr _ ?_
  rw [hj]
  exact if_pos hm

/-- A descriptor that takes its place in the queue. -/
theorem barrowAccept_places (hexec : exec (.barrowAccept st n) s = .next (s.onDev fun _ => s.dev.acceptJob st n j)) {k : BarrowJob}
    (h : s.dev.acceptJob st n j = s.dev.placeJob st n k) : Completes (.barrowAccept st n) s fun t => s.sameButStall st t ∧
      s.sameMemory t ∧ (t.dev.stall st).barrow = (s.dev.stall st).barrow.filter (·.accepted) ++
        k :: ((s.dev.stall st).barrow.eraseIdx n).filter (fun k => !k.accepted) := by
  rw [h] at hexec
  refine ⟨_, hexec, ⟨⟨rfl, rfl⟩, rfl, fun u hu => Device.stall_modStall_ne _ _ _ _ hu⟩, fun a => rfl, ?_⟩
  exact congrArg Stall.barrow (Device.stall_modStall_same _ _ _)

/-- A descriptor refused. -/
theorem barrowAccept_refuses (hexec : exec (.barrowAccept st n) s = .next (s.onDev fun _ => s.dev.acceptJob st n j)) {k : BarrowJob}
    {code : Code} {fail : Nat} (h : s.dev.acceptJob st n j = s.dev.refuseJob st n k code fail) (hd : k.desc = j.desc)
    (hfw : k.firmware = false) (hcode : code ≠ Status.barrowFault) : Completes (.barrowAccept st n) s fun t =>
      (t.dev.stall st).barrow = (s.dev.stall st).barrow.eraseIdx n ∧
        s.noticed st (Device.noticeMbx j.desc) (dfield j.desc 0 56 8 * 2 ^ 56 + code.toNat) t ∧ s.sameMemory t := by
  obtain ⟨e, he, hbytes, hb, hn⟩ := s.dev.refuseJob_spec st n k code fail hfw hcode
  rw [h, he] at hexec
  rw [hd] at hn
  exact ⟨_, hexec, hb, hn, hbytes.rdByte⟩

end

section
variable {s : State} {who : Requester} {shed : Fin 24} {v : W32} {moved : Nat} (hserve : s.dev.serving = true)
include hserve

theorem barrowAbort_eq {x : Device} (hx : s.dev.barrowAbort shed v moved = x) :
    exec (.barrowAbort who shed v moved) s = .next (s.onDev fun _ => x) := by
  change Host.Outcome.next (s.onDev fun d => if d.serving then d.barrowAbort shed v moved else d) = _
  refine next_congr _ ?_
  rw [if_pos hserve, hx]

/-- A descriptor that an abort takes out of the queue, or lets end. -/
theorem barrowAbort_ends {e : Device} {i : Nat} {j : BarrowJob} {code answer : Code}
    (hx : s.dev.barrowAbort shed v moved = e.abortAnswered shed answer)
    (hb : (e.stall (Device.stallOf shed (field v 0 4))).barrow =
      (s.dev.stall (Device.stallOf shed (field v 0 4))).barrow.eraseIdx i)
    (hn : Device.Noticed (Device.stallOf shed (field v 0 4)) (Device.noticeMbx j.desc)
      (dfield j.desc 0 56 8 * 2 ^ 56 + code.toNat) s.dev e) :
    Completes (.barrowAbort who shed v moved) s fun t => (t.dev.preg ⟨.shed, shed⟩ 0x204 = answer.setWidth 32 ∧
      (t.dev.stall (Device.stallOf shed (field v 0 4))).barrow =
        (s.dev.stall (Device.stallOf shed (field v 0 4))).barrow.eraseIdx i ∧
      s.noticed (Device.stallOf shed (field v 0 4)) (Device.noticeMbx j.desc)
        (dfield j.desc 0 56 8 * 2 ^ 56 + code.toNat) t) ∧ ∀ a, t.dev.rdByte a = e.rdByte a := by
  obtain ⟨hreg, hstalls, hbytes⟩ := e.abortAnswered_spec shed answer
  have hstall (u : StallId) : (e.abortAnswered shed answer).stall u = e.stall u := congrArg (fun v : Vector Stall 384 => v[u]) hstalls
  refine ⟨_, barrowAbort_eq hserve hx, ⟨hreg, ?_, ?_⟩, hbytes.rdByte⟩
  · exact (congrArg Stall.barrow (hstall _)).trans hb
  · change Device.Noticed _ _ _ s.dev (e.abortAnswered shed answer)
    unfold Device.Noticed Device.mbx at hn ⊢
    rw [hstall]
    exact hn

end

/-- The test of BARROW_ABORT. -/
theorem abortNames_iff (v : W32) (j : BarrowJob) : Device.abortNames v j = true ↔
    j.slot = (if flag v 4 then .paddock else .primary) ∧ dfield j.desc 0 56 8 = field v 8 8 ∧ j.late = none ∧ j.firmware = false := by
  simp [Device.abortNames, and_assoc]

/-- The rule for the last byte holds of a descriptor in progress. -/
theorem inProgress_of_mayComplete {d : Device} {st : StallId} {i : Nat} (h : d.mayComplete st i = true) :
    d.inProgress st i = true := by
  unfold Device.mayComplete at h
  dsimp only at h
  split at h
  · exact absurd h Bool.false_ne_true
  · exact (Bool.and_eq_true_iff.mp h).1

/-- Settles O33: a descriptor takes its place or is refused, moves its bytes and leaves its notice; an abort takes it out with
the bytes it had moved, or comes too late. -/
theorem barrowEvents : Obligations.BarrowEvents := by
  refine ⟨fun st n j s hj hacc hbook hstash hfw hfirst => ?_, fun st n j v s hj hstash hfw hlate hclose hmay hm hsrc hdst harm => ?_,
    fun who shed v moved s hserve => ?_⟩
  · intro rs k tag dropped kept
    have hexec := barrowAccept_eq hj hacc hfirst
    refine ⟨fun h => ?_, fun y hne h => ?_⟩
    · obtain ⟨fail, hu⟩ := s.dev.acceptJob_unmapped st n j h
      exact barrowAccept_refuses hexec hu rfl hfw (by decide)
    · intro x share q
      have hlp6 := s.dev.acceptJob_lp6 st n j hstash hne h
      refine ⟨fun hu => ?_, fun hu hs hfit => ?_, fun hu hs => ?_⟩
      · rw [if_pos hu] at hlp6
        obtain ⟨t, ht, honly, hmem, hb⟩ := barrowAccept_places hexec hlp6
        exact ⟨t, ht, honly, hmem, _, hb, rfl, rfl, hbook, rfl, fun h => absurd h Bool.false_ne_true⟩
      · rw [if_neg (by omega), if_pos ⟨hs, hfit⟩] at hlp6
        obtain ⟨t, ht, honly, hmem, hb⟩ := barrowAccept_places hexec hlp6
        exact ⟨t, ht, honly, hmem, _, hb, rfl, rfl, rfl, rfl, fun _ => rfl⟩
      · rw [if_neg (by omega), if_neg (fun h => hs.elim (fun h0 => absurd h0 (Nat.ne_of_gt h.1)) fun h1 => absurd h.2 (Nat.not_le.mpr h1))]
          at hlp6
        exact barrowAccept_refuses hexec hlp6 rfl hfw (by decide)
  · obtain ⟨x, hx, ⟨hin, hout⟩, hb, hn⟩ := s.dev.completeJob_spec st n j hstash hfw hlate hclose hm hsrc hdst harm
    have hexec := barrowComplete_eq hj hmay
    rw [hx] at hexec
    exact ⟨_, hexec, hin, hout, hb, hn⟩
  · intro st sl mine ends lands
    refine ⟨fun hnone => ?_, fun i j hj hmine hfirst => ?_⟩
    · have hno := s.dev.barrowAbort_none shed v moved fun j hj =>
        Bool.eq_false_iff.mpr fun h => hnone j hj ((abortNames_iff v j).mp h)
      obtain ⟨hreg, hstalls, hbytes⟩ := s.dev.abortAnswered_spec shed Status.abortTooLate
      exact ⟨_, barrowAbort_eq hserve hno, hreg, hstalls, hbytes.rdByte⟩
    · have hnames := (abortNames_iff v j).mpr hmine
      have hothers : ∀ k ∈ (s.dev.stall st).barrow.take i, Device.abortNames v k = false := fun k hk =>
        Bool.eq_false_iff.mpr fun h => hfirst k hk ((abortNames_iff v k).mp h)
      obtain ⟨-, -, hlate, hfw⟩ := hmine
      refine ⟨fun h => ?_, fun m hm hstash hclose hpos hsrc hdst harm => ⟨fun hprog hlt => ?_, fun hmay hle => ?_⟩⟩
      · obtain ⟨x, hx, hxs, hb, hn⟩ := s.dev.dropNotice_spec st i j Status.aborted (0 - 0) 0 hfw
        have hn0 : (if s.dev.inProgress st i then min moved (((s.dev.movesOf st j).map Move.bytes).sum - 1) else 0) = 0 := by
          rcases h with h | h <;> simp [h]
        have habort := s.dev.barrowAbort_takes shed v moved hj hnames hothers (fun ⟨hle, h0, hmay⟩ => h.elim
          (fun h => absurd (inProgress_of_mayComplete hmay) (by rw [h]; exact Bool.false_ne_true)) fun h => h0 (by omega))
          hn0 (s.dev.runMoves_zero st j)
        rw [hx] at habort
        obtain ⟨t, ht, hends, hbyte⟩ := barrowAbort_ends (who := who) hserve habort hb hn
        exact ⟨t, ht, hends, fun a => (hbyte a).trans (by rw [hxs]; rfl)⟩
      · have hsum : ((s.dev.movesOf st j).map Move.bytes).sum = m.bytes := by rw [hm, List.map_cons, List.map_nil, List.sum_singleton]
        obtain ⟨e, he, hrun⟩ := s.dev.runMoves_one st j hm hlt.le (Device.soundRange_take hsrc hlt.le)
          (Device.soundRange_take hdst hlt.le) harm
        obtain ⟨x, hx, ⟨hin, hout⟩, hb, hn⟩ := s.dev.ended_dropNotice st i j (m := m) he Status.aborted (moved - 0) 0 hfw
        have hn0 : (if s.dev.inProgress st i then min moved (((s.dev.movesOf st j).map Move.bytes).sum - 1) else 0) = moved := by
          rw [if_pos hprog, hsum]
          omega
        have habort := s.dev.barrowAbort_takes shed v moved hj hnames hothers (fun h => absurd (hsum ▸ h.1) (Nat.not_le.mpr hlt)) hn0 hrun
        rw [hx] at habort
        obtain ⟨t, ht, hends, hbyte⟩ := barrowAbort_ends (who := who) hserve habort hb hn
        exact ⟨t, ht, hends, fun q hq => (hbyte _).trans (hin q hq), fun a ha => (hbyte a).trans (hout a ha)⟩
      · obtain ⟨x, hx, ⟨hin, hout⟩, hb, hn⟩ := s.dev.completeJob_spec st i j hstash hfw hlate hclose hm hsrc hdst harm
        have hsum : ((s.dev.movesOf st j).map Move.bytes).sum = m.bytes := by rw [hm, List.map_cons, List.map_nil, List.sum_singleton]
        have habort := s.dev.barrowAbort_late shed v moved hj hnames hothers hmay (by rw [hsum]; exact hpos) (by rw [hsum]; exact hle)
        rw [hx] at habort
        obtain ⟨t, ht, hends, hbyte⟩ := barrowAbort_ends (who := who) hserve habort hb hn
        exact ⟨t, ht, hends, fun q hq => (hbyte _).trans (hin q hq), fun a ha => (hbyte a).trans (hout a ha)⟩

end Sys2Proof.Machine
end

section
/-! O38: what the Forge's reads leave (R428, R429, R436). -/

namespace Sys2Proof.Machine

namespace Device

/-- e is d after reads: no byte has changed, and units answer as before. -/
def Scans (d e : Device) : Prop := Accessed d e ∧ SameUnits d e ∧ e.mem = d.mem

namespace Scans

variable {d e f : Device}

theorem refl (d : Device) : Scans d d := ⟨.refl d, .refl d, rfl⟩

theorem trans (h : Scans d e) (k : Scans e f) : Scans d f := by
  obtain ⟨h1, h2, h3⟩ := h
  obtain ⟨k1, k2, k3⟩ := k
  exact ⟨h1.trans k1, h2.trans k2, k3.trans h3⟩

theorem sameBytes (h : Scans d e) : SameBytes d e := by
  obtain ⟨h1, h2, h3⟩ := h
  refine ⟨h3, funext fun a => ?_⟩
  have hfill : e.fillAt a = d.fillAt a := by
    unfold fillAt
    simp only [h2.chanOf]
    rw [h2.1, show e.chanFill = d.chanFill by rw [h1], show e.shedFill = d.shedFill by rw [h1],
      show e.epoch = d.epoch by rw [h1]]
  unfold blank
  rw [hfill]

theorem forges (h : Scans d e) : e.forges = d.forges := by rw [h.1]

/-- A fold of reads. -/
theorem foldl {β ι : Type} {f : Device × β → ι → Device × β} (hf : ∀ x i, Scans x.1 (f x i).1) (l : List ι) (x : Device × β) :
    Scans x.1 (l.foldl f x).1 := by
  induction l generalizing x with
  | nil => exact refl _
  | cons i l ih => exact (hf x i).trans (ih _)

end Scans

theorem Quiet.mem {d e : Device} (h : Quiet d e) : e.mem = d.mem := by rw [h]

section
variable (d : Device)

theorem mem_setMapout (c : Chan) : (d.setMapout c).mem = d.mem := by
  unfold setMapout
  split
  · rfl
  · exact Quiet.mem (d := d.modMc c fun m => { m with mapoutPend := true }) (quiet_event _ _ _)

theorem mem_burstFailed (u : Nat) : (d.burstFailed u).mem = d.mem := by
  unfold burstFailed
  extract_lets c p d1 d2 d3 d4 d5 lim
  have h5 : d5.mem = d4.mem := (quiet_eventCode d4 p 2 Status.memEccUncorrected).mem
  have h3 : d3.mem = d.mem := (((quiet_bump d p 0x114 1).trans (quiet_setPreg d1 p 0x118 _)).trans (quiet_setPreg d2 p 0x11C _)).mem
  have h4 : d4.mem = d.mem := (show d4.mem = d3.mem from rfl).trans h3
  split
  · exact (mem_setMapout d5 c).trans (h5.trans h4)
  · exact h5.trans h4

theorem mem_wordFailed (u : Nat) : (d.wordFailed u).mem = d.mem := by
  unfold wordFailed
  exact ((quiet_bump _ _ _ _).trans (quiet_record _ _ _)).mem

theorem mem_readUnit (u : Nat) (b : Bool) : (d.readUnit u b).1.mem = d.mem := by
  have hs : (d.burstServed (d.chanOf u) false b).mem = d.mem := by rw [counted_burstServed d (d.chanOf u) false b]
  simp only [readUnit]
  generalize d.burstServed (d.chanOf u) false b = e at hs ⊢
  split_ifs
  · rfl
  · exact (e.mem_burstFailed u).trans hs
  · exact (quiet_bump _ _ _ _).mem.trans hs
  · exact hs
  · exact d.mem_wordFailed u
  · exact Quiet.mem (d := { d with ce := setErase d.ce u }) (quiet_bump _ _ _ _)
  · rfl

theorem scans_readRange (a n : Nat) (b : Bool) : Scans d (d.readRange a n b).1 := by
  have hmem (l : List Nat) (x : Device × List (Nat × MemRes)) : (l.foldl (fun (x : Device × List (Nat × MemRes)) u =>
      let (d, res) := x.1.readUnit u b
      (d, if res = .ok then x.2 else x.2 ++ [(u, res)])) x).1.mem = x.1.mem := by
    induction l generalizing x with
    | nil => rfl
    | cons u l ih =>
      rw [List.foldl_cons]
      exact (ih _).trans (x.1.mem_readUnit u b)
  exact ⟨d.accessed_readRange a n b, (d.readRange_res a n b).1, hmem _ (d, [])⟩

theorem scans_drawFree : Scans d d.drawFree.2 := ⟨rfl, ⟨rfl, rfl, fun _ => ⟨rfl, rfl⟩⟩, rfl⟩

theorem scans_sourceElem (st : StallId) (sl : Slot) (x : Source) (b : Bool) (g : Nat) :
    Scans d (d.sourceElem st sl x b g).1 := by
  unfold sourceElem
  extract_lets at_ w check
  split
  · have h1 := d.scans_readRange (at_ (x.base + g / 32 * (4 * w))) (4 * w) b
    dsimp only
    generalize d.readRange (at_ (x.base + g / 32 * (4 * w))) (4 * w) b = r at h1 ⊢
    have h2 := h1.trans (scans_readRange r.1 (at_ (x.scaleBase + g / 32)) 1 b)
    generalize r.1.readRange (at_ (x.scaleBase + g / 32)) 1 b = q at h2 ⊢
    by_cases h13 : x.fmt = 13
    · rw [if_pos h13]
      exact h2.trans (scans_readRange q.1 _ 8 b)
    · rw [if_neg h13]
      exact h2
  · exact d.scans_readRange _ _ b

theorem scans_assembleTarget (st : StallId) (sl : Slot) (t : Template) (table : List Source) (b : Bool) (p i : Nat) :
    Scans d (d.assembleTarget st sl t table b p i).1 := by
  unfold assembleTarget
  have h1 := d.scans_readRange (t.tgt + 16 * i) 16 b
  dsimp only
  generalize d.readRange (t.tgt + 16 * i) 16 b = r at h1 ⊢
  split
  · exact h1
  · split
    · exact h1
    · split
      all_goals
        refine h1.trans (Scans.foldl (fun x j => ?_) _ (r.1, _))
        split
        · exact .refl _
        · have h2 := x.1.scans_readRange (t.term + 16 * (leNat ((r.2.1.drop 8).take 4) + j)) 16 b
          generalize x.1.readRange (t.term + 16 * (leNat ((r.2.1.drop 8).take 4) + j)) 16 b = u at h2 ⊢
          split
          · exact h2
          · have h3 := h2.trans (u.1.scans_sourceElem st sl
              ((table[leNat ((u.2.1.drop 11).take 1) % 8]?).getD (Vector.replicate 4 0)) b
              (p * (((table[leNat ((u.2.1.drop 11).take 1) % 8]?).getD (Vector.replicate 4 0)) : Source).pstride +
                leNat ((u.2.1.drop 8).take 3)))
            split
            · exact h3
            · exact h3

theorem scans_assemble (st : StallId) (sl : Slot) (t : Template) (table : List Source) (b : Bool) (p : Nat) :
    Scans d (d.assemble st sl t table b p).1 := by
  unfold assemble
  refine Scans.foldl (fun x i => ?_) _ (d, _)
  have h := x.1.scans_assembleTarget st sl t table b p i
  split
  · exact .refl _
  · generalize x.1.assembleTarget st sl t table b p i = r at h ⊢
    split
    · exact h
    · exact h

theorem scans_warmPoint (t : Template) (q : ForgeReq) (k : Nat) (vals : List W64) : Scans d (d.warmPoint t q k vals).1 := by
  have h := d.scans_readRange (dfield q.desc 6 0 48 + k * t.stride) (64 + 8 * t.n + 8 * t.m) q.booked
  unfold warmPoint
  dsimp only
  split
  · exact h
  · exact h

theorem scans_startProblem (y : Yard) (t : Template) (q : ForgeReq) (k : Nat) (p : Problem) :
    Scans d (d.startProblem y t q k p).1 := by
  unfold startProblem
  split
  · extract_lets kept x e
    split
    · exact .refl d
    · have h := d.scans_readRange ((d.forge y).ret[e].retDpa + k * t.ret) t.ret q.booked
      generalize d.readRange ((d.forge y).ret[e].retDpa + k * t.ret) t.ret q.booked = u at h ⊢
      dsimp only
      generalize hR : List.foldl _ (u.1, _) (List.range t.n) = R
      have hfold : Scans u.1 R.1 := by
        rw [← hR]
        refine Scans.foldl (fun v i => ?_) _ (u.1, _)
        split
        · exact .refl _
        · have h2 := v.1.scans_sourceElem q.stall q.slot x q.booked (k * x.pstride + i)
          split
          · next g c hs =>
            rw [hs] at h2
            exact h2
          · next g c hs =>
            rw [hs] at h2
            exact h2
      split
      · exact h.trans hfold
      · exact h.trans hfold
  · have h := d.scans_assemble q.stall q.slot t q.table q.booked k
    generalize d.assemble q.stall q.slot t q.table q.booked k = r at h ⊢
    split
    · exact h
    · next e vs =>
      dsimp only
      split
      · exact h.trans (scans_warmPoint _ t q k vs)
      · exact h

end

end Device

end Sys2Proof.Machine
end

section
/-! O38: what stopping and retaining problems writes (R442, R447). -/

namespace Sys2Proof.Machine

namespace Device

/-- A fold of accesses. -/
theorem Accessed.foldl {β ι : Type} {f : Device × β → ι → Device × β} (hf : ∀ x i, Accessed x.1 (f x i).1) (l : List ι)
    (x : Device × β) : Accessed x.1 (l.foldl f x).1 := by
  induction l generalizing x with
  | nil => exact Accessed.refl _
  | cons i l ih => exact (hf x i).trans (ih _)

section
variable (d : Device) (t : Template) (q : ForgeReq)

theorem accessed_drawFree : Accessed d d.drawFree.2 := rfl

theorem accessed_writeHeader (base k : Nat) (p : Problem) (stop : Nat) (dual : Bool) (iters : Nat) (figs : W64 × W64 × W64 × W64) :
    Accessed d (d.writeHeader t q base k p stop dual iters figs).1 := d.accessed_writeRange _ _ _

theorem accessed_stopProblem (k : Nat) (p : Problem) (code : Code) (s : Option ForgeStop) :
    Accessed d (d.stopProblem t q k p code s).1 := by
  unfold stopProblem
  extract_lets failed p spend diag idle
  have hdiag (stop : Nat) (o : Template.Outcome) (xy : List W64) : Accessed d (diag d stop o xy) :=
    ((d.accessed_writeHeader t q _ _ _ _ _ _ _).trans (accessed_writeRange _ _ _ _)).trans
      (accessed_writeHeader _ t q _ _ _ _ _ _ _)
  have hidle : Accessed d (idle d) := (d.accessed_drawFree).trans (accessed_writeHeader _ t q _ _ _ _ _ _ _)
  split
  · exact Accessed.refl d
  · split
    · dsimp only
      split
      · exact hidle
      · exact hdiag _ _ _
    · dsimp only
      split
      · exact hidle
      · exact hdiag _ _ _
    · exact hidle

theorem accessed_retainProblem (k : Nat) (p : Problem) : Accessed d (d.retainProblem t q k p).1 := by
  unfold retainProblem
  split
  · next r hr =>
    split
    · have h := d.accessed_writeRange (dfield q.desc 7 0 48 + k * t.ret) (retentionImage t p.vals r) q.booked
      dsimp only
      split
      · exact h
      · exact h
    · exact Accessed.refl d
  · exact Accessed.refl d

theorem accessed_retainProblems (y : Yard) : Accessed d (d.retainProblems y q).1 := by
  unfold retainProblems
  split
  · exact Accessed.refl d
  · next t ht =>
    refine Accessed.foldl (fun x p => ?_) _ (d, _)
    exact accessed_retainProblem x.1 t q p.2 p.1

/-- The problems of a request stopped one after another. -/
theorem accessed_stopProblems (code : Code) (stops : List ForgeStop) (l : List (Problem × Nat)) (ps : List Problem) :
    Accessed d (l.foldl (fun (x : Device × List Problem × List ForgeStop) p =>
      match p.1.phase with
      | .ended => (x.1, x.2.1 ++ [p.1], x.2.2)
      | .ready =>
        let (d, p) := x.1.stopProblem t q p.2 p.1 code none
        (d, x.2.1 ++ [p], x.2.2)
      | .running _ =>
        let (d, p) := x.1.stopProblem t q p.2 p.1 code x.2.2.head?
        (d, x.2.1 ++ [p], x.2.2.drop 1)) (d, ps, stops)).1 := by
  refine Accessed.foldl (fun x p => ?_) l (d, _)
  split
  · exact Accessed.refl _
  · exact accessed_stopProblem _ t q _ _ _ _
  · exact accessed_stopProblem _ t q _ _ _ _

end

/-- A notice of any words changes its stall alone, and there a mailbox and whether its primary slot is called back. -/
theorem post_any (d : Device) (st : StallId) (k : Fin 8) (src : BitVec 9) (ws : List Nat) :
    ∃ n : Message, ∃ b : Bool, d.post st k src ws = d.modStall st (Stall.posted k n b) := by
  unfold post
  extract_lets data msg e s away
  split
  · refine ⟨msg, true, ?_⟩
    change ((d.modStall st fun s => { s with mbx := upd s.mbx k (Mailbox.noticed msg) }).modStall st fun s => { s with recalled := true }) = _
    rw [modStall_modStall]
    exact congrArg (d.modStall st) (funext fun s => by simp only [Stall.posted, Bool.or_true])
  · exact ⟨msg, false, congrArg (d.modStall st) (funext fun s => by simp only [Stall.posted, Bool.or_false]; rfl)⟩

end Device

end Sys2Proof.Machine
end

section
/-! O38: the commit point of a request (R447 to R449). -/

namespace Sys2Proof.Machine

namespace Device

/-- e is d but for memory, what is counted and reported, and the Forges; of those, only what Forge y keeps beside its
requests differs. -/
def ForgeOnly (y : Yard) (d e : Device) : Prop :=
  e = { d with regs := e.regs, pba := e.pba, out := e.out, batches := e.batches, free := e.free, mc := e.mc,
               bad := e.bad, ce := e.ce, tally := e.tally, mem := e.mem, forges := e.forges } ∧
  (∀ z, z ≠ y → e.forges[z] = d.forges[z]) ∧ (e.forge y).reqs = (d.forge y).reqs

section
variable {y : Yard} {d e f : Device}

theorem ForgeOnly.refl (y : Yard) (d : Device) : ForgeOnly y d d := ⟨rfl, fun _ _ => rfl, rfl⟩

theorem ForgeOnly.trans (h : ForgeOnly y d e) (k : ForgeOnly y e f) : ForgeOnly y d f := by
  obtain ⟨h1, h2, h3⟩ := h
  obtain ⟨k1, k2, k3⟩ := k
  exact ⟨by rw [k1, h1], fun z hz => (k2 z hz).trans (h2 z hz), k3.trans h3⟩

theorem Accessed.forgeOnly (h : Accessed d e) : ForgeOnly y d e := by
  have hf : e.forges = d.forges := by rw [h]
  refine ⟨?_, fun z _ => by rw [hf], by unfold forge; rw [hf]⟩
  unfold Accessed at h
  rw [h]

theorem Quiet.forgeOnly (h : Quiet d e) : ForgeOnly y d e := h.accessed.forgeOnly

theorem forgeOnly_modRet (d : Device) (y : Yard) (e : Fin 64) (f : Retention → Retention) : ForgeOnly y d (d.modRet y e f) :=
  ⟨rfl, fun _ hz => forges_modRet_ne d y _ e f hz, d.reqs_modRet y e f⟩

theorem forgeOnly_reclaim (d : Device) (y : Yard) (cause : Fin 5) (c : Code) (p : Page) (t n : Nat) :
    ForgeOnly y d (d.reclaim cause c p t n) := by
  obtain ⟨x, hx, hxo⟩ := d.reclaim_only cause c p t n
  rw [hx]
  have ha : Accessed d x := by
    rw [Accessed, hxo]
  exact ha.forgeOnly

theorem forgeOnly_expireRetention (d : Device) (y : Yard) (e : Fin 64) : ForgeOnly y d (d.expireRetention y e) :=
  ((d.forgeOnly_modRet y e _).trans ((quiet_bump _ _ _ _).trans (quiet_eventCode _ _ _ _)).forgeOnly).trans
    (forgeOnly_reclaim _ _ _ _ _ _ _)

theorem forgeOnly_settleRetention (d : Device) (y : Yard) (e : Fin 64) : ForgeOnly y d (d.settleRetention y e) := by
  unfold settleRetention
  extract_lets r
  split
  · exact .refl y d
  · split
    · exact d.forgeOnly_modRet y e _
    · split
      · exact d.forgeOnly_expireRetention y e
      · exact .refl y d

end

/-- e is d after request i, of stall st and notice mailbox k, has left Forge y with its notice. -/
def CommitsReq (y : Yard) (i : Nat) (st : StallId) (k : Fin 8) (d e : Device) : Prop :=
  ∃ a : Device, ∃ n : Message, ∃ b : Bool, ForgeOnly y (d.modForge y fun f => { f with reqs := f.reqs.eraseIdx i }) a ∧
    ForgeOnly y (a.modStall st (Stall.posted k n b)) e

theorem CommitsReq.then {y : Yard} {i : Nat} {st : StallId} {k : Fin 8} {d e f : Device} (h : CommitsReq y i st k d e)
    (hf : ForgeOnly y e f) : CommitsReq y i st k d f := by
  obtain ⟨a, n, b, h1, h2⟩ := h
  exact ⟨a, n, b, h1, h2.trans hf⟩

theorem CommitsReq.after {y : Yard} {i : Nat} {st : StallId} {k : Fin 8} {c d e : Device} (hc : Accessed c d)
    (h : CommitsReq y i st k d e) : CommitsReq y i st k c e := by
  obtain ⟨a, n, b, h1, h2⟩ := h
  have hf : d.forges = c.forges := by rw [hc]
  refine ⟨a, n, b, ForgeOnly.trans (Accessed.forgeOnly ?_) h1, h2⟩
  unfold Accessed modForge at *
  dsimp only
  rw [hf]
  conv_lhs => rw [hc]

theorem commitRequest_commits (d : Device) (y : Yard) (i : Nat) (q : ForgeReq) (cause : Code) :
    CommitsReq y i q.stall q.mbx d (d.commitRequest y i q cause) := by
  have hnotice (a : Device) (r : ForgeReq) (hs : r.stall = q.stall) (hm : r.mbx = q.mbx) (status : Code) (handle done rej third : Nat)
      (f : Frame) (ha : ForgeOnly y (d.modForge y fun f => { f with reqs := f.reqs.eraseIdx i }) a) :
      CommitsReq y i q.stall q.mbx d (a.forgeNotice y r status cause handle done rej third f) := by
    obtain ⟨n, b, hp⟩ := a.post_any r.stall r.mbx (forgeSrc y)
      [r.ntag * 2 ^ 56 + bitAt r.back 52 + handle * 2 ^ 32 + cause.toNat * 2 ^ 16 + status.toNat, r.accept.toNat,
       r.deadline.toNat, third * 2 ^ 32 + rej * 2 ^ 16 + done, r.spent fun _ => 0, f.toNat]
    refine ⟨a, n, b, ha, ?_⟩
    rw [forgeNotice, hp, hs, hm]
    exact .refl y _
  unfold commitRequest
  extract_lets d0 p
  have hr : ForgeOnly y d0 (if (q.entry.isSome && !q.back) = true then d0.retainProblems y q else (d0, q.problems, [])).1 := by
    split
    · exact (d0.accessed_retainProblems q y).forgeOnly
    · exact .refl y d0
  generalize (if (q.entry.isSome && !q.back) = true then d0.retainProblems y q else (d0, q.problems, [])) = r at hr ⊢
  obtain ⟨d1, problems, data⟩ := r
  dsimp -zeta only at hr ⊢
  extract_lets q' status count d2 d3 done rej
  have h2 : ForgeOnly y d0 d2 := hr.trans (quiet_bump _ _ _ _).forgeOnly
  have h3 : ForgeOnly y d0 d3 := by
    dsimp only [d3]
    split
    · exact h2.trans (quiet_bump _ _ _ _).forgeOnly
    · exact h2
  split
  · exact hnotice d3 q' rfl rfl _ _ _ _ _ _ h3
  · next e he =>
    split
    · extract_lets d4 handle
      have h4 : ForgeOnly y d0 d4 := by
        dsimp only [d4]
        split
        · exact h3.trans (d3.forgeOnly_modRet y e _)
        · exact h3
      exact (hnotice d4 q' rfl rfl _ _ _ _ _ _ h4).then (forgeOnly_settleRetention _ y e)
    · split
      · exact hnotice _ q' rfl rfl _ _ _ _ _ _ (h3.trans (d3.forgeOnly_modRet y e _))
      · exact hnotice _ q' rfl rfl _ _ _ _ _ _ (h3.trans (d3.forgeOnly_modRet y e _))

/-- A request stopped. -/
theorem stopRequest_commits (d : Device) (y : Yard) (i : Nat) (q : ForgeReq) (code cause : Code) (stops : List ForgeStop)
    (ht : (d.forge y).tpl[q.tslot] ≠ none) : CommitsReq y i q.stall q.mbx d (d.stopRequest y i q code cause stops) := by
  obtain ⟨t, ht⟩ := Option.ne_none_iff_exists'.mp ht
  have hs := d.accessed_stopProblems t q code stops q.problems.zipIdx []
  unfold stopRequest
  rw [show d.forgeTpl y q.tslot = some t from ht]
  dsimp only at hs ⊢
  generalize List.foldl _ _ _ = r at hs ⊢
  exact (r.1.commitRequest_commits y i { q with problems := r.2.1 } cause).after hs

section
variable {y : Yard} {i : Nat} {st : StallId} {k : Fin 8} {d e : Device} (h : CommitsReq y i st k d e)
include h

/-- What a committed request leaves. -/
theorem CommitsReq.spec : (∀ z, z ≠ y → e.forges[z] = d.forges[z]) ∧ (e.forge y).reqs = (d.forge y).reqs.eraseIdx i ∧
    (e.mbx st k).msgs.length = (d.mbx st k).msgs.length + 1 ∧ e.atStep3 = d.atStep3 ∧ e.ctr = d.ctr := by
  obtain ⟨a, n, b, ⟨ha, haz, har⟩, he, hez, her⟩ := h
  refine ⟨fun z hz => (hez z hz).trans ((haz z hz).trans ?_), her.trans (har.trans ?_), ?_, ?_, ?_⟩
  · exact upd_ne _ _ _ _ hz
  · exact congrArg Forge.reqs (upd_same _ _ _)
  · have hs : e.stalls = (a.modStall st (Stall.posted k n b)).stalls := by rw [he]
    have has : a.stalls = d.stalls := by rw [ha]; rfl
    have hstall : e.stall st = Stall.posted k n b (d.stall st) := by
      have h1 : e.stall st = (a.modStall st (Stall.posted k n b)).stall st := congrArg (fun v : Vector Stall 384 => v[st]) hs
      have h2 : a.stall st = d.stall st := congrArg (fun v : Vector Stall 384 => v[st]) has
      rw [h1, stall_modStall_same, h2]
    unfold mbx
    rw [hstall]
    have hm : (Stall.posted k n b (d.stall st)).mbx[k] = Mailbox.noticed n (d.stall st).mbx[k] := upd_same _ _ _
    rw [hm]
    exact List.length_append
  · rw [he]
    change a.atStep3 = _
    rw [ha]
    rfl
  · rw [he]
    change a.ctr = _
    rw [ha]
    rfl

end

end Device

end Sys2Proof.Machine
end

section
/-! O38: a missed deadline, an abort and an expiry (R442, R447, R449). -/

namespace Sys2Proof.Machine

namespace Device

theorem forge_of_forges {d e : Device} (h : e.forges = d.forges) (y : Yard) : e.forge y = d.forge y := by
  unfold forge
  rw [h]

theorem forges_eventCode (d : Device) (p : Page) (i : Nat) (c : Code) : (d.eventCode p i c).forges = d.forges := by
  rw [d.quiet_eventCode p i c]

/-- A boundary does not go on while a request is overdue. -/
theorem afterMiss_of_overdue (d : Device) (h : d.atStep3 = true → ∃ (z : Yard) (o : ForgeReq), o ∈ (d.forge z).reqs ∧
    o.deadline.toNat < d.now.toNat) : d.afterMiss = d := by
  unfold afterMiss
  refine if_neg fun hb => ?_
  obtain ⟨h3, hmiss⟩ := Bool.and_eq_true_iff.mp hb
  obtain ⟨z, o, ho, hlt⟩ := h h3
  have hany : d.anyMiss = true := List.any_eq_true.mpr ⟨z, List.mem_finRange z, by
    rw [Bool.or_eq_true]
    exact .inl (List.any_eq_true.mpr ⟨o, ho, decide_eq_true hlt⟩)⟩
  rw [hany] at hmiss
  exact absurd hmiss (by decide)

/-- A reclamation's own report goes to the TALLY page. -/
theorem preg_reclaim_forge (d : Device) (y : Yard) (cause : Fin 5) (c : Code) (p : Page) (t n : Nat) :
    (d.reclaim cause c p t n).preg (Page.forge y) 0x028 = d.preg (Page.forge y) 0x028 := by
  unfold reclaim
  split
  · rfl
  · refine (reg_eventCode_ne _ Page.tally 2 c _ fun o ho => ?_).trans rfl
    revert o y
    decide

/-- The answer of FORGE_ABORT. -/
theorem abortAnswer_forge (d : Device) (y : Yard) (c : Code) : (d.forgeAbortAnswer y c).forges =
    upd d.forges y fun f => { f with abortRes := c } := forges_eventCode _ _ _ _

end Device

section
variable {y : Yard} {s : State}

/-- A missed deadline (R442). -/
theorem forgeDeadlineMiss_spec {i : Nat} {q : ForgeReq} (stops : List ForgeStop)
    (hi : ((s.dev.forge y).reqs.findIdx? fun q => decide (q.deadline.toNat < s.dev.now.toNat)) = some i)
    (hq : (s.dev.forge y).reqs[i]? = some q) (ht : (s.dev.forge y).tpl[q.tslot] ≠ none)
    (hmore : s.dev.atStep3 = true → ∃ (z : Yard) (o : ForgeReq),
      o ∈ (if z = y then (s.dev.forge y).reqs.eraseIdx i else (s.dev.forge z).reqs) ∧ o.deadline.toNat < s.dev.now.toNat) :
    Completes (.forgeDeadlineMiss y stops) s fun u => ((∀ z, z ≠ y → u.dev.forges[z] = s.dev.forges[z]) ∧
      (u.dev.forge y).reqs = (s.dev.forge y).reqs.eraseIdx i ∧
      (u.dev.mbx q.stall q.mbx).msgs.length = (s.dev.mbx q.stall q.mbx).msgs.length + 1) ∧
      flag (u.dev.preg (Page.forge y) 0x028) 2 = true := by
  obtain ⟨cause, hmiss⟩ : ∃ cause, s.dev.deadlineMiss y stops =
      (s.dev.stopRequest y i q Status.forgeDeadlineMissed cause stops).eventCode (Page.forge y) 2 Status.forgeDeadlineMissed := by
    unfold Device.deadlineMiss
    rw [show (s.dev.forge y).reqs.findIdx? s.dev.overdue = some i from hi]
    dsimp only
    rw [hq]
    exact ⟨_, rfl⟩
  have hc := s.dev.stopRequest_commits y i q Status.forgeDeadlineMissed cause stops ht
  generalize s.dev.stopRequest y i q Status.forgeDeadlineMissed cause stops = e at hmiss hc
  have hflag : flag ((e.eventCode (Page.forge y) 2 Status.forgeDeadlineMissed).preg (Page.forge y) 0x028) 2 = true :=
    Device.flag_event _ _ 2 (by decide)
  have hx := hc.then (Device.Quiet.forgeOnly (Device.quiet_eventCode e (Page.forge y) 2 Status.forgeDeadlineMissed))
  generalize e.eventCode (Page.forge y) 2 Status.forgeDeadlineMissed = x at hmiss hflag hx
  obtain ⟨hother, hreqs, hmsgs, hstep, hctr⟩ := hx.spec
  have hafter : x.afterMiss = x := x.afterMiss_of_overdue fun h3 => by
    obtain ⟨z, o, ho, hlt⟩ := hmore (hstep ▸ h3)
    refine ⟨z, o, ?_, by rw [Device.now, hctr]; exact hlt⟩
    by_cases hz : z = y
    · rw [if_pos hz] at ho
      rw [hz, hreqs]
      exact ho
    · rw [if_neg hz] at ho
      rw [show x.forge z = s.dev.forge z from hother z hz]
      exact ho
  have hexec : exec (.forgeDeadlineMiss y stops) s = .next (s.onDev fun _ => x) := by
    change Host.Outcome.next (s.onDev fun d => (d.deadlineMiss y stops).afterMiss) = _
    refine next_congr _ ?_
    rw [hmiss, hafter]
  exact ⟨_, hexec, ⟨hother, hreqs, hmsgs⟩, hflag⟩

/-- An abort of a request (R449). -/
theorem forgeAbort_none {who : Requester} {v : W32} (hserve : s.dev.serving = true) (stops : List ForgeStop)
    (h : ∀ q ∈ (s.dev.forge y).reqs, ¬ (q.stall.val = field v 16 9 ∧ q.slot = (if flag v 8 then .paddock else .primary) ∧
      q.ntag = field v 0 8)) : exec (.forgeAbort who y v stops) s =
        .next (s.onDev fun d => d.forgeAbortAnswer y Status.abortTooLate) := by
  change Host.Outcome.next (s.onDev fun d => d.forgeAbort y v stops) = _
  refine next_congr _ ?_
  unfold Device.forgeAbort
  rw [if_neg (by rw [hserve]; decide)]
  extract_lets sl at_
  have hnone : at_ = none := List.findIdx?_eq_none_iff.mpr fun q hq => by
    have := h q hq
    simpa [sl, and_assoc] using this
  rw [hnone]

theorem forgeAbort_some {who : Requester} {v : W32} (hserve : s.dev.serving = true) (stops : List ForgeStop) {i : Nat} {q : ForgeReq}
    (hi : (s.dev.forge y).reqs[i]? = some q)
    (hq : q.stall.val = field v 16 9 ∧ q.slot = (if flag v 8 then .paddock else .primary) ∧ q.ntag = field v 0 8)
    (h : ∀ q ∈ (s.dev.forge y).reqs.take i, ¬ (q.stall.val = field v 16 9 ∧
      q.slot = (if flag v 8 then .paddock else .primary) ∧ q.ntag = field v 0 8)) : exec (.forgeAbort who y v stops) s =
        .next (s.onDev fun d => (d.stopRequest y i q Status.aborted 0 stops).forgeAbortAnswer y Status.aborted) := by
  change Host.Outcome.next (s.onDev fun d => d.forgeAbort y v stops) = _
  refine next_congr _ ?_
  unfold Device.forgeAbort
  rw [if_neg (by rw [hserve]; decide)]
  extract_lets sl at_
  obtain ⟨hlt, rfl⟩ := List.getElem?_eq_some_iff.mp hi
  have hsome : at_ = some i := List.findIdx?_eq_some_iff_getElem.mpr ⟨hlt, by simpa [sl, and_assoc] using hq, fun n hn => by
    have := h _ (List.mem_take_iff_getElem.mpr ⟨n, by omega, rfl⟩)
    simpa [sl, and_assoc] using this⟩
  rw [hsome]
  dsimp only
  rw [hi]

/-- A retention entry whose last frame has ended is freed (R447). -/
theorem retentionExpiry_spec {e : Fin 64} (hu : (s.dev.forge y).ret[e].used = true) (hc : (s.dev.forge y).ret[e].committed = true)
    (hl : (s.dev.forge y).ret[e].lastFrame.toNat < s.dev.now.toNat) (hh : s.dev.retentionHeld y e = false)
    (hr : (s.dev.forge y).ret[e].releaseDue = false) (hx : (s.dev.forge y).ret[e].expired = false)
    (hmore : s.dev.atStep3 = true → ∃ (z : Yard) (o : ForgeReq), o ∈ (s.dev.forge z).reqs ∧ o.deadline.toNat < s.dev.now.toNat) :
    Completes (.retentionExpiry y e) s fun u => (∀ z, z ≠ y → u.dev.forges[z] = s.dev.forges[z]) ∧
      (u.dev.forge y).ret[e] = { Reset.retention with gen := ((s.dev.forge y).ret[e].gen + 1) % 1023 } ∧
      (∀ v, v ≠ e → (u.dev.forge y).ret[v] = (s.dev.forge y).ret[v]) ∧ flag (u.dev.preg (Page.forge y) 0x028) 4 = true ∧
      s.sameMemory u := by
  have hexpire : s.dev.retentionExpiry y e = s.dev.expireRetention y e := by
    have hends : s.dev.entryEnds y e = true := by
      unfold Device.entryEnds
      dsimp only
      rw [hu, hc, hx, decide_eq_true hl]
      rfl
    unfold Device.retentionExpiry
    rw [if_pos hends]
    dsimp only
    rw [hh, hr]
    rfl
  obtain ⟨a, ha⟩ : ∃ a, a = ((s.dev.freeRetention y e).bump (Page.forge y) 0x164 1).eventCode (Page.forge y) 4
      Status.forgeRetentionExpired := ⟨_, rfl⟩
  have hflag : flag (a.preg (Page.forge y) 0x028) 4 = true := by
    rw [ha]
    exact Device.flag_event _ _ 4 (by decide)
  have hqa : Device.Quiet (s.dev.freeRetention y e) a := by
    rw [ha]
    exact (Device.quiet_bump _ _ _ _).trans (Device.quiet_eventCode _ _ _ _)
  obtain ⟨x, hx, hxo⟩ := a.reclaim_only 4 Status.forgeRetentionExpired (Page.forge y) (Device.retentionTally y) 1
  have hreg : x.preg (Page.forge y) 0x028 = a.preg (Page.forge y) 0x028 := by
    rw [← hx]
    exact a.preg_reclaim_forge y 4 _ _ _ 1
  have hend : s.dev.expireRetention y e = x := by
    rw [← hx, ha]
    rfl
  have hxf : x.forges = (s.dev.freeRetention y e).forges := by rw [hxo, hqa]
  have hxforge : x.forge y = (s.dev.freeRetention y e).forge y := Device.forge_of_forges hxf y
  have hstep : x.atStep3 = s.dev.atStep3 := by rw [hxo, hqa]; rfl
  have hctr : x.ctr = s.dev.ctr := by rw [hxo, hqa]; rfl
  have hother (z : Yard) (hz : z ≠ y) : x.forges[z] = s.dev.forges[z] := by
    rw [hxf]
    exact Device.forges_modRet_ne _ y z e _ hz
  have hreqs : (x.forge y).reqs = (s.dev.forge y).reqs := by
    rw [hxforge]
    exact Device.reqs_modRet _ _ _ _
  have hafter : x.afterMiss = x := x.afterMiss_of_overdue fun h3 => by
    obtain ⟨z, o, ho, hlt⟩ := hmore (hstep ▸ h3)
    refine ⟨z, o, ?_, by rw [Device.now, hctr]; exact hlt⟩
    by_cases hz : z = y
    · rw [hz] at ho ⊢
      rw [hreqs]
      exact ho
    · rw [show x.forge z = s.dev.forge z from hother z hz]
      exact ho
  have hexec : exec (.retentionExpiry y e) s = .next (s.onDev fun _ => x) := by
    change Host.Outcome.next (s.onDev fun d => (d.retentionExpiry y e).afterMiss) = _
    refine next_congr _ ?_
    rw [hexpire, hend, hafter]
  refine ⟨_, hexec, hother, ?_, fun v hv => ?_, by rw [State.onDev_dev, hreg]; exact hflag, fun b => ?_⟩
  · change (x.forge y).ret[e] = _
    rw [hxforge]
    exact Device.ret_modRet_same _ _ _ _
  · change (x.forge y).ret[v] = _
    rw [hxforge]
    exact Device.ret_modRet_ne _ _ _ _ _ hv
  · change x.rdByte b = _
    rw [hxo, hqa]
    rfl

end

end Sys2Proof.Machine
end

section
/-! O38: template slots (R430). -/

namespace Sys2Proof.Machine

namespace Device

section
variable (d : Device) (y : Yard) (t : Fin 16)

theorem forges_finishCmd (q : QueueId) (p : HostCmd → Bool) (c : Code) (r : W64) : (d.finishCmd q p c r).forges = d.forges := by
  unfold finishCmd
  split
  · rfl
  · unfold completeCmd
    extract_lets x h
    split
    · obtain ⟨-, -, hw⟩ := writeCompletion_spec (modQueue d q _) q x
      rw [hw]
      rfl
    · rfl

/-- TPL_RESULT takes the code, and of the Forges nothing else differs. -/
theorem forges_templateResult (who : Option Asker) (c : Code) :
    (d.templateResult y t who c).forges = upd d.forges y fun f => { f with tplResult := c } := by
  unfold templateResult
  extract_lets e
  have he : e.forges = upd d.forges y fun f => { f with tplResult := c } := forges_eventCode _ _ _ _
  cases who with
  | none => exact he
  | some x => exact (e.forges_finishCmd x.1 _ _ _).trans he

/-- A Forge that changes alone. -/
theorem forge_upd {e : Device} {f : Forge → Forge} (h : e.forges = upd d.forges y f) :
    (∀ z, z ≠ y → e.forges[z] = d.forges[z]) ∧ e.forge y = f (d.forge y) := by
  unfold forge
  rw [h]
  exact ⟨fun z hz => upd_ne _ _ _ _ hz, upd_same _ _ _⟩

theorem templateResult_spec (who : Option Asker) (c : Code) :
    (∀ z, z ≠ y → (d.templateResult y t who c).forges[z] = d.forges[z]) ∧
      (d.templateResult y t who c).forge y = { d.forge y with tplResult := c } :=
  d.forge_upd y (d.forges_templateResult y t who c)

theorem accessed_lp6Read (a n : Nat) : Accessed d (d.lp6Read a n).1 := by
  unfold lp6Read
  split
  · exact Accessed.refl d
  · split
    · exact Accessed.refl d
    · exact d.accessed_readRange a n false

theorem accessed_readPattern (a n nnz : Nat) : Accessed d (d.readPattern a n nnz).1 := by
  have h := (d.accessed_lp6Read a (4 * (n + 1))).trans (accessed_lp6Read _ (a + 4 * (n + 1)) (2 * nnz))
  unfold readPattern
  dsimp only
  split
  · exact h
  · exact h
  · exact h

theorem accessed_readHeader (dpa : Nat) : Accessed d (d.readHeader dpa).1 := by
  unfold readHeader
  split
  · exact Accessed.refl d
  · have h := d.accessed_lp6Read dpa 64
    generalize d.lp6Read dpa 64 = r at h ⊢
    dsimp only
    split
    · exact h
    · exact h

theorem accessed_readTemplate (dpa : Nat) : Accessed d (d.readTemplate dpa).1 := by
  unfold readTemplate
  have h := d.accessed_readHeader dpa
  generalize d.readHeader dpa = r at h ⊢
  obtain ⟨e, x⟩ := r
  dsimp only at h ⊢
  split
  · exact h
  · next hdr t fact offs =>
    have h4 := (((h.trans (e.accessed_readPattern (dpa + (offs[0]?).getD 0) t.n t.nnzP)).trans
      (accessed_readPattern _ (dpa + (offs[1]?).getD 0) t.n t.nnzA)).trans (accessed_lp6Read _ t.tgt (16 * t.targets))).trans
      (accessed_lp6Read _ t.term (16 * t.nterms))
    split
    · exact h4
    · exact h4
    · exact h4
    · exact h4
    · exact h4

end

end Device

section
variable {y : Yard} {s : State} {who : Requester} {v : W32} {t : Fin 16} (hserve : s.dev.serving = true)
  (ht : Fin.ofNat 16 (field v 0 4) = t)
include hserve ht

theorem tplCmdLoad_eq (hop : field v 16 2 = 1) : exec (.tplCmdLoad who y v) s = .next (s.onDev fun d => d.loadTemplate y t
    ((s.dev.preg (Page.forge y) 0x118).toNat + s.dev.pfield (Page.forge y) 0x11C 0 16 * 2 ^ 32) none) := by
  subst ht
  change Host.Outcome.next (s.onDev fun d => d.templateCmd y v) = _
  refine next_congr _ ?_
  unfold Device.templateCmd
  dsimp only
  rw [if_neg (by rw [hserve]; decide), if_pos hop]

theorem tplCmdUnload_eq (hop : field v 16 2 = 2) : exec (.tplCmdUnload who y v) s =
    .next (s.onDev fun d => d.unloadTemplate y t none) := by
  subst ht
  change Host.Outcome.next (s.onDev fun d => d.templateCmd y v) = _
  refine next_congr _ ?_
  unfold Device.templateCmd
  dsimp only
  rw [if_neg (by rw [hserve]; decide), if_neg (by omega), if_pos hop]

/-- A load that waits for its template. -/
theorem tplCmdLoad_waits (hop : field v 16 2 = 1) (hu : s.dev.templateUsed y t = false) : Completes (.tplCmdLoad who y v) s fun u =>
    s.onlyTo u { s.dev with forges := u.dev.forges } ∧ (∀ z, z ≠ y → u.dev.forges[z] = s.dev.forges[z]) ∧
      u.dev.forge y = { s.dev.forge y with loading := (s.dev.forge y).loading ++
        [⟨t, (s.dev.preg (Page.forge y) 0x118).toNat + s.dev.pfield (Page.forge y) 0x11C 0 16 * 2 ^ 32, none, s.dev.now⟩] } := by
  have he := tplCmdLoad_eq (who := who) (y := y) hserve ht hop
  obtain ⟨p, hp⟩ : ∃ p, p = (s.dev.preg (Page.forge y) 0x118).toNat + s.dev.pfield (Page.forge y) 0x11C 0 16 * 2 ^ 32 := ⟨_, rfl⟩
  rw [← hp] at he ⊢
  obtain ⟨e, hx⟩ : ∃ e, e = s.dev.modForge y fun f => { f with loading := f.loading ++ [⟨t, p, none, s.dev.now⟩] } := ⟨_, rfl⟩
  have hload : s.dev.loadTemplate y t p none = e := by
    rw [hx]
    exact if_neg (by rw [hu]; decide)
  have hforges : e.forges = upd s.dev.forges y fun f => { f with loading := f.loading ++ [⟨t, p, none, s.dev.now⟩] } := by rw [hx]; rfl
  have honly : e = { s.dev with forges := e.forges } := by rw [hx]; rfl
  exact ⟨_, he.trans (next_congr (fun _ => e) hload), ⟨⟨rfl, rfl⟩, honly⟩, s.dev.forge_upd y hforges⟩

/-- A command on a slot that a request or a retention entry names. -/
theorem tplCmd_used (hu : s.dev.templateUsed y t = true) :
    (field v 16 2 = 1 → Completes (.tplCmdLoad who y v) s fun u => (∀ z, z ≠ y → u.dev.forges[z] = s.dev.forges[z]) ∧
      u.dev.forge y = { s.dev.forge y with tplResult := Status.forgeTemplateInvalid }) ∧
    (field v 16 2 = 2 → Completes (.tplCmdUnload who y v) s fun u => (∀ z, z ≠ y → u.dev.forges[z] = s.dev.forges[z]) ∧
      u.dev.forge y = { s.dev.forge y with tplResult := Status.forgeTemplateInvalid }) := by
  have hspec := s.dev.templateResult_spec y t none Status.forgeTemplateInvalid
  exact ⟨fun hop => ⟨_, (tplCmdLoad_eq hserve ht hop).trans (next_congr (fun d => d.templateResult y t none _) (if_pos hu)), hspec⟩,
    fun hop => ⟨_, (tplCmdUnload_eq hserve ht hop).trans (next_congr (fun d => d.templateResult y t none _) (if_pos hu)), hspec⟩⟩

theorem tplCmdUnload_done (hop : field v 16 2 = 2) (hu : s.dev.templateUsed y t = false) : Completes (.tplCmdUnload who y v) s fun u =>
    (∀ z, z ≠ y → u.dev.forges[z] = s.dev.forges[z]) ∧
      u.dev.forge y = { s.dev.forge y with tpl := (s.dev.forge y).tpl.set t none, tplResult := Status.done } := by
  obtain ⟨e, he⟩ : ∃ e, e = s.dev.modForge y fun f => { f with tpl := f.tpl.set t none } := ⟨_, rfl⟩
  obtain ⟨hz, hy⟩ := s.dev.forge_upd y (e := e) (f := fun f => { f with tpl := f.tpl.set t none }) (by rw [he]; rfl)
  obtain ⟨hz', hy'⟩ := e.templateResult_spec y t none Status.done
  have hun : s.dev.unloadTemplate y t none = e.templateResult y t none Status.done := by
    rw [he]
    exact if_neg (by rw [hu]; decide)
  exact ⟨_, (tplCmdUnload_eq hserve ht hop).trans (next_congr (fun _ => e.templateResult y t none Status.done) hun),
    fun z h => (hz' z h).trans (hz z h), by rw [State.onDev_dev, hy', hy]⟩

end

/-- The oldest load ends (R430). -/
theorem tplLoadDone_spec {y : Yard} {s : State} {l : TplLoad} {rest : List TplLoad} (hl : (s.dev.forge y).loading = l :: rest)
    {got : Code ⊕ Template} (hgot : ((s.dev.modForge y fun f => { f with loading := rest }).readTemplate l.dpa).2 = got) :
    Completes (.tplLoadDone y) s fun u => (∀ z, z ≠ y → u.dev.forges[z] = s.dev.forges[z]) ∧
      (u.dev.forge y).loading = rest ∧ (u.dev.forge y).reqs = (s.dev.forge y).reqs ∧
      (∀ x, got = .inr x → s.dev.templateUsed y l.slot = false →
        (u.dev.forge y).tpl = (s.dev.forge y).tpl.set l.slot (some x) ∧ (u.dev.forge y).tplResult = Status.done) ∧
      (∀ c, s.dev.templateUsed y l.slot = false → got = .inl c →
        (u.dev.forge y).tpl = (s.dev.forge y).tpl ∧ (u.dev.forge y).tplResult = c) ∧
      (s.dev.templateUsed y l.slot = true →
        (u.dev.forge y).tpl = (s.dev.forge y).tpl ∧ (u.dev.forge y).tplResult = Status.forgeTemplateInvalid) := by
  obtain ⟨d, hd⟩ : ∃ d, d = s.dev.modForge y fun f => { f with loading := rest } := ⟨_, rfl⟩
  obtain ⟨hz, hy⟩ := s.dev.forge_upd y (e := d) (f := fun f => { f with loading := rest }) (by rw [hd]; rfl)
  rw [← hd] at hgot
  have hused : d.templateUsed y l.slot = s.dev.templateUsed y l.slot := by
    unfold Device.templateUsed
    rw [hy]
  obtain ⟨x, hx⟩ : ∃ x, x = s.dev.templateLoaded y := ⟨_, rfl⟩
  have hexec : exec (.tplLoadDone y) s = .next (s.onDev fun _ => x) := next_congr (f := fun d => d.templateLoaded y) _ hx.symm
  unfold Device.templateLoaded at hx
  rw [hl] at hx
  dsimp only at hx
  rw [← hd] at hx
  have hleaves (tpl : Vector (Option Template) 16) (c : Code) (hx : x.forges = upd d.forges y fun f => { f with tpl := tpl, tplResult := c }) :
      (∀ z, z ≠ y → x.forges[z] = s.dev.forges[z]) ∧ (x.forge y).loading = rest ∧ (x.forge y).reqs = (s.dev.forge y).reqs ∧
        (x.forge y).tpl = tpl ∧ (x.forge y).tplResult = c := by
    obtain ⟨hz', hy'⟩ := d.forge_upd y hx
    rw [hy', hy]
    exact ⟨fun z h => (hz' z h).trans (hz z h), rfl, rfl, rfl, rfl⟩
  have htpl : (d.forge y).tpl = (s.dev.forge y).tpl := by rw [hy]
  cases hu : s.dev.templateUsed y l.slot with
  | true =>
    rw [if_pos (hused.trans hu)] at hx
    obtain ⟨h1, h2, h3, h4, h5⟩ := hleaves (s.dev.forge y).tpl Status.forgeTemplateInvalid (by
      rw [hx, Device.forges_templateResult]
      exact upd_congr_at _ _ _ _ (by rw [← htpl]; rfl))
    exact ⟨_, hexec, h1, h2, h3, fun _ _ h => absurd h Bool.noConfusion, fun _ h => absurd h Bool.noConfusion, fun _ => ⟨h4, h5⟩⟩
  | false =>
    rw [if_neg (by rw [hused, hu]; decide)] at hx
    have ha := d.accessed_readTemplate l.dpa
    generalize d.readTemplate l.dpa = r at hx ha hgot
    obtain ⟨g, res⟩ := r
    have hgf : g.forges = d.forges := by
      dsimp only at ha
      rw [ha]
    change res = got at hgot
    subst hgot
    cases res with
    | inl c =>
      dsimp only at hx
      obtain ⟨h1, h2, h3, h4, h5⟩ := hleaves (s.dev.forge y).tpl c (by
        rw [hx, Device.forges_templateResult, hgf]
        exact upd_congr_at _ _ _ _ (by rw [← htpl]; rfl))
      exact ⟨_, hexec, h1, h2, h3, fun _ h => absurd h Sum.inl_ne_inr, fun e _ h => ⟨h4, h5.trans (Sum.inl.inj h)⟩,
        fun h => absurd h Bool.noConfusion⟩
    | inr v =>
      dsimp only at hx
      obtain ⟨h1, h2, h3, h4, h5⟩ := hleaves ((s.dev.forge y).tpl.set l.slot (some v)) Status.done (by
        rw [hx, Device.forges_templateResult, show (g.modForge y fun f => { f with tpl := f.tpl.set l.slot (some v) }).forges =
          upd g.forges y (fun f => { f with tpl := f.tpl.set l.slot (some v) }) from rfl, hgf, upd_upd]
        exact upd_congr_at _ _ _ _ (by rw [← htpl]; rfl))
      exact ⟨_, hexec, h1, h2, h3, fun e h _ => ⟨h4.trans (by rw [Sum.inr.inj h]), h5⟩, fun _ _ h => absurd h Sum.inr_ne_inl,
        fun h => absurd h Bool.noConfusion⟩

end Sys2Proof.Machine
end

section
/-! O38: a hearth takes a problem, and the single status of a request (R440, R448). -/

namespace Sys2Proof.Machine

namespace Device

/-- A free hearth takes the next problem of a request. -/
theorem problemStart_eq (d : Device) (y : Yard) (h : Fin 4) {i k : Nat} {q : ForgeReq} (hfree : d.onHearth y h = none)
    (hnext : d.nextRequest y = some (i, q)) (ht : (d.forge y).tpl[q.tslot] ≠ none)
    (hk : (q.problems.findIdx? fun p => p.phase = .ready) = some k) : ∃ (e : Device) (p : Problem), p.phase = .running h ∧
      Scans ((d.drawFree.2).modForge y fun f => { f with work := some d.drawFree.2.epoch }) e ∧
      d.problemStart y h = e.setReq y i { q with problems := q.problems.set k p } := by
  obtain ⟨t, ht⟩ := Option.ne_none_iff_exists'.mp ht
  obtain ⟨g, hg⟩ : ∃ g, g = (d.drawFree.2).modForge y fun f => { f with work := some d.drawFree.2.epoch } := ⟨_, rfl⟩
  have hs := g.scans_startProblem y t q k ((q.problems[k]?).getD ForgeReq.freshProblem)
  rw [← hg]
  refine ⟨_, { (g.startProblem y t q k ((q.problems[k]?).getD ForgeReq.freshProblem)).2 with
    phase := .running h, perFrame := (Config.firstCycles d.drawFree.1).val }, rfl, hs, ?_⟩
  unfold problemStart
  rw [hfree, hnext]
  dsimp only
  rw [show d.forgeTpl y q.tslot = some t from ht, hk]
  rw [if_neg (by decide)]
  dsimp only
  rw [← hg]

theorem problemStart_spec {s : State} {y : Yard} {h : Fin 4} {i k : Nat} {q : ForgeReq} (hfree : s.dev.onHearth y h = none)
    (hnext : s.dev.nextRequest y = some (i, q)) (ht : (s.dev.forge y).tpl[q.tslot] ≠ none)
    (hk : (q.problems.findIdx? fun p => p.phase = .ready) = some k) : Completes (.problemStart y h) s fun u =>
      (∀ z, z ≠ y → u.dev.forges[z] = s.dev.forges[z]) ∧ s.sameMemory u ∧ ∃ p : Problem,
        (u.dev.forge y).reqs = (s.dev.forge y).reqs.set i { q with problems := q.problems.set k p } ∧ p.phase = .running h := by
  obtain ⟨e, p, hp, hs, he⟩ := s.dev.problemStart_eq y h hfree hnext ht hk
  obtain ⟨r, hr⟩ : ∃ r : ForgeReq, r = { q with problems := q.problems.set k p } := ⟨_, rfl⟩
  rw [← hr] at he
  have hexec : exec (.problemStart y h) s = .next (s.onDev fun _ => e.setReq y i r) :=
    next_congr (f := fun d => d.problemStart y h) _ he
  have hforges : (e.setReq y i r).forges = upd s.dev.forges y fun f => { f with work := some s.dev.epoch, reqs := f.reqs.set i r } := by
    change upd e.forges y (fun f => { f with reqs := f.reqs.set i r }) = _
    rw [hs.forges, show (modForge s.dev.drawFree.2 y fun f => { f with work := some s.dev.drawFree.2.epoch }).forges =
      upd s.dev.forges y (fun f => { f with work := some s.dev.epoch }) from rfl, upd_upd]
  obtain ⟨hz, hy⟩ := s.dev.forge_upd y hforges
  refine ⟨_, hexec, hz, fun a => ?_, p, ?_, hp⟩
  · exact hs.sameBytes.rdByte a
  · rw [← hr]
    exact congrArg Forge.reqs hy

end Device

/-- A request of which problem k has ended with a code, and the others DONE. -/
theorem forgeStatus_one (q : ForgeReq) {code : Code} (hcode : code = Status.done ∨ code = Status.forgeInfeasible ∨
      code = Status.forgeNumeric ∨ code = Status.forgeIterLimit)
    (h : ∀ p ∈ q.problems, p.code = code ∨ p.code = Status.done) (hk : ∃ p ∈ q.problems, p.code = code) :
    Device.forgeStatus q = if code ≠ Status.done then code else if q.booked then Status.done else Status.unbookedDone := by
  have hany (c : Code) (hc : c ≠ Status.done) : (q.problems.any fun p => decide (p.code = c)) = decide (c = code) := by
    by_cases hcc : c = code
    · obtain ⟨p, hp, hpc⟩ := hk
      rw [decide_eq_true hcc]
      exact List.any_eq_true.mpr ⟨p, hp, decide_eq_true (hpc.trans hcc.symm)⟩
    · rw [decide_eq_false hcc]
      refine List.any_eq_false.mpr fun p hp hx => ?_
      have hx := of_decide_eq_true hx
      exact (h p hp).elim (fun h => hcc (hx.symm.trans h)) fun h => hc (hx.symm.trans h)
  unfold Device.forgeStatus
  dsimp only
  simp only [List.find?_cons, List.find?_nil, hany Status.aborted (by decide), hany Status.forgeDeadlineMissed (by decide),
    hany Status.memChannelOffline (by decide), hany Status.memEccUncorrected (by decide), hany Status.forgeInputInvalid (by decide),
    hany Status.forgeNumeric (by decide), hany Status.forgeInfeasible (by decide), hany Status.forgeIterLimit (by decide)]
  rcases hcode with rfl | rfl | rfl | rfl
  · rfl
  · rfl
  · rfl
  · rfl

end Sys2Proof.Machine
end

section
/-! O38: a problem ends (R437, R438). -/

namespace Sys2Proof.Machine

theorem length_doubles (l : List W64) : (doubles l).length = 8 * l.length := by
  unfold doubles
  rw [List.length_flatMap]
  simp [mul_comm]

theorem length_fit64 (n : Nat) (l : List W64) : (fit64 n l).length = n := by
  unfold fit64
  rw [List.length_append, List.length_map, List.length_take, List.length_replicate]
  omega

theorem Template.length_ys (t : Template) (vals : List W64) (p : ForgePoint) : (t.ys vals p).length = t.m := by
  unfold Template.ys
  rw [List.length_map, List.length_range]

/-- The codes with which the solver ends a problem (R437, R438). -/
theorem Template.code_run (t : Template) (vals : List W64) (tol at_ : Nat) (cert : ForgeCert) (left k : Nat) (p : ForgePoint) :
    (t.run vals tol at_ cert left k p).code = Status.done ∨ (t.run vals tol at_ cert left k p).code = Status.forgeInfeasible ∨
      (t.run vals tol at_ cert left k p).code = Status.forgeNumeric ∨
      (t.run vals tol at_ cert left k p).code = Status.forgeIterLimit := by
  induction left generalizing k p with
  | zero =>
    unfold Template.run
    split
    · exact .inl rfl
    · exact .inr (.inr (.inr rfl))
  | succ left ih =>
    unfold Template.run
    split
    · exact .inl rfl
    · dsimp only
      split
      · exact .inr (.inl rfl)
      · split
        · exact .inr (.inr (.inl rfl))
        · exact ih _ _

namespace Device

theorem length_headerBytes (t : Template) (p : Problem) (stop : Nat) (dual : Bool) (iters : Nat) (figs : W64 × W64 × W64 × W64)
    (now : Frame) : (headerBytes t p stop dual iters figs now).length = 64 := by
  unfold headerBytes
  rw [List.length_flatMap]
  simp

/-- A record over sound units. -/
theorem writeRecord_sound (d : Device) (q : ForgeReq) (a : Nat) (l : List Byte) (h : d.soundRange a l.length)
    (harm : d.tally.armed = false) : ∃ e : Device, Counted d e ∧ d.writeRecord q a l = (e.wrBytes a l, none) := by
  obtain ⟨e, he, hw⟩ := d.writeRange_sound a l q.booked h harm
  refine ⟨e, he.1, ?_⟩
  unfold writeRecord
  rw [hw]
  rfl

section
variable (d : Device) (t : Template) (q : ForgeReq) (k : Nat) (p : Problem)

/-- A problem without an iterate writes its header alone. -/
theorem putFailure_sound (code : Code) (hs : d.soundRange (q.outDpa + k * t.stride) 64) (harm : d.tally.armed = false) :
    ∃ (e : Device) (p' : Problem), d.putFailure t q k p code = (e, p') ∧ Accessed d e ∧ p'.code = code ∧
      ∀ b, b < q.outDpa + k * t.stride ∨ q.outDpa + k * t.stride + 64 ≤ b → e.rdByte b = d.rdByte b := by
  obtain ⟨l, hl⟩ : ∃ l, l = headerBytes t { p with code := code } 0 false 0 (noFigures d.free) d.now := ⟨_, rfl⟩
  have hlen : l.length = 64 := by
    rw [hl]
    exact length_headerBytes _ _ _ _ _ _ _
  obtain ⟨e, he, hw⟩ := d.drawFree.2.writeRecord_sound q (q.outDpa + k * t.stride) l (by rw [hlen]; exact hs) harm
  refine ⟨e.wrBytes (q.outDpa + k * t.stride) l, { p with code := code }, ?_, ?_, rfl, fun b hb => ?_⟩
  · unfold putFailure writeHeader
    dsimp only
    rw [show headerBytes t { p with code := code } 0 false 0 (noFigures d.drawFree.1) d.drawFree.2.now = l from hl.symm, hw]
    rfl
  · exact (d.accessed_drawFree.trans he.accessed).trans (accessed_wrBytes e _ l)
  · rw [e.rdByte_wrBytes_out _ _ _ (by rw [hlen]; exact hb), he]
    rfl

/-- A problem with an iterate writes its output and its header. -/
theorem putSolution_sound (o : Template.Outcome) {xy : List W64}
    (hxy : xy = if o.code = Status.forgeNumeric then List.replicate (t.n + t.m) nan64
      else fit64 t.n o.point.x ++ (t.ys p.vals o.point).map canon64)
    (hs : d.soundRange (q.outDpa + k * t.stride) 64) (hr : d.soundRange (q.outDpa + k * t.stride + 64) (8 * (t.n + t.m)))
    (harm : d.tally.armed = false) : ∃ (e : Device) (p' : Problem), d.putSolution t q k p o = (e, p') ∧ Accessed d e ∧
      p'.code = o.code ∧ e.rdBytes (q.outDpa + k * t.stride + 64) (8 * (t.n + t.m)) = doubles xy ∧
      ∀ b, b < q.outDpa + k * t.stride ∨ q.outDpa + k * t.stride + 64 + 8 * (t.n + t.m) ≤ b → e.rdByte b = d.rdByte b := by
  obtain ⟨a, ha⟩ : ∃ a, a = q.outDpa + k * t.stride := ⟨_, rfl⟩
  have hlen : (doubles xy).length = 8 * (t.n + t.m) := by
    have hn : xy.length = t.n + t.m := by
      rw [hxy]
      split
      · exact List.length_replicate
      · rw [List.length_append, length_fit64, List.length_map, t.length_ys]
    rw [length_doubles, hn]
  rw [← ha] at hs hr ⊢
  obtain ⟨e, he, hw⟩ := d.writeRecord_sound q (a + 64) (doubles xy) (by rw [hlen]; exact hr) harm
  obtain ⟨g, hg⟩ : ∃ g, g = e.wrBytes (a + 64) (doubles xy) := ⟨_, rfl⟩
  have hgs : g.soundRange a 64 := by
    rw [hg, wrBytes_only]
    exact he.soundRange hs
  have hga : g.tally.armed = false := by
    rw [hg, wrBytes_only]
    change e.tally.armed = false
    rw [he]
    exact harm
  obtain ⟨p', hp'⟩ : ∃ p' : Problem, p' = { p with code := o.code, result := some o.point } := ⟨_, rfl⟩
  obtain ⟨l, hl⟩ : ∃ l, l = headerBytes t p' 0 o.dual o.iters (t.residuals p.vals o.point) g.now := ⟨_, rfl⟩
  have hll : l.length = 64 := by
    rw [hl]
    exact length_headerBytes _ _ _ _ _ _ _
  obtain ⟨f, hf, hw'⟩ := g.writeRecord_sound q a l (by rw [hll]; exact hgs) hga
  have hbyte (b : Nat) : f.rdByte b = g.rdByte b := by
    rw [hf]
    rfl
  refine ⟨f.wrBytes a l, p', ?_, ?_, by rw [hp'], ?_, fun b hb => ?_⟩
  · unfold putSolution writeHeader
    dsimp only
    rw [← hxy, ← ha, hw]
    dsimp only
    rw [← hg, show ({ p with code := (none : Option Code).getD o.code, result := some o.point } : Problem) = p' from hp'.symm, ← hl, hw']
    exact Prod.ext rfl hp'.symm
  · exact (((he.accessed.trans (accessed_wrBytes e _ _)).trans (by rw [hg]; exact Accessed.refl _)).trans hf.accessed).trans
      (accessed_wrBytes f a l)
  · have hsame : (f.wrBytes a l).rdBytes (a + 64) (8 * (t.n + t.m)) = g.rdBytes (a + 64) (8 * (t.n + t.m)) :=
      List.map_congr_left fun i _ => by rw [f.rdByte_wrBytes_out _ _ _ (by rw [hll]; omega), hbyte]
    rw [hsame, hg, ← hlen]
    exact e.rdBytes_wrBytes_same _ _
  · rw [f.rdByte_wrBytes_out _ _ _ (by rw [hll]; omega), hbyte, hg, e.rdByte_wrBytes_out _ _ _ (by rw [hlen]; omega), he]
    rfl

end

end Device

end Sys2Proof.Machine
end

section
/-! O38: the obligation. -/

namespace Sys2Proof.Machine

/-- What the end of problem k of request i, with a code, leaves of its request. -/
def State.problemEnded (y : Yard) (i k : Nat) (q : ForgeReq) (code : Code) (s u : State) : Prop :=
  ((∃ j, j ≠ k ∧ ∃ o : Problem, q.problems[j]? = some o ∧ o.phase ≠ .ended) → (∀ z, z ≠ y → u.dev.forges[z] = s.dev.forges[z]) ∧
    ∃ p' : Problem, (u.dev.forge y).reqs = (s.dev.forge y).reqs.set i { q with problems := q.problems.set k p' } ∧
      p'.phase = .ended ∧ p'.code = code) ∧
  ((∀ j, j ≠ k → ∀ o : Problem, q.problems[j]? = some o → o.phase = .ended ∧ o.code = Status.done) →
    ((∀ z, z ≠ y → u.dev.forges[z] = s.dev.forges[z]) ∧ (u.dev.forge y).reqs = (s.dev.forge y).reqs.eraseIdx i ∧
      (u.dev.mbx q.stall q.mbx).msgs.length = (s.dev.mbx q.stall q.mbx).msgs.length + 1) ∧
    s.noticed q.stall q.mbx (q.ntag * 2 ^ 56 + 0xFFFF * 2 ^ 32 +
      (if code ≠ Status.done then code else if q.booked then Status.done else Status.unbookedDone).toNat) u)

namespace Device

/-- A problem of a request that is no FBACK ends. -/
theorem problemEnd_eq (d : Device) (y : Yard) (h : Fin 4) (r : ForgeResult) {i k : Nat} {q : ForgeReq} {t : Template} {p : Problem}
    (hon : d.onHearth y h = some (i, k)) (hq : (d.forge y).reqs[i]? = some q) (hp : q.problems[k]? = some p)
    (ht : (d.forge y).tpl[q.tslot] = some t) (hnow : d.now.toNat ≤ q.deadline.toNat) (hback : q.back = false)
    {e : Device} {p' : Problem} (hend : d.endForward t q k p r = (e, p')) : d.problemEnd y h r =
      if (q.problems.set k { p' with phase := .ended }).all (fun p => p.phase = .ended) = true
      then e.commitRequest y i { q with problems := q.problems.set k { p' with phase := .ended } } 0
      else e.setReq y i { q with problems := q.problems.set k { p' with phase := .ended } } := by
  unfold problemEnd
  rw [hon]
  dsimp only
  rw [hq]
  dsimp only
  rw [show d.forgeTpl y q.tslot = some t from ht]
  dsimp only
  rw [if_neg (by omega), hp, hback, if_neg Bool.false_ne_true]
  rw [show (some p).getD ForgeReq.freshProblem = p from rfl, hend]

/-- The commit point of a request that is not retained. -/
theorem commitRequest_plain (d : Device) (y : Yard) (i : Nat) (q : ForgeReq) (he : q.entry = none) : ∃ (a : Device) (done rej : Nat),
    Quiet (d.modForge y fun f => { f with reqs := f.reqs.eraseIdx i }) a ∧
      d.commitRequest y i q 0 = a.forgeNotice y q (forgeStatus q) 0 0xFFFF done rej 0 a.now := by
  unfold commitRequest
  extract_lets d0 p
  have hr : (if (q.entry.isSome && !q.back) = true then d0.retainProblems y q else (d0, q.problems, [])) = (d0, q.problems, []) := by
    rw [he]
    rfl
  rw [hr]
  dsimp -zeta only
  extract_lets q' status count d2 d3 done rej
  have h3 : Quiet d0 d3 := by
    dsimp only [d3]
    split
    · exact (quiet_bump d0 _ _ _).trans (quiet_bump _ _ _ _)
    · exact quiet_bump d0 _ _ _
  split
  · exact ⟨d3, done, rej, h3, rfl⟩
  · next e h => exact absurd (he.symm.trans h) (Option.some_ne_none e).symm

end Device

/-- The members of a list with one of them replaced. -/
theorem mem_set_cases {l : List Problem} {k : Nat} {a x : Problem} (h : x ∈ l.set k a) : x = a ∨ ∃ j, j ≠ k ∧ l[j]? = some x := by
  obtain ⟨j, hj⟩ := List.mem_iff_getElem?.mp h
  by_cases hk : j = k
  · left
    rw [hk, List.getElem?_set_self'] at hj
    cases hl : l[k]? with
    | none => rw [hl] at hj; exact absurd hj (Option.some_ne_none x).symm
    | some v => rw [hl] at hj; exact (Option.some.inj hj).symm
  · exact .inr ⟨j, hk, by rwa [List.getElem?_set_ne (Ne.symm hk)] at hj⟩

/-- The other members are still there. -/
theorem mem_set_of_ne {l : List Problem} {k j : Nat} {a x : Problem} (hj : j ≠ k) (h : l[j]? = some x) : x ∈ l.set k a :=
  List.mem_iff_getElem?.mpr ⟨j, by rwa [List.getElem?_set_ne (Ne.symm hj)]⟩

section
variable {s : State} {y : Yard} {h : Fin 4} {r : ForgeResult} {i k : Nat} {q : ForgeReq} {t : Template} {p : Problem}
  (hon : s.dev.onHearth y h = some (i, k)) (hq : (s.dev.forge y).reqs[i]? = some q) (hp : q.problems[k]? = some p)
  (ht : (s.dev.forge y).tpl[q.tslot] = some t) (hnow : s.dev.now.toNat ≤ q.deadline.toNat) (hback : q.back = false)
  (hentry : q.entry = none)
include hon hq hp ht hnow hback hentry

theorem problemEnd_ended {e : Device} {p' : Problem} (hend : s.dev.endForward t q k p r = (e, p')) (hacc : Device.Accessed s.dev e)
    (hcode : p'.code = Status.done ∨ p'.code = Status.forgeInfeasible ∨ p'.code = Status.forgeNumeric ∨
      p'.code = Status.forgeIterLimit) :
    Completes (.problemEnd y h r) s fun u => s.problemEnded y i k q p'.code u ∧ ∀ b, u.dev.rdByte b = e.rdByte b := by
  have heq := s.dev.problemEnd_eq y h r hon hq hp ht hnow hback hend
  obtain ⟨pe, hpe⟩ : ∃ pe : Problem, pe = { p' with phase := .ended } := ⟨_, rfl⟩
  have hphase : pe.phase = .ended := by rw [hpe]
  have hpcode : pe.code = p'.code := by rw [hpe]
  have hforges : e.forges = s.dev.forges := by rw [hacc]
  have hstalls : e.stalls = s.dev.stalls := by rw [hacc]
  obtain ⟨hklt, -⟩ := List.getElem?_eq_some_iff.mp hp
  rw [← hpe] at heq
  rw [← hpcode] at hcode ⊢
  by_cases hall : (q.problems.set k pe).all (fun p => p.phase = .ended) = true
  · rw [if_pos hall] at heq
    obtain ⟨q', hq'⟩ : ∃ q' : ForgeReq, q' = { q with problems := q.problems.set k pe } := ⟨_, rfl⟩
    have hsame : q'.entry = none ∧ q'.stall = q.stall ∧ q'.mbx = q.mbx ∧ q'.desc = q.desc ∧ q'.back = false ∧
        q'.booked = q.booked ∧ q'.problems = q.problems.set k pe := by
      rw [hq']
      exact ⟨hentry, rfl, rfl, rfl, hback, rfl, rfl⟩
    obtain ⟨hqe, hqs, hqm, hqd, hqb, hqk, hqp⟩ := hsame
    rw [← hq'] at heq
    obtain ⟨a, done, rej, ha, hcommit⟩ := e.commitRequest_plain y i q' hqe
    obtain ⟨n, ⟨hnotice, hword⟩, ⟨b, hst⟩, hfo, hby⟩ := a.forgeNotice_answered y q' (Device.forgeStatus q') (handle := 0xFFFF) (by decide)
      done rej 0 a.now
    rw [← hcommit, hqs, hqm] at hst
    rw [← hcommit] at hfo hby
    rw [← heq] at hst hfo hby
    obtain ⟨x, hx⟩ : ∃ x, x = s.dev.problemEnd y h r := ⟨_, rfl⟩
    rw [← hx] at hst hfo hby
    have hexec : exec (.problemEnd y h r) s = .next (s.onDev fun _ => x) := next_congr (f := fun d => d.problemEnd y h r) _ hx.symm
    have hxf : x.forges = upd s.dev.forges y fun f => { f with reqs := f.reqs.eraseIdx i } := by
      rw [hfo, ha, ← hforges]
      rfl
    obtain ⟨hz, hy⟩ := s.dev.forge_upd y hxf
    have hmbx : x.mbx q.stall q.mbx = Mailbox.noticed n (s.dev.mbx q.stall q.mbx) := by
      have has : a.stalls = s.dev.stalls := by
        rw [ha, ← hstalls]
        rfl
      have h1 : x.stall q.stall = (a.modStall q.stall (Stall.posted q.mbx n b)).stall q.stall :=
        congrArg (fun v : Vector Stall 384 => v[q.stall]) hst
      have h2 : a.stall q.stall = s.dev.stall q.stall := congrArg (fun v : Vector Stall 384 => v[q.stall]) has
      unfold Device.mbx
      rw [h1, Device.stall_modStall_same, h2]
      exact upd_same _ _ _
    refine ⟨_, hexec, ⟨fun ⟨j, hj, o, ho, hne⟩ => absurd ?_ hne, fun hothers => ⟨⟨hz, congrArg Forge.reqs hy, ?_⟩, n, ?_, hnotice, ?_, ?_⟩⟩,
      fun c => ?_⟩
    · exact of_decide_eq_true (List.all_eq_true.mp hall o (mem_set_of_ne hj ho))
    · change (x.mbx q.stall q.mbx).msgs.length = _
      rw [hmbx]
      exact List.length_append
    · change (x.mbx q.stall q.mbx).msgs = _
      rw [hmbx]
      rfl
    · have hstatus := forgeStatus_one q' hcode (fun o ho => by
        rw [hqp] at ho
        exact (mem_set_cases ho).imp (fun h => by rw [h]) fun ⟨j, hj, hl⟩ => (hothers j hj o hl).2)
        ⟨pe, by rw [hqp]; exact List.mem_iff_getElem?.mpr ⟨k, by rw [List.getElem?_set_self hklt]⟩, rfl⟩
      rw [hword, hstatus, hqk]
      unfold noticeWord ForgeReq.ntag
      rw [hqd, hqb, show bitAt false 52 = 0 from rfl, Nat.add_zero]
    · change (x.mbx q.stall q.mbx).inflight = _
      rw [hmbx]
      rfl
    · change x.rdByte c = _
      rw [hby.rdByte, ha]
      rfl
  · rw [if_neg hall] at heq
    have hexec : exec (.problemEnd y h r) s = .next (s.onDev fun _ => e.setReq y i { q with problems := q.problems.set k pe }) :=
      next_congr (f := fun d => d.problemEnd y h r) _ heq
    obtain ⟨hz, hy⟩ := s.dev.forge_upd y (e := e.setReq y i { q with problems := q.problems.set k pe })
      (f := fun f => { f with reqs := f.reqs.set i { q with problems := q.problems.set k pe } }) (by
        rw [← hforges]
        rfl)
    refine ⟨_, hexec, ⟨fun _ => ⟨hz, pe, congrArg Forge.reqs hy, hphase, rfl⟩, fun hothers => absurd ?_ hall⟩, fun b => rfl⟩
    refine List.all_eq_true.mpr fun x hx => decide_eq_true ?_
    rcases mem_set_cases hx with rfl | ⟨j, hj, hl⟩
    · exact hphase
    · exact (hothers j hj x hl).1

end

end Sys2Proof.Machine
end

section
/-! O38: the obligation. -/

namespace Sys2Proof.Machine

section
variable {s : State} {y : Yard} {h : Fin 4} {r : ForgeResult} {i k : Nat} {q : ForgeReq} {t : Template} {p : Problem}
  (hon : s.dev.onHearth y h = some (i, k)) (hq : (s.dev.forge y).reqs[i]? = some q) (hp : q.problems[k]? = some p)
  (ht : (s.dev.forge y).tpl[q.tslot] = some t) (hnow : s.dev.now.toNat ≤ q.deadline.toNat) (hback : q.back = false)
  (hentry : q.entry = none) (hcode : p.code = 0) (hoff : r.offline = false) {a : Nat} (ha : a = q.outDpa + k * t.stride + 64)
  (hsh : s.dev.soundRange (a - 64) 64) (harm : s.dev.tally.armed = false)
include hon hq hp ht hnow hback hentry hcode hoff ha hsh harm

/-- A problem some of whose l lie above their u (R437). -/
theorem problemEnd_crossed (hc : t.crossed p.vals = true) : Completes (.problemEnd y h r) s fun u =>
    s.problemEnded y i k q Status.forgeInfeasible u ∧ ∀ b, b < a - 64 ∨ a ≤ b → u.dev.rdByte b = s.dev.rdByte b := by
  have hbase : a - 64 = q.outDpa + k * t.stride := by omega
  rw [hbase] at hsh ⊢
  obtain ⟨e, p', hput, hacc, hpc, hbytes⟩ := s.dev.putFailure_sound t q k { p with cycles := Device.spentBy t q p r.cycles }
    Status.forgeInfeasible hsh harm
  have hend : s.dev.endForward t q k p r = (e, p') := by
    unfold Device.endForward
    dsimp only
    rw [if_neg (by rw [hcode]; decide), hoff, Bool.false_and, if_neg Bool.false_ne_true, if_pos hc, hput]
  obtain ⟨u, hu, hended, hby⟩ := problemEnd_ended hon hq hp ht hnow hback hentry hend hacc (by rw [hpc]; exact .inr (.inl rfl))
  rw [hpc] at hended
  exact ⟨u, hu, hended, fun b hb => (hby b).trans (hbytes b (by omega))⟩

/-- A problem ends as the solver leaves it (R437, R438). -/
theorem problemEnd_solved (hc : t.crossed p.vals = false) (hsr : s.dev.soundRange a (8 * (t.n + t.m)))
    {o : Template.Outcome} (ho : o = Device.solved t q p r) : Completes (.problemEnd y h r) s fun u =>
      s.problemEnded y i k q o.code u ∧
        u.dev.rdBytes a (8 * (t.n + t.m)) = doubles (if o.code = Status.forgeNumeric then List.replicate (t.n + t.m) nan64
          else fit64 t.n o.point.x ++ (t.ys p.vals o.point).map canon64) ∧
        ∀ b, b < a - 64 ∨ a + 8 * (t.n + t.m) ≤ b → u.dev.rdByte b = s.dev.rdByte b := by
  have hbase : a - 64 = q.outDpa + k * t.stride := by omega
  rw [hbase] at hsh ⊢
  rw [ha] at hsr ⊢
  obtain ⟨e, p', hput, hacc, hpc, hxy, hbytes⟩ := s.dev.putSolution_sound t q k { p with cycles := Device.spentBy t q p r.cycles }
    o rfl hsh hsr harm
  have hsolved : Device.solved t q { p with cycles := Device.spentBy t q p r.cycles } r = o := ho.symm
  have hend : s.dev.endForward t q k p r = (e, p') := by
    unfold Device.endForward
    dsimp only
    rw [if_neg (by rw [hcode]; decide), hoff, Bool.false_and, if_neg Bool.false_ne_true, if_neg (by rw [hc]; decide), hsolved, hput]
  obtain ⟨u, hu, hended, hby⟩ := problemEnd_ended hon hq hp ht hnow hback hentry hend hacc (by
    rw [hpc, ho]
    exact t.code_run _ _ _ _ _ _ _)
  rw [hpc] at hended
  refine ⟨u, hu, hended, ?_, fun b hb => (hby b).trans (hbytes b hb)⟩
  rw [← hxy]
  exact List.map_congr_left fun j _ => hby _

end

section
variable {s : State} {y : Yard} {who : Requester} {v : W32} (hserve : s.dev.serving = true) (stops : List ForgeStop)
include hserve

/-- An abort that names no request the Forge holds (R449). -/
theorem forgeAbort_late (h : ∀ q ∈ (s.dev.forge y).reqs, ¬ (q.stall.val = field v 16 9 ∧
    q.slot = (if flag v 8 then .paddock else .primary) ∧ q.ntag = field v 0 8)) : Completes (.forgeAbort who y v stops) s fun u =>
      (∀ z, z ≠ y → u.dev.forges[z] = s.dev.forges[z]) ∧ (u.dev.forge y).abortRes = Status.abortTooLate ∧
        (u.dev.forge y).reqs = (s.dev.forge y).reqs ∧ s.sameMemory u := by
  have hexec : exec (.forgeAbort who y v stops) s = .next (s.onDev fun _ => s.dev.forgeAbortAnswer y Status.abortTooLate) :=
    (forgeAbort_none hserve stops h).trans (next_congr _ rfl)
  obtain ⟨hz, hy⟩ := s.dev.forge_upd y (s.dev.abortAnswer_forge y Status.abortTooLate)
  have hmem (a : Nat) : (s.dev.forgeAbortAnswer y Status.abortTooLate).rdByte a = s.dev.rdByte a :=
    (Device.quiet_eventCode (s.dev.modForge y fun f => { f with abortRes := Status.abortTooLate }) _ _ _).rdByte a
  generalize s.dev.forgeAbortAnswer y Status.abortTooLate = x at hexec hz hy hmem
  exact ⟨_, hexec, hz, congrArg Forge.abortRes hy, (congrArg Forge.reqs hy).trans rfl, hmem⟩

/-- An abort of a request that the Forge holds (R449). -/
theorem forgeAbort_stops {i : Nat} {q : ForgeReq} (hi : (s.dev.forge y).reqs[i]? = some q)
    (hq : q.stall.val = field v 16 9 ∧ q.slot = (if flag v 8 then .paddock else .primary) ∧ q.ntag = field v 0 8)
    (h : ∀ q ∈ (s.dev.forge y).reqs.take i, ¬ (q.stall.val = field v 16 9 ∧
      q.slot = (if flag v 8 then .paddock else .primary) ∧ q.ntag = field v 0 8))
    (ht : (s.dev.forge y).tpl[q.tslot] ≠ none) : Completes (.forgeAbort who y v stops) s fun u =>
      ((∀ z, z ≠ y → u.dev.forges[z] = s.dev.forges[z]) ∧ (u.dev.forge y).reqs = (s.dev.forge y).reqs.eraseIdx i ∧
        (u.dev.mbx q.stall q.mbx).msgs.length = (s.dev.mbx q.stall q.mbx).msgs.length + 1) ∧
      (u.dev.forge y).abortRes = Status.aborted := by
  have hexec : exec (.forgeAbort who y v stops) s =
      .next (s.onDev fun _ => (s.dev.stopRequest y i q Status.aborted 0 stops).forgeAbortAnswer y Status.aborted) :=
    (forgeAbort_some hserve stops hi hq h).trans (next_congr _ rfl)
  obtain ⟨hother, hreqs, hmsgs, -, -⟩ := (s.dev.stopRequest_commits y i q Status.aborted 0 stops ht).spec
  generalize s.dev.stopRequest y i q Status.aborted 0 stops = e at hexec hother hreqs hmsgs
  obtain ⟨hz, hy⟩ := e.forge_upd y (e.abortAnswer_forge y Status.aborted)
  have hmbx : (e.forgeAbortAnswer y Status.aborted).stalls = e.stalls := by
    rw [show (e.forgeAbortAnswer y Status.aborted).stalls = _ from
      congrArg Device.stalls (Device.quiet_eventCode (e.modForge y fun f => { f with abortRes := Status.aborted }) _ _ _)]
    rfl
  generalize e.forgeAbortAnswer y Status.aborted = x at hexec hz hy hmbx
  refine ⟨_, hexec, ⟨fun z hne => (hz z hne).trans (hother z hne), (congrArg Forge.reqs hy).trans hreqs, ?_⟩,
    congrArg Forge.abortRes hy⟩
  exact (congrArg (fun v : Vector Stall 384 => v[q.stall].mbx[q.mbx].msgs.length) hmbx).trans hmsgs

end

/-- Settles O38: hearths take and end problems; the last problem, a missed deadline and an abort commit a request, and
retention and template slots come and go. -/
theorem forgeEvents : Obligations.ForgeEvents := by
  intro y s f page others commits
  refine ⟨fun h i k q hfree hnext ht hk => Device.problemStart_spec hfree hnext ht hk,
    fun h i k q t p r hon hq hp ht hnow hback hentry hcode hoff => ?_,
    fun i q stops hi hq ht hmore => forgeDeadlineMiss_spec stops hi hq ht hmore,
    fun e hu hc hl hh hr hx hmore => retentionExpiry_spec hu hc hl hh hr hx hmore, fun who v hserve => ?_,
    fun l rest hl => tplLoadDone_spec hl rfl⟩
  · intro a o ended hsh hsr hle harm
    exact ⟨fun hc => problemEnd_crossed hon hq hp ht hnow hback hentry hcode hoff rfl hsh harm hc,
      fun hc => problemEnd_solved hon hq hp ht hnow hback hentry hcode hoff rfl hsh harm hc hsr rfl⟩
  · intro sl mine
    refine ⟨fun stops h => ?_, fun i q stops hi hq h ht => ?_, ?_⟩
    · exact forgeAbort_late hserve stops h
    · exact forgeAbort_stops hserve stops hi hq h ht
    · intro t p
      have hused := tplCmd_used (s := s) (y := y) (who := who) (v := v) (t := t) hserve rfl
      exact ⟨fun hop hu => tplCmdLoad_waits hserve rfl hop hu, fun hop hu => (hused hu).1 hop,
        fun hop hu => tplCmdUnload_done hserve rfl hop hu, fun hop hu => (hused hu).2 hop⟩

end Sys2Proof.Machine
end

section
/-! O39: what keeps the clock (R85): the accesses to memory, the barrows and the Forges. -/

namespace Sys2Proof.Machine

namespace Device

/-- The counters, the tick unit, and where and with what a boundary waits. -/
def clock (d : Device) : Counters × TickUnit × Bool × Bool × BoundaryInput := (d.ctr, d.tick, d.atStep3, d.atStep6, d.env)

section
variable {d e : Device}

theorem Quiet.clock (h : Quiet d e) : e.clock = d.clock := by rw [h]; rfl
theorem Accessed.clock (h : Accessed d e) : e.clock = d.clock := by rw [h]; rfl
theorem Managed.clock (h : Managed d e) : e.clock = d.clock := by rw [h.1]; rfl
theorem Outer.clock (h : Outer d e) : e.clock = d.clock := by rw [h.1]; rfl

end

/-- A walk that carries values beside the device keeps what each of its steps keeps. -/
theorem foldl_keeps_fst {α β γ : Type} {p : Device → γ} {f : Device × β → α → Device × β} (h : ∀ x a, p (f x a).1 = p x.1)
    (l : List α) (x : Device × β) : p (l.foldl f x).1 = p x.1 := by
  induction l generalizing x with
  | nil => rfl
  | cons a l ih => exact (ih _).trans (h x a)

variable (d : Device)

theorem clock_readRange (a n : Nat) (b : Bool) : (d.readRange a n b).1.clock = d.clock := (accessed_readRange d a n b).clock
theorem clock_writeRange (a : Nat) (l : List Byte) (b : Bool) : (d.writeRange a l b).1.clock = d.clock :=
  (accessed_writeRange d a l b).clock
theorem clock_bump (p : Page) (o n : Nat) : (d.bump p o n).clock = d.clock := (quiet_bump d p o n).clock
theorem clock_setPreg (p : Page) (o : Nat) (v : W32) : (d.setPreg p o v).clock = d.clock := rfl
theorem clock_event (p : Page) (i : Nat) : (d.event p i).clock = d.clock := (quiet_event d p i).clock
theorem clock_eventCode (p : Page) (i : Nat) (c : Code) : (d.eventCode p i c).clock = d.clock := (quiet_eventCode d p i c).clock
theorem clock_record (p : Page) (c : Code) : (d.record p c).clock = d.clock := (quiet_record d p c).clock

/-- The clock, and the register that holds the tick unit's role. -/
def pulse (d : Device) : (Counters × TickUnit × Bool × Bool × BoundaryInput) × W32 := (d.clock, d.preg Page.frame 0x100)

/-- A page whose registers lie behind those of the FRAME page. -/
theorem pulse_bump (p : Page) (o n : Nat) (h : 0x1_0000 ≤ p.base) : (d.bump p o n).pulse = d.pulse := by
  have hr : (d.bump p o n).preg Page.frame 0x100 = d.preg Page.frame 0x100 := d.reg_bump_ne p o n _ (by
    have : Page.frame.reg 0x100 = 0x7100 := rfl
    unfold Page.reg
    unfold Page.reg at this
    omega)
  exact Prod.ext (d.clock_bump p o n) hr

theorem pulse_eventCode (p : Page) (i : Nat) (c : Code) (h : 0x1_0000 ≤ p.base) : (d.eventCode p i c).pulse = d.pulse := by
  have hr : (d.eventCode p i c).preg Page.frame 0x100 = d.preg Page.frame 0x100 :=
    d.reg_eventCode_ne p i c _ (ne_reportReg_of_outside p (.inl (by
      have : Page.frame.reg 0x100 = 0x7100 := rfl
      omega)))
  exact Prod.ext (d.clock_eventCode p i c) hr

theorem base_forge (y : Yard) : 0x1_0000 ≤ (Page.forge y).base := by
  have : (Page.forge y).base = 0x3_0000 + y.val * 0x1000 := rfl
  omega

theorem pulse_of {d e : Device} (hc : e.clock = d.clock) (hk : FrontPagesKept d e) : e.pulse = d.pulse :=
  Prod.ext hc (hk _ (by decide))

theorem pulse_readRange (a n : Nat) (b : Bool) : (d.readRange a n b).1.pulse = d.pulse :=
  pulse_of (d.clock_readRange a n b) (d.frontPages_readRange a n b)

theorem pulse_writeRange (a : Nat) (l : List Byte) (b : Bool) : (d.writeRange a l b).1.pulse = d.pulse :=
  pulse_of (d.clock_writeRange a l b) (d.frontPages_writeRange a l b)

theorem pulse_poisonWords (a n : Nat) : (d.poisonWords a n).pulse = d.pulse := foldl_keeps (f := poisonUnit) (p := pulse) (fun _ _ => rfl) _ d

theorem pulse_engWrite (st : StallId) (sl : Slot) (a : Nat) (bs : List Byte) : (d.engWrite st sl a bs).pulse = d.pulse :=
  d.pulse_writeRange _ _ _

theorem pulse_engModify (st : StallId) (sl : Slot) (a n : Nat) (f : List Byte → List Byte) :
    (d.engModify st sl a n f).pulse = d.pulse := by
  refine (foldl_keeps (p := pulse) (fun e i => ?_) _ _).trans (d.pulse_readRange _ _ _)
  dsimp only
  split
  · rfl
  · exact e.pulse_engWrite _ _ _ _

theorem pulse_moveRow (src dst n : Nat) (booked dstNamed : Bool) : (d.moveRow src dst n booked dstNamed).1.pulse = d.pulse :=
  ((foldl_keeps (p := pulse) (fun e _ => e.pulse_poisonWords _ _) _ _).trans (pulse_writeRange _ _ _ _)).trans
    (d.pulse_readRange _ _ _)

theorem pulse_runMoves (st : StallId) (j : BarrowJob) (bytes : Nat) : (d.runMoves st j bytes).1.pulse = d.pulse := by
  refine foldl_keeps_fst (p := pulse) (fun x m => ?_) _ (d, _)
  exact x.1.pulse_moveRow m.src m.dst (min m.bytes x.2.2.2) j.booked (if j.stash = true then !ownLoft st m.dst else j.put)

theorem pulse_post (st : StallId) (k : Fin 8) (src : BitVec 9) (words : List Nat) : (d.post st k src words).pulse = d.pulse := by
  obtain ⟨n, b, hp⟩ := d.post_any st k src words
  rw [hp]
  rfl

theorem pulse_barrowNotice (st : StallId) (j : BarrowJob) (code cause : Code) (k bytes fail : Nat) :
    (d.barrowNotice st j code cause k bytes fail).pulse = d.pulse := by
  unfold barrowNotice
  split
  · rfl
  · exact d.pulse_post _ _ _ _

theorem pulse_completeJob (st : StallId) (i : Nat) (j : BarrowJob) : (d.completeJob st i j).pulse = d.pulse := by
  have hm := d.pulse_runMoves st j ((d.movesOf st j).map Move.bytes).sum
  unfold completeJob
  extract_lets total
  generalize d.runMoves st j total = r at hm ⊢
  obtain ⟨x, bad, lost⟩ := r
  dsimp -zeta only at hm ⊢
  extract_lets y lp6 code z
  have hy : y.pulse = x.pulse := by
    dsimp only [y]
    split
    · exact x.pulse_engModify _ _ _ _ _
    · rfl
  have hz : z.pulse = d.pulse := (Eq.trans rfl hy).trans hm
  split
  · exact hz
  · exact (z.pulse_barrowNotice _ _ _ _ _ _ _).trans hz

theorem pulse_serveBarrow (st : StallId) : (d.serveBarrow st).pulse = d.pulse := by
  unfold serveBarrow
  split <;> rfl

theorem pulse_keepPromises (st : StallId) : (d.keepPromises st).pulse = d.pulse := by
  refine foldl_keeps (p := pulse) (fun e j => ?_) _ d
  dsimp only
  split
  · split
    · exact e.pulse_completeJob _ _ _
    · rfl
  · rfl

theorem pulse_writeCompletion (q : QueueId) (c : Completion) : (d.writeCompletion q c).pulse = d.pulse := by
  have hbase : (Page.hostq q).base = 0x5_0000 + q.val * 0x1000 := rfl
  have hframe : Page.frame.reg 0x100 = 0x7100 := rfl
  refine Prod.ext (d.outer_writeCompletion q c).clock (d.reg_writeCompletion_ne q c _ ?_ ?_)
  · unfold Page.reg at *
    omega
  · unfold Page.reg at *
    omega

theorem pulse_finishCmd (q : QueueId) (p : HostCmd → Bool) (code : Code) (result : W64) :
    (d.finishCmd q p code result).pulse = d.pulse := by
  unfold finishCmd
  split
  · rfl
  · unfold completeCmd
    extract_lets x h
    split
    · exact (pulse_writeCompletion _ q x).trans rfl
    · rfl

theorem pulse_lp6Read (a n : Nat) : (d.lp6Read a n).1.pulse = d.pulse := by
  unfold lp6Read
  split
  · rfl
  · split
    · rfl
    · exact d.pulse_readRange a n false

theorem pulse_readPattern (a n nnz : Nat) : (d.readPattern a n nnz).1.pulse = d.pulse := by
  have h := (pulse_lp6Read _ (a + 4 * (n + 1)) (2 * nnz)).trans (d.pulse_lp6Read a (4 * (n + 1)))
  unfold readPattern
  dsimp only
  split
  · exact h
  · exact h
  · exact h

theorem pulse_readHeader (dpa : Nat) : (d.readHeader dpa).1.pulse = d.pulse := by
  unfold readHeader
  split
  · rfl
  · have h := d.pulse_lp6Read dpa 64
    generalize d.lp6Read dpa 64 = r at h ⊢
    dsimp only
    split
    · exact h
    · exact h

theorem pulse_readTemplate (dpa : Nat) : (d.readTemplate dpa).1.pulse = d.pulse := by
  unfold readTemplate
  have h := d.pulse_readHeader dpa
  generalize d.readHeader dpa = r at h ⊢
  obtain ⟨e, x⟩ := r
  dsimp only at h ⊢
  split
  · exact h
  · next hdr t fact offs =>
    have hp := (pulse_readPattern _ (dpa + (offs[1]?).getD 0) t.n t.nnzA).trans
      (e.pulse_readPattern (dpa + (offs[0]?).getD 0) t.n t.nnzP)
    have hr := ((pulse_lp6Read _ t.term (16 * t.nterms)).trans (pulse_lp6Read _ t.tgt (16 * t.targets))).trans (hp.trans h)
    split
    · exact hr
    · exact hr
    · exact hr
    · exact hr
    · exact hr

theorem pulse_templateResult (y : Yard) (t : Fin 16) (who : Option Asker) (c : Code) :
    (d.templateResult y t who c).pulse = d.pulse := by
  unfold templateResult
  extract_lets x
  have hx : x.pulse = d.pulse := (pulse_eventCode _ _ _ _ (base_forge y)).trans rfl
  split
  · exact (x.pulse_finishCmd _ _ _ _).trans hx
  · exact hx

theorem pulse_templateLoaded (y : Yard) : (d.templateLoaded y).pulse = d.pulse := by
  unfold templateLoaded
  split
  · rfl
  · next l rest hl =>
    extract_lets x
    have hx : x.pulse = d.pulse := rfl
    have hr := x.pulse_readTemplate l.dpa
    split
    · exact (x.pulse_templateResult _ _ _ _).trans hx
    · generalize x.readTemplate l.dpa = r at hr ⊢
      obtain ⟨z, res⟩ := r
      have hz : z.pulse = d.pulse := hr.trans hx
      cases res with
      | inl c => exact (z.pulse_templateResult _ _ _ _).trans hz
      | inr t => exact (pulse_templateResult _ _ _ _ _).trans hz

theorem pulse_finishLoads (y : Yard) (n : Nat) : (d.finishLoads y n).pulse = d.pulse := by
  induction n generalizing d with
  | zero => rfl
  | succ n ih =>
    unfold finishLoads
    split
    · exact (ih _).trans (d.pulse_templateLoaded y)
    · rfl

theorem pulse_strike (x : Upset) : (d.strike x).pulse = d.pulse := by
  unfold strike
  split
  · split
    · rfl
    · split
      · rfl
      · split <;> rfl
  · rfl
  · rfl
  · rfl
  · exact Prod.ext (d.clock_bump _ _ _) (d.reg_bump_ne _ _ _ _ (by decide))

theorem clock_poisonWords (a n : Nat) : (d.poisonWords a n).clock = d.clock := congrArg Prod.fst (d.pulse_poisonWords a n)

theorem clock_engModify (st : StallId) (sl : Slot) (a n : Nat) (f : List Byte → List Byte) :
    (d.engModify st sl a n f).clock = d.clock := congrArg Prod.fst (d.pulse_engModify st sl a n f)

end Device

end Sys2Proof.Machine
end

section
/-! O39: what keeps the clock (R85): the teams. -/

namespace Sys2Proof.Machine

namespace Device

variable (d : Device) (y : Yard) (t : Fin 64)

theorem clock_modOp (f : TeamOp → TeamOp) : (d.modOp y t f).clock = d.clock := rfl

theorem clock_modTeam (f : Team → Team) : (d.modTeam y t f).clock = d.clock := rfl

theorem clock_sendComplete (c : CompleteFlit) : (d.sendComplete y t c).clock = d.clock :=
  (d.managed_teamFlit y t false 0 1 false _ _ _).clock

theorem clock_memberOffline : (d.memberOffline y t).clock = d.clock := (d.managed_memberOffline y t).clock

theorem clock_teamFlit (neg : Bool) (src kind : Nat) (poison booked ahead : Bool) (payload : List Byte) :
    (d.teamFlit y t neg src kind poison booked ahead payload).clock = d.clock :=
  (d.managed_teamFlit y t neg src kind poison booked ahead payload).clock

theorem clock_fetchSource (o : TeamOp) (off n : Nat) : (d.fetchSource o off n).1.clock = d.clock := d.clock_readRange _ _ _

theorem clock_readSource (o : TeamOp) (off n : Nat) : (d.readSource o off n).1.clock = d.clock := by
  unfold readSource
  split
  · exact d.clock_fetchSource o off n
  · exact d.clock_fetchSource o _ _

theorem clock_landBytes (o : TeamOp) (off : Nat) (bs : List Byte) (poison : List (Nat × Nat)) :
    (d.landBytes y t o off bs poison).1.clock = d.clock := by
  unfold landBytes
  extract_lets r
  refine (clock_modOp _ _ _ _).trans (foldl_keeps_fst (p := clock) (fun x p => ?_) _ (d, _))
  have hw := x.1.clock_writeRange p.1 ((bs.drop p.2.1).take p.2.2) (!o.nobook)
  exact (foldl_keeps (p := clock) (fun e (v : Nat × Nat) => e.clock_poisonWords (p.1 + (max v.1 p.2.1 - p.2.1))
    (min (v.1 + v.2) (p.2.1 + ((bs.drop p.2.1).take p.2.2).length) - max v.1 p.2.1)) _ _).trans hw

theorem clock_sendLeg (g : Leg) (n : Nat) : (d.sendLeg y t g n).clock = d.clock := by
  induction n generalizing d with
  | zero => rfl
  | succ n ih =>
    unfold sendLeg
    split
    · rfl
    · next o ho =>
      extract_lets k
      split
      · rfl
      · have hr := d.clock_readSource o o.sentBytes k
        generalize d.readSource o o.sentBytes k = r at hr ⊢
        obtain ⟨x, s⟩ := r
        dsimp -zeta only at hr ⊢
        extract_lets x1 x2
        have h2 : x2.clock = d.clock := ((clock_modOp _ _ _ _).trans (clock_teamFlit _ _ _ _ _ _ _ _ _ _)).trans hr
        split
        · exact (x2.clock_memberOffline y t).trans h2
        · exact (ih x2).trans h2

theorem clock_copyLocal (o : TeamOp) (n : Nat) : (d.copyLocal y t o n).clock = d.clock := by
  unfold copyLocal
  have hr := d.clock_readSource o 0 n
  generalize d.readSource o 0 n = r at hr ⊢
  obtain ⟨x, s⟩ := r
  dsimp -zeta only at hr ⊢
  have hl := x.clock_landBytes y t o 0 s.bytes s.bad
  generalize x.landBytes y t o 0 s.bytes s.bad = l at hl ⊢
  obtain ⟨z, off⟩ := l
  dsimp -zeta only at hl ⊢
  extract_lets w
  have hw : w.clock = d.clock := ((z.clock_modOp y t _).trans hl).trans hr
  split
  · exact (w.clock_memberOffline y t).trans hw
  · exact hw

theorem clock_sendPayload : (d.sendPayload y t).clock = d.clock := by
  unfold sendPayload
  extract_lets m
  split
  · rfl
  · split
    · rfl
    · split
      · rfl
      · split
        · split
          · exact d.clock_copyLocal y t _ _
          · rfl
        · exact d.clock_sendLeg y t _ _

theorem clock_serveTeam : (d.serveTeam y t).clock = d.clock := by
  unfold serveTeam
  extract_lets m
  split
  · split <;> rfl
  · rfl

theorem clock_promoteControl : (d.promoteControl y t).clock = d.clock := by
  unfold promoteControl
  extract_lets m
  split
  · split <;> rfl
  · rfl

theorem clock_teamFrame : (d.teamFrame y t).clock = d.clock := by
  unfold teamFrame
  split
  · rfl
  · extract_lets x z
    have hz : z.clock = d.clock := Eq.trans rfl (d.clock_serveTeam y t)
    exact (clock_sendPayload _ _ _).trans ((z.clock_promoteControl y t).trans hz)

theorem clock_receiptStep : (d.receiptStep y t).clock = d.clock := by
  unfold receiptStep
  split
  · rfl
  · next o ho =>
    extract_lets st x i e put z rcpt epoch z1 z2 off layer z3
    have hput (w : Device) (v : Nat) : (put w v).clock = w.clock := rfl
    have hz : z.clock = d.clock := d.clock_modOp y t _
    have h2 : z2.clock = d.clock := (z1.clock_engModify _ _ _ _ _).trans ((hput z _).trans hz)
    have h3 : z3.clock = z2.clock := by
      dsimp only [z3]
      split
      · rfl
      · exact (clock_eventCode _ _ _ _).trans (clock_setPreg _ _ _ _)
    split
    · exact hz
    · split
      · split <;> exact (hput z _).trans hz
      · split
        · exact hz
        · exact (clock_modOp _ _ _ _).trans (h3.trans h2)

theorem clock_settle : (d.settle y t).clock = d.clock := by
  unfold settle
  split
  · split
    · exact d.clock_receiptStep y t
    · rfl
  · rfl

theorem clock_releaseComplete : (d.releaseComplete y t).clock = d.clock := by
  unfold releaseComplete
  extract_lets m
  split
  · split
    · split
      · exact (clock_modTeam _ _ _ _).trans ((clock_modOp _ _ _ _).trans (d.clock_sendComplete y t _))
      · rfl
    · rfl
  · rfl

theorem clock_tryClose : (d.tryClose y t).clock = d.clock := by
  unfold tryClose
  extract_lets m
  split
  · split
    · exact (d.managed_closeOp y t _).clock
    · rfl
  · rfl

theorem clock_teamStep : (d.teamStep y t).clock = d.clock := by
  unfold teamStep
  split
  · rfl
  · exact (clock_tryClose _ _ _).trans ((clock_releaseComplete _ _ _).trans ((clock_settle _ _ _).trans (d.clock_teamFrame y t)))

end Device

end Sys2Proof.Machine
end

section
/-! O39: what keeps the clock (R85): the ports, SAFE, power and the self-test. -/

namespace Sys2Proof.Machine

namespace Device

variable (d : Device)

theorem clock_modPort (p : PortId) (f : Port → Port) : (d.modPort p f).clock = d.clock := rfl
theorem clock_modYard (y : Yard) (f : YardPower → YardPower) : (d.modYard y f).clock = d.clock := rfl
theorem clock_logRing (r : BitVec 512) : (d.logRing r).clock = d.clock := rfl

theorem clock_leavePort (p : PortId) (new : PortState) (detail : Nat) (code : Code) :
    (d.leavePort p new detail code).clock = d.clock := (d.outer_leavePort p new detail code).clock

theorem clock_breakTeam (y : Yard) (t : Fin 64) (s : TeamState) : (d.breakTeam y t s).clock = d.clock := by
  unfold breakTeam
  split
  · exact (clock_eventCode _ _ _ _).trans (clock_modTeam _ _ _ _)
  · rfl

theorem clock_severPort (p : PortId) : (d.severPort p).clock = d.clock := by
  refine foldl_keeps (p := clock) (fun e t => ?_) _ d
  dsimp only
  split
  · refine ((managed_endOp _ _ t _ _ _ _ _).clock).trans ?_
    exact (clock_teamFlit _ _ _ _ _ _ _ _ _ _).trans (e.clock_breakTeam _ _ _)
  · rfl

theorem clock_leave (p : PortId) (new : PortState) (detail : Nat) (code : Code) :
    (d.leave p new detail code).clock = d.clock := by
  unfold leave
  extract_lets was x
  have hx : x.clock = d.clock := d.clock_leavePort p new detail code
  split
  · exact (x.clock_severPort p).trans hx
  · exact hx

theorem clock_reclaim (cause : Fin 5) (c : Code) (p : Page) (t n : Nat) : (d.reclaim cause c p t n).clock = d.clock :=
  (d.managed_reclaim cause c p t n).clock

theorem clock_reclaimPort (p : PortId) : (d.reclaimPort p).clock = d.clock := by
  unfold reclaimPort
  extract_lets q x
  refine (clock_modPort _ _ _).trans (foldl_keeps (p := clock) (fun e v => ?_) _ d)
  exact (clock_reclaim _ _ _ _ _ _).trans (e.clock_reclaim _ _ _ _ _)

theorem clock_portFrame (p : PortId) : (d.portFrame p).clock = d.clock := by
  unfold portFrame
  extract_lets x z q
  have hx : x.clock = d.clock := by
    dsimp only [x]
    split
    · split
      · exact d.clock_leave _ _ _ _
      · split
        · exact (clock_leavePort _ _ _ _ _).trans (d.outer_sendDown _ _).clock
        · rfl
    · rfl
  have hz : z.clock = d.clock := (x.clock_modPort p _).trans hx
  split
  · exact hz
  · split
    · exact (clock_modPort _ _ _).trans ((clock_modPort _ _ _).trans hz)
    · exact (clock_modPort _ _ _).trans hz

theorem clock_setState (s : DevState) : (d.setState s).clock = d.clock := by
  rw [setState_only]
  rfl

theorem clock_closed (code : Code) (alive : Bool) : (d.closed code alive).clock = d.clock := rfl

theorem clock_stopYard (y : Yard) : (d.stopYard y).clock = d.clock := by
  rw [stopYard_only]
  rfl

theorem clock_haltMangers : d.haltMangers.clock = d.clock := by
  obtain ⟨v, hv, -⟩ := d.haltMangers_eq
  rw [hv]
  rfl

theorem clock_loseLedgers (k : Nat) : (loseLedgers k d).clock = d.clock := by
  obtain ⟨m, hm⟩ := d.loseLedgers_only k
  rw [hm]
  rfl

theorem clock_stopAll (k : Nat) : (d.stopAll k).clock = d.clock := by
  have h1 : Managed (loseLedgers k d) ((finList 384).foldl (stopStall k) (loseLedgers k d)) :=
    Managed.foldl (fun e st => e.managed_stopStall k st) _ _
  have hy (e : Device) : ((finList 2).foldl stopYard e).clock = e.clock :=
    foldl_keeps (p := clock) (fun e y => e.clock_stopYard y) _ e
  unfold stopAll
  rw [hy, clock_haltMangers, h1.clock, clock_loseLedgers]

/-- Entry into SAFE. -/
theorem clock_enterSafe (domain : Nat) (code : Code) (page : Page) : (d.enterSafe domain code page).clock = d.clock := by
  obtain ⟨t, ht⟩ := d.logSafe_only domain code page
  obtain ⟨e, he⟩ : ∃ e, d.enterSafe domain code page = e := ⟨_, rfl⟩
  rw [he]
  unfold enterSafe at he
  rw [ht] at he
  split at he
  · rw [← he]
  extract_lets d1 d2 stop alive src d3 at he
  split at he
  · rw [← he]
    rfl
  split at he
  next k d4 h4 =>
  extract_lets +lift d5 d6 d7 d8 boot8 trust8 bist8 pwr8 d9 d10 at he
  have hd4 : d4 = { d3 with free := d3.free + 1 } := (congrArg Prod.snd h4).symm
  have h12 : Outer d1 d2 := d1.outer_record Page.gatehouse code
  have h34 : Outer d3 d4 := by
    rw [hd4]
    exact ⟨rfl, .of_regs rfl⟩
  have h04 : Outer d d4 := Outer.trans (e := d1) ⟨rfl, .of_regs rfl⟩ (h12.trans (Outer.trans (e := d3) ⟨rfl, .of_regs rfl⟩ h34))
  have h6 : d6.clock = d4.clock := d4.clock_stopAll k
  have h68 : Outer d6 d8 := (d6.outer_foldl_leavePort _ _ _ _).trans (Outer.foldl (fun e q => e.outer_abortQueue q code) _ d7)
  have h9 : d9.clock = d8.clock := d8.clock_closed code alive
  have h10 : d10.clock = d9.clock := d9.clock_setState _
  have hend : Outer d10 e := by
    rw [← he]
    split
    · exact .refl d10
    · exact d10.outer_failPending
  rw [hend.clock, h10, h9, h68.clock, h6, h04.clock]

theorem clock_audit : d.audit.clock = d.clock := by
  unfold audit
  extract_lets all bad src x src'
  have hx : x.clock = d.clock := rfl
  clear_value bad
  cases bad with
  | nil => exact hx
  | cons first rest =>
    dsimp -zeta only
    extract_lets shown z w v skipped
    have hz : z.clock = d.clock := hx
    have hw : w.clock = z.clock := by
      dsimp only [w]
      exact foldl_keeps (p := clock) (fun e t => e.clock_logRing _) _ z
    have hv : v.clock = d.clock := (clock_eventCode _ _ _ _).trans (hw.trans hz)
    split
    · exact (v.clock_enterSafe _ _ _).trans hv
    · exact hv

theorem clock_checkOverrun (st : StallId) : (d.checkOverrun st).clock = d.clock := by
  unfold checkOverrun
  extract_lets s late n lim x
  have hx : x.clock = d.clock := rfl
  split
  · exact (clock_eventCode _ _ _ _).trans ((x.clock_bump _ _ _).trans hx)
  · exact hx

theorem clock_checkOverruns : d.checkOverruns.clock = d.clock := foldl_keeps (p := clock) (fun e st => e.clock_checkOverrun st) _ d

theorem clock_scheduleSwitch (st : StallId) : (d.scheduleSwitch st).clock = d.clock := by
  unfold scheduleSwitch
  extract_lets s want other later x
  have hx : x.clock = d.clock := by
    dsimp only [x]
    split <;> rfl
  split
  · rfl
  · exact Eq.trans rfl hx

theorem clock_levelEvents (y : Yard) (l : Nat) : (d.levelEvents y l).clock = d.clock := by
  unfold levelEvents
  extract_lets x
  have hx : x.clock = d.clock := (clock_bump _ _ _ _).trans ((clock_event _ _ _).trans (d.clock_event _ _))
  split
  · exact Eq.trans rfl hx
  · exact hx

theorem clock_takeLevel (y : Yard) (l : Nat) : (d.takeLevel y l).clock = d.clock :=
  (clock_levelEvents _ _ _).trans (d.clock_modYard _ _)

theorem clock_yardFrame (y : Yard) : (d.yardFrame y).clock = d.clock := by
  unfold yardFrame
  generalize d.sampleYard y = r
  obtain ⟨p, want⟩ := r
  dsimp -zeta only
  extract_lets x l v z w
  have hx : x.clock = d.clock := (clock_bump _ _ _ _).trans (d.clock_modYard y _)
  have hz : z.clock = x.clock := by
    dsimp only [z]
    split
    · exact x.clock_takeLevel y want
    · split
      · split
        · exact x.clock_takeLevel y _
        · split
          · split
            · exact x.clock_modYard y _
            · rfl
          · split
            · split
              · exact x.clock_takeLevel y _
              · exact x.clock_modYard y _
            · rfl
      · split
        · exact x.clock_modYard y _
        · rfl
  exact (w.clock_modYard y _).trans ((z.clock_modYard y _).trans (hz.trans hx))

theorem clock_powerFrame (e : BoundaryInput) : (d.powerFrame e).clock = d.clock := by
  unfold powerFrame
  extract_lets src x z src' w i
  have hx : x.clock = d.clock := rfl
  have hz : z.clock = d.clock := (clock_yardFrame _ 1).trans ((x.clock_yardFrame 0).trans hx)
  clear_value z
  have hw : w.clock = z.clock := rfl
  split
  · exact (clock_enterSafe _ _ _ _).trans ((w.clock_eventCode _ _ _).trans (hw.trans hz))
  · exact hz

theorem clock_leaveTest (origin : DevState) : (d.leaveTest origin).clock = d.clock := by
  unfold leaveTest
  extract_lets src x
  have hx : x.clock = d.clock := rfl
  split
  · obtain ⟨e, he, heq, -⟩ := x.enterRomWait_only none
    rw [he, heq]
    exact hx
  · exact (x.clock_setState _).trans hx

theorem clock_fillDrover (f : TestFill) (y : Yard) : (d.fillDrover f y).clock = d.clock := by
  unfold fillDrover
  extract_lets x z
  have hx : x.clock = d.clock := foldl_keeps (p := clock) (fun e t => e.clock_modTeam y t _) _ d
  have hz : z.clock = x.clock := foldl_keeps (p := clock) (fun e p => by
    split
    · exact e.clock_modPort p _
    · rfl) _ x
  exact hz.trans hx

theorem clock_setStalls (v : Vector Stall 384) : ({ d with stalls := v } : Device).clock = d.clock := rfl

theorem clock_fillShed (f : TestFill) (u : Fin 24) : (d.fillShed f u).clock = d.clock := by
  unfold fillShed
  extract_lets lo out tackOut x
  have hx : x.clock = d.clock := rfl
  exact (clock_setStalls x _).trans hx

theorem clock_fillUnit (f : TestFill) (u : Nat) : (d.fillUnit f u).clock = d.clock := by
  unfold fillUnit
  split
  · exact d.clock_fillShed f _
  · split
    · rfl
    · exact d.clock_fillDrover f _

theorem clock_fillChan (f : TestFill) (c : Chan) : (d.fillChan f c).clock = d.clock := rfl

theorem clock_fillTested (r : BistRun) (f : TestFill) : (d.fillTested r f).clock = d.clock := by
  unfold fillTested
  extract_lets units x chans
  have hx : x.clock = d.clock := foldl_keeps (p := clock) (fun e u => e.clock_fillUnit f u) _ d
  exact (foldl_keeps (p := clock) (fun e c => e.clock_fillChan f c) _ x).trans hx

theorem clock_bistResult (c : Code) : (d.bistResult c).clock = d.clock := (clock_record _ _ _).trans rfl

theorem clock_stopRun (r : BistRun) (c : Code) : (d.stopRun r c).clock = d.clock := by
  unfold stopRun
  extract_lets k x src z
  have hx : x.clock = d.clock := (clock_fillTested _ _ _).trans rfl
  have hz : z.clock = x.clock := rfl
  exact (clock_leaveTest _ _).trans ((clock_event _ _ _).trans ((z.clock_bistResult c).trans (hz.trans hx)))

theorem clock_bistFrame : d.bistFrame.clock = d.clock := by
  unfold bistFrame
  split
  · split
    · exact d.clock_stopRun _ _
    · rfl
  · rfl

end Device

end Sys2Proof.Machine
end

section
/-! O39: the frame boundary (R43, R46, R49, R57, R85). -/

namespace Sys2Proof.Machine

namespace Device

variable (d : Device)

/-! ### The tick unit -/

/-- The clock, of the tick unit the length of the last frame alone. -/
def hands (d : Device) : Counters × Nat × Bool × Bool × BoundaryInput := (d.ctr, d.tick.lastLen, d.atStep3, d.atStep6, d.env)

theorem hands_of_ticked {d e : Device} (h : Ticked d e) (ht : e.tick.lastLen = d.tick.lastLen) : e.hands = d.hands := by
  unfold hands
  rw [ht, h.1]

theorem hands_of_clock {d e : Device} (h : e.clock = d.clock) : e.hands = d.hands :=
  congrArg (fun c : Counters × TickUnit × Bool × Bool × BoundaryInput => (c.1, c.2.1.lastLen, c.2.2.1, c.2.2.2.1, c.2.2.2.2)) h

theorem hands_modTick (f : TickUnit → TickUnit) (hf : (f d.tick).lastLen = d.tick.lastLen) : (d.modTick f).hands = d.hands :=
  hands_of_ticked (d.ticked_modTick f) hf

theorem hands_followFlag : d.followFlag.hands = d.hands := by
  unfold followFlag
  split
  · exact hands_of_ticked d.ticked_setHoldoverFlag (by rw [d.tick_setHoldoverFlag])
  · exact d.hands_modTick _ rfl

theorem hands_endStep : d.endStep.hands = d.hands := by
  unfold endStep
  extract_lets was x
  have hx : x.hands = d.hands := d.hands_modTick _ rfl
  split
  · exact x.hands_followFlag.trans hx
  · refine (hands_of_ticked (ticked_tickResult _ _) ?_).trans ((x.hands_modTick _ rfl).trans hx)
    rw [tick_tickResult]

/-- The tick unit's part of a boundary: no correction is left, and the length of the frame that has ended stays. -/
theorem tickBoundary_spec : d.tickBoundary.hands = d.hands ∧ d.tickBoundary.tick.correction = 0 := by
  unfold tickBoundary
  extract_lets t follower x z w u wait
  have hx : x.hands = d.hands := d.hands_modTick _ rfl
  have hz : z.hands = d.hands := by
    dsimp only [z]
    split
    · exact d.hands_endStep
    · split
      · exact x.hands_followFlag.trans hx
      · exact hx
  have hw : w.hands = d.hands := (z.hands_modTick _ rfl).trans hz
  have hc : w.tick.correction = 0 := rfl
  split
  · exact ⟨(w.hands_modTick _ rfl).trans hw, hc⟩
  · have hm := w.marked_sendMarkers
    have ht := hm.tick
    exact ⟨(hands_of_ticked hm.ticked (by rw [ht])).trans hw, by rw [ht]; exact hc⟩

/-! ### The first steps -/

/-- What comes before the counters go on. -/
theorem pulse_served (l : List StallId) : (l.foldl (fun d (st : StallId) =>
    if (d.stall st).barrow = [] then d else (d.serveBarrow st).keepPromises st) d).pulse = d.pulse :=
  foldl_keeps (p := pulse) (fun e st => by
    split
    · rfl
    · exact (pulse_keepPromises _ st).trans (e.pulse_serveBarrow st)) l d

theorem pulse_loads (l : List Yard) : (l.foldl (fun d (y : Yard) => d.finishLoads y (d.forge y).loading.length) d).pulse = d.pulse :=
  foldl_keeps (p := pulse) (fun e y => e.pulse_finishLoads y _) l d

theorem pulse_setTally (t : TallyUnit) : ({ d with tally := t } : Device).pulse = d.pulse := rfl

theorem pulse_countTallies : d.countTallies.pulse = d.pulse := d.pulse_setTally _

theorem clock_modForge (y : Yard) (f : Forge → Forge) : (d.modForge y f).clock = d.clock := rfl

theorem clock_setPorts (v : Vector Port 8) : ({ d with ports := v } : Device).clock = d.clock := rfl

/-- The length of a frame hangs on the tick unit and its role alone. -/
theorem frameLen_of_pulse {d e : Device} (h : e.pulse = d.pulse) : e.frameLen = d.frameLen := by
  have ht : e.tick = d.tick := congrArg (fun p => p.1.2.1) h
  have hr : e.preg Page.frame 0x100 = d.preg Page.frame 0x100 := congrArg Prod.snd h
  unfold frameLen tickRole pfield
  rw [ht, hr]

/-- Steps 1 and 2 count the frame and its length, and leave no correction. -/
theorem boundaryHead_spec (env : BoundaryInput) : ∃ kick, (d.boundaryHead env).hands =
    ({ d.ctr with
        frame := d.ctr.frame + 1, uptime := d.ctr.uptime + BitVec.ofNat 64 ((d.ctr.phase + d.frameLen) / 6400)
        phase := (d.ctr.phase + d.frameLen) % 6400, kickAge := kick }, d.frameLen, d.atStep3, d.atStep6, d.env) ∧
      (d.boundaryHead env).tick.correction = 0 := by
  unfold boundaryHead
  extract_lets a b c e f g
  have hb : b.pulse = d.pulse := ((pulse_loads _ _).trans (d.pulse_served _))
  have hc : c.pulse = d.pulse := b.pulse_countTallies.trans hb
  clear_value c
  have hclock : c.clock = d.clock := congrArg Prod.fst hc
  have hctr : c.ctr = d.ctr := congrArg (fun p => p.1) hclock
  have h3 : c.atStep3 = d.atStep3 := congrArg (fun p => p.2.2.1) hclock
  have h6 : c.atStep6 = d.atStep6 := congrArg (fun p => p.2.2.2.1) hclock
  have henv : c.env = d.env := congrArg (fun p => p.2.2.2.2) hclock
  have hlen : c.frameLen = d.frameLen := frameLen_of_pulse hc
  obtain ⟨he, hcorr⟩ := (c.countFrame c.frameLen).tickBoundary_spec
  change e.hands = _ at he
  change e.tick.correction = 0 at hcorr
  clear_value e
  have hf : f.clock = e.clock := foldl_keeps (p := clock) (fun x p => by
    split
    · exact x.clock_reclaimPort p
    · rfl) _ e
  have hg : g.clock = e.clock := (f.clock_setPorts _).trans hf
  clear_value g
  have hend : (List.foldl (fun d (y : Yard) => d.forgeFrame y) g (finList 2)).clock = e.clock :=
    (foldl_keeps (p := clock) (fun x y => x.clock_modForge y _) _ g).trans hg
  have hcount : (c.countFrame c.frameLen).hands = ({ c.ctr with
      frame := c.ctr.frame + 1, uptime := c.ctr.uptime + BitVec.ofNat 64 ((c.ctr.phase + c.frameLen) / 6400)
      phase := (c.ctr.phase + c.frameLen) % 6400, kickAge := if c.boot.fwRunning then c.ctr.kickAge + 1 else 0 },
    c.frameLen, c.atStep3, c.atStep6, c.env) := rfl
  refine ⟨if c.boot.fwRunning then d.ctr.kickAge + 1 else 0, ?_, ?_⟩
  · rw [hands_of_clock hend, he, hcount, hlen, hctr, h3, h6, henv]
  · rw [show (List.foldl (fun d (y : Yard) => d.forgeFrame y) g (finList 2)).tick = e.tick from congrArg (fun p => p.2.1) hend]
    exact hcorr

/-! ### The later steps -/

theorem clock_chanFrames : ({ d with mc := d.mc.map chanFrame } : Device).clock = d.clock := rfl

theorem clock_teamSteps : d.teamSteps.clock = d.clock :=
  foldl_keeps (p := clock) (fun e y => foldl_keeps (p := clock) (fun x t => x.clock_teamStep y t) _ e) _ d

theorem clock_boundaryTail (env : BoundaryInput) : (d.boundaryTail env).clock = d.clock := by
  unfold boundaryTail
  extract_lets a b c e
  have ha : a.clock = d.clock := foldl_keeps (p := clock) (fun x p => x.clock_portFrame p) _ d
  have hb : b.clock = a.clock := a.clock_chanFrames
  have hc : c.clock = b.clock := foldl_keeps (p := clock) (fun x st => x.clock_scheduleSwitch st) _ b
  exact (clock_bistFrame _).trans ((e.clock_powerFrame env).trans ((c.clock_teamSteps).trans (hc.trans (hb.trans ha))))

theorem anyMiss_congr {d e : Device} (hf : e.forges = d.forges) (hc : e.ctr = d.ctr) : e.anyMiss = d.anyMiss := by
  unfold anyMiss overdue entryEnds forge now
  rw [hf, hc]

theorem anyDue_congr {d e : Device} (hb : e.banks = d.banks) (hc : e.ctr = d.ctr) : e.anyDue = d.anyDue := by
  unfold anyDue timedOut now
  rw [hb, hc]

section
variable {d} {e : Device} (h : e.clock = d.clock)
include h

theorem ctr_of_clock : e.ctr = d.ctr := congrArg (fun p => p.1) h
theorem tick_of_clock : e.tick = d.tick := congrArg (fun p => p.2.1) h
theorem atStep3_of_clock : e.atStep3 = d.atStep3 := congrArg (fun p => p.2.2.1) h
theorem atStep6_of_clock : e.atStep6 = d.atStep6 := congrArg (fun p => p.2.2.2.1) h
theorem env_of_clock : e.env = d.env := congrArg (fun p => p.2.2.2.2) h

end

theorem boundaryMid_eq (env : BoundaryInput) : d.boundaryMid env = if d.audit.checkOverruns.anyDue = true then
    { d.audit.checkOverruns with atStep6 := true, env := env } else d.audit.checkOverruns.boundaryTail env := rfl

/-- A boundary that waits at step 6 while something is due. -/
theorem waits_at_step6 {x t : Device} {env : BoundaryInput}
    (ht : (if x.anyDue = true then { x with atStep6 := true, env := env } else x.boundaryTail env) = t) (h6 : x.atStep6 = false) :
    t.ctr = x.ctr ∧ t.tick = x.tick ∧ t.atStep3 = x.atStep3 ∧ (t.atStep6 = true → t.anyDue = true ∧ t.env = env) := by
  split at ht
  · next hd =>
    subst ht
    exact ⟨rfl, rfl, rfl, fun _ => ⟨(anyDue_congr (d := x) rfl rfl).trans hd, rfl⟩⟩
  · have hc : t.clock = x.clock := by rw [← ht, clock_boundaryTail]
    exact ⟨ctr_of_clock hc, tick_of_clock hc, atStep3_of_clock hc,
      fun h => absurd ((atStep6_of_clock hc).symm.trans h) (by rw [h6]; decide)⟩

/-- Steps 4 to 9. -/
theorem boundaryMid_ends (env : BoundaryInput) (h3 : d.atStep3 = false) (h6 : d.atStep6 = false) {t : Device}
    (ht : d.boundaryMid env = t) : t.ctr = d.ctr ∧ t.tick = d.tick ∧ t.atStep3 = false ∧
      (t.atStep6 = true → t.anyDue = true ∧ t.env = env) := by
  have hx : d.audit.checkOverruns.clock = d.clock := (clock_checkOverruns _).trans d.clock_audit
  rw [boundaryMid_eq] at ht
  obtain ⟨hc, hk, hs3, hs6⟩ := waits_at_step6 ht ((atStep6_of_clock hx).trans h6)
  exact ⟨hc.trans (ctr_of_clock hx), hk.trans (tick_of_clock hx), hs3.trans ((atStep3_of_clock hx).trans h3), hs6⟩

/-- A boundary waits at step 3 while something misses, and goes on else. -/
theorem boundary_ends (env : BoundaryInput) (h3 : d.atStep3 = false) (h6 : d.atStep6 = false) {t : Device}
    (ht : d.boundary env = t) : ∃ kick, t.ctr = { d.ctr with
        frame := d.ctr.frame + 1, uptime := d.ctr.uptime + BitVec.ofNat 64 ((d.ctr.phase + d.frameLen) / 6400)
        phase := (d.ctr.phase + d.frameLen) % 6400, kickAge := kick } ∧
      t.tick.lastLen = d.frameLen ∧ t.tick.correction = 0 ∧
      (t.atStep3 = true → t.anyMiss = true ∧ t.env = env) ∧ (t.atStep6 = true → t.anyDue = true ∧ t.env = env) := by
  obtain ⟨kick, hhands, hcorr⟩ := d.boundaryHead_spec env
  unfold boundary at ht
  generalize d.boundaryHead env = e at ht hhands hcorr
  have hctr := congrArg (fun p => p.1) hhands
  have hlen : e.tick.lastLen = d.frameLen := congrArg (fun p => p.2.1) hhands
  have he3 : e.atStep3 = false := (congrArg (fun p => p.2.2.1) hhands).trans h3
  have he6 : e.atStep6 = false := (congrArg (fun p => p.2.2.2.1) hhands).trans h6
  refine ⟨kick, ?_⟩
  extract_lets z at ht
  split at ht
  · next hm =>
    have ht6 : t.atStep6 = false := by rw [← ht]; exact he6
    have hmiss : t.anyMiss = true := (anyMiss_congr (by rw [← ht]) (by rw [← ht])).trans hm
    refine ⟨by rw [← ht]; exact hctr, by rw [← ht]; exact hlen, by rw [← ht]; exact hcorr,
      fun _ => ⟨hmiss, by rw [← ht]⟩, fun h => absurd h (by rw [ht6]; decide)⟩
  · obtain ⟨hc, hk, hs3, hs6⟩ := e.boundaryMid_ends env he3 he6 ht
    exact ⟨hc.trans hctr, by rw [hk]; exact hlen, by rw [hk]; exact hcorr, fun h => absurd h (by rw [hs3]; decide), hs6⟩

/-- A boundary that has nothing left to wait for does not catch up. -/
theorem catchUp_of_waiting (h3 : d.atStep3 = true → d.anyMiss = true) (h6 : d.atStep6 = true → d.anyDue = true) :
    d.catchUp = d := by
  have hmiss : d.afterMiss = d := if_neg fun h => by
    obtain ⟨ha, hm⟩ := Bool.and_eq_true_iff.mp h
    rw [h3 ha] at hm
    exact absurd hm (by decide)
  unfold catchUp
  rw [hmiss]
  refine if_neg fun h => ?_
  obtain ⟨ha, hm⟩ := Bool.and_eq_true_iff.mp h
  rw [h6 ha] at hm
  exact absurd hm (by decide)

end Device

/-- Settles O39: a boundary counts the frame and its reference cycles, and waits at steps 3 and 6 where R85 has it wait. -/
theorem frameBoundary : Obligations.FrameBoundary := by
  intro env s
  refine ⟨fun hoff hlost hin => ?_, fun h3 h6 hstay => ?_⟩
  · obtain ⟨h3, h6⟩ := Bool.or_eq_false_iff.mp hin
    have hcatch : s.dev.catchUp = s.dev := s.dev.catchUp_of_waiting (by rw [h3]; exact fun h => absurd h (by decide))
      (by rw [h6]; exact fun h => absurd h (by decide))
    have hgo : (!s.dev.powered || s.dev.tick.refLost || s.dev.inBoundary) = false := by
      rw [hlost, hin, show s.dev.powered = true from decide_eq_true hoff]
      rfl
    obtain ⟨d, hd⟩ : ∃ d, d = env.upsets.foldl Device.strike s.dev := ⟨_, rfl⟩
    have hpulse : d.pulse = s.dev.pulse := by
      rw [hd]
      exact Device.foldl_keeps (p := Device.pulse) (fun e x => e.pulse_strike x) _ _
    have hexec : exec (.frameBoundary env) s = .next (s.onDev fun _ => d.boundary env) := by
      change Host.Outcome.next (s.onDev fun d => if (!d.catchUp.powered || d.catchUp.tick.refLost || d.catchUp.inBoundary) = true
        then d.catchUp else (env.upsets.foldl Device.strike d.catchUp).boundary env) = _
      refine next_congr _ ?_
      rw [hcatch, hgo, if_neg Bool.false_ne_true, ← hd]
    have hclock : d.clock = s.dev.clock := congrArg Prod.fst hpulse
    have hctr : d.ctr = s.dev.ctr := congrArg (fun p => p.1) hclock
    obtain ⟨kick, hc, hlen, hcorr, hm, hdue⟩ := d.boundary_ends env ((Device.atStep3_of_clock hclock).trans h3)
      ((Device.atStep6_of_clock hclock).trans h6) rfl
    rw [Device.frameLen_of_pulse hpulse, hctr] at hc
    rw [Device.frameLen_of_pulse hpulse] at hlen
    generalize d.boundary env = e at hexec hc hlen hcorr hm hdue
    have hk : s.dev.frameLen = if s.dev.tick.inStep = true then s.dev.tick.stepLen
        else if s.dev.tickRole = 2 ∧ s.dev.tick.state = .aligned then (10240000 + 400 * s.dev.tick.correction).toNat
        else 10240000 := by
      unfold Device.frameLen
      simp only [Bool.and_eq_true, decide_eq_true_eq]
    rw [hk] at hc hlen
    refine ⟨_, hexec, congrArg Counters.frame hc, ?_⟩
    intro k len
    refine ⟨?_, congrArg Counters.phase hc, hlen, hcorr, ⟨rfl, rfl⟩, hm, hdue⟩
    rw [show (s.onDev fun _ => e).dev.ctr.uptime = _ from congrArg Counters.uptime hc, BitVec.toNat_add, BitVec.toNat_ofNat]
    exact Nat.add_mod_mod _ _ _
  · have hcatch := s.dev.catchUp_of_waiting h3 h6
    change Host.Outcome.next (s.onDev fun d => if (!d.catchUp.powered || d.catchUp.tick.refLost || d.catchUp.inBoundary) = true
      then d.catchUp else (env.upsets.foldl Device.strike d.catchUp).boundary env) = _
    refine (next_congr (fun d => d) ?_).trans rfl
    rw [hcatch]
    refine if_pos ?_
    rcases hstay with h | h | h
    · rw [show s.dev.powered = false from decide_eq_false (by rw [h]; decide)]
      rfl
    · rw [h]
      simp
    · rw [h]
      simp

end Sys2Proof.Machine
end

section
/-! O31: what a manger's commands leave of the device: reads, and one stall (R242 to R250). -/

namespace Sys2Proof.Machine

namespace Device

theorem Scans.modStall {d e : Device} (h : Scans d e) (st : StallId) (f : Stall → Stall) :
    Scans (d.modStall st f) (e.modStall st f) := by
  obtain ⟨ha, hu, hm⟩ := h
  have hs : e.stalls = d.stalls := by rw [ha]
  refine ⟨?_, hu, hm⟩
  unfold Accessed Device.modStall at *
  dsimp only
  rw [hs]
  conv_lhs => rw [ha]

theorem Scans.stall {d e : Device} (h : Scans d e) (st : StallId) : e.stall st = d.stall st := by
  rw [h.1]
  rfl

theorem Quiet.scans {d e : Device} (h : Quiet d e) : Scans d e := ⟨h.accessed, .of_quiet h, h.mem⟩

/-- e is d after reads and reports, with stall st as x. -/
def Ran (st : StallId) (x : Stall) (d e : Device) : Prop := Scans (d.modStall st fun _ => x) e

namespace Ran

variable {st : StallId} {x : Stall} {d e f : Device}

theorem refl (st : StallId) (d : Device) : Ran st (d.stall st) d d := by
  unfold Ran
  rw [d.modStall_id st _ rfl]
  exact .refl d

theorem scans (h : Ran st x d e) (k : Scans e f) : Ran st x d f := Scans.trans h k

theorem modStall (h : Ran st x d e) (g : Stall → Stall) : Ran st (g x) d (e.modStall st g) := by
  have h2 := Scans.modStall h st g
  rw [modStall_modStall] at h2
  exact h2

theorem modCtx (h : Ran st x d e) (sl : Slot) (g : SlotCtx → SlotCtx) : Ran st (x.modCtx sl g) d (e.modCtx st sl g) :=
  h.modStall fun s => s.modCtx sl g

theorem modMgr (h : Ran st x d e) (m : Fin 4) (g : Manger → Manger) :
    Ran st { x with mgr := upd x.mgr m g } d (e.modMgr st m g) := h.modStall fun s => { s with mgr := upd s.mgr m g }

theorem bump (h : Ran st x d e) (p : Page) (o n : Nat) : Ran st x d (e.bump p o n) := h.scans (quiet_bump e p o n).scans

section
variable (h : Ran st x d e)
include h

theorem stall : e.stall st = x := (Scans.stall h st).trans (stall_modStall_same _ _ _)

theorem stall_ne {u : StallId} (hu : u ≠ st) : e.stall u = d.stall u :=
  (Scans.stall h u).trans (stall_modStall_ne _ _ _ _ hu)

theorem ctx (sl : Slot) : e.ctx st sl = x.ctx sl := congrArg (fun s : Stall => s.ctx sl) h.stall

theorem mgr : (e.stall st).mgr = x.mgr := congrArg Stall.mgr h.stall

theorem rdByte (a : Nat) : e.rdByte a = d.rdByte a := by
  have hb : SameBytes (d.modStall st fun _ => x) e := Scans.sameBytes h
  exact (hb.rdByte a).trans rfl

end

end Ran

end Device

/-! ### Status records (R243) -/

/-- The slot's registers after a record of manger m. -/
def SlotCtx.recorded (m : Fin 4) (r : W64) (k : SlotCtx) : SlotCtx :=
  if (vget k.rings m []).length < 16 then { k with rings := upd k.rings m (· ++ [r]) }
  else { k with rings := upd k.rings m fun l => l.drop 1 ++ [r], lost := setBit k.lost m }

namespace Device

theorem record16_eq (d : Device) (st : StallId) (sl : Slot) (m : Fin 4) (kind tag a b : Nat) (c : Code) :
    ∃ r, d.record16 st sl m kind tag a b c = d.modCtx st sl (SlotCtx.recorded m r) ∧
      (a < 2 ^ 14 → b < 2 ^ 14 → r = statusRecord kind tag a b c) := by
  refine ⟨_, rfl, fun ha hb => ?_⟩
  beta_reduce
  rw [if_pos ha, if_pos hb]
  rfl

end Device

theorem recorded_rings {m : Fin 4} {r : W64} {k : SlotCtx} (h : k.rings[m].length < 16) :
    (SlotCtx.recorded m r k).rings[m] = k.rings[m] ++ [r] := by
  have hv : vget k.rings m [] = k.rings[m] := by
    simp [vget]
  unfold SlotCtx.recorded
  rw [hv, if_pos h]
  exact upd_same _ _ _

theorem recorded_rings_ne {m n : Fin 4} {r : W64} {k : SlotCtx} (h : n ≠ m) :
    (SlotCtx.recorded m r k).rings[n] = k.rings[n] := by
  unfold SlotCtx.recorded
  split
  · exact upd_ne _ _ _ _ h
  · exact upd_ne _ _ _ _ h

/-- A record changes of the slot's registers its rings and their lost bits alone. -/
theorem recorded_only (m : Fin 4) (r : W64) (k : SlotCtx) :
    SlotCtx.recorded m r k = { k with rings := (SlotCtx.recorded m r k).rings, lost := (SlotCtx.recorded m r k).lost } := by
  unfold SlotCtx.recorded
  split <;> rfl

/-! ### The mangers that a command selects -/

/-- A command that selects one manger. -/
theorem mem_selected {sel : BitVec 4} {g h : Fin 4} (hsel : selected sel = [g]) : flag sel h = decide (h = g) := by
  have hm : h ∈ selected sel ↔ flag sel h = true := by
    unfold selected
    rw [List.mem_filter]
    exact ⟨And.right, fun hf => ⟨List.mem_finRange h, hf⟩⟩
  rw [hsel, List.mem_singleton] at hm
  rw [Bool.eq_iff_iff, decide_eq_true_eq]
  exact hm.symm

theorem rankOf_single {sel : BitVec 4} {g : Fin 4} (hsel : selected sel = [g]) : rankOf sel g = 0 := by
  unfold rankOf
  rw [List.length_eq_zero_iff, List.filter_eq_nil_iff]
  intro k _ hk
  obtain ⟨hlt, hf⟩ := Bool.and_eq_true_iff.mp hk
  rw [mem_selected hsel, decide_eq_true_eq] at hf
  rw [hf] at hlt
  exact absurd (of_decide_eq_true hlt) (lt_irrefl _)

end Sys2Proof.Machine
end

section
/-! O31: the start of an MLOAD and an MFEED that ends at once (R242, R246). -/

namespace Sys2Proof.Machine

theorem sameButCtx_modCtx (s : State) (st : StallId) (sl : Slot) (f : SlotCtx → SlotCtx) :
    s.sameButCtx st sl (s.onDev fun d => d.modCtx st sl f) := by
  have hst : (s.dev.modCtx st sl f).stall st = (s.dev.stall st).modCtx sl f := Device.stall_modStall_same _ _ _
  refine ⟨⟨⟨rfl, rfl⟩, rfl, fun u hu => Device.stall_modStall_ne _ _ _ _ hu⟩, ?_⟩
  rw [State.onDev_dev, hst, Device.ctx, hst, Stall.modCtx_same]
  rfl

theorem ctx_modCtx (d : Device) (st : StallId) (sl : Slot) (f : SlotCtx → SlotCtx) :
    (d.modCtx st sl f).ctx st sl = f (d.ctx st sl) := by
  rw [Device.ctx, show (d.modCtx st sl f).stall st = (d.stall st).modCtx sl f from Device.stall_modStall_same _ _ _,
    Stall.modCtx_same]
  rfl

section
variable {st : StallId} {sl : Slot} {g : Fin 4} {c : MCmd} {s : State} (hc : (s.dev.ctx st sl).mq.head? = some c)
  (hstart : s.dev.mayStart st sl = true)
include hc hstart

/-- MLOAD starts (R242). -/
theorem mloadStart_spec (hop : c.op = 0) (hl : s.dev.mloadMayStart st sl c = true) : Completes (.mloadStart st sl) s fun t =>
    s.sameButCtx st sl t ∧ t.dev.ctx st sl = { s.dev.ctx st sl with
      mq := (s.dev.ctx st sl).mq.drop 1, mrun := (s.dev.ctx st sl).mrun ++ [freshRun c] } := by
  have hexec : exec (.mloadStart st sl) s = .next (s.onDev fun d => d.startHead st sl (freshRun c)) := by
    change Host.Outcome.next (s.onDev fun d => match d.mqHead st sl with
      | some c => if (decide (c.op = 0) && d.mayStart st sl && d.mloadMayStart st sl c) = true then d.startHead st sl (freshRun c) else d
      | none => d) = _
    refine next_congr _ ?_
    rw [show s.dev.mqHead st sl = some c from hc]
    exact if_pos (by rw [hop, hstart, hl]; rfl)
  exact ⟨_, hexec, sameButCtx_modCtx s st sl _, ctx_modCtx _ _ _ _⟩

/-- An MFEED that no half lets run ends at once, with its record (R246). -/
theorem mfeedImmediateEnd_spec (hsel : selected c.sel = [g]) (hop : c.op = 1)
    (hend : Tile.ok (fmtOf c.desc) = false ∨ (s.dev.halfMeta st sl c g).loaded = false ∧ (s.dev.ctx st sl).mrun = []) :
    Completes (.mfeedImmediateEnd st sl) s fun t => s.sameButCtx st sl t ∧
      (t.dev.ctx st sl).mq = (s.dev.ctx st sl).mq.drop 1 ∧ ((s.dev.ctx st sl).rings[g].length < 16 →
        (t.dev.ctx st sl).rings[g] = (s.dev.ctx st sl).rings[g] ++ [statusRecord 2 (tagOf c.desc) 0 0
          (if Tile.ok (fmtOf c.desc) then Status.mangerFormatInvalid else Status.gateConfigInvalid)] ∧
        ∀ h, h ≠ g → (t.dev.ctx st sl).rings[h] = (s.dev.ctx st sl).rings[h]) := by
  have hcode : s.dev.feedEndsAtOnce st sl c =
      some (if Tile.ok (fmtOf c.desc) then Status.mangerFormatInvalid else Status.gateConfigInvalid) := by
    unfold Device.feedEndsAtOnce
    cases hok : Tile.ok (fmtOf c.desc) with
    | false => rfl
    | true =>
      obtain ⟨hl, hr⟩ := hend.resolve_left (by rw [hok]; decide)
      rw [if_neg (by decide), if_pos, if_pos rfl]
      rw [hsel, List.any_cons, hl, hr]
      rfl
  obtain ⟨r, hrec, hr⟩ := Device.record16_eq (s.dev.modCtx st sl fun k => { k with mq := k.mq.drop 1 }) st sl g 2 (tagOf c.desc) 0 0
    (if Tile.ok (fmtOf c.desc) then Status.mangerFormatInvalid else Status.gateConfigInvalid)
  have hexec : exec (.mfeedImmediateEnd st sl) s = .next (s.onDev fun d => d.modCtx st sl fun k =>
      SlotCtx.recorded g r { k with mq := k.mq.drop 1 }) := by
    change Host.Outcome.next (s.onDev fun d => match d.mqHead st sl with
      | none => d
      | some c => match if (decide (c.op = 1) && d.mayStart st sl) = true then d.feedEndsAtOnce st sl c else none with
        | none => d
        | some code => (selected c.sel).foldl (fun d m => d.record16 st sl m 2 (tagOf c.desc) 0 0 code)
            (d.modCtx st sl fun k => { k with mq := k.mq.drop 1 })) = _
    refine next_congr _ ?_
    rw [show s.dev.mqHead st sl = some c from hc]
    dsimp only
    rw [if_pos (by rw [hop, hstart]; rfl), hcode, hsel]
    dsimp only
    rw [List.foldl_cons, List.foldl_nil, hrec]
    refine (Device.modStall_modStall _ st _ _).trans (congrArg (s.dev.modStall st) (funext fun x => ?_))
    unfold Stall.modCtx
    rw [Stall.ctx_setCtx_same, Stall.setCtx_setCtx]
  refine ⟨_, hexec, sameButCtx_modCtx s st sl _, ?_, fun hlen => ?_⟩
  · rw [State.onDev_dev, ctx_modCtx, recorded_only]
  · rw [State.onDev_dev, ctx_modCtx]
    rw [← hr (by decide) (by decide)]
    exact ⟨recorded_rings hlen, fun h hh => recorded_rings_ne hh⟩

end

end Sys2Proof.Machine
end

section
/-! O31: the end of a pass (R243, R250, R263). -/

namespace Sys2Proof.Machine

@[simp] theorem Stall.ctx_setMgr (x : Stall) (v : Vector Manger 4) (sl : Slot) : ({ x with mgr := v } : Stall).ctx sl = x.ctx sl := by
  cases sl <;> rfl

/-- The poison bits that a pass leaves of its entries. -/
def passPoison (poisoned clear : Bool) (es : List Nat) (v : BitVec 128) : BitVec 128 :=
  if poisoned then es.foldl (fun v e => setBit v e) v else if clear then es.foldl (fun v e => clearBit v e) v else v

namespace Device

/-- One running command, which is a pass in flight, is the first to end. -/
theorem passEnding_one {d : Device} {st : StallId} {sl : Slot} {r : MRun} (hr : (d.ctx st sl).mrun = [r]) (hop : r.cmd.op = 1)
    (hin : r.inPass = true) : d.passEnding st sl 0 = some (0, r) := by
  unfold passEnding
  rw [hr]
  have hf : ([r].zipIdx.filter fun p => decide (p.1.cmd.op = 1) && p.1.inPass) = [(r, 0)] := by
    rw [List.zipIdx_singleton, List.filter_singleton, hop, hin]
    rfl
  dsimp only
  rw [hf]
  rfl

/-- A running command is replaced while a manger of it is busy, and else taken out. -/
theorem setRun_eq (d : Device) (st : StallId) (sl : Slot) (i : Nat) (r : MRun) : d.setRun st sl i r = d.modCtx st sl fun k =>
    { k with mrun := if (finList 4).any fun (m : Fin 4) => r.mgr[m].busy then k.mrun.set i r else k.mrun.eraseIdx i } := rfl

/-- A pass that met no error ends in one manger (R263, R266). -/
theorem passEndIn_clean (d : Device) (st : StallId) (r : MRun) (g : Fin 4) (hcode : r.mgr[g].code = 0)
    (hp : r.mgr[g].poisoned = false) (hold : (dfield r.cmd.desc 0 39 1 = 1 ∧ r.passes = 0) ∨
      ∀ e ∈ r.cmd.entries, flag ((d.stall st).mgr[g]).poison e = false) :
    ∃ e p, d.passEndIn st r g false = (e, r.mgr[g]) ∧
      Ran st { d.stall st with mgr := upd (d.stall st).mgr g fun a => { a with poison := p } } d e ∧
      (dfield r.cmd.desc 0 39 1 = 0 → p = (d.stall st).mgr[g].poison) := by
  have h1 : Ran st (d.stall st) d (d.bump (Page.stall st) (0x404 + 0x200 * g) 1) := (Ran.refl st d).bump _ _ _
  unfold passEndIn
  extract_lets a p d1 n d2 poisoned d3 clear es old d4
  have hpo : poisoned = false := by
    dsimp only [poisoned, a]
    rw [hp]
    rfl
  have h2 : Ran st (d.stall st) d d2 := by
    dsimp only [d2]
    split
    · exact h1
    · exact Ran.bump h1 _ _ _
  have h3 : Ran st (d.stall st) d d3 := by
    dsimp only [d3]
    rw [hpo]
    exact h2
  have hnone : old = false := by
    rcases hold with ⟨hc, hz⟩ | he
    · have : clear = true := by
        dsimp only [clear]
        rw [hc, hz]
        rfl
      dsimp only [old]
      rw [this]
      rfl
    · have : (es.any fun e => flag ((d3.stall st).mgr[g]).poison e) = false := by
        rw [List.any_eq_false, h3.stall]
        exact fun e hmem => by rw [he e hmem]; decide
      dsimp only [old]
      rw [this, Bool.and_false]
  have hcode0 : refusedCode a.code = false := by
    dsimp only [a]
    rw [hcode]
    decide
  rw [if_neg (by rw [hcode0]; decide), hpo, hnone]
  refine ⟨d4, passPoison false clear es (d.stall st).mgr[g].poison, rfl, ?_, fun h0 => ?_⟩
  · have h4 : Ran st _ d d4 := h3.modMgr g fun a => { a with poison := passPoison poisoned clear es a.poison }
    rw [hpo] at h4
    have hx : (upd (d.stall st).mgr g fun a => { a with poison := passPoison false clear es a.poison }) =
        upd (d.stall st).mgr g fun a => { a with poison := passPoison false clear es (d.stall st).mgr[g].poison } :=
      upd_congr_at _ _ _ _ rfl
    rw [hx] at h4
    exact h4
  · have hc : clear = false := by
      dsimp only [clear]
      rw [h0]
      rfl
    rw [hc]
    rfl

end Device

end Sys2Proof.Machine
end

section
/-! O31: the end of a pass, with its record (R243, R250). -/

namespace Sys2Proof.Machine

theorem flag_zero4 (g : Fin 4) : flag (0 : BitVec 4) g = false := by
  revert g
  decide

theorem passCode_clean {g : MgrRun} (hc : g.code = 0) : Device.passCode g =
    if g.escOver then Status.escapeListOverrun else if 0 < g.ovf then Status.scaleOverflow
    else if 0 < g.unf then Status.scaleUnderflow else Status.done := by
  unfold Device.passCode
  rw [hc]
  exact if_neg (by decide)

/-- No manger of a command is busy once its one manger has ended. -/
theorem idle_after {v : Vector MgrRun 4} {g : Fin 4} {m : MgrRun} (h : ∀ x, x ≠ g → v[x].busy = false) (hm : m.busy = false) :
    ((finList 4).any fun (x : Fin 4) => (v.set g m)[x].busy) = false := by
  rw [List.any_eq_false]
  intro x _
  by_cases hx : x = g
  · subst hx
    rw [show (v.set x m)[x] = m from Vector.getElem_set_self ..]
    rw [hm]
    decide
  · rw [show (v.set g m)[x] = v[x] from Vector.getElem_set_ne _ _ fun hv => hx (Fin.ext hv.symm), h x hx]
    decide

/-- A manger of a command that is busy. -/
theorem busy_after {v : Vector MgrRun 4} {g : Fin 4} {m : MgrRun} (hm : m.busy = true) :
    ((finList 4).any fun (x : Fin 4) => (v.set g m)[x].busy) = true := by
  rw [List.any_eq_true]
  refine ⟨g, List.mem_finRange g, ?_⟩
  rw [show (v.set g m)[g] = m from Vector.getElem_set_self ..]
  exact hm

/-- What a pass that has ended in its one manger makes of the device. -/
def passEnded (st : StallId) (sl : Slot) (r : MRun) (g : Fin 4) (last : Bool) (e : Device) : Device :=
  (if last then (e.modMgr st g fun a => { a with ovf := a.ovf + r.mgr[g].ovf, unf := a.unf + r.mgr[g].unf }).record16 st sl g 2
      (tagOf r.cmd.desc) r.mgr[g].ovf r.mgr[g].unf (Device.passCode r.mgr[g]) else e).setRun st sl 0
    { r with mgr := r.mgr.set g { r.mgr[g] with busy := !last }, passes := r.passes + 1, inPass := false }

/-- A command whose pass has ended and that has passes left. -/
def passedOn (r : MRun) (g : Fin 4) : MRun :=
  { r with mgr := r.mgr.set g { r.mgr[g] with busy := true }, passes := r.passes + 1, inPass := false }

section
variable {st : StallId} {sl : Slot} {g : Fin 4} {s : State} {r : MRun}
  (hr : (s.dev.ctx st sl).mrun = [r]) (hsel : selected r.cmd.sel = [g])
  (hop : r.cmd.op = 1) (hin : r.inPass = true) (hcode : r.mgr[g].code = 0) (hp : r.mgr[g].poisoned = false)
  (hold : (dfield r.cmd.desc 0 39 1 = 1 ∧ r.passes = 0) ∨ ∀ e ∈ r.cmd.entries, flag ((s.dev.stall st).mgr[g]).poison e = false)
include hr hsel hop hin hcode hp hold

theorem exec_passEnd : ∃ e p, exec (.passEnd st sl ⟨0, 0⟩) s =
      .next (s.onDev fun _ => passEnded st sl r g (decide (r.total ≤ r.passes + 1)) e) ∧
    Device.Ran st { s.dev.stall st with mgr := upd (s.dev.stall st).mgr g fun a => { a with poison := p } } s.dev e ∧
    (dfield r.cmd.desc 0 39 1 = 0 → p = (s.dev.stall st).mgr[g].poison) := by
  obtain ⟨e, p, he, hran, hpoi⟩ := Device.passEndIn_clean s.dev st r g hcode hp hold
  refine ⟨e, p, ?_, hran, hpoi⟩
  change Host.Outcome.next (s.onDev fun d => match d.passEnding st sl 0 with
    | none => d
    | some (i, r) =>
      let last := decide (r.total ≤ r.passes + 1)
      let (d, r') := (selected r.cmd.sel).foldl (fun (x : Device × MRun) (m : Fin 4) =>
        let (d, g) := x.1.passEndIn st r m (flag (0 : BitVec 4) m)
        let d :=
          if last then
            let d := if refusedCode g.code then d else d.modMgr st m fun a => { a with ovf := a.ovf + g.ovf, unf := a.unf + g.unf }
            d.record16 st sl m 2 (tagOf r.cmd.desc) g.ovf g.unf (Device.passCode g)
          else d
        (d, { x.2 with mgr := x.2.mgr.set m { g with busy := !last } })) (d, r)
      d.setRun st sl i { r' with passes := r.passes + 1, inPass := false }) = _
  refine next_congr _ ?_
  rw [Device.passEnding_one hr hop hin]
  dsimp only
  rw [hsel, List.foldl_cons, List.foldl_nil, flag_zero4]
  dsimp only
  rw [he]
  dsimp only
  rw [show refusedCode r.mgr[g].code = false by rw [hcode]; decide]
  rfl

/-- The last pass of a series ends (R243, R250). -/
theorem passEnd_last (hidle : ∀ h, h ≠ g → r.mgr[h].busy = false) (ho : r.mgr[g].ovf < 2 ^ 14) (hu : r.mgr[g].unf < 2 ^ 14)
    (hlast : r.total ≤ r.passes + 1) : Completes (.passEnd st sl ⟨0, 0⟩) s fun t =>
      (t.dev.ctx st sl).mrun = [] ∧ s.sameMemory t ∧
      ((t.dev.stall st).mgr[g]).ovf = ((s.dev.stall st).mgr[g]).ovf + r.mgr[g].ovf ∧
      ((t.dev.stall st).mgr[g]).unf = ((s.dev.stall st).mgr[g]).unf + r.mgr[g].unf ∧
      ((t.dev.stall st).mgr[g]).acc = ((s.dev.stall st).mgr[g]).acc ∧
      (dfield r.cmd.desc 0 39 1 = 0 → ((t.dev.stall st).mgr[g]).poison = ((s.dev.stall st).mgr[g]).poison) ∧
      ((s.dev.ctx st sl).rings[g].length < 16 →
        (t.dev.ctx st sl).rings[g] = (s.dev.ctx st sl).rings[g] ++ [statusRecord 2 (tagOf r.cmd.desc) r.mgr[g].ovf r.mgr[g].unf
          (if r.mgr[g].escOver then Status.escapeListOverrun else if 0 < r.mgr[g].ovf then Status.scaleOverflow
           else if 0 < r.mgr[g].unf then Status.scaleUnderflow else Status.done)] ∧
        ∀ h, h ≠ g → (t.dev.ctx st sl).rings[h] = (s.dev.ctx st sl).rings[h]) := by
  obtain ⟨e, p, hexec, hran, hpoi⟩ := exec_passEnd hr hsel hop hin hcode hp hold
  obtain ⟨w, hrec, hw⟩ := Device.record16_eq
    (e.modMgr st g fun a => { a with ovf := a.ovf + r.mgr[g].ovf, unf := a.unf + r.mgr[g].unf }) st sl g 2 (tagOf r.cmd.desc)
    r.mgr[g].ovf r.mgr[g].unf (Device.passCode r.mgr[g])
  rw [← passCode_clean hcode, ← hw ho hu]
  have hnot : ((finList 4).any fun (x : Fin 4) => (r.mgr.set g { r.mgr[g] with busy := !true })[x].busy) = false :=
    idle_after hidle rfl
  have hend : passEnded st sl r g (decide (r.total ≤ r.passes + 1)) e =
      ((e.modMgr st g fun a => { a with ovf := a.ovf + r.mgr[g].ovf, unf := a.unf + r.mgr[g].unf }).modCtx st sl
        (SlotCtx.recorded g w)).modCtx st sl fun k => { k with mrun := k.mrun.eraseIdx 0 } := by
    unfold passEnded
    rw [decide_eq_true hlast, if_pos rfl, hrec, Device.setRun_eq]
    dsimp only at hnot ⊢
    rw [hnot]
    rfl
  have hall := ((hran.modMgr g fun a => { a with ovf := a.ovf + r.mgr[g].ovf, unf := a.unf + r.mgr[g].unf }).modCtx sl
    (SlotCtx.recorded g w)).modCtx sl fun k => { k with mrun := k.mrun.eraseIdx 0 }
  rw [← hend] at hall
  have hctx := hall.ctx sl
  rw [Stall.modCtx_same, Stall.modCtx_same, Stall.ctx_setMgr, Stall.ctx_setMgr, ← Device.ctx] at hctx
  have hmgr := hall.mgr
  rw [Stall.modCtx_mgr, Stall.modCtx_mgr] at hmgr
  have hg := congrArg (fun v : Vector Manger 4 => v[g]) hmgr
  dsimp only at hg
  rw [upd_same, upd_same] at hg
  have hmem := hall.rdByte
  refine ⟨_, hexec, ?_⟩
  beta_reduce
  rw [State.onDev_dev]
  clear hall hend hmgr
  generalize passEnded st sl r g (decide (r.total ≤ r.passes + 1)) e = f at hctx hg hmem
  rw [hg, hctx]
  dsimp only
  refine ⟨?_, hmem, rfl, rfl, rfl, hpoi, fun hlen => ⟨recorded_rings hlen, fun h hh => recorded_rings_ne hh⟩⟩
  rw [recorded_only]
  dsimp only
  rw [hr]
  rfl

/-- A pass ends that is not the last of its series (R250). -/
theorem passEnd_next (hmore : r.passes + 1 < r.total) : Completes (.passEnd st sl ⟨0, 0⟩) s fun t =>
    (∃ q, (t.dev.ctx st sl).mrun = [q] ∧ q.cmd = r.cmd ∧ q.inPass = false ∧ q.passes = r.passes + 1) ∧
    (t.dev.ctx st sl).rings = (s.dev.ctx st sl).rings ∧ s.sameMemory t := by
  obtain ⟨e, p, hexec, hran, hpoi⟩ := exec_passEnd hr hsel hop hin hcode hp hold
  have hbusy : ((finList 4).any fun (x : Fin 4) => (r.mgr.set g { r.mgr[g] with busy := !false })[x].busy) = true :=
    busy_after rfl
  have hend : passEnded st sl r g (decide (r.total ≤ r.passes + 1)) e = e.modCtx st sl fun k => { k with mrun := k.mrun.set 0 (passedOn r g) } := by
    unfold passEnded
    rw [decide_eq_false (Nat.not_le.mpr hmore), if_neg (by decide), Device.setRun_eq]
    dsimp only at hbusy ⊢
    rw [hbusy]
    rfl
  have hall := hran.modCtx sl fun k => { k with mrun := k.mrun.set 0 (passedOn r g) }
  rw [← hend] at hall
  have hctx := hall.ctx sl
  rw [Stall.modCtx_same, Stall.ctx_setMgr, ← Device.ctx] at hctx
  have hmem := hall.rdByte
  refine ⟨_, hexec, ?_⟩
  beta_reduce
  rw [State.onDev_dev]
  clear hall hend
  generalize passEnded st sl r g (decide (r.total ≤ r.passes + 1)) e = f at hctx hmem
  rw [hctx]
  exact ⟨⟨passedOn r g, by dsimp only; rw [hr]; rfl, rfl, rfl, rfl⟩, rfl, hmem⟩

end

end Sys2Proof.Machine
end

section
/-! O31: an MLOAD of a plain format completes (R244 to R246). -/

namespace Sys2Proof.Machine

theorem laneRecord_plain (bs : List Byte) (h : bs.length = 32) : Device.laneRecord bs [] [] = BitVec.ofNat 512 (leNat bs) := by
  have hpad : padTo 32 bs = bs := by
    unfold padTo
    rw [h, ← h, List.take_length, h]
    exact List.append_nil _
  unfold Device.laneRecord
  rw [hpad, show leNat (padTo 8 []) = 0 by decide, show leNat (padTo 16 []) = 0 by decide, Nat.zero_mul, Nat.zero_mul]
  rfl

/-- A half of a manger with the chunks r of the lanes l. -/
def chunksSet (lane : Fin 64 → Fin 66) (h : Fin 2) (r : Fin 64 → BitVec 512) (l : List (Fin 64)) (g : Manger) : Manger :=
  { g with half := upd g.half h fun v => l.foldl (fun v j => v.set (lane j) (r j)) v }

theorem chunksSet_nil (lane : Fin 64 → Fin 66) (h : Fin 2) (r : Fin 64 → BitVec 512) (g : Manger) : chunksSet lane h r [] g = g := by
  unfold chunksSet
  rw [upd_id _ _ _ rfl]

theorem chunksSet_cons (lane : Fin 64 → Fin 66) (h : Fin 2) (r : Fin 64 → BitVec 512) (j : Fin 64) (l : List (Fin 64)) (g : Manger) :
    chunksSet lane h r l (chunksSet lane h r [j] g) = chunksSet lane h r (j :: l) g :=
  congrArg (fun v => ({ g with half := v } : Manger)) (upd_upd g.half h (fun v => v.set (lane j) (r j))
    fun v => l.foldl (fun v j => v.set (lane j) (r j)) v)

/-- The stall with one manger changed. -/
def Stall.withMgr (x : Stall) (m : Fin 4) (g : Manger → Manger) : Stall := { x with mgr := upd x.mgr m g }

theorem Stall.withMgr_withMgr (m : Fin 4) (f g : Manger → Manger) (x : Stall) :
    (x.withMgr m f).withMgr m g = x.withMgr m fun a => g (f a) := congrArg (fun v => { x with mgr := v }) (upd_upd _ _ _ _)

theorem Stall.withMgr_id (m : Fin 4) (x : Stall) : (x.withMgr m fun a => a) = x :=
  congrArg (fun v => { x with mgr := v }) (upd_id _ _ _ rfl)

namespace Device

section
variable {d : Device} {st : StallId} {sl : Slot} {x : Vector W64 8}

/-- A chunk of a plain format by rows, from clean units. -/
theorem readChunk_clean (hb : Tile.block (fmtOf x) = false) (ht : dfield x 0 3 1 = 0) (j : Nat)
    (hc : d.clean (d.slotAt st sl (dfield x 1 0 32 + j * dfield x 1 32 32)) 32) : d.readChunk st sl x 0 j =
      (d, BitVec.ofNat 512 (leNat (d.rdBytes (d.slotAt st sl (dfield x 1 0 32 + j * dfield x 1 32 32)) 32)), true) := by
  unfold readChunk
  dsimp only
  rw [hb, if_neg (by decide), ht, if_neg (by decide), Nat.zero_mul, Nat.add_zero, engRead_clean _ _ _ _ _ hc]
  dsimp only
  rw [laneRecord_plain _ (by simp)]

variable (st sl x) in
/-- One lane of a half takes its chunk. -/
def laneLoaded (m : Fin 4) (q : Nat) (h : Fin 2) (y : Device × Bool) (j : Fin 64) : Device × Bool :=
  let (d, r, ok) := y.1.readChunk st sl x q j
  (d.modMgr st m fun g => { g with half := upd g.half h fun v => v.set (d.lane st m j) r }, y.2 && ok)

variable (d st) in
/-- The chunks of some lanes are read one after another. -/
theorem foldl_laneLoaded (m : Fin 4) (q : Nat) (h : Fin 2) {r : Fin 64 → BitVec 512}
    (hr : ∀ (f : Stall → Stall) (j : Fin 64), (d.modStall st f).readChunk st sl x q j = (d.modStall st f, r j, true)) :
    ∀ (l : List (Fin 64)) (f : Stall → Stall), l.foldl (laneLoaded st sl x m q h) (d.modStall st f, true) =
    (d.modStall st fun s => (f s).withMgr m (chunksSet (d.lane st m) h r l), true) := by
  intro l
  induction l with
  | nil =>
    intro f
    rw [List.foldl_nil, show chunksSet (d.lane st m) h r [] = fun a => a from funext (chunksSet_nil _ _ _)]
    simp only [Stall.withMgr_id]
  | cons j l ih =>
    intro f
    have hstep : laneLoaded st sl x m q h (d.modStall st f, true) j =
        (d.modStall st fun s => (f s).withMgr m (chunksSet (d.lane st m) h r [j]), true) := by
      unfold laneLoaded
      rw [hr]
      exact Prod.ext (modStall_modStall _ _ _ _) rfl
    rw [List.foldl_cons, hstep, ih]
    simp only [Stall.withMgr_withMgr, chunksSet_cons]

variable (st) in
/-- A manger's half takes the chunks of a plain format from clean units (R244, R246). -/
theorem loadHalf_clean {c : MCmd} {g : Fin 4} (hsel : selected c.sel = [g]) (hok : Tile.ok (fmtOf c.desc) = true)
    (hb : Tile.block (fmtOf c.desc) = false) (ht : dfield c.desc 0 3 1 = 0)
    (hc : ∀ j, j < 64 → d.clean (d.slotAt st sl (dfield c.desc 1 0 32 + j * dfield c.desc 1 32 32)) 32) :
    d.loadHalf st sl c g = ((d.modStall st fun s => s.withMgr g (chunksSet (d.lane st g) c.halfOf (fun j => BitVec.ofNat 512
        (leNat (d.rdBytes (d.slotAt st sl (dfield c.desc 1 0 32 + j * dfield c.desc 1 32 32)) 32))) (finList 64))).modCtx st sl
      fun k => { k with half := upd k.half g fun h => h.set c.halfOf ⟨true, false, BitVec.ofNat 4 (fmtOf c.desc)⟩ }, Status.done) := by
  have hfold := foldl_laneLoaded (x := c.desc) (sl := sl) d st g 0 c.halfOf
    (r := fun j => BitVec.ofNat 512 (leNat (d.rdBytes (d.slotAt st sl (dfield c.desc 1 0 32 + j * dfield c.desc 1 32 32)) 32)))
    (fun f j => readChunk_clean hb ht j (hc j j.isLt)) (finList 64) fun s => s
  rw [d.modStall_id st _ rfl] at hfold
  unfold laneLoaded at hfold
  unfold loadHalf
  extract_lets x f q
  rw [if_neg (by dsimp only [f, x]; rw [hok]; decide), if_neg (by dsimp only [x]; rw [ht]; simp)]
  dsimp only [q, x]
  rw [rankOf_single hsel]
  rw [hfold]
  rfl

end

end Device

end Sys2Proof.Machine
end

section
/-! O31: the end of an MLOAD, with its record (R243, R246). -/

namespace Sys2Proof.Machine

/-- One running command that is a load is the first to complete. -/
theorem mloads_one {l : List MRun} {r : MRun} (hr : l = [r]) (hop : r.cmd.op = 0) :
    (l.zipIdx.filter fun p => decide (p.1.cmd.op = 0)) = [(r, 0)] := by
  rw [hr, List.zipIdx_singleton, List.filter_singleton, hop]
  rfl

section
variable {st : StallId} {sl : Slot} {g : Fin 4} {s : State} {r : MRun}
  (hr : (s.dev.ctx st sl).mrun = [r]) (hsel : selected r.cmd.sel = [g]) (hop : r.cmd.op = 0) (hres : (s.dev.stall st).slot = sl)
  (hsw : (s.dev.stall st).switching = none) (hok : Tile.ok (fmtOf r.cmd.desc) = true) (hb : Tile.block (fmtOf r.cmd.desc) = false)
  (ht : dfield r.cmd.desc 0 3 1 = 0)
  (hc : ∀ j, j < 64 → s.dev.clean (s.dev.slotAt st sl (dfield r.cmd.desc 1 0 32 + j * dfield r.cmd.desc 1 32 32)) 32)
include hr hsel hop hres hsw hok hb ht hc

/-- An MLOAD of a plain format by rows completes (R243, R244, R246). -/
theorem mloadDone_spec : Completes (.mloadDone st sl 0) s fun t =>
    (∀ j : Fin 64, ((t.dev.stall st).mgr[g]).half[r.cmd.halfOf][s.dev.lane st g j] = BitVec.ofNat 512
      (leNat (s.dev.rdBytes (s.dev.slotAt st sl (dfield r.cmd.desc 1 0 32 + j * dfield r.cmd.desc 1 32 32)) 32))) ∧
    (t.dev.ctx st sl).half[g][r.cmd.halfOf] = ⟨true, false, BitVec.ofNat 4 (fmtOf r.cmd.desc)⟩ ∧ (t.dev.ctx st sl).mrun = [] ∧
    ((s.dev.ctx st sl).rings[g].length < 16 →
      (t.dev.ctx st sl).rings[g] = (s.dev.ctx st sl).rings[g] ++ [statusRecord 1 (tagOf r.cmd.desc) 0 0 Status.done] ∧
      ∀ h, h ≠ g → (t.dev.ctx st sl).rings[h] = (s.dev.ctx st sl).rings[h]) ∧
    s.sameMemory t ∧ ∀ h, h ≠ g → (t.dev.stall st).mgr[h] = (s.dev.stall st).mgr[h] := by
  let d1 := s.dev.modCtx st sl fun k => { k with mrun := k.mrun.eraseIdx 0 }
  have hload := Device.loadHalf_clean (d := d1) st hsel hok hb ht hc
  obtain ⟨w, hrec, hw⟩ := Device.record16_eq (d1.loadHalf st sl r.cmd g).1 st sl g 1 (tagOf r.cmd.desc) 0 0 Status.done
  rw [hload] at hrec
  have hexec : exec (.mloadDone st sl 0) s =
      .next (s.onDev fun _ => (d1.loadHalf st sl r.cmd g).1.modCtx st sl (SlotCtx.recorded g w)) := by
    change Host.Outcome.next (s.onDev fun d => match ((d.ctx st sl).mrun.zipIdx.filter fun p => decide (p.1.cmd.op = 0))[0]? with
      | some (r, i) =>
        if (d.stall st).slot = sl ∧ (d.stall st).switching = none then
          (selected r.cmd.sel).foldl (fun d m =>
            let (d, code) := d.loadHalf st sl r.cmd m
            d.record16 st sl m 1 (tagOf r.cmd.desc) 0 0 code) (d.modCtx st sl fun k => { k with mrun := k.mrun.eraseIdx i })
        else d
      | none => d) = _
    refine next_congr _ ?_
    rw [mloads_one hr hop]
    change (if (s.dev.stall st).slot = sl ∧ (s.dev.stall st).switching = none then
      (selected r.cmd.sel).foldl (fun d m => (d.loadHalf st sl r.cmd m).1.record16 st sl m 1 (tagOf r.cmd.desc) 0 0
        (d.loadHalf st sl r.cmd m).2) d1 else s.dev) = _
    rw [if_pos ⟨hres, hsw⟩, hsel, List.foldl_cons, List.foldl_nil, hload]
    exact hrec
  have hran := ((((Device.Ran.refl st s.dev).modCtx sl fun k => { k with mrun := k.mrun.eraseIdx 0 }).modStall fun x =>
    x.withMgr g (chunksSet (s.dev.lane st g) r.cmd.halfOf (fun j => BitVec.ofNat 512
      (leNat (s.dev.rdBytes (s.dev.slotAt st sl (dfield r.cmd.desc 1 0 32 + j * dfield r.cmd.desc 1 32 32)) 32)))
      (finList 64))).modCtx sl fun k =>
        { k with half := upd k.half g fun h => h.set r.cmd.halfOf ⟨true, false, BitVec.ofNat 4 (fmtOf r.cmd.desc)⟩ }).modCtx sl
      (SlotCtx.recorded g w)
  rw [show (d1.loadHalf st sl r.cmd g).1 = _ from congrArg Prod.fst hload] at hexec
  obtain ⟨f, hexec, hran⟩ : ∃ f, exec (.mloadDone st sl 0) s = .next (s.onDev fun _ => f) ∧ Device.Ran st _ s.dev f :=
    ⟨_, hexec, hran⟩
  have hctx := hran.ctx sl
  rw [Stall.modCtx_same, Stall.modCtx_same, Stall.withMgr, Stall.ctx_setMgr, Stall.modCtx_same, ← Device.ctx] at hctx
  have hmgr := hran.mgr
  rw [Stall.modCtx_mgr, Stall.modCtx_mgr, Stall.withMgr, Stall.modCtx_mgr] at hmgr
  refine ⟨_, hexec, ?_⟩
  beta_reduce
  rw [State.onDev_dev, hctx, hmgr, upd_same]
  refine ⟨fun j => ?_, ?_, ?_, fun hlen => ?_, hran.rdByte, fun h hh => upd_ne _ _ _ _ hh⟩
  · dsimp only [chunksSet]
    rw [upd_same]
    exact getElem_foldl_set (physLane_injective _) _ _ _ j (.inl (List.mem_finRange j))
  · rw [recorded_only]
    dsimp only
    rw [upd_same]
    exact Vector.getElem_set_self _
  · rw [recorded_only]
    dsimp only
    rw [hr]
    rfl
  · rw [← hw (by decide) (by decide)]
    exact ⟨recorded_rings hlen, fun h hh => recorded_rings_ne hh⟩

end

end Sys2Proof.Machine
end

section
/-! O31: a ledger that FMTSEL leaves, and the words that an engine changes in a loft (R284, R285). -/

namespace Sys2Proof.Machine

/-! ### The length of a ledger -/

namespace Gate

theorem length_put {l : List Byte} {off n : Nat} (v : Nat) (h : l.length = 64) (hn : off + n ≤ 64) : (put l off n v).length = 64 := by
  unfold put
  rw [List.length_append, List.length_append, List.length_take, List.length_drop, length_leBytes, h]
  omega

theorem length_putS {l : List Byte} {off : Nat} (v : Int) (h : l.length = 64) (hn : off < 64) : (putS l off v).length = 64 :=
  length_put _ h hn

theorem length_clearStep {l : List Byte} (h : l.length = 64) : (clearStep l).length = 64 := by
  refine length_put _ (length_putS _ ?_ (by decide)) (by decide)
  rw [List.length_append, List.length_replicate, List.length_drop, h]

theorem length_fmtsel (l : List Byte) (t0 t1 : W64) (h : l.length = 64) : (fmtsel l t0 t1).1.length = 64 := by
  unfold fmtsel
  extract_lets flags pos fill withPos hist t ebase tail
  have hwith : ∀ (l : List Byte) (f p : Nat), l.length = 64 → (withPos l f p).length = 64 := fun l f p hl => length_put _ hl (by decide)
  have hpos : pos < 6 := Nat.mod_lt _ (by decide)
  split
  · exact hwith _ _ _ (length_clearStep h)
  · split
    extract_lets l1 l2 l3 pairs
    have hl3 : l3.length = 64 := hwith _ _ _ (length_clearStep (length_put _ (length_putS _ (length_putS _
      (length_putS _ h (by decide)) (by omega)) (by omega)) (by decide)))
    clear_value l3
    split
    · exact length_put _ hl3 (by decide)
    · exact length_put _ hl3 (by decide)

end Gate

/-! ### Words of a loft changed by an engine -/

namespace Device

theorem slotAt_add (d : Device) (st : StallId) (sl : Slot) (a b : Nat) : d.slotAt st sl (a + b) = d.slotAt st sl a + b := by
  unfold slotAt loftDpa
  omega

theorem slotAt_mod (d : Device) (st : StallId) (sl : Slot) {a : Nat} (ha : a % 8 = 0) : d.slotAt st sl a % 8 = 0 := by
  have hpart := partBase_mod d st sl
  unfold slotAt loftDpa loftBase
  omega

/-- A clean range of words holds clean words. -/
theorem clean_word {d : Device} {a q i : Nat} (ha : loftBase ≤ a) (h8 : a % 8 = 0) (h : d.clean a (8 * q)) (hi : i < q) :
    d.clean (a + 8 * i) 8 := by
  intro u hu
  have hw := unitsOf_words (a + 8 * i) 1 (by omega) (by omega)
  rw [show 8 * 1 = 8 from rfl] at hw
  rw [hw, List.range_one, List.map_singleton, List.mem_singleton] at hu
  refine h u ?_
  rw [unitsOf_words a q ha h8, List.mem_map]
  exact ⟨i, List.mem_range.mpr hi, by omega⟩

/-- e is d with the first k bytes at p as the list has them. -/
def Patched (d : Device) (p k : Nat) (new : List Byte) (e : Device) : Prop :=
  e = { d with mem := e.mem } ∧ (∀ i (h : i < new.length), i < k → e.rdByte (p + i) = new[i]) ∧
    ∀ q, q < p ∨ p + k ≤ q → e.rdByte q = d.rdByte q

theorem Patched.zero (d : Device) (p : Nat) (new : List Byte) : Patched d p 0 new d :=
  ⟨rfl, fun _ _ h => absurd h (Nat.not_lt_zero _), fun _ _ => rfl⟩

/-- One word more is written, or stands there already. -/
theorem Patched.word {d e f : Device} {p k : Nat} {new : List Byte} (h : Patched d p k new e) (hk : k + 8 ≤ new.length)
    (hf : f = e ∧ (∀ i (h : i < new.length), k ≤ i → i < k + 8 → d.rdByte (p + i) = new[i]) ∨
      f = e.wrBytes (p + k) ((new.drop k).take 8)) : Patched d p (k + 8) new f := by
  obtain ⟨hm, hin, hout⟩ := h
  have hlen : ((new.drop k).take 8).length = 8 := by
    rw [List.length_take, List.length_drop]
    omega
  rcases hf with ⟨rfl, hsame⟩ | rfl
  · refine ⟨hm, fun i hi hlt => ?_, fun q hq => hout q (by omega)⟩
    by_cases hik : i < k
    · exact hin i hi hik
    · rw [hout (p + i) (by omega)]
      exact hsame i hi (by omega) hlt
  · refine ⟨?_, fun i hi hlt => ?_, fun q hq => ?_⟩
    · rw [wrBytes_only]
      exact congrArg (fun x : Device => { x with mem := (e.wrBytes (p + k) ((new.drop k).take 8)).mem }) hm
    · by_cases hik : i < k
      · rw [rdByte_wrBytes_out _ _ _ _ (by omega)]
        exact hin i hi hik
      · have hw := e.rdByte_wrBytes_in (p + k) (i - k) ((new.drop k).take 8) (by omega)
        rw [show p + k + (i - k) = p + i by omega] at hw
        rw [hw, List.getElem_take, List.getElem_drop]
        exact getElem_congr_idx (by omega)
    · rw [rdByte_wrBytes_out _ _ _ _ (by rw [hlen]; omega)]
      exact hout q (by omega)

theorem Patched.rdBytes {d e : Device} {p n : Nat} {new : List Byte} (h : Patched d p n new e) (hn : new.length = n) :
    e.rdBytes p n = new := by
  refine List.ext_getElem (by simp [hn]) fun i h1 h2 => ?_
  rw [← h.2.1 i h2 (by omega)]
  simp [Device.rdBytes]

/-- An engine changes clean words of a loft, while no injection is armed. -/
theorem engModify_clean {d : Device} {st : StallId} {sl : Slot} {a q : Nat} {f : List Byte → List Byte} (h8 : a % 8 = 0)
    (hc : d.clean (d.slotAt st sl a) (8 * q)) (hi : d.tally.armed = false)
    (hl : (f (d.rdBytes (d.slotAt st sl a) (8 * q))).length = 8 * q) :
    Patched d (d.slotAt st sl a) (8 * q) (f (d.rdBytes (d.slotAt st sl a) (8 * q))) (d.engModify st sl a (8 * q) f) := by
  have hge := slotAt_ge d st sl a
  have hr := d.readRange_clean _ _ false hge hc
  unfold engModify
  rw [hr]
  dsimp only
  rw [Nat.mul_div_cancel_left q (by decide)]
  generalize hnew : f (d.rdBytes (d.slotAt st sl a) (8 * q)) = new at hl
  have key : ∀ m, m ≤ q → Patched d (d.slotAt st sl a) (8 * m) new ((List.range m).foldl (fun e i =>
      if (new.drop (8 * i)).take 8 = ((d.rdBytes (d.slotAt st sl a) (8 * q)).drop (8 * i)).take 8 ∨
        ([] : List (Nat × MemRes)).any (fun p => p.1 = e.slotAt st sl (a + 8 * i)) then e
      else e.engWrite st sl (a + 8 * i) ((new.drop (8 * i)).take 8)) d) := by
    intro m
    induction m with
    | zero => exact fun _ => .zero d _ _
    | succ m ih =>
      intro hm
      have h := ih (by omega)
      rw [List.range_succ, List.foldl_append, List.foldl_cons, List.foldl_nil]
      generalize (List.range m).foldl _ d = e at h
      refine h.word (by omega) ?_
      split
      next heq =>
        refine .inl ⟨rfl, fun i hi h1 h2 => ?_⟩
        have hw := heq.resolve_right (by simp)
        rw [rdBytes_slice d _ _ _ _ (by omega)] at hw
        have hget := congrArg (fun l : List Byte => l[i - 8 * m]?) hw
        rw [List.getElem?_take_of_lt (by omega), List.getElem?_drop, show 8 * m + (i - 8 * m) = i by omega,
          List.getElem?_eq_getElem hi, List.getElem?_eq_getElem (by simp; omega), Option.some_inj] at hget
        rw [hget]
        simp only [Device.rdBytes, List.getElem_map, List.getElem_range]
        rw [show d.slotAt st sl a + 8 * m + (i - 8 * m) = d.slotAt st sl a + i by omega]
      next =>
        refine .inr ?_
        have hslot : e.slotAt st sl (a + 8 * m) = d.slotAt st sl a + 8 * m := by
          rw [h.1]
          exact d.slotAt_add st sl a (8 * m)
        have hlen : ((new.drop (8 * m)).take 8).length = 8 := by
          rw [List.length_take, List.length_drop]
          omega
        unfold engWrite
        rw [hslot]
        refine congrArg Prod.fst (e.writeRange_clean _ _ false (by omega) ?_ ?_)
        · rw [hlen, h.1]
          exact clean_word (d := d) hge (slotAt_mod d st sl h8) hc hm
        · rw [h.1]
          exact hi
  exact key q le_rfl

end Device

end Sys2Proof.Machine
end

section
/-! O31: FMTSEL runs, and the instruction that waits for it retires (R284, R285). -/

namespace Sys2Proof.Machine

theorem setS_hold (c : SlotCtx) (d : SReg) (v : W64) (x : Option Hold) :
    ({ c.setS d v with hold := x } : SlotCtx) = ({ c with hold := x } : SlotCtx).setS d v := by
  unfold SlotCtx.setS
  split <;> rfl

/-- FMTSEL runs once its command has left the queue. -/
def Device.fmtselRun (st : StallId) (sl : Slot) (c : MCmd) (d : Device) : Device :=
  let t0 := (d.ctx st sl).getCr 0x0E
  let t1 := (d.ctx st sl).getCr 0x0F
  let (d, l, _) := d.engRead st sl c.ledger 64
  let r := Gate.fmtsel l t0 t1
  let d := d.engModify st sl c.ledger 64 fun _ => r.1
  match (d.ctx st sl).hold with
  | some (.fmtsel x) => d.modCtx st sl fun k => { k.setS x r.2 with hold := none }.advance 1
  | _ => d.modCtx st sl fun k => k.setS c.d r.2

section
variable {st : StallId} {sl : Slot} {c : MCmd} {s : State} {d : SReg} (hc : (s.dev.ctx st sl).mq.head? = some c)
  (hstart : s.dev.mayStart st sl = true) (hop : c.op = 4) (hrun : (s.dev.ctx st sl).mrun = []) (h64 : c.ledger % 64 = 0)
  (hclean : s.dev.clean (s.dev.slotAt st sl c.ledger) 64) (harm : s.dev.tally.armed = false)
  (hhold : (s.dev.ctx st sl).hold = some (.fmtsel d))
include hc hstart hop hrun h64 hclean harm hhold

theorem fmtselStart_spec {p : Nat} {r : List Byte × W64} (hp : s.dev.slotAt st sl c.ledger = p)
    (hr : Gate.fmtsel (s.dev.rdBytes p 64) ((s.dev.ctx st sl).getCr 0x0E) ((s.dev.ctx st sl).getCr 0x0F) = r) :
    Completes (.fmtselStart st sl) s fun t =>
      t.dev.rdBytes p 64 = r.1 ∧ (∀ q, q < p ∨ p + 64 ≤ q → t.dev.rdByte q = s.dev.rdByte q) ∧
      { s.dev.ctx st sl with mq := (s.dev.ctx st sl).mq.drop 1, hold := none }.retired 1 (t.dev.ctx st sl) ∧
      ∀ q, (t.dev.ctx st sl).getS q = if q = d ∧ q ≠ 0 then r.2 else (s.dev.ctx st sl).getS q := by
  subst hp
  obtain ⟨e, he⟩ : ∃ e, e = (s.dev.modCtx st sl fun k => { k with mq := k.mq.drop 1 }).useLedger (s.dev.slotAt st sl c.ledger) := ⟨_, rfl⟩
  have hslot : e.slotAt st sl c.ledger = s.dev.slotAt st sl c.ledger := by rw [he]; rfl
  have hbytes : e.rdBytes = s.dev.rdBytes := by rw [he]; rfl
  have hclean' : e.clean (e.slotAt st sl c.ledger) (8 * 8) := by rw [hslot, he]; exact hclean
  have hctx : e.ctx st sl = { s.dev.ctx st sl with mq := (s.dev.ctx st sl).mq.drop 1 } := by
    rw [he]
    exact ctx_modCtx _ _ _ _
  have hlen : r.1.length = 64 := by
    rw [← hr]
    exact Gate.length_fmtsel _ _ _ (by simp)
  have hpatch := Device.engModify_clean (f := fun _ => r.1) (by omega) hclean' (by rw [he]; exact harm) hlen
  rw [hslot] at hpatch
  have hctx2 : (e.engModify st sl c.ledger 64 fun _ => r.1).ctx st sl = e.ctx st sl := by
    rw [hpatch.1]
    rfl
  have hexec : exec (.fmtselStart st sl) s = .next (s.onDev fun _ => (e.engModify st sl c.ledger 64 fun _ => r.1).modCtx st sl fun k =>
      { k.setS d r.2 with hold := none }.advance 1) := by
    change Host.Outcome.next (s.onDev fun d => match d.mqHead st sl with
      | none => d
      | some c =>
        if (decide (c.op = 4) && d.mayStart st sl && (d.ctx st sl).mrun.all fun r => r.cmd.op ≠ 2 || dfield r.cmd.desc 0 7 1 = 0) =
            true then
          Device.fmtselRun st sl c ((d.modCtx st sl fun k => { k with mq := k.mq.drop 1 }).useLedger (d.slotAt st sl c.ledger))
        else d) = _
    refine next_congr _ ?_
    rw [show s.dev.mqHead st sl = some c from hc]
    dsimp only
    rw [if_pos (by rw [hop, hstart, hrun]; rfl), ← he]
    unfold Device.fmtselRun
    rw [engRead_clean _ _ _ _ _ hclean', hslot, hbytes]
    dsimp only
    rw [show (e.ctx st sl).getCr 0x0E = (s.dev.ctx st sl).getCr 0x0E by rw [hctx]; rfl,
      show (e.ctx st sl).getCr 0x0F = (s.dev.ctx st sl).getCr 0x0F by rw [hctx]; rfl, hr]
    rw [show ((e.engModify st sl c.ledger 64 fun _ => r.1).ctx st sl).hold = some (.fmtsel d) by rw [hctx2, hctx]; exact hhold]
  refine ⟨_, hexec, ?_⟩
  beta_reduce
  rw [State.onDev_dev]
  refine ⟨?_, ?_, ?_, ?_⟩
  · exact hpatch.rdBytes hlen
  · intro q hq
    exact (hpatch.2.2 q hq).trans (by rw [he]; rfl)
  · rw [ctx_modCtx, hctx2, hctx, setS_hold]
    exact SlotCtx.retired_setS _ _ _ _
  · intro q
    rw [ctx_modCtx, hctx2, hctx, setS_hold, SlotCtx.getS_advance, SlotCtx.getS_setS]
    rfl

end

end Sys2Proof.Machine
end

section
/-! O31: a change of feed duty (R252, R265). -/

namespace Sys2Proof.Machine

/-- A slot's running passes at the start of a new group of beat slots. -/
def regrouped (k : Nat) (D : Nat) (st : StallId) (n : Nat) (c : SlotCtx) : SlotCtx :=
  { c with mrun := c.mrun.mapIdx fun i r => r.newGroup D (Config.groupsPassed k st n i) }

/-- A stall of the yard at the start of a new group. -/
def regroupedStall (k : Nat) (D : Nat) (y : Yard) (st : StallId) (s : Stall) : Stall :=
  if Device.yardOf st = y then { s with primary := regrouped k D st 0 s.primary, paddock := regrouped k D st 1 s.paddock } else s

/-- The stalls as a change of duty leaves them. -/
def regroupedStalls (k D : Nat) (y : Yard) (v : Vector Stall 384) : Vector Stall 384 :=
  Vector.ofFn fun (st : Fin 384) => regroupedStall k D y st v[st]

theorem regroupedStalls_get (k D : Nat) (y : Yard) (v : Vector Stall 384) (u : StallId) :
    (regroupedStalls k D y v)[u] = regroupedStall k D y u v[u] := Vector.getElem_ofFn _

theorem exec_dutyChange (y : Yard) (s : State) : exec (.dutyChange y) s = .next (s.onDev fun d =>
    (if d.yards[y].dutyNext = d.yards[y].duty then d else
      { d.drawFree.2 with stalls := regroupedStalls d.free d.yards[y].duty y d.stalls }).modYard y fun v => { v with duty := v.dutyNext }) := rfl

/-- A change of duty begins a new group in the passes of its yard. -/
theorem dutyChange_spec (y : Yard) (s : State) : Completes (.dutyChange y) s fun t =>
    t.dev.yards[y] = { s.dev.yards[y] with duty := s.dev.yards[y].dutyNext } ∧
    (∀ z, z ≠ y → t.dev.yards[z] = s.dev.yards[z]) ∧
    (s.dev.yards[y].dutyNext = s.dev.yards[y].duty → s.onlyTo t { s.dev with yards := t.dev.yards }) ∧
    s.onlyTo t { s.dev with yards := t.dev.yards, stalls := t.dev.stalls, free := t.dev.free } ∧
    (∀ u, Device.yardOf u ≠ y → t.dev.stall u = s.dev.stall u) ∧
    (s.dev.yards[y].dutyNext ≠ s.dev.yards[y].duty → ∃ k : Nat → Nat → Nat → Nat, ∀ u, Device.yardOf u = y →
      let regroup := fun (c : SlotCtx) (n : Nat) =>
        { c with mrun := c.mrun.mapIdx fun i r => r.newGroup s.dev.yards[y].duty (k u.val n i) }
      t.dev.stall u =
        { s.dev.stall u with primary := regroup (s.dev.stall u).primary 0, paddock := regroup (s.dev.stall u).paddock 1 }) := by
  by_cases h : s.dev.yards[y].dutyNext = s.dev.yards[y].duty
  · refine ⟨_, (exec_dutyChange y s).trans (next_congr (fun d => d.modYard y fun v => { v with duty := v.dutyNext })
      (congrArg (Device.modYard · y fun v => { v with duty := v.dutyNext }) (if_pos h))), ?_⟩
    exact ⟨upd_same _ _ _, fun z hz => upd_ne _ _ _ _ hz, fun _ => ⟨⟨rfl, rfl⟩, rfl⟩, ⟨⟨rfl, rfl⟩, rfl⟩, fun _ _ => rfl,
      fun hne => absurd h hne⟩
  · refine ⟨_, (exec_dutyChange y s).trans (next_congr (fun d =>
      ({ d.drawFree.2 with stalls := regroupedStalls d.free d.yards[y].duty y d.stalls } : Device).modYard y fun v =>
        { v with duty := v.dutyNext }) (congrArg (Device.modYard · y fun v => { v with duty := v.dutyNext }) (if_neg h))), ?_⟩
    refine ⟨upd_same _ _ _, fun z hz => upd_ne _ _ _ _ hz, fun he => absurd he h, ⟨⟨rfl, rfl⟩, rfl⟩, fun u hu => ?_, fun _ =>
      ⟨fun u n i => Config.groupsPassed s.dev.free u n i, fun u hu => ?_⟩⟩
    · refine (regroupedStalls_get _ _ _ _ _).trans ?_
      rw [regroupedStall, if_neg hu]
      rfl
    · refine (regroupedStalls_get _ _ _ _ _).trans ?_
      rw [regroupedStall, if_pos hu]
      rfl

end Sys2Proof.Machine
end

section
/-! O31: what an engine's reads leave, and what a gate or a pass does to one manger (R247, R254 to R256). -/

namespace Sys2Proof.Machine

namespace Device

theorem Scans.of_eq {β : Type} {d e : Device} {x : Device × β} {b : β} (hs : Scans d x.1) (h : x = (e, b)) : Scans d e := by
  rw [h] at hs
  exact hs

section
variable (d : Device) (st : StallId) (sl : Slot)

theorem scans_engRead (a n : Nat) : Scans d (d.engRead st sl a n).1 := d.scans_readRange _ n false

theorem scans_readBlock (f elem scale side k : Nat) : Scans d (d.readBlock st sl f elem scale side k).1 := by
  unfold readBlock
  split
  next d1 b1 ok1 h1 =>
    split
    next d2 b2 ok2 h2 =>
      have h12 := ((d.scans_engRead st sl _ _).of_eq h1).trans ((d1.scans_engRead st sl _ _).of_eq h2)
      split
      · split
        next d3 b3 ok3 h3 => exact h12.trans ((d2.scans_engRead st sl _ _).of_eq h3)
      · exact h12

theorem scans_readBlocks (f elem scale side : Nat) (ks : List Nat) : Scans d (d.readBlocks st sl f elem scale side ks).1 := by
  refine Scans.foldl (fun x k => ?_) ks (d, _)
  have h := x.1.scans_readBlock st sl f elem scale side k
  split
  next d1 e s l ok h1 => exact h.of_eq h1

theorem scans_readTrans (f a stride : Nat) : Scans d (d.readTrans st sl f a stride).1 := by
  refine Scans.foldl (fun x i => ?_) _ (d, _)
  have h := x.1.scans_engRead st sl (a + i * stride) (Tile.bits f / 8)
  split
  next d1 b ok h1 => exact h.of_eq h1

theorem scans_readBeat (c : MCmd) (b : Nat) : Scans d (d.readBeat st sl c b).1 := by
  unfold readBeat
  extract_lets x f elem stride
  split
  · split
    next d1 e s l ok h1 => exact (d.scans_readBlocks st sl _ _ _ _ _).of_eq h1
  · split
    next d1 e ok h1 =>
      split at h1
      · exact (d.scans_readTrans st sl _ _ _).of_eq h1
      · exact (d.scans_engRead st sl _ _).of_eq h1

theorem scans_beatsOf (c : MCmd) : Scans d (d.beatsOf st sl c).1 := by
  unfold beatsOf
  extract_lets n
  split
  · exact .refl d
  · refine Scans.foldl (fun x i => ?_) _ (d, _)
    have h := x.1.scans_engRead st sl (dfield c.desc 3 32 32 + 8 * i) 8
    split
    next d1 b ok h1 => exact h.of_eq h1

theorem scans_feedOf (c : MCmd) : Scans d (d.feedOf st sl c).1 := by
  unfold feedOf
  split
  next d1 beats h1 =>
    refine ((d.scans_beatsOf st sl c).of_eq h1).trans (Scans.foldl (fun x b => ?_) _ (d1, _))
    split
    · split
      next d2 v ok o h2 =>
        have hb := (x.1.scans_readBeat st sl c b.1).of_eq h2
        split
        · exact hb
        · exact hb
    · exact .refl _

theorem scans_column (use : Bool) (base q : Nat) (unit : FVal) : Scans d (d.column st sl use base q unit).1 := by
  unfold column
  split
  · split
    next d1 b ok h1 => exact (d.scans_engRead st sl _ _).of_eq h1
  · exact .refl d

end

/-! ### One manger at work -/

/-- e is d after reads, with manger g of stall st changed as P says, and an injection perhaps met. -/
def Worked (st : StallId) (g : Fin 4) (P : Manger → Manger → Prop) (d e : Device) : Prop :=
  SameBytes d e ∧ ∃ m, P (d.stall st).mgr[g] m ∧ e.stall st = (d.stall st).withMgr g fun _ => m

namespace Worked

variable {st : StallId} {g : Fin 4} {P : Manger → Manger → Prop} {d e f : Device}

theorem of_same (hP : ∀ a, P a a) (hb : SameBytes d e) (hs : e.stall st = d.stall st) : Worked st g P d e := by
  refine ⟨hb, (d.stall st).mgr[g], hP _, hs.trans ?_⟩
  exact (congrArg (fun v => { d.stall st with mgr := v }) (upd_id _ g (fun _ => (d.stall st).mgr[g]) rfl)).symm

theorem of_scans (hP : ∀ a, P a a) (h : Scans d e) : Worked st g P d e := .of_same hP h.sameBytes (h.stall st)

theorem trans (hP : ∀ a b c, P a b → P b c → P a c) (h : Worked st g P d e) (k : Worked st g P e f) : Worked st g P d f := by
  obtain ⟨hb, m, hm, hs⟩ := h
  obtain ⟨kb, n, hn, ks⟩ := k
  rw [hs] at hn ks
  refine ⟨hb.trans kb, n, hP _ _ _ hm ?_, ks.trans (Stall.withMgr_withMgr _ _ _ _)⟩
  rw [Stall.withMgr, upd_same] at hn
  exact hn

theorem modMgr (d : Device) (F : Manger → Manger) (hF : P (d.stall st).mgr[g] (F (d.stall st).mgr[g])) :
    Worked st g P d (d.modMgr st g F) := by
  refine ⟨⟨rfl, rfl⟩, _, hF, ?_⟩
  refine (stall_modStall_same _ _ _).trans ?_
  exact congrArg (fun v => { d.stall st with mgr := v }) (upd_congr_at _ _ _ _ rfl)

end Worked

/-- Errors of the accumulator file change of the manger its error lists alone (R263, R555). -/
theorem worked_accErrors {st : StallId} {g : Fin 4} {P : Manger → Manger → Prop} (hrefl : ∀ a, P a a)
    (htrans : ∀ a b c, P a b → P b c → P a c) (hP : ∀ a l k, P a { a with accBad := l, accCe := k }) (d : Device) (rs ws : List Nat) :
    Worked st g P d (d.accErrors st g rs ws).1 := by
  unfold accErrors
  extract_lets m ue ce d1 d2 ctl addr e t d3
  have h1 : Worked st g P d d1 := by
    dsimp only [d1]
    split
    · exact .of_scans hrefl (.refl d)
    · exact .of_scans hrefl (quiet_bump d _ _ _).scans
  have h2 : Worked st g P d d2 := h1.trans htrans (.modMgr d1 _ (hP _ _ _))
  have h3 : Worked st g P d2 { d2 with tally := { t with hit := true } } := .of_same hrefl ⟨rfl, rfl⟩ rfl
  dsimp only [d3]
  split
  · refine (h2.trans htrans h3).trans htrans (.modMgr _ _ ?_)
    split
    · exact hP _ _ _
    · exact hP _ _ _
  · exact h2

end Device

end Sys2Proof.Machine
end

section
/-! O31: what a drain does to its manger as it starts (R199 to R208, R254, R264). -/

namespace Sys2Proof.Machine

/-- The counts of scale overflow and underflow stay. -/
def keepsCounts (a b : Manger) : Prop := b.ovf = a.ovf ∧ b.unf = a.unf

theorem keepsCounts_refl (a : Manger) : keepsCounts a a := ⟨rfl, rfl⟩

theorem keepsCounts_trans (a b c : Manger) (h : keepsCounts a b) (k : keepsCounts b c) : keepsCounts a c :=
  ⟨k.1.trans h.1, k.2.trans h.2⟩

namespace Device

theorem Worked.of_eq {st : StallId} {g : Fin 4} {P : Manger → Manger → Prop} {β : Type} {d e : Device} {x : Device × β} {b : β}
    (hs : Worked st g P d x.1) (h : x = (e, b)) : Worked st g P d e := by
  rw [h] at hs
  exact hs

section
variable (d : Device) (st : StallId) (sl : Slot) (c : MCmd) (g : Fin 4)

theorem scans_drainRow_one (f k : Nat) : Scans d (drainRow.one st sl c d f k).1 := by
  unfold drainRow.one
  split
  next d1 e s l ok h1 => exact (d.scans_readBlock st sl _ _ _ _ _).of_eq h1

/-- A row that a gate reads changes of its manger errors and poison alone. -/
theorem worked_drainRow (q r : Nat) : Worked st g keepsCounts d (d.drainRow st sl c g q r).1 := by
  unfold drainRow
  extract_lets x e f n
  split
  · refine .of_scans keepsCounts_refl ?_
    split
    · split
      next d1 a ok1 o1 h1 =>
        have hs := (d.scans_drainRow_one st sl c _ _).of_eq h1
        split
        next d2 b ok2 o2 h2 => exact hs.trans ((d1.scans_drainRow_one st sl c _ _).of_eq h2)
    · split
      next d1 bs ok h1 => exact (d.scans_engRead st sl _ _).of_eq h1
  · split
    next d1 ue h1 =>
      have hw := (worked_accErrors (st := st) (g := g) keepsCounts_refl keepsCounts_trans (fun a l k => ⟨rfl, rfl⟩) d _ _).of_eq h1
      split
      · exact hw.trans keepsCounts_trans (.modMgr _ _ ⟨rfl, rfl⟩)
      · split
        · exact hw
        · exact hw

/-- A drain has begun in a manger: it has taken the counts, and left them at zero (R279). -/
structure DrainBegun (x : Device × MgrRun) : Prop where
  bytes : SameBytes d x.1
  stall : ∃ m : Manger, m.ovf = 0 ∧ m.unf = 0 ∧ x.1.stall st = (d.stall st).withMgr g fun _ => m
  busy : x.2.busy = true
  ovf : x.2.ovf = (d.stall st).mgr[g].ovf
  unf : x.2.unf = (d.stall st).mgr[g].unf

variable {d st g} in
theorem DrainBegun.of_worked {d1 e : Device} {r : MgrRun} (hs : Scans d d1)
    (hw : Worked st g keepsCounts (d1.modMgr st g fun m => { m with ovf := 0, unf := 0 }) e) (hb : r.busy = true)
    (ho : r.ovf = (d1.stall st).mgr[g].ovf) (hu : r.unf = (d1.stall st).mgr[g].unf) : DrainBegun d st g (e, r) := by
  have hz : (d1.modMgr st g fun m => { m with ovf := 0, unf := 0 }).stall st =
      (d1.stall st).withMgr g fun m => { m with ovf := 0, unf := 0 } := stall_modStall_same _ _ _
  obtain ⟨hbytes, m, ⟨hm1, hm2⟩, hstall⟩ := hw
  rw [hz, hs.stall st] at hm1 hm2 hstall
  rw [hs.stall st] at ho hu
  rw [Stall.withMgr, upd_same] at hm1 hm2
  exact ⟨(hs.sameBytes.trans ⟨rfl, rfl⟩).trans hbytes, ⟨m, hm1, hm2, hstall.trans (Stall.withMgr_withMgr _ _ _ _)⟩, hb, ho, hu⟩

/-- A drain is at work in a manger whose counts were those of m. -/
structure DrainGoing (m : Manger) (a : DrainAcc) : Prop where
  worked : Worked st g keepsCounts d a.dev
  busy : a.run.busy = true
  ovf : a.run.ovf = m.ovf
  unf : a.run.unf = m.unf

theorem drainIn_begun : DrainBegun d st g (d.drainIn st sl c g) := by
  unfold drainIn
  extract_lets x q rows
  split
  next d1 led ok1 h1 =>
    have hs : Scans d d1 := by
      split at h1
      · exact (d.scans_engRead st sl _ _).of_eq h1
      · exact (Scans.refl d).of_eq h1
    extract_lets ebase poisoned m r d2
    split
    · exact .of_worked hs (.of_scans keepsCounts_refl (.refl _)) rfl rfl rfl
    · split
      next d3 sc ok2 h2 =>
        have h3 := (d2.scans_column st sl _ _ _ _).of_eq h2
        split
        next d4 bi ok3 h4 =>
          have h5 := h3.trans ((d3.scans_column st sl _ _ _ _).of_eq h4)
          split
          · exact .of_worked hs (.of_scans keepsCounts_refl h5) rfl rfl rfl
          · extract_lets a f g0
            have ha : DrainGoing d2 st g m a := by
              refine List.foldlRecOn (motive := DrainGoing d2 st g m) _ _ ?_ fun a h i _ => ?_
              · exact ⟨.of_scans keepsCounts_refl h5, rfl, rfl, rfl⟩
              · split
                · exact h
                · obtain ⟨hw, hb, ho, hu⟩ := h
                  split
                  next d6 vals ok o h6 =>
                    have hw6 := hw.trans keepsCounts_trans ((a.dev.worked_drainRow st sl c g _ _).of_eq h6)
                    split
                    · exact ⟨hw6, hb, ho, hu⟩
                    · exact ⟨hw6, hb, ho, hu⟩
            exact .of_worked hs ha.worked ha.busy ha.ovf ha.unf

end

end Device

end Sys2Proof.Machine
end

section
/-! O31: the start of a drain (R242, R254 to R256, R279). -/

namespace Sys2Proof.Machine

namespace Device

/-- The command at the head of the queue has started, and its ledger is in use where it has one. -/
def drainBegins (st : StallId) (sl : Slot) (c : MCmd) (x : Device × MRun) : Device :=
  let d := x.1.startHead st sl x.2
  if dfield c.desc 0 7 1 = 1 then d.useLedger (d.slotAt st sl (dfield c.desc 7 32 32)) else d

theorem drainBegins_only (st : StallId) (sl : Slot) (c : MCmd) (x : Device × MRun) :
    SameBytes x.1 (drainBegins st sl c x) ∧ (drainBegins st sl c x).stall st = (x.1.stall st).modCtx sl fun k =>
      { k with mq := k.mq.drop 1, mrun := k.mrun ++ [x.2] } := by
  have h : (x.1.startHead st sl x.2).stall st = (x.1.stall st).modCtx sl fun k =>
      { k with mq := k.mq.drop 1, mrun := k.mrun ++ [x.2] } := stall_modStall_same _ _ _
  unfold drainBegins
  extract_lets d
  split
  · exact ⟨⟨rfl, rfl⟩, h⟩
  · exact ⟨⟨rfl, rfl⟩, h⟩

end Device

theorem mgr_set_self (v : Vector MgrRun 4) (g : Fin 4) (m : MgrRun) : (v.set g m)[g] = m := Vector.getElem_set_self _

/-- What an MDRAIN leaves that has started with one manger worked on. -/
theorem drainBegins_spec {st : StallId} {sl : Slot} {g : Fin 4} {c : MCmd} {s : State} {x : Device × MRun} {m : Manger} (hb : Device.SameBytes s.dev x.1)
    (hs : x.1.stall st = (s.dev.stall st).withMgr g fun _ => m) {f : Device} (hf : Device.drainBegins st sl c x = f) :
    (f.ctx st sl).mq = (s.dev.ctx st sl).mq.drop 1 ∧ (∀ a, f.rdByte a = s.dev.rdByte a) ∧
    (∀ h, h ≠ g → (f.stall st).mgr[h] = (s.dev.stall st).mgr[h]) ∧
    (f.ctx st sl).mrun = (s.dev.ctx st sl).mrun ++ [x.2] ∧ (f.stall st).mgr[g] = m := by
  obtain ⟨hfb, hfs⟩ := Device.drainBegins_only st sl c x
  rw [hf] at hfb hfs
  have hctx : f.ctx st sl = { s.dev.ctx st sl with
      mq := (s.dev.ctx st sl).mq.drop 1, mrun := (s.dev.ctx st sl).mrun ++ [x.2] } := by
    rw [Device.ctx, hfs, Stall.modCtx_same, hs, Stall.withMgr, Stall.ctx_setMgr]
    rfl
  have hmgr : (f.stall st).mgr = upd (s.dev.stall st).mgr g fun _ => m := by
    rw [hfs, Stall.modCtx_mgr, hs]
    rfl
  rw [hctx, hmgr]
  exact ⟨rfl, (hb.trans hfb).rdByte, fun h hh => upd_ne _ _ _ _ hh, rfl, upd_same _ _ _⟩

section
variable {st : StallId} {sl : Slot} {g : Fin 4} {c : MCmd} {s : State} (hc : (s.dev.ctx st sl).mq.head? = some c)
  (hsel : selected c.sel = [g]) (hstart : s.dev.mayStart st sl = true) (hop : c.op = 2) (hmay : s.dev.drainMayStart st sl c = true)
include hc hsel hstart hop hmay

theorem exec_drainStart : exec (.drainStart st sl) s = .next (s.onDev fun d => Device.drainBegins st sl c
    (if d.drainRefused st c = true then
        (d, { freshRun c with mgr := (freshRun c).mgr.set g { freshMgr true with code := Status.gateConfigInvalid } })
      else ((d.drainIn st sl c g).1, { freshRun c with mgr := (freshRun c).mgr.set g (d.drainIn st sl c g).2 }))) := by
  change Host.Outcome.next (s.onDev fun d => match d.mqHead st sl with
    | none => d
    | some c =>
      if (decide (c.op = 2) && d.mayStart st sl && d.drainMayStart st sl c) = true then
        Device.drainBegins st sl c ((selected c.sel).foldl (fun (x : Device × MRun) (m : Fin 4) =>
          if d.drainRefused st c = true then
            (x.1, { x.2 with mgr := x.2.mgr.set m { freshMgr true with code := Status.gateConfigInvalid } })
          else
            let (d, g) := x.1.drainIn st sl c m
            (d, { x.2 with mgr := x.2.mgr.set m g })) (d, freshRun c))
      else d) = _
  refine next_congr _ ?_
  rw [show s.dev.mqHead st sl = some c from hc]
  dsimp only
  rw [if_pos (by rw [hop, hstart, hmay]; rfl), hsel, List.foldl_cons, List.foldl_nil]

/-- An MDRAIN starts (R242, R279). -/
theorem drainStart_spec : Completes (.drainStart st sl) s fun t =>
    (t.dev.ctx st sl).mq = (s.dev.ctx st sl).mq.drop 1 ∧ s.sameMemory t ∧
    (∀ h, h ≠ g → (t.dev.stall st).mgr[h] = (s.dev.stall st).mgr[h]) ∧
    ∃ r, (t.dev.ctx st sl).mrun = (s.dev.ctx st sl).mrun ++ [r] ∧ r.cmd = c ∧ r.mgr[g].busy = true ∧
      (s.dev.drainRefused st c = true → r.mgr[g].code = Status.gateConfigInvalid ∧ r.mgr[g].out = [] ∧
        (t.dev.stall st).mgr[g] = (s.dev.stall st).mgr[g]) ∧
      (s.dev.drainRefused st c = false → ((t.dev.stall st).mgr[g]).ovf = 0 ∧ ((t.dev.stall st).mgr[g]).unf = 0 ∧
        r.mgr[g].ovf = ((s.dev.stall st).mgr[g]).ovf ∧ r.mgr[g].unf = ((s.dev.stall st).mgr[g]).unf) := by
  have hexec := exec_drainStart hc hsel hstart hop hmay
  cases hr : s.dev.drainRefused st c with
  | true =>
    refine ⟨_, hexec.trans (next_congr (fun d => Device.drainBegins st sl c
      (d, { freshRun c with mgr := (freshRun c).mgr.set g { freshMgr true with code := Status.gateConfigInvalid } }))
      (by rw [hr]; rfl)), ?_⟩
    obtain ⟨hmq, hmem, hothers, hrun, hm⟩ := drainBegins_spec (s := s) (c := c) (sl := sl) (g := g) (m := (s.dev.stall st).mgr[g])
      (x := (s.dev, { freshRun c with mgr := (freshRun c).mgr.set g { freshMgr true with code := Status.gateConfigInvalid } }))
      (.refl _) (congrArg (fun v => { s.dev.stall st with mgr := v }) (upd_id _ g (fun _ => (s.dev.stall st).mgr[g]) rfl).symm) rfl
    refine ⟨hmq, hmem, hothers, _, hrun, rfl, ?_⟩
    dsimp only
    rw [mgr_set_self]
    exact ⟨rfl, fun _ => ⟨rfl, rfl, hm⟩, fun h => absurd h (by decide)⟩
  | false =>
    obtain ⟨hb, ⟨m, hm1, hm2, hs⟩, hbusy, ho, hu⟩ := s.dev.drainIn_begun st sl c g
    refine ⟨_, hexec.trans (next_congr (fun d => Device.drainBegins st sl c
      ((d.drainIn st sl c g).1, { freshRun c with mgr := (freshRun c).mgr.set g (d.drainIn st sl c g).2 }))
      (by rw [hr]; rfl)), ?_⟩
    obtain ⟨hmq, hmem, hothers, hrun, hm⟩ := drainBegins_spec (s := s) (c := c) (sl := sl) (g := g) (m := m)
      (x := ((s.dev.drainIn st sl c g).1, { freshRun c with mgr := (freshRun c).mgr.set g (s.dev.drainIn st sl c g).2 })) hb hs rfl
    refine ⟨hmq, hmem, hothers, _, hrun, rfl, ?_⟩
    dsimp only
    rw [mgr_set_self]
    refine ⟨hbusy, fun h => absurd h (by decide), fun _ => ?_⟩
    rw [State.onDev_dev, hm]
    exact ⟨hm1, hm2, ho, hu⟩

end

end Sys2Proof.Machine
end

section
/-! O31: what a loft write leaves: bytes outside its range, the stalls and their partitions (R300, R307). -/

namespace Sys2Proof.Machine

namespace Device

/-- e is d with bytes of lofts written within [a, a + n), and errors met. -/
def LoftWritten (a n : Nat) (d e : Device) : Prop :=
  Accessed d e ∧ (∀ st, e.ctxCtl st = d.ctxCtl st) ∧ ∀ q, q < a ∨ a + n ≤ q → e.rdByte q = d.rdByte q

namespace LoftWritten

variable {a n b m : Nat} {d e f : Device}

theorem refl (a n : Nat) (d : Device) : LoftWritten a n d d := ⟨.refl d, fun _ => rfl, fun _ _ => rfl⟩

theorem trans (h : LoftWritten a n d e) (k : LoftWritten a n e f) : LoftWritten a n d f := by
  obtain ⟨h1, h2, h3⟩ := h
  obtain ⟨k1, k2, k3⟩ := k
  exact ⟨h1.trans k1, fun st => (k2 st).trans (h2 st), fun q hq => (k3 q hq).trans (h3 q hq)⟩

theorem mono (h : LoftWritten b m d e) (h1 : a ≤ b) (h2 : m = 0 ∨ b + m ≤ a + n) : LoftWritten a n d e := by
  obtain ⟨hacc, hctl, hb⟩ := h
  exact ⟨hacc, hctl, fun q hq => hb q (by omega)⟩

end LoftWritten

section
variable (d : Device)

theorem ctxCtl_inject (u : Nat) (st : StallId) : (d.inject u).ctxCtl st = d.ctxCtl st := by
  refine ctxCtl_of_regs ?_ st
  simp only [inject]
  split_ifs <;> rfl

theorem ctxCtl_bump_shed (sh u : StallId) (o n : Nat) (ho : o < 0x200) (st : StallId) :
    (d.bump (Page.shedOf sh) (shedOff u o) n).ctxCtl st = d.ctxCtl st := by
  have hlt : inShed u < 16 := Nat.mod_lt _ (by decide)
  exact (touched_bump d (Page.shedOf sh) (shedOff u o) n (by unfold shedOff; omega) (by unfold shedOff; omega)).2 st

theorem ctxCtl_wordFailed (u : Nat) (st : StallId) : (d.wordFailed u).ctxCtl st = d.ctxCtl st := by
  unfold wordFailed
  rw [ctxCtl_record, ctxCtl_bump_shed _ _ _ _ _ (by decide)]

/-- Bytes stored within a unit, with an injection that they meet. -/
theorem loftWritten_stored {d x : Device} (a : Nat) (l : List Byte) (u : Nat) (ha : Accessed d x) (hc : ∀ st, x.ctxCtl st = d.ctxCtl st)
    (hb : ∀ q, x.rdByte q = d.rdByte q) : LoftWritten a l.length d ((x.wrBytes a l).inject u) := by
  refine ⟨(ha.trans (accessed_wrBytes x a l)).trans (accessed_inject _ _), fun st => ?_, fun q hq => ?_⟩
  · rw [ctxCtl_inject, ← hc st, wrBytes_only]
    rfl
  · rw [(sameBytes_inject _ u).rdByte, rdByte_wrBytes_out _ _ _ _ hq, hb]

/-- A write within a unit of a loft. -/
theorem loftWritten_writeUnit (a : Nat) (l : List Byte) (b : Bool) (ha : loftBase ≤ a) :
    LoftWritten a l.length d (d.writeUnit a l b).1 := by
  have hu : decide (unitOf a < loftBase) = false := decide_eq_false (Nat.not_lt.mpr (unitOf_loft_ge a ha))
  unfold writeUnit
  extract_lets u whole lp6 c x y w z
  have hlp6 : lp6 = false := hu
  have hx : x = d := if_neg (by rw [hlp6]; decide)
  have hw : z = if u ∈ x.ce then w.bump (Page.shedOf (loftStall u)) (shedOff (loftStall u) 0x108) 1 else x := by
    dsimp only [z]
    rw [hlp6]
    rfl
  have hy : y = { x with bad := setErase x.bad u, ce := setErase x.ce u } := rfl
  have hwx : w = { x with ce := setErase x.ce u } := rfl
  clear_value z x y w
  subst hx hw hy hwx
  rw [hlp6, if_neg (by simp)]
  split
  · exact loftWritten_stored a l u rfl (fun _ => rfl) fun _ => rfl
  · split
    · rw [if_neg (by decide)]
      have hq : Quiet x (x.wordFailed u) := by
        unfold wordFailed
        exact (quiet_bump x _ _ _).trans (quiet_record _ _ _)
      exact ⟨x.accessed_wordFailed u, fun st => x.ctxCtl_wordFailed u st, fun q _ => hq.scans.sameBytes.rdByte q⟩
    · refine loftWritten_stored a l u ?_ (fun st => ?_) fun q => ?_
      all_goals split
      · exact Accessed.trans (e := { x with ce := setErase x.ce u }) rfl (quiet_bump _ _ _ _).accessed
      · rfl
      · exact ctxCtl_bump_shed { x with ce := setErase x.ce u } _ _ _ _ (by decide) st
      · rfl
      · exact (quiet_bump { x with ce := setErase x.ce u } _ _ _).scans.sameBytes.rdByte q
      · rfl

/-- A write of a range of a loft. -/
theorem loftWritten_writeRange (a : Nat) (l : List Byte) (b : Bool) (ha : loftBase ≤ a) :
    LoftWritten a l.length d (d.writeRange a l b).1 := by
  refine List.foldlRecOn (motive := fun x : Device × List (Nat × MemRes) => LoftWritten a l.length d x.1) _ _ (.refl _ _ d)
    fun x h u _ => ?_
  have hw := x.1.loftWritten_writeUnit (pieceOf a l u).1 (pieceOf a l u).2 b (ha.trans (le_max_left a u))
  refine h.trans (hw.mono (le_max_left a u) ?_)
  have hlen : (pieceOf a l u).2.length ≤ l.length - (max a u - a) := by
    simp only [pieceOf, List.length_take, List.length_drop]
    omega
  have hlo : (pieceOf a l u).1 = max a u := rfl
  omega

/-- A write by an engine. -/
theorem loftWritten_engWrite (st : StallId) (sl : Slot) (a : Nat) (l : List Byte) :
    LoftWritten (d.slotAt st sl a) l.length d (d.engWrite st sl a l) :=
  d.loftWritten_writeRange _ l false (slotAt_ge d st sl a)

theorem LoftWritten.slotAt {d e : Device} {a n : Nat} (h : LoftWritten a n d e) (st : StallId) (sl : Slot) (b : Nat) :
    e.slotAt st sl b = d.slotAt st sl b := by
  have hp : e.partBase st sl = d.partBase st sl := by
    cases sl with
    | primary => rfl
    | paddock => rw [partBase, partBase, paddockEn, paddockEn, h.2.1]
  unfold Device.slotAt
  rw [hp]

/-- What several writes by an engine leave. -/
theorem engWrites_spec (st : StallId) (sl : Slot) (l : List (Nat × List Byte)) :
    Accessed d (l.foldl (fun d p => d.engWrite st sl p.1 p.2) d) ∧
    ∀ q, (∀ o ∈ l, q < d.slotAt st sl o.1 ∨ d.slotAt st sl o.1 + o.2.length ≤ q) →
      (l.foldl (fun d p => d.engWrite st sl p.1 p.2) d).rdByte q = d.rdByte q := by
  induction l generalizing d with
  | nil => exact ⟨.refl d, fun _ _ => rfl⟩
  | cons p l ih =>
    have h := d.loftWritten_engWrite st sl p.1 p.2
    obtain ⟨hacc, hbytes⟩ := ih (d.engWrite st sl p.1 p.2)
    refine ⟨h.1.trans hacc, fun q hq => (hbytes q fun o ho => ?_).trans (h.2.2 q (hq p List.mem_cons_self))⟩
    rw [h.slotAt]
    exact hq o (List.mem_cons_of_mem _ ho)

end

end Device

end Sys2Proof.Machine
end

section
/-! O31: the end of a drain (R243, R262). -/

namespace Sys2Proof.Machine

/-- The code of a drain without a ledger. -/
def drainCode (g : MgrRun) : Code :=
  if g.code ≠ 0 then g.code else if g.escOver then Status.escapeListOverrun else if g.invalid then Status.fpInvalid else Status.done

namespace Device

/-- A drain without a ledger ends with its rows and its record. -/
theorem drainEnd_plain (d : Device) (st : StallId) (sl : Slot) (c : MCmd) (m : Fin 4) (g : MgrRun) (h : dfield c.desc 0 7 1 = 0) :
    d.drainEnd st sl c m g = (g.out.foldl (fun d p => d.engWrite st sl p.1 p.2) d).record16 st sl m 3 (tagOf c.desc) g.sat g.esc
      (drainCode g) := by
  unfold drainEnd
  extract_lets d1 led use
  have hu : use = false := by
    dsimp only [use]
    rw [h]
    rfl
  rw [hu]
  rfl

theorem findRun_one {d : Device} {st : StallId} {sl : Slot} {r : MRun} (hr : (d.ctx st sl).mrun = [r]) {p : MRun → Bool}
    (hp : p r = true) : d.findRun st sl p = some (0, r) := by
  unfold findRun
  extract_lets l
  have hl : l = [r] := hr
  rw [hl, List.findIdx?_singleton, if_pos hp]
  rfl

end Device

section
variable {st : StallId} {sl : Slot} {g : Fin 4} {s : State} {r : MRun}
  (hr : (s.dev.ctx st sl).mrun = [r]) (hop : r.cmd.op = 2) (hbusy : r.mgr[g].busy = true)
include hr hop hbusy

theorem exec_drainDone : exec (.drainDone st sl g) s = .next (s.onDev fun d => if (d.stall st).switching.isSome = true then d else
    (d.drainEnd st sl r.cmd g r.mgr[g]).setRun st sl 0 { r with mgr := r.mgr.set g { r.mgr[g] with busy := false } }) := by
  change Host.Outcome.next (s.onDev fun d => match d.findRun st sl fun r => decide (r.cmd.op = 2) && r.mgr[g].busy with
    | none => d
    | some (i, r) => if (d.stall st).switching.isSome = true then d else
      (d.drainEnd st sl r.cmd g r.mgr[g]).setRun st sl i { r with mgr := r.mgr.set g { r.mgr[g] with busy := false } }) = _
  refine next_congr _ ?_
  rw [Device.findRun_one hr (by rw [hop, hbusy]; rfl)]

/-- While the swap engine holds the loft port no drain ends (R262). -/
theorem drainDone_held (hsw : (s.dev.stall st).switching ≠ none) : exec (.drainDone st sl g) s = .next s :=
  (exec_drainDone hr hop hbusy).trans (next_congr (fun d => d) (if_pos (Option.isSome_iff_ne_none.mpr hsw)))

/-- A drain ends in its manger (R243). -/
theorem drainDone_spec (hidle : ∀ h, h ≠ g → r.mgr[h].busy = false) (hled : dfield r.cmd.desc 0 7 1 = 0)
    (hsat : r.mgr[g].sat < 2 ^ 14) (hesc : r.mgr[g].esc < 2 ^ 14) (hsw : (s.dev.stall st).switching = none) :
    Completes (.drainDone st sl g) s fun t =>
      (t.dev.ctx st sl).mrun = [] ∧ (t.dev.stall st).mgr = (s.dev.stall st).mgr ∧
      (∀ q, (∀ o ∈ r.mgr[g].out, q < s.dev.slotAt st sl o.1 ∨ s.dev.slotAt st sl o.1 + o.2.length ≤ q) →
        t.dev.rdByte q = s.dev.rdByte q) ∧
      ((s.dev.ctx st sl).rings[g].length < 16 →
        (t.dev.ctx st sl).rings[g] = (s.dev.ctx st sl).rings[g] ++
          [statusRecord 3 (tagOf r.cmd.desc) r.mgr[g].sat r.mgr[g].esc (drainCode r.mgr[g])] ∧
        ∀ h, h ≠ g → (t.dev.ctx st sl).rings[h] = (s.dev.ctx st sl).rings[h]) := by
  obtain ⟨hacc, hbytes⟩ := s.dev.engWrites_spec st sl r.mgr[g].out
  obtain ⟨w, hrec, hw⟩ := Device.record16_eq (r.mgr[g].out.foldl (fun d p => d.engWrite st sl p.1 p.2) s.dev) st sl g 3
    (tagOf r.cmd.desc) r.mgr[g].sat r.mgr[g].esc (drainCode r.mgr[g])
  rw [← s.dev.drainEnd_plain st sl r.cmd g _ hled] at hrec
  have hnot : ((finList 4).any fun (x : Fin 4) => (r.mgr.set g { r.mgr[g] with busy := false })[x].busy) = false :=
    idle_after hidle rfl
  generalize r.mgr[g].out.foldl (fun d p => d.engWrite st sl p.1 p.2) s.dev = e at hacc hbytes hrec
  have hexec : exec (.drainDone st sl g) s = .next (s.onDev fun _ => (e.modCtx st sl (SlotCtx.recorded g w)).modCtx st sl fun k =>
      { k with mrun := k.mrun.eraseIdx 0 }) := by
    refine (exec_drainDone hr hop hbusy).trans (next_congr _ ?_)
    rw [hsw, if_neg (by decide), hrec, Device.setRun_eq]
    dsimp only at hnot ⊢
    rw [hnot]
    rfl
  have hran := ((Device.Ran.refl st e).modCtx sl (SlotCtx.recorded g w)).modCtx sl fun k => { k with mrun := k.mrun.eraseIdx 0 }
  obtain ⟨f, hexec, hran⟩ : ∃ f, exec (.drainDone st sl g) s = .next (s.onDev fun _ => f) ∧ Device.Ran st _ e f := ⟨_, hexec, hran⟩
  have hstall : e.stall st = s.dev.stall st := by
    rw [hacc]
    rfl
  have hctx := hran.ctx sl
  rw [Stall.modCtx_same, Stall.modCtx_same, hstall, ← Device.ctx] at hctx
  have hmgr := hran.mgr
  rw [Stall.modCtx_mgr, Stall.modCtx_mgr, hstall] at hmgr
  refine ⟨_, hexec, ?_⟩
  beta_reduce
  rw [State.onDev_dev, hctx, hmgr]
  refine ⟨?_, rfl, fun q hq => (hran.rdByte q).trans (hbytes q hq), fun hlen => ?_⟩
  · rw [recorded_only]
    dsimp only
    rw [hr]
    rfl
  · rw [← hw hsat hesc]
    exact ⟨recorded_rings hlen, fun h hh => recorded_rings_ne hh⟩

end

end Sys2Proof.Machine
end

section
/-! O31: the entries that a pass writes (R219, R226 to R228, R248). -/

namespace Sys2Proof.Machine

theorem mem_groupsOf {e : Nat} {es : List Nat} : e ∈ groupsOf es ↔ e < 32 ∧ ∃ x ∈ es, x / 4 = e := by
  unfold groupsOf
  rw [List.mem_filter, List.mem_range, List.any_eq_true]
  simp only [decide_eq_true_eq]

/-- Accumulators that differ in the wide entries of es alone. -/
def KeepsGroups (es : List Nat) (a b : Vector (Vector (BitVec 128) 66) 32) : Prop :=
  ∀ w : Fin 32, w.val ∉ groupsOf es → b[w] = a[w]

namespace KeepsGroups

variable {es : List Nat} {a b c : Vector (Vector (BitVec 128) 66) 32}

theorem refl (es : List Nat) (a : Vector (Vector (BitVec 128) 66) 32) : KeepsGroups es a a := fun _ _ => rfl

theorem trans (h : KeepsGroups es a b) (k : KeepsGroups es b c) : KeepsGroups es a c := fun w hw => (k w hw).trans (h w hw)

/-- One wide entry of es changes. -/
theorem upd {n : Nat} (hn : n ∈ groupsOf es) (a : Vector (Vector (BitVec 128) 66) 32) (f : Vector (BitVec 128) 66 → Vector (BitVec 128) 66) :
    KeepsGroups es a (upd a (Fin.ofNat 32 n) f) := by
  intro w hw
  refine upd_ne _ _ _ _ fun h => hw ?_
  rw [h, Fin.val_ofNat, Nat.mod_eq_of_lt (mem_groupsOf.mp hn).1]
  exact hn

theorem setEntry {e : Nat} (he : e / 4 ∈ groupsOf es) (a : Vector (Vector (BitVec 128) 66) 32) (j : Fin 66) (v : Nat) :
    KeepsGroups es a (setEntry a e j v) := .upd he a _

theorem setWide {w : Nat} (hw : w ∈ groupsOf es) (a : Vector (Vector (BitVec 128) 66) 32) (j : Fin 66) (v : FVal) :
    KeepsGroups es a (setWide a w j v) := .upd hw a _

/-- A fold of such changes. -/
theorem foldl {β ι : Type} {f : Vector (Vector (BitVec 128) 66) 32 × β → ι → Vector (Vector (BitVec 128) 66) 32 × β} (l : List ι)
    (hf : ∀ x, ∀ i ∈ l, KeepsGroups es x.1 (f x i).1) (x : Vector (Vector (BitVec 128) 66) 32 × β) :
    KeepsGroups es x.1 (l.foldl f x).1 :=
  List.foldlRecOn (motive := fun y : Vector (Vector (BitVec 128) 66) 32 × β => KeepsGroups es x.1 y.1) l f (refl es _)
    fun y h i hi => h.trans (hf y i hi)

theorem foldl_acc {ι : Type} {f : Vector (Vector (BitVec 128) 66) 32 → ι → Vector (Vector (BitVec 128) 66) 32} (l : List ι)
    (hf : ∀ x, ∀ i ∈ l, KeepsGroups es x (f x i)) (a : Vector (Vector (BitVec 128) 66) 32) : KeepsGroups es a (l.foldl f a) :=
  List.foldlRecOn (motive := fun y => KeepsGroups es a y) l f (refl es _) fun y h i hi => h.trans (hf y i hi)

end KeepsGroups

/-- The clearing mark changes the addressed groups alone. -/
theorem clearEntries_keeps (k : Nat) (lane : Fin 64 → Fin 66) (piece : Bool) {es : List Nat} (hes : ∀ e ∈ es, e < 128) (g : Manger) :
    KeepsGroups es g.acc (clearEntries k lane piece es g).acc := by
  unfold clearEntries
  extract_lets others acc
  refine KeepsGroups.foldl_acc _ (fun x j _ => ?_) _
  refine KeepsGroups.trans (KeepsGroups.foldl_acc _ (fun a e he => .setEntry ?_ a j 0) x) (KeepsGroups.foldl_acc _ (fun a e he => .setEntry ?_ a j _) _)
  · exact mem_groupsOf.mpr ⟨by have := hes e he; omega, e, he, rfl⟩
  · obtain ⟨w, hw, h⟩ := List.mem_flatMap.mp he
    split at h
    · obtain ⟨i, hi, rfl⟩ := List.mem_map.mp (List.mem_filter.mp h).1
      rw [show (4 * w + i) / 4 = w by have := List.mem_range.mp hi; omega]
      exact hw
    · exact absurd h List.not_mem_nil

/-- A pass changes the groups that its beats address alone. -/
theorem accumulatePass_keeps (lane : Fin 64 → Fin 66) (c : MCmd) (cycles : List (Lane.Piece × Lane.Piece × Nat)) (wfmt : Nat) (half : Fin 2)
    {feed : List (Nat × List FVal)} {es : List Nat} (hf : ∀ b ∈ feed, if pieceFeed c.desc then dfield c.desc 0 41 7 + b.1 ∈ groupsOf es
      else (dfield c.desc 0 41 7 + b.1) / 4 ∈ groupsOf es) (g : Manger) :
    KeepsGroups es g.acc (accumulatePass lane c cycles wfmt half feed g).1.acc := by
  unfold accumulatePass
  extract_lets f e0 blocks r
  refine KeepsGroups.foldl _ (fun x j _ => ?_) (g.acc, _)
  split
  next ws overran _ =>
    extract_lets y
    refine KeepsGroups.foldl _ (fun z b hb => ?_) (x.1, _)
    have h := hf b hb
    split
    next hp =>
      rw [if_pos hp] at h
      exact .setWide h _ _ _
    next hp =>
      rw [if_neg hp] at h
      split
      exact .setEntry h _ _ _

/-- The group that beat b of a feed addresses. -/
theorem group_of_beat {c : MCmd} (hop : c.op = 1) (hes : ∀ e ∈ c.entries, e < 128) {b : Nat} (hb : b < dfield c.desc 0 48 8) :
    if pieceFeed c.desc then dfield c.desc 0 41 7 + b ∈ groupsOf c.entries
    else (dfield c.desc 0 41 7 + b) / 4 ∈ groupsOf c.entries := by
  have he : c.entries = entriesOf (pieceFeed c.desc) (dfield c.desc 0 41 7) (dfield c.desc 0 48 8) := if_pos hop
  have key (x : Nat) (hx : x ∈ c.entries) : x / 4 ∈ groupsOf c.entries :=
    mem_groupsOf.mpr ⟨by have := hes x hx; omega, x, hx, rfl⟩
  cases hp : pieceFeed c.desc with
  | true =>
    rw [if_pos rfl]
    have hmem : 4 * dfield c.desc 0 41 7 + 4 * b ∈ c.entries := by
      rw [he, hp]
      exact List.mem_map.mpr ⟨4 * b, List.mem_range.mpr (by omega), rfl⟩
    have h := key _ hmem
    rwa [show (4 * dfield c.desc 0 41 7 + 4 * b) / 4 = dfield c.desc 0 41 7 + b by omega] at h
  | false =>
    rw [if_neg (by decide)]
    refine key _ ?_
    rw [he, hp]
    exact List.mem_map.mpr ⟨b, List.mem_range.mpr hb, rfl⟩

namespace Device

variable (d : Device) (st : StallId) (sl : Slot) (c : MCmd)

/-- The beats that take a slot are among the rows (R248). -/
theorem beatsOf_lt : ∀ p ∈ (d.beatsOf st sl c).2, p.1 < dfield c.desc 0 48 8 := by
  unfold beatsOf
  extract_lets n
  split
  · intro p hp
    obtain ⟨b, hb, rfl⟩ := List.mem_map.mp hp
    exact List.mem_range.mp hb
  · refine List.foldlRecOn (motive := fun x : Device × List (Nat × Bool) => ∀ p ∈ x.2, p.1 < n) _ _
      (fun p hp => absurd hp List.not_mem_nil) fun x h i _ => ?_
    split
    next d1 bs ok _ =>
      intro p hp
      rcases List.mem_append.mp hp with hp | hp
      · exact h p hp
      · obtain ⟨b, hb, rfl⟩ := List.mem_map.mp hp
        have hlt := List.mem_range.mp (List.mem_filter.mp hb).1
        dsimp only
        omega

/-- The feed takes its beats from those. -/
theorem feedOf_lt : ∀ p ∈ (d.feedOf st sl c).2.1, p.1 < dfield c.desc 0 48 8 := by
  have hbeats := d.beatsOf_lt st sl c
  unfold feedOf
  split
  next d1 beats h1 =>
    rw [h1] at hbeats
    refine List.foldlRecOn (motive := fun x : Device × List (Nat × List FVal) × Nat × Bool =>
      ∀ p ∈ x.2.1, p.1 < dfield c.desc 0 48 8) _ _ (fun p hp => absurd hp List.not_mem_nil) fun x h b hb => ?_
    split
    · split
      next d2 v ok o h2 =>
        split
        · intro p hp
          rcases List.mem_append.mp hp with hp | hp
          · exact h p hp
          · rw [List.mem_singleton.mp hp]
            exact hbeats b hb
        · exact h
    · exact h

end Device

end Sys2Proof.Machine
end

section
/-! O31: the start of a pass (R242, R247, R248). -/

namespace Sys2Proof.Machine

/-- The accumulators outside the groups of es stay. -/
def keepsAcc (es : List Nat) (a b : Manger) : Prop := KeepsGroups es a.acc b.acc

theorem keepsAcc_refl (es : List Nat) (a : Manger) : keepsAcc es a a := KeepsGroups.refl _ _

theorem keepsAcc_trans (es : List Nat) (a b c : Manger) (h : keepsAcc es a b) (k : keepsAcc es b c) : keepsAcc es a c := KeepsGroups.trans h k

namespace Device

section
variable (d : Device) (st : StallId) (sl : Slot)

/-- A pass changes of its manger the addressed groups, the views and the error lists (R227, R263). -/
theorem worked_passIn (r : MRun) {feed : List (Nat × List FVal)} (bad overran : Bool) (g : Fin 4) (hop : r.cmd.op = 1)
    (hes : ∀ e ∈ r.cmd.entries, e < 128) (hf : ∀ b ∈ feed, b.1 < dfield r.cmd.desc 0 48 8) :
    Worked st g (keepsAcc r.cmd.entries) d (d.passIn st sl r feed bad overran g).1 := by
  unfold passIn
  extract_lets c run h first clear es piece e0 touched
  split
  · exact .of_scans (keepsAcc_refl _) (.refl d)
  · split
    next k d1 h1 =>
      have hs : Scans d d1 := by
        have h := d.scans_drawFree
        rw [h1] at h
        exact h
      extract_lets lane m m1
      have hm1 : keepsAcc r.cmd.entries m m1 := by
        dsimp only [m1]
        split
        · exact clearEntries_keeps k lane piece hes m
        · exact keepsAcc_refl _ m
      split
      next m2 o u wover h2 =>
        have hm2 : keepsAcc r.cmd.entries m1 m2 := by
          have hk := accumulatePass_keeps lane c ((c.series[r.passes]?).getD []) h.fmt.toNat c.halfOf (es := r.cmd.entries)
            (fun b hb => group_of_beat hop hes (hf b hb)) m1
          rw [h2] at hk
          exact hk
        extract_lets m3 d2
        have hm3 : keepsAcc r.cmd.entries m m3 := keepsAcc_trans _ _ _ _ hm1 hm2
        have hw : Worked st g (keepsAcc r.cmd.entries) d d2 :=
          (Worked.of_scans (keepsAcc_refl _) hs).trans (keepsAcc_trans _) (.modMgr d1 (fun _ => m3) hm3)
        split
        next d3 ue h3 =>
          exact hw.trans (keepsAcc_trans _) ((worked_accErrors (keepsAcc_refl _) (keepsAcc_trans _)
            (fun a l k => KeepsGroups.refl _ _) d2 _ _).of_eq h3)

/-- A pass begins in the one manger of a running command. -/
theorem runPass_spec {r : MRun} {g : Fin 4} (hr : (d.ctx st sl).mrun = [r]) (hsel : selected r.cmd.sel = [g]) (hop : r.cmd.op = 1)
    (hes : ∀ e ∈ r.cmd.entries, e < 128) : ∃ e q, d.runPass st sl 0 = e.modCtx st sl (fun k => { k with mrun := k.mrun.set 0 q }) ∧
      Worked st g (keepsAcc r.cmd.entries) d e ∧ q.cmd = r.cmd ∧ q.inPass = true ∧ q.passes = r.passes := by
  have hget : (d.ctx st sl).mrun[0]? = some r := by rw [hr]; rfl
  unfold runPass
  split
  next h => exact absurd (hget.symm.trans h) (by simp)
  next r0 h0 =>
  obtain rfl : r = r0 := Option.some.inj (hget.symm.trans h0)
  split
  next d1 feed slots invalid overran h1 =>
    have hfeed : Scans d d1 ∧ ∀ b ∈ feed, b.1 < dfield r.cmd.desc 0 48 8 := by
      split at h1
      · obtain ⟨rfl, hfe⟩ := Prod.mk.inj h1
        obtain ⟨rfl, -⟩ := Prod.mk.inj hfe
        exact ⟨.refl _, fun b hb => absurd hb List.not_mem_nil⟩
      · refine ⟨(d.scans_feedOf st sl r.cmd).of_eq h1, ?_⟩
        have hlt := d.feedOf_lt st sl r.cmd
        rw [h1] at hlt
        exact hlt
    obtain ⟨hs, hf⟩ := hfeed
    split
    next k d2 h2 =>
      have hs2 : Scans d1 d2 := by
        have h := d1.scans_drawFree
        rw [h2] at h
        exact h
      extract_lets cycles q
      have hq : q.cmd = r.cmd ∧ q.inPass = true ∧ q.passes = r.passes := ⟨rfl, rfl, rfl⟩
      clear_value q
      obtain ⟨hqc, hqi, hqp⟩ := hq
      have hw := d2.worked_passIn st sl q (feed := feed) (decide (0 < invalid)) overran g (by rw [hqc]; exact hop)
        (by rw [hqc]; exact hes) (by rw [hqc]; exact hf)
      rw [hqc] at hw
      have hall := (Worked.of_scans (st := st) (g := g) (keepsAcc_refl r.cmd.entries) (hs.trans hs2)).trans
        (keepsAcc_trans _) hw
      rw [hqc, hsel, List.foldl_cons, List.foldl_nil]
      split
      next e q' h3 =>
        split at h3
        next e' m h4 =>
          obtain ⟨rfl, rfl⟩ := Prod.mk.inj h3
          exact ⟨e', _, rfl, hall.of_eq h4, hqc, hqi, hqp⟩

end

end Device

end Sys2Proof.Machine
end

section
/-! O31: the manger events (R242 to R285). -/

namespace Sys2Proof.Machine

section
variable {st : StallId} {sl : Slot} {g : Fin 4} {c : MCmd} {s : State} (hc : (s.dev.ctx st sl).mq.head? = some c)
  (hsel : selected c.sel = [g]) (hstart : s.dev.mayStart st sl = true) (hop : c.op = 1) (hrun : (s.dev.ctx st sl).mrun = [])
  (hes : ∀ e ∈ c.entries, e < 128) (hend : s.dev.feedEndsAtOnce st sl c = none) (hmay : s.dev.feedMayStart st sl c = true)
include hc hsel hstart hop hrun hes hend hmay

omit hsel hes in
theorem exec_passStart : exec (.passStart st sl) s =
    .next (s.onDev fun d => (d.startHead st sl (freshRun c)).runPass st sl 0) := by
  change Host.Outcome.next (s.onDev fun d =>
    if (!d.mayStart st sl) = true then d
    else
      match d.findRun st sl fun r => decide (r.cmd.op = 1) && !r.inPass with
      | some (i, _) => d.runPass st sl i
      | none =>
        match d.mqHead st sl with
        | some c =>
          if (decide (c.op = 1) && (d.feedEndsAtOnce st sl c).isNone && d.feedMayStart st sl c) = true then
            (d.startHead st sl (freshRun c)).runPass st sl (((d.startHead st sl (freshRun c)).ctx st sl).mrun.length - 1)
          else d
        | none => d) = _
  refine next_congr _ ?_
  have hfind : (s.dev.findRun st sl fun r => decide (r.cmd.op = 1) && !r.inPass) = none := by
    unfold Device.findRun
    rw [hrun]
    rfl
  rw [hstart, if_neg (by decide), hfind, show s.dev.mqHead st sl = some c from hc]
  dsimp only
  rw [if_pos (by rw [hop, hend, hmay]; rfl)]
  have hlen : ((s.dev.startHead st sl (freshRun c)).ctx st sl).mrun = [freshRun c] := by
    rw [Device.startHead, ctx_modCtx, hrun]
    rfl
  rw [hlen]
  rfl

/-- The pass of an MFEED at the head of the queue begins (R242). -/
theorem passStart_spec : Completes (.passStart st sl) s fun t =>
    (t.dev.ctx st sl).mq = (s.dev.ctx st sl).mq.drop 1 ∧
    (∃ r, (t.dev.ctx st sl).mrun = [r] ∧ r.cmd = c ∧ r.inPass = true ∧ r.passes = 0) ∧ s.sameMemory t ∧
    (∀ h, h ≠ g → (t.dev.stall st).mgr[h].acc = (s.dev.stall st).mgr[h].acc) ∧
    ∀ w : Fin 32, w.val ∉ groupsOf c.entries → ((t.dev.stall st).mgr[g]).acc[w] = ((s.dev.stall st).mgr[g]).acc[w] := by
  have hstall : (s.dev.startHead st sl (freshRun c)).stall st = (s.dev.stall st).modCtx sl fun k =>
      { k with mq := k.mq.drop 1, mrun := k.mrun ++ [freshRun c] } := Device.stall_modStall_same _ _ _
  have hmrun : ((s.dev.startHead st sl (freshRun c)).ctx st sl).mrun = [freshRun c] := by
    rw [Device.startHead, ctx_modCtx, hrun]
    rfl
  obtain ⟨e, q, hpass, ⟨hbytes, m, hm, hestall⟩, hqc, hqi, hqp⟩ :=
    (s.dev.startHead st sl (freshRun c)).runPass_spec st sl (r := freshRun c) hmrun hsel hop hes
  obtain ⟨f, hf⟩ : ∃ f, f = e.modCtx st sl fun k => { k with mrun := k.mrun.set 0 q } := ⟨_, rfl⟩
  have hexec : exec (.passStart st sl) s = .next (s.onDev fun _ => f) :=
    (exec_passStart hc hstart hop hrun hend hmay).trans (next_congr _ (hpass.trans hf.symm))
  refine ⟨_, hexec, ?_⟩
  beta_reduce
  rw [State.onDev_dev]
  have hfstall : f.stall st = (e.stall st).modCtx sl fun k => { k with mrun := k.mrun.set 0 q } := by
    rw [hf]
    exact Device.stall_modStall_same _ _ _
  have hctx : f.ctx st sl = { s.dev.ctx st sl with mq := (s.dev.ctx st sl).mq.drop 1, mrun := [q] } := by
    rw [Device.ctx, hfstall, Stall.modCtx_same, hestall, Stall.withMgr, Stall.ctx_setMgr, hstall, Stall.modCtx_same, ← Device.ctx, hrun]
    rfl
  have hmgr : (f.stall st).mgr = upd (s.dev.stall st).mgr g fun _ => m := by
    rw [hfstall, Stall.modCtx_mgr, hestall]
    refine (congrArg (fun v => upd v g fun _ => m) ?_ : _)
    rw [hstall, Stall.modCtx_mgr]
  have hmem (a : Nat) : f.rdByte a = s.dev.rdByte a := by
    have hfb : Device.SameBytes e f := by
      rw [hf]
      exact ⟨rfl, rfl⟩
    exact (hfb.rdByte a).trans ((hbytes.rdByte a).trans rfl)
  rw [hstall, Stall.modCtx_mgr] at hm
  rw [hctx, hmgr, upd_same]
  exact ⟨rfl, ⟨q, rfl, hqc, hqi, hqp⟩, hmem, fun h hh => congrArg Manger.acc (upd_ne _ _ _ _ hh), hm⟩

end

/-- Settles O31: a start takes the head of the queue, and each end leaves its record. -/
theorem mangerEvents : Obligations.MangerEvents := by
  intro st sl g c s slot rest records one run
  refine ⟨fun hc hop hstart hl => mloadStart_spec hc hstart hop hl, ?_, ?_, ?_, ?_, ?_, ?_, ?_, fun y => dutyChange_spec y s⟩
  · rintro r ⟨rfl, hr, hsel, -⟩ hop hres hsw hok hb ht at_ hclean
    exact mloadDone_spec hr hsel hop hres hsw hok hb ht hclean
  · rintro ⟨hc, hsel, hstart⟩ hop hrun hes hend hmay
    exact passStart_spec hc hsel hstart hop hrun hes hend hmay
  · rintro r ⟨rfl, hr, hsel, hidle⟩ hop hin hcode hp ho hu hold
    exact ⟨fun hlast => passEnd_last hr hsel hop hin hcode hp hold hidle ho hu hlast,
      fun hmore => passEnd_next hr hsel hop hin hcode hp hold hmore⟩
  · rintro ⟨hc, hsel, hstart⟩ hop hend
    exact mfeedImmediateEnd_spec hc hstart hsel hop hend
  · rintro ⟨hc, hsel, hstart⟩ hop hmay
    exact drainStart_spec hc hsel hstart hop hmay
  · rintro r ⟨rfl, hr, -, hidle⟩ hop hbusy hled hsat hesc
    exact ⟨drainDone_held hr hop hbusy, drainDone_spec hr hop hbusy hidle hled hsat hesc⟩
  · intro p r d hc hop hstart hrun h64 hclean harm hhold
    exact fmtselStart_spec hc hstart hop hrun h64 hclean harm hhold rfl rfl

end Sys2Proof.Machine
end

section
/-! O35: what a step of a team's operation leaves: the other teams, the ports but for flits that wait, and its record (R381). -/

namespace Sys2Proof.Machine

/-- A port with at least the flits of q waiting, and its link as q has it. -/
def Port.Kept (q r : Port) : Prop :=
  r.linked = q.linked ∧ r.features = q.features ∧ ∀ v, ∀ w ∈ vget q.queue v [], w ∈ vget r.queue v []

namespace Port.Kept

variable {q r u : Port}

theorem refl (q : Port) : q.Kept q := ⟨rfl, rfl, fun _ _ h => h⟩

theorem trans (h : q.Kept r) (k : r.Kept u) : q.Kept u := by
  obtain ⟨h1, h2, h3⟩ := h
  obtain ⟨k1, k2, k3⟩ := k
  exact ⟨k1.trans h1, k2.trans h2, fun v w hw => k3 v w (h3 v w hw)⟩

end Port.Kept

namespace Device

/-- e is d after a step of the operation of team t of drover y. -/
structure TeamOnly (y : Yard) (t : Fin 64) (d e : Device) : Prop where
  others : ∀ z v, (z, v) ≠ (y, t) → e.team z v = d.team z v
  record : (e.team y t).record = (d.team y t).record
  ports : ∀ p : PortId, Port.Kept d.ports[p] e.ports[p]
  now : e.now = d.now

namespace TeamOnly

variable {y : Yard} {t : Fin 64} {d e f : Device}

theorem refl (y : Yard) (t : Fin 64) (d : Device) : TeamOnly y t d d := ⟨fun _ _ _ => rfl, rfl, fun _ => .refl _, rfl⟩

theorem trans (h : TeamOnly y t d e) (k : TeamOnly y t e f) : TeamOnly y t d f :=
  ⟨fun z v hv => (k.others z v hv).trans (h.others z v hv), k.record.trans h.record, fun p => (h.ports p).trans (k.ports p),
    k.now.trans h.now⟩

/-- A step that touches neither drovers nor ports. -/
theorem of_beside (hd : e.drovers = d.drovers) (hp : e.ports = d.ports) (hn : e.now = d.now) : TeamOnly y t d e := by
  have ht (z : Yard) (v : Fin 64) : e.team z v = d.team z v := team_of_drovers z hd v
  exact ⟨fun z v _ => ht z v, congrArg Team.record (ht y t), fun p => by rw [hp]; exact .refl _, hn⟩

theorem modTeam (d : Device) (g : Team → Team) (hg : (g (d.team y t)).record = (d.team y t).record) :
    TeamOnly y t d (d.modTeam y t g) := by
  refine ⟨fun z v hv => ?_, ?_, fun _ => .refl _, rfl⟩
  · by_cases hz : z = y
    · subst hz
      exact team_modTeam_ne _ _ _ _ _ fun h => hv (by rw [h])
    · have h : (d.modTeam y t g).drovers[z] = d.drovers[z] := upd_ne _ _ _ _ hz
      unfold team
      rw [h]
  · rw [team_modTeam_same]
    exact hg

theorem teamPort (h : TeamOnly y t d e) (neg : Bool) : e.teamPort y t neg = d.teamPort y t neg := by
  unfold Device.teamPort Team.axis
  rw [h.record]

theorem vc (h : TeamOnly y t d e) : (e.team y t).vc = (d.team y t).vc := by
  unfold Team.vc
  rw [h.record]

theorem teamLink (h : TeamOnly y t d e) (neg : Bool) : e.teamLink y t neg = d.teamLink y t neg := by
  obtain ⟨h1, h2, -⟩ := h.ports (d.teamPort y t neg)
  unfold Device.teamLink
  simp only [h.teamPort, h.vc, Port.has, h1, h2]

theorem modOp (d : Device) (g : TeamOp → TeamOp) : TeamOnly y t d (d.modOp y t g) := .modTeam d _ rfl

theorem modDrover (d : Device) (g : Drover → Drover) (hg : (g d.drovers[y]).teams = d.drovers[y].teams) :
    TeamOnly y t d (d.modDrover y g) := by
  have hteam (z : Yard) (v : Fin 64) : (d.modDrover y g).team z v = d.team z v := by
    by_cases hz : z = y
    · subst hz
      exact d.team_modDrover z g hg v
    · have h : (d.modDrover y g).drovers[z] = d.drovers[z] := upd_ne _ _ _ _ hz
      unfold team
      rw [h]
  exact ⟨fun z v _ => hteam z v, congrArg Team.record (hteam y t), fun _ => .refl _, rfl⟩

theorem modPort (d : Device) (p : PortId) (g : Port → Port) (hg : Port.Kept d.ports[p] (g d.ports[p])) :
    TeamOnly y t d (d.modPort p g) := by
  refine ⟨fun _ _ _ => rfl, rfl, fun q => ?_, rfl⟩
  by_cases hq : q = p
  · subst hq
    have h : (d.modPort q g).ports[q] = g d.ports[q] := upd_same _ _ _
    rw [h]
    exact hg
  · have h : (d.modPort p g).ports[q] = d.ports[q] := upd_ne _ _ _ _ hq
    rw [h]
    exact .refl _

end TeamOnly

/-! ### Flits that a team sends -/

/-- A control flit of a kind waits at the team's + port. -/
def Passes (d : Device) (p : PortId) (v : Nat) (t : Fin 64) (kind : Byte) : Prop :=
  ∃ w ∈ vget d.ports[p].queue v [], w.tag = BitVec.ofNat 20 (t.val * 2 ^ 14 + 2 ^ 8) ∧ w.payload.head? = some kind

theorem Passes.of_kept {y : Yard} {t : Fin 64} {d e : Device} {p : PortId} {v : Nat} {kind : Byte} (h : d.Passes p v t kind)
    (k : TeamOnly y t d e) : e.Passes p v t kind := by
  obtain ⟨w, hw, hrest⟩ := h
  exact ⟨w, (k.ports p).2.2 v w hw, hrest⟩

/-- A queue with a flit among those that wait. -/
theorem kept_queue (q : Port) (v : Nat) (l : List Waiting) (hl : ∀ w ∈ vget q.queue v [], w ∈ l) :
    q.Kept { q with queue := vset q.queue v l } := by
  refine ⟨rfl, rfl, fun i w hw => ?_⟩
  by_cases hi : i < 6
  · dsimp only
    rw [vget_vset _ _ _ _ _ hi]
    split
    · next h =>
      rw [h] at hw
      exact hl w hw
    · exact hw
  · rw [vget, Vector.getElem?_eq_none (by omega)] at hw
    exact absurd hw List.not_mem_nil

/-- A flit that joins a queue. -/
theorem joinQueue_spec (d : Device) (y : Yard) (t : Fin 64) (p : PortId) (v : Nat) (F : List Waiting → List Waiting) (w : Waiting)
    (hw : ∀ l, w ∈ F l) (hl : ∀ l, ∀ u ∈ l, u ∈ F l) (kind : Byte) (hv : v ≤ 5)
    (htag : w.tag = BitVec.ofNat 20 (t.val * 2 ^ 14 + 2 ^ 8)) (hkind : w.payload.head? = some kind) :
    TeamOnly y t d (d.modPort p fun q => { q with queue := vset q.queue v (F (vget q.queue v [])) }) ∧
    (d.modPort p fun q => { q with queue := vset q.queue v (F (vget q.queue v [])) }).Passes p v t kind := by
  refine ⟨.modPort d p _ (kept_queue _ _ _ fun u hu => hl _ u hu), w, ?_, htag, hkind⟩
  have h : (d.modPort p fun q => { q with queue := vset q.queue v (F (vget q.queue v [])) }).ports[p] =
      { d.ports[p] with queue := vset d.ports[p].queue v (F (vget d.ports[p].queue v [])) } := upd_same _ _ _
  rw [h]
  dsimp only
  rw [vget_vset _ _ _ _ _ (by omega), if_pos rfl]
  exact hw _

/-- A team's control flit waits at its + port, where its link is up. -/
theorem teamControl_spec (d : Device) (y : Yard) (t : Fin 64) (booked : Bool) (kind : Byte) (rest : List Byte)
    (hlink : d.teamLink y t false = true) (hv : (d.team y t).vc ≤ 5) :
    TeamOnly y t d (d.teamControl y t booked (kind :: rest)) ∧
    (d.teamControl y t booked (kind :: rest)).team y t = d.team y t ∧
    (d.teamControl y t booked (kind :: rest)).Passes (d.teamPort y t false) (d.team y t).vc t kind := by
  unfold teamControl teamFlit
  rw [hlink, if_pos rfl]
  extract_lets tag w vc
  have htag : w.tag = BitVec.ofNat 20 (t.val * 2 ^ 14 + 2 ^ 8) := by
    dsimp only [w, tag]
    simp [bitAt]
  have hkind : w.payload.head? = some kind := rfl
  clear_value w
  split
  · have hsub (l : List Waiting) (u : Waiting) (hu : u ∈ l) :
        u ∈ l.takeWhile (!isTeamFlit t 0 ·) ++ w :: l.dropWhile (!isTeamFlit t 0 ·) := by
      rw [← List.takeWhile_append_dropWhile (p := (!isTeamFlit t 0 ·)) (l := l)] at hu
      rcases List.mem_append.mp hu with h | h
      · exact List.mem_append_left _ h
      · exact List.mem_append_right _ (List.mem_cons_of_mem _ h)
    obtain ⟨h1, h2⟩ := d.joinQueue_spec y t _ vc (fun l => l.takeWhile (!isTeamFlit t 0 ·) ++ w :: l.dropWhile (!isTeamFlit t 0 ·)) w
      (fun l => List.mem_append_right _ List.mem_cons_self) hsub kind hv htag hkind
    exact ⟨h1, rfl, h2⟩
  · obtain ⟨h1, h2⟩ := d.joinQueue_spec y t _ vc (fun l => l ++ [w]) w (fun l => List.mem_append_right _ List.mem_cons_self)
      (fun l u hu => List.mem_append_left _ hu) kind hv htag hkind
    exact ⟨h1, rfl, h2⟩

end Device

end Sys2Proof.Machine
end

section
/-! O35: a team's control flit comes in (R351, R381). -/

namespace Sys2Proof.Machine

theorem kept_heardBy (v : Nat) (q : Port) : q.Kept (heardBy v q) := by
  rw [heardBy_only]
  exact ⟨rfl, rfl, fun _ _ hw => hw⟩

namespace Device

/-- An expected flit whose contents break a rule makes the partner HOSTILE. -/
theorem receiveFlit_barred (d : Device) (p : PortId) (h : FlitHeader) (v x : Nat) (f : Device → Device)
    (ht : d.ports[p].talking = true) (hseq : h.seq = d.ports[p].expect) (hack : h.ack = d.ports[p].acked) (hcc : h.ccount = 0) :
    ∃ e : Device, d.receiveFlit p h v (some x) id f = e.hostile p x := by
  have hq : (d.modPort p (listening v)).ports[p] = listening v d.ports[p] := d.ports_modPort_same p _
  have hl := listening_only v d.ports[p]
  have ht2 : (d.modPort p (listening v)).ports[p].talking = true := by
    rw [hq, hl]
    exact ht
  have hseq2 : h.seq = ((d.modPort p (listening v)).modPort p covered).ports[p].expect := by
    rw [ports_modPort_same, hq, hl]
    exact hseq
  have hack2 : h.ack = (d.modPort p (listening v)).ports[p].acked := by
    rw [hq, hl]
    exact hack
  unfold receiveFlit receiveData
  rw [if_neg (by rw [ht]; decide), listening_modPort]
  dsimp only [id]
  rw [if_neg (by rw [ht2]; decide), receiveHeader_expected _ _ _ _ hack2 hcc]
  generalize (d.modPort p (listening v)).modPort p covered = e at hseq2
  rw [hseq2, behind_self, if_pos (by decide)]
  exact ⟨_, rfl⟩

end Device

/-- VC5 of a team that has a link is common. -/
theorem vc5_common {d : Device} {y : Yard} {t : Fin 64} {neg : Bool} (h : d.teamLink y t neg = true) (b : Bool) :
    (b && decide ((d.team y t).vc = 5) && !(d.ports[d.teamPort y t neg]).has 0) = false := by
  obtain ⟨-, h5⟩ := Bool.and_eq_true_iff.mp h
  rw [Bool.and_eq_false_iff]
  rcases Bool.or_eq_true_iff.mp h5 with hne | hhas
  · refine .inl (Bool.and_eq_false_iff.mpr (.inr (decide_eq_false (of_decide_eq_true hne))))
  · exact .inr (by rw [hhas]; rfl)

section
variable {s : State} {y : Yard} {t : Fin 64} {h : FlitHeader} (hh : s.hearsTeam y t h)
include hh

/-- The device once the flit has left its buffer. -/
theorem receiveTeam_heard {ending : Bool} (hst : (s.dev.team y t).state = .active ∨ ending = true ∧ (s.dev.team y t).state = .broken)
    (f : Device → Device) : s.dev.receiveTeam y t h ending f =
      f (s.dev.modPort (s.dev.teamPort y t true) (heardBy (s.dev.team y t).vc)) := by
  obtain ⟨⟨ht, hseq, hack, hcc, hg⟩, hlink, hset, -⟩ := hh
  obtain ⟨hl, -⟩ := Bool.and_eq_true_iff.mp hlink
  unfold Device.receiveTeam
  extract_lets m p rule
  have hrule : rule = none := by
    dsimp only [rule, m, p]
    rw [hl, hset, if_neg (by decide)]
    rw [if_neg (by rw [vc5_common hlink]; decide)]
    rw [if_neg]
    rcases hst with ha | ⟨he, hb⟩
    · rw [ha]
      simp
    · rw [hb, he]
      decide
  rw [hrule, show m.setUp = true from hset, if_pos rfl]
  refine (s.dev.receiveFlit_expected p h m.vc _ ht hseq hack hcc hg).trans (if_pos ?_)
  rcases hst with ha | ⟨-, hb⟩
  · exact Bool.or_eq_true_iff.mpr (.inl (decide_eq_true ha))
  · exact Bool.or_eq_true_iff.mpr (.inr (decide_eq_true hb))

/-- A flit of an operation for a team that is not ACTIVE makes the partner HOSTILE (R381). -/
theorem receiveTeam_fences (hst : (s.dev.team y t).state ≠ .active) (f : Device → Device) :
    ∃ e : Device, s.dev.receiveTeam y t h false f = e.hostile (s.dev.teamPort y t true) 5 := by
  obtain ⟨⟨ht, hseq, hack, hcc, -⟩, hlink, -, -, -⟩ := hh
  obtain ⟨hl, -⟩ := Bool.and_eq_true_iff.mp hlink
  unfold Device.receiveTeam
  extract_lets m p rule
  have hrule : rule = some 5 := by
    dsimp only [rule, m, p]
    rw [hl, if_neg (by decide), if_neg (by rw [vc5_common hlink]; decide), if_pos]
    rw [decide_eq_true hst]
    rfl
  rw [hrule]
  exact s.dev.receiveFlit_barred p h _ 5 _ ht hseq hack hcc

omit hh in
theorem heard_only (p : PortId) (v : Nat) : Device.TeamOnly y t s.dev (s.dev.modPort p (heardBy v)) :=
  .modPort _ _ _ (kept_heardBy _ _)

end

end Sys2Proof.Machine
end

section
/-! O35: notices, reclamation and the end of an operation (R396, R400, R407, R410). -/

namespace Sys2Proof.Machine

namespace Device

/-- e is d with its drovers, its ports and its clock. -/
def Beside (d e : Device) : Prop := e.drovers = d.drovers ∧ e.ports = d.ports ∧ e.now = d.now

namespace Beside

variable {d e f : Device} {y : Yard} {t : Fin 64}

theorem refl (d : Device) : Beside d d := ⟨rfl, rfl, rfl⟩

theorem trans (h : Beside d e) (k : Beside e f) : Beside d f := ⟨k.1.trans h.1, k.2.1.trans h.2.1, k.2.2.trans h.2.2⟩

theorem teamOnly (h : Beside d e) : TeamOnly y t d e := .of_beside h.1 h.2.1 h.2.2

theorem team (h : Beside d e) (y : Yard) (t : Fin 64) : e.team y t = d.team y t := team_of_drovers y h.1 t

end Beside

theorem Quiet.beside {d e : Device} (h : Quiet d e) : Beside d e := by
  rw [h]
  exact .refl d

theorem Accessed.beside {d e : Device} (h : Accessed d e) : Beside d e := by
  rw [h]
  exact .refl d

section
variable (d : Device)

theorem beside_post (st : StallId) (k : Fin 8) (src : BitVec 9) (ws : List Nat) : Beside d (d.post st k src ws) := by
  obtain ⟨n, b, h⟩ := d.post_any st k src ws
  rw [h]
  exact .refl d

theorem beside_reclaim (cause : Fin 5) (c : Code) (p : Page) (k n : Nat) : Beside d (d.reclaim cause c p k n) := by
  obtain ⟨x, hx, he⟩ := d.reclaim_only cause c p k n
  rw [hx, he]
  exact .refl d

theorem beside_releaseNotices (st : StallId) (m : Fin 8) (n : Nat) (cause : Fin 5) (c : Code) :
    Beside d (d.releaseNotices st m n cause c) :=
  Beside.trans (e := d.modMbx st m fun x => { x with inflight := x.inflight - n, free := x.free + n }) ⟨rfl, rfl, rfl⟩
    (beside_reclaim _ _ _ _ _ _)

theorem beside_readRange (a n : Nat) (b : Bool) : Beside d (d.readRange a n b).1 := (d.accessed_readRange a n b).beside

theorem beside_droveNotice (y : Yard) (j : DroveJob) (status cause : Code) (rank : BitVec 4) (k : Nat)
    (accept promise : Option Frame) (bytes : Nat) : Beside d (d.droveNotice y j status cause rank k accept promise bytes) :=
  d.beside_post _ _ _ _

theorem beside_engModify (st : StallId) (sl : Slot) (a n : Nat) (f : List Byte → List Byte) : Beside d (d.engModify st sl a n f) := by
  unfold engModify
  split
  next e bs bad he =>
    have hr := d.beside_readRange (d.slotAt st sl a) n false
    rw [he] at hr
    refine List.foldlRecOn (motive := Beside d) _ _ hr fun x hx i _ => ?_
    extract_lets w
    split
    · exact hx
    · exact hx.trans (accessed_engWrite x st _ _ _).beside

end

section
variable (d : Device) (y : Yard) (t : Fin 64)

/-! ### Reclamation -/

/-- An operation that holds nothing more of sidings and notice slots. -/
def reclaimedOp (o : TeamOp) : TeamOp := { o with chunks := o.posted, job := { o.job with reserved := 0 } }

theorem reclaimOp_beside (c : Code) {o : TeamOp} (h : (d.team y t).op = some o) :
    ∃ e, d.reclaimOp y t c = e.modOp y t reclaimedOp ∧ Beside d e := by
  unfold reclaimOp
  split
  · next hn => exact absurd (h.symm.trans hn) (Option.some_ne_none o)
  · next o' =>
    extract_lets st left e f g
    have he : Beside d e := by
      dsimp only [e]
      split
      · exact Beside.trans (e := d.setSiding _ _ _ _) ⟨rfl, rfl, rfl⟩ (beside_reclaim _ _ _ _ _ _)
      · exact .refl d
    have hf : Beside e f := by
      dsimp only [f]
      split
      · exact e.beside_reclaim _ _ _ _ _
      · exact .refl e
    have hg : Beside f g := by
      dsimp only [g]
      split
      · exact .refl f
      · exact f.beside_releaseNotices _ _ _ _ _
    exact ⟨g, rfl, (he.trans hf).trans hg⟩

theorem team_modOp_some (f : TeamOp → TeamOp) {o : TeamOp} (h : (d.team y t).op = some o) :
    (d.modOp y t f).team y t = { d.team y t with op := some (f o) } := by
  rw [team_modOp, h]
  rfl

theorem reclaimOp_spec (c : Code) {o : TeamOp} (h : (d.team y t).op = some o) :
    TeamOnly y t d (d.reclaimOp y t c) ∧ (d.reclaimOp y t c).team y t = { d.team y t with op := some (reclaimedOp o) } := by
  obtain ⟨e, he, hb⟩ := d.reclaimOp_beside y t c h
  rw [he]
  refine ⟨hb.teamOnly.trans (.modOp e _), ?_⟩
  rw [e.team_modOp_some y t _ (by rw [hb.team]; exact h), hb.team]

/-- An operation leaves its team. -/
theorem closeOp_spec (c : Code) : TeamOnly y t d (d.closeOp y t c) ∧ ((d.closeOp y t c).team y t).op = none ∧
    ((d.closeOp y t c).team y t).state = (d.team y t).state := by
  unfold closeOp
  cases h : (d.team y t).op with
  | none => exact ⟨.refl y t d, h, rfl⟩
  | some o =>
    obtain ⟨h1, h2⟩ := d.reclaimOp_spec y t c h
    rw [if_neg (by simp)]
    dsimp only
    rw [team_modTeam_same, h2]
    exact ⟨h1.trans (.modTeam _ _ rfl), rfl, rfl⟩

/-- An abort of the team is answered. -/
theorem abortAnswer_only (c : Code) : TeamOnly y t d (d.abortAnswer y t c) :=
  ((TeamOnly.modDrover d _ rfl).trans (.modTeam _ _ rfl)).trans (quiet_eventCode _ _ _ _).beside.teamOnly

/-- The answer to an abort that waits for the end of the operation. -/
theorem abortSettled_spec (b : Bool) (c : Code) : ∃ ab, TeamOnly y t d (if b then d.abortAnswer y t c else d) ∧
    (if b then d.abortAnswer y t c else d).team y t = { d.team y t with abortPending := ab } := by
  cases b with
  | false => exact ⟨_, .refl y t d, rfl⟩
  | true => exact ⟨false, d.abortAnswer_only y t c, (d.abortAnswer_spec y t c).2⟩

end

end Device

end Sys2Proof.Machine
end

section
/-! O35: a member reaches the single status of its operation (R400, R407). -/

namespace Sys2Proof.Machine

namespace Device

section
variable (d : Device) (y : Yard) (t : Fin 64)

/-- An operation that has reported its status. -/
def reportedOp (o : TeamOp) : TeamOp := { o with committed := true, job := { o.job with reserved := o.job.reserved - 1 } }

/-- A member reports its status, and an abort that waits for it is answered. -/
theorem endOp_reports (status cause : Code) (rank : BitVec 4) (k : Nat) {o : TeamOp} (ho : (d.team y t).op = some o) :
    ∃ e ab o', TeamOnly y t d e ∧ e.team y t = { d.team y t with op := some o', abortPending := ab } ∧
      (o.live = true → o' = reportedOp o) ∧
      ∀ close, d.endOp y t status cause rank k close = if close = true then e.closeOp y t status
        else if (!o.go || decide (status = Status.aborted) || decide (status = Status.memberFault)) = true then e.reclaimOp y t status
        else e := by
  unfold endOp
  split
  · next hn => exact absurd (ho.symm.trans hn) (Option.some_ne_none o)
  next o1 ho1 =>
  obtain rfl : o = o1 := Option.some.inj (ho.symm.trans ho1)
  extract_lets m accept d1 d2 x e
  have hnotice : Beside d d1 := d.beside_droveNotice _ _ _ _ _ _ _ _ _
  have hx : ∃ o', TeamOnly y t d x ∧ x.team y t = { d.team y t with op := some o' } ∧ (o.live = true → o' = reportedOp o) := by
    dsimp only [x]
    split
    next hl =>
      have hb : Beside d2 (d2.bump (Page.drover y) (if Status.completes status then 0x138 else 0x13C) 1) := (quiet_bump _ _ _ _).beside
      refine ⟨reportedOp o, (hnotice.teamOnly.trans (.modOp d1 _)).trans hb.teamOnly, ?_, fun _ => rfl⟩
      rw [hb.team]
      dsimp only [d2]
      rw [d1.team_modOp_some y t _ (by rw [hnotice.team]; exact ho), hnotice.team]
      rfl
    next hl => exact ⟨o, .refl y t d, by rw [← ho], fun h => absurd h hl⟩
  obtain ⟨o', hx1, hx2, hx3⟩ := hx
  obtain ⟨ab, he1, he2⟩ := x.abortSettled_spec y t (x.team y t).abortPending
    (if status = Status.aborted then Status.aborted else Status.abortTooLate)
  refine ⟨e, ab, o', hx1.trans he1, ?_, hx3, fun close => ?_⟩
  · refine he2.trans ?_
    rw [hx2]
  · simp only [Bool.or_eq_true, decide_eq_true_eq, or_assoc]

/-- A member that closes its operation with a status. -/
theorem endOp_closes (status cause : Code) (rank : BitVec 4) (k : Nat) : TeamOnly y t d (d.endOp y t status cause rank k true) ∧
    ((d.endOp y t status cause rank k true).team y t).op = none ∧
    ((d.endOp y t status cause rank k true).team y t).state = (d.team y t).state := by
  cases ho : (d.team y t).op with
  | none =>
    have h : d.endOp y t status cause rank k true = d := by
      unfold endOp
      rw [ho]
    rw [h]
    exact ⟨.refl y t d, ho, rfl⟩
  | some o =>
    obtain ⟨e, ab, o', h1, h2, -, h3⟩ := d.endOp_reports y t status cause rank k ho
    obtain ⟨k1, k2, k3⟩ := e.closeOp_spec y t status
    rw [h3, if_pos rfl]
    exact ⟨h1.trans k1, k2, k3.trans (by rw [h2])⟩

/-- An operation that has reported, with what its status leaves it of chunks. -/
def endedOp (o : TeamOp) (r ch : Nat) : TeamOp := { o with committed := true, chunks := ch, job := { o.job with reserved := r } }

/-- A member that reports a status and keeps its operation. -/
theorem endOp_keeps (status cause : Code) (rank : BitVec 4) (k : Nat) {o : TeamOp} (ho : (d.team y t).op = some o) (hl : o.live = true) :
    TeamOnly y t d (d.endOp y t status cause rank k false) ∧ ∃ r ch ab,
      (d.endOp y t status cause rank k false).team y t = { d.team y t with op := some (endedOp o r ch), abortPending := ab } ∧
      (o.go = true → status ≠ Status.aborted → status ≠ Status.memberFault → ch = o.chunks) := by
  obtain ⟨e, ab, o', h1, h2, h3, h4⟩ := d.endOp_reports y t status cause rank k ho
  obtain rfl := h3 hl
  rw [h4, if_neg (by decide)]
  split
  next hs =>
    obtain ⟨k1, k2⟩ := e.reclaimOp_spec y t status (o := reportedOp o) (by rw [h2])
    refine ⟨h1.trans k1, 0, o.posted, ab, ?_, fun hg ha hm => ?_⟩
    · rw [k2, h2]
      rfl
    · rw [hg, decide_eq_false ha, decide_eq_false hm] at hs
      exact absurd hs (by decide)
  next => exact ⟨h1, o.job.reserved - 1, o.chunks, ab, h2, fun _ _ _ => rfl⟩

end

end Device

end Sys2Proof.Machine
end

section
/-! O35: the receipt step, META of the member's own source, and what may close an operation (R295, R399, R400). -/

namespace Sys2Proof.Machine

/-- An operation after its receipt step. -/
def settledOp (o : TeamOp) (r : Bool) (w : Code) : TeamOp := { o with receiptDone := r, worst := w }

namespace Device

/-- e is d after a step of team t's operation that leaves it m. -/
def Leaves (y : Yard) (t : Fin 64) (d e : Device) (m : Team) : Prop := TeamOnly y t d e ∧ e.team y t = m

namespace Leaves

variable {y : Yard} {t : Fin 64} {d e f : Device} {m n : Team}

theorem refl (y : Yard) (t : Fin 64) (d : Device) : Leaves y t d d (d.team y t) := ⟨.refl y t d, rfl⟩

theorem beside (h : Leaves y t d e m) (k : Beside e f) : Leaves y t d f m := ⟨h.1.trans k.teamOnly, (k.team y t).trans h.2⟩

theorem trans (h : Leaves y t d e m) (k : Leaves y t e f n) : Leaves y t d f n := ⟨h.1.trans k.1, k.2⟩

/-- The operation of the team changes. -/
theorem modOp (h : Leaves y t d e m) {o : TeamOp} (ho : m.op = some o) (f : TeamOp → TeamOp) :
    Leaves y t d (e.modOp y t f) { m with op := some (f o) } := by
  refine ⟨h.1.trans (.modOp e f), ?_⟩
  rw [e.team_modOp_some y t f (by rw [h.2]; exact ho), h.2]

/-- The team changes, but for its record. -/
theorem modTeam (h : Leaves y t d e m) (g : Team → Team) (hg : (g m).record = m.record) : Leaves y t d (e.modTeam y t g) (g m) := by
  refine ⟨h.1.trans (.modTeam e g (by rw [h.2]; exact hg)), ?_⟩
  rw [team_modTeam_same, h.2]

/-- A control flit goes out. -/
theorem control (h : Leaves y t d e m) (booked : Bool) (kind : Byte) (rest : List Byte) (hlink : d.teamLink y t false = true)
    (hv : (d.team y t).vc ≤ 5) : Leaves y t d (e.teamControl y t booked (kind :: rest)) m ∧
      (e.teamControl y t booked (kind :: rest)).Passes (d.teamPort y t false) (d.team y t).vc t kind := by
  obtain ⟨h1, h2, h3⟩ := e.teamControl_spec y t booked kind rest (by rw [h.1.teamLink]; exact hlink) (by rw [h.1.vc]; exact hv)
  rw [h.1.teamPort, h.1.vc] at h3
  exact ⟨⟨h.1.trans h1, h2.trans h.2⟩, h3⟩

end Leaves

section
variable (d : Device) (y : Yard) (t : Fin 64)

theorem beside_putReceipt (st : StallId) (i v : Nat) :
    Beside d (d.modStall st fun s => { s with receipts := vset s.receipts i (BitVec.ofNat 64 v) }) := ⟨rfl, rfl, rfl⟩

theorem beside_named (p q : Page) (o : Nat) (v : W32) (c : Code) : Beside d ((d.setPreg p o v).eventCode q 3 c) :=
  Beside.trans (quiet_setPreg d p o v).beside (quiet_eventCode _ _ _ _).beside

theorem receiptStep_spec {o : TeamOp} (ho : (d.team y t).op = some o) :
    ∃ w, Leaves y t d (d.receiptStep y t) { d.team y t with op := some (settledOp o true w) } := by
  have h1 : Leaves y t d (d.modOp y t fun o => { o with receiptDone := true })
      { d.team y t with op := some (settledOp o true o.worst) } := (Leaves.refl y t d).modOp ho _
  unfold receiptStep
  split
  · next hn => exact absurd (ho.symm.trans hn) (Option.some_ne_none o)
  next o1 ho1 =>
  obtain rfl : o = o1 := Option.some.inj (ho.symm.trans ho1)
  extract_lets st x i e put d1 rcpt epoch d2 d3 off layer d4
  have hput (e : Device) (v : Nat) : Beside e (put e v) := e.beside_putReceipt st i v
  split
  next => exact ⟨_, h1⟩
  split
  next =>
    split
    next => exact ⟨_, h1.beside (hput _ _)⟩
    next => exact ⟨_, h1.beside (hput _ _)⟩
  split
  next => exact ⟨_, h1.beside (hput _ _)⟩
  next =>
    have h3 : Beside d2 d3 := beside_engModify _ _ _ _ _ _
    have h4 : Beside d3 d4 := by
      dsimp only [d4]
      split
      · exact .refl d3
      · exact d3.beside_named _ _ _ _ _
    exact ⟨_, ((((h1.beside (hput d1 _)).beside h3).beside h4).modOp rfl _)⟩

/-- A leg of no bytes lands at once. -/
theorem settle_spec {o : TeamOp} (ho : (d.team y t).op = some o) :
    ∃ r w, Leaves y t d (d.settle y t) { d.team y t with op := some (settledOp o r w) } := by
  have hsame : Leaves y t d d { d.team y t with op := some (settledOp o o.receiptDone o.worst) } := by
    have h : settledOp o o.receiptDone o.worst = o := rfl
    rw [h, ← ho]
    exact .refl y t d
  unfold settle
  rw [ho]
  dsimp only
  split
  · obtain ⟨w, hw⟩ := d.receiptStep_spec y t ho
    exact ⟨true, w, hw⟩
  · exact ⟨_, _, hsame⟩

end

end Device

end Sys2Proof.Machine
end

section
/-! O35: META of the member's own source (R295, R399). -/

namespace Sys2Proof.Machine

/-- An operation whose source has been read for META, and that may keep META of its own. -/
def metaOp (o : TeamOp) (f : Option SourceRead) (mi : Option (BitVec 12 × BitVec 16 × W32)) : TeamOp := { o with first := f, metaIn := mi }

namespace Device

section
variable (d : Device) (y : Yard) (t : Fin 64)

theorem Beside.of_readRange {e : Device} {a n : Nat} {b : Bool} {bs : List Byte} {bad : List (Nat × MemRes)}
    (h : d.readRange a n b = (e, bs, bad)) : Beside d e := by
  have k := d.beside_readRange a n b
  rw [h] at k
  exact k

theorem Beside.of_fetchSource {e : Device} {o : TeamOp} {a n : Nat} {r : SourceRead} (h : d.fetchSource o a n = (e, r)) :
    Beside d e := by
  unfold fetchSource at h
  extract_lets a' at h
  split at h
  next d1 bs bad h1 =>
  obtain ⟨rfl, -⟩ := Prod.mk.inj h
  exact Beside.of_readRange d h1

/-- META of the member's own source goes out, or stays where the leg ends here. -/
theorem sendOwnMeta_spec (o : TeamOp) {o' : TeamOp} (ho : (d.team y t).op = some o') (hlink : d.teamLink y t false = true)
    (hv : (d.team y t).vc ≤ 5) :
    ∃ f mi, Leaves y t d (d.sendOwnMeta y t o) { d.team y t with op := some (metaOp o' f mi) } := by
  have hsame : Leaves y t d d { d.team y t with op := some (metaOp o' o'.first o'.metaIn) } := by
    have h : metaOp o' o'.first o'.metaIn = o' := rfl
    rw [h, ← ho]
    exact .refl y t d
  unfold sendOwnMeta
  extract_lets m kind
  split
  next => exact ⟨_, _, hsame⟩
  next =>
  split
  next d1 w h1 =>
  have hread : ∃ f, Leaves y t d d1 { d.team y t with op := some (metaOp o' f o'.metaIn) } := by
    split at h1
    next =>
      split at h1
      next d2 bs bad h2 =>
      split at h1
      next d3 r h3 =>
      obtain ⟨rfl, -⟩ := Prod.mk.inj h1
      refine ⟨some r, Leaves.modOp (o := o') ?_ ho _⟩
      exact ((Leaves.refl y t d).beside (Beside.of_readRange d h2)).beside (Beside.of_fetchSource d2 h3)
    next =>
      obtain ⟨rfl, -⟩ := Prod.mk.inj h1
      exact ⟨_, hsame⟩
  obtain ⟨f, hf⟩ := hread
  extract_lets e
  split
  next layer shard epoch h2 =>
  split
  next => exact ⟨f, some (layer, shard, epoch), hf.modOp rfl _⟩
  next => exact ⟨f, _, (hf.control true 3 _ hlink hv).1⟩

end

end Device

end Sys2Proof.Machine
end

section
/-! O35: COLLECT at a member (R394). -/

namespace Sys2Proof.Machine

theorem taking_spec {m : Team} {o : TeamOp} (h : m.taking = some o) :
    m.op = some o ∧ (decide (m.through = 0) || (Team.sendPair o.desc).isSome) = true :=
  Option.filter_eq_some_iff.mp h

namespace Device

section
variable {y : Yard} {t : Fin 64} {b d : Device} {m : Team} (h : Leaves y t b d m)
include h

/-- A flit that the team does not expect. -/
theorem dropControl_leaves : Leaves y t b (d.dropControl y) m := h.beside (quiet_bump _ _ _ _).beside

/-- A COLLECT flit waits for a decision. -/
theorem holdCollect_leaves (c : CollectFlit) :
    Leaves y t b (d.modTeam y t fun m => { m with collect := m.collect ++ [c] }) { m with collect := m.collect ++ [c] } :=
  h.modTeam _ rfl

section
variable (hlink : b.teamLink y t false = true) (hv : (b.team y t).vc ≤ 5)
include hlink hv

theorem sendCollect_leaves (c : CollectFlit) : Leaves y t b (d.sendCollect y t c) m ∧
    (d.sendCollect y t c).Passes (b.teamPort y t false) (b.team y t).vc t 1 := h.control true 1 _ hlink hv

/-- A decided member passes COLLECT on. -/
theorem passCollect_leaves {o : TeamOp} (ho : m.op = some o) (c : CollectFlit) :
    Leaves y t b (d.passCollect y t c) { m with op := some { o with started := true }, collect := m.collect.erase c } ∧
    (d.passCollect y t c).Passes (b.teamPort y t false) (b.team y t).vc t 1 := by
  unfold passCollect
  rw [h.2, ho]
  dsimp only
  obtain ⟨h1, h2⟩ := sendCollect_leaves h hlink hv (joinCollect m o c)
  generalize d.sendCollect y t (joinCollect m o c) = e at h1 h2
  exact ⟨(h1.modOp ho _).modTeam (fun m => { m with collect := m.collect.erase c }) rfl,
    (h2.of_kept (.modOp e _)).of_kept (.modTeam _ _ rfl)⟩

/-- COLLECT of a SEND between two other members. -/
theorem takeCollect_bystander {c : CollectFlit} (hp : takesPart m c = false) :
    Leaves y t b (d.takeCollect y t c) { m with through := m.through + 1 } ∧
    (d.takeCollect y t c).Passes (b.teamPort y t false) (b.team y t).vc t 1 := by
  unfold takeCollect
  rw [h.2]
  dsimp only
  rw [hp]
  exact sendCollect_leaves (h.modTeam (fun m => { m with through := m.through + 1 }) rfl) hlink hv c

/-- COLLECT at a member that has decided on its operation. -/
theorem takeCollect_joined {c : CollectFlit} {o : TeamOp} (hp : takesPart m c = true) (ho : m.op = some o)
    (hr : m.rank ≠ Team.starterOf o.desc) (hs : o.started = false) (ha : o.asks c = true) :
    Leaves y t b (d.takeCollect y t c) { m with op := some { o with started := true }, collect := m.collect.erase c } ∧
    (d.takeCollect y t c).Passes (b.teamPort y t false) (b.team y t).vc t 1 := by
  unfold takeCollect
  rw [h.2]
  dsimp only
  rw [hp, ho]
  dsimp only
  rw [if_neg (by decide), if_neg hr, hs, ha, if_pos (by decide)]
  exact passCollect_leaves h hlink hv ho c

end

/-- COLLECT back at its starter. -/
theorem takeCollect_returned {c : CollectFlit} {o : TeamOp} (hp : takesPart m c = true) (ho : m.op = some o)
    (hr : m.rank = Team.starterOf o.desc) (hown : o.owns c = true) (ha : o.accept = none) :
    Leaves y t b (d.takeCollect y t c) { m with op := some { o with
      accept := some d.now, promise := d.now + BitVec.ofNat 48 (m.bound (o.legs m)), returned := some c } } := by
  unfold takeCollect
  rw [h.2]
  dsimp only
  rw [hp, ho]
  dsimp only
  rw [if_neg (by decide), if_pos hr, hown, ha, if_neg (by decide), if_neg (by decide)]
  exact h.modOp ho _

/-- COLLECT at a member that is not to pass it on yet. -/
theorem takeCollect_waits {c : CollectFlit} (hp : takesPart m c = true)
    (hw : ∀ o, m.op = some o → if m.rank = Team.starterOf o.desc then o.owns c = false else o.started = true ∨ o.asks c = false) :
    Leaves y t b (d.takeCollect y t c) { m with collect := m.collect ++ [c] } := by
  have hold := holdCollect_leaves h c
  unfold takeCollect
  rw [h.2]
  dsimp only
  rw [hp, if_neg (by decide)]
  split
  next o ho =>
    specialize hw o ho
    split at hw
    next hr =>
      rw [if_pos hr, hw, if_pos (by decide)]
      exact hold
    next hr =>
      rw [if_neg hr, if_neg]
      · exact hold
      · rcases hw with hs | ha
        · rw [hs]
          exact Bool.false_ne_true
        · rw [ha, Bool.and_false]
          exact Bool.false_ne_true
  next => exact hold

end

end Device

end Sys2Proof.Machine
end

section
/-! O35: flits of an operation that go by a device (R381, R394), and when an operation closes (R401, R411). -/

namespace Sys2Proof.Machine

namespace Device

section
variable {y : Yard} {t : Fin 64} {b d : Device} {m : Team} (h : Leaves y t b d m)
include h

/-! ### Flits of an operation in which this device takes no part -/

theorem passBy_dropped (h0 : m.through = 0) (ends : Bool) (f : Device → Device) : Leaves y t b (d.passBy y t ends f) m := by
  unfold passBy
  rw [h.2, if_pos h0]
  exact dropControl_leaves h

theorem passBy_goesOn (hlink : b.teamLink y t false = true) (hv : (b.team y t).vc ≤ 5) (h0 : 0 < m.through) (ends : Bool)
    {f : Device → Device} (booked : Device → Bool) (kind : Byte) (rest : List Byte)
    (hf : ∀ d, f d = d.teamControl y t (booked d) (kind :: rest)) :
    Leaves y t b (d.passBy y t ends f) { m with through := if ends then m.through - 1 else m.through } ∧
    (d.passBy y t ends f).Passes (b.teamPort y t false) (b.team y t).vc t kind := by
  unfold passBy
  rw [h.2, if_neg (by omega), hf]
  cases ends with
  | false => exact h.control _ kind rest hlink hv
  | true => exact (h.modTeam (fun m => { m with through := m.through - 1 }) rfl).control _ kind rest hlink hv

theorem takeVerdict_passed (code : Code) (r : BitVec 4)
    (hp : ∀ o, m.taking = some o → m.rank ≠ Team.starterOf o.desc ∧ (o.started = false ∨ o.go = true ∨ o.back = true)) :
    d.takeVerdict y t code r = d.passBy y t (decide (code ≠ Status.done)) (·.sendVerdict y t code r) := by
  unfold takeVerdict
  rw [h.2]
  dsimp only
  split
  next => rfl
  next o ho =>
    obtain ⟨hr, hs⟩ := hp o ho
    rw [if_neg hr, if_neg]
    simp only [Bool.and_eq_true, Bool.not_eq_true', not_and, Bool.not_eq_false]
    intro ⟨h1, h2⟩
    rcases hs with hs | hs | hs
    · exact absurd (h1.symm.trans hs) (by decide)
    · exact absurd (h2.symm.trans hs) (by decide)
    · exact hs

omit h in
/-- The operation that takes a team's flits does not run, where none does. -/
theorem taking_idle (hg : m.op.any (·.go) = false) {o : TeamOp} (ho : m.taking = some o) : o.go = false := by
  rw [(taking_spec ho).1] at hg
  exact hg

theorem takeMeta_passed (src : BitVec 4) (l : BitVec 12) (sh : BitVec 16) (e : W32) (hg : m.op.any (·.go) = false) :
    d.takeMeta y t src l sh e = d.passBy y t false (·.sendMeta y t src l sh e) := by
  unfold takeMeta
  rw [h.2]
  dsimp only
  split
  next => rfl
  next o ho => rw [taking_idle hg ho, if_pos (by decide)]

theorem settle_idle (hg : m.op.any (·.go) = false) : d.settle y t = d := by
  unfold settle
  rw [h.2]
  split
  next o ho =>
    rw [ho] at hg
    rw [show o.go = false from hg]
    rfl
  next => rfl

theorem takeComplete_passed (c : CompleteFlit) (hg : m.op.any (·.go) = false) :
    d.takeComplete y t c = d.passBy y t false (·.sendComplete y t c) := by
  unfold takeComplete
  rw [settle_idle h hg]
  dsimp only
  rw [h.2]
  split
  next => rfl
  next o ho => rw [taking_idle hg ho, if_pos (by rfl)]

theorem takeCommit_passed (code : Code) (k : Nat) (hp : ∀ o, m.taking = some o →
    o.go = false ∨ m.rank ≠ Team.starterOf o.desc ∧ o.completeSent = false ∧ code ≠ Status.aborted) :
    d.takeCommit y t code k = d.passBy y t true (·.sendCommit y t code k) := by
  unfold takeCommit
  rw [h.2]
  dsimp only
  split
  next => rfl
  next o ho =>
    rcases hp o ho with hg | ⟨hr, hc, ha⟩
    · rw [hg]
      split <;> rfl
    · rw [if_neg hr, hc, decide_eq_false ha, if_neg]
      simp

/-! ### The end of an operation -/

theorem tryClose_live {o : TeamOp} (ho : m.op = some o) (hl : o.live = true) : d.tryClose y t = d := by
  unfold tryClose
  rw [h.2]
  dsimp only
  rw [ho]
  dsimp only
  rw [hl]
  rfl

theorem tryClose_closes {o : TeamOp} (ho : m.op = some o) (hl : o.live = false) (hr : m.rank ≠ Team.starterOf o.desc)
    (hs : o.stopped = true ∨ o.complete m = true) (hf : o.refused = none) :
    TeamOnly y t b (d.tryClose y t) ∧ ((d.tryClose y t).team y t).op = none := by
  unfold tryClose
  rw [h.2]
  dsimp only
  rw [ho]
  dsimp only
  rw [if_pos]
  · obtain ⟨h1, h2, -⟩ := d.closeOp_spec y t o.worst
    exact ⟨h.1.trans h1, h2⟩
  · simp [hl, hr, hf, hs]

theorem tryClose_runs {o : TeamOp} (ho : m.op = some o) (hs : o.stopped = false) (hc : o.complete m = false) :
    d.tryClose y t = d := by
  unfold tryClose
  rw [h.2]
  dsimp only
  rw [ho]
  dsimp only
  rw [hs, hc, if_neg]
  simp

end

end Device

end Sys2Proof.Machine
end

section
/-! O35: VERDICT at a member and at the starter (R396, R399). -/

namespace Sys2Proof.Machine

/-- An operation that runs from frame a to a promise. -/
def ranOp (o : TeamOp) (a p : Frame) : TeamOp := { o with accept := some a, promise := p, go := true }

/-- A team whose operation runs. -/
def Team.runs (m : Team) (o : TeamOp) : Team := { m with phase := .handshake, op := some o }

/-- An operation that a VERDICT has ended. -/
def refusedOp (o : TeamOp) (code : Code) (r ch : Nat) (back : Bool) : TeamOp :=
  { Device.endedOp o r ch with worst := o.refused.getD code, back := back }

namespace Device

section
variable {y : Yard} {t : Fin 64} {b d : Device} {m : Team} (h : Leaves y t b d m)
include h

/-- A member takes part in an operation that runs. -/
theorem applyVerdict_runs {o : TeamOp} (ho : m.op = some o) (r : BitVec 4) (hlink : b.teamLink y t false = true)
    (hv : (b.team y t).vc ≤ 5) {a : Frame} (ha : o.accept.getD (d.now - 1) = a) :
    ∃ f mi rc w, Leaves y t d (d.applyVerdict y t Status.done r)
      (m.runs (settledOp (metaOp (ranOp o a (a + BitVec.ofNat 48 (m.bound (o.legs m)))) f mi) rc w)) := by
  have hd : Leaves y t d d m := ⟨.refl y t d, h.2⟩
  unfold applyVerdict
  rw [h.2]
  dsimp only
  rw [ho]
  dsimp only
  rw [if_pos rfl, ha]
  have h1 := (hd.modOp ho fun o => { o with accept := some a, promise := a + BitVec.ofNat 48 (m.bound (o.legs m)), go := true }).modTeam
    (fun m => { m with phase := .handshake }) rfl
  generalize ((d.modOp y t _).modTeam y t _) = e at h1
  have hle : e.teamLink y t false = true := by rw [h1.1.teamLink, h.1.teamLink]; exact hlink
  have hve : (e.team y t).vc ≤ 5 := by rw [h1.1.vc, h.1.vc]; exact hv
  obtain ⟨f, mi, h2⟩ := e.sendOwnMeta_spec y t o (congrArg Team.op h1.2) hle hve
  obtain ⟨rc, w, h3⟩ := (e.sendOwnMeta y t o).settle_spec y t (congrArg Team.op h2.2)
  rw [h2.2, h1.2] at h3
  exact ⟨f, mi, rc, w, (h1.trans h2).trans h3⟩

/-- A member takes part in an operation that does not run. -/
theorem applyVerdict_ends {o : TeamOp} (ho : m.op = some o) (hl : o.live = true) {code : Code} (hc : code ≠ Status.done) (r : BitVec 4) :
    ∃ rv ch ab, Leaves y t d (d.applyVerdict y t code r)
      { m with op := some (refusedOp o code rv ch (decide (m.rank ≠ Team.starterOf o.desc))), abortPending := ab } := by
  unfold applyVerdict
  rw [h.2]
  dsimp only
  rw [ho]
  dsimp only
  rw [if_neg hc]
  obtain ⟨h1, rv, ch, ab, h2, -⟩ := d.endOp_keeps y t code 0 r 0 (by rw [h.2]; exact ho) hl
  have h3 : Leaves y t d (d.endOp y t code 0 r 0 false) { m with op := some (endedOp o rv ch), abortPending := ab } := by
    refine ⟨h1, ?_⟩
    rw [h2, h.2]
  exact ⟨rv, ch, ab, h3.modOp rfl _⟩

section
variable (hlink : b.teamLink y t false = true) (hv : (b.team y t).vc ≤ 5)
include hlink hv

theorem sendVerdict_leaves (code : Code) (r : BitVec 4) : Leaves y t b (d.sendVerdict y t code r) m ∧
    (d.sendVerdict y t code r).Passes (b.teamPort y t false) (b.team y t).vc t 2 := h.control true 2 _ hlink hv

variable {o : TeamOp} (ht : m.taking = some o) (hl : o.live = true) (hr : m.rank ≠ Team.starterOf o.desc) (hs : o.started = true)
  (hg : o.go = false) (hb : o.back = false) (r : BitVec 4)
include ht hl hr hs hg hb

/-- The operation runs. -/
theorem takeVerdict_runs (ha : o.accept = none) :
    ∃ f mi rc w, Leaves y t b (d.takeVerdict y t Status.done r)
      (m.runs (settledOp (metaOp (ranOp o (b.now - 1) (b.now - 1 + BitVec.ofNat 48 (m.bound (o.legs m)))) f mi) rc w)) ∧
      (d.takeVerdict y t Status.done r).Passes (b.teamPort y t false) (b.team y t).vc t 2 := by
  have ho := (taking_spec ht).1
  obtain ⟨h1, h2⟩ := sendVerdict_leaves h hlink hv Status.done r
  unfold takeVerdict
  rw [h.2]
  dsimp only
  rw [ht]
  dsimp only
  rw [if_neg hr, hs, hg, hb, if_pos (by decide)]
  generalize d.sendVerdict y t Status.done r = e at h1 h2
  obtain ⟨f, mi, rc, w, h3⟩ := applyVerdict_runs h1 ho r hlink hv (a := b.now - 1) (by rw [ha, h1.1.now]; rfl)
  rw [tryClose_live h3 rfl hl]
  exact ⟨f, mi, rc, w, h1.trans h3, h2.of_kept h3.1⟩

/-- The operation does not run. -/
theorem takeVerdict_ends {code : Code} (hc : code ≠ Status.done) :
    TeamOnly y t b (d.takeVerdict y t code r) ∧ ((d.takeVerdict y t code r).team y t).op = none ∧
      (d.takeVerdict y t code r).Passes (b.teamPort y t false) (b.team y t).vc t 2 := by
  have ho := (taking_spec ht).1
  obtain ⟨h1, h2⟩ := sendVerdict_leaves h hlink hv code r
  unfold takeVerdict
  rw [h.2]
  dsimp only
  rw [ht]
  dsimp only
  rw [if_neg hr, hs, hg, hb, if_pos (by decide)]
  generalize d.sendVerdict y t code r = e at h1 h2
  obtain ⟨rv, ch, ab, h3⟩ := applyVerdict_ends h1 ho hl hc r
  have hf : o.refused = none := Option.isNone_iff_eq_none.mp (Bool.and_eq_true_iff.mp hl).1
  have hlive : (refusedOp o code rv ch (decide (m.rank ≠ Team.starterOf o.desc))).live = false := Bool.and_false _
  have hstop : (refusedOp o code rv ch (decide (m.rank ≠ Team.starterOf o.desc))).stopped = true := by
    unfold TeamOp.stopped
    rw [show (refusedOp o code rv ch (decide (m.rank ≠ Team.starterOf o.desc))).go = o.go from rfl, hg]
    rfl
  obtain ⟨h4, h5⟩ := tryClose_closes h3 rfl hlive hr (.inl hstop) hf
  exact ⟨h1.1.trans h4, h5, h2.of_kept h4⟩

end

/-- The starter sends VERDICT at the boundary that begins frame a + 1. -/
theorem verdictStep_runs (hlink : b.teamLink y t false = true) (hv : (b.team y t).vc ≤ 5) {o : TeamOp} {c : CollectFlit} {a : Frame}
    (ho : m.op = some o) (hc : o.returned = some c) (hr : m.rank = Team.starterOf o.desc) (hg : o.go = false)
    (hs : o.started = true) (hab : o.aborted = false) (ha : o.accept = some a) (hne : a ≠ d.now) (hca : c.aborted = false)
    (hcr : c.refused = false) (hcm : c.matched = true) :
    ∃ f mi rc w p, Leaves y t b (d.verdictStep y t)
      (m.runs { settledOp (metaOp (ranOp o a p) f mi) rc w with returned := none }) ∧
      (d.verdictStep y t).Passes (b.teamPort y t false) (b.team y t).vc t 2 := by
  have hverdict : verdictOf { c with aborted := c.aborted || o.aborted } = (Status.done, 0) := by
    unfold verdictOf
    simp only [hca, hab, hcr, hcm]
    rfl
  unfold verdictStep
  rw [h.2]
  dsimp only
  rw [ho]
  dsimp only
  rw [hc]
  dsimp only
  rw [hverdict, if_pos]
  · dsimp only
    obtain ⟨h1, h2⟩ := sendVerdict_leaves h hlink hv Status.done 0
    generalize d.sendVerdict y t Status.done 0 = e at h1 h2
    obtain ⟨f, mi, rc, w, h3⟩ := applyVerdict_runs h1 ho 0 hlink hv (a := a) (by rw [ha]; rfl)
    exact ⟨f, mi, rc, w, _, h1.trans (h3.modOp rfl _), (h2.of_kept h3.1).of_kept (.modOp _ _)⟩
  · rw [decide_eq_true hr, hg, hs, ha]
    exact decide_eq_true hne

end

end Device

end Sys2Proof.Machine
end

section
/-! O35: META, COMPLETE and COMMIT of a running operation (R399 to R401, R407). -/

namespace Sys2Proof.Machine

/-- An operation that a COMMIT has ended. -/
def committedOp (o : TeamOp) (r ch : Nat) (code : Code) (k : Nat) : TeamOp := { Device.endedOp o r ch with worst := code, k := k }

/-- An operation that holds a COMPLETE flit, or has sent it. -/
def heldOp (o : TeamOp) (h : Option CompleteFlit) (cs : Bool) : TeamOp := { o with held := h, completeSent := cs }

theorem taking_of_op {m : Team} {o : TeamOp} (ho : m.op = some o)
    (hb : (decide (m.through = 0) || (Team.sendPair o.desc).isSome) = true) : m.taking = some o := by
  unfold Team.taking
  rw [ho]
  exact Option.filter_eq_some_iff.mpr ⟨rfl, hb⟩

theorem live_refused {o : TeamOp} (hl : o.live = true) : o.refused = none :=
  Option.isNone_iff_eq_none.mp (Bool.and_eq_true_iff.mp hl).1

namespace Device

section
variable {y : Yard} {t : Fin 64} {b d : Device} {m : Team} (h : Leaves y t b d m)
include h

/-- META of the leg that ends here. -/
theorem takeMeta_keeps {o : TeamOp} (ht : m.taking = some o) (src : BitVec 4) (l : BitVec 12) (sh : BitVec 16) (e : W32)
    (hne : m.rank? ≠ some src.toNat) (hg : o.go = true) (hm : o.metaIn = none) (hr : ∃ g, o.receives m = some g ∧ g.src = src.toNat) :
    Leaves y t b (d.takeMeta y t src l sh e) { m with op := some { o with metaIn := some (l, sh, e) } } := by
  obtain ⟨g, hg1, hg2⟩ := hr
  unfold takeMeta
  rw [h.2]
  dsimp only
  rw [ht]
  dsimp only
  rw [if_neg (by rw [hg]; decide), if_neg hne, hg1, Option.any_some, if_pos (decide_eq_true hg2), if_neg (by rw [hm]; decide)]
  exact h.modOp (taking_spec ht).1 _

/-- A COMMIT takes effect. -/
theorem applyCommit_leaves {o : TeamOp} (ho : m.op = some o) (hl : o.live = true) (code cause : Code) (k : Nat) :
    ∃ r ch ab, Leaves y t b (d.applyCommit y t code cause k) { m with op := some (committedOp o r ch code k), abortPending := ab } ∧
      TeamOnly y t d (d.applyCommit y t code cause k) ∧
      (o.go = true → code ≠ Status.aborted → code ≠ Status.memberFault → ch = o.chunks) := by
  obtain ⟨h1, r, ch, ab, h2, h3⟩ := d.endOp_keeps y t code cause 0 k (by rw [h.2]; exact ho) hl
  have h4 : Leaves y t d (d.endOp y t code cause 0 k false) { m with op := some (endedOp o r ch), abortPending := ab } := by
    refine ⟨h1, ?_⟩
    rw [h2, h.2]
  have h5 := h4.modOp rfl fun o => { o with worst := code, k := k }
  exact ⟨r, ch, ab, h.trans h5, h5.1, h3⟩

/-- The receipt step may come before a flit. -/
theorem settle_leaves {o : TeamOp} (ho : m.op = some o) :
    ∃ r w, Leaves y t b (d.settle y t) { m with op := some (settledOp o r w) } := by
  obtain ⟨r, w, h1⟩ := d.settle_spec y t (by rw [h.2]; exact ho)
  rw [h.2] at h1
  exact ⟨r, w, h.trans h1⟩

section
variable (hlink : b.teamLink y t false = true) (hv : (b.team y t).vc ≤ 5)
include hlink hv

theorem sendComplete_leaves (c : CompleteFlit) : Leaves y t b (d.sendComplete y t c) m ∧
    (d.sendComplete y t c).Passes (b.teamPort y t false) (b.team y t).vc t 4 := h.control _ 4 _ hlink hv

theorem sendCommit_leaves (code : Code) (k : Nat) : Leaves y t b (d.sendCommit y t code k) m ∧
    (d.sendCommit y t code k).Passes (b.teamPort y t false) (b.team y t).vc t 5 := h.control _ 5 _ hlink hv

/-- A held COMPLETE flit goes on. -/
theorem releaseComplete_sends {o : TeamOp} {c : CompleteFlit} (ho : m.op = some o) (hc : o.held = some c)
    (hd : o.due d.now = true) : Leaves y t b (d.releaseComplete y t) { m with phase := .completing, op := some (heldOp o none true) } ∧
      (d.releaseComplete y t).Passes (b.teamPort y t false) (b.team y t).vc t 4 := by
  unfold releaseComplete
  rw [h.2]
  dsimp only
  rw [ho]
  dsimp only
  rw [hc]
  dsimp only
  rw [hd, Bool.or_true, if_pos rfl]
  obtain ⟨h1, h2⟩ := sendComplete_leaves h hlink hv (d.joinComplete m o c)
  generalize d.sendComplete y t (d.joinComplete m o c) = e at h1 h2
  exact ⟨(h1.modOp ho fun o => { o with held := none, completeSent := true }).modTeam (fun m => { m with phase := .completing }) rfl,
    (h2.of_kept (.modOp e _)).of_kept (.modTeam _ _ rfl)⟩

/-- A COMPLETE flit that a member may hold. -/
theorem releaseComplete_leaves {o : TeamOp} (ho : m.op = some o) :
    ∃ p f cs, Leaves y t b (d.releaseComplete y t) { m with phase := p, op := some (heldOp o f cs) } := by
  have hsame : Leaves y t b d { m with phase := m.phase, op := some (heldOp o o.held o.completeSent) } := by
    rw [show heldOp o o.held o.completeSent = o from rfl, ← ho]
    exact h
  unfold releaseComplete
  rw [h.2]
  dsimp only
  rw [ho]
  dsimp only
  split
  next c hc =>
    split
    next =>
      obtain ⟨h1, -⟩ := sendComplete_leaves h hlink hv (d.joinComplete m o c)
      generalize d.sendComplete y t (d.joinComplete m o c) = e at h1
      exact ⟨_, _, _, (h1.modOp ho fun o => { o with held := none, completeSent := true }).modTeam
        (fun m => { m with phase := .completing }) rfl⟩
    next => exact ⟨_, _, _, hsame⟩
  next => exact ⟨_, _, _, hsame⟩

variable {o : TeamOp} (ht : m.taking = some o) (hl : o.live = true) (hg : o.go = true)
include ht hl hg

/-- COMPLETE back at the starter. -/
theorem takeComplete_commits (c : CompleteFlit) (hr : m.rank = Team.starterOf o.desc) (hs : o.completeSent = true) :
    TeamOnly y t b (d.takeComplete y t c) ∧ (∃ o', ((d.takeComplete y t c).team y t).op = some o' ∧ o'.committed = true ∧
      o'.k = c.k ∧ o'.worst = (finalStatus o c).1) ∧
      (d.takeComplete y t c).Passes (b.teamPort y t false) (b.team y t).vc t 5 := by
  obtain ⟨ho, hb⟩ := taking_spec ht
  obtain ⟨r, w, h1⟩ := settle_leaves h ho
  unfold takeComplete
  generalize d.settle y t = e at h1
  have ht1 : Team.taking { m with op := some (settledOp o r w) } = some (settledOp o r w) := taking_of_op rfl hb
  have hr1 : Team.rank { m with op := some (settledOp o r w) } = Team.starterOf (settledOp o r w).desc := hr
  dsimp only
  rw [h1.2, ht1]
  dsimp only
  rw [if_neg (by rw [show (settledOp o r w).go = o.go from rfl, show (settledOp o r w).live = o.live from rfl, hg, hl]; decide),
    if_pos hr1, if_pos (show (settledOp o r w).completeSent = true from hs), show finalStatus (settledOp o r w) c = finalStatus o c from rfl]
  obtain ⟨h2, h3⟩ := sendCommit_leaves h1 hlink hv (finalStatus o c).1 c.k
  obtain ⟨rv, ch, ab, h4, h5, -⟩ := applyCommit_leaves h2 rfl hl (finalStatus o c).1 (finalStatus o c).2 c.k
  exact ⟨h4.1, ⟨_, congrArg Team.op h4.2, rfl, rfl, rfl⟩, h3.of_kept h5⟩

/-- COMPLETE at a member once frame p has begun. -/
theorem takeComplete_sends (c : CompleteFlit) (hr : m.rank ≠ Team.starterOf o.desc) (hs : o.completeSent = false)
    (hn : o.held = none) (hd : o.due b.now = true) :
    TeamOnly y t b (d.takeComplete y t c) ∧ (∃ o', ((d.takeComplete y t c).team y t).op = some o' ∧ o'.completeSent = true ∧
      o'.held = none) ∧ (d.takeComplete y t c).Passes (b.teamPort y t false) (b.team y t).vc t 4 := by
  obtain ⟨ho, hb⟩ := taking_spec ht
  obtain ⟨r, w, h1⟩ := settle_leaves h ho
  unfold takeComplete
  generalize d.settle y t = e at h1
  have ht1 : Team.taking { m with op := some (settledOp o r w) } = some (settledOp o r w) := taking_of_op rfl hb
  have hr1 : Team.rank { m with op := some (settledOp o r w) } ≠ Team.starterOf (settledOp o r w).desc := hr
  dsimp only
  rw [h1.2, ht1]
  dsimp only
  rw [if_neg (by rw [show (settledOp o r w).go = o.go from rfl, show (settledOp o r w).live = o.live from rfl, hg, hl]; decide),
    if_neg hr1, if_neg (by
      rw [show (settledOp o r w).completeSent = o.completeSent from rfl, show (settledOp o r w).held = o.held from rfl, hs, hn]; decide)]
  obtain ⟨h2, h3⟩ := releaseComplete_sends (h1.modOp rfl fun o => { o with held := some c }) hlink hv rfl rfl
    (by rw [show (e.modOp y t _).now = e.now from rfl, h1.1.now]; exact hd)
  exact ⟨h2.1, ⟨_, congrArg Team.op h2.2, rfl, rfl⟩, h3⟩

/-- COMMIT at a member that closes with it. -/
theorem takeCommit_closes (code : Code) (k : Nat) (hr : m.rank ≠ Team.starterOf o.desc)
    (hc : code = Status.aborted ∨ code = Status.done ∧ o.completeSent = true ∧ o.complete m = true) :
    TeamOnly y t b (d.takeCommit y t code k) ∧ ((d.takeCommit y t code k).team y t).op = none ∧
      (d.takeCommit y t code k).Passes (b.teamPort y t false) (b.team y t).vc t 5 := by
  have ho := (taking_spec ht).1
  unfold takeCommit
  rw [h.2]
  dsimp only
  rw [ht]
  dsimp only
  rw [if_neg hr, if_pos (by rcases hc with hc | ⟨-, hc, -⟩ <;> simp [hg, hl, hc])]
  obtain ⟨h1, h2⟩ := sendCommit_leaves h hlink hv code k
  obtain ⟨rv, ch, ab, h3, h4, h5⟩ := applyCommit_leaves h1 ho hl code (if code = Status.late then Status.memThermalLate else 0) k
  have hlive : (committedOp o rv ch code k).live = false := Bool.and_false _
  obtain ⟨h6, h7⟩ := tryClose_closes ⟨.refl y t _, h3.2⟩ rfl hlive hr (by
    rcases hc with hc | ⟨hc, -, hk⟩
    · left
      unfold TeamOp.stopped
      rw [hlive, show (committedOp o rv ch code k).worst = code from rfl, hc]
      simp
    · right
      subst hc
      obtain rfl := h5 hg (by decide) (by decide)
      exact hk) (show o.refused = none from live_refused hl)
  exact ⟨h3.1.trans h6, h7, (h2.of_kept h4).of_kept h6⟩

/-- COMMIT at a member whose data has not all landed. -/
theorem takeCommit_goesOn (k : Nat) (hr : m.rank ≠ Team.starterOf o.desc) (hs : o.completeSent = true) (hc : o.complete m = false) :
    TeamOnly y t b (d.takeCommit y t Status.done k) ∧ (∃ o', ((d.takeCommit y t Status.done k).team y t).op = some o' ∧
      o'.committed = true ∧ o'.worst = Status.done) ∧
      (d.takeCommit y t Status.done k).Passes (b.teamPort y t false) (b.team y t).vc t 5 := by
  have ho := (taking_spec ht).1
  unfold takeCommit
  rw [h.2]
  dsimp only
  rw [ht]
  dsimp only
  rw [if_neg hr, if_pos (by simp [hg, hl, hs])]
  obtain ⟨h1, h2⟩ := sendCommit_leaves h hlink hv Status.done k
  obtain ⟨rv, ch, ab, h3, h4, h5⟩ := applyCommit_leaves h1 ho hl Status.done
    (if Status.done = Status.late then Status.memThermalLate else 0) k
  obtain rfl := h5 hg (by decide) (by decide)
  have hstop : (committedOp o rv o.chunks Status.done k).stopped = false := by
    unfold TeamOp.stopped
    rw [show (committedOp o rv o.chunks Status.done k).go = o.go from rfl, hg]
    rw [show (committedOp o rv o.chunks Status.done k).worst = Status.done from rfl]
    simp [show Status.done ≠ Status.aborted by decide, show Status.done ≠ Status.memberFault by decide]
  rw [tryClose_runs h3 rfl hstop hc]
  exact ⟨h3.1, ⟨_, congrArg Team.op h3.2, rfl, rfl⟩, h2.of_kept h4⟩

end

end

end Device

end Sys2Proof.Machine
end

section
/-! O35: chunks, the start of COMPLETE, and what ends an operation early (R390, R400, R403, R404, R407, R408). -/

namespace Sys2Proof.Machine

namespace Device

section
variable {y : Yard} {t : Fin 64} {b d : Device} {m : Team} (h : Leaves y t b d m)
include h

/-- An abort reaches the starter before VERDICT. -/
theorem takeAbort_marks {o : TeamOp} (ho : m.op = some o) (hl : o.live = true) (hr : m.rank = Team.starterOf o.desc)
    (hg : o.go = false) (r : BitVec 4) : Leaves y t b (d.takeAbort y t r) { m with op := some { o with aborted := true } } := by
  unfold takeAbort leaderAbort
  rw [h.2]
  dsimp only
  rw [ho]
  dsimp only
  rw [if_pos hr, hl, if_neg (by decide), if_neg (by rw [hg]; decide)]
  exact h.modOp ho _

/-- A siding takes a chunk, whose notice is posted. -/
theorem chunkNotice_leaves {o : TeamOp} (ho : m.op = some o) (hl : o.live = true) (st : StallId) (sl : Slot) (i k : Fin 8) (q : Siding)
    (spare : Bool) (src : BitVec 9) (ws : List Nat) :
    ∃ o', Leaves y t b ((if spare then d.setSiding st sl i q else
      (d.setSiding st sl i q).modOp y t fun o => { o with job := { o.job with reserved := o.job.reserved - 1 } }).post st k src ws)
      { m with op := some o' } ∧ o'.live = true := by
  have h1 : Leaves y t b (d.setSiding st sl i q) m := h.beside ⟨rfl, rfl, rfl⟩
  cases spare with
  | true =>
    refine ⟨o, ?_, hl⟩
    rw [← ho]
    exact h1.beside (beside_post _ _ _ _ _)
  | false => exact ⟨_, (h1.modOp ho _).beside (beside_post _ _ _ _ _), hl⟩

/-- The member's next chunk is complete. -/
theorem chunkStep_leaves {o : TeamOp} (ho : m.op = some o) (hl : o.live = true) :
    ∃ o', Leaves y t b (d.chunkStep y t o) { m with op := some o' } ∧ o'.posted = o.posted + 1 ∧ o'.live = true := by
  unfold chunkStep
  extract_lets st i n src e f
  have he : ∃ o', Leaves y t b e { m with op := some o' } ∧ o'.live = true := by
    have hsame : Leaves y t b d { m with op := some o } := by
      rw [← ho]
      exact h
    dsimp only [e]
    split
    next => exact ⟨o, hsame, hl⟩
    next q hq => exact chunkNotice_leaves hsame rfl hl _ _ _ _ _ _ _ _
  obtain ⟨o', h1, h2⟩ := he
  have h3 : Leaves y t b f { m with op := some { o' with posted := i + 1 } } := h1.modOp rfl _
  obtain ⟨r, w, h4⟩ := settle_leaves h3 rfl
  exact ⟨_, h4, rfl, h2⟩

/-- A team leaves ACTIVE, or a BROKEN one is severed. -/
theorem breakTeam_leaves (s : TeamState) (hs : m.state = .active ∨ m.state = .broken ∧ s = .severed) :
    Leaves y t b (d.breakTeam y t s) { m with state := s, through := 0 } := by
  unfold breakTeam
  rw [h.2, if_pos hs]
  exact (h.modTeam (fun m => { m with state := s, through := 0 }) rfl).beside (quiet_eventCode _ _ _ _).beside

section
variable (hlink : b.teamLink y t false = true) (hv : (b.team y t).vc ≤ 5)
include hlink hv

/-- The starter's own COMPLETE flit once frame p has begun. -/
theorem completeStep_sends {o : TeamOp} (ho : m.op = some o) (hl : o.live = true) (hg : o.go = true)
    (hr : m.rank = Team.starterOf o.desc) (hs : o.completeSent = false) (hd : o.due b.now = true) :
    ∃ r w, Leaves y t b (d.completeStep y t) { m with phase := .completing, op := some (heldOp (settledOp o r w) o.held true) } ∧
      (d.completeStep y t).Passes (b.teamPort y t false) (b.team y t).vc t 4 := by
  obtain ⟨r, w, h1⟩ := settle_leaves h ho
  unfold completeStep
  generalize d.settle y t = e at h1
  dsimp only
  rw [h1.2]
  dsimp only
  rw [if_pos]
  · obtain ⟨h2, h3⟩ := sendComplete_leaves h1 hlink hv (e.joinComplete { m with op := some (settledOp o r w) } (settledOp o r w)
      { allComplete := true, k := 0, worst := Status.done, rank := 0 })
    generalize e.sendComplete y t _ = f at h2 h3
    exact ⟨r, w, (h2.modOp rfl fun o => { o with completeSent := true }).modTeam (fun m => { m with phase := .completing }) rfl,
      (h3.of_kept (.modOp f _)).of_kept (.modTeam _ _ rfl)⟩
  · have hdue : (settledOp o r w).due e.now = true := by
      rw [h1.1.now]
      exact hd
    have hr1 : Team.rank { m with op := some (settledOp o r w) } = Team.starterOf (settledOp o r w).desc := hr
    rw [hdue, decide_eq_true hr1, show (settledOp o r w).go = o.go from rfl, show (settledOp o r w).live = o.live from rfl,
      show (settledOp o r w).completeSent = o.completeSent from rfl, hg, hl, hs, Bool.or_true]
    rfl

/-- A member reports MEMBER_FAULT, and its team is BROKEN. -/
theorem takeFail_breaks (hst : m.state = .active) (r : BitVec 4) (hr : m.rank? ≠ some r.toNat) (code : Code) :
    TeamOnly y t b (d.takeFail y t code 0 r) ∧ ((d.takeFail y t code 0 r).team y t).op = none ∧
      ((d.takeFail y t code 0 r).team y t).state = .broken ∧
      (d.takeFail y t code 0 r).Passes (b.teamPort y t false) (b.team y t).vc t 6 := by
  obtain ⟨h1, h2⟩ : Leaves y t b (d.sendFail y t code 0 r) m ∧
    (d.sendFail y t code 0 r).Passes (b.teamPort y t false) (b.team y t).vc t 6 := h.control true 6 _ hlink hv
  unfold takeFail
  rw [h.2, if_neg hr]
  generalize d.sendFail y t code 0 r = e at h1 h2
  have h3 := h1.modTeam (fun m => { m with through := 0 }) rfl
  have h4 : TeamOnly y t e (e.modTeam y t fun m => { m with through := 0 }) := .modTeam e _ rfl
  generalize e.modTeam y t _ = f at h3 h4
  obtain ⟨h5, h6, h7⟩ := f.endOp_closes y t code 0 r 0
  have h8 := breakTeam_leaves (y := y) (t := t) ⟨.refl y t (f.endOp y t code 0 r 0 true), rfl⟩ .broken
    (.inl (by rw [h7, h3.2]; exact hst))
  dsimp only
  rw [if_neg (by decide)]
  exact ⟨(h3.1.trans h5).trans h8.1, by rw [h8.2]; exact h6, by rw [h8.2], ((h2.of_kept h4).of_kept h5).of_kept h8.1⟩

/-- A team is severed. -/
theorem takeSever_severs (hst : m.state = .active ∨ m.state = .broken) (r : BitVec 4) :
    TeamOnly y t b (d.takeSever y t r) ∧ ((d.takeSever y t r).team y t).op = none ∧
      ((d.takeSever y t r).team y t).state = .severed ∧
      (d.takeSever y t r).Passes (b.teamPort y t false) (b.team y t).vc t 7 := by
  obtain ⟨h1, h2⟩ : Leaves y t b (d.sendSever y t r) m ∧
    (d.sendSever y t r).Passes (b.teamPort y t false) (b.team y t).vc t 7 := h.control true 7 _ hlink hv
  unfold takeSever
  rw [h.2, if_neg (by rcases hst with hs | hs <;> rw [hs] <;> decide)]
  generalize d.sendSever y t r = e at h1 h2
  have h3 := breakTeam_leaves (y := y) (t := t) ⟨.refl y t e, h1.2⟩ .severed (hst.imp_right fun hs => ⟨hs, rfl⟩)
  generalize e.breakTeam y t .severed = f at h3
  obtain ⟨h5, h6, h7⟩ := f.endOp_closes y t Status.teamSevered 0 0 0
  exact ⟨(h1.1.trans h3.1).trans h5, h6, by rw [h7, h3.2], (h2.of_kept h3.1).of_kept h5⟩

/-- What a member does whose COLLECT has not returned in time. -/
def failStep (d : Device) (y : Yard) (t : Fin 64) (r : BitVec 4) : Device :=
  ((d.sendFail y t Status.memberFault 0 r).endOp y t Status.memberFault 0 r 0 true).breakTeam y t .broken

theorem failStep_breaks (hst : m.state = .active) (r : BitVec 4) :
    TeamOnly y t b (d.failStep y t r) ∧ ((d.failStep y t r).team y t).op = none ∧ ((d.failStep y t r).team y t).state = .broken ∧
      (d.failStep y t r).Passes (b.teamPort y t false) (b.team y t).vc t 6 := by
  unfold failStep
  obtain ⟨h1, h2⟩ : Leaves y t b (d.sendFail y t Status.memberFault 0 r) m ∧
    (d.sendFail y t Status.memberFault 0 r).Passes (b.teamPort y t false) (b.team y t).vc t 6 := h.control true 6 _ hlink hv
  generalize d.sendFail y t Status.memberFault 0 r = f at h1 h2
  obtain ⟨h5, h6, h7⟩ := f.endOp_closes y t Status.memberFault 0 r 0
  have h8 := breakTeam_leaves (y := y) (t := t) ⟨.refl y t (f.endOp y t Status.memberFault 0 r 0 true), rfl⟩ .broken
    (.inl (by rw [h7, h1.2]; exact hst))
  exact ⟨(h1.1.trans h5).trans h8.1, by rw [h8.2]; exact h6, by rw [h8.2], (h2.of_kept h5).of_kept h8.1⟩

end

end

end Device

end Sys2Proof.Machine
end

section
/-! O35: a descriptor that ends at its decision (R395, R404, R408). -/

namespace Sys2Proof.Machine

namespace Device

/-- e is d with the drover's queue and the bytes of memory. -/
structure Tidy (y : Yard) (d e : Device) : Prop where
  jobs : e.drovers[y].jobs = d.drovers[y].jobs
  bytes : SameBytes d e

namespace Tidy

variable {y : Yard} {d e f : Device}

theorem refl (y : Yard) (d : Device) : Tidy y d d := ⟨rfl, .refl d⟩

theorem trans (h : Tidy y d e) (k : Tidy y e f) : Tidy y d f := ⟨k.jobs.trans h.jobs, h.bytes.trans k.bytes⟩

theorem modTeam (t : Fin 64) (d : Device) (g : Team → Team) : Tidy y d (d.modTeam y t g) := ⟨d.jobs_modTeam _ _ g, rfl, rfl⟩

theorem of_quiet (h : Quiet d e) : Tidy y d e := by
  rw [h]
  exact ⟨rfl, rfl, rfl⟩

theorem reclaim (d : Device) (cause : Fin 5) (c : Code) (p : Page) (k n : Nat) : Tidy y d (d.reclaim cause c p k n) := by
  obtain ⟨x, hx, he⟩ := d.reclaim_only cause c p k n
  rw [hx, he]
  exact ⟨rfl, rfl, rfl⟩

theorem modMbx (d : Device) (st : StallId) (k : Fin 8) (g : Mailbox → Mailbox) : Tidy y d (d.modMbx st k g) := ⟨rfl, rfl, rfl⟩

end Tidy

section
variable (d : Device) (y : Yard)

/-- The mailbox of a descriptor that is refused. -/
def refusedMbx (n : Message) (r : Nat) (m : Mailbox) : Mailbox :=
  { Mailbox.noticed n m with inflight := m.inflight - 1 - (r - 1), free := m.free + (r - 1) }

theorem mbx_of_stalls {e : Device} (h : e.stalls = d.stalls) (st : StallId) (k : Fin 8) : e.mbx st k = d.mbx st k :=
  congrArg (fun v : Vector Stall 384 => v[st].mbx[k]) h

theorem stalls_reclaim (cause : Fin 5) (c : Code) (p : Page) (k n : Nat) : (d.reclaim cause c p k n).stalls = d.stalls := by
  obtain ⟨x, hx, he⟩ := d.reclaim_only cause c p k n
  rw [hx, he]

theorem mbx_posted (st : StallId) (k : Fin 8) (n : Message) (b : Bool) :
    (d.modStall st (Stall.posted k n b)).mbx st k = Mailbox.noticed n (d.mbx st k) := by
  unfold mbx
  rw [stall_modStall_same]
  exact upd_same _ _ _

/-- The notice slots that a descriptor leaves unused go back. -/
theorem releaseRest_spec (t : Fin 64) (st : StallId) (k : Fin 8) (r : Nat) (cause : Fin 5) (c : Code) :
    let e := if r ≤ 1 then d else d.releaseNotices st k (r - 1) cause c
    Tidy y d e ∧ TeamOnly y t d e ∧
      e.mbx st k = { d.mbx st k with inflight := (d.mbx st k).inflight - (r - 1), free := (d.mbx st k).free + (r - 1) } := by
  dsimp only
  split
  next hr =>
    rw [Nat.sub_eq_zero_of_le hr]
    exact ⟨.refl y d, .refl y t d, rfl⟩
  next =>
    refine ⟨.trans (.modMbx d st k _) (.reclaim _ _ _ _ _ _), (d.beside_releaseNotices st k _ cause c).teamOnly, ?_⟩
    unfold releaseNotices
    rw [mbx_of_stalls _ (stalls_reclaim _ _ _ _ _ _), mbx_modMbx_same]

/-- A descriptor is refused, but not for what its memory and its bookings lack. -/
theorem refuseDrove_spec (j : DroveJob) {t : Fin 64} (ht : dfield j.desc 0 42 6 = t.val) {code : Code}
    (hc : ¬ (code = Status.admissionRefused ∨ code = Status.addressUnmapped)) :
    ∃ n : Message, n.says (dfield j.desc 0 56 8 * 2 ^ 56 + code.toNat) ∧ Tidy y d (d.refuseDrove y j code) ∧
      TeamOnly y t d (d.refuseDrove y j code) ∧
      (d.refuseDrove y j code).mbx j.stall (noticeMbx j.desc) = refusedMbx n j.reserved (d.mbx j.stall (noticeMbx j.desc)) := by
  have hlt : dfield j.desc 0 56 8 * 2 ^ 56 + code.toNat < 2 ^ 64 := by
    have h1 : dfield j.desc 0 56 8 < 2 ^ 8 := dfield_lt _ _ _ _
    have h2 := code.isLt
    omega
  obtain ⟨n, b, hn, hpost⟩ := d.post_eq j.stall (noticeMbx j.desc) (droverSrc y) (dfield j.desc 0 56 8 * 2 ^ 56 + code.toNat)
    [0, 0, 0, 0, j.seq.toNat] hlt
  have hnotice : d.droveNotice y j code 0 0 0 none none 0 = d.modStall j.stall (Stall.posted (noticeMbx j.desc) n b) := by
    have hw : dfield j.desc 0 56 8 * 2 ^ 56 + (0 : BitVec 4).toNat * 2 ^ 48 + (if code = Status.late then 0 % 2 ^ 16 else 0) * 2 ^ 32 +
        (0 : Code).toNat * 2 ^ 16 + code.toNat = dfield j.desc 0 56 8 * 2 ^ 56 + code.toNat := by
      have h1 : (0 : BitVec 4).toNat = 0 := rfl
      have h2 : (0 : Code).toNat = 0 := rfl
      split <;> omega
    unfold droveNotice
    rw [hw]
    exact hpost
  have htid : Fin.ofNat 64 (dfield j.desc 0 42 6) = t := by
    rw [ht]
    exact Fin.ofNat_val_eq_self t
  refine ⟨n, hn, ?_⟩
  unfold refuseDrove
  rw [hnotice, htid, if_neg hc]
  have h1 : Tidy y d (d.modStall j.stall (Stall.posted (noticeMbx j.desc) n b)) := ⟨rfl, rfl, rfl⟩
  have h1t : TeamOnly y t d (d.modStall j.stall (Stall.posted (noticeMbx j.desc) n b)) := .of_beside rfl rfl rfl
  have h1m := d.mbx_posted j.stall (noticeMbx j.desc) n b
  generalize d.modStall j.stall (Stall.posted (noticeMbx j.desc) n b) = d1 at h1 h1t h1m
  extract_lets cause d2 t' d3 tally d4
  have h2 : Quiet d1 d2 := quiet_bump _ _ _ _
  have h3 : Tidy y d2 d3 ∧ TeamOnly y t d2 d3 ∧ d3.stalls = d2.stalls := by
    dsimp only [d3]
    split
    · refine ⟨.trans (.trans (e := d2.modDrover y fun v => { v with abortRes := Status.abortTooLate }) ⟨?_, rfl, rfl⟩ (.modTeam t _ _))
        (.of_quiet (quiet_eventCode _ _ _ _)), d2.abortAnswer_only y t _, ?_⟩
      · exact (congrArg Drover.jobs (upd_same _ _ _)).trans rfl
      · exact (quiet_eventCode _ _ _ _).stalls
    · exact ⟨.refl y d2, .refl y t d2, rfl⟩
  obtain ⟨h3, h3t, h3s⟩ := h3
  obtain ⟨h4, h4t, h4m⟩ := d3.releaseRest_spec y t j.stall (noticeMbx j.desc) j.reserved 2 code
  refine ⟨((h1.trans (.of_quiet h2)).trans h3).trans h4, ((h1t.trans h2.beside.teamOnly).trans h3t).trans h4t, ?_⟩
  refine h4m.trans ?_
  rw [mbx_of_stalls d1 (h3s.trans h2.stalls), h1m]
  rfl

end

end Device

end Sys2Proof.Machine
end

section
/-! O35: a member decides on a descriptor (R393 to R398). -/

namespace Sys2Proof.Machine

/-- An operation that its member has accepted, with its chunks and the service it needs. -/
def joinedOp (o : TeamOp) (chunks : Nat) (left : List (Chan × Nat)) : TeamOp := { o with chunks := chunks, rem := left }

namespace Device

section
variable (y : Yard) (t : Fin 64)

theorem Tidy.teamControl (d : Device) (b : Bool) (ws : List Byte) : Tidy y d (d.teamControl y t b ws) := by
  unfold Device.teamControl teamFlit
  extract_lets p tag w vc
  split
  · split
    · exact ⟨rfl, rfl, rfl⟩
    · exact ⟨rfl, rfl, rfl⟩
  · exact .refl y d

theorem Tidy.passCollect (d : Device) (c : CollectFlit) : Tidy y d (d.passCollect y t c) := by
  unfold Device.passCollect
  split
  · extract_lets e
    have h : Tidy y d e := .teamControl y t d _ _
    exact (h.trans (.modTeam t _ _)).trans (.modTeam t _ _)
  · exact .refl y d

/-- What a member takes of a siding and of the ledgers for an operation. -/
def takenFor (d : Device) (o : TeamOp) (chunks : Nat) : Device :=
  let d := (d.checkLedger o.job).foldl useLedger d
  match d.opSiding o with
  | some s => d.setSiding o.job.stall o.job.slot o.sidingIdx { s with reserved := s.reserved + chunks }
  | none => d

theorem takenFor_spec (d : Device) (o : TeamOp) (chunks : Nat) : Beside d (d.takenFor o chunks) ∧ SameBytes d (d.takenFor o chunks) := by
  have hfold : Beside d ((d.checkLedger o.job).foldl useLedger d) ∧ SameBytes d ((d.checkLedger o.job).foldl useLedger d) :=
    List.foldlRecOn (motive := fun e => Beside d e ∧ SameBytes d e) _ _ ⟨.refl d, .refl d⟩ fun e he a _ =>
      ⟨he.1.trans ⟨rfl, rfl, rfl⟩, he.2.trans ⟨rfl, rfl⟩⟩
  unfold takenFor
  extract_lets e
  have he : Beside d e ∧ SameBytes d e := hfold
  split
  · exact ⟨he.1.trans ⟨rfl, rfl, rfl⟩, he.2.trans ⟨rfl, rfl⟩⟩
  · exact he

/-- A decision that accepts. -/
theorem decideOp_accepts (d : Device) (o : TeamOp) (chunks : Nat) : ∃ left, d.decideOp y t o none chunks =
    if (d.team y t).rank = Team.starterOf o.desc then
      ((d.takenFor o chunks).modTeam y t fun m => { m with op := some (joinedOp o chunks left), phase := .collect }).startCollect y t
        (joinedOp o chunks left)
    else
      match (d.team y t).collect.find? o.asks with
      | some c => ((d.takenFor o chunks).modTeam y t fun m =>
          { m with op := some (joinedOp o chunks left), phase := .collect }).passCollect y t c
      | none => (d.takenFor o chunks).modTeam y t fun m => { m with op := some (joinedOp o chunks left), phase := .collect } :=
  ⟨_, rfl⟩

/-- A member that accepts a descriptor. -/
def joinedTeam (m : Team) (o : TeamOp) : Team := { m with op := some o, phase := .collect }

section
variable {y t} {b d : Device} {m : Team} (h : Leaves y t b d m) (hlink : b.teamLink y t false = true) (hv : (b.team y t).vc ≤ 5)
include h hlink hv

/-- An accepted operation starts its COLLECT, joins one that waits, or waits for one. -/
theorem decideOp_joins (o : TeamOp) (chunks : Nat) : ∃ o1 m1, Leaves y t b (d.decideOp y t o none chunks) m1 ∧
    Tidy y d (d.decideOp y t o none chunks) ∧ m1.op = some o1 ∧ o1.job = o.job ∧ o1.counts = o.counts ∧ o1.refused = o.refused ∧
    (m.rank = Team.starterOf o.desc → o1.started = true ∧
      (d.decideOp y t o none chunks).Passes (b.teamPort y t false) (b.team y t).vc t 1) ∧
    (m.rank ≠ Team.starterOf o.desc → (m.collect.find? o.asks = none → o1.started = o.started ∧ m1.collect = m.collect) ∧
      ∀ c, m.collect.find? o.asks = some c → o1.started = true ∧ m1.collect = m.collect.erase c ∧
        (d.decideOp y t o none chunks).Passes (b.teamPort y t false) (b.team y t).vc t 1) := by
  obtain ⟨left, heq⟩ := decideOp_accepts y t d o chunks
  obtain ⟨k1, k2⟩ := takenFor_spec d o chunks
  have h1 : Leaves y t b ((d.takenFor o chunks).modTeam y t fun m => { m with op := some (joinedOp o chunks left), phase := .collect })
      (joinedTeam m (joinedOp o chunks left)) := (h.beside k1).modTeam _ rfl
  have h1t : Tidy y d ((d.takenFor o chunks).modTeam y t fun m => { m with op := some (joinedOp o chunks left), phase := .collect }) :=
    .trans ⟨by rw [k1.1], k2⟩ (.modTeam t _ _)
  rw [heq, h.2]
  generalize (d.takenFor o chunks).modTeam y t _ = e at h1 h1t
  split
  next hr =>
    obtain ⟨h2, h3⟩ := sendCollect_leaves h1 hlink hv
      { send := Team.sendPair o.desc, seq := o.job.seq, signature := o.signature, matched := true, refused := o.refused.isSome
        rank := if o.refused.isSome then BitVec.ofNat 4 (e.team y t).rank else 0, aborted := o.aborted }
    have h2t := Tidy.teamControl y t e
    refine ⟨_, _, h2.modOp rfl fun o => { o with started := true }, ?_, rfl, rfl, rfl, rfl, fun _ => ⟨rfl, h3.of_kept (.modOp _ _)⟩,
      fun hn => absurd hr hn⟩
    exact (h1t.trans (h2t _ _)).trans (.modTeam t _ _)
  next hr =>
    split
    next c hc =>
      obtain ⟨h2, h3⟩ := passCollect_leaves h1 hlink hv rfl c
      refine ⟨_, _, h2, h1t.trans (.passCollect y t e c), rfl, rfl, rfl, rfl, fun hn => absurd hn hr, fun _ => ⟨fun hn => ?_, ?_⟩⟩
      · exact absurd (hc.symm.trans hn) (Option.some_ne_none c)
      · intro c1 hc1
        obtain rfl : c = c1 := Option.some.inj (hc.symm.trans hc1)
        exact ⟨rfl, rfl, h3⟩
    next hc =>
      exact ⟨_, _, h1, h1t, rfl, rfl, rfl, rfl, fun hn => absurd hn hr, fun _ => ⟨fun _ => ⟨rfl, rfl⟩,
        fun c hc1 => absurd (hc.symm.trans hc1) (Option.some_ne_none c).symm⟩⟩

end

end

end Device

end Sys2Proof.Machine
end

section
/-! O35: the flits of a team's operation as commands, COLLECT and those that go by (R381, R394). -/

namespace Sys2Proof.Machine

/-- The other teams are as they were. -/
def State.othersKeep (s : State) (y : Yard) (t : Fin 64) (u : State) : Prop :=
  ∀ z v, (z, v) ≠ (y, t) → u.dev.team z v = s.dev.team z v

/-- A control flit of the team waits at its + port. -/
def State.passes (s : State) (y : Yard) (t : Fin 64) (kind : Byte) (u : State) : Prop :=
  u.dev.Passes (s.dev.teamPort y t false) (s.dev.team y t).vc t kind

/-- The team's operation goes on as f says. -/
def State.becomes (s : State) (y : Yard) (t : Fin 64) (c : Instr) (f : TeamOp → State → Prop) : Prop :=
  Completes c s fun u => s.othersKeep y t u ∧ ∃ o, (u.dev.team y t).op = some o ∧ f o u

/-- The team's operation leaves it. -/
def State.endsOp (s : State) (y : Yard) (t : Fin 64) (c : Instr) (f : State → Prop) : Prop :=
  Completes c s fun u => s.othersKeep y t u ∧ (u.dev.team y t).op = none ∧ f u

/-- The team is left as m. -/
def State.leavesTeam (s : State) (y : Yard) (t : Fin 64) (c : Instr) (m : Team) (f : State → Prop) : Prop :=
  Completes c s fun u => s.othersKeep y t u ∧ u.dev.team y t = m ∧ f u

section
variable {s : State} {y : Yard} {t : Fin 64} {h : FlitHeader} (hh : s.hearsTeam y t h)
include hh

/-- The device once the flit has left its buffer. -/
def State.heardDev (s : State) (y : Yard) (t : Fin 64) : Device :=
  s.dev.modPort (s.dev.teamPort y t true) (heardBy (s.dev.team y t).vc)

omit hh in
theorem heardDev_leaves (s : State) (y : Yard) (t : Fin 64) : Device.Leaves y t s.dev (s.heardDev y t) (s.dev.team y t) :=
  ⟨heard_only _ _, rfl⟩

theorem completes_heard {c : Instr} {ending : Bool} {f : Device → Device} {P : State → Prop}
    (hexec : exec c s = .next (s.onDev fun d => d.receiveTeam y t h ending f))
    (hst : (s.dev.team y t).state = .active ∨ ending = true ∧ (s.dev.team y t).state = .broken)
    (hP : P (s.onDev fun _ => f (s.heardDev y t))) : Completes c s P := by
  refine ⟨_, hexec, ?_⟩
  have heq : (s.onDev fun d => d.receiveTeam y t h ending f) = s.onDev fun _ => f (s.heardDev y t) := by
    unfold State.onDev
    beta_reduce
    rw [receiveTeam_heard hh hst f]
    rfl
  rw [heq]
  exact hP

section
variable (hst : (s.dev.team y t).state = .active) (hlink : s.dev.teamLink y t false = true) (hv : (s.dev.team y t).vc ≤ 5)
include hst hlink hv

theorem collect_goesBy {c : CollectFlit} (hp : Device.takesPart (s.dev.team y t) c = false) :
    s.leavesTeam y t (.collect y t h c) { s.dev.team y t with through := (s.dev.team y t).through + 1 } (s.passes y t 1) := by
  obtain ⟨k1, k2⟩ := Device.takeCollect_bystander (heardDev_leaves s y t) hlink hv hp
  exact completes_heard hh rfl (.inl hst) ⟨k1.1.others, k1.2, k2⟩

omit hlink hv in
theorem collect_waits {c : CollectFlit} (hp : Device.takesPart (s.dev.team y t) c = true)
    (hw : ∀ o, (s.dev.team y t).op = some o →
      if (s.dev.team y t).rank = Team.starterOf o.desc then o.owns c = false else o.started = true ∨ o.asks c = false) :
    s.leavesTeam y t (.collect y t h c) { s.dev.team y t with collect := (s.dev.team y t).collect ++ [c] } fun _ => True := by
  have k := Device.takeCollect_waits (heardDev_leaves s y t) hp hw
  exact completes_heard hh rfl (.inl hst) ⟨k.1.others, k.2, trivial⟩

omit hlink hv in
theorem collect_returns {c : CollectFlit} {o : TeamOp} (hp : Device.takesPart (s.dev.team y t) c = true)
    (ho : (s.dev.team y t).op = some o) (hr : (s.dev.team y t).rank = Team.starterOf o.desc) (hown : o.owns c = true)
    (ha : o.accept = none) : s.becomes y t (.collect y t h c) fun o' _ => o' = { o with
      accept := some s.dev.now
      promise := s.dev.now + BitVec.ofNat 48 ((s.dev.team y t).bound (o.legs (s.dev.team y t)))
      returned := some c } := by
  have k := Device.takeCollect_returned (heardDev_leaves s y t) hp ho hr hown ha
  exact completes_heard hh rfl (.inl hst) ⟨k.1.others, _, congrArg Team.op k.2, rfl⟩

theorem collect_joins {c : CollectFlit} {o : TeamOp} (hp : Device.takesPart (s.dev.team y t) c = true)
    (ho : (s.dev.team y t).op = some o) (hr : (s.dev.team y t).rank ≠ Team.starterOf o.desc) (hs : o.started = false)
    (ha : o.asks c = true) : s.becomes y t (.collect y t h c) fun o' u => o'.started = true ∧ s.passes y t 1 u := by
  obtain ⟨k1, k2⟩ := Device.takeCollect_joined (heardDev_leaves s y t) hlink hv hp ho hr hs ha
  exact completes_heard hh rfl (.inl hst) ⟨k1.1.others, _, congrArg Team.op k1.2, rfl, k2⟩

/-! ### Flits that go by -/

/-- A flit of an operation in which this device takes no part goes on, or is dropped where none is under way. -/
theorem flit_passes {i : Instr} {f g : Device → Device} {ends : Bool}
    (hexec : exec i s = .next (s.onDev fun d => d.receiveTeam y t h false f))
    (hf : f (s.heardDev y t) = (s.heardDev y t).passBy y t ends g) (booked : Device → Bool) (kind : Byte) (rest : List Byte)
    (hg : ∀ d, g d = d.teamControl y t (booked d) (kind :: rest)) :
    (0 < (s.dev.team y t).through → s.leavesTeam y t i { s.dev.team y t with
      through := if ends then (s.dev.team y t).through - 1 else (s.dev.team y t).through } (s.passes y t kind)) ∧
    ((s.dev.team y t).through = 0 → s.leavesTeam y t i (s.dev.team y t) fun _ => True) := by
  constructor
  · intro h0
    obtain ⟨k1, k2⟩ := Device.passBy_goesOn (heardDev_leaves s y t) hlink hv h0 ends booked kind rest hg
    rw [← hf] at k1 k2
    exact completes_heard hh hexec (.inl hst) ⟨k1.1.others, k1.2, k2⟩
  · intro h0
    have k := Device.passBy_dropped (heardDev_leaves s y t) h0 ends g
    rw [← hf] at k
    exact completes_heard hh hexec (.inl hst) ⟨k.1.others, k.2, trivial⟩

end

end

end Sys2Proof.Machine
end

section
/-! O35: the flits of a team's operation as commands: VERDICT, META, COMPLETE, COMMIT, and an abort (R396, R399 to R407). -/

namespace Sys2Proof.Machine

section
variable {s : State} {y : Yard} {t : Fin 64} {h : FlitHeader} (hh : s.hearsTeam y t h)
  (hst : (s.dev.team y t).state = .active) (hlink : s.dev.teamLink y t false = true) (hv : (s.dev.team y t).vc ≤ 5)
include hh hst hlink hv

/-- VERDICT of an operation in which this device takes no part now. -/
theorem verdict_passes (code : Code) (r : BitVec 4) (hp : ∀ o, (s.dev.team y t).taking = some o →
      (s.dev.team y t).rank ≠ Team.starterOf o.desc ∧ (o.started = false ∨ o.go = true ∨ o.back = true)) :
    (0 < (s.dev.team y t).through → s.leavesTeam y t (.verdict y t h code r) { s.dev.team y t with
      through := if code = Status.done then (s.dev.team y t).through else (s.dev.team y t).through - 1 } (s.passes y t 2)) ∧
    ((s.dev.team y t).through = 0 → s.leavesTeam y t (.verdict y t h code r) (s.dev.team y t) fun _ => True) := by
  have hk := flit_passes hh hst hlink hv (i := .verdict y t h code r) rfl
    (Device.takeVerdict_passed (heardDev_leaves s y t) code r hp) (fun _ => true) 2 _ (fun _ => rfl)
  by_cases hc : code = Status.done
  · rw [decide_eq_false (not_not.mpr hc), if_neg Bool.false_ne_true] at hk
    rw [if_pos hc]
    exact hk
  · rw [decide_eq_true hc, if_pos rfl] at hk
    rw [if_neg hc]
    exact hk

/-- META where no operation of the team runs. -/
theorem meta_passes (src : BitVec 4) (l : BitVec 12) (sh : BitVec 16) (e : W32) (hg : (s.dev.team y t).op.any (·.go) = false) :
    (0 < (s.dev.team y t).through → s.leavesTeam y t (.metaFlit y t h src l sh e) (s.dev.team y t) (s.passes y t 3)) ∧
    ((s.dev.team y t).through = 0 → s.leavesTeam y t (.metaFlit y t h src l sh e) (s.dev.team y t) fun _ => True) :=
  flit_passes hh hst hlink hv (i := .metaFlit y t h src l sh e) (ends := false) rfl
    (Device.takeMeta_passed (heardDev_leaves s y t) src l sh e hg) (fun _ => true) 3 _ (fun _ => rfl)

/-- COMPLETE where no operation of the team runs. -/
theorem complete_passes (c : CompleteFlit) (hg : (s.dev.team y t).op.any (·.go) = false) :
    (0 < (s.dev.team y t).through → s.leavesTeam y t (.complete y t h c) (s.dev.team y t) (s.passes y t 4)) ∧
    ((s.dev.team y t).through = 0 → s.leavesTeam y t (.complete y t h c) (s.dev.team y t) fun _ => True) :=
  flit_passes hh hst hlink hv (i := .complete y t h c) (ends := false) rfl
    (Device.takeComplete_passed (heardDev_leaves s y t) c hg) (fun d => d.lateBooked y t) 4 _ (fun _ => rfl)

/-- COMMIT of an operation in which this device takes no part now. -/
theorem commit_passes (code : Code) (k : Nat) (hp : ∀ o, (s.dev.team y t).taking = some o →
      o.go = false ∨ (s.dev.team y t).rank ≠ Team.starterOf o.desc ∧ o.completeSent = false ∧ code ≠ Status.aborted) :
    (0 < (s.dev.team y t).through → s.leavesTeam y t (.commit y t h code k) { s.dev.team y t with
      through := (s.dev.team y t).through - 1 } (s.passes y t 5)) ∧
    ((s.dev.team y t).through = 0 → s.leavesTeam y t (.commit y t h code k) (s.dev.team y t) fun _ => True) :=
  flit_passes hh hst hlink hv (i := .commit y t h code k) (ends := true) rfl
    (Device.takeCommit_passed (heardDev_leaves s y t) code k hp) (fun d => d.lateBooked y t) 5 _ (fun _ => rfl)

variable {o : TeamOp} (ht : (s.dev.team y t).taking = some o) (hl : o.live = true)
include ht hl

theorem verdict_runs (hr : (s.dev.team y t).rank ≠ Team.starterOf o.desc) (hs : o.started = true) (hg : o.go = false)
    (hb : o.back = false) (ha : o.accept = none) (r : BitVec 4) :
    s.becomes y t (.verdict y t h Status.done r) fun o' u => o'.go = true ∧ o'.accept = some (s.dev.now - 1) ∧
      o'.promise = s.dev.now - 1 + BitVec.ofNat 48 ((s.dev.team y t).bound (o.legs (s.dev.team y t))) ∧ s.passes y t 2 u := by
  obtain ⟨f, mi, rc, w, k1, k2⟩ := Device.takeVerdict_runs (heardDev_leaves s y t) hlink hv ht hl hr hs hg hb r ha
  exact completes_heard hh rfl (.inl hst) ⟨k1.1.others, _, congrArg Team.op k1.2, rfl, rfl, rfl, k2⟩

theorem verdict_ends (hr : (s.dev.team y t).rank ≠ Team.starterOf o.desc) (hs : o.started = true) (hg : o.go = false)
    (hb : o.back = false) {code : Code} (hc : code ≠ Status.done) (r : BitVec 4) :
    s.endsOp y t (.verdict y t h code r) (s.passes y t 2) := by
  obtain ⟨k1, k2, k3⟩ := Device.takeVerdict_ends (heardDev_leaves s y t) hlink hv ht hl hr hs hg hb r hc
  exact completes_heard hh rfl (.inl hst) ⟨k1.others, k2, k3⟩

omit hlink hv hl in
theorem meta_kept (src : BitVec 4) (l : BitVec 12) (sh : BitVec 16) (e : W32) (hne : (s.dev.team y t).rank? ≠ some src.toNat)
    (hg : o.go = true) (hm : o.metaIn = none) (hr : ∃ g, o.receives (s.dev.team y t) = some g ∧ g.src = src.toNat) :
    s.becomes y t (.metaFlit y t h src l sh e) fun o' _ => o' = { o with metaIn := some (l, sh, e) } := by
  have k := Device.takeMeta_keeps (heardDev_leaves s y t) ht src l sh e hne hg hm hr
  exact completes_heard hh rfl (.inl hst) ⟨k.1.others, _, congrArg Team.op k.2, rfl⟩

theorem complete_commits (c : CompleteFlit) (hg : o.go = true) (hr : (s.dev.team y t).rank = Team.starterOf o.desc)
    (hs : o.completeSent = true) : s.becomes y t (.complete y t h c) fun o' u =>
      o'.committed = true ∧ o'.k = c.k ∧ o'.worst = (Device.finalStatus o c).1 ∧ s.passes y t 5 u := by
  obtain ⟨k1, ⟨o', k2, k3, k4, k5⟩, k6⟩ := Device.takeComplete_commits (heardDev_leaves s y t) hlink hv ht hl hg c hr hs
  exact completes_heard hh rfl (.inl hst) ⟨k1.others, o', k2, k3, k4, k5, k6⟩

theorem complete_goesOn (c : CompleteFlit) (hg : o.go = true) (hr : (s.dev.team y t).rank ≠ Team.starterOf o.desc)
    (hs : o.completeSent = false) (hn : o.held = none) (hd : o.due s.dev.now = true) :
    s.becomes y t (.complete y t h c) fun o' u => o'.completeSent = true ∧ o'.held = none ∧ s.passes y t 4 u := by
  obtain ⟨k1, ⟨o', k2, k3, k4⟩, k5⟩ := Device.takeComplete_sends (heardDev_leaves s y t) hlink hv ht hl hg c hr hs hn hd
  exact completes_heard hh rfl (.inl hst) ⟨k1.others, o', k2, k3, k4, k5⟩

theorem commit_ends (code : Code) (k : Nat) (hg : o.go = true) (hr : (s.dev.team y t).rank ≠ Team.starterOf o.desc)
    (hc : code = Status.aborted ∨ code = Status.done ∧ o.completeSent = true ∧ o.complete (s.dev.team y t) = true) :
    s.endsOp y t (.commit y t h code k) (s.passes y t 5) := by
  obtain ⟨k1, k2, k3⟩ := Device.takeCommit_closes (heardDev_leaves s y t) hlink hv ht hl hg code k hr hc
  exact completes_heard hh rfl (.inl hst) ⟨k1.others, k2, k3⟩

theorem commit_goesOn (k : Nat) (hg : o.go = true) (hr : (s.dev.team y t).rank ≠ Team.starterOf o.desc)
    (hs : o.completeSent = true) (hc : o.complete (s.dev.team y t) = false) :
    s.becomes y t (.commit y t h Status.done k) fun o' u => o'.committed = true ∧ o'.worst = Status.done ∧ s.passes y t 5 u := by
  obtain ⟨k1, ⟨o', k2, k3, k4⟩, k5⟩ := Device.takeCommit_goesOn (heardDev_leaves s y t) hlink hv ht hl hg k hr hs hc
  exact completes_heard hh rfl (.inl hst) ⟨k1.others, o', k2, k3, k4, k5⟩

omit hlink hv in
theorem abort_marks (r : BitVec 4) (hr : (s.dev.team y t).rank = Team.starterOf o.desc) (hg : o.go = false) :
    s.becomes y t (.teamAbortFlit y t h r) fun o' _ => o' = { o with aborted := true } := by
  have k := Device.takeAbort_marks (heardDev_leaves s y t) (taking_spec ht).1 hl hr hg r
  exact completes_heard hh rfl (.inl hst) ⟨k.1.others, _, congrArg Team.op k.2, rfl⟩

end

end Sys2Proof.Machine
end

section
/-! O35: what a member does of its own accord, what ends an operation early, and a team that is not ACTIVE (R381, R393 to R408). -/

namespace Sys2Proof.Machine

/-- A step of the device alone. -/
theorem completes_onDev {s : State} {i : Instr} {f : Device → Device} {P : State → Prop} (hexec : exec i s = .next (s.onDev f))
    (hP : ∀ u : State, u.dev = f s.dev → P u) : Completes i s P := ⟨_, hexec, hP _ rfl⟩

section
variable {s : State} {y : Yard} {t : Fin 64} {h : FlitHeader}

section
variable (hlink : s.dev.teamLink y t false = true) (hv : (s.dev.team y t).vc ≤ 5)
include hlink hv

theorem verdictSend_runs {c : CollectFlit} {o : TeamOp} {a : Frame} (ho : (s.dev.team y t).op = some o) (hc : o.returned = some c)
    (hr : (s.dev.team y t).rank = Team.starterOf o.desc) (hg : o.go = false) (hs : o.started = true) (hab : o.aborted = false)
    (ha : o.accept = some a) (hne : a ≠ s.dev.now) (hca : c.aborted = false) (hcr : c.refused = false) (hcm : c.matched = true) :
    s.becomes y t (.verdictSend y t) fun o' u => o'.go = true ∧ o'.accept = some a ∧ o'.returned = none ∧
      (u.dev.team y t).phase = .handshake ∧ s.passes y t 2 u := by
  obtain ⟨f, mi, rc, w, p, k1, k2⟩ := Device.verdictStep_runs (.refl y t s.dev) hlink hv ho hc hr hg hs hab ha hne hca hcr hcm
  exact ⟨_, rfl, k1.1.others, _, congrArg Team.op k1.2, rfl, rfl, rfl, congrArg Team.phase k1.2, k2⟩

theorem chunkLanded_counts {o : TeamOp} (ho : (s.dev.team y t).op = some o) (hl : o.live = true) (hg : o.go = true)
    (hp : o.posted < o.chunks) (hgot : o.posted * s.dev.chunkSize o + s.dev.chunkBytes y t o o.posted ≤ o.gotBytes) :
    s.becomes y t (.chunkLanded y t) fun o' _ => o'.posted = o.posted + 1 := by
  obtain ⟨o1, k1, k2, k3⟩ := Device.chunkStep_leaves (.refl y t s.dev) ho hl
  obtain ⟨ph, f, cs, k4⟩ := Device.releaseComplete_leaves k1 hlink hv rfl
  have k5 := Device.tryClose_live k4 rfl k3
  have hexec : exec (.chunkLanded y t) s = .next (s.onDev fun _ => ((s.dev.chunkStep y t o).releaseComplete y t).tryClose y t) := by
    change Host.Outcome.next (s.onDev fun d => _) = _
    unfold State.onDev
    beta_reduce
    rw [ho]
    dsimp only
    rw [if_pos (by rw [hg, decide_eq_true hp, decide_eq_true hgot]; rfl)]
  rw [k5] at hexec
  exact ⟨_, hexec, k4.1.others, _, congrArg Team.op k4.2, k2⟩

theorem completeStart_sends {o : TeamOp} (ho : (s.dev.team y t).op = some o) (hl : o.live = true) (hg : o.go = true)
    (hr : (s.dev.team y t).rank = Team.starterOf o.desc) (hs : o.completeSent = false) (hd : o.due s.dev.now = true) :
    s.becomes y t (.completeStart y t) fun o' u =>
      o'.completeSent = true ∧ (u.dev.team y t).phase = .completing ∧ s.passes y t 4 u := by
  obtain ⟨r, w, k1, k2⟩ := Device.completeStep_sends (.refl y t s.dev) hlink hv ho hl hg hr hs hd
  exact ⟨_, rfl, k1.1.others, _, congrArg Team.op k1.2, rfl, congrArg Team.phase k1.2, k2⟩

theorem fail_breaks (hh : s.hearsTeam y t h) (hst : (s.dev.team y t).state = .active) (r : BitVec 4)
    (hr : (s.dev.team y t).rank? ≠ some r.toNat) (code : Code) :
    s.endsOp y t (.fail y t h code 0 r) fun u => (u.dev.team y t).state = .broken ∧ s.passes y t 6 u := by
  obtain ⟨k1, k2, k3, k4⟩ := Device.takeFail_breaks (heardDev_leaves s y t) hlink hv hst r hr code
  exact completes_heard hh rfl (.inl hst) ⟨k1.others, k2, k3, k4⟩

theorem sever_severs (hh : s.hearsTeam y t h) (hst : (s.dev.team y t).state = .active ∨ (s.dev.team y t).state = .broken) (r : BitVec 4) :
    s.endsOp y t (.sever y t h r) fun u => (u.dev.team y t).state = .severed ∧ s.passes y t 7 u := by
  obtain ⟨k1, k2, k3, k4⟩ := Device.takeSever_severs (heardDev_leaves s y t) hlink hv hst r
  exact completes_heard hh rfl (hst.imp_right fun hb => ⟨rfl, hb⟩) ⟨k1.others, k2, k3, k4⟩

theorem hsLimitExpiry_breaks {o : TeamOp} (ho : (s.dev.team y t).op = some o) (hst : (s.dev.team y t).state = .active)
    (ha : o.accept = none) (hl : (s.dev.team y t).hsLimit ≠ 0) (hle : (s.dev.team y t).hsLimit ≤ Device.since s.dev.now o.decided) :
    s.endsOp y t (.hsLimitExpiry y t) fun u => (u.dev.team y t).state = .broken ∧ s.passes y t 6 u := by
  obtain ⟨k1, k2, k3, k4⟩ := Device.failStep_breaks (.refl y t s.dev) hlink hv hst (BitVec.ofNat 4 (s.dev.team y t).rank)
  refine completes_onDev rfl fun u hu => ?_
  have heq : u.dev = s.dev.failStep y t (BitVec.ofNat 4 (s.dev.team y t).rank) := hu.trans (by
    dsimp only
    rw [ho]
    dsimp only
    rw [if_pos (by rw [ha, decide_eq_true hl, decide_eq_true hle]; rfl)]
    rfl)
  unfold State.othersKeep State.passes
  beta_reduce
  rw [heq]
  generalize s.dev.failStep y t (BitVec.ofNat 4 (s.dev.team y t).rank) = e at k1 k2 k3 k4
  exact ⟨k1.others, k2, k3, k4⟩

end

theorem severTimeout_ends {o : TeamOp} (ho : (s.dev.team y t).op = some o) (hl : o.live = true) (hg : o.go = true) (hn : o.nobook = false)
    (hr : o.reached s.dev.now ((s.dev.team y t).bound (o.legs (s.dev.team y t)) + o.k + 3) = true) :
    s.endsOp y t (.severTimeout y t) fun _ => True := by
  obtain ⟨k1, k2, -⟩ := s.dev.endOp_closes y t Status.teamSevered 0 0 0
  refine completes_onDev rfl fun u hu => ?_
  have heq : u.dev = s.dev.endOp y t Status.teamSevered 0 0 0 true := hu.trans (by
    dsimp only
    rw [ho]
    dsimp only
    rw [if_pos (by rw [hl, hg, hn, hr]; rfl)])
  unfold State.othersKeep
  rw [heq]
  exact ⟨k1.others, k2, trivial⟩

/-- A flit of an operation for a team that is not ACTIVE. -/
theorem flit_fences (hh : s.hearsTeam y t h) (hst : (s.dev.team y t).state ≠ .active) {i : Instr} {f : Device → Device}
    (hexec : exec i s = .next (s.onDev fun d => d.receiveTeam y t h false f)) : Completes i s fun u =>
      u.dev.ports[s.dev.teamPort y t true].state = .hostile ∧ u.dev.ports[s.dev.teamPort y t true].fenceDetail = 5 := by
  obtain ⟨e, he⟩ := receiveTeam_fences hh hst f
  refine completes_onDev hexec fun u hu => ?_
  rw [hu, he]
  exact e.hostile_spec (s.dev.teamPort y t true) 5

end

end Sys2Proof.Machine
end

section
/-! O35: the decision of a member on the oldest descriptor of its team (R393 to R398, R404, R408). -/

namespace Sys2Proof.Machine

namespace Device

/-- A descriptor has left the drover's queue. -/
def withoutJob (d : Device) (y : Yard) (i : Nat) : Device := d.modDrover y fun v => { v with jobs := v.jobs.eraseIdx i }

theorem withoutJob_spec (d : Device) (y : Yard) (t : Fin 64) (i : Nat) : Leaves y t d (d.withoutJob y i) (d.team y t) ∧
    (d.withoutJob y i).drovers[y].jobs = d.drovers[y].jobs.eraseIdx i ∧ SameBytes d (d.withoutJob y i) ∧
    (d.withoutJob y i).stalls = d.stalls := by
  refine ⟨⟨.modDrover d _ rfl, d.team_modDrover y _ rfl t⟩, (congrArg Drover.jobs (upd_same _ _ _)).trans rfl, ⟨rfl, rfl⟩, rfl⟩

end Device

/-- A member of an ACTIVE team accepts a descriptor as operation o, for a number of chunks (R385, R393, R395). -/
structure State.accepts (s : State) (y : Yard) (t : Fin 64) (j : DroveJob) (counts : List Nat) (o : TeamOp) (chunks : Nat) : Prop where
  active : (s.dev.team y t).state = .active
  since : (s.dev.team y t).since ≠ s.dev.now
  rank : (s.dev.team y t).rank? ≠ none
  clean : s.dev.clean (s.dev.slotAt j.stall j.slot (dfield j.desc 3 0 32)) 64
  counted : counts = (List.range 16).map fun r => leNat (s.dev.rdBytes (s.dev.slotAt j.stall j.slot (dfield j.desc 3 0 32) + 4 * r) 4)
  op : o = s.dev.newOp (s.dev.team y t) j counts (s.dev.team y t).abortPending
  size : chunks = ceilDiv (o.inBytes (s.dev.team y t)) (s.dev.chunkSize o)
  depth : ∀ q, s.dev.opSiding o = some q → q.occupied + q.reserved + chunks ≤ q.depth
  passes : s.dev.droveRefusal y (s.dev.team y t) o chunks = none

/-- The counts that a decision reads. -/
theorem State.accepts.counts_read {s : State} {y : Yard} {t : Fin 64} {j : DroveJob} {counts : List Nat} {o : TeamOp} {chunks : Nat}
    (h : s.accepts y t j counts o chunks) : ((List.range 16).map fun r =>
      leNat (((s.dev.rdBytes (s.dev.slotAt j.stall j.slot (dfield j.desc 3 0 32)) 64).drop (4 * r)).take 4)) = counts := by
  rw [h.counted]
  exact List.map_congr_left fun r hr => by rw [s.dev.rdBytes_slice _ _ _ _ (by have := List.mem_range.mp hr; omega)]

section
variable {s : State} {y : Yard} {t : Fin 64} {i : Nat} {j : DroveJob}
  (hi : (s.dev.drovers[y].jobs.findIdx? fun j => dfield j.desc 0 42 6 = t.val) = some i) (hj : s.dev.drovers[y].jobs[i]? = some j)
  (hold : ∀ k ∈ s.dev.drovers[y].jobs.take i, k.stall ≠ j.stall ∨ k.slot ≠ j.slot) (hop : (s.dev.team y t).op = none)
include hi hj hold hop

omit hold hop in
/-- The descriptor is the team's. -/
theorem job_team : dfield j.desc 0 42 6 = t.val := by
  obtain ⟨hlt, h, -⟩ := List.findIdx?_eq_some_iff_getElem.mp hi
  rw [List.getElem?_eq_getElem hlt] at hj
  rw [Option.some.inj hj] at h
  exact of_decide_eq_true h

omit hi hj in
/-- Nothing of the member's slot stands before the descriptor. -/
theorem job_oldest : ((s.dev.drovers[y].jobs.take i).any (fun k => k.stall = j.stall && k.slot = j.slot) ||
    (s.dev.team y t).op.isSome) = false := by
  rw [hop, Option.isSome_none, Bool.or_false, List.any_eq_false]
  intro k hk
  simp only [Bool.and_eq_true, decide_eq_true_eq, not_and]
  exact fun h1 h2 => (hold k hk).elim (absurd h1) (absurd h2)

/-- What the decision on the oldest descriptor of a team does. -/
theorem memberDecide_oldest :
    ((s.dev.team y t).state = .broken → s.dev.memberDecide y t = (s.dev.withoutJob y i).refuseDrove y j Status.memberFault) ∧
    ((s.dev.team y t).state = .severed → s.dev.memberDecide y t = (s.dev.withoutJob y i).refuseDrove y j Status.teamSevered) ∧
    ∀ counts o chunks, s.accepts y t j counts o chunks →
      s.dev.memberDecide y t = (s.dev.withoutJob y i).decideOp y t o none chunks := by
  unfold Device.memberDecide
  extract_lets m jobs
  split
  next hn => exact absurd (hi.symm.trans hn) (Option.some_ne_none i)
  next i' hi' =>
  obtain rfl : i = i' := Option.some.inj (hi.symm.trans hi')
  split
  next hn => exact absurd (hj.symm.trans hn) (Option.some_ne_none j)
  next j' hj' =>
  obtain rfl : j = j' := Option.some.inj (hj.symm.trans hj')
  extract_lets older dropped
  rw [if_neg (by rw [show (older || m.op.isSome) = false from job_oldest hold hop]; decide)]
  refine ⟨fun hst => if_pos hst, fun hst => (if_neg (by rw [hst]; decide)).trans (if_pos hst), fun counts o chunks ha => ?_⟩
  obtain ⟨hst, hnow, hrank, hclean, -, ho, hch, hdepth, href⟩ := id ha
  have hcounts := ha.counts_read
  have hread := engRead_clean s.dev j.stall j.slot (dfield j.desc 3 0 32) 64 hclean
  rw [if_neg (by rw [hst]; decide), if_neg (by rw [hst]; decide), if_neg (by simp [m, hst, hnow.symm]),
    if_neg (by rw [Option.isNone_iff_eq_none]; exact hrank)]
  split
  next d' bs ok hr =>
  obtain ⟨hd, hb, hok⟩ : s.dev = d' ∧ s.dev.rdBytes (s.dev.slotAt j.stall j.slot (dfield j.desc 3 0 32)) 64 = bs ∧ true = ok := by
    rw [hread] at hr
    simpa using hr
  subst hd hb hok
  clear hr
  extract_lets counts' o' chunks' refusal short
  replace hcounts : counts' = counts := hcounts
  clear_value counts'
  subst hcounts
  replace ho : o' = o := ho.symm
  clear_value o'
  subst ho
  replace hch : chunks' = chunks := hch.symm
  clear_value chunks'
  subst hch
  have hrefusal : refusal = none := (if_pos rfl).trans href
  have hshort : short = false := by
    dsimp only [short]
    rw [hrefusal, Option.isNone_none, Bool.true_and, Option.any_eq_false]
    intro q hq
    exact decide_eq_false (Nat.not_lt.mpr (hdepth q hq))
  rw [hshort, if_neg Bool.false_ne_true, hrefusal]
  rfl

/-- A descriptor of a team that is SEVERED or BROKEN. -/
theorem memberDecide_refuses {code : Code}
    (hst : (s.dev.team y t).state = .broken ∧ code = Status.memberFault ∨ (s.dev.team y t).state = .severed ∧ code = Status.teamSevered) :
    Completes (.memberDecide y t) s fun u => (∃ n : Message,
      (u.dev.mbx j.stall (Device.noticeMbx j.desc)).msgs = (s.dev.mbx j.stall (Device.noticeMbx j.desc)).msgs ++ [n] ∧ n.notice = true ∧
        leNat (n.data.take 8) = dfield j.desc 0 56 8 * 2 ^ 56 + code.toNat) ∧
      (u.dev.mbx j.stall (Device.noticeMbx j.desc)).inflight =
        (s.dev.mbx j.stall (Device.noticeMbx j.desc)).inflight - 1 - (j.reserved - 1) ∧
      (u.dev.mbx j.stall (Device.noticeMbx j.desc)).free = (s.dev.mbx j.stall (Device.noticeMbx j.desc)).free + (j.reserved - 1) ∧
      u.dev.drovers[y].jobs = s.dev.drovers[y].jobs.eraseIdx i ∧ s.othersKeep y t u ∧ s.sameMemory u := by
  have hjt := job_team hi hj
  obtain ⟨h1, h2, h3, h4⟩ := s.dev.withoutJob_spec y t i
  have hc : ¬ (code = Status.admissionRefused ∨ code = Status.addressUnmapped) := by
    rcases hst with ⟨-, hc⟩ | ⟨-, hc⟩ <;> rw [hc] <;> decide
  obtain ⟨n, hn, k1, k2, k3⟩ := (s.dev.withoutJob y i).refuseDrove_spec y j hjt hc
  have hdecide : s.dev.memberDecide y t = (s.dev.withoutJob y i).refuseDrove y j code := by
    obtain ⟨hbroken, hsevered, -⟩ := memberDecide_oldest hi hj hold hop
    rcases hst with ⟨hst, rfl⟩ | ⟨hst, rfl⟩
    · exact hbroken hst
    · exact hsevered hst
  refine completes_onDev rfl fun u hu => ?_
  replace hu : u.dev = (s.dev.withoutJob y i).refuseDrove y j code := hu.trans hdecide
  unfold State.othersKeep State.sameMemory
  rw [hu]
  generalize (s.dev.withoutJob y i).refuseDrove y j code = e at k1 k2 k3
  rw [k3, Device.mbx_of_stalls s.dev h4]
  exact ⟨⟨n, rfl, hn.1, hn.2⟩, rfl, rfl, k1.jobs.trans h2, (h1.1.trans k2).others, (h3.trans k1.bytes).rdByte⟩

/-- A descriptor that a member of an ACTIVE team accepts. -/
theorem memberDecide_joins (hlink : s.dev.teamLink y t false = true) (hv : (s.dev.team y t).vc ≤ 5)
    {counts : List Nat} {o : TeamOp} {chunks : Nat} (ha : s.accepts y t j counts o chunks) :
    s.becomes y t (.memberDecide y t) fun o' u => o'.job = j ∧ o'.counts = counts ∧ o'.refused = none ∧
      u.dev.drovers[y].jobs = s.dev.drovers[y].jobs.eraseIdx i ∧ s.sameMemory u ∧
      ((s.dev.team y t).rank = Team.starterOf j.desc → o'.started = true ∧ s.passes y t 1 u) ∧
      ((s.dev.team y t).rank ≠ Team.starterOf j.desc →
        ((s.dev.team y t).collect.find? o.asks = none → o'.started = false ∧ (u.dev.team y t).collect = (s.dev.team y t).collect) ∧
        ∀ c, (s.dev.team y t).collect.find? o.asks = some c →
          o'.started = true ∧ (u.dev.team y t).collect = (s.dev.team y t).collect.erase c ∧ s.passes y t 1 u) := by
  have hdecide := (memberDecide_oldest hi hj hold hop).2.2 counts o chunks ha
  have ho := ha.op
  obtain ⟨h1, h2, h3, -⟩ := s.dev.withoutJob_spec y t i
  obtain ⟨o1, m1, k1, k2, k3, k4, k5, k6, k7, k8⟩ := Device.decideOp_joins h1 hlink hv o chunks
  refine completes_onDev rfl fun u hu => ?_
  replace hu : u.dev = (s.dev.withoutJob y i).decideOp y t o none chunks := hu.trans hdecide
  unfold State.othersKeep State.sameMemory State.passes
  beta_reduce
  rw [hu]
  generalize (s.dev.withoutJob y i).decideOp y t o none chunks = e at k1 k2 k7 k8
  have hjob : o.job = j := by rw [ho]; rfl
  have hdesc : o.desc = j.desc := congrArg DroveJob.desc hjob
  rw [hdesc] at k7 k8
  rw [k1.2]
  refine ⟨k1.1.others, o1, k3, k4.trans hjob, k5.trans (by rw [ho]; rfl), k6.trans (by rw [ho]; rfl), k2.jobs.trans h2,
    (h3.trans k2.bytes).rdByte, k7, fun hr => ?_⟩
  obtain ⟨k9, k10⟩ := k8 hr
  exact ⟨fun hf => ⟨(k9 hf).1.trans (by rw [ho]; rfl), (k9 hf).2⟩, k10⟩

end

end Sys2Proof.Machine
end

section
/-! O35: a team operation, step by step on one member (R381, R393 to R408). -/

namespace Sys2Proof.Machine

/-- Settles O35: the decision of a member, the flits of the handshake and of completion, and what ends an operation early. -/
theorem teamOperation : Obligations.TeamOperation := by
  unfold Obligations.TeamOperation
  intro y t h s m now plus _ hv hlink passes others becomes ends drops
  have hkeeps {c : Instr} {n : Team} {F : State → Prop} (hk : s.leavesTeam y t c n F) :
      Completes c s fun u => others u ∧ u.dev.team y t = n := by
    obtain ⟨u, hu, h1, h2, -⟩ := hk
    exact ⟨u, hu, h1, h2⟩
  refine ⟨?_, ?_, ?_, ?_, ?_, ?_, ?_⟩
  · intro i j hi hj hold hop p counts o box chunks refuses
    refine ⟨fun hs => memberDecide_refuses hi hj hold hop (.inl ⟨hs, rfl⟩),
      fun hs => memberDecide_refuses hi hj hold hop (.inr ⟨hs, rfl⟩), ?_⟩
    intro hst hnow hrank hclean hdepth href
    exact memberDecide_joins hi hj hold hop hlink hv ⟨hst, hnow, hrank, hclean, rfl, rfl, rfl, hdepth, href⟩
  · intro hh hst
    refine ⟨?_, ?_, ?_⟩
    · intro c holds
      refine ⟨fun hp => collect_goesBy hh hst hlink hv hp, fun hp => ⟨fun hn => ?_, ?_⟩⟩
      · exact hkeeps (collect_waits hh hst hp fun o ho => absurd (ho.symm.trans hn) (Option.some_ne_none o))
      · intro o ho starter
        refine ⟨fun hr hown ha => collect_returns hh hst hp ho hr hown ha, fun hr hown => ?_,
          fun hr hs ha => collect_joins hh hst hlink hv hp ho hr hs ha, fun hr hw => ?_⟩
        · refine hkeeps (collect_waits hh hst hp fun o' ho' => ?_)
          obtain rfl : o = o' := Option.some.inj (ho.symm.trans ho')
          rw [if_pos hr]
          exact hown
        · refine hkeeps (collect_waits hh hst hp fun o' ho' => ?_)
          obtain rfl : o = o' := Option.some.inj (ho.symm.trans ho')
          rw [if_neg hr]
          exact hw
    · intro hg htk code k r src l sh e c goesOn
      have hnone {P : TeamOp → Prop} : ∀ o, m.taking = some o → P o := fun o ho => absurd (htk.symm.trans ho).symm (Option.some_ne_none o)
      obtain ⟨v1, v2⟩ := verdict_passes hh hst hlink hv code r hnone
      obtain ⟨a1, a2⟩ := meta_passes hh hst hlink hv src l sh e hg
      obtain ⟨c1, c2⟩ := complete_passes hh hst hlink hv c hg
      obtain ⟨b1, b2⟩ := commit_passes hh hst hlink hv code k hnone
      exact ⟨fun h0 => ⟨v1 h0, a1 h0, c1 h0, b1 h0⟩, fun h0 => ⟨hkeeps (v2 h0), hkeeps (a2 h0), hkeeps (c2 h0), hkeeps (b2 h0)⟩⟩
    · intro o ht hl _ starter
      have hsome {P : TeamOp → Prop} (hp : P o) : ∀ o', m.taking = some o' → P o' := fun o' ho' => by
        obtain rfl : o = o' := Option.some.inj (ht.symm.trans ho')
        exact hp
      refine ⟨?_, ?_, ?_, ?_, ?_, ?_, ?_, ?_⟩
      · intro r hr hs hg hb
        exact ⟨fun ha => verdict_runs hh hst hlink hv ht hl hr hs hg hb ha r,
          fun code hc => verdict_ends hh hst hlink hv ht hl hr hs hg hb hc r⟩
      · intro code r h0 hr hw
        exact hkeeps ((verdict_passes hh hst hlink hv code r (hsome ⟨hr, hw⟩)).2 h0)
      · intro h0 hg
        have hidle : m.op.any (·.go) = false := by
          rw [(taking_spec ht).1]
          exact hg
        exact ⟨fun src l sh e => hkeeps ((meta_passes hh hst hlink hv src l sh e hidle).2 h0),
          fun c => hkeeps ((complete_passes hh hst hlink hv c hidle).2 h0),
          fun code k => hkeeps ((commit_passes hh hst hlink hv code k (hsome (.inl hg))).2 h0)⟩
      · intro src l sh e hne hg hm hr
        exact meta_kept hh hst ht src l sh e hne hg hm hr
      · intro c hg hr hs
        exact complete_commits hh hst hlink hv ht hl c hg hr hs
      · intro c hg hr hs hn hd
        exact complete_goesOn hh hst hlink hv ht hl c hg hr hs hn hd
      · intro k hg hr
        exact ⟨fun hs hc => commit_ends hh hst hlink hv ht hl _ k hg hr (.inr ⟨rfl, hs, hc⟩),
          fun hs hc => commit_goesOn hh hst hlink hv ht hl k hg hr hs hc,
          fun h0 hs => hkeeps ((commit_passes hh hst hlink hv _ k (hsome (.inr ⟨hr, hs, by decide⟩))).2 h0),
          commit_ends hh hst hlink hv ht hl _ k hg hr (.inl rfl)⟩
      · intro r hr hg
        exact abort_marks hh hst ht hl r hr hg
  · intro c o a ho hc hl hr hg hs hab ha hne hca hcr hcm
    exact verdictSend_runs hlink hv ho hc hr hg hs hab ha hne hca hcr hcm
  · intro o ho hl hg
    exact ⟨fun hp hgot => chunkLanded_counts hlink hv ho hl hg hp hgot, fun hr hs hd => completeStart_sends hlink hv ho hl hg hr hs hd,
      fun hn hr => severTimeout_ends ho hl hg hn hr⟩
  · intro hh hst r
    exact ⟨fun ha hr code => fail_breaks hlink hv hh ha r hr code, sever_severs hlink hv hh hst r⟩
  · intro hh hst code k r src l sh e c f fences
    exact ⟨flit_fences hh hst rfl, flit_fences hh hst rfl, flit_fences hh hst rfl, flit_fences hh hst rfl, flit_fences hh hst rfl,
      flit_fences hh hst rfl⟩
  · intro o ho hst ha hl hle
    exact hsLimitExpiry_breaks hlink hv ho hst ha hl hle

end Sys2Proof.Machine
end

end
